-- ==== Sys2Proof/Word.lean ====
section
/-! DEFINITION. Word types of the Kivar KV4 model: the widths the manual numbers bits in. -/

namespace Sys2Proof

/-- A 64-bit word of the management matrix (19 R411) or of a register (23 R473). -/
abbrev Word := BitVec 64

/-- One 64-byte line: the payload of a flit (04 R63) or a data beat (03 R43). -/
abbrev Line := BitVec 512

/-- A 64-entry-per-NI number space: local NI numbers 0-127 (01, "Network interfaces"). -/
abbrev NiId := BitVec 7

/-- Router numbers 0-63 (01, "Two planes on one mesh"). -/
abbrev RtrId := BitVec 6

/-- Span port numbers SP0-SP7 (05 R89). -/
abbrev SpId := BitVec 3

/-- Tracker tags 0-1,023 (04 R65). -/
abbrev Tag := BitVec 10

end Sys2Proof
end

