-- ==== Sys2Proof/Config.lean ====
section
/-! DEFINITION. What the manual leaves to the implementation: the free values (log 1, log 9). None has a body, so no
proof can see a value. -/

namespace Sys2Proof.Config

/-- A value the manual leaves open, taken afresh at each use: the argument is State.free (log 1). -/
opaque freeWord : Nat → BitVec 64

/-- SHA-384 of FIPS 180-4 over a byte string (15 R327, 22 R460): the standard's function, not written out (log 9). -/
opaque sha384 : List (BitVec 8) → List (BitVec 8)

/-- ECDSA P-384 verification of FIPS 186-5: public key, signed bytes, signature (15 R327; log 9). -/
opaque ecdsaVerify : List (BitVec 8) → List (BitVec 8) → List (BitVec 8) → Bool

/-- ML-DSA-65 verification of FIPS 204, pure form, empty context: public key, message, signature (15 R327; log 9). -/
opaque mldsaVerify : List (BitVec 8) → List (BitVec 8) → List (BitVec 8) → Bool

/-- Beat 0 of a PTM ResponseD, from the receive and transmit times; the manual gives no layout (04 R85; log 14). -/
opaque ptmLine : BitVec 64 → BitVec 64 → BitVec 512

/-- NBYTES of a PTM ResponseD, one beat (04 R85; log 14). -/
opaque ptmBytes : BitVec 6

/-- Host ID of an FM API request message, a routing ID; CXL's message layouts are not in the manual (13 R295; log 26). -/
opaque fmHost : List (BitVec 8) → Nat

/-- The extents an FM API request lists: starting DPA and length (13 R295; log 26). -/
opaque fmExtents : List (BitVec 8) → List (Nat × Nat)

/-- Target NI, DPA_BASE and TAG that an Initiate Dynamic Capacity Add gives an extent (13 R295; log 26). -/
opaque fmTarget : List (BitVec 8) → Nat → Nat × Nat × Nat

/-- An FM API response message: opcode, return code, and the values it reports (13 R295; log 26). -/
opaque fmResponse : Nat → Nat → List Nat → List (BitVec 8)

/-- tb_gate and tb_now of NI n while tb_valid is 0, which the manual leaves open (03 R56; log 1). -/
opaque tbOpen : Nat → Nat → BitVec 65

/-- The ep_clk period of an endpoint, in ps above the 500 ps of 2.0 GHz (03 R42; log 5). -/
opaque epClk : Nat → Nat

/-- The ep_clk period that an image declares for a port, in ps above 500, by NI and IMAGE_SEQ; the image format has no
field for it (06 R133; log 5). -/
opaque epClkImage : Nat → Nat → Nat

/-- The version of the Bridan generator that generated the instance (23 R476; log 4). -/
opaque genVer : BitVec 32

end Sys2Proof.Config
end

