-- ==== Sys2Proof/Syntax.lean ====
section
/-! DEFINITION. The commands of the block: one constructor per row of spec/opcode_table.json, with the operands the
event carries across the boundary of the instance or that name the unit at which it happens (log 6). -/

namespace Sys2Proof

/-- The two planes of the mesh (01 R14). -/
inductive Plane where
  | req | rsp
  deriving DecidableEq, Repr

/-- How many bits of a protected word arrived flipped: none, one (correctable) or more (uncorrectable) (04 R69). -/
inductive EccErr where
  | none | single | uncorrectable
  deriving DecidableEq, Repr

/-- The bits of one flit that arrive flipped (04 R69, 05 R91): of its 704 path wires, and of the 12 control wires beside it. -/
structure FlitErr where
  flip : BitVec 704
  ctl  : BitVec 12
  deriving DecidableEq, Repr

/-- A flit received without error. -/
def FlitErr.clean : FlitErr := ⟨0, 0⟩

/-- The masters of the management matrix, Table 19.1. -/
inductive Master where
  | cp | sec | fm | dbg | pwr | hst0 | hst1 | img
  deriving DecidableEq, Repr

/-- The test port's instructions that Table 22.7 tells apart (22 R466); an MBIST names the region it tests by kind and index (16
Table 16.13). -/
inductive JtagOp where
  | idcode | bypass | samplePreload | extest | otherInstr | scan | memRepair
  | mbist (kind : BitVec 2) (index : BitVec 7)
  deriving DecidableEq, Repr

/-- One checkpoint region read from a home (14 R316, R317): its header's MAGIC, VER, INST, CKNUM and START_SEQ, whether
the stored DIGEST is correct over it, the region's offset, and its body and grant section by index. -/
structure CkptRead where
  magic : BitVec 32
  ver : BitVec 16
  inst : BitVec 4
  cknum : BitVec 48
  startSeq : BitVec 48
  digestOk : Bool
  offset : Nat
  body : List (Nat × BitVec 128)
  grants : List (Nat × BitVec 128)
  deriving DecidableEq, Repr

/-- What recovery reads from one journal home (14 R318): the checkpoint regions found at the 2 MiB-aligned offsets, and
the 32-byte records by offset. -/
structure HomeRead where
  readable : Bool
  ckpts    : List CkptRead
  records  : List (Nat × BitVec 256)
  deriving DecidableEq, Repr

/-- The commands (spec/opcode_table.json). -/
inductive Instr where
  -- time base (02)
  | gateTick (slacks : List (BitVec 6))
  | tickOutFall
  | timStep (v : Word)
  | timLock
  | timSlew (v : BitVec 32)
  | referenceLoss
  | referenceStable
  | ppsEdge
  | ppsLost
  | ppsOutRise
  | ppsOutFall
  | tsyncSend (p : SpId)
  | tsyncLost (p : SpId)
  -- endpoint port (03)
  | ingressRequest (n : NiId) (hdr : BitVec 128)
  | ingressDataBeat (n : NiId) (rsp : Bool) (data : Line) (be : BitVec 64) (last gap : Bool)
  | ingressResponse (n : NiId) (hdr : BitVec 128)
  | egressCreditReturn (n : NiId) (rsp : Bool) (hg hb dg db : BitVec 2)
  | egressMessageStart (n : NiId) (rsp : Bool)
  | fenceStrobe (n : NiId) (rw pv : Bool) (pasid : BitVec 20) (id : BitVec 4)
  | fenceSatisfied (n : NiId) (slice : BitVec 4)
  | ntfRecordTaken (n : NiId)
  | epResetRequest (n : NiId)
  | epRstInEpChange (n : NiId) (v : Bool)
  | niRstInRaise (n : NiId)
  | epUpRaise (n : NiId)
  | rstStall (n : NiId)
  -- routers (05)
  | routerFlitArrive (pl : Plane) (x : RtrId) (port : BitVec 4) (err : FlitErr)
  | routerFlitForward (pl : Plane) (x : RtrId) (out : BitVec 4) (err : FlitErr)
  | linkCreditReturn (pl : Plane) (x : RtrId) (out : BitVec 4) (w : BitVec 16)
  | schussPass (pl : Plane) (x : RtrId) (out : BitVec 4) (fc : BitVec 12) (err eject : FlitErr)
  | escWaitExpire (pl : Plane) (x : RtrId) (port ch : BitVec 4)
  | mgRdReceive (node : BitVec 8)
  | mgWrReceive (node : BitVec 8)
  -- target and requester NI (08, 09, 11)
  | requestArriveAtTarget (n : NiId)
  | responseArriveAtRequester (n : NiId)
  | answerListDequeue (n : NiId)
  | pisteLaunch (n : NiId) (pl : Plane)
  | messageStart (n : NiId) (pl : Plane)
  | attachmentPieceSend (n : NiId) (alt : Bool) (pl : Plane)
  | wheelBucketBegin (n : NiId)
  | trackerTimeout (n : NiId) (tag : Tag)
  | pwDeadline (n : NiId) (tag : Tag)
  | mcQuarantineEnd (n : NiId) (tag : Tag)
  | drainComplete (n : NiId)
  | drainDeadline (n : NiId)
  | etcFillAnswer (n : NiId)
  | etcFillTimeout (n : NiId) (inst : BitVec 4) (x : BitVec 19)
  | etcFillResend (n : NiId) (inst : BitVec 4) (x : BitVec 19)
  | etcInvalidate (n : NiId) (inst : BitVec 4) (x : BitVec 19)
  | niEtcFlush (n : NiId)
  -- multicast (10)
  | mcCopyReplicate (x : RtrId) (port : BitVec 4)
  | gatherAnswer (x : RtrId) (port : BitVec 4)
  | gatherExpire (x : RtrId) (e : BitVec 8)
  | mcCopyAtMember (n : NiId)
  | memberTimeout (n : NiId) (e : BitVec 6)
  | notifyReceive (n : NiId)
  | ntfForward
  -- slices (11)
  | niSlcRst (n : NiId) (mask : BitVec 16)
  | sliceResetEnd (n : NiId) (slice : BitVec 4)
  -- span links (12)
  | linkFlitSend (p : SpId)
  | linkFlitReceive (p : SpId) (raw : BitVec 2048) (bad : Bool)
  | replayTimerExpire (p : SpId)
  | nakTimerExpire (p : SpId) (seq : BitVec 16)
  | spnRetrain (p : SpId)
  | phyDown (p : SpId)
  | peerRetrainRequest (p : SpId) (wide : Bool)
  | retrainDone (p : SpId) (up : Bool)
  | retrainTimeout (p : SpId)
  | widthCapDrop (p : SpId) (cap : BitVec 2)
  | spnForceDown (p : SpId)
  | spanKeyExpire (p : SpId)
  | graceExpire (p : SpId)
  | phyUp (p : SpId)
  | spanPisteStage (p : SpId)
  -- engines (13)
  | ringPiWrite (q : BitVec 4) (v : BitVec 12)
  | ringRciWrite (q : BitVec 4) (v : BitVec 12)
  | ringFetch (b : BitVec 3)
  | commandArrive (q : BitVec 4)
  | sanitise (slot : BitVec 6)
  | copy (slot : BitVec 6)
  | verify (slot : BitVec 6)
  | move
  | bind
  | unbind
  | share
  | sliceReset
  | admitFlow
  | admitPeerSegment (peer : BitVec 4) (req : BitVec 512)
  | release
  | telemetry (slot : BitVec 6)
  | groom (slot : BitVec 6)
  | fmIdentify
  | fmBackgroundOperationStatus
  | fmGetDcdInfo
  | fmGetDcRegionExtentLists
  | fmInitiateDcAdd
  | fmInitiateDcRelease
  | fmUnsupported
  | jobComplete (slot : BitVec 6)
  | workSteal (slot : BitVec 6)
  | parkWake (slot : BitVec 6)
  | commandComplete (q : BitVec 4)
  | ringReset (q : BitVec 4)
  | ringResume (q : BitVec 4)
  | moveMirrorExpire (n : NiId) (x : BitVec 19)
  | engineFail (e : BitVec 7)
  | extentOrphan (n : NiId)
  -- journal (14)
  | journalAppend
  | homeWriteAck (h : BitVec 1)
  | homeWriteRetry (h : BitVec 1)
  | ebtRepairDone (x : BitVec 19) (h0 h1 : Option (BitVec 128))
  | jrnRecover
  | groomNow
  | recoveryStart
  | recoveryDone (h0 h1 : HomeRead)
  | homeWaitTimeout
  -- image (15)
  | imgStart (m : Master)
  | imgData (m : Master) (v : Word)
  | imgAbort (m : Master)
  | imageVerifyDone
  | imagePrecheck
  | epochRelease
  -- power (16)
  | pwrSetLevel (m : Master) (req : BitVec 32)
  | pwrCg (m : Master) (req : BitVec 32)
  | pwrRet (m : Master) (req : BitVec 32)
  | pwrOff (m : Master) (req : BitVec 32)
  | pwrWake (m : Master) (req : BitVec 32)
  | pwrPgood
  | vrTimeout
  | regionDrainDone
  | regionDrainDeadline
  | regionEntryDone
  | regionWakeReady
  -- reset (17)
  | por
  | coldResetAssert
  | coldResetRelease
  | coldInitDone
  | glbRstCold (m : Master)
  | glbRstWarm (m : Master)
  | warmResetAssert
  | warmQuiesceDone
  | warmResetRelease
  | glbRstNi (m : Master) (w : BitVec 1) (mask : Word)
  | epClkLoss (n : NiId)
  -- faults (18)
  | wireSteer (pl : Plane) (x : RtrId) (port : BitVec 4) (g : BitVec 3)
  | wireCountExpire (pl : Plane) (x : RtrId) (port : BitVec 4) (g : BitVec 3)
  | routerHeartbeatLoss (x : RtrId)
  | glbFltDecl (m : Master) (v : BitVec 32)
  | rehomeDone
  | glbFltRestore (m : Master) (v : BitVec 32)
  | routerBistDone (pass : Bool)
  | rowRemap (kind : BitVec 3) (unit : BitVec 8) (row : BitVec 24) (err : EccErr) (bothCopies : Bool)
  -- management matrix (19)
  | mmRequest (m : Master) (addr : BitVec 32) (wr dataCls lock : Bool) (len : BitVec 8)
  | mmGrant (t : BitVec 4)
  | mmWriteBeat (m : Master) (data : Word) (strb : BitVec 8)
  | mmBurstPiece (t : BitVec 4)
  | lockBreak (t : BitVec 4)
  -- counters (20)
  | cntSnapCtl (v : Word)
  | counterSnapshot
  | snapshotDone
  | cntThrCfg (j : BitVec 6) (v : Word)
  -- slots (21)
  | sltPrsntChange (n : BitVec 6) (v : Bool)
  | presenceDebounced (n : BitVec 6)
  | moduleRemoval (n : BitVec 6)
  | slotPgoodRise (n : BitVec 6)
  | rampTimeout (n : BitVec 6)
  | slotFault (n : BitVec 6) (code : BitVec 2)
  | slotPgoodDrop (n : BitVec 6)
  | pgLost (n : BitVec 6)
  | retryEnd (n : BitVec 6)
  | slotFeedChange (n : BitVec 6) (feed : BitVec 2)
  | mclr (m : Master) (n : BitVec 6)
  | clear (m : Master) (n : BitVec 6)
  | plock (m : Master) (n : BitVec 6)
  | slotOff (m : Master) (n : BitVec 6) (force : Bool)
  | slotOn (m : Master) (n : BitVec 6)
  -- life cycle (22)
  | tokenStart (m : Master)
  | tokenData (m : Master) (v : Word)
  | tokenAbort (m : Master)
  | toProvision (fuseOk : Bool)
  | toField (fuseOk : Bool)
  | toReturn (fuseOk : Bool)
  | toScrap (fuseOk : Bool)
  | debugUnlock
  | floor (fuseOk : Bool)
  | keyProgram (m : Master) (v : BitVec 32) (fuseOk : Bool)
  | relock (m : Master)
  | sessionExpire
  | jtagInstruction (op : JtagOp)
  | testScanEnd (extest : Bool)
  -- register block (00, 23)
  | registerWrite (m : Master) (addr : BitVec 32) (data : Word) (strb : BitVec 8)
  | epRstReqEpFall (n : NiId)
  | rinkInResetRaise (b : BitVec 3)
  | tokenRefusal
  deriving DecidableEq, Repr

end Sys2Proof
end

