-- ==== Sys2Proof/Machine/State.lean ====
section
/-! DEFINITION. The state of one KV4 instance as plain data. Registers that software reads and writes live in `regs`, the
64-bit words of the management map (23 R473), each at its own address; what moves inside the units is typed below.
Maps are lists of (key, value) with rising keys; an unlisted key reads as the reset value of its kind. -/

namespace Sys2Proof.Machine

/-- A sparse table: keys rising, an unlisted key reads as the default the reader names. -/
abbrev Map (α : Type) := List (Nat × α)

/-- A message (04 R65, R73): header fields, check-unit fields, payload lines, and, of a piste message, the frame it is
charged to on this instance (06 R134); `taint`: a line of it arrived poisoned (04 R69);
`root`: of a multicast copy, the router it entered the instance at (10 R217). -/
structure Msg where
  dst : BitVec 12 := 0
  src : BitVec 12 := 0
  opc : BitVec 7 := 0
  cls : BitVec 2 := 0
  vcf : BitVec 3 := 0
  ep : BitVec 1 := 0
  gen : BitVec 8 := 0
  slice : BitVec 4 := 0
  tag : Tag := 0
  len : BitVec 7 := 0
  poison : Bool := false
  addr : BitVec 52 := 0
  crc : BitVec 32 := 0
  seq : BitVec 16 := 0
  hops : BitVec 2 := 0
  span : Bool := false
  nt : Bool := false
  pv : Bool := false
  pasid : BitVec 20 := 0
  nbytes : BitVec 13 := 0
  flow : BitVec 12 := 0
  inc : BitVec 4 := 0
  data : List Line := []
  charged : Option Nat := none
  taint : Bool := false
  root : Nat := 0
  deriving DecidableEq, Repr

/-- A flit (04 R63, R70, R77): flit 0 is the header flit, flit i the i-th payload flit; a packed flit lists the further
messages it holds. `ch`: the channel it occupies (VCI, 05 Table 05.4); `chk`: the payload check bytes as carried, each against the one
that its word asks for, so 0 unless a word arrived uncorrectable (04 R69); `gout`: of a piste flit written into a buffer, the output that
its header passed on (06 R132). -/
structure Flit where
  msg : Msg := {}
  idx : Nat := 0
  last : Bool := true
  line : Line := 0
  poison : Bool := false
  packed : List Msg := []
  ch : Nat := 0
  chk : BitVec 64 := 0
  gout : Option Nat := none
  deriving DecidableEq, Repr

/-- Wire-sparing state of one link and group (18 R388, R389); `due`: the frame in which a wire is steered out, and the wire. -/
structure Wire where
  pos : Nat := 0
  count : Nat := 0
  since : Nat := 0
  steered : Option Nat := none
  due : Option (Nat × Nat) := none
  deriving DecidableEq, Repr

/-- What the receiving end of a unit's links keeps (18 R389, R391): wires by link, plane and group; corrected errors by link and plane;
the times of uncorrectable words; and the channels on which the message arriving is discarded (04 R69). -/
structure LinkRx where
  wires : Map Wire := []
  wsCnt : Map Nat := []
  ueTimes : List Nat := []
  dropping : List Nat := []
  deriving DecidableEq, Repr

/-- Ordering kinds of ingress requests (08 Table 08.1). -/
inductive ReqKind where
  | read | write | fenceW | fenceRW | other
  deriving DecidableEq, Repr

/-- A request of a slice from its taking until it is completed or acknowledged (08 R173). `id` rises in taken order.
`beats` counts the data beats still to cross the port; `resolved` is the destination once it is known; `fill` the extent
whose ETC entry the request needs (09 R199); `ackBound` the acknowledgement bound of a piste posted write (08 R185). -/
structure Req where
  id : Nat := 0
  slice : BitVec 4 := 0
  kind : ReqKind := .other
  posted : Bool := false
  device : Bool := false
  piste : Bool := false
  hasAddr : Bool := false
  lineLo : Nat := 0
  lineCnt : Nat := 0
  start : Nat := 0
  nbytes : Nat := 0
  hostAddr : BitVec 52 := 0
  epTag : BitVec 10 := 0
  q : Nat := 0
  msg : Msg := {}
  fill : Option (BitVec 4 × BitVec 19) := none
  tag : Option Tag := none
  beats : Nat := 0
  issued : Bool := false
  pwEntries : Nat := 0
  oversize : Bool := false
  group : Option (BitVec 10) := none
  ackBound : Option Nat := none
  slot : Option Nat := none
  deriving DecidableEq, Repr

/-- Why a tracker entry is held (07 R167, R168; 10 R225). -/
inductive TrkHold where
  | live                       -- a request is outstanding
  | quarantine                 -- timed out: until a late response or a reset (07 R168)
  | mcQuarantine (untilNs : Nat) -- a multicast that ended in error (10 R225)
  deriving DecidableEq, Repr

/-- A tracker entry (07 R167). `flow` names the source entry whose reserve it belongs to (06 R128); `fwd` marks an entry
that only its own egress response frees (08 R180); `notify` a forwarded notification (23 R482); `mirror` a MOVE's mirrored
write of another requester's write (13 R293); `ep` the epoch the request was stamped with (05 R110). -/
structure Trk where
  slice : BitVec 4 := 0
  gen : BitVec 8 := 0
  hold : TrkHold := .live
  reqId : Nat := 0
  posted : Bool := false
  opc : BitVec 7 := 0
  epTag : BitVec 10 := 0
  hostAddr : BitVec 52 := 0
  dst : BitVec 12 := 0
  deadline : Option Nat := none
  flow : Option Nat := none
  group : Option (BitVec 10) := none
  fwd : Bool := false
  slot : Option Nat := none
  notify : Bool := false
  mirror : Option (BitVec 12 × Tag) := none
  ep : BitVec 1 := 0
  deriving DecidableEq, Repr

/-- A message that waits for an egress channel (03 R53): header, beats, pool, slice it is addressed to, the frame a piste
message was charged to, the tracker entry its presentation frees, and whether it is an error completion (03 R46). `be`: the
byte enables of a request's beats (03 R43); `ownTag`: a response whose TAG is the endpoint's own and outstanding until it is
presented (03 R44); `ptmRx`: of a PTM ResponseD, when its request was received (02 R38). -/
structure Egr where
  opc : Nat := 0
  piste : Bool := false
  hdr : BitVec 128 := 0
  data : List Line := []
  slice : Option (BitVec 4) := none
  charged : Option Nat := none
  frees : Option Tag := none
  err : Bool := false
  src : BitVec 12 := 0
  msg : Msg := {}
  be : List (BitVec 64) := []
  ownTag : Bool := true
  ptmRx : Option Nat := none
  deriving DecidableEq, Repr

/-- A fence in progress (03 R55, 08 R182), ordered after every request whose id is below `after`: a strobe with its
identifier, or the opcode form with its request. -/
structure Fence where
  slice : BitVec 4 := 0
  rw : Bool := false
  after : Nat := 0
  strobe : Option (BitVec 4) := none
  reqId : Option Nat := none
  deriving DecidableEq, Repr

/-- Where the data beats that the endpoint still has to send belong (03 R48). -/
inductive RxDest where
  | discard
  | req (id : Nat)
  | rsp (id : Nat)
  deriving DecidableEq, Repr

/-- Data beats still to come, in the order in which the headers were taken (03 R48). -/
structure Rx where
  dest : RxDest := .discard
  left : Nat := 0
  idx : Nat := 0
  piste : Bool := false
  start : Nat := 0
  nbytes : Nat := 0
  deriving DecidableEq, Repr

/-- The endpoint port of an NI (03). Credits per channel (erq, ers), kind (h, d) and pool (G, B). `accept`, `err`,
`errCode`, `rsAccept`, `fnReady`, `outErq` and `outErs` are the outputs as last driven; `fnDone` the identifiers pulsed on
ep_fn_done by the last command that pulsed any, in order; `inEpSeen`: the endpoint has entered reset since the reset began
(03 R58). -/
structure Port where
  up : Bool := false
  reqEp : Bool := false
  reqNi : Bool := false
  inEp : Bool := false
  inEpSeen : Bool := false
  inNi : Bool := false
  resetting : Bool := false
  reqNs : Nat := 0
  tbValid : Bool := false
  erqHG : Nat := 0
  erqHB : Nat := 0
  erqDG : Nat := 0
  erqDB : Nat := 0
  ersHG : Nat := 0
  ersHB : Nat := 0
  ersDG : Nat := 0
  ersDB : Nat := 0
  erqG : List Egr := []
  erqB : List Egr := []
  ersG : List Egr := []
  ersB : List Egr := []
  outErq : Option Egr := none
  outErs : Option Egr := none
  accept : Bool := false
  err : Bool := false
  errCode : Nat := 0
  rsAccept : Bool := false
  fnReady : Bool := false
  fnDone : List (BitVec 4) := []
  rqRx : List Rx := []
  rsRx : List Rx := []
  ntfQ : List Word := []
  deriving DecidableEq, Repr

/-- A response in the RSP half of a queue (07 R150); `att`: the attachment a gathered answer leaves on (10 R223). -/
structure RspEnt where
  id : Nat := 0
  msg : Msg := {}
  beats : Nat := 0
  att : Option Bool := none
  deriving DecidableEq, Repr

/-- An injection queue: its two halves and its rate limiter (07 R150 to R162). Credits in 1/16 byte, T in 1/256 ns. `fcCostQ`,
`fcCostS`, `fcTQ` and `fcTS`: what each half's starts of this fc have taken of the credit and added to T, which the other half's
judgement of the same fc leaves out (07 Table 07.3). -/
structure Queue where
  reqIds : List Nat := []
  rsp : List RspEnt := []
  defQ : Nat := 0
  defS : Nat := 0
  gotQ : Bool := false
  gotS : Bool := false
  actQ : Bool := false
  actS : Bool := false
  credit : Int := 16777216
  tUpd : Nat := 0
  tElig : Nat := 0
  sLast : Nat := 0
  cLast : Nat := 0
  wheel : Option Nat := none
  fcCostQ : Nat := 0
  fcCostS : Nat := 0
  fcTQ : Nat := 0
  fcTS : Nat := 0
  deriving DecidableEq, Repr

/-- A started message on its attachment (07 R156): flits still to send, channel index of 05 Table 05.3. -/
structure Prog where
  flits : List Flit := []
  ch : Nat := 0
  deriving DecidableEq, Repr

/-- A message that an NI makes outside its queues and that waits for an attachment and a channel (05 R97, R101); `att`: the
attachment its rule names. -/
structure OwnMsg where
  pl : Plane := .req
  msg : Msg := {}
  att : Option Bool := none
  deriving DecidableEq, Repr

/-- Scheduling state of an NI (07). `prog` and `credits` are keyed by attachment, plane and channel; `own` the messages that wait
outside the queues; `fc` the plane whose decision opened the present fc, and its time. -/
structure Sched where
  queues : Map Queue := []
  roundQ : BitVec 32 := 0
  roundS : BitVec 32 := 0
  ptrQ : Nat := 63
  ptrS : Nat := 63
  prog : Map (List Prog) := []
  credits : Map Nat := []
  own : List OwnMsg := []
  fc : Option (Plane × Nat) := none
  deriving DecidableEq, Repr

/-- One slice of an NI (11). `sc` is the share credit in 1/16 byte; `log` the error log, newest first. -/
structure Slice where
  gen : BitVec 8 := 0
  rst : Bool := false
  rstEnd : Nat := 0
  lastEnd : Option Nat := none
  ended : Nat := 0
  sc : Int := 0
  scUpd : Nat := 0
  log : List (Word × Word) := []
  deriving DecidableEq, Repr

/-- What a frame has been charged on one source entry (06 R121, R122): lines, messages, and the first slot not yet
taken. -/
structure Charge where
  frame : Nat := 0
  lines : Nat := 0
  hdrs : Nat := 0
  next : Nat := 0
  deriving DecidableEq, Repr

/-- A piste message accepted and staged until launch (06 R122, R127); `slot` is the flit slot it is laid in, of frame `laidIn`;
`gap`: its beats had a gap (03 R48). -/
structure Staged where
  ent : Nat := 0
  frame : Nat := 0
  slot : Option Nat := none
  laidIn : Nat := 0
  id : Nat := 0
  msg : Msg := {}
  beats : Nat := 0
  gap : Bool := false
  deriving DecidableEq, Repr

/-- Piste state of an NI or a span port (06): charges per source entry, staging, twin records by pair, SEQ counters by
instance, incarnation, and reserve entries in use per source entry. -/
structure Piste where
  charges : Map (List Charge) := []
  staged : List Staged := []
  twins : Map (BitVec 4 × BitVec 16) := []
  seq : Map (BitVec 16) := []
  inc : BitVec 4 := 0
  deriving DecidableEq, Repr

/-- A decode window (09 R194, Table 09.6). -/
structure Window where
  kind : BitVec 2 := 0
  rtype : Bool := false
  set : BitVec 5 := 0
  target : BitVec 12 := 0
  base : BitVec 40 := 0
  slices : BitVec 16 := 0
  limit : BitVec 40 := 0
  fabase : BitVec 40 := 0
  deriving DecidableEq, Repr

/-- A TBT row (09 R204, Table 09.6). While a MOVE runs (13 R293): `hidden` on the new NI; on the old one `mirror` names the
new NI and its device base, `copied` how many blocks are copied, `busy` that the next one is being copied, and `untilNs`
when the row goes. -/
structure TbtRow where
  tag : BitVec 6 := 0
  gen : BitVec 8 := 0
  dpa : BitVec 25 := 0
  way : Nat := 0
  hidden : Bool := false
  mirror : Option (BitVec 8 × BitVec 25) := none
  copied : Nat := 0
  busy : Bool := false
  untilNs : Option Nat := none
  deriving DecidableEq, Repr

/-- A BGT entry (10 R215, Table 10.5). -/
structure BgtRow where
  mc : Bool := false
  tgt : BitVec 12 := 0
  x : BitVec 19 := 0
  dpa : BitVec 25 := 0
  deriving DecidableEq, Repr

/-- An ETC entry (09 R199). -/
structure EtcRow where
  tni : BitVec 8 := 0
  gen : BitVec 8 := 0
  used : Nat := 0
  deriving DecidableEq, Repr

/-- A fill (09 R200): the tag its answer echoes; `resend` waits for the next gate tick; `dead`: its requests have ended at its
deadline, and its tag stays apart for the late answer. -/
structure Fill where
  inst : BitVec 4 := 0
  x : BitVec 19 := 0
  sentNs : Nat := 0
  stale : Bool := false
  resend : Bool := false
  tag : Tag := 0
  dead : Bool := false
  deriving DecidableEq, Repr

/-- Decode state of an NI (09): windows, TBT by extent, BGT by entry, ETC by {instance, X}, fills, and the rows that the
engines have written for the next gate tick (09 R210). -/
structure Dec where
  windows : Map Window := []
  tbt : Map TbtRow := []
  bgt : Map BgtRow := []
  etc : Map EtcRow := []
  fills : List Fill := []
  useCnt : Nat := 0
  tbtDue : List (Nat × Option TbtRow) := []
  bgtDue : List (Nat × Option BgtRow) := []
  deriving DecidableEq, Repr

/-- A member-table entry (10 R223); the deadline runs from presentation. `answered`: its answer waits to leave, and frees it; `due`: the
STAT with which a reset answers it, until the answer list has room. -/
structure Member where
  orig : BitVec 12 := 0
  tag : Tag := 0
  alt : Bool := false
  deadline : Option Nat := none
  opc : BitVec 7 := 0
  slice : BitVec 4 := 0
  gen : BitVec 8 := 0
  answered : Bool := false
  due : Option Nat := none
  deriving DecidableEq, Repr

/-- The slot manager of an NI (21): pins, timers and state. -/
structure SlotSt where
  prsntN : Bool := true
  pgood : Bool := false
  fltN : Bool := true
  feed : BitVec 2 := 0
  en : Bool := false
  debounced : Bool := false
  lowSince : Nat := 0
  highSince : Nat := 0
  rampNs : Nat := 0
  pgLow : Option Nat := none
  retryEnd : Nat := 0
  state : BitVec 3 := 0
  preq : Bool := false
  fcnt : BitVec 2 := 0
  cause : BitVec 4 := 0
  result : BitVec 4 := 0
  perm : Bool := false
  deriving DecidableEq, Repr

/-- An answer that the NI makes itself as a target, waiting in the answer list (09 R205); `att`: the attachment a gathered answer
leaves on (10 R223). -/
structure Answer where
  msg : Msg := {}
  piste : Bool := false
  att : Option Bool := none
  deriving DecidableEq, Repr

/-- Drain of an NI (08 R190). -/
structure Drain where
  active : Bool := false
  discard : Bool := false
  startFrame : Nat := 0
  startNs : Nat := 0
  timedOut : Bool := false
  deriving DecidableEq, Repr

/-- One network interface (01, 03 to 11, 21). `inReq`, `inRsp`: messages received whole, waiting for their checks, with the
attachment they came on; `partials`: messages still arriving, by attachment, plane and channel;
`lateMembers`: copies answered at their deadline (10 R223); `pulls`: D2H requests whose data was asked for, by endpoint tag
(04 R83); `mirrors`: writes whose acknowledgement waits for the copy's (13 R293), with the acknowledgement if it came; `rstSlices`: the
slices whose own reset ran when the NI reset began (11 R239). -/
structure Ni where
  port : Port := {}
  reqs : List Req := []
  nextId : Nat := 1
  trk : Map Trk := []
  fences : List Fence := []
  sched : Sched := {}
  slices : Map Slice := []
  pst : Piste := {}
  dec : Dec := {}
  inReq : List (Msg × Bool) := []
  inRsp : List (Msg × Bool) := []
  partials : Map (List Flit) := []
  answers : List Answer := []
  members : Map Member := []
  lateMembers : List (BitVec 12 × Tag) := []
  pulls : List (BitVec 10 × Trk × Tag) := []
  mirrors : List (BitVec 12 × Tag × Option Msg) := []
  drain : Drain := {}
  slot : SlotSt := {}
  region : BitVec 2 := 0
  inRst : Bool := false
  rstCause : Nat := 0
  rstFrame : Nat := 0
  rstSlices : List Nat := []
  attDown : BitVec 2 := 0
  rx : LinkRx := {}
  deriving DecidableEq, Repr

/-- A gather entry (10 R219, Table 10.6). STATE none is 3. `gen` and `slice` are the copy's, echoed on the answer; `due`: complete or
expired, its answer waits for its output (10 R220). -/
structure Gather where
  orig : BitVec 12 := 0
  tag : Tag := 0
  parent : BitVec 4 := 0
  child : BitVec 10 := 0
  done : BitVec 10 := 0
  gcnt : BitVec 8 := 0
  stat : BitVec 4 := 0
  st : BitVec 2 := 3
  blk : Bool := false
  notify : Bool := false
  deadline : Nat := 0
  gen : BitVec 8 := 0
  slice : BitVec 4 := 0
  due : Bool := false
  deriving DecidableEq, Repr

/-- A header's grant at an input port and channel (05 R109): the output and channel its continuation flits follow, or
the discard of the message. -/
structure Grant where
  out : Nat := 15
  ch : Nat := 0
  discard : Bool := false
  waited : Nat := 0
  hdr : Msg := {}
  deriving DecidableEq, Repr

/-- One plane of one router (05): input buffers by 16 x port + channel, each holding at most 4 flits; the grant of the
message at the head of each; credits and owners of the downstream channels by 16 x out + channel; flits under way on the
link into each port, and whether SCHN announces the next of them. `copies`: outputs a multicast copy has still to leave
on, by port, and its gather entry; `copyIdx`: the flits of the copy that have left on a branch, by 16 x port + output; `owed`: credits
that the downstream slots freed and the back channel has not yet returned, by 16 x out + channel (05 R91, R93); `gOut`: the output that
the last piste header of a port passed on, 15 for a buffered one (06 R132); `chHdr`: the header and next flit index of each message still
arriving; `dropping`: inputs whose arriving message is discarded. -/
structure RtrPlane where
  buf : Map (List Flit) := []
  grant : Map Grant := []
  credits : Map Nat := []
  owner : Map Nat := []
  link : Map (List Flit) := []
  schn : Map Bool := []
  lastIn : Map Nat := []
  lastCh : Map Nat := []
  gOut : Map Nat := []
  chHdr : Map (Msg × Nat) := []
  dropping : List Nat := []
  copies : Map (Nat × Nat) := []
  copyIdx : Map Nat := []
  owed : Map Nat := []
  deriving DecidableEq, Repr

/-- A calendar entry of a router output (06 R118, Table 06.13). -/
structure Preset where
  plane : Plane := .req
  out : Nat := 0
  group : Nat := 0
  lag : Nat := 0
  inp : Nat := 0
  flow : BitVec 12 := 0
  case : Option Nat := none
  deriving DecidableEq, Repr

/-- One router (05, 06, 10, 18). -/
structure Rtr where
  req : RtrPlane := {}
  rsp : RtrPlane := {}
  gather : Map Gather := []
  gthLast : Nat := 15
  presets : List Preset := []
  rx : LinkRx := {}
  failed : Bool := false
  self : List Msg := []
  deriving DecidableEq, Repr

/-- A held data link flit of the replay buffer (12 R265, R267): slots as (VC, POOL, FP, flit). -/
structure Held where
  seq : BitVec 16 := 0
  raw : BitVec 2048 := 0
  msgs : List Msg := []
  rpl : Nat := 0
  afterRt : Bool := false
  due : Bool := false
  sentNs : Nat := 0
  passed : Option Nat := none
  lastAct : Option Nat := none
  deriving DecidableEq, Repr

/-- A message held at a span port, waiting to cross (12 R258, R260): flits left to send in its pool. -/
structure SpanTx where
  msg : Msg := {}
  rsp : Bool := false
  pool : Nat := 0
  flits : List Flit := []
  fp : Bool := false
  mig : Option (BitVec 3) := none
  deriving DecidableEq, Repr

/-- One span port (12). `self`: management messages addressed to the port itself (05 R99). -/
structure Span where
  lstate : BitVec 3 := 0
  width : BitVec 2 := 0
  lead : Bool := false
  cause : BitVec 3 := 0
  phyUp : Bool := false
  widthCap : BitVec 2 := 0
  peerCap : BitVec 2 := 0
  peerNode : BitVec 12 := 0
  trainWidth : BitVec 2 := 0
  propSent : Bool := false
  rtReq : Bool := false
  rtPeer : Bool := false
  rtStart : Nat := 0
  resumeSent : Bool := false
  up : Bool := false
  upAt : Option Nat := none
  resumeAt : Option Nat := none
  txNext : BitVec 16 := 0
  rxNext : BitVec 16 := 0
  replay : List Held := []
  rob : Map (BitVec 2048) := []
  naks : List (BitVec 16) := []
  nakSent : Map Nat := []
  lastNakNs : Nat := 0
  credits : Map Nat := []
  pools : Map (List Flit) := []
  retCredit : Map Nat := []
  staging : List (Msg × Bool) := []
  partials : Map (List Flit) := []
  waiting : List SpanTx := []
  self : List Msg := []
  mig : List SpanTx := []
  migSeq : Option (BitVec 16) := none
  migDone : Bool := true
  ctlDue : List (BitVec 640) := []
  lastPool : Nat := 9
  keys : List (Nat × BitVec 16 × Nat) := []
  seqs : Map (BitVec 16) := []
  txFlit : Option (BitVec 2048) := none
  graceEnd : Nat := 0
  flushing : Bool := false
  pst : Piste := {}
  t1 : Option Nat := none
  xPrev : Int := 0
  lastTsync : Nat := 0
  rx : LinkRx := {}
  deriving DecidableEq, Repr

/-- A job: part of a data command (13 R289). The cursor counts the 4 KiB blocks already requested; `src` is a COPY's source
or a VERIFY's compare address; `direct` the NI when `fa` is a direct address; `check` the blocks a SANITISE has read back (CHK);
`diffs` the lowest differing address of each differing block, `got` data that wait for their counterpart (VERIFY). -/
structure Job where
  ring : Nat := 0
  cmd : Nat := 0
  op : BitVec 8 := 0
  fa : Nat := 0
  src : Nat := 0
  direct : Option (BitVec 12) := none
  blocks : Nat := 0
  cursor : Nat := 0
  outstanding : Nat := 0
  check : Nat := 0
  diffs : List Nat := []
  got : List (Nat × Bool × List Line) := []
  deriving DecidableEq, Repr

/-- A command in progress (13 R286, R290, R297). `step` is the step record of a control command; `extents` those a SANITISE
found RELEASED or an FM API command still has to treat; `host` the NI of a slot removal; `got` lines read for the command;
ring 16: a command the instance submitted itself, which has no completion entry. -/
structure Cmd where
  key : Nat := 0
  ring : Nat := 0
  entry : BitVec 512 := 0
  op : BitVec 8 := 0
  cid : BitVec 16 := 0
  ntf : Bool := false
  jobsLeft : Nat := 0
  waitingJobs : List Job := []
  status : BitVec 8 := 0
  result : Word := 0
  aux0 : BitVec 12 := 0
  aux1 : BitVec 12 := 0
  step : Nat := 0
  done : Bool := false
  abort : Bool := false
  extents : List Nat := []
  host : Nat := 0
  got : List Line := []
  deriving DecidableEq, Repr

/-- A slot of a rink (13 R283, R291): the head of `deque` is the newest job. -/
structure EngSlot where
  deque : List Job := []
  running : Option Job := none
  parked : Bool := false
  fails : Nat := 0
  ptr : Nat := 0
  rptr : Nat := 0
  ptrR : Map Nat := []
  closed : Bool := false
  waitTo : Nat := 0
  pushAt : Nat := 0
  takenNs : Option Nat := none
  deriving DecidableEq, Repr

/-- A command ring's fetch state (13 R285, R286). -/
structure Ring where
  fetching : Bool := false
  resetting : Bool := false
  stopped : Bool := false
  resetNs : Option Nat := none
  deriving DecidableEq, Repr

/-- A flow as ADMIT keeps it (06 R137): path links as (router, out), launch groups, parameters; `img`: an image flow (15
R339). -/
structure Flow where
  srcNode : BitVec 12 := 0
  srcIdx : Nat := 0
  dst : BitVec 12 := 0
  plane : Plane := .req
  allow : Nat := 0
  hdrs : Nat := 0
  maxlen : Nat := 0
  flr : Nat := 0
  trkN : Nat := 0
  nosby : Bool := false
  path : List (Nat × Nat) := []
  alt : Bool := false
  launch : List Nat := []
  twin : Option (BitVec 12) := none
  next : Option (BitVec 12) := none
  chain : Nat := 0
  tick : Nat := 0
  state : Nat := 0
  susp : Bool := false
  img : Bool := false
  standby : List (Nat × List (Nat × Nat)) := []
  deriving DecidableEq, Repr

/-- Engines, rings, queues (13) and the admitted flows of the instance (06). -/
structure Eng where
  slots : Map EngSlot := []
  failedE : List Nat := []
  rings : Map Ring := []
  cmds : List Cmd := []
  nextKey : Nat := 1
  ctlQ : List Nat := []
  admQ : List Nat := []
  lastRing : Map Nat := []
  flows : Map Flow := []
  nextChain : Nat := 1
  groomWanted : Bool := false
  wakes : List Nat := []
  fetchStop : List Nat := []
  peerAdmits : List (BitVec 512 × BitVec 8) := []
  refused : List (Nat × BitVec 8) := []
  invalOut : List Nat := []
  hops : Map Nat := []
  inbox : List (Nat × Nat × List Line × Nat) := []
  notes : List (Nat × Word) := []
  deriving DecidableEq, Repr

/-- A change that waits to be appended to the journal (14 R311) or a record held in the ring (14 R310); `key` names the
command that waits for it, `prio` its place among appends due at once (14 R311): 0 the control engine, 1 + b a SANITISE of rink b,
20 the slot manager; `off0`, `off1` its places in the homes. -/
structure Rec where
  key : Nat := 0
  prio : Nat := 0
  seq : Nat := 0
  typ : BitVec 8 := 1
  index : Nat := 0
  body : BitVec 128 := 0
  ack0 : Bool := false
  ack1 : Bool := false
  committed : Bool := false
  off0 : Nat := 0
  off1 : Nat := 0
  deriving DecidableEq, Repr

/-- A checkpoint in progress (14 R316): the GROOM it belongs to, its regions, and the entries other than zero as copied. -/
structure Ckpt where
  key : Nat := 0
  startSeq : Nat := 0
  off0 : Nat := 0
  off1 : Nat := 0
  chunks : Nat := 0
  hdr0 : Bool := false
  hdr1 : Bool := false
  stage : Nat := 0
  body : List (Nat × BitVec 128) := []
  deriving DecidableEq, Repr

/-- A home write not yet acknowledged (14 R313, R314, R316): where its bytes go; the record it carries, or that it is part of a
checkpoint (`ckpt`), its header (`hdr`); whether it was sent, and the frame in which it failed. -/
structure HomeWrite where
  seq : Option Nat := none
  hdr : Bool := false
  ckpt : Bool := false
  sent : Bool := false
  off : Nat := 0
  bytes : List (BitVec 8) := []
  failedAt : Option Nat := none
  deriving DecidableEq, Repr

/-- The journal unit (14). `repairs`: entries under repair; `unread`: entries whose repair read neither home (R308). -/
structure Jrn where
  todo : List Rec := []
  ring : List Rec := []
  outH0 : List HomeWrite := []
  outH1 : List HomeWrite := []
  episode0 : Bool := false
  episode1 : Bool := false
  ckpt : Option Ckpt := none
  recovering : Bool := false
  recWanted : Bool := false
  imageNs : Option Nat := none
  waitRaised : Bool := false
  fillsOpen : Bool := true
  repairs : List Nat := []
  unread : List Nat := []
  replaceHome : List Nat := []
  appendFc : Option (Nat × Nat) := none
  deriving DecidableEq, Repr

/-- The image loader (15). State: 0 IDLE, 1 RECEIVE, 2 VERIFY, 3 STAGED. -/
structure Img where
  st : BitVec 2 := 0
  bytes : List (BitVec 8) := []
  active : Map Word := []
  route : Map Word := []
  union : Option Nat := none
  loaded : Bool := false
  switchT : Nat := 0
  verifiedF : Nat := 0
  cold : Bool := false
  prechecked : Bool := false
  release : Option Nat := none
  micro : List (BitVec 8) := []
  deriving DecidableEq, Repr

/-- A power request in progress (16 R352). Phase codes of PWR_STAT.PHASE; `sub` 1 once a column's route set is switched;
`agedown`: placed by the controller because the level is blocked (18 R404). -/
structure PwrReq where
  req : BitVec 24 := 0
  phase : Nat := 0
  deadline : Nat := 0
  readyNs : Nat := 0
  agedown : Bool := false
  sub : Nat := 0
  deriving DecidableEq, Repr

/-- The power controller (16) and ageing monitors (18 R403). Levels are 0-3; `forced` is the level a blocked one is left for;
`back` the route set that a column's ended entry returns to; `marginUps` the rises (level, monitor, margin) whose regulation is
awaited; `saved` the regions whose save lists the save area holds (column c, 100 + rink, 200 + NI), their words standing in
`regs`; `ageSeen` the monitors that have measured since power-up. -/
structure Pwr where
  lvl : BitVec 2 := 2
  cur : Option PwrReq := none
  pend : Option (BitVec 24) := none
  forced : Option Nat := none
  back : Option Nat := none
  vid : BitVec 8 := 0x30
  vchg : Bool := false
  vwait : Bool := false
  pgood : Bool := true
  cols : Map (BitVec 2) := []
  rinks : Map (BitVec 2) := []
  marginUps : List (Nat × Nat × Nat) := []
  saved : List Nat := []
  ageSeen : List Nat := []
  deriving DecidableEq, Repr

/-- The reset controller (17): pins and phases; `pgSeen`: pwr_pgood was sampled 1 since power-up (24 R486). Warm phases: 0 none, 1 quiesce, 2 held in reset. -/
structure Rst where
  porN : Bool := true
  rstN : Bool := true
  wrstN : Bool := true
  inCold : Bool := false
  clearing : Bool := false
  initDone : Bool := true
  coldReq : Option Nat := none
  warm : Nat := 0
  warmNs : Nat := 0
  warmAt : Option Nat := none
  rinkInReset : List Nat := []
  pgSeen : Bool := true
  deriving DecidableEq, Repr

/-- The fault manager (18): the log; the router case in force; a failure switch due (router, frame); routers whose re-homing is not
done, with the time of their declaration; a self-test that runs; the frame in which the base case returns; corrected errors by
row; rows in spare rows, as (kind, unit, row). -/
structure Flt where
  log : List (Word × Word) := []
  caseR : Option Nat := none
  switchAt : Option (Nat × Nat) := none
  declared : List (Nat × Nat) := []
  bist : Option Nat := none
  restoreAt : Option Nat := none
  rowErrs : Map Nat := []
  rowMap : List (Nat × Nat × Nat) := []
  deriving DecidableEq, Repr

/-- One access of the matrix (19 R411), from its presentation to its last response. `granted`: its first piece has been; `piece`: a
further piece waits for arbitration (19 R417); `refused`: the code of an access that no target performs; `done`: beats served or
taken; `resp`: response beats not yet returned, with mm_rlast; `ended`: the last of them is there. -/
structure MmAcc where
  m : Master := .cp
  addr : BitVec 32 := 0
  wr : Bool := false
  data : Bool := false
  lock : Bool := false
  len : Nat := 0
  target : Nat := 15
  granted : Bool := false
  piece : Bool := false
  refused : Option (BitVec 2) := none
  done : Nat := 0
  err : Bool := false
  resp : List (BitVec 2 × Word × Bool) := []
  ended : Bool := false
  id : Nat := 0
  deriving DecidableEq, Repr

/-- Arbitration state of a target (19 R414, R418, Table 19.10). -/
structure MmTgt where
  park : Option (BitVec 3) := none
  locked : Option (BitVec 3) := none
  deriving DecidableEq, Repr

/-- The management matrix (19): accesses in transfer order, targets, broken sequences as 16 x master + target, and the response
beats that the last matrix event returned, as (master, code, data, last). -/
structure Mmx where
  accs : List MmAcc := []
  nextId : Nat := 0
  tgts : Map MmTgt := []
  broken : List Nat := []
  out : List (Nat × BitVec 2 × Word × Bool) := []
  deriving DecidableEq, Repr

/-- Counters (20): the tick a snapshot is armed for, and the tick of the snapshot being taken (R430, R431). The counter
words live in `regs`. -/
structure Cnt where
  armed : Option Nat := none
  taken : Option Nat := none
  deriving DecidableEq, Repr

/-- The life-cycle fuses (22 R457, R464): fields F1 to F4, and the intents of TO_RETURN and TO_SCRAP. A blown fuse stays blown. -/
structure Fuses where
  f1 : Bool := false
  f2 : Bool := false
  f3 : Bool := false
  f4 : Bool := false
  ir : Bool := false
  is : Bool := false
  deriving DecidableEq, Repr

/-- Fuses and the life-cycle unit (22). -/
structure Lcs where
  fuse : Fuses := {}
  keyE : Map (BitVec 384) := []
  keyM : Map (BitVec 384) := []
  jrnA : BitVec 256 := 0
  jrnB : BitVec 256 := 0
  floors : List (BitVec 48) := []
  devid : Word := 0
  nonce : Word := 0
  kbuf : BitVec 384 := 0
  busy : Bool := false
  bytes : List (BitVec 8) := []
  session : Option (BitVec 15 × Bool × Bool × Nat) := none
  jtag : JtagOp := .bypass
  deriving DecidableEq, Repr

/-- Notification routing (23 R478 to R482): the forward queue and the outstanding forward. -/
structure Ntf where
  last : Map (Word × Word) := []
  fwdQ : List Word := []
  fwdBusy : Bool := false
  deriving DecidableEq, Repr

/-- The time base (02): one count of 96 bits, in 2^-32 ns. `gate`: the cycle is the first of a frame (03 R56); `ppsAccepted`: the
time of the last accepted edge, or of the enabling, as the count has it now (02 R33). -/
structure Time where
  t : BitVec 96 := 0
  fracLatch : BitVec 32 := 0
  slewRem : Int := 0
  ppsTerm : Int := 0
  spanTerm : Int := 0
  ePrev : Int := 0
  hold : Bool := false
  returnDue : Bool := false
  ppsAccepted : Int := 0
  gate : Bool := false
  tickOut : Bool := false
  tickRise : Nat := 0
  ppsOut : Bool := false
  ppsRise : Nat := 0
  tickDue : Bool := false
  ppsDue : Bool := false
  deriving DecidableEq, Repr

/-- The profiles of Table 00.1. -/
inductive Profile where
  | f | h | q
  deriving DecidableEq, Repr

/-- What the generator fixed: profile and optional units (00 R2, R3; log 2). Never written. -/
structure Gen where
  profile : Profile := .f
  eng : Bool := true
  jrn : Bool := true
  spn : Bool := true
  slt : Bool := true
  gth : Bool := true
  deriving DecidableEq, Repr

/-- The instance. `regs`: management words by byte address; `pendT`: RW/T words waiting for the next gate tick (00 R7,
R8), each with the bits written. -/
structure State where
  gen : Gen := {}
  time : Time := {}
  regs : Map Word := []
  pendT : Map Word := []
  nis : Map Ni := []
  rtrs : Map Rtr := []
  spans : Map Span := []
  eng : Eng := {}
  jrn : Jrn := {}
  img : Img := {}
  pwr : Pwr := {}
  rst : Rst := {}
  flt : Flt := {}
  mmx : Mmx := {}
  cnt : Cnt := {}
  lcs : Lcs := {}
  ntf : Ntf := {}
  free : Nat := 0
  pending : List Instr := []
  deriving DecidableEq, Repr

/-- The machine right after reset: always-on power-up (17 R370) with the arrays cleared and GLB_RST_STAT.INIT_DONE set, as
it stands before any image (15 R332). Values the manual does not give are named in log 3, 4 and 5. -/
def State.reset : State := {}

/-- Why a step stops. No command of the table stops the block, so the one constructor is never raised by a meaning that
completes: it names a unit the operand encodes but no profile holds (log 7). -/
inductive Fault where
  /-- Raised by no meaning on well-formed operands; kept for a command whose operand is outside every profile. Safe:
  the hardware has no such unit to act at. -/
  | noSuchUnit
  deriving DecidableEq, Repr

/-- Why a command has no meaning. -/
inductive Refusal where
  /-- The command's meaning is not in the model yet. Safe: nothing is claimed about it. -/
  | notModelled (mnemonic : String)
  deriving DecidableEq, Repr

end Sys2Proof.Machine
end

