-- ==== Sys2Proof/Machine/Bits.lean ====
section
/-! DEFINITION. Bit fields, signed fields, sparse tables and small list operations that every chapter's meanings use. -/

namespace Sys2Proof.Machine

/-- Bits [hi:lo] of a word, as a number (00, "Numbers, units and bits"). -/
def fld {n : Nat} (w : BitVec n) (hi lo : Nat) : Nat := (w.toNat >>> lo) % 2 ^ (hi - lo + 1)

/-- Bit [i] of a word. -/
def bitOf {n : Nat} (w : BitVec n) (i : Nat) : Bool := w.getLsbD i

/-- The word with bits [hi:lo] replaced by v (modulo the field's width). -/
def setFld {n : Nat} (w : BitVec n) (hi lo v : Nat) : BitVec n :=
  (w &&& ~~~(BitVec.ofNat n ((2 ^ (hi - lo + 1) - 1) <<< lo))) ||| BitVec.ofNat n ((v % 2 ^ (hi - lo + 1)) <<< lo)

/-- The word with bit [i] set or cleared. -/
def setBit {n : Nat} (w : BitVec n) (i : Nat) (b : Bool) : BitVec n := setFld w i i b.toNat

/-- A word from its fields, each with the place of its lowest bit. -/
def packW (l : List (Nat × Nat)) : Word := BitVec.ofNat 64 (l.foldl (fun a p => a ||| p.2 <<< p.1) 0)

/-- A two's-complement field of the given width, read as a signed number. -/
def signedOf (width v : Nat) : Int :=
  if v % 2 ^ width < 2 ^ (width - 1) then ((v % 2 ^ width : Nat) : Int) else ((v % 2 ^ width : Nat) : Int) - (2 ^ width : Nat)

/-- A signed number as a two's-complement field of the given width. -/
def unsignedOf (width : Nat) (i : Int) : Nat := (i % ((2 ^ width : Nat) : Int)).toNat

/-- i clamped to [lo, hi]. -/
def clampInt (lo hi i : Int) : Int := if i < lo then lo else if hi < i then hi else i

/-- a - b for frame or sequence numbers of the given width (02 R28). -/
def subMod (width a b : Nat) : Nat := (a + 2 ^ width - b % 2 ^ width) % 2 ^ width

/-- v + d, not above top (a saturating counter). -/
def satAdd (top v d : Nat) : Nat := min top (v + d)

/-- The value a table lists for a key, if it lists one. -/
def mget {α : Type} (m : Map α) (k : Nat) : Option α :=
  match m with
  | [] => none
  | (k', v) :: r => if k' = k then some v else mget r k

/-- The value of a key, the default where the table lists none. -/
def mgetD {α : Type} (m : Map α) (k : Nat) (d : α) : α := (mget m k).getD d

/-- The table with key k holding v; rising keys stay rising. -/
def mset {α : Type} (m : Map α) (k : Nat) (v : α) : Map α :=
  match m with
  | [] => [(k, v)]
  | (k', v') :: r => if k' = k then (k, v) :: r else if k < k' then (k, v) :: (k', v') :: r else (k', v') :: mset r k v

/-- The table without key k. -/
def mdel {α : Type} (m : Map α) (k : Nat) : Map α := m.filter fun p => p.1 ≠ k

/-- The table without the keys that satisfy p. -/
def mdrop {α : Type} (m : Map α) (p : Nat → Bool) : Map α := m.filter fun q => !p q.1

/-- The value of key k replaced by f of it. -/
def mupd {α : Type} (m : Map α) (k : Nat) (d : α) (f : α → α) : Map α := mset m k (f (mgetD m k d))

/-- f applied to every listed value. -/
def mmap {α : Type} (m : Map α) (f : Nat → α → α) : Map α := m.map fun p => (p.1, f p.1 p.2)

/-- The first element that satisfies p, taken out of the list. -/
def takeFirst {α : Type} (l : List α) (p : α → Bool) : Option α × List α :=
  match l with
  | [] => (none, [])
  | a :: r => if p a then (some a, r) else ((takeFirst r p).1, a :: (takeFirst r p).2)

/-- f applied to the first element that satisfies p. -/
def updFirst {α : Type} (l : List α) (p : α → Bool) (f : α → α) : List α :=
  match l with
  | [] => []
  | a :: r => if p a then f a :: r else a :: updFirst r p f

/-- A list with a value inserted where the rising order of the list puts it, once. -/
def insertNat (l : List Nat) (k : Nat) : List Nat :=
  match l with
  | [] => [k]
  | a :: r => if a = k then a :: r else if k < a then k :: a :: r else a :: insertNat r k

/-- The element at place i of a list of numbers; 0 past the end. -/
def nth (l : List Nat) (i : Nat) : Nat := l.getD i 0

/-- How many of the low n bits of v are 1. -/
def popCount (n v : Nat) : Nat := ((List.range n).filter fun i => v.testBit i).length

/-- The places of the 1 bits among the low n bits of v, rising. -/
def onesOf (n v : Nat) : List Nat := (List.range n).filter fun i => v.testBit i

/-- Little-endian bytes (00 R4) of a number. -/
def bytesOf (count v : Nat) : List (BitVec 8) := (List.range count).map fun i => BitVec.ofNat 8 (v >>> (8 * i))

/-- The number that little-endian bytes spell (00 R4). -/
def natOf (l : List (BitVec 8)) : Nat :=
  match l with
  | [] => 0
  | b :: r => b.toNat + 256 * natOf r

/-- The bytes of l from place i on, at most c of them. -/
def sliceOf (l : List (BitVec 8)) (i c : Nat) : List (BitVec 8) := (l.drop i).take c

/-- The number in the c little-endian bytes from place i on. -/
def leAt (l : List (BitVec 8)) (i c : Nat) : Nat := natOf (sliceOf l i c)

/-- Quotient rounded up. -/
def ceilDiv (a b : Nat) : Nat := (a + (b - 1)) / b

/-- The list with f folded over it from the left, state first. -/
def foldState {α σ : Type} (s : σ) (l : List α) (f : σ → α → σ) : σ := l.foldl f s

/-- s unless the condition holds. -/
def onlyIf {σ : Type} (b : Bool) (s t : σ) : σ := if b then t else s

end Sys2Proof.Machine
end

