-- ==== Sys2Proof/Machine/Ops.lean ====
section
/-! DEFINITION. The operations every chapter shares: figures of the profile, the register words, time, node IDs, counters
and notifications. -/

namespace Sys2Proof.Machine

/-! Figures of the profile (00 Table 00.1) and which units exist (00 R3). -/

/-- Router columns (00 Table 00.1). -/
def nCols (s : State) : Nat := match s.gen.profile with | .f => 8 | .h => 8 | .q => 4
/-- Router rows (00 Table 00.1). -/
def nRows (s : State) : Nat := match s.gen.profile with | .f => 8 | .h => 4 | .q => 4
/-- Routers (00 Table 00.1). -/
def nRtrs (s : State) : Nat := nCols s * nRows s
/-- Endpoint NIs (00 Table 00.1). -/
def nEpNis (s : State) : Nat := match s.gen.profile with | .f => 120 | .h => 56 | .q => 24
/-- Rinks and service NIs (00 Table 00.1). -/
def nRinks (s : State) : Nat := match s.gen.profile with | .f => 8 | .h => 4 | .q => 2
/-- Span ports (00 Table 00.1). -/
def nSpans (s : State) : Nat := match s.gen.profile with | .f => 8 | .h => 4 | .q => 2
/-- EBT entries (00 Table 00.1). -/
def nExtents (s : State) : Nat := match s.gen.profile with | .f => 524288 | .h => 262144 | .q => 131072
/-- Piste flows (00 Table 00.1). -/
def nFlows (s : State) : Nat := match s.gen.profile with | .f => 4096 | .h => 2048 | .q => 1024
/-- Multicast groups (00 Table 00.1). -/
def nGroups (s : State) : Nat := match s.gen.profile with | .f => 1024 | .h => 512 | .q => 256
/-- Slot control ports (00 Table 00.1). -/
def nSlots (s : State) : Nat := match s.gen.profile with | .f => 64 | .h => 32 | .q => 16
/-- XH express links (00 Table 00.1). -/
def hasXh (s : State) : Bool := s.gen.profile != .q
/-- XV express links (00 Table 00.1). -/
def hasXv (s : State) : Bool := s.gen.profile == .f
/-- The profile with every optional unit (00, "Profiles"). -/
def isComplete (s : State) : Bool :=
  s.gen.profile == .f && s.gen.eng && s.gen.jrn && s.gen.spn && s.gen.slt && s.gen.gth
/-- An endpoint NI of the instance (01, "Network interfaces"). -/
def isEpNi (s : State) (n : Nat) : Bool := n < nEpNis s
/-- A service NI of the instance (01, "Network interfaces"); without service engines no rink has one in service. -/
def isSvcNi (s : State) (n : Nat) : Bool := 120 ≤ n && n < 120 + nRinks s
/-- An NI of the instance. -/
def isNi (s : State) (n : Nat) : Bool := isEpNi s n || isSvcNi s n
/-- A router of the instance. -/
def isRtr (s : State) (x : Nat) : Bool := x < nRtrs s
/-- A span port of the instance (00 R3: an optional unit). -/
def isSpan (s : State) (p : Nat) : Bool := s.gen.spn && p < nSpans s
/-- The NIs of the instance, in order. -/
def niList (s : State) : List Nat := List.range (nEpNis s) ++ (List.range (nRinks s)).map (120 + ·)

/-! Register words (23 R473). -/

/-- Base of an NI block (23 Table 23.2). -/
def aNi (n off : Nat) : Nat := 0x200000 + 0x2000 * n + off
/-- Base of a router block (23 Table 23.2). -/
def aRtr (x off : Nat) : Nat := 0x100000 + 0x1000 * x + off
/-- Base of a span port block (23 Table 23.2). -/
def aSpn (p off : Nat) : Nat := 0x20000 + 0x2000 * p + off
/-- Base of the TIM block. -/
def aTim (off : Nat) : Nat := 0x10000 + off
/-- Base of the PWR block. -/
def aPwr (off : Nat) : Nat := 0x11000 + off
/-- Base of the LCS block. -/
def aLcs (off : Nat) : Nat := 0x12000 + off
/-- Base of the IMG block. -/
def aImg (off : Nat) : Nat := 0x13000 + off
/-- Base of the MMX block. -/
def aMmx (off : Nat) : Nat := 0x14000 + off
/-- Base of the JRN block. -/
def aJrn (off : Nat) : Nat := 0x18000 + off
/-- Base of the CNT block. -/
def aCnt (off : Nat) : Nat := 0x400000 + off
/-- Base of the ENG block. -/
def aEng (off : Nat) : Nat := 0x800000 + off

/-- Reset value of an NI's register word, by its offset in the block (03, 07, 08, 11, 21). -/
def niResetWord (off : Nat) : Word :=
  if off = 0x000 then 0x4#64
  else if off = 0x0C8 then 0x40040#64
  else if off = 0x130 then 0x1#64
  else if off = 0x140 then 0x0000100004004000#64
  else if off = 0x148 then 0x00821000#64
  else if off = 0x158 then 0x40000#64
  else if off = 0x1F00 then 0x56400#64
  else if 0xC00 ≤ off ∧ off < 0x1C00 then
    match (off - 0xC00) % 0x40 with
    | 0x00 => 0x40#64
    | 0x08 => 0x40001000#64
    | 0x10 => 0xFFFF800010000008#64
    | 0x30 => 0xFFFFFFFFFFFFFFFF#64
    | 0x38 => 0xFFFFFFFFFFFFFFFF#64
    | _ => 0#64
  else 0#64

/-- Reset value of a router's register word (05 Tables 05.10 and 05.14). -/
def rtrResetWord (off : Nat) : Word :=
  if off = 0x008 then 0x108#64
  else if 0x400 ≤ off ∧ off < 0x800 ∧ (off - 0x400) % 0x100 < 144 then 0xF000F000F000F000#64
  else 0#64

/-- Reset value of MMX_PRI of a target: the priorities of Table 19.2, with 0 for a barred pair; DBG's field holds 2 wherever a
life-cycle state may let it through (19 R410, R421). -/
def mmxPriReset (t : Nat) : Word :=
  BitVec.ofNat 64 (
    if t < 3 then (if t = 0 then 0xC44A2688 else 0xC44A2088)
    else if t < 6 then 0x00002088
    else if t = 6 then 0xC0002688
    else if t < 10 then 0xC0002608
    else if t = 10 then 0xC44A2608
    else if t = 11 then 0xC0002608
    else if t < 14 then 0xC0002688
    else if t = 14 then 0x04402008
    else 0)

/-- Reset value of an MMX word (19 Table 19.9). -/
def mmxResetWord (off : Nat) : Word := if 0x100 ≤ off ∧ off < 0x180 then mmxPriReset ((off - 0x100) / 8) else 0#64

/-- Reset value of the register word at a management address: what an unlisted word reads as. -/
def resetWord (a : Nat) : Word :=
  if 0x200000 ≤ a ∧ a < 0x300000 then niResetWord ((a - 0x200000) % 0x2000)
  else if 0x100000 ≤ a ∧ a < 0x140000 then rtrResetWord ((a - 0x100000) % 0x1000)
  else if a < 0x10000 then
    (if a = 0x108 then 1#64
     else if a = 0x200 then 0xFFFFFFFFFFFFFFFF#64
     else if a = 0x208 then 0x3FFF#64
     else if a = 0x520 then 0x10020040#64
     else if a = 0xF000 then 0x410#64
     else 0#64)
  else if a = 0x10030 then 0x6400000000#64
  else if a = 0x11020 then 0x640F0200#64
  else if a = 0x11080 then 0x08000400#64
  else if 0x14000 ≤ a ∧ a < 0x15000 then mmxResetWord (a - 0x14000)
  else if 0x800008 ≤ a ∧ a < 0x800048 then 0x76543210#64
  else if 0x800120 ≤ a ∧ a < 0x800500 ∧ (a - 0x800120) % 0x40 = 0 then 0x0001000000000000#64
  else 0#64

/-- The word stored at an 8-byte-aligned management address. -/
def rd (s : State) (a : Nat) : Word := mgetD s.regs a (resetWord a)

/-- A table of words with one written; the canonical form drops a word equal to its reset value. -/
def putWord (m : Map Word) (a : Nat) (v : Word) : Map Word :=
  if v = resetWord a then mdel m a else mset m a v

/-- The state with the word at an 8-byte-aligned address replaced. -/
def wr (s : State) (a : Nat) (v : Word) : State := { s with regs := putWord s.regs a v }

/-- Field [hi:lo] of the word at an address. -/
def rdF (s : State) (a hi lo : Nat) : Nat := fld (rd s a) hi lo

/-- The state with field [hi:lo] of the word at an address replaced. -/
def wrF (s : State) (a hi lo v : Nat) : State := wr s a (setFld (rd s a) hi lo v)

/-- The state with flag [i] of the word at an address set. -/
def setFlag (s : State) (a i : Nat) : State := wr s a (rd s a ||| BitVec.ofNat 64 (1 <<< i))

/-- A 32-bit counter register advanced by d, saturating (its chapter says "saturating"). -/
def incSat (s : State) (a d : Nat) : State := wr s a (BitVec.ofNat 64 (satAdd 0xFFFFFFFF (rd s a).toNat d))

/-- The value of the w-byte register at byte address a (23 R473). -/
def rdBytes (s : State) (a w : Nat) : Nat := fld (rd s (a - a % 8)) (8 * (a % 8) + 8 * w - 1) (8 * (a % 8))

/-- The state with the w-byte register at byte address a replaced. -/
def wrBytes (s : State) (a w v : Nat) : State :=
  wr s (a - a % 8) (setFld (rd s (a - a % 8)) (8 * (a % 8) + 8 * w - 1) (8 * (a % 8)) v)

/-! Answers. -/

/-- The outcome of a command that s takes to t: never another generated profile (00 R2), another queue (the queue is step's own), or
another life-cycle fuse (22 R464). -/
def answer (s t : State) : Host.Outcome State Fault Refusal :=
  .next { t with gen := s.gen, pending := s.pending, lcs := { t.lcs with fuse := s.lcs.fuse } }

/-- The fuses blown in either: a fuse is blown once and for all (22 R457). -/
def Fuses.join (a b : Fuses) : Fuses :=
  { f1 := a.f1 || b.f1, f2 := a.f2 || b.f2, f3 := a.f3 || b.f3, f4 := a.f4 || b.f4, ir := a.ir || b.ir, is := a.is || b.is }

/-- The outcome of a command of the life-cycle unit, which may blow fuses. -/
def answerFuse (s t : State) : Host.Outcome State Fault Refusal :=
  .next { t with gen := s.gen, pending := s.pending, lcs := { t.lcs with fuse := s.lcs.fuse.join t.lcs.fuse } }

/-! Units. -/

/-- NI n. -/
def getNi (s : State) (n : Nat) : Ni := mgetD s.nis n {}
/-- The state with NI n replaced. -/
def setNi (s : State) (n : Nat) (v : Ni) : State := { s with nis := mset s.nis n v }
/-- The state with NI n changed by f. -/
def updNi (s : State) (n : Nat) (f : Ni → Ni) : State := setNi s n (f (getNi s n))
/-- The state with the port of NI n changed by f. -/
def updPort (s : State) (n : Nat) (f : Port → Port) : State := updNi s n fun i => { i with port := f i.port }
/-- Slice k of an NI. -/
def getSlice (i : Ni) (k : Nat) : Slice := mgetD i.slices k {}
/-- The NI with slice k changed by f. -/
def updSlice (i : Ni) (k : Nat) (f : Slice → Slice) : Ni := { i with slices := mupd i.slices k {} f }
/-- Router x. -/
def getRtr (s : State) (x : Nat) : Rtr := mgetD s.rtrs x {}
/-- The state with router x changed by f. -/
def updRtr (s : State) (x : Nat) (f : Rtr → Rtr) : State := { s with rtrs := mupd s.rtrs x {} f }
/-- One plane of a router. -/
def planeOf (r : Rtr) (p : Plane) : RtrPlane := match p with | .req => r.req | .rsp => r.rsp
/-- The state with one plane of router x changed by f. -/
def updPlane (s : State) (p : Plane) (x : Nat) (f : RtrPlane → RtrPlane) : State :=
  updRtr s x fun r => match p with | .req => { r with req := f r.req } | .rsp => { r with rsp := f r.rsp }
/-- Span port p. -/
def getSpan (s : State) (p : Nat) : Span := mgetD s.spans p {}
/-- The state with span port p changed by f. -/
def updSpan (s : State) (p : Nat) (f : Span → Span) : State := { s with spans := mupd s.spans p {} f }

/-! Time (02). -/

/-- TIM_NOW (02 R20). -/
def nowNs (s : State) : Nat := s.time.t.toNat >>> 32
/-- The frame number, TIM_NOW[57:10] (02 R26). -/
def frameOf (s : State) : Nat := (nowNs s >>> 10) % 2 ^ 48
/-- The frame d frames after the current one (02 R28: modulo 2^48). -/
def frameIn (s : State) (d : Nat) : Nat := (frameOf s + d) % 2 ^ 48
/-- The position in the frame, ns. -/
def posOf (s : State) : Nat := nowNs s % 1024
/-- The count lies in the cycle of the gate tick: a positive rate correction may carry it past position 0 (02 R20; log 6). -/
def atTick (s : State) : Bool := posOf s ≤ 1
/-- Frame a is b or later (02 R28). -/
def frameGe (a b : Nat) : Bool := subMod 48 a b < 2 ^ 47

/-! Node IDs (01, "Network interfaces"). -/

/-- The instance number, GLB_PROFILE.INST (01 R19). -/
def instNo (s : State) : Nat := rdF s 0x8 11 8
/-- Node ID of a local number. -/
def nodeOf (s : State) (loc : Nat) : BitVec 12 := BitVec.ofNat 12 (256 * instNo s + loc)
/-- Instance number of a node ID. -/
def nodeInst (d : BitVec 12) : Nat := d.toNat / 256
/-- Local number of a node ID. -/
def nodeLoc (d : BitVec 12) : Nat := d.toNat % 256

/-! Free values (log 1). -/

/-- A value the manual leaves open, and the state that has used it up. -/
def takeFree (s : State) : Word × State := (Config.freeWord s.free, { s with free := s.free + 1 })

/-! Notifications (18 R386, R387; 23 R478 to R482; 03 R57) and counters (20 R422, R432). -/

/-- A notification: the raising unit's local number, code, severity, detail, and the endpoint NI and slice it concerns
(slice 15 with none: a port-wide record). -/
structure Note where
  unit : Nat
  code : Nat
  sev : Nat
  info : Nat
  port : Option Nat
  slice : Nat
  deriving DecidableEq, Repr

/-- The record of Table 03.10. -/
def noteRecord (e : Note) : Word :=
  BitVec.ofNat 64 ((e.slice % 16) <<< 60 ||| (e.sev % 4) <<< 58 ||| (e.code % 1024) <<< 48 ||| e.info % 2 ^ 48)

/-- Word LOG1 of Table 18.3. -/
def noteLog1 (s : State) (e : Note) : Word :=
  BitVec.ofNat 64 ((e.sev % 4) <<< 62 ||| (e.code % 1024) <<< 52 ||| frameOf s)

/-- Word LOG0 of Table 18.3. -/
def noteLog0 (s : State) (e : Note) : Word := BitVec.ofNat 64 ((nodeOf s e.unit).toNat <<< 48 ||| e.info % 2 ^ 48)

/-- A record arrives at the notification queue of port n (03 R57). -/
def portNote (s : State) (n sev : Nat) (r : Word) : State :=
  if bitOf (rd s (aNi n 0)) 2 = false then s
  else if sev < rdF s (aNi n 0) 9 8 then s
  else if (getNi s n).port.ntfQ.length < 16 then updPort s n fun p => { p with ntfQ := p.ntfQ ++ [r] }
  else incSat s (aNi n 0x20) 1

/-- A record waits for its forward, or is dropped and counted (23 R482). -/
def fwdNote (s : State) (e : Note) : State :=
  let c := rd s 0x110
  if bitOf c 15 = false ∨ e.sev < fld c 13 12 then s
  else if s.ntf.fwdQ.length < 16 then { s with ntf := { s.ntf with fwdQ := s.ntf.fwdQ ++ [noteRecord e] } }
  else wrF s 0x130 31 16 (satAdd 0xFFFF (rdF s 0x130 31 16) 1)

/-- The fault log takes a record of warning or above (18 R387); GLB_FLT_LCNT counts it. -/
def logNote (s : State) (e : Note) : State :=
  if e.sev = 0 then s
  else
    let t := { s with flt := { s.flt with log := ((noteLog1 s e, noteLog0 s e) :: s.flt.log).take 64 } }
    incSat t 0x540 1

/-- A notification takes all its routes (23 R478). -/
def routeNote (s : State) (e : Note) : State :=
  let s1 := match e.port with
    | some n => if isEpNi s n then portNote s n e.sev (noteRecord e) else s
    | none => s
  let s2 := { s1 with ntf := { s1.ntf with last := mset s1.ntf.last (e.code / 16) (noteLog0 s e, noteLog1 s e) } }
  let s3 := if rdF s2 0x108 1 0 ≤ e.sev then setFlag s2 0x100 (e.code / 16 % 64) else s2
  fwdNote (logNote s3 e) e

/-- Of two records of one group that one command raises GLB_NTF_LAST keeps the one of higher severity, on equal severity the one of
the lower unit (23 R479): here the first, which it held in u. -/
def keepLast (u t : State) (g : Nat) : State :=
  { t with ntf := { t.ntf with last := mset t.ntf.last g (mgetD u.ntf.last g (0, 0)) } }

/-- Word of comparator configuration j (20 Table 20.8). -/
def aThr (j : Nat) : Nat := 0x400100 + 16 * j

/-- Comparator j, if counter i went from old to new without a wrap past THR, fires (20 R432). -/
def fireThr (i old new : Nat) (s : State) (j : Nat) : State :=
  let c := rd s (aThr j)
  let thr := fld (rd s (aThr j + 8)) 47 0
  if bitOf c 63 ∧ fld c 13 0 = i ∧ old < thr ∧ thr ≤ new then
    let s1 := wr s (0x400800 + 8 * j) (BitVec.ofNat 64 new)
    let s2 := wr s1 (aThr j) (setFld c 63 62 1)
    routeNote s2 ⟨247, 0x200, min (fld c 61 60) 1, j <<< 42 ||| i <<< 28 ||| frameOf s % 2 ^ 28, none, 15⟩
  else s

/-- The comparators whose configuration is listed: all others have EN at 0. -/
def listedThr (s : State) : List Nat :=
  (s.regs.filter fun p => 0x400100 ≤ p.1 && p.1 < 0x400500 && p.1 % 16 == 0).map fun p => (p.1 - 0x400100) / 16

/-- Counter i adds d events (20 R422): modulo 2^48, OVF and ANY_OVF sticky; comparators are judged. -/
def bump (s : State) (i d : Nat) : State :=
  if d = 0 then s
  else
    let a := 0x410000 + 8 * i
    let w := rd s a
    let v := fld w 47 0 + d
    let ovf := bitOf w 48 || decide (2 ^ 48 ≤ v)
    let s0 := wr s a (BitVec.ofNat 64 (ovf.toNat <<< 48 ||| v % 2 ^ 48))
    let s1 := if 2 ^ 48 ≤ v then setFlag s0 (aCnt 0) 2 else s0
    (listedThr s1).foldl (fireThr i (fld w 47 0) (v % 2 ^ 48)) s1

/-- Event e of router x. -/
def evRtr (s : State) (x e d : Nat) : State := bump s (32 * x + e) d
/-- Event e of NI n. -/
def evNi (s : State) (n e d : Nat) : State := bump s (2048 + 48 * n + e) d
/-- Event e of span port p. -/
def evSpn (s : State) (p e d : Nat) : State := bump s (8192 + 24 * p + e) d
/-- Event e of engine g. -/
def evEng (s : State) (g e d : Nat) : State := bump s (8384 + 16 * g + e) d

/-- A unit raises a notification; an NI counts it (20 Table 20.3, event 15). -/
def raise (s : State) (e : Note) : State := routeNote (if e.unit < 128 then evNi s e.unit 15 1 else s) e

/-- A notification of a unit without a port. -/
def raiseG (s : State) (unit code sev info : Nat) : State := raise s ⟨unit, code, sev, info, none, 15⟩

/-- A notification of NI n that concerns a slice of it (15: the port). -/
def raiseNi (s : State) (n code sev info slice : Nat) : State := raise s ⟨n, code, sev, info, some n, slice⟩

/-- A notification whose INFO the manual does not lay out: a free value (log 1). -/
def raiseGFree (s : State) (unit code sev : Nat) : State :=
  raiseG (takeFree s).2 unit code sev ((takeFree s).1.toNat % 2 ^ 48)

/-- The same, of an NI and a slice of it. -/
def raiseNiFree (s : State) (n code sev slice : Nat) : State :=
  raiseNi (takeFree s).2 n code sev ((takeFree s).1.toNat % 2 ^ 48) slice

/-- Address of a live word. -/
def isLive (a : Nat) : Bool := decide (0x410000 ≤ a) && decide (a < 0x422A00)

/-! The KV3 window (23 R483, Table 23.7). -/

/-- The KV4 word that a word of the window names. -/
def kv3Of (off : Nat) : Option Nat :=
  if off = 0x08 then some 0x10008
  else if off = 0x10 then some 0x10018
  else if off = 0x18 then some 0x20
  else if off = 0x20 then some 0x100
  else if 0x10000 ≤ off ∧ off < 0x10000 + 0x100 * 120 ∧ off % 0x100 < 0x20 then
    some (aNi ((off - 0x10000) / 0x100) (match off % 0x100 with | 0x00 => 0x00 | 0x08 => 0x08 | 0x10 => 0x10 | _ => 0xC8))
  else if 0x20000 ≤ off ∧ off < 0x20000 + 8 * 9536 then some (0x410000 + (off - 0x20000))
  else if 0x40000 ≤ off ∧ off < 0x42000 then some (0x8000 + (off - 0x40000))
  else none

/-- An address of the window. -/
def inKv3 (a : Nat) : Bool := decide (0x3000000 ≤ a) && decide (a < 0x4000000)

/-- The address an access acts at: through the window, the alias's; none where the window holds no register. -/
def aliasOf (s : State) (a : Nat) : Option Nat :=
  if inKv3 a then (if isComplete s then kv3Of (a - 0x3000000) else none) else some a

end Sys2Proof.Machine
end

