-- ==== Sys2Proof/Machine/Flags.lean ====
section
/-! DEFINITION. Opcodes and their properties, response status, check codes and CRCs (03 Tables 03.5 and 03.15; 04; 12). -/

namespace Sys2Proof.Machine

/-! Opcodes (04 Table 04.5), as numbers. -/

/-- MREQ, 0x00 to 0x0F. -/
def isMreq (o : Nat) : Bool := o < 0x10
/-- BISNP, 0x30 to 0x3F. -/
def isBisnp (o : Nat) : Bool := 0x30 ≤ o && o < 0x40
/-- BIRSP, 0x40 to 0x4F. -/
def isBirsp (o : Nat) : Bool := 0x40 ≤ o && o < 0x50
/-- MWR or MWRPTL. -/
def isMemWr (o : Nat) : Bool := o == 0x10 || o == 0x11
/-- The CXL.io request opcodes 0x70 to 0x75. -/
def isIoReq (o : Nat) : Bool := 0x70 ≤ o && o < 0x76
/-- FENCE_W or FENCE_RW in opcode form. -/
def isFenceOp (o : Nat) : Bool := o == 0x7C || o == 0x7D

/-- Opcodes that carry data (04 Table 04.5); NOTIFY and MG_RSP carry LEN lines. -/
def carriesData (o : Nat) : Bool :=
  isMemWr o || (0x28 ≤ o && o < 0x30) || o == 0x68 || o == 0x69 || o == 0x71 || o == 0x73 || o == 0x75 || o == 0x77 ||
  o == 0x79 || o == 0x7A || o == 0x7B

/-- The plane of an opcode (04 Table 04.5); CONT travels with its message. -/
def opPlane (o : Nat) : Plane :=
  if isMreq o || isMemWr o || o == 0x18 || o == 0x19 || isBisnp o || isIoReq o || o == 0x78 || o == 0x79 || o == 0x7B ||
    isFenceOp o then .req else .rsp

/-- Reserved opcodes (04 Table 04.5). -/
def isReservedOp (o : Nat) : Bool :=
  (0x12 ≤ o && o < 0x18) || (0x1A ≤ o && o < 0x20) || (0x5B ≤ o && o < 0x60) || o == 0x67 || (0x6A ≤ o && o < 0x70) ||
  0x80 ≤ o

/-- Opcodes the endpoint may present on ingress REQ (04 Table 04.5). -/
def ingressReqOp (o : Nat) : Bool :=
  isMreq o || isMemWr o || o == 0x18 || o == 0x19 || isBisnp o || isIoReq o || isFenceOp o

/-- Opcodes the endpoint may present on ingress RSP (04 Table 04.5). -/
def ingressRspOp (o : Nat) : Bool :=
  (0x20 ≤ o && o < 0x30) || isBirsp o || (0x50 ≤ o && o < 0x5B) || (0x60 ≤ o && o < 0x67) || o == 0x68 || o == 0x69 ||
  o == 0x76 || o == 0x77

/-- Opcodes that permit the piste class (04 Table 04.5). -/
def pisteOp (o : Nat) : Bool :=
  isMreq o || isMemWr o || o == 0x18 || o == 0x19 || (0x20 ≤ o && o < 0x30) || (0x50 ≤ o && o < 0x5B) ||
  (0x60 ≤ o && o < 0x67) || o == 0x68 || o == 0x69

/-- Management and I/O opcodes (04 Table 04.5). -/
def mgmtOp (o : Nat) : Bool := 0x70 ≤ o && o < 0x7C

/-- Classes an opcode permits (04 R66, Table 04.5): 0 best effort, 1 piste, 2 multicast, 3 management and I/O. -/
def opPermits (o cls : Nat) : Bool :=
  match cls with
  | 0 => pisteOp o || isBisnp o || isBirsp o || isFenceOp o || o == 0x7E
  | 1 => pisteOp o
  | 2 => isBisnp o || isBirsp o || o == 0x7B || o == 0x7E
  | _ => mgmtOp o

/-- Channel codes a class permits (04 Table 04.3). -/
def vcfPermits (cls vcf : Nat) : Bool :=
  match cls with
  | 0 => vcf == 1 || vcf == 2 || vcf == 3
  | 1 => vcf == 0
  | 2 => vcf == 4
  | _ => vcf == 5

/-- Posted requests (08 Table 08.1). -/
def isPosted (o : Nat) : Bool := isMemWr o || o == 0x71 || o == 0x74 || o == 0x75

/-- Ordering kind of an ingress request opcode (08 Table 08.1). -/
def reqKindOf (o : Nat) : ReqKind :=
  if isMreq o || o == 0x70 || o == 0x72 then .read
  else if isMemWr o || o == 0x71 || o == 0x73 || o == 0x74 || o == 0x75 then .write
  else if o == 0x7C then .fenceW
  else if o == 0x7D then .fenceRW
  else .other

/-- Line opcodes (04 R82): NBYTES travels as 0 and the length is LEN lines. -/
def isLineOp (o : Nat) : Bool := isMreq o || o == 0x10 || o == 0x18 || o == 0x19 || isBisnp o

/-- The opcode of a response the instance makes, by the request answered (03 Table 03.15). A request whose opcode has no row there, as an
endpoint's MALFORMED one may have, is answered with ACK (DESIGN CHOICE, log 36: R496 names no opcode for it). -/
def rspOpOf (o : Nat) : Nat :=
  if isMreq o || isMemWr o then 0x20
  else if o == 0x18 then 0x55
  else if o == 0x19 then 0x60
  else if isBisnp o then 0x40
  else if isIoReq o then 0x76
  else if o == 0x78 || o == 0x79 then 0x7A
  else 0x7E

/-- STAT values that a response keeps its data with: OK and POISON; the others take the form of 03 R496. -/
def statKeeps (st : Nat) : Bool := st == 0 || st == 5 || st == 11

/-- STAT that answers an ingress error code (03 Tables 03.4 and 03.5). -/
def statOfErr (code : Nat) : Nat :=
  match code with | 1 => 1 | 2 => 6 | 3 => 7 | 4 => 8 | 5 => 9 | _ => 0

/-- Rank of a STAT in merging, worst first (10 Table 10.1). -/
def statRank (st : Nat) : Nat :=
  match st with | 2 => 1 | 1 => 2 | 4 => 3 | 5 => 4 | 10 => 5 | 3 => 6 | 11 => 7 | _ => 8

/-- The worse of two STATs (10 Table 10.1). -/
def worse (a b : Nat) : Nat := if statRank b < statRank a then b else a

/-- Permission bits an opcode needs at the target (09 Table 09.2): READ 1, WRITE 2, ATOM 4, SNOOP 8, IO 16; none: no bit
grants it. -/
def permsOf (o addrLow : Nat) : Option Nat :=
  let meta0 : Nat := if addrLow.testBit 2 then 0 else 4
  if isMreq o then
    match o with
    | 1 => some (1 ||| meta0)     -- MemRd
    | 2 => some (1 ||| meta0)     -- MemRdData
    | 3 => some (1 ||| meta0)     -- MemRdFwd
    | 4 => some (2 ||| meta0)     -- MemWrFwd
    | 8 => some (1 ||| meta0)     -- MemSpecRd
    | 0 => some 4                 -- MemInv
    | 9 => some 4                 -- MemInvNT
    | 10 => some 4                -- MemClnEvct
    | _ => none
  else if o == 0x10 then some (2 ||| meta0)
  else if o == 0x11 then some 2
  else if o == 0x18 || o == 0x19 || isBisnp o then some 8
  else some 16

/-! Check codes (04 R67, R68; 05 R91; 14 R302). -/

/-- The n-bit values of a given weight, ascending. -/
def weightVals (n w : Nat) : List Nat := (List.range (2 ^ n)).filter fun v => popCount n v == w

/-- The columns of the Hsiao code over up to 120 data bits (04 R67). -/
def hsiaoCols : List Nat := weightVals 8 3 ++ weightVals 8 5 ++ weightVals 8 7

/-- XOR of the columns of the data bits that are 1. -/
def xorCols (cols : List Nat) (w i : Nat) : Nat :=
  match cols with
  | [] => 0
  | c :: r => (if w.testBit i then c else 0) ^^^ xorCols r w (i + 1)

/-- Header check byte over header bits [127:8] (04 R67). -/
def hdrCheck (hdr : BitVec 128) : BitVec 8 := BitVec.ofNat 8 (xorCols (hsiaoCols.take 120) (hdr.toNat >>> 8) 0)

/-- Check byte of a 64-bit payload word (04 R68). -/
def wordCheck (w : Nat) : Nat := xorCols (hsiaoCols.take 64) w 0

/-- Check byte of the 120 data bits of an EBT entry, by the columns of 04 R67 (14 R302). -/
def ebtCheck (data : Nat) : Nat := xorCols (hsiaoCols.take 120) data 0

/-- The columns of the control and back-channel words (05 R91). -/
def ctlCols : List Nat := weightVals 5 3 ++ [31]

/-- Check of the 11 data bits of a control or back-channel word (05 R91). -/
def ctlCheck (data : Nat) : Nat := xorCols ctlCols data 0

/-- A received back-channel word (05 R91): its 11 data bits, corrected if need be, and what was found. -/
def ctlDecode (w : BitVec 16) : Nat × EccErr :=
  let data := fld w 15 5
  let syn := ctlCheck data ^^^ fld w 4 0
  if syn = 0 then (data, .none)
  else
    match ctlCols.findIdx? (· == syn) with
    | some i => (data ^^^ (1 <<< i), .single)
    | none => if popCount 5 syn = 1 then (data, .single) else (data, .uncorrectable)

/-! CRCs (04 R74; 12 R255). -/

/-- One bit of a reflected CRC. -/
def crcBit (poly c : Nat) : Nat := if c % 2 = 1 then (c >>> 1) ^^^ poly else c >>> 1

/-- One byte of a reflected 32-bit CRC. -/
def crcByte (poly c : Nat) (b : BitVec 8) : Nat :=
  crcBit poly (crcBit poly (crcBit poly (crcBit poly (crcBit poly (crcBit poly (crcBit poly (crcBit poly (c ^^^ b.toNat))))))))

/-- A reflected CRC of 32 bits over a byte string: initial value and final XOR all ones. -/
def crc32With (poly : Nat) (l : List (BitVec 8)) : BitVec 32 :=
  BitVec.ofNat 32 (l.foldl (crcByte poly) 0xFFFFFFFF ^^^ 0xFFFFFFFF)

/-- CRC-32C: polynomial 0x1EDC_6F41, reflected (04 R74). -/
def crc32c (l : List (BitVec 8)) : BitVec 32 := crc32With 0x82F63B78 l

/-- CRC-32: polynomial 0x04C1_1DB7, reflected (12 R255). -/
def crc32 (l : List (BitVec 8)) : BitVec 32 := crc32With 0xEDB88320 l

end Sys2Proof.Machine
end

