-- ==== Sys2Proof/Machine/Operands.lean ====
section
/-! DEFINITION. Operand forms: the port headers (03 Tables 03.2, 03.3), byte ranges and beats (03 R43), the flit header and
check unit (04 Tables 04.2, 04.4), and the flits of a message (04 R70). -/

namespace Sys2Proof.Machine

/-- An ingress request header (03 Table 03.2). -/
structure IngHdr where
  opc : Nat
  cls : Bool
  flowq : Nat
  route : Bool
  pv : Bool
  pasid : Nat
  tag : Nat
  nbytes : Nat
  poison : Bool
  nt : Bool
  addr : Nat
  deriving DecidableEq, Repr

/-- The fields of an ingress request header (03 Table 03.2). -/
def ingHdr (h : BitVec 128) : IngHdr :=
  ⟨fld h 127 121, bitOf h 120, fld h 119 108, bitOf h 107, bitOf h 106, fld h 105 86, fld h 85 76, fld h 75 63, bitOf h 53,
    bitOf h 52, fld h 51 0⟩

/-- The queue a best-effort header names (03 Table 03.2). -/
def IngHdr.queue (h : IngHdr) : Nat := h.flowq % 64

/-- The byte address of a header: line opcodes clear ADDR[5:0] (04 R82). -/
def byteAddr (opc addr : Nat) : Nat := if isLineOp opc then addr / 64 * 64 else addr

/-- Lines that a byte range touches (03 R43). -/
def linesOf (addr nbytes : Nat) : Nat := if nbytes = 0 then 0 else (addr + nbytes - 1) / 64 - addr / 64 + 1

/-- Byte length of an ingress request: a configuration access is one doubleword at byte 0 of its beat (04 R84). -/
def ingBytes (h : IngHdr) : Nat := if h.opc = 0x72 ∨ h.opc = 0x73 then 4 else h.nbytes

/-- First byte of a request's range, for R43: configuration accesses and messages carry no address. -/
def rangeStart (opc addr : Nat) : Nat := if opc = 0x72 ∨ opc = 0x73 ∨ opc = 0x74 ∨ opc = 0x75 then 0 else byteAddr opc addr

/-- First byte of the range of an ingress request. -/
def ingStart (h : IngHdr) : Nat := rangeStart h.opc h.addr

/-- Data beats of an ingress request (03 R43). -/
def ingBeats (h : IngHdr) : Nat := if carriesData h.opc then linesOf (ingStart h) (ingBytes h) else 0

/-- LEN of the message a request makes (04 Table 04.2): the lines its byte range covers. -/
def ingLen (h : IngHdr) : Nat := linesOf (ingStart h) (ingBytes h)

/-- The low byte count bits 1, all others 0. -/
def lowMask (n : Nat) : Nat := 2 ^ n - 1

/-- The byte enables of beat i of a range (03 R43). -/
def beatEnables (start nbytes i : Nat) : BitVec 64 :=
  let base := start / 64 * 64 + 64 * i
  let lo := start - base
  let hi := min 64 (start + nbytes - base)
  BitVec.ofNat 64 (lowMask hi - lowMask lo)

/-- The byte enables of the beats of a request (03 R43). -/
def rangeEnables (opc addr nbytes beats : Nat) : List (BitVec 64) :=
  (List.range beats).map fun i => beatEnables (rangeStart opc addr) nbytes i

/-- The line with the bytes outside the enables set to 0 (04 R74). -/
def maskLine (d : Line) (be : BitVec 64) : Line :=
  d &&& BitVec.ofNat 512 ((List.range 64).foldl (fun a j => if be.getLsbD j then a ||| 255 <<< (8 * j) else a) 0)

/-- The egress request header (03 Table 03.3). -/
def egrReqHdr (opc : Nat) (piste : Bool) (src : Nat) (slice gen tag nbytes : Nat) (poison nt : Bool) (addr : Nat) :
    BitVec 128 :=
  BitVec.ofNat 128 (opc <<< 121 ||| piste.toNat <<< 120 ||| src <<< 108 ||| slice <<< 104 ||| gen <<< 96 ||| tag <<< 86 |||
    nbytes <<< 73 ||| poison.toNat <<< 53 ||| nt.toNat <<< 52 ||| addr % 2 ^ 52)

/-- The egress response header (03 Table 03.3). -/
def egrRspHdr (opc : Nat) (piste : Bool) (tag nbytes stat gcnt : Nat) (poison : Bool) : BitVec 128 :=
  BitVec.ofNat 128 (opc <<< 121 ||| piste.toNat <<< 120 ||| tag <<< 110 ||| nbytes <<< 97 ||| stat <<< 93 ||| gcnt <<< 85 |||
    poison.toNat)

/-- An ingress response header (03 Table 03.3). -/
structure IngRsp where
  opc : Nat
  cls : Bool
  dst : BitVec 12
  slice : BitVec 4
  gen : BitVec 8
  tag : Tag
  nbytes : Nat
  stat : Nat
  poison : Bool
  deriving DecidableEq, Repr

/-- The fields of an ingress response header (03 Table 03.3). -/
def ingRsp (h : BitVec 128) : IngRsp :=
  ⟨fld h 127 121, bitOf h 120, h.extractLsb' 108 12, h.extractLsb' 104 4, h.extractLsb' 96 8, h.extractLsb' 86 10,
    fld h 85 73, fld h 72 69, bitOf h 53⟩

/-- STAT of an RSP-plane message, ADDR[51:48] (04 R81). -/
def msgStat (m : Msg) : Nat := fld m.addr 51 48
/-- GCNT of an RSP-plane message, ADDR[47:40] (04 R81). -/
def msgGcnt (m : Msg) : Nat := fld m.addr 47 40
/-- ADDR of an RSP-plane message (04 R81). -/
def rspAddr (stat gcnt : Nat) : BitVec 52 := BitVec.ofNat 52 ((stat % 16) <<< 48 ||| (gcnt % 256) <<< 40)

/-- The 128-bit flit header of a message, check byte included (04 Table 04.2). -/
def flitHdrWith (m : Msg) (opc vcf ep len : Nat) (poison pack : Bool) (addr : Nat) : BitVec 128 :=
  let h := BitVec.ofNat 128 (m.dst.toNat <<< 116 ||| m.src.toNat <<< 104 ||| opc <<< 97 ||| m.cls.toNat <<< 95 ||| vcf <<< 92 |||
    ep <<< 91 ||| m.gen.toNat <<< 83 ||| m.slice.toNat <<< 79 ||| m.tag.toNat <<< 69 ||| len <<< 62 ||| poison.toNat <<< 61 |||
    pack.toNat <<< 60 ||| addr <<< 8)
  h ||| (hdrCheck h).zeroExtend 128

/-- The message header of a flit (04 Table 04.2); PACK set when another packed header follows. -/
def msgHdr (m : Msg) (pack : Bool) : BitVec 128 :=
  flitHdrWith m m.opc.toNat m.vcf.toNat m.ep.toNat m.len.toNat m.poison pack m.addr.toNat

/-- The check unit U0 of a message (04 Table 04.4). -/
def checkUnit (m : Msg) (crc hops flow : Nat) : BitVec 128 :=
  BitVec.ofNat 128 (crc <<< 96 ||| m.seq.toNat <<< 80 ||| hops <<< 78 ||| m.span.toNat <<< 77 ||| m.nt.toNat <<< 76 |||
    m.pv.toNat <<< 75 ||| m.pasid.toNat <<< 55 ||| m.nbytes.toNat <<< 42 ||| flow <<< 30 ||| m.inc.toNat <<< 26)

/-- The byte stream of the end-to-end CRC (04 R74). -/
def crcStream (m : Msg) : List (BitVec 8) :=
  let h := flitHdrWith m m.opc.toNat 0 0 m.len.toNat m.poison false m.addr.toNat
  (bytesOf 16 h.toNat).drop 1 ++ bytesOf 12 (checkUnit m 0 0 0).toNat ++ (m.data.map fun d => bytesOf 64 d.toNat).flatten

/-- The CRC of a message (04 R74). POISON is part of header byte 7: a message poisoned on its way is delivered with
POISON whatever its CRC says (04 R75). -/
def msgCrc (m : Msg) : BitVec 32 := crc32c (crcStream m)

/-- A message with its CRC filled in at the source (04 R74). -/
def sealMsg (m : Msg) : Msg := { m with crc := msgCrc m }

/-- Payload flits of a message: LEN when its opcode carries data (04 R70). -/
def payFlits (m : Msg) : Nat := m.data.length

/-- The flits of a message (04 R70): the header flit, then one per line. -/
def flitsOf (m : Msg) : List Flit :=
  let k := m.data.length
  { msg := m, last := k == 0, poison := m.poison } ::
    ((List.range k).zip m.data).map fun p => { msg := m, idx := p.1 + 1, last := p.1 + 1 == k, line := p.2, poison := m.poison }

/-- The cost of a message in wire bytes (07 R151). -/
def msgCost (m : Msg) : Nat := 64 * (1 + m.data.length)

/-- Span level of a best-effort message (04 R76). -/
def spanLevel (m : Msg) : Nat := if m.span then m.hops.toNat else 0

/-- Channel index (05 Table 05.3) of a message, from its VCF and span level (04 R66, R76). -/
def chanOf (m : Msg) : Nat :=
  match m.vcf.toNat with
  | 0 => 0
  | 1 => 1 + spanLevel m
  | 2 => 5
  | 3 => 6
  | 4 => 7
  | _ => 8

/-- VCF of a channel index (05 Table 05.3). -/
def vcfOfChan (c : Nat) : BitVec 3 :=
  if c = 0 then 0 else if c < 5 then 1 else if c = 5 then 2 else if c = 6 then 3 else if c = 7 then 4 else 5

/-- A header-only message may be packed (04 R78). -/
def packable (m : Msg) : Bool :=
  !carriesData m.opc.toNat && (m.cls == 0 || m.cls == 3) && !m.span && !m.nt && !m.pv && m.nbytes == 0 && m.flow == 0

/-- Messages that share a flit (04 R78). -/
def packTogether (a b : Msg) : Bool := packable a && packable b && a.dst == b.dst && a.vcf == b.vcf && a.ep == b.ep

end Sys2Proof.Machine
end

