-- ==== Sys2Proof/Machine/NiCore.lean ====
section
/-! DEFINITION. What every command at an NI shares: attachments and injection (05 R97, 07 R156), slices and shares (11),
the tracker (07 R167, R168), egress queues (03 R53), and posted-write errors (08 R187). -/

namespace Sys2Proof.Machine

/-! Attachments (05 R96, R97). The NI's copy of the placement is read at router 0 (log 12). -/

/-- RTE_HOME entry of NI n, as router x holds it (05 Table 05.13). -/
def homeAt (s : State) (x n : Nat) : BitVec 32 := BitVec.ofNat 32 (rdBytes s (aRtr x (0x200 + 4 * n)) 4)
/-- The placement entry of NI n as the NI holds it: an attachment it has found down (18 R394) counts as down at once. -/
def homeOf (s : State) (n : Nat) : BitVec 32 :=
  homeAt s 0 n &&& ~~~((getNi s n).attDown.zeroExtend 32 <<< 30)
/-- The attachment is up. -/
def attUp (h : BitVec 32) (alt : Bool) : Bool := if alt then bitOf h 30 else bitOf h 31
/-- Router of an attachment. -/
def attRtr (h : BitVec 32) (alt : Bool) : Nat := if alt then fld h 15 10 else fld h 7 2
/-- Port code of an attachment at its router (05 Table 05.2). -/
def attPort (h : BitVec 32) (alt : Bool) : Nat := 6 + (if alt then fld h 9 8 else fld h 1 0)
/-- Key of an attachment's channel. -/
def attKey (alt : Bool) (p : Plane) (ch : Nat) : Nat := 32 * alt.toNat + 16 * (if p = .rsp then 1 else 0) + ch
/-- Key of an attachment and plane. -/
def attPl (alt : Bool) (p : Plane) : Nat := 2 * alt.toNat + (if p = .rsp then 1 else 0)
/-- Credits an NI holds on a channel of an attachment: 4 at the start (05 R90). -/
def niCredit (i : Ni) (alt : Bool) (p : Plane) (ch : Nat) : Nat := mgetD i.sched.credits (attKey alt p ch) 4
/-- A message in progress owns the channel (07 R156). -/
def chanBusy (i : Ni) (alt : Bool) (p : Plane) (ch : Nat) : Bool :=
  (mgetD i.sched.prog (attPl alt p) []).any fun g => g.ch == ch
/-- The channel is free with a credit (07 R153). -/
def chanFree (i : Ni) (alt : Bool) (p : Plane) (ch : Nat) : Bool := !chanBusy i alt p ch && 1 ≤ niCredit i alt p ch

/-- Injection channels of a class (05 R97). -/
def injChans (cls : Nat) : List Nat := match cls with | 0 => [5, 6] | 2 => [7] | 3 => [8] | _ => [0]

/-- The attachment the NI injects a message that is not piste on (05 R97): more free credits, then the primary; the one
that is up; none when both are down. -/
def pickAtt (s : State) (n : Nat) (p : Plane) (cls : Nat) : Option Bool :=
  let h := homeOf s n
  let i := getNi s n
  let c (alt : Bool) := ((injChans cls).map fun ch => niCredit i alt p ch).sum
  if attUp h false && attUp h true then some (decide (c false < c true))
  else if attUp h false then some false
  else if attUp h true then some true
  else none

/-- The channels a class may start on, in order of preference (05 R101). -/
def startChans (m : Msg) : List Nat := match m.cls.toNat with | 0 => [5, 6, 1 + spanLevel m] | 2 => [7] | 3 => [8] | _ => [0]

/-- The free channel a message starts on (05 R101). -/
def pickChan (i : Ni) (alt : Bool) (p : Plane) (m : Msg) : Option Nat := (startChans m).find? fun c => chanFree i alt p c

/-- The epoch stamped on injected messages: CUR_EP (05 R110), as router 0 holds it (log 12). -/
def curEp (s : State) : BitVec 1 := BitVec.ofNat 1 (rdF s (aRtr 0 0x18) 16 16)

/-- A message's fields that the injecting NI sets (04 R66, R73, R76): channel, epoch, and for another instance SPAN, SEQ and
INC; the sequence counter advances once per message. A multicast copy names a group and no node; a gathered answer names its
originator. The CRC covers the result. -/
def stampMsg (s : State) (n : Nat) (m : Msg) : Msg × State :=
  let i := getNi s n
  let d := nodeInst m.dst
  let crosses := (m.cls != 2 || opPlane m.opc.toNat = .rsp) && d != instNo s
  let sq := mgetD i.pst.seq d 0
  let m1 := { m with ep := curEp s, span := crosses, seq := if crosses then sq else 0, inc := if crosses then i.pst.inc else 0 }
  let s1 := if crosses then updNi s n fun i => { i with pst := { i.pst with seq := mset i.pst.seq d (sq + 1) } } else s
  (sealMsg m1, s1)

/-- Flits of a started message wait on its attachment (07 R156); the NI counts injected flits. -/
def addProg (s : State) (n : Nat) (alt : Bool) (p : Plane) (ch : Nat) (fs : List Flit) : State :=
  updNi s n fun i => { i with sched := { i.sched with prog := mupd i.sched.prog (attPl alt p) [] fun l => l ++ [⟨fs, ch⟩] } }

/-- Attachment and channel a message would start on (05 R97, R101; 07 R153). -/
def startOn (s : State) (n : Nat) (p : Plane) (m : Msg) : Option (Bool × Nat) :=
  match pickAtt s n p m.cls.toNat with
  | some a => (pickChan (getNi s n) a p m).map fun c => (a, c)
  | none => none

/-- Attachment and channel of a message made outside the queues: on the attachment its rule names while that is up, else on the
other; without one, as 05 R97 and R101 pick. -/
def ownOn (s : State) (n : Nat) (o : OwnMsg) : Option (Bool × Nat) :=
  match o.att with
  | none => startOn s n o.pl o.msg
  | some a =>
    let h := homeOf s n
    let a1 := if attUp h a then a else !a
    if attUp h a1 then (pickChan (getNi s n) a1 o.pl o.msg).map fun c => (a1, c) else none

/-- A message made outside the queues starts, if an attachment is up and a channel free. -/
def startOwn (s : State) (n : Nat) (o : OwnMsg) : Option State :=
  (ownOn s n o).map fun q =>
    let r := stampMsg s n { o.msg with vcf := vcfOfChan q.2 }
    addProg r.2 n q.1 o.pl q.2 (flitsOf r.1)

/-- A message made outside the queues joins those that wait (05 R97). -/
def waitOwn (s : State) (n : Nat) (o : OwnMsg) : State :=
  updNi s n fun i => { i with sched := { i.sched with own := i.sched.own ++ [o] } }

/-- The NI sends a message that it makes itself outside its queues (fills, management and gathered answers): it joins the
messages in progress on the attachment and channel that 05 R97 and R101 pick, or waits behind those of its class. -/
def injectOwn (s : State) (n : Nat) (p : Plane) (m : Msg) (att : Option Bool) : State :=
  let o : OwnMsg := ⟨p, m, att⟩
  if (getNi s n).sched.own.any fun w => w.pl = p && w.msg.cls == m.cls then waitOwn s n o
  else (startOwn s n o).getD (waitOwn s n o)

/-- The messages that wait outside the queues of a plane start in their order, as far as they can. -/
def startOwns (s : State) (n : Nat) (p : Plane) : State :=
  let l := (getNi s n).sched.own
  let s0 := updNi s n fun i => { i with sched := { i.sched with own := l.filter fun o => o.pl != p } }
  (l.filter fun o => o.pl == p).foldl (fun t o => injectOwn t n o.pl o.msg o.att) s0

/-! Slices and shares (11). -/

/-- Configuration word of slice k (11 Table 11.6). -/
def slcCfg (s : State) (n k : Nat) : Word := rd s (aNi n (0x200 + 0x20 * k))
/-- The slice is active: its EN bit in force is 1. -/
def slcAct (s : State) (n k : Nat) : Bool := bitOf (slcCfg s n k) 0
/-- The slice's reset is in progress (11 R242). -/
def slcRst (s : State) (n k : Nat) : Bool := (getSlice (getNi s n) k).rst
/-- The generation of a slice (11 R239). -/
def slcGen (s : State) (n k : Nat) : BitVec 8 := (getSlice (getNi s n) k).gen
/-- Number of active slices. -/
def nActive (s : State) (n : Nat) : Nat := ((List.range 16).filter fun k => slcAct s n k).length
/-- Tracker share in force (11 R233). -/
def trkShare (s : State) (n : Nat) : Nat := rdF s (aNi n 0x140) 26 16
/-- Buffer share in force. -/
def pwShare (s : State) (n : Nat) : Nat := rdF s (aNi n 0x140) 14 8
/-- Rate share in force, 1/16 byte per ns. -/
def rateShare (s : State) (n : Nat) : Nat := rdF s (aNi n 0x140) 44 32
/-- SBURST in 1/16 byte; below 65 units treated as 65 (11 Table 11.7). -/
def sBurst (s : State) (n : Nat) : Nat := (max 65 (rdF s (aNi n 0x148) 27 16)) * 1024
/-- Tracker entries a slice holds outside the piste reserve (11 R236). -/
def trkUsed (i : Ni) (k : Nat) : Nat := (i.trk.filter fun p => p.2.slice.toNat == k && p.2.flow.isNone).length
/-- Buffer entries a slice holds (08 R178). -/
def pwUsed (i : Ni) (k : Nat) : Nat := ((i.reqs.filter fun r => r.slice.toNat == k && !r.issued).map (·.pwEntries)).sum
/-- Buffer entries in use. -/
def pwTotal (i : Ni) : Nat := ((i.reqs.filter fun r => !r.issued).map (·.pwEntries)).sum
/-- The oversize store holds a write (08 R178). -/
def ovsBusy (i : Ni) : Bool := i.reqs.any fun r => r.oversize && !r.issued

/-- The slice a PASID selects (11 R231): the lowest matching entry, else the default slice, else none. -/
def sliceOf? (s : State) (n : Nat) (pv : Bool) (pasid : Nat) : Option Nat :=
  let hit := if pv then (List.range 64).find? fun j =>
      let e := rd s (aNi n (0x1D00 + 8 * j))
      bitOf e 63 && slcAct s n (fld e 43 40) && (pasid &&& fld e 39 20) == (fld e 19 0 &&& fld e 39 20)
    else none
  match hit with
  | some j => some (rdF s (aNi n (0x1D00 + 8 * j)) 43 40)
  | none =>
    let g := rd s (aNi n 0x158)
    if bitOf g 4 && slcAct s n (fld g 3 0) then some (fld g 3 0) else none

/-- Share credit of a slice at now, 1/16 byte (11 R235). -/
def scNow (s : State) (n k : Nat) : Int :=
  let c := getSlice (getNi s n) k
  min (c.sc + ((rateShare s n * (nowNs s - c.scUpd) : Nat) : Int)) (sBurst s n : Nat)

/-- SC of every listed slice brought up to now, before its rate or ceiling changes (11 R235). -/
def settleSc (s : State) (n : Nat) : State :=
  updNi s n fun i => { i with slices := mmap i.slices fun k c => { c with sc := scNow s n k, scUpd := nowNs s } }

/-! Injection queues (07). -/

/-- The queue q of an NI. -/
def getQ (i : Ni) (q : Nat) : Queue := mgetD i.sched.queues q {}
/-- The NI with queue q changed by f. -/
def updQ (i : Ni) (q : Nat) (f : Queue → Queue) : Ni := { i with sched := { i.sched with queues := mupd i.sched.queues q {} f } }
/-- The REQ half of queue q is full (07 R150). -/
def reqFull (i : Ni) (q : Nat) : Bool := 16 ≤ (getQ i q).reqIds.length
/-- The RSP half of queue q is full (07 R150). -/
def rspFull (i : Ni) (q : Nat) : Bool := 16 ≤ (getQ i q).rsp.length
/-- The request with an id. -/
def reqById (i : Ni) (id : Nat) : Option Req := i.reqs.find? fun r => r.id == id
/-- The NI with the request changed by f. -/
def updReq (i : Ni) (id : Nat) (f : Req → Req) : Ni := { i with reqs := updFirst i.reqs (fun r => r.id == id) f }
/-- The NI without the request: out of its queue and no longer ordered behind. -/
def dropReq (i : Ni) (id : Nat) : Ni :=
  let i1 := { i with reqs := i.reqs.filter fun r => r.id != id }
  { i1 with
    sched := { i1.sched with queues := mmap i1.sched.queues fun _ q => { q with reqIds := q.reqIds.filter fun j => j != id } }
    port := { i1.port with rqRx := i1.port.rqRx.map fun x => if x.dest = .req id then { x with dest := .discard } else x } }

/-! Tracker (07 R167, R168). -/

/-- BTO of the NI, frames (07 Table 07.4). -/
def btoOf (s : State) (n : Nat) : Nat := max 1 (rdF s (aNi n 0xC8) 15 0)
/-- PTO of the NI, frames. -/
def ptoOf (s : State) (n : Nat) : Nat := max 1 (rdF s (aNi n 0xC8) 23 16)
/-- GTO, frames (10 Table 10.4). -/
def gtoOf (s : State) : Nat := max 1 (rdF s 0xF000 7 0)
/-- MTO, frames. -/
def mtoOf (s : State) : Nat := max 1 (rdF s 0xF000 15 8)

/-- The best-effort deadline of a request taken now (07 R167). -/
def beDeadline (s : State) (n : Nat) : Nat := nowNs s + btoOf s n * 1024
/-- The piste deadline (07 R167): frame of transfer k, which is the current frame or a later one (02 R28), span hops h. -/
def pisteDeadline (s : State) (n k h : Nat) : Nat :=
  (nowNs s / 1024 + subMod 48 k (frameOf s) + 3 + 2 * h + ptoOf s n) * 1024

/-- A free tracker tag. Which of the free tags an NI assigns the manual does not say: a free value picks where the search
starts (log 1). -/
def freeTag (i : Ni) (start : Nat) : Option Tag :=
  ((List.range 1024).map fun j => (start + j) % 1024).find? (fun t => (mget i.trk t).isNone) |>.map (BitVec.ofNat 10)

/-- The slice may hold one more tracker entry (11 R236). -/
def trkRoom (s : State) (n k : Nat) : Bool :=
  let i := getNi s n
  decide (trkUsed i k < trkShare s n) && decide (i.trk.length < 1024)

/-- Allocate a tracker entry; the tag, if one is free. -/
def allocTrk (s : State) (n : Nat) (e : Trk) : Option Tag × State :=
  match freeTag (getNi s n) ((takeFree s).1.toNat % 1024) with
  | some t => (some t, updNi (takeFree s).2 n fun i => { i with trk := mset i.trk t.toNat e })
  | none => (none, s)

/-- Free a tracker entry. -/
def freeTrk (s : State) (n : Nat) (t : Tag) : State := updNi s n fun i => { i with trk := mdel i.trk t.toNat }

/-- Entries in quarantine, NI_TRK_QUAR (07 R168). -/
def quarCount (i : Ni) : Nat := (i.trk.filter fun p => p.2.hold != .live).length

/-! Egress (03 R53). -/

/-- A response joins the egress RSP queue of its pool. -/
def pushErs (s : State) (n : Nat) (e : Egr) : State :=
  updPort s n fun p => if e.piste then { p with ersG := p.ersG ++ [e] } else { p with ersB := p.ersB ++ [e] }

/-- A request joins the egress REQ queue of its pool. -/
def pushErq (s : State) (n : Nat) (e : Egr) : State :=
  updPort s n fun p => if e.piste then { p with erqG := p.erqG ++ [e] } else { p with erqB := p.erqB ++ [e] }

/-- A response without data toward the endpoint (03 R496). -/
def plainErs (opc : Nat) (piste : Bool) (tag stat gcnt : Nat) (slice : Option (BitVec 4)) : Egr :=
  { opc := opc, piste := piste, hdr := egrRspHdr opc piste tag 0 stat gcnt false, slice := slice }

/-- Error completions waiting, of at most 16 (03 R46). -/
def errCount (p : Port) : Nat := (p.ersB.filter fun e => e.err).length

/-! Error log and posted-write errors (11 R247, 08 R187). -/

/-- The slice's error log takes a record (11 R247). -/
def sliceLog (s : State) (n k : Nat) (el1 el0 : Word) : State :=
  let full := 8 ≤ (getSlice (getNi s n) k).log.length
  let s1 := updNi s n fun i => updSlice i k fun c => { c with log := ((el1, el0) :: c.log).take 8 }
  let s2 := if full then incSat s1 (aNi n 0x180) 1 else s1
  incSat s2 (aNi n (0x218 + 0x20 * k)) 1

/-- A posted write ends in error (08 R187): record, notification, NI_PW_ERR and the flags. `code` is 0x100, 0x103 or 0x104;
a write that no slice applies to is logged under slice 15 and notified port-wide (log 13). -/
def pwError (s : State) (n : Nat) (slice : Option Nat) (code stat opc tag addr : Nat) : State :=
  let k := slice.getD 15
  let el1 := BitVec.ofNat 64 (1 <<< 63 ||| stat <<< 59 ||| opc <<< 52 ||| tag <<< 38 ||| frameOf s % 2 ^ 38)
  let el0 := BitVec.ofNat 64 (code <<< 54 ||| addr % 2 ^ 52)
  let s1 := sliceLog s n k el1 el0
  let s2 := raiseNi s1 n code 2 (tag <<< 38 ||| frameOf s % 2 ^ 38) k
  let s3 := incSat s2 (aNi n 0x118) 1
  let s4 := setFlag s3 (aNi n 0x100) 0
  if code = 0x103 then setFlag s4 (aNi n 0x100) 2 else s4

/-! Discards and failures that several commands count. -/

/-- A message is discarded at NI n (04 Table 04.9). -/
def niDiscard (s : State) (n : Nat) : State := incSat s (aNi n 0x50) 1

/-- A stale answer is discarded (11 R240). -/
def countStale (s : State) (n k : Nat) : State := incSat s (aNi n (0x210 + 0x20 * k)) 1

/-! Decode misses (09 R198). -/

/-- The default target records a request: REASON 1 window miss, 2 crossing, 3 routing-ID entry, 4 reach miss. -/
def defaultTarget (s : State) (n reason slice addr : Nat) : State :=
  let s1 := wr s (aNi n 0x1C10) (BitVec.ofNat 64 (reason <<< 60 ||| slice <<< 56 ||| addr % 2 ^ 52))
  let s2 := incSat s1 (aNi n 0x1C08) 1
  if reason = 2 then setFlag s2 (aNi n 0x1C00) 1
  else if reason = 4 then setFlag s2 (aNi n 0xC0) 2
  else setFlag s2 (aNi n 0x1C00) 0

/-! Piste source entries (06 Table 06.2). -/

/-- Source entry e of NI n, 256 bits. -/
def srcEnt (s : State) (n e : Nat) : BitVec 256 :=
  BitVec.ofNat 256 ((rd s (aNi n (0x400 + 0x20 * e))).toNat ||| (rd s (aNi n (0x408 + 0x20 * e))).toNat <<< 64 |||
    (rd s (aNi n (0x410 + 0x20 * e))).toNat <<< 128 ||| (rd s (aNi n (0x418 + 0x20 * e))).toNat <<< 192)

/-- The entry written. -/
def wrSrcEnt (s : State) (n e : Nat) (v : BitVec 256) : State :=
  wr (wr (wr (wr s (aNi n (0x400 + 0x20 * e)) (v.extractLsb' 0 64)) (aNi n (0x408 + 0x20 * e)) (v.extractLsb' 64 64))
    (aNi n (0x410 + 0x20 * e)) (v.extractLsb' 128 64)) (aNi n (0x418 + 0x20 * e)) (v.extractLsb' 192 64)

/-- STATE of a source entry: 0 free, 1 pending commit, 2 active, 3 pending release. -/
def seState (v : BitVec 256) : Nat := fld v 9 8
/-- FLOW of a source entry. -/
def seFlow (v : BitVec 256) : Nat := fld v 21 10
/-- DST of a source entry. -/
def seDst (v : BitVec 256) : Nat := fld v 33 22
/-- MAXLEN of a source entry. -/
def seMaxlen (v : BitVec 256) : Nat := fld v 64 58
/-- TRK of a source entry. -/
def seTrk (v : BitVec 256) : Nat := fld v 73 65
/-- PLANE of a source entry. -/
def sePlane (v : BitVec 256) : Plane := if bitOf v 7 then .rsp else .req
/-- LAUNCH of a source entry. -/
def seLaunch (v : BitVec 256) : Nat := fld v 255 128

/-- The source entry of NI n that holds a flow in a state other than free (06 R125). -/
def findSrc (s : State) (n flow : Nat) : Option Nat :=
  (List.range 64).find? fun e => seState (srcEnt s n e) != 0 && seFlow (srcEnt s n e) == flow

/-- Span hops from here to a node: 0 in this instance, otherwise 1 (a direct link) unless the image's chain says more; the
piste deadlines count them (07 R167). The instances between are known from the chain as ADMIT keeps it. -/
def hopsTo (s : State) (dst : BitVec 12) (flow : Nat) : Nat :=
  if nodeInst dst = instNo s then 0 else mgetD s.eng.hops flow 1

/-! Answers to requests of the engines and the journal (13 R284; 14 R313, R314). A request names who sent it: an engine slot
(0 to 63, with 64 added for the second read of a VERIFY), the fetch of ring q (128 + q), its completions (150 + q), a command of
the control or ADMIT queue (160, 161), a NOTIFY (190), a write to home h (200 + h). -/

/-- Base of a home's device addresses as the direct FA it is reached by (14 R312). -/
def homeBase (s : State) (h : Nat) : Nat := 2 ^ 51 + rdF s (aJrn (0x10 + 8 * h)) 47 30 * 2 ^ 30
/-- The writes of home h not yet acknowledged. -/
def homeOut (s : State) (h : Nat) : List HomeWrite := if h = 0 then s.jrn.outH0 else s.jrn.outH1
/-- The state with them replaced. -/
def setHomeOut (s : State) (h : Nat) (l : List HomeWrite) : State :=
  { s with jrn := if h = 0 then { s.jrn with outH0 := l } else { s.jrn with outH1 := l } }

/-- A home write has failed (14 R314): counted; the first failure of an episode sets HOMEh_ERR and raises JRN_HOME_ERR. -/
def homeFail (s : State) (h fa : Nat) : State :=
  let s1 := setHomeOut s h (updFirst (homeOut s h) (fun w => w.sent && w.failedAt.isNone && w.off == fa % 2 ^ 30)
    fun w => { w with failedAt := some (frameOf s) })
  let s2 := incSat s1 (aJrn (0x58 + 8 * h)) 1
  if (if h = 0 then s.jrn.episode0 else s.jrn.episode1) then s2
  else
    raiseGFree (setFlag { s2 with jrn := if h = 0 then { s2.jrn with episode0 := true } else { s2.jrn with episode1 := true } }
      (aJrn 8) (2 + h)) 245 0x140 2

/-- An answer reaches the rink or the journal unit that sent the request. -/
def engAnswer (s : State) (code fa : Nat) (data : List Line) (stat : Nat) : State :=
  if code = 190 then s
  else if 200 ≤ code ∧ stat ≠ 0 then homeFail s (code - 200) fa
  else { s with eng := { s.eng with inbox := s.eng.inbox ++ [(code, fa, data, stat)] } }

/-- Local number of the NI's own node ID. -/
def niNode (s : State) (n : Nat) : BitVec 12 := nodeOf s n

end Sys2Proof.Machine
end

