-- ==== Sys2Proof/Machine/AddrDec.lean ====
section
/-! DEFINITION. Decode windows, interleave sets, routing IDs, reach and the extent target cache at the requester (07 R164;
09 R193 to R203; 10 R215). -/

namespace Sys2Proof.Machine

/-- Where a fabric address leads (09 R195, R199). -/
inductive Dest where
  | node (d : BitVec 12)
  | extent (inst : BitVec 4) (x : BitVec 19)
  deriving DecidableEq, Repr

/-- The outcome of decoding an ingress address: a destination with FA and region type, or the default target's reason. -/
inductive DecRes where
  | hit (fa : Nat) (device : Bool) (d : Dest)
  | miss (reason : Nat)
  deriving DecidableEq, Repr

/-- WAYS values of an interleave set (09 R197). -/
def waysOk (w : Nat) : Bool := w == 2 || w == 3 || w == 4 || w == 6 || w == 8 || w == 12 || w == 16

/-- Interleave set configuration word (09 Table 09.7). -/
def ilvCfg (s : State) (set : Nat) : Word := rd s (0x1C02000 + 8 * set)
/-- Interleave set member word (09 Table 09.7). -/
def ilvMem (s : State) (set m : Nat) : Word := rd s (0x1C00000 + 0x100 * set + 8 * m)
/-- The set is valid with listed WAYS and GRAN (09 R197). -/
def ilvOk (s : State) (set : Nat) : Bool := bitOf (ilvCfg s set) 63 && waysOk (fld (ilvCfg s set) 12 8) && fld (ilvCfg s set) 2 0 ≤ 6

/-- The window takes part in decode: not disabled, and its interleave set, if any, is usable (09 R194, R197). -/
def winLive (s : State) (w : Window) : Bool := w.kind != 0 && (w.kind != 3 || ilvOk s w.set.toNat)

/-- The lowest-numbered window that matches an address for a slice (09 R194). -/
def findWin (s : State) (n k addr : Nat) : Option Window :=
  ((getNi s n).dec.windows.find? fun p =>
    winLive s p.2 && p.2.base.toNat ≤ addr / 4096 && addr / 4096 ≤ p.2.limit.toNat && p.2.slices.getLsbD k).map (·.2)

/-- Destination of an FA by its kind (09 R193): pooled by extent, direct by the given target. -/
def destOf (fa : Nat) (target : BitVec 12) : Dest :=
  if fa / 2 ^ 50 = 0 then .extent (BitVec.ofNat 4 (fa / 2 ^ 46)) (BitVec.ofNat 19 (fa / 2 ^ 27)) else .node target

/-- Decode of an address against the windows (09 R194 to R197). -/
def decodeWin (s : State) (n k addr nbytes : Nat) : DecRes :=
  match findWin s n k addr with
  | none => .miss 1
  | some w =>
    let off := addr - w.base.toNat * 4096
    let last := addr + max 1 nbytes - 1
    if w.limit.toNat < last / 4096 then .miss 2
    else if w.kind = 3 then
      let g := 256 * 2 ^ fld (ilvCfg s w.set.toNat) 2 0
      let ways := fld (ilvCfg s w.set.toNat) 12 8
      if (last - w.base.toNat * 4096) / g != off / g then .miss 2
      else
        let m := ilvMem s w.set.toNat (off / g % ways)
        let fa := fld m 39 0 * 4096 + off / g / ways * g + off % g
        .hit fa w.rtype (destOf fa (BitVec.ofNat 12 (fld m 63 52)))
    else
      let fa := w.fabase.toNat * 4096 + off
      .hit fa w.rtype (destOf fa w.target)

/-- GLB_PBR_MAP entry (04 Table 04.10). -/
def pbrEntry (s : State) (id : Nat) : Nat := rdBytes s (0x8000 + 2 * (id % 4096)) 2

/-- A request with ROUTE = 1 (04 R86, 09 R194): destination by routing ID, device region, FA in its direct form. -/
def decodeRoute (s : State) (addr : Nat) : DecRes :=
  let e := pbrEntry s (addr % 4096)
  if e / 2 ^ 15 = 0 then .miss 3 else .hit (2 ^ 51 + addr % 2 ^ 48) true (.node (BitVec.ofNat 12 e))

/-- The node is in the reach set of queue q (07 R164). -/
def reachOk (s : State) (n q : Nat) (d : BitVec 12) : Bool :=
  let loc := nodeLoc d
  bitOf (rd s (aNi n (0xC10 + 0x40 * q))) (48 + nodeInst d) &&
  (if loc < 64 then bitOf (rd s (aNi n (0xC30 + 0x40 * q))) loc
   else if loc < 128 then bitOf (rd s (aNi n (0xC38 + 0x40 * q))) (loc - 64) else false)

/-- ETC key of an extent. -/
def etcKey (inst : BitVec 4) (x : BitVec 19) : Nat := inst.toNat * 2 ^ 19 + x.toNat

/-- The ETC entry of an extent (09 R199). -/
def etcGet (i : Ni) (inst : BitVec 4) (x : BitVec 19) : Option EtcRow := mget i.dec.etc (etcKey inst x)

/-- The NI the ETC names for an extent. -/
def etcNode (inst : BitVec 4) (e : EtcRow) : BitVec 12 := BitVec.ofNat 12 (256 * inst.toNat + e.tni.toNat)

/-- The ETC with an entry written: 64 sets of 8 ways by X[5:0], least recently used replaced (09 R199). -/
def etcPut (d : Dec) (inst : BitVec 4) (x : BitVec 19) (e : EtcRow) : Dec :=
  let k := etcKey inst x
  let same := d.etc.filter fun p => p.1 % 64 == k % 64 && p.1 != k
  let etc1 := if same.length < 8 then d.etc
    else match same.foldl (fun (b : Option (Nat × Nat)) p => match b with
        | none => some (p.1, p.2.used)
        | some c => if p.2.used < c.2 then some (p.1, p.2.used) else some c) none with
      | some v => mdel d.etc v.1
      | none => d.etc
  { d with etc := mset etc1 k { e with used := d.useCnt + 1 }, useCnt := d.useCnt + 1 }

/-- The entry of an extent is used (09 R199, least recently used). -/
def etcTouch (i : Ni) (inst : BitVec 4) (x : BitVec 19) : Ni :=
  match etcGet i inst x with
  | some e => { i with dec := { i.dec with
      etc := mset i.dec.etc (etcKey inst x) { e with used := i.dec.useCnt + 1 }, useCnt := i.dec.useCnt + 1 } }
  | none => i

/-- A fill for the extent is outstanding. -/
def fillOut (i : Ni) (inst : BitVec 4) (x : BitVec 19) : Bool := i.dec.fills.any fun f => f.inst == inst && f.x == x && !f.dead

/-- The fills outstanding: those that ended at their deadline are not (09 R200). -/
def fillCount (i : Ni) : Nat := (i.dec.fills.filter fun f => !f.dead).length

/-- EBT window address of extent X (09 R200). -/
def ebtAddr (x : BitVec 19) : Nat := 0x1000000 + 16 * x.toNat

/-- The MG_RD of a fill (09 R200): to node {owning instance, 120 + X[2:0]}, on M; its TAG tells the fills of an NI apart. -/
def fillMsg (s : State) (n : Nat) (inst : BitVec 4) (x : BitVec 19) (tag : Tag) : Msg :=
  { dst := BitVec.ofNat 12 (256 * inst.toNat + 120 + x.toNat % 8), src := niNode s n, opc := 0x78, cls := 3, tag := tag,
    addr := BitVec.ofNat 52 (ebtAddr x), nbytes := 16, len := 1 }

/-- The fill's MG_RD leaves the NI (09 R200); event 12. -/
def sendFill (s : State) (n : Nat) (inst : BitVec 4) (x : BitVec 19) (tag : Tag) : State :=
  evNi (injectOwn s n .req (fillMsg s n inst x tag) none) n 12 1

/-- The lowest fill number that no fill holds, so that a late answer meets no newer fill (09 R200); with every number held, the lowest
of an ended fill. -/
def fillTag (i : Ni) : Tag :=
  let free (l : List Fill) := (List.range 1024).find? fun t => !l.any fun f => f.tag.toNat == t
  BitVec.ofNat 10 (((free i.dec.fills).or (free (i.dec.fills.filter fun f => !f.dead))).getD 0)

/-- A request needs the extent's entry: a fill starts unless the entry is there, a fill is outstanding, or 16 are (09 R199,
R200). -/
def etcNeed (s : State) (n : Nat) (inst : BitVec 4) (x : BitVec 19) : State :=
  let i := getNi s n
  if (etcGet i inst x).isSome ∨ fillOut i inst x ∨ 16 ≤ fillCount i then s
  else
    let t := fillTag i
    let f : Fill := { inst := inst, x := x, sentNs := nowNs s, tag := t }
    sendFill (updNi s n fun i => { i with dec := { i.dec with fills := (i.dec.fills.filter fun g => g.tag != t) ++ [f] } }) n inst x t

/-- The BGT entry whose DPA_BASE equals a device address's [51:27] (10 R215). -/
def findBgt (i : Ni) (addr : Nat) : Option BgtRow :=
  (i.dec.bgt.find? fun p => p.2.dpa.toNat == addr / 2 ^ 27).map (·.2)

end Sys2Proof.Machine
end

