-- ==== Sys2Proof/Machine/PisteCore.lean ====
section
/-! DEFINITION. Charging, laying and staging of piste messages (06 R114 to R130), for NIs and span ports alike. -/

namespace Sys2Proof.Machine

/-- Flit slots per slot group at a level (06 Table 06.1). -/
def slotsAt (lvl : Nat) : Nat := 16 - 4 * min lvl 3
/-- The fc period at a level, in 1/6 ns (06 Table 06.1): 0.5, 2/3, 1 and 2 ns. -/
def fcSixths (lvl : Nat) : Nat := match lvl with | 0 => 3 | 1 => 4 | 2 => 6 | _ => 12
/-- Slots per group at the level in effect. -/
def slotsNow (s : State) : Nat := slotsAt s.pwr.lvl.toNat

/-- Frame f, taken modulo 2^32 as TICK holds it, is at or after TICK (02 R28). -/
def atOrAfter (f tick : Nat) : Bool := subMod 32 (f % 2 ^ 32) tick < 2 ^ 31

/-- TICK of a source entry (06 Table 06.2). -/
def seTick (v : BitVec 256) : Nat := fld v 127 96
/-- The entry carries an allowance in frame f (06 R126). -/
def seOpen (v : BitVec 256) (f : Nat) : Bool :=
  match seState v with
  | 1 => atOrAfter f (seTick v)
  | 2 => true
  | 3 => !atOrAfter f (seTick v)
  | _ => false
/-- ALLOW in frame f, lines (06 R126). -/
def seAllow (v : BitVec 256) (f : Nat) : Nat := if seOpen v f then fld v 95 85 else 0
/-- HDRS in frame f (06 R126). -/
def seHdrs (v : BitVec 256) (f : Nat) : Nat := if seOpen v f then fld v 84 74 else 0
/-- The flow is suspended (06 R145, R146). -/
def seSusp (v : BitVec 256) : Bool := bitOf v 0
/-- ATT: the flow launches on the alternate attachment. -/
def seAlt (v : BitVec 256) : Bool := bitOf v 3
/-- TWIN, when valid. -/
def seTwin (v : BitVec 256) : Option Nat := if bitOf v 1 then some (fld v 45 34) else none

/-- What frame f has been charged on entry e. -/
def chargeOf (p : Piste) (e f : Nat) : Charge :=
  ((mgetD p.charges e []).find? fun c => c.frame == f).getD { frame := f }

/-- The charges of entry e with frame f's replaced. -/
def setCharge (p : Piste) (e : Nat) (c : Charge) : Piste :=
  { p with charges := mset p.charges e (c :: (mgetD p.charges e []).filter fun d => d.frame != c.frame) }

/-- The groups g to h are all launch groups. -/
def runHas (launch g h : Nat) : Bool := (List.range (h - g + 1)).all fun d => launch.testBit (g + d)

/-- The earliest slot at or after `next`, in a launch group that begins at or after `minPs` (ps from the frame's start), from
which len slots lie in one run (06 R122, R123). -/
def layAt (launch n next minPs len : Nat) : Option Nat :=
  ((List.range 128).filter fun g => launch.testBit g && minPs ≤ 8000 * g).findSome? fun g =>
    let c := max next (g * n)
    let last := (c + len - 1) / n
    if c / n = g ∧ last < 128 ∧ runHas launch g last then some c else none

/-- Flit slots of a message of a given number of payload flits (06 R121). -/
def slotsOf (pay : Nat) : Nat := 1 + pay

/-- Flits staged on a plane (06 R127). -/
def stagedFlits (p : Piste) (pl : Plane) : Nat :=
  ((p.staged.filter fun g => opPlane g.msg.opc.toNat = pl).map fun g => slotsOf (g.msg.data.length + g.beats)).sum

/-- Reserve entries of source entry e in use (06 R128). -/
def reserveUsed (i : Ni) (e : Nat) : Nat := (i.trk.filter fun p => p.2.flow == some e).length

/-- The allowance of frame f carries a message of `lines` charged lines (06 R123). -/
def fitsAllow (v : BitVec 256) (p : Piste) (e f lines : Nat) : Bool :=
  (chargeOf p e f).lines + lines ≤ seAllow v f && (chargeOf p e f).hdrs + 1 ≤ seHdrs v f

/-- A message of `pay` payload flits fits the current frame k (06 R123): the slot it is laid in. `leadPs`: L. -/
def fitsNow (s : State) (v : BitVec 256) (p : Piste) (e pay leadPs : Nat) : Option Nat :=
  let k := frameOf s
  if fitsAllow v p e k pay then
    layAt (seLaunch v) (slotsNow s) (chargeOf p e k).next (posOf s * 1000 + leadPs) (slotsOf pay)
  else none

/-- The lowest launch group. -/
def firstGroup (launch : Nat) : Nat := ((List.range 128).find? fun g => launch.testBit g).getD 128

/-- A message fits the next frame k + 1 (06 R123). -/
def fitsNext (s : State) (v : BitVec 256) (p : Piste) (e pay leadPs : Nat) : Bool :=
  fitsAllow v p e (frameIn s 1) pay && posOf s * 1000 + leadPs ≤ 1024000 + 8000 * firstGroup (seLaunch v)

/-- Where a message is charged: the current frame at a slot, or the next frame. -/
inductive Fit where
  | now (slot : Nat)
  | next
  | no
  deriving DecidableEq, Repr

/-- The judgement of R123 without split: current frame, then next. -/
def judgeFit (s : State) (v : BitVec 256) (p : Piste) (e pay leadPs : Nat) : Fit :=
  match fitsNow s v p e pay leadPs with
  | some c => .now c
  | none => if fitsNext s v p e pay leadPs then .next else .no

/-- A message is charged and staged on entry e (06 R121, R122). -/
def stageMsg (s : State) (p : Piste) (e : Nat) (fit : Fit) (id : Nat) (m : Msg) (pay : Nat) : Piste :=
  match fit with
  | .now c =>
    let g := chargeOf p e (frameOf s)
    { setCharge p e { g with lines := g.lines + pay, hdrs := g.hdrs + 1, next := c + slotsOf pay } with
      staged := p.staged ++ [{ ent := e, frame := frameOf s, slot := some c, laidIn := frameOf s, id := id,
                               msg := { m with charged := some (frameOf s) }, beats := pay - m.data.length }] }
  | .next =>
    let g := chargeOf p e (frameIn s 1)
    { setCharge p e { g with lines := g.lines + pay, hdrs := g.hdrs + 1 } with
      staged := p.staged ++ [{ ent := e, frame := frameIn s 1, id := id, msg := { m with charged := some (frameIn s 1) },
                               beats := pay - m.data.length }] }
  | .no => p

/-- The frame a message of fit is charged to. -/
def fitFrame (s : State) (fit : Fit) : Nat := match fit with | .next => frameIn s 1 | _ => frameOf s

/-- The staged messages of a choice are laid in the current frame, in charge order, each after the slots already taken there
(06 R122). -/
def layPass (s : State) (ents : Nat → BitVec 256) (sel : Staged → Bool) (p : Piste) : Piste :=
  let f := frameOf s
  p.staged.foldl (fun acc g =>
    if sel g then
      let c := chargeOf acc g.ent f
      let len := slotsOf (g.msg.data.length + g.beats)
      match layAt (seLaunch (ents g.ent)) (slotsNow s) c.next 0 len with
      | some k => { setCharge acc g.ent { c with next := k + len } with staged := acc.staged ++ [{ g with slot := some k, laidIn := f }] }
      | none => { acc with staged := acc.staged ++ [g] }
    else { acc with staged := acc.staged ++ [g] }) { p with staged := [] }

/-- At gate tick f the messages charged to frame f are laid at the level in effect (06 R122, R123, R141), then, in the first slots
these leave unused, uncharged, the whole messages of earlier frames that missed their slots (06 Table 06.9); charges of earlier
frames lapse. -/
def layFrame (s : State) (ents : Nat → BitVec 256) (p : Piste) : Piste :=
  let f := frameOf s
  let p0 := { p with charges := mmap p.charges fun _ l => l.filter fun c => frameGe c.frame f }
  layPass s ents (fun g => g.frame != f && frameGe f g.frame && g.beats == 0) (layPass s ents (fun g => g.frame == f && g.slot.isNone) p0)

/-- A staged message may leave now: the present fc or one of its ns lies in the slot it is laid in (06 R131). A late message whose
source entry is free has no slot any more and leaves at once (DESIGN CHOICE, log 37). -/
def slotDue (s : State) (ents : Nat → BitVec 256) (g : Staged) : Bool :=
  (match g.slot with
    | some c => g.laidIn == frameOf s && decide (8 * c < (posOf s + 1) * slotsNow s) && decide (posOf s * slotsNow s < 8 * (c + 1))
    | none => false) ||
  (g.frame != frameOf s && frameGe (frameOf s) g.frame && seState (ents g.ent) == 0)

/-- The next staged message of a plane that leaves now: every beat is there and its slot has come (06 R131). -/
def nextLaunch (s : State) (ents : Nat → BitVec 256) (p : Piste) (pl : Plane) : Option Staged :=
  p.staged.find? fun g => opPlane g.msg.opc.toNat = pl && g.beats == 0 && slotDue s ents g

/-- A response of the flow goes on the lowest-numbered active RSP-plane flow to its destination that can carry it (06 R129). -/
def rspFlow (s : State) (n : Nat) (dst : BitVec 12) (pay : Nat) : Option Nat :=
  let q := (List.range 64).filter fun e =>
    let v := srcEnt s n e
    seState v == 2 && sePlane v = .rsp && seDst v == dst.toNat
  match q.foldl (fun (b : Option Nat) e => match b with
      | none => some e
      | some c => if seFlow (srcEnt s n e) < seFlow (srcEnt s n c) then some e else some c) none with
  | some e => if pay ≤ seMaxlen (srcEnt s n e) then some e else none
  | none => none

/-- The entries a message of entry e is launched on: those of the pair that are not suspended (06 R130, R145). -/
def twinEntries (s : State) (n e : Nat) : List Nat :=
  let v := srcEnt s n e
  let l := match seTwin v with
    | some t => (match findSrc s n t with | some e2 => if e2 = e then [e] else [e, e2] | none => [e])
    | none => [e]
  l.filter fun j => !seSusp (srcEnt s n j)

end Sys2Proof.Machine
end

