-- ==== Sys2Proof/Machine/Ingress.lean ====
section
/-! DEFINITION. Ingress requests, their data beats, and fence strobes (03 R43 to R49, R55; 06 R123 to R130; 08; 11 R231, R248). -/

namespace Sys2Proof.Machine

/-- An entry to sleep of NI n is in progress (16 R353, R356). -/
def niEntering (s : State) (n : Nat) : Bool :=
  match s.pwr.cur with
  | some q => fld q.req 22 20 != 0 && fld q.req 22 20 != 4 && fld q.req 19 18 == 2 && fld q.req 6 0 == n
  | none => false

/-- The port takes headers and strobes: PORT_EN set, up, NI out of reset, ON and not draining (03 R46, R58; 08 R190). -/
def portOpen (s : State) (n : Nat) : Bool :=
  let i := getNi s n
  isEpNi s n && bitOf (rd s (aNi n 0)) 0 && i.port.up && !i.inRst && i.region == 0 && !i.drain.active && !niEntering s n

/-- PTM Request: IO_MSG, message code 0x52, ROUTE 0 (04 R85). -/
def isPtm (h : IngHdr) : Bool := h.opc == 0x74 && !h.route && h.addr / 4096 % 256 == 0x52

/-- A rule of 03 R44, 04 R80, R84 or 10 R214 is broken: the row MALFORMED of 03 Table 03.4. -/
def malformed (s : State) (n : Nat) (h : IngHdr) : Bool :=
  let i := getNi s n
  !ingressReqOp h.opc ||
  (h.cls && !pisteOp h.opc) ||
  (4096 < ingStart h % 4096 + ingBytes h) ||
  (h.opc == 0x11 && 1 < linesOf (ingStart h) h.nbytes) ||
  (!isPosted h.opc && i.trk.any fun p => p.2.hold == .live && !p.2.posted && p.2.epTag.toNat == h.tag && p.2.slot.isNone) ||
  (!isPosted h.opc && (i.port.ersB ++ i.port.ersG).any fun e => e.ownTag && fld e.hdr 119 110 == h.tag) ||
  ((h.opc == 0x72 || h.opc == 0x73 || h.opc == 0x75) && !h.route) ||
  (h.opc == 0x74 && !h.route && !isPtm h)

/-- Position of the telemetry window against a range: 0 apart, 1 inside, 2 partly (11 R248). -/
def telePart (s : State) (n : Nat) (h : IngHdr) : Nat :=
  let w := rd s (aNi n 0x160)
  let base := fld w 51 12 * 4096
  let lo := ingStart h
  let hi := lo + max 1 (ingBytes h)
  if bitOf w 0 = false ∨ h.route then 0
  else if base ≤ lo ∧ hi ≤ base + 4096 then 1
  else if lo < base + 4096 ∧ base < hi then 2
  else 0

/-- The decode of a header that has a slice: fences and PTM Requests name no address (08 R183, 04 R85). `none` where no
decode applies; the default target's reason, or a hit. The windows are searched for the byte address; ADDR[5:0] of a line opcode
go with the FA (04 R82). -/
def decodeIng (s : State) (n k : Nat) (h : IngHdr) : Option DecRes :=
  if isFenceOp h.opc ∨ isPtm h then none
  else if isBisnp h.opc then
    match findBgt (getNi s n) h.addr with
    | some b => some (.hit (instNo s * 2 ^ 46 + b.x.toNat * 2 ^ 27 + h.addr % 2 ^ 27) false
        (.node (if b.mc then 0 else b.tgt)))
    | none => some (.miss 1)
  else if h.route then some (decodeRoute s h.addr)
  else
    match telePart s n h with
    | 1 => if h.opc = 0x70 then none else some (.miss 1)
    | 2 => some (.miss 2)
    | _ => match decodeWin s n k (ingStart h) (ingBytes h) with
      | .hit fa device d => some (.hit (fa + (h.addr - ingStart h)) device d)
      | .miss r => some (.miss r)

/-- The IO_MRD is answered from the telemetry window (11 R248). -/
def isTele (s : State) (n : Nat) (h : IngHdr) : Bool := h.opc == 0x70 && telePart s n h == 1

/-- The node a decoded best-effort request is known to go to at taking: direct targets, and extents that the ETC holds. -/
def knownNode (s : State) (n : Nat) (d : Dest) : Option (BitVec 12) :=
  match d with
  | .node t => some t
  | .extent i x => (etcGet (getNi s n) i x).map (etcNode i)

/-- The default target's reason for a header, if it answers (09 R198): windows, crossings, routing IDs, reach (07 R164), and
a piste request whose direct target is not its flow's DST (09 R203). A BISNP with CLS 1 is MALFORMED, and a multicast's
destination is a group (10 R214). -/
def decodeMiss (s : State) (n k : Nat) (h : IngHdr) : Option Nat :=
  match decodeIng s n k h with
  | none => none
  | some (.miss r) => some r
  | some (.hit _ _ d) =>
    if isBisnp h.opc && (h.cls || ((findBgt (getNi s n) h.addr).any fun b => b.mc)) then none
    else if h.cls then
      match d, findSrc s n h.flowq with
      | .node t, some e => if t.toNat != seDst (srcEnt s n e) then some 1 else none
      | _, _ => none
    else
      match knownNode s n d with
      | some t => if reachOk s n h.queue t then none else some 4
      | none => none

/-- The error code of 03 Table 03.4 that a header takes, 0 with none; the first row from the top, DECODE only with a slice
(03 R46). -/
def errCodeOf (s : State) (n : Nat) (slice : Option Nat) (h : IngHdr) : Nat :=
  match slice with
  | some k =>
    if (decodeMiss s n k h).isSome then 1
    else if malformed s n h then 2
    else if h.cls then
      match findSrc s n h.flowq with
      | none => 4
      | some e =>
        if sePlane (srcEnt s n e) = .rsp then 4
        else if seMaxlen (srcEnt s n e) < ingBeats h then 5 else 0
    else 0
  | none => 3

/-- Buffer entries a posted request needs (08 R178). -/
def pwNeed (h : IngHdr) : Nat := if h.opc = 0x74 then 1 else ingLen h

/-- A posted write finds its entries, or the oversize store (08 R178). -/
def pwRoom (s : State) (n k : Nat) (h : IngHdr) : Bool :=
  let i := getNi s n
  let need := pwNeed h
  if pwShare s n < need then pwUsed i k == 0 && !ovsBusy i
  else pwUsed i k + need ≤ pwShare s n && pwTotal i + need ≤ 64

/-- The best-effort back-pressure row of 03 Table 03.4 holds. -/
def beFull (s : State) (n k : Nat) (h : IngHdr) : Bool :=
  reqFull (getNi s n) h.queue || (if isPosted h.opc then !pwRoom s n k h else !trkRoom s n k)

/-- The ep_clk period of NI n's endpoint, in ps: 0.5 to 2.5 ns, the endpoint's own (03 R42; log 5). -/
def epClkPs (n : Nat) : Nat := 500 + Config.epClk n % 2001

/-- The lead L of 06 R123, in ps. -/
def leadPs (n pay : Nat) : Nat := 16000 + pay * epClkPs n

/-- Staging has room for `flits` flits on each of the entries of a message (06 R127, R130). -/
def stagingRoom (s : State) (n : Nat) (es : List Nat) (flits : Nat) : Bool :=
  [Plane.req, Plane.rsp].all fun pl =>
    stagedFlits (getNi s n).pst pl + flits * (es.filter fun e => sePlane (srcEnt s n e) = pl).length ≤ 1024

/-- The flow's tracker reserve has k more entries (06 R128). -/
def reserveRoom (s : State) (n e k : Nat) : Bool := reserveUsed (getNi s n) e + k ≤ seTrk (srcEnt s n e)

/-- The most lines, below len, that fit the current frame (06 R124), with the slot; each number is judged with its own lead. -/
def splitLines (s : State) (n e len : Nat) : Option (Nat × Nat) :=
  let v := srcEnt s n e
  let p := (getNi s n).pst
  ((List.range len).reverse.filter fun c => c != 0).findSome? fun c =>
    (fitsNow s v p e c (leadPs n c)).map fun slot => (c, slot)

/-- How a piste message of pay flits is taken on the entries of its pair (06 R123, R124, R130). -/
inductive PisteTake where
  | whole (l : List (Nat × Fit))
  | split (e slot first : Nat)
  | hold
  deriving DecidableEq, Repr

/-- The split of a message that does not fit the current frame whole (06 R124): lines and slot of the first piece. The second piece
fits the next frame with the whole message's lead, and both have their staging and their reserve entry. -/
def judgeSplit (s : State) (n e pay : Nat) : Option (Nat × Nat) :=
  let p := (getNi s n).pst
  let v := srcEnt s n e
  match splitLines s n e pay with
  | some (c, slot) =>
    if fitsNext s v p e (pay - c) (leadPs n pay) && reserveRoom s n e 2 && stagingRoom s n [e] (pay + 2) then some (c, slot) else none
  | none => none

/-- The judgement of a piste header on entry e (06 R123): the message is charged on the entries of its pair that are not
suspended, its tracker entry to e (06 R128, R130). A twinned flow is not split (log 16). -/
def judgePiste (s : State) (n e pay : Nat) (canSplit : Bool) : PisteTake :=
  let p := (getNi s n).pst
  let es := twinEntries s n e
  let v := srcEnt s n e
  let l := es.map fun j => (j, judgeFit s (srcEnt s n j) p j pay (leadPs n pay))
  if es.isEmpty || !reserveRoom s n e 1 || !stagingRoom s n es (slotsOf pay) then .hold
  else
    match (if canSplit && bitOf v 6 && (seTwin v).isNone && (fitsNow s v p e pay (leadPs n pay)).isNone then judgeSplit s n e pay else none) with
    | some (c, slot) => .split e slot c
    | none => if l.any (fun q => q.2 = .no) then .hold else .whole l

/-- Fields of the message a request makes (04 R65, R73, R82): NBYTES 0 for line opcodes; DST and FA are the decode's. -/
def reqMsg (s : State) (n k : Nat) (h : IngHdr) (dst : BitVec 12) (fa : Nat) : Msg :=
  { dst := dst, src := niNode s n, opc := BitVec.ofNat 7 h.opc,
    cls := if h.cls then 1 else if isIoReq h.opc then 3 else 0,
    gen := slcGen s n k, slice := BitVec.ofNat 4 k, len := BitVec.ofNat 7 (ingLen h), poison := h.poison,
    addr := BitVec.ofNat 52 fa, nt := h.nt, pv := h.pv, pasid := if h.pv then BitVec.ofNat 20 h.pasid else 0,
    nbytes := if isLineOp h.opc then 0 else BitVec.ofNat 13 (ingBytes h) }

/-- The request as the NI orders it from its taking on (08 R173). -/
def mkReq (s : State) (n k : Nat) (h : IngHdr) (device : Bool) (m : Msg) : Req :=
  { id := (getNi s n).nextId, slice := BitVec.ofNat 4 k, kind := reqKindOf h.opc, posted := isPosted h.opc,
    device := device, piste := h.cls, hasAddr := !h.route && reqKindOf h.opc != .other && !isFenceOp h.opc,
    lineLo := ingStart h / 64, lineCnt := ingLen h, start := ingStart h, nbytes := ingBytes h,
    hostAddr := BitVec.ofNat 52 h.addr, epTag := BitVec.ofNat 10 h.tag, q := h.queue, msg := m, beats := ingBeats h }

/-- The tracker entry of a non-posted request at taking (07 R167): deadline t + BTO frames; none for fences (08 R183). -/
def mkTrk (s : State) (n k : Nat) (h : IngHdr) (r : Req) : Trk :=
  { slice := r.slice, gen := slcGen s n k, reqId := r.id, posted := r.posted, opc := r.msg.opc, epTag := r.epTag,
    hostAddr := r.hostAddr, dst := r.msg.dst, deadline := if isFenceOp h.opc then none else some (beDeadline s n),
    group := r.group }

/-- The port's outputs for the header (03 R45). -/
def portAnswer (s : State) (n : Nat) (acc err : Bool) (code : Nat) : State :=
  updPort s n fun p => { p with accept := acc, err := err, errCode := code }

/-- Beats that the endpoint still has to present are received as the destination says (03 R48). -/
def expectBeats (s : State) (n : Nat) (d : RxDest) (count start nbytes : Nat) (piste : Bool) : State :=
  if count = 0 then s else updPort s n fun p => { p with rqRx := p.rqRx ++ [⟨d, count, 0, piste, start, nbytes⟩] }

/-- A header is held back (03 R46); events 2, and NI_PST_BP for a piste header (06 Table 06.10). -/
def holdHeader (s : State) (n : Nat) (piste : Bool) : State :=
  let s1 := evNi (portAnswer s n false false 0) n 2 1
  if piste then incSat s1 (aNi n 0xA8) 1 else s1

/-- A header is taken with an error (03 R46, R47): recorded, answered or logged, its beats discarded. -/
def takeError (s : State) (n : Nat) (slice : Option Nat) (h : IngHdr) (raw : BitVec 128) (code : Nat) : State :=
  let s1 := evNi (evNi (portAnswer s n true true code) n 0 1) n 1 1
  let s2 := wr (wr s1 (aNi n 0x30) (raw.extractLsb' 0 64)) (aNi n 0x38) (raw.extractLsb' 64 64)
  let s3 := if code = 2 then setFlag s2 (aNi n 8) 3 else s2
  let s4 := match code, slice with
    | 1, some k => defaultTarget s3 n ((decodeMiss s n k h).getD 1) k h.addr
    | _, _ => s3
  let s5 := if isPosted h.opc then pwError s4 n slice 0x104 (statOfErr code) h.opc 0 h.addr
    else pushErs s4 n { plainErs (rspOpOf h.opc) false h.tag (statOfErr code) 0 (slice.map (BitVec.ofNat 4)) with err := true }
  expectBeats s5 n .discard (ingBeats h) (ingStart h) (ingBytes h) h.cls

/-- An 8-byte word of the telemetry window (11 Table 11.3). -/
def teleWord (s : State) (n k off : Nat) : Nat :=
  let i := getNi s n
  let c := getSlice i k
  match off with
  | 0x000 => frameOf s
  | 0x008 => c.gen.toNat <<< 24 ||| (slcAct s n k).toNat <<< 23 ||| c.rst.toNat <<< 22 |||
      (decide (trkShare s n < trkUsed i k)).toNat <<< 21 ||| (decide (pwShare s n < pwUsed i k)).toNat <<< 20 |||
      trkUsed i k <<< 7 ||| pwUsed i k
  | 0x010 => rdF s (aNi n (0x210 + 0x20 * k)) 31 0
  | 0x018 => rdF s (aNi n (0x218 + 0x20 * k)) 31 0
  | 0x020 => (rd s (aNi n 0x140)).toNat
  | 0x100 => fld (rd s (0x410000 + 8 * (2048 + 48 * n + 16 + k))) 47 0
  | 0x108 => fld (rd s (0x410000 + 8 * (2048 + 48 * n + 32 + k))) 47 0
  | _ => 0

/-- A line of the telemetry window. -/
def teleLine (s : State) (n k line : Nat) : Line :=
  BitVec.ofNat 512 ((List.range 8).foldl (fun a j => a ||| teleWord s n k (64 * line + 8 * j) <<< (64 * j)) 0)

/-- The NI answers a telemetry read (11 R248). -/
def takeTele (s : State) (n k : Nat) (h : IngHdr) : State :=
  if bitOf (slcCfg s n k) 2 = false then pushErs s n (plainErs 0x76 false h.tag 4 0 (some (BitVec.ofNat 4 k)))
  else
    let first := h.addr % 4096 / 64
    pushErs s n
      { opc := 0x77, hdr := egrRspHdr 0x77 false h.tag h.nbytes 0 0 false,
        data := (List.range (ingLen h)).map fun j => teleLine s n k (first + j), slice := some (BitVec.ofNat 4 k) }

/-- A PTM Request ends here (04 R85, 03 R56): PTM ResponseD on egress REQ with the times of 02 R38, of which the transmit time is
filled in where the response crosses the port (Egress.lean), or, with PTM_EN 0, an
unsupported request, an IO_CPL with TARGET_ERR (log 14). -/
def takePtm (s : State) (n k : Nat) (h : IngHdr) : State :=
  if bitOf (rd s (aNi n 0)) 1 then
    let t := BitVec.ofNat 64 (nowNs s)
    pushErq s n
      { opc := 0x75, hdr := egrReqHdr 0x75 false (niNode s n).toNat k (slcGen s n k).toNat 0 (Config.ptmBytes.toNat + 1)
          false false (0x53 <<< 12),
        data := [Config.ptmLine t t], be := rangeEnables 0x75 0 (Config.ptmBytes.toNat + 1) 1, src := niNode s n,
        ptmRx := some (nowNs s) }
  else pushErs s n { plainErs 0x76 false h.tag 4 0 (some (BitVec.ofNat 4 k)) with ownTag := false }

/-- Bytes of line l that a write covers. -/
def coverOf (r : Req) (l : Nat) : BitVec 64 :=
  if r.lineLo ≤ l ∧ l < r.lineLo + r.lineCnt then beatEnables r.start r.nbytes (l - r.lineLo) else 0

/-- The youngest unissued best-effort posted write of the slice that touches line l (08 R180). -/
def youngest (i : Ni) (k l : Nat) : Option Req :=
  (i.reqs.filter fun r => r.slice.toNat == k && r.posted && !r.piste && !r.issued && r.hasAddr && r.lineLo ≤ l &&
    l < r.lineLo + r.lineCnt).getLast?

/-- The data with which the buffer answers a read (08 R180), when every line is covered whole by its youngest write; a line
whose beat has not crossed the port yet is not there to be returned (log 15). -/
def forwardData (s : State) (n k : Nat) (h : IngHdr) (device : Bool) : Option (List Line × Bool) :=
  let i := getNi s n
  if (h.opc == 1 || h.opc == 2) && h.addr % 64 / 8 == 0 && h.addr % 64 / 4 % 2 == 1 && !device && !h.cls &&
      bitOf (rd s (aNi n 0x130)) 0 && !(i.fences.any fun f => f.slice.toNat == k && f.rw) then
    let ls := (List.range (ingLen h)).map fun j =>
      let l := ingStart h / 64 + j
      match youngest i k l with
      | some w => if coverOf w l = BitVec.allOnes 64 then (w.msg.data[l - w.lineLo]?).map fun d => (d, w.msg.poison) else none
      | none => none
    if ls.isEmpty ∨ ls.any Option.isNone then none
    else some (ls.map fun o => (o.getD (0, false)).1, ls.any fun o => (o.getD (0, false)).2)
  else none

/-- A request joins its NI in taken order, and its queue. -/
def enqueueReq (s : State) (n : Nat) (r : Req) : State :=
  updNi s n fun i => updQ { i with reqs := i.reqs ++ [r], nextId := i.nextId + 1 } r.q fun q => { q with reqIds := q.reqIds ++ [r.id] }

/-- A best-effort request is taken (03 R46, 07 R150): tracker entry or buffer entries, its place in its queue, its fence, the
ETC probe, and its beats. -/
def takeBest (s : State) (n k : Nat) (h : IngHdr) (fa : Nat) (device : Bool) (d : Option Dest) : State :=
  let dst : BitVec 12 := match d with | some (.node t) => t | _ => 0
  let bgt := if isBisnp h.opc then findBgt (getNi s n) h.addr else none
  let group := match bgt with | some b => if b.mc then some (b.tgt.extractLsb' 0 10) else none | none => none
  let m0 := reqMsg s n k h dst fa
  let m := match group with | some g => { m0 with cls := 2, dst := g.zeroExtend 12 } | none => m0
  let ovs := isPosted h.opc && decide (pwShare s n < pwNeed h)
  let fill := match d with | some (.extent i x) => some (i, x) | _ => none
  let r0 := { mkReq s n k h device m with
    fill := fill, group := group, oversize := ovs, pwEntries := if isPosted h.opc && !ovs then pwNeed h else 0 }
  let r := if isFenceOp h.opc then { r0 with hasAddr := false } else r0
  let t := if r.posted then (none, s) else allocTrk s n (mkTrk s n k h r)
  let s1 := enqueueReq t.2 n { r with tag := t.1 }
  let s2 := if isFenceOp h.opc then
      updNi s1 n fun i => { i with fences := i.fences ++ [⟨r.slice, r.kind == .fenceRW, r.id, none, some r.id⟩] }
    else s1
  let s3 := match fill with
    | some (i, x) => updNi (etcNeed s2 n i x) n fun q => etcTouch q i x
    | none => s2
  expectBeats s3 n (.req r.id) (ingBeats h) (ingStart h) (ingBytes h) false

/-- A read is answered from the buffer (08 R180): a tracker entry until its DRS is presented, NI_PW_FWD. -/
def takeForward (s : State) (n k : Nat) (h : IngHdr) (m : Msg) (data : List Line × Bool) : State :=
  let r := mkReq s n k h false m
  let t := allocTrk s n { mkTrk s n k h r with deadline := none, fwd := true }
  let s1 := updNi t.2 n fun i => { i with reqs := i.reqs ++ [{ r with tag := t.1, issued := true }], nextId := i.nextId + 1 }
  incSat (pushErs s1 n
    { opc := 0x28, hdr := egrRspHdr 0x28 false h.tag h.nbytes 0 0 data.2, data := data.1,
      slice := some (BitVec.ofNat 4 k), frees := t.1 }) (aNi n 0x120) 1

/-- Span hops to a flow's destination. -/
def flowHops (s : State) (v : BitVec 256) : Nat := hopsTo s (BitVec.ofNat 12 (seDst v)) (seFlow v)

/-- A piste request holds an entry of its flow's reserve (06 R128) and is ordered behind until it is issued, at its launch, and
completed, a posted write until the bound of its charged frame c (08 R173, R185). -/
def takePisteReq (s : State) (n k e c : Nat) (h : IngHdr) (device : Bool) (m : Msg) : Option Tag × Nat × State :=
  let v := srcEnt s n e
  let r := { mkReq s n k h device m with
    ackBound := if isPosted h.opc then some ((c + 2 + 2 * flowHops s v) % 2 ^ 48) else none }
  let t := allocTrk s n { mkTrk s n k h r with flow := some e, deadline := some (pisteDeadline s n (frameOf s) (flowHops s v)) }
  (t.1, r.id, updNi t.2 n fun i => { i with reqs := i.reqs ++ [{ r with tag := t.1 }], nextId := i.nextId + 1 })

/-- The tag of a message. -/
def withTag (m : Msg) (t : Option Tag) : Msg := { m with tag := t.getD 0 }

/-- The last frame that a copy of the message is charged to. -/
def chargedFrame (s : State) (l : List (Nat × Fit)) : Nat := if l.any (fun q => q.2 = .next) then frameIn s 1 else frameOf s

/-- A piste request is taken (06 R123, R124, R130). -/
def takePiste (s : State) (n k e : Nat) (h : IngHdr) (fa : Nat) (device : Bool) (tk : PisteTake) : State :=
  let v := srcEnt s n e
  let pay := ingBeats h
  let m0 := { reqMsg s n k h (BitVec.ofNat 12 (seDst v)) fa with flow := BitVec.ofNat 12 (seFlow v) }
  match tk with
  | .hold => s
  | .whole l =>
    let t := takePisteReq s n k e (chargedFrame s l) h device m0
    let st := stampMsg t.2.2 n (withTag m0 t.1)
    let m := st.1
    let s1 := updNi st.2 n fun i => { i with pst := l.foldl (fun p q =>
      stageMsg s p q.1 q.2 t.2.1 { m with flow := BitVec.ofNat 12 (seFlow (srcEnt s n q.1)) } pay) i.pst }
    expectBeats s1 n (.req t.2.1) pay (ingStart h) (ingBytes h) true
  | .split e slot first =>
    let cut := (ingStart h / 64 + first) * 64 - ingStart h
    let h1 := { h with nbytes := cut }
    let h2 := { h with addr := h.addr + (ingStart h / 64 + first) * 64 - ingStart h, nbytes := h.nbytes - cut }
    let t1 := takePisteReq s n k e (frameOf s) h1 device m0
    let a := stampMsg t1.2.2 n (withTag { m0 with len := BitVec.ofNat 7 first } t1.1)
    let s1 := updNi a.2 n fun i => { i with pst := stageMsg s i.pst e (.now slot) t1.2.1 a.1 first }
    let s2 := expectBeats s1 n (.req t1.2.1) first (ingStart h) cut true
    let t2 := takePisteReq s2 n k e (frameIn s 1) h2 device m0
    let b := stampMsg t2.2.2 n (withTag { m0 with len := BitVec.ofNat 7 (pay - first), addr := BitVec.ofNat 52 (fa + (h2.addr - h.addr)) } t2.1)
    let s3 := updNi b.2 n fun i => { i with pst := stageMsg s i.pst e .next t2.2.1 b.1 (pay - first) }
    expectBeats s3 n (.req t2.2.1) (pay - first) (ingStart h + cut) (ingBytes h - cut) true

/-- The header is taken without an error: the port answers, events 0 and 16 + slice count (20 Table 20.3). -/
def takeOk (s : State) (n k : Nat) (h : IngHdr) : State :=
  let s0 := evNi (evNi (portAnswer s n true false 0) n 0 1) n (16 + k) 1
  if isTele s n h then takeTele s0 n k h
  else if isPtm h then takePtm s0 n k h
  else
    let dec := decodeIng s n k h
    let fa := match dec with | some (.hit fa _ _) => fa | _ => h.addr
    let dev := match dec with | some (.hit _ dev _) => dev | _ => false
    let d := match dec with | some (.hit _ _ d) => some d | _ => none
    match forwardData s0 n k h dev with
    | some l => takeForward s0 n k h (reqMsg s0 n k h 0 fa) l
    | none => takeBest s0 n k h fa dev d

/-- One endpoint cycle with a request header presented (03 R45, R46). -/
def judgeHeader (s : State) (n : Nat) (raw : BitVec 128) : State :=
  let h := ingHdr raw
  let slice := sliceOf? s n h.pv h.pasid
  let code := errCodeOf s n slice h
  if portOpen s n = false ∨ (slice.any fun k => slcRst s n k) then holdHeader s n h.cls
  else if code ≠ 0 then
    if isPosted h.opc = false ∧ 16 ≤ errCount (getNi s n).port then holdHeader s n h.cls
    else takeError s n slice h raw code
  else
    let k := slice.getD 0
    if h.cls then
      match findSrc s n h.flowq with
      | none => s
      | some e =>
        let tk := judgePiste s n e (ingBeats h) (h.opc == 0x10 || h.opc == 0x71 || h.opc == 0x75)
        if (getNi s n).port.tbValid = false ∨ tk = .hold then holdHeader s n true
        else
          let s0 := evNi (evNi (portAnswer s n true false 0) n 0 1) n (16 + k) 1
          let fa := match decodeIng s n k h with | some (.hit fa _ _) => fa | _ => h.addr
          let dev := match decodeIng s n k h with | some (.hit _ dev _) => dev | _ => false
          takePiste s0 n k e h fa dev tk
    else if beFull s n k h then holdHeader s n false
    else takeOk s n k h

/-- INGRESS_REQUEST: a header on ep_rq_hdr (03 R44 to R49). A port that is absent or not enabled by the image ignores its
inputs (03 Table 03.13). -/
def execIngressRequest (n : NiId) (hdr : BitVec 128) (s : State) : Host.Outcome State Fault Refusal :=
  answer s (if isEpNi s n.toNat && bitOf (rd s (aNi n.toNat 0)) 0 then judgeHeader s n.toNat hdr else s)

/-- The beats of a piste message of a flow had a gap (03 R48): PISTE_GAP, and a warning when GAP_NTF is 1 (23 R480). -/
def pisteGap (s : State) (n flow : Nat) : State :=
  let s1 := setFlag s (aNi n 8) 4
  if bitOf (rd s (aNi n 0)) 3 then raiseNi s1 n 0x030 1 (flow ||| (frameOf s % 2 ^ 22) <<< 16) 15 else s1

/-- The flow of a staged message. -/
def stagedFlow (p : Piste) (id : Nat) : Nat := ((p.staged.find? fun g => g.id == id).map fun g => g.msg.flow.toNat).getD 0

/-- The line joins a staged piste message, every copy of it. After a gap the bound counts from the last beat's cycle (03 R48): the
message is judged as if it were charged to that frame f, if it is the later. -/
def stageLine (p : Piste) (id f : Nat) (d : Line) (gap : Bool) : Piste :=
  { p with staged := p.staged.map fun g =>
      if g.id = id ∧ g.beats ≠ 0 then
        let m := { g.msg with data := g.msg.data ++ [d] }
        let late := (g.gap || gap) && g.msg.charged.any fun c => frameGe f c
        { g with msg := if g.beats = 1 then sealMsg (if late then { m with charged := some f } else m) else m, beats := g.beats - 1,
                 gap := g.gap || gap }
      else g }

/-- The data of a request whose byte enables break R43: the header's fault shows only now, so the message ends as MALFORMED
(log 17) and its remaining beats are discarded. -/
def badEnables (s : State) (n id : Nat) : State :=
  let i := getNi s n
  match reqById i id with
  | none => s
  | some r =>
    let s1 := setFlag s (aNi n 8) 3
    let s2 := if r.posted then pwError s1 n (some r.slice.toNat) 0x104 6 r.msg.opc.toNat 0 r.hostAddr.toNat
      else pushErs s1 n { plainErs (rspOpOf r.msg.opc.toNat) false r.epTag.toNat 6 0 (some r.slice) with err := true }
    let s3 := match r.tag with | some t => freeTrk s2 n t | none => s2
    updNi s3 n fun i => { dropReq i id with pst := { i.pst with staged := i.pst.staged.filter fun g => g.id != id } }

/-- One beat of an ingress request (03 R43, R48); of two records the more severe is raised first (03 R57). -/
def rqBeat (s : State) (n : Nat) (data : Line) (be : BitVec 64) (gap : Bool) : State :=
  match (getNi s n).port.rqRx with
  | [] => s
  | x :: rest =>
    let s1 := updPort s n fun p => { p with rqRx := if x.left ≤ 1 then rest else { x with left := x.left - 1, idx := x.idx + 1 } :: rest }
    let want := beatEnables x.start x.nbytes x.idx
    match x.dest with
    | .req id =>
      let note (t : State) : State := if x.piste && gap then pisteGap t n (stagedFlow (getNi s n).pst id) else t
      if be ≠ want then note (badEnables s1 n id)
      else
        let d := maskLine data be
        updNi (note s1) n fun i =>
          { updReq i id (fun r => { r with msg := if x.piste then r.msg else { r.msg with data := r.msg.data ++ [d] }, beats := r.beats - 1 })
            with pst := stageLine i.pst id (frameOf s) d gap }
    | _ => s1

/-- The line joins a response that is still arriving. -/
def rspLine (i : Ni) (id f : Nat) (d : Line) (gap : Bool) : Ni :=
  let i1 := updQ i 0 fun q => { q with rsp := updFirst q.rsp (fun e => e.id == id && e.beats != 0) fun e =>
    { e with msg := { e.msg with data := e.msg.data ++ [d] }, beats := e.beats - 1 } }
  { i1 with pst := stageLine i1.pst id f d gap }

/-- One beat of an ingress response (03 R48, R50); a gap before a beat of a piste response sets PISTE_GAP. -/
def rsBeat (s : State) (n : Nat) (data : Line) (gap : Bool) : State :=
  match (getNi s n).port.rsRx with
  | [] => s
  | x :: rest =>
    let s1 := updPort s n fun p => { p with rsRx := if x.left ≤ 1 then rest else { x with left := x.left - 1, idx := x.idx + 1 } :: rest }
    match x.dest with
    | .rsp id =>
      let s2 := if x.piste && gap then pisteGap s1 n (stagedFlow (getNi s n).pst id) else s1
      updNi s2 n fun i => rspLine i id (frameOf s) data gap
    | _ => s1

/-- INGRESS_DATA_BEAT: a beat on ep_rq_data or ep_rs_data (03 R43, R48). `last` is the endpoint's own mark: the number of
beats is the header's. A port that is not enabled ignores its inputs (03 R62). -/
def execIngressDataBeat (n : NiId) (rsp : Bool) (data : Line) (be : BitVec 64) (_last gap : Bool) (s : State) :
    Host.Outcome State Fault Refusal :=
  answer s (
    if isEpNi s n.toNat && bitOf (rd s (aNi n.toNat 0)) 0 then
      (if rsp then rsBeat s n.toNat data gap else rqBeat s n.toNat data be gap)
    else s)

/-- FENCE_STROBE: a fence on the strobe pins (03 R55, 08 R182). With 16 in progress, or the port or slice closed, it is not
taken; without a slice it completes in the next cycle. -/
def execFenceStrobe (n : NiId) (rw pv : Bool) (pasid : BitVec 20) (id : BitVec 4) (s : State) :
    Host.Outcome State Fault Refusal :=
  answer s (
    let m := n.toNat
    let i := getNi s m
    let busy := (i.fences.filter fun f => f.strobe.isSome).length
    match sliceOf? s m pv pasid.toNat with
    | none => if portOpen s m ∧ busy < 16 then updPort s m fun p => { p with fnReady := true, fnDone := [id] }
        else updPort s m fun p => { p with fnReady := false }
    | some k =>
      if portOpen s m = false ∨ 16 ≤ busy ∨ slcRst s m k then updPort s m fun p => { p with fnReady := false }
      else updNi s m fun i =>
        { i with fences := i.fences ++ [⟨BitVec.ofNat 4 k, rw, i.nextId, some id, none⟩], port := { i.port with fnReady := true } })

/-- A fence waits for nothing more (08 R182): FENCE_W for no earlier posted write, FENCE_RW for no earlier request of the
slice, and neither passes an earlier fence of the slice (03 R55). -/
def fenceClear (i : Ni) (f : Fence) : Bool :=
  !(i.reqs.any fun r => r.slice == f.slice && r.id < f.after && r.kind != .other && (f.rw || r.posted))

/-- FENCE_SATISFIED: the oldest fence of the slice is satisfied (08 R182, R183): a strobe pulses ep_fn_done; an opcode fence
leaves its queue, frees its tracker entry and is answered with ACK. -/
def execFenceSatisfied (n : NiId) (slice : BitVec 4) (s : State) : Host.Outcome State Fault Refusal :=
  answer s (
    let m := n.toNat
    let i := getNi s m
    match i.fences.find? fun f => f.slice == slice with
    | none => s
    | some f =>
      if fenceClear i f = false ∨ slcRst s m slice.toNat then s
      else
        let s1 := updNi s m fun i => { i with fences := (takeFirst i.fences fun g => g.slice == slice).2 }
        match f.strobe, f.reqId with
        | some id, _ => updPort s1 m fun p => { p with fnDone := [id] }
        | none, some id =>
          match reqById i id with
          | some r =>
            let s2 := match r.tag with | some t => freeTrk s1 m t | none => s1
            pushErs (updNi s2 m fun i => dropReq i id) m (plainErs 0x7E false r.epTag.toNat 0 0 (some slice))
          | none => s1
        | none, none => s1)

end Sys2Proof.Machine
end

