-- ==== Sys2Proof/Machine/Egress.lean ====
section
/-! DEFINITION. Ingress responses, egress credits and presentation, notification records taken (03 R50 to R54, R57; 06 R129;
09 R205; 10 R223). -/

namespace Sys2Proof.Machine

/-- An answer that an NI makes itself as a target for request m (03 R496, 09 R205): no data, echoed SLICE, GEN and TAG. -/
def answerMsg (s : State) (n : Nat) (m : Msg) (opc stat gcnt : Nat) : Msg :=
  { dst := m.src, src := niNode s n, opc := BitVec.ofNat 7 opc, cls := if m.cls = 1 then 1 else if mgmtOp opc then 3 else 0,
    gen := m.gen, slice := m.slice, tag := m.tag, addr := rspAddr stat gcnt }

/-- The answer joins the NI's answer list (09 R205). -/
def pushAnswer (s : State) (n : Nat) (m : Msg) (opc stat gcnt : Nat) : State :=
  updNi s n fun i => { i with answers := i.answers ++ [{ msg := answerMsg s n m opc stat gcnt, piste := m.cls == 1 }] }

/-- A message joins the RSP half of queue 0 (07 R150); `att`: the attachment a gathered answer leaves on. -/
def pushRspOn (s : State) (n : Nat) (m : Msg) (beats : Nat) (att : Option Bool) : State :=
  updNi s n fun i => updQ { i with nextId := i.nextId + 1 } 0 fun q => { q with rsp := q.rsp ++ [⟨i.nextId, m, beats, att⟩] }

/-- A message joins the RSP half of queue 0, on the attachment that 05 R97 picks. -/
def pushRsp (s : State) (n : Nat) (m : Msg) (beats : Nat) : State := pushRspOn s n m beats none

/-- The NI's answer list has its 16 entries: it takes nothing more of the request plane (09 R205). -/
def answersFull (s : State) (n : Nat) : Bool := 16 ≤ (getNi s n).answers.length

/-- Answers waiting for the RSP half of queue 0. -/
def beAnswers (i : Ni) : Nat := (i.answers.filter fun a => !a.piste).length

/-- Acknowledgements of mirrored writes that were taken with a place in the RSP half of queue 0 and wait for the copy's (13
R293). -/
def heldAcks (i : Ni) : Nat := (i.mirrors.filter fun q => q.2.2.isSome).length

/-- The RSP half of queue 0 has no place free (07 R150). -/
def rspPlaces (i : Ni) : Bool := 16 ≤ (getQ i 0).rsp.length + heldAcks i

/-- The RSP half has no place for an ingress response: full, or its places go to the answer list first (09 R205). -/
def rspHalfFull (i : Ni) : Bool := 16 ≤ (getQ i 0).rsp.length + heldAcks i + beAnswers i

/-- The member-table entry of an originator and tag whose answer is still to come (10 R223). -/
def findMember (i : Ni) (orig : BitVec 12) (tag : Tag) : Option (Nat × Member) :=
  i.members.find? fun p => p.2.orig == orig && p.2.tag == tag && !p.2.answered && p.2.due.isNone

/-- A gathered answer of a member (10 R220, R223): on S of the RSP plane to the originator. BIRSP state `none` has OPC[3] at 1 and
OPC[2:0] at 0. -/
def memberMsg (s : State) (n : Nat) (e : Member) (opc stat : Nat) : Msg :=
  { dst := e.orig, src := niNode s n, opc := BitVec.ofNat 7 opc, cls := 2, gen := e.gen, slice := e.slice,
    tag := e.tag, addr := rspAddr stat 1 }

/-- A gathered answer that the NI makes itself joins its answer list (09 R205), for the attachment the copy came by. -/
def sendMemberAnswer (s : State) (n : Nat) (e : Member) (opc stat : Nat) : State :=
  updNi s n fun i => { i with answers := i.answers ++ [{ msg := memberMsg s n e opc stat, att := some e.alt }] }

/-- The member entries that a reset answers move into the answer list, as far as it has room (09 R205, 10 R223). -/
def memberDrain (s : State) (n : Nat) : State :=
  (getNi s n).members.foldl (fun t p => match p.2.due with
    | some st =>
      if answersFull t n then t
      else updNi (sendMemberAnswer t n p.2 0x48 st) n fun i => { i with
        members := mset i.members p.1 { p.2 with due := none, answered := true } }
    | none => t) s

/-- Beats of a response: its NBYTES from a line start (03 R43; log 19). -/
def rspBeats (h : IngRsp) : Nat := if carriesData h.opc then min 64 (ceilDiv h.nbytes 64) else 0

/-- What the NI sends for an ingress response (03 R50, R54; 04 R81, R83): illegal STATs become TARGET_ERR. -/
def rspMsg (s : State) (n : Nat) (h : IngRsp) (stat : Nat) (piste : Bool) : Msg :=
  { dst := h.dst, src := niNode s n, opc := BitVec.ofNat 7 h.opc, cls := if piste then 1 else if mgmtOp h.opc then 3 else 0,
    gen := h.gen, slice := h.slice, tag := h.tag, len := BitVec.ofNat 7 (rspBeats h), poison := h.poison,
    addr := rspAddr stat 0, nbytes := BitVec.ofNat 13 h.nbytes }

/-- The header is taken on ingress RSP: event 3. -/
def rsTaken (s : State) (n : Nat) : State := evNi (updPort s n fun p => { p with rsAccept := true }) n 3 1

/-- The header is held back on ingress RSP. -/
def rsHeld (s : State) (n : Nat) : State := updPort s n fun p => { p with rsAccept := false }

/-- Beats of a response still to come. -/
def expectRsp (s : State) (n : Nat) (d : RxDest) (count : Nat) (piste : Bool) : State :=
  if count = 0 then s else updPort s n fun p => { p with rsRx := p.rsRx ++ [⟨d, count, 0, piste, 0, 0⟩] }

/-- A piste answer of pay flits is charged and staged on the flow's pair (06 R129, R130); `none` when it fits neither frame. -/
def stageRsp (s : State) (n e : Nat) (m : Msg) (pay lead : Nat) : Option State :=
  let p := (getNi s n).pst
  let es := twinEntries s n e
  let l := es.map fun j => (j, judgeFit s (srcEnt s n j) p j pay lead)
  if l.isEmpty || !stagingRoom s n es (slotsOf pay) || l.any (fun q => q.2 = .no) then none
  else
    let st := stampMsg s n m
    let id := (getNi s n).nextId
    some (updNi st.2 n fun i => { i with
      nextId := i.nextId + 1
      pst := l.foldl (fun p q => stageMsg s p q.1 q.2 id { st.1 with flow := BitVec.ofNat 12 (seFlow (srcEnt s n q.1)) } pay) i.pst })

/-- A response goes best effort on queue 0, or waits for room there; the acknowledgement of a mirrored write keeps its place
there while it waits for the copy's (13 R293). -/
def rspBest (s : State) (n : Nat) (m : Msg) (beats : Nat) : State :=
  if rspHalfFull (getNi s n) then rsHeld s n
  else if m.opc.toNat / 8 == 4 && (getNi s n).mirrors.any (fun q => q.1 == m.dst && q.2.1 == m.tag && q.2.2.isNone) then
    updNi (rsTaken s n) n fun i => { i with
      mirrors := updFirst i.mirrors (fun q => q.1 == m.dst && q.2.1 == m.tag) fun q => (q.1, q.2.1, some m) }
  else expectRsp (pushRsp (rsTaken s n) n m beats) n (.rsp (getNi s n).nextId) beats false

/-- A response on its flow, or best effort when no flow can carry it (06 R129). -/
def rspRoute (s : State) (n : Nat) (h : IngRsp) (stat : Nat) : State :=
  let beats := rspBeats h
  if h.cls then
    match rspFlow s n h.dst beats with
    | some e =>
      match stageRsp s n e (rspMsg s n h stat true) beats (leadPs n beats) with
      | some t => expectRsp (rsTaken t n) n (.rsp (getNi s n).nextId) beats true
      | none => rsHeld s n
    | none => if rspHalfFull (getNi s n) then rsHeld s n
        else rspBest (setFlag s (aNi n 0x80) 1) n (rspMsg s n h stat false) beats
  else rspBest s n (rspMsg s n h stat false) beats

/-- A BIRSP from the endpoint (10 R222, R223, R227): to its member entry as a gathered answer, through the RSP half of queue 0; late,
discarded and counted; otherwise the unicast answer, best effort on queue 0. -/
def birspIn (s : State) (n : Nat) (h : IngRsp) (stat : Nat) : State :=
  let i := getNi s n
  match findMember i h.dst h.tag with
  | some (j, e) =>
    if rspHalfFull i then rsHeld s n
    else
      let bad := h.opc / 8 % 2 == 1
      let s1 := if bad then setFlag (rsTaken s n) (aNi n 8) 3 else rsTaken s n
      let s2 := pushRspOn s1 n (memberMsg s n e (if bad then 0x48 else h.opc) (if bad then 4 else stat)) 0 (some e.alt)
      updNi s2 n fun i => { i with members := mset i.members j { e with answered := true } }
  | none =>
    if i.lateMembers.any fun q => q.1 == h.dst && q.2 == h.tag then
      incSat (updNi (rsTaken s n) n fun i => { i with lateMembers := (takeFirst i.lateMembers fun q => q.1 == h.dst && q.2 == h.tag).2 })
        (aNi n 0x1C88) 1
    else rspBest s n { rspMsg s n h stat false with cls := 0 } 0

/-- CD2H_DATA: DST, SLICE, GEN and TAG are those of the D2H request whose endpoint TAG the data carries (04 R83); with no
such request the data is discarded and MALFORMED_SEEN set (log 18). -/
def d2hData (s : State) (n : Nat) (h : IngRsp) (stat : Nat) : State :=
  match (getNi s n).pulls.find? fun p => p.1 == h.tag with
  | some p =>
    let h1 := { h with dst := p.2.1.dst, slice := p.2.1.slice, gen := p.2.1.gen, tag := p.2.2 }
    let t := rspRoute s n h1 stat
    if (getNi t n).port.rsAccept then updNi t n fun i => { i with pulls := (takeFirst i.pulls fun q => q.1 == h.tag).2 } else t
  | none => expectRsp (setFlag (rsTaken s n) (aNi n 8) 3) n .discard (rspBeats h) h.cls

/-- An opcode that the endpoint may not present on ingress RSP, or not with this class (04 R80, Table 04.5). -/
def rspIllegal (h : IngRsp) : Bool := !ingressRspOp h.opc || (h.cls && !pisteOp h.opc)

/-- An illegal opcode is forwarded as an NDR Cmp with TARGET_ERR and no data, its beats discarded (03 R50). With CLS 1 it takes its
response flow like any response of that class (DEDUCED from 06 R129, log 36: R50 does not name its class). -/
def rspBad (s : State) (n : Nat) (h : IngRsp) : State :=
  let t := rspRoute s n { h with opc := 0x20, nbytes := 0, poison := false } 4
  if (getNi t n).port.rsAccept then expectRsp (setFlag t (aNi n 8) 3) n .discard (rspBeats h) h.cls else t

/-- INGRESS_RESPONSE: a header on ep_rs_hdr (03 R50). -/
def execIngressResponse (n : NiId) (hdr : BitVec 128) (s : State) : Host.Outcome State Fault Refusal :=
  answer s (
    let m := n.toNat
    let h := ingRsp hdr
    let i := getNi s m
    if !(isEpNi s m && bitOf (rd s (aNi m 0)) 0) then s
    else if !i.port.up || i.inRst || i.region != 0 then rsHeld s m
    else if rspIllegal h then rspBad s m h
    else
      let ok := h.stat == 0 || h.stat == 4 || h.stat == 5
      let stat := if ok then h.stat else 4
      let t := if isBirsp h.opc then birspIn s m h stat
        else if h.opc = 0x69 then d2hData s m h stat
        else rspRoute s m h stat
      if ok || !(getNi t m).port.rsAccept then t else setFlag t (aNi m 8) 3)

/-- A pool's credits after a return (03 R51): a return that would exceed 255 is dropped. -/
def addCredit (c : Nat) (d : BitVec 2) : Nat := if 255 < c + d.toNat then c else c + d.toNat

/-- EGRESS_CREDIT_RETURN: credits come back on an egress channel (03 R51, R52). -/
def execEgressCreditReturn (n : NiId) (rsp : Bool) (hg hb dg db : BitVec 2) (s : State) : Host.Outcome State Fault Refusal :=
  answer s (
    let m := n.toNat
    let p := (getNi s m).port
    if !(isEpNi s m && p.up) then s
    else
      let s1 := updPort s m fun p => if rsp then
          { p with ersHG := addCredit p.ersHG hg, ersHB := addCredit p.ersHB hb, ersDG := addCredit p.ersDG dg, ersDB := addCredit p.ersDB db }
        else
          { p with erqHG := addCredit p.erqHG hg, erqHB := addCredit p.erqHB hb, erqDG := addCredit p.erqDG dg, erqDB := addCredit p.erqDB db }
      let ovf := if rsp then 255 < p.ersHG + hg.toNat ∨ 255 < p.ersHB + hb.toNat ∨ 255 < p.ersDG + dg.toNat ∨ 255 < p.ersDB + db.toNat
        else 255 < p.erqHG + hg.toNat ∨ 255 < p.erqHB + hb.toNat ∨ 255 < p.erqDG + dg.toNat ∨ 255 < p.erqDB + db.toNat
      if ovf then setFlag s1 (aNi m 8) 5 else s1)

/-- The message's pool holds credits for its header and every beat (03 R53). -/
def egrReady (p : Port) (rsp : Bool) (e : Egr) : Bool :=
  match rsp, e.piste with
  | false, true => 1 ≤ p.erqHG && e.data.length ≤ p.erqDG
  | false, false => 1 ≤ p.erqHB && e.data.length ≤ p.erqDB
  | true, true => 1 ≤ p.ersHG && e.data.length ≤ p.ersDG
  | true, false => 1 ≤ p.ersHB && e.data.length ≤ p.ersDB

/-- The port with the message presented: its credits are consumed and it leaves its queue (03 R53). -/
def egrTake (p : Port) (rsp : Bool) (e : Egr) : Port :=
  match rsp, e.piste with
  | false, true => { p with erqHG := p.erqHG - 1, erqDG := p.erqDG - e.data.length, erqG := p.erqG.tail, outErq := some e }
  | false, false => { p with erqHB := p.erqHB - 1, erqDB := p.erqDB - e.data.length, erqB := p.erqB.tail, outErq := some e }
  | true, true => { p with ersHG := p.ersHG - 1, ersDG := p.ersDG - e.data.length, ersG := p.ersG.tail, outErs := some e }
  | true, false => { p with ersHB := p.ersHB - 1, ersDB := p.ersDB - e.data.length, ersB := p.ersB.tail, outErs := some e }

/-- The message an egress channel begins with (03 R53): a waiting G message first. A B message may begin while the G message in
front of it lacks credits of its own pool (DESIGN CHOICE, log 36: R53 puts a waiting G message first and says no more). -/
def egrNext (p : Port) (rsp : Bool) : Option Egr :=
  let g := if rsp then p.ersG.head? else p.erqG.head?
  let b := if rsp then p.ersB.head? else p.erqB.head?
  match g, b with
  | some e, some f => if egrReady p rsp e then some e else if egrReady p rsp f then some f else none
  | some e, none => if egrReady p rsp e then some e else none
  | none, some f => if egrReady p rsp f then some f else none
  | none, none => none

/-- What presentation brings about: a forwarded read's entry is freed (08 R180); a posted I/O message is acknowledged with an
IO_CPL (08 R173); a member's deadline starts (10 R223); EGR_LATE (06 R134). -/
def egrAfter (s : State) (n : Nat) (e : Egr) : State :=
  let s1 := match e.frees with
    | some t =>
      match mget (getNi s n).trk t.toNat with
      | some k => updNi (freeTrk s n t) n fun i => { i with reqs := i.reqs.filter fun r => r.id != k.reqId }
      | none => s
    | none => s
  let s2 := if (e.msg.opc == 0x71 || e.msg.opc == 0x74 || e.msg.opc == 0x75) then pushAnswer s1 n e.msg 0x76 0 0 else s1
  let s3 := if e.msg.cls == 2 && isBisnp e.msg.opc.toNat then
      updNi s2 n fun i => { i with members := mmap i.members fun _ q =>
        if q.orig = e.msg.src ∧ q.tag = e.msg.tag ∧ q.deadline.isNone then { q with deadline := some (frameOf s + mtoOf s) } else q }
    else s2
  match e.charged with
  | some f => if e.piste && f != frameOf s && frameGe (frameOf s) f then setFlag s3 (aNi n 0x80) 0 else s3
  | none => s3

/-- A PTM ResponseD that crosses the port takes its transmit time (02 R38). -/
def ptmStamp (s : State) (e : Egr) : Egr :=
  match e.ptmRx with
  | some rx => { e with data := [Config.ptmLine (BitVec.ofNat 64 rx) (BitVec.ofNat 64 (nowNs s))] }
  | none => e

/-- EGRESS_MESSAGE_START: the channel begins its next message (03 R53); one that waits for credits counts in event 6, and a
G message in NI_EP_CRD_STALL (03 R52). -/
def execEgressMessageStart (n : NiId) (rsp : Bool) (s : State) : Host.Outcome State Fault Refusal :=
  answer s (
    let m := n.toNat
    let p := (getNi s m).port
    if !(isEpNi s m && p.up) then s
    else
      let gWait := match (if rsp then p.ersG.head? else p.erqG.head?) with | some e => !egrReady p rsp e | none => false
      let s1 := if gWait then incSat s (aNi m 0x28) 1 else s
      match egrNext p rsp with
      | some e =>
        let s2 := updPort s1 m fun p => egrTake p rsp (ptmStamp s e)
        egrAfter (evNi s2 m (if rsp then 5 else 4) 1) m e
      | none =>
        let some_ := if rsp then p.ersG.length + p.ersB.length else p.erqG.length + p.erqB.length
        if some_ = 0 then s1 else evNi s1 m 6 1)

/-- NTF_RECORD_TAKEN: the endpoint takes the record presented on ep_ntf_data; none is presented while NTF_EN is 0 (03 R57), and a port that
is not enabled ignores its inputs (03 R62). -/
def execNtfRecordTaken (n : NiId) (s : State) : Host.Outcome State Fault Refusal :=
  answer s (if isEpNi s n.toNat && bitOf (rd s (aNi n.toNat 0)) 0 && bitOf (rd s (aNi n.toNat 0)) 2 then updPort s n.toNat fun p => { p with ntfQ := p.ntfQ.tail } else s)

end Sys2Proof.Machine
end

