-- ==== Sys2Proof/Machine/Sched.lean ====
section
/-! DEFINITION. Starting best-effort messages, their pieces, the rate limiters, the answer list, piste launch, tracker
deadlines, and drain (06 R131; 07; 08 R174 to R190; 09 R205). -/

namespace Sys2Proof.Machine

/-! Ordering holds (08 R174 to R185). -/

/-- Two requests of a slice touch a common line. -/
def sameLine (a b : Req) : Bool :=
  a.hasAddr && b.hasAddr && a.lineLo < b.lineLo + b.lineCnt && b.lineLo < a.lineLo + a.lineCnt

/-- An earlier request of the slice holds r back: same line (08 R174, R181), device order (R177), posted-write order
(R179). Requests of kind `other` neither hold nor are held (R185). -/
def heldBy (r e : Req) : Bool :=
  e.id < r.id && e.slice == r.slice && e.kind != .other && r.kind != .other &&
  (sameLine r e || (r.device && e.device) || (r.posted && e.posted && !e.piste && !e.issued))

/-- A fence of the slice holds r back (08 R182). -/
def fenceHolds (r : Req) (f : Fence) : Bool :=
  f.slice == r.slice && f.after ≤ r.id && r.kind != .other && (f.rw || r.posted) && f.reqId != some r.id

/-- r is held in its queue by 08 R174, R177, R179 or R182. -/
def ordHeld (i : Ni) (r : Req) : Bool := i.reqs.any (heldBy r) || i.fences.any (fenceHolds r)

/-- The destination a request would start with now, if known (09 R199, R201). -/
def startDst (i : Ni) (r : Req) : Option (BitVec 12) :=
  match r.fill with
  | some (inst, x) => (etcGet i inst x).map (etcNode inst)
  | none => some r.msg.dst

/-! Rate limiters (07 R157 to R163). -/

/-- QUANTUM of queue q, bytes (07 R155). -/
def quantumOf (s : State) (n q : Nat) : Nat :=
  64 * min 1024 (max 1 (rdF s (aNi n (0xC00 + 0x40 * q)) 10 0))
/-- MODE of queue q: calendar. -/
def calMode (s : State) (n q : Nat) : Bool := bitOf (rd s (aNi n (0xC00 + 0x40 * q))) 12
/-- RATE in force, 1/16 byte per ns. -/
def rateOf (s : State) (n q : Nat) : Nat := max 1 (rdF s (aNi n (0xC08 + 0x40 * q)) 12 0)
/-- CAP in 1/16 byte (07 Table 07.6). -/
def capOf (s : State) (n q : Nat) : Nat := 1024 * min 16384 (max 65 (rdF s (aNi n (0xC08 + 0x40 * q)) 30 16))
/-- DEBT in 1/16 byte. -/
def debtOf (s : State) (n q : Nat) : Nat := 1024 * min 16384 (rdF s (aNi n (0xC08 + 0x40 * q)) 46 32)
/-- Credit of queue q at now (07 R158). -/
def creditNow (s : State) (n q : Nat) : Int :=
  let u := getQ (getNi s n) q
  min (u.credit + ((rateOf s n q * (nowNs s - u.tUpd) : Nat) : Int)) (capOf s n q : Nat)
/-- What the other half's starts of this fc have taken of a queue's credit, and added to its T (07 Table 07.3). -/
def fcOther (u : Queue) (p : Plane) : Nat × Nat := match p with | .req => (u.fcCostS, u.fcTS) | .rsp => (u.fcCostQ, u.fcTQ)
/-- A half of the queue may start a message of a cost (07 R158, R160); a start of the queue's other half in the same fc does not
hold it (07 Table 07.3). -/
def eligible (s : State) (n : Nat) (p : Plane) (q cost : Nat) : Bool :=
  let u := getQ (getNi s n) q
  if calMode s n q then (u.tElig - (fcOther u p).2) / 512 * 2 ≤ nowNs s
  else decide (-(debtOf s n q : Int) ≤ creditNow s n q + ((fcOther u p).1 : Nat) - (16 * cost : Nat))
/-- A charge of this fc noted on its half. -/
def fcNote (u : Queue) (p : Plane) (c t : Nat) : Queue :=
  match p with
  | .req => { u with fcCostQ := u.fcCostQ + c, fcTQ := u.fcTQ + t }
  | .rsp => { u with fcCostS := u.fcCostS + c, fcTS := u.fcTS + t }
/-- The queue charged with a message at its start (07 R157 to R160). -/
def chargeQ (s : State) (n : Nat) (p : Plane) (q cost : Nat) : State :=
  let u := getQ (getNi s n) q
  if calMode s n q then
    let d := ceilDiv (cost * 16 * 256) (rateOf s n q)
    let t := max u.tElig (256 * nowNs s) + d
    updNi s n fun i => updQ i q fun u => fcNote { u with
      tElig := t, sLast := nowNs s, cLast := cost, wheel := some (min (t / 512) (nowNs s / 2 + 4095)) } p 0 d
  else
    updNi s n fun i => updQ i q fun u =>
      fcNote { u with credit := creditNow s n q - (16 * cost : Nat), tUpd := nowNs s } p (16 * cost) 0
/-- A plane's decision opens a new fc, unless the other plane's of this fc was the last (07 Table 07.3). -/
def fcBegin (s : State) (n : Nat) (p : Plane) : State :=
  let now := s.time.t.toNat
  updNi s n fun i => { i with sched :=
    if (i.sched.fc.any fun f => f.1 != p && f.2 == now) then { i.sched with fc := none }
    else { i.sched with fc := some (p, now)
                        queues := mmap i.sched.queues fun _ u => { u with fcCostQ := 0, fcCostS := 0, fcTQ := 0, fcTS := 0 } } }
/-- The share credit of a slice charged with a message (11 R235). -/
def chargeSc (s : State) (n k cost : Nat) : State :=
  updNi s n fun i => updSlice i k fun c => { c with sc := scNow s n k - (16 * cost : Nat), scUpd := nowNs s }

/-! Deficit round robin (07 R152 to R154). -/

/-- The cost of the request at the head of queue q's REQ half. -/
def reqCost (r : Req) : Nat := 64 * (1 + (if carriesData r.msg.opc.toNat then r.msg.data.length + r.beats else 0))

/-- The head of a half: its cost and the slice it is charged to. -/
def headOf (i : Ni) (p : Plane) (q : Nat) : Option (Nat × Option Nat) :=
  match p with
  | .req => ((getQ i q).reqIds.head?.bind (reqById i)).map fun r => (reqCost r, some r.slice.toNat)
  | .rsp => (getQ i q).rsp.head?.map fun e => (64 * (1 + e.msg.data.length + e.beats), none)

/-- A half is active (07 R152): a descriptor, an eligible rate limiter, room in the head's rate share. -/
def halfActive (s : State) (n : Nat) (p : Plane) (q : Nat) : Bool :=
  match headOf (getNi s n) p q with
  | some (cost, k) => eligible s n p q cost && (match k with | some j => decide (0 ≤ scNow s n j) | none => true)
  | none => false

/-- The head of queue q's half that could start now, channels apart (07 R153, R183; 08; 09 R199): its message. -/
def startable (s : State) (n : Nat) (p : Plane) (q : Nat) : Option Msg :=
  let i := getNi s n
  match p with
  | .req =>
    match (getQ i q).reqIds.head?.bind (reqById i) with
    | some r =>
      if isFenceOp r.msg.opc.toNat || r.beats != 0 || ordHeld i r then none
      else if r.posted && !trkRoom s n r.slice.toNat then none
      else (startDst i r).map fun d => { r.msg with dst := if r.group.isSome then r.msg.dst else d }
    | none => none
  | .rsp => match (getQ i q).rsp.head? with
    | some e => if e.beats = 0 then some e.msg else none
    | none => none

/-- Fields of a queue's half. -/
def halfDef (u : Queue) (p : Plane) : Nat := match p with | .req => u.defQ | .rsp => u.defS
/-- GOT of a half. -/
def halfGot (u : Queue) (p : Plane) : Bool := match p with | .req => u.gotQ | .rsp => u.gotS
/-- ACT of a half, as last judged. -/
def halfAct (u : Queue) (p : Plane) : Bool := match p with | .req => u.actQ | .rsp => u.actS
/-- A half's deficit, GOT and ACT written. -/
def setHalf (u : Queue) (p : Plane) (d : Nat) (g a : Bool) : Queue :=
  match p with | .req => { u with defQ := d, gotQ := g, actQ := a } | .rsp => { u with defS := d, gotS := g, actS := a }

/-- The queues that hold anything, in order. -/
def listedQs (i : Ni) : List Nat := i.sched.queues.map (·.1)

/-- The round ends when no active half covers its head (07 R153). -/
def roundEnd (s : State) (n : Nat) (p : Plane) : State :=
  let i := getNi s n
  let can := (listedQs i).any fun q => halfAct (getQ i q) p && halfActive s n p q &&
    (match headOf i p q with | some (c, _) => c ≤ halfDef (getQ i q) p | none => false)
  if can then s
  else
    updNi s n fun i => { i with sched := { i.sched with
      roundQ := if p = .req then i.sched.roundQ + 1 else i.sched.roundQ
      roundS := if p = .rsp then i.sched.roundS + 1 else i.sched.roundS
      queues := mmap i.sched.queues fun q u =>
        let a := halfAct u p && halfActive s n p q
        setHalf u p (if a then halfDef u p + quantumOf s n q else halfDef u p) a (halfAct u p) } }

/-- Wakes (07 R154): a half that becomes active starts from deficit 0, with one quantum if it has had none this round. -/
def wakes (s : State) (n : Nat) (p : Plane) : State :=
  updNi s n fun i => { i with sched := { i.sched with
    queues := mmap i.sched.queues fun q u =>
      let a := halfActive s n p q
      if a && !halfAct u p then setHalf u p (if halfGot u p then 0 else quantumOf s n q) true true
      else setHalf u p (halfDef u p) (halfGot u p) a } }

/-- A half that a start has left inactive is no longer ACT, so that its next message wakes it (07 R152, R154). -/
def sleeps (s : State) (n : Nat) (p : Plane) : State :=
  updNi s n fun i => { i with sched := { i.sched with
    queues := mmap i.sched.queues fun q u => setHalf u p (halfDef u p) (halfGot u p) (halfAct u p && halfActive s n p q) } }

/-- The attachment that the head of a half must leave on: a gathered answer's (10 R223). -/
def headAtt (i : Ni) (p : Plane) (q : Nat) : Option Bool :=
  match p with | .req => none | .rsp => (getQ i q).rsp.head?.bind (·.att)

/-- The first queue after PTR whose half can start (07 R153). -/
def drrPick (s : State) (n : Nat) (p : Plane) : Option (Nat × Msg × Bool × Nat) :=
  let i := getNi s n
  let ptr := match p with | .req => i.sched.ptrQ | .rsp => i.sched.ptrS
  ((List.range 64).map fun j => (ptr + 1 + j) % 64).findSome? fun q =>
    match headOf i p q, startable s n p q with
    | some (c, _), some m =>
      if halfAct (getQ i q) p && c ≤ halfDef (getQ i q) p then (ownOn s n ⟨p, m, headAtt i p q⟩).map fun a => (q, m, a.1, a.2) else none
    | _, _ => none

/-- A REQ head leaves its queue and is issued (08 R173, R178, R179): buffer entries freed, a posted write's tracker entry
taken; requests outside the ordering model and non-posted requests keep the entry of their taking. -/
def issueReq (s : State) (n : Nat) (r : Req) (m : Msg) : Option Tag × State :=
  let t := if r.posted then
      allocTrk s n { slice := r.slice, gen := slcGen s n r.slice.toNat, reqId := r.id, posted := true, opc := r.msg.opc,
                     hostAddr := r.hostAddr, dst := m.dst, deadline := some (beDeadline s n), slot := r.slot }
    else (r.tag, s)
  let t2 := match t.1 with
    | some g => updNi t.2 n fun i => { i with trk := mupd i.trk g.toNat {} fun e => { e with dst := m.dst, ep := curEp s } }
    | none => t.2
  (t.1, updNi t2 n fun i => updQ (updReq i r.id fun r => { r with issued := true, tag := t.1, pwEntries := 0, oversize := false }) r.q
    fun u => { u with reqIds := u.reqIds.filter fun j => j != r.id })

/-- The half's head leaves it and its deficit falls by the cost; PTR names the queue (07 R153). -/
def takeHead (i : Ni) (p : Plane) (q cost : Nat) : Ni :=
  let i1 := updQ i q fun u =>
    setHalf (match p with | .req => u | .rsp => { u with rsp := u.rsp.tail }) p (halfDef u p - cost) (halfGot u p) (halfAct u p)
  { i1 with sched := match p with | .req => { i1.sched with ptrQ := q } | .rsp => { i1.sched with ptrS := q } }

/-- The member entry of a gathered answer that leaves is free (10 R223). -/
def memberGone (i : Ni) (m : Msg) : Ni :=
  if m.cls = 2 then { i with members := i.members.filter fun p => !(p.2.answered && p.2.orig == m.dst && p.2.tag == m.tag) } else i

/-- The head of queue q's half starts (07 R153): its descriptor leaves, limiter and share are charged, and the message goes out with
the fields the NI sets. Payload lines issued count for the slice (20 Table 20.3). -/
def startHead (s : State) (n : Nat) (p : Plane) (q : Nat) (m : Msg) (ch : Nat) : Option (Msg × State) :=
  let i := getNi s n
  match p with
  | .req =>
    ((getQ i q).reqIds.head?.bind (reqById i)).map fun r =>
      let cost := reqCost r
      let s1 := chargeSc (chargeQ (updNi s n fun i => takeHead i p q cost) n p q cost) n r.slice.toNat cost
      let s2 := match r.fill with | some (a, x) => updNi s1 n fun i => etcTouch i a x | none => s1
      let t := issueReq s2 n r m
      let st := stampMsg t.2 n { withTag m t.1 with vcf := vcfOfChan ch }
      (st.1, evNi st.2 n (32 + r.slice.toNat) m.data.length)
  | .rsp =>
    let cost := msgCost m
    some (stampMsg (chargeQ (updNi s n fun i => memberGone (takeHead i p q cost) m) n p q cost) n { m with vcf := vcfOfChan ch })

/-- A message of queue q starts (07 R153): its flits wait on the attachment. -/
def startMsg (s : State) (n : Nat) (p : Plane) (q : Nat) (m : Msg) (alt : Bool) (ch : Nat) : State :=
  match startHead s n p q m ch with
  | some t => addProg t.2 n alt p ch (flitsOf t.1)
  | none => s

/-- The head of queue q's half can share a flit with a message (04 R78): its half is active and its deficit covers it, and DST,
class and channel agree. -/
def packHead (s : State) (n : Nat) (p : Plane) (first : Msg) (q : Nat) : Option Msg :=
  let i := getNi s n
  match headOf i p q, startable s n p q with
  | some (c, _), some m =>
    if halfAct (getQ i q) p && halfActive s n p q && c ≤ halfDef (getQ i q) p && m.dst == first.dst && m.cls == first.cls &&
        packable m && nodeInst m.dst == instNo s then some m else none
  | _, _ => none

/-- The heads that share a flit start in injection-queue order, at most four of them (04 R77, R87); each is judged with what the ones
before it were charged. PTR names the last of them (DESIGN CHOICE, log 36: R153 starts one message an fc). -/
def packHeads (s : State) (n : Nat) (p : Plane) (first : Msg) (ch : Nat) : List Msg × State :=
  (listedQs (getNi s n)).foldl (fun t q =>
    if 4 ≤ t.1.length then t
    else match packHead t.2 n p first q with
      | some m => match startHead t.2 n p q m ch with
        | some r => (t.1 ++ [r.1], r.2)
        | none => t
      | none => t) ([], s)

/-- One start of a plane's scheduler (07 R153): the message, or, when it may be packed, up to four in one flit; event 11 counts
packed flits. -/
def startPack (s : State) (n : Nat) (p : Plane) (q : Nat) (m : Msg) (alt : Bool) (ch : Nat) : State :=
  if packable m && nodeInst m.dst == instNo s then
    let t := packHeads s n p m ch
    match t.1 with
    | [] => s
    | f :: rest => evNi (addProg t.2 n alt p ch [{ msg := f, poison := f.poison, packed := rest }]) n 11 (if rest.isEmpty then 0 else 1)
  else startMsg s n p q m alt ch

/-- A best-effort head that needs a fill which is not outstanding asks for one (09 R199, R211). -/
def askFills (s : State) (n : Nat) : State :=
  (listedQs (getNi s n)).foldl (fun t q =>
    match (getQ (getNi t n) q).reqIds.head?.bind (reqById (getNi t n)) with
    | some r => match r.fill with | some (a, x) => etcNeed t n a x | none => t
    | none => t) s

/-- A head held by 08 R174, R177, R179 or R182, or by a missing ETC entry, counts the fc in NI_ORD_HOLD (08 R174, R192, 09 R199):
R179 also holds a posted write whose slice has no tracker entry left. -/
def countHold (s : State) (n : Nat) : State :=
  let i := getNi s n
  if (listedQs i).any (fun q => match (getQ i q).reqIds.head?.bind (reqById i) with
      | some r => ordHeld i r || (startDst i r).isNone || (r.posted && !trkRoom s n r.slice.toNat)
      | none => false)
  then incSat s (aNi n 0x128) 1 else s

/-- MESSAGE_START: one fc of a plane's scheduler at NI n (07 R153): round end, wakes, and at most one start. An NI in reset goes on
sending the answers of 17 R377. -/
def execMessageStart (n : NiId) (pl : Plane) (s : State) : Host.Outcome State Fault Refusal :=
  answer s (
    let m := n.toNat
    if !isNi s m || (getNi s m).region != 0 then s
    else
      let f := fcBegin s m pl
      let s0 := if pl = .req then countHold (askFills f m) m else f
      let s1 := wakes (roundEnd s0 m pl) m pl
      match drrPick s1 m pl with
      | some (q, g, alt, ch) => sleeps (startPack s1 m pl q g alt ch) m pl
      | none => s1)

/-- An answer leaves the list, if it can (09 R205): into the RSP half of queue 0, or charged to its piste flow (06 R129), or best
effort when no flow exists, with RSP_NOFLOW. -/
def answerGo (s : State) (n : Nat) (a : Answer) : Option State :=
  if a.piste then
    match rspFlow s n a.msg.dst 0 with
    | some e => stageRsp s n e a.msg 0 16000
    | none => if rspPlaces (getNi s n) then none
        else some (pushRsp (setFlag s (aNi n 0x80) 1) n { a.msg with cls := if mgmtOp a.msg.opc.toNat then 3 else 0 } 0)
  else if rspPlaces (getNi s n) then none
  else some (pushRspOn s n a.msg 0 a.att)

/-- The oldest answer that can leave the list does: a piste answer that fits neither frame waits without holding the others
(06 R129, 09 R205). -/
def answerNext (s : State) (n : Nat) (before after : List Answer) : Option State :=
  match after with
  | [] => none
  | a :: rest =>
    match answerGo (updNi s n fun i => { i with answers := before ++ rest }) n a with
    | some t => some t
    | none => answerNext s n (before ++ [a]) rest

/-- ANSWER_LIST_DEQUEUE: the oldest answer that can leave the list does (09 R205), and a member that a reset answers takes the place. -/
def execAnswerListDequeue (n : NiId) (s : State) : Host.Outcome State Fault Refusal :=
  answer s (match answerNext s n.toNat [] (getNi s n.toNat).answers with
    | some t => memberDrain t n.toNat
    | none => s)

/-- A flit enters the router input of attachment `alt` of a placement entry (05 R89, R96); a flit on the link into a failed router is
lost (18 R394). -/
def toRouterOn (h : BitVec 32) (s : State) (alt : Bool) (p : Plane) (f : Flit) (ch : Nat) : State :=
  let f1 := { f with ch := ch, msg := { f.msg with vcf := vcfOfChan ch } }
  if (getRtr s (attRtr h alt)).failed then s
  else updPlane s p (attRtr h alt) fun r => { r with link := mupd r.link (attPort h alt) [] fun l => l ++ [f1] }

/-- A flit of NI n enters the router input of an attachment. -/
def toRouter (s : State) (n : Nat) (alt : Bool) (p : Plane) (f : Flit) (ch : Nat) : State := toRouterOn (homeOf s n) s alt p f ch

/-- One flit of the progress list's turn leaves, as long as credits and the piece last (07 R156). -/
def sendPiece (s : State) (n : Nat) (alt : Bool) (p : Plane) (g : Prog) (fuel : Nat) : Prog × State :=
  match fuel with
  | 0 => (g, s)
  | fuel + 1 =>
    match g.flits with
    | [] => (g, s)
    | f :: rest =>
      let c := niCredit (getNi s n) alt p g.ch
      if c = 0 then (g, s)
      else
        let s1 := toRouter s n alt p f g.ch
        let s2 := updNi s1 n fun i => { i with sched := { i.sched with credits := mset i.sched.credits (attKey alt p g.ch) (c - 1) } }
        sendPiece (evNi s2 n (match p with | .req => 9 | .rsp => 10) 1) n alt p { g with flits := rest } fuel

/-- The messages in progress, one of each channel, and those that wait behind one of their channel (04 R72, 07 R156). -/
def splitProg (l : List Prog) : List Prog × List Prog :=
  l.foldl (fun t g => if t.1.any fun h => h.ch == g.ch then (t.1, t.2 ++ [g]) else (t.1 ++ [g], t.2)) ([], [])

/-- The place of the first message in progress whose channel holds a credit: the others before it lose their turn (07 R156). -/
def pickProg (i : Ni) (alt : Bool) (p : Plane) (l : List Prog) : Option Nat :=
  l.findIdx? fun g => decide (1 ≤ niCredit i alt p g.ch)

/-- The messages in progress after the turn of the j-th, of which g is left: the turn passes on round robin (07 R156). A message that is
out makes room for the next of its channel. -/
def turnProg (heads rest : List Prog) (j : Nat) (g : Prog) : List Prog :=
  heads.drop (j + 1) ++ heads.take j ++ (if g.flits.isEmpty then [] else [g]) ++ rest

/-- ATTACHMENT_PIECE_SEND: the next message in progress on an attachment sends a piece of at most 4 flits (07 R156); the turn
passes on. Messages made outside the queues that waited for the attachment start first (05 R97). -/
def execAttachmentPieceSend (n : NiId) (alt : Bool) (pl : Plane) (s : State) : Host.Outcome State Fault Refusal :=
  answer s (
    let m := n.toNat
    let s0 := startOwns s m pl
    let l := splitProg (mgetD (getNi s0 m).sched.prog (attPl alt pl) [])
    if attUp (homeOf s0 m) alt = false then s0
    else
      match pickProg (getNi s0 m) alt pl l.1 with
      | none => s0
      | some j =>
        match l.1[j]? with
        | none => s0
        | some g =>
          let t := sendPiece s0 m alt pl g 4
          updNi t.2 m fun i => { i with sched := { i.sched with prog := mset i.sched.prog (attPl alt pl) (turnProg l.1 l.2 j t.1) } })

/-- WHEEL_BUCKET_BEGIN: queues whose bucket has begun leave the timing wheel; one whose T lies beyond the horizon is entered
again (07 R160). -/
def execWheelBucketBegin (n : NiId) (s : State) : Host.Outcome State Fault Refusal :=
  answer s (
    let now := nowNs s
    updNi s n.toNat fun i => { i with sched := { i.sched with
      queues := mmap i.sched.queues fun _ u => match u.wheel with
        | some b => if b * 2 ≤ now then
            { u with wheel := if now < u.tElig / 512 * 2 then some (min (u.tElig / 512) (now / 2 + 4095)) else none }
          else u
        | none => u } })

/-! Piste launch (06 R131). -/

/-- A piste message launches late (06 Table 06.9, R134). -/
def launchLate (s : State) (n : Nat) : State := evNi (incSat (setFlag s (aNi n 0x80) 2) (aNi n 0x88) 1) n 8 1

/-- The attachment a flow is launched on (06 R144): ATT, or the other one from the tick at which the instance enters the case of the
router it reaches. -/
def launchAtt (s : State) (n : Nat) (v : BitVec 256) : Bool :=
  if s.flt.caseR == some (attRtr (homeAt s 0 n) (seAlt v)) then !seAlt v else seAlt v

/-- A launch can leave on an attachment: it is up, or its router has failed and the case has not yet begun, so that what is launched
toward it is lost (06 R144; 18 R394, R396). -/
def launchOn (s : State) (n : Nat) (alt : Bool) : Bool :=
  let h := homeAt s 0 n
  attUp (homeOf s n) alt || s.flt.switchAt.any fun q => q.1 == attRtr h alt

/-- PISTE_LAUNCH: the first staged message of the plane whose slot has come, and whose beats have all arrived, is launched
on its flow's attachment, SCHN announcing its flits (06 R131, R144), and its request is issued (08 R173). In a later frame than it was
charged to it is late. -/
def execPisteLaunch (n : NiId) (pl : Plane) (s : State) : Host.Outcome State Fault Refusal :=
  answer s (
    let m := n.toNat
    let i := getNi s m
    if !isNi s m || i.region != 0 then s
    else
      match nextLaunch s (srcEnt s m) i.pst pl with
      | none => s
      | some g =>
        let h := homeAt s 0 m
        let alt := launchAtt s m (srcEnt s m g.ent)
        if launchOn s m alt = false then s
        else
          let fs := (flitsOf { g.msg with ep := curEp s })
          let s1 := fs.foldl (fun t f => toRouterOn h t alt pl f 0) s
          let s2 := updPlane s1 pl (attRtr h alt) fun r => { r with schn := mset r.schn (attPort h alt) true }
          let s3 := updNi s2 m fun i => updReq { i with pst := { i.pst with
            staged := (takeFirst i.pst.staged fun q => q == g).2 } } g.id fun r => { r with issued := true }
          let s4 := evNi (evNi s3 m 7 1) m (match pl with | .req => 9 | .rsp => 10) fs.length
          let s5 := evNi s4 m (32 + g.msg.slice.toNat) g.msg.data.length
          if g.frame = frameOf s then s5 else launchLate s5 m)

/-! Deadlines (07 R167, R168; 08 R179; 10 R225). -/

/-- The deadline of a tracker entry has come (07 R167). -/
def deadlineDue (s : State) (e : Trk) : Bool := match e.deadline with | some d => d ≤ nowNs s | none => false

/-- The egress response for a request of the entry, without data (03 R496). -/
def trkErs (e : Trk) (stat gcnt : Nat) : Egr := plainErs (rspOpOf e.opc.toNat) e.flow.isSome e.epTag.toNat stat gcnt (some e.slice)

/-- A request's answer goes to the engine slot that issued it, or to the endpoint. -/
def deliverEnd (s : State) (n : Nat) (e : Trk) (g : Egr) (stat : Nat) (data : List Line) : State :=
  match e.slot with
  | some k => engAnswer s k e.hostAddr.toNat data stat
  | none => pushErs s n g

/-- TRACKER_TIMEOUT: a non-posted request reaches its deadline (07 R167): answered with TIMEOUT, counted, its entry
quarantined (07 R168), a multicast's for GTO frames (10 R225). -/
def execTrackerTimeout (n : NiId) (tag : Tag) (s : State) : Host.Outcome State Fault Refusal :=
  answer s (
    let m := n.toNat
    match mget (getNi s m).trk tag.toNat with
    | none => s
    | some e =>
      if e.hold != .live || e.posted || e.fwd || !deadlineDue s e then s
      else
        let hold : TrkHold := if e.group.isSome then .mcQuarantine (nowNs s + gtoOf s * 1024) else .quarantine
        let s1 := updNi s m fun i => { dropReq i e.reqId with trk := mset i.trk tag.toNat { e with hold := hold } }
        let s2 := deliverEnd s1 m e (trkErs e 3 0) 3 []
        evNi (setFlag (incSat s2 (aNi m 0xD8) 1) (aNi m 0xC0) 0) m 14 1)

/-- TAG of a posted write's entry as R187 records it: 0 when the write was never issued. -/
def issuedTag (i : Ni) (e : Trk) (tag : Tag) : Nat := if i.reqs.any fun r => r.id == e.reqId && !r.issued then 0 else tag.toNat

/-- PW_DEADLINE: a posted write reaches its deadline (08 R179): ended under R187 with TIMEOUT, its entry quarantined. -/
def execPwDeadline (n : NiId) (tag : Tag) (s : State) : Host.Outcome State Fault Refusal :=
  answer s (
    let m := n.toNat
    match mget (getNi s m).trk tag.toNat with
    | none => s
    | some e =>
      if e.hold != .live || !e.posted || !deadlineDue s e then s
      else
        let s1 := updNi s m fun i => { i with
          trk := mset i.trk tag.toNat { e with hold := .quarantine }
          reqs := i.reqs.filter fun r => r.id != e.reqId || r.ackBound.isSome }
        let g := issuedTag (getNi s m) e tag
        match e.slot with
        | some k => pwError (engAnswer s1 k e.hostAddr.toNat [] 3) m (some e.slice.toNat) 0x103 3 e.opc.toNat g e.hostAddr.toNat
        | none => pwError s1 m (some e.slice.toNat) 0x103 3 e.opc.toNat g e.hostAddr.toNat)

/-- MC_QUARANTINE_END: a multicast's entry is free GTO frames after it ended (10 R225). -/
def execMcQuarantineEnd (n : NiId) (tag : Tag) (s : State) : Host.Outcome State Fault Refusal :=
  answer s (
    match mget (getNi s n.toNat).trk tag.toNat with
    | some e => match e.hold with
      | .mcQuarantine t => if t ≤ nowNs s then freeTrk s n.toNat tag else s
      | _ => s
    | none => s)

/-! Drain (08 R190). -/

/-- No posted write of the NI is unissued or unacknowledged (08 R190). -/
def drained (i : Ni) : Bool :=
  !(i.reqs.any fun r => r.posted && !r.issued) && !(i.trk.any fun p => p.2.posted && p.2.hold == .live)

/-- NI_DRAIN written from the drain's state (08 Table 08.6). -/
def drainReg (s : State) (n : Nat) : State :=
  let d := (getNi s n).drain
  wr s (aNi n 0x138) (BitVec.ofNat 64 ((d.startFrame % 2 ^ 48) <<< 16 ||| d.discard.toNat <<< 1 ||| d.active.toNat))

/-- A drain begins: from here the NI takes no header (08 R190). -/
def startDrain (s : State) (n : Nat) (discard : Bool) : State :=
  drainReg (updNi s n fun i => { i with drain := ⟨true, discard, frameOf s, nowNs s, false⟩ }) n

/-- Unissued posted writes of a slice (or, with `none`, of the NI) leave the buffer (08 R188): counted in NI_PW_DISC. -/
def discardWrites (s : State) (n : Nat) (k : Option Nat) : Nat × State :=
  let i := getNi s n
  let gone := i.reqs.filter fun r => r.posted && !r.issued && !r.piste && (match k with | some j => r.slice.toNat == j | none => true)
  let s1 := gone.foldl (fun t r => updNi t n fun i => dropReq i r.id) s
  let s2 := incSat s1 (aNi n 0x110) gone.length
  (gone.length, if gone.isEmpty then s2 else setFlag s2 (aNi n 0x100) 1)

/-- The deadline of a drain, 65,536 ns of time base after it started, has come (08 R190). -/
def drainOver (s : State) (d : Drain) : Bool := d.startNs + 65536 ≤ nowNs s

/-- DRAIN_COMPLETE: the drain of an NI ends before its deadline (08 R190). -/
def execDrainComplete (n : NiId) (s : State) : Host.Outcome State Fault Refusal :=
  answer s (
    let m := n.toNat
    let i := getNi s m
    if i.drain.active && drained i && !drainOver s i.drain then
      drainReg (updNi s m fun i => { i with drain := { i.drain with active := false } }) m
    else s)

/-- A drain reaches its deadline (08 R190, R191): with the discard flag the unissued writes are discarded as DRAIN_DISCARD and
issued ones still unacknowledged are counted; without it the NI takes headers again. One DRAIN_DISCARD is raised for the whole NI, its
SLICE 0xF (DESIGN CHOICE, log 36: R190 names R188, which notifies by slice, and does not say how many are raised). -/
def drainExpire (s : State) (m : Nat) : State :=
  let i := getNi s m
  let s0 := setFlag s (aNi m 0x100) 3
  if i.drain.discard then
    let t := discardWrites s0 m none
    let unacked := (i.trk.filter fun p => p.2.posted && p.2.hold == .live).length
    let s1 := if t.1 = 0 then t.2 else raiseNi t.2 m 0x102 1 t.1 15
    drainReg (updNi (incSat s1 (aNi m 0x110) unacked) m fun i => { i with drain := { i.drain with active := false } }) m
  else drainReg (updNi s0 m fun i => { i with drain := { i.drain with active := false, timedOut := true } }) m

/-- DRAIN_DEADLINE: 65,536 ns after the drain began (08 R190). -/
def execDrainDeadline (n : NiId) (s : State) : Host.Outcome State Fault Refusal :=
  answer s (
    let i := getNi s n.toNat
    if i.drain.active && drainOver s i.drain then drainExpire s n.toNat else s)

end Sys2Proof.Machine
end

