-- ==== Sys2Proof/Machine/NiRx.lean ====
section
/-! DEFINITION. What an NI does with the messages its attachments deliver: end-to-end checks, the target's decisions, and the
requester's completions (04 R66, R75; 06 R136; 09 R204 to R209; 10 R222 to R226; 11 R240; 17 R377). -/

namespace Sys2Proof.Machine

/-- The messages of a packed flit whose units hold no uncorrectable word (04 Table 04.8): unit j is words 2j and 2j + 1. -/
def soundPacked (f : Flit) : List Msg :=
  (((List.range f.packed.length).zip f.packed).filter fun p => fld f.chk (16 * p.1 + 15) (16 * p.1) == 0).map (·.2)

/-- A flit reaches an NI over an attachment (05 R93): a message's flits gather by channel; a whole message, or each message
of a packed flit in unit order (04 R77), waits for its checks. -/
def deliverFlit (s : State) (n : Nat) (alt : Bool) (p : Plane) (f : Flit) : State :=
  updNi s n fun i =>
    let key := attKey alt p f.ch
    let l := mgetD i.partials key [] ++ [f]
    if f.last then
      let hdr := (l.head?.getD f).msg
      let m := { hdr with data := if f.idx = 0 then [] else (l.filter fun g => g.idx != 0).map (·.line),
                          taint := l.any fun g => g.idx != 0 && g.poison }
      let ms := (m :: soundPacked f).map fun g => (g, alt)
      let i1 := { i with partials := mdel i.partials key }
      match p with
      | .req => { i1 with inReq := i1.inReq ++ ms }
      | .rsp => { i1 with inRsp := i1.inRsp ++ ms }
    else { i with partials := mset i.partials key l }

/-- Class, channel and opcode fit (04 R66). -/
def clsOk (m : Msg) : Bool :=
  vcfPermits m.cls.toNat m.vcf.toNat && opPermits m.opc.toNat m.cls.toNat && !isReservedOp m.opc.toNat

/-- The outcome of the checks a received message goes through at its destination. -/
inductive RxCheck where
  | drop (s : State)
  | pass (m : Msg) (s : State)

/-- The checks of 04 R66 and R75: a message that fails is discarded and counted; with a failed CRC one that carries data is
delivered with POISON. -/
def rxCheck (s : State) (n : Nat) (m : Msg) : RxCheck :=
  if clsOk m = false then .drop (niDiscard (setFlag s (aNi n 0x40) 0) n)
  else if m.taint = false ∧ msgCrc m = m.crc then .pass m s
  else if msgCrc m = m.crc then .pass { m with poison := true } s
  else
    let s1 := setFlag (incSat s (aNi n 0x58) 1) (aNi n 0x40) 1
    let s2 := raiseNi s1 n 0x040 2 (m.src.toNat ||| m.tag.toNat <<< 12) 15
    if m.data.isEmpty then .drop (niDiscard s2 n) else .pass { m with poison := true } s2

/-- The key of the twin pair a piste message belongs to, if its flow has a twin (06 R136). -/
def twinKey (s : State) (m : Msg) : Option Nat :=
  match mget s.eng.flows m.flow.toNat with
  | some f => f.twin.map fun t => min m.flow.toNat t.toNat
  | none => none

/-- A twin copy passes (06 R136): no record, a later INC, or the same INC with a later SEQ. -/
def twinPasses (rec? : Option (BitVec 4 × BitVec 16)) (m : Msg) : Bool :=
  match rec? with
  | none => true
  | some (inc, seq) =>
    let d := subMod 4 m.inc.toNat inc.toNat
    if d = 0 then
      let e := subMod 16 m.seq.toNat seq.toNat
      e != 0 && e < 2 ^ 15
    else d < 8

/-- The drop of twin copies (06 R136): the state with the record kept, and whether the copy passes. -/
def twinJudge (s : State) (n : Nat) (m : Msg) : Bool × State :=
  if m.cls != 1 then (true, s)
  else
    match twinKey s m with
    | none => (true, s)
    | some k =>
      if twinPasses (mget (getNi s n).pst.twins k) m then
        (true, updNi s n fun i => { i with pst := { i.pst with twins := mset i.pst.twins k (m.inc, m.seq) } })
      else (false, incSat s (aNi n 0x90) 1)

/-! The lift pass (09 R206 to R209). -/

/-- The master row of a source (09 R206). -/
def masterRow (s : State) (src : BitVec 12) (slice : Nat) : Option Nat :=
  let loc := nodeLoc src
  if 128 ≤ loc then none
  else if nodeInst src = instNo s then some (16 * loc + slice)
  else
    let e := rdBytes s (0x2800000 + 2 * (2048 * nodeInst src + 16 * (loc % 128) + slice)) 2
    if e / 2 ^ 15 = 1 then some (2048 + e % 2048) else none

/-- Address of a lift-pass row (09 Table 09.7). -/
def lptAddr (n row : Nat) : Nat := 0x2000000 + 0x10000 * n + 16 * row

/-- The check of 09 R208: none when it passes; the reason otherwise: 0 NO_ROW, 1 TAG, 2 PERM. -/
def liftCheck (s : State) (n : Nat) (m : Msg) (tag addrLow : Nat) : Option Nat :=
  match masterRow s m.src m.slice.toNat with
  | none => some 0
  | some row =>
    let tags := rd s (lptAddr n row)
    let perm := rdF s (lptAddr n row + 8) 4 0
    if tags.getLsbD tag = false then some 1
    else
      match permsOf m.opc.toNat addrLow with
      | none => some 2
      | some need => if perm &&& need = need then none else some 2

/-- A failed check is counted and logged (09 R209). -/
def denyLog (s : State) (n : Nat) (m : Msg) (reason : Nat) : State :=
  let s1 := match reason, masterRow s m.src m.slice.toNat with
    | 0, _ => s
    | _, some row => wrF s (lptAddr n row + 8) 39 32 (satAdd 0xFF (rdF s (lptAddr n row + 8) 39 32) 1)
    | _, none => s
  let s2 := incSat s1 (aNi n 0x1C68) 1
  let s3 := wr s2 (aNi n 0x1C70) (BitVec.ofNat 64 (m.src.toNat <<< 52 ||| m.slice.toNat <<< 48 ||| m.opc.toNat <<< 41 |||
    reason <<< 38 ||| frameOf s % 2 ^ 38))
  let s4 := wr s3 (aNi n 0x1C78) (m.addr.zeroExtend 64)
  evNi (setFlag s4 (aNi n 0x1C00) 3) n 13 1

/-- The TBT row that serves an extent here; a hidden row serves none (09 R204, 13 R293). -/
def tbtRow (i : Ni) (x : Nat) : Option TbtRow := match mget i.dec.tbt x with | some r => if r.hidden then none else some r | none => none

/-- DIR_TAG of the NI (09 R207). -/
def dirTag (s : State) (n : Nat) : Nat := rdF s (aNi n 0x1C60) 5 0

/-- What the target decides for a request other than BISNP (09 R204). -/
inductive TgtDec where
  | decodeErr (tbtMiss : Bool)
  | denied (reason : Nat)
  | present (addr : Nat) (row : Option (Nat × TbtRow))
  deriving DecidableEq, Repr

/-- The decisions of 09 R204, in order. -/
def targetDecide (s : State) (n : Nat) (m : Msg) : TgtDec :=
  let fa := m.addr.toNat
  let kind := fa / 2 ^ 50
  let low := fa % 64
  let x := fa / 2 ^ 27 % 2 ^ 19
  if kind = 1 ∨ kind = 3 ∨ (kind = 0 ∧ fa / 2 ^ 46 % 16 ≠ instNo s) then .decodeErr false
  else if kind = 0 then
    match tbtRow (getNi s n) x with
    | none => .decodeErr true
    | some r =>
      let tag := if m.opc == 0x18 || m.opc == 0x19 then dirTag s n else r.tag.toNat
      match liftCheck s n m tag low with
      | some why => .denied why
      | none => .present (r.dpa.toNat * 2 ^ 27 + fa % 2 ^ 27) (some (x, r))
  else
    match liftCheck s n m (dirTag s n) low with
    | some why => .denied why
    | none => .present (fa % 2 ^ 48) none

/-- A message presented on egress REQ (03 Table 03.3). -/
def presentReq (s : State) (n : Nat) (m : Msg) (addr : Nat) : State :=
  let nb := if isLineOp m.opc.toNat then 64 * m.len.toNat else m.nbytes.toNat
  pushErq s n { opc := m.opc.toNat, piste := m.cls == 1,
                hdr := egrReqHdr m.opc.toNat (m.cls == 1) m.src.toNat m.slice.toNat m.gen.toNat m.tag.toNat nb m.poison m.nt addr,
                data := m.data, charged := m.charged, src := m.src, msg := m,
                be := rangeEnables m.opc.toNat addr nb m.data.length }

/-- A write of message m is mirrored: its block is copied (13 R293). -/
def mirrors (m : Msg) (r : TbtRow) : Bool := r.mirror.isSome && isMemWr m.opc.toNat && decide (m.addr.toNat % 2 ^ 27 / 4096 < r.copied)

/-- A write to a block that a MOVE has copied goes to the new NI as well (13 R293), by device address; its acknowledgement
waits for the copy's. The copy is a best-effort message of its slice, charged to its share (11 R235). -/
def mirrorWrite (s : State) (n : Nat) (m : Msg) (r : TbtRow) : State :=
  match r.mirror with
  | none => s
  | some (b, dpa) =>
    if !mirrors m r then s
    else
      let k := m.slice.toNat
      let fa := 2 ^ 51 + dpa.toNat * 2 ^ 27 + m.addr.toNat % 2 ^ 27
      let t := allocTrk s n { slice := m.slice, gen := slcGen s n k, posted := true, opc := m.opc, dst := nodeOf s b.toNat,
                              deadline := some (beDeadline s n), mirror := some (m.src, m.tag) }
      let c : Msg := { m with dst := nodeOf s b.toNat, src := niNode s n, cls := 0, gen := slcGen s n k, tag := t.1.getD 0,
                              addr := BitVec.ofNat 52 fa, flow := 0, charged := none }
      let s1 := updNi t.2 n fun i => { i with mirrors := i.mirrors ++ [(m.src, m.tag, none)] }
      injectOwn (chargeSc s1 n k (msgCost c)) n .req c none

/-- The request waits: its block is being copied (13 R293), or it is a write to mirror whose slice has no tracker entry or rate share
left for the copy (11 R235, R236). -/
def moveHolds (s : State) (n : Nat) (m : Msg) : Bool :=
  m.addr.toNat / 2 ^ 50 == 0 && (match mget (getNi s n).dec.tbt (m.addr.toNat / 2 ^ 27 % 2 ^ 19) with
    | some r => (r.busy && r.mirror.isSome && m.addr.toNat % 2 ^ 27 / 4096 == r.copied) ||
        (mirrors m r && !(trkRoom s n m.slice.toNat && decide (0 ≤ scNow s n m.slice.toNat)))
    | none => false)

/-- The NI is out of service toward its endpoint (17 R377): in reset, or ep_up 0; a service NI only in reset. -/
def niDown (s : State) (n : Nat) : Bool := (getNi s n).inRst || (isEpNi s n && !(getNi s n).port.up)

/-- The pooled window that a BISNP's FA falls in, lowest first, and its host address (10 R222). -/
def revWin (i : Ni) (fa : Nat) : Option Nat :=
  (i.dec.windows.find? fun p => p.2.kind == 1 && p.2.fabase.toNat * 4096 ≤ fa &&
    fa < p.2.fabase.toNat * 4096 + (p.2.limit.toNat - p.2.base.toNat + 1) * 4096).map
    fun p => p.2.base.toNat * 4096 + (fa - p.2.fabase.toNat * 4096)

/-- How an NI answers a BISNP copy itself, or the host address it presents (10 R222, steps 2 to 5). -/
inductive SnpDec where
  | answer (stat : Nat) (deny : Option Nat) (miss : Bool)
  | present (addr : Nat)
  deriving DecidableEq, Repr

/-- Steps 2 to 5 of 10 R222 for a BISNP. -/
def snoopDecide (s : State) (n : Nat) (m : Msg) : SnpDec :=
  if niDown s n then .answer 4 none false
  else
    match liftCheck s n m (dirTag s n) 0 with
    | some why => .answer 2 (some why) false
    | none => match revWin (getNi s n) m.addr.toNat with
      | none => .answer 1 none true
      | some a => .present a

/-- The log and flags of an NI's own answer to a snoop. -/
def snoopLog (s : State) (n : Nat) (m : Msg) (deny : Option Nat) (miss : Bool) : State :=
  let s1 := match deny with | some why => denyLog s n m why | none => s
  if miss then setFlag s1 (aNi n 0x1C80) 0 else s1

/-- A unicast BISNP at its target (10 R222). -/
def unicastSnoop (s : State) (n : Nat) (m : Msg) : State :=
  match snoopDecide s n m with
  | .answer st deny miss => pushAnswer (snoopLog s n m deny miss) n m 0x40 st 0
  | .present a => presentReq s n m a

/-- The producer's index PI of ring q is written (13 R285); in the rc of the ring's RESET the value is discarded (Table 13.10). -/
def ringPiPut (s : State) (q : Nat) (v : BitVec 12) : State :=
  if s.gen.eng && (mgetD s.eng.rings q {}).resetNs != some (nowNs s) then wrF s (aEng (0x118 + 0x40 * q)) 11 0 v.toNat else s

/-- The consumer's index RCI of ring q is written (13 R285). -/
def ringRciPut (s : State) (q : Nat) (v : BitVec 12) : State :=
  if s.gen.eng then wrF s (aEng (0x128 + 0x40 * q)) 11 0 v.toNat else s

/-- A checked request at service NI n (13 R285): an IO_MWR of 4 bytes to the index of a ring of its rink writes that index; every other
access is answered TARGET_ERR (outside the device range of R285 PRESUMED: nothing answers behind a service NI; log 41). -/
def atService (s : State) (n : Nat) (m : Msg) (a : Nat) : State :=
  let q := (a - 0x80000) / 16
  let o := rspOpOf m.opc.toNat
  if m.opc = 0x71 ∧ m.nbytes = 4 ∧ 0x80000 ≤ a ∧ q < 16 ∧ 120 + q % nRinks s = n ∧ (a % 16 = 0 ∨ a % 16 = 4) then
    let v : BitVec 12 := (m.data.headD 0).extractLsb' (8 * (a % 64)) 12
    pushAnswer (if a % 16 = 0 then ringPiPut s q v else ringRciPut s q v) n m o 0 0
  else pushAnswer s n m o 4 0

/-- A request that passed its end-to-end checks, at its target (09 R204 to R209; 13 R285). -/
def atTarget (s : State) (n : Nat) (m : Msg) : State :=
  if isBisnp m.opc.toNat then unicastSnoop s n m
  else if niDown s n then pushAnswer s n m (rspOpOf m.opc.toNat) 4 0
  else
    match targetDecide s n m with
    | .decodeErr miss =>
      let s1 := incSat s (aNi n 0x1C58) 1
      pushAnswer (if miss then setFlag s1 (aNi n 0x1C00) 4 else s1) n m (rspOpOf m.opc.toNat) 1 0
    | .denied why => pushAnswer (denyLog s n m why) n m (rspOpOf m.opc.toNat) 2 0
    | .present a row =>
      if isSvcNi s n then atService s n m a
      else
      let s1 := presentReq s n m a
      match row with | some (_, r) => mirrorWrite s1 n m r | none => s1

/-- Requests that REQUEST_ARRIVE_AT_TARGET handles: not multicast, not management, not NOTIFY. -/
def targetMsg (m : Msg) : Bool := m.cls != 2 && m.opc != 0x78 && m.opc != 0x79 && m.opc != 0x7B

/-- REQUEST_ARRIVE_AT_TARGET: the oldest request-plane message received at NI n (09 R204). While the answer list is full
nothing is taken (09 R205). -/
def execRequestArriveAtTarget (n : NiId) (s : State) : Host.Outcome State Fault Refusal :=
  answer s (
    let k := n.toNat
    if answersFull s k then s
    else
      match takeFirst (getNi s k).inReq fun q => targetMsg q.1 && !moveHolds s k q.1 with
      | (none, _) => s
      | (some q, rest) =>
        match rxCheck (updNi s k fun i => { i with inReq := rest }) k q.1 with
        | .drop t => t
        | .pass m t =>
          if niDown t k then atTarget t k m
          else
            let j := twinJudge t k m
            if j.1 then atTarget j.2 k m else j.2)

/-! The requester (11 R240; 08 R173; 10 R224). -/

/-- A posted write is acknowledged (08 R173, R184): its entry is freed and it holds nothing back any more; a piste posted
write holds until its bound (08 R185). -/
def ackPosted (s : State) (n : Nat) (tag : Tag) (e : Trk) : State :=
  updNi (freeTrk s n tag) n fun i => { i with reqs := i.reqs.filter fun r => r.id != e.reqId || r.ackBound.isSome }

/-- B has acknowledged a mirrored write (13 R293): the original's acknowledgement leaves, now or when it comes. -/
def mirrorAck (s : State) (n : Nat) (k : BitVec 12 × Tag) : State :=
  match (getNi s n).mirrors.find? fun q => q.1 == k.1 && q.2.1 == k.2 with
  | some q =>
    let s1 := updNi s n fun i => { i with mirrors := (takeFirst i.mirrors fun r => r.1 == k.1 && r.2.1 == k.2).2 }
    match q.2.2 with | some m => pushRsp s1 n m 0 | none => s1
  | none => s

/-- A non-posted request completes with response m (07 R167; 03 R496): presented with its data when STAT is OK or POISON. -/
def completeReq (s : State) (n : Nat) (tag : Tag) (e : Trk) (m : Msg) : State :=
  let st := msgStat m
  let s1 := updNi (freeTrk s n tag) n fun i => dropReq i e.reqId
  let pull := e.opc == 0x18 && (m.opc == 0x50 || m.opc == 0x56 || m.opc == 0x59 || m.opc == 0x5A)
  let s2 := if pull then updNi s1 n fun i => { i with pulls := i.pulls ++ [(e.epTag, { e with dst := m.src }, tag)] } else s1
  let g : Egr := if statKeeps st then
      { opc := m.opc.toNat, piste := m.cls == 1,
        hdr := egrRspHdr m.opc.toNat (m.cls == 1) e.epTag.toNat m.nbytes.toNat st (msgGcnt m) m.poison,
        data := m.data, slice := some e.slice, charged := m.charged }
    else
      { opc := rspOpOf e.opc.toNat, piste := m.cls == 1, slice := some e.slice, charged := m.charged,
        hdr := egrRspHdr (rspOpOf e.opc.toNat) (m.cls == 1) e.epTag.toNat 0 st (msgGcnt m) m.poison }
  deliverEnd s2 n e g st m.data

/-- GLB_NTF_FWD's forward has ended (23 R482). -/
def forwardEnd (s : State) (stat : Nat) : State :=
  let s1 := { s with ntf := { s.ntf with fwdBusy := false } }
  if stat = 0 then s1 else wrF s1 0x130 15 0 (satAdd 0xFFFF (rdF s1 0x130 15 0) 1)

/-! Group entries (10 R213, R228). The register words hold the current epoch's; the other epoch's slot lies beside them at an
address outside the management map (log 11). -/

/-- Address of a group word in the slot that epoch ep selects. -/
def aMcg (s : State) (ep off : Nat) : Nat := if ep = rdF s (aRtr 0 0x18) 16 16 then off else 0x100000000 + off
/-- NIBITS of group g in an epoch's slot. -/
def groupHas (s : State) (ep g n : Nat) : Bool :=
  if n < 64 then bitOf (rd s (aMcg s ep (0xA000 + 16 * g))) n else bitOf (rd s (aMcg s ep (0xA008 + 16 * g))) (n - 64)
/-- GLB_MCG_CFG of group g in an epoch's slot: V, SPBITS, SIZE. -/
def groupCfg (s : State) (ep g : Nat) : Nat :=
  fld (rd s (aMcg s ep ((0xE000 + 4 * g) / 8 * 8))) (32 * (g % 2) + 31) (32 * (g % 2))
/-- The count a multicast of NI n to group g expects (10 R224), by the entry of the epoch its copies carry (10 R228, R229). -/
def expectCount (s : State) (ep g n : Nat) : Nat := groupCfg s ep g % 256 - (if groupHas s ep g n then 1 else 0)

/-- The root's gathered answer at the originator (10 R224, R225): a BISNP is answered with BIRSP whatever opcode the answer carries (03
R496). -/
def gatherResult (s : State) (n : Nat) (tag : Tag) (e : Trk) (g : Nat) (m : Msg) : State :=
  let st0 := msgStat m
  let st := if st0 = 0 ∧ msgGcnt m < expectCount s e.ep.toNat g n then 11 else st0
  let s1 := if st = 11 then setFlag s (aNi n 0x1C80) 2 else s
  let s2 := updNi s1 n fun i => dropReq i e.reqId
  let s3 := if st = 0 then freeTrk s2 n tag
    else updNi s2 n fun i => { i with trk := mset i.trk tag.toNat { e with hold := .mcQuarantine (nowNs s + gtoOf s * 1024) } }
  if e.notify then forwardEnd s3 st
  else
    let opc := if isBirsp m.opc.toNat then m.opc.toNat % 8 + 0x40 else 0x40
    deliverEnd s3 n e { opc := opc, hdr := egrRspHdr opc false e.epTag.toNat 0 st (msgGcnt m) m.poison, slice := some e.slice } st []

/-- A response-plane message at its requester (11 R240, 07 R168). -/
def atRequester (s : State) (n : Nat) (m : Msg) : State :=
  let k := m.slice.toNat
  if niDown s n then countStale s n k
  else if m.opc = 0x69 then
    pushErs s n { opc := 0x69, piste := m.cls == 1, hdr := egrRspHdr 0x69 (m.cls == 1) m.tag.toNat m.nbytes.toNat (msgStat m) 0 m.poison,
                  data := m.data, charged := m.charged, ownTag := false }
  else if m.gen ≠ slcGen s n k then countStale s n k
  else
    match mget (getNi s n).trk m.tag.toNat with
    | none => countStale s n k
    | some e =>
      if e.slice.toNat ≠ k then countStale s n k
      else
        match e.hold with
        | .quarantine => countStale (freeTrk s n m.tag) n k
        | .mcQuarantine _ => countStale s n k
        | .live =>
          if e.fwd then countStale s n k
          else if e.posted then
            let s1 := ackPosted s n m.tag e
            let s2 := match e.mirror with | some q => mirrorAck s1 n q | none => s1
            let s3 := match e.slot with | some j => engAnswer s2 j e.hostAddr.toNat [] (msgStat m) | none => s2
            if msgStat m = 0 then s3
            else pwError s3 n (some k) 0x100 (msgStat m) e.opc.toNat m.tag.toNat e.hostAddr.toNat
          else
            match e.group with
            | some g => gatherResult s n m.tag e g.toNat m
            | none => completeReq s n m.tag e m

/-- RESPONSE_ARRIVE_AT_REQUESTER: the oldest response-plane message received at NI n, answers to fills apart (04 R75, 06 R136,
11 R240). -/
def execResponseArriveAtRequester (n : NiId) (s : State) : Host.Outcome State Fault Refusal :=
  answer s (
    let k := n.toNat
    match takeFirst (getNi s k).inRsp fun q => q.1.opc != 0x7A with
    | (none, _) => s
    | (some q, rest) =>
      match rxCheck (updNi s k fun i => { i with inRsp := rest }) k q.1 with
      | .drop t => t
      | .pass m t =>
        let j := twinJudge t k m
        if j.1 then atRequester j.2 k m else j.2)

/-! Multicast at a member (10 R222, R223, R226). -/

/-- The lowest free member-table entry of 64. -/
def freeMember (i : Ni) : Option Nat := (List.range 64).find? fun j => (mget i.members j).isNone

/-- MC_COPY_AT_MEMBER: the oldest BISNP copy received at NI n (10 R222). With no free member entry, or a full answer list (09 R205), it waits. -/
def execMcCopyAtMember (n : NiId) (s : State) : Host.Outcome State Fault Refusal :=
  answer s (
    let k := n.toNat
    let i := getNi s k
    match (if answersFull s k then none else freeMember i), takeFirst i.inReq fun q => q.1.cls == 2 && isBisnp q.1.opc.toNat with
    | some j, (some q, rest) =>
      match rxCheck (updNi s k fun i => { i with inReq := rest }) k q.1 with
      | .drop t => t
      | .pass m t =>
        let e : Member := { orig := m.src, tag := m.tag, alt := q.2, opc := m.opc, slice := m.slice, gen := m.gen }
        match snoopDecide t k m with
        | .answer st deny miss => sendMemberAnswer (snoopLog t k m deny miss) k e 0x48 st
        | .present a => presentReq (updNi t k fun i => { i with members := mset i.members j e }) k m a
    | _, _ => s)

/-- The NI answers a member entry itself with TIMEOUT (10 R223), and knows a later BIRSP for it as late. -/
def memberExpire (s : State) (n j : Nat) (e : Member) : State :=
  setFlag (updNi (sendMemberAnswer s n e 0x48 3) n fun i => { i with
    members := mset i.members j { e with answered := true }, lateMembers := i.lateMembers ++ [(e.orig, e.tag)] }) (aNi n 0x1C80) 1

/-- MEMBER_TIMEOUT: a member entry's deadline has come (10 R223): the NI answers with TIMEOUT, STATE none, GCNT 1. -/
def execMemberTimeout (n : NiId) (e : BitVec 6) (s : State) : Host.Outcome State Fault Refusal :=
  answer s (
    let k := n.toNat
    match mget (getNi s k).members e.toNat with
    | some q => match q.deadline with
      | some d =>
        if frameGe (frameOf s) d && !q.answered && q.due.isNone && !answersFull s k then memberExpire s k e.toNat q else s
      | none => s
    | none => s)

/-- The record of a NOTIFY joins the port's queue: a fatal one before the CRC_FAIL record that the same message raised (03 R57). `s0` is
the state before the message was checked, t the one after. -/
def notifyRecord (s0 t : State) (n : Nat) (m : Msg) (r : Word) : State :=
  if fld r 59 58 = 3 then match rxCheck (portNote s0 n 3 r) n m with | .pass _ u => u | .drop u => u
  else portNote t n (fld r 59 58) r

/-- NOTIFY_RECEIVE: a NOTIFY delivered to NI n (10 R226, 23 R478): an endpoint NI queues the record under 03 R57, a service
NI passes it to its rink; ACK, STAT OK, GCNT 1 at once; a down NI answers TARGET_ERR (10 R222). A multicast copy waits while no member
entry is free, and any while the answer list is full (09 R205). -/
def execNotifyReceive (n : NiId) (s : State) : Host.Outcome State Fault Refusal :=
  answer s (
    let k := n.toNat
    match (if answersFull s k then (none, []) else
        takeFirst (getNi s k).inReq fun q => q.1.opc == 0x7B && (q.1.cls != 2 || (freeMember (getNi s k)).isSome)) with
    | (none, _) => s
    | (some q, rest) =>
      let s0 := updNi s k fun i => { i with inReq := rest }
      match rxCheck s0 k q.1 with
      | .drop t => t
      | .pass m t =>
        let r : Word := (m.data.headD 0).extractLsb' 0 64
        let down := niDown t k
        let t1 := if down then t else if isEpNi t k then notifyRecord s0 t k q.1 r
          else { t with eng := { t.eng with notes := t.eng.notes ++ [(k, r)] } }
        let e : Member := { orig := m.src, tag := m.tag, alt := q.2, opc := m.opc, slice := m.slice, gen := m.gen }
        if m.cls = 2 then sendMemberAnswer t1 k e 0x7E (if down then 4 else 0)
        else pushAnswer t1 k m 0x7E (if down then 4 else 0) 1)

/-! The ETC (09 R200 to R202, R211). -/

/-- A request ends by a fill's outcome (09 R200): off its queue unissued, answered or ended under 08 R187. -/
def endByFill (s : State) (n stat code : Nat) (r : Req) : State :=
  let s1 := updNi s n fun i => dropReq i r.id
  if r.posted then
    pwError (match r.slot with | some j => engAnswer s1 j r.hostAddr.toNat [] stat | none => s1) n (some r.slice.toNat) code stat
      r.msg.opc.toNat 0 r.hostAddr.toNat
  else
    match r.tag with
    | some t => match mget (getNi s n).trk t.toNat with
      | some e => deliverEnd (freeTrk s1 n t) n e (trkErs e stat 0) stat []
      | none => s1
    | none => s1

/-- The unissued requests that wait for an extent. -/
def waiters (i : Ni) (inst : BitVec 4) (x : BitVec 19) : List Req :=
  i.reqs.filter fun r => !r.issued && r.fill == some (inst, x)

/-- The answer to a fill (09 R200). -/
def fillAnswer (m : Msg) (i : Ni) : Option Fill :=
  i.dec.fills.find? fun f => m.tag == f.tag && nodeInst m.src == f.inst.toNat

/-- STATE of an EBT entry (14 Table 14.1). -/
def ebtState (v : BitVec 128) : Nat := fld v 119 116
/-- TNI of an EBT entry. -/
def ebtTni (v : BitVec 128) : Nat := fld v 86 79
/-- GEN of an EBT entry. -/
def ebtGen (v : BitVec 128) : Nat := fld v 100 93
/-- TAG of an EBT entry. -/
def ebtTag (v : BitVec 128) : Nat := fld v 92 87
/-- DPA_BASE of an EBT entry. -/
def ebtDpa (v : BitVec 128) : Nat := fld v 78 54

/-- Reach of the requests that a fill resolved (09 R201): those outside end as decode errors. -/
def reachResolved (s : State) (n : Nat) (inst : BitVec 4) (x : BitVec 19) (d : BitVec 12) : State :=
  ((waiters (getNi s n) inst x).filter fun r => !reachOk s n r.q d && r.slot.isNone).foldl
    (fun t r => setFlag (endByFill t n 1 0x100 r) (aNi n 0xC0) 2) s

/-- ETC_FILL_ANSWER: the oldest MG_RSP received at NI n (09 R200 to R202). An answer to no outstanding fill is discarded. -/
def execEtcFillAnswer (n : NiId) (s : State) : Host.Outcome State Fault Refusal :=
  answer s (
    let k := n.toNat
    match takeFirst (getNi s k).inRsp fun q => q.1.opc == 0x7A with
    | (none, _) => s
    | (some q, rest) =>
      match rxCheck (updNi s k fun i => { i with inRsp := rest }) k q.1 with
      | .drop t => t
      | .pass m t =>
        match fillAnswer m (getNi t k) with
        | none => niDiscard t k
        | some f =>
          if f.dead then niDiscard (updNi t k fun i => { i with dec := { i.dec with fills := (takeFirst i.dec.fills fun g => g == f).2 } }) k
          else
          let drop (u : State) := updNi u k fun i => { i with dec := { i.dec with fills := (takeFirst i.dec.fills fun g => g == f).2 } }
          if f.stale then
            sendFill (updNi t k fun i => { i with dec := { i.dec with
              fills := updFirst i.dec.fills (fun g => g == f) fun g => { g with stale := false } } }) k f.inst f.x f.tag
          else if msgStat m ≠ 0 then
            updNi t k fun i => { i with dec := { i.dec with
              fills := updFirst i.dec.fills (fun g => g == f) fun g => { g with resend := true } } }
          else
            let v : BitVec 128 := (m.data.headD 0).extractLsb' 0 128
            if ebtState v = 1 ∨ ebtState v = 2 then
              let e : EtcRow := { tni := BitVec.ofNat 8 (ebtTni v), gen := BitVec.ofNat 8 (ebtGen v) }
              let t1 := updNi (drop t) k fun i => { i with dec := etcPut i.dec f.inst f.x e }
              reachResolved t1 k f.inst f.x (etcNode f.inst e)
            else
              setFlag ((waiters (getNi t k) f.inst f.x).foldl (fun u r => endByFill u k 1 0x100 r) (drop t)) (aNi k 0x1C00) 2)

/-- ETC_FILL_TIMEOUT: no answer within BTO frames of a fill's first send (09 R200). -/
def execEtcFillTimeout (n : NiId) (inst : BitVec 4) (x : BitVec 19) (s : State) : Host.Outcome State Fault Refusal :=
  answer s (
    let k := n.toNat
    let i := getNi s k
    match i.dec.fills.find? fun f => f.inst == inst && f.x == x && !f.dead with
    | none => s
    | some f =>
      if nowNs s < f.sentNs + btoOf s k * 1024 then s
      else
        let s1 := updNi s k fun i => { i with dec := { i.dec with
          fills := updFirst i.dec.fills (fun g => g == f) fun g => { g with dead := true } } }
        setFlag ((waiters i inst x).foldl (fun u r => endByFill u k 3 0x103 r) s1) (aNi k 0x1C00) 5)

/-- ETC_FILL_RESEND: a fill whose answer was not OK is sent again at a gate tick (09 R200). -/
def execEtcFillResend (n : NiId) (inst : BitVec 4) (x : BitVec 19) (s : State) : Host.Outcome State Fault Refusal :=
  answer s (
    let k := n.toNat
    match (getNi s k).dec.fills.find? fun f => f.inst == inst && f.x == x && f.resend && !f.dead with
    | none => s
    | some f =>
      if !atTick s then s
      else sendFill (updNi s k fun i => { i with dec := { i.dec with
        fills := updFirst i.dec.fills (fun g => g == f) fun g => { g with resend := false } } }) k inst x f.tag)

/-- An invalidation at NI n (09 R202): the entry goes; a fill for the extent becomes stale. -/
def etcInval (i : Ni) (inst : BitVec 4) (x : BitVec 19) : Ni :=
  { i with dec := { i.dec with
      etc := mdel i.dec.etc (etcKey inst x)
      fills := i.dec.fills.map fun f => if f.inst = inst ∧ f.x = x then { f with stale := true } else f } }

/-- ETC_INVALIDATE: an invalidation reaches NI n (09 R202). -/
def execEtcInvalidate (n : NiId) (inst : BitVec 4) (x : BitVec 19) (s : State) : Host.Outcome State Fault Refusal :=
  answer s (if isNi s n.toNat then updNi s n.toNat fun i => etcInval i inst x else s)

/-- Every entry goes; outstanding fills become stale and are sent again (09 R211). -/
def etcFlush (s : State) (n : Nat) : State :=
  updNi s n fun i => { i with dec := { i.dec with etc := [], fills := i.dec.fills.map fun f => { f with stale := true } } }

/-- NI_ETC_FLUSH: the register's bit 0 written 1 (09 Table 09.5). -/
def execNiEtcFlush (n : NiId) (s : State) : Host.Outcome State Fault Refusal :=
  answer s (if isNi s n.toNat then etcFlush s n.toNat else s)

end Sys2Proof.Machine
end

