-- ==== Sys2Proof/Machine/FlitCheck.lean ====
section
/-! DEFINITION. A flit on its wires and what a receiver makes of it: the 88 bytes of Table 04.1, the check codes of 04 R67 to R69, the
control word of 05 Table 05.4, and the errors that a receiving end counts for wire sparing and link failure (18 R388 to R391). -/

namespace Sys2Proof.Machine

/-! The flit as it travels. -/

/-- The header and the 64 payload bytes of a flit (04 Table 04.1); `flow`: FLOW of the check unit. -/
def slotOfFlit (f : Flit) (flow : Nat) : BitVec 640 :=
  if f.idx = 0 then
    let pay : BitVec 512 := if f.packed.isEmpty then (checkUnit f.msg f.msg.crc.toNat f.msg.hops.toNat flow).zeroExtend 512
      else BitVec.ofNat 512 (((List.range f.packed.length).zip f.packed).foldl
        (fun a q => a ||| (msgHdr q.2 (q.1 + 1 < f.packed.length)).toNat <<< (128 * q.1)) 0)
    pay ++ msgHdr f.msg (!f.packed.isEmpty)
  else f.line ++ flitHdrWith f.msg 0x7F f.msg.vcf.toNat f.msg.ep.toNat f.idx f.poison f.last 0

/-- A message from its header and check unit (04 Tables 04.2, 04.4). -/
def msgOfHdr (h : BitVec 128) (u : Nat) : Msg :=
  { dst := h.extractLsb' 116 12, src := h.extractLsb' 104 12, opc := h.extractLsb' 97 7, cls := h.extractLsb' 95 2,
    vcf := h.extractLsb' 92 3, ep := h.extractLsb' 91 1, gen := h.extractLsb' 83 8, slice := h.extractLsb' 79 4,
    tag := h.extractLsb' 69 10, len := h.extractLsb' 62 7, poison := bitOf h 61, addr := h.extractLsb' 8 52,
    crc := BitVec.ofNat 32 (u >>> 96), seq := BitVec.ofNat 16 (u >>> 80), hops := BitVec.ofNat 2 (u >>> 78), span := u.testBit 77,
    nt := u.testBit 76, pv := u.testBit 75, pasid := BitVec.ofNat 20 (u >>> 55), nbytes := BitVec.ofNat 13 (u >>> 42),
    flow := BitVec.ofNat 12 (u >>> 30), inc := BitVec.ofNat 4 (u >>> 26) }

/-- Payload word j of the 640 bits of header and payload (04 R63). -/
def slotWord (v : BitVec 640) (j : Nat) : BitVec 64 := v.extractLsb' (128 + 64 * j) 64

/-- The payload check bytes of a flit (04 R68): those its words ask for, but where a word is carried uncorrectable (R69). -/
def flitChecks (f : Flit) (v : BitVec 640) : BitVec 64 :=
  BitVec.ofNat 64 ((List.range 8).foldl (fun a j => a ||| wordCheck (slotWord v j).toNat <<< (8 * j)) 0) ^^^ f.chk

/-- The 704 bits of a flit (04 Table 04.1): header, payload, payload check bytes. -/
def flitRaw (f : Flit) : BitVec 704 :=
  let v := slotOfFlit f f.msg.flow.toNat
  flitChecks f v ++ v

/-- The control word that travels with a flit (05 Table 05.4); `schn`: a schuss flit occupies the link in the next fc. -/
def ctlWordOf (f : Flit) (schn : Bool) : BitVec 12 :=
  let d := 64 ||| (f.ch % 16) <<< 2 ||| (f.idx == 0).toNat <<< 1 ||| schn.toNat
  BitVec.ofNat 12 (d <<< 5 ||| ctlCheck d)

/-! Received words (04 R69; 05 R91). -/

/-- What a syndrome says (04 R69): nothing, a single error at a data bit (its index) or a check bit (past the data bits), or an
uncorrectable error. -/
def eccFix (cols : List Nat) (syn : Nat) : EccErr × Nat :=
  if syn = 0 then (.none, 0)
  else
    match cols.findIdx? (· == syn) with
    | some i => (.single, i)
    | none => if popCount 8 syn = 1 then (.single, cols.length + Nat.log2 syn) else (.uncorrectable, 0)

/-- A received header (04 R67, R69): what was found, the header as corrected, and the flit bits corrected. -/
def hdrRx (h : BitVec 128) : EccErr × BitVec 128 × List Nat :=
  let q := eccFix (hsiaoCols.take 120) ((hdrCheck h).toNat ^^^ fld h 7 0)
  if q.1 = .single then
    let b := if q.2 < 120 then 8 + q.2 else q.2 - 120
    (.single, h ^^^ BitVec.ofNat 128 (1 <<< b), [b])
  else (q.1, h, [])

/-- A received payload word (04 R68, R69). -/
structure WordRx where
  word : BitVec 64
  chk : Nat := 0
  ue : Bool := false
  bits : List Nat := []

/-- Payload word j with its check byte: corrected, or as it came with what its check byte is off by. -/
def wordRx (w : BitVec 64) (c j : Nat) : WordRx :=
  let syn := wordCheck w.toNat ^^^ c
  let q := eccFix (hsiaoCols.take 64) syn
  match q.1 with
  | .none => { word := w }
  | .single => if q.2 < 64 then { word := w ^^^ BitVec.ofNat 64 (1 <<< q.2), bits := [128 + 64 * j + q.2] }
      else { word := w, bits := [640 + 8 * j + (q.2 - 64)] }
  | .uncorrectable => { word := w, chk := syn, ue := true }

/-- The received control word (05 R91): its channel index, and what was found. -/
def ctlRx (f : Flit) (schn : Bool) (flip : BitVec 12) : Nat × EccErr :=
  if flip = 0 then (f.ch, .none)
  else
    let w := ctlWordOf f schn ^^^ flip
    let q := ctlDecode (BitVec.ofNat 16 w.toNat)
    if 2 ^ 7 ≤ q.1 then (f.ch, .uncorrectable) else (q.1 / 4 % 16, q.2)

/-- A received flit: as forwarded, what its header's code found, the uncorrectable payload words, and the flit bits corrected. -/
structure FlitRx where
  flit : Flit
  hdr : EccErr := .none
  ues : List Nat := []
  bits : List Nat := []

/-- The flit that a received header and payload spell, where they differ from those sent (04 R69): the fields of a header and of its
check unit, the further messages of a packed flit, the line and the index of a continuation flit. -/
def flitRebuilt (f : Flit) (v0 v : BitVec 640) : Flit :=
  let h := v.extractLsb' 0 128
  let same := h == v0.extractLsb' 0 128
  if f.idx ≠ 0 then
    let g := { f with line := v.extractLsb' 128 512 }
    if same then g else { g with idx := max 1 (fld h 68 62), last := bitOf h 60, poison := bitOf h 61 }
  else if f.packed.isEmpty then
    if same && v.extractLsb' 128 128 == v0.extractLsb' 128 128 then f
    else
      { f with msg := { msgOfHdr h (v.extractLsb' 128 128).toNat with
          data := f.msg.data, charged := f.msg.charged, taint := f.msg.taint, root := f.msg.root } }
  else
    { f with
      msg := if same then f.msg else msgOfHdr h 0
      packed := ((List.range f.packed.length).zip f.packed).map fun p =>
        if v.extractLsb' (128 + 128 * p.1) 128 == v0.extractLsb' (128 + 128 * p.1) 128 then p.2
        else msgOfHdr (v.extractLsb' (128 + 128 * p.1) 128) 0 }

/-- A flit received with flipped bits (04 R69): single-bit errors are corrected; an uncorrectable payload word is kept with its check
byte, and the continuation header's POISON bit set; an uncorrectable continuation header is rebuilt with POISON. -/
def flitRx (f : Flit) (flip : BitVec 704) : FlitRx :=
  if flip = 0 ∧ f.chk = 0 then { flit := f }
  else
    let raw := flitRaw f ^^^ flip
    let v0 := slotOfFlit f f.msg.flow.toNat
    let h := hdrRx (raw.extractLsb' 0 128)
    let ws := (List.range 8).map fun j => wordRx (raw.extractLsb' (128 + 64 * j) 64) (raw.extractLsb' (640 + 8 * j) 8).toNat j
    let pay : BitVec 512 := BitVec.ofNat 512 (((List.range 8).zip ws).foldl (fun a q => a ||| q.2.word.toNat <<< (64 * q.1)) 0)
    let chk : BitVec 64 := BitVec.ofNat 64 (((List.range 8).zip ws).foldl (fun a q => a ||| q.2.chk <<< (8 * q.1)) 0)
    let ues := (List.range 8).filter fun j => (ws[j]?.map (·.ue)).getD false
    let hd : BitVec 128 := if h.1 = .uncorrectable then v0.extractLsb' 0 128 else h.2.1
    let g := flitRebuilt f v0 (pay ++ hd)
    { flit := { g with chk := chk, poison := g.poison || (f.idx != 0 && (!ues.isEmpty || h.1 == .uncorrectable)) },
      hdr := h.1, ues := ues, bits := h.2.2 ++ (ws.map (·.bits)).flatten }

/-- A flit received without error, its check bytes in order, is forwarded as it came. -/
theorem flitRx_clean (f : Flit) (h : f.chk = 0) : flitRx f 0 = { flit := f } := by simp [flitRx, h]

/-- The control word of a flit received without error names the flit's channel. -/
theorem ctlRx_clean (f : Flit) (b : Bool) : ctlRx f b 0 = (f.ch, .none) := by simp [ctlRx]

/-! What a receiving end counts (18 R388 to R391). -/

/-- WS_THR and WS_WIN of GLB_FLT_CFG (18 Table 18.8). -/
def wsThr (s : State) : Nat := max 1 (rdF s 0x520 31 24)
/-- WS_WIN, in frames. -/
def wsWin (s : State) : Nat := 1024 * max 1 (rdF s 0x520 15 0)
/-- Number of a plane: 0 REQ, 1 RSP. -/
def plNo (p : Plane) : Nat := match p with | .req => 0 | .rsp => 1
/-- Key of a link of a unit: plane and port code. -/
def linkKey (pl : Plane) (port : Nat) : Nat := 16 * plNo pl + port
/-- Key of a wire group. -/
def wireKey (pl : Plane) (port g : Nat) : Nat := 8 * linkKey pl port + g

/-- The wire of its group that a flit bit travels on (18 R388): 88 is the spare. -/
def wireOf (w : Wire) (bit : Nat) : Nat :=
  match w.steered with | some k => if k ≤ bit % 88 then bit % 88 + 1 else bit % 88 | none => bit % 88

/-- A correction at a wire position is counted (18 R389): at the threshold, with the spare free, the wire is due to be steered out. -/
def wireHit (w : Wire) (thr now dueAt pos : Nat) : Wire :=
  let cnt := if w.count ≠ 0 ∧ w.pos = pos then w.count + 1 else 1
  { w with pos := pos, count := cnt, since := now
           due := if cnt = thr ∧ w.steered.isNone ∧ w.due.isNone then some (dueAt, pos) else w.due }

/-- The group reaches the threshold at a wire that no spare is left for (18 R390). -/
def wireNoSpare (w : Wire) (thr pos : Nat) : Bool :=
  (if w.count ≠ 0 ∧ w.pos = pos then w.count + 1 else 1) == thr && (w.steered.isSome || w.due.any fun d => d.2 != pos)

/-- Uncorrectable headers and payload words of one link within the last 1,024 frames (18 R391). -/
def ueRecent (s : State) (l : LinkRx) (k : Nat) : Nat :=
  (l.ueTimes.filter fun v => subMod 48 (frameOf s) (v / 64) < 1024 && v % 64 == k).length

/-- Uncorrectable words counted: older ones are forgotten. -/
def ueCount (s : State) (l : LinkRx) (k count : Nat) : LinkRx :=
  { l with ueTimes := (l.ueTimes.filter fun v => subMod 48 (frameOf s) (v / 64) < 1024) ++ List.replicate count (frameOf s * 64 + k) }

end Sys2Proof.Machine
end

