-- ==== Sys2Proof/Machine/Link.lean ====
section
/-! DEFINITION. The mesh's topology and tables (05), what a span port does with messages it cannot send (12 R271 to R276),
suspension of flows (06 R145, R146), and the failure of links and routers (18 R391 to R397). -/

namespace Sys2Proof.Machine

/-! Topology (01 Table 01.1; 05 Tables 05.1, 05.2). Port codes: 0 N, 1 E, 2 S, 3 W, 4 XH, 5 XV, 6 to 9 L0 to L3, 10 SELF. -/

/-- Column of router x. -/
def rtrCol (s : State) (x : Nat) : Nat := x % nCols s
/-- Row of router x. -/
def rtrRow (s : State) (x : Nat) : Nat := x / nCols s
/-- Router number at a column and row (01, "Two planes on one mesh"). -/
def rtrAt (s : State) (c r : Nat) : Nat := nCols s * r + c

/-- The router a mesh or express port leads to, and the port it arrives on there. -/
def neighbour (s : State) (x port : Nat) : Option (Nat × Nat) :=
  let c := rtrCol s x
  let r := rtrRow s x
  match port with
  | 0 => if r + 1 < nRows s then some (rtrAt s c (r + 1), 2) else none
  | 1 => if c + 1 < nCols s then some (rtrAt s (c + 1) r, 3) else none
  | 2 => if 1 ≤ r then some (rtrAt s c (r - 1), 0) else none
  | 3 => if 1 ≤ c then some (rtrAt s (c - 1) r, 1) else none
  | 4 => if hasXh s then some (rtrAt s ((c + 4) % 8) r, 4) else none
  | 5 => if hasXv s then some (rtrAt s c ((r + 4) % 8), 5) else none
  | _ => none

/-- Router and port of span port p (05 Table 05.1). -/
def spanAtt (s : State) (p : Nat) : Nat × Nat :=
  if s.gen.profile = .q then (nth [4, 8] p, 3)
  else (nth [8, 16, 1, 2, 57, 58, 40, 48] p, nth [3, 3, 2, 2, 0, 0, 3, 3] p)

/-- The span port attached to a router's port. -/
def spanAt (s : State) (x port : Nat) : Option Nat :=
  (List.range 8).find? fun p => isSpan s p && spanAtt s p == (x, port)

/-- The NI whose attachment is a router's local port, and which attachment it is (05 R96). -/
def niAtPort (s : State) (x port : Nat) : Option (Nat × Bool) :=
  (niList s).findSome? fun n =>
    let h := homeAt s x n
    if attUp h false && attRtr h false == x && attPort h false == port then some (n, false)
    else if attUp h true && attRtr h true == x && attPort h true == port then some (n, true)
    else none

/-- The port of router x on a plane is up, RTE_PORT_UP (05 Table 05.10); SELF always is. -/
def portUp (s : State) (x : Nat) (p : Plane) (port : Nat) : Bool :=
  port == 10 || bitOf (rd s (aRtr x 0x28)) (16 * plNo p + port)
/-- RTE_PORT_UP with one port's bit of one plane written. -/
def setPortUp (s : State) (x : Nat) (p : Plane) (port : Nat) (v : Bool) : State :=
  wrF s (aRtr x 0x28) (16 * plNo p + port) (16 * plNo p + port) v.toNat
/-- CUR_EP as router x holds it (05 Table 05.12). -/
def rtrEp (s : State) (x : Nat) : Nat := rdF s (aRtr x 0x18) 16 16
/-- OLD_LIVE of router x. -/
def oldLive (s : State) (x : Nat) : Bool := bitOf (rd s (aRtr x 0x18)) 17
/-- RTE_TBL entry (05 Table 05.14). -/
def rteTbl (s : State) (x : Nat) (p : Plane) (e t : Nat) : Nat := rdBytes s (aRtr x (0x400 + 0x200 * plNo p + 0x100 * e + 2 * t)) 2
/-- RTE_INST entry. -/
def rteInst (s : State) (x e i : Nat) : Nat := rdBytes s (aRtr x (0x800 + 0x20 * e + 2 * i)) 2

/-- A router discards a message (05 R95, R99; 04 R79): counted, kept in RTE_LAST_DISC, and the flag set. -/
def rteDiscard (s : State) (x : Nat) (m : Msg) (flag : Option Nat) : State :=
  let s1 := incSat s (aRtr x 0x30) 1
  let s2 := wr s1 (aRtr x 0x48) ((msgHdr m false).extractLsb' 64 64)
  let s3 := match flag with | some f => setFlag s2 (aRtr x 0x10) f | none => s2
  evRtr s3 x 15 1

/-! Span ports: configuration and messages. -/

/-- SPN_CFG of port p (12 Table 12.12). -/
def spnCfg (s : State) (p : Nat) : Word := rd s (aSpn p 8)
/-- MINW. -/
def spnMinw (s : State) (p : Nat) : Nat := fld (spnCfg s p) 18 17
/-- PEER_INST. -/
def spnPeer (s : State) (p : Nat) : Nat := fld (spnCfg s p) 15 12
/-- Node ID of span port p. -/
def spnNode (s : State) (p : Nat) : BitVec 12 := nodeOf s (128 + p)
/-- Source entry e of span port p, 256 bits (12 R264). -/
def spnEnt (s : State) (p e : Nat) : BitVec 256 :=
  BitVec.ofNat 256 ((rd s (aSpn p (0x400 + 0x20 * e))).toNat ||| (rd s (aSpn p (0x408 + 0x20 * e))).toNat <<< 64 |||
    (rd s (aSpn p (0x410 + 0x20 * e))).toNat <<< 128 ||| (rd s (aSpn p (0x418 + 0x20 * e))).toNat <<< 192)
/-- The entry written. -/
def wrSpnEnt (s : State) (p e : Nat) (v : BitVec 256) : State :=
  wr (wr (wr (wr s (aSpn p (0x400 + 0x20 * e)) (v.extractLsb' 0 64)) (aSpn p (0x408 + 0x20 * e)) (v.extractLsb' 64 64))
    (aSpn p (0x410 + 0x20 * e)) (v.extractLsb' 128 64)) (aSpn p (0x418 + 0x20 * e)) (v.extractLsb' 192 64)
/-- Source entry of a flow's first segment here: an NI's or a span port's (06 R119). -/
def flowEnt (s : State) (f : Flow) : BitVec 256 :=
  if nodeLoc f.srcNode < 128 then srcEnt s (nodeLoc f.srcNode) f.srcIdx else spnEnt s (nodeLoc f.srcNode - 128) f.srcIdx
/-- The entry of a flow written. -/
def wrFlowEnt (s : State) (f : Flow) (v : BitVec 256) : State :=
  if nodeLoc f.srcNode < 128 then wrSrcEnt s (nodeLoc f.srcNode) f.srcIdx v else wrSpnEnt s (nodeLoc f.srcNode - 128) f.srcIdx v

/-- Pool a message crosses a span in (12 R258): G 0; L1 to L3 by HOPS after the increment; S 4; M 5. -/
def poolOf (m : Msg) : Nat :=
  match m.cls.toNat with
  | 1 => 0
  | 0 => min 3 (spanLevel m + 1)
  | 2 => 4
  | _ => 5

/-- The flits of a message; the payload of one that arrived poisoned stays poisoned (04 R69). -/
def taintFlits (m : Msg) : List Flit := (flitsOf m).map fun f => if m.taint && f.idx != 0 then { f with poison := true } else f

/-- A message as a span port holds it for sending. -/
def mkTx (m : Msg) : SpanTx :=
  { msg := m, rsp := decide (opPlane m.opc.toNat = .rsp), pool := poolOf m, flits := taintFlits m }

/-- Flits that have left the span port toward its router and are not yet in the router's buffer, and a channel's room. -/
def spanChanFree (s : State) (p : Nat) (pl : Plane) (ch : Nat) : Bool :=
  let a := spanAtt s p
  let r := planeOf (getRtr s a.1) pl
  !(mgetD r.link a.2 []).any (fun f => f.ch == ch) && (mgetD r.buf (16 * a.2 + ch) []).length < 4

/-- The channel a span port places a message on (05 R101, 12 R262). -/
def spanPick (s : State) (p : Nat) (pl : Plane) (m : Msg) : Nat :=
  match m.cls.toNat with
  | 0 => if spanChanFree s p pl 5 then 5 else if spanChanFree s p pl 6 then 6 else 1 + spanLevel m
  | 1 => 0
  | 2 => 7
  | _ => 8

/-- The receive pool that a message taken by a span port occupies (12 R258, R282): 5 x VC + POOL - 1; none in the G staging. -/
def rxPool (pl : Plane) (m : Msg) : Option Nat :=
  match m.cls.toNat with
  | 1 => none
  | 0 => some (5 * plNo pl + max 1 (spanLevel m) - 1)
  | 2 => some (5 * plNo pl + 3)
  | _ => some (5 * plNo pl + 4)

/-- Credits that flits leaving a receive pool owe the peer (12 R258). -/
def retCredits (s : State) (p : Nat) (pl : Plane) (m : Msg) (n : Nat) : State :=
  match rxPool pl m with
  | some k => updSpan s p fun q => { q with retCredit := mupd q.retCredit k 0 (· + n) }
  | none => s

/-- A span port passes a message into its router, with the current epoch of the instance (12 R262). -/
def spanInject (s : State) (p : Nat) (pl : Plane) (m : Msg) : State :=
  let a := spanAtt s p
  let ch := spanPick s p pl m
  let m1 := { m with ep := BitVec.ofNat 1 (rtrEp s a.1), vcf := vcfOfChan ch }
  if (getRtr s a.1).failed then s
  else updPlane s pl a.1 fun r => { r with link := mupd r.link a.2 [] fun l => l ++ (taintFlits m1).map fun f => { f with ch := ch } }

/-- A message that a span port creates (12 R261, Table 12.7): SRC is the port, SEQ from its own counter. -/
def spanOwn (s : State) (p : Nat) (pl : Plane) (m : Msg) : State :=
  let d := nodeInst m.dst
  let crosses := d != instNo s
  let sq := mgetD (getSpan s p).seqs d 0
  let m1 := sealMsg { m with src := spnNode s p, span := crosses, seq := if crosses then sq else 0 }
  let s1 := if crosses then updSpan s p fun q => { q with seqs := mset q.seqs d (sq + 1) } else s
  spanInject s1 p pl m1

/-- A message that the port flushes is answered or discarded (12 R275, Table 12.7). -/
def flushMsg (s : State) (p : Nat) (m : Msg) : State :=
  let s1 := evSpn (setFlag (incSat s (aSpn p 0x58) 1) (aSpn p 0x18) 3) p 18 1
  let o := m.opc.toNat
  if opPlane o = .rsp then s1
  else if m.cls = 2 then
    spanOwn s1 p .rsp { dst := m.src, opc := if o = 0x7B then 0x7E else 0x48, cls := 2, gen := m.gen, slice := m.slice,
                        tag := m.tag, addr := rspAddr 10 0 }
  else if o = 0x7B then s1
  else
    let ro := rspOpOf o
    spanOwn s1 p .rsp { dst := m.src, opc := BitVec.ofNat 7 ro, cls := if mgmtOp ro then 3 else 0, gen := m.gen,
                        slice := m.slice, tag := m.tag, addr := rspAddr 10 0 }

/-- Messages with a flit in the replay buffer, oldest first, each once. -/
def replayMsgs (q : Span) : List Msg := ((q.replay.map (·.msgs)).flatten).foldl (fun a m => if a.contains m then a else a ++ [m]) []

/-- Messages waiting to be sent that have no flit in the replay buffer, the migrated ones before. -/
def unsentMsgs (q : Span) : List Msg :=
  (q.mig.map (·.msg) ++ q.waiting.map (·.msg)).filter fun m => !(replayMsgs q).contains m

/-- Every message that the port holds for sending (12 R272). -/
def heldMsgs (q : Span) : List Msg := replayMsgs q ++ unsentMsgs q

/-- The parallel link of port p (12 R272): the lowest other span port of the same peer instance, up at MINW or wider. -/
def parallelOf (s : State) (p : Nat) : Option Nat :=
  (List.range 8).find? fun q => isSpan s q && q != p && spnPeer s q == spnPeer s p && bitOf (spnCfg s q) 0 &&
    (getSpan s q).up && (getSpan s q).width.toNat ≤ spnMinw s q

/-- A piste flow is suspended (06 R145, R146): SUSP in its source entry, the flag and the notification at its source. -/
def suspendFlow (s : State) (id : Nat) : State :=
  match mget s.eng.flows id with
  | none => s
  | some f =>
    if f.susp then s
    else
      let v := flowEnt s f
      let s1 := wrFlowEnt s f (setFld v 0 0 1)
      let s2 := { s1 with eng := { s1.eng with flows := mset s1.eng.flows id { f with susp := true } } }
      let loc := nodeLoc f.srcNode
      if loc < 128 then raiseNi (setFlag s2 (aNi loc 0x80) 3) loc 0x060 1 id 15 else raiseG s2 loc 0x060 1 id

/-- Flows in falling order of the unit at their source, so that the record of the lowest unit is the last of its group (23 R479). -/
def lowLast (s : State) (l : List Nat) : List Nat :=
  (List.range 256).reverse.flatMap fun u => l.filter fun id => nodeLoc ((mgetD s.eng.flows id {}).srcNode) == u

/-- The link of span port p is up at MINW or wider (12 R272, R276). -/
def spanWide (s : State) (p : Nat) : Bool :=
  (getSpan s p).lstate == 2 && (getSpan s p).up && decide ((getSpan s p).width.toNat ≤ spnMinw s p)

/-- The span ports of this instance that a flow's chain crosses: the one it starts at and the one its path ends at. -/
def flowSpans (s : State) (f : Flow) : List Nat :=
  (List.range 8).filter fun p => nodeLoc f.srcNode == 128 + p || (isSpan s p && f.path.getLast? == some (spanAtt s p))

/-- Nothing here suspends the flow any more: every link of its chain at this instance is up at MINW or wider, and no router case
without a standby path for it is in force (06 R145, R146; the chain's farther links, log 38). -/
def mayResume (s : State) (f : Flow) : Bool :=
  ((flowSpans s f).all fun p => spanWide s p) &&
    (match s.flt.caseR with | some x => !(f.nosby && f.path.any fun l => l.1 == x) | none => true)

/-- A suspended flow resumes. -/
def resumeFlow (s : State) (id : Nat) : State :=
  match mget s.eng.flows id with
  | none => s
  | some f =>
    if !f.susp || !mayResume s f then s
    else
      let s1 := wrFlowEnt s f (setFld (flowEnt s f) 0 0 0)
      { s1 with eng := { s1.eng with flows := mset s1.eng.flows id { f with susp := false } } }

/-- The flows of this instance whose chain crosses span port p. -/
def flowsOnSpan (s : State) (p : Nat) : List Nat := (s.eng.flows.filter fun f => (flowSpans s f.2).contains p).map (·.1)

/-- Every chain or twin that crosses the link is suspended (06 R146). -/
def suspendSpan (s : State) (p : Nat) : State := (lowLast s (flowsOnSpan s p)).foldl suspendFlow s

/-- A piste message held at the declaration (12 R272): a twin's copy is discarded, any other is answered at once. -/
def disposePiste (p : Nat) (s : State) (m : Msg) : State :=
  if ((mget s.eng.flows m.flow.toNat).bind (·.twin)).isSome then s else flushMsg s p m

/-- A control word of a link flit (12 Table 12.5): CTYPE and the bytes from byte 1 on. -/
def ctlWord (ctype rest : Nat) : BitVec 640 := BitVec.ofNat 640 (ctype ||| rest <<< 8)

/-- A message of class multicast and gather takes SPAN 1, SEQ from the port's own counter for the peer instance, and a new CRC
(12 R261). -/
def spanSeq (s : State) (p : Nat) (m : Msg) : Msg × State :=
  let d := spnPeer s p
  let sq := mgetD (getSpan s p).seqs d 0
  (sealMsg { m with span := true, seq := sq }, updSpan s p fun q => { q with seqs := mset q.seqs d (sq + 1) })

/-- The piste messages that a port holds are disposed of (12 R272). -/
def dropPiste (s : State) (p : Nat) : State :=
  let s1 := ((heldMsgs (getSpan s p)).filter fun m => m.cls == 1).foldl (disposePiste p) s
  updSpan s1 p fun x => { x with
    waiting := x.waiting.filter fun t => t.msg.cls != 1
    replay := x.replay.map fun h => { h with msgs := h.msgs.filter fun m => m.cls != 1 } }

/-- What a port holds is handed to the parallel link q (12 R272): those with a flit in the replay buffer as they were sequenced, then
the waiting ones, of which the multicast and gathered take their SEQ from the failed port, so that a migrated SEQ is always one of
the port that OPORT names (DEDUCED, log 39). -/
def handOver (s : State) (p q : Nat) : State :=
  let x := getSpan s p
  let old := replayMsgs x ++ (x.mig.map (·.msg)).filter fun m => !(replayMsgs x).contains m
  let new := (x.waiting.map (·.msg)).filter fun m => !(replayMsgs x).contains m
  let r := new.foldl (fun (a : List Msg × State) m =>
    if m.cls = 2 then let t := spanSeq a.2 p m; (a.1 ++ [t.1], t.2) else (a.1 ++ [m], a.2)) (old, s)
  let s1 := updSpan r.2 p fun x => { x with replay := [], waiting := [], mig := [], lstate := 5 }
  if r.1.isEmpty then s1
  else updSpan s1 q fun x => { x with
    mig := x.mig ++ r.1.map fun m => { mkTx m with mig := some (BitVec.ofNat 3 p) }
    migDone := false }

/-- A parallel link is up: every port in its grace period that it is the parallel of fails over (12 R274), but not in the cycle in
which that period ends (Table 12.10). -/
def graceFailover (s : State) : State :=
  (List.range 8).foldl (fun t p =>
    if isSpan t p && (getSpan t p).lstate == 4 && decide (nowNs s < (getSpan t p).graceEnd) then
      match parallelOf t p with
      | some r => handOver (dropPiste t p) p r
      | none => t
    else t) s

/-- A port declares its link down (12 R271 to R274) with a cause code of SPN_STATE.CAUSE. -/
def spanDown (s : State) (p cause : Nat) : State :=
  let s1 := updSpan s p fun x => { x with
    up := false, upAt := none, resumeAt := none, rtReq := false, resumeSent := false, propSent := false
    cause := BitVec.ofNat 3 cause, rob := [], naks := [], nakSent := [], pools := []
    ctlDue := if x.phyUp then [ctlWord 6 cause] else [] }
  let s2 := evSpn (incSat (setFlag s1 (aSpn p 0x18) 2) (aSpn p 0x48) 1) p 9 1
  let s3 := raiseGFree s2 (128 + p) 0x121 2
  let s4 := dropPiste (suspendSpan s3 p) p
  match parallelOf s4 p with
  | some r => handOver s4 p r
  | none => updSpan s4 p fun x => { x with lstate := 4, graceEnd := nowNs s + 12000 }

/-- A flit from the router reaches a span port (05 R93, 12 R261): a whole message waits to cross, its frame parity taken, or
is answered at once when the port flushes (12 R274), as a piste message is from the declaration on, or is handed on where the port has
failed over (R272). A management access addressed to the port itself stays (05 R99). -/
def spanTake (s : State) (p : Nat) (pl : Plane) (f : Flit) : State :=
  let lst := (getSpan s p).lstate
  let key := 16 * plNo pl + f.ch
  let l := mgetD (getSpan s p).partials key [] ++ [f]
  if f.last then
    let hdr := (l.head?.getD f).msg
    let m := { hdr with data := if f.idx = 0 then [] else (l.filter fun g => g.idx != 0).map (·.line)
                        taint := l.any fun g => g.idx != 0 && g.poison }
    let s1 := updSpan s p fun q => { q with partials := mdel q.partials key }
    let own (g : Msg) : Bool := g.dst == spnNode s p && (g.opc == 0x78 || g.opc == 0x79)
    let s2 := updSpan s1 p fun q => { q with self := q.self ++ (m :: f.packed).filter own }
    let l := (m :: f.packed).filter fun g => !own g
    let down := lst == 4 || lst == 5
    if (getSpan s p).flushing || (lst == 5 && (parallelOf s p).isNone) then l.foldl (fun t g => flushMsg t p g) s2
    else
      let s3 := updSpan ((l.filter fun g => down && g.cls == 1).foldl (disposePiste p) s2) p fun q => { q with
        waiting := q.waiting ++ (l.filter fun g => !(down && g.cls == 1)).map fun g => { mkTx g with rsp := decide (pl = .rsp), fp := frameOf s % 2 == 1 } }
      match parallelOf s p with
      | some r => if lst = 5 then handOver s3 p r else s3
      | none => s3
  else updSpan s p fun q => { q with partials := mset q.partials key l }

/-! Failures of links and routers (18 R391 to R397). -/

/-- A live or standby block of a flow lies on a router's port: the flow's paths leave or enter there (18 R392). -/
def flowOnPort (s : State) (x port : Nat) : Bool :=
  s.eng.flows.any fun f => f.2.path.contains (x, port) || f.2.standby.any (fun b => b.2.contains (x, port)) ||
    (nodeLoc f.2.srcNode < 128 &&
      (let h := homeOf s (nodeLoc f.2.srcNode)
       (attRtr h false == x && attPort h false == port) || (attRtr h true == x && attPort h true == port)))

/-- Poisoned continuation flits complete a message of which no more can arrive (18 R394). -/
def fillFlits (m : Msg) (c i : Nat) : List Flit :=
  ((List.range (m.len.toNat + 1)).filter fun j => i ≤ j).map fun j => { msg := m, idx := j, last := j == m.len.toNat, poison := true, ch := c }

/-- One input port of a plane loses its upstream router: what is on the link is lost, partial messages are completed. -/
def cutInput (r : RtrPlane) (port : Nat) : RtrPlane :=
  let cut := r.chHdr.filter fun c => c.1 / 16 == port
  { r with
    link := mdel r.link port
    schn := mdel r.schn port
    buf := cut.foldl (fun b c => mupd b c.1 [] fun l => l ++ fillFlits c.2.1 (c.1 % 16) c.2.2) r.buf
    chHdr := mdrop r.chHdr fun k => k / 16 == port
    dropping := r.dropping.filter fun k => k / 16 != port }

/-- A neighbour of a failed router (18 R394): RTE_PORT_UP clears on both planes and the input is cut. -/
def cutNeighbour (s : State) (x port : Nat) : State :=
  match neighbour s x port with
  | some (y, inp) =>
    let s1 := setPortUp (setPortUp s y .req inp false) y .rsp inp false
    let s2 := updRtr s1 y fun r => { r with req := cutInput r.req inp, rsp := cutInput r.rsp inp }
    updRtr s2 y fun r =>
      let clr (p : RtrPlane) : RtrPlane := { p with credits := mdrop p.credits fun k => k / 16 == inp
                                                    owed := mdrop p.owed fun k => k / 16 == inp
                                                    owner := mdrop p.owner fun k => k / 16 == inp }
      { r with req := clr r.req, rsp := clr r.rsp }
  | none => s

/-- An NI's attachment goes down at once at the NI (18 R392, R394): messages in progress on it end, its credits come back
with the link. -/
def dropAtt (s : State) (n : Nat) (alt : Bool) : State :=
  updNi s n fun i => { i with
    attDown := i.attDown ||| (if alt then 1 else 2)
    partials := mdrop i.partials fun k => k / 32 == alt.toNat
    sched := { i.sched with
      prog := mdrop i.sched.prog fun k => k / 2 == alt.toNat
      credits := mdrop i.sched.credits fun k => k / 32 == alt.toNat } }

/-- Router x is declared failed (18 R394, R396, R397) with a cause of R393. -/
def declareRouter (s : State) (x cause : Nat) : State :=
  if !isRtr s x || (getRtr s x).failed then s
  else
    let second := s.flt.caseR.isSome || s.flt.switchAt.isSome
    let s1 := updRtr s x fun r => { r with failed := true, req := {}, rsp := {}, gather := [], self := [] }
    let s2 := (List.range 6).foldl (fun t port => cutNeighbour t x port) s1
    let s3 := (List.range 4).foldl (fun t k => match niAtPort t x (6 + k) with
      | some (n, alt) => dropAtt t n alt | none => t) s2
    let s4 := (List.range 8).foldl (fun t p =>
      if isSpan s p && (spanAtt s p).1 == x && ((getSpan t p).lstate == 1 || (getSpan t p).lstate == 2 || (getSpan t p).lstate == 3) then spanDown t p 5 else t) s3
    let s5 := raiseG (setFlag s4 0x500 0) 246 0x183 2 (x ||| cause <<< 8)
    let s6 := { s5 with flt := { s5.flt with declared := s5.flt.declared ++ [(x, nowNs s)] } }
    if second then raiseG (setFlag s6 0x500 3) 246 0x18B 3 0x183
    else wrF { s6 with flt := { s6.flt with switchAt := some (x, frameIn s 2) } } 0x508 11 8 cause

/-- The router behind a failed link is declared failed (18 R392): LINK_FAIL, of the lower unit, stays the group's last record, unless
FAULT_OVERLAP outranks it (23 R479). -/
def declareBehind (s : State) (x : Nat) : State :=
  let t := declareRouter s x 3
  if (mgetD t.ntf.last 0x18 (0, 0)).2.extractLsb' 62 2 = 3 then t else keepLast s t 0x18

/-- A link fails at router x's port (18 R391, R392): LINK_FAIL, then the attachment goes down or the receiving router is
declared failed. `rx`: the receiving router of a mesh, express or span link. -/
def linkFail (s : State) (x : Nat) (pl : Plane) (port cause rx : Nat) : State :=
  let s1 := raiseG (setFlag s (aRtr x 0xC8) 0) (136 + x) 0x182 2 ((16 * plNo pl + port) <<< 8 ||| cause)
  if 6 ≤ port ∧ port ≤ 9 then
    match niAtPort s x port with
    | some (n, alt) =>
      let s2 := dropAtt s1 n alt
      let s3 := (List.range (nRtrs s)).foldl (fun t y => wrF t (aRtr y (0x200 + 4 * n) / 8 * 8)
        (32 * (n % 2) + (if alt then 30 else 31)) (32 * (n % 2) + (if alt then 30 else 31)) 0) s2
      if flowOnPort s x port then declareBehind s3 x else s3
    | none => s1
  else declareBehind s1 rx

end Sys2Proof.Machine
end

