-- ==== Sys2Proof/Machine/Mesh.lean ====
section
/-! DEFINITION. Routers (05; 04 R66, R69, R79; 06 R118, R132; 18 R389 to R391): flits arriving, arbitration and forwarding,
credits, schuss paths and the escape wait; and the receiving ends of their attachments. -/

namespace Sys2Proof.Machine

/-! Routing (05 R95 to R104). -/

/-- Where a router sends a message: discard it (with a flag of RTE_STAT or none), hold it, or its outputs. -/
inductive Route where
  | discard (flag : Option Nat)
  | wait
  | go (esc : Nat) (adapt : List Nat)
  deriving DecidableEq, Repr

/-- The table target or local output of a message at router x (05 R95, R97, R98). -/
inductive Target where
  | table (t : Nat)
  | eject (port : Nat)
  | bad
  | wait
  deriving DecidableEq, Repr

/-- The choice bit of R97 and R98: SRC[0] XOR TAG[0]. -/
def choiceBit (m : Msg) : Bool := m.src.getLsbD 0 != m.tag.getLsbD 0

/-- Span port p takes messages: it is up, or flushes what arrives (05 R98, 12 R274). -/
def spanTakes (s : State) (p : Nat) : Bool := isSpan s p && ((getSpan s p).up || (getSpan s p).flushing)

/-- The span port for another instance (05 R98). -/
def instTarget (s : State) (x e i : Nat) (m : Msg) : Target :=
  let v := rteInst s x e i
  if v / 2 ^ 15 = 0 then .bad
  else
    let pri := v / 2 ^ 12 % 8
    let alt := v / 2 ^ 8 % 8
    let altOk := v / 2 ^ 11 % 2 == 1 && (getSpan s alt).up
    let p := if altOk && (choiceBit m || !(getSpan s pri).up) then alt else pri
    if spanTakes s p then .table (64 + p) else .wait

/-- The attachment a message to NI n leaves at (05 R97, 16 R359). -/
def niTarget (s : State) (x n : Nat) (m : Msg) : Target :=
  let h := homeAt s x n
  if !attUp h false && !attUp h true then .bad
  else
    let a := if attUp h (choiceBit m) then choiceBit m else !choiceBit m
    if attRtr h a = x then .eject (attPort h a) else .table (attRtr h a)

/-- The target of a message at router x, by the tables of epoch e (05 R95, 14 R304). -/
def targetOf (s : State) (x e : Nat) (m : Msg) : Target :=
  let loc := nodeLoc m.dst
  if nodeInst m.dst ≠ instNo s then instTarget s x e (nodeInst m.dst) m
  else if isNi s loc then niTarget s x loc m
  else if 120 ≤ loc ∧ loc < 128 ∧ 0 < nRinks s then niTarget s x (120 + (loc - 120) % nRinks s) m
  else if 128 ≤ loc ∧ loc < 136 then (if isSpan s (loc - 128) then .table (loc - 64) else .bad)
  else if 136 ≤ loc ∧ loc < 200 then (if isRtr s (loc - 136) then .table (loc - 136) else .bad)
  else .bad

/-- The route of a message at router x (05 R95 to R104, R111; 06 R132; 18 R394). -/
def routeOf (s : State) (x : Nat) (pl : Plane) (m : Msg) : Route :=
  let e := if m.cls = 1 then rtrEp s x else m.ep.toNat
  if m.cls ≠ 1 ∧ m.ep.toNat ≠ rtrEp s x ∧ oldLive s x = false then .discard (some 5)
  else
    match targetOf s x e m with
    | .bad => .discard (some 4)
    | .wait => .wait
    | .eject p => if portUp s x pl p then .go p [p] else .discard none
    | .table t =>
      if 64 ≤ t ∧ m.span ∧ m.hops = 3 then .discard (some 6)
      else
        let v := rteTbl s x pl e t
        let esc := v / 2 ^ 12
        if esc = 15 then .discard (some 4)
        else
          let outs := (onesOf 10 (v % 1024)).filter (portUp s x pl)
          if portUp s x pl esc = false ∧ (m.cls ≠ 0 ∨ outs.isEmpty) then .discard none else .go esc outs

/-- Credits an output holds on a channel (05 R90); SELF always has one. -/
def outCredit (r : RtrPlane) (out ch : Nat) : Nat := if out = 10 then 1 else mgetD r.credits (16 * out + ch) 4
/-- The channel of an output belongs to no message and holds a credit. -/
def outFree (r : RtrPlane) (out ch : Nat) : Bool := (mget r.owner (16 * out + ch)).isNone && 1 ≤ outCredit r out ch

/-- The adaptive output of a header (05 R101): most credits over its free adaptive channels, then the lower port code. -/
def pickAdapt (r : RtrPlane) (outs : List Nat) : Option Nat :=
  let score (o : Nat) := ([5, 6].map fun c => if outFree r o c then outCredit r o c else 0).sum
  outs.foldl (fun b o => if score o = 0 then b else match b with
    | none => some o
    | some c => if score c < score o then some o else some c) none

/-- Output and channel a waiting header competes for (05 R101 to R104): its adaptive choice, or its escape channel once
ESC_WAIT has passed, or with ADAPT_EN 0. -/
def headerOuts (s : State) (x : Nat) (r : RtrPlane) (m : Msg) (ch waited esc : Nat) (adapt : List Nat) : List (Nat × Nat) :=
  if ch = 5 ∨ ch = 6 then
    let lvl := 1 + spanLevel m
    if bitOf (rd s (aRtr x 8)) 8 then
      (match pickAdapt r adapt with | some o => [(o, if outFree r o 5 then 5 else 6)] | none => []) ++
        (if 0 < waited && outFree r esc lvl then [(esc, lvl)] else [])
    else if outFree r esc lvl then [(esc, lvl)] else []
  else if outFree r esc ch then [(esc, ch)] else []

/-! Buffers. -/

/-- The buffer of an input port and channel. -/
def bufOf (r : RtrPlane) (key : Nat) : List Flit := mgetD r.buf key []

/-- A slot downstream of router x's output is freed: the credit is owed until the back channel returns it (05 R91, R93). An output
never holds, with what it is owed, more than its 4. -/
def owe (s : State) (x : Nat) (pl : Plane) (out ch : Nat) : State :=
  if (getRtr s x).failed then s
  else updPlane s pl x fun r => { r with
    owed := mset r.owed (16 * out + ch) (min (4 - outCredit r out ch) (mgetD r.owed (16 * out + ch) 0 + 1)) }

/-- A buffer slot of an input is freed (05 R93): an NI's credit comes back, the router upstream is owed one. A span port's receive
pool gets its flit's credit when the flit leaves it (12 R258). -/
def creditUp (s : State) (x : Nat) (pl : Plane) (port ch : Nat) : State :=
  if 6 ≤ port ∧ port ≤ 9 then
    match niAtPort s x port with
    | some (n, alt) => updNi s n fun i => { i with sched := { i.sched with
        credits := mset i.sched.credits (attKey alt pl ch) (min 4 (niCredit i alt pl ch + 1)) } }
    | none => s
  else
    match neighbour s x port with
    | some (y, out) => owe s y pl out ch
    | none => s

/-- The head flit of a buffer leaves it. -/
def popBuf (s : State) (x : Nat) (pl : Plane) (key : Nat) : State :=
  creditUp (updPlane s pl x fun r => { r with buf := mset r.buf key (bufOf r key).tail }) x pl (key / 16) (key % 16)

/-! Receiving ends (04 R69; 18 R388 to R391). A link is named by router x, plane and port; its far end is the NI or span port attached
there. -/

/-- What the receiving end of a link keeps. -/
def rxOf (s : State) (x port : Nat) (far : Bool) : LinkRx :=
  if far then
    match niAtPort s x port with
    | some (n, _) => (getNi s n).rx
    | none => match spanAt s x port with | some p => (getSpan s p).rx | none => {}
  else (getRtr s x).rx

/-- The state with it changed by f. -/
def updRx (s : State) (x port : Nat) (far : Bool) (f : LinkRx → LinkRx) : State :=
  if far then
    match niAtPort s x port with
    | some (n, _) => updNi s n fun i => { i with rx := f i.rx }
    | none => match spanAt s x port with | some p => updSpan s p fun q => { q with rx := f q.rx } | none => s
  else updRtr s x fun r => { r with rx := f r.rx }

/-- The number of a link at its receiving end: the router's port, the NI's attachment, or 0 at a span port. -/
def rxPort (s : State) (x port : Nat) (far : Bool) : Nat :=
  if far then (match niAtPort s x port with | some (_, alt) => alt.toNat | none => 0) else port

/-- INFO of WIRE_SPARED and WIRE_NOSPARE (18 Table 18.4): port code with the plane above it, wire and group. -/
def wireInfo (pl : Plane) (port g wire : Nat) : Nat := linkKey pl port <<< 8 ||| wire ||| g <<< 40

/-- A corrected bit of a flit is counted at its wire (18 R389, R390). -/
def wireError (s : State) (x : Nat) (pl : Plane) (port : Nat) (far : Bool) (bit : Nat) : State :=
  let g := bit / 88
  let k := wireKey pl (rxPort s x port far) g
  let w := mgetD (rxOf s x port far).wires k {}
  let pos := wireOf w bit
  let s1 := updRx s x port far fun l => { l with
    wires := mset l.wires k (wireHit w (wsThr s) (frameOf s) (frameIn s 2) pos)
    wsCnt := mupd l.wsCnt (linkKey pl (rxPort s x port far)) 0 fun c => satAdd 0xFFFFFFFF c 1 }
  if wireNoSpare w (wsThr s) pos then
    raiseG (setFlag (setFlag s1 (aRtr x 0xC8) 2) 0x500 1) (136 + x) 0x181 2 (wireInfo pl port g pos)
  else s1

/-- Every corrected bit of a flit is counted. -/
def wireErrors (s : State) (x : Nat) (pl : Plane) (port : Nat) (far : Bool) (bits : List Nat) : State :=
  bits.foldl (fun t b => wireError t x pl port far b) s

/-- An uncorrectable header or payload word counts toward the link's failure (18 R391). -/
def ueError (s : State) (x : Nat) (pl : Plane) (port : Nat) (far : Bool) (count : Nat) : State :=
  if count = 0 then s
  else
    let k := linkKey pl (rxPort s x port far)
    let l := rxOf s x port far
    let s1 := updRx (if far then s else evRtr s x 19 count) x port far fun l => ueCount s l k count
    if 4 ≤ ueRecent s l k + count ∧ ueRecent s l k < 4 then linkFail s1 x pl port 2 x else s1

/-- The channel of a receiving end on which the arriving message is discarded. -/
def rxDropping (s : State) (x : Nat) (pl : Plane) (port : Nat) (far : Bool) (ch : Nat) : Bool :=
  (rxOf s x port far).dropping.contains (16 * linkKey pl (rxPort s x port far) + ch)

/-- It is discarded from here on, or up to here. -/
def setDropping (s : State) (x : Nat) (pl : Plane) (port : Nat) (far : Bool) (ch : Nat) (v : Bool) : State :=
  let k := 16 * linkKey pl (rxPort s x port far) + ch
  updRx s x port far fun l => { l with dropping := if v then k :: l.dropping else l.dropping.filter fun j => j != k }

/-- A flit whose message is discarded as it arrives is gone; the last one ends the discard. -/
def dropFlit (s : State) (x : Nat) (pl : Plane) (port : Nat) (far : Bool) (f : Flit) : State :=
  if f.last then setDropping s x pl port far f.ch false else s

/-- A message is discarded from its header on. -/
def dropFrom (s : State) (x : Nat) (pl : Plane) (port : Nat) (far : Bool) (f : Flit) : State :=
  if f.last then s else setDropping s x pl port far f.ch true

/-- The header of the message is uncorrectable, or its LEN reserved (04 R71). -/
def badHeader (r : FlitRx) : Bool := r.flit.idx == 0 && (r.hdr == .uncorrectable || decide (64 < r.flit.msg.len.toNat))

/-- A flit reaches an NI: checked, counted, and delivered unless its message is discarded (04 R69, Table 04.9). -/
def niFlitIn (s : State) (x n : Nat) (alt : Bool) (pl : Plane) (port : Nat) (r : FlitRx) : State :=
  let s1 := incSat (wireErrors s x pl port true r.bits) (aNi n 0x48) r.bits.length
  let s2 := if r.ues.isEmpty then s1 else setFlag s1 (aNi n 0x40) 2
  let gone := r.flit.packed.length - (soundPacked r.flit).length
  let s3 := (List.range gone).foldl (fun t _ => niDiscard t n) s2
  let s4 := if badHeader r then niDiscard (dropFrom (setFlag s3 (aNi n 0x40) 3) x pl port true r.flit) n
    else if r.flit.idx ≠ 0 ∧ rxDropping s3 x pl port true r.flit.ch then dropFlit s3 x pl port true r.flit
    else deliverFlit s3 n alt pl r.flit
  ueError s4 x pl port true (r.ues.length + (badHeader r).toNat)

/-- A flit reaches a span port, which checks and corrects it before it crosses (12 R256): an uncorrectable word in the payload of a
message header flit counts as an uncorrectable header. -/
def spanFlitIn (s : State) (x p : Nat) (pl : Plane) (port : Nat) (r : FlitRx) : State :=
  let s1 := wireErrors s x pl port true r.bits
  let bad := badHeader r || (r.flit.idx == 0 && !r.ues.isEmpty)
  let s2 := if bad then dropFrom s1 x pl port true r.flit
    else if r.flit.idx ≠ 0 ∧ rxDropping s1 x pl port true r.flit.ch then dropFlit s1 x pl port true r.flit
    else spanTake s1 p pl { r.flit with chk := 0 }
  ueError s2 x pl port true (r.ues.length + (badHeader r).toNat)

/-- A flit crosses the switch to an output (05 R93): onto the link, to the NI, to the span port, or to the router's own
management logic. An NI or span port takes it from its crossing at once, and the output is owed its credit. `err`: how it arrives
there. -/
def sendOut (s : State) (x : Nat) (pl : Plane) (out : Nat) (f : Flit) (err : FlitErr) : State :=
  match neighbour s x out with
  | some (y, inp) =>
    if (getRtr s y).failed then s
    else evRtr (updPlane s pl y fun r => { r with link := mupd r.link inp [] fun l => l ++ [f] }) x 24
      (if out = 4 ∨ out = 5 then 1 else 0)
  | none =>
    if out = 10 then
      let mg (m : Msg) : Bool := m.opc == 0x78 || m.opc == 0x79
      updRtr s x fun r =>
        if f.idx = 0 then { r with self := r.self ++ ({ f.msg with data := [] } :: f.packed).filter mg }
        else if mg f.msg then
          { r with self := (updFirst r.self.reverse (fun m => m.src == f.msg.src && m.tag == f.msg.tag) fun m =>
              { m with data := m.data ++ [f.line] }).reverse }
        else r
    else
      let s1 := owe s x pl out f.ch
      match spanAt s x out with
      | some p =>
        if (ctlRx f false err.ctl).2 = .uncorrectable then linkFail s1 x pl out 1 x
        else spanFlitIn (evRtr s1 x 27 1) x p pl out (flitRx f err.flip)
      | none =>
        match niAtPort s x out with
        | some (n, alt) =>
          if (ctlRx f false err.ctl).2 = .uncorrectable then linkFail s1 x pl out 1 x
          else niFlitIn (evRtr s1 x 25 1) x n alt pl out (flitRx f err.flip)
        | none => s

/-- An NI takes request-plane flits from the attachment at an output only while its answer list has room (09 R205). -/
def outTakes (s : State) (x : Nat) (pl : Plane) (out : Nat) : Bool :=
  pl == .rsp || !(6 ≤ out && out ≤ 9) || (match niAtPort s x out with | some (n, _) => !answersFull s n | none => true)

/-! Arrival (05 R93; 04 R66, R69, R71; 06 R132; 18 R389 to R391). -/

/-- A case of the piste flows in force (06 R117, 18 R396): the router of the case. -/
def caseNow (s : State) : Option Nat := s.flt.caseR

/-- A calendar entry is live (06 R117, R118). -/
def presetLive (s : State) (e : Preset) : Bool :=
  match e.case, caseNow s with
  | none, none => true
  | none, some y => !((mget s.eng.flows e.flow.toNat).map fun f => f.path.any fun l => l.1 == y).getD false
  | some y, some z => y == z
  | some _, none => false

/-- A live preset covers an fc of the frame (06 R115, R118). -/
def presetCovers (s : State) (pl : Plane) (fc : Nat) (e : Preset) : Bool :=
  e.plane == pl && presetLive s e && e.group * slotsNow s + e.lag ≤ fc && fc < e.group * slotsNow s + e.lag + slotsNow s

/-- The live preset of an output that covers an fc of the frame (06 R115, R118). -/
def presetAt (s : State) (x : Nat) (pl : Plane) (out fc : Nat) : Option Preset :=
  (getRtr s x).presets.find? fun e => e.out == out && presetCovers s pl fc e

/-- A live preset takes the flit of an input in an fc of the frame. -/
def presetInto (s : State) (x : Nat) (pl : Plane) (inp fc : Nat) : Bool :=
  (getRtr s x).presets.any fun e => e.inp == inp && presetCovers s pl fc e

/-- The fc of the frame that now lies in. -/
def fcNow (s : State) : Nat := s.time.t.toNat % 2 ^ 42 * 6 / (2 ^ 32 * fcSixths s.pwr.lvl.toNat)

/-- The first flit under way on a link whose channel has room and that no earlier flit of its channel precedes; `schuss`: a piste flit
is left to the preset that covers this fc (05 R94). -/
def arriving (r : RtrPlane) (port : Nat) (schuss : Bool) (seen : List Nat) (l : List Flit) : Option (Flit × List Flit) :=
  match l with
  | [] => none
  | f :: rest =>
    if !seen.contains f.ch && !(schuss && f.ch == 0) &&
        ((bufOf r (16 * port + f.ch)).length < 4 || r.dropping.contains (16 * port + f.ch)) then some (f, rest)
    else (arriving r port schuss (f.ch :: seen) rest).map fun q => (q.1, f :: q.2)

/-- The received flit is checked and its errors counted (04 R69; 18 R389): RTE_CE and the counters, and PAY_UE. -/
def rtrCheck (s : State) (x : Nat) (pl : Plane) (port : Nat) (r : FlitRx) (ctl : EccErr) : State :=
  let hs := if r.hdr = .single then 1 else 0
  let cs := if ctl = .single then 1 else 0
  let s1 := evRtr (evRtr (evRtr (incSat s (aRtr x 0x38) (r.bits.length + cs)) x 16 hs) x 17 (r.bits.length - hs)) x 18 cs
  let s2 := wireErrors s1 x pl port false r.bits
  if r.ues.isEmpty then s2 else setFlag s2 (aRtr x 0x10) 1

/-- A header that fails its checks: uncorrectable, LEN reserved, or class, channel and opcode do not fit (04 R66, R69, R71). -/
def headerFails (r : FlitRx) : Bool := r.flit.idx == 0 && (badHeader r || !clsOk r.flit.msg)

/-- The message of a failing header is discarded: counted, flagged, and with it the flits that follow. -/
def headerDiscard (s : State) (x : Nat) (pl : Plane) (port : Nat) (r : FlitRx) : State :=
  let f := r.flit
  let s1 := if badHeader r then rteDiscard (setFlag s (aRtr x 0x10) 2) x f.msg none else rteDiscard s x f.msg (some 0)
  updPlane s1 pl x fun p => if f.last then p else { p with dropping := (16 * port + f.ch) :: p.dropping }

/-- A flit of a message that is discarded as it arrives. -/
def contDrops (s : State) (x : Nat) (pl : Plane) (port : Nat) (f : Flit) : Bool :=
  f.idx != 0 && (planeOf (getRtr s x) pl).dropping.contains (16 * port + f.ch)

/-- It is gone; the last one ends the discard. -/
def contDrop (s : State) (x : Nat) (pl : Plane) (port : Nat) (f : Flit) : State :=
  updPlane s pl x fun r => if f.last then { r with dropping := r.dropping.filter fun k => k != 16 * port + f.ch } else r

/-- A piste flit that no preset covered is counted (06 R132). -/
def presetMiss (s : State) (x ch : Nat) : State := if ch = 0 then evRtr (incSat s (aRtr x 0x70) 1) x 9 1 else s

/-- A header flit is written into its buffer. A multicast copy that enters the instance here has its root here (10 R217); the flits
behind a buffered piste header follow it (06 R132). -/
def headerIn (s : State) (x : Nat) (pl : Plane) (port : Nat) (f : Flit) : State :=
  let key := 16 * port + f.ch
  presetMiss (updPlane s pl x fun r => { r with
    buf := mupd r.buf key [] fun l => l ++ [if f.ch = 7 ∧ (neighbour s x port).isNone then { f with msg := { f.msg with root := x } } else f]
    chHdr := if f.last then mdel r.chHdr key else mset r.chHdr key (f.msg, 1)
    gOut := if f.ch = 0 then mset r.gOut port 15 else r.gOut }) x f.ch

/-- A continuation flit is written into its buffer; a piste flit whose header passed on a preset keeps the header's output (06 R132). -/
def contIn (s : State) (x : Nat) (pl : Plane) (port : Nat) (f : Flit) : State :=
  let key := 16 * port + f.ch
  presetMiss (updPlane s pl x fun r =>
    let o := if f.ch = 0 then mgetD r.gOut port 15 else 15
    { r with
      buf := mupd r.buf key [] fun l => l ++ [if o = 15 then f else { f with gout := some o }]
      chHdr := if f.last then mdel r.chHdr key else mupd r.chHdr key (f.msg, 0) fun h => (h.1, f.idx + 1) }) x f.ch

/-- A checked flit enters stage 1 (05 R93), or is discarded. -/
def flitIn (s : State) (x : Nat) (pl : Plane) (port : Nat) (r : FlitRx) : State :=
  if headerFails r then creditUp (headerDiscard s x pl port r) x pl port r.flit.ch
  else if contDrops s x pl port r.flit then creditUp (contDrop s x pl port r.flit) x pl port r.flit.ch
  else if r.flit.idx = 0 then headerIn s x pl port r.flit
  else contIn s x pl port r.flit

/-- The flits that an input takes from NIs and span ports are counted, and a span port's receive pool has its credit back (12 R258). -/
def countIn (s : State) (x : Nat) (pl : Plane) (port : Nat) (m : Msg) : State :=
  let s1 := evRtr s x 26 (if 6 ≤ port ∧ port ≤ 9 then 1 else 0)
  match spanAt s x port with
  | some q => retCredits (evRtr s1 x 28 1) q pl m 1
  | none => s1

/-- ROUTER_FLIT_ARRIVE: the next flit on the link into a port is checked (04 R69, 05 R91) and enters stage 1 (05 R93). -/
def execRouterFlitArrive (pl : Plane) (x : RtrId) (port : BitVec 4) (err : FlitErr) (s : State) :
    Host.Outcome State Fault Refusal :=
  answer s (
    let k := x.toNat
    let p := port.toNat
    let r := planeOf (getRtr s k) pl
    if !isRtr s k || (getRtr s k).failed then s
    else
      match arriving r p (mgetD r.schn p false && presetInto s k pl p (fcNow s)) [] (mgetD r.link p []) with
      | none => s
      | some (f, rest) =>
        let s1 := updPlane s pl k fun r => { r with link := mset r.link p rest, schn := if rest.isEmpty then mdel r.schn p else r.schn }
        let s2 := countIn s1 k pl p f.msg
        let c := ctlRx f (mgetD r.schn p false) err.ctl
        if c.2 = .uncorrectable then linkFail (setFlag s2 (aRtr k 0x10) 3) k pl p 1 k
        else
          let g := flitRx { f with ch := c.1 } err.flip
          let s3 := flitIn (rtrCheck s2 k pl p g c.2) k pl p g
          ueError s3 k pl p false (g.ues.length + (badHeader g).toNat))

/-! Forwarding (05 R93, R94, R108, R109). -/

/-- The header at the head of a buffer is routed like one: a header, or a piste flit of which no header passed (06 R132). -/
def routedHead (f : Flit) (g : Grant) (key : Nat) : Bool := g.out == 15 && (f.idx == 0 || (key % 16 == 0 && f.gout.isNone))

/-- The flit of a multicast copy that its branch sends next (10 R218). -/
def branchFlit (r : RtrPlane) (port out : Nat) : Option Flit := (bufOf r (16 * port + 7))[mgetD r.copyIdx (16 * port + out) 0]?

/-- A branch of a multicast copy may send its next flit on S: it owns the channel from its header on (10 R218, 05 R90). -/
def branchReady (r : RtrPlane) (port out : Nat) : Bool :=
  (mgetD r.copies port (0, 0)).1.testBit out && (branchFlit r port out).isSome && 1 ≤ outCredit r out 7 &&
    (match mget r.owner (16 * out + 7) with | some k => k == 16 * port + 7 | none => mgetD r.copyIdx (16 * port + out) 0 == 0)

/-- A gathered answer that waits for an output (10 R220): the entry's number. -/
def gatherDue (s : State) (x out : Nat) : Option Nat :=
  ((getRtr s x).gather.find? fun e => e.2.due && e.2.parent.toNat == out).map (·.1)

/-- The channel on which the flit at the head of a buffer may leave on an output now (05 R109). A G continuation flit whose
header passed on a preset takes the header's output (06 R132). A gathered answer stands at S of input SELF. -/
def readyFor (s : State) (x : Nat) (pl : Plane) (out key : Nat) : Option Nat :=
  let r := planeOf (getRtr s x) pl
  if key = 167 ∧ pl = .rsp then (if (gatherDue s x out).isSome ∧ outFree r out 7 then some 7 else none)
  else
    match bufOf r key with
    | [] => none
    | f :: _ =>
      let g := mgetD r.grant key {}
      if g.discard then none
      else if pl = .req ∧ key % 16 = 7 then (if branchReady r (key / 16) out then some 7 else none)
      else if key % 16 = 7 then none
      else if routedHead f g key then
        match routeOf s x pl f.msg with
        | .go esc adapt => ((headerOuts s x r f.msg (key % 16) g.waited esc adapt).find? fun c => c.1 == out).map (·.2)
        | _ => none
      else
        match f.gout with
        | some o => if o = out ∧ 1 ≤ outCredit r out 0 ∧ ((mget r.owner (16 * out)).isNone ∨ mget r.owner (16 * out) = some key) then some 0 else none
        | none => if g.out = out ∧ 1 ≤ outCredit r out g.ch then some g.ch else none

/-- The channel an input sends to an output in this fc (05 R109): G first, then round robin after its last winner. -/
def inputPick (s : State) (x : Nat) (pl : Plane) (out port : Nat) : Option (Nat × Nat) :=
  let r := planeOf (getRtr s x) pl
  let last := mgetD r.lastCh port 8
  (0 :: (List.range 9).map fun j => (last + 1 + j) % 9).findSome? fun ch => (readyFor s x pl out (16 * port + ch)).map fun c => (ch, c)

/-- The flits of the multicast copy at the head of an input's S buffer. -/
def copyLen (r : RtrPlane) (port : Nat) : Nat := ((bufOf r (16 * port + 7)).takeWhile fun f => !f.last).length + 1

/-- The branches of a copy that are left, after one or none has ended: none left, its buffer is freed (10 R218). -/
def branchesLeft (s : State) (x port left : Nat) : State :=
  let r := (getRtr s x).req
  if left = 0 then
    (List.range (copyLen r port)).foldl (fun t _ => popBuf t x .req (16 * port + 7))
      (updPlane s .req x fun r => { r with copies := mdel r.copies port, copyIdx := mdrop r.copyIdx fun k => k / 16 == port })
  else updPlane s .req x fun r => { r with copies := mset r.copies port (left, (mgetD r.copies port (0, 0)).2) }

/-- The branches of a copy to absent outputs are discarded (18 R394). -/
def branchDiscard (s : State) (x port : Nat) : State :=
  match mget (getRtr s x).req.copies port with
  | none => s
  | some c =>
    let gone := (onesOf 10 c.1).filter fun o => !portUp s x .req o
    if gone.isEmpty then s
    else
      let s1 := updPlane s .req x fun r => { r with owner := r.owner.filter fun p => !(gone.contains (p.1 / 16) && p.2 == 16 * port + 7) }
      let m := ((bufOf (getRtr s x).req (16 * port + 7)).headD {}).msg
      let s2 := gone.foldl (fun t o => if mgetD (getRtr s x).req.copyIdx (16 * port + o) 0 = 0 then rteDiscard t x m none else t) s1
      branchesLeft s2 x port (gone.foldl (fun a o => a - 2 ^ o) c.1)

/-- Messages whose destination is unreachable leave the heads of their buffers (04 R79; 05 R95, R99, R103, R111; 18 R394), one
flit of each buffer. -/
def discardStep (s : State) (x : Nat) (pl : Plane) (key : Nat) : State :=
  let r := planeOf (getRtr s x) pl
  match bufOf r key with
  | [] => s
  | f :: _ =>
    let g := mgetD r.grant key {}
    if g.discard then
      popBuf (if f.last then updPlane s pl x fun r => { r with grant := mdel r.grant key } else s) x pl key
    else if key % 16 = 7 then (if pl = .req then branchDiscard s x (key / 16) else s)
    else if g.out ≠ 15 then
      if portUp s x pl g.out then s
      else
        let s1 := updPlane s pl x fun r => { r with
          grant := if f.last then mdel r.grant key else mset r.grant key { g with discard := true }
          owner := mdel r.owner (16 * g.out + g.ch) }
        popBuf s1 x pl key
    else if routedHead f g key then
      match routeOf s x pl f.msg with
      | .discard flag =>
        let s1 := (f.msg :: f.packed).foldl (fun t m => rteDiscard t x m flag) s
        popBuf (if f.last then s1 else updPlane s1 pl x fun r => { r with grant := mset r.grant key { discard := true, hdr := f.msg } }) x pl key
      | _ => s
    else
      match f.gout with
      | some o => if portUp s x pl o then s else popBuf s x pl key
      | none => s

/-- A gathered answer as it leaves the router (10 R220). -/
def gatherMsg (s : State) (x : Nat) (g : Gather) : Msg :=
  let opc : Nat := if g.notify then 0x7E else if g.st = 3 then 0x48 else 0x40 + (if g.blk then 4 else 0) + g.st.toNat
  { dst := g.orig, src := nodeOf s (136 + x), opc := BitVec.ofNat 7 opc, cls := 2, vcf := vcfOfChan 7,
    ep := BitVec.ofNat 1 (rtrEp s x), gen := g.gen, slice := g.slice, tag := g.tag, addr := rspAddr g.stat.toNat g.gcnt.toNat }

/-- Gathered answers whose output is absent are discarded (18 R394). -/
def gatherDiscard (s : State) (x : Nat) : State :=
  ((getRtr s x).gather.filter fun e => e.2.due && !portUp s x .rsp e.2.parent.toNat).foldl
    (fun t e => rteDiscard (updRtr t x fun r => { r with gather := mdel r.gather e.1 }) x (gatherMsg s x e.2) none) s

/-- A flit of an input wins an output (05 R109): the header takes its channel (R101, R102), the flit leaves. -/
def winFlit (s : State) (x : Nat) (pl : Plane) (out port ch outCh : Nat) (err : FlitErr) : State :=
  let key := 16 * port + ch
  let r := planeOf (getRtr s x) pl
  match bufOf r key with
  | [] => s
  | f :: _ =>
    let esc := decide ((ch = 5 ∨ ch = 6) ∧ 1 ≤ outCh ∧ outCh ≤ 4) && f.idx == 0
    let g := { f with ch := outCh, gout := none, msg := { f.msg with vcf := vcfOfChan outCh } }
    let s1 := updPlane s pl x fun r => { r with
      grant := if f.gout.isSome then r.grant else if f.last then mdel r.grant key
        else mset r.grant key { (mgetD r.grant key {}) with out := out, ch := outCh, hdr := f.msg }
      owner := if f.gout.isSome then r.owner else if f.last then mdel r.owner (16 * out + outCh) else mset r.owner (16 * out + outCh) key
      credits := if out = 10 then r.credits else mset r.credits (16 * out + outCh) (outCredit r out outCh - 1)
      lastIn := mset r.lastIn out port, lastCh := mset r.lastCh port ch }
    let s2 := if f.idx = 0 ∧ (outCh = 5 ∨ outCh = 6) then evRtr s1 x (4 + plNo pl) 1 else s1
    let s3 := if esc then evRtr (incSat s2 (aRtr x 0x40) 1) x (6 + plNo pl) 1 else s2
    let s4 := if f.idx = 0 ∧ f.msg.cls ≠ 1 ∧ f.msg.ep.toNat ≠ rtrEp s x then evRtr s3 x 30 1 else s3
    sendOut (popBuf (evRtr s4 x (plNo pl) 1) x pl key) x pl out g err

/-- A branch of a multicast copy sends its next flit (10 R218); the last flit of the last branch frees the copy's buffer. -/
def winBranch (s : State) (x : Nat) (out port : Nat) (err : FlitErr) : State :=
  let r := (getRtr s x).req
  match branchFlit r port out with
  | none => s
  | some f =>
    let s1 := updPlane s .req x fun r => { r with
      copyIdx := if f.last then mdel r.copyIdx (16 * port + out) else mupd r.copyIdx (16 * port + out) 0 (· + 1)
      owner := if f.last then mdel r.owner (16 * out + 7) else mset r.owner (16 * out + 7) (16 * port + 7)
      credits := mset r.credits (16 * out + 7) (outCredit r out 7 - 1)
      lastIn := mset r.lastIn out port, lastCh := mset r.lastCh port 7 }
    let s2 := evRtr (evRtr s1 x 10 (if f.idx = 0 then 1 else 0)) x 0 1
    let s3 := if f.last then branchesLeft s2 x port ((mgetD r.copies port (0, 0)).1 - 2 ^ out) else s2
    sendOut s3 x .req out { f with ch := 7 } err

/-- send(e) of 10 R220: the gathered answer takes its output, and the entry is free. -/
def winGather (s : State) (x out : Nat) (err : FlitErr) : State :=
  match gatherDue s x out with
  | none => s
  | some e =>
    match mget (getRtr s x).gather e with
    | none => s
    | some g =>
      let s1 := updRtr s x fun r => { r with gather := mdel r.gather e }
      let s2 := updPlane s1 .rsp x fun r => { r with
        credits := mset r.credits (16 * out + 7) (outCredit r out 7 - 1)
        lastIn := mset r.lastIn out 10, lastCh := mset r.lastCh 10 7 }
      sendOut (evRtr (evRtr s2 x 11 1) x 1 1) x .rsp out { msg := sealMsg (gatherMsg s x g), ch := 7 } err

/-- The winner of an output sends its flit. -/
def winAt (s : State) (x : Nat) (pl : Plane) (out port ch outCh : Nat) (err : FlitErr) : State :=
  if ch = 7 then (match pl with | .req => winBranch s x out port err | .rsp => winGather s x out err)
  else winFlit s x pl out port ch outCh err

/-- The inputs that are ready for an output, from the one after its last winner (05 R109). -/
def readyInputs (s : State) (x : Nat) (pl : Plane) (out : Nat) : List (Nat × Nat × Nat) :=
  let last := mgetD (planeOf (getRtr s x) pl).lastIn out 15
  ((List.range 16).map fun j => (last + 1 + j) % 16).filterMap fun p => (inputPick s x pl out p).map fun c => (p, c)

/-- What cannot leave any more goes before an fc's arbitration. -/
def discardSteps (s : State) (x : Nat) (pl : Plane) : State :=
  ((planeOf (getRtr s x) pl).buf.map (·.1)).foldl (fun t key => discardStep t x pl key)
    (match pl with | .req => s | .rsp => gatherDiscard s x)

/-- ROUTER_FLIT_FORWARD: one fc of an output's arbitration (05 R109). An fc that a preset reserves and SCHN announced is left
to the schuss path; a reserved fc without it is released and counted (R94, R108). `err`: how the flit arrives where the output is a local
or span attachment; on a mesh link ROUTER_FLIT_ARRIVE says it. -/
def execRouterFlitForward (pl : Plane) (x : RtrId) (out : BitVec 4) (err : FlitErr) (s : State) : Host.Outcome State Fault Refusal :=
  answer s (
    let k := x.toNat
    let o := out.toNat
    if !isRtr s k || (getRtr s k).failed then s
    else
      let s0 := discardSteps s k pl
      let pre := presetAt s0 k pl o (fcNow s0)
      let r := planeOf (getRtr s0 k) pl
      let announced := match pre with | some e => mgetD r.schn e.inp false | none => false
      if announced then s0
      else
        let s1 := if pre.isSome then evRtr (incSat s0 (aRtr k 0x68) 1) k 8 1 else s0
        if portUp s1 k pl o = false || !outTakes s1 k pl o then s1
        else
          match readyInputs s1 k pl o with
          | [] =>
            let starved := r.grant.any fun g => g.2.out == o && !(bufOf r g.1).isEmpty && outCredit r o g.2.ch == 0
            if starved then evRtr s1 k (20 + plNo pl) 1 else s1
          | (p, ch, c) :: more =>
            winAt (if more.isEmpty then s1 else evRtr s1 k (22 + plNo pl) 1) k pl o p ch c err)

/-- LINK_CREDIT_RETURN: a back-channel word reaches an output (05 R91, R92): the credits that freed slots owe come back. A count above 4,
or an uncorrectable word, fails the link (18 R391). -/
def execLinkCreditReturn (pl : Plane) (x : RtrId) (out : BitVec 4) (w : BitVec 16) (s : State) : Host.Outcome State Fault Refusal :=
  answer s (
    let k := x.toNat
    let o := out.toNat
    if !isRtr s k || (getRtr s k).failed || 10 ≤ o then s
    else
      let rx := match neighbour s k o with | some (y, _) => y | none => k
      match ctlDecode w with
      | (_, .uncorrectable) => linkFail (setFlag s (aRtr k 0x10) 3) k pl o 1 rx
      | (d, e) =>
        let s1 := if e = .single then evRtr (incSat s (aRtr k 0x38) 1) k 18 1 else s
        let count := d / 8 % 8
        let ch := d / 64 % 16
        if d / 1024 % 2 = 0 ∨ count = 0 ∨ 4 < count ∨ 8 < ch then s1
        else
          let r := planeOf (getRtr s k) pl
          let c := outCredit r o ch
          let owed := mgetD r.owed (16 * o + ch) 0
          let got := min count owed
          if 4 < c + count then linkFail s1 k pl o 3 rx
          else updPlane s1 pl k fun r => { r with credits := mset r.credits (16 * o + ch) (c + got), owed := mset r.owed (16 * o + ch) (owed - got) })

/-- SCHUSS_PASS: the flit that SCHN announced crosses a preset output in its reserved fc (05 R94, R108; 06 R131), checked like every flit
a router receives (04 R66, R69); a preset fc without one is released (PRESET_RELEASE). A flit for an NI that takes none stays for R132. `err`:
how it arrives here; `eject`: how it arrives past a local or span attachment. -/
def execSchussPass (pl : Plane) (x : RtrId) (out : BitVec 4) (fc : BitVec 12) (err eject : FlitErr) (s : State) :
    Host.Outcome State Fault Refusal :=
  answer s (
    let k := x.toNat
    let o := out.toNat
    if !isRtr s k || (getRtr s k).failed || !outTakes s k pl o then s
    else
      match presetAt s k pl o fc.toNat with
      | none => s
      | some e =>
        let r := planeOf (getRtr s k) pl
        match mgetD r.schn e.inp false, takeFirst (mgetD r.link e.inp []) fun f => f.ch == 0 with
        | true, (some f, rest) =>
          let s1 := updPlane s pl k fun r => { r with
            link := mset r.link e.inp rest
            schn := if rest.any (fun g => g.ch == 0) then r.schn else mdel r.schn e.inp }
          let s2 := countIn s1 k pl e.inp f.msg
          let c := ctlRx f (rest.any fun g => g.ch == 0) err.ctl
          if c.2 = .uncorrectable then linkFail (setFlag s2 (aRtr k 0x10) 3) k pl e.inp 1 k
          else
            let g := flitRx f err.flip
            let s3 := rtrCheck s2 k pl e.inp g c.2
            let s4 := if headerFails g then headerDiscard s3 k pl e.inp g
              else if contDrops s3 k pl e.inp g.flit then contDrop s3 k pl e.inp g.flit
              else if portUp s k pl o then
                let t1 := updPlane s3 pl k fun r => { r with gOut := if g.flit.idx = 0 then mset r.gOut e.inp o else r.gOut }
                let t2 := evRtr (evRtr t1 k (2 + plNo pl) 1) k (plNo pl) 1
                let t3 := match neighbour s k o with
                  | some (y, inp) => if (getRtr s y).failed then t2 else updPlane t2 pl y fun r => { r with schn := mset r.schn inp true }
                  | none => t2
                sendOut t3 k pl o g.flit eject
              else s3
            ueError s4 k pl e.inp false (g.ues.length + (badHeader g).toNat)
        | _, _ => evRtr (incSat s (aRtr k 0x68) 1) k 8 1)

/-- ESC_WAIT_EXPIRE: a best-effort header has spent ESC_WAIT fc in stage 2 without an adaptive grant (05 R102); from here it
competes for its escape channel as well. -/
def execEscWaitExpire (pl : Plane) (x : RtrId) (port ch : BitVec 4) (s : State) : Host.Outcome State Fault Refusal :=
  answer s (
    let k := x.toNat
    let key := 16 * port.toNat + ch.toNat
    let r := planeOf (getRtr s k) pl
    match bufOf r key with
    | [] => s
    | f :: _ =>
      let g := mgetD r.grant key {}
      if (ch = 5 ∨ ch = 6) ∧ f.idx = 0 ∧ g.out = 15 ∧ g.discard = false ∧ f.msg.cls = 0 then
        updPlane s pl k fun r => { r with grant := mset r.grant key { g with waited := max 1 (rdF s (aRtr k 8) 7 0) } }
      else s)

end Sys2Proof.Machine
end

