-- ==== Sys2Proof/Machine/Multicast.lean ====
section
/-! DEFINITION. Multicast replication, gather entries and forwarded notifications (10; 23 R482). -/

namespace Sys2Proof.Machine

/-- A target of a copy: an NI by the local port of its attachment, or a span port (10 R217). -/
structure McTarget where
  rtr : Nat
  port : Nat
  tbl : Nat
  deriving DecidableEq, Repr

/-- The targets of a copy at router x (10 R217): members here except the originator, by the router's own placement, and span ports when
HOPS is 0. A member whose attachments are both absent is left out (16 R359). -/
def mcTargets (s : State) (x : Nat) (m : Msg) : List McTarget :=
  let g := m.dst.toNat % 1024
  let e := m.ep.toNat
  if nGroups s ≤ g ∨ groupCfg s e g / 2 ^ 31 = 0 then []
  else
    let nis := (niList s).filterMap fun n =>
      let h := homeAt s x n
      if groupHas s e g n && niNode s n != m.src then
        if attUp h false then some ⟨attRtr h false, attPort h false, attRtr h false⟩
        else if attUp h true then some ⟨attRtr h true, attPort h true, attRtr h true⟩
        else none
      else none
    let sps := if m.hops = 0 then (List.range 8).filterMap fun p =>
        if (groupCfg s e g / 2 ^ 8).testBit p && isSpan s p then some ⟨(spanAtt s p).1, (spanAtt s p).2, 64 + p⟩ else none
      else []
    nis ++ sps

/-- The output of router y toward a target: its port at the target router, ESC_PORT elsewhere (10 R217). -/
def mcOut (s : State) (e : Nat) (y : Nat) (t : McTarget) : Nat :=
  if y = t.rtr then t.port else rteTbl s y .req e t.tbl / 2 ^ 12

/-- The router lies on the escape route from a root to a target (10 R217). -/
def onRoute (s : State) (e x : Nat) (t : McTarget) (y fuel : Nat) : Bool :=
  match fuel with
  | 0 => false
  | fuel + 1 =>
    if y = x then true
    else if y = t.rtr then false
    else
      match neighbour s y (mcOut s e y t) with
      | some (z, _) => onRoute s e x t z fuel
      | none => false

/-- CHILD of a copy at router x (10 R217), one bit per port code. -/
def mcChild (s : State) (x : Nat) (m : Msg) : Nat :=
  (mcTargets s x m).foldl (fun a t =>
    let o := mcOut s m.ep.toNat x t
    if onRoute s m.ep.toNat x t m.root 65 && o < 10 then a ||| 2 ^ o else a) 0

/-- The lowest gather entry not in use (10 R219). -/
def freeGather (s : State) (x : Nat) : Option Nat :=
  if s.gen.gth then (List.range 256).find? fun e => (mget (getRtr s x).gather e).isNone else none

/-- An S-channel copy held whole at an input that has not been replicated yet. -/
def mcWaiting (r : RtrPlane) (port : Nat) : Bool :=
  (mget r.copies port).isNone && (bufOf r (16 * port + 7)).any (·.last)

/-- An entry whose answer is to be sent: it waits for its output (10 R220). -/
def gatherReady (s : State) (x e : Nat) (g : Gather) : State := updRtr s x fun r => { r with gather := mset r.gather e { g with due := true } }

/-- The entry expires (10 R220): OK becomes GATHER_SHORT, and it is sent and counted. -/
def gatherShort (s : State) (x e : Nat) (g : Gather) : State :=
  evRtr (incSat (gatherReady s x e (if g.stat = 0 then { g with stat := 11 } else g)) (aRtr x 0xA0) 1) x 12 1

/-- MC_COPY_REPLICATE: a multicast copy in stage 2 takes a gather entry and is replicated (10 R217 to R219). Without a free
entry it waits, and the fc is counted (R218). -/
def execMcCopyReplicate (x : RtrId) (port : BitVec 4) (s : State) : Host.Outcome State Fault Refusal :=
  answer s (
    let k := x.toNat
    let p := port.toNat
    let r := (getRtr s k).req
    if !isRtr s k || (getRtr s k).failed || !mcWaiting r p then s
    else
      match bufOf r (16 * p + 7) with
      | [] => s
      | f :: _ =>
        let m := f.msg
        let n := copyLen r p
        if m.ep.toNat ≠ rtrEp s k ∧ oldLive s k = false then
          (List.range n).foldl (fun t _ => popBuf t k .req (16 * p + 7)) (rteDiscard s k m (some 5))
        else
          let used := (getRtr s k).gather.length
          let order := (List.range 16).map fun j => ((getRtr s k).gthLast + 1 + j) % 16
          let first := order.find? fun q => mcWaiting r q
          match freeGather s k with
          | none => evRtr (incSat s (aRtr k 0xA8) 1) k 14 1
          | some e =>
            if used = 255 ∧ first ≠ some p then evRtr (incSat s (aRtr k 0xA8) 1) k 14 1
            else
              let child := mcChild s k m
              let g : Gather := { orig := m.src, tag := m.tag, parent := port, child := BitVec.ofNat 10 child, notify := m.opc == 0x7B,
                                  deadline := (frameOf s + gtoOf s) % 2 ^ 48, gen := m.gen, slice := m.slice }
              let s1 := updRtr s k fun r => { r with gather := mset r.gather e g, gthLast := p }
              if child = 0 then
                (List.range n).foldl (fun t _ => popBuf t k .req (16 * p + 7)) (gatherReady s1 k e g)
              else updPlane s1 .req k fun r => { r with copies := mset r.copies p (child, e) })

/-- STATE of a gathered BIRSP: 3 none (10 R220). -/
def birspState (opc : Nat) : Nat := if opc / 8 % 2 = 1 then 3 else opc % 4

/-- An answer merged into its entry (10 R220). -/
def gatherMerge (g : Gather) (p : Nat) (a : Msg) : Gather :=
  let g1 := { g with
    done := g.done ||| BitVec.ofNat 10 (2 ^ p)
    gcnt := BitVec.ofNat 8 (min 255 (g.gcnt.toNat + msgGcnt a))
    stat := BitVec.ofNat 4 (worse g.stat.toNat (msgStat a)) }
  let st := birspState a.opc.toNat
  if isBirsp a.opc.toNat ∧ st ≠ 3 then
    { g1 with st := if g.st = 3 then BitVec.ofNat 2 st else BitVec.ofNat 2 (max g.st.toNat st), blk := a.opc.getLsbD 2 }
  else g1

/-- GATHER_ANSWER: a gathered answer at a router input meets its entry (10 R220): merged, or discarded and counted; the last
child's answer sends the entry on. -/
def execGatherAnswer (x : RtrId) (port : BitVec 4) (s : State) : Host.Outcome State Fault Refusal :=
  answer s (
    let k := x.toNat
    let p := port.toNat
    let key := 16 * p + 7
    if !isRtr s k || (getRtr s k).failed then s
    else
      match bufOf (getRtr s k).rsp key with
      | [] => s
      | f :: _ =>
        let a := f.msg
        match (getRtr s k).gather.find? fun q => q.2.orig == a.dst && q.2.tag == a.tag &&
            q.2.child.getLsbD p && !q.2.done.getLsbD p && !q.2.due with
        | none => evRtr (incSat (popBuf s k .rsp key) (aRtr k 0x98) 1) k 13 1
        | some (e, g) =>
          let g1 := gatherMerge g p a
          if g1.done = g1.child then gatherReady (popBuf s k .rsp key) k e g1
          else updRtr (popBuf s k .rsp key) k fun r => { r with gather := mset r.gather e g1 })

/-- GATHER_EXPIRE: the deadline of a gather entry (10 R220): OK becomes GATHER_SHORT, the entry is sent and counted. -/
def execGatherExpire (x : RtrId) (e : BitVec 8) (s : State) : Host.Outcome State Fault Refusal :=
  answer s (
    let k := x.toNat
    match mget (getRtr s k).gather e.toNat with
    | some g => if frameGe (frameOf s) g.deadline && !g.due then gatherShort s k e.toNat g else s
    | none => s)

/-- NTF_FORWARD: the oldest waiting record leaves as a NOTIFY to GROUP through service NI 120, slice 0, queue 10, when no
forward is outstanding (23 R482) and slice 0 takes requests (11 R233, R242). -/
def execNtfForward (s : State) : Host.Outcome State Fault Refusal :=
  answer s (
    match s.ntf.fwdQ with
    | [] => s
    | w :: rest =>
      if s.ntf.fwdBusy || reqFull (getNi s 120) 10 || !trkRoom s 120 0 || (getNi s 120).inRst || !slcAct s 120 0 || slcRst s 120 0 then s
      else
        let grp := (rd s 0x110).extractLsb' 0 10
        let m : Msg := { dst := grp.zeroExtend 12, src := niNode s 120, opc := 0x7B, cls := 2, gen := slcGen s 120 0, len := 1,
                         nbytes := 8, data := [w.zeroExtend 512] }
        let r : Req := { id := (getNi s 120).nextId, q := 10, msg := m, group := some grp, nbytes := 8, lineCnt := 1 }
        let t := allocTrk s 120 { gen := slcGen s 120 0, reqId := r.id, opc := 0x7B, dst := m.dst, group := some grp, notify := true,
                                  deadline := some (beDeadline s 120) }
        let s1 := enqueueReq t.2 120 { r with tag := t.1 }
        { s1 with ntf := { s1.ntf with fwdQ := rest, fwdBusy := true } })

end Sys2Proof.Machine
end

