-- ==== Sys2Proof/Machine/Span.lean ====
section
/-! DEFINITION. Span ports (12): link flits sent and received, replay, retraining and width, going down and coming back, piste
staging, and the time exchange. -/

namespace Sys2Proof.Machine

/-! Fabric flits in slots (12 R256; 04 Tables 04.2, 04.4). -/

/-- The further messages of a packed flit (04 R77). -/
def packedOf (v : BitVec 640) (unit fuel : Nat) : List Msg :=
  match fuel with
  | 0 => []
  | fuel + 1 =>
    let h : BitVec 128 := v.extractLsb' (128 + 128 * unit) 128
    msgOfHdr h 0 :: (if bitOf h 60 then packedOf v (unit + 1) fuel else [])

/-- The fabric flit a slot holds. -/
def flitOfSlot (v : BitVec 640) : Flit :=
  let h : BitVec 128 := v.extractLsb' 0 128
  let opc := fld h 103 97
  if opc = 0x7F then
    { msg := msgOfHdr h 0, idx := fld h 68 62, last := bitOf h 60, line := v.extractLsb' 128 512, poison := bitOf h 61 }
  else if bitOf h 60 then { msg := msgOfHdr h 0, poison := bitOf h 61, packed := packedOf v 0 3 }
  else { msg := msgOfHdr h (v.extractLsb' 128 128).toNat, last := !(carriesData opc && fld h 68 62 != 0), poison := bitOf h 61 }

/-! Trailer (12 Table 12.4). -/

/-- Slot i of a link flit. -/
def linkSlot (raw : BitVec 2048) (i : Nat) : BitVec 640 := raw.extractLsb' (640 * i) 640
/-- The trailer. -/
def linkTrl (raw : BitVec 2048) : BitVec 128 := raw.extractLsb' 1920 128
/-- The link flit with a trailer written. -/
def withTrl (raw : BitVec 2048) (t : BitVec 128) : BitVec 2048 := t ++ raw.extractLsb' 0 1920
/-- CRC of a link flit over bytes 0 to 251 (12 R255). -/
def linkCrc (raw : BitVec 2048) : BitVec 32 := crc32 (bytesOf 252 raw.toNat)
/-- Slot descriptor i: SV, VC, POOL, FP. -/
def linkSd (t : BitVec 128) (i : Nat) : Nat := fld t (44 - 6 * i) (39 - 6 * i)

/-- Sequence number a comes before b (12 R265). -/
def seqBefore (a b : BitVec 16) : Bool := a != b && subMod 16 b.toNat a.toNat < 2 ^ 15

/-- REPLAY_TO, ns (12 Table 12.12). -/
def replayTo (s : State) (p : Nat) : Nat := 4 * fld (spnCfg s p) 36 29

/-- Receive pool sizes (12 Table 12.6) by 5 x VC + POOL - 1. -/
def poolSize (k : Nat) : Nat := nth [192, 128, 128, 64, 96] (k % 5)

/-! Sending (12 R259 to R261, R265). -/

/-- A data slot as it will be sent: its flit, descriptor, and the message it belongs to. -/
structure TxSlot where
  bits : BitVec 640 := 0
  sd : Nat := 0
  msg : Msg := {}
  last : Bool := false
  deriving DecidableEq, Repr

/-- Credit count of a pair. -/
def pairOf (t : SpanTx) : Nat := 5 * t.rsp.toNat + t.pool - 1

/-- A message held for sending is in progress. -/
def txStarted (t : SpanTx) : Bool := t.flits.length != (taintFlits t.msg).length

/-- A message may send its next flit: in progress, piste, or with a credit for every flit (12 R259). -/
def txReady (q : Span) (t : SpanTx) : Bool :=
  t.pool == 0 || txStarted t || t.flits.length ≤ mgetD q.credits (pairOf t) 0

/-- A migrated message may send its next flit: none of its pool's own messages is in progress (12 R259, R272). -/
def migReady (q : Span) (t : SpanTx) : Bool :=
  txReady q t && (txStarted t || !q.waiting.any fun w => w.pool != 0 && pairOf w == pairOf t && txStarted w)

/-- FLOW as the message carries it over the link: the next segment's (06 R120, 12 R261). -/
def txFlow (s : State) (m : Msg) : Nat :=
  match (mget s.eng.flows m.flow.toNat).bind (·.next) with | some f => f.toNat | none => m.flow.toNat

/-- A message starts to cross: its credits are taken (12 R259), and one of class multicast and gather is sequenced by the port, unless the
failed port that handed it over did (12 R261, R272). -/
def txStart (s : State) (p : Nat) (t : SpanTx) : SpanTx × State :=
  if txStarted t then (t, s)
  else
    let s1 := if t.pool = 0 then s else updSpan s p fun q => { q with
      credits := mupd q.credits (pairOf t) 0 fun c => c - t.flits.length }
    if t.msg.cls = 2 ∧ t.mig.isNone then
      let r := spanSeq s1 p t.msg
      ({ t with msg := r.1, flits := taintFlits r.1 }, r.2)
    else (t, s1)

/-- One flit of a message held for sending: the slot, and what remains. -/
def txFlitOf (s : State) (t : SpanTx) : TxSlot × SpanTx :=
  match t.flits with
  | [] => ({}, t)
  | f :: rest =>
    ({ bits := slotOfFlit f (txFlow s t.msg),
       sd := 32 + 16 * t.rsp.toNat + 2 * t.pool + (if t.pool = 0 ∧ f.last then t.fp.toNat else 0), msg := t.msg, last := f.last },
      { t with flits := rest })

/-- The list with an element replaced, or dropped once all its flits are sent. -/
def putTx (l : List SpanTx) (j : Nat) (t : SpanTx) : List SpanTx :=
  if t.flits.isEmpty then l.take j ++ l.drop (j + 1) else l.set j t

/-- The waiting message that places the next flit (12 R260): piste in order, then the pairs round robin; while migrated messages wait,
only one in progress (R272). -/
def pickTx (q : Span) : Option Nat :=
  match q.waiting.findIdx? fun t => t.pool == 0 && (q.mig.isEmpty || txStarted t) with
  | some j => some j
  | none =>
    ((List.range 10).map fun d => (q.lastPool + 1 + d) % 10).findSome? fun k =>
      match q.waiting.findIdx? fun t => t.pool != 0 && pairOf t == k with
      | some j => match q.waiting[j]? with | some t => if txReady q t && (q.mig.isEmpty || txStarted t) then some j else none | none => none
      | none => none

/-- The failed port whose messages the next link flit carries, if it is one of migrated messages (12 R272). -/
def migNext (q : Span) : Option (BitVec 3) :=
  match q.mig with | t :: _ => if migReady q t then t.mig else none | [] => none

/-- Slots of a link flit of the migrated messages of one failed port (12 R272), at most `fuel`. -/
def fillMig (s : State) (p : Nat) (o : BitVec 3) (fuel : Nat) : List TxSlot × State :=
  match fuel with
  | 0 => ([], s)
  | fuel + 1 =>
    let q := getSpan s p
    match q.mig with
    | t :: _ =>
      if t.mig = some o ∧ migReady q t = true then
        let r := txStart s p t
        let f := txFlitOf r.2 r.1
        let s1 := updSpan r.2 p fun x => { x with mig := putTx x.mig 0 f.2 }
        let n := fillMig (if f.1.last then evSpn s1 p 16 1 else s1) p o fuel
        (f.1 :: n.1, n.2)
      else ([], s)
    | [] => ([], s)

/-- Slots of a link flit of the port's own messages (12 R260), at most `fuel`. -/
def fillOwn (s : State) (p fuel : Nat) : List TxSlot × State :=
  match fuel with
  | 0 => ([], s)
  | fuel + 1 =>
    let q := getSpan s p
    match pickTx q with
    | some j => match q.waiting[j]? with
      | some t =>
        let r := txStart s p t
        let o := txFlitOf r.2 r.1
        let s1 := updSpan r.2 p fun x => { x with
          waiting := putTx x.waiting j o.2, lastPool := if t.pool = 0 then x.lastPool else pairOf t }
        let s2 := evSpn (evSpn s1 p (10 + t.rsp.toNat) 1) p 14 (if t.pool = 0 then 1 else 0)
        let n := fillOwn s2 p fuel
        (o.1 :: n.1, n.2)
      | none => ([], s)
    | none => ([], s)

/-- Slots of a new data link flit: migrated messages before the port's own, which do not share a link flit (12 R260, R272). -/
def fillSlots (s : State) (p : Nat) : List TxSlot × State :=
  match migNext (getSpan s p) with
  | some o => fillMig s p o 3
  | none => fillOwn s p 3

/-- AKSEQ, NKSEQ, NKV and CRC as they are filled at every send (12 R256, R266). -/
def stampLink (q : Span) (raw : BitVec 2048) : BitVec 2048 :=
  let t1 := setFld (linkTrl raw) 79 64 q.rxNext.toNat
  let t2 := match q.naks with | k :: _ => setFld (setFld t1 63 48 k.toNat) 47 47 1 | [] => setFld (setFld t1 63 48 0) 47 47 0
  let r1 := withTrl raw (setFld t2 127 96 0)
  withTrl r1 (setFld t2 127 96 (linkCrc r1).toNat)

/-- A link flit leaves: the oldest queued NAK goes with it (12 R266). -/
def emitLink (s : State) (p : Nat) (raw : BitVec 2048) (ev : Nat) : State :=
  let q := getSpan s p
  let s1 := updSpan s p fun x => { x with
    txFlit := some (stampLink q raw)
    nakSent := match q.naks with | k :: _ => mset x.nakSent k.toNat (nowNs s) | [] => x.nakSent
    naks := x.naks.tail }
  evSpn (evSpn s1 p ev 1) p 5 (if q.naks.isEmpty then 0 else 1)

/-- A link flit of a kind without slots' descriptors: idle or control. -/
def plainLink (kind : Nat) (slot0 : BitVec 640) : BitVec 2048 :=
  withTrl (slot0.zeroExtend 2048) (BitVec.ofNat 128 (kind <<< 45))

/-- A due control word with its time stamp: t1 of TSYNC_REQ and t3 of TSYNC_RSP are taken as it crosses (12 R257). -/
def stampCtl (s : State) (w : BitVec 640) : BitVec 640 :=
  match fld w 7 0 with
  | 3 => setFld w 127 64 (nowNs s)
  | 4 => setFld w 255 192 (nowNs s)
  | _ => w

/-- The next control link flit, or an idle one. -/
def sendCtl (s : State) (p : Nat) (idle : Bool) : State :=
  match (getSpan s p).ctlDue with
  | w :: rest =>
    let s1 := updSpan s p fun q => { q with
      ctlDue := rest, t1 := if fld w 7 0 = 3 then some (nowNs s) else q.t1
      resumeSent := q.resumeSent || fld w 7 0 == 2 }
    emitLink s1 p (plainLink 2 (stampCtl s w)) 2
  | [] => if idle then emitLink s p (plainLink 1 0) 1 else s

/-- A new data link flit (12 R260, R265): up to three slots, a credit return, the next SEQ; held until acknowledged. -/
def sendData (s : State) (p : Nat) : Option State :=
  let q := getSpan s p
  let open_ := match q.replay with | h :: _ => subMod 16 q.txNext.toNat h.seq.toNat < 1024 | [] => true
  if !open_ then none
  else
    let mig := migNext q
    let f := fillSlots s p
    let ret := q.retCredit.find? fun c => c.2 != 0
    if f.1.isEmpty ∧ ret.isNone then none
    else
      let slots : BitVec 2048 := BitVec.ofNat 2048 (((List.range 3).zip f.1).foldl (fun a e => a ||| e.2.bits.toNat <<< (640 * e.1)) 0)
      let sds := ((List.range 3).zip f.1).foldl (fun a e => a ||| e.2.sd <<< (39 - 6 * e.1)) 0
      let cr := match ret with
        | some (k, c) => 1 <<< 26 ||| (k / 5) <<< 25 ||| (k % 5 + 1) <<< 22 ||| (min 255 c) <<< 14
        | none => 0
      let mg := match mig with | some o => 1 <<< 13 ||| o.toNat <<< 10 | none => 0
      let raw := withTrl slots (BitVec.ofNat 128 (q.txNext.toNat <<< 80 ||| sds ||| cr ||| mg))
      let ms := f.1.foldl (fun a e => if a.contains e.msg then a else a ++ [e.msg]) []
      let s1 := updSpan f.2 p fun x => { x with
        replay := x.replay ++ [{ seq := q.txNext, raw := raw, msgs := ms, sentNs := nowNs s }]
        txNext := q.txNext + 1
        retCredit := match ret with | some (k, c) => mset x.retCredit k (c - min 255 c) | none => x.retCredit
        migSeq := if mig.isSome then some (q.txNext + 1) else x.migSeq }
      some (emitLink s1 p raw 0)

/-- LINK_FLIT_SEND: the adapter takes a link flit (12 R252, R260). -/
def execLinkFlitSend (p : SpId) (s : State) : Host.Outcome State Fault Refusal :=
  answer s (
    let k := p.toNat
    let q := getSpan s k
    if !isSpan s k || !q.phyUp then s
    else
      match q.lstate.toNat with
      | 2 =>
        match q.replay.find? (·.due) with
        | some h =>
          emitLink (updSpan s k fun x => { x with
            replay := updFirst x.replay (fun g => g.seq == h.seq) fun g => { g with due := false, sentNs := nowNs s } }) k h.raw 0
        | none =>
          match sendData s k with
          | some t => t
          | none => sendCtl (if q.waiting.isEmpty && q.mig.isEmpty then s else evSpn s k 20 1) k true
      | 1 => sendCtl s k true
      | 3 => if q.rtReq then s else sendCtl s k false
      | 4 => sendCtl s k false
      | 5 => sendCtl s k false
      | _ => s)

/-! Retraining (12 R267 to R270). -/

/-- A retrain begins (12 R268, R269): sending stops; the end in the lower-numbered instance leads. `w`: the width to train at. -/
def retrainStart (s : State) (p : Nat) (w : BitVec 2) : State :=
  if (getSpan s p).lstate ≠ 2 then s
  else
    let s1 := updSpan s p fun q => { q with
      lstate := 3, rtReq := true, resumeSent := false, rtStart := nowNs s, trainWidth := w, t1 := none
      lead := decide (instNo s < spnPeer s p) }
    raiseGFree (evSpn (incSat (setFlag s1 (aSpn p 0x18) 1) (aSpn p 0x40) 1) p 8 1) (128 + p) 0x120 1

/-- The replay rule for a held link flit (12 R267), once in a cycle (Table 12.10). -/
def replayAct (s : State) (p : Nat) (seq : BitVec 16) : State :=
  match (getSpan s p).replay.find? fun h => h.seq == seq with
  | none => s
  | some h =>
    let put (g : Held) : State := updSpan s p fun q => { q with
      replay := updFirst q.replay (fun g => g.seq == seq) fun _ => { g with lastAct := some (nowNs s) } }
    if h.lastAct = some (nowNs s) then s
    else if h.rpl = 4 then
      if h.afterRt then spanDown s p 1
      else retrainStart (put { h with afterRt := true, rpl := 0 }) p (getSpan s p).width
    else evSpn (incSat (put { h with due := true, rpl := h.rpl + 1 }) (aSpn p 0x38) 1) p 7 1

/-- REPLAY_TIMER_EXPIRE: REPLAY_TO after the later of the oldest held link flit's last send and the last NAK, in which time AKSEQ has
not passed it (12 R267). -/
def execReplayTimerExpire (p : SpId) (s : State) : Host.Outcome State Fault Refusal :=
  answer s (
    let k := p.toNat
    let q := getSpan s k
    match q.replay with
    | h :: _ =>
      let from_ := max h.sentNs q.lastNakNs
      if q.lstate = 2 ∧ from_ + replayTo s k ≤ nowNs s ∧ (h.passed.all fun t => t < from_) = true then
        replayAct s k h.seq
      else s
    | [] => s)

/-- NAK_TIMER_EXPIRE: a link flit is still missing REPLAY_TO after its last NAK was sent (12 R266). -/
def execNakTimerExpire (p : SpId) (seq : BitVec 16) (s : State) : Host.Outcome State Fault Refusal :=
  answer s (
    let k := p.toNat
    let q := getSpan s k
    match mget q.nakSent seq.toNat with
    | some t =>
      if t + replayTo s k ≤ nowNs s ∧ (mget q.rob seq.toNat).isNone ∧ !seqBefore seq q.rxNext ∧ !q.naks.contains seq ∧
          q.rob.any (fun r => seqBefore seq (BitVec.ofNat 16 r.1)) then
        updSpan s k fun x => { x with naks := x.naks ++ [seq] }
      else s
    | none => s)

/-- The narrower of two widths (12 Table 12.2: a higher code is narrower). -/
def narrower (a b : BitVec 2) : BitVec 2 := if a.toNat < b.toNat then b else a

/-- SPN_RETRAIN: a write of 1 to SPN_CTL.RETRAIN (12 R268); only here may the width be widened (R270). -/
def execSpnRetrain (p : SpId) (s : State) : Host.Outcome State Fault Refusal :=
  answer s (let q := getSpan s p.toNat
    if isSpan s p.toNat then retrainStart s p.toNat (narrower q.widthCap q.peerCap) else s)

/-- PHY_DOWN: sp_phy_up falls; outside a retrain one begins (12 R268). -/
def execPhyDown (p : SpId) (s : State) : Host.Outcome State Fault Refusal :=
  answer s (
    let k := p.toNat
    if !isSpan s k then s
    else
      let s1 := updSpan s k fun q => { q with phyUp := false, lstate := if q.lstate = 1 then 0 else q.lstate }
      retrainStart s1 k (getSpan s k).width)

/-- PEER_RETRAIN_REQUEST: sp_rt_peer rises (12 R268, R269). `wide`: the peer's retrain was requested through SPN_CTL.RETRAIN, where
alone the width may be widened (R270; log 10). -/
def execPeerRetrainRequest (p : SpId) (wide : Bool) (s : State) : Host.Outcome State Fault Refusal :=
  answer s (
    let k := p.toNat
    if !isSpan s k then s
    else
      let q := getSpan s k
      retrainStart (updSpan s k fun q => { q with rtPeer := true }) k
        (if wide then narrower q.widthCap q.peerCap else narrower q.width q.trainWidth))

/-- The link runs at a width (12 R270): below MINW it goes down where a parallel link is up, or stays with its piste chains
suspended; chains resume at the second tick of a link up at MINW or wider (R276). -/
def widthInUse (s : State) (p : Nat) (w : BitVec 2) : State :=
  let s1 := evSpn (updSpan s p fun q => { q with width := w, trainWidth := w, propSent := false }) p 23
    (if (getSpan s p).width = w then 0 else 1)
  if spnMinw s p < w.toNat then
    (match parallelOf s1 p with
     | some _ => spanDown s1 p 3
     | none => suspendSpan (setFlag s1 (aSpn p 0x18) 6) p)
  else graceFailover (updSpan s1 p fun q => { q with resumeAt := some (frameIn s 2) })

/-- RESUME carrying this end's NEXT (12 Table 12.5). -/
def resumeWord (q : Span) : BitVec 640 := ctlWord 2 q.rxNext.toNat

/-- INIT of a port (12 Table 12.5). -/
def initWord (s : State) (p : Nat) (q : Span) : BitVec 640 := ctlWord 1 ((spnNode s p).toNat ||| q.widthCap.toNat <<< 16)

/-- RETRAIN_DONE: sp_rt_done rises with sp_phy_up as given (12 R268, R270, R274); a training that succeeds from off or down starts the
link with INIT (Table 12.5, R276). -/
def execRetrainDone (p : SpId) (up : Bool) (s : State) : Host.Outcome State Fault Refusal :=
  answer s (
    let k := p.toNat
    let q := getSpan s k
    if !isSpan s k then s
    else if up && (q.lstate == 0 || q.lstate == 5) && bitOf (spnCfg s k) 0 then
      updSpan s k fun x => { x with phyUp := true, rtPeer := false, lstate := 1, ctlDue := [initWord s k q] }
    else if !(q.lstate == 3 || q.lstate == 4) then s
    else
      let s1 := updSpan s k fun x => { x with phyUp := up, rtReq := false, rtPeer := false }
      if !up then (if q.lstate = 3 then spanDown s1 k 2 else s1)
      else
        let s2 := updSpan s1 k fun x => { x with ctlDue := [resumeWord x] }
        if q.lstate = 3 then widthInUse s2 k q.trainWidth else s2)

/-- RETRAIN_TIMEOUT: no RESUME 4 us after the retrain began (12 R268). -/
def execRetrainTimeout (p : SpId) (s : State) : Host.Outcome State Fault Refusal :=
  answer s (let q := getSpan s p.toNat
    if isSpan s p.toNat && q.lstate == 3 && decide (q.rtStart + 4000 ≤ nowNs s) then spanDown s p.toNat 2 else s)

/-- WIDTH_PROP of a port (12 Table 12.5). -/
def propWord (cap : BitVec 2) : BitVec 640 := ctlWord 5 cap.toNat

/-- WIDTH_CAP_DROP: sp_width_cap falls (12 R270): below the width in use, WIDTH_PROP is sent; during a retrain it applies in
that retrain. -/
def execWidthCapDrop (p : SpId) (cap : BitVec 2) (s : State) : Host.Outcome State Fault Refusal :=
  answer s (
    let k := p.toNat
    if !isSpan s k then s
    else
      updSpan s k fun q =>
        let q1 := { q with widthCap := cap }
        if q.lstate = 3 then { q1 with trainWidth := narrower q.trainWidth cap }
        else if q.lstate = 2 ∧ q.width.toNat < cap.toNat then { q1 with ctlDue := q.ctlDue ++ [propWord cap], propSent := true }
        else q1)

/-- SPN_FORCE_DOWN: a write of 1 to SPN_CTL.FORCE_DOWN (12 R271). -/
def execSpnForceDown (p : SpId) (s : State) : Host.Outcome State Fault Refusal :=
  answer s (let l := (getSpan s p.toNat).lstate
    if isSpan s p.toNat && (l == 1 || l == 2 || l == 3) then spanDown s p.toNat 5 else s)

/-! Coming up, keys and the grace period (12 R273 to R276). -/

/-- SPAN_KEY_EXPIRE: keys recorded 16 frames ago or earlier expire (12 R273). -/
def execSpanKeyExpire (p : SpId) (s : State) : Host.Outcome State Fault Refusal :=
  answer s (updSpan s p.toNat fun q => { q with keys := q.keys.filter fun k => subMod 48 (frameOf s) k.2.2 < 16 })

/-- GRACE_EXPIRE: the grace period ends (12 R274, R275): every held message is answered or discarded, and so is every later one
until the link returns. -/
def execGraceExpire (p : SpId) (s : State) : Host.Outcome State Fault Refusal :=
  answer s (
    let k := p.toNat
    let q := getSpan s k
    if !isSpan s k || q.lstate != 4 || decide (nowNs s < q.graceEnd) then s
    else
      let s1 := updSpan s k fun x => { x with lstate := 5, flushing := true, replay := [], waiting := [], mig := [] }
      raiseGFree ((heldMsgs q).foldl (fun t m => flushMsg t k m) s1) (128 + k) 0x123 2)

/-- PHY_UP: sp_phy_up rises (12 R274, R276): INIT from off or down, RESUME within the grace period. -/
def execPhyUp (p : SpId) (s : State) : Host.Outcome State Fault Refusal :=
  answer s (
    let k := p.toNat
    if !isSpan s k then s
    else if !bitOf (spnCfg s k) 0 then updSpan s k fun q => { q with phyUp := true }
    else
      updSpan s k fun q =>
        let q1 := { q with phyUp := true }
        match q.lstate.toNat with
        | 0 => { q1 with lstate := 1, ctlDue := [initWord s k q] }
        | 5 => { q1 with lstate := 1, ctlDue := [initWord s k q] }
        | 4 => { q1 with ctlDue := [resumeWord q] }
        | _ => q1)

/-! Receiving (12 R255, R266). -/

/-- Held link flits that an AKSEQ frees (12 R265). -/
def freeAcked (q : Span) (ak : BitVec 16) : List Held :=
  let open_ (m : Msg) := q.waiting.any (fun t => t.msg == m) || q.mig.any (fun t => t.msg == m)
  let keepMsg (m : Msg) := open_ m || q.replay.any fun h => h.msgs.contains m && !seqBefore h.seq ak
  q.replay.filter fun h => !seqBefore h.seq ak || h.msgs.any keepMsg

/-- An AKSEQ reaches the sender (12 R265); the last migrated message acknowledged completes the failover (R272). -/
def ackIn (s : State) (p : Nat) (ak : BitVec 16) : State :=
  let q := getSpan s p
  let s1 := updSpan s p fun x => { x with
    replay := (freeAcked q ak).map fun h => if h.passed.isNone && seqBefore h.seq ak then { h with passed := some (nowNs s) } else h }
  match q.migSeq with
  | some m =>
    if !q.migDone && q.mig.isEmpty && !seqBefore ak m then
      raiseGFree (updSpan s1 p fun x => { x with migDone := true, migSeq := none }) (128 + p) 0x122 1
    else s1
  | none => s1

/-- A key of the record (12 R273). -/
def keyOf (m : Msg) : Nat := if m.cls = 2 then 4098 else m.src.toNat

/-- The key is held by the failed port a migrated message names (12 R273). -/
def keyHeld (s : State) (p oport : Nat) (m : Msg) : Bool :=
  (List.range 8).any fun q => isSpan s q && spnPeer s q == spnPeer s p && fld (spnCfg s q) 11 9 == oport &&
    (getSpan s q).keys.any fun k => k.1 == keyOf m && k.2.1 == m.seq && decide (subMod 48 (frameOf s) k.2.2 < 16)

/-- A message's key is recorded as it passes into the router: the last 4,096 (12 R273). -/
def recordKey (s : State) (p : Nat) (m : Msg) : State :=
  updSpan s p fun q => { q with keys := ((keyOf m, m.seq, frameOf s) :: q.keys).take 4096 }

/-- A message received whole (12 R258, R262, R273): HOPS rises; piste waits in the G staging, any other goes into the router,
a migrated duplicate is dropped. -/
def spanMsgIn (s : State) (p : Nat) (pl : Plane) (m : Msg) (fp mig : Bool) (oport : Nat) : State :=
  let m1 := { m with hops := m.hops + 1 }
  if mig && keyHeld s p oport m then retCredits (evSpn (incSat s (aSpn p 0x50) 1) p 17 1) p pl m1 (taintFlits m1).length
  else if m.cls = 1 then updSpan s p fun q => { q with staging := q.staging ++ [(m1, fp)] }
  else spanInject (recordKey s p m) p pl m1

/-- One valid slot of a delivered link flit enters its buffer (12 R258). -/
def slotIn (s : State) (p : Nat) (v : BitVec 640) (sd : Nat) (mig : Bool) (oport : Nat) : State :=
  if sd / 32 = 0 then s
  else
    let vc := sd / 16 % 2
    let pool := sd / 2 % 8
    let pl : Plane := if vc = 1 then .rsp else .req
    let key := 16 * vc + pool
    let f := flitOfSlot v
    let l := mgetD (getSpan s p).pools key [] ++ [f]
    let s1 := evSpn s p (12 + vc) 1
    if f.last then
      let hdr := (l.head?.getD f).msg
      let m := { hdr with data := if f.idx = 0 then [] else (l.filter fun g => g.idx != 0).map (·.line)
                          taint := l.any fun g => g.idx != 0 && g.poison }
      let s2 := updSpan s1 p fun q => { q with pools := mdel q.pools key }
      (m :: f.packed).foldl (fun t g => spanMsgIn t p pl g (sd % 2 == 1) mig oport) s2
    else updSpan s1 p fun q => { q with pools := mset q.pools key l }

/-- A data link flit is delivered in order (12 R259, R266): its slots, then its credit return. -/
def deliverLink (s : State) (p : Nat) (raw : BitVec 2048) : State :=
  let t := linkTrl raw
  let s1 := [0, 1, 2].foldl (fun u i => slotIn u p (linkSlot raw i) (linkSd t i) (bitOf t 13) (fld t 12 10)) s
  let s2 := if bitOf t 26 ∧ 1 ≤ fld t 24 22 ∧ fld t 24 22 ≤ 5 then
      updSpan s1 p fun q => { q with credits := mupd q.credits (5 * fld t 25 25 + fld t 24 22 - 1) 0 (· + fld t 21 14) }
    else s1
  evSpn s2 p 3 1

/-- Link flits are delivered while NEXT is in the reorder buffer (12 R266). -/
def drainRob (s : State) (p fuel : Nat) : State :=
  match fuel with
  | 0 => s
  | fuel + 1 =>
    let q := getSpan s p
    match mget q.rob q.rxNext.toNat with
    | some raw =>
      drainRob (deliverLink (updSpan s p fun x => { x with
        rob := mdel x.rob q.rxNext.toNat, rxNext := q.rxNext + 1, naks := x.naks.filter fun k => k != q.rxNext
        nakSent := mdel x.nakSent q.rxNext.toNat }) p raw) p fuel
    | none => s

/-- A data link flit received (12 R266). -/
def dataIn (s : State) (p : Nat) (raw : BitVec 2048) : State :=
  let q := getSpan s p
  let seq : BitVec 16 := BitVec.ofNat 16 (fld (linkTrl raw) 95 80)
  let d := subMod 16 seq.toNat q.rxNext.toNat
  if 32768 ≤ d ∨ (mget q.rob seq.toNat).isSome then incSat s (aSpn p 0x50) 1
  else if 1024 ≤ d then setFlag s (aSpn p 0x18) 9
  else
    let missing := ((List.range d).map fun j => BitVec.ofNat 16 (q.rxNext.toNat + j)).filter fun k =>
      (mget q.rob k.toNat).isNone && (mget q.nakSent k.toNat).isNone && !q.naks.contains k
    drainRob (updSpan s p fun x => { x with rob := mset x.rob seq.toNat raw, naks := x.naks ++ missing }) p 1024

/-- TSYNC_RSP at the child (12 R278): offset x in 1/256 ns, rejected above 100 us, else into the slew and the span term. -/
def tsyncRsp (s : State) (p t1 t2 t3 : Nat) : State :=
  let t4 := nowNs s
  let asym := signedOf 8 (fld (spnCfg s p) 52 45)
  let x : Int := 128 * (((t4 : Int) - t3) - ((t2 : Int) - t1)) + 32 * asym
  let s1 := updSpan s p fun q => { q with t1 := none }
  if 25600000 < x ∨ x < -25600000 then evSpn (setFlag s1 (aSpn p 0x18) 7) p 22 1
  else
    let q := getSpan s1 p
    let s2 := updSpan s1 p fun q => { q with xPrev := x, lastTsync := frameOf s }
    let s3 := { s2 with time := { s2.time with
      slewRem := s2.time.slewRem - x * 16777216
      spanTerm := s2.time.spanTerm - 256 * (x - q.xPrev) } }
    evSpn (wr s3 (aSpn p 0x60) (BitVec.ofNat 64 (unsignedOf 32 x))) p 21 1

/-- INIT received (12 R259, R276): the link starts afresh; not at a port whose attachment lies in a sleeping column (16 Table
16.11). -/
def initIn (s : State) (p : Nat) (w : BitVec 640) : State :=
  if (getSpan s p).lstate ≠ 1 ∨ mgetD s.pwr.cols (rtrCol s (spanAtt s p).1) 0 ≠ 0 then s
  else
    let cap : BitVec 2 := BitVec.ofNat 2 (fld w 31 24)
    let width := narrower (getSpan s p).widthCap cap
    updSpan s p fun q => { q with
      lstate := 2, peerNode := BitVec.ofNat 12 (fld w 23 8), peerCap := cap, width := width, trainWidth := width
      txNext := 0, rxNext := 0, replay := [], rob := [], naks := [], nakSent := [], pools := [], keys := [], retCredit := []
      credits := (List.range 10).map fun k => (k, poolSize k)
      flushing := false, upAt := some (frameIn s 1)
      resumeAt := if width.toNat ≤ spnMinw s p then some (frameIn s 2) else none }

/-- RESUME received (12 R268, R274): link flits before the peer's NEXT are freed, the others sent again in order; from the end of the
grace period on the flush applies (Table 12.10). -/
def resumeIn (s : State) (p : Nat) (next : BitVec 16) : State :=
  let q := getSpan s p
  if q.lstate ≠ 3 ∧ ¬(q.lstate = 4 ∧ nowNs s < q.graceEnd) then s
  else
    let s1 := ackIn s p next
    graceFailover (updSpan s1 p fun x => { x with
      lstate := 2, up := true, replay := x.replay.map fun h => { h with due := !seqBefore h.seq next }
      resumeAt := if q.width.toNat ≤ spnMinw s p then some (frameIn s 2) else none })

/-- WIDTH_PROP received (12 R270): answered with this end's cap, or, if this end proposed, a retrain at the narrower begins. -/
def widthPropIn (s : State) (p : Nat) (w : BitVec 2) : State :=
  let q := getSpan s p
  let t := narrower w q.widthCap
  if q.lstate = 3 then updSpan s p fun x => { x with peerCap := w, trainWidth := narrower x.trainWidth w }
  else if q.propSent then retrainStart (updSpan s p fun x => { x with peerCap := w, propSent := false }) p t
  else updSpan s p fun x => { x with peerCap := w, trainWidth := t, ctlDue := x.ctlDue ++ [propWord q.widthCap] }

/-- A control link flit's word acts (12 Table 12.5). -/
def ctlIn (s : State) (p : Nat) (w : BitVec 640) : State :=
  match fld w 7 0 with
  | 1 => initIn s p w
  | 2 => resumeIn s p (BitVec.ofNat 16 (fld w 23 8))
  | 3 => updSpan s p fun q => { q with
      ctlDue := q.ctlDue ++ [ctlWord 4 (fld w 127 64 <<< 56 ||| (nowNs s % 2 ^ 64) <<< 120)] }
  | 4 => if (getSpan s p).t1 = some (fld w 127 64) then tsyncRsp s p (fld w 127 64) (fld w 191 128) (fld w 255 192) else s
  | 5 => widthPropIn s p (BitVec.ofNat 2 (fld w 15 8))
  | 6 => let l := (getSpan s p).lstate
    if l = 1 ∨ l = 2 ∨ l = 3 then spanDown s p 4 else s
  | _ => s

/-- LINK_FLIT_RECEIVE: a link flit crosses sp_rx (12 R255, R266). -/
def execLinkFlitReceive (p : SpId) (raw : BitVec 2048) (bad : Bool) (s : State) : Host.Outcome State Fault Refusal :=
  answer s (
    let k := p.toNat
    let t := linkTrl raw
    if !isSpan s k || (getSpan s k).lstate == 0 then s
    else if bad || fld t 127 96 != (linkCrc raw).toNat then evSpn (incSat (setFlag s (aSpn k 0x18) 0) (aSpn k 0x30) 1) k 4 1
    else
      let live := (getSpan s k).lstate == 2 || (getSpan s k).lstate == 3
      let s1 := if live then ackIn s k (BitVec.ofNat 16 (fld t 79 64)) else s
      let s2 := if live && bitOf t 47 then
          replayAct (evSpn (updSpan s1 k fun q => { q with lastNakNs := nowNs s }) k 6 1) k (BitVec.ofNat 16 (fld t 63 48))
        else s1
      match fld t 46 45 with
      | 2 => ctlIn s2 k (linkSlot raw 0)
      | 0 => if live then dataIn s2 k raw else s2
      | _ => s2)

/-! Piste staging at the receiving port (12 R264). -/

/-- The source entry of a span port for a flow, active or pending release. -/
def findSpnSrc (s : State) (p : Nat) (flow : Nat) : Option Nat :=
  (List.range 128).find? fun e => seFlow (spnEnt s p e) == flow && (seState (spnEnt s p e) == 2 || seState (spnEnt s p e) == 3)

/-- The first message complete in the G staging is charged to frame c + 1 and laid (12 R264); late when no block remains. -/
def spanStage (s : State) (p : Nat) (m : Msg) (fp : Bool) : State :=
  let cur := frameOf s
  let c := if cur % 2 = fp.toNat then cur else cur + 2 ^ 48 - 1
  match findSpnSrc s p m.flow.toNat with
  | none => setFlag s (aSpn p 0x18) 4
  | some e =>
    let v := spnEnt s p e
    let q := getSpan s p
    let f := (c + 1) % 2 ^ 48
    let len := 1 + m.data.length
    let ch := chargeOf q.pst e f
    let put (slot : Option Nat) (g : Charge) (t : State) : State := updSpan t p fun x => { x with
      pst := { setCharge x.pst e g with
        staged := x.pst.staged ++ [{ ent := e, frame := f, slot := slot, laidIn := cur, msg := { m with charged := some f } }] } }
    let g := { ch with lines := ch.lines + m.data.length, hdrs := ch.hdrs + 1 }
    if f = cur then
      match layAt (seLaunch v) (slotsNow s) ch.next (posOf s * 1000) len with
      | some k => put (some k) { g with next := k + len } s
      | none => put none g (evSpn (incSat (setFlag s (aSpn p 0x18) 5) (aSpn p 0x68) 1) p 15 1)
    else put none g s

/-- SPAN_PISTE_STAGE: a piste message is complete in the G staging and is charged and laid (12 R264); with none to charge, the
first laid message whose slot has come is launched into the router (06 R131; log 20). -/
def execSpanPisteStage (p : SpId) (s : State) : Host.Outcome State Fault Refusal :=
  answer s (
    let k := p.toNat
    let q := getSpan s k
    if !isSpan s k then s
    else
      match q.staging with
      | (m, fp) :: rest => spanStage (updSpan s k fun x => { x with staging := rest }) k m fp
      | [] =>
        match q.pst.staged.find? fun g => slotDue s (spnEnt s k) g with
        | none => s
        | some g =>
          let pl := sePlane (spnEnt s k g.ent)
          let a := spanAtt s k
          let s1 := updSpan s k fun x => { x with pst := { x.pst with staged := (takeFirst x.pst.staged fun h => h == g).2 } }
          updPlane (spanInject (recordKey s1 k g.msg) k pl g.msg) pl a.1 fun r => { r with schn := mset r.schn a.2 true })

/-! The time exchange (12 R278). -/

/-- The span port this instance takes its time through: TIM_SRC.SPAN_PORT, or its lowest parallel link while it is down. -/
def timePort (s : State) : Option Nat :=
  let src := rdF s 0x10060 8 0
  if src / 256 = 1 ∨ !s.img.loaded then none
  else if (getSpan s (src % 16)).up then some (src % 16) else parallelOf s (src % 16)

/-- TSYNC_SEND: every 16 frames, at the gate tick, the child port sends TSYNC_REQ (12 R278). -/
def execTsyncSend (p : SpId) (s : State) : Host.Outcome State Fault Refusal :=
  answer s (
    if timePort s = some p.toNat ∧ frameOf s % 16 = 0 ∧ atTick s ∧ (getSpan s p.toNat).lstate = 2 then
      updSpan s p.toNat fun q => { q with ctlDue := q.ctlDue ++ [ctlWord 3 0], t1 := none }
    else s)

/-- TSYNC_LOST: no exchange has been accepted for 1,024 frames, at the time port or at a parallel link in its place (12 R278): the span
term holds. -/
def execTsyncLost (p : SpId) (s : State) : Host.Outcome State Fault Refusal :=
  answer s (
    let k := p.toNat
    if isSpan s k && bitOf (spnCfg s k) 8 && rdF s 0x10060 8 8 == 0 &&
        ((List.range 8).all fun j => !isSpan s j || spnPeer s j != spnPeer s k || 1024 ≤ subMod 48 (frameOf s) (getSpan s j).lastTsync) &&
        !bitOf (rd s (aSpn k 0x18)) 8 then
      raiseGFree (setFlag s (aSpn k 0x18) 8) (128 + k) 0x124 1
    else s)

end Sys2Proof.Machine
end

