-- ==== Sys2Proof/Machine/Time.lean ====
section
/-! DEFINITION. The time base (02): a cycle of the timing clock, step, slew and lock, holdover, PPS discipline and the time
outputs. The gate tick itself is in GateTick. -/

namespace Sys2Proof.Machine

/-- The limit of a rate correction, 500 ppm in 2^-32 ns (02 R20). -/
def rateMax : Int := 2147483

/-- TIM_TRIM in force, clamped (02 Table 02.2). -/
def trimOf (s : State) : Int := clampInt (-rateMax) rateMax (signedOf 32 (rdF s (aTim 0x20) 31 0))

/-- TIM_SLEW_RATE in ppm: 0 acts as 1, values above 200 as 200 (02 Table 02.2). -/
def slewPpm (s : State) : Nat := min 200 (max 1 (rdF s (aTim 0x30) 39 32))

/-- S_MAX in 2^-32 ns per cycle (02 R20). -/
def slewMax (s : State) : Nat := slewPpm s * 4294967296 / 1000000

/-- The instance takes its time from a span link: an image is loaded and names another master (02 R35). -/
def isChild (s : State) : Bool := s.img.loaded && rdF s (aTim 0x60) 8 8 == 0

/-- The PPS input disciplines the time base: TIM_PPS_EN in an instance that is not a child (02 R32, R35). -/
def ppsOn (s : State) : Bool := bitOf (rd s (aTim 0)) 1 && !isChild s

/-- The rate term of the discipline: the PPS term, or a child's span term (02 R20, 12 R278). -/
def ppsTermOf (s : State) : Int := if isChild s then s.time.spanTerm else s.time.ppsTerm

/-- The slew term of this cycle (02 R20). -/
def slewTerm (s : State) : Int := clampInt (-(slewMax s : Int)) (slewMax s) s.time.slewRem

/-- The rate correction before the clamp. -/
def rateRaw (s : State) : Int := trimOf s + slewTerm s + ppsTermOf s

/-- The rate correction of this cycle (02 R20). -/
def rateNow (s : State) : Int := clampInt (-rateMax) rateMax (rateRaw s)

/-- What remains of the slew after a cycle, stopping at 0 (02 R20). -/
def slewLeft (s : State) : Int :=
  let r := s.time.slewRem
  let d := r - (rateNow s - trimOf s - ppsTermOf s)
  if (0 ≤ r ∧ d < 0) ∨ (r ≤ 0 ∧ 0 < d) then 0 else d

/-- The whole second that the time lies in, for tb_pps_out (02 R34). -/
def secondOf (t : BitVec 96) : Nat := (t.toNat >>> 32) / 1000000000

/-- tb_now of NI n (03 R56): the NI's copy of the time base while tb_valid is 1. -/
def tbNow (s : State) (n : Nat) : Word :=
  if (getNi s n).port.tbValid then BitVec.ofNat 64 (nowNs s) else (Config.tbOpen n s.free).extractLsb' 0 64

/-- tb_gate of NI n (03 R56): 1 in the first cycle of a frame while tb_valid is 1. -/
def tbGate (s : State) (n : Nat) : Bool :=
  if (getNi s n).port.tbValid then s.time.gate else (Config.tbOpen n s.free).getLsbD 64

/-- One cycle of the timing clock (02 R20): the count, the slew, CLAMPED where the correction before the clamp reaches a bound (log
30), and what the count crosses. The wrap of ns[9:0] queues GATE_TICK, a whole second PPS_OUT_RISE, and the ends of the two pulses their
falls (log 6). A pulse that is high when TIM_STEP moves the time falls by the stepped TIM_NOW less its rise stamp (DESIGN CHOICE,
log 36: 02 R34 does not say how long such a pulse is). -/
def timeCycle (s : State) : State :=
  let t := s.time
  let n : BitVec 96 := t.t + BitVec.ofNat 96 (unsignedOf 96 (4294967296 + rateNow s))
  let ns := n.toNat >>> 32
  let tick := n.toNat >>> 42 != t.t.toNat >>> 42
  let pps := secondOf n != secondOf t.t
  let s1 := { s with time := { t with
    t := n, slewRem := slewLeft s, gate := false, tickDue := t.tickDue || tick, ppsDue := t.ppsDue || pps } }
  let s2 := if rateRaw s ≤ -rateMax ∨ rateMax ≤ rateRaw s then setFlag s1 (aTim 0x40) 1 else s1
  { s2 with
    pwr := { s2.pwr with vchg := false }
    pending := s2.pending ++ (if tick then [.gateTick []] else []) ++ (if pps then [.ppsOutRise] else []) ++
      (if t.tickOut && decide (8 ≤ subMod 64 ns t.tickRise) then [.tickOutFall] else []) ++
      (if t.ppsOut && decide (100000 ≤ subMod 64 ns t.ppsRise) then [.ppsOutFall] else []) }

/-- TICK_OUT_FALL: tb_tick_out falls 8 ns after its rise (02 R34). -/
def execTickOutFall (s : State) : Host.Outcome State Fault Refusal :=
  answer s (if s.time.tickOut && decide (8 ≤ subMod 64 (nowNs s) s.time.tickRise) then { s with time := { s.time with tickOut := false } }
    else s)

/-- PPS_OUT_RISE: tb_pps_out rises when TIM_NOW crosses a whole second by counting (02 R34). -/
def execPpsOutRise (s : State) : Host.Outcome State Fault Refusal :=
  answer s (if s.time.ppsDue then { s with time := { s.time with ppsOut := true, ppsRise := nowNs s, ppsDue := false } } else s)

/-- PPS_OUT_FALL: tb_pps_out falls 100 us after its rise (02 R34). -/
def execPpsOutFall (s : State) : Host.Outcome State Fault Refusal :=
  answer s (if s.time.ppsOut && decide (100000 ≤ subMod 64 (nowNs s) s.time.ppsRise) then { s with time := { s.time with ppsOut := false } }
    else s)

/-- LOCKED (02 R24). -/
def timLocked (s : State) : Bool := bitOf (rd s (aTim 0x40)) 6

/-- A write of TIM_STEP (02 R23): loads TIM_NOW and clears the fraction, or is refused once LOCKED. The 2 s of R33 are counted
across the step. -/
def timStep (s : State) (v : Word) : State :=
  if timLocked s then setFlag s (aTim 0x40) 4
  else { s with time := { s.time with
    t := BitVec.ofNat 96 (v.toNat <<< 32), ppsAccepted := s.time.ppsAccepted + ((v.toNat : Int) - nowNs s) } }

/-- TIM_STEP: the register is written. -/
def execTimStep (v : Word) (s : State) : Host.Outcome State Fault Refusal := answer s (timStep s v)

/-- A write of 1 to TIM_LOCK (02 R24). -/
def timLock (s : State) : State := setFlag (setFlag s (aTim 0x40) 6) (aTim 0x38) 0

/-- TIM_LOCK: 1 is written. -/
def execTimLock (s : State) : Host.Outcome State Fault Refusal := answer s (timLock s)

/-- A write of TIM_SLEW (02 R25): replaces the remaining offset, or is refused while PPS or a span link disciplines. -/
def timSlew (s : State) (v : BitVec 32) : State :=
  if bitOf (rd s (aTim 0)) 1 || isChild s then setFlag s (aTim 0x40) 5
  else { s with time := { s.time with slewRem := signedOf 32 v.toNat * 4294967296 } }

/-- TIM_SLEW: the register is written. -/
def execTimSlew (v : BitVec 32) (s : State) : Host.Outcome State Fault Refusal := answer s (timSlew s v)

/-- TIM_SLEW as it reads (02 R25): slew_rem / 2^32 rounded toward 0. -/
def slewRead (s : State) : Nat := unsignedOf 32 (s.time.slewRem.tdiv 4294967296)

/-- REFERENCE_LOSS: no edge of the reference for 100 ns (02 R30). In holdover it restarts the test of R31 (R39). -/
def execReferenceLoss (s : State) : Host.Outcome State Fault Refusal :=
  answer s (
    if s.time.hold then { s with time := { s.time with returnDue := false } }
    else
      let s1 := setFlag (setFlag { s with time := { s.time with hold := true, returnDue := false } } (aTim 0) 0) (aTim 0x40) 0
      let c := (rdF s1 (aTim 0x58) 31 0 + 1) % 2 ^ 32
      raiseG (wrF s1 (aTim 0x58) 31 0 c) 240 0x020 1 c)

/-- REFERENCE_STABLE: the reference has toggled within its window for 10 us (02 R31): the return falls at the next gate
tick. -/
def execReferenceStable (s : State) : Host.Outcome State Fault Refusal :=
  answer s (if s.time.hold then { s with time := { s.time with returnDue := true } } else s)

/-- At a gate tick the timing clock returns to a stable reference (02 R31). -/
def holdExit (s : State) : State :=
  if s.time.hold && s.time.returnDue then
    wrF { s with time := { s.time with hold := false, returnDue := false } } (aTim 0) 0 0 0
  else s

/-- The offset of a stamp from the nearest whole second (02 R32). An edge exactly half a second from both counts as late,
+500,000,000 (DESIGN CHOICE, log 36: R32 leaves the tie open). -/
def ppsError (ns : Nat) : Int :=
  let r := ns % 1000000000
  if r ≤ 500000000 then (r : Int) else (r : Int) - 1000000000

/-- The rate step of R32: round(d x 4.294967296 / 4), which is d x 2^21 / 5^9. -/
def ppsStep (d : Int) : Int := (2 * d * 2097152 + 1953125) / 3906250

/-- An accepted PPS edge (02 R32): into the remaining slew and the PPS term. -/
def ppsAccept (s : State) (e : Int) : State :=
  let t := s.time
  let s1 := { s with time := { t with
    slewRem := t.slewRem - e * 4294967296, ppsTerm := t.ppsTerm - ppsStep (e - t.ePrev), ePrev := e, ppsAccepted := nowNs s } }
  wrF s1 (aTim 0x50) 63 32 (unsignedOf 32 s1.time.ppsTerm)

/-- PPS_EDGE: a rising edge of tb_pps_in is stamped, and disciplines the time base when PPS is in use (02 R32). -/
def execPpsEdge (s : State) : Host.Outcome State Fault Refusal :=
  answer s (
    let s1 := wr s (aTim 0x48) (BitVec.ofNat 64 (nowNs s))
    if ppsOn s = false then s1
    else
      let e := ppsError (nowNs s)
      let s2 := wrF s1 (aTim 0x50) 31 0 (unsignedOf 32 e)
      if 100000 < e ∨ e < -100000 then setFlag s2 (aTim 0x40) 2 else ppsAccept s2 e)

/-- The 2 s of R33 start anew when TIM_PPS_EN is written 1. -/
def ppsRestart (old s : State) : State :=
  if bitOf (rd s (aTim 0)) 1 && !bitOf (rd old (aTim 0)) 1 then { s with time := { s.time with ppsAccepted := nowNs s } } else s

/-- PPS_LOST: no accepted edge for 2 s with PPS in use (02 R33); the PPS term holds. -/
def execPpsLost (s : State) : Host.Outcome State Fault Refusal :=
  answer s (if ppsOn s && decide ((2000000000 : Int) ≤ nowNs s - s.time.ppsAccepted) then setFlag s (aTim 0x40) 3 else s)

end Sys2Proof.Machine
end

