-- ==== Sys2Proof/Machine/Route.lean ====
section
/-! DEFINITION. Route sets and epochs (05 R98 to R111, 15 R325, R336, R337), and paths along a route set (06 R137). -/

namespace Sys2Proof.Machine

/-- What an unlisted word of the route-set store holds (05 Table 05.14, 15 R325): 0xF000 entries, and no instance entry. -/
def routeReset (a : Nat) : Word := if a % 0x400 < 0x200 ∧ a % 0x100 < 144 then 0xF000F000F000F000#64 else 0

/-- The word of the route-set store at an 8-byte-aligned address of its space (15 R325). -/
def storeWord (s : State) (a : Nat) : Word := mgetD s.img.route a (routeReset a)

/-- A 16-bit entry of a word table. -/
def half (w : Word) (a : Nat) : Nat := fld w (8 * (a % 8) + 15) (8 * (a % 8))

/-- Entry of target t at router x on a plane in route set rs. -/
def setTbl (s : State) (rs x : Nat) (p : Plane) (t : Nat) : Nat :=
  let a := 0x10000 * rs + 0x400 * x + 0x100 * plNo p + 2 * t
  half (storeWord s (a - a % 8)) a

/-- RTE_INST entry i at router x in route set rs. -/
def setInst (s : State) (rs x i : Nat) : Nat :=
  let a := 0x10000 * rs + 0x400 * x + 0x200 + 2 * i
  half (storeWord s (a - a % 8)) a

/-- The image holds route set rs: some word of it is listed. -/
def hasSet (s : State) (rs : Nat) : Bool := s.img.route.any fun p => p.1 / 0x10000 == rs

/-- The route set in the epoch slot e, as router 0 holds it (05 Table 05.12). -/
def slotSet (s : State) (e : Nat) : Nat := rdF s (aRtr 0 0x18) (8 * e + 7) (8 * e)

/-- The route set in force. -/
def setInForce (s : State) : Nat := slotSet s (rtrEp s 0)

/-- OLD_LIVE in any router. -/
def anyOldLive (s : State) : Bool := (List.range (nRtrs s)).any fun x => oldLive s x

/-- A register word of a router block that belongs to epoch slot e (05 Table 05.10). -/
def inSlot (e a : Nat) : Bool :=
  let off := (a - 0x100000) % 0x1000
  decide (0x100000 ≤ a) && decide (a < 0x140000) &&
    ((decide (0x400 ≤ off) && decide (off < 0x800) && off / 0x100 % 2 == e) ||
     (decide (0x800 ≤ off) && decide (off < 0x840) && (off - 0x800) / 0x20 == e))

/-- Register address, in slot e, of a word of the route-set store. -/
def slotAddr (e a : Nat) : Nat :=
  let x := a % 0x10000 / 0x400
  let off := a % 0x400
  if off < 0x200 then aRtr x (0x400 + 0x200 * (off / 0x100) + 0x100 * e + off % 0x100) else aRtr x (0x800 + 0x20 * e + (off - 0x200))

/-- Route set rs is loaded into epoch slot e of every router (05 R110). -/
def loadSlot (s : State) (rs e : Nat) : State :=
  let s1 := { s with regs := s.regs.filter fun p => !inSlot e p.1 }
  let l := s.img.route.filter fun p => p.1 / 0x10000 == rs && decide (p.1 % 0x10000 / 0x400 < nRtrs s)
  let s2 := l.foldl (fun t p => wr t (slotAddr e p.1) p.2) s1
  (List.range (nRtrs s)).foldl (fun t x => wrF t (aRtr x 0x18) (8 * e + 7) (8 * e) rs) s2

/-- The other epoch's group slot takes the groups in force, before new ones are written (10 R228; log 11). -/
def keepGroups (s : State) : State :=
  let s1 := { s with regs := s.regs.filter fun p => !(decide (0x10000A000 ≤ p.1) && decide (p.1 < 0x10000F000)) }
  (s.regs.filter fun p => decide (0xA000 ≤ p.1) && decide (p.1 < 0xF000)).foldl (fun t p => wr t (0x100000000 + p.1) p.2) s1

/-- Router x counts a switch of route sets, where its clock runs (20 Table 20.2, event 29; R428). -/
def evSwitch (s : State) (x : Nat) : State :=
  if (getRtr s x).failed || mgetD s.pwr.cols (x % nCols s) 0 != 0 then s else evRtr s x 29 1

/-- A switch to route set rs at a gate tick (05 R110): into the slot not in use, CUR_EP flips, the old slot stays live for
`hold` frames (15 R337, 16 R355, 18 R396). -/
def switchSet (s : State) (rs hold : Nat) : State :=
  let e := 1 - rtrEp s 0
  let s1 := loadSlot (keepGroups s) rs e
  let s2 := (List.range (nRtrs s)).foldl (fun t x => evSwitch (wrF (wrF t (aRtr x 0x18) 16 16 e) (aRtr x 0x18) 17 17 1) x) s1
  let f := (frameOf s + hold) % 2 ^ 48
  wr { s2 with img := { s2.img with release := some f } } (aImg 0x40) (BitVec.ofNat 64 (2 ^ 48 ||| f))

/-- The old epoch's slot is released (15 R337): OLD_LIVE clears in every router, IMG_EPOCH_FREE. -/
def releaseOld (s : State) : State :=
  let s1 := (List.range (nRtrs s)).foldl (fun t x => wrF t (aRtr x 0x18) 17 17 0) s
  let s2 := wr { s1 with img := { s1.img with release := none } } (aImg 0x40) 0
  raiseGFree (setFlag s2 (aImg 8) 2) 242 0x152 0

/-- EPOCH_RELEASE: tick T + EPOCH_HOLD has come (15 R337). -/
def execEpochRelease (s : State) : Host.Outcome State Fault Refusal :=
  answer s (match s.img.release with
    | some f => if frameGe (frameOf s) f then releaseOld s else s
    | none => s)

/-! Paths. -/

/-- A walk along escape ports from router x to router t: (router, output) of each link. -/
def walk (s : State) (esc : Nat → Nat) (x t fuel : Nat) : Option (List (Nat × Nat)) :=
  if x = t then some []
  else match fuel with
    | 0 => none
    | f + 1 => if 6 ≤ esc x then none
      else match neighbour s x (esc x) with
        | some (y, _) => (walk s esc y t f).map fun l => (x, esc x) :: l
        | none => none

/-- The escape route by a table of target t's entries from router x to router y and out of it on a port. -/
def pathVia (s : State) (esc : Nat → Nat) (x y port : Nat) : Option (List (Nat × Nat)) :=
  (walk s esc x y 64).map fun l => l ++ [(y, port)]

/-- A path given as output ports from router x (13 Table 13.3); none when it leaves the mesh early. -/
def pathOf (s : State) (x : Nat) (ports : List Nat) : Option (List (Nat × Nat)) :=
  match ports with
  | [] => none
  | [q] => some [(x, q)]
  | q :: r => match neighbour s x q with
    | some (y, _) => (pathOf s y r).map fun l => (x, q) :: l
    | none => none

/-- The lag of each link of a path (06 Table 06.3): 1 on the first output, one more per router, one more behind an express
link. -/
def lagsOf (l : List (Nat × Nat)) (lag : Nat) : List Nat :=
  match l with
  | [] => []
  | (_, q) :: r => lag :: lagsOf r (lag + (if q = 4 ∨ q = 5 then 2 else 1))

/-- The input port by which each router of a path is entered: `inp` at the first. -/
def inputsOf (s : State) (l : List (Nat × Nat)) (inp : Nat) : List Nat :=
  match l with
  | [] => []
  | (x, q) :: r => inp :: inputsOf s r (match neighbour s x q with | some (_, i) => i | none => 0)

/-- The output of router x is enabled in route set rs (06 R143): the port is enabled and some entry names it; a local or
span port needs no entry. -/
def linkInSet (s : State) (rs : Nat) (p : Plane) (x q : Nat) : Bool :=
  bitOf (rd s (aRtr x 0x20)) (q + 16 * plNo p) &&
    ((neighbour s x q).isNone || (List.range 72).any fun t =>
      setTbl s rs x p t / 4096 == q || (setTbl s rs x p t % 1024).testBit q)

/-- Every link of the active and pending flows, active or standby, is enabled in route set rs (06 R143). -/
def flowsRoutable (s : State) (rs : Nat) : Bool :=
  s.eng.flows.all fun f => f.2.path.all (fun l => linkInSet s rs f.2.plane l.1 l.2) &&
    f.2.standby.all fun b => b.2.all fun l => linkInSet s rs f.2.plane l.1 l.2

end Sys2Proof.Machine
end

