-- ==== Sys2Proof/Machine/Admit.lean ====
section
/-! DEFINITION. Admission, commit and release of piste flows (06 R114 to R120, R133, R137 to R140; 12 R263; 15 R339). -/

namespace Sys2Proof.Machine

/-- A request of R137. `launch` and `id` are given by an image flow (15 R339); `second`: the segment belongs to the second chain of a
pair, whose first has the flow `pair` here (06 R120). -/
structure AdmReq where
  src : Nat := 0
  dst : BitVec 12 := 0
  plane : Plane := .req
  split : Bool := false
  nosby : Bool := false
  floor : Nat := 0
  allow : Nat := 0
  hdrs : Nat := 0
  maxlen : Nat := 0
  trk : Nat := 0
  tick : Nat := 0
  path : Option (List Nat) := none
  launch : Option Nat := none
  id : Option Nat := none
  second : Bool := false
  pair : Option Nat := none
  deriving DecidableEq, Repr

/-- The request's parameters are in their ranges (06 R140 BAD_PARAM). -/
def AdmReq.ok (r : AdmReq) : Bool :=
  decide (1 ≤ r.hdrs) && decide (r.hdrs ≤ 1024) && decide (r.allow ≤ 1024) && decide (r.maxlen ≤ 64) && decide (r.maxlen ≤ r.allow) &&
    decide (r.trk ≤ 511)

/-- The demand d of a flow (06 R121). -/
def demand (allow hdrs : Nat) : Nat := allow + hdrs

/-! Links, lags and blocks. -/

/-- The links of a path with their lags (06 R114): the source attachment, named by the source and its router, at lag 0. -/
def linksOf' (src : Nat) (path : List (Nat × Nat)) : List ((Nat × Nat) × Nat) :=
  match path with
  | [] => []
  | (x, _) :: _ => ((1000 + src, x), 0) :: path.zip (lagsOf path 1)

/-- The path of a flow in a case (06 R117): its active path in the base case and where it avoids the router, else its standby
path for that router. -/
def pathInCase (f : Flow) (c : Option Nat) : Option (List (Nat × Nat)) :=
  match c with
  | none => some f.path
  | some x => if f.path.any fun l => l.1 == x then mget f.standby x else some f.path

/-- The blocks live on a link and plane in a case, among the flows given: group, lag and floor. -/
def blocksOn (fl : Map Flow) (c : Option Nat) (p : Plane) (link : Nat × Nat) : List (Nat × Nat × Nat) :=
  (fl.map fun q =>
    if q.2.plane = p then
      match pathInCase q.2 c with
      | some path => match (linksOf' (nodeLoc q.2.srcNode) path).find? fun l => l.1 == link with
        | some l => q.2.launch.map fun g => (g, l.2, q.2.flr)
        | none => []
      | none => []
    else []).flatten

/-- Two blocks overlap at a level (06 R116); times in 1/6 ns. -/
def overlapAt (lvl g1 l1 g2 l2 : Nat) : Bool :=
  (48 * ((g1 : Int) - g2) + ((l1 : Int) - l2) * fcSixths lvl).natAbs < 48

/-- Two blocks overlap at some level down to the faster of the two floors (06 R116). -/
def overlaps (g1 l1 f1 g2 l2 f2 : Nat) : Bool := (List.range (min f1 f2 + 1)).any fun lvl => overlapAt lvl g1 l1 g2 l2

/-- What lies on a link that a segment wants: the segment's lag there, the blocks it meets in some case in which it is live, and the
most that are live in one such case. -/
structure LinkLoad where
  lag : Nat := 0
  blocks : List (Nat × Nat × Nat) := []
  most : Nat := 0
  deriving DecidableEq, Repr

/-- Group g overlaps no live block on any link (06 R116). -/
def groupFits (ls : List LinkLoad) (flr g : Nat) : Bool :=
  ls.all fun l => l.blocks.all fun b => !overlaps g l.lag flr b.1 b.2.1 b.2.2

/-- A link has reached the ceiling of 64 live blocks with the flow's own (06 R117). -/
def linkFull (ls : List LinkLoad) (own : Nat) : Bool := ls.any fun l => 64 ≤ l.most + own

/-- Lengths of the runs of consecutive groups in a rising list (06 R122). -/
def runsOf (l : List Nat) (prev len : Nat) : List Nat :=
  match l with
  | [] => if len = 0 then [] else [len]
  | g :: r => if len ≠ 0 ∧ g = prev + 1 then runsOf r g (len + 1) else (if len = 0 then [] else [len]) ++ runsOf r g 1

/-- The sizing rule of 06 R122. -/
def sized (launch : List Nat) (flr maxlen d : Nat) : Bool :=
  decide ((d : Int) ≤ ((runsOf launch 0 0).map fun n => ((slotsAt flr * n : Nat) : Int) - maxlen).sum)

/-- first_fit of 06 R137 from group g on: the launch groups, and whether a full link excluded a group. -/
def firstFit (ls : List LinkLoad) (flr maxlen d : Nat) (g fuel : Nat) (acc : List Nat) (full : Bool) :
    Option (List Nat) × Bool :=
  match fuel with
  | 0 => (none, full)
  | f + 1 =>
    if groupFits ls flr g then
      if linkFull ls acc.length then firstFit ls flr maxlen d (g + 1) f acc true
      else if sized (acc ++ [g]) flr maxlen d then (some (acc ++ [g]), full)
      else firstFit ls flr maxlen d (g + 1) f (acc ++ [g]) full
    else firstFit ls flr maxlen d (g + 1) f acc full

/-- The links of a path with the blocks live there in the given cases. -/
def loadOn (fl : Map Flow) (cs : List (Option Nat)) (p : Plane) (src : Nat) (path : List (Nat × Nat)) : List LinkLoad :=
  (linksOf' src path).map fun l =>
    let bs := cs.map fun c => blocksOn fl c p l.1
    { lag := l.2, blocks := bs.flatten, most := bs.foldl (fun a b => max a b.length) 0 }

/-- The cases in which an active path is live (06 R117): the base case, and that of every router it avoids, of which only those with a
standby block of some flow differ from the base case. -/
def liveCases (fl : Map Flow) (path : List (Nat × Nat)) : List (Option Nat) :=
  none :: (((fl.map fun q => q.2.standby.map (·.1)).flatten.dedup.filter fun x => !path.any fun l => l.1 == x).map some)

/-- Given groups fit a path in the given cases (06 R137, "fits"). -/
def fitsIn (fl : Map Flow) (cs : List (Option Nat)) (p : Plane) (src : Nat) (path : List (Nat × Nat)) (launch : List Nat) (flr : Nat) : Bool :=
  let ls := loadOn fl cs p src path
  launch.all (fun g => groupFits ls flr g) && ls.all fun l => l.most + launch.length ≤ 64

/-- Entries of an output's standby table (06 R118): one for each standby block on it. -/
def standbyOn (fl : Map Flow) (p : Plane) (link : Nat × Nat) : Nat :=
  ((fl.filter fun q => q.2.plane = p).map fun q => q.2.launch.length * (q.2.standby.filter fun b => b.2.contains link).length).sum

/-- The standby blocks of a new flow find room in the 256 entries of every output's standby table (06 R118). -/
def standbyRoom (fl : Map Flow) (p : Plane) (launch : List Nat) (sb : List (Nat × List (Nat × Nat))) : Bool :=
  ((sb.map (·.2)).flatten.dedup).all fun l =>
    standbyOn fl p l + launch.length * (sb.filter fun b => b.2.contains l).length ≤ 256

/-! The guard (06 R133). -/

/-- The lag of a path's end attachment. -/
def endLag (path : List (Nat × Nat)) : Nat := (lagsOf path 1).getLastD 0

/-- e of 06 R133 in 1/6 ns. -/
def endTime (launch : List Nat) (path : List (Nat × Nat)) (lvl : Nat) : Nat :=
  48 * launch.getLastD 0 + 48 + endLag path * fcSixths lvl

/-- B of 06 R133: the demand of every flow that ends at an NI of this instance, one twin of each pair. -/
def endDemand (s : State) (fl : Map Flow) (n : Nat) : Nat :=
  ((fl.filter fun q => q.2.dst == nodeOf s n && (match q.2.twin with
      | some t => !(decide (t.toNat < q.1) && (mget fl t.toNat).isSome)
      | none => true)).map fun q => demand q.2.allow q.2.hdrs).sum

/-- The ep_clk period of NI n's port in ps as the image in force declares it (06 R133; 03 R42: 0.4 to 2.0 GHz). -/
def epClkImagePs (s : State) (n : Nat) : Nat := 500 + Config.epClkImage n (rd s (aImg 0x20)).toNat % 2001

/-- The guard at an NI end at every level to the floor (06 R133); times in ps. -/
def guardNi (s : State) (launch : List Nat) (path : List (Nat × Nat)) (flr n b : Nat) : Bool :=
  (List.range (flr + 1)).all fun lvl =>
    (endTime launch path lvl + fcSixths lvl) * 1000 + 6 * (4 + b) * epClkImagePs s n ≤ 6 * 1024000

/-- P_min of a port in ps (12 R263): the period at MINW. -/
def pMinPs (s : State) (p : Nat) : Nat := (if bitOf (spnCfg s p) 16 then 2560 else 1000) * 2 ^ spnMinw s p

/-- T_span in ps (12 R263). -/
def tSpanPs (s : State) (p : Nat) : Nat := 3000 * fld (spnCfg s p) 44 37 + (fld (spnCfg s p) 28 19 + 4) * pMinPs s p

/-- The guard at a span port end (06 R133), with the first launch group of the next segment. -/
def guardSpan (s : State) (launch : List Nat) (path : List (Nat × Nat)) (flr p gNext : Nat) : Bool :=
  (List.range (flr + 1)).all fun lvl =>
    endTime launch path lvl * 1000 + 6 * (tSpanPs s p + 16000) ≤ 6 * (1024000 + 8000 * gNext)

/-! Segments of this instance. -/

/-- Where a segment starts: its router and whether the alternate attachment is used. `avoid`: the router out of service. -/
def segStart (s : State) (src : Nat) (twin : Bool) (avoid : Option Nat) : Option (Nat × Bool) :=
  if src < 128 then
    let h := homeOf s src
    let usable (alt : Bool) := attUp h alt && avoid != some (attRtr h alt)
    let want := twin && usable true
    if want then some (attRtr h true, true)
    else if usable false then some (attRtr h false, false)
    else if usable true then some (attRtr h true, true)
    else none
  else if isSpan s (src - 128) then some ((spanAtt s (src - 128)).1, false)
  else none

/-- The span port by which a message to instance d leaves (05 Table 05.14). -/
def outSpan (s : State) (x d : Nat) (twin : Bool) : Option Nat :=
  let v := rteInst s x (rtrEp s 0) d
  if !v.testBit 15 then none
  else if twin then (if v.testBit 11 then some (v / 256 % 8) else none)
  else some (v / 4096 % 8)

/-- Where a segment ends: the target number of the route tables, its router and output port. -/
def segEnd (s : State) (x : Nat) (dst : BitVec 12) (twin : Bool) (avoid : Option Nat) : Option (Nat × Nat × Nat) :=
  if nodeInst dst = instNo s then
    let h := homeOf s (nodeLoc dst)
    if isNi s (nodeLoc dst) && attUp h false && avoid != some (attRtr h false) then some (attRtr h false, attRtr h false, attPort h false)
    else if isNi s (nodeLoc dst) && attUp h true && avoid != some (attRtr h true) then some (attRtr h true, attRtr h true, attPort h true)
    else none
  else (outSpan s x (nodeInst dst) twin).map fun p => (64 + p, (spanAtt s p).1, (spanAtt s p).2)

/-- The segment's path by the tables in force, or as the request gives it. -/
def segPath (s : State) (r : AdmReq) (twin : Bool) : Option (List (Nat × Nat) × Bool) :=
  match segStart s r.src twin none with
  | some (x, alt) =>
    match segEnd s x r.dst twin none with
    | some (t, y, port) =>
      match r.path, twin with
      | some ports, false => match pathOf s x ports with
        | some l => if l.getLast? == some (y, port) then some (l, alt) else none
        | none => none
      | _, _ => (pathVia s (fun z => rteTbl s z r.plane (rtrEp s 0) t / 4096) x y port).map fun l => (l, alt)
    | none => none
  | none => none

/-- The standby path for router z (06 R137): by route set 8 + z, from an attachment and to an attachment that do not reach z. -/
def standbyPath (s : State) (r : AdmReq) (twin : Bool) (z : Nat) : Option (List (Nat × Nat)) :=
  match segStart s r.src twin (some z) with
  | some (x, _) => match segEnd s x r.dst twin (some z) with
    | some (t, y, port) => pathVia s (fun w => setTbl s (8 + z) w r.plane t / 4096) x y port
    | none => none
  | none => none

/-- Router z carries the span attachment at which the segment starts or ends: the link goes down with it, and the chain's
twin carries the messages (06 R146), so that no standby path exists there. -/
def spanRouter (s : State) (r : AdmReq) (path : List (Nat × Nat)) (z : Nat) : Bool :=
  (decide (128 ≤ r.src) && (spanAtt s (r.src - 128)).1 == z) ||
    (match path.getLast? with | some l => l.1 == z && (spanAt s l.1 l.2).isSome | none => false)

/-- Column c is in service: ON, and no sleep entry of it is in progress (16 R353). -/
def colInService (s : State) (c : Nat) : Bool :=
  mgetD s.pwr.cols c 0 == 0 &&
    !(match s.pwr.cur with | some q => fld q.req 22 20 != 0 && fld q.req 22 20 != 4 && fld q.req 19 18 == 0 && fld q.req 6 0 == c | none => false)

/-- NI n is in service. -/
def niInService (s : State) (n : Nat) : Bool :=
  (getNi s n).region == 0 &&
    !(match s.pwr.cur with | some q => fld q.req 22 20 != 0 && fld q.req 22 20 != 4 && fld q.req 19 18 == 2 && fld q.req 6 0 == n | none => false)

/-- Every region a segment touches is in service (06 R140 REGION_OFF). -/
def segInService (s : State) (r : AdmReq) (path : List (Nat × Nat)) : Bool :=
  path.all (fun l => colInService s (rtrCol s l.1)) && (decide (128 ≤ r.src) || niInService s r.src) &&
    (nodeInst r.dst != instNo s || niInService s (nodeLoc r.dst))

/-- The demand that a request adds at its end: none, where the first of the pair is counted there already (06 R133). -/
def endAdds (fl : Map Flow) (r : AdmReq) : Nat :=
  if (r.pair.bind (mget fl ·)).isSome then 0 else demand r.allow r.hdrs

/-- The guard of a segment in one case; at a span end with the next segment's first group. -/
def segGuard (s : State) (fl : Map Flow) (r : AdmReq) (path : List (Nat × Nat)) (launch : List Nat) (gNext : Nat) : Bool :=
  if nodeInst r.dst = instNo s then
    guardNi s launch path r.floor (nodeLoc r.dst) (endDemand s fl (nodeLoc r.dst) + endAdds fl r)
  else match path.getLast?.bind fun l => spanAt s l.1 l.2 with
    | some p => guardSpan s launch path r.floor p gNext
    | none => false

/-- The flows that already end at the destination keep their guard with the new demand (06 R133). -/
def othersGuard (s : State) (fl : Map Flow) (r : AdmReq) : Bool :=
  nodeInst r.dst != instNo s ||
    fl.all fun q => q.2.dst != r.dst ||
      (q.2.path :: q.2.standby.map (·.2)).all fun path =>
        guardNi s q.2.launch path q.2.flr (nodeLoc r.dst) (endDemand s fl (nodeLoc r.dst) + endAdds fl r)

/-- A planned segment. -/
structure Seg where
  path : List (Nat × Nat) := []
  alt : Bool := false
  launch : List Nat := []
  standby : List (Nat × List (Nat × Nat)) := []
  deriving DecidableEq, Repr

/-- The standby paths of a segment, one for each of its routers (06 R137); none when one does not fit. -/
def planStandby (s : State) (fl : Map Flow) (r : AdmReq) (twin : Bool) (path : List (Nat × Nat)) (launch : List Nat) (gNext : Nat) :
    Option (List (Nat × List (Nat × Nat))) :=
  (path.map (·.1)).foldl (fun acc z => match acc with
    | none => none
    | some l =>
      if spanRouter s r path z then some l
      else match standbyPath s r twin z with
        | some sb => if fitsIn fl [some z] r.plane r.src sb launch r.floor && segGuard s fl r sb launch gNext then some (l ++ [(z, sb)])
            else none
        | none => none) (some [])

/-- One chain's segment here: a status of Table 06.4, or its plan. No route to the destination, a given path that does not end there and a
path that cannot be read are answered BAD_PARAM (DESIGN CHOICE, log 36: Table 06.4 lists no code for them). -/
def planSeg (s : State) (fl : Map Flow) (r : AdmReq) (twin : Bool) (gNext : Nat) : Except Nat Seg :=
  match segPath s r twin with
  | none => .error 1
  | some (path, alt) =>
    if !segInService s r path then .error 4
    else if 31 < endLag path then .error 5
    else
      let ls := loadOn fl (liveCases fl path) r.plane r.src path
      let fit : Option (List Nat) × Bool := match r.launch with
        | some g => (if fitsIn fl (liveCases fl path) r.plane r.src path (onesOf 128 g) r.floor &&
              sized (onesOf 128 g) r.floor r.maxlen (demand r.allow r.hdrs) then some (onesOf 128 g) else none, false)
        | none => firstFit ls r.floor r.maxlen (demand r.allow r.hdrs) 0 128 [] false
      match fit with
      | (none, full) => .error (if full then 6 else 7)
      | (some launch, _) =>
        if !segGuard s fl r path launch gNext then .error (if nodeInst r.dst = instNo s then 7 else 8)
        else if !othersGuard s fl r then .error 7
        else if r.nosby then .ok ⟨path, alt, launch, []⟩
        else match planStandby s fl r twin path launch gNext with
          | some sb => if standbyRoom fl r.plane launch sb then .ok ⟨path, alt, launch, sb⟩ else .error 9
          | none => .error 9

/-! Resources (06 R127, R128; 11 R234; 12 R263). -/

/-- The flows of a source. -/
def flowsFrom (s : State) (src : Nat) : List (Nat × Flow) := s.eng.flows.filter fun q => nodeLoc q.2.srcNode == src

/-- Staging suffices for `count` more segments at a source (06 R127), or a span port's limits (12 R263). -/
def stagingOk (s : State) (r : AdmReq) (segs : List Seg) : Bool :=
  let d := demand r.allow r.hdrs
  let src := 2 * ((flowsFrom s r.src).filter fun q => q.2.plane = r.plane || decide (128 ≤ r.src)).foldl (fun a q => a + demand q.2.allow q.2.hdrs) 0 +
    2 * d * segs.length ≤ 1024
  let ends := segs.all fun g => match g.path.getLast?.bind fun l => spanAt s l.1 l.2 with
    | some p => ((s.eng.flows.filter fun q => q.2.path.getLast? == g.path.getLast?).map fun q => demand q.2.allow q.2.hdrs).sum + d ≤
        fld (spnCfg s p) 28 19
    | none => true
  decide src && ends

/-- The tracker reserve suffices (11 R234): only an NI has one. -/
def trackerOk (s : State) (r : AdmReq) (count : Nat) : Bool :=
  decide (128 ≤ r.src) || decide (((flowsFrom s r.src).map fun q => q.2.trkN).sum + r.trk * count ≤ rdF s (aNi r.src 0x158) 40 32)

/-- Source entries of a unit that are free. -/
def freeEntries (s : State) (src : Nat) : List Nat :=
  if src < 128 then (List.range 64).filter fun e => seState (srcEnt s src e) == 0
  else (List.range 128).filter fun e => seState (spnEnt s (src - 128) e) == 0

/-- Flow IDs not in use, from a start on. -/
def freeIds (s : State) (start : Nat) : List Nat :=
  ((List.range 4096).map fun j => (start + j) % 4096).filter fun i => (mget s.eng.flows i).isNone

/-! Writing a flow. -/

/-- The source entry of a flow (06 Table 06.2). -/
def entryOf (id : Nat) (f : Flow) (split : Bool) : BitVec 256 :=
  let l := f.launch.foldl (fun a g => a ||| 1 <<< g) 0
  BitVec.ofNat 256 (l <<< 128 ||| (f.tick % 2 ^ 32) <<< 96 ||| f.allow <<< 85 ||| f.hdrs <<< 74 ||| f.trkN <<< 65 ||| f.maxlen <<< 58 |||
    (match f.twin with | some t => t.toNat | none => 0) <<< 34 ||| f.dst.toNat <<< 22 ||| id <<< 10 ||| f.state <<< 8 ||| plNo f.plane <<< 7 |||
    split.toNat <<< 6 ||| f.flr <<< 4 ||| f.alt.toNat <<< 3 ||| f.nosby.toNat <<< 2 ||| f.twin.isSome.toNat <<< 1)

/-- The flow a planned segment makes. -/
def flowOf (s : State) (r : AdmReq) (g : Seg) (idx t : Nat) (twin next : Option (BitVec 12)) : Flow :=
  { srcNode := nodeOf s r.src, srcIdx := idx, dst := r.dst, plane := r.plane, allow := r.allow, hdrs := r.hdrs,
    maxlen := r.maxlen, flr := r.floor, trkN := r.trk, nosby := r.nosby, path := g.path, alt := g.alt, launch := g.launch,
    twin := twin, next := next, chain := s.eng.nextChain, tick := t, state := 1, standby := g.standby }

/-- A pending flow is recorded: its source entry in state pending commit, and ADMIT's own record of it. -/
def putFlow (s : State) (id : Nat) (f : Flow) (split : Bool) : State :=
  wrFlowEnt { s with eng := { s.eng with flows := mset s.eng.flows id f } } f (entryOf id f split)

/-- The earliest tick of a commit or release (06 R137, R139). -/
def tickFrom (s : State) (t : Nat) : Nat := if frameGe t (frameIn s 2) then t else frameIn s 2

/-- The outcome of ADMIT: status, flow ID, twin's ID, commit tick. -/
structure AdmRes where
  code : Nat := 0
  id : Nat := 0
  twin : Option Nat := none
  tick : Nat := 0
  peer : Nat := 0
  deriving DecidableEq, Repr

/-- What the ADMITs of the next instances answer for a chain that leaves this one (06 R137): a code of Table 06.4, the first group and
the flow ID of the next segment of either chain, and whether every farther hop has a parallel link (06 R120). -/
structure PeerAns where
  code : Nat := 0
  gNext : Nat := 0
  next : BitVec 12 := 0
  gNext2 : Nat := 0
  next2 : BitVec 12 := 0
  wide : Bool := false
  deriving DecidableEq, Repr

/-- A free value read as the peers' answer (log 23). -/
def peerAns (v : Word) : PeerAns :=
  { code := fld v 7 0, gNext := fld v 14 8, next := v.extractLsb' 16 12, gNext2 := fld v 34 28, next2 := v.extractLsb' 36 12,
    wide := bitOf v 48 }

/-- The chain of a request at its source has a second one: every span hop has a parallel link (06 R120): the first one, by RTE_INST, and
the farther ones, if any, by the peers. -/
def hasSecond (s : State) (r : AdmReq) (peer : PeerAns) : Bool :=
  nodeInst r.dst != instNo s && decide (r.src < 128) &&
    match segStart s r.src true none with
    | some (x, _) => match outSpan s x (nodeInst r.dst) true with
      | some p => spnPeer s p == nodeInst r.dst || peer.wide
      | none => false
    | none => false

/-- The other half of a pair that the request completes: `pair` names it. -/
def pairUp (s : State) (r : AdmReq) (id : Nat) : State :=
  match r.pair.bind fun t => (mget s.eng.flows t).map fun f => (t, f) with
  | some (t, f) =>
    let g := { f with twin := some (BitVec.ofNat 12 id) }
    wrFlowEnt { s with eng := { s.eng with flows := mset s.eng.flows t g } } g (setFld (setFld (flowEnt s f) 45 34 id) 1 1 1)
  | none => s

/-- The procedure for a request of 06 R137. `pick`: where the search for a free flow ID starts (log 1). At the source instance both chains
of a pair are planned; a given path is that of the first (DEDUCED, log 23). A request for a later segment is for one chain. -/
def admitDecide (s : State) (r : AdmReq) (peer : PeerAns) (pick : Nat) : AdmRes × State :=
  let leaves := nodeInst r.dst != instNo s
  if !r.ok then ({ code := 1 }, s)
  else if s.flt.caseR.isSome ∨ s.flt.switchAt.isSome then ({ code := 12 }, s)
  else if r.floor < s.pwr.lvl.toNat then ({ code := 2 }, s)
  else
    let twin := hasSecond s r peer
    let need := if twin then 2 else 1
    let ents := freeEntries s r.src
    let ids := (match r.id with | some i => if (mget s.eng.flows i).isNone then [i] else [] | none => []) ++ freeIds s pick
    if nFlows s < s.eng.flows.length + need ∨ ents.length < need then ({ code := 3 }, s)
    else
      match planSeg s s.eng.flows r r.second peer.gNext with
      | .error c => ({ code := c }, s)
      | .ok a =>
        let id := nth ids 0
        let fa := flowOf s r a (nth ents 0) 0 (r.pair.map (BitVec.ofNat 12)) none
        let plan2 : Except Nat (Option Seg) :=
          if twin then match planSeg s (mset s.eng.flows id fa) r true peer.gNext2 with
            | .error c => .error c
            | .ok b => .ok (some b)
          else .ok none
        match plan2 with
        | .error c => ({ code := c }, s)
        | .ok b =>
          let segs := a :: b.toList
          if !stagingOk s r segs then ({ code := 10 }, s)
          else if !trackerOk s r need then ({ code := 11 }, s)
          else if leaves ∧ peer.code ≠ 0 then ({ code := 14, peer := peer.code }, s)
          else
            let t := tickFrom s r.tick
            let id2 := nth ids 1
            let next := if leaves then some peer.next else none
            let next2 := if leaves then some peer.next2 else none
            let chain := match r.pair.bind (mget s.eng.flows ·) with | some f => f.chain | none => s.eng.nextChain
            let s1 := putFlow s id { fa with
              tick := t, next := next, chain := chain, twin := if b.isSome then some (BitVec.ofNat 12 id2) else fa.twin } r.split
            let s2 := match b with
              | some g => putFlow s1 id2 (flowOf s r g (nth ents 1) t (some (BitVec.ofNat 12 id)) next2) r.split
              | none => pairUp s1 r id
            ({ code := 0, id := id, twin := if b.isSome then some id2 else r.pair, tick := t },
              { s2 with eng := { s2.eng with nextChain := s2.eng.nextChain + 1 } })

/-! At the gate tick (06 R118, R138, R139). -/

/-- The calendar entries of a path: by router. -/
def pathPresets (s : State) (id : Nat) (f : Flow) (path : List (Nat × Nat)) (c : Option Nat) : List (Nat × Preset) :=
  let first := match path with | (x, _) :: _ => x | [] => 0
  let inp := if nodeLoc f.srcNode < 128 then attPort (homeOf s (nodeLoc f.srcNode)) (attRtr (homeOf s (nodeLoc f.srcNode)) true == first && attUp (homeOf s (nodeLoc f.srcNode)) true)
    else (spanAtt s (nodeLoc f.srcNode - 128)).2
  let l := path.zip ((lagsOf path 1).zip (inputsOf s path inp))
  let entry (q : (Nat × Nat) × Nat × Nat) (g : Nat) : Preset := ⟨f.plane, q.1.2, g, q.2.1, q.2.2, BitVec.ofNat 12 id, c⟩
  (l.map fun q => f.launch.map fun g => (q.1.1, entry q g)).flatten

/-- Every calendar entry of a flow: active, then standby (06 R118). -/
def flowPresets (s : State) (id : Nat) (f : Flow) : List (Nat × Preset) :=
  pathPresets s id f f.path none ++ (f.standby.map fun b => pathPresets s id f b.2 (some b.1)).flatten

/-- The flow's calendar entries are written into its routers. -/
def addPresets (s : State) (id : Nat) (f : Flow) : State :=
  (flowPresets s id f).foldl (fun t q => updRtr t q.1 fun r => { r with presets := r.presets ++ [q.2] }) s

/-- The flow's calendar entries leave its routers. -/
def dropPresets (s : State) (id : Nat) : State :=
  { s with rtrs := mmap s.rtrs fun _ r => { r with presets := r.presets.filter fun e => e.flow != BitVec.ofNat 12 id } }

/-- The destination's record of a twin pair goes with the pair: one of the same flow IDs later starts without (06 R136). -/
def dropTwinRec (s : State) (id : Nat) (f : Flow) : State :=
  match f.twin with
  | some t =>
    if nodeInst f.dst = instNo s then
      updNi s (nodeLoc f.dst) fun i => { i with pst := { i.pst with twins := mdel i.pst.twins (min id t.toNat) } }
    else s
  | none => s

/-- A flow's blocks are freed and its source entry becomes free (06 R139). -/
def freeFlow (s : State) (id : Nat) (f : Flow) : State :=
  let s1 := wrFlowEnt s f 0
  dropTwinRec (dropPresets { s1 with eng := { s1.eng with flows := mdel s.eng.flows id } } id) id f

/-- A flow is to be released at tick t: STATE pending release. -/
def releaseAt (t : Nat) (s : State) (q : Nat × Flow) : State :=
  let g := { q.2 with state := 3, tick := t }
  wrFlowEnt { s with eng := { s.eng with flows := mset s.eng.flows q.1 g } } g
    (setFld (setFld (flowEnt s q.2) 9 8 3) 127 96 (t % 2 ^ 32))

/-- A release (06 R139): every segment and twin of the chain here; a free flow is BAD_PARAM. A flow whose commit is pending takes STATE 3
as well, so that its allowance is open up to the release tick and it never commits (DESIGN CHOICE, log 36: 06 R139 does not say). -/
def release (s : State) (id tick : Nat) : AdmRes × State :=
  match mget s.eng.flows id with
  | none => ({ code := 1 }, s)
  | some f =>
    let t := tickFrom s tick
    ({ code := 0, id := id, twin := f.twin.map (·.toNat), tick := t },
      (s.eng.flows.filter fun q => q.2.chain == f.chain).foldl (releaseAt t) s)

/-- A pending commit takes effect: its source entry is active, its calendar entries are written (06 R138). -/
def commitFlow (s : State) (id : Nat) (f : Flow) : State :=
  let g := { f with state := 2 }
  let s1 := wrFlowEnt { s with eng := { s.eng with flows := mset s.eng.flows id g } } g (setFld (flowEnt s f) 9 8 2)
  addPresets s1 id g

/-- A pending commit that its tick refuses (06 R138): no standby path, and a router of its path is declared failed. -/
def tickConflict (s : State) (f : Flow) : Bool := f.nosby && f.path.any fun l => (getRtr s l.1).failed

/-- A pending segment is refused at its tick, with TICK_CONFLICT, code 0x0D of Table 06.4, kept in `refused` (log 23: the manual names no
register that reports it). -/
def refuseFlow (s : State) (id : Nat) (f : Flow) : State :=
  let s1 := freeFlow s id f
  { s1 with eng := { s1.eng with refused := s1.eng.refused ++ [(id, 13)] } }

/-- Step 3 of Table 01.3: releases, then commits, due at this tick (06 R138, R139, R148). A conflict refuses every pending segment of its
chain and its twin, and releases what of them has committed at the next tick. -/
def pisteTick (s : State) : State :=
  let due := s.eng.flows.filter fun q => (q.2.state == 1 || q.2.state == 3) && frameGe (frameOf s) q.2.tick
  let s1 := (due.filter fun q => q.2.state == 3).foldl (fun t q => freeFlow t q.1 q.2) s
  let com := due.filter fun q => q.2.state == 1
  let bad := (com.filter fun q => tickConflict s q.2).map (·.2.chain)
  let s2 := com.foldl (fun t q => if bad.contains q.2.chain then t else commitFlow t q.1 q.2) s1
  let s3 := (s2.eng.flows.filter fun q => bad.contains q.2.chain && q.2.state == 1).foldl (fun t q => refuseFlow t q.1 q.2) s2
  (s3.eng.flows.filter fun q => bad.contains q.2.chain && q.2.state == 2).foldl (releaseAt (frameIn s 1)) s3

/-- The request of an ADMIT command entry (13 Table 13.3). -/
def admReqOf (e : BitVec 512) (path : Option (List Nat)) : AdmReq :=
  let w1 := e.extractLsb' 64 64
  { src := fld w1 7 0, dst := BitVec.ofNat 12 (fld w1 23 12), plane := if bitOf w1 24 then .rsp else .req, split := bitOf w1 25,
    nosby := bitOf w1 26, floor := fld w1 28 27, allow := fld w1 39 29, hdrs := fld w1 50 40, maxlen := fld w1 57 51,
    trk := fld (e.extractLsb' 128 64) 8 0, tick := fld (e.extractLsb' 192 64) 47 0, path := path }

end Sys2Proof.Machine
end

