-- ==== Sys2Proof/Machine/NiReset.lean ====
section
/-! DEFINITION. Slice resets (11 R239 to R246), the port's reset handshake (03 R58) and NI resets (17 R376 to R378, R381). -/

namespace Sys2Proof.Machine

/-! Slice reset. -/

/-- MINGAP in frames (11 Table 11.7); 0 acts as 1. -/
def minGap (s : State) (n : Nat) : Nat := max 1 (rdF s (aNi n 0x158) 23 16)

/-- The time at which a reset of slice k that begins now may end (11 R241, R243). -/
def sliceEndAt (s : State) (n k : Nat) : Nat :=
  let a := nowNs s + ceilDiv (16 * fcSixths s.pwr.lvl.toNat) 6
  match (getSlice (getNi s n) k).lastEnd with | some e => max a (e + 1024 * minGap s n) | none => a

/-- The requests of a slice end unanswered (11 R242 steps 4 and 5): they leave their queues; a staged piste message stays,
and its beats still reach it (06 R147). -/
def endSliceReqs (i : Ni) (k : Nat) : Ni :=
  let mine := i.reqs.filter fun r => r.slice.toNat == k
  let i1 := (mine.filter fun r => !r.piste).foldl (fun i r => dropReq i r.id) i
  { i1 with
    reqs := i1.reqs.filter fun r => r.slice.toNat != k
    trk := i1.trk.filter fun p => p.2.slice.toNat != k
    fences := i1.fences.filter fun f => f.slice.toNat != k || f.strobe.isSome }

/-- A waiting egress response belongs to slice k. -/
def egrOf (k : Nat) (e : Egr) : Bool := e.slice == some (BitVec.ofNat 4 k)

/-- Egress responses addressed to a slice that have not begun are discarded and counted (11 R242 step 6). -/
def dropSliceErs (s : State) (n k : Nat) : State :=
  let p := (getNi s n).port
  let c := (p.ersG.filter (egrOf k)).length + (p.ersB.filter (egrOf k)).length
  let s1 := updPort s n fun p => { p with ersG := p.ersG.filter fun e => !egrOf k e, ersB := p.ersB.filter fun e => !egrOf k e }
  incSat s1 (aNi n (0x210 + 0x20 * k)) c

/-- A slice reset begins (11 R242, R245): none while one runs. -/
def sliceResetStart (s : State) (n k : Nat) : State :=
  if slcRst s n k then s
  else
    let ended := ((getNi s n).reqs.filter fun r => r.slice.toNat == k && !r.posted).length
    let e := sliceEndAt s n k
    let s1 := updNi s n fun i => updSlice i k fun c => { c with rst := true, rstEnd := e, gen := c.gen + 1 }
    let d := discardWrites s1 n (some k)
    let s2 := if d.1 = 0 then d.2 else raiseNi d.2 n 0x101 1 d.1 k
    let s3 := dropSliceErs (updNi s2 n fun i => endSliceReqs i k) n k
    updNi s3 n fun i => updSlice i k fun c => { c with sc := 0, scUpd := nowNs s, ended := ended }

/-- A reset requested for a slice: an inactive slice has none (11 R245). -/
def sliceResetReq (s : State) (n k : Nat) : State := if slcAct s n k then sliceResetStart s n k else s

/-- The fences that p selects complete in their order (08 R188, 11 R243): each strobe pulses ep_fn_done with its id (03 R55). -/
def pulseFences (i : Ni) (p : Fence → Bool) : Ni :=
  let ids := (i.fences.filter p).filterMap (·.strobe)
  { i with
    fences := i.fences.filter fun f => !p f
    port := if ids.isEmpty then i.port else { i.port with fnDone := ids } }

/-- NI_SLC_RST: bit k requests a reset of slice k (11 R242, R245). -/
def execNiSlcRst (n : NiId) (mask : BitVec 16) (s : State) : Host.Outcome State Fault Refusal :=
  answer s (if isNi s n.toNat then (onesOf 16 mask.toNat).foldl (fun t k => sliceResetReq t n.toNat k) s else s)

/-- SLICE_RESET_END: 16 fc after the beginning, or MINGAP frames after the slice's last end (11 R241, R243). -/
def execSliceResetEnd (n : NiId) (slice : BitVec 4) (s : State) : Host.Outcome State Fault Refusal :=
  answer s (
    let m := n.toNat
    let k := slice.toNat
    let c := getSlice (getNi s m) k
    if c.rst = false ∨ nowNs s < c.rstEnd then s
    else
      let s1 := updNi s m fun i => updSlice (pulseFences i fun f => f.slice.toNat == k) k fun c => { c with rst := false, lastEnd := some (nowNs s) }
      raiseNi s1 m 0x110 0 (c.gen.toNat <<< 40 ||| (c.ended % 2 ^ 11) <<< 29 ||| frameOf s % 2 ^ 29) k)

/-! Data path of an NI reset. -/

/-- A register of an NI's block takes its reset value, or the active image's, at an NI reset: by its offset (03 R62, 06 R149,
07 R170, 08 R192, 09 R212, 10 R230, 11 R251). NI_QLIM, NI_QREACH and NI_BECFG, the configuration of the slices, the PASID
table, NI_PST_SRC and the slot registers keep their values. -/
def niRegResets (off : Nat) : Bool :=
  off < 0x60 || (0x80 ≤ off && off < 0xB0) || (0xC0 ≤ off && off < 0xF0 && off != 0xE8) || (0x100 ≤ off && off < 0x140) ||
  (0x168 ≤ off && off < 0x188) || (0x200 ≤ off && off < 0x400 && off % 0x20 != 0) ||
  (0xC00 ≤ off && off < 0x1C00 && (off - 0xC00) % 0x40 != 0x10 && (off - 0xC00) % 0x40 < 0x30) ||
  (0x1C00 ≤ off && off < 0x1CA8)

/-- The register words of a table that the active image sets or that reset leaves (17 R373). -/
def imgWord (s : State) (a : Nat) : Word := mgetD s.img.active a (resetWord a)

/-- The register addresses of NI n's block that are listed anywhere. -/
def niListed (s : State) (n : Nat) : List Nat :=
  ((s.regs ++ s.img.active).map (·.1)).filter fun a => decide (aNi n 0 ≤ a) && decide (a < aNi n 0x2000)

/-- Registers of NI n at an NI reset (17 R373). A pending RW/T value of a register that resets is gone. -/
def niRegReset (s : State) (n : Nat) : State :=
  let l := (niListed s n).filter fun a => niRegResets (a - aNi n 0)
  let s1 := l.foldl (fun t a => wr t a (imgWord s a)) s
  { s1 with pendT := mdrop s1.pendT fun a => decide (aNi n 0 ≤ a) && decide (a < aNi n 0x2000) && niRegResets (a - aNi n 0) }

/-- RATE and DEBT of a queue clamped by its limits (07 R163), RATE always within 8 to 4,096; CLAMP is set when a value changes. -/
def clampQueue (s : State) (n q : Nat) : State :=
  let a := aNi n (0xC08 + 0x40 * q)
  let w := rd s a
  let lim := rd s (aNi n (0xC10 + 0x40 * q))
  let lo := max 8 (fld lim 12 0)
  let hi := min 4096 (fld lim 28 16)
  let rate := max 8 (min hi (max lo (fld w 12 0)))
  let cap := min 16384 (max 65 (fld w 30 16))
  let debt := min (min 16384 (fld w 46 32)) (fld lim 47 32 - cap)
  if rate = fld w 12 0 ∧ debt = min 16384 (fld w 46 32) then s
  else setFlag (wr s a (setFld (setFld w 12 0 rate) 46 32 debt)) (aNi n 0xC0) 1

/-- NI and queue of an address of a queue's rate word or limit word. -/
def clampAt (a : Nat) : Option (Nat × Nat) :=
  let off := (a - 0x200000) % 0x2000
  if 0x200000 ≤ a ∧ a < 0x300000 ∧ 0xC00 ≤ off ∧ off < 0x1C00 ∧ ((off - 0xC00) % 0x40 = 8 ∨ (off - 0xC00) % 0x40 = 16) then
    some ((a - 0x200000) / 0x2000, (off - 0xC00) / 0x40)
  else none

/-- The queues of the NIs that satisfy p whose rate word or limit word is listed are clamped. -/
def clampQueues (s : State) (p : Nat → Bool) : State :=
  ((s.regs.filterMap fun w => clampAt w.1).filter fun k => p k.1).foldl (fun t k => clampQueue t k.1 k.2) s

/-- The open member entries of an NI are answered TARGET_ERR (10 R223), through its answer list (09 R205). -/
def answerMembers (s : State) (n : Nat) : State :=
  memberDrain (updNi s n fun i => { i with members := mmap i.members fun _ e =>
    if e.answered || e.due.isSome then e else { e with due := some 4 } }) n

/-- GEN of the active slices advances, but for those whose own reset ran when the NI reset began or runs now (11 R239); SC of every
active slice is 0. -/
def niSlicesReset (s : State) (n : Nat) : State :=
  (List.range 16).foldl (fun t k =>
    if slcAct s n k then
      updNi t n fun i => updSlice i k fun c => { c with
        gen := if c.rst || (getNi s n).rstSlices.contains k then c.gen else c.gen + 1, sc := 0, scUpd := nowNs s }
    else t) s

/-- Posted writes of every slice are discarded (08 R189): each slice's number is counted and notified (08 R188). -/
def niDiscardWrites (s : State) (n : Nat) : State :=
  (List.range 16).foldl (fun t k =>
    let d := discardWrites t n (some k)
    if d.1 = 0 then d.2 else raiseNi d.2 n 0x101 1 d.1 k) s

/-- The NI with its data path empty (17 R376). Messages in progress on an attachment and messages received and not yet
checked stay: they have left the injection side, or still await their answers under 17 R377; so do the answers to multicast copies that
10 R223 sends at a reset, and the strobe fences that 08 R188 completes at its end (log 22). -/
def niEmptied (i : Ni) : Ni :=
  { i with
    reqs := [], trk := [], lateMembers := [], pulls := [], mirrors := []
    fences := i.fences.filter fun f => f.strobe.isSome
    answers := i.answers.filter fun a => a.msg.cls == 2
    members := i.members.filter fun p => p.2.answered || p.2.due.isSome
    sched := {
      prog := i.sched.prog, credits := i.sched.credits, own := i.sched.own.filter fun o => o.pl == .rsp
      queues := match (getQ i 0).rsp.filter fun e => e.msg.cls == 2 with | [] => [] | l => [(0, { rsp := l })] }
    slices := mmap i.slices fun _ c => { c with log := [] }
    pst := { inc := i.pst.inc + 1 }
    dec := { i.dec with etc := [], fills := [], useCnt := 0 }
    port := { i.port with
      erqHG := 0, erqHB := 0, erqDG := 0, erqDB := 0, ersHG := 0, ersHB := 0, ersDG := 0, ersDB := 0
      erqG := [], erqB := [], ersG := [], ersB := [], outErq := none, outErs := none, err := false, errCode := 0 } }

/-- The data path of NI n is reset (17 R376), and NI_RESET is raised through the interrupt tree. The cause stays 0: nothing is left
to reset. The number that R189 discards is counted before the registers take their reset values, so NI_PW_DISC and its flag read 0 after
it (DESIGN CHOICE, log 36: the manual gives the words of 08 R192 both). -/
def niDataReset (s : State) (n : Nat) : State :=
  let s1 := answerMembers s n
  let s2 := niSlicesReset (niDiscardWrites s1 n) n
  let s3 := clampQueues (niRegReset (updNi s2 n niEmptied) n) (· == n)
  let i := getNi s n
  raiseG (updNi s3 n fun i => { i with rstCause := 0 }) n 0x171 0 (i.rstCause ||| (i.rstFrame % 2 ^ 40) <<< 8)

/-! The reset handshake of a port (03 R58). -/

/-- PORT_EN of an endpoint NI (03 R62). -/
def portEn (s : State) (n : Nat) : Bool := bitOf (rd s (aNi n 0)) 0

/-- The NI drives the outputs of a port whose reset is requested. -/
def portQuiet (p : Port) (now : Nat) : Port :=
  { p with
    up := false, accept := false, rsAccept := false, fnReady := false, tbValid := false, resetting := true
    inEpSeen := if p.resetting then p.inEpSeen else p.inEp
    reqNs := if p.resetting then p.reqNs else now }

/-- A reset of the port begins: ep_up falls, and every open member entry is answered (03 R58, 10 R223). -/
def portResetBegin (s : State) (n : Nat) : State :=
  answerMembers (updPort s n fun p => portQuiet p (nowNs s)) n

/-- The NI lowers its request when it has seen both in-reset signals, and its in-reset signal when both requests are 0
(03 R58 step 2). -/
def portStep (p : Port) : Port :=
  let p1 := if p.inEp && p.inNi then { p with reqNi := false } else p
  if p1.inEp && p1.inNi && !p1.reqEp && !p1.reqNi then { p1 with inNi := false } else p1

/-- EP_RESET_REQUEST: ep_rst_req_ep rises (03 R58). A port not enabled ignores it (03 R62). -/
def execEpResetRequest (n : NiId) (s : State) : Host.Outcome State Fault Refusal :=
  answer s (
    if !isEpNi s n.toNat || !portEn s n.toNat then s
    else updPort (portResetBegin s n.toNat) n.toNat fun p => { p with reqEp := true })

/-- EP_RST_IN_EP_CHANGE: ep_rst_in_ep rises or falls; when it rises during an NI reset, the data path is reset
(17 R376). -/
def execEpRstInEpChange (n : NiId) (v : Bool) (s : State) : Host.Outcome State Fault Refusal :=
  answer s (
    let m := n.toNat
    if !isEpNi s m || !portEn s m then s
    else
      let p := (getNi s m).port
      let s1 := updPort s m fun p => portStep { p with inEp := v, inEpSeen := p.inEpSeen || v }
      if v && !p.inEp && (getNi s m).inRst && (getNi s m).rstCause != 0 && s.rst.warm == 0 then niDataReset s1 m else s1)

/-- NI_RST_IN_RAISE: the beats of taken messages and of egress messages begun are complete, and the NI raises ep_rst_in_ni
(03 R58 step 1). -/
def execNiRstInRaise (n : NiId) (s : State) : Host.Outcome State Fault Refusal :=
  answer s (
    let p := (getNi s n.toNat).port
    if isEpNi s n.toNat && p.resetting && !p.inNi && p.rqRx.isEmpty && p.rsRx.isEmpty && (p.reqEp || p.reqNi) then
      updPort s n.toNat fun p => portStep { p with inNi := true }
    else s)

/-- EP_RST_REQ_EP_FALL: the endpoint lowers its request (03 R58 step 2). -/
def execEpRstReqEpFall (n : NiId) (s : State) : Host.Outcome State Fault Refusal :=
  answer s (if isEpNi s n.toNat && portEn s n.toNat then updPort s n.toNat fun p => portStep { p with reqEp := false } else s)

/-- The port may come up: both in-reset signals and both requests are 0 and the NI is ON and enabled. -/
def epUpReady (s : State) (n : Nat) : Bool :=
  let p := (getNi s n).port
  isEpNi s n && portEn s n && !p.up && !p.inEp && !p.inNi && !p.reqEp && !p.reqNi && (getNi s n).region == 0 && s.rst.warm == 0 &&
    !s.rst.inCold

/-- EP_UP_RAISE: ep_up rises (03 R58 steps 3 and 4): egress credits restart at 0, tb_valid waits for the next gate tick
(03 R56), and an NI reset is over (17 R376): the fences it kept complete (08 R188, R189). -/
def execEpUpRaise (n : NiId) (s : State) : Host.Outcome State Fault Refusal :=
  answer s (
    if epUpReady s n.toNat then
      updNi s n.toNat fun j =>
        let i := if j.inRst then pulseFences j fun _ => true else j
        { i with
        inRst := false
        port := { i.port with
          up := true, resetting := false, tbValid := false, fnReady := true
          erqHG := 0, erqHB := 0, erqDG := 0, erqDB := 0, ersHG := 0, ersHB := 0, ersDG := 0, ersDB := 0 } }
    else s)

/-- RST_STALL: the endpoint has not entered reset within 1 ms of a request (03 R58). -/
def execRstStall (n : NiId) (s : State) : Host.Outcome State Fault Refusal :=
  answer s (
    let p := (getNi s n.toNat).port
    if isEpNi s n.toNat && p.resetting && !p.inEpSeen && decide (p.reqNs + 1000000 ≤ nowNs s) then setFlag s (aNi n.toNat 8) 6 else s)

/-! NI reset. -/

/-- An NI reset begins (17 R376, R378, R382): not for an NI in reset or not ON. An endpoint already in reset is not waited for.
Without a handshake (PORT_EN 0) the reset is over at once; a service NI waits for its rink's flag. -/
def niResetBegin (s : State) (n cause : Nat) : State :=
  let i := getNi s n
  if !isNi s n || i.inRst || i.region != 0 then s
  else
    let s1 := updNi s n fun i => { i with
      inRst := true, rstCause := cause, rstFrame := frameOf s, rstSlices := (List.range 16).filter fun k => (getSlice i k).rst }
    if isSvcNi s n then s1
    else if portEn s n then
      let s2 := updPort (portResetBegin s1 n) n fun p => portStep { p with reqNi := true }
      if i.port.inEp then niDataReset s2 n else s2
    else updNi (niDataReset s1 n) n fun i => { pulseFences i (fun _ => true) with inRst := false }

/-- GLB_RST_NI[w]: bit j requests a reset of NI 64w + j (17 R383); CP only. -/
def niResetMask (s : State) (w mask : Nat) : State :=
  (onesOf 64 mask).foldl (fun t j => niResetBegin t (64 * w + j) 1) s

/-- GLB_RST_NI: the CP master writes the register. -/
def execGlbRstNi (m : Master) (w : BitVec 1) (mask : Word) (s : State) : Host.Outcome State Fault Refusal :=
  answer s (if m = .cp then niResetMask s w.toNat mask.toNat else s)

/-- EP_CLK_LOSS: no ep_clk edge for 1 us with ep_up at 1 (17 R381). -/
def execEpClkLoss (n : NiId) (s : State) : Host.Outcome State Fault Refusal :=
  answer s (
    let m := n.toNat
    if isEpNi s m && (getNi s m).port.up then
      niResetBegin (raiseG (setFlag s (0x428 + 8 * (m / 64)) (m % 64)) m 0x170 2 (frameOf s % 2 ^ 38)) m 3
    else s)

end Sys2Proof.Machine
end

