-- ==== Sys2Proof/Machine/EngCore.lean ====
section
/-! DEFINITION. What the engines share: slots and engines, requests through the service NIs, jobs, command records, rings, and the
entries of the extent binding table (13 R283 to R291, R296, R297; 14 R302 to R308). -/

namespace Sys2Proof.Machine

/-! Slots and engines (13 R283, R299). Slot number: 8 x rink + slot. -/

/-- The position that serves slot j of rink b; none when the slot is closed. -/
def slotPos (s : State) (k : Nat) : Option Nat :=
  let v := rdF s (aEng (8 + 8 * (k / 8))) (4 * (k % 8) + 3) (4 * (k % 8))
  if v = 15 then none else some v
/-- The engine that serves a slot. -/
def slotEng (s : State) (k : Nat) : Option Nat := (slotPos s k).map fun v => 9 * (k / 8) + v
/-- A rink is ON (16 R350). -/
def rinkOn (s : State) (b : Nat) : Bool := s.gen.eng && b < nRinks s && mgetD s.pwr.rinks b 0 == 0
/-- A rink takes pushes and thefts and fetches: it is ON and no entry to sleep is in progress (16 R356, R359). -/
def rinkTakes (s : State) (b : Nat) : Bool :=
  rinkOn s b && !(match s.pwr.cur with
    | some q => fld q.req 22 20 != 0 && fld q.req 22 20 != 4 && fld q.req 19 18 == 1 && fld q.req 6 0 == b
    | none => false)
/-- The slot works: its rink takes work and an engine serves it. -/
def slotWorks (s : State) (k : Nat) : Bool := rinkTakes s (k / 8) && (slotPos s k).isSome
/-- Slot k. -/
def getSlot (s : State) (k : Nat) : EngSlot := mgetD s.eng.slots k {}
/-- The state with slot k changed by f. -/
def updSlot (s : State) (k : Nat) (f : EngSlot → EngSlot) : State :=
  { s with eng := { s.eng with slots := mupd s.eng.slots k {} f } }
/-- The lowest working slot of a rink: it serves the rink's queue (13 R290, R299). -/
def dutySlot (s : State) (b : Nat) : Option Nat := ((List.range 8).map (8 * b + ·)).find? fun k => slotWorks s k
/-- Rink of the ADMIT queue (13 R290). -/
def admRink : Nat := 1
/-- A slot serves a queue that holds commands (13 R290). -/
def onDuty (s : State) (k : Nat) : Bool :=
  (dutySlot s 0 == some k && !s.eng.ctlQ.isEmpty) || (dutySlot s admRink == some k && !s.eng.admQ.isEmpty)
/-- An event of the engine that serves a slot (20 R427). -/
def evSlot (s : State) (k e d : Nat) : State := match slotEng s k with | some g => evEng s g e d | none => s

/-! Requests through the service NIs (13 R284). -/

/-- Service NI of rink b. -/
def svcNi (b : Nat) : Nat := 120 + b

/-- A request of `len` lines may be taken at NI n, queue q: slice 0 is active and not in reset (11 R233, R242), the half and the tracker or
posted-write buffer have room (07 R150, R167; 08 R178), and the NI is not in reset. -/
def engCan (s : State) (n q opc len : Nat) : Bool :=
  let i := getNi s n
  !i.inRst && slcAct s n 0 && !slcRst s n 0 && !reqFull i q &&
    (if isPosted opc then
       (if pwShare s n < len then pwUsed i 0 == 0 && !ovsBusy i
        else decide (pwUsed i 0 + len ≤ pwShare s n) && decide (pwTotal i + len ≤ 64))
     else trkRoom s n 0)

/-- A request of the engines is taken at service NI n: `code` says who sent it; a direct FA names its NI in `dst` (14 R312); an
FA that names no destination ends at once with DECODE_ERR. -/
def engSend (s : State) (n q code opc fa : Nat) (dst : Option (BitVec 12)) (nbytes : Nat) (data : List Line) : State :=
  if fa / 2 ^ 50 ≠ 0 ∧ dst.isNone then engAnswer s code fa [] 1
  else
    let len := linesOf fa nbytes
    let fill : Option (BitVec 4 × BitVec 19) :=
      if fa / 2 ^ 50 = 0 then some (BitVec.ofNat 4 (fa / 2 ^ 46), BitVec.ofNat 19 (fa / 2 ^ 27)) else none
    let m : Msg := {
      dst := dst.getD 0, src := niNode s n, opc := BitVec.ofNat 7 opc, cls := if isIoReq opc then 3 else 0,
      gen := slcGen s n 0, len := BitVec.ofNat 7 len, addr := BitVec.ofNat 52 fa,
      nbytes := if isLineOp opc then 0 else BitVec.ofNat 13 nbytes, data := data }
    let ovs := isPosted opc && decide (pwShare s n < len)
    let r : Req := {
      id := (getNi s n).nextId, kind := reqKindOf opc, posted := isPosted opc, hasAddr := true, lineLo := fa / 64,
      lineCnt := len, start := fa, nbytes := nbytes, hostAddr := BitVec.ofNat 52 fa, q := q, msg := m, fill := fill,
      oversize := ovs, pwEntries := if isPosted opc && !ovs then len else 0, slot := some code }
    let t := if r.posted then (none, s)
      else allocTrk s n { gen := slcGen s n 0, reqId := r.id, opc := m.opc, hostAddr := r.hostAddr, dst := m.dst,
                          deadline := some (beDeadline s n), slot := some code }
    let s1 := enqueueReq t.2 n { r with tag := t.1 }
    match fill with
    | some (i, x) => updNi (etcNeed s1 n i x) n fun v => etcTouch v i x
    | none => s1

/-- MemRd (04 Table 04.6; DEDUCED from Table 04.7, log 24). -/
def opMemRd : Nat := 1
/-- MWR. -/
def opMwr : Nat := 0x10
/-- MWRPTL. -/
def opMwrPtl : Nat := 0x11
/-- IO_MWR. -/
def opIoMwr : Nat := 0x71

/-- A slot's request leaves through its rink's service NI on the slot's queue (13 R284); event 9. -/
def slotSend (s : State) (k code opc fa : Nat) (dst : Option (BitVec 12)) (nbytes : Nat) (data : List Line) : State :=
  evSlot (engSend s (svcNi (k / 8)) (k % 8) code opc fa dst nbytes data) k 9 1

/-- The first answer to a code is taken from the inbox: (FA, lines, STAT). -/
def takeAnswer (s : State) (code : Nat) : Option (Nat × List Line × Nat) × State :=
  match takeFirst s.eng.inbox fun a => a.1 == code with
  | (some a, rest) => (some a.2, { s with eng := { s.eng with inbox := rest } })
  | (none, _) => (none, s)

/-! Command records (13 R286, R290, R296, R297). -/

/-- Word w of a command entry (13 Table 13.1). -/
def cmdW (e : BitVec 512) (w : Nat) : Word := e.extractLsb' (64 * w) 64
/-- The command with a key. -/
def getCmd (s : State) (key : Nat) : Option Cmd := s.eng.cmds.find? fun c => c.key == key
/-- The state with the command of a key changed by f. -/
def updCmd (s : State) (key : Nat) (f : Cmd → Cmd) : State :=
  { s with eng := { s.eng with cmds := updFirst s.eng.cmds (fun c => c.key == key) f } }
/-- A command in progress from an entry. -/
def cmdOf (s : State) (q : Nat) (e : BitVec 512) : Cmd :=
  { key := s.eng.nextKey, ring := q, entry := e, op := e.extractLsb' 0 8, cid := e.extractLsb' 16 16, ntf := bitOf e 8 }
/-- A command record is made. -/
def addCmd (s : State) (c : Cmd) : State :=
  { s with eng := { s.eng with cmds := s.eng.cmds ++ [c], nextKey := s.eng.nextKey + 1 } }
/-- The command ends with a status; one of a control or ADMIT queue leaves its queue. A command that the instance submitted
itself has no completion: its record goes. -/
def endCmd (s : State) (key status : Nat) : State :=
  let s1 := updCmd s key fun c => { c with done := true, status := BitVec.ofNat 8 status }
  { s1 with eng := { s1.eng with
      ctlQ := s1.eng.ctlQ.filter fun j => j != key
      admQ := s1.eng.admQ.filter fun j => j != key
      cmds := s1.eng.cmds.filter fun c => c.key != key || c.ring != 16 } }
/-- The command at the head of the control queue, if a slot serves the queue and no recovery holds it (14 R318). -/
def ctlHead (s : State) : Option Cmd :=
  if (dutySlot s 0).isSome then s.eng.ctlQ.head?.bind (getCmd s) else none
/-- The command at the head of the ADMIT queue. -/
def admHead (s : State) : Option Cmd :=
  if (dutySlot s admRink).isSome then s.eng.admQ.head?.bind (getCmd s) else none
/-- Event of the engine that serves a queue's duty slot. -/
def evDuty (s : State) (b e : Nat) : State := match dutySlot s b with | some k => evSlot s k e 1 | none => s
/-- A queued command ends; event 11. -/
def endQueued (s : State) (b key status : Nat) : State := endCmd (evDuty s b 11) key status

/-- The STAT of an engine's request as a command status (13 R297). -/
def statusOfStat (stat : Nat) : Nat := if stat = 2 then 6 else 7

/-- A data request of a command ended with a STAT other than OK (13 R297): the lowest failing FA in RESULT; the status stays
that of the first failure. -/
def failCmd (s : State) (key fa stat : Nat) : State :=
  updCmd s key fun c =>
    if c.status = 6 ∨ c.status = 7 then { c with result := if fa < c.result.toNat then BitVec.ofNat 64 fa else c.result }
    else { c with status := BitVec.ofNat 8 (statusOfStat stat), result := BitVec.ofNat 64 fa }

/-! Jobs (13 R289, R291). -/

/-- The working slot of rink b that holds the fewest jobs, the lower on a tie. -/
def fewest (s : State) (b : Nat) : Option Nat :=
  (((List.range 8).map (8 * b + ·)).filter (slotWorks s)).foldl (fun best k => match best with
    | none => some k
    | some c => if (getSlot s k).deque.length < (getSlot s c).deque.length then some k else some c) none

/-- Every parked slot hears of a push (13 R291). -/
def wakeAll (s : State) : State :=
  { s with eng := { s.eng with wakes :=
      (s.eng.slots.filter fun p => p.2.parked).foldl (fun l p => insertNat l p.1) s.eng.wakes } }

/-- Jobs in ascending address order go onto one slot's deque, newest at its head, as far as it has room (13 R289): the jobs
that are left. -/
def pushOn (s : State) (k : Nat) (jobs : List Job) : List Job × State :=
  let room := 64 - (getSlot s k).deque.length
  let now := jobs.take room
  (jobs.drop room, if now.isEmpty then s else wakeAll (updSlot s k fun e => { e with deque := now.reverse ++ e.deque }))

/-- The fetching rink of a ring (13 R285); the instance's own jobs start at rink 0. -/
def rinkOf (s : State) (q : Nat) : Nat := if q < 16 then q % nRinks s else 0

/-- A command's jobs are pushed at its fetching rink; those without room wait in its record. -/
def pushJobs (s : State) (key : Nat) : State :=
  match getCmd s key with
  | some c => match fewest s (rinkOf s c.ring) with
    | some k =>
      let r := pushOn s k c.waitingJobs
      updCmd r.2 key fun c => { c with waitingJobs := r.1 }
    | none => s
  | none => s

/-- Cut a range of 4 KiB blocks at the 2 MiB boundaries of its FA (13 R289): (FA, blocks). -/
def cutRange (fa blocks fuel : Nat) : List (Nat × Nat) :=
  match fuel with
  | 0 => []
  | f + 1 =>
    if blocks = 0 then []
    else
      let room := (2 ^ 21 - fa % 2 ^ 21) / 4096
      if blocks ≤ room then [(fa, blocks)] else (fa, room) :: cutRange (fa + 4096 * room) (blocks - room) f

/-! Rings (13 R285; Tables 13.11, 13.12). -/

/-- ENG_RING_CFG of ring q. -/
def ringCfg (s : State) (q : Nat) : Word := rd s (aEng (0x100 + 0x40 * q))
/-- SZ of ring q. -/
def ringSz (s : State) (q : Nat) : Nat := fld (ringCfg s q) 12 8
/-- The ring is enabled with a listed size. -/
def ringOn (s : State) (q : Nat) : Bool := s.gen.eng && bitOf (ringCfg s q) 7 && 4 ≤ ringSz s q && ringSz s q ≤ 12
/-- PI. -/
def ringPi (s : State) (q : Nat) : Nat := rdF s (aEng (0x118 + 0x40 * q)) 11 0
/-- RCI. -/
def ringRci (s : State) (q : Nat) : Nat := rdF s (aEng (0x128 + 0x40 * q)) 11 0
/-- CI. -/
def ringCi (s : State) (q : Nat) : Nat := rdF s (aEng (0x120 + 0x40 * q)) 11 0
/-- RPI. -/
def ringRpi (s : State) (q : Nat) : Nat := rdF s (aEng (0x120 + 0x40 * q)) 43 32
/-- Fetch state of ring q. -/
def getRing (s : State) (q : Nat) : Ring := mgetD s.eng.rings q {}
/-- The state with it changed by f. -/
def updRing (s : State) (q : Nat) (f : Ring → Ring) : State := { s with eng := { s.eng with rings := mupd s.eng.rings q {} f } }
/-- Commands in progress of ring q (13 R286). -/
def ringBusy (s : State) (q : Nat) : Nat := (s.eng.cmds.filter fun c => c.ring == q).length
/-- Two indices of a ring are equal modulo its size. -/
def sameIdx (s : State) (q a b : Nat) : Bool := a % 2 ^ ringSz s q == b % 2 ^ ringSz s q
/-- The completion ring has room (13 R285). -/
def compRoom (s : State) (q : Nat) : Bool := !sameIdx s q (ringRpi s q + 1) (ringRci s q)

/-! Notifications of a rink (23 R495). -/

/-- A rink raises a notification under its service NI's node ID. -/
def raiseRink (s : State) (b code sev info : Nat) : State := routeNote s ⟨svcNi b, code, sev, info, none, 15⟩
/-- The same with an INFO that the manual does not lay out (log 1). -/
def raiseRinkFree (s : State) (b code sev : Nat) : State :=
  raiseRink (takeFree s).2 b code sev ((takeFree s).1.toNat % 2 ^ 48)

/-! The extent binding table (14 R302 to R308). -/

/-- The 128-bit word pair at a management address. -/
def rd128 (s : State) (a : Nat) : BitVec 128 := (rd s (a + 8)) ++ (rd s a)
/-- The word pair written. -/
def wr128 (s : State) (a : Nat) (v : BitVec 128) : State := wr (wr s a (v.extractLsb' 0 64)) (a + 8) (v.extractLsb' 64 64)
/-- Address of EBT entry x. -/
def aEbt (x : Nat) : Nat := 0x1000000 + 16 * x
/-- EBT entry x as its bank stores it. -/
def ebtRaw (s : State) (x : Nat) : BitVec 128 := rd128 s (aEbt x)
/-- Data bits [119:0] of an entry. -/
def ebtBits (v : BitVec 128) : Nat := v.toNat % 2 ^ 120
/-- An entry with its check byte (14 R302). -/
def ebtSeal (data : Nat) : BitVec 128 := BitVec.ofNat 128 (data % 2 ^ 120 ||| ebtCheck (data % 2 ^ 120) <<< 120)
/-- The entry written with a fresh check byte. -/
def wrEbt (s : State) (x data : Nat) : State := wr128 s (aEbt x) (ebtSeal data)
/-- What a stored entry's check shows (14 R302, R308): the corrected data bits, and the error. -/
def ebtDecode (v : BitVec 128) : Nat × EccErr :=
  let syn := ebtCheck (ebtBits v) ^^^ fld v 127 120
  if syn = 0 then (ebtBits v, .none)
  else match (hsiaoCols.take 120).findIdx? (· == syn) with
    | some i => (ebtBits v ^^^ (1 <<< i), .single)
    | none => if popCount 8 syn = 1 then (ebtBits v, .single) else (ebtBits v, .uncorrectable)
/-- The entry UNREADABLE (14 Table 14.2). -/
def ebtUnread : Nat := 0xF <<< 116
/-- The entry is under repair or was left UNREADABLE by one (14 R308). -/
def ebtLost (s : State) (x : Nat) : Bool := s.jrn.repairs.contains x || s.jrn.unread.contains x
/-- Entry x as the control engine reads it. -/
def ebtOf (s : State) (x : Nat) : BitVec 128 :=
  if ebtLost s x then BitVec.ofNat 128 ebtUnread else BitVec.ofNat 128 (ebtDecode (ebtRaw s x)).1
/-- Fields of an entry, by name (14 Table 14.1). -/
structure Ebt where
  st : Nat := 0
  mv : Bool := false
  bv : Bool := false
  mc : Bool := false
  btgt : Nat := 0
  gen : Nat := 0
  tag : Nat := 0
  tni : Nat := 0
  dpa : Nat := 0
  sh : Bool := false
  deriving DecidableEq, Repr
/-- The fields of an entry. -/
def ebtFields (v : BitVec 128) : Ebt :=
  ⟨ebtState v, bitOf v 115, bitOf v 114, bitOf v 113, fld v 112 101, ebtGen v, ebtTag v, ebtTni v, ebtDpa v, bitOf v 53⟩
/-- The entry the fields make, without its check byte. -/
def ebtData (e : Ebt) : Nat :=
  (e.st % 16) <<< 116 ||| e.mv.toNat <<< 115 ||| e.bv.toNat <<< 114 ||| e.mc.toNat <<< 113 ||| (e.btgt % 4096) <<< 101 |||
    (e.gen % 256) <<< 93 ||| (e.tag % 64) <<< 87 ||| (e.tni % 256) <<< 79 ||| (e.dpa % 2 ^ 25) <<< 54 ||| e.sh.toNat <<< 53
/-- The fields of entry x. -/
def ebtGet (s : State) (x : Nat) : Ebt := ebtFields (ebtOf s x)
/-- An entry is BOUND or SHARED. -/
def ebtLive (e : Ebt) : Bool := e.st == 1 || e.st == 2
/-- The extents whose entries are listed, rising. -/
def ebtListed (s : State) : List Nat :=
  ((s.regs.filter fun p => 0x1000000 ≤ p.1 && p.1 < 0x1800000).map fun p => (p.1 - 0x1000000) / 16).dedup
/-- A pooled FA of this instance. -/
def pooledFa (s : State) (x off : Nat) : Nat := instNo s * 2 ^ 46 + x * 2 ^ 27 + off
/-- The direct FA of a device address. -/
def directFa (addr : Nat) : Nat := 2 ^ 51 + addr

/-! Grants (14 R309). -/

/-- Grant entry i. -/
def grantAt (s : State) (i : Nat) : BitVec 128 := rd128 s (0x1E01000 + 16 * i)
/-- Grant entry i written. -/
def wrGrant (s : State) (i : Nat) (v : BitVec 128) : State := wr128 s (0x1E01000 + 16 * i) v
/-- The grant entries that are listed, with their indices, rising. -/
def grantList (s : State) : List (Nat × BitVec 128) :=
  (((s.regs.filter fun p => 0x1E01000 ≤ p.1 && p.1 < 0x1E11000).map fun p => (p.1 - 0x1E01000) / 16).dedup).map fun i => (i, grantAt s i)
/-- The valid grant entries. -/
def grantsValid (s : State) : List (Nat × BitVec 128) := (grantList s).filter fun g => bitOf g.2 127
/-- NI, ROW and TAG of a grant entry. -/
def grantKey (v : BitVec 128) : Nat := fld v 125 101
/-- The key of (NI, ROW, TAG). -/
def grantKeyOf (n row tag : Nat) : Nat := n * 2 ^ 18 + row * 2 ^ 6 + tag
/-- A grant entry (14 Table 14.4). -/
def grantMake (rev : Bool) (key perm : Nat) : BitVec 128 :=
  BitVec.ofNat 128 (1 <<< 127 ||| rev.toNat <<< 126 ||| key <<< 101 ||| perm <<< 96)

/-- A lift-pass row as rebuilt (14 R309): the image's row with each valid grant of it applied: (TAGS, permissions). -/
def rowRebuilt (s : State) (n row : Nat) : Word × Nat :=
  let a := lptAddr n row
  ((grantsValid s).filter fun g => grantKey g.2 / 64 == n * 4096 + row).foldl (fun r g =>
    if bitOf g.2 126 then (setBit r.1 (grantKey g.2 % 64) false, r.2)
    else (setBit r.1 (grantKey g.2 % 64) true, r.2 ||| fld g.2 100 96)) (imgWord s a, fld (imgWord s (a + 8)) 4 0)

/-- A word that takes effect at the next gate tick, step 6 (00 R8, 09 R210): the last value written wins. -/
def pendWord (s : State) (a : Nat) (v : Word) : State := { s with pendT := mset s.pendT a v }
/-- The word at an address with what waits for it. -/
def pendRd (s : State) (a : Nat) : Word := mgetD s.pendT a (rd s a)

end Sys2Proof.Machine
end

