-- ==== Sys2Proof/Machine/Journal.lean ====
section
/-! DEFINITION. The journal unit: records, homes, commits, the groomer's checkpoints, recovery and repair (14 R308 to R323,
24 R491). -/

namespace Sys2Proof.Machine

/-- The life-cycle state: fields blown, counted from F1 upward (22 R455). -/
def lcState (s : State) : Nat :=
  if !s.lcs.fuse.f1 then 0 else if !s.lcs.fuse.f2 then 1 else if !s.lcs.fuse.f3 then 2 else if !s.lcs.fuse.f4 then 3 else 4

/-- The journal key in force (22 R460). -/
def jrnKey (s : State) : List (BitVec 8) :=
  match lcState s with
  | 1 => bytesOf 32 s.lcs.jrnA.toNat
  | 2 => bytesOf 32 s.lcs.jrnA.toNat
  | 3 => bytesOf 32 s.lcs.jrnB.toNat
  | _ => bytesOf 32 0

/-- JID (14 R310, 22 R460). -/
def jrnId (s : State) : List (BitVec 8) := (Config.sha384 (jrnKey s)).take 8

/-! Records (14 Table 14.5). -/

/-- Record bytes 0 to 27. -/
def recHead (r : Rec) : List (BitVec 8) :=
  bytesOf 28 (r.seq % 2 ^ 48 ||| r.typ.toNat <<< 48 ||| (r.index % 2 ^ 19) <<< 64 ||| r.body.toNat <<< 96)
/-- The 32 bytes of a record. -/
def recBytes (s : State) (r : Rec) : List (BitVec 8) := recHead r ++ bytesOf 4 (crc32c (recHead r ++ jrnId s)).toNat
/-- The record a 256-bit word holds. -/
def recOf (w : BitVec 256) : Rec :=
  { seq := fld w 47 0, typ := w.extractLsb' 48 8, index := if fld w 55 48 = 2 then fld w 75 64 else fld w 82 64, body := w.extractLsb' 96 128 }
/-- A record read from a home is correct: its CRC, and a TYPE that is not reserved. -/
def recOk (s : State) (w : BitVec 256) : Bool :=
  fld w 255 224 == (crc32c (bytesOf 28 w.toNat ++ jrnId s)).toNat && (fld w 55 48 == 1 || fld w 55 48 == 2)

/-- A change waits to be appended (14 R311). -/
def jrnAdd (s : State) (r : Rec) : State := { s with jrn := { s.jrn with todo := s.jrn.todo ++ [r] } }
/-- The new entry of an extent: ECC and MV 0 in the record (14 R310). -/
def entryRec (key prio x : Nat) (e : Ebt) : Rec :=
  { key := key, prio := prio, typ := 1, index := x, body := BitVec.ofNat 128 (ebtData { e with mv := false }) }
/-- The new grant entry i. -/
def grantRec (key i : Nat) (v : BitVec 128) : Rec := { key := key, typ := 2, index := i, body := v }
/-- Records of a command that have not committed. -/
def recsPending (s : State) (key : Nat) : Bool :=
  s.jrn.todo.any (fun r => r.key == key) || s.jrn.ring.any fun r => r.key == key && !r.committed

/-! Homes (14 R312 to R315). -/

/-- Node of home h. -/
def homeNode (s : State) (h : Nat) : BitVec 12 := BitVec.ofNat 12 (rdF s (aJrn (0x10 + 8 * h)) 63 52)
/-- Log pointer of home h. -/
def homeLp (s : State) (h : Nat) : Nat := rdF s (aJrn (0x48 + 8 * h)) 29 0
/-- The log pointer moves to an offset; `wrapped`: a pass through the home has ended. -/
def setLp (s : State) (h off : Nat) (wrapped : Bool) : State :=
  let p := rdF s (aJrn (0x48 + 8 * h)) 63 32
  wr s (aJrn (0x48 + 8 * h)) (BitVec.ofNat 64 ((if wrapped then satAdd 0xFFFFFFFF p 1 else p) <<< 32 ||| off % 2 ^ 30))
/-- A write joins home h's list. -/
def addHome (s : State) (h : Nat) (w : HomeWrite) : State := setHomeOut s h (homeOut s h ++ [w])

/-- Lines of 64 bytes. -/
def linesOfBytes (l : List (BitVec 8)) (fuel : Nat) : List Line :=
  match fuel with
  | 0 => []
  | f + 1 => if l.isEmpty then [] else BitVec.ofNat 512 (natOf (l.take 64)) :: linesOfBytes (l.drop 64) f

/-- The lines that bytes at an address fill, the bytes before them zero. -/
def linesAt (addr : Nat) (l : List (BitVec 8)) : List Line := linesOfBytes (List.replicate (addr % 64) 0 ++ l) 65

/-- Home write w leaves through service NI 120, slice 0, queue 9 (14 R313). -/
def sendHome (s : State) (h : Nat) (w : HomeWrite) : State :=
  engSend s 120 9 (200 + h) (if w.ckpt then opMwr else opMwrPtl) (homeBase s h + w.off) (some (homeNode s h)) w.bytes.length
    (linesAt w.off w.bytes)

/-- The next write of home h that may leave: in order; a header only after the rest of its checkpoint is acknowledged there
(14 R316). -/
def nextHome (l : List HomeWrite) : Option HomeWrite :=
  (l.find? fun w => !w.sent).bind fun w => if w.hdr && l.any (fun v => v.ckpt && !v.hdr) then none else some w

/-- Waiting writes of home h leave as far as the NI has room. -/
def pumpHome (s : State) (h fuel : Nat) : State :=
  match fuel with
  | 0 => s
  | f + 1 => match nextHome (homeOut s h) with
    | none => s
    | some w =>
      if engCan s 120 9 opMwr (linesOf w.off w.bytes.length) then
        pumpHome (sendHome (setHomeOut s h (updFirst (homeOut s h) (fun v => v == w) fun v => { v with sent := true })) h w) h f
      else s

/-- Both homes' waiting writes. -/
def pumpHomes (s : State) : State := pumpHome (pumpHome s 0 4) 1 4

/-! The groomer (14 R315 to R317). -/

/-- Size of a checkpoint region, bytes. -/
def regionSize : Nat := 8260 * 1024
/-- Where the next checkpoint region of a home starts, from its log pointer (14 R315). -/
def regionAt (lp : Nat) : Nat :=
  let a := ceilDiv lp (2 ^ 21) * 2 ^ 21
  if a + regionSize ≤ 2 ^ 30 then a else 0

/-- The region of home h is reserved: records follow it. -/
def reserve (s : State) (h : Nat) : State :=
  let a := regionAt (homeLp s h)
  setLp s h (a + regionSize) (decide (a < homeLp s h))

/-- A GROOM starts (14 R316, steps 1 and 2): START_SEQ, the regions, and its four jobs, one per 2 MiB chunk. -/
def groomStart (s : State) (key : Nat) : State :=
  let c : Ckpt := { key := key, startSeq := rdF s (aJrn 0x20) 47 0, off0 := regionAt (homeLp s 0), off1 := regionAt (homeLp s 1) }
  let s1 := reserve (reserve { s with jrn := { s.jrn with ckpt := some c } } 0) 1
  let jobs : List Job := (List.range 4).map fun j => { cmd := key, op := 0x41, fa := 2 ^ 21 * j, blocks := 512 }
  pushJobs (updCmd (setFlag s1 (aJrn 8) 1) key fun c => { c with jobsLeft := 4, waitingJobs := jobs }) key

/-- The journal unit submits GROOM (14 R316): never a second while one runs. -/
def submitGroom (s : State) : State :=
  if s.jrn.ckpt.isSome || !s.gen.jrn || !s.gen.eng then s
  else
    let c : Cmd := { key := s.eng.nextKey, ring := 16, op := 0x41 }
    groomStart (addCmd s c) c.key

/-- The checkpoint in progress is given up: it never commits. -/
def dropCkpt (s : State) : State :=
  let keep (l : List HomeWrite) := l.filter fun w => !w.ckpt
  wrF { s with jrn := { s.jrn with ckpt := none, outH0 := keep s.jrn.outH0, outH1 := keep s.jrn.outH1 } } (aJrn 8) 1 1 0

/-- The bytes of 256 entries of the body from X on, as copied. -/
def bodyBlock (body : List (Nat × BitVec 128)) (x : Nat) : List (BitVec 8) :=
  ((List.range 256).map fun j => bytesOf 16 (mgetD body (x + j) 0).toNat).flatten

/-- The bytes of grant entries 256 b to 256 b + 255. -/
def grantBlock (s : State) (b : Nat) : List (BitVec 8) :=
  ((List.range 256).map fun j => bytesOf 16 (grantAt s (256 * b + j)).toNat).flatten

/-- Header bytes 0 to 31 (14 Table 14.7). -/
def hdrHead (s : State) (cknum startSeq : Nat) : List (BitVec 8) :=
  bytesOf 4 0x4A4B4350 ++ bytesOf 2 1 ++ bytesOf 1 (instNo s) ++ bytesOf 1 0 ++ bytesOf 8 (cknum % 2 ^ 48) ++
    bytesOf 8 (startSeq % 2 ^ 48) ++ bytesOf 4 (grantsValid s).length ++ bytesOf 4 0

/-- The 4 KiB header of a checkpoint, with its DIGEST (14 R317). -/
def hdrBytes (s : State) (c : Ckpt) : List (BitVec 8) :=
  let head := hdrHead s (rdF s (aJrn 0x38) 47 0 + 1) c.startSeq
  let body := ((List.range 2048).map fun b => bodyBlock c.body (256 * b)).flatten
  let grants := ((List.range 16).map (grantBlock s)).flatten
  (head ++ Config.sha384 (jrnKey s ++ head ++ body ++ grants) ++ List.replicate 4096 0).take 4096

/-- Grant sections and headers are ready to be written (14 R316, step 3). -/
def ckptTail (s : State) (c : Ckpt) : State :=
  let put (t : State) (h off : Nat) : State :=
    addHome ((List.range 16).foldl (fun u b => addHome u h { ckpt := true, off := (off + 0x801000 + 4096 * b) % 2 ^ 30, bytes := grantBlock s b }) t)
      h { ckpt := true, hdr := true, off := off, bytes := hdrBytes s c }
  { put (put s 0 c.off0) 1 c.off1 with jrn := { (put (put s 0 c.off0) 1 c.off1).jrn with ckpt := some { c with stage := 1 } } }

/-- A commit writes the new entry (14 R306, R313). -/
def commitRec (s : State) (r : Rec) : State :=
  let s1 := if r.typ = 1 then wrEbt s r.index (r.body.toNat % 2 ^ 120) else wrGrant s r.index r.body
  wr s1 (aJrn 0x28) (BitVec.ofNat 64 r.seq)

/-- Records commit in SEQ order as far as both homes have acknowledged them; none while a home is being replaced (14 R313,
R320). -/
def commitLoop (s : State) (fuel : Nat) : State :=
  match fuel with
  | 0 => s
  | f + 1 => match s.jrn.ring.find? fun r => !r.committed with
    | none => s
    | some r =>
      if r.ack0 && r.ack1 && s.jrn.replaceHome.isEmpty then
        let s1 := commitRec s r
        commitLoop { s1 with jrn := { s1.jrn with ring := updFirst s1.jrn.ring (fun q => q.seq == r.seq) fun q => { q with committed := true } } } f
      else s

/-- SANITISE commands whose FREE records have all committed are complete (13 Table 13.4). -/
def settleData (s : State) : State :=
  (s.eng.cmds.filter fun c => c.op == 1 && c.step == 1 && !c.done && !recsPending s c.key).foldl
    (fun t c => endCmd t c.key c.status.toNat) s

/-- The checkpoint commits (14 R316, step 4): covered records leave the ring, JRN_CKPT and JRN_CKSTART take the new values; with
it a replaced home is in use (R320). -/
def ckptCommit (s : State) (c : Ckpt) : State :=
  let s1 := wr (wr s (aJrn 0x38) (BitVec.ofNat 64 ((rdF s (aJrn 0x38) 47 0 + 1) % 2 ^ 48))) (aJrn 0x40) (BitVec.ofNat 64 c.startSeq)
  let s2 := wrF (wrF s1 (aJrn 8) 1 1 0) (aJrn 8) 7 7 0
  { s2 with jrn := { s2.jrn with
      ckpt := none, replaceHome := [], ring := s2.jrn.ring.filter fun r => decide (c.startSeq ≤ r.seq) || !r.committed } }

/-- What follows an acknowledgement: checkpoint steps, commits, completions, and the writes that wait. -/
def jrnAdvance (s : State) : State :=
  let s1 := match s.jrn.ckpt with
    | some c =>
      if c.stage = 0 then
        if c.chunks = 4 && !((s.jrn.outH0 ++ s.jrn.outH1).any fun w => w.ckpt) then ckptTail s c else s
      else if c.hdr0 && c.hdr1 then ckptCommit s c else s
    | none => s
  let s2 := settleData (commitLoop s1 s1.jrn.ring.length)
  pumpHomes (if s2.eng.groomWanted && s2.jrn.ckpt.isNone then submitGroom { s2 with eng := { s2.eng with groomWanted := false } } else s2)

/-! Appends and acknowledgements. -/

/-- The append due first: the control engine's, then SANITISE completions by rink, then the slot manager's (14 R311). -/
def nextAppend (l : List Rec) : Option Rec :=
  l.foldl (fun b r => match b with | none => some r | some c => if r.prio < c.prio then some r else some c) none

/-- A record is appended at SEQ and goes to both homes (14 R311, R313). -/
def appendRec (s : State) (r0 : Rec) : State :=
  let r := { r0 with seq := rdF s (aJrn 0x20) 47 0, off0 := homeLp s 0, off1 := homeLp s 1 }
  let put (t : State) (h : Nat) : State :=
    let lp := homeLp t h
    setLp (addHome t h { seq := some r.seq, off := lp, bytes := recBytes s r }) h ((lp + 32) % 2 ^ 30) (decide (2 ^ 30 ≤ lp + 32))
  let s1 := put (put s 0) 1
  let s2 := wr { s1 with jrn := { s1.jrn with todo := (takeFirst s1.jrn.todo fun q => q == r0).2, ring := s1.jrn.ring ++ [r] } }
    (aJrn 0x20) (BitVec.ofNat 64 ((r.seq + 1) % 2 ^ 48))
  evDuty { s2 with jrn := { s2.jrn with appendFc := some (frameOf s, fcNow s) } } 0 13

/-- JOURNAL_APPEND: at most one record is appended per fc (14 R311); a full ring makes it wait; at 12,288 records the unit
submits GROOM (R316). -/
def execJournalAppend (s : State) : Host.Outcome State Fault Refusal :=
  answer s (
    match nextAppend s.jrn.todo with
    | none => pumpHomes s
    | some r =>
      if s.jrn.recovering || !s.gen.jrn || s.jrn.appendFc == some (frameOf s, fcNow s) then s
      else if 16384 ≤ s.jrn.ring.length then
        if bitOf (rd s (aJrn 8)) 4 then s else raiseGFree (setFlag s (aJrn 8) 4) 245 0x141 1
      else
        let s1 := appendRec s r
        pumpHomes (if 12288 ≤ s1.jrn.ring.length then submitGroom s1 else s1))

/-- Home h has acknowledged the write of a record, or of a part of a checkpoint. -/
def homeAcked (s : State) (h : Nat) (w : HomeWrite) : State :=
  let s1 := setHomeOut s h ((takeFirst (homeOut s h) fun v => v == w).2)
  let j := s1.jrn
  let s2 := match w.seq with
    | some q => { s1 with jrn := { j with ring := updFirst j.ring (fun r => r.seq == q) fun r =>
        if h = 0 then { r with ack0 := true } else { r with ack1 := true } } }
    | none => s1
  let s3 := if w.hdr then { s2 with jrn := { s2.jrn with ckpt := s2.jrn.ckpt.map fun c =>
      if h = 0 then { c with hdr0 := true } else { c with hdr1 := true } } } else s2
  if (homeOut s3 h).any fun v => v.failedAt.isSome then s3
  else { s3 with jrn := if h = 0 then { s3.jrn with episode0 := false } else { s3.jrn with episode1 := false } }

/-- HOME_WRITE_ACK: the oldest acknowledgement of home h that reached NI 120 (14 R313, R316). -/
def execHomeWriteAck (h : BitVec 1) (s : State) : Host.Outcome State Fault Refusal :=
  answer s (
    match takeAnswer s (200 + h.toNat) with
    | (none, _) => s
    | (some (fa, _, _), t) =>
      match (homeOut t h.toNat).find? fun w => w.sent && w.failedAt.isNone && w.off == fa % 2 ^ 30 with
      | some w => jrnAdvance (homeAcked t h.toNat w)
      | none => t)

/-- HOME_WRITE_RETRY: the oldest failed write of home h is written again, 16 frames after it failed (14 R314). -/
def execHomeWriteRetry (h : BitVec 1) (s : State) : Host.Outcome State Fault Refusal :=
  answer s (
    let k := h.toNat
    match (homeOut s k).find? fun w => match w.failedAt with | some f => frameGe (frameOf s) ((f + 16) % 2 ^ 48) | none => false with
    | none => s
    | some w =>
      if engCan s 120 9 opMwr (linesOf w.off w.bytes.length) then
        sendHome (setHomeOut s k (updFirst (homeOut s k) (fun v => v == w) fun v => { v with failedAt := none })) k w
      else s)

/-- GROOM_NOW: JRN_CTL.GROOM_NOW written 1 (14 R316). -/
def execGroomNow (s : State) : Host.Outcome State Fault Refusal := answer s (submitGroom s)

/-- A home replaced by a delta (14 R320): its log starts at offset 0; no record commits until its first checkpoint. -/
def homeReplace (s : State) (h : Nat) : State :=
  let s1 := setFlag (dropCkpt (wr s (aJrn (0x48 + 8 * h)) 0)) (aJrn 8) 7
  submitGroom { s1 with jrn := { s1.jrn with replaceHome := insertNat s1.jrn.replaceHome h } }

/-! Repair of an entry (14 R308). -/

/-- An uncorrectable error is met in entry x: counted and notified, and its repair starts. -/
def ebtRepairStart (s : State) (x : Nat) : State :=
  if ebtLost s x then s
  else
    let s1 := setFlag (incSat { s with jrn := { s.jrn with repairs := insertNat s.jrn.repairs x } } 0x1E00010 1) 0x1E00000 0
    raiseRinkFree s1 (x % nRinks s) 0x143 2

/-- Bank read of entry x (14 R305, R308): a single error is corrected, written back and counted; an uncorrectable one reads
UNREADABLE and is repaired; reserved states read UNREADABLE. -/
def ebtRead (s : State) (x : Nat) : BitVec 128 × State :=
  if ebtLost s x || !s.jrn.fillsOpen then (ebtSeal ebtUnread, s)
  else
    let d := ebtDecode (ebtRaw s x)
    match d.2 with
    | .uncorrectable => (ebtSeal ebtUnread, ebtRepairStart s x)
    | .single => (if 4 < d.1 / 2 ^ 116 then ebtSeal ebtUnread else ebtSeal d.1, incSat (wrEbt s x d.1) 0x1E00008 1)
    | .none => (if 4 < d.1 / 2 ^ 116 then ebtSeal ebtUnread else ebtRaw s x, s)

/-- EBT_REPAIR_DONE: what the newest committed checkpoint held for entry x in home 0 and home 1; with neither the entry stays
UNREADABLE. Committed ring records for x are applied in SEQ order (14 R306, R308). -/
def execEbtRepairDone (x : BitVec 19) (h0 h1 : Option (BitVec 128)) (s : State) : Host.Outcome State Fault Refusal :=
  answer s (
    let k := x.toNat
    if s.jrn.repairs.contains k = false then s
    else
      let s1 := { s with jrn := { s.jrn with repairs := s.jrn.repairs.filter fun j => j != k } }
      match h0.orElse fun _ => h1 with
      | none => setFlag { s1 with jrn := { s1.jrn with unread := insertNat s1.jrn.unread k } } 0x1E00000 1
      | some v =>
        let w := (s.jrn.ring.filter fun r => r.typ == 1 && r.index == k && r.committed).foldl (fun _ r => r.body) v
        wrEbt s1 k w.toNat)

/-! Recovery (14 R318, R319; 24 R491). -/

/-- JRN_RECOVER: JRN_CTL.RECOVER written 1 (14 R318). -/
def execJrnRecover (s : State) : Host.Outcome State Fault Refusal :=
  answer s (if s.gen.jrn then { s with jrn := { s.jrn with recWanted := true } } else s)

/-- ep_up of home h's NI. -/
def homeUp (s : State) (h : Nat) : Bool := (getNi s (nodeLoc (homeNode s h))).port.up
/-- 2 s have passed since the cold image switched (24 R491). -/
def homeWaited (s : State) : Bool := match s.jrn.imageNs with | some t => decide (t + 2000000000 ≤ nowNs s) | none => false

/-- RECOVERY_START: when the control queue is empty (14 R322); after a cold image at a gate tick at which both home NIs are up, or
one of them once 2 s have passed (24 R491). -/
def execRecoveryStart (s : State) : Host.Outcome State Fault Refusal :=
  answer s (
    let boot := s.jrn.imageNs.isSome && atTick s && ((homeUp s 0 && homeUp s 1) || (homeWaited s && (homeUp s 0 || homeUp s 1)))
    if !s.jrn.recovering && s.eng.ctlQ.isEmpty && (boot || (s.jrn.recWanted && s.jrn.imageNs.isNone)) then
      { s with jrn := { s.jrn with recovering := true, recWanted := false } }
    else s)

/-- HOME_WAIT_TIMEOUT: 2 s after the switch neither home NI is up: one warning (24 R491). -/
def execHomeWaitTimeout (s : State) : Host.Outcome State Fault Refusal :=
  answer s (
    if homeWaited s && !s.jrn.waitRaised && !homeUp s 0 && !homeUp s 1 && !s.jrn.recovering then
      raiseGFree { s with jrn := { s.jrn with waitRaised := true } } 245 0x145 1
    else s)

/-- The checkpoints of a home that pass their checks (14 R317). -/
def ckptsOk (s : State) (h : HomeRead) : List CkptRead :=
  if h.readable then h.ckpts.filter fun c =>
    c.magic == 0x4A4B4350 && c.ver == 1 && c.inst.toNat == instNo s && c.digestOk && c.offset % 2 ^ 21 == 0
  else []

/-- The checkpoint of the highest CKNUM. -/
def bestCkpt (l : List CkptRead) : Option CkptRead :=
  l.foldl (fun b c => match b with | none => some c | some d => if d.cknum.toNat < c.cknum.toNat then some c else some d) none

/-- The correct record with the expected SEQ at an offset of a home. -/
def recAt (s : State) (h : HomeRead) (off : Option Nat) (seq : Nat) : Option Rec :=
  match off with
  | some o => if h.readable then match mget h.records (o % 2 ^ 30) with
      | some w => if recOk s w && fld w 47 0 == seq then some (recOf w) else none
      | none => none
    else none
  | none => none

/-- Replay from START_SEQ (14 R318, step 4): the state and how many records were applied. -/
def replay (s : State) (h0 h1 : HomeRead) (o0 o1 : Option Nat) (seq fuel count : Nat) : Nat × State :=
  match fuel with
  | 0 => (count, s)
  | f + 1 =>
    match (recAt s h0 o0 seq).orElse fun _ => recAt s h1 o1 seq with
    | none => (count, s)
    | some r =>
      let s1 := if r.typ = 1 then wrEbt s r.index (r.body.toNat % 2 ^ 120) else wrGrant s r.index r.body
      replay s1 h0 h1 (o0.map (· + 32)) (o1.map (· + 32)) ((seq + 1) % 2 ^ 48) f (count + 1)

/-- Banks and grant table emptied. -/
def ebtClear (s : State) : State :=
  { s with regs := s.regs.filter fun p =>
      !((0x1000000 ≤ p.1 && p.1 < 0x1800000) || (0x1E01000 ≤ p.1 && p.1 < 0x1E11000)) }

/-- The TBT row an entry makes (09 Table 09.6). -/
def rowOf (e : Ebt) : TbtRow := { tag := BitVec.ofNat 6 e.tag, gen := BitVec.ofNat 8 e.gen, dpa := BitVec.ofNat 25 e.dpa }

/-- A TBT row change at NI n takes effect at the next gate tick (09 R210). -/
def tbtPut (s : State) (n x : Nat) (r : Option TbtRow) : State :=
  updNi s n fun i => { i with dec := { i.dec with tbtDue := i.dec.tbtDue ++ [(x, r)] } }

/-- The BGT entry that BV names (10 Table 10.5). -/
def bgtOf (x : Nat) (e : Ebt) : BgtRow := ⟨e.mc, BitVec.ofNat 12 e.btgt, BitVec.ofNat 19 x, BitVec.ofNat 25 e.dpa⟩

/-- The index of NI n's BGT entry for a device base, or a free one, changes not yet in effect included. -/
def bgtIdx (i : Ni) (dpa : Nat) : Option Nat :=
  let all := i.dec.bgtDue.foldl (fun m p => match p.2 with | some r => mset m p.1 r | none => mdel m p.1) i.dec.bgt
  match all.find? fun p => p.2.dpa.toNat == dpa with
  | some p => some p.1
  | none => (List.range 256).find? fun j => (mget all j).isNone

/-- A BGT change at NI n takes effect at the next gate tick. -/
def bgtPut (s : State) (n j : Nat) (r : Option BgtRow) : State :=
  updNi s n fun i => { i with dec := { i.dec with bgtDue := i.dec.bgtDue ++ [(j, r)] } }

/-- The lift-pass row of an NI is written as rebuilt (14 R309), DENY_CNT at 0. -/
def rowPut (s : State) (n row : Nat) : State :=
  let r := rowRebuilt s n row
  pendWord (pendWord s (lptAddr n row) r.1) (lptAddr n row + 8) (BitVec.ofNat 64 r.2)

/-- TBT rows, BGT entries and lift-pass rows are rebuilt (14 R318, step 5). -/
def rebuild (s : State) : State :=
  let l := ebtListed s
  let s0 := l.foldl (fun t x => if (ebtGet t x).mv then wrEbt t x (ebtData { ebtGet t x with mv := false }) else t) s
  let s1 := (niList s0).foldl (fun t n => (getNi t n).dec.tbt.foldl (fun u p =>
    let e := ebtGet u p.1
    if ebtLive e && e.tni == n then u else tbtPut u n p.1 none) t) s0
  let s2 := (l.filter fun x => ebtLive (ebtGet s1 x)).foldl (fun t x =>
    let e := ebtGet t x
    let t1 := tbtPut t e.tni x (some (rowOf e))
    if e.bv then match bgtIdx (getNi t1 e.tni) e.dpa with
      | some j => bgtPut t1 e.tni j (some (bgtOf x e))
      | none => t1
    else t1) s1
  let rows := (s2.regs.filter fun p => decide (0x2000000 ≤ p.1) && decide (p.1 < 0x2000000 + 0x10000 * 128)).map fun p => (p.1 - 0x2000000) / 16
  (((grantsValid s2).map fun g => grantKey g.2 / 64) ++ rows).dedup.foldl (fun t k => rowPut t (k / 4096) (k % 4096)) s2

/-- A home's log pointer stands after the last record applied. -/
def lpAfter (s : State) (h : Nat) (o : Option Nat) (count : Nat) : State :=
  match o with | some e => setLp s h ((e + 32 * count) % 2 ^ 30) false | none => s

/-- The end of the checkpoint's region in a home: where it holds the same checkpoint. -/
def regionEnd (l : List CkptRead) (c : CkptRead) : Option Nat :=
  (l.find? fun d => d.cknum == c.cknum).map fun d => d.offset + regionSize

/-- What recovery leaves when it ends (14 R318, step 6). -/
def recEnd (s : State) (result src count : Nat) : State :=
  let s1 := { s with jrn := { s.jrn with
      ring := [], outH0 := [], outH1 := [], episode0 := false, episode1 := false, ckpt := none, recovering := false,
      imageNs := none, fillsOpen := true, repairs := [], unread := [] } }
  let s2 := wr (wrF s1 (aJrn 8) 1 1 0) (aJrn 0x68) (BitVec.ofNat 64 (result <<< 60 ||| src <<< 58 ||| count % 2 ^ 32))
  submitGroom (raiseGFree (setFlag s2 (aJrn 8) 5) 245 0x144 0)

/-- RECOVERY_DONE: with what was read from both homes, the recovery ends (14 R318, R319). -/
def execRecoveryDone (h0 h1 : HomeRead) (s : State) : Host.Outcome State Fault Refusal :=
  answer s (
    if !s.jrn.recovering then s
    else
      let l0 := ckptsOk s h0
      let l1 := ckptsOk s h1
      match bestCkpt (l0 ++ l1) with
      | none =>
        let s1 := raiseGFree (setFlag (rebuild (ebtClear s)) (aJrn 8) 6) 245 0x142 2
        recEnd s1 2 0 0
      | some c =>
        let src := if l0.any fun d => d.cknum == c.cknum then 1 else 2
        let s1 := c.body.foldl (fun t p => wrEbt t p.1 (p.2.toNat % 2 ^ 120)) (ebtClear s)
        let s2 := c.grants.foldl (fun t p => wrGrant t p.1 p.2) s1
        let o0 := regionEnd l0 c
        let o1 := regionEnd l1 c
        let r := replay s2 h0 h1 o0 o1 c.startSeq.toNat (h0.records.length + h1.records.length) 0
        let s3 := rebuild r.2
        let s4 := lpAfter (lpAfter s3 0 o0 r.1) 1 o1 r.1
        let s5 := wr (wr (wr s4 (aJrn 0x20) (BitVec.ofNat 64 ((c.startSeq.toNat + r.1) % 2 ^ 48))) (aJrn 0x38) (c.cknum.zeroExtend 64))
          (aJrn 0x40) (c.startSeq.zeroExtend 64)
        recEnd s5 (if h0.readable && h1.readable then 1 else 3) src r.1)

end Sys2Proof.Machine
end

