-- ==== Sys2Proof/Machine/Jobs.lean ====
section
/-! DEFINITION. The data services of the slots, the end of jobs, work stealing and engine failure (13 R289 to R292, R297, R299;
18 R399). One command of a data service is one turn of its slot (log 34). -/

namespace Sys2Proof.Machine

/-- Everything the job asks for has been asked and answered (13 R292). -/
def jobFinished (c : Cmd) (j : Job) : Bool :=
  j.outstanding == 0 && (c.abort || (j.cursor == j.blocks && (!(j.op == 0x41 || (j.op == 1 && bitOf c.entry 9)) || j.check == j.blocks)))

/-- A data command of which no job is left ends (13 R292, R297): ABORTED after a ring reset, MISMATCH when data differed; a
SANITISE that succeeded has the FREE records of its RELEASED extents committed first (13 Table 13.4). -/
def finishData (s : State) (key : Nat) : State :=
  match getCmd s key with
  | none => s
  | some c =>
    if c.abort then endCmd s key 0x0B
    else if c.status ≠ 0 then endCmd s key c.status.toNat
    else if c.aux0 ≠ 0 ∧ (c.op = 3 ∨ c.op = 1) then
      endCmd (if c.op = 1 then updCmd s key fun c => { c with aux0 := 0 } else s) key 8
    else
      let l := c.extents.filter fun x => (ebtGet s x).st == 3
      if l.isEmpty then endCmd s key 0
      else
        let free (x : Nat) : Rec := entryRec key (1 + rinkOf s c.ring) x { ebtGet s x with st := 0, tni := 0, dpa := 0, tag := 0 }
        l.foldl (fun t x => jrnAdd t (free x)) (updCmd s key fun c => { c with step := 1 })

/-- The running job of a slot replaced. -/
def setRunning (s : State) (k : Nat) (j : Option Job) : State := updSlot s k fun e => { e with running := j }

/-- A slot that runs nothing takes the newest job of its deque, if it is of the service asked for and the slot has no queue to
serve (13 R290, R291), not before jobs that it took are on its deque; room in the deque lets waiting jobs of the command in. -/
def takeJob (s : State) (k op : Nat) : State :=
  let e := getSlot s k
  match e.running, e.deque with
  | none, j :: rest =>
    if e.pushAt ≤ nowNs s && j.op.toNat = op && rinkOn s (k / 8) && (slotPos s k).isSome && !onDuty s k then
      pushJobs (updSlot s k fun e => { e with running := some j, deque := rest, parked := false }) j.cmd
    else s
  | _, _ => s

/-- What a service does with the answer to a request: slot, job, second read of a VERIFY, FA, lines; `none` when it cannot be
handled yet. -/
abbrev AnsFn := State → Nat → Job → Bool → Nat → List Line → Option (Job × State)
/-- How a service issues its next requests. -/
abbrev IssueFn := State → Nat → Job → Option (Job × State)

/-- The answers that reached the slot are handled in order (13 R292, R297); event 10 counts those that are not OK. -/
def drainAnswers (f : AnsFn) (bad : State → Job → Bool → Nat → Job × State) (s : State) (k fuel : Nat) : State :=
  match fuel with
  | 0 => s
  | n + 1 =>
    match takeFirst s.eng.inbox fun a => a.1 == k || a.1 == 64 + k with
    | (none, _) => s
    | (some a, rest) =>
      let t := { s with eng := { s.eng with inbox := rest } }
      match (getSlot s k).running with
      | none => drainAnswers f bad t k n
      | some j =>
        if a.2.2.2 ≠ 0 then
          let r := bad (failCmd (evSlot t k 10 1) j.cmd a.2.1 a.2.2.2) j (a.1 == 64 + k) a.2.1
          drainAnswers f bad (setRunning r.2 k (some { r.1 with outstanding := r.1.outstanding - 1 })) k n
        else match f t k j (a.1 == 64 + k) a.2.1 a.2.2.1 with
          | some r => drainAnswers f bad (setRunning r.2 k (some r.1)) k n
          | none => s

/-- A failed request of a job without a further effect. -/
def noBad (s : State) (j : Job) (_ : Bool) (_ : Nat) : Job × State := (j, s)

/-- One turn of a slot's data mover on a service: a job is taken, answers are handled, and the next block is requested while
the slot has one of its 96 places and the NI has room (13 R284, R292). -/
def serveJob (op : Nat) (need : Nat) (f : AnsFn) (bad : State → Job → Bool → Nat → Job × State) (issue : IssueFn) (s : State) (k : Nat) : State :=
  if !rinkOn s (k / 8) then s
  else
    let s0 := takeJob s k op
    match (getSlot s0 k).running with
    | none => s0
    | some j0 =>
      if j0.op.toNat ≠ op then s0
      else
        let s1 := drainAnswers f bad s0 k s0.eng.inbox.length
        match (getSlot s1 k).running with
        | none => s1
        | some j =>
          if (match getCmd s1 j.cmd with | some c => c.abort | none => true) then s1
          else if 96 < j.outstanding + need then evSlot s1 k 14 1
          else match issue s1 k j with
            | some r => setRunning r.2 k (some { r.1 with outstanding := r.1.outstanding + need })
            | none => s1

/-- The word pattern of a fill as a line. -/
def patLine (w : Word) : Line := BitVec.ofNat 512 ((List.range 8).foldl (fun a i => a ||| w.toNat <<< (64 * i)) 0)

/-- The first byte at which two blocks differ. -/
def firstDiff (a b : List Line) : Option Nat :=
  ((List.range (max a.length b.length)).find? fun i => a.getD i 0 != b.getD i 0).map fun i =>
    64 * i + (((List.range 64).find? fun j => fld (a.getD i 0) (8 * j + 7) (8 * j) != fld (b.getD i 0) (8 * j + 7) (8 * j)).getD 0)

/-- A block that differs is noted once, by its lowest differing FA. -/
def noteDiff (j : Job) (fa d : Nat) : Job :=
  if j.diffs.any fun e => e / 4096 == (fa + d) / 4096 then j else { j with diffs := j.diffs ++ [fa + d] }

/-! SANITISE (13 Table 13.4). -/

/-- Lines that SANITISE read back are compared with the pattern. -/
def saniAnswer : AnsFn := fun s k j _ fa data =>
  let c := getCmd s j.cmd
  let pat := patLine (cmdW (c.getD {}).entry 3)
  let j1 := { j with outstanding := j.outstanding - 1 }
  if data.isEmpty then some (j1, s)
  else
    let s1 := evSlot s k 7 64
    match firstDiff data (List.replicate 64 pat) with
    | some d => some (noteDiff j1 fa d, s1)
    | none => some (j1, s1)

/-- One MWR of 64 lines of the pattern; with CHK a MemRd of each block after all writes are acknowledged. -/
def saniIssue : IssueFn := fun s k j =>
  let c := (getCmd s j.cmd).getD {}
  if j.cursor < j.blocks then
    if engCan s (svcNi (k / 8)) (k % 8) opMwr 64 then
      some ({ j with cursor := j.cursor + 1 },
        evSlot (slotSend s k k opMwr (j.fa + 4096 * j.cursor) j.direct 4096 (List.replicate 64 (patLine (cmdW c.entry 3)))) k 8 64)
    else none
  else if bitOf c.entry 9 ∧ j.check < j.blocks ∧ (j.outstanding = 0 ∨ 0 < j.check) ∧ engCan s (svcNi (k / 8)) (k % 8) opMemRd 64 then
    some ({ j with check := j.check + 1 }, slotSend s k k opMemRd (j.fa + 4096 * j.check) j.direct 4096 [])
  else none

/-- SANITISE: a turn of the slot's data mover on a SANITISE job. -/
def execSanitise (slot : BitVec 6) (s : State) : Host.Outcome State Fault Refusal :=
  answer s (serveJob 0x01 1 saniAnswer noBad saniIssue s slot.toNat)

/-! COPY. -/

/-- What a COPY read is written at the destination; a write's acknowledgement ends the block. -/
def copyAnswer : AnsFn := fun s k j _ fa data =>
  if data.isEmpty then some ({ j with outstanding := j.outstanding - 1 }, s)
  else if engCan s (svcNi (k / 8)) (k % 8) opMwr 64 then
    some (j, evSlot (evSlot (slotSend s k k opMwr (j.fa + (fa - j.src)) j.direct 4096 data) k 7 64) k 8 64)
  else none

/-- One MemRd at the source. -/
def copyIssue : IssueFn := fun s k j =>
  if j.cursor < j.blocks ∧ engCan s (svcNi (k / 8)) (k % 8) opMemRd 64 then
    some ({ j with cursor := j.cursor + 1 }, slotSend s k k opMemRd (j.src + 4096 * j.cursor) none 4096 [])
  else none

/-- COPY: a turn of the slot's data mover on a COPY job. -/
def execCopy (slot : BitVec 6) (s : State) : Host.Outcome State Fault Refusal :=
  answer s (serveJob 0x02 1 copyAnswer noBad copyIssue s slot.toNat)

/-! VERIFY. -/

/-- A VERIFY against a pattern (13 Table 13.2, W4[0]). -/
def verPattern (e : BitVec 512) : Bool := bitOf (cmdW e 4) 0

/-- The lines of a block are compared with the pattern, or with its counterpart once both are here. -/
def verAnswer : AnsFn := fun s k j second fa data =>
  let e := ((getCmd s j.cmd).getD {}).entry
  let s1 := evSlot s k 7 64
  let j1 := { j with outstanding := j.outstanding - 1 }
  if verPattern e then
    match firstDiff data (List.replicate 64 (patLine (cmdW e 2))) with
    | some d => some (noteDiff j1 fa d, s1)
    | none => some (j1, s1)
  else
    let base := if second then j.fa + (fa - j.src) else fa
    match takeFirst j.got fun g => g.1 == base && g.2.1 != second with
    | (some g, rest) =>
      let j2 := { j1 with got := rest }
      match firstDiff data g.2.2 with
      | some d => some (noteDiff j2 base d, s1)
      | none => some (j2, s1)
    | (none, _) => some ({ j1 with got := j1.got ++ [(base, second, data)] }, s1)

/-- A block of which one read failed is not compared: what came of it is dropped when it comes. -/
def verBad (s : State) (j : Job) (second : Bool) (fa : Nat) : Job × State :=
  let base := if second then j.fa + (fa - j.src) else fa
  match takeFirst j.got fun g => g.1 == base && g.2.1 != second with
  | (some _, rest) => ({ j with got := rest }, s)
  | (none, _) => (j, s)

/-- One MemRd, or two for a compare. -/
def verIssue (two : Bool) : IssueFn := fun s k j =>
  let n := svcNi (k / 8)
  if j.cursor < j.blocks ∧ engCan s n (k % 8) opMemRd 64 then
    let s1 := slotSend s k k opMemRd (j.fa + 4096 * j.cursor) none 4096 []
    if two then
      if engCan s1 n (k % 8) opMemRd 64 then
        some ({ j with cursor := j.cursor + 1 }, slotSend s1 k (64 + k) opMemRd (j.src + 4096 * j.cursor) none 4096 [])
      else none
    else some ({ j with cursor := j.cursor + 1 }, s1)
  else none

/-- The running or next job of a slot is a compare of two ranges. -/
def verTwo (s : State) (k : Nat) : Bool :=
  let e := getSlot s k
  match e.running.orElse fun _ => e.deque.head? with
  | some j => !verPattern ((getCmd s j.cmd).getD {}).entry
  | none => false

/-- VERIFY: a turn of the slot's data mover on a VERIFY job. -/
def execVerify (slot : BitVec 6) (s : State) : Host.Outcome State Fault Refusal :=
  answer s (
    let two := verTwo s slot.toNat
    serveJob 0x03 (if two then 2 else 1) verAnswer verBad (verIssue two) s slot.toNat)

/-! TELEMETRY (20 R428, R429). -/

/-- Counter i is read normally now: its unit is ON and no failed router (20 R428). -/
def cntLive (s : State) (i : Nat) : Bool :=
  if i < 2048 then mgetD s.pwr.cols (i / 32 % nCols s) 0 == 0 && !(getRtr s (i / 32)).failed
  else if i < 8192 then (getNi s ((i - 2048) / 48)).region == 0
  else if i < 8384 then true
  else mgetD s.pwr.rinks ((i - 8384) / 144) 0 == 0

/-- The value TELEMETRY writes for counter i. -/
def teleValue (s : State) (snap : Bool) (i : Nat) : Word :=
  if snap then rd s (0x480000 + 8 * i) else if cntLive s i then rd s (0x410000 + 8 * i) else 0xFFFFFFFFFFFFFFFF#64

/-- Up to 8 counter values of a line from counter i on, below `last`. -/
def teleCntLine (s : State) (snap : Bool) (i last : Nat) : Line :=
  BitVec.ofNat 512 ((List.range 8).foldl (fun a j => if i + j < last then a ||| (teleValue s snap (i + j)).toNat <<< (64 * j) else a) 0)

/-- An acknowledgement of a write. -/
def ackAnswer : AnsFn := fun s _ j _ _ _ => some ({ j with outstanding := j.outstanding - 1 }, s)

/-- One IO_MWR of up to 4 KiB of counter values, 8 bytes each, in counter order. -/
def teleIssue : IssueFn := fun s k j =>
  let w2 := cmdW ((getCmd s j.cmd).getD {}).entry 2
  let first := fld w2 13 0 + 512 * j.cursor
  let last := fld w2 13 0 + fld w2 29 16
  let n := min 512 (last - first)
  if j.cursor < j.blocks ∧ engCan s (svcNi (k / 8)) (k % 8) opIoMwr (ceilDiv n 8) then
    let lines := (List.range (ceilDiv n 8)).map fun l => teleCntLine s (bitOf w2 31) (first + 8 * l) last
    some ({ j with cursor := j.cursor + 1 },
      evSlot (slotSend s k k opIoMwr (j.fa + 4096 * j.cursor) none (8 * n) lines) k 8 lines.length)
  else none

/-- TELEMETRY: a turn of the slot's data mover on a TELEMETRY job. -/
def execTelemetry (slot : BitVec 6) (s : State) : Host.Outcome State Fault Refusal :=
  answer s (serveJob 0x40 1 ackAnswer noBad teleIssue s slot.toNat)

/-! GROOM (14 R316). -/

/-- First extent of block i of a chunk's job. -/
def groomX (j : Job) (i : Nat) : Nat := (j.fa + 4096 * i) / 16

/-- The entries of a block are noted as copied; zero entries are not listed. -/
def noteBody (s : State) (c : Ckpt) (x : Nat) : Ckpt :=
  { c with body := (List.range 256).foldl (fun b d => let v := ebtRaw s (x + d); if v = 0 then mdel b (x + d) else mset b (x + d) v) c.body }

/-- The chunk's next 4 KiB go to the body of home 0's region, then to home 1's (`check` counts those); the chunk waits for an
entry under repair (R308). -/
def groomIssue : IssueFn := fun s k j =>
  match s.jrn.ckpt with
  | none => none
  | some c =>
    let n := svcNi (k / 8)
    if c.key ≠ j.cmd ∨ !engCan s n (k % 8) opMwr 64 then none
    else if j.check < j.cursor then
      let lines := linesAt 0 (bodyBlock c.body (groomX j j.check))
      let off := c.off1 + 0x1000 + j.fa + 4096 * j.check
      some ({ j with check := j.check + 1 },
        evSlot (slotSend s k (64 + k) opMwr (homeBase s 1 + off) (some (homeNode s 1)) 4096 lines) k 8 64)
    else
      let x := groomX j j.cursor
      if j.blocks ≤ j.cursor ∨ (s.jrn.repairs.any fun r => decide (x ≤ r) && decide (r < x + 256)) then none
      else
        let c1 := noteBody s c x
        let lines := linesAt 0 (bodyBlock c1.body x)
        let off := c.off0 + 0x1000 + j.fa + 4096 * j.cursor
        some ({ j with cursor := j.cursor + 1 },
          evSlot (slotSend { s with jrn := { s.jrn with ckpt := some c1 } } k k opMwr (homeBase s 0 + off) (some (homeNode s 0)) 4096 lines)
            k 8 64)

/-- A chunk write that failed is a failed home write: the journal unit writes it again (14 R314); the command does not fail. -/
def groomBad (s : State) (j : Job) (second : Bool) (fa : Nat) : Job × State :=
  let h := if second then 1 else 0
  match s.jrn.ckpt with
  | some c =>
    if c.key = j.cmd then
      let off := fa % 2 ^ 30
      let x := (off - (if second then c.off1 else c.off0) - 0x1000) / 16
      let s1 := updCmd s j.cmd fun d => { d with status := 0, result := 0 }
      (j, homeFail (addHome s1 h { ckpt := true, sent := true, off := off, bytes := bodyBlock c.body x }) h fa)
    else (j, s)
  | none => (j, s)

/-- GROOM: a turn of the slot's data mover on a GROOM job. -/
def execGroom (slot : BitVec 6) (s : State) : Host.Outcome State Fault Refusal :=
  answer s (serveJob 0x41 1 ackAnswer groomBad groomIssue s slot.toNat)

/-! The end of a job. -/

/-- The differences a job found go into its command (13 Table 13.4): their count, saturating at 0xFFF, and the lowest FA. -/
def mergeDiffs (s : State) (j : Job) : State :=
  j.diffs.foldl (fun t d => updCmd t j.cmd fun c =>
    { c with aux0 := BitVec.ofNat 12 (satAdd 0xFFF c.aux0.toNat 1),
             result := if c.status ≠ 0 then c.result
               else if c.aux0 = 0 ∨ d < c.result.toNat then BitVec.ofNat 64 d else c.result }) s

/-- A job of a command has ended: the last one ends the command; a GROOM's chunk counts for its checkpoint. -/
def jobEnded (s : State) (j : Job) : State :=
  let s1 := mergeDiffs s j
  let s2 := pushJobs (updCmd s1 j.cmd fun c => { c with jobsLeft := c.jobsLeft - 1 }) j.cmd
  let s3 := match s2.jrn.ckpt with
    | some c => if c.key = j.cmd then jrnAdvance { s2 with jrn := { s2.jrn with ckpt := some { c with chunks := c.chunks + 1 } } } else s2
    | none => s2
  match getCmd s3 j.cmd with
  | some c => if c.jobsLeft = 0 then finishData s3 j.cmd else s3
  | none => s3

/-- JOB_COMPLETE: the slot's running job is complete (13 R292); event 2 and ENG_E_JOBS. -/
def execJobComplete (slot : BitVec 6) (s : State) : Host.Outcome State Fault Refusal :=
  answer s (
    let k := slot.toNat
    match (getSlot s k).running with
    | none => s
    | some j =>
      if jobFinished ((getCmd s j.cmd).getD { abort := true }) j then
        let s1 := evSlot (setRunning s k none) k 2 1
        let s2 := match slotEng s k with | some g => incSat s1 (aEng (0x1010 + 0x20 * g)) 1 | none => s1
        jobEnded s2 j
      else s)

/-! Work stealing (13 R291). -/

/-- The slot is idle: its deque and its queue are empty and it runs nothing. -/
def slotIdle (s : State) (k : Nat) : Bool :=
  slotWorks s k && (getSlot s k).deque.isEmpty && (getSlot s k).running.isNone && !onDuty s k

/-- A slot may be a victim: it works, or it is closed and its deque is not empty (13 R299). -/
def victimOk (s : State) (v : Nat) : Bool :=
  slotWorks s v || (rinkTakes s (v / 8) && (getSlot s v).closed && !(getSlot s v).deque.isEmpty)

/-- The next slot of rink b after place p that may be a victim, not `me`. -/
def nextVictim (s : State) (b p me : Nat) : Option Nat :=
  ((List.range 8).map fun d => 8 * b + (p + 1 + d) % 8).find? fun v => v != me && victimOk s v

/-- The victim that slot k looks at next, and the slot with its pointers moved; pointers are kept as distances from the slot's
own place and rink. -/
def stealTarget (s : State) (k : Nat) : Option Nat × EngSlot :=
  let e := getSlot s k
  let b := k / 8
  let own := k % 8
  if e.fails < 4 then
    let v := nextVictim s b (own + e.ptr) k
    (v, { e with ptr := match v with | some u => (u % 8 + 8 - own) % 8 | none => e.ptr })
  else
    let r := nRinks s
    let rp := match ((List.range r).map fun d => (b + e.rptr + 1 + d) % r).find? fun c => c != b with | some c => c | none => b
    let v := nextVictim s rp (own + mgetD e.ptrR rp 0) k
    (v, { e with rptr := (rp + r - b) % r, ptrR := match v with | some u => mset e.ptrR rp ((u % 8 + 8 - own) % 8) | none => e.ptrR })

/-- A steal counter of the engine that serves a slot: thefts in [31:16], failed attempts in [15:0], saturating. -/
def stealCount (s : State) (k : Nat) (theft : Bool) : State :=
  match slotEng s k with
  | some g =>
    let a := aEng (0x1018 + 0x20 * g)
    if theft then wrF s a 31 16 (satAdd 0xFFFF (rdF s a 31 16) 1) else wrF s a 15 0 (satAdd 0xFFFF (rdF s a 15 0) 1)
  | none => s

/-- WORK_STEAL: one turn of the loop of R291 at an idle slot: it takes the half of a victim's deque that is oldest, which it has on its
own deque t rc later, or counts a failure and waits t rc; after eleven it parks. From a victim that another took from in this rc it moves
on, without a failure (Table 13.10). -/
def execWorkSteal (slot : BitVec 6) (s : State) : Host.Outcome State Fault Refusal :=
  answer s (
    let k := slot.toNat
    let e := getSlot s k
    if !slotIdle s k || e.parked || decide (nowNs s < e.waitTo) then s
    else if 11 ≤ e.fails then updSlot s k fun e => { e with parked := true }
    else
      let r := stealTarget s k
      let n := match r.1 with | some v => (getSlot s v).deque.length | none => 0
      let t := nowNs s + (if e.fails < 4 then 8 else 32)
      if r.1.any fun v => (getSlot s v).takenNs == some (nowNs s) then updSlot s k fun _ => { r.2 with waitTo := nowNs s + 1 }
      else if n = 0 then stealCount (evSlot (updSlot s k fun _ => { r.2 with fails := e.fails + 1, waitTo := t }) k 5 1) k false
      else
        let v := r.1.getD k
        let d := (getSlot s v).deque
        let take := d.drop (n - ceilDiv n 2)
        let s1 := updSlot (updSlot s v fun u => { u with deque := d.take (n - ceilDiv n 2), takenNs := some (nowNs s) }) k fun _ =>
          { r.2 with fails := 0, deque := take, pushAt := t }
        let s2 := evSlot (evSlot (wakeAll s1) k (if v / 8 = k / 8 then 3 else 4) 1) v 6 take.length
        let s3 := stealCount s2 k true
        match take.head? with | some j => pushJobs s3 j.cmd | none => s3)

/-- PARK_WAKE: a parked slot wakes after a push anywhere in the instance (13 R291). -/
def execParkWake (slot : BitVec 6) (s : State) : Host.Outcome State Fault Refusal :=
  answer s (
    let k := slot.toNat
    if (getSlot s k).parked && s.eng.wakes.contains k then
      updSlot { s with eng := { s.eng with wakes := s.eng.wakes.filter fun j => j != k } } k fun e => { e with parked := false, fails := 0 }
    else s)

/-! Failure of an engine (13 R299, 18 R399). -/

/-- A job from its start. -/
def jobRestart (j : Job) (keep : Nat) : Job := { j with cursor := 0, outstanding := keep, check := 0, diffs := [], got := [] }

/-- The running job of a slot is replayed from its start, unless it is complete (13 R299, R300). -/
def replayJob (s : State) (k : Nat) : State :=
  match (getSlot s k).running with
  | some j =>
    if jobFinished ((getCmd s j.cmd).getD { abort := true }) j then s
    else evSlot (setRunning s k (some (jobRestart j j.outstanding))) k 15 1
  | none => s

/-- A slot closes (13 R299): its running job waits in its deque for a thief. -/
def closeSlot (s : State) (k : Nat) : State :=
  let s1 := wrF s (aEng (8 + 8 * (k / 8))) (4 * (k % 8) + 3) (4 * (k % 8)) 15
  updSlot s1 k fun e => match e.running with
    | some j =>
      if jobFinished ((getCmd s j.cmd).getD { abort := true }) j then { e with closed := true, parked := false }
      else { e with closed := true, parked := false, running := none, deque := jobRestart j 0 :: e.deque }
    | none => { e with closed := true, parked := false }

/-- The ADMIT in progress restarts from its start (13 R299). -/
def restartAdmit (s : State) : State := match s.eng.admQ.head? with | some key => updCmd s key fun c => { c with step := 0 } | none => s

/-- ENGINE_FAIL: engine e is declared failed: its slot moves to the rink's spare, or closes (13 R299, 18 R399). -/
def execEngineFail (e : BitVec 7) (s : State) : Host.Outcome State Fault Refusal :=
  answer s (
    let g := e.toNat
    let b := g / 9
    if !rinkOn s b || s.eng.failedE.contains g then s
    else
      let s0 := { s with eng := { s.eng with failedE := insertNat s.eng.failedE g } }
      match ((List.range 8).map (8 * b + ·)).find? fun k => slotPos s k == some (g % 9) with
      | none => s0
      | some k =>
        let duty := dutySlot s admRink == some k
        let s1 := if duty then restartAdmit s0 else s0
        if !bitOf (rd s (aEng (8 + 8 * b))) 32 && !s.eng.failedE.contains (9 * b + 8) then
          let s2 := wrF (wrF s1 (aEng (8 + 8 * b)) (4 * (k % 8) + 3) (4 * (k % 8)) 8) (aEng (8 + 8 * b)) 32 32 1
          replayJob (raiseRinkFree (setFlag s2 (aEng 0) 1) b 0x132 1) k
        else raiseRinkFree (setFlag (setFlag (closeSlot s1 k) (aEng 0) 0) (aEng 0) 2) b 0x131 2)

end Sys2Proof.Machine
end

