-- ==== Sys2Proof/Machine/Rings.lean ====
section
/-! DEFINITION. Command rings: producer and consumer indices, fetch, the checks of a command at its arrival, completion, reset
and resume (13 R285 to R290, R296 to R298, R300). -/

namespace Sys2Proof.Machine

/-- RING_PI_WRITE: the producer writes PI (13 R285). -/
def execRingPiWrite (q : BitVec 4) (v : BitVec 12) (s : State) : Host.Outcome State Fault Refusal :=
  answer s (ringPiPut s q.toNat v)

/-- RING_RCI_WRITE: the consumer of completions writes RCI (13 R285). -/
def execRingRciWrite (q : BitVec 4) (v : BitVec 12) (s : State) : Host.Outcome State Fault Refusal :=
  answer s (ringRciPut s q.toNat v)

/-- Ring q may fetch (13 R286). -/
def mayFetch (s : State) (q : Nat) : Bool :=
  ringOn s q && s.rst.warm == 0 && !(getRing s q).fetching && !(getRing s q).stopped && !(getRing s q).resetting &&
    !sameIdx s q (ringPi s q) (ringCi s q) && decide (ringBusy s q < 16) && compRoom s q

/-- The rings of rink b in round-robin order after the one it fetched last (13 R286). -/
def ringOrder (s : State) (b : Nat) : List Nat :=
  let last := mgetD s.eng.lastRing b 15
  ((List.range 16).map fun d => (last + 1 + d) % 16).filter fun q => q % nRinks s == b

/-- RING_FETCH: rink b fetches the next entry of its next ring: one MemRd of 64 bytes on queue 8 (13 R284, R286). -/
def execRingFetch (b : BitVec 3) (s : State) : Host.Outcome State Fault Refusal :=
  answer s (
    let r := b.toNat
    if !rinkTakes s r || !engCan s (svcNi r) 8 opMemRd 1 then s
    else match (ringOrder s r).find? (mayFetch s) with
      | none => s
      | some q =>
        let base := rdF s (aEng (0x108 + 0x40 * q)) 51 12 * 4096
        let s1 := updRing s q fun x => { x with fetching := true }
        let s2 := { s1 with eng := { s1.eng with lastRing := mset s1.eng.lastRing r q } }
        engSend s2 (svcNi r) 8 (128 + q) opMemRd (base + 64 * (ringCi s q % 2 ^ ringSz s q)) none 64 [])

/-! The checks of a command (13 R287, R288; Table 13.2). -/

/-- PERM bit of an operation. -/
def permBit (op : Nat) : Option Nat :=
  match op with
  | 0x01 => some 0 | 0x02 => some 0 | 0x03 => some 0
  | 0x04 => some 1
  | 0x10 => some 2 | 0x11 => some 2 | 0x12 => some 2 | 0x13 => some 2
  | 0x20 => some 3 | 0x21 => some 3
  | 0x30 => some 4 | 0x40 => some 5 | 0x41 => some 6
  | _ => none

/-- Operations of the control queue (13 R290). -/
def isCtlOp (op : Nat) : Bool := op == 0x04 || op == 0x10 || op == 0x11 || op == 0x12 || op == 0x13 || op == 0x30
/-- Operations of the ADMIT queue. -/
def isAdmOp (op : Nat) : Bool := op == 0x20 || op == 0x21
/-- Commands that change bindings: a recovery holds them (14 R318). -/
def isBindOp (op : Nat) : Bool := op == 0x04 || op == 0x10 || op == 0x11 || op == 0x12 || op == 0x30

/-- A range of `blocks` 4 KiB blocks lies in pooled extents of this instance (13 R288). -/
def pooledRange (s : State) (fa blocks : Nat) : Bool :=
  fa / 2 ^ 46 == instNo s && fa % 2 ^ 46 + 4096 * blocks ≤ 2 ^ 27 * nExtents s

/-- Two ranges overlap. -/
def rangesMeet (a b blocks : Nat) : Bool := decide (a < b + 4096 * blocks) && decide (b < a + 4096 * blocks)

/-- Blocks of a TELEMETRY command. -/
def teleBlocks (e : BitVec 512) : Nat := ceilDiv (fld (cmdW e 2) 29 16) 512

/-- Arguments of an operation are in their ranges and aligned (13 R288; log 25). -/
def argsOk (s : State) (op : Nat) (e : BitVec 512) : Bool :=
  let w1 := (cmdW e 1).toNat
  let w2 := (cmdW e 2).toNat
  let x := fld (cmdW e 1) 18 0
  let len := fld (cmdW e 3) 31 0
  match op with
  | 0x01 => let c := fld (cmdW e 2) 12 0; 1 ≤ c && c ≤ 4096 && x + c ≤ nExtents s
  | 0x02 => w1 % 4096 == 0 && w2 % 4096 == 0 && pooledRange s w1 len && pooledRange s w2 len && !rangesMeet w1 w2 len
  | 0x03 => w1 % 4096 == 0 && pooledRange s w1 len && (verPattern e || (w2 % 4096 == 0 && pooledRange s w2 len))
  | 0x04 => x < nExtents s && isEpNi s (fld (cmdW e 2) 7 0) && fld (cmdW e 2) 7 0 != (ebtGet s x).tni
  | 0x10 => x < nExtents s && (bitOf e 10 || isEpNi s (fld (cmdW e 2) 7 0))
  | 0x11 => x < nExtents s
  | 0x12 => x < nExtents s && (masterRow s (BitVec.ofNat 12 (fld (cmdW e 2) 11 0)) (fld (cmdW e 2) 15 12)).isSome &&
      (!bitOf (cmdW e 3) 10 || fld (cmdW e 3) 9 0 < nGroups s)
  | 0x13 => isNi s (fld (cmdW e 1) 7 0)
  | 0x30 => w1 % 4096 == 0 && (cmdW e 3).toNat % 4096 == 0 && pooledRange s w1 1 && pooledRange s (cmdW e 3).toNat 1
  | 0x40 => w1 % 4096 == 0 && pooledRange s w1 (teleBlocks e) && fld (cmdW e 2) 13 0 + fld (cmdW e 2) 29 16 ≤ 9536
  | _ => true

/-- The extents a range touches. -/
def extentsOf (fa blocks : Nat) : List Nat :=
  if blocks = 0 then [] else
    let a := fa / 2 ^ 27 % 2 ^ 19
    (List.range ((fa % 2 ^ 27 + 4096 * blocks - 1) / 2 ^ 27 + 1)).map (a + ·)

/-- The extents a data command reads, and those it writes (13 R287). -/
def touched (e : BitVec 512) (op : Nat) : List Nat × List Nat :=
  let w1 := (cmdW e 1).toNat
  let w2 := (cmdW e 2).toNat
  let len := fld (cmdW e 3) 31 0
  match op with
  | 0x01 => ([], (List.range (fld (cmdW e 2) 12 0)).map (fld (cmdW e 1) 18 0 + ·))
  | 0x02 => (extentsOf w1 len, extentsOf w2 len)
  | 0x03 => (extentsOf w1 len ++ (if verPattern e then [] else extentsOf w2 len), [])
  | 0x40 => ([], extentsOf w1 (teleBlocks e))
  | _ => ([], [])

/-- The owner's lift-pass row at an extent's serving NI holds its tag with a permission bit (13 R287). -/
def ownerMay (s : State) (q bit x : Nat) : Bool :=
  let c := ringCfg s q
  let e := ebtGet s x
  match masterRow s (BitVec.ofNat 12 (fld c 36 25)) (fld c 24 21) with
  | none => false
  | some row => (e.st == 1 || e.st == 2 || e.st == 3) &&
      bitOf (rd s (lptAddr e.tni row)) e.tag && bitOf (rd s (lptAddr e.tni row + 8)) bit

/-- What an owned ring refuses (13 R287). -/
def ownerDenied (s : State) (q op : Nat) (e : BitVec 512) : Bool :=
  if bitOf (ringCfg s q) 20 = false then false
  else if op = 0x04 ∨ op = 0x12 ∨ op = 0x13 then true
  else
    let w1 := (cmdW e 1).toNat
    let w2 := (cmdW e 2).toNat
    let direct := match op with
      | 0x02 => decide (2 ^ 50 ≤ w1) || decide (2 ^ 50 ≤ w2)
      | 0x03 => decide (2 ^ 50 ≤ w1) || (!verPattern e && decide (2 ^ 50 ≤ w2))
      | 0x40 => decide (2 ^ 50 ≤ w1)
      | _ => false
    direct || (argsOk s op e && (!(touched e op).1.all (ownerMay s q 0) || !(touched e op).2.all (ownerMay s q 1)))

/-- The status with which a command ends at its arrival: BAD_OP, DENIED, BAD_ARG, or BUSY for a GROOM while one runs. -/
def arrivalStatus (s : State) (q : Nat) (e : BitVec 512) : Nat :=
  let op := fld e 7 0
  match permBit op with
  | none => 1
  | some b =>
    if !bitOf (ringCfg s q) b then 3
    else if ownerDenied s q op e then 3
    else if !argsOk s op e then 2
    else if op = 0x41 ∧ s.jrn.ckpt.isSome then 0x0C
    else 0

/-- The jobs of a data command, in ascending address order (13 R289); a RELEASED extent's SANITISE goes to the device memory
behind its recorded NI. -/
def jobsOf (s : State) (key : Nat) (e : BitVec 512) : List Job :=
  let w1 := (cmdW e 1).toNat
  let w2 := (cmdW e 2).toNat
  let len := fld (cmdW e 3) 31 0
  match fld e 7 0 with
  | 0x01 =>
    ((List.range (fld (cmdW e 2) 12 0)).map fun d =>
      let x := fld (cmdW e 1) 18 0 + d
      let v := ebtGet s x
      let rel := v.st == 3
      (List.range 64).map fun j => ({
        cmd := key, op := 1, blocks := 512,
        fa := if rel then directFa (v.dpa * 2 ^ 27 + 2 ^ 21 * j) else pooledFa s x (2 ^ 21 * j)
        direct := if rel then some (nodeOf s v.tni) else none } : Job)).flatten
  | 0x02 => (cutRange w2 len (len / 512 + 2)).map fun p => { cmd := key, op := 2, fa := p.1, blocks := p.2, src := w1 + (p.1 - w2) }
  | 0x03 => (cutRange w1 len (len / 512 + 2)).map fun p => { cmd := key, op := 3, fa := p.1, blocks := p.2, src := w2 + (p.1 - w1) }
  | 0x40 => [{ cmd := key, op := 0x40, fa := w1, blocks := teleBlocks e }]
  | _ => []

/-- A data command starts: its jobs are pushed at its rink (13 R289); one without jobs is complete. -/
def startData (s : State) (key : Nat) : State :=
  match getCmd s key with
  | none => s
  | some c =>
    if c.op = 0x41 then groomStart s key
    else
      let jobs := jobsOf s key c.entry
      let rel := if c.op = 1 then ((touched c.entry 1).2.filter fun x => (ebtGet s x).st == 3) else []
      let s1 := updCmd s key fun c => { c with jobsLeft := jobs.length, waitingJobs := jobs, extents := rel }
      if jobs.isEmpty then finishData s1 key else pushJobs s1 key

/-- The queue that a command needs has room; a binding command waits while a recovery is wanted or runs (13 R286, R290; 14 R318,
R322). -/
def queueRoom (s : State) (op : Nat) : Bool :=
  if isCtlOp op then decide (s.eng.ctlQ.length < 64) && !(isBindOp op && (s.jrn.recovering || s.jrn.recWanted || s.jrn.imageNs.isSome))
  else if isAdmOp op then decide (s.eng.admQ.length < 64)
  else true

/-- A command of ring q with its entry begins (13 R286 to R290). -/
def startCmd (s : State) (q : Nat) (e : BitVec 512) : State :=
  let c := cmdOf s q e
  let st := arrivalStatus s q e
  if st ≠ 0 then addCmd s { c with done := true, status := BitVec.ofNat 8 st }
  else
    let s1 := addCmd s c
    let op := fld e 7 0
    if isCtlOp op then { s1 with eng := { s1.eng with ctlQ := s1.eng.ctlQ ++ [c.key] } }
    else if isAdmOp op then { s1 with eng := { s1.eng with admQ := s1.eng.admQ ++ [c.key] } }
    else startData s1 c.key

/-- CI advances when the entry arrives (13 R286). -/
def ciAdvance (s : State) (q : Nat) : State :=
  wrF s (aEng (0x120 + 0x40 * q)) 11 0 ((ringCi s q + 1) % 2 ^ ringSz s q)

/-- COMMAND_ARRIVE: the entry that ring q fetched arrives (13 R286 to R290). A fetch that failed stops the ring; an entry whose
queue is full waits; one that arrives while the ring resets is dropped. -/
def execCommandArrive (q : BitVec 4) (s : State) : Host.Outcome State Fault Refusal :=
  answer s (
    let k := q.toNat
    match takeAnswer s (128 + k) with
    | (none, _) => s
    | (some (_, data, stat), t) =>
      let t1 := updRing t k fun x => { x with fetching := false }
      if (getRing s k).resetting then t1
      else if stat ≠ 0 then
        let t2 := setFlag (setFlag (updRing t1 k fun x => { x with stopped := true }) (aEng (0x138 + 0x40 * k)) 8) (aEng 0) 3
        raiseRinkFree t2 (rinkOf s k) 0x133 2
      else
        let e := data.headD 0
        if permBit (fld e 7 0) = none ∨ queueRoom s (fld e 7 0) then startCmd (ciAdvance t1 k) k e else s)

/-! Completion (13 R296, R298). -/

/-- A ring's indices reset once all its commands have completed (13 R298). -/
def ringResetEnd (s : State) (q : Nat) : State :=
  if (getRing s q).resetting && ringBusy s q == 0 then
    let s1 := wr (wr (wr s (aEng (0x118 + 0x40 * q)) 0) (aEng (0x128 + 0x40 * q)) 0) (aEng (0x120 + 0x40 * q)) (BitVec.ofNat 64 (2 ^ 48))
    updRing s1 q fun x => { x with resetting := false }
  else s

/-- The completion entry (13 Table 13.7). -/
def compEntry (s : State) (c : Cmd) : Line :=
  let phase := rdF s (aEng (0x120 + 0x40 * c.ring)) 48 48
  let w0 := c.aux1.toNat <<< 52 ||| c.aux0.toNat <<< 40 ||| phase <<< 32 ||| c.status.toNat <<< 24 ||| c.op.toNat <<< 16 ||| c.cid.toNat
  BitVec.ofNat 512 (w0 ||| c.result.toNat <<< 64)

/-- A NOTIFY with a record leaves a service NI for a node, on queue 8; its ACK goes to no one (13 R296). -/
def engNotify (s : State) (n : Nat) (dst : BitVec 12) (r : Word) : State :=
  let m : Msg := { dst := dst, src := niNode s n, opc := 0x7B, cls := 3, gen := slcGen s n 0, len := 1, nbytes := 8, data := [r.zeroExtend 512] }
  let q : Req := { id := (getNi s n).nextId, q := 8, msg := m, nbytes := 8, lineCnt := 1, slot := some 190 }
  let t := allocTrk s n { gen := slcGen s n 0, reqId := q.id, opc := 0x7B, dst := dst, deadline := some (beDeadline s n), slot := some 190 }
  enqueueReq t.2 n { q with tag := t.1 }

/-- COMMAND_COMPLETE: the oldest finished command of ring q writes its completion entry at RPI, which advances; PHASE flips with
every wrap (13 R296). With NTF on an owned ring the owner is notified. Without room it waits (R300). -/
def execCommandComplete (q : BitVec 4) (s : State) : Host.Outcome State Fault Refusal :=
  answer s (
    let k := q.toNat
    let n := svcNi (rinkOf s k)
    match s.eng.cmds.find? fun c => c.ring == k && c.done with
    | none => s
    | some c =>
      let note := c.ntf && bitOf (ringCfg s k) 20
      if !compRoom s k || !engCan s n 8 opMwrPtl 1 || (note && 14 < (getQ (getNi s n) 8).reqIds.length) || (note && !trkRoom s n 0) then s
      else
        let sz := 2 ^ ringSz s k
        let rpi := ringRpi s k % sz
        let base := rdF s (aEng (0x110 + 0x40 * k)) 51 12 * 4096
        let a := base + 16 * rpi
        let line : Line := BitVec.ofNat 512 ((compEntry s c).toNat <<< (8 * (a % 64)))
        let s1 := engSend s n 8 190 opMwrPtl a none 16 [line]
        let i := aEng (0x120 + 0x40 * k)
        let s2 := wrF s1 i 43 32 ((rpi + 1) % sz)
        let s3 := if rpi + 1 = sz then wrF s2 i 48 48 (1 - rdF s i 48 48) else s2
        let s4 := { s3 with eng := { s3.eng with cmds := s3.eng.cmds.filter fun d => d.key != c.key } }
        let s5 := if note then
            engNotify s4 n (BitVec.ofNat 12 (fld (ringCfg s k) 36 25))
              (noteRecord ⟨n, 0x130, 0, c.cid.toNat <<< 32 ||| c.status.toNat <<< 24 ||| k, none, fld (ringCfg s k) 24 21⟩)
          else s4
        ringResetEnd s5 k)

/-! Reset and resume (13 R298). -/

/-- A data command of a ring that resets: its waiting jobs go; those that run stop once their requests have completed. -/
def abortCmd (s : State) (key : Nat) : State :=
  let run := (s.eng.slots.filter fun p => match p.2.running with | some j => j.cmd == key | none => false).length
  let s1 := { s with eng := { s.eng with slots := mmap s.eng.slots fun _ e => { e with deque := e.deque.filter fun j => j.cmd != key } } }
  let s2 := updCmd s1 key fun c => { c with abort := true, waitingJobs := [], jobsLeft := run }
  let s3 := match s2.jrn.ckpt with | some c => if c.key = key then dropCkpt s2 else s2 | none => s2
  if run = 0 then finishData s3 key else s3

/-- RING_RESET: ENG_RING_CTL.RESET of ring q written 1 (13 R298). -/
def execRingReset (q : BitVec 4) (s : State) : Host.Outcome State Fault Refusal :=
  answer s (
    let k := q.toNat
    if !s.gen.eng then s
    else
      let s1 := wrF (updRing s k fun x => { x with resetting := true, stopped := false, resetNs := some (nowNs s) }) (aEng (0x120 + 0x40 * k)) 11 0 (ringPi s k)
      let data := s.eng.cmds.filter fun c => c.ring == k && !c.done && !isCtlOp c.op.toNat && !isAdmOp c.op.toNat
      ringResetEnd (data.foldl (fun t c => abortCmd t c.key) s1) k)

/-- RING_RESUME: a stopped ring fetches again at CI (13 R298). -/
def execRingResume (q : BitVec 4) (s : State) : Host.Outcome State Fault Refusal :=
  answer s (if s.gen.eng then updRing s q.toNat fun x => { x with stopped := false } else s)

end Sys2Proof.Machine
end

