-- ==== Sys2Proof/Machine/Bind.lean ====
section
/-! DEFINITION. The commands of the control and ADMIT queues: binding, sharing, moving, slice resets, orphans, admission and
release (06 R137 to R139; 13 R290, R293, R294, R297; 14 R306, R309). Each call is one step of the command's step record (log 34). -/

namespace Sys2Proof.Machine

/-- How a step of a queued command ends: the command stands at a step of its record, or ends with a status. -/
inductive Sub where
  | stay (step : Nat)
  | fin (status : Nat)
  deriving DecidableEq, Repr

/-- A step of the command at the head of the control queue, if it is of the operation. -/
def runCtl (op : Nat) (f : State → Cmd → Sub × State) (s : State) : State :=
  match ctlHead s with
  | some c =>
    if c.op.toNat = op then
      match f s c with
      | (.stay k, t) => updCmd t c.key fun d => { d with step := k }
      | (.fin st, t) => endQueued t 0 c.key st
    else s
  | none => s

/-- A step of the command at the head of the ADMIT queue, if it is of the operation. -/
def runAdm (op : Nat) (f : State → Cmd → Sub × State) (s : State) : State :=
  match admHead s with
  | some c =>
    if c.op.toNat = op then
      match f s c with
      | (.stay k, t) => updCmd t c.key fun d => { d with step := k }
      | (.fin st, t) => endQueued t admRink c.key st
    else s
  | none => s

/-! Rows in the tables (09 R204, R210). -/

/-- The TBT of NI n with the changes that wait for the gate tick. -/
def tbtAll (s : State) (n : Nat) : Map TbtRow :=
  let d := (getNi s n).dec
  d.tbtDue.foldl (fun m p => match p.2 with | some r => mset m p.1 r | none => mdel m p.1) d.tbt
/-- The set of an extent already holds 8 rows (09 R204). -/
def tbtFull (s : State) (n x : Nat) : Bool :=
  8 ≤ ((tbtAll s n).filter fun p => p.1 % 1024 == x % 1024 && p.1 != x).length
/-- A TBT change of an extent at NI n has not taken effect yet. -/
def tbtWaits (s : State) (n x : Nat) : Bool := (getNi s n).dec.tbtDue.any fun p => p.1 == x
/-- BGT changes wait at NI n. -/
def bgtWaits (s : State) (n : Nat) : Bool := !(getNi s n).dec.bgtDue.isEmpty
/-- The BGT entries of an extent at NI n go. -/
def bgtDrop (s : State) (n x : Nat) : State :=
  ((getNi s n).dec.bgt.filter fun p => p.2.x.toNat == x).foldl (fun t p => bgtPut t n p.1 none) s
/-- A route leads to some other instance (05 Table 05.14). -/
def otherInst (s : State) : Bool := (List.range 16).any fun d => d != instNo s && (rteInst s 0 (rtrEp s 0) d).testBit 15
/-- The invalidation of an extent goes to every NI of the fabric (09 R202): those of this instance drop their copy at once; for those of
other instances, if there are any, it is out until they have acknowledged it. -/
def invalidateAll (s : State) (x : Nat) : State :=
  let s1 := (niList s).foldl (fun t n => updNi t n fun i => etcInval i (BitVec.ofNat 4 (instNo s)) (BitVec.ofNat 19 x)) s
  if otherInst s then { s1 with eng := { s1.eng with invalOut := s1.eng.invalOut ++ [x] } } else s1
/-- The last acknowledgement from another instance has come or not: the manual gives neither their form nor their time, so a free value
says which (log 40). -/
def invalAck (s : State) (x : Nat) : State :=
  if s.eng.invalOut.contains x then
    let f := takeFree s
    if bitOf f.1 0 then { f.2 with eng := { f.2.eng with invalOut := f.2.eng.invalOut.filter fun y => y != x } } else f.2
  else s
/-- Some NI has not acknowledged the invalidation of an extent yet (13 R294). -/
def invalWaits (s : State) (x : Nat) : Bool := s.eng.invalOut.contains x
/-- The entry waits for its repair to end (14 R308). -/
def repairing (s : State) (x : Nat) : Bool := s.jrn.repairs.contains x

/-! BIND (13 Table 13.5; 14 Table 14.3). -/

/-- The entry that BIND makes: with RESTORE the recorded binding. -/
def bindEntry (e : Ebt) (ni dpa tag : Nat) (restore : Bool) : Ebt :=
  if restore then { e with st := if e.sh then 2 else 1, sh := false, gen := (e.gen + 1) % 256 }
  else { st := 1, gen := (e.gen + 1) % 256, tag := tag, tni := ni, dpa := dpa }

/-- A step of BIND: the TBT row at the target, and the BGT entry of a restored binding that has one (10 R215), in effect, then the record,
committed. -/
def bindStep (s : State) (key sub x ni dpa tag : Nat) (restore : Bool) : Sub × State :=
  let e := ebtGet s x
  let v := bindEntry e ni dpa tag restore
  match sub with
  | 0 =>
    if repairing s x then (.stay 0, s)
    else if e.st ≠ (if restore then 4 else 0) then (.fin 4, s)
    else if tbtFull s v.tni x then (.fin 5, s)
    else
      let s1 := tbtPut s v.tni x (some (rowOf v))
      if v.bv then
        match bgtIdx (getNi s v.tni) v.dpa with
        | some j => (.stay 2, bgtPut s1 v.tni j (some (bgtOf x v)))
        | none => (.fin 0x0C, s)
      else (.stay 2, s1)
  | 2 => if tbtWaits s v.tni x || (v.bv && bgtWaits s v.tni) then (.stay 2, s) else (.stay 4, jrnAdd s (entryRec key 0 x v))
  | k => if recsPending s key then (.stay k, s) else (.fin 0, s)

/-- BIND: a step of the BIND at the head of the control queue. -/
def execBind (s : State) : Host.Outcome State Fault Refusal :=
  answer s (runCtl 0x10 (fun s c =>
    bindStep s c.key c.step (fld (cmdW c.entry 1) 18 0) (fld (cmdW c.entry 2) 7 0) (fld (cmdW c.entry 2) 32 8)
      (fld (cmdW c.entry 3) 5 0) (bitOf c.entry 10)) s)

/-! UNBIND. -/

/-- The SANITISE that follows an UNBIND, under the same CID, with its own completion (13 Table 13.5). -/
def followSanitise (s : State) (c : Cmd) (x : Nat) (pattern : Word) : State :=
  let w0 := 0x01 ||| c.ntf.toNat <<< 8 ||| c.cid.toNat <<< 16
  let e : BitVec 512 := BitVec.ofNat 512 (w0 ||| x <<< 64 ||| 1 <<< 128 ||| pattern.toNat <<< 192)
  let d := cmdOf s c.ring e
  startData (addCmd s d) d.key

/-- A step of UNBIND: the RELEASED record; then the invalidation and the rows; for an ORPHAN only the record. -/
def unbindStep (s : State) (key sub x : Nat) : Sub × State :=
  let e := ebtGet s x
  match sub with
  | 0 =>
    if repairing s x then (.stay 0, s)
    else if ebtLive e then (.stay 2, jrnAdd s (entryRec key 0 x { e with st := 3, bv := false }))
    else if e.st = 4 then (.stay 6, jrnAdd s (entryRec key 0 x { e with st := 3, sh := false }))
    else (.fin 4, s)
  | 2 =>
    if recsPending s key then (.stay 2, s)
    else (.stay 4, bgtDrop (tbtPut (invalidateAll s x) e.tni x none) e.tni x)
  | 4 =>
    let t := invalAck s x
    if tbtWaits t e.tni x || bgtWaits t e.tni || invalWaits t x then (.stay 4, t) else (.fin 0, t)
  | k => if recsPending s key then (.stay k, s) else (.fin 0, s)

/-- UNBIND: a step of the UNBIND at the head of the control queue; when it ends well its SANITISE begins. -/
def execUnbind (s : State) : Host.Outcome State Fault Refusal :=
  answer s (
    let s1 := runCtl 0x11 (fun s c => unbindStep s c.key c.step (fld (cmdW c.entry 1) 18 0)) s
    match ctlHead s with
    | some c =>
      if c.op = 0x11 && (match getCmd s1 c.key with | some d => d.done && d.status == 0 | none => false) then
        followSanitise s1 c (fld (cmdW c.entry 1) 18 0) (cmdW c.entry 3)
      else s1
    | none => s1)

/-! SHARE (13 Table 13.5; 14 R309). -/

/-- The arguments of a SHARE. -/
structure ShareArg where
  x : Nat
  node : BitVec 12
  slice : Nat
  perm : Nat
  revoke : Bool
  last : Bool
  gv : Option Nat
  deriving DecidableEq, Repr

/-- The valid grant entry of a key. -/
def grantFind (s : State) (key : Nat) : Option Nat := ((grantsValid s).find? fun g => grantKey g.2 == key).map (·.1)

/-- What a SHARE writes into the grant table: nothing, an entry that exists, or a new one (14 R309). -/
inductive GrantChange where
  | none
  | old (i : Nat) (v : BitVec 128)
  | new (v : BitVec 128)
  deriving DecidableEq, Repr

/-- The grant change of a SHARE at row `row` of NI n for a tag. -/
def grantChange (s : State) (a : ShareArg) (n row tag : Nat) : GrantChange :=
  let key := grantKeyOf n row tag
  let put (v : BitVec 128) : GrantChange := match grantFind s key with | some i => .old i v | none => .new v
  if !a.revoke then put (grantMake false key a.perm)
  else if bitOf (imgWord s (lptAddr n row)) tag then put (grantMake true key 0)
  else match grantFind s key with | some i => .old i 0 | none => .none

/-- The row's TAG bit and permission bits change at the next gate tick; the row is rewritten, DENY_CNT with it. -/
def shareRow (s : State) (a : ShareArg) (n row tag : Nat) : State :=
  let w := lptAddr n row
  let tags := setBit (pendRd s w) tag (!a.revoke)
  let perm := fld (pendRd s (w + 8)) 4 0 ||| (if a.revoke then 0 else a.perm)
  pendWord (pendWord s w tags) (w + 8) (BitVec.ofNat 64 perm)

/-- The entry after a SHARE (14 Table 14.3). -/
def shareEntry (a : ShareArg) (e : Ebt) : Ebt :=
  if a.revoke then (if a.last then { e with st := 1, bv := false, mc := false, btgt := 0 } else e)
  else match a.gv with
    | some g => { e with st := 2, bv := true, mc := true, btgt := g }
    | none => { e with st := 2 }

/-- The index a new grant entry takes: which of the free ones the manual does not say (log 1). -/
def grantFree (s : State) : Option Nat × State :=
  let start := (takeFree s).1.toNat % 4096
  let used := (grantsValid s).map (·.1)
  (((List.range 4096).map fun d => (start + d) % 4096).find? fun i => !used.contains i, (takeFree s).2)

/-- The records of a SHARE are made: its grant, then the entry if it changes. -/
def shareRecs (s : State) (key : Nat) (a : ShareArg) (e : Ebt) (row : Nat) : State :=
  let s1 := match grantChange s a e.tni row e.tag with
    | .none => s
    | .old i v => jrnAdd s (grantRec key i v)
    | .new v => let f := grantFree s; match f.1 with | some i => jrnAdd f.2 (grantRec key i v) | none => f.2
  let v := shareEntry a e
  if ebtData v = ebtData e then s1 else jrnAdd s1 (entryRec key 0 a.x v)

/-- A step of SHARE: row and BGT entry, in effect, then its records, committed. -/
def shareStep (s : State) (key sub : Nat) (a : ShareArg) : Sub × State :=
  let e := ebtGet s a.x
  let row := (masterRow s a.node a.slice).getD 0
  match sub with
  | 0 =>
    if repairing s a.x then (.stay 0, s)
    else if !ebtLive e then (.fin 4, s)
    else
      let full := (match grantChange s a e.tni row e.tag with | .new _ => decide (4096 ≤ (grantsValid s).length) | _ => false)
      let idx := bgtIdx (getNi s e.tni) e.dpa
      if full || (!a.revoke && a.gv.isSome && idx.isNone) then (.fin 0x0C, s)
      else
        let s1 := shareRow s a e.tni row e.tag
        let v := shareEntry a e
        let s2 := if a.revoke then (if a.last then bgtDrop s1 e.tni a.x else s1)
          else if a.gv.isSome then bgtPut s1 e.tni (idx.getD 0) (some (bgtOf a.x v)) else s1
        (.stay 2, s2)
  | 2 =>
    if (mget s.pendT (lptAddr e.tni row)).isSome || bgtWaits s e.tni then (.stay 2, s)
    else (.stay 4, shareRecs s key a e row)
  | k => if recsPending s key then (.stay k, s) else (.fin 0, s)

/-- The arguments of a SHARE command entry. -/
def shareArg (e : BitVec 512) : ShareArg :=
  let w2 := cmdW e 2
  ⟨fld (cmdW e 1) 18 0, BitVec.ofNat 12 (fld w2 11 0), fld w2 15 12, fld w2 20 16, bitOf w2 21, bitOf w2 22,
    if bitOf (cmdW e 3) 10 then some (fld (cmdW e 3) 9 0) else none⟩

/-- SHARE: a step of the SHARE at the head of the control queue. -/
def execShare (s : State) : Host.Outcome State Fault Refusal :=
  answer s (runCtl 0x12 (fun s c => shareStep s c.key c.step (shareArg c.entry)) s)

/-! SLICE_RESET. -/

/-- SLICE_RESET: a step of the SLICE_RESET at the head of the control queue: the resets are requested as NI_SLC_RST does; it
ends when every named reset has ended. -/
def execSliceReset (s : State) : Host.Outcome State Fault Refusal :=
  answer s (runCtl 0x13 (fun s c =>
    let n := fld (cmdW c.entry 1) 7 0
    let l := onesOf 16 (fld (cmdW c.entry 2) 15 0)
    if c.step = 0 then (.stay 2, l.foldl (fun t k => sliceResetReq t n k) s)
    else if l.any (fun k => slcRst s n k) then (.stay 2, s) else (.fin 0, s)) s)

/-! MOVE (13 R293). -/

/-- The TBT row of an extent at NI n changed at once: the engine's own marks on it. -/
def tbtMark (s : State) (n x : Nat) (f : TbtRow → TbtRow) : State :=
  updNi s n fun i => { i with dec := { i.dec with tbt := match mget i.dec.tbt x with | some r => mset i.dec.tbt x (f r) | none => i.dec.tbt } }

/-- Blocks of an extent. -/
def blocksPerExtent : Nat := 32768

/-- A MOVE whose copy failed is undone: B's row goes, A serves alone, MV clears. -/
def moveUndo (s : State) (x a b : Nat) : State :=
  let s1 := tbtMark (tbtPut s b x none) a x fun r => { r with mirror := none, copied := 0, busy := false }
  wrEbt s1 x (ebtData { ebtGet s1 x with mv := false })

/-- A step of MOVE. Steps 3 and 5 wait for the answer to a copy's read and write. -/
def moveStep (s : State) (c : Cmd) : Sub × State :=
  let x := fld (cmdW c.entry 1) 18 0
  let b := fld (cmdW c.entry 2) 7 0
  let dpa := fld (cmdW c.entry 2) 32 8
  let e := ebtGet s x
  let n := svcNi 0
  let done := match mget (getNi s e.tni).dec.tbt x with | some r => r.copied | none => 0
  match c.step with
  | 0 =>
    if repairing s x then (.stay 0, s)
    else if !ebtLive e then (.fin 4, s)
    else if e.tni = b then (.fin 2, s)
    else if 4 ≤ ((tbtAll s e.tni).filter fun p => p.2.mirror.isSome).length then (.fin 0x0C, s)
    else if tbtFull s b x then (.fin 5, s)
    else if e.bv && (bgtIdx (getNi s b) dpa).isNone then (.fin 0x0C, s)
    else
      let rowB := { rowOf { e with gen := (e.gen + 1) % 256, dpa := dpa } with hidden := true }
      let rowA := { rowOf e with mirror := some (BitVec.ofNat 8 b, BitVec.ofNat 25 dpa) }
      (.stay 2, wrEbt (tbtPut (tbtPut s b x (some rowB)) e.tni x (some rowA)) x (ebtData { e with mv := true }))
  | 2 =>
    if tbtWaits s b x || tbtWaits s e.tni x then (.stay 2, s)
    else if blocksPerExtent ≤ done then
      (.stay 8, jrnAdd s (entryRec c.key 0 x { e with tni := b, dpa := dpa, gen := (e.gen + 1) % 256 }))
    else if engCan s n 8 opMemRd 64 then
      (.stay 3, engSend (tbtMark s e.tni x fun r => { r with busy := true }) n 8 160 opMemRd
        (directFa (e.dpa * 2 ^ 27 + 4096 * done)) (some (nodeOf s e.tni)) 4096 [])
    else (.stay 2, s)
  | 3 =>
    match takeAnswer s 160 with
    | (none, _) => (.stay 3, s)
    | (some (_, data, stat), t) =>
      if stat ≠ 0 then (.fin (statusOfStat stat), failCmd (moveUndo t x e.tni b) c.key (pooledFa s x (4096 * done)) stat)
      else if engCan s n 8 opMwr 64 then
        (.stay 5, engSend t n 8 160 opMwr (directFa (dpa * 2 ^ 27 + 4096 * done)) (some (nodeOf s b)) 4096 data)
      else (.stay 3, s)
  | 5 =>
    match takeAnswer s 160 with
    | (none, _) => (.stay 5, s)
    | (some (_, _, stat), t) =>
      if stat ≠ 0 then (.fin (statusOfStat stat), failCmd (moveUndo t x e.tni b) c.key (pooledFa s x (4096 * done)) stat)
      else (.stay 2, tbtMark t e.tni x fun r => { r with busy := false, copied := r.copied + 1 })
  | 8 =>
    if recsPending s c.key then (.stay 8, s)
    else
      let s2 := tbtPut (invalidateAll s x) b x (some (rowOf e))
      let s3 := if e.bv then bgtPut (bgtDrop s2 c.host x) b ((bgtIdx (getNi s2 b) e.dpa).getD 0) (some (bgtOf x e)) else s2
      (.stay 10, s3)
  | k =>
    let t := invalAck s x
    if tbtWaits t b x || invalWaits t x then (.stay k, t)
    else (.fin 0, tbtMark t c.host x fun r => { r with untilNs := some (nowNs t + 56 * 1024) })

/-- MOVE: a step of the MOVE at the head of the control queue. The NI it leaves is noted in the command's record. -/
def execMove (s : State) : Host.Outcome State Fault Refusal :=
  answer s (runCtl 0x04 (fun s c =>
    if c.step = 0 then
      let n := (ebtGet s (fld (cmdW c.entry 1) 18 0)).tni
      moveStep (updCmd s c.key fun d => { d with host := n }) { c with host := n }
    else moveStep s c) s)

/-- The jobs that zero-fill the extent at a device base behind NI n. -/
def zeroJobs (s : State) (key n dpa : Nat) : List Job :=
  (List.range 64).map fun j =>
    { ring := 16, cmd := key, op := 1, blocks := 512, fa := directFa (dpa * 2 ^ 27 + 2 ^ 21 * j), direct := some (nodeOf s n) }

/-- MOVE_MIRROR_EXPIRE: 56 frames after the invalidation, the mirrored row goes and its old location is zero-filled
(13 R293, step 5). -/
def execMoveMirrorExpire (n : NiId) (x : BitVec 19) (s : State) : Host.Outcome State Fault Refusal :=
  answer s (
    let k := n.toNat
    match mget (getNi s k).dec.tbt x.toNat with
    | some r => match r.untilNs with
      | some t =>
        if t ≤ nowNs s then
          let s1 := updNi s k fun i => { i with dec := { i.dec with tbt := mdel i.dec.tbt x.toNat } }
          let c : Cmd := { key := s1.eng.nextKey, ring := 16, op := 1, jobsLeft := 64, waitingJobs := zeroJobs s s1.eng.nextKey k r.dpa.toNat }
          pushJobs (addCmd s1 c) c.key
        else s
      | none => s
    | none => s)

/-! Orphans (14 R306; 21 R448). -/

/-- Internal operation of the control queue: the slot manager's removal. -/
def opOrphan : Nat := 0xF0

/-- The slot manager submits the removal of slot n's module to the control queue (14 R306, 21 R448). -/
def submitOrphan (s : State) (n : Nat) : State :=
  let c : Cmd := { key := s.eng.nextKey, ring := 16, op := BitVec.ofNat 8 opOrphan, host := n }
  let s1 := addCmd s c
  { s1 with eng := { s1.eng with ctlQ := s1.eng.ctlQ ++ [c.key] } }

/-- A step of a removal: one record for each BOUND or SHARED extent of the NI; then invalidations, rows and BGT entries (Table 14.3
leaves the entry's BV, MC and BTGT as they are). -/
def orphanStep (s : State) (c : Cmd) : Sub × State :=
  let n := c.host
  match c.step with
  | 0 =>
    let l := (ebtListed s).filter fun x => ebtLive (ebtGet s x) && (ebtGet s x).tni == n
    if s.jrn.recovering || !s.jrn.repairs.isEmpty then (.stay 0, s)
    else
      let put (t : State) (x : Nat) : State :=
        let e := ebtGet s x
        jrnAdd t (entryRec c.key 20 x { e with st := 4, sh := e.st == 2 })
      (.stay 2, l.foldl put (updCmd s c.key fun d => { d with extents := l }))
  | 2 =>
    if recsPending s c.key then (.stay 2, s)
    else (.stay 4, c.extents.foldl (fun t x => bgtDrop (tbtPut (invalidateAll t x) n x none) n x) s)
  | k =>
    let t := c.extents.foldl invalAck s
    if c.extents.any (tbtWaits t n) || c.extents.any (invalWaits t) then (.stay k, t) else (.fin 0, t)

/-- EXTENT_ORPHAN: a step of NI n's removal, when it is at the head of the control queue. -/
def execExtentOrphan (n : NiId) (s : State) : Host.Outcome State Fault Refusal :=
  answer s (match ctlHead s with
    | some c => if c.host = n.toNat then runCtl opOrphan orphanStep s else s
    | none => s)

/-! ADMIT and RELEASE (06 R137 to R140; 13 R297, Table 13.3). -/

/-- Bytes of the path of an ADMIT: 16 port codes per word. -/
def pathBytes (e : BitVec 512) : Nat := 8 * ceilDiv (fld (cmdW e 4) 63 56) 16
/-- The port codes that the lines read hold. -/
def pathPorts (e : BitVec 512) (data : List Line) : List Nat :=
  let off := fld (cmdW e 4) 5 0
  (List.range (fld (cmdW e 4) 63 56)).map fun i =>
    let bit := 8 * off + 4 * i
    fld (data.getD (bit / 512) 0) (bit % 512 + 3) (bit % 512)

/-- The outcome of an admission or release goes into the command (13 R297). -/
def admResult (s : State) (key : Nat) (r : AdmRes) : Sub × State :=
  if r.code = 0 then
    (.fin 0, updCmd s key fun c => { c with aux0 := BitVec.ofNat 12 r.id, aux1 := BitVec.ofNat 12 (r.twin.getD 0xFFF), result := BitVec.ofNat 64 r.tick })
  else (.fin 9, updCmd s key fun c => { c with result := BitVec.ofNat 64 (r.code ||| r.peer <<< 8) })

/-- The decision of an ADMIT; what a peer instance answers and which free flow ID is taken are free values (log 1, log 23). -/
def admDecide (s : State) (r : AdmReq) (inst : Nat) : AdmRes × State :=
  if inst ≠ instNo s then ({ code := 1 }, s)
  else
    let a := takeFree s
    let b := takeFree a.2
    admitDecide b.2 r (peerAns a.1) (b.1.toNat % 4096)

/-- A step of ADMIT: the path is read if one is given; then the request is decided; event 12. -/
def admitStep (s : State) (c : Cmd) : Sub × State :=
  let e := c.entry
  let fa := fld (cmdW e 4) 51 0
  let decide' (t : State) (path : Option (List Nat)) : Sub × State :=
    let r := admDecide (evDuty t admRink 12) (admReqOf e path) (fld (cmdW e 1) 11 8)
    admResult r.2 c.key r.1
  if fa = 0 then decide' s none
  else if c.step = 0 then
    if engCan s (svcNi admRink) 8 opMemRd (linesOf fa (pathBytes e)) then
      (.stay 1, engSend s (svcNi admRink) 8 161 opMemRd fa none (max 1 (pathBytes e)) [])
    else (.stay 0, s)
  else match takeAnswer s 161 with
    | (none, _) => (.stay 1, s)
    | (some (_, data, stat), t) => if stat ≠ 0 then admResult t c.key { code := 1 } else decide' t (some (pathPorts e data))

/-- ADMIT: a step of the ADMIT at the head of its queue. -/
def execAdmit (s : State) : Host.Outcome State Fault Refusal := answer s (runAdm 0x20 admitStep s)

/-- The segment that a request for the second chain of a pair pairs with here: the lowest flow of the same parameters that starts at
another span port of the same peer and has no twin (06 R120). -/
def pairOf? (s : State) (r : AdmReq) (peer : Nat) : Option Nat :=
  (s.eng.flows.find? fun q => 128 ≤ nodeLoc q.2.srcNode && nodeLoc q.2.srcNode != r.src && spnPeer s (nodeLoc q.2.srcNode - 128) == peer &&
    q.2.dst == r.dst && q.2.plane == r.plane && q.2.allow == r.allow && q.2.hdrs == r.hdrs && q.2.maxlen == r.maxlen &&
    q.2.flr == r.floor && q.2.twin.isNone && q.2.state == 1).map (·.1)

/-- ADMIT_PEER_SEGMENT: instance `peer` asks for the segment of a chain that starts at a span port of this instance toward it; the
request has the form of Table 13.3, and a free value says which chain of a pair it is for (log 23); the decision is kept for the answer
(06 R137). -/
def execAdmitPeerSegment (peer : BitVec 4) (req : BitVec 512) (s : State) : Host.Outcome State Fault Refusal :=
  answer s (
    let r := admReqOf req none
    let p := r.src - 128
    if !s.gen.eng then s
    else
      let d := if 128 ≤ r.src ∧ isSpan s p ∧ spnPeer s p = peer.toNat ∧ (getSpan s p).up then
          let a := takeFree s
          let second := bitOf a.1 0
          admDecide (evDuty a.2 admRink 12) { r with second := second, pair := if second then pairOf? a.2 r peer.toNat else none }
            (fld (cmdW req 1) 11 8)
        else ({ code := 1 }, s)
      { d.2 with eng := { d.2.eng with peerAdmits := d.2.eng.peerAdmits ++ [(req, BitVec.ofNat 8 d.1.code)] } })

/-- RELEASE: the RELEASE at the head of the ADMIT queue (06 R139). -/
def execRelease (s : State) : Host.Outcome State Fault Refusal :=
  answer s (runAdm 0x21 (fun s c =>
    let r := release s (fld (cmdW c.entry 1) 11 0) (fld (cmdW c.entry 3) 47 0)
    admResult r.2 c.key r.1) s)

end Sys2Proof.Machine
end

