-- ==== Sys2Proof/Machine/FmApi.lean ====
section
/-! DEFINITION. The FM API commands of the control queue (13 R295, Table 13.6). CXL's message layouts are not in the manual: the
fields of a request and the bytes of a response come through Config's opaque functions (log 26). -/

namespace Sys2Proof.Machine

/-! Identity words (23 Table 23.5). -/

/-- GLB_PROFILE: sizes by profile; INST as the image wrote it. -/
def profileWord (s : State) : Nat :=
  nEpNis s <<< 24 ||| nCols s <<< 20 ||| nRows s <<< 16 ||| instNo s <<< 8 |||
    (match s.gen.profile with | .f => 0 | .h => 1 | .q => 2)

/-- GLB_CAP: the units that are there. -/
def capWord (s : State) : Nat :=
  (if s.gen.spn then 2 ^ nSpans s - 1 else 0) <<< 16 ||| (isComplete s).toNat <<< 8 ||| (hasXv s).toNat <<< 7 ||| (hasXh s).toNat <<< 6 |||
    s.gen.gth.toNat <<< 5 ||| s.gen.slt.toNat <<< 4 ||| s.gen.spn.toNat <<< 3 ||| s.gen.jrn.toNat <<< 2 ||| s.gen.eng.toNat <<< 1 |||
    (isComplete s).toNat

/-- GLB_GEN_VER (log 4). -/
def genVerWord : Nat := Config.genVer.toNat

/-! The exchange of messages. -/

/-- Opcode of an FMAPI command (13 Table 13.2). -/
def fmOpcode (c : Cmd) : Nat := fld (cmdW c.entry 2) 15 0
/-- Bytes of the request message. -/
def fmReqLen (c : Cmd) : Nat := fld (cmdW c.entry 2) 27 16
/-- The request message as read. -/
def fmRequest (c : Cmd) : List (BitVec 8) := ((c.got.map fun d => bytesOf 64 d.toNat).flatten).take (fmReqLen c)

/-- The response is ready: opcode, return code, what it reports; the bytes that the response range holds are written next. -/
def fmRespond (s : State) (c : Cmd) (code : Nat) (vals : List Nat) : Sub × State :=
  let bytes := (Config.fmResponse (fmOpcode c) code vals).take (fld (cmdW c.entry 4) 11 0)
  (.stay 20, updCmd s c.key fun d => { d with result := BitVec.ofNat 64 code, got := linesOfBytes bytes 64, host := bytes.length })

/-- Status by return code (13 R295). -/
def fmStatus (c : Cmd) : Nat := if c.result = 0 then 0 else 0x0A

/-- The steps every FM API command shares: the request is read (steps 0 and 1), executed (`f`, steps 2 and above 99), and the
response is written (steps 20 and 21). -/
def fmStep (f : State → Cmd → Sub × State) (s : State) (c : Cmd) : Sub × State :=
  let n := svcNi 0
  match c.step with
  | 0 =>
    if fmReqLen c = 0 then (.stay 2, s)
    else if engCan s n 8 opMemRd (linesOf 0 (fmReqLen c)) then
      (.stay 1, engSend s n 8 160 opMemRd (cmdW c.entry 1).toNat none (fmReqLen c) [])
    else (.stay 0, s)
  | 1 =>
    match takeAnswer s 160 with
    | (none, _) => (.stay 1, s)
    | (some (fa, data, stat), t) =>
      if stat ≠ 0 then (.fin (statusOfStat stat), failCmd t c.key fa stat)
      else (.stay 2, updCmd t c.key fun d => { d with got := data })
  | 20 =>
    if c.host = 0 then (.fin (fmStatus c), s)
    else if engCan s n 8 opMwrPtl (linesOf 0 c.host) then
      (.stay 21, engSend s n 8 160 opMwrPtl (cmdW c.entry 3).toNat none c.host c.got)
    else (.stay 20, s)
  | 21 =>
    match takeAnswer s 160 with
    | (none, _) => (.stay 21, s)
    | (some (fa, _, stat), t) =>
      if stat ≠ 0 then (.fin (statusOfStat stat), failCmd t c.key fa stat) else (.fin (fmStatus c), t)
  | _ => f s c

/-- The FM API commands executed, by opcode (13 Table 13.6). -/
def fmKnown (o : Nat) : Bool := o == 1 || o == 2 || o == 0x5600 || o == 0x5603 || o == 0x5604 || o == 0x5605

/-- A step of the FMAPI command at the head of the control queue, if its opcode is the one asked for. -/
def runFm (ok : Nat → Bool) (f : State → Cmd → Sub × State) (s : State) : State :=
  match ctlHead s with
  | some c => if c.op = 0x30 && ok (fmOpcode c) then runCtl 0x30 (fmStep f) s else s
  | none => s

/-- FM_IDENTIFY: identity from the global identity registers. -/
def execFmIdentify (s : State) : Host.Outcome State Fault Refusal :=
  answer s (runFm (· == 0x0001) (fun s c => fmRespond s c 0 [0x4B040100, profileWord s, capWord s, genVerWord]) s)

/-- FM_BACKGROUND_OPERATION_STATUS: progress of the oldest data command in progress on this ring: its operation, CID, and the
jobs it has left. -/
def execFmBackgroundOperationStatus (s : State) : Host.Outcome State Fault Refusal :=
  answer s (runFm (· == 0x0002) (fun s c =>
    match s.eng.cmds.find? fun d => d.ring == c.ring && !d.done && !isCtlOp d.op.toNat && !isAdmOp d.op.toNat with
    | some d => fmRespond s c 0 [d.op.toNat, d.cid.toNat, d.jobsLeft]
    | none => fmRespond s c 0 []) s)

/-- The BOUND and SHARED extents of an NI. -/
def boundAt (s : State) (n : Nat) : List Nat := (ebtListed s).filter fun x => ebtLive (ebtGet s x) && (ebtGet s x).tni == n

/-- FREE entries. -/
def freeCount (s : State) : Nat := nExtents s - ((ebtListed s).filter fun x => (ebtGet s x).st != 0).length

/-- FM_GET_DCD_INFO: one region per memory NI, with its bound extents; and the free ones. A memory NI is one that serves an
extent. -/
def execFmGetDcdInfo (s : State) : Host.Outcome State Fault Refusal :=
  answer s (runFm (· == 0x5600) (fun s c =>
    let l := (List.range (nEpNis s)).filter fun n => !(boundAt s n).isEmpty
    fmRespond s c 0 (freeCount s :: (l.map fun n => [n, (boundAt s n).length]).flatten)) s)

/-- The host's node: its routing ID translated (04 R86), if valid. -/
def fmNode (s : State) (req : List (BitVec 8)) : Option (BitVec 12) :=
  let e := pbrEntry s (Config.fmHost req)
  if e / 2 ^ 15 = 0 then none else some (BitVec.ofNat 12 e)

/-- The host's master row holds the extent's tag at its serving NI. -/
def hostHolds (s : State) (node : BitVec 12) (x : Nat) : Bool :=
  let e := ebtGet s x
  match masterRow s node 0 with
  | some row => ebtLive e && bitOf (rd s (lptAddr e.tni row)) e.tag
  | none => false

/-- FM_GET_DC_REGION_EXTENT_LISTS: the extents whose tag the host's master row holds. -/
def execFmGetDcRegionExtentLists (s : State) : Host.Outcome State Fault Refusal :=
  answer s (runFm (· == 0x5603) (fun s c =>
    match fmNode s (fmRequest c) with
    | some d => fmRespond s c 0 ((ebtListed s).filter (hostHolds s d))
    | none => fmRespond s c 2 []) s)

/-- The extents of a request, or none when a starting DPA or length is no multiple of 128 MiB (13 R295). -/
def fmList (s : State) (req : List (BitVec 8)) : Option (List Nat) :=
  let l := Config.fmExtents req
  if l.all fun p => p.1 % 2 ^ 27 == 0 && p.2 % 2 ^ 27 == 0 && p.1 + p.2 ≤ nExtents s * 2 ^ 27 then
    some (l.map fun p => (List.range (p.2 / 2 ^ 27)).map (p.1 / 2 ^ 27 + ·)).flatten
  else none

/-- The next extent of the list, or the response when all are done. -/
def fmNext (s : State) (c : Cmd) (rest : List Nat) : Sub × State :=
  if rest.isEmpty then fmRespond s c 0 [] else (.stay 100, updCmd s c.key fun d => { d with extents := rest })

/-- A BIND, SHARE or UNBIND inside the command was refused: a return code that the manual does not name (log 1). -/
def fmRefused (s : State) (c : Cmd) : Sub × State := fmRespond (takeFree s).2 c ((takeFree s).1.toNat % 2 ^ 16) []

/-- The SHARE of an added extent to the host's master with READ and WRITE (13 Table 13.6). -/
def fmShare (node : BitVec 12) (x : Nat) : ShareArg := ⟨x, node, 0, 3, false, false, none⟩

/-- The steps of an Initiate Dynamic Capacity Add: BIND of each extent (100 on), then SHARE of it (200 on). -/
def fmAddStep (s : State) (c : Cmd) : Sub × State :=
  let req := fmRequest c
  if c.step = 2 then
    match fmList s req, fmNode s req with
    | some l, some _ => fmNext s c l
    | _, _ => fmRespond s c 2 []
  else
    match c.extents, fmNode s req with
    | x :: rest, some node =>
      if c.step < 200 then
        let t := Config.fmTarget req x
        if !isEpNi s t.1 then fmRefused s c
        else match bindStep s c.key (c.step - 100) x t.1 (t.2.1 % 2 ^ 25) (t.2.2 % 64) false with
          | (.stay k, u) => (.stay (100 + k), u)
          | (.fin 0, u) => (.stay 200, u)
          | (.fin _, u) => fmRefused u c
      else if (masterRow s node 0).isNone then fmRefused s c
      else match shareStep s c.key (c.step - 200) (fmShare node x) with
        | (.stay k, u) => (.stay (200 + k), u)
        | (.fin 0, u) => fmNext u c rest
        | (.fin _, u) => fmRefused u c
    | _, _ => fmRespond s c 0 []

/-- FM_INITIATE_DC_ADD: a step of Initiate Dynamic Capacity Add. -/
def execFmInitiateDcAdd (s : State) : Host.Outcome State Fault Refusal := answer s (runFm (· == 0x5604) fmAddStep s)

/-- The steps of an Initiate Dynamic Capacity Release: UNBIND of each extent listed, each with its SANITISE. -/
def fmReleaseStep (s : State) (c : Cmd) : Sub × State :=
  if c.step = 2 then
    match fmList s (fmRequest c) with
    | some l => fmNext s c l
    | none => fmRespond s c 2 []
  else
    match c.extents with
    | x :: rest => match unbindStep s c.key (c.step - 100) x with
      | (.stay k, u) => (.stay (100 + k), u)
      | (.fin 0, u) => fmNext (followSanitise u c x 0) c rest
      | (.fin _, u) => fmRefused u c
    | [] => fmRespond s c 0 []

/-- FM_INITIATE_DC_RELEASE: a step of Initiate Dynamic Capacity Release. -/
def execFmInitiateDcRelease (s : State) : Host.Outcome State Fault Refusal := answer s (runFm (· == 0x5605) fmReleaseStep s)

/-- FM_UNSUPPORTED: any other opcode is answered with Unsupported (0003h). -/
def execFmUnsupported (s : State) : Host.Outcome State Fault Refusal :=
  answer s (runFm (fun o => !fmKnown o) (fun s c => fmRespond s c 3 []) s)

end Sys2Proof.Machine
end

