-- ==== Sys2Proof/Machine/Power.lean ====
section
/-! DEFINITION. Performance levels and power regions (16; 18 R403, R404): one controller, its requests, entries and wakes. -/

namespace Sys2Proof.Machine

/-! The set point (16 R346, R347). -/

/-- VID code of a level with its wear margin (16 Table 16.1, R347). -/
def vidCode (s : State) (l : Nat) : Nat := nth [0x50, 0x40, 0x30, 0x24] l + 2 * rdF s (aPwr 0x30) (4 * l + 2) (4 * l)

/-- pwr_vid takes a code: pwr_vchg pulses, and regulation is awaited anew (16 Table 16.2). -/
def driveVid (s : State) (code : Nat) (wait : Bool) : State :=
  if s.pwr.vid.toNat = code then { s with pwr := { s.pwr with vwait := wait && !s.pwr.pgood } }
  else { s with pwr := { s.pwr with vid := BitVec.ofNat 8 code, vchg := true, pgood := false, vwait := wait } }

/-- M_l takes a value that is not below the one it has (16 R347). A rise for the level in force reaches pwr_vid at once, or
when the change in progress ends (16 Table 16.11). -/
def raiseMargin (s : State) (l v : Nat) : State :=
  let cur := rdF s (aPwr 0x30) (4 * l + 2) (4 * l)
  let s1 := wrF s (aPwr 0x30) (4 * l + 2) (4 * l) (max cur (min 4 v))
  if s1.pwr.cur.isNone ∧ s1.pwr.lvl.toNat = l ∧ s1.pwr.vid.toNat ≠ vidCode s1 l then driveVid s1 (vidCode s1 l) true else s1

/-! Regions (16 R350). -/

/-- Fields of a request (16 Table 16.13): action, kind, level, index. -/
def reqAction (r : BitVec 24) : Nat := fld r 22 20
/-- KIND. -/
def reqKind (r : BitVec 24) : Nat := fld r 19 18
/-- LEVEL. -/
def reqLevel (r : BitVec 24) : Nat := fld r 17 16
/-- INDEX. -/
def reqIndex (r : BitVec 24) : Nat := fld r 6 0
/-- DISCARD. -/
def reqDiscard (r : BitVec 24) : Bool := bitOf r 23

/-- State code of a region (16 Table 16.3). -/
def regionOf (s : State) (kind i : Nat) : Nat :=
  match kind with
  | 0 => (mgetD s.pwr.cols i 0).toNat
  | 1 => (mgetD s.pwr.rinks i 0).toNat
  | _ => (getNi s i).region.toNat

/-- The region takes a state. -/
def setRegion (s : State) (kind i st : Nat) : State :=
  match kind with
  | 0 => { s with pwr := { s.pwr with cols := mset s.pwr.cols i (BitVec.ofNat 2 st) } }
  | 1 => { s with pwr := { s.pwr with rinks := mset s.pwr.rinks i (BitVec.ofNat 2 st) } }
  | _ => updNi s i fun n => { n with region := BitVec.ofNat 2 st }

/-- The region exists in the profile. -/
def regionExists (s : State) (kind i : Nat) : Bool :=
  match kind with
  | 0 => i < nCols s
  | 1 => s.gen.eng && i < nRinks s
  | 2 => isNi s i
  | _ => false

/-- Key of a region among the save lists. -/
def regionKey (kind i : Nat) : Nat := 100 * kind + i

/-- Routers of a column. -/
def colRtrs (s : State) (c : Nat) : List Nat := (List.range (nRows s)).map fun r => rtrAt s c r

/-- The column in whose entry the route set has been switched: new messages do not enter it (16 Table 16.5). -/
def leavingCol (s : State) (c : Nat) : Bool :=
  match s.pwr.cur with
  | some q => q.sub == 1 && reqAction q.req != 4 && reqKind q.req == 0 && reqIndex q.req == c
  | none => false

/-- NI n is clamped: asleep, or its entry has passed the drain (16 R355 step 4). -/
def niAway (s : State) (n : Nat) : Bool :=
  (getNi s n).region != 0 ||
    (match s.pwr.cur with
     | some q => decide (4 ≤ q.phase) && reqAction q.req != 4 && reqKind q.req == 2 && reqIndex q.req == n | none => false)

/-- An attachment counts as up: the image enables it, no failure has taken it down, and neither its router nor the NI is absent
(16 R358; 18 R394). -/
def attPresent (s : State) (x n : Nat) (alt : Bool) : Bool :=
  let a := aRtr x (0x200 + 4 * n)
  let h : BitVec 32 := BitVec.ofNat 32 (fld (imgWord s (a / 8 * 8)) (32 * (n % 2) + 31) (32 * (n % 2)))
  attUp h alt && !bitOf (getNi s n).attDown (if alt then 0 else 1) && !(getRtr s (attRtr h alt)).failed &&
    mgetD s.pwr.cols (rtrCol s (attRtr h alt)) 0 == 0 && !leavingCol s (rtrCol s (attRtr h alt)) && !niAway s n

/-- The up bits of NI n in RTE_HOME of router x follow what is present. -/
def setHomeAt (s : State) (n x : Nat) : State :=
  let a := aRtr x (0x200 + 4 * n)
  let b := 32 * (n % 2)
  wrF (wrF s (a / 8 * 8) (b + 31) (b + 31) (attPresent s x n false).toNat) (a / 8 * 8) (b + 30) (b + 30) (attPresent s x n true).toNat

/-- The same at every router, but those of a column that is being left: messages inside it still eject there. -/
def setHome (s : State) (n : Nat) : State :=
  ((List.range (nRtrs s)).filter fun x => !leavingCol s (rtrCol s x)).foldl (fun t x => setHomeAt t n x) s

/-- NIs with an attachment at a router of column c. -/
def colNis (s : State) (c : Nat) : List Nat :=
  (niList s).filter fun n => rtrCol s (attRtr (homeAt s 0 n) false) == c || rtrCol s (attRtr (homeAt s 0 n) true) == c

/-! Clamps and returns (16 R358, R360). -/

/-- Both ends of a router's mesh and express links to routers outside its column lose or regain presence. -/
def setLinks (s : State) (x : Nat) (up : Bool) : State :=
  (List.range 6).foldl (fun t port => match neighbour t x port with
    | some (y, inp) =>
      let v (z pt : Nat) (pl : Nat) : Bool := up && bitOf (rd t (aRtr z 0x20)) (16 * pl + pt) && !(getRtr t x).failed && !(getRtr t y).failed &&
        mgetD t.pwr.cols (rtrCol t y) 0 == 0
      let t1 := setPortUp (setPortUp t y .req inp (v y inp 0)) y .rsp inp (v y inp 1)
      setPortUp (setPortUp t1 x .req port (v x port 0)) x .rsp port (v x port 1)
    | none => t) s

/-- The channels of a link into a column come back with full credits once it returns. -/
def freshLinks (s : State) (x : Nat) : State :=
  (List.range 6).foldl (fun t port => match neighbour t x port with
    | some (y, inp) =>
      let clr (p : Nat) (r : RtrPlane) : RtrPlane := { r with credits := mdrop r.credits fun k => k / 16 == p
                                                              owed := mdrop r.owed fun k => k / 16 == p
                                                              owner := mdrop r.owner fun k => k / 16 == p }
      let t1 := updRtr t y fun r => { r with req := clr inp r.req, rsp := clr inp r.rsp }
      updRtr t1 x fun r => { r with req := clr port r.req, rsp := clr port r.rsp }
    | none => t) s

/-- An NI's channels on an attachment end and start with full credits (16 R358): the link is absent. -/
def attReset (s : State) (n : Nat) (alt : Bool) : State :=
  updNi s n fun i => { i with
    partials := mdrop i.partials fun k => k / 32 == alt.toNat
    sched := { i.sched with
      prog := mdrop i.sched.prog fun k => k / 2 == alt.toNat
      credits := mdrop i.sched.credits fun k => k / 32 == alt.toNat } }

/-- The attachments of NI n at routers of column c end. -/
def attResetCol (s : State) (c n : Nat) : State :=
  let go (t : State) (alt : Bool) : State := if rtrCol t (attRtr (homeAt t 0 n) alt) == c then attReset t n alt else t
  go (go s false) true

/-- The column's isolation cells take their values (16 Table 16.6). -/
def clampCol (s : State) (c : Nat) : State :=
  let s1 := (colRtrs s c).foldl (fun t x => freshLinks (setLinks t x false) x) s
  (colNis s1 c).foldl (fun t n => attResetCol t c n) s1

/-- The port of a clamped NI (16 Table 16.6). -/
def clampPort (p : Port) : Port :=
  { p with up := false, accept := false, rsAccept := false, fnReady := false, tbValid := false, inNi := true, outErq := none, outErs := none }

/-- The NI's isolation cells take their values: its routers clear both up bits. -/
def clampNi (s : State) (n : Nat) : State :=
  let s1 := setHome (updPort s n clampPort) n
  attReset (attReset s1 n false) n true

/-- Register words that neither a save list nor a retained array holds (16 R357): they take their reset values, or the
image's, at the region reset. -/
def niLosesWord (off : Nat) : Bool :=
  off == 0x10 || off == 0x18 || off == 0x30 || off == 0x38 || off == 0x138 || off == 0x1C10 || off == 0x1C70 || off == 0x1C78

/-- Router words that a region reset takes to their reset values, or to the image's: RTE_CFG among them (05 R113, 17 R373), and not
the retained arrays. -/
def rtrLosesWord (off : Nat) : Bool :=
  [0x08, 0x30, 0x38, 0x40, 0x48, 0x50, 0x68, 0x70, 0x80, 0x98, 0xA0, 0xA8, 0xB0].contains off

/-- The listed words of a block whose offsets satisfy p take their reset values, or the image's. -/
def wordsReset (s : State) (base size : Nat) (p : Nat → Bool) : State :=
  let l := (s.regs.map (·.1)).filter fun a => decide (base ≤ a) && decide (a < base + size) && p (a - base)
  l.foldl (fun t a => wr t a (imgWord t a)) s

/-- The flags of a column's routers start afresh: until the wake GLB_ERR_RTE keeps its bits (23 R477). -/
def rtrFlags (s : State) (c : Nat) : State :=
  (colRtrs s c).foldl (fun t x => wordsReset t (aRtr x 0) 0x1000 fun off => off == 0x10 || off == 0xC8) s

/-- What a region that is unpowered loses (16 R357). -/
def loseRegion (s : State) (kind i : Nat) : State :=
  match kind with
  | 0 => (colRtrs s i).foldl (fun t x =>
      wordsReset (updRtr t x fun r => { r with req := {}, rsp := {}, gather := [], self := [], rx := { wires := r.rx.wires } }) (aRtr x 0) 0x1000
        rtrLosesWord) s
  | 1 => (List.range 8).foldl (fun t j => updSlot t (8 * i + j) fun e => { closed := e.closed }) s
  | _ =>
    let s1 := updNi s i fun n => { n with
      reqs := [], trk := [], fences := [], answers := [], members := [], lateMembers := [], pulls := [], mirrors := [], inReq := [], inRsp := [],
      partials := [], sched := {}, pst := { n.pst with charges := [], staged := [], twins := [] },
      dec := { n.dec with etc := [], fills := [], useCnt := 0 } }
    wordsReset s1 (aNi i 0) 0x2000 niLosesWord

/-! Ends and starts (16 R352, R362). -/

/-- PWR_RESULT of a request that ends (16 Table 16.13). -/
def pwrResult (s : State) (r : BitVec 24) (code : Nat) : State :=
  wr s (aPwr 0x10) (BitVec.ofNat 64 ((code % 256) <<< 56 ||| r.toNat <<< 32 ||| frameOf s % 2 ^ 32))

/-- A request ends with a code (16 R362). -/
def pwrOutcome (s : State) (r : BitVec 24) (code : Nat) : State :=
  let s1 := pwrResult s r code
  if code = 0 then raiseG (setFlag s1 (aPwr 0x18) 0) 241 0x160 0 r.toNat
  else if code = 1 then s1
  else raiseG (setFlag s1 (aPwr 0x18) 1) 241 0x161 1 code

/-- A live or standby block of a flow lies on a link of a router of column c (16 Table 16.4). -/
def flowInCol (s : State) (c : Nat) : Bool :=
  s.eng.flows.any fun f => (f.2.path :: f.2.standby.map (·.2)).any fun p => p.any fun l => rtrCol s l.1 == c

/-- A block lies on an attachment of NI n. -/
def flowAtNi (s : State) (n : Nat) : Bool := s.eng.flows.any fun f => nodeLoc f.2.srcNode == n || f.2.dst == nodeOf s n

/-- The condition of 16 Table 16.4 that refuses an entry, from the top. -/
def sleepRefusal (s : State) (kind i : Nat) : Option Nat :=
  if (kind = 0 ∧ flowInCol s i) ∨ (kind = 2 ∧ flowAtNi s i) then some 3
  else match kind with
  | 0 =>
    let east := (List.range (nCols s)).filter fun c => i < c
    let low := if regionOf s 0 i = 0 then i else ((List.range (nCols s)).find? fun c => regionOf s 0 c != 0).getD i
    if i = 0 ∨ east.any (fun c => regionOf s 0 c == 0) then some 4
    else if !hasSet s (nCols s - low) ∨ s.flt.caseR.isSome ∨ s.flt.switchAt.isSome then some 5
    else if (niList s).any fun n => (getNi s n).region == 0 && decide (low ≤ rtrCol s (attRtr (homeAt s 0 n) false)) &&
        decide (low ≤ rtrCol s (attRtr (homeAt s 0 n) true)) then some 6
    else if (List.range 8).any fun p => isSpan s p && bitOf (spnCfg s p) 0 && rtrCol s (spanAtt s p).1 == i &&
        (getSpan s p).lstate != 0 && (getSpan s p).lstate != 5 then some 7
    else none
  | 1 => if i < 2 then some 9 else none
  | _ =>
    let home (h : Nat) : Bool := rd s (aJrn (0x10 + 8 * h)) != 0 && homeNode s h == nodeOf s i
    if isSvcNi s i ∨ !(tbtRows s i).isEmpty ∨ home 0 ∨ home 1 ∨ slotBusy (getNi s i) then some 8 else none
where
  /-- The slot is neither disabled, EMPTY nor LOCKED (16 Table 16.4, 21 Table 21.6). -/
  slotBusy (i : Ni) : Bool := i.slot.state != 0 && i.slot.state != 1 && i.slot.state != 7
  /-- The valid TBT rows of an NI, and those written for the next tick. -/
  tbtRows (s : State) (n : Nat) : List Nat := (getNi s n).dec.tbt.map (·.1) ++ (getNi s n).dec.tbtDue.map (·.1)

/-- Jobs of rink b's deques go to working slots of other rinks (16 Table 16.5). -/
def moveJobs (s : State) (b : Nat) : State :=
  (List.range 8).foldl (fun t j =>
    let k := 8 * b + j
    (getSlot t k).deque.reverse.foldl (fun u job =>
      match (((List.range (nRinks u)).filter (· != b)).filterMap (fewest u)).foldl (fun best c => match best with
          | none => some c
          | some d => if (getSlot u c).deque.length < (getSlot u d).deque.length then some c else some d) none with
      | some c =>
        if (getSlot u c).deque.length < 64 then
          (pushOn (updSlot u k fun e => { e with deque := e.deque.filter (· != job) }) c [job]).2
        else u
      | none => u) t) s

/-- An NI that drains asks for the reset handshake once its buffer and tracker are empty (16 Table 16.5). -/
def drainHandshake (s : State) (n : Nat) : State :=
  let i := getNi s n
  if portEn s n && isEpNi s n && i.trk.isEmpty && i.reqs.isEmpty && !i.port.resetting then
    updPort (portResetBegin s n) n fun p => portStep { p with reqNi := true }
  else s

/-- The request in progress moves to a phase. -/
def setPhase (s : State) (ph : Nat) : State :=
  { s with pwr := { s.pwr with cur := s.pwr.cur.map fun q => { q with phase := ph } } }

/-- The drain of the region begins (16 R355 step 2, R356). -/
def drainBegin (s : State) (q : PwrReq) : State :=
  let s1 := { s with pwr := { s.pwr with cur := some { q with phase := 3, deadline := nowNs s + 65536 } } }
  match reqKind q.req with
  | 1 => moveJobs s1 (reqIndex q.req)
  | 2 => drainHandshake (startDrain s1 (reqIndex q.req) (reqDiscard q.req)) (reqIndex q.req)
  | _ => s1

/-- ns that an entry takes behind the drain (16 Table 16.7), with the wake up to its clock where a sleeping region moves to CG. -/
def entryNs (s : State) (old action : Nat) : Nat :=
  match action with
  | 1 => ceilDiv (16 * fcSixths s.pwr.lvl.toNat) 6 + (match old with | 2 => 8000 | 3 => 20000 | _ => 0)
  | 2 => 2000
  | _ => 6000

/-- A request starts as the change in progress (16 R351, R353, R355, R360): the state, or the code with which it ends at once. -/
def pwrTry (s : State) (q : PwrReq) : Except Nat State :=
  let r := q.req
  let a := reqAction r
  let i := reqIndex r
  let put (q : PwrReq) (t : State) : State := { t with pwr := { t.pwr with cur := some (if q.readyNs = 0 then { q with readyNs := nowNs s } else q) } }
  if 5 ≤ a ∨ reqKind r = 3 then .error 0x0C
  else if a = 0 then
    let l := reqLevel r
    if (!bitOf (rd s (aPwr 0x20)) (16 + l) && !q.agedown) || bitOf (rd s (aPwr 0x108)) l then .error 0x0C
    else if l = s.pwr.lvl.toNat then .error 0
    else if s.pwr.lvl.toNat < l then .ok (put { q with phase := 1 } s)
    else
      let t := driveVid (put { q with phase := 5, deadline := nowNs s + 1000 * max 1 (rdF s (aPwr 0x20) 31 24) } s) (vidCode s l) true
      .ok (if t.pwr.vwait then t else setPhase t 1)
  else if !regionExists s (reqKind r) i then .error 0x0C
  else
    let st := regionOf s (reqKind r) i
    let want := if a = 4 then 0 else a
    if st = want then .error 0
    else if a = 4 then
      if reqKind r = 0 ∧ (List.range i).any (fun c => regionOf s 0 c != 0) then .error 0x0D
      else if st = 1 then .ok (put { q with phase := 7 } s)
      else if st = 2 then .ok (put { q with phase := 5, readyNs := nowNs s + 8000 } s)
      else .ok (put { q with phase := 6, readyNs := nowNs s + 20000 } s)
    else match (if st < a ∨ st = 0 then sleepRefusal s (reqKind r) i else none) with
    | some c => .error c
    | none =>
      if st = 0 then (if reqKind r = 0 then .ok (put { q with phase := 2 } s) else .ok (drainBegin s q))
      else
        let t := if a = 3 then loseRegion { s with pwr := { s.pwr with saved := insertNat s.pwr.saved (regionKey (reqKind r) i) } } (reqKind r) i else s
        .ok (put { q with phase := 5, sub := 2, readyNs := nowNs s + entryNs s st a } t)

/-- The request in progress ends, a margin that waited reaches pwr_vid, and the next change starts (16 R352, R362, Table 16.11;
18 R404). -/
def pwrFinish (s : State) (r : BitVec 24) (code : Nat) (agedown : Bool) : State :=
  let s1 := pwrOutcome { s with pwr := { s.pwr with cur := none } } r code
  let s2 := if agedown && code == 2 then raiseG s1 241 0x189 3 s1.pwr.lvl.toNat else s1
  if s2.pwr.vid.toNat = vidCode s2 s2.pwr.lvl.toNat then s2 else driveVid s2 (vidCode s2 s2.pwr.lvl.toNat) true

/-- Start what waits, while it ends at once: the change that a blocked level forces, then the pending request. -/
def pwrNext (s : State) (fuel : Nat) : State :=
  match fuel with
  | 0 => s
  | f + 1 =>
    if s.pwr.cur.isSome then s
    else match s.pwr.forced with
    | some l =>
      let s1 := { s with pwr := { s.pwr with forced := none } }
      let q : PwrReq := { req := BitVec.ofNat 24 (l <<< 16), agedown := true }
      (match pwrTry s1 q with
       | .ok t => t
       | .error c => pwrNext (pwrFinish s1 q.req c true) f)
    | none => match s.pwr.pend with
      | some r =>
        let s1 := { s with pwr := { s.pwr with pend := none } }
        (match pwrTry s1 { req := r } with
         | .ok t => t
         | .error c => pwrNext (pwrFinish s1 r c false) f)
      | none => s

/-- The change in progress ends with a code; what waits starts. -/
def pwrEnd (s : State) (code : Nat) : State :=
  match s.pwr.cur with
  | some q => pwrNext (pwrFinish s q.req code q.agedown) 3
  | none => s

/-- A write of PWR_REQ (16 R352): it starts, or becomes the pending request, superseding one that is held. -/
def pwrWrite (s : State) (r : BitVec 24) : State :=
  let s1 := match s.pwr.pend with | some old => pwrOutcome s old 1 | none => s
  pwrNext { s1 with pwr := { s1.pwr with pend := some r } } 3

/-- Masters that may write PWR_REQ (16 R351). -/
def pwrMay (s : State) (m : Master) : Bool :=
  match m with
  | .cp | .pwr => true
  | .hst0 | .hst1 => bitOf (rd s (aPwr 0x20)) 0
  | _ => false

/-- A permitted write of PWR_REQ with a given action. -/
def pwrCmd (s : State) (m : Master) (req : BitVec 32) (action : Nat) : State :=
  if pwrMay s m && reqAction (req.extractLsb' 0 24) == action then pwrWrite s (req.extractLsb' 0 24) else s

/-- PWR_SET_LEVEL: a level change is requested (16 R348, R349). -/
def execPwrSetLevel (m : Master) (req : BitVec 32) (s : State) : Host.Outcome State Fault Refusal := answer s (pwrCmd s m req 0)
/-- PWR_CG: clock gating of a region is requested (16 R355). -/
def execPwrCg (m : Master) (req : BitVec 32) (s : State) : Host.Outcome State Fault Refusal := answer s (pwrCmd s m req 1)
/-- PWR_RET: retention of a region is requested. -/
def execPwrRet (m : Master) (req : BitVec 32) (s : State) : Host.Outcome State Fault Refusal := answer s (pwrCmd s m req 2)
/-- PWR_OFF: power-off of a region is requested (16 R357). -/
def execPwrOff (m : Master) (req : BitVec 32) (s : State) : Host.Outcome State Fault Refusal := answer s (pwrCmd s m req 3)
/-- PWR_WAKE: a wake is requested (16 R360). -/
def execPwrWake (m : Master) (req : BitVec 32) (s : State) : Host.Outcome State Fault Refusal := answer s (pwrCmd s m req 4)

/-! The regulator (16 R347 to R349). -/

/-- The rises whose regulation was awaited are notified (18 R403). -/
def marginDone (s : State) : State :=
  s.pwr.marginUps.foldl (fun t u => raiseG t 241 0x187 1 (u.1 ||| u.2.2 <<< 2 ||| u.2.1 <<< 8))
    { s with pwr := { s.pwr with marginUps := [] } }

/-- PWR_PGOOD: pwr_pgood is sampled 1 after pwr_vchg (16 R347 to R349): a change to a slower level completes, one to a faster
level waits for its tick. At power-up it lets the cold reset begin to end (24 R486). -/
def execPwrPgood (s : State) : Host.Outcome State Fault Refusal :=
  answer s (
    let s0 := { s with
      pwr := { s.pwr with pgood := true, vwait := false }
      rst := { s.rst with pgSeen := true, clearing := s.rst.clearing || (s.rst.inCold && s.rst.rstN && s.rst.porN) } }
    let s1 := marginDone s0
    match s.pwr.cur with
    | some q =>
      if reqAction q.req = 0 ∧ q.phase = 5 then
        (if s.pwr.lvl.toNat = reqLevel q.req then pwrEnd s1 0 else setPhase s1 1)
      else s1
    | none => s1)

/-- VR_TIMEOUT: no pwr_pgood within VTO of a change to a faster level (16 R349). -/
def execVrTimeout (s : State) : Host.Outcome State Fault Refusal :=
  answer s (match s.pwr.cur with
    | some q =>
      if reqAction q.req = 0 ∧ q.phase = 5 ∧ s.pwr.vwait ∧ reqLevel q.req < s.pwr.lvl.toNat ∧ q.deadline ≤ nowNs s then
        pwrEnd (driveVid (setFlag s (aPwr 0x18) 3) (vidCode s s.pwr.lvl.toNat) false) 0x0B
      else s
    | none => s)

/-! Region entries. -/

/-- The region that a word of the map lies in (19 R415), as kind and number. -/
def regionHolding (s : State) (a : Nat) : Option (Nat × Nat) :=
  let rtr (x : Nat) := if isRtr s x then some (0, rtrCol s x) else none
  let ni (n : Nat) := if isNi s n then some (2, n) else none
  let rink (b : Nat) := if s.gen.eng && decide (b < nRinks s) then some (1, b) else none
  if 0x100000 ≤ a ∧ a < 0x140000 then rtr ((a - 0x100000) / 0x1000)
  else if 0x200000 ≤ a ∧ a < 0x300000 then ni ((a - 0x200000) / 0x2000)
  else if 0x2000000 ≤ a ∧ a < 0x2800000 then ni ((a - 0x2000000) / 0x10000)
  else if isLive a then
    let i := (a - 0x410000) / 8
    if i < 2048 then rtr (i / 32)
    else if i < 8192 then ni ((i - 2048) / 48)
    else if i < 8384 then none
    else rink ((i - 8384) / 144)
  else if 0x801000 ≤ a ∧ a < 0x801900 then rink ((a - 0x801000) / 0x120)
  else none

/-- A write that its target has granted still has beats to come for the region: it completes before the region sleeps (19 Table 19.8). -/
def accessOpen (s : State) (kind i : Nat) : Bool :=
  s.mmx.accs.any fun a => a.granted && a.wr && !a.ended &&
    (((aliasOf s (a.addr.toNat - a.addr.toNat % 8)).bind (regionHolding s)) == some (kind, i))

/-- The region meets its drain condition (16 Table 16.5). -/
def regionDrained (s : State) (kind i : Nat) : Bool :=
  match kind with
  | 0 => (colRtrs s i).all fun x =>
      let r := getRtr s x
      r.req.buf.all (fun b => b.2.isEmpty) && r.rsp.buf.all (fun b => b.2.isEmpty) && r.gather.isEmpty
  | 1 => (List.range 8).all fun j => (getSlot s (8 * i + j)).deque.isEmpty && (getSlot s (8 * i + j)).running.isNone
  | _ =>
    let n := getNi s i
    drained n && n.trk.isEmpty && n.pst.staged.isEmpty && n.members.isEmpty && n.port.erqG.isEmpty && n.port.erqB.isEmpty &&
      n.port.ersG.isEmpty && n.port.ersB.isEmpty && (!portEn s i || (n.port.inEp && n.port.inNi))

/-- A column that stays awake behind its switch: the previous route set comes back (16 R356), and the attachments at once. -/
def colBack (s : State) (c : Nat) : State :=
  let s1 := { s with pwr := { s.pwr with back := some (nCols s - c - 1) } }
  (colNis s c).foldl setHome { s1 with pwr := { s1.pwr with cur := none } }

/-- The entry ends with a code and the region stays awake. -/
def entryFails (s : State) (q : PwrReq) (code : Nat) : State :=
  let i := reqIndex q.req
  let s1 := match reqKind q.req with
    | 0 => if q.sub = 1 then { (colBack s i) with pwr := { (colBack s i).pwr with cur := some q } } else s
    | 2 => drainReg (updNi s i fun n => { n with drain := { n.drain with active := false } }) i
    | _ => s
  pwrEnd s1 code

/-- The region is clamped and leaves its supply or clock (16 R355 steps 3 to 5), unless a condition of Table 16.4 holds. -/
def entryClamp (s : State) (q : PwrReq) : State :=
  let k := reqKind q.req
  let i := reqIndex q.req
  match sleepRefusal s k i with
  | some c => entryFails s q c
  | none =>
    let s1 := { s with pwr := { s.pwr with cur := some { q with phase := 5, readyNs := nowNs s + entryNs s 0 (reqAction q.req) } } }
    let s2 := match k with | 0 => clampCol s1 i | 2 => clampNi s1 i | _ => s1
    if reqAction q.req = 3 then loseRegion { s2 with pwr := { s2.pwr with saved := insertNat s2.pwr.saved (regionKey k i) } } k i else s2

/-- REGION_DRAIN_DONE: the region is drained before its deadline (16 R356). -/
def execRegionDrainDone (s : State) : Host.Outcome State Fault Refusal :=
  answer s (match s.pwr.cur with
    | some q =>
      if q.phase = 3 ∧ nowNs s < q.deadline ∧ regionDrained s (reqKind q.req) (reqIndex q.req) ∧
          accessOpen s (reqKind q.req) (reqIndex q.req) = false then entryClamp s q else s
    | none => s)

/-- An NI at its drain deadline with DISCARD (16 R356): its writes are discarded and every other request ends as by a slice
reset. -/
def niDiscardAll (s : State) (n : Nat) : State :=
  let s1 := if (getNi s n).drain.active then drainExpire s n else s
  (List.range 16).foldl (fun t k => sliceResetReq t n k) s1

/-- REGION_DRAIN_DEADLINE: 64 frames after the drain began (16 R356): DRAIN_TIMEOUT and PWR_EVT.DRAIN_TO, or with DISCARD an NI or rink
goes on without them. -/
def execRegionDrainDeadline (s : State) : Host.Outcome State Fault Refusal :=
  answer s (match s.pwr.cur with
    | some q =>
      if q.phase ≠ 3 ∨ nowNs s < q.deadline ∨
          (reqKind q.req ≠ 0 ∧ reqDiscard q.req ∧ accessOpen s (reqKind q.req) (reqIndex q.req)) then s
      else
        let s1 := setFlag s (aPwr 0x18) 2
        let i := reqIndex q.req
        match reqKind q.req with
        | 0 => entryFails s1 q 0x0A
        | 1 => if reqDiscard q.req then entryClamp ((List.range 8).foldl (fun t j => closeRun t (8 * i + j)) s) q else entryFails s1 q 0x0A
        | _ => if reqDiscard q.req then entryClamp (niDiscardAll s i) q
            else entryFails (if (getNi s1 i).drain.active then drainExpire s1 i else s1) q 0x0A
    | none => s)
where
  /-- A slot closes under 13 R299: its running job waits in a working slot of another rink. -/
  closeRun (s : State) (k : Nat) : State :=
    let s1 := wrF s (aEng (8 + 8 * (k / 8))) (4 * (k % 8) + 3) (4 * (k % 8)) 15
    moveJobs (updSlot s1 k fun e => { e with
      closed := true, parked := false, running := none
      deque := (e.running.map fun j => { j with cursor := 0, outstanding := 0, check := 0, diffs := [], got := [] }).toList ++ e.deque }) (k / 8)

/-- REGION_ENTRY_DONE: the save, clamp and supply change are complete (16 R355 step 6, Table 16.7). -/
def execRegionEntryDone (s : State) : Host.Outcome State Fault Refusal :=
  answer s (match s.pwr.cur with
    | some q =>
      if q.phase = 5 ∧ reqAction q.req ≠ 0 ∧ reqAction q.req ≠ 4 ∧ q.readyNs ≤ nowNs s then
        pwrEnd (setRegion s (reqKind q.req) (reqIndex q.req) (reqAction q.req)) 0
      else s
    | none => s)

/-- REGION_WAKE_READY: the supply and the restore are complete, the clock starts and the clamp lifts (16 R360 steps 1 and 2); the
links wait for the next gate tick. -/
def execRegionWakeReady (s : State) : Host.Outcome State Fault Refusal :=
  answer s (match s.pwr.cur with
    | some q => if reqAction q.req = 4 ∧ (q.phase = 5 ∨ q.phase = 6) ∧ q.readyNs ≤ nowNs s then setPhase s 7 else s
    | none => s)

/-! What the gate tick does for the controller. -/

/-- An NI returns (16 R357, R360): scheduler and shapers afresh where its logic was unpowered, attachments up, the port in its
handshake. -/
def niReturns (s : State) (n : Nat) (lost : Bool) : State :=
  let s1 := if lost then updNi s n fun i => { i with
      sched := { i.sched with queues := (List.range 64).map fun q => (q, { tUpd := nowNs s, tElig := 256 * nowNs s }) }
      slices := mmap i.slices fun _ c => { c with rst := false, scUpd := nowNs s } } else s
  let s2 := setHome s1 n
  updPort s2 n fun p =>
    if isEpNi s n && portEn s n then portStep { p with resetting := true, reqNi := true, inNi := true, reqNs := nowNs s }
    else { p with inNi := false }

/-- A region's links and attachments count as present again at the tick (16 R360 step 3). -/
def rejoin (s : State) (q : PwrReq) : State :=
  let k := reqKind q.req
  let i := reqIndex q.req
  let lost := s.pwr.saved.contains (regionKey k i)
  let s1 := setRegion { s with pwr := { s.pwr with saved := s.pwr.saved.filter (· != regionKey k i) } } k i 0
  match k with
  | 0 =>
    let s2 := (colRtrs s1 i).foldl (fun t x => freshLinks (setLinks t x true) x) (if lost then rtrFlags s1 i else s1)
    { ((colNis s2 i).foldl setHome s2) with pwr := { s2.pwr with cur := some { q with sub := 1 } } }
  | 2 => niReturns s1 i lost
  | _ => s1

/-- Step 2 of the tick for a column (16 R355 step 1, R356, R360 step 4): the route set of the new pattern, once no old epoch is
live. A router case ends an entry that has not switched and holds a wake; a set that does not carry every flow is refused (06
R143). -/
def pwrStep2 (s : State) : State :=
  let hold := rdF s (aImg 0x88) 10 0
  let fault := s.flt.caseR.isSome || s.flt.switchAt.isSome
  match s.pwr.back with
  | some rs => if anyOldLive s || fault then s else switchSet { s with pwr := { s.pwr with back := none } } rs hold
  | none =>
    match s.pwr.cur with
    | some q =>
      let c := reqIndex q.req
      if reqAction q.req ≠ 4 ∧ q.phase = 2 ∧ q.readyNs < nowNs s then
        if q.sub = 0 then
          if fault then pwrEnd s 5
          else if anyOldLive s then s
          else if !flowsRoutable s (nCols s - c) then pwrEnd s 5
          else
            let s1 := switchSet { s with pwr := { s.pwr with cur := some { q with sub := 1 } } } (nCols s - c) hold
            (colNis s1 c).foldl setHome s1
        else if anyOldLive s then s else drainBegin s q
      else if reqAction q.req = 4 ∧ q.phase = 7 ∧ reqKind q.req = 0 ∧ q.sub = 1 then
        if anyOldLive s || fault then s
        else if !flowsRoutable s (nCols s - c - 1) then pwrEnd s 5
        else pwrEnd (switchSet s (nCols s - c - 1) hold) 0
      else s
    | none => s

/-- The rejoin due at this tick; an NI or rink request then ends OK (16 R360). An NI that drains looks for its handshake. -/
def pwrRejoin (s : State) : State :=
  match s.pwr.cur with
  | some q =>
    if reqAction q.req = 4 ∧ q.phase = 7 ∧ q.sub = 0 ∧ q.readyNs < nowNs s then
      let s1 := rejoin s q
      if reqKind q.req = 0 then s1 else pwrEnd s1 0
    else if q.phase = 3 ∧ reqKind q.req = 2 then drainHandshake s (reqIndex q.req)
    else s
  | none => s

/-- Counts of the ageing monitors restart (18 R403). -/
def ageRestart (s : State) : State := (List.range 16).foldl (fun t m => wrF t (aPwr (0x88 + 8 * m)) 31 16 0) s

/-- Step 5 of the tick (16 R348, R349): the divider switches, unless a flow's floor is faster than the level. -/
def pwrStep5 (s : State) : State :=
  match s.pwr.cur with
  | some q =>
    if reqAction q.req = 0 ∧ q.phase = 1 ∧ q.readyNs < nowNs s then
      let l := reqLevel q.req
      if s.pwr.lvl.toNat < l ∧ s.eng.flows.any (fun f => f.2.flr < l) then pwrEnd s 2
      else
        let slower := s.pwr.lvl.toNat < l
        let s1 := ageRestart { s with pwr := { s.pwr with lvl := BitVec.ofNat 2 l } }
        if slower then
          let s2 := driveVid (setPhase s1 5) (vidCode s1 l) true
          if s2.pwr.vwait then s2 else pwrEnd s2 0
        else pwrEnd s1 0
    else s
  | none => s

/-- The next slower level that is not blocked (18 R404). -/
def slowerFree (s : State) : Option Nat := (List.range 4).find? fun l => decide (s.pwr.lvl.toNat < l) && !bitOf (rd s (aPwr 0x108)) l

/-- A margin rise is due for the level in force (18 R403, R404). -/
def marginDue (s : State) (m : Nat) : State :=
  let l := s.pwr.lvl.toNat
  let v := rdF s (aPwr 0x30) (4 * l + 2) (4 * l)
  if v < 4 then
    raiseMargin (ageRestart { s with pwr := { s.pwr with marginUps := s.pwr.marginUps ++ [(l, m, v + 1)] } }) l (v + 1)
  else if bitOf (rd s (aPwr 0x108)) l then s
  else
    let s1 := raiseG (setFlag s (aPwr 0x108) l) 241 0x188 2 l
    match slowerFree s1 with
    | some k => pwrNext { s1 with pwr := { s1.pwr with forced := some k } } 3
    | none => raiseG s1 241 0x189 3 l

/-- AGE_THR and AGE_CNT (18 Table 18.8). -/
def ageThr (s : State) : Nat := max 1 (rdF s (aPwr 0x80) 31 24)
/-- AGE_CNT. -/
def ageCnt (s : State) : Nat := max 1 (rdF s (aPwr 0x80) 15 0)

/-- One monitor reports its slack (18 R403, Table 18.9). -/
def ageMeasure (s : State) (m v : Nat) : State :=
  let a := aPwr (0x88 + 8 * m)
  let w := rd s a
  let below := if v < ageThr s then satAdd 0xFFFF (fld w 31 16) 1 else 0
  let mn := if s.pwr.ageSeen.contains m then min (fld w 7 2) v else v
  wr { s with pwr := { s.pwr with ageSeen := insertNat s.pwr.ageSeen m } } a
    (BitVec.ofNat 64 (below <<< 16 ||| v <<< 8 ||| mn <<< 2 ||| s.pwr.lvl.toNat))

/-- The ageing check of the tick (18 R403): the monitors of columns that are ON report; one rise, for the lowest monitor that
asks for it. -/
def ageTick (s : State) (slacks : List (BitVec 6)) : State :=
  let l := ((List.range 16).zip slacks).filter fun p => decide (p.1 / 2 < nCols s) && mgetD s.pwr.cols (p.1 / 2) 0 == 0
  let s1 := l.foldl (fun t p => ageMeasure t p.1 p.2.toNat) s
  match l.find? fun p => decide (ageCnt s1 ≤ rdF s1 (aPwr (0x88 + 8 * p.1)) 31 16) || decide (2 * p.2.toNat < ageThr s1) with
  | some p => marginDue s1 p.1
  | none => s1

end Sys2Proof.Machine
end

