-- ==== Sys2Proof/Machine/Faults.lean ====
section
/-! DEFINITION. Faults and spares (18 R388 to R402): wires, router failures and their case, restore, and rows. -/

namespace Sys2Proof.Machine

/-! Wires (18 R388, R389). -/

/-- A wire group exists: the router and an input port with path wires. -/
def wireExists (s : State) (x port : Nat) : Bool := isRtr s x && port < 10

/-- A group at one end of a link whose wire is due is steered out (18 R389); not at a router declared failed (18 Table 18.7). -/
def wireSteerAt (s : State) (pl : Plane) (x port g : Nat) (far : Bool) : State :=
  let k := wireKey pl (rxPort s x port far) g
  let w := mgetD (rxOf s x port far).wires k {}
  let put (v : Wire) : State := updRx s x port far fun l => { l with wires := mset l.wires k v }
  match w.due with
  | some (f, wire) =>
    if !frameGe (frameOf s) f then s
    else if (getRtr s x).failed then put { w with due := none }
    else
      let s1 := put { w with due := none, steered := some wire, count := 0 }
      let s2 := if far then s1 else evRtr s1 x 31 1
      raiseG (setFlag s2 (aRtr x 0xC8) 1) (136 + x) 0x180 1 (wireInfo pl port g wire)
  | none => s

/-- A count of one end of a link that stood unchanged for WS_WIN x 1,024 frames restarts at 0 (18 R389). -/
def wireCountEnd (s : State) (pl : Plane) (x port g : Nat) (far : Bool) : State :=
  let k := wireKey pl (rxPort s x port far) g
  let w := mgetD (rxOf s x port far).wires k {}
  if w.count ≠ 0 ∧ w.due.isNone ∧ wsWin s ≤ subMod 48 (frameOf s) w.since then
    updRx s x port far fun l => { l with wires := mset l.wires k { w with count := 0 } }
  else s

/-- The far end of a router's port keeps wires of its own: an NI or span port is attached there. -/
def farEnd (s : State) (x port : Nat) : Bool := (niAtPort s x port).isSome || (spanAt s x port).isSome

/-- WIRE_STEER: at the second gate tick after its threshold the wire is steered out at both ends (18 R389), for either direction of an
attachment. -/
def execWireSteer (pl : Plane) (x : RtrId) (port : BitVec 4) (g : BitVec 3) (s : State) : Host.Outcome State Fault Refusal :=
  answer s (
    let k := x.toNat
    let p := port.toNat
    if wireExists s k p then
      let s1 := wireSteerAt s pl k p g.toNat false
      if farEnd s k p then wireSteerAt s1 pl k p g.toNat true else s1
    else s)

/-- WIRE_COUNT_EXPIRE: a count unchanged for WS_WIN x 1,024 frames restarts at 0 (18 R389), for either direction of an attachment. -/
def execWireCountExpire (pl : Plane) (x : RtrId) (port : BitVec 4) (g : BitVec 3) (s : State) : Host.Outcome State Fault Refusal :=
  answer s (
    let k := x.toNat
    let p := port.toNat
    if wireExists s k p then
      let s1 := wireCountEnd s pl k p g.toNat false
      if farEnd s k p then wireCountEnd s1 pl k p g.toNat true else s1
    else s)

/-! Routers (18 R393 to R398). -/

/-- The column of router x is ON and its clock runs (18 R393). -/
def colClocked (s : State) (c : Nat) : Bool :=
  mgetD s.pwr.cols c 0 == 0 &&
    !(match s.pwr.cur with
      | some q => q.phase == 5 && reqAction q.req != 0 && reqKind q.req == 0 && reqIndex q.req == c
      | none => false)

/-- ROUTER_HEARTBEAT_LOSS: no heartbeat from router x for 1 us, while its column is ON (18 R393). -/
def execRouterHeartbeatLoss (x : RtrId) (s : State) : Host.Outcome State Fault Refusal :=
  answer s (if colClocked s (rtrCol s x.toNat) then declareRouter s x.toNat 1 else s)

/-- A write of GLB_FLT_DECL (18 R393, Table 18.8). -/
def fltDecl (s : State) (v : Nat) : State := if v.testBit 8 then declareRouter s (v % 64) 4 else s

/-- GLB_FLT_DECL: the CP master writes the register. -/
def execGlbFltDecl (m : Master) (v : BitVec 32) (s : State) : Host.Outcome State Fault Refusal :=
  answer s (if m = .cp then fltDecl s v.toNat else s)

/-- NIs with an attachment at router x. -/
def rtrNis (s : State) (x : Nat) : List Nat :=
  (niList s).filter fun n => attRtr (homeAt s 0 n) false == x || attRtr (homeAt s 0 n) true == x

/-- Every RTE_HOME holds the new up bits of a declared router (18 R395). -/
def rehome (s : State) (x : Nat) : State := raiseG ((rtrNis s x).foldl setHome s) 246 0x184 0 x

/-- REHOME_DONE: within 7 us of a declaration. -/
def execRehomeDone (s : State) : Host.Outcome State Fault Refusal :=
  answer s (s.flt.declared.foldl (fun t d => rehome t d.1) { s with flt := { s.flt with declared := [] } })

/-- The route set of the pattern of sleeping columns (16 R354): 0 when none sleeps. -/
def patternSet (s : State) : Nat :=
  match (List.range (nCols s)).find? fun c => mgetD s.pwr.cols c 0 != 0 with
  | some c => nCols s - c
  | none => 0

/-- The case of router x begins at its switch (06 R144, R145; 18 R396): flows without standby paths that cross x are suspended. -/
def caseEnter (s : State) (x : Nat) : State :=
  let s1 := switchSet { s with flt := { s.flt with caseR := some x, switchAt := none } } (8 + x) (rdF s (aImg 0x88) 10 0)
  let s2 := wrF s1 0x508 6 0 (64 + x)
  let l := s2.eng.flows.filter fun f => f.2.nosby && (f.2.state == 2 || f.2.state == 3) && f.2.path.any fun l => l.1 == x
  (lowLast s2 (l.map (·.1))).foldl suspendFlow s2

/-- No router case is in force. -/
def caseEnd (s : State) : State :=
  wr { s with flt := { s.flt with caseR := none, restoreAt := none, bist := none } } 0x508 0

/-- The base case is back (18 R398): no standby block is live, and flows suspended under 06 R145 resume. -/
def caseLeave (s : State) : State :=
  match s.flt.caseR with
  | some x => ((caseEnd s).eng.flows.filter fun f => f.2.susp && f.2.nosby && f.2.path.any fun l => l.1 == x).foldl
      (fun t f => resumeFlow t f.1) (caseEnd s)
  | none => caseEnd s

/-- A write of 1 to GLB_FLT_RESTORE (18 R398): the column region of the case's router is reset and its self-test runs; no effect
without a case in force (18 Table 18.7). -/
def fltRestore (s : State) (v : Nat) : State :=
  match s.flt.caseR with
  | some x =>
    if v.testBit 0 ∧ s.flt.bist.isNone ∧ s.flt.restoreAt.isNone then
      let c := rtrCol s x
      let s1 := (colRtrs s c).foldl freshLinks (rtrFlags (loseRegion s 0 c) c)
      { s1 with flt := { s1.flt with bist := some x } }
    else s
  | none => s

/-- GLB_FLT_RESTORE: the CP master writes the register. -/
def execGlbFltRestore (m : Master) (v : BitVec 32) (s : State) : Host.Outcome State Fault Refusal :=
  answer s (if m = .cp then fltRestore s v.toNat else s)

/-- ROUTER_BIST_DONE: the self-test of the case's router ends (18 R398): on a pass the base case returns at the second gate tick
after. -/
def execRouterBistDone (pass : Bool) (s : State) : Host.Outcome State Fault Refusal :=
  answer s (
    if s.flt.bist.isNone then s
    else { s with flt := { s.flt with bist := none, restoreAt := if pass then some ((frameOf s + 2) % 2 ^ 48) else none } })

/-- Router x works again (18 R398): its links and attachments are present. -/
def routerBack (s : State) (x : Nat) : State :=
  let s1 := updRtr s x fun r => { r with failed := false }
  let s2 := freshLinks (setLinks s1 x true) x
  let s3 := (rtrNis s2 x).foldl (fun t n =>
    let h := homeAt t 0 n
    let mask : BitVec 2 := BitVec.ofNat 2 ((if attRtr h false = x then 2 else 0) + (if attRtr h true = x then 1 else 0))
    updNi t n fun i => { i with attDown := i.attDown &&& ~~~mask }) s2
  (rtrNis s3 x).foldl setHome s3

/-- Step 2 of the tick for a failure or its end (18 R396, R398). -/
def fltStep2 (s : State) : State :=
  match s.flt.switchAt with
  | some (x, f) => if frameGe (frameOf s) f then caseEnter s x else s
  | none => match s.flt.restoreAt, s.flt.caseR with
    | some f, some x =>
      if frameGe (frameOf s) f then
        let s1 := caseLeave (routerBack s x)
        raiseG (switchSet s1 (patternSet s1) (rdF s1 (aImg 0x88) 10 0)) 246 0x18A 0 x
      else s
    | _, _ => s

/-- A flow whose active path crosses a retired router keeps its blocks of the case as active ones (18 R398). -/
def retireFlow (s : State) (x id : Nat) (f : Flow) : State :=
  match mget f.standby x with
  | some path =>
    let g := { f with path := path, standby := [], nosby := true }
    let s1 := dropPresets { s with eng := { s.eng with flows := mset s.eng.flows id g } } id
    addPresets (wrFlowEnt s1 g (setFld (flowEnt s1 f) 2 2 1)) id g
  | none => s

/-- Router x is retired by a delta (18 R398): the case ends, and a flow that had no standby path stays suspended. -/
def retireRouter (s : State) (x : Nat) : State :=
  let l := s.eng.flows.filter fun f => f.2.path.any fun l => l.1 == x
  caseEnd (l.foldl (fun t f => retireFlow t x f.1 f.2) s)

/-! Rows (18 R400 to R402). -/

/-- Rows of an array of each kind (18 Table 18.5). -/
def rowsOf (kind : Nat) : Nat := nth [65536, 8192, 6144, 544, 1600, 1536, 256, 24576] kind
/-- Its spare rows. -/
def sparesOf (kind : Nat) : Nat := nth [1280, 160, 120, 16, 32, 32, 8, 512] kind
/-- Configuration arrays hold each row twice. -/
def twoCopies (kind : Nat) : Bool := kind == 1 || kind == 2 || kind == 3 || kind == 5

/-- The unit of an array exists. -/
def rowUnit (s : State) (kind unit : Nat) : Bool :=
  match kind with
  | 0 => unit < nRinks s
  | 1 | 2 | 3 | 4 => isNi s unit
  | 5 | 6 => isRtr s unit
  | _ => unit == 0

/-- Who raises an array's notifications. -/
def rowRaiser (kind unit : Nat) : Nat := match kind with | 0 => 120 + unit | 5 | 6 => 136 + unit | 7 => 245 | _ => unit

/-- A notification of an array: kind and row in INFO (18 Table 18.4). -/
def rowNote (s : State) (kind unit row code sev : Nat) : State :=
  let info := kind ||| row <<< 8
  if kind = 0 then raiseRink s unit code sev info else raiseG s (rowRaiser kind unit) code sev info

/-- Spare rows of one array in use. -/
def sparesUsed (s : State) (kind unit : Nat) : Nat := (s.flt.rowMap.filter fun r => r.1 == kind && r.2.1 == unit).length

/-- GLB_ROWSP of a kind (18 Table 18.8): spare rows in use in the instance, and the fewest free in any one array. -/
def rowspWrite (s : State) (kind : Nat) : State :=
  let l := s.flt.rowMap.filter fun r => r.1 == kind
  let most := (l.map fun r => sparesUsed s kind r.2.1).foldl max 0
  wr s (0x548 + 8 * kind) (BitVec.ofNat 64 ((l.length % 2 ^ 16) <<< 16 ||| (sparesOf kind - most)))

/-- A row moves to a free spare row, or stays in use when none is free (18 R401). -/
def rowSpare (s : State) (kind unit row : Nat) : State :=
  let used := sparesUsed s kind unit
  if sparesOf kind ≤ used then rowNote (setFlag s 0x500 2) kind unit row 0x186 2
  else
    let s1 := { s with flt := { s.flt with rowMap := s.flt.rowMap ++ [(kind, unit, row)], rowErrs := mdel s.flt.rowErrs ((kind * 256 + unit) * 2 ^ 24 + row) } }
    let s2 := if kind = 0 then
        wrF (wr128 s1 (0x1800000 + 16 * (1280 * unit + used)) (ebtRaw s1 (row * nRinks s1 + unit))) 0x1E00018 13 0
          (s1.flt.rowMap.filter fun r => r.1 == 0).length
      else s1
    rowNote (rowspWrite s2 kind) kind unit row 0x185 1

/-- A row of an NI's configuration arrays reads as invalid until a delta rewrites it (18 R402): which rows an array's parts take is
the model's layout (log 28). -/
def rowInvalid (s : State) (kind n row : Nat) : State :=
  match kind with
  | 1 => updNi s n fun i => { i with dec := { i.dec with
      tbt := i.dec.tbt.filter fun p => 8 * (p.1 % 1024) + p.2.way != row } }
  | 2 =>
    if row < 4096 then wr (wr s (lptAddr n row) 0) (lptAddr n row + 8) 0
    else (List.range 4).foldl (fun t j => wr t (0x2800000 + 32 * (row - 4096) + 8 * j) 0) s
  | _ =>
    if row < 256 then updNi s n fun i => { i with dec := { i.dec with windows := mdel i.dec.windows row } }
    else if row < 288 then s
    else updNi s n fun i => { i with dec := { i.dec with bgt := mdel i.dec.bgt (row - 288) } }

/-- A tracker entry whose row is lost ends its request (18 R402), a multicast's entry quarantined as at any ending (10 R225). -/
def rowTracker (s : State) (n row : Nat) : State :=
  match mget (getNi s n).trk row with
  | none => s
  | some e =>
    if e.hold != .live then s
    else
      let hold : TrkHold := if e.group.isSome then .mcQuarantine (nowNs s + gtoOf s * 1024) else .quarantine
      let s1 := updNi s n fun i => { i with trk := mset i.trk row { e with hold := hold } }
      if e.posted then
        pwError (updNi s1 n fun i => { i with reqs := i.reqs.filter fun r => r.id != e.reqId || r.ackBound.isSome })
          n (some e.slice.toNat) 0x100 4 e.opc.toNat row e.hostAddr.toNat
      else deliverEnd (updNi s1 n fun i => dropReq i e.reqId) n e (trkErs e 4 0) 4 []

/-- What an uncorrectable row of a single-copy data array held ends (18 R402). -/
def rowLost (s : State) (kind unit row : Nat) : State :=
  match kind with
  | 0 => ebtRepairStart s (row * nRinks s + unit)
  | 4 =>
    if row < 1024 then rowTracker s unit row
    else if row < 1536 then
      (match (getNi s unit).dec.etc.drop (row - 1024) with
       | p :: _ => updNi s unit fun i => { i with dec := { i.dec with etc := mdel i.dec.etc p.1 } }
       | [] => s)
    else match mget (getNi s unit).members (row - 1536) with
      | some q => if q.answered || q.due.isSome then s else memberExpire s unit (row - 1536) q
      | none => s
  | 6 => match mget (getRtr s unit).gather row with
    | some g => if g.due then s else gatherShort s unit row g
    | none => s
  | _ => s

/-- A corrected error of a row (18 R401): the row is remapped at its threshold. -/
def rowCorrected (s : State) (kind unit row : Nat) : State :=
  let k := (kind * 256 + unit) * 2 ^ 24 + row
  let c := mgetD s.flt.rowErrs k 0 + 1
  let s1 := { s with flt := { s.flt with rowErrs := mset s.flt.rowErrs k c } }
  if c = max 1 (rdF s 0x520 23 16) then rowSpare s1 kind unit row else s1

/-- ROW_REMAP: an access to a row of an SRAM array met an error (18 R401, R402): corrected, or uncorrectable in one copy or in
both. -/
def execRowRemap (kind : BitVec 3) (unit : BitVec 8) (row : BitVec 24) (err : EccErr) (bothCopies : Bool) (s : State) :
    Host.Outcome State Fault Refusal :=
  answer s (
    let k := kind.toNat
    let u := unit.toNat
    let r := row.toNat
    if !rowUnit s k u || rowsOf k ≤ r then s
    else match err with
    | .none => s
    | .single => rowCorrected s k u r
    | .uncorrectable =>
      if twoCopies k && !bothCopies then rowSpare s k u r
      else if k = 5 then declareRouter s u 2
      else if twoCopies k then rowNote (rowInvalid s k u r) k u r 0x18C 2
      else rowSpare (rowLost s k u r) k u r)

end Sys2Proof.Machine
end

