-- ==== Sys2Proof/Machine/Keys.lean ====
section
/-! DEFINITION. Key slots, journal key slots and fuses of the life-cycle unit, and the signature blocks that images and tokens
carry (15 R327; 22 R455 to R460). -/

namespace Sys2Proof.Machine

/-! Key slots (22 R457). -/

/-- A slot every bit of which is blown. -/
def keyWiped : BitVec 384 := BitVec.allOnes 384
/-- The hash that key slot i holds: an ML-DSA slot with `ml`, else an ECDSA slot. -/
def keySlot (s : State) (ml : Bool) (i : Nat) : BitVec 384 := mgetD (if ml then s.lcs.keyM else s.lcs.keyE) i 0
/-- The state with key slot i replaced. -/
def setKey (s : State) (ml : Bool) (i : Nat) (v : BitVec 384) : State :=
  { s with lcs := if ml then { s.lcs with keyM := mset s.lcs.keyM i v } else { s.lcs with keyE := mset s.lcs.keyE i v } }
/-- State of a slot (22 Table 22.10): 0 empty, 1 programmed, 2 wiped. -/
def keyState (s : State) (ml : Bool) (i : Nat) : Nat :=
  if keySlot s ml i = 0 then 0 else if keySlot s ml i = keyWiped then 2 else 1
/-- A maker slot. -/
def makerSlot (i : Nat) : Bool := i < 2
/-- A public key matches a slot: the index names one of a role asked for, neither empty nor wiped, and the hash agrees. -/
def keyMatches (s : State) (ml maker owner : Bool) (i : Nat) (pub : List (BitVec 8)) : Bool :=
  decide (i < 8) && (if makerSlot i then maker else owner) && keyState s ml i == 1 &&
    Config.sha384 pub == bytesOf 48 (keySlot s ml i).toNat
/-- Slots of both kinds are wiped. -/
def wipeKeys (s : State) (l : List Nat) : State :=
  l.foldl (fun t i => setKey (setKey t false i keyWiped) true i keyWiped) s

/-! Journal key slots (22 R460). -/

/-- A journal slot every bit of which is blown. -/
def jrnWiped : BitVec 256 := BitVec.allOnes 256
/-- 256 bits of the random bit generator (log 1). -/
def takeFree256 (s : State) : BitVec 256 × State :=
  let a := takeFree s
  let b := takeFree a.2
  let c := takeFree b.2
  let d := takeFree c.2
  (a.1 ++ b.1 ++ c.1 ++ d.1, d.2)
/-- Journal slot A is filled; a filled one is kept. -/
def fillJrnA (s : State) : State :=
  if s.lcs.jrnA = 0 then
    let f := takeFree256 s
    { f.2 with lcs := { f.2.lcs with jrnA := f.1 } }
  else s
/-- Journal slot B is filled; a filled one is kept. -/
def fillJrnB (s : State) : State :=
  if s.lcs.jrnB = 0 then
    let f := takeFree256 s
    { f.2 with lcs := { f.2.lcs with jrnB := f.1 } }
  else s

/-- From the first wipe of TO_RETURN up to its last (22 Table 22.6). -/
def returnWipes (s : State) : State :=
  let t := wipeKeys s [2, 3, 4, 5, 6, 7]
  fillJrnB { t with lcs := { t.lcs with jrnA := jrnWiped } }
/-- The wipes of TO_SCRAP (22 Table 22.6). -/
def scrapWipes (s : State) : State :=
  let t := wipeKeys s [0, 1, 2, 3, 4, 5, 6, 7]
  { t with lcs := { t.lcs with jrnA := jrnWiped, jrnB := jrnWiped } }

/-- A half-done TO_RETURN or TO_SCRAP is completed from its intent fuse at power-up (22 R465). TO_SCRAP, the later of the two, is
judged last. -/
def intentRecovery (s : State) : State :=
  let a := if s.lcs.fuse.ir && !s.lcs.fuse.f3 then
      let t := returnWipes s
      { t with lcs := { t.lcs with fuse := { t.lcs.fuse with f3 := true } } }
    else s
  if a.lcs.fuse.is && !a.lcs.fuse.f4 then
    let t := scrapWipes a
    { t with lcs := { t.lcs with fuse := { t.lcs.fuse with f1 := true, f2 := true, f3 := true, f4 := true } } }
  else a

/-! The fused floor (22 R461). -/

/-- The floor: the highest-numbered word that is not 0. -/
def fusedFloor (s : State) : Nat := (s.lcs.floors.reverse.find? (· != 0)).elim 0 (·.toNat)

/-! Signature blocks (15 R327). -/

/-- KEY_E of a block. -/
def sigKeyE (b : List (BitVec 8)) : Nat := leAt b 0 2
/-- KEY_M of a block. -/
def sigKeyM (b : List (BitVec 8)) : Nat := leAt b 2 2
/-- The ECDSA key of a block matches a slot of a role asked for. -/
def sigKeyEOk (s : State) (maker owner : Bool) (b : List (BitVec 8)) : Bool :=
  keyMatches s false maker owner (sigKeyE b) (sliceOf b 8 97)
/-- The ML-DSA key of a block matches a slot of a role asked for. -/
def sigKeyMOk (s : State) (maker owner : Bool) (b : List (BitVec 8)) : Bool :=
  keyMatches s true maker owner (sigKeyM b) (sliceOf b 0x100 1952)
/-- The ECDSA signature of a block verifies over the signed bytes. -/
def sigEOk (b signed : List (BitVec 8)) : Bool := Config.ecdsaVerify (sliceOf b 8 97) signed (sliceOf b 0x70 96)
/-- The ML-DSA-65 signature of a block verifies over the digest of the signed bytes. -/
def sigMOk (b signed : List (BitVec 8)) : Bool :=
  Config.mldsaVerify (sliceOf b 0x100 1952) (Config.sha384 signed) (sliceOf b 0x900 3309)

end Sys2Proof.Machine
end

