-- ==== Sys2Proof/Machine/RegMap.lean ====
section
/-! DEFINITION. The register map (23 R473, R475, and the register tables of every chapter): which bytes of each 8-byte word hold
registers, and which bits of it a write or the image changes. -/

namespace Sys2Proof.Machine

/-- A word of the register map: its registers as (first byte, bytes); the bits that are RW, RW/T, W1C, and those the image sets;
`lock`: its RW bits are RW/L (00 R7, R10). -/
structure RegInfo where
  parts : List (Nat × Nat) := []
  rw : Nat := 0
  rwt : Nat := 0
  w1c : Nat := 0
  img : Nat := 0
  lock : Bool := false
  deriving DecidableEq, Repr

/-- A word that one register of 8 bytes fills. -/
def regB8 : RegInfo := { parts := [(0, 8)] }
/-- A word whose bytes 0 to 3 are a register. -/
def regB4 : RegInfo := { parts := [(0, 4)] }
/-- A word of two 4-byte registers. -/
def regB44 : RegInfo := { parts := [(0, 4), (4, 4)] }
/-- A word of four 2-byte registers. -/
def regB2 : RegInfo := { parts := [(0, 2), (2, 2), (4, 2), (6, 2)] }
/-- A register that only the image writes. -/
def RegInfo.byImg (r : RegInfo) (m : Nat) : RegInfo := { r with img := m }
/-- RW bits, which the image may set too. -/
def RegInfo.rwBits (r : RegInfo) (m : Nat) : RegInfo := { r with rw := m, img := m }
/-- RW/T bits, which the image may set too. -/
def RegInfo.rwtBits (r : RegInfo) (m : Nat) : RegInfo := { r with rwt := m, img := m }
/-- W1C bits. -/
def RegInfo.flagBits (r : RegInfo) (m : Nat) : RegInfo := { r with w1c := m }
/-- All ones. -/
def ones64 : Nat := 0xFFFFFFFFFFFFFFFF

/-- The GLB block (23 Table 23.3; 17 Table 17.7; 18 Table 18.11; 04 R88; 10 Table 10.5). -/
def glbInfo (off : Nat) : RegInfo :=
  if 0x8000 ≤ off ∧ off < 0xA000 then regB2.byImg 0x8FFF8FFF8FFF8FFF
  else if 0xA000 ≤ off ∧ off < 0xE000 then regB8.byImg ones64
  else if 0xE000 ≤ off ∧ off < 0xF000 then regB44.byImg 0x8000FFFF8000FFFF
  else if 0x548 ≤ off ∧ off < 0x588 then regB4
  else if 0x200 ≤ off ∧ off < 0x250 then (if off % 16 = 0 then { regB8 with rw := ones64 } else { regB4 with rw := 0x3FFF })
  else match off with
  | 0x000 | 0x008 | 0x010 | 0x018 | 0x020 | 0x040 | 0x130 | 0x250 | 0x400 | 0x438 | 0x508 | 0x510 | 0x518 | 0x540 => regB4
  | 0x028 | 0x030 | 0x038 | 0x048 | 0x120 | 0x128 | 0x408 | 0x410 | 0x418 | 0x420 | 0x530 | 0x538 => regB8
  | 0x100 | 0x428 => regB8.flagBits ones64
  | 0x430 => regB8.flagBits 0x00FFFFFFFFFFFFFF
  | 0x108 => { regB4 with rw := 0x3 }
  | 0x110 => { regB4 with rw := 0xB3FF }
  | 0x118 | 0x528 => { regB4 with rw := 0x3F }
  | 0x500 => regB4.flagBits 0xF
  | 0x520 => { regB4 with rw := 0xFFFFFFFF }
  | 0xF000 => regB4.rwtBits 0xFFFF
  | _ => {}

/-- The TIM block (02 Table 02.6). -/
def timInfo (off : Nat) : RegInfo :=
  match off with
  | 0x000 => { regB4 with rw := 0x2 }
  | 0x008 | 0x018 | 0x028 | 0x048 => regB8
  | 0x010 | 0x038 | 0x058 => regB4
  | 0x020 => { regB4 with rwt := 0xFFFFFFFF }
  | 0x030 => { regB44 with rw := 0xFF00000000 }
  | 0x040 => regB4.flagBits 0x3F
  | 0x050 => regB44
  | 0x060 => regB4.byImg 0x1FF
  | _ => {}

/-- The PWR block (16 Table 16.9, 18 R408). -/
def pwrInfo (off : Nat) : RegInfo :=
  if 0x088 ≤ off ∧ off < 0x108 then regB4
  else match off with
  | 0x000 | 0x028 | 0x038 | 0x108 => regB4
  | 0x008 | 0x010 | 0x040 | 0x048 | 0x050 | 0x058 => regB8
  | 0x018 => regB4.flagBits 0xF
  | 0x020 => regB4.byImg 0xFF0F0301
  | 0x030 => regB4.byImg 0x7777
  | 0x080 => { regB4 with rw := 0xFF00FFFF }
  | _ => {}

/-- The LCS block (22 Table 22.9). -/
def lcsInfo (off : Nat) : RegInfo :=
  if 0x080 ≤ off ∧ off < 0x0B0 then regB8
  else if (0x100 ≤ off ∧ off < 0x280) ∨ (0x400 ≤ off ∧ off < 0x580) then regB8
  else match off with
  | 0x000 | 0x018 | 0x038 | 0x040 | 0x0B0 => regB4
  | 0x008 | 0x010 | 0x020 | 0x030 | 0x048 => regB8
  | 0x028 => regB4.flagBits 0x7
  | 0x050 => regB8.flagBits 0x300000000
  | _ => {}

/-- The IMG block (15 Table 15.9). -/
def imgInfo (off : Nat) : RegInfo :=
  if 0x050 ≤ off ∧ off < 0x080 then regB8
  else match off with
  | 0x000 | 0x018 | 0x080 | 0x088 => regB4
  | 0x008 => regB4.flagBits 0xF
  | 0x010 | 0x020 | 0x028 | 0x030 | 0x038 | 0x040 | 0x048 => regB8
  | _ => {}

/-- The nibbles of a word that are not 0, all ones. -/
def nibbleMask (w : Nat) : Nat := (List.range 8).foldl (fun a m => if w >>> (4 * m) % 16 = 0 then a else a ||| 15 <<< (4 * m)) 0

/-- The MMX block (19 Table 19.9): fields of barred pairs are RO. -/
def mmxInfo (off : Nat) : RegInfo :=
  if 0x100 ≤ off ∧ off < 0x178 then { regB4 with rw := nibbleMask (mmxPriReset ((off - 0x100) / 8)).toNat }
  else if 0x200 ≤ off ∧ off < 0x278 then regB4
  else match off with
  | 0x000 => regB4.flagBits 0x7
  | 0x008 => regB8
  | 0x010 | 0x018 => regB4
  | _ => {}

/-- The JRN block (14 Table 14.9). -/
def jrnInfo (off : Nat) : RegInfo :=
  match off with
  | 0x000 | 0x030 | 0x058 | 0x060 => regB4
  | 0x008 => regB4.flagBits 0x7C
  | 0x010 | 0x018 => regB8.byImg 0xFFF0FFFFC0000000
  | 0x020 | 0x028 | 0x038 | 0x040 | 0x048 | 0x050 | 0x068 => regB8
  | _ => {}

/-- A span port's block (12 Table 12.11). -/
def spnInfo (off : Nat) : RegInfo :=
  if 0x080 ≤ off ∧ off < 0x0A8 then regB44
  else if 0x400 ≤ off ∧ off < 0x1400 then regB8.byImg ones64
  else match off with
  | 0x000 | 0x010 | 0x020 | 0x030 | 0x038 | 0x040 | 0x048 | 0x050 | 0x058 | 0x060 | 0x068 | 0x070 => regB4
  | 0x008 => regB8.byImg 0x001FFFFFFFFFFF01
  | 0x018 => regB4.flagBits 0x3FF
  | 0x028 => regB8
  | _ => {}

/-- A router's block (05 Table 05.10; 06 Table 06.12; 10 Table 10.5; 18 R408). -/
def rtrInfo (off : Nat) : RegInfo :=
  if 0x200 ≤ off ∧ off < 0x400 then regB44.byImg 0xC000FFFFC000FFFF
  else if 0x400 ≤ off ∧ off < 0x800 then (if off % 0x100 < 144 then regB2 else {})
  else if 0x800 ≤ off ∧ off < 0x840 then regB2
  else match off with
  | 0x000 | 0x018 | 0x028 | 0x030 | 0x038 | 0x040 | 0x060 | 0x068 | 0x070 | 0x078 | 0x090 | 0x098 | 0x0A0 | 0x0A8 | 0x0C0 => regB4
  | 0x008 => regB4.rwBits 0x1FF
  | 0x010 => regB4.flagBits 0x7F
  | 0x020 => regB4.byImg 0x03FF03FF
  | 0x048 | 0x058 | 0x088 => regB8
  | 0x0B8 => regB8.byImg ones64
  | 0x050 => { regB4 with rw := 0x3F8FF }
  | 0x080 => { regB4 with rw := 0xFF }
  | 0x0B0 => regB4.rwBits 0x3F
  | 0x0C8 => regB4.flagBits 0x7
  | _ => {}

/-- A queue's words (07 Table 07.5). -/
def queueInfo (k : Nat) : RegInfo :=
  match k with
  | 0x00 => regB4.rwtBits 0x17FF
  | 0x08 => regB8.rwtBits 0x7FFF7FFF1FFF
  | 0x10 => regB8.byImg 0xFFFFFFFF1FFF1FFF
  | 0x18 => regB4
  | 0x20 | 0x28 => regB8
  | 0x30 | 0x38 => regB8.byImg ones64
  | _ => {}

/-- An NI's block (03 R62; 04 R88; 06 Table 06.10; 07 R170; 08 R192; 09 Table 09.5; 10 R230; 11 Table 11.6; 21 R454). -/
def niInfo (off : Nat) : RegInfo :=
  if 0x200 ≤ off ∧ off < 0x400 then (if off % 0x20 = 0 then regB4.rwtBits 0x5 else regB4)
  else if 0x400 ≤ off ∧ off < 0xC00 then regB8.byImg ones64
  else if 0xC00 ≤ off ∧ off < 0x1C00 then queueInfo ((off - 0xC00) % 0x40)
  else if 0x1D00 ≤ off ∧ off < 0x1F00 then regB8.rwtBits 0x80000FFFFFFFFFFF
  else match off with
  | 0x000 => { regB4 with rw := 0x30E, img := 0x30F }
  | 0x008 => regB4.flagBits 0x78
  | 0x040 | 0x080 | 0x100 => regB4.flagBits 0xF
  | 0x0C0 | 0x1C80 => regB4.flagBits 0x7
  | 0x1C00 | 0x1F18 => regB4.flagBits 0x3F
  | 0x010 | 0x018 | 0x020 | 0x028 | 0x048 | 0x050 | 0x058 | 0x088 | 0x090 | 0x098 | 0x0A0 | 0x0A8 | 0x0D8 | 0x0E0 | 0x108 | 0x110
  | 0x118 | 0x120 | 0x128 | 0x150 | 0x180 | 0x1C08 | 0x1C38 | 0x1C40 | 0x1C58 | 0x1C68 | 0x1C88 | 0x1C90 | 0x1F08 | 0x1F10 | 0x1F20
  | 0x1F28 => regB4
  | 0x030 | 0x038 | 0x0D0 | 0x138 | 0x140 | 0x170 | 0x178 | 0x1C10 | 0x1C50 | 0x1C70 | 0x1C78 | 0x1F30 => regB8
  | 0x1C20 | 0x1C28 | 0x1C30 | 0x1CA0 => regB8.byImg ones64
  | 0x0C8 => regB4.rwBits 0xFFFFFF
  | 0x0E8 => regB4.byImg 0x3
  | 0x130 => { regB4 with rw := 0x1 }
  | 0x148 => regB4.rwtBits 0x0FFF1FFF
  | 0x158 => { regB8 with rwt := 0xFF001F, img := 0x1FF00FF001F }
  | 0x160 => regB8.rwtBits 0x000FFFFFFFFFF001
  | 0x168 => { regB4 with rw := 0xF7 }
  | 0x1C18 | 0x1C98 => regB4.rwBits 0xFF
  | 0x1C48 => { regB4 with rw := 0x1FFF }
  | 0x1C60 => { regB4.rwBits 0x3F with lock := true }
  | 0x1F00 => regB4.byImg 0xFFFF03
  | _ => {}

/-- The CNT block (20 Table 20.8). -/
def cntInfo (off : Nat) : RegInfo :=
  if 0x100 ≤ off ∧ off < 0x500 then
    (if off % 16 = 0 then regB8.byImg 0xB000000000003FFF else regB8.rwBits 0xFFFFFFFFFFFF)
  else if 0x800 ≤ off ∧ off < 0xA00 then regB8
  else if 0x10000 ≤ off ∧ off < 0x10000 + 8 * 9536 then regB8.flagBits 0x1000000000000
  else if 0x80000 ≤ off ∧ off < 0x80000 + 8 * 9536 then regB8
  else match off with
  | 0x000 => regB4.flagBits 0x7
  | 0x008 | 0x010 => regB8
  | _ => {}

/-- The ENG block (13 Table 13.11). -/
def engInfo (off : Nat) : RegInfo :=
  if 0x100 ≤ off ∧ off < 0x500 then
    match (off - 0x100) % 0x40 with
    | 0x00 => regB8.byImg 0x1FFFF01FFF
    | 0x08 | 0x10 => { regB8 with rw := 0xFFFFFFFFFF000 }
    | 0x20 => regB8
    | 0x38 => regB4.flagBits 0x100
    | _ => regB4
  else if 0x1000 ≤ off ∧ off < 0x1900 then regB4
  else if 0x008 ≤ off ∧ off < 0x048 then regB8.byImg 0x1FFFFFFFF
  else match off with
  | 0x000 => regB4.flagBits 0xF
  | 0x080 => regB4
  | _ => {}

/-- The EBT window (09 Table 09.7, 14 R323). -/
def ebtInfo (a : Nat) : RegInfo :=
  if a < 0x1800000 then regB8
  else if a < 0x1800000 + 16 * 10240 then regB8.byImg (if a % 16 = 0 then 0xFFE0000000000000 else ones64)
  else if 0x1C00000 ≤ a ∧ a < 0x1C02000 then regB8.byImg 0xFFF000FFFFFFFFFF
  else if 0x1C02000 ≤ a ∧ a < 0x1C02100 then regB8.byImg 0x8000000000001F07
  else if a = 0x1E00000 then regB4.flagBits 0x3
  else if 0x1E00008 ≤ a ∧ a < 0x1E00020 then regB4
  else if 0x1E00040 ≤ a ∧ a < 0x1E00068 then regB4
  else if a = 0x1E00080 then regB4
  else if 0x1E01000 ≤ a ∧ a < 0x1E11000 then regB8
  else {}

/-- The lift-pass windows (09 Table 09.7): row words in turn TAGS, then permissions and DENY_CNT. -/
def lptInfo (a : Nat) : RegInfo :=
  if a < 0x2800000 then (if a % 16 = 0 then regB8.byImg ones64 else regB8.byImg 0xFF0000001F)
  else if a < 0x2800000 + 0x10000 then regB2.byImg 0x87FF87FF87FF87FF
  else {}

/-- The word of the register map at an 8-byte-aligned address (23 Table 23.1). The KV3 window is an alias and has its own
reading (23 R483). -/
def regInfo (a : Nat) : RegInfo :=
  if a < 0x10000 then glbInfo a
  else if a < 0x11000 then timInfo (a - 0x10000)
  else if a < 0x12000 then pwrInfo (a - 0x11000)
  else if a < 0x13000 then lcsInfo (a - 0x12000)
  else if a < 0x14000 then imgInfo (a - 0x13000)
  else if a < 0x15000 then mmxInfo (a - 0x14000)
  else if a < 0x18000 then {}
  else if a < 0x19000 then jrnInfo (a - 0x18000)
  else if a < 0x20000 then {}
  else if a < 0x30000 then spnInfo ((a - 0x20000) % 0x2000)
  else if a < 0x100000 then {}
  else if a < 0x140000 then rtrInfo ((a - 0x100000) % 0x1000)
  else if a < 0x200000 then {}
  else if a < 0x300000 then niInfo ((a - 0x200000) % 0x2000)
  else if a < 0x400000 then {}
  else if a < 0x800000 then cntInfo (a - 0x400000)
  else if a < 0x1000000 then engInfo (a - 0x800000)
  else if a < 0x2000000 then ebtInfo a
  else if a < 0x3000000 then lptInfo a
  else {}

/-- The unit that a word belongs to is there (00 R3): an absent unit reads 0 and takes no write. So do the groups beyond the
profile's number (00 R2), and the spare rows of absent EBT banks, 1,280 a bank (14 R303), which are numbered bank after bank (log
28). -/
def unitThere (s : State) (a : Nat) : Bool :=
  if 0xA000 ≤ a ∧ a < 0xE000 then decide ((a - 0xA000) / 16 < nGroups s)
  else if 0xE000 ≤ a ∧ a < 0xF000 then decide ((a - 0xE000) / 4 < nGroups s)
  else if 0x18000 ≤ a ∧ a < 0x19000 then s.gen.jrn
  else if 0x20000 ≤ a ∧ a < 0x30000 then isSpan s ((a - 0x20000) / 0x2000)
  else if 0x100000 ≤ a ∧ a < 0x140000 then
    isRtr s ((a - 0x100000) / 0x1000) && (s.gen.gth || !(decide (0x80 ≤ a % 0x1000) && decide (a % 0x1000 < 0xB0)))
  else if 0x200000 ≤ a ∧ a < 0x300000 then
    isNi s ((a - 0x200000) / 0x2000) &&
      (decide ((a - 0x200000) % 0x2000 < 0x1F00) || (s.gen.slt && decide ((a - 0x200000) / 0x2000 < nSlots s)))
  else if 0x410000 ≤ a ∧ a < 0x410000 + 8 * 9536 ∨ 0x480000 ≤ a ∧ a < 0x480000 + 8 * 9536 then
    let i := (if a < 0x480000 then a - 0x410000 else a - 0x480000) / 8
    if i < 2048 then isRtr s (i / 32)
    else if i < 8192 then isNi s ((i - 2048) / 48)
    else if i < 8384 then isSpan s ((i - 8192) / 24)
    else s.gen.eng && decide ((i - 8384) / 144 < nRinks s)
  else if 0x800000 ≤ a ∧ a < 0x1000000 then
    s.gen.eng && (if 0x800008 ≤ a ∧ a < 0x800048 then decide ((a - 0x800008) / 8 < nRinks s)
      else if 0x801000 ≤ a ∧ a < 0x801900 then decide ((a - 0x801000) / 0x120 < nRinks s)
      else true)
  else if 0x1000000 ≤ a ∧ a < 0x1800000 then decide ((a - 0x1000000) / 16 < nExtents s)
  else if 0x1800000 ≤ a ∧ a < 0x1800000 + 16 * 10240 then decide ((a - 0x1800000) / 16 < 1280 * nRinks s)
  else if 0x2000000 ≤ a ∧ a < 0x2800000 then isNi s ((a - 0x2000000) / 0x10000)
  else true

end Sys2Proof.Machine
end

