-- ==== Sys2Proof/Machine/ImgForm.lean ====
section
/-! DEFINITION. The form of a Clogrim image: header, section table, blocks, the ranges each section type may write, and check records
(15 R324 to R329). -/

namespace Sys2Proof.Machine

/-! The header (15 Table 15.1), of the bytes received. -/

/-- KIND: 1 cold, 2 delta. -/
def hdrKind (b : List (BitVec 8)) : Nat := leAt b 6 1
/-- FLAGS.FABRIC. -/
def hdrFabric (b : List (BitVec 8)) : Bool := (leAt b 9 1).testBit 0
/-- NSECT. -/
def hdrSects (b : List (BitVec 8)) : Nat := leAt b 10 2
/-- TOTAL_LEN. -/
def hdrLen (b : List (BitVec 8)) : Nat := leAt b 12 4
/-- IMAGE_SEQ. -/
def hdrSeq (b : List (BitVec 8)) : Nat := leAt b 16 6
/-- BASE_SEQ. -/
def hdrBase (b : List (BitVec 8)) : Nat := leAt b 24 6
/-- SWITCH_TICK. -/
def hdrTick (b : List (BitVec 8)) : Nat := leAt b 32 6
/-- FABRIC_ID. -/
def hdrFabricId (b : List (BitVec 8)) : Nat := leAt b 40 8
/-- EPOCH_HOLD. -/
def hdrHold (b : List (BitVec 8)) : Nat := leAt b 60 2

/-- Every byte from place i on, c of them, is 0. -/
def zeroAt (b : List (BitVec 8)) (i c : Nat) : Bool := (sliceOf b i c).all (· == 0)

/-- The length the header announces is one an image can have (15 R324). -/
def hdrLenOk (b : List (BitVec 8)) : Bool :=
  hdrLen b % 64 == 0 && decide (hdrLen b ≤ 33554432) && decide (256 + 16 * hdrSects b + 8192 ≤ hdrLen b)

/-- The structure of a header holds (15 R324, Table 15.1). -/
def hdrOk (b : List (BitVec 8)) : Bool :=
  (hdrKind b == 1 || hdrKind b == 2) && decide (leAt b 9 1 < 2) && decide (1 ≤ hdrSects b) && decide (hdrSects b ≤ 32) && hdrLenOk b &&
    (hdrKind b == 2 || hdrBase b == 0) && zeroAt b 62 194

/-- PROFILE and INST fit (15 R333): a delta's INST is the instance's own. -/
def hdrFits (s : State) (b : List (BitVec 8)) : Bool :=
  leAt b 7 1 == (match s.gen.profile with | .f => 0 | .h => 1 | .q => 2) && (hdrKind b == 1 || leAt b 8 1 % 16 == instNo s)

/-- The outcome of the header check, 0 when it passes (15 R333, R334, R342). -/
def hdrCode (s : State) (b : List (BitVec 8)) : Nat :=
  if leAt b 0 4 ≠ 0x474F4C43 then 1
  else if leAt b 4 2 ≠ 1 then 2
  else if !hdrOk b then 4
  else if hdrKind b = 1 ∧ s.img.loaded then 0x0B
  else if (hdrKind b = 2 ∧ !s.img.loaded) ∨ !hdrFits s b then 3
  else 0

/-! The section table (15 R325). -/

/-- A section table entry. -/
structure Sec where
  idx : Nat
  typ : Nat
  off : Nat
  len : Nat
  deriving DecidableEq, Repr

/-- Entry i of the section table. -/
def secAt (b : List (BitVec 8)) (i : Nat) : Sec :=
  ⟨i, leAt b (256 + 16 * i) 1, leAt b (260 + 16 * i) 4, leAt b (264 + 16 * i) 4⟩
/-- The section table. -/
def secsOf (b : List (BitVec 8)) : List Sec := (List.range (hdrSects b)).map (secAt b)
/-- The image carries a section of the type. -/
def carries (b : List (BitVec 8)) (typ : Nat) : Bool := (secsOf b).any fun e => e.typ == typ

/-- Entry i is well formed: zero bytes, a type once, on a 64-byte boundary, after the one before it and ahead of the signatures. -/
def secOk (b : List (BitVec 8)) (i : Nat) : Bool :=
  let e := secAt b i
  let floor := if i = 0 then 256 + 16 * hdrSects b else (secAt b (i - 1)).off + (secAt b (i - 1)).len
  decide (1 ≤ e.typ) && decide (e.typ ≤ 0x13) && !((List.range i).any fun j => (secAt b j).typ == e.typ) &&
    zeroAt b (257 + 16 * i) 3 && zeroAt b (268 + 16 * i) 4 && e.off % 64 == 0 && decide (floor ≤ e.off) &&
    decide (e.off + e.len ≤ hdrLen b - 8192) && (e.typ != 0x13 || e.len % 64 == 0)

/-- The outcome of the section table check: code and SUB, none when it passes. A cold image carries IDENT, ENABLE, ROUTE and
CHECKS; a delta carries neither IDENT nor MICROCODE (15 R326, R334). -/
def tableCode (b : List (BitVec 8)) : Option (Nat × Nat) :=
  match (List.range (hdrSects b)).find? fun i => !secOk b i with
  | some i => some (4, i)
  | none =>
    if hdrKind b = 1 ∧ !([1, 2, 4, 0x13].all (carries b)) then some (4, hdrSects b)
    else if hdrKind b = 2 ∧ (carries b 1 || carries b 0x12) then some (0x0B, 0)
    else none

/-! Blocks (15 R325, Table 15.2). -/

/-- The bytes of a section's body. -/
def secBody (b : List (BitVec 8)) (e : Sec) : List (BitVec 8) := sliceOf b e.off e.len

/-- The blocks of a body, as address and data; none when a block header breaks its form. -/
def blocksOf (l : List (BitVec 8)) (fuel : Nat) : Option (List (Nat × List (BitVec 8))) :=
  match fuel with
  | 0 => none
  | k + 1 =>
    if l.isEmpty then some []
    else
      let a := leAt l 0 4
      let c := leAt l 4 4
      if a % 8 ≠ 0 ∨ c = 0 ∨ c % 8 ≠ 0 ∨ (l.take (8 + c)).length < 8 + c then none
      else (blocksOf (l.drop (8 + c)) k).map fun r => (a, sliceOf l 8 c) :: r

/-- The 8-byte words of a block. -/
def blockWords (p : Nat × List (BitVec 8)) : List (Nat × Word) :=
  (List.range (p.2.length / 8)).map fun i => (p.1 + 8 * i, BitVec.ofNat 64 (leAt p.2 (8 * i) 8))

/-- An address in the block of an NI, as its offset there: for NIs of the instance. -/
def niOff (s : State) (a : Nat) : Option Nat :=
  if 0x200000 ≤ a ∧ a < 0x300000 ∧ isNi s ((a - 0x200000) / 0x2000) then some ((a - 0x200000) % 0x2000) else none
/-- The same in the block of a router. -/
def rtrOff (s : State) (a : Nat) : Option Nat :=
  if 0x100000 ≤ a ∧ a < 0x140000 ∧ isRtr s ((a - 0x100000) / 0x1000) then some ((a - 0x100000) % 0x1000) else none
/-- The same in the block of a span port. -/
def spnOff (s : State) (a : Nat) : Option Nat :=
  if 0x20000 ≤ a ∧ a < 0x30000 ∧ isSpan s ((a - 0x20000) / 0x2000) then some ((a - 0x20000) % 0x2000) else none
/-- The offset lies in [lo, hi). -/
def offIn (o : Option Nat) (lo hi : Nat) : Bool := match o with | some k => decide (lo ≤ k) && decide (k < hi) | none => false

/-- A word of the route-set space of a router of the instance (15 R325). -/
def routeOk (s : State) (a : Nat) : Bool :=
  decide (a < 0x1000000) && isRtr s (a % 0x10000 / 0x400) &&
    (decide (a % 0x400 < 0x90) || (decide (0x100 ≤ a % 0x400) && decide (a % 0x400 < 0x190)) || (decide (0x200 ≤ a % 0x400) && decide (a % 0x400 < 0x220)))

/-- A ring's configuration register. -/
def ringCfgAddr (s : State) (a : Nat) : Bool := s.gen.eng && decide (0x800100 ≤ a) && decide (a < 0x800500) && (a - 0x800100) % 0x40 == 0

/-- A word that a section of the type may write (15 Table 15.2; which register each section holds is said in log 11). -/
def wordOk (s : State) (typ a : Nat) : Bool :=
  let n := niOff s a
  let r := rtrOff s a
  let p := spnOff s a
  match typ with
  | 0x01 => a == 0x10060 || n == some 0xE8
  | 0x02 => r == some 0x20 || n == some 0 || p == some 8 || ringCfgAddr s a || (n == some 0x1F00 && unitThere s a)
  | 0x03 => r == some 0xB0 || r == some 0xB8 || (decide (0x800008 ≤ a) && decide (a < 0x800048) && unitThere s a) ||
      (decide (0x1800000 ≤ a) && decide (a < 0x1828000) && unitThere s a) || a == 0x11030
  | 0x04 => routeOk s a
  | 0x05 => offIn r 0x200 0x400 || r == some 8
  | 0x06 => decide (0x8000 ≤ a) && decide (a < 0xA000)
  | 0x07 => offIn n 0x1C18 0x1C38 || n == some 0x1C60 || (decide (0x1C00000 ≤ a) && decide (a < 0x1C02100))
  | 0x08 => offIn n 0x400 0xC00 || offIn p 0x400 0x1400
  | 0x09 => offIn n 0xC00 0x1C00 || n == some 0xE8 || n == some 0xC8
  | 0x0A => n == some 0x148 || n == some 0x158 || n == some 0x160 || (offIn n 0x200 0x400 && a % 0x20 == 0) || offIn n 0x1D00 0x1F00
  | 0x0B => (decide (0x2000000 ≤ a) && decide (a < 0x2800000) && unitThere s a) || (decide (0x2800000 ≤ a) && decide (a < 0x2810000))
  | 0x0C => (decide (0xA000 ≤ a) && decide (a < 0xF000) && unitThere s a) || a == 0xF000 || n == some 0x1C98 || n == some 0x1CA0
  | 0x0D => p == some 8
  | 0x0E => s.gen.jrn && (a == 0x18010 || a == 0x18018)
  | 0x0F => ringCfgAddr s a
  | 0x10 => decide (0x400100 ≤ a) && decide (a < 0x400500)
  | 0x11 => a == 0x11020
  | _ => false

/-- The words of the sections of a type, in order. -/
def imgWords (b : List (BitVec 8)) (typ : Nat) : List (Nat × Word) :=
  match (secsOf b).find? fun e => e.typ == typ with
  | some e => (((blocksOf (secBody b e) (e.len + 1)).getD []).map blockWords).flatten
  | none => []

/-- A section's body holds well-formed blocks within the ranges of its type (15 R325). -/
def bodyOk (s : State) (b : List (BitVec 8)) (e : Sec) : Bool :=
  if e.typ = 0x12 ∨ e.typ = 0x13 then true
  else match blocksOf (secBody b e) (e.len + 1) with
    | some l => l.all fun p => (blockWords p).all fun w => wordOk s e.typ w.1
    | none => false

/-! Check records (15 R329). -/

/-- The records of the CHECKS section. -/
def recordsOf (b : List (BitVec 8)) : List (List (BitVec 8)) :=
  match (secsOf b).find? fun e => e.typ == 0x13 with
  | some e => (List.range (e.len / 64)).map fun i => sliceOf b (e.off + 64 * i) 64
  | none => []

/-- The bodies of the sections that a record examined, in section-table order. -/
def examined (b : List (BitVec 8)) (r : List (BitVec 8)) : List (BitVec 8) :=
  (((secsOf b).filter fun e => (leAt r 2 4).testBit e.typ).map (secBody b)).flatten

/-- A record matches the image (15 R329). -/
def recordOk (b r : List (BitVec 8)) : Bool :=
  leAt r 1 1 == 1 && leAt r 8 4 == hdrSeq b % 2 ^ 32 && leAt r 12 4 == hdrBase b % 2 ^ 32 && sliceOf r 16 48 == Config.sha384 (examined b r)

/-- Section types by which each check of Table 15.4 applies, by CHECK. -/
def checkTypes (c : Nat) : List Nat :=
  match c with
  | 1 => [4, 2, 5] | 2 => [4, 0xC] | 3 => [4] | 4 => [4, 0xC, 0xD] | 5 => [4, 0xD] | 6 => [4, 0xC] | 7 => [9, 4, 8] | 8 => [0xD, 1] | _ => []

/-- A check applies to the image: check 2 only to a delta. -/
def checkApplies (b : List (BitVec 8)) (c : Nat) : Bool := (c != 2 || hdrKind b == 2) && (checkTypes c).any (carries b)

/-- The first check without a passing record, or whose record does not match. -/
def checkMissing (b : List (BitVec 8)) : Option Nat :=
  match [1, 2, 3, 4, 5, 6, 7, 8].find? fun c => checkApplies b c && !(recordsOf b).any fun r => leAt r 0 1 == c with
  | some c => some c
  | none => ((recordsOf b).find? fun r => !recordOk b r).map fun r => leAt r 0 1

/-- The image is of the two-epoch kind (15 R336): it holds a block of ROUTE, ENABLE, HOME, PBR, SPAN or a multicast group. -/
def twoEpoch (b : List (BitVec 8)) : Bool :=
  [2, 4, 5, 6, 0xD].any (fun t => !(imgWords b t).isEmpty) || (imgWords b 0xC).any fun w => decide (0xA000 ≤ w.1) && decide (w.1 < 0xF000)

/-- The signature block and the bytes it signs (15 R327). -/
def imgSig (b : List (BitVec 8)) : List (BitVec 8) := sliceOf b (hdrLen b - 8192) 8192
/-- The signed bytes. -/
def imgSigned (b : List (BitVec 8)) : List (BitVec 8) := b.take (hdrLen b - 8192)

end Sys2Proof.Machine
end

