-- ==== Sys2Proof/Machine/SlotPower.lean ====
section
/-! DEFINITION. The slot manager (21): presence, ramp, faults, retry and lockout, and the commands of SLT_CTL. Slot states by the
codes of 21 Table 21.1. -/

namespace Sys2Proof.Machine

/-- NI n carries slot pins (03 R59). -/
def slotHas (s : State) (n : Nat) : Bool := s.gen.slt && n < nSlots s
/-- SLT_CFG of NI n. -/
def slotCfg (s : State) (n : Nat) : Word := rd s (aNi n 0x1F00)
/-- The slot manager of NI n. -/
def getSlt (s : State) (n : Nat) : SlotSt := (getNi s n).slot
/-- The state with it changed by f. -/
def updSlt (s : State) (n : Nat) (f : SlotSt → SlotSt) : State := updNi s n fun i => { i with slot := f i.slot }
/-- Slot control works: the image enables it (03 R59, 21 R439). -/
def slotOn (s : State) (n : Nat) : Bool := slotHas s n && bitOf (slotCfg s n) 0 && (getSlt s n).state != 0
/-- A notification of the slot whose INFO the manual does not lay out (log 1). -/
def slotNote (s : State) (n code sev : Nat) : State := raiseNiFree s n code sev 15
/-- RAMP_TO in ns (21 Table 21.8). -/
def rampTo (s : State) (n : Nat) : Nat := 1000000 * max 1 (fld (slotCfg s n) 15 8)
/-- PG_GLITCH in ns. -/
def pgGlitch (s : State) (n : Nat) : Nat := 10000 * max 1 (fld (slotCfg s n) 23 16)

/-- A READY slot with PREQ 1 enters RAMP and raises slt_en (21 R441). -/
def slotRamp (s : State) (n : Nat) : State :=
  let q := getSlt s n
  if q.state = 3 ∧ q.preq then updSlt s n fun q => { q with state := 4, en := true, rampNs := nowNs s, pgLow := none } else s

/-- The module is declared removed (21 R448), when the slot leaves ON. -/
def slotRemoved (s : State) (n : Nat) : State :=
  submitOrphan (slotNote (setFlag s (aNi n 0x1F18) 5) n 0x212 1) n

/-- The slot leaves its state for another with slt_en at 0: leaving ON is a removal (21 R448). -/
def slotLeave (s : State) (n : Nat) (st : BitVec 3) : State :=
  let was := (getSlt s n).state
  let s1 := updSlt s n fun q => { q with state := st, en := false, pgLow := none }
  if was = 5 then slotRemoved s1 n else s1

/-- The slot leaves its state on a fault: of the records of the fault and of the removal the fault's stays the group's last (23 R479). -/
def slotFaultLeave (s : State) (n : Nat) (st : BitVec 3) : State := keepLast s (slotLeave s n st) 0x21

/-- RETRY begins: 1 s from now (21 R445). -/
def slotRetry (s : State) (n : Nat) : State :=
  updSlt (slotFaultLeave s n 6) n fun q => { q with retryEnd := nowNs s + 1000000000 }

/-- A fault of a cause is counted, recorded and notified (21 R443). -/
def slotFaultNote (s : State) (n cause : Nat) : State :=
  let st := (getSlt s n).state
  let s1 := updSlt (setFlag (incSat s (aNi n 0x1F20) 1) (aNi n 0x1F18) 0) n fun q => { q with cause := BitVec.ofNat 4 cause }
  raiseNi s1 n 0x213 2 (cause ||| st.toNat <<< 4) 15

/-- GATE: the slot locks for good (21 R446). The records go by severity: both errors, then the warning of a removal (03 R57). -/
def slotGate (s : State) (n : Nat) : State :=
  let s1 := updSlt (slotFaultNote s n 2) n fun q => { q with perm := true }
  slotFaultLeave (slotNote (setFlag s1 (aNi n 0x1F18) 2) n 0x215 2) n 7

/-- A fault in RAMP (21 R444): retry, or lockout at the third in a row. -/
def slotRampFault (s : State) (n cause : Nat) : State :=
  let s1 := slotFaultNote s n cause
  let c := min 3 ((getSlt s1 n).fcnt.toNat + 1)
  let s2 := updSlt s1 n fun q => { q with fcnt := BitVec.ofNat 2 c }
  if c = 3 then slotNote (setFlag (slotLeave s2 n 7) (aNi n 0x1F18) 1) n 0x214 2 else slotRetry s2 n

/-- A fault other than GATE, in RAMP or ON (21 Table 21.2). -/
def slotFaultIn (s : State) (n cause : Nat) : State :=
  if (getSlt s n).state = 4 then slotRampFault s n cause
  else if (getSlt s n).state = 5 then slotRetry (slotFaultNote s n cause) n
  else s

/-- Where a slot goes when its retry has ended (21 R445); READY ramps at once with PREQ 1. -/
def slotResume (s : State) (n : Nat) : State :=
  let q := getSlt s n
  slotRamp (updSlt s n fun q0 => { q0 with retryEnd := 0, state := if q.debounced then 3 else if q.prsntN then 1 else 2 }) n

/-- Slot control follows SLT_CFG.EN (21 R439, R452): an enabled slot in OFF_DIS starts EMPTY, or in DEBOUNCE with a module in its
place; a disabled one goes to OFF_DIS unless PERM holds it LOCKED. -/
def slotEnable (s : State) (n : Nat) : State :=
  let q := getSlt s n
  if !slotHas s n then s
  else if bitOf (slotCfg s n) 0 then
    (if q.state = 0 then updSlt s n fun q => { q with
        state := if q.prsntN then 1 else 2, debounced := false, lowSince := nowNs s, highSince := nowNs s } else s)
  else if q.state = 0 ∨ (q.state = 7 ∧ q.perm) then s
  else updSlt (slotLeave s n 0) n fun q => { q with preq := false, retryEnd := 0 }

/-! Pins (21 R440, R442, R443, R447). -/

/-- SLT_PRSNT_CHANGE: slt_prsnt_n is sampled at a new value (21 R440): EMPTY enters DEBOUNCE on a 0, and both timings restart. -/
def execSltPrsntChange (n : BitVec 6) (v : Bool) (s : State) : Host.Outcome State Fault Refusal :=
  answer s (
    let k := n.toNat
    let q := getSlt s k
    if !slotHas s k || q.prsntN == v then s
    else updSlt s k fun q =>
      if v then { q with prsntN := true, highSince := nowNs s }
      else { q with prsntN := false, lowSince := nowNs s, debounced := false, state := if q.state = 1 then 2 else q.state })

/-- PRESENCE_DEBOUNCED: presence was sampled for 20 ms without a break (21 R440, R441). -/
def execPresenceDebounced (n : BitVec 6) (s : State) : Host.Outcome State Fault Refusal :=
  answer s (
    let k := n.toNat
    let q := getSlt s k
    if !slotOn s k || q.prsntN || q.debounced || nowNs s < q.lowSince + 20000000 then s
    else
      slotRamp (updSlt s k fun q => { q with
        debounced := true, preq := q.preq || bitOf (slotCfg s k) 1, state := if q.state = 2 then 3 else q.state }) k)

/-- The module of a slot is removed (21 R440, R441, R448): PREQ clears; DEBOUNCE, READY, RAMP and ON return to EMPTY. -/
def slotRemoval (s : State) (n : Nat) : State :=
  let st := (getSlt s n).state
  let s1 := updSlt s n fun q => { q with preq := false, debounced := false, lowSince := 0 }
  if st = 2 ∨ st = 3 ∨ st = 4 ∨ st = 5 then slotLeave s1 n 1 else s1

/-- MODULE_REMOVAL: absence was sampled for 100 us without a break. -/
def execModuleRemoval (n : BitVec 6) (s : State) : Host.Outcome State Fault Refusal :=
  answer s (
    let k := n.toNat
    let q := getSlt s k
    if !slotOn s k || !q.prsntN || nowNs s < q.highSince + 100000 then s else slotRemoval s k)

/-- SLOT_PGOOD_RISE: slt_pgood is sampled 1: RAMP enters ON (21 R442); in ON a drop ends as a glitch, or as PG_LOST when PG_GLITCH
has passed (21 R447, Table 21.6). -/
def execSlotPgoodRise (n : BitVec 6) (s : State) : Host.Outcome State Fault Refusal :=
  answer s (
    let k := n.toNat
    let q := getSlt s k
    if !slotOn s k || q.pgood then s
    else
      let s1 := updSlt s k fun q => { q with pgood := true }
      if q.state = 4 ∧ q.fltN then
        slotNote (updSlt s1 k fun q => { q with state := 5, fcnt := 0, pgLow := none }) k 0x211 0
      else match q.pgLow with
        | some t =>
          if q.state ≠ 5 then s1
          else if nowNs s < t + pgGlitch s k then
            setFlag (incSat (updSlt s1 k fun q => { q with pgLow := none }) (aNi k 0x1F28) 1) (aNi k 0x1F18) 4
          else slotFaultIn s1 k 6
        | none => s1)

/-- RAMP_TIMEOUT: RAMP_TO has passed in RAMP without slt_pgood (21 R442). -/
def execRampTimeout (n : BitVec 6) (s : State) : Host.Outcome State Fault Refusal :=
  answer s (
    let k := n.toNat
    let q := getSlt s k
    if slotOn s k && q.state == 4 && decide (q.rampNs + rampTo s k ≤ nowNs s) then slotRampFault s k 5 else s)

/-- SLOT_FAULT: slt_flt_n is sampled 0 with a code (21 R443, Table 21.2): GATE locks in every state, the others count in RAMP and
ON. -/
def execSlotFault (n : BitVec 6) (code : BitVec 2) (s : State) : Host.Outcome State Fault Refusal :=
  answer s (
    let k := n.toNat
    if !slotOn s k then s
    else
      let s1 := updSlt s k fun q => { q with fltN := false }
      let s2 := if code = 1 then slotGate s1 k else slotFaultIn s1 k (code.toNat + 1)
      updSlt s2 k fun q => { q with fltN := true, pgood := false })

/-- SLOT_PGOOD_DROP: slt_pgood is sampled 0: in ON the glitch time begins (21 R447). -/
def execSlotPgoodDrop (n : BitVec 6) (s : State) : Host.Outcome State Fault Refusal :=
  answer s (
    let k := n.toNat
    let q := getSlt s k
    if !slotOn s k || !q.pgood then s
    else updSlt s k fun q => { q with pgood := false, pgLow := if q.state = 5 then some (nowNs s) else q.pgLow })

/-- PG_LOST: slt_pgood has stayed 0 in ON for PG_GLITCH (21 Table 21.2). -/
def execPgLost (n : BitVec 6) (s : State) : Host.Outcome State Fault Refusal :=
  answer s (
    let k := n.toNat
    let q := getSlt s k
    match q.pgLow with
    | some t => if slotOn s k && q.state == 5 && decide (t + pgGlitch s k ≤ nowNs s) then slotFaultIn s k 6 else s
    | none => s)

/-- RETRY_END: 1 s after the fault (21 R445). -/
def execRetryEnd (n : BitVec 6) (s : State) : Host.Outcome State Fault Refusal :=
  answer s (
    let k := n.toNat
    let q := getSlt s k
    if slotOn s k && q.state == 6 && decide (q.retryEnd ≤ nowNs s) then slotResume s k else s)

/-- SLOT_FEED_CHANGE: slt_feed is sampled at a new value: in ON it is recorded and notified (21 R447). -/
def execSlotFeedChange (n : BitVec 6) (feed : BitVec 2) (s : State) : Host.Outcome State Fault Refusal :=
  answer s (
    let k := n.toNat
    let q := getSlt s k
    if !slotOn s k || q.feed == feed then s
    else
      let s1 := updSlt s k fun q => { q with feed := feed }
      if q.state = 5 then slotNote (setFlag s1 (aNi k 0x1F18) 3) k 0x216 1 else s1)

/-! Commands (21 R451, Tables 21.3, 21.4). -/

/-- A command's RESULT. -/
def slotResult (s : State) (n res : Nat) : State := updSlt s n fun q => { q with result := BitVec.ofNat 4 res }

/-- MCLR. -/
def slotMclr (s : State) (n : Nat) : State :=
  let q := getSlt s n
  if q.state ≠ 7 ∨ !q.perm then slotResult s n 2
  else if !q.prsntN then slotResult s n 6
  else slotResult (updSlt s n fun q => { q with perm := false, fcnt := 0, state := if bitOf (slotCfg s n) 0 then 1 else 0 }) n 0

/-- CLEAR. -/
def slotClear (s : State) (n : Nat) : State :=
  let q := getSlt s n
  if q.perm then slotResult s n 2
  else if q.state ≠ 7 then slotResult s n 0
  else slotResult (slotResume (updSlt s n fun q => { q with fcnt := 0 }) n) n 0

/-- PLOCK. -/
def slotPlock (s : State) (n : Nat) : State :=
  slotResult (updSlt (slotLeave s n 7) n fun q => { q with perm := true, retryEnd := 0 }) n 0

/-- NI n is a journal home (14 R312). -/
def slotHome (s : State) (n : Nat) : Bool :=
  (List.range 2).any fun h => rd s (aJrn (0x10 + 8 * h)) != 0 && homeNode s h == nodeOf s n

/-- OFF: a powered slot returns to READY, or where R445 puts it. -/
def slotOff (s : State) (n : Nat) (force : Bool) : State :=
  let q := getSlt s n
  if q.state = 5 ∧ !force ∧ !(getNi s n).dec.tbt.isEmpty then slotResult s n 3
  else if slotHome s n then slotResult s n 4
  else
    let s1 := updSlt s n fun q => { q with preq := false }
    slotResult (if q.state = 4 ∨ q.state = 5 then slotLeave s1 n 3 else s1) n 0

/-- ON. -/
def slotPowerOn (s : State) (n : Nat) : State :=
  if (getSlt s n).state = 0 then slotResult s n 5 else slotResult (slotRamp (updSlt s n fun q => { q with preq := true }) n) n 0

/-- A write of SLT_CTL (21 R451): the first bit set in the order of Table 21.3. -/
def slotCtl (s : State) (n v : Nat) : State :=
  if v.testBit 4 then slotMclr s n
  else if v.testBit 3 then slotClear s n
  else if v.testBit 5 then slotPlock s n
  else if v.testBit 1 then slotOff s n (v.testBit 2)
  else if v.testBit 0 then slotPowerOn s n
  else s

/-- A write of SLT_CTL by a master: only CP may, at an NI that carries slot pins. -/
def slotCmd (s : State) (m : Master) (n : BitVec 6) (f : State → Nat → State) : State :=
  if m = .cp ∧ slotHas s n.toNat then f s n.toNat else s

/-- MCLR: SLT_CTL.MCLR is written. -/
def execMclr (m : Master) (n : BitVec 6) (s : State) : Host.Outcome State Fault Refusal := answer s (slotCmd s m n slotMclr)
/-- CLEAR: SLT_CTL.CLEAR is written. -/
def execClear (m : Master) (n : BitVec 6) (s : State) : Host.Outcome State Fault Refusal := answer s (slotCmd s m n slotClear)
/-- PLOCK: SLT_CTL.PLOCK is written. -/
def execPlock (m : Master) (n : BitVec 6) (s : State) : Host.Outcome State Fault Refusal := answer s (slotCmd s m n slotPlock)
/-- SLOT_OFF: SLT_CTL.OFF is written, with FORCE or without. -/
def execSlotOff (m : Master) (n : BitVec 6) (force : Bool) (s : State) : Host.Outcome State Fault Refusal :=
  answer s (slotCmd s m n fun t k => slotOff t k force)
/-- SLOT_ON: SLT_CTL.ON is written. -/
def execSlotOn (m : Master) (n : BitVec 6) (s : State) : Host.Outcome State Fault Refusal := answer s (slotCmd s m n slotPowerOn)

end Sys2Proof.Machine
end

