-- ==== Sys2Proof/Machine/Image.lean ====
section
/-! DEFINITION. The image loader: receipt, verification, the conditions that refuse a delta, and the switch by its steps (15 R327 to
R343). -/

namespace Sys2Proof.Machine

/-! Registers of the loader (15 Table 15.10). -/

/-- IMG_STAT.STATE and the loader's own record of it. -/
def imgState (s : State) (st : Nat) : State :=
  wrF { s with img := { s.img with st := BitVec.ofNat 2 st } } (aImg 8) 31 29 st
/-- IMG_STAT.CODE and SUB. -/
def imgCode (s : State) (code sub : Nat) : State := wrF (wrF s (aImg 8) 23 16 code) (aImg 8) 15 8 sub
/-- The loader is IDLE: nothing is held (15 R330, R331). -/
def imgIdle (s : State) : State :=
  wr (imgState { s with img := { s.img with bytes := [], prechecked := false } } 0) (aImg 0x28) 0
/-- A refusal's outcome: code, flag, notification (15 R342). -/
def imgRefusal (s : State) (code sub : Nat) : State := raiseG (setFlag (imgCode s code sub) (aImg 8) 1) 242 0x151 2 code
/-- The image held is refused as a whole. -/
def imgRefuse (s : State) (code sub : Nat) : State := imgRefusal (imgIdle s) code sub
/-- The image held ends ABORTED (15 R341). -/
def imgAborted (s : State) : State := setFlag (imgCode (imgIdle s) 0x16 0) (aImg 8) 1

/-- A write of 1 to IMG_CTL.START (15 R330, R333). -/
def imgStartWrite (s : State) : State :=
  if s.img.st ≠ 0 then imgRefusal s 0x17 0
  else if !timLocked s || lcState s == 4 then imgRefusal s 0x18 0
  else imgCode (imgState { s with img := { s.img with bytes := [] } } 1) 0 0

/-- IMG_START: the CP master writes START. -/
def execImgStart (m : Master) (s : State) : Host.Outcome State Fault Refusal :=
  answer s (if m = .cp ∧ s.rst.initDone then imgStartWrite s else s)

/-- The abort takes effect: an image is held, and its switch is not in the next frame or sooner (15 R341). -/
def imgAbortable (s : State) : Bool := s.img.st != 0 && !(s.img.st == 3 && frameGe (frameOf s + 1) s.img.switchT)
/-- A write of 1 to IMG_CTL.ABORT. -/
def imgAbortWrite (s : State) : State := if imgAbortable s then imgAborted s else s

/-- IMG_ABORT: the CP master writes ABORT. -/
def execImgAbort (m : Master) (s : State) : Host.Outcome State Fault Refusal := answer s (if m = .cp then imgAbortWrite s else s)

/-! Receipt (15 R330). -/

/-- The checks due when the image has grown from `old` bytes: code and SUB of the first that fails. -/
def receiptCode (s : State) (old : Nat) : Option (Nat × Nat) :=
  let b := s.img.bytes
  let due (k : Nat) : Bool := decide (old < k) && decide (k ≤ b.length)
  if due 256 then (if hdrCode s b = 0 then none else some (hdrCode s b, 0))
  else if due (256 + 16 * hdrSects b) then tableCode b
  else if b.length ≤ 256 + 16 * hdrSects b then none
  else match (secsOf b).find? fun e => due (e.off + e.len) && !bodyOk s b e with
    | some e => some (4, e.idx)
    | none => if due (hdrLen b) ∧ hdrKind b = 2 ∧ hdrBase b ≠ rdF s (aImg 0x20) 47 0 then some (0x0C, 0) else none

/-- Eight bytes written to IMG_DATA. -/
def imgDataWrite (s : State) (v : Word) : State :=
  if s.img.st ≠ 1 then setFlag s (aImg 8) 3
  else
    let old := s.img.bytes.length
    let s1 := { s with img := { s.img with bytes := s.img.bytes ++ bytesOf 8 v.toNat } }
    match receiptCode s1 old with
    | some c => imgRefuse s1 c.1 c.2
    | none =>
      let b := s1.img.bytes
      let s2 := if b.length = 256 then wr s1 (aImg 0x28) (BitVec.ofNat 64 (hdrSeq b)) else s1
      if 256 ≤ b.length ∧ b.length = hdrLen b then imgState s2 2 else s2

/-- IMG_DATA: the CP master writes eight bytes; a write outside RECEIVE sets DATA_ERR. -/
def execImgData (m : Master) (v : Word) (s : State) : Host.Outcome State Fault Refusal :=
  answer s (if m = .cp then imgDataWrite s v else s)

/-! Words of the image take effect (15 R326, R331). -/

/-- A window with one of its words replaced (09 Table 09.6). -/
def winWord (w : Window) (k : Nat) (v : Word) : Window :=
  match k with
  | 0 => { w with kind := v.extractLsb' 62 2, rtype := bitOf v 61, set := v.extractLsb' 56 5, target := v.extractLsb' 40 12, base := v.extractLsb' 0 40 }
  | 1 => { w with slices := v.extractLsb' 48 16, limit := v.extractLsb' 0 40 }
  | _ => { w with fabase := v.extractLsb' 0 40 }

/-- A word of the window that NI_DW_IDX selects. -/
def putWindow (s : State) (n k : Nat) (v : Word) : State :=
  let j := rdF s (aNi n 0x1C18) 7 0
  updNi s n fun i =>
    let w := winWord (mgetD i.dec.windows j {}) k v
    { i with dec := { i.dec with windows := if w = {} then mdel i.dec.windows j else mset i.dec.windows j w } }

/-- The BGT entry that NI_BGT_IDX selects (10 Table 10.5). -/
def putBgt (s : State) (n : Nat) (v : Word) : State :=
  let j := rdF s (aNi n 0x1C98) 7 0
  let row : BgtRow := ⟨bitOf v 62, v.extractLsb' 44 12, v.extractLsb' 25 19, v.extractLsb' 0 25⟩
  updNi s n fun i =>
    { i with dec := { i.dec with bgt := if bitOf v 63 then mset i.dec.bgt j row else mdel i.dec.bgt j } }

/-- Where the link selected by RTE_WS_IDX is received (18 R408): the router and its port, and whether it is the NI or span port attached
there that receives. -/
def wsInput (s : State) (x : Nat) : Option (Nat × Nat × Bool) :=
  let w := rd s (aRtr x 0xB0)
  let port := fld w 3 0
  if bitOf w 5 then
    match neighbour s x port with
    | some (y, q) => some (y, q, false)
    | none => if farEnd s x port then some (x, port, true) else none
  else some (x, port, false)
/-- The plane that RTE_WS_IDX selects. -/
def wsPlane (s : State) (x : Nat) : Plane := if bitOf (rd s (aRtr x 0xB0)) 4 then .rsp else .req

/-- The spare wires of the link that RTE_WS_IDX selects (18 R388). -/
def putWires (s : State) (x : Nat) (v : Word) : State :=
  match wsInput s x with
  | some (y, port, far) => (List.range 8).foldl (fun t g =>
      let k := wireKey (wsPlane s x) (rxPort s y port far) g
      updRx t y port far fun l => { l with wires := mset l.wires k { mgetD l.wires k {} with
        steered := if bitOf v (8 * g + 7) then some (fld v (8 * g + 6) (8 * g)) else none } }) s
  | none => s

/-- A register word with the bits that the image sets replaced. -/
def imgMerge (a : Nat) (old v : Word) : Word :=
  let m : Word := BitVec.ofNat 64 (regInfo a).img
  (old &&& ~~~m) ||| (v &&& m)

/-- The word stands in the active image (17 R373) and in its register; a pending value is gone (15 Table 15.8). -/
def putActive (s : State) (a : Nat) (v : Word) : State :=
  let s1 := { s with img := { s.img with active := mset s.img.active a (imgMerge a (imgWord s a) v) }, pendT := mdel s.pendT a }
  wr s1 a (imgMerge a (rd s a) v)

/-- The ports of router x that are connected (05 R89), as RTE_PORT_EN has them: the others read 0. -/
def portsThere (s : State) (x : Nat) : Word :=
  let l := (List.range 10).filter fun q => (6 ≤ q && q < 10) || (neighbour s x q).isSome || (spanAt s x q).isSome
  BitVec.ofNat 64 (l.foldl (fun a q => a ||| 0x10001 <<< q) 0)

/-- One word of the image takes effect (log 11 for the tables read through an index). -/
def imgPut (s : State) (w : Nat × Word) : State :=
  let a := w.1
  let v := w.2
  let n := (a - 0x200000) / 0x2000
  let off := (a - 0x200000) % 0x2000
  if 0x200000 ≤ a ∧ a < 0x300000 ∧ 0x1C18 ≤ off ∧ off < 0x1C38 then
    (if off = 0x1C18 then wr s a (imgMerge a (rd s a) v) else putWindow s n ((off - 0x1C20) / 8) v)
  else if 0x200000 ≤ a ∧ a < 0x300000 ∧ off = 0x1C98 then wr s a (imgMerge a (rd s a) v)
  else if 0x200000 ≤ a ∧ a < 0x300000 ∧ off = 0x1CA0 then putBgt s n v
  else if 0x100000 ≤ a ∧ a < 0x140000 ∧ a % 0x1000 = 0xB0 then wr s a (imgMerge a (rd s a) v)
  else if 0x100000 ≤ a ∧ a < 0x140000 ∧ a % 0x1000 = 0x20 then putActive s a (v &&& portsThere s ((a - 0x100000) / 0x1000))
  else if 0x100000 ≤ a ∧ a < 0x140000 ∧ a % 0x1000 = 0xB8 then putWires s ((a - 0x100000) / 0x1000) v
  else if a = 0x11030 then (List.range 4).foldl (fun t l => raiseMargin t l (fld v (4 * l + 2) (4 * l))) s
  else if 0x2000000 ≤ a ∧ a < 0x2800000 then
    let s1 := putActive s a v
    let row := (a - 0x2000000) % 0x10000 / 16
    let nn := (a - 0x2000000) / 0x10000
    let r := rowRebuilt s1 nn row
    wr (wr s1 (lptAddr nn row) r.1) (lptAddr nn row + 8) (BitVec.ofNat 64 r.2)
  else putActive s a v

/-- Words in order. -/
def imgPutAll (s : State) (l : List (Nat × Word)) : State := l.foldl imgPut s

/-- Entry t of a route table without its reserved bits (05 Table 05.14); one of an absent router or span port is 0xF000 (05,
"Reduced profiles"). -/
def tblEntry (s : State) (t v : Nat) : Nat :=
  if (if t < 64 then isRtr s t else decide (t - 64 < nSpans s)) then v &&& 0xF3FF else 0xF000

/-- A word of the route-set space as the store holds it: reserved bits are 0 (00 R5). -/
def routeWord (s : State) (a : Nat) (v : Word) : Word :=
  packW ((List.range 4).map fun j =>
    (16 * j, if a % 0x400 < 0x200 then tblEntry s (a % 0x100 / 2 + j) (fld v (16 * j + 15) (16 * j)) else fld v (16 * j + 15) (16 * j) &&& 0xFF00))

/-- A word of the route-set store. -/
def putRoute (s : State) (w : Nat × Word) : State :=
  { s with img := { s.img with route := mset s.img.route w.1 (routeWord s w.1 w.2) } }

/-- An address that some section may write. -/
def imgWrites (a : Nat) : Bool := (regInfo a).img != 0 && a != 0x11030

/-- No wire is steered out. -/
def noSteer (l : LinkRx) : LinkRx := { l with wires := mmap l.wires fun _ w => { w with steered := none } }

/-- Before a cold image, every table and register that a section may write holds its reset value (15 R326, R331). -/
def coldClear (s : State) : State :=
  { s with
    regs := mdrop s.regs imgWrites, pendT := mdrop s.pendT imgWrites
    nis := mmap s.nis fun _ i => { i with dec := { i.dec with windows := [], bgt := [] }, rx := noSteer i.rx }
    rtrs := mmap s.rtrs fun _ r => { r with rx := noSteer r.rx }
    spans := mmap s.spans fun _ q => { q with rx := noSteer q.rx }
    img := { s.img with active := [], route := [], cold := true } }

/-! Step 2 (15 R333, R336). -/

/-- The output of router x on a port of a plane has its full credits and its channels free: the link comes up (05 R90). -/
def freshPort (s : State) (x : Nat) (pl : Plane) (port : Nat) : State :=
  updPlane s pl x fun r => { r with
    credits := mdrop r.credits fun k => k / 16 == port, owner := mdrop r.owner fun k => k / 16 == port
    owed := mdrop r.owed fun k => k / 16 == port }

/-- RTE_PORT_UP follows RTE_PORT_EN at router x: a disabled port is down; a newly enabled one is up unless the router or the one
behind a mesh link has failed or sleeps, and its credits are restored (05 R90). -/
def portsImg (s : State) (x : Nat) (was : Word) : State :=
  let en := rd s (aRtr x 0x20)
  (List.range 32).foldl (fun t b =>
    let port := b % 16
    let there := !(getRtr s x).failed && (match neighbour s x port with
      | some (y, _) => !(getRtr s y).failed && mgetD s.pwr.cols (rtrCol s y) 0 == 0 | none => true)
    if 10 ≤ port ∨ bitOf en b = bitOf was b then t
    else
      let pl : Plane := if b < 16 then .req else .rsp
      setPortUp (if bitOf en b && there then freshPort t x pl port else t) x pl port (bitOf en b && there)) s

/-- A span port follows SPN_CFG.EN: an enabled one sends INIT once sp_phy_up is 1 (12 R276). -/
def spanImg (s : State) (p : Nat) : State :=
  let q := getSpan s p
  if !isSpan s p then s
  else if !bitOf (spnCfg s p) 0 then (if q.lstate = 0 then s else updSpan s p fun x => { x with lstate := 0, up := false })
  else if q.lstate = 0 ∧ q.phyUp then
    updSpan s p fun x => { x with lstate := 1, ctlDue := [initWord s p x] }
  else s

/-- A port follows PORT_EN: an enabled one begins its reset handshake (03 R58, 15 R333); one disabled during a handshake ends it, and
with it an NI reset (17 R376). -/
def portImg (s : State) (n : Nat) (was : Bool) : State :=
  if !isEpNi s n || portEn s n == was then s
  else if portEn s n then updPort (portResetBegin s n) n fun p => portStep { p with reqNi := true }
  else
    let s1 := updPort s n fun p => { p with resetting := false, reqNi := false, inNi := false }
    if (getNi s n).inRst then updNi (niDataReset s1 n) n fun i => { i with inRst := false } else s1

/-- The NIs whose placement a HOME section writes. -/
def homesIn (b : List (BitVec 8)) : List Nat :=
  (((imgWords b 5).filter fun w => decide (0x200 ≤ w.1 % 0x1000) && decide (w.1 % 0x1000 < 0x400)).map fun w =>
    [(w.1 % 0x1000 - 0x200) / 4, (w.1 % 0x1000 - 0x200) / 4 + 1]).flatten.dedup

/-- The delta disables the router of the case in force: it retires it (18 R398). -/
def retires (s : State) (b : List (BitVec 8)) : Option Nat :=
  match s.flt.caseR with
  | some x => if (imgWords b 2).any fun w => w.1 == aRtr x 0x20 && fld w.2 25 0 &&& 0x3FF03FF == 0 then some x else none
  | none => none

/-- The group words of a MCAST section. -/
def groupWords (b : List (BitVec 8)) : List (Nat × Word) := (imgWords b 0xC).filter fun w => decide (0xA000 ≤ w.1) && decide (w.1 < 0xF000)

/-- The route set that comes into force at the switch. -/
def incomingSet (s : State) (b : List (BitVec 8)) : Nat :=
  if hdrKind b = 1 then 0 else if (retires s b).isSome then patternSet s else setInForce s

/-- What step 2 writes: a cold image's identity, ROUTE, ENABLE, HOME, PBR and SPAN, and the epoch slot with the groups. -/
def imgWords2 (s : State) : State :=
  let b := s.img.bytes
  let s0 := if hdrKind b = 1 then wrF (coldClear s) 0x8 11 8 (leAt b 8 1 % 16) else s
  let s1 := (imgWords b 4).foldl putRoute s0
  let s2 := imgPutAll s1 (imgWords b 1 ++ imgWords b 2 ++ imgWords b 5 ++ imgWords b 6 ++ imgWords b 0xD)
  let s3 := if hdrKind b = 1 then
      (List.range (nRtrs s)).foldl (fun t x => wrF t (aRtr x 0x18) 17 16 0) (loadSlot s2 0 0)
    else if twoEpoch b then switchSet s2 (incomingSet s b) (hdrHold b)
    else s2
  imgPutAll s3 (groupWords b)

/-- Step 2 of the switch, its effects on ports, attachments, links and slots included. -/
def imgStep2 (s : State) : State :=
  let b := s.img.bytes
  let s1 := imgWords2 s
  let s2 := (List.range (nRtrs s)).foldl (fun t x => portsImg t x (rd s (aRtr x 0x20))) s1
  let s3 := (homesIn b).foldl (fun t n => setHome (updNi t n fun i => { i with attDown := 0 }) n) s2
  let s4 := (List.range (nSpans s)).foldl spanImg s3
  let s5 := (List.range (nEpNis s)).foldl (fun t n => portImg t n (portEn s n)) s4
  let s6 := (List.range (nSlots s)).foldl slotEnable s5
  match retires s b with | some x => retireRouter s6 x | none => s6

/-! Step 3: image flows (15 R339). -/

/-- The source entries that a PISTE section writes, as unit and entry: units from 128 on are span ports. -/
def pisteKeys (b : List (BitVec 8)) : List (Nat × Nat) :=
  ((imgWords b 8).filterMap fun w =>
    let off := w.1 % 0x2000
    if w.1 < 0x100000 then (if 0x400 ≤ off ∧ off < 0x1400 then some (128 + (w.1 - 0x20000) / 0x2000, (off - 0x400) / 0x20) else none)
    else if 0x400 ≤ off ∧ off < 0xC00 then some ((w.1 - 0x200000) / 0x2000, (off - 0x400) / 0x20)
    else none).dedup

/-- Address of word j of a source entry. -/
def entAddr (u e j : Nat) : Nat := if u < 128 then aNi u (0x400 + 0x20 * e + 8 * j) else aSpn (u - 128) (0x400 + 0x20 * e + 8 * j)

/-- The 256 bits that the image gives a source entry; a word it does not write keeps its value. -/
def pisteEntry (s : State) (b : List (BitVec 8)) (k : Nat × Nat) : BitVec 256 :=
  (List.range 4).foldl (fun a j => a ||| BitVec.ofNat 256 ((((imgWords b 8).reverse.find? fun w => w.1 == entAddr k.1 k.2 j).elim
    (rd s (entAddr k.1 k.2 j)) (·.2)).toNat <<< (64 * j))) 0

/-- The flow that holds a source entry. -/
def flowIn (s : State) (k : Nat × Nat) : Option (Nat × Flow) :=
  s.eng.flows.find? fun q => q.2.srcNode == nodeOf s k.1 && q.2.srcIdx == k.2

/-- What of an entry the image states: STATE, TICK, TWIN's validity and SUSP apart. -/
def entStated (v : BitVec 256) : BitVec 256 := setFld (setFld (setFld v 9 8 0) 127 96 0) 0 0 0

/-- The request that an image's source entry makes (13 Table 13.3): the groups are given. -/
def imgReq (u t : Nat) (v : BitVec 256) : AdmReq :=
  { src := u, dst := v.extractLsb' 22 12, plane := if bitOf v 7 then .rsp else .req, split := bitOf v 6, nosby := bitOf v 2,
    floor := fld v 5 4, allow := fld v 95 85, hdrs := fld v 84 74, maxlen := fld v 64 58, trk := fld v 73 65, tick := t,
    launch := some (fld v 255 128), id := some (fld v 21 10)
    second := bitOf v 1 && decide (fld v 45 34 < fld v 21 10), pair := if bitOf v 1 then some (fld v 45 34) else none }

/-- ADMIT of one image flow at the switch tick (15 R339): its code of Table 06.4, or the state with the flow committed. Of a twinned
pair the higher flow ID takes the twin's path. The peer's groups are those of the peer's own image: a free value (log 23). -/
def imgAdmit (s : State) (k : Nat × Nat) (v : BitVec 256) : Except Nat State :=
  let r := imgReq k.1 (frameOf s) v
  let id := fld v 21 10
  let twinned := bitOf v 1
  if !r.ok ∨ (120 + nRinks s ≤ nodeLoc r.dst ∧ nodeLoc r.dst < 128) then .error 1
  else if s.flt.caseR.isSome ∨ s.flt.switchAt.isSome then .error 12
  else if r.floor < s.pwr.lvl.toNat then .error 2
  else if nFlows s ≤ s.eng.flows.length ∨ (mget s.eng.flows id).isSome ∨ (flowIn s k).isSome then .error 3
  else
    let g := takeFree s
    match planSeg g.2 s.eng.flows r r.second (g.1.toNat % 128) with
    | .error c => .error c
    | .ok p =>
      if !stagingOk s r [p] then .error 10
      else if !trackerOk s r 1 then .error 11
      else
        let h := takeFree g.2
        let next : Option (BitVec 12) := if nodeInst r.dst = instNo s then none else some (h.1.extractLsb' 0 12)
        let f := { flowOf h.2 r p k.2 (frameOf s) (if twinned then some (v.extractLsb' 34 12) else none) next with
          img := true, chain := match r.pair.bind (mget s.eng.flows ·) with | some g => g.chain | none => h.2.eng.nextChain }
        let t := putFlow h.2 id f r.split
        .ok (commitFlow { t with eng := { t.eng with nextChain := t.eng.nextChain + 1 } } id f)

/-- One source entry of the PISTE section: an image flow that it leaves unstated is removed, one that it repeats stays, and a new
one is admitted; a flow from a command ring is never touched. -/
def imgFlow (s : State) (k : Nat × Nat) (v : BitVec 256) : Except Nat State :=
  match flowIn s k with
  | some (id, f) =>
    if !f.img then (if seState v = 0 then .ok s else .error 3)
    else if seState v = 0 then .ok (freeFlow s id f)
    else if entStated v = entStated (flowEnt s f) then .ok s
    else imgAdmit (freeFlow s id f) k v
  | none => if seState v = 0 then .ok s else imgAdmit s k v

/-- TRK_MAX and the clock periods of the image hold when its flows are judged (log 29). -/
def imgTrkMax (s : State) : State :=
  ((imgWords s.img.bytes 0xA).filter fun w => niOff s w.1 == some 0x158).foldl (fun t w => wrF t w.1 40 32 (fld w.2 40 32))
    (wr s (aImg 0x20) (BitVec.ofNat 64 (hdrSeq s.img.bytes)))

/-- Step 3 of the switch: removals first, then the flows of the image, in order. -/
def imgStep3 (s : State) : Except Nat State :=
  let b := s.img.bytes
  let ks := pisteKeys b
  let gone := ks.filter fun k => seState (pisteEntry s b k) == 0
  let more := ks.filter fun k => seState (pisteEntry s b k) != 0
  (gone ++ more).foldl (fun acc k => match acc with | .ok t => imgFlow t k (pisteEntry s b k) | .error c => .error c) (.ok (imgTrkMax s))

/-- Step 3 at the switch tick. A refusal is a delta's (15 R339, R340): its flows are refused with PISTE_REFUSED, and what step 2 did stays
applied (01 R17). Of a cold image, a flow that ADMIT refuses is not admitted, and the others are (log 29). -/
def imgFlows (s : State) : State :=
  let b := s.img.bytes
  if hdrKind b = 1 then
    (pisteKeys b).foldl (fun t k => match imgFlow t k (pisteEntry s b k) with | .ok u => u | .error _ => t) (imgTrkMax s)
  else match imgStep3 s with
    | .ok t => t
    | .error c => imgRefusal s 0x15 c

/-! Steps 4 and 6. -/

/-- A slice's configuration word. -/
def sliceCfgAddr (s : State) (a : Nat) : Bool := offIn (niOff s a) 0x200 0x400

/-- The slice configuration of the image waits for step 4 as a write of its RW/T fields would (11 R232). -/
def imgStep4 (s : State) : State :=
  ((imgWords s.img.bytes 0xA).filter fun w => sliceCfgAddr s w.1).foldl (fun t w =>
    { t with img := { t.img with active := mset t.img.active w.1 (imgMerge w.1 (imgWord t w.1) w.2) }
             pendT := mset t.pendT w.1 (imgMerge w.1 (rd t w.1) w.2) }) s

/-- The words of step 6. -/
def words6 (s : State) (b : List (BitVec 8)) : List (Nat × Word) :=
  imgWords b 3 ++ imgWords b 7 ++ imgWords b 9 ++ ((imgWords b 0xA).filter fun w => !sliceCfgAddr s w.1) ++ imgWords b 0xB ++
    ((imgWords b 0xC).filter fun w => !(decide (0xA000 ≤ w.1) && decide (w.1 < 0xF000))) ++ imgWords b 0xE ++ imgWords b 0xF ++
    imgWords b 0x10 ++ imgWords b 0x11

/-- BOUND_OK reads 1 at the NIs that a passing load-check record covers (07 R165): at every NI (DESIGN CHOICE, log 36: the record of 15
Table 15.3 has no list of NIs). -/
def boundOk (s : State) : State :=
  (niList s).foldl (fun t n =>
    let a := aNi n 0xE8
    wr { t with img := { t.img with active := mset t.img.active a (setBit (imgWord t a) 8 true) } } a (setBit (rd t a) 8 true)) s

/-- The microcode that an image carries for the engines (15 Table 15.2). -/
def microOf (b : List (BitVec 8)) : List (BitVec 8) := match (secsOf b).find? fun e => e.typ == 0x12 with | some e => secBody b e | none => []

/-- The image is in force (15 R328, R333, R342). A refusal of its flows at step 3 of the same tick stays in IMG_STAT. -/
def imgDone (s : State) : State :=
  let b := s.img.bytes
  let cold := hdrKind b == 1
  let d := Config.sha384 (imgSigned b)
  let s1 := if (recordsOf b).any fun r => leAt r 0 1 == 7 then boundOk s else s
  let s2 := wr (wr (wr s1 (aImg 0x20) (BitVec.ofNat 64 (hdrSeq b))) (aImg 0x30) (BitVec.ofNat 64 (hdrSeq b))) (aImg 0x48)
    (BitVec.ofNat 64 (hdrFabricId b))
  let s3 := (List.range 6).foldl (fun t w => wr t (aImg (0x50 + 8 * w)) (BitVec.ofNat 64 (leAt d (8 * w) 8))) s2
  let s4 := wr (wr s3 (aImg 0x80) (BitVec.ofNat 64 (sigKeyM (imgSig b) <<< 16 ||| sigKeyE (imgSig b)))) (aImg 0x88)
    (BitVec.ofNat 64 (hdrHold b % 2048))
  let s4a := imgIdle { s4 with img := { s4.img with loaded := true, union := some (setInForce s4), cold := false } }
  let s5 := if rdF s (aImg 8) 23 16 = 0x15 then s4a else imgCode s4a 0 0
  let s6 := raiseG (setFlag (setFlag s5 (aImg 8) 28) (aImg 8) 0) 242 0x150 0 (hdrSeq b % 2 ^ 32)
  if cold then
    pwrWrite { s6 with img := { s6.img with micro := microOf b }, jrn := { s6.jrn with imageNs := some (nowNs s), fillsOpen := !s.gen.jrn } }
      (BitVec.ofNat 24 (rdF s6 (aPwr 0x20) 9 8 <<< 16))
  else s6

/-- Step 6 of the switch: the rest of the words, clamps (07 R163), replaced homes (14 R320), and the outcome. -/
def imgStep6 (s : State) : State :=
  let b := s.img.bytes
  let s1 := imgPutAll s (words6 s b)
  let s2 := clampQueues s1 fun _ => true
  let s3 := if hdrKind b = 1 then s2
    else [0, 1].foldl (fun t h => if rd s (aJrn (0x10 + 8 * h)) = rd t (aJrn (0x10 + 8 * h)) then t else homeReplace t h) s2
  imgDone s3

/-! Refusals (15 R340, Table 15.5). -/

/-- A link of the flow's paths that count is disabled or not in the incoming set (06 R143). At a retirement only the paths live in
the case in force count (18 R398). -/
def pisteInUse (s h : State) (b : List (BitVec 8)) : Bool :=
  let rs := incomingSet s b
  match retires s b with
  | some x => h.eng.flows.any fun f => match pathInCase f.2 (some x) with
      | some l => !l.all fun k => linkInSet h rs f.2.plane k.1 k.2
      | none => false
  | none => !flowsRoutable h rs

/-- The RTE_HOME entry of an NI changes while an attachment of it is up. -/
def homeInUse (s : State) (b : List (BitVec 8)) : Bool :=
  (imgWords b 5).any fun w =>
    let off := w.1 % 0x1000
    decide (0x200 ≤ off) && decide (off < 0x400) && [0, 1].any fun j =>
      let n := (off - 0x200) / 4 + j
      (attUp (homeAt s 0 n) false || attUp (homeAt s 0 n) true) &&
        fld (imgMerge w.1 (imgWord s w.1) w.2) (32 * j + 31) (32 * j) != fld (imgWord s w.1) (32 * j + 31) (32 * j)

/-- An NI, a span port or a region is in use. -/
def unitInUse (s : State) (b : List (BitVec 8)) : Bool :=
  ((imgWords b 2).any fun w => niOff s w.1 == some 0 && !bitOf w.2 0 && (getNi s ((w.1 - 0x200000) / 0x2000)).port.up) ||
  ((imgWords b 2 ++ imgWords b 0xD).any fun w =>
    let l := (getSpan s ((w.1 - 0x20000) / 0x2000)).lstate
    spnOff s w.1 == some 8 && imgMerge w.1 (rd s w.1) w.2 != rd s w.1 && l != 0 && l != 5) ||
  ((imgWords b 4).any fun w =>
    let rs := w.1 / 0x10000
    decide (1 ≤ rs) && decide (rs < nCols s) && routeWord s w.1 w.2 != storeWord s w.1 && mgetD s.pwr.cols (nCols s - rs) 0 != 0)

/-- TRK_MAX below the sum of TRK over an NI's flows (11 R234). -/
def trkInUse (s : State) (b : List (BitVec 8)) : Bool :=
  (imgWords b 0xA).any fun w => niOff s w.1 == some 0x158 &&
    decide (fld w.2 40 32 < ((flowsFrom s ((w.1 - 0x200000) / 0x2000)).map fun q => q.2.trkN).sum)

/-- A journal home changes while a replaced one waits or a recovery runs. -/
def journalBusy (s : State) (b : List (BitVec 8)) : Bool :=
  carries b 0xE && (bitOf (rd s (aJrn 8)) 7 || s.jrn.recovering || s.jrn.recWanted)

/-- Another switch of the route set is due at the image's tick, or the set in force is not the one the union record names (15 R337,
Table 15.8). -/
def unionMiss (s : State) : Bool :=
  let t := s.img.switchT
  some (setInForce s) != s.img.union ||
    (match s.flt.switchAt with | some (_, f) => frameGe t (f % 2 ^ 48) | none => false) ||
    (match s.flt.restoreAt with | some f => frameGe t f | none => false) ||
    s.pwr.back.isSome ||
    (match s.pwr.cur with
     | some q => (reqAction q.req != 4 && q.phase == 2 && q.sub == 0) || (reqAction q.req == 4 && q.phase == 7 && reqKind q.req == 0)
     | none => false)

/-- The first condition of Table 15.5 that refuses the delta held: its code and SUB. -/
def imgConflict (s : State) : Option (Nat × Nat) :=
  let b := s.img.bytes
  let h := imgStep2 s
  if hdrKind b ≠ 2 then none
  else if twoEpoch b ∧ pisteInUse s h b then some (0x10, 0)
  else if twoEpoch b ∧ unionMiss s then some (0x0F, 0)
  else if homeInUse s b then some (0x11, 0)
  else if unitInUse s b then some (0x12, 0)
  else if trkInUse s b then some (0x13, 0)
  else if journalBusy s b then some (0x14, 0)
  else match imgStep3 h with
    | .error c => some (0x15, c)
    | .ok _ => none

/-! Verification (15 R327 to R329). -/

/-- The outcome of the signature checks (15 R327, R342; 22 R459), 0 when they pass. -/
def sigCode (s : State) (b : List (BitVec 8)) : Nat :=
  let g := imgSig b
  let st := lcState s
  let maker := st != 2
  let owner := st == 1 || st == 2
  let ke := sigKeyEOk s maker owner g
  let km := sigKeyMOk s maker owner g
  let se := sigEOk g (imgSigned b)
  let sm := sigMOk g (imgSigned b)
  if st = 4 then 0x18
  else if st = 0 ∧ ((ke && se) || (km && sm)) then 0
  else if !ke || !km then 5
  else if !se then 6
  else if !sm then 7
  else 0

/-- The FA range that an interleaved window gives member m of its set leaves the member's kind (09 R195, R197). -/
def ilvLeaves (h : State) (w : Window) (m : Nat) : Bool :=
  let g := 256 * 2 ^ fld (ilvCfg h w.set.toNat) 2 0
  let ways := fld (ilvCfg h w.set.toNat) 12 8
  let top := ((w.limit.toNat - w.base.toNat + 1) * 4096 - 1) / g
  let fab := fld (ilvMem h w.set.toNat m) 39 0
  decide (m ≤ top) && ((fab * 4096 + (top - m) / ways * g + g - 1) / 2 ^ 50 != fab / 2 ^ 38)

/-- A window that 09 R195 refuses. -/
def winBad (h : State) (w : Window) : Bool :=
  let last := w.fabase.toNat + (w.limit.toNat - w.base.toNat)
  decide (w.limit.toNat < w.base.toNat) ||
    (w.kind == 1 && (w.fabase.toNat / 2 ^ 38 != 0 || last / 2 ^ 38 != 0 || w.fabase.toNat / 2 ^ 34 != last / 2 ^ 34)) ||
    (w.kind == 2 && (w.fabase.toNat / 2 ^ 38 != 2 || last / 2 ^ 38 != 2)) ||
    (w.kind == 3 && ilvOk h w.set.toNat && (List.range (fld (ilvCfg h w.set.toNat) 12 8)).any (ilvLeaves h w))

/-- A valid interleave set with a member of a reserved kind (09 R195). -/
def ilvBad (h : State) (set : Nat) : Bool :=
  bitOf (ilvCfg h set) 63 && (List.range (fld (ilvCfg h set) 12 8)).any fun m => (fld (ilvMem h set m) 39 38) % 2 == 1

/-- The limits of a span port (12 R277). -/
def spanBad (h : State) (p : Nat) : Bool :=
  let c := spnCfg h p
  let lat := fld c 44 37
  let rto := 4 * fld c 36 29
  bitOf c 0 && (decide (200 < lat) || decide (rto < 2 * lat + 32) || decide (600 < rto + 2 * lat))

/-- A local number that names no unit of its own (14 R304). -/
def aliasLoc (h : State) (loc : Nat) : Bool := decide (120 + nRinks h ≤ loc) && decide (loc < 128)

/-- A group that 10 R213 or 14 R304 refuses, as far as this instance shows it. -/
def groupBad (h : State) (g : Nat) : Bool :=
  let cfg := rdBytes h (0xE000 + 4 * g) 4
  let ni := (rd h (0xA000 + 16 * g)).toNat ||| (rd h (0xA008 + 16 * g)).toNat <<< 64
  let sp := onesOf 8 (cfg / 256 % 256)
  cfg.testBit 31 && (decide (cfg % 256 < popCount 128 ni) || (List.range 128).any (fun n => ni.testBit n && aliasLoc h n) ||
    sp.any fun p => sp.any fun q => p != q && spnPeer h p == spnPeer h q)

/-- The groups that are listed. -/
def groupsListed (h : State) : List Nat :=
  ((h.regs.filter fun p => decide (0xE000 ≤ p.1) && decide (p.1 < 0xF000)).map fun p => [(p.1 - 0xE000) / 4, (p.1 - 0xE000) / 4 + 1]).flatten

/-- The loader's own configuration checks on what the image would make (15 R329, R337; 14 R304, R312). -/
def configBad (h : State) (b : List (BitVec 8)) : Bool :=
  let c := rd h 0xF000
  let hold := hdrHold b
  (h.nis.any fun i => i.2.dec.windows.any fun w => winBad h w.2 || (w.2.kind == 2 && nodeInst w.2.target == instNo h && aliasLoc h (nodeLoc w.2.target))) ||
  (List.range 32).any (ilvBad h) ||
  (List.range (nSpans h)).any (spanBad h) ||
  (groupsListed h).any (groupBad h) ||
  (carries b 0xE && (rdF h (aJrn 0x10) 63 52 == rdF h (aJrn 0x18) 63 52 || aliasLoc h (nodeLoc (homeNode h 0)) || aliasLoc h (nodeLoc (homeNode h 1)))) ||
  ((pisteKeys b).any fun k => seState (pisteEntry h b k) != 0 && nodeInst ((pisteEntry h b k).extractLsb' 22 12) == instNo h &&
    aliasLoc h (nodeLoc ((pisteEntry h b k).extractLsb' 22 12))) ||
  decide (hold < 34) || decide (1024 < hold) || decide (hold < max 1 (fld c 7 0) + max 1 (fld c 15 8))

/-- The configuration that the image would make. -/
def imgWhole (s : State) : State := imgPutAll (imgWords2 s) (words6 s s.img.bytes ++ imgWords s.img.bytes 0xA)

/-- The switch tick (15 R335). -/
def chooseTick (s : State) (b : List (BitVec 8)) : Nat :=
  let first := (frameOf s + 2) % 2 ^ 48
  let t := if hdrTick b ≠ 0 ∧ frameGe (hdrTick b) first then hdrTick b else first
  match s.img.release with
  | some r => if hdrKind b = 2 ∧ twoEpoch b ∧ frameGe r t then r else t
  | none => t

/-- A fabric delta that cannot switch at SWITCH_TICK for the old epoch's sake (15 R338, Table 15.5). -/
def epochBusy (s : State) (b : List (BitVec 8)) (t : Nat) : Bool :=
  hdrKind b == 2 && hdrFabric b && twoEpoch b && (match s.img.release with | some r => decide (r ≠ t) && frameGe r t | none => false)

/-- The outcome of verification: code and SUB of the first check that fails. -/
def verifyCode (s : State) : Option (Nat × Nat) :=
  let b := s.img.bytes
  let delta := hdrKind b == 2
  if sigCode s b ≠ 0 then some (sigCode s b, 0)
  else if hdrSeq b < rdF s (aImg 0x30) 47 0 ∨ (delta ∧ hdrSeq b ≤ rdF s (aImg 0x20) 47 0) then some (8, 0)
  else match checkMissing b with
    | some c => some (9, c)
    | none =>
      if configBad (imgWhole s) b then some (0x0A, 0)
      else if delta ∧ hdrFabric b ∧ !frameGe (hdrTick b) ((frameOf s + 2) % 2 ^ 48) then some (0x0D, 0)
      else if epochBusy s b (hdrTick b) then some (0x0E, 0)
      else imgConflict { s with img := { s.img with switchT := chooseTick s b } }

/-- IMAGE_VERIFY_DONE: within 4 ms of the last byte, the image is staged with its switch tick, or refused (15 R327, R335). -/
def execImageVerifyDone (s : State) : Host.Outcome State Fault Refusal :=
  answer s (
    if s.img.st ≠ 2 then s
    else match verifyCode s with
      | some c => imgRefuse s c.1 c.2
      | none =>
        let t := chooseTick s s.img.bytes
        wr (imgState { s with img := { s.img with switchT := t, verifiedF := frameOf s, prechecked := false } } 3) (aImg 0x38) (BitVec.ofNat 64 t))

/-! The frame before the switch, and its tick. -/

/-- The old epoch would still be live at the switch tick of a two-epoch delta: the tick it is released at. -/
def imgWaits (s : State) (t : Nat) : Option Nat :=
  match s.img.release with
  | some r => if hdrKind s.img.bytes = 2 ∧ twoEpoch s.img.bytes ∧ r ≠ t ∧ frameGe r t then some r else none
  | none => none

/-- The checks of the frame before T: the delta waits for the old epoch, is refused, or is passed (15 R335, R338, R340). -/
def imgJudge (s : State) : State :=
  match imgWaits s s.img.switchT with
  | some r =>
    if hdrFabric s.img.bytes then imgRefuse s 0x0E 0
    else wr { s with img := { s.img with switchT := r } } (aImg 0x38) (BitVec.ofNat 64 r)
  | none => match imgConflict s with
    | some c => imgRefuse s c.1 c.2
    | none => { s with img := { s.img with prechecked := true } }

/-- IMAGE_PRECHECK: in the frame before T (15 R335). -/
def execImagePrecheck (s : State) : Host.Outcome State Fault Refusal :=
  answer s (if s.img.st = 3 ∧ !s.img.prechecked ∧ (frameOf s + 1) % 2 ^ 48 = s.img.switchT then imgJudge s else s)

/-- The check repeated at step 2 (01 Table 01.3): the union is that of the set in force, and every reserved path stays routable. -/
def imgRepeat (s : State) : State :=
  let b := s.img.bytes
  if hdrKind b = 2 ∧ twoEpoch b ∧ pisteInUse s (imgStep2 s) b then imgRefuse s 0x10 0
  else if hdrKind b = 2 ∧ twoEpoch b ∧ some (setInForce s) ≠ s.img.union then imgRefuse s 0x0F 0
  else s

/-- At a gate tick, before step 2's switch: the check of the image that is due is repeated; one not checked in the frame before has all
its checks now. -/
def imgGate (s : State) : State :=
  if s.img.st = 3 ∧ frameGe (frameOf s) s.img.switchT then (if s.img.prechecked then imgRepeat s else imgJudge s) else s

/-- The image held switches at this tick. -/
def imgSwitches (s : State) : Bool := s.img.st == 3 && s.img.prechecked && frameGe (frameOf s) s.img.switchT

end Sys2Proof.Machine
end

