-- ==== Sys2Proof/Machine/Reset.lean ====
section
/-! DEFINITION. Power-up, cold and warm reset, and the reset of a service NI (17 R370 to R380; 20 R434; 21 R452; 24 R486). NI resets of
endpoint NIs are in NiReset. -/

namespace Sys2Proof.Machine

/-! Cold reset (17 R374, Table 17.5). -/

/-- Words that a cold reset keeps: the time base, IMG_FLOOR, PWR_MARGIN, the ageing monitors, GLB_RST_STAT and GLB_FLT_LCNT (17
Table 17.5; 18 R387, R403). -/
def coldKeeps (a : Nat) : Bool :=
  (decide (0x10000 ≤ a) && decide (a < 0x11000)) || a == 0x13030 || a == 0x11030 || (decide (0x11080 ≤ a) && decide (a < 0x11110)) ||
    a == 0x438 || a == 0x540

/-- What of an NI a cold reset leaves: the endpoint's pins, the slot's pins and PERM (21 R452). -/
def niCold (i : Ni) : Ni :=
  { port := { inEp := i.port.inEp, reqEp := i.port.reqEp }
    slot := { prsntN := i.slot.prsntN, pgood := i.slot.pgood, fltN := i.slot.fltN, feed := i.slot.feed, perm := i.slot.perm
              state := if i.slot.perm then 7 else 0 } }

/-- The power controller at PL2, its VID with the margin kept (16 R346). -/
def pwrCold (s : State) : Pwr :=
  let code := vidCode s 2
  let same := s.pwr.vid.toNat == code
  { vid := BitVec.ofNat 8 code, vchg := !same, pgood := same && s.pwr.pgood, ageSeen := s.pwr.ageSeen }

/-- The arrays may be cleared: both reset inputs are released and pwr_pgood was sampled 1 (17 R374, 24 R486). -/
def mayClear (s : State) : Bool := s.rst.porN && s.rst.rstN && s.rst.pgSeen

/-- The life-cycle unit at a cold reset (22 R462, R463, R470): fuses stay, the session, the token and LCS_KBUF go. -/
def lcsCold (s : State) (nonce : Word) : Lcs :=
  { s.lcs with nonce := nonce, kbuf := 0, busy := false, bytes := [], session := none, jtag := .bypass }

/-- Everything outside the always-on domain is reset; the journal ring keeps its records (17 Table 17.5). -/
def coldState (s : State) : State :=
  let f := takeFree s
  { gen := s.gen, time := s.time, free := f.2.free, pending := s.pending
    regs := s.regs.filter fun p => coldKeeps p.1
    pendT := s.pendT.filter fun p => decide (0x10000 ≤ p.1) && decide (p.1 < 0x11000)
    nis := mmap s.nis fun _ i => niCold i
    spans := mmap s.spans fun _ q => { phyUp := q.phyUp, widthCap := q.widthCap }
    jrn := { ring := s.jrn.ring.map fun r => { r with key := 0 } }
    pwr := pwrCold s, lcs := lcsCold s f.1, flt := { log := s.flt.log }
    rst := { porN := s.rst.porN, rstN := s.rst.rstN, wrstN := s.rst.wrstN, pgSeen := s.rst.pgSeen, inCold := true, initDone := false
             clearing := mayClear s } }

/-- A cold reset of a cause (17 Table 17.8): counted, saturating. -/
def coldReset (s : State) (cause : Nat) : State :=
  let n := satAdd 0xFF (rdF s 0x438 15 8) 1
  wr (coldState s) 0x438 (BitVec.ofNat 64 (n <<< 8 ||| cause <<< 2))

/-- COLD_RESET_ASSERT: pwr_rst_n falls (17 R370). -/
def execColdResetAssert (s : State) : Host.Outcome State Fault Refusal :=
  answer s (if s.rst.rstN then coldReset { s with rst := { s.rst with rstN := false } } 1 else s)

/-- COLD_RESET_RELEASE: pwr_rst_n rises; the clearing of the arrays begins, once pwr_pgood has been sampled 1 (17 R374, 24 R486). -/
def execColdResetRelease (s : State) : Host.Outcome State Fault Refusal :=
  answer s (
    let s1 := { s with rst := { s.rst with rstN := true } }
    if s.rst.inCold then { s1 with rst := { s1.rst with clearing := mayClear s1 } } else s1)

/-- COLD_INIT_DONE: the arrays are cleared; INIT_DONE (17 R374). -/
def execColdInitDone (s : State) : Host.Outcome State Fault Refusal :=
  answer s (if s.rst.inCold && s.rst.clearing then { s with rst := { s.rst with inCold := false, clearing := false, initDone := true } } else s)

/-- GLB_RST_COLD: the CP master writes GLB_RST_CTL.COLD (17 R383); with WARM in the same write, cold alone (R382). -/
def execGlbRstCold (m : Master) (s : State) : Host.Outcome State Fault Refusal := answer s (if m = .cp then coldReset s 2 else s)

/-- POR: always-on power-up (17 R370): everything is reset, the fuses are read, and a half-done TO_RETURN or TO_SCRAP is completed (22
R465); IMG_FLOOR takes the fused floor. pwr_rst_n counts as low until pwr_pgood is sampled 1 (24 R486). -/
def execPor (s : State) : Host.Outcome State Fault Refusal :=
  answerFuse s (
    let i := intentRecovery { s with lcs := { s.lcs with kbuf := 0, busy := false, bytes := [], session := none, jtag := .bypass } }
    let f := takeFree i
    let t : State :=
      { gen := s.gen, free := f.2.free, pending := s.pending, lcs := { i.lcs with nonce := f.1 }
        nis := mmap s.nis fun _ n => niCold { n with slot := { n.slot with perm := false } }
        spans := mmap s.spans fun _ q => { phyUp := q.phyUp, widthCap := q.widthCap }
        pwr := { pgood := false }
        rst := { porN := s.rst.porN, rstN := s.rst.rstN, wrstN := s.rst.wrstN, inCold := true, initDone := false, pgSeen := false } }
    wr t 0x13030 (BitVec.ofNat 64 (fusedFloor t)))

/-! Warm reset (17 R375). -/

/-- Step 1 for an endpoint port: an NI already in reset joins (17 R382). -/
def warmPort (s : State) (n : Nat) : State :=
  let i := getNi s n
  if !portEn s n || i.region != 0 then s
  else if i.inRst then updNi s n fun i => { i with rstCause := if i.rstCause = 0 then 0 else 2 }
  else
    let s1 := updNi s n fun i => { i with inRst := true, rstCause := 2, rstFrame := frameOf s }
    updPort (portResetBegin s1 n) n fun p => portStep { p with reqNi := true }

/-- Step 1 for a span port whose link is up, retraining or in grace: DOWN, cause FORCED. -/
def warmSpan (s : State) (p : Nat) : State :=
  let l := (getSpan s p).lstate.toNat
  if 2 ≤ l ∧ l ≤ 4 then spanDown s p 5 else s

/-- Step 1 for the power controller: no pending request, and a level change ends unless its divider has switched. -/
def warmPower (s : State) : State :=
  let s1 := { s with pwr := { s.pwr with pend := none } }
  match s.pwr.cur with
  | some q =>
    if reqAction q.req = 0 ∧ ¬(q.phase = 5 ∧ s.pwr.lvl.toNat = reqLevel q.req) then
      { (driveVid s1 (vidCode s1 s1.pwr.lvl.toNat) false) with
        pwr := { (driveVid s1 (vidCode s1 s1.pwr.lvl.toNat) false).pwr with cur := none } }
    else s1
  | none => s1

/-- A warm reset of a cause begins: not during a cold or a warm one (17 R382). -/
def warmStart (s : State) (cause : Nat) : State :=
  if s.rst.warm ≠ 0 ∨ s.rst.inCold then s
  else
    let s1 := wrF { s with rst := { s.rst with warm := 1, warmNs := nowNs s } } 0x438 4 2 cause
    let s2 := (List.range (nEpNis s)).foldl warmPort s1
    let s3 := (List.range (nSpans s)).foldl warmSpan s2
    warmPower (if s.img.st = 3 then imgAborted s3 else s3)

/-- WARM_RESET_ASSERT: pwr_wrst_n falls. -/
def execWarmResetAssert (s : State) : Host.Outcome State Fault Refusal :=
  answer s (warmStart { s with rst := { s.rst with wrstN := false } } 3)

/-- GLB_RST_WARM: the CP master writes GLB_RST_CTL.WARM (17 R383). -/
def execGlbRstWarm (m : Master) (s : State) : Host.Outcome State Fault Refusal := answer s (if m = .cp then warmStart s 4 else s)

/-- Registers of an NI that its save list holds, not its arrays on vdd_ret (16 R357); the slot registers are not reset (21 R454). -/
def niSaveWord (off : Nat) : Bool :=
  !((decide (0x400 ≤ off) && decide (off < 0xC00)) || decide (0x1F00 ≤ off) ||
    (decide (0xC00 ≤ off) && decide (off < 0x1C00) && ((off - 0xC00) % 0x40 == 0x10 || 0x30 ≤ (off - 0xC00) % 0x40)))

/-- A region that is not ON returns to vdd_fab with its clock running; what its save list held is gone (17 R375 step 3). -/
def warmRegion (s : State) (kind i : Nat) : State :=
  if regionOf s kind i = 0 then s
  else
    let lost := s.pwr.saved.contains (regionKey kind i)
    let s1 := setRegion { s with pwr := { s.pwr with saved := s.pwr.saved.filter (· != regionKey kind i) } } kind i 0
    match kind with
    | 0 => (colRtrs s1 i).foldl (fun t x => setLinks t x true) s1
    | 2 => niReturns (if lost then updNi (wordsReset s1 (aNi i 0) 0x2000 niSaveWord) i fun n => { n with slices := [] } else s1) i lost
    | _ => s1

/-- Regions of every kind. -/
def warmRegions (s : State) : State :=
  let s1 := (List.range (nCols s)).foldl (fun t c => warmRegion t 0 c) s
  let s2 := (List.range (nRinks s)).foldl (fun t b => warmRegion t 1 b) s1
  (niList s).foldl (fun t n => setHome (warmRegion t 2 n) n) s2

/-- A MOVE in progress has ended: a mark goes, and the new NI's row stays only if its record is in the ring (13 R293). -/
def moveMarks (s : State) (n x : Nat) (r : TbtRow) : Option TbtRow :=
  let q := { r with hidden := false, mirror := none, copied := 0, busy := false }
  if r.hidden && !s.jrn.ring.any (fun e => !e.committed && e.typ == 1 && e.index == x && (ebtFields e.body).tni == n) then none else some q

/-- Step 3 for an NI: its data path, once (17 R382), and what still stood on its attachments. -/
def warmNi (s : State) (n : Nat) : State :=
  let i := getNi s n
  let s1 := if i.inRst && i.rstCause == 0 then s
    else niDataReset (updNi s n fun i => { i with
      inRst := true, rstCause := 2, rstFrame := if i.inRst then i.rstFrame else s.rst.warmNs / 1024 }) n
  updNi s1 n fun i => { i with
    inReq := [], inRsp := [], partials := [], drain := {}
    sched := { i.sched with prog := [], credits := [] }
    dec := { i.dec with tbt := i.dec.tbt.filterMap fun p => (moveMarks s n p.1 p.2).map fun r => (p.1, r) } }

/-- Step 3 for a router: its planes and gather entries; calendars, spare wires and failures stay. -/
def warmRtr (r : Rtr) : Rtr := { r with req := {}, rsp := {}, gather := [], gthLast := 15, self := [], rx := { r.rx with ueTimes := [], dropping := [] } }

/-- Step 3 for the rinks: deques, rings and commands go, but the removals that the slot manager submitted (14 R306); ENG_MAP and the
admitted flows stay. -/
def warmEng (e : Eng) : Eng :=
  let keep := e.cmds.filter fun c => c.op.toNat == opOrphan && !c.done
  { e with
    slots := mmap e.slots fun _ k => { closed := k.closed }
    rings := [], lastRing := [], admQ := [], wakes := [], fetchStop := [], peerAdmits := [], inbox := []
    cmds := keep.map fun c => { c with step := 0 }, ctlQ := keep.map (·.key), groomWanted := false }

/-- The rings restart empty (17 R375 step 4). -/
def warmRings (s : State) : State :=
  (List.range 16).foldl (fun t q =>
    wr (wr (wr t (aEng (0x118 + 0x40 * q)) 0) (aEng (0x128 + 0x40 * q)) 0) (aEng (0x120 + 0x40 * q)) (BitVec.ofNat 64 (2 ^ 48))) s

/-- The journal unit: changes not yet appended are lost, a checkpoint in progress never commits, a recovery starts again. -/
def warmJrn (s : State) : State :=
  let s1 := dropCkpt s
  { s1 with jrn := { s1.jrn with
    todo := [], outH0 := [], outH1 := [], recovering := false, recWanted := s.jrn.recWanted || (s.jrn.recovering && s.jrn.imageNs.isNone) } }

/-- The epoch 0 slot takes route set 0, or that of the router case in force; CUR_EP and OLD_LIVE become 0. -/
def warmRoutes (s : State) : State :=
  let s1 := loadSlot s (match s.flt.caseR with | some x => 8 + x | none => 0) 0
  let s2 := (List.range (nRtrs s)).foldl (fun t x => wrF t (aRtr x 0x18) 17 16 0) s1
  wr { s2 with img := { s2.img with release := none } } (aImg 0x40) 0

/-- A request of the power controller in progress for a region: a wake has its region ON, an entry is over. -/
def warmPwrReq (s : State) : State :=
  match s.pwr.cur with
  | some q =>
    if reqAction q.req = 0 then s
    else
      let s1 := { s with pwr := { s.pwr with cur := none, back := none } }
      if reqAction q.req = 4 then pwrOutcome s1 q.req 0 else s1
  | none => { s with pwr := { s.pwr with back := none } }

/-- Every router, NI, rink and span port is reset (17 R375 step 3). -/
def warmReset (s : State) : State :=
  let s1 := warmRegions (warmPwrReq s)
  let s2 := { s1 with
    rtrs := mmap s1.rtrs fun _ r => warmRtr r
    spans := mmap s1.spans fun _ q => { phyUp := q.phyUp, widthCap := q.widthCap } }
  let s3 := (niList s2).foldl warmNi s2
  let s4 := warmRoutes (warmJrn (warmRings { s3 with eng := warmEng s3.eng }))
  if s4.ntf.fwdBusy then forwardEnd s4 3 else s4

/-- Every enabled port has raised ep_rst_in_ep, or 1 ms has passed (17 R375 step 2). -/
def warmQuiet (s : State) : Bool :=
  ((List.range (nEpNis s)).all fun n => !portEn s n || (getNi s n).region != 0 || (getNi s n).port.inEp) ||
    decide (s.rst.warmNs + 1000000 ≤ nowNs s)

/-- WARM_QUIESCE_DONE: step 3; the data path leaves reset at the next gate tick. -/
def execWarmQuiesceDone (s : State) : Host.Outcome State Fault Refusal :=
  answer s (
    if s.rst.warm = 1 ∧ warmQuiet s then
      let s1 := warmReset s
      { s1 with rst := { s1.rst with warm := 2, warmAt := some ((frameOf s + 1) % 2 ^ 48) } }
    else s)

/-- The uncommitted records are written again, in SEQ order, each in its place (17 R375 step 4, R378 step 4; 14 R310). -/
def rewriteRecs (s : State) : State :=
  let old := s.jrn.ring.filter fun r => !r.committed
  let clear (l : List HomeWrite) := (l.filter fun w => w.seq.isNone).map fun w => { w with sent := false, failedAt := none }
  let s1 := { s with jrn := { s.jrn with
    outH0 := clear s.jrn.outH0, outH1 := clear s.jrn.outH1
    ring := s.jrn.ring.map fun r => if r.committed then r else { r with ack0 := false, ack1 := false } } }
  pumpHomes (old.foldl (fun t r =>
    addHome (addHome t 0 { seq := some r.seq, off := r.off0, bytes := recBytes s r }) 1 { seq := some r.seq, off := r.off1, bytes := recBytes s r }) s1)

/-- WARM_RESET_RELEASE: step 4, at the gate tick after the reset; pwr_wrst_n is high. -/
def execWarmResetRelease (s : State) : Host.Outcome State Fault Refusal :=
  answer s (
    match s.rst.warm, s.rst.warmAt with
    | 2, some f =>
      if !frameGe (frameOf s) f then s
      else
        let s1 := { s with rst := { s.rst with warm := 0, warmAt := none, wrstN := true } }
        let s2 := (niList s).foldl (fun t n => if isEpNi s n && portEn s n then t else updNi t n fun i => { i with inRst := false }) s1
        let s3 := rewriteRecs ((List.range (nSpans s)).foldl spanImg s2)
        let s4 := raiseGFree (if s3.jrn.replaceHome.isEmpty then s3 else submitGroom s3) 248 0x172 0
        pwrNext s4 3
    | _, _ => s)

/-! Reset of a service NI (17 R378). -/

/-- The control command at the head of its queue restarts at its first unfinished step (13 R299): a read or write that was outstanding
is made again. -/
def restartCtl (s : State) : State :=
  match s.eng.ctlQ.head? with
  | some key => updCmd s key fun c => { c with step :=
      if c.op = 0x04 ∧ (c.step = 3 ∨ c.step = 5) then 2
      else if c.op = 0x30 ∧ (c.step = 1 ∨ c.step = 21) then c.step - 1 else c.step }
  | none => s

/-- Answers for rink b that have not been taken are those of ended requests. -/
def ofRink (r b code : Nat) : Bool :=
  if code < 64 then code / 8 == b
  else if code < 128 then (code - 64) / 8 == b
  else if code < 144 then (code - 128) % r == b
  else if code = 160 then b == 0
  else if code = 161 then b == 1
  else decide (200 ≤ code) && b == 0

/-- A running job whose requests were outstanding is replayed from its start. -/
def rinkJob (j : Job) : Job := if j.outstanding = 0 then j else jobRestart j 0

/-- RINK_IN_RESET_RAISE: rink b's flag is up: the data path of its service NI is reset, the NI leaves reset, and the rink resumes: jobs
with requests outstanding are replayed, fetches resume at CI, and behind NI 120 the journal writes again and an outstanding forward
fails (17 R378). -/
def execRinkInResetRaise (b : BitVec 3) (s : State) : Host.Outcome State Fault Refusal :=
  answer s (
    let k := b.toNat
    let n := svcNi k
    if !isSvcNi s n || !(getNi s n).inRst || s.rst.warm != 0 then s
    else
      let s1 := niDataReset s n
      let s2 := { s1 with eng := { s1.eng with
        inbox := s1.eng.inbox.filter (fun a => !ofRink (nRinks s) k a.1)
        rings := mmap s1.eng.rings (fun q r => if q % nRinks s = k then { r with fetching := false } else r)
        slots := mmap s1.eng.slots (fun j e => if j / 8 = k then { e with running := e.running.map rinkJob } else e) } }
      let s3 := if k = 1 then restartAdmit s2 else s2
      let s4 := if k = 0 then
          let t := rewriteRecs (restartCtl s3)
          if t.ntf.fwdBusy then forwardEnd t 3 else t
        else s3
      updNi s4 n fun i => { i with inRst := false })

end Sys2Proof.Machine
end

