-- ==== Sys2Proof/Machine/LifeCycle.lean ====
section
/-! DEFINITION. Tokens and transitions, debug sessions, key programming and the test port (22 R455 to R469). Fuses and keys are in
Keys. -/

namespace Sys2Proof.Machine

/-- CP or SEC: the masters that may write the LCS block (22 R470). -/
def cpSec (m : Master) : Bool := m == .cp || m == .sec

/-! The token held (22 Table 22.4). -/

/-- KIND. -/
def tokKind (b : List (BitVec 8)) : Nat := leAt b 4 1
/-- NSIG. -/
def tokNsig (b : List (BitVec 8)) : Nat := leAt b 5 1
/-- ARG0. -/
def tokArg0 (b : List (BitVec 8)) : Nat := leAt b 24 8
/-- ARG1's frame. -/
def tokArg1 (b : List (BitVec 8)) : Nat := leAt b 32 8 % 2 ^ 48
/-- The floor of a FLOOR token. -/
def tokFloor (b : List (BitVec 8)) : Nat := tokArg0 b % 2 ^ 48
/-- Signature block i of a token. -/
def tokSig (b : List (BitVec 8)) (i : Nat) : List (BitVec 8) := sliceOf b (64 + 8192 * i) 8192
/-- Every byte of the token has been received (22 R463). -/
def tokWhole (b : List (BitVec 8)) : Bool := 64 ≤ b.length && 64 + 8192 * tokNsig b ≤ b.length

/-- Roles that must sign a kind in the state in force, one per block: true for the maker. DEBUG_UNLOCK is the owner's (DEDUCED, log 31).
None: the kind is not permitted (22 Table 22.2, R461, R468). -/
def tokRoles (state kind : Nat) : Option (List Bool) :=
  match kind with
  | 1 => if state = 0 then some [true] else none
  | 2 => if state = 1 then some [false] else none
  | 3 => if state = 2 then some [false, true] else none
  | 4 => if state = 0 ∨ state = 3 then some [true] else if state = 1 ∨ state = 2 then some [false] else none
  | 5 => if state = 2 then some [false] else none
  | 6 => if state = 0 ∨ state = 3 then some [true] else if state = 1 ∨ state = 2 then some [false] else none
  | _ => none

/-- MAGIC, NSIG and the zero fields are right. -/
def tokFormat (b : List (BitVec 8)) : Bool :=
  leAt b 0 4 == 0x4E4B544C && tokNsig b == (if tokKind b = 3 then 2 else 1) && leAt b 6 2 == 0 && leAt b 40 24 == 0

/-- The blocks of a token with the role of each. -/
def tokBlocks (s : State) (b : List (BitVec 8)) : List (Bool × List (BitVec 8)) :=
  let roles := (tokRoles (lcState s) (tokKind b)).getD []
  ((List.range roles.length).zip roles).map fun r => (r.2, tokSig b r.1)

/-- An owner slot of a kind is programmed. -/
def ownerKey (s : State) (ml : Bool) : Bool := [2, 3, 4, 5, 6, 7].any fun i => keyState s ml i == 1

/-- What a kind needs beside its signatures (22 R461, R464, R468). -/
def tokPrecond (s : State) (b : List (BitVec 8)) : Bool :=
  match tokKind b with
  | 2 => ownerKey s false && ownerKey s true
  | 5 => let d := subMod 48 (tokArg1 b) (frameOf s); decide (0 < d) && decide (d ≤ 2 ^ 32)
  | 6 => decide (fusedFloor s < tokFloor b)
  | _ => true

/-- Floor words in use (22 R461). -/
def floorsUsed (s : State) : Nat := (s.lcs.floors.filter (· != 0)).length

/-- The check that the token fails first (22 Table 22.5), 0 for none; of FUSE only that no floor word is empty. -/
def tokenCode (s : State) : Nat :=
  let b := s.lcs.bytes
  let signed := b.take 64
  if !tokFormat b then 1
  else if (tokRoles (lcState s) (tokKind b)).isNone then 2
  else if leAt b 8 8 ≠ s.lcs.devid.toNat then 3
  else if leAt b 16 8 ≠ s.lcs.nonce.toNat then 4
  else if (tokBlocks s b).any (fun r => !(sigKeyEOk s r.1 (!r.1) r.2 && sigKeyMOk s r.1 (!r.1) r.2)) then 5
  else if (tokBlocks s b).any (fun r => !sigEOk r.2 signed) then 6
  else if (tokBlocks s b).any (fun r => !sigMOk r.2 signed) then 7
  else if !tokPrecond s b then 8
  else if tokKind b = 6 ∧ 16 ≤ floorsUsed s then 9
  else 0

/-! The token's registers (22 R463). -/

/-- LCS_TSTAT.CODE; a code other than OK sets REFUSED and is notified. -/
def tokenStat (s : State) (code : Nat) : State :=
  let s1 := wrF s (aLcs 0x28) 15 8 code
  if code = 0 then setFlag s1 (aLcs 0x28) 0 else raiseG (setFlag s1 (aLcs 0x28) 1) 244 0x221 1 code

/-- The token ends with a code: a fresh nonce, nothing held. -/
def tokenEnd (s : State) (code : Nat) : State :=
  let f := takeFree s
  tokenStat (wrF { f.2 with lcs := { f.2.lcs with nonce := f.1, bytes := [], busy := false } } (aLcs 0x28) 3 3 0) code

/-- A write of 1 to LCS_TCTL.START: a token in progress goes on, and the new one ends BUSY. -/
def tokenStartWrite (s : State) : State :=
  if s.lcs.busy then tokenStat s 0x0A
  else wrF { s with lcs := { s.lcs with busy := true, bytes := [] } } (aLcs 0x28) 3 3 1

/-- TOKEN_START: CP or SEC writes START. -/
def execTokenStart (m : Master) (s : State) : Host.Outcome State Fault Refusal := answer s (if cpSec m then tokenStartWrite s else s)

/-- Eight bytes written to LCS_TDATA. -/
def tokenDataWrite (s : State) (v : Word) : State :=
  if !s.lcs.busy || tokWhole s.lcs.bytes then setFlag s (aLcs 0x28) 2
  else { s with lcs := { s.lcs with bytes := s.lcs.bytes ++ bytesOf 8 v.toNat } }

/-- TOKEN_DATA: CP or SEC writes eight token bytes. -/
def execTokenData (m : Master) (v : Word) (s : State) : Host.Outcome State Fault Refusal :=
  answer s (if cpSec m then tokenDataWrite s v else s)

/-- A write of 1 to LCS_TCTL.ABORT. -/
def tokenAbortWrite (s : State) : State := if s.lcs.busy then tokenEnd s 0x0B else s

/-- TOKEN_ABORT: CP or SEC writes ABORT before the checks have ended. -/
def execTokenAbort (m : Master) (s : State) : Host.Outcome State Fault Refusal := answer s (if cpSec m then tokenAbortWrite s else s)

/-- The whole token is held and its checks are due. -/
def tokenDue (s : State) : Bool := s.lcs.busy && tokWhole s.lcs.bytes

/-- The token held passes every check and is of a kind. -/
def tokenIs (s : State) (kind : Nat) : Bool := tokenDue s && tokenCode s == 0 && tokKind s.lcs.bytes == kind

/-- TOKEN_REFUSAL: the checks end with a code other than OK. -/
def execTokenRefusal (s : State) : Host.Outcome State Fault Refusal :=
  answer s (if tokenDue s && tokenCode s != 0 then tokenEnd s (tokenCode s) else s)

/-! Sessions (22 R468). -/

/-- A session that is open ends. -/
def sessionEnd (s : State) : State :=
  if s.lcs.session.isSome then raiseGFree { s with lcs := { s.lcs with session := none } } 244 0x223 0 else s

/-- DEBUG_UNLOCK: the accepted token opens a session in place of an open one; a mask bit for T3 is ignored. -/
def execDebugUnlock (s : State) : Host.Outcome State Fault Refusal :=
  answer s (
    if tokenIs s 5 then
      let b := s.lcs.bytes
      let mask := setBit (BitVec.ofNat 15 (tokArg0 b)) 3 false
      let s1 := tokenEnd s 0
      raiseG { s1 with lcs := { s1.lcs with session := some (mask, (tokArg0 b).testBit 16, (tokArg0 b).testBit 17, tokArg1 b) } } 244 0x222 1
        mask.toNat
    else s)

/-- RELOCK: CP or SEC writes 1 to LCS_CTL.RELOCK. -/
def execRelock (m : Master) (s : State) : Host.Outcome State Fault Refusal := answer s (if cpSec m then sessionEnd s else s)

/-- The session's expiry frame has come. -/
def sessionOver (s : State) : State :=
  match s.lcs.session with
  | some q => if frameGe (frameOf s) q.2.2.2 then sessionEnd s else s
  | none => s

/-- SESSION_EXPIRE: the gate tick of the expiry frame. -/
def execSessionExpire (s : State) : Host.Outcome State Fault Refusal := answer s (sessionOver s)

/-! Transitions (22 R464, Table 22.6). -/

/-- The last step: the session ends, the transition is notified with the new state, and a cold reset is requested. -/
def transitionDone (s : State) : State :=
  let s1 := raiseG (sessionEnd (tokenEnd s 0)) 244 0x220 0 (lcState s)
  coldReset s1 5

/-- TO_PROVISION: journal slot A is filled, F1 blown. `fuseOk`: F1 reads back. -/
def execToProvision (fuseOk : Bool) (s : State) : Host.Outcome State Fault Refusal :=
  answerFuse s (
    if tokenIs s 1 then
      let s1 := fillJrnA s
      if fuseOk then transitionDone { s1 with lcs := { s1.lcs with fuse := { s1.lcs.fuse with f1 := true } } } else tokenEnd s1 9
    else s)

/-- TO_FIELD: F2 is blown. -/
def execToField (fuseOk : Bool) (s : State) : Host.Outcome State Fault Refusal :=
  answerFuse s (
    if tokenIs s 2 then
      if fuseOk then transitionDone { s with lcs := { s.lcs with fuse := { s.lcs.fuse with f2 := true } } } else tokenEnd s 9
    else s)

/-- TO_RETURN: intent fuse, wipes, journal slot B, F3. -/
def execToReturn (fuseOk : Bool) (s : State) : Host.Outcome State Fault Refusal :=
  answerFuse s (
    if tokenIs s 3 then
      let s1 := returnWipes { s with lcs := { s.lcs with fuse := { s.lcs.fuse with ir := true } } }
      if fuseOk then transitionDone { s1 with lcs := { s1.lcs with fuse := { s1.lcs.fuse with f3 := true } } } else tokenEnd s1 9
    else s)

/-- TO_SCRAP: intent fuse, wipes, every field not yet blown. -/
def execToScrap (fuseOk : Bool) (s : State) : Host.Outcome State Fault Refusal :=
  answerFuse s (
    if tokenIs s 4 then
      let s1 := scrapWipes { s with lcs := { s.lcs with fuse := { s.lcs.fuse with is := true } } }
      if fuseOk then transitionDone { s1 with lcs := { s1.lcs with fuse := { s1.lcs.fuse with f1 := true, f2 := true, f3 := true, f4 := true } } } else tokenEnd s1 9
    else s)

/-- FLOOR: the value goes into the next empty word, and IMG_FLOOR takes it when it is larger (22 R461). No reset. -/
def execFloor (fuseOk : Bool) (s : State) : Host.Outcome State Fault Refusal :=
  answer s (
    if tokenIs s 6 then
      if fuseOk then
        let v := tokFloor s.lcs.bytes
        let s1 := { s with lcs := { s.lcs with floors := s.lcs.floors.take (floorsUsed s) ++ [BitVec.ofNat 48 v] } }
        tokenEnd (wr s1 (aImg 0x30) (BitVec.ofNat 64 (max v (rdF s (aImg 0x30) 47 0)))) 0
      else tokenEnd s 9
    else s)

/-! Key programming (22 R458). -/

/-- The slot named may be programmed by the master. -/
def keyMay (s : State) (m : Master) (ml : Bool) (i : Nat) : Bool :=
  keyState s ml i == 0 && (if makerSlot i then lcState s == 0 else lcState s == 1) &&
    (cpSec m || (m == .dbg && makerSlot i && lcState s == 0))

/-- A write of LCS_KPROG. `fuseOk`: the slot reads back equal to LCS_KBUF. -/
def keyWrite (s : State) (m : Master) (v : Nat) (fuseOk : Bool) : State :=
  let ml := v.testBit 8
  let i := v % 8
  if !v.testBit 31 then s
  else if !keyMay s m ml i then setFlag s (aLcs 0x50) 32
  else if fuseOk then setKey s ml i s.lcs.kbuf
  else setFlag (setKey s ml i keyWiped) (aLcs 0x50) 33

/-- KEY_PROGRAM: a master writes LCS_KPROG. -/
def execKeyProgram (m : Master) (v : BitVec 32) (fuseOk : Bool) (s : State) : Host.Outcome State Fault Refusal :=
  answer s (keyWrite s m v.toNat fuseOk)

/-! Test access (22 R466, R467). -/

/-- The test port's instruction is allowed in the state in force (22 Table 22.7). -/
def jtagMay (s : State) (op : JtagOp) : Bool :=
  match op with
  | .idcode | .bypass => true
  | .samplePreload =>
    (match lcState s with | 2 => s.lcs.session.any (fun q => q.2.1) | 4 => false | _ => true)
  | .extest => lcState s == 0 || lcState s == 1 || lcState s == 3
  | .otherInstr | .scan => lcState s == 0 || lcState s == 3
  | .memRepair => lcState s == 0 || lcState s == 1 || lcState s == 3
  | .mbist k i =>
    (match lcState s with
     | 2 => s.lcs.session.any (fun q => q.2.2.1) && regionOf s k.toNat i.toNat == 3
     | 4 => false | _ => true)

/-- An instruction that disturbs the logic it reaches (22 R467). -/
def disturbs (op : JtagOp) : Bool := op == .scan || op == .extest

/-- A scan or EXTEST has ended: a cold reset, whose cause code the manual does not give (log 1). -/
def testReset (s : State) : State := coldReset (takeFree s).2 ((takeFree s).1.toNat % 8)

/-- JTAG_INSTRUCTION: an instruction runs, or selects bypass where the state forbids it; one that replaces a scan or EXTEST ends it. -/
def execJtagInstruction (op : JtagOp) (s : State) : Host.Outcome State Fault Refusal :=
  answer s (
    let s1 := if disturbs s.lcs.jtag && s.lcs.jtag != op then testReset s else s
    { s1 with lcs := { s1.lcs with jtag := if jtagMay s1 op then op else .bypass } })

/-- TEST_SCAN_END: the IEEE 1500 scan or the EXTEST that runs ends. -/
def execTestScanEnd (extest : Bool) (s : State) : Host.Outcome State Fault Refusal :=
  answer s (if s.lcs.jtag = (if extest then JtagOp.extest else JtagOp.scan) then testReset s else s)

end Sys2Proof.Machine
end

