-- ==== Sys2Proof/Machine/Counters.lean ====
section
/-! DEFINITION. The global snapshot and the threshold comparators (20 R430 to R432, R435). Counting itself is in Ops. -/

namespace Sys2Proof.Machine

/-- A write of CNT_SNAP_CTL (20 R430): with ARM the snapshot is armed for TICK, or for the frame after the next where TICK is
earlier; a later arm replaces an earlier one. -/
def snapWrite (s : State) (v : Word) : State :=
  let s1 := wr s (aCnt 8) (v &&& 0x1FFFFFFFFFFFF#64)
  if !bitOf v 48 then s1
  else
    let soon := (frameOf s + 2) % 2 ^ 48
    let t := fld v 47 0
    if frameGe t soon then { s1 with cnt := { s1.cnt with armed := some t } }
    else setFlag { s1 with cnt := { s1.cnt with armed := some soon } } (aCnt 0) 1

/-- CNT_SNAP_CTL: the register is written. -/
def execCntSnapCtl (v : Word) (s : State) : Host.Outcome State Fault Refusal := answer s (snapWrite s v)

/-- The snapshot armed is taken at its gate tick (20 R430): every shadow word takes its live word. -/
def snapTake (s : State) : State :=
  match s.cnt.armed with
  | some t =>
    if frameGe (frameOf s) t then
      let s1 := { s with
        regs := s.regs.filter fun p => !(decide (0x480000 ≤ p.1) && decide (p.1 < 0x492A00))
        cnt := { armed := none, taken := some t } }
      (s.regs.filter fun p => isLive p.1).foldl (fun u p => wr u (p.1 + 0x70000) p.2) s1
    else s
  | none => s

/-- COUNTER_SNAPSHOT: the gate tick the snapshot is armed for. -/
def execCounterSnapshot (s : State) : Host.Outcome State Fault Refusal := answer s (snapTake s)

/-- SNAPSHOT_DONE: every shadow word holds its value (20 R431). -/
def execSnapshotDone (s : State) : Host.Outcome State Fault Refusal :=
  answer s (match s.cnt.taken with
    | some t =>
      let seq := (rdF s (aCnt 0x10) 63 48 + 1) % 2 ^ 16
      let s1 := wr { s with cnt := { s.cnt with taken := none } } (aCnt 0x10) (BitVec.ofNat 64 (seq <<< 48 ||| t))
      raiseG (setFlag s1 (aCnt 0) 0) 247 0x201 0 t
    | none => s)

/-- A write of CNT_THR_CFG[j] (20 Table 20.9): FIRED clears where 1 is written. -/
def thrWrite (s : State) (j : Nat) (v : Word) : State :=
  let fired := bitOf (rd s (aThr j)) 62 && !bitOf v 62
  wr s (aThr j) (setBit (v &&& 0xB000000000003FFF#64) 62 fired)

/-- CNT_THR_CFG: the configuration of comparator j is written. -/
def execCntThrCfg (j : BitVec 6) (v : Word) (s : State) : Host.Outcome State Fault Refusal := answer s (thrWrite s j.toNat v)

end Sys2Proof.Machine
end

