-- ==== Sys2Proof/Machine/RegRead.lean ====
section
/-! DEFINITION. Reading the register map (23 R473 to R477, R483, and the register tables of every chapter): the words that the units
compute, and the accesses that a unit does not answer. -/

namespace Sys2Proof.Machine

/-- A word whose bit i holds f i. -/
def bitsW (f : Nat → Bool) : Word := BitVec.ofNat 64 ((List.range 64).foldl (fun a i => if f i then a ||| 1 <<< i else a) 0)

/-! The error summary and the interrupt outputs (23 R477, R481). -/

/-- Some W1C flag of NI n is set (23 R477). -/
def niFlagged (s : State) (n : Nat) : Bool :=
  fld (rd s (aNi n 0x08)) 6 3 != 0 ||
    [0x40, 0x80, 0xC0, 0x100, 0x1C00, 0x1C80].any fun off => rd s (aNi n off) != 0
/-- GLB_ERR_RTE. -/
def errRte (s : State) : Word := bitsW fun x => isRtr s x && (rd s (aRtr x 0x10) != 0 || rd s (aRtr x 0xC8) != 0)
/-- GLB_ERR_NI[w]. -/
def errNi (s : State) (w : Nat) : Word := bitsW fun j => isNi s (64 * w + j) && niFlagged s (64 * w + j)
/-- GLB_ERR_SPN. -/
def errSpn (s : State) : Word := bitsW fun p => isSpan s p && rd s (aSpn p 0x18) != 0
/-- GLB_ERR_SLT. -/
def errSlt (s : State) : Word := bitsW fun n => slotHas s n && rd s (aNi n 0x1F18) != 0

/-- GLB_ERR_SUM (23 Table 23.5). -/
def errSum (s : State) : Word :=
  bitsW fun b => match b with
    | 0 => rdF s (aTim 0x40) 5 0 != 0
    | 1 => rdF s (aPwr 0x18) 3 1 != 0
    | 2 => bitOf (rd s (aImg 0x08)) 1
    | 3 => rdF s (aJrn 0x08) 4 2 != 0 || bitOf (rd s (aJrn 0x08)) 6
    | 4 => rd s 0x1E00000 != 0
    | 5 => rd s (aMmx 0) != 0
    | 6 => rd s 0x500 != 0
    | 7 => bitOf (rd s (aCnt 0)) 2
    | 8 => errSpn s != 0
    | 9 => errRte s != 0
    | 10 => errNi s 0 != 0 || errNi s 1 != 0
    | 11 => rd s (aEng 0) != 0 || (List.range 16).any fun q => bitOf (rd s (aEng (0x138 + 0x40 * q))) 8
    | 12 => bitOf (rd s (aLcs 0x28)) 1
    | 13 => errSlt s != 0
    | _ => false

/-- The level of interrupt output d (23 R481). -/
def irqOut (s : State) (d : Nat) : Bool :=
  (rd s 0x100 &&& rd s (0x200 + 0x10 * d)) != 0 || (errSum s &&& rd s (0x208 + 0x10 * d)) != 0

/-! Computed words, block by block. -/

/-- GLB (23 Table 23.4; 17 Table 17.7; 18 Table 18.11). -/
def glbRead (s : State) (off : Nat) : Word :=
  match off with
  | 0x000 => 0x4B040100#64
  | 0x008 => BitVec.ofNat 64 (profileWord s)
  | 0x010 => BitVec.ofNat 64 (capWord s)
  | 0x018 => BitVec.ofNat 64 genVerWord
  | 0x020 => errSum s
  | 0x028 => errRte s
  | 0x030 => errNi s 0
  | 0x038 => errNi s 1
  | 0x040 => errSpn s
  | 0x048 => errSlt s
  | 0x120 => (mgetD s.ntf.last (rdF s 0x118 5 0) (0, 0)).1
  | 0x128 => (mgetD s.ntf.last (rdF s 0x118 5 0) (0, 0)).2
  | 0x250 => bitsW fun d => decide (d < 5) && irqOut s d
  | 0x418 => bitsW fun j => (getNi s j).inRst
  | 0x420 => bitsW fun j => (getNi s (64 + j)).inRst
  | 0x438 => rd s 0x438 ||| packW [(0, s.rst.initDone.toNat), (1, (s.rst.warm != 0).toNat)]
  | 0x530 => (s.flt.log.getD (rdF s 0x528 5 0) (0, 0)).2
  | 0x538 => (s.flt.log.getD (rdF s 0x528 5 0) (0, 0)).1
  | _ => rd s off

/-- TIM (02 Table 02.6). -/
def timRead (s : State) (off : Nat) : Word :=
  match off with
  | 0x008 => BitVec.ofNat 64 (nowNs s)
  | 0x010 => BitVec.ofNat 64 s.time.fracLatch.toNat
  | 0x018 => BitVec.ofNat 64 (frameOf s)
  | 0x030 => packW [(0, slewRead s), (32, rdF s (aTim 0x30) 63 32)]
  | _ => rd s (aTim off)

/-- PWR (16 Tables 16.12 to 16.14). -/
def pwrRead (s : State) (off : Nat) : Word :=
  match off with
  | 0x008 => packW [(62, s.pwr.lvl.toNat), (61, s.pwr.cur.isSome.toNat), (60, s.pwr.pend.isSome.toNat), (59, s.pwr.vwait.toNat),
      (56, (s.pwr.cur.map (·.phase)).getD 0 % 8), (24, (s.pwr.cur.map (·.req.toNat)).getD 0), (0, (s.pwr.pend.map (·.toNat)).getD 0)]
  | 0x028 => packW [(0, s.pwr.vid.toNat), (8, s.pwr.pgood.toNat)]
  | 0x038 => packW ((List.range 8).map (fun c => (2 * c, regionOf s 0 c)) ++ (List.range 8).map fun b => (16 + 2 * b, regionOf s 1 b))
  | 0x040 | 0x048 | 0x050 | 0x058 => packW ((List.range 32).map fun j => (2 * j, regionOf s 2 (32 * ((off - 0x40) / 8) + j)))
  | _ => rd s (aPwr off)

/-- LCS (22 Tables 22.9 and 22.10). -/
def lcsRead (s : State) (off : Nat) : Word :=
  if 0x100 ≤ off ∧ off < 0x280 then (keySlot s false ((off - 0x100) / 0x30)).extractLsb' (8 * ((off - 0x100) % 0x30)) 64
  else if 0x400 ≤ off ∧ off < 0x580 then (keySlot s true ((off - 0x400) / 0x30)).extractLsb' (8 * ((off - 0x400) % 0x30)) 64
  else match off with
  | 0x000 => packW [(0, lcState s), (4, s.lcs.fuse.ir.toNat), (5, s.lcs.fuse.is.toNat)]
  | 0x008 => s.lcs.devid
  | 0x010 => s.lcs.nonce
  | 0x030 => match s.lcs.session with
    | some q => packW [(63, 1), (49, q.2.2.1.toNat), (48, q.2.1.toNat), (0, q.2.2.2 % 2 ^ 48)]
    | none => 0
  | 0x038 => match s.lcs.session with | some q => BitVec.ofNat 64 q.1.toNat | none => 0
  | 0x048 => packW [(48, min 15 (floorsUsed s)), (0, fusedFloor s)]
  | 0x050 => rd s (aLcs 0x50) ||| packW ((List.range 8).map (fun i => (2 * i, keyState s false i)) ++
      (List.range 8).map fun i => (16 + 2 * i, keyState s true i))
  | _ => rd s (aLcs off)

/-- MMX_TST[t] (19 Table 19.10). -/
def mmxTst (s : State) (t : Nat) : Word :=
  let g := mgetD s.mmx.tgts t {}
  packW [(8, g.park.isSome.toNat), (5, (g.park.map (·.toNat)).getD 0), (4, g.locked.isSome.toNat), (1, (g.locked.map (·.toNat)).getD 0)]

/-- A span port's block (12 Tables 12.11 and 12.12). -/
def spnRead (s : State) (p off : Nat) : Word :=
  let q := getSpan s p
  if 0x080 ≤ off ∧ off < 0x0A8 then
    let a := spanAtt s p
    let inPool (k : Nat) : Nat := (mgetD q.pools (16 * (k / 5) + k % 5 + 1) []).length +
      ((mgetD (planeOf (getRtr s a.1) (if k < 5 then .req else .rsp)).link a.2 []).filter fun f =>
        rxPool (if k < 5 then .req else .rsp) f.msg == some k).length
    let crd (k : Nat) : Nat := mgetD q.credits k 0 <<< 16 ||| inPool k
    packW [(0, crd ((off - 0x80) / 4)), (32, crd ((off - 0x80) / 4 + 1))]
  else match off with
  | 0x000 => BitVec.ofNat 64 (spnNode s p).toNat
  | 0x020 => packW [(29, q.lstate.toNat), (27, q.width.toNat), (26, q.lead.toNat), (23, q.cause.toNat), (11, q.replay.length), (0, q.rob.length)]
  | 0x028 => packW [(48, q.txNext.toNat), (32, ((q.replay.head?.map (·.seq)).getD q.txNext).toNat), (16, q.rxNext.toNat)]
  | 0x070 => BitVec.ofNat 64 ((mgetD q.pools 0 []).length + (mgetD q.pools 16 []).length + (q.staging.map fun g => 1 + g.1.data.length).sum +
      (q.pst.staged.map fun g => 1 + g.msg.data.length).sum)
  | _ => rd s (aSpn p off)

/-- The calendar entries that RTE_PST_IDX selects from (06 Table 06.13): of one output and plane, active or standby; with SHADOW as
they stand from the pending tick on. An entry's index is its place in the list (DESIGN CHOICE, log 36: 06 R149 does not say which index an
entry takes). -/
def calEntries (s : State) (x : Nat) : List Preset :=
  let w := rd s (aRtr x 0x50)
  let now := (getRtr s x).presets
  let due (st : Nat) (f : BitVec 12) : Bool := (mget s.eng.flows f.toNat).any fun g => g.state == st
  let all := if bitOf w 17 then
      (now.filter fun e => !due 3 e.flow) ++ (s.eng.flows.filter fun q => q.2.state == 1).flatMap fun q =>
        ((flowPresets s q.1 q.2).filter fun e => e.1 == x).map (·.2)
    else now
  all.filter fun e => (e.plane == if bitOf w 15 then Plane.rsp else Plane.req) && e.out == fld w 14 11 && e.case.isSome == bitOf w 16

/-- A gather entry as RTE_GTH_DATA shows it (10 Table 10.6). -/
def gatherWord (g : Gather) : Word :=
  packW [(63, 1), (51, g.orig.toNat), (41, g.tag.toNat), (37, g.parent.toNat), (27, g.child.toNat), (17, g.done.toNat), (9, g.gcnt.toNat),
    (5, g.stat.toNat), (3, g.st.toNat)]

/-- RTE_WS_MAP of the link selected (18 Table 18.9). -/
def wireMap (s : State) (x : Nat) : Word :=
  match wsInput s x with
  | some (y, port, far) => packW ((List.range 8).map fun g =>
      match (mgetD (rxOf s y port far).wires (wireKey (wsPlane s x) (rxPort s y port far) g) {}).steered with
      | some w => (8 * g, 128 + w % 128) | none => (8 * g, 0))
  | none => 0

/-- A router's block (05 Table 05.11; 06 Tables 06.12 and 06.13; 10 R230; 18 R408). -/
def rtrRead (s : State) (x off : Nat) : Word :=
  let r := getRtr s x
  match off with
  | 0x000 => packW [(0, 136 + x), (8, rtrCol s x), (11, rtrRow s x)]
  | 0x058 =>
    match (calEntries s x)[rdF s (aRtr x 0x50) 7 0]? with
    | some e => packW [(40, e.case.getD 0), (39, 1), (32, e.group), (27, e.lag), (23, e.inp), (0, e.flow.toNat)]
    | none => 0
  | 0x060 =>
    let w := rd s (aRtr x 0x50)
    let l := r.presets.filter fun e => (e.plane == if bitOf w 15 then Plane.rsp else Plane.req) && e.out == fld w 14 11
    packW [(16, (l.filter fun e => e.case.isSome).length), (0, (l.filter fun e => e.case.isNone).length % 128)]
  | 0x078 => match caseNow s with | some y => BitVec.ofNat 64 (64 + y) | none => 0
  | 0x088 => match mget r.gather (rdF s (aRtr x 0x80) 7 0) with | some g => gatherWord g | none => 0
  | 0x090 => BitVec.ofNat 64 r.gather.length
  | 0x0B8 => wireMap s x
  | 0x0C0 => match wsInput s x with
    | some (y, port, far) => BitVec.ofNat 64 (mgetD (rxOf s y port far).wsCnt (linkKey (wsPlane s x) (rxPort s y port far)) 0)
    | none => 0
  | _ => rd s (aRtr x off)

/-- A queue's words (07 Table 07.5). -/
def queueRead (s : State) (n q k : Nat) : Word :=
  let u := getQ (getNi s n) q
  match k with
  | 0x18 => packW [(31, (halfActive s n .req q).toNat), (30, (halfActive s n .rsp q).toNat), (29, u.gotQ.toNat), (28, u.gotS.toNat), (27, u.wheel.isSome.toNat),
      (16, u.rsp.length), (8, u.reqIds.length)]
  | 0x20 => packW [(32, u.defS), (0, u.defQ)]
  | 0x28 => packW [(32, u.tElig / 256 % 2 ^ 32), (0, unsignedOf 26 (creditNow s n q))]
  | _ => rd s (aNi n (0xC00 + 0x40 * q + k))

/-- NI_SLC_ST[k] (11 Table 11.6). -/
def slcStat (s : State) (n k : Nat) : Word :=
  let i := getNi s n
  packW [(24, (slcGen s n k).toNat), (23, (slcAct s n k).toNat), (22, (slcRst s n k).toNat),
    (21, (decide (trkShare s n < trkUsed i k)).toNat), (20, (decide (pwShare s n < pwUsed i k)).toNat), (7, trkUsed i k), (0, pwUsed i k)]

/-- A window as NI_DW_DATA shows it (09 Table 09.6). -/
def winRead (w : Window) (k : Nat) : Word :=
  match k with
  | 0 => packW [(62, w.kind.toNat), (61, w.rtype.toNat), (56, w.set.toNat), (40, w.target.toNat), (0, w.base.toNat)]
  | 1 => packW [(48, w.slices.toNat), (0, w.limit.toNat)]
  | _ => BitVec.ofNat 64 w.fabase.toNat

/-- The TBT row that NI_TBT_IDX selects (09 Table 09.6). -/
def tbtRead (s : State) (n : Nat) : Word :=
  let j := rdF s (aNi n 0x1C48) 12 0
  match (getNi s n).dec.tbt.find? fun p => p.1 % 1024 == j / 8 && p.2.way == j % 8 with
  | some p => packW [(63, 1), (57, p.2.tag.toNat), (49, p.2.gen.toNat), (40, p.1 / 1024), (0, p.2.dpa.toNat)]
  | none => 0

/-- The slot's word (21 Table 21.6). -/
def sltStat (q : SlotSt) : Word :=
  packW [(16, q.perm.toNat), (12, q.result.toNat), (8, q.cause.toNat), (6, q.fcnt.toNat), (4, q.feed.toNat), (3, q.preq.toNat), (0, q.state.toNat)]

/-- An NI's block (03 R62; 06 R149; 07 R170; 08 R192; 09 R212; 10 R230; 11 R251; 21 R454). -/
def niRead (s : State) (n off : Nat) : Word :=
  let i := getNi s n
  if 0xC00 ≤ off ∧ off < 0x1C00 then queueRead s n ((off - 0xC00) / 0x40) ((off - 0xC00) % 0x40)
  else if 0x200 ≤ off ∧ off < 0x400 ∧ off % 0x20 = 8 then slcStat s n ((off - 0x200) / 0x20)
  else match off with
  | 0x008 => rd s (aNi n 8) ||| packW [(0, i.port.up.toNat), (1, i.port.inEp.toNat), (2, i.port.tbValid.toNat)]
  | 0x010 => packW [(24, i.port.erqDB), (16, i.port.erqHB), (8, i.port.erqDG), (0, i.port.erqHG)]
  | 0x018 => packW [(24, i.port.ersDB), (16, i.port.ersHB), (8, i.port.ersDG), (0, i.port.ersHG)]
  | 0x098 => packW [(16, stagedFlits i.pst .rsp), (0, stagedFlits i.pst .req)]
  | 0x0A0 => packW [(28, i.pst.inc.toNat), (16, (i.trk.filter fun e => e.2.flow.isSome).length),
      (0, ((List.range 64).map fun e => if seState (srcEnt s n e) = 0 then 0 else seTrk (srcEnt s n e)).sum)]
  | 0x0D0 => packW [(32, i.sched.roundS.toNat), (0, i.sched.roundQ.toNat)]
  | 0x0E0 => BitVec.ofNat 64 (quarCount i)
  | 0x108 => packW [(23, (ovsBusy i).toNat), (8, pwShare s n), (0, pwTotal i)]
  | 0x170 => ((getSlice i (rdF s (aNi n 0x168) 7 4)).log.getD (rdF s (aNi n 0x168) 2 0) (0, 0)).2
  | 0x178 => ((getSlice i (rdF s (aNi n 0x168) 7 4)).log.getD (rdF s (aNi n 0x168) 2 0) (0, 0)).1
  | 0x1C20 => winRead (mgetD i.dec.windows (rdF s (aNi n 0x1C18) 7 0) {}) 0
  | 0x1C28 => winRead (mgetD i.dec.windows (rdF s (aNi n 0x1C18) 7 0) {}) 1
  | 0x1C30 => winRead (mgetD i.dec.windows (rdF s (aNi n 0x1C18) 7 0) {}) 2
  | 0x1C38 => packW [(16, i.dec.fills.length), (0, i.dec.etc.length)]
  | 0x1C50 => tbtRead s n
  | 0x1C90 => BitVec.ofNat 64 i.members.length
  | 0x1CA0 => match mget i.dec.bgt (rdF s (aNi n 0x1C98) 7 0) with
    | some b => packW [(63, 1), (62, b.mc.toNat), (44, b.tgt.toNat), (25, b.x.toNat), (0, b.dpa.toNat)]
    | none => 0
  | 0x1F10 => sltStat i.slot
  | 0x1F30 => if i.slot.state = 6 then BitVec.ofNat 64 (i.slot.retryEnd % 2 ^ 48) else 0
  | _ => rd s (aNi n off)

/-- ENG_E_STAT and ENG_E_DEQ of engine g (13 Table 13.11). -/
def engineRead (s : State) (g off : Nat) : Word :=
  let b := g / 9
  match (List.range 8).find? fun j => slotPos s (8 * b + j) == some (g % 9) with
  | some j =>
    let e := getSlot s (8 * b + j)
    if off = 0 then packW [(8, if s.eng.failedE.contains g then 3 else if e.running.isSome then 1 else if e.parked then 2 else 0), (4, j)]
    else BitVec.ofNat 64 e.deque.length
  | none => if off = 0 ∧ s.eng.failedE.contains g then 0x300#64 else 0

/-- ENG (13 R301). -/
def engRead (s : State) (off : Nat) : Word :=
  if 0x1000 ≤ off ∧ off % 0x20 < 0x10 then engineRead s ((off - 0x1000) / 0x20) (off % 0x20)
  else if off = 0x80 then packW [(16, s.eng.admQ.length), (0, s.eng.ctlQ.length)]
  else if 0x100 ≤ off ∧ off < 0x500 ∧ off % 0x40 = 0x38 then rd s (aEng off) ||| BitVec.ofNat 64 (ringBusy s ((off - 0x100) / 0x40))
  else rd s (aEng off)

/-- EBT_CNT[k] (14 Table 14.10). -/
def ebtCount (s : State) (k : Nat) : Nat :=
  let c := ((ebtListed s).filter fun x => (ebtGet s x).st == k).length
  if k = 0 then nExtents s - (ebtListed s).length + c else c

/-- The EBT window beside its entries (14 R323). -/
def ebtWin (s : State) (a : Nat) : Word :=
  if 0x1E00040 ≤ a ∧ a < 0x1E00068 then BitVec.ofNat 64 (ebtCount s ((a - 0x1E00040) / 8))
  else if a = 0x1E00080 then BitVec.ofNat 64 (grantsValid s).length
  else rd s a

/-- The word at an 8-byte-aligned address of the map, as its unit answers it; what no rule computes is the stored word, with the
RW/T bits as they will apply (00 R7). -/
def wordAt (s : State) (a : Nat) : Word :=
  if a < 0x10000 then glbRead s a
  else if a < 0x11000 then timRead s (a - 0x10000)
  else if a < 0x12000 then pwrRead s (a - 0x11000)
  else if a < 0x13000 then lcsRead s (a - 0x12000)
  else if a < 0x14000 then (if a = 0x13018 then BitVec.ofNat 64 s.img.bytes.length else rd s a)
  else if 0x14200 ≤ a ∧ a < 0x14278 then mmxTst s ((a - 0x14200) / 8)
  else if a = 0x18030 then BitVec.ofNat 64 s.jrn.ring.length
  else if 0x20000 ≤ a ∧ a < 0x30000 then spnRead s ((a - 0x20000) / 0x2000) ((a - 0x20000) % 0x2000)
  else if 0x100000 ≤ a ∧ a < 0x140000 then rtrRead s ((a - 0x100000) / 0x1000) ((a - 0x100000) % 0x1000)
  else if 0x200000 ≤ a ∧ a < 0x300000 then niRead s ((a - 0x200000) / 0x2000) ((a - 0x200000) % 0x2000)
  else if 0x800000 ≤ a ∧ a < 0x1000000 then engRead s (a - 0x800000)
  else if 0x1E00000 ≤ a ∧ a < 0x2000000 then ebtWin s a
  else rd s a

/-- Bits of a word that registers hold (23 R473). -/
def partMask (l : List (Nat × Nat)) : Word := BitVec.ofNat 64 (l.foldl (fun a p => a ||| (2 ^ (8 * p.2) - 1) <<< (8 * p.1)) 0)

/-- A word as it reads (00 R5, R7; 23 R473, R475): an absent unit and bytes of no register read 0. -/
def readWord (s : State) (a : Nat) : Word :=
  let f := regInfo a
  if !unitThere s a then 0
  else
    let t := BitVec.ofNat 64 f.rwt
    ((wordAt s a &&& ~~~t) ||| (pendRd s a &&& t)) &&& partMask f.parts

/-- A read beat: its word, and what the read does. A read of TIM_NOW latches the fraction (02 R40); a bank corrects or repairs what it
reads (14 R308). -/
def readBeat (s : State) (a : Nat) : Word × State :=
  if a = 0x10008 then (readWord s a, { s with time := { s.time with fracLatch := s.time.t.extractLsb' 0 32 } })
  else if 0x1000000 ≤ a ∧ a < 0x1800000 ∧ unitThere s a then
    let r := ebtRead s ((a - 0x1000000) / 16)
    (r.1.extractLsb' (8 * (a % 16)) 64, r.2)
  else (readWord s a, s)

/-! Accesses that are not answered (17 R374, 19 R415, 20 R428). -/

/-- The region's clock runs: it is ON, or in a wake whose clock has started. -/
def regionAnswers (s : State) (kind i : Nat) : Bool :=
  regionOf s kind i == 0 ||
    (match s.pwr.cur with
     | some q => reqAction q.req == 4 && q.phase == 7 && reqKind q.req == kind && reqIndex q.req == i
     | none => false)

/-- The access lies in a region that does not answer (19 R415), or is a live word of a failed router (20 R428). -/
def asleep (s : State) (a : Nat) : Bool :=
  (match regionHolding s a with | some r => !regionAnswers s r.1 r.2 | none => false) ||
    (isLive a && isRtr s ((a - 0x410000) / 256) && (getRtr s ((a - 0x410000) / 256)).failed)

/-- Before INIT_DONE only GLB, TIM, PWR and LCS answer (17 R374). -/
def notReady (s : State) (a : Nat) : Bool := !s.rst.initDone && decide (0x13000 ≤ a)

end Sys2Proof.Machine
end

