-- ==== Sys2Proof/Machine/Registers.lean ====
section
/-! DEFINITION. Writing the register map (00 R5 to R10; 23 R473, R475) by a master or by a management message, and the management reads
and writes that reach a unit over the fabric (05 R99, 09 R200). -/

namespace Sys2Proof.Machine

/-- The state an outcome leads to: that of a next state. -/
def nextOf (o : Host.Outcome State Fault Refusal) (s : State) : State := match o with | .next t => t | _ => s

/-- Number of a master (19 Table 19.1). -/
def masterNo (m : Master) : Nat :=
  match m with | .cp => 0 | .sec => 1 | .fm => 2 | .dbg => 3 | .pwr => 4 | .hst0 => 5 | .hst1 => 6 | .img => 7

/-! Who may write what. -/

/-- The master that interrupt output d serves (23 R481). -/
def irqMaster (d : Nat) : Master := match d with | 0 => .cp | 1 => .sec | 2 => .pwr | 3 => .hst0 | _ => .hst1

/-- Only the CP master may write the word: GLB_RST_CTL, GLB_RST_NI, GLB_FLT_DECL, GLB_FLT_RESTORE, IMG_CTL, IMG_DATA, SLT_CTL (17 R383; 18
R408; 15 R330; 21 R451). -/
def cpOnly (a : Nat) : Bool :=
  a == 0x400 || a == 0x408 || a == 0x410 || a == 0x510 || a == 0x518 || a == 0x13000 || a == 0x13010 ||
    (decide (0x200000 ≤ a) && decide (a < 0x300000) && a % 0x2000 == 0x1F08)

/-- The master may write the word. -/
def mayWrite (s : State) (m : Master) (a : Nat) : Bool :=
  if cpOnly a then m == .cp
  else if 0x200 ≤ a ∧ a < 0x250 then m == .cp || m == irqMaster ((a - 0x200) / 0x10)
  else if a = 0x11000 then pwrMay s m
  else if 0x12000 ≤ a ∧ a < 0x13000 then
    cpSec m || (m == .dbg && lcState s == 0 && decide (0x12080 ≤ a) && decide (a ≤ 0x120B0))
  else if 0x14100 ≤ a ∧ a < 0x14178 then cpSec m
  else true

/-! The write of a word. -/

/-- The access codes (00 R7): RW bits take the value, W1C bits clear where 1 is written, RW/T bits wait for the next tick. -/
def plainWrite (s : State) (a : Nat) (v mask : Word) : State :=
  let f := regInfo a
  let rw := BitVec.ofNat 64 f.rw &&& mask
  let w1c := BitVec.ofNat 64 f.w1c &&& mask
  let rwt := BitVec.ofNat 64 f.rwt &&& mask
  let s1 := wr s a ((rd s a &&& ~~~rw &&& ~~~(w1c &&& v)) ||| (v &&& rw))
  if rwt = 0 then s1 else pendWord s1 a ((pendRd s a &&& ~~~rwt) ||| (v &&& rwt))

/-- Word w of LCS_KBUF (22 R458). -/
def kbufWrite (s : State) (w : Nat) (v : Word) : State :=
  { s with lcs := { s.lcs with kbuf :=
      (s.lcs.kbuf &&& ~~~(BitVec.ofNat 384 (0xFFFFFFFFFFFFFFFF <<< (64 * w)))) ||| BitVec.ofNat 384 (v.toNat <<< (64 * w)) } }

/-- What a write of a ring's word does (13 Table 13.12). -/
def ringWrite (s : State) (q k : Nat) (v mask : Word) : State :=
  let b := BitVec.ofNat 4 q
  match k with
  | 0x18 => nextOf (execRingPiWrite b (v.extractLsb' 0 12) s) s
  | 0x28 => nextOf (execRingRciWrite b (v.extractLsb' 0 12) s) s
  | 0x30 =>
    let s1 := if bitOf v 1 then nextOf (execRingReset b s) s else s
    if bitOf v 0 then nextOf (execRingResume b s1) s1 else s1
  | _ => plainWrite s (aEng (0x100 + 0x40 * q + k)) v mask

/-- The word of an NI's block that has an action of its own, or none. -/
def niWrite (s : State) (n off : Nat) (v mask : Word) : State :=
  match off with
  | 0x150 => nextOf (execNiSlcRst (BitVec.ofNat 7 n) (v.extractLsb' 0 16) s) s
  | 0x1C40 => if bitOf v 0 then etcFlush s n else s
  | 0x1F08 => if slotHas s n then slotCtl s n (v.toNat % 64) else s
  | _ => plainWrite s (aNi n off) v mask

/-- What a write of a word does, every byte of whose written registers is strobed: the answer is an error, and the state. -/
def wordWrite (s : State) (m : Master) (a : Nat) (v mask : Word) : Bool × State :=
  if (regInfo a).lock && lcState s == 2 then (true, s)
  else if 0x200000 ≤ a ∧ a < 0x300000 then (false, niWrite s ((a - 0x200000) / 0x2000) ((a - 0x200000) % 0x2000) v mask)
  else if 0x800100 ≤ a ∧ a < 0x800500 then (false, ringWrite s ((a - 0x800100) / 0x40) ((a - 0x800100) % 0x40) v mask)
  else if 0x20000 ≤ a ∧ a < 0x30000 ∧ (a - 0x20000) % 0x2000 = 0x10 then
    let p := BitVec.ofNat 3 ((a - 0x20000) / 0x2000)
    let s1 := if bitOf v 0 then nextOf (execSpnRetrain p s) s else s
    (false, if bitOf v 1 then nextOf (execSpnForceDown p s1) s1 else s1)
  else if 0x400100 ≤ a ∧ a < 0x400500 ∧ a % 16 = 0 then (false, thrWrite s ((a - 0x400100) / 16) v)
  else if 0x12080 ≤ a ∧ a < 0x120B0 then (false, kbufWrite s ((a - 0x12080) / 8) v)
  else match a with
  | 0x400 => (false, if bitOf v 0 then coldReset s 2 else if bitOf v 1 then warmStart s 4 else s)
  | 0x408 => (false, niResetMask s 0 v.toNat)
  | 0x410 => (false, niResetMask s 1 v.toNat)
  | 0x510 => (false, fltDecl s (v.toNat % 512))
  | 0x518 => (false, fltRestore s (v.toNat % 2))
  | 0x10000 => (false, ppsRestart s (plainWrite s a v mask))
  | 0x10020 =>
    let t := signedOf 32 (fld v 31 0)
    let u := BitVec.ofNat 64 (unsignedOf 32 (clampInt (-rateMax) rateMax t))
    (false, plainWrite s a (if fld mask 31 0 = 0 then v else u) mask)
  | 0x10028 => (false, timStep s v)
  | 0x10030 =>
    let s1 := plainWrite s a v mask
    (false, if fld mask 31 0 = 0 then s1 else timSlew s1 (v.extractLsb' 0 32))
  | 0x10038 => (false, if bitOf v 0 then timLock s else s)
  | 0x11000 => (false, pwrWrite s (v.extractLsb' 0 24))
  | 0x12018 =>
    let s1 := if bitOf v 1 then tokenAbortWrite s else s
    (false, if bitOf v 0 then tokenStartWrite s1 else s1)
  | 0x12020 => (false, tokenDataWrite s v)
  | 0x12040 => (false, if bitOf v 0 then sessionEnd s else s)
  | 0x120B0 => (false, keyWrite (takeFree s).2 m (fld v 31 0) (bitOf (takeFree s).1 0))
  | 0x13000 =>
    let s1 := if bitOf v 1 then imgAbortWrite s else s
    (false, if bitOf v 0 then imgStartWrite s1 else s1)
  | 0x13010 => (s.img.st != 1, imgDataWrite s v)
  | 0x18000 =>
    let s1 := if bitOf v 0 then nextOf (execJrnRecover s) s else s
    (false, if bitOf v 1 then submitGroom s1 else s1)
  | 0x400008 => (false, snapWrite s v)
  | _ => (false, plainWrite s a v mask)

/-- The registers of a word whose every byte is strobed, and whether one is strobed in part (23 R473). -/
def strobed (l : List (Nat × Nat)) (strb : BitVec 8) : List (Nat × Nat) × Bool :=
  let hit (p : Nat × Nat) (f : Bool → Bool → Bool) (b : Bool) : Bool := (List.range p.2).foldl (fun r i => f r (bitOf strb (p.1 + i))) b
  (l.filter fun p => hit p (· && ·) true, l.any fun p => hit p (· || ·) false && !hit p (· && ·) true)

/-- A write beat of a master at an address of the map: whether it is answered ACC_ERR, and the state (23 R473, R475, R483). -/
def regWrite (s : State) (m : Master) (addr : Nat) (v : Word) (strb : BitVec 8) : Bool × State :=
  if notReady s addr then (true, s)
  else match aliasOf s (addr - addr % 8) with
  | none => (false, s)
  | some a =>
    if asleep s a then (true, s)
    else if !unitThere s a then (false, s)
    else
      let p := strobed (regInfo a).parts strb
      if p.1.isEmpty then (p.2, s)
      else if !mayWrite s m a then (true, s)
      else
        let mask := partMask p.1
        let r := wordWrite s m a (v &&& mask) mask
        (r.1 || p.2, r.2)

/-- MMX_ERR_LOG of an error response (19 R412, Table 19.10). -/
def errLog (s : State) (m : Master) (resp : BitVec 2) (wr' : Bool) (addr : Nat) : State :=
  wr s (aMmx 8) (packW [(62, resp.toNat), (61, wr'.toNat), (58, masterNo m), (0, addr % 2 ^ 32)])

/-- REGISTER_WRITE: a master's write beat reaches the register block (00 R7). -/
def execRegisterWrite (m : Master) (addr : BitVec 32) (data : Word) (strb : BitVec 8) (s : State) : Host.Outcome State Fault Refusal :=
  answer s (
    let r := regWrite s m addr.toNat data strb
    if r.1 then errLog r.2 m 1 true addr.toNat else r.2)

/-! Management messages of the fabric (05 R99). -/

/-- The word lies in the block of a unit by its local node number: an NI's registers and lift-pass rows, and its EBT bank's
entries (14 R303), a router's or a span port's registers. -/
def ownWord (s : State) (node a : Nat) : Bool :=
  if node < 128 then
    (decide (aNi node 0 ≤ a) && decide (a < aNi (node + 1) 0)) ||
      (decide (0x2000000 + 0x10000 * node ≤ a) && decide (a < 0x2000000 + 0x10000 * (node + 1))) ||
      (decide (120 ≤ node) && decide (0x1000000 ≤ a) && decide (a < 0x1800000) && (a - 0x1000000) / 16 % nRinks s == node - 120)
  else if node < 136 then decide (aSpn (node - 128) 0 ≤ a) && decide (a < aSpn (node - 127) 0)
  else decide (aRtr (node - 136) 0 ≤ a) && decide (a < aRtr (node - 135) 0)

/-- The bytes a management read asks for, words in address order. -/
def mgWords (s : State) (a count : Nat) : List Word × State :=
  (List.range count).foldl (fun r i => let b := readBeat r.2 (a + 8 * i); (r.1 ++ [b.1], b.2)) ([], s)

/-- Lines of a list of words, eight a line. -/
def linesOfWords (l : List Word) (fuel : Nat) : List Line :=
  match fuel, l with
  | 0, _ => []
  | _, [] => []
  | f + 1, l => BitVec.ofNat 512 (((List.range 8).zip l).foldl (fun a p => a ||| p.2.toNat <<< (64 * p.1)) 0) :: linesOfWords (l.drop 8) f

/-- The MG_RSP to a request: SLICE, GEN and TAG echoed. -/
def mgAnswer (s : State) (node : Nat) (m : Msg) (stat : Nat) (data : List Line) : Msg :=
  { dst := m.src, src := nodeOf s node, opc := 0x7A, cls := 3, vcf := vcfOfChan 8, gen := m.gen, slice := m.slice, tag := m.tag
    len := BitVec.ofNat 7 data.length, nbytes := if data.isEmpty then 0 else m.nbytes, addr := rspAddr stat 0, data := data }

/-- A management read at a unit (05 R99, 09 R200). Outside the unit's own registers the answer is a free value (log 1). -/
def mgRead (s : State) (node : Nat) (m : Msg) : Msg × State :=
  let a := m.addr.toNat
  let lo := a - a % 8
  let count := ceilDiv (a + max 1 m.nbytes.toNat - lo) 8
  if (List.range count).all fun i => ownWord s node (lo + 8 * i) then
    let r := mgWords s lo count
    (mgAnswer s node m 0 (linesOfWords r.1 65), r.2)
  else (mgAnswer s node m ((takeFree s).1.toNat % 16) [], (takeFree s).2)

/-- A management write at a unit (05 R99): whole words of the unit's registers, by a master other than CP. What STAT tells of a write
that a register refuses is a free value (log 1). -/
def mgWrite (s : State) (node : Nat) (m : Msg) : Msg × State :=
  let a := m.addr.toNat
  let count := ceilDiv m.nbytes.toNat 8
  if a % 8 = 0 ∧ m.nbytes.toNat % 4 = 0 ∧ (List.range count).all fun i => ownWord s node (a + 8 * i) then
    let word (i : Nat) : Word := (m.data.getD (i / 8) 0).extractLsb' (64 * (i % 8)) 64
    let strb (i : Nat) : BitVec 8 := if 8 * i + 8 ≤ m.nbytes.toNat then 0xFF else 0x0F
    let r := (List.range count).foldl (fun r i => let b := regWrite r.2 .fm (a + 8 * i) (word i) (strb i); (r.1 || b.1, b.2)) (false, s)
    if r.1 then (mgAnswer s node m ((takeFree r.2).1.toNat % 16) [], (takeFree r.2).2) else (mgAnswer s node m 0 [], r.2)
  else (mgAnswer s node m ((takeFree s).1.toNat % 16) [], (takeFree s).2)

/-- The router sends an answer of its own: it waits at the SELF input of the RSP plane, which takes one message at a time. What its
SEQ and INC are when it crosses into another instance the manual does not say: free values (log 1). -/
def rtrAnswer (s : State) (x : Nat) (m : Msg) : State :=
  let crosses := nodeInst m.dst != instNo s
  let f := takeFree s
  let m1 := { m with ep := BitVec.ofNat 1 (rtrEp s x), span := crosses
                     seq := if crosses then f.1.extractLsb' 0 16 else 0, inc := if crosses then f.1.extractLsb' 16 4 else 0 }
  let s1 := if crosses then f.2 else s
  updPlane s1 .rsp x fun r => { r with buf := mset r.buf 168 (flitsOf (sealMsg m1)) }

/-- The oldest management message of an opcode at a unit is taken, acted on by f and answered; an NI takes none while its answer list is
full (09 R205). -/
def mgServe (s : State) (node opc : Nat) (f : State → Nat → Msg → Msg × State) : State :=
  let is (m : Msg) : Bool := m.opc.toNat == opc && (opc == 0x78 || m.data.length == m.len.toNat)
  if node < 128 then
    match if answersFull s node then (none, []) else takeFirst (getNi s node).inReq fun q => q.1.opc.toNat == opc with
    | (none, _) => s
    | (some q, rest) =>
      match rxCheck (updNi s node fun i => { i with inReq := rest }) node q.1 with
      | .drop t => t
      | .pass m t =>
        let r := if niDown t node then (mgAnswer t node m 4 [], t) else f t node m
        injectOwn r.2 node .rsp r.1 none
  else if node < 136 then
    match takeFirst (getSpan s (node - 128)).self is with
    | (none, _) => s
    | (some m, rest) =>
      let r := f (updSpan s (node - 128) fun q => { q with self := rest }) node m
      spanOwn r.2 (node - 128) .rsp r.1
  else if !isRtr s (node - 136) || !(bufOf (getRtr s (node - 136)).rsp 168).isEmpty then s
  else
    match takeFirst (getRtr s (node - 136)).self is with
    | (none, _) => s
    | (some m, rest) =>
      let r := f (updRtr s (node - 136) fun q => { q with self := rest }) node m
      rtrAnswer r.2 (node - 136) r.1

/-- MG_RD_RECEIVE: a management read reaches its unit or EBT bank and is answered with MG_RSP (05 R99, 09 R200). -/
def execMgRdReceive (node : BitVec 8) (s : State) : Host.Outcome State Fault Refusal := answer s (mgServe s node.toNat 0x78 mgRead)

/-- MG_WR_RECEIVE: a management write reaches its unit and is answered (05 R99). -/
def execMgWrReceive (node : BitVec 8) (s : State) : Host.Outcome State Fault Refusal := answer s (mgServe s node.toNat 0x79 mgWrite)

end Sys2Proof.Machine
end

