-- ==== Sys2Proof/Machine/Matrix.lean ====
section
/-! DEFINITION. The management matrix (19): requests, refusals, arbitration, bursts, locks and responses. An access is performed when
its target grants it; a write, beat by beat (log 8). The responses of a step stand in `out` (log 35). -/

namespace Sys2Proof.Machine

/-- First and last byte of a target's range (19 Table 19.2). -/
def mmRange (t : Nat) : Nat × Nat :=
  match t with
  | 0 => (0x0, 0xFFFF) | 1 => (0x10000, 0x10FFF) | 2 => (0x11000, 0x11FFF) | 3 => (0x12000, 0x12FFF) | 4 => (0x13000, 0x13FFF)
  | 5 => (0x14000, 0x14FFF) | 6 => (0x18000, 0x18FFF) | 7 => (0x20000, 0x2FFFF) | 8 => (0x100000, 0x13FFFF) | 9 => (0x200000, 0x2FFFFF)
  | 10 => (0x400000, 0x7FFFFF) | 11 => (0x800000, 0xFFFFFF) | 12 => (0x1000000, 0x1FFFFFF) | 13 => (0x2000000, 0x2FFFFFF)
  | _ => (0x3000000, 0x3FFFFFF)

/-- The target of an address; 15 outside every range (19 R410). -/
def mmTarget (a : Nat) : Nat :=
  ((List.range 15).find? fun t => decide ((mmRange t).1 ≤ a) && decide (a ≤ (mmRange t).2)).getD 15

/-- What the life-cycle state lets DBG reach (22 Table 22.7). -/
def dbgMay (s : State) (t : Nat) : Bool :=
  match lcState s with
  | 0 => true
  | 1 | 3 => t != 3
  | 2 => t != 3 && s.lcs.session.any fun q => bitOf q.1 t
  | _ => false

/-- The pair of a master and a target is barred (19 R410, 22 R466): a dash in Table 19.2, or DBG where the state bars it. -/
def barred (s : State) (m : Master) (t : Nat) : Bool :=
  t != 15 && (fld (mmxPriReset t) (4 * masterNo m + 3) (4 * masterNo m) == 0 || (m == .dbg && !dbgMay s t))

/-- MMX_PRI of a pair. -/
def priOf (s : State) (m : Master) (t : Nat) : Nat := rdF s (aMmx (0x100 + 8 * t)) (4 * masterNo m + 3) (4 * masterNo m)

/-- The target of a request: a burst that leaves the range of its first beat goes to the default target whole (19 R410). -/
def reqTarget (a len : Nat) : Nat :=
  let t := mmTarget a
  if t ≠ 15 ∧ (mmRange t).2 < a + 8 * len + 7 then 15 else t

/-- The targets an access is judged at: its own, and through the KV3 window those of the registers it names (23 R483). -/
def judged (s : State) (t a len : Nat) : List Nat :=
  if t = 14 ∧ isComplete s then 14 :: ((List.range (len + 1)).filterMap fun i => (aliasOf s (a - a % 8 + 8 * i)).map mmTarget) else [t]

/-- State of a target. -/
def getTgt (s : State) (t : Nat) : MmTgt := mgetD s.mmx.tgts t {}
/-- The state with it changed by f. -/
def updTgt (s : State) (t : Nat) (f : MmTgt → MmTgt) : State :=
  { s with mmx := { s.mmx with tgts := mset s.mmx.tgts t (f (getTgt s t)) } }
/-- The state with one access changed by f. -/
def updAcc (s : State) (id : Nat) (f : MmAcc → MmAcc) : State :=
  { s with mmx := { s.mmx with accs := updFirst s.mmx.accs (fun a => a.id == id) f } }

/-! Responses (19 R411, R413). -/

/-- Response beats that leave now, in the order of each master's requests, and the accesses that stay. -/
def releaseResp (l : List MmAcc) (held : List Nat) : List MmAcc × List (Nat × BitVec 2 × Word × Bool) :=
  match l with
  | [] => ([], [])
  | a :: r =>
    let k := masterNo a.m
    if held.contains k then let q := releaseResp r held; (a :: q.1, q.2)
    else
      let outs := a.resp.map fun b => (k, b)
      if a.ended then let q := releaseResp r held; (q.1, outs ++ q.2)
      else let q := releaseResp r (k :: held); ({ a with resp := [] } :: q.1, outs ++ q.2)

/-- The responses that are there return to their masters. -/
def mmFlush (s : State) : State :=
  let q := releaseResp s.mmx.accs []
  { s with mmx := { s.mmx with accs := q.1, out := q.2 } }

/-- A response without data: mm_rdata is not defined (log 1). -/
def emptyBeats (s : State) (count : Nat) (code : BitVec 2) : List (BitVec 2 × Word × Bool) × State :=
  (List.range count).foldl (fun r i => let f := takeFree r.2; (r.1 ++ [(code, f.1, i + 1 == count)], f.2)) ([], s)

/-- An access ends with a code for the whole of it: its beats, one for a write. Every error response writes MMX_ERR_LOG (19 R412). -/
def mmEnd (s : State) (a : MmAcc) (code : BitVec 2) : State :=
  let b := emptyBeats s (if a.wr then 1 else a.len + 1) code
  let s1 := updAcc b.2 a.id fun _ => { a with resp := b.1, ended := true }
  if code = 0 then s1 else errLog s1 a.m code a.wr a.addr.toNat

/-- An access that no target performs: a read is answered, a write once its beats are taken (19 R411). -/
def mmRefuse (s : State) (a : MmAcc) (code : BitVec 2) : State :=
  if a.wr then updAcc s a.id fun _ => { a with refused := some code } else mmEnd s { a with refused := some code } code

/-! Requests (19 R410 to R413, R416, R418, R419). -/

/-- A barred pair was refused (19 R412). A pair whose MMX_PRI field is 0 is barred too: "0 bars the pair" (19 Table 19.10; log 32). -/
def barNote (s : State) (m : Master) (t : Nat) : State := raiseG (setFlag s (aMmx 0) 0) 243 0x191 1 (masterNo m <<< 8 ||| t)

/-- The code with which the matrix itself answers a request, if it does; and what that sets. -/
def mmJudge (s : State) (a : MmAcc) : Option (BitVec 2) × State :=
  let t := a.target
  let js := judged s t a.addr.toNat a.len
  let k := 16 * masterNo a.m + t
  match js.find? fun j => barred s a.m j || (j != 15 && priOf s a.m j == 0) with
  | some b => (some 1, barNote s a.m b)
  | none =>
    if (!a.data && a.len != 0) || (a.data && a.lock) then (some 1, s)
    else if s.mmx.broken.contains k then
      (some 3, { s with mmx := { s.mmx with broken := s.mmx.broken.filter (· != k) } })
    else if a.lock && (s.mmx.tgts.any fun g => g.1 != t && g.2.locked == some (BitVec.ofNat 3 (masterNo a.m))) then (some 1, s)
    else if t = 15 then (some 2, setFlag (incSat s (aMmx 0x10) 1) (aMmx 0) 1)
    else (none, s)

/-- The master may present a request: fewer than 4 accesses are outstanding, and none waits for its first grant (19 R411, R413). -/
def mmReady (s : State) (m : Master) : Bool :=
  let l := s.mmx.accs.filter fun a => a.m == m
  l.length < 4 && l.all fun a => a.granted || a.refused.isSome

/-- MM_REQUEST: a request is presented (19 R411). -/
def execMmRequest (m : Master) (addr : BitVec 32) (wr dataCls lock : Bool) (len : BitVec 8) (s : State) : Host.Outcome State Fault Refusal :=
  answer s (
    if !mmReady s m then s
    else
      let a : MmAcc := { m := m, addr := addr, wr := wr, data := dataCls, lock := lock, len := len.toNat
                         target := reqTarget addr.toNat len.toNat, id := s.mmx.nextId }
      let s1 := { s with mmx := { s.mmx with accs := s.mmx.accs ++ [a], nextId := s.mmx.nextId + 1 } }
      let j := mmJudge s1 a
      mmFlush (match j.1 with | some c => mmRefuse j.2 a c | none => j.2))

/-! Grants (19 R414, R415, R417, R418; 23 R474, R483). -/

/-- A read beat at the address a master names: whether it is answered ACC_ERR, the data, and the state (19 R415, 23 R473, R483). -/
def mmRead (s : State) (addr : Nat) : Bool × Word × State :=
  if notReady s addr then (true, (takeFree s).1, (takeFree s).2)
  else if isComplete s ∧ addr / 8 = 0x600000 then (false, 0x4B030400#64, s)
  else match aliasOf s (addr - addr % 8) with
  | none => (false, 0, s)
  | some a => if asleep s a then (true, (takeFree s).1, (takeFree s).2) else let r := readBeat s a; (false, r.1, r.2)

/-- Beats of the next piece (19 R417). -/
def pieceBeats (a : MmAcc) : Nat := min 16 (a.len + 1 - a.done)

/-- A lock ends with the access that does not carry mm_req_lock (19 R418). -/
def mmUnlock (s : State) (a : MmAcc) : State :=
  if !a.lock && !a.data && (getTgt s a.target).locked == some (BitVec.ofNat 3 (masterNo a.m)) then
    updTgt s a.target fun g => { g with locked := none }
  else s

/-- The beats of a read piece. -/
def readPiece (s : State) (a : MmAcc) : State :=
  let n := pieceBeats a
  let r := (List.range n).foldl (fun (r : List (BitVec 2 × Word × Bool) × State) i =>
    let b := mmRead r.2 (a.addr.toNat + 8 * (a.done + i))
    (r.1 ++ [(if b.1 then 1 else 0, b.2.1, a.done + i == a.len)], b.2.2)) ([], s)
  let last := a.done + n == a.len + 1
  let s1 := updAcc r.2 a.id fun _ => { a with granted := true, piece := !last, done := a.done + n, resp := a.resp ++ r.1, ended := last }
  let s2 := if r.1.any fun b => b.1 != 0 then errLog s1 a.m 1 false a.addr.toNat else s1
  if last then mmUnlock s2 a else s2

/-- The target is taken by a write piece whose beats are still to come. -/
def tgtBusy (s : State) (t : Nat) : Bool :=
  s.mmx.accs.any fun a => a.target == t && a.wr && a.granted && !a.piece && !a.ended && a.refused.isNone

/-- Requests the target could begin now: under a lock only the holder's single accesses (19 R418). -/
def contenders (s : State) (t : Nat) : List MmAcc :=
  s.mmx.accs.filter fun a => a.target == t && a.refused.isNone && !a.ended && (!a.granted || a.piece) &&
    (match (getTgt s t).locked with | some h => h == BitVec.ofNat 3 (masterNo a.m) && !a.data | none => true)

/-- Masters in round-robin order after the target's last winner (19 R414). -/
def mmOrder (s : State) (t : Nat) : List Nat :=
  let last := ((getTgt s t).park.map (·.toNat)).getD 7
  (List.range 8).map fun j => (last + 1 + j) % 8

/-- The request that wins: the highest field, then the round robin; of one master's requests the older. -/
def mmWinner (s : State) (t : Nat) : Option MmAcc :=
  let l := contenders s t
  let top := (l.map fun a => priOf s a.m t).foldl max 0
  (mmOrder s t).findSome? fun k => l.find? fun a => masterNo a.m == k && priOf s a.m t == top

/-- The winner is granted: the target parks on it, and locks for the first access of a locked sequence. -/
def mmGrantTo (s : State) (t : Nat) (a : MmAcc) : State :=
  let k := BitVec.ofNat 3 (masterNo a.m)
  let s1 := updTgt s t fun g => { park := some k, locked := if a.lock then some k else g.locked }
  if a.wr then updAcc s1 a.id fun _ => { a with granted := true, piece := false } else readPiece s1 a

/-- Presented requests whose field has become 0 are refused (19 R412). -/
def refuseZero (s : State) (t : Nat) : State :=
  (s.mmx.accs.filter fun a => a.target == t && !a.granted && a.refused.isNone && priOf s a.m t == 0).foldl (fun u a => mmRefuse (barNote u a.m t) a 1) s

/-- One arbitration at a target, among the first pieces or the further ones alike. -/
def mmArbitrate (s : State) (t : Nat) : State :=
  let s1 := refuseZero s t
  if tgtBusy s1 t then mmFlush s1
  else match mmWinner s1 t with
  | some a => mmFlush (mmGrantTo s1 t a)
  | none => mmFlush s1

/-- MM_GRANT: target t grants the winner of its arbitration (19 R414). -/
def execMmGrant (t : BitVec 4) (s : State) : Host.Outcome State Fault Refusal :=
  answer s (if t.toNat = 15 then s else mmArbitrate s t.toNat)

/-- MM_BURST_PIECE: a further piece of a burst is arbitrated as a request of its master (19 R417). -/
def execMmBurstPiece (t : BitVec 4) (s : State) : Host.Outcome State Fault Refusal :=
  answer s (if t.toNat ≠ 15 ∧ (contenders s t.toNat).any (·.piece) then mmArbitrate s t.toNat else s)

/-! Write beats (19 R411, R416, R417). -/

/-- A beat of a write that a target performs. -/
def writeBeat (s : State) (a : MmAcc) (v : Word) (strb : BitVec 8) : State :=
  let r := regWrite s a.m (a.addr.toNat + 8 * a.done) v strb
  let b := { a with done := a.done + 1, err := a.err || r.1 }
  if b.done = a.len + 1 then mmUnlock (mmEnd r.2 b (if b.err then 1 else 0)) b
  else updAcc r.2 a.id fun _ => { b with piece := b.done % 16 == 0 }

/-- MM_WRITE_BEAT: a write beat of a master transfers, to the oldest of its writes that still has beats to come. It is taken only in the
master's own piece (19 R417); the default target and a refusal take every beat. -/
def execMmWriteBeat (m : Master) (data : Word) (strb : BitVec 8) (s : State) : Host.Outcome State Fault Refusal :=
  answer s (
    match s.mmx.accs.find? fun a => a.m == m && a.wr && !a.ended with
    | none => s
    | some a =>
      match a.refused with
      | some c =>
        let b := { a with done := a.done + 1 }
        mmFlush (if b.done = a.len + 1 then mmEnd s b c else updAcc s a.id fun _ => b)
      | none => if a.granted && !a.piece then mmFlush (writeBeat s a data strb) else s)

/-! Locks (19 R419). -/

/-- LOCK_BREAK: the lock of a target is still held 256 mc after its first grant. The holder's next access to it is answered
LOCK_BROKEN. A final access that was granted before completes, and nothing breaks (19 Table 19.8). -/
def execLockBreak (t : BitVec 4) (s : State) : Host.Outcome State Fault Refusal :=
  answer s (
    let k := t.toNat
    match (getTgt s k).locked with
    | none => s
    | some h =>
      if s.mmx.accs.any fun a => masterNo a.m == h.toNat && a.target == k && a.granted && !a.ended && !a.lock && !a.data then s
      else
      let s1 := updTgt s k fun g => { g with locked := none }
      let s2 := raiseG (setFlag (incSat s1 (aMmx 0x18) 1) (aMmx 0) 2) 243 0x190 1 (h.toNat <<< 8 ||| k)
      match s2.mmx.accs.find? fun a => masterNo a.m == h.toNat && a.target == k && !a.granted && a.refused.isNone with
      | some a => mmFlush (mmRefuse s2 a 3)
      | none => { s2 with mmx := { s2.mmx with broken := insertNat s2.mmx.broken (16 * h.toNat + k) } })

end Sys2Proof.Machine
end

