-- ==== Sys2Proof/Machine/GateTick.lean ====
section
/-! DEFINITION. The gate tick: the due changes of every unit in the order of Table 01.3 (01 R17). -/

namespace Sys2Proof.Machine

/-! Step 1. -/

/-- The frame increments (02 R26): the time base stands at the boundary that it counted over, or is taken to the next one, with the
whole second that lies there (02 R34; log 6). -/
def tickTime (s : State) : State :=
  if s.time.tickDue then { s with time := { s.time with tickDue := false } }
  else
    let n : BitVec 96 := BitVec.ofNat 96 ((nowNs s / 1024 + 1) * 1024 * 2 ^ 32)
    { s with time := { s.time with t := n, ppsDue := s.time.ppsDue || secondOf n != secondOf s.time.t } }

/-- tb_tick_out rises (02 R34), tb_gate is 1 in this cycle (03 R56); tb_valid rises at the ports that are up (02 R37, 03 R56). -/
def tickOuts (s : State) : State :=
  { s with
    time := { s.time with tickOut := true, tickRise := nowNs s, gate := true }
    nis := mmap s.nis fun _ i => { i with port := { i.port with tbValid := i.port.tbValid || i.port.up } } }

/-! Step 2. -/

/-- The old epoch's slot goes first where it is due and a change of this tick may need it (15 R337, R338). -/
def tickRelease (s : State) : State :=
  match s.img.release with
  | some f => if frameGe (frameOf s) f && (s.img.st == 3 || s.pwr.cur.isSome || s.pwr.back.isSome) then releaseOld s else s
  | none => s

/-! Step 4: slices. -/

/-- A slice's configuration word, of any NI. -/
def isSlcWord (a : Nat) : Bool :=
  decide (0x200000 ≤ a) && decide (a < 0x300000) && decide (0x200 ≤ (a - 0x200000) % 0x2000) &&
    decide ((a - 0x200000) % 0x2000 < 0x400) && a % 0x20 == 0

/-- The EN bits that wait are in force (11 R232). -/
def applyEn (s : State) : State :=
  (s.pendT.filter fun p => isSlcWord p.1).foldl (fun t p => wr t p.1 (setBit (rd t p.1) 0 (bitOf p.2 0))) s

/-- NIRATE in use (11 Table 11.7). -/
def nirate (s : State) (n : Nat) : Nat := min 4096 (max 8 (rdF s (aNi n 0x148) 12 0))

/-- NI_SLC_SHARE for the number of active slices (11 R233). -/
def shareWord (s : State) (n : Nat) : Word :=
  let c := nActive s n
  let d := max 1 c
  packW [(32, nirate s n / d), (16, (1024 - rdF s (aNi n 0x158) 40 32) / d), (8, 64 / d), (0, c)]

/-- SC of every slice at the tick, by the registers that stood before it, and no more than SBURST (11 R235). -/
def scTick (was s : State) (n : Nat) : State :=
  let u := { s with regs := was.regs }
  updNi s n fun i => { i with slices := mmap i.slices fun k c => { c with sc := min (scNow u n k) (sBurst s n : Nat), scUpd := nowNs s } }

/-- The EN bits of NI n as they were and as they are: slices that leave are reset, those that join start with SC 0, and a new number
of slices has its shares (11 R233, R235, R238, R246). -/
def sliceStep (was s : State) (n : Nat) : State :=
  let off := (List.range 16).filter fun k => slcAct was n k && !slcAct s n k
  let on := (List.range 16).filter fun k => !slcAct was n k && slcAct s n k
  if off.isEmpty && on.isEmpty then s
  else
    let s1 := off.foldl (fun t k => sliceResetStart t n k) s
    let s2 := on.foldl (fun t k => updNi t n fun i => updSlice i k fun c => { c with sc := 0, scUpd := nowNs s }) s1
    if nActive was n = nActive s n then s2
    else
      let s3 := scTick was s2 n
      raiseNi (wr s3 (aNi n 0x140) (shareWord s3 n)) n 0x111 0 (nActive s n <<< 43 ||| frameOf s % 2 ^ 38) 15

/-- The NIs that have a slice word listed, in falling order, so that the record of the lowest unit is the last of its group (23 R479). -/
def slcNis (was s : State) : List Nat :=
  let l := ((was.regs ++ s.regs).filter fun p => isSlcWord p.1).map fun p => (p.1 - 0x200000) / 0x2000
  (List.range 128).reverse.filter fun n => l.contains n

/-- Step 4 of Table 01.3. -/
def tickSlices (was s : State) : State := (slcNis was s).foldl (fun t n => if isNi t n then sliceStep was t n else t) s

/-! Step 6: RW/T values (00 R8). -/

/-- One waiting word takes effect: its RW/T bits, or all of it where the instance wrote it (09 R210). -/
def applyWord (s : State) (p : Nat × Word) : State :=
  let m := BitVec.ofNat 64 (if (regInfo p.1).rwt = 0 then ones64 else (regInfo p.1).rwt)
  wr s p.1 ((rd s p.1 &&& ~~~m) ||| (p.2 &&& m))

/-- Every waiting word takes effect. -/
def applyPend (s : State) : State := { s.pendT.foldl applyWord s with pendT := [] }

/-- A TBT row takes its place: a replaced one keeps its way, a new one takes the lowest free way of its set (09 R204). -/
def tbtTake (m : Map TbtRow) (p : Nat × Option TbtRow) : Map TbtRow :=
  match p.2 with
  | none => mdel m p.1
  | some r =>
    let used := (m.filter fun q => q.1 % 1024 == p.1 % 1024 && q.1 != p.1).map (·.2.way)
    let way := match mget m p.1 with
      | some o => o.way
      | none => ((List.range 8).find? fun w => !used.contains w).getD 0
    mset m p.1 { r with way := way }

/-- A BGT entry takes its place. -/
def bgtTake (m : Map BgtRow) (p : Nat × Option BgtRow) : Map BgtRow := match p.2 with | some r => mset m p.1 r | none => mdel m p.1

/-- The rows that the engines wrote take effect (09 R210). -/
def applyRows (s : State) : State :=
  { s with nis := mmap s.nis fun _ i =>
      { i with dec := { i.dec with
          tbt := i.dec.tbtDue.foldl tbtTake i.dec.tbt, bgt := i.dec.bgtDue.foldl bgtTake i.dec.bgt, tbtDue := [], bgtDue := [] } } }

/-- A queue whose words changed (07 R159, R161, R162): `was` holds the words before the tick. -/
def queueTick (was s : State) (n q : Nat) : State :=
  let u := { s with regs := was.regs }
  let now := 256 * nowNs s
  if calMode s n q then
    updNi s n fun i => updQ i q fun c =>
      let t := if !calMode u n q then now else if rateOf u n q = rateOf s n q then c.tElig
        else max now (256 * c.sLast + ceilDiv (c.cLast * 16 * 256) (rateOf s n q))
      { c with tElig := t, wheel := if nowNs s < t / 512 * 2 then some (min (t / 512) (nowNs s / 2 + 4095)) else none }
  else
    let v : Int := if calMode u n q then 0 else min (creditNow u n q) (capOf s n q : Nat)
    updNi s n fun i => updQ i q fun c => { c with credit := v, tUpd := nowNs s, wheel := none }

/-- NI and queue of a queue's configuration word. -/
def queueOf (a : Nat) : Option (Nat × Nat) :=
  let off := (a - 0x200000) % 0x2000
  if 0x200000 ≤ a ∧ a < 0x300000 ∧ 0xC00 ≤ off ∧ off < 0x1C00 ∧ (off - 0xC00) % 0x40 < 0x10 then
    some ((a - 0x200000) / 0x2000, (off - 0xC00) / 0x40)
  else none

/-- The addresses at which two tables of rising addresses differ; the first argument is at least the sum of their lengths. -/
def diffKeys : Nat → Map Word → Map Word → List Nat
  | 0, _, _ => []
  | _ + 1, [], bs => bs.map (·.1)
  | _ + 1, as, [] => as.map (·.1)
  | k + 1, (a, v) :: as, (b, w) :: bs =>
    if a < b then a :: diffKeys k as ((b, w) :: bs)
    else if b < a then b :: diffKeys k ((a, v) :: as) bs
    else if v = w then diffKeys k as bs
    else a :: diffKeys k as bs

/-- The addresses of words that differ. -/
def changedWords (was s : State) : List Nat := diffKeys (was.regs.length + s.regs.length + 1) was.regs s.regs

/-- Every queue whose words changed. -/
def tickQueues (was s : State) : State :=
  ((changedWords was s).filterMap queueOf).dedup.foldl (fun t k => queueTick was t k.1 k.2) s

/-- Every NI whose NIRATE, SBURST or TRK_MAX changed has its shares again (11 R233, R235). -/
def tickShares (was s : State) : State :=
  (((changedWords was s).filter fun a => a < 0x300000 && (niOff s a == some 0x148 || niOff s a == some 0x158)).map
    fun a => (a - 0x200000) / 0x2000).dedup.foldl (fun t n => let u := scTick was t n; wr u (aNi n 0x140) (shareWord u n)) s

/-- Step 6: the RW/T values, the rows, the image's, and what follows from them. A queue's clamps come before its new rate is used
(07 R163). -/
def tickStep6 (was s : State) (img : Bool) : State :=
  let s1 := applyRows (applyPend s)
  let s2 := if img then imgStep6 s1 else clampQueues s1 fun _ => true
  tickShares was (tickQueues was s2)

/-! After the order of Table 01.3: what begins with the frame. -/

/-- Piste messages charged to the frame are laid (06 R122). -/
def tickLay (s : State) : State :=
  { s with
    nis := mmap s.nis fun n i => { i with pst := layFrame s (srcEnt s n) i.pst }
    spans := mmap s.spans fun p q => { q with pst := layFrame s (spnEnt s p) q.pst } }

/-- A posted piste write counts as earlier up to its acknowledgement bound (08 R185). -/
def tickBounds (s : State) : State :=
  { s with nis := mmap s.nis fun _ i => { i with reqs := i.reqs.filter fun r => match r.ackBound with
      | some b => frameGe (b % 2 ^ 48) (frameOf s)
      | none => true } }

/-- A span link counts as up, and its chains resume, at their ticks (12 R276); ports in their grace period fail over to it (R274). -/
def tickSpan (s : State) (p : Nat) : State :=
  let q := getSpan s p
  let up := match q.upAt with | some f => frameGe (frameOf s) f | none => false
  let res := match q.resumeAt with | some f => frameGe (frameOf s) f | none => false
  let s1 := if up then graceFailover (updSpan s p fun q => { q with up := true, upAt := none }) else s
  if res then (flowsOnSpan s1 p).foldl resumeFlow (updSpan s1 p fun q => { q with resumeAt := none }) else s1

/-- Steps 2 to 6 of Table 01.3; `was` is the state that step 1 left. -/
def tickOrder (was : State) : State :=
  let s1 := imgGate (fltStep2 (tickRelease was))
  let img := imgSwitches s1
  let s2 := pwrStep2 (if img then imgStep2 s1 else s1)
  let s3 := pisteTick s2
  let s4 := if img then imgFlows s3 else s3
  let s5 := tickSlices was (applyEn (if img then imgStep4 s4 else s4))
  tickStep6 was (pwrStep5 s5) img

/-- The whole tick. -/
def gateTick (s : State) (slacks : List (BitVec 6)) : State :=
  let s1 := pwrRejoin (holdExit (tickOuts (tickTime s)))
  let s2 := tickBounds (tickLay (tickOrder s1))
  ageTick ((List.range (nSpans s2)).foldl tickSpan s2) slacks

/-- GATE_TICK (01 R17): `slacks` are the replica paths' slacks (18 R403). -/
def execGateTick (slacks : List (BitVec 6)) (s : State) : Host.Outcome State Fault Refusal := answer s (gateTick s slacks)

end Sys2Proof.Machine
end

