-- ==== Sys2Proof/Machine/Dispatch.lean ====
section
/-! DEFINITION. One arm per command: each calls its meaning, written in full. -/

namespace Sys2Proof.Machine

/-- The effect of a command on everything but the queue of waiting commands. -/
def exec (i : Instr) (s : State) : Host.Outcome State Fault Refusal :=
  match i with
  | .gateTick slacks => Sys2Proof.Machine.execGateTick slacks s
  | .tickOutFall => Sys2Proof.Machine.execTickOutFall s
  | .timStep v => Sys2Proof.Machine.execTimStep v s
  | .timLock => Sys2Proof.Machine.execTimLock s
  | .timSlew v => Sys2Proof.Machine.execTimSlew v s
  | .referenceLoss => Sys2Proof.Machine.execReferenceLoss s
  | .referenceStable => Sys2Proof.Machine.execReferenceStable s
  | .ppsEdge => Sys2Proof.Machine.execPpsEdge s
  | .ppsLost => Sys2Proof.Machine.execPpsLost s
  | .ppsOutRise => Sys2Proof.Machine.execPpsOutRise s
  | .ppsOutFall => Sys2Proof.Machine.execPpsOutFall s
  | .tsyncSend p => Sys2Proof.Machine.execTsyncSend p s
  | .tsyncLost p => Sys2Proof.Machine.execTsyncLost p s
  | .ingressRequest n hdr => Sys2Proof.Machine.execIngressRequest n hdr s
  | .ingressDataBeat n rsp data be last gap => Sys2Proof.Machine.execIngressDataBeat n rsp data be last gap s
  | .ingressResponse n hdr => Sys2Proof.Machine.execIngressResponse n hdr s
  | .egressCreditReturn n rsp hg hb dg db => Sys2Proof.Machine.execEgressCreditReturn n rsp hg hb dg db s
  | .egressMessageStart n rsp => Sys2Proof.Machine.execEgressMessageStart n rsp s
  | .fenceStrobe n rw pv pasid id => Sys2Proof.Machine.execFenceStrobe n rw pv pasid id s
  | .fenceSatisfied n slice => Sys2Proof.Machine.execFenceSatisfied n slice s
  | .ntfRecordTaken n => Sys2Proof.Machine.execNtfRecordTaken n s
  | .epResetRequest n => Sys2Proof.Machine.execEpResetRequest n s
  | .epRstInEpChange n v => Sys2Proof.Machine.execEpRstInEpChange n v s
  | .niRstInRaise n => Sys2Proof.Machine.execNiRstInRaise n s
  | .epUpRaise n => Sys2Proof.Machine.execEpUpRaise n s
  | .rstStall n => Sys2Proof.Machine.execRstStall n s
  | .routerFlitArrive pl x port err => Sys2Proof.Machine.execRouterFlitArrive pl x port err s
  | .routerFlitForward pl x out err => Sys2Proof.Machine.execRouterFlitForward pl x out err s
  | .linkCreditReturn pl x out w => Sys2Proof.Machine.execLinkCreditReturn pl x out w s
  | .schussPass pl x out fc err eject => Sys2Proof.Machine.execSchussPass pl x out fc err eject s
  | .escWaitExpire pl x port ch => Sys2Proof.Machine.execEscWaitExpire pl x port ch s
  | .mgRdReceive node => Sys2Proof.Machine.execMgRdReceive node s
  | .mgWrReceive node => Sys2Proof.Machine.execMgWrReceive node s
  | .requestArriveAtTarget n => Sys2Proof.Machine.execRequestArriveAtTarget n s
  | .responseArriveAtRequester n => Sys2Proof.Machine.execResponseArriveAtRequester n s
  | .answerListDequeue n => Sys2Proof.Machine.execAnswerListDequeue n s
  | .pisteLaunch n pl => Sys2Proof.Machine.execPisteLaunch n pl s
  | .messageStart n pl => Sys2Proof.Machine.execMessageStart n pl s
  | .attachmentPieceSend n alt pl => Sys2Proof.Machine.execAttachmentPieceSend n alt pl s
  | .wheelBucketBegin n => Sys2Proof.Machine.execWheelBucketBegin n s
  | .trackerTimeout n tag => Sys2Proof.Machine.execTrackerTimeout n tag s
  | .pwDeadline n tag => Sys2Proof.Machine.execPwDeadline n tag s
  | .mcQuarantineEnd n tag => Sys2Proof.Machine.execMcQuarantineEnd n tag s
  | .drainComplete n => Sys2Proof.Machine.execDrainComplete n s
  | .drainDeadline n => Sys2Proof.Machine.execDrainDeadline n s
  | .etcFillAnswer n => Sys2Proof.Machine.execEtcFillAnswer n s
  | .etcFillTimeout n inst x => Sys2Proof.Machine.execEtcFillTimeout n inst x s
  | .etcFillResend n inst x => Sys2Proof.Machine.execEtcFillResend n inst x s
  | .etcInvalidate n inst x => Sys2Proof.Machine.execEtcInvalidate n inst x s
  | .niEtcFlush n => Sys2Proof.Machine.execNiEtcFlush n s
  | .mcCopyReplicate x port => Sys2Proof.Machine.execMcCopyReplicate x port s
  | .gatherAnswer x port => Sys2Proof.Machine.execGatherAnswer x port s
  | .gatherExpire x e => Sys2Proof.Machine.execGatherExpire x e s
  | .mcCopyAtMember n => Sys2Proof.Machine.execMcCopyAtMember n s
  | .memberTimeout n e => Sys2Proof.Machine.execMemberTimeout n e s
  | .notifyReceive n => Sys2Proof.Machine.execNotifyReceive n s
  | .ntfForward => Sys2Proof.Machine.execNtfForward s
  | .niSlcRst n mask => Sys2Proof.Machine.execNiSlcRst n mask s
  | .sliceResetEnd n slice => Sys2Proof.Machine.execSliceResetEnd n slice s
  | .linkFlitSend p => Sys2Proof.Machine.execLinkFlitSend p s
  | .linkFlitReceive p raw bad => Sys2Proof.Machine.execLinkFlitReceive p raw bad s
  | .replayTimerExpire p => Sys2Proof.Machine.execReplayTimerExpire p s
  | .nakTimerExpire p seq => Sys2Proof.Machine.execNakTimerExpire p seq s
  | .spnRetrain p => Sys2Proof.Machine.execSpnRetrain p s
  | .phyDown p => Sys2Proof.Machine.execPhyDown p s
  | .peerRetrainRequest p wide => Sys2Proof.Machine.execPeerRetrainRequest p wide s
  | .retrainDone p up => Sys2Proof.Machine.execRetrainDone p up s
  | .retrainTimeout p => Sys2Proof.Machine.execRetrainTimeout p s
  | .widthCapDrop p cap => Sys2Proof.Machine.execWidthCapDrop p cap s
  | .spnForceDown p => Sys2Proof.Machine.execSpnForceDown p s
  | .spanKeyExpire p => Sys2Proof.Machine.execSpanKeyExpire p s
  | .graceExpire p => Sys2Proof.Machine.execGraceExpire p s
  | .phyUp p => Sys2Proof.Machine.execPhyUp p s
  | .spanPisteStage p => Sys2Proof.Machine.execSpanPisteStage p s
  | .ringPiWrite q v => Sys2Proof.Machine.execRingPiWrite q v s
  | .ringRciWrite q v => Sys2Proof.Machine.execRingRciWrite q v s
  | .ringFetch b => Sys2Proof.Machine.execRingFetch b s
  | .commandArrive q => Sys2Proof.Machine.execCommandArrive q s
  | .sanitise slot => Sys2Proof.Machine.execSanitise slot s
  | .copy slot => Sys2Proof.Machine.execCopy slot s
  | .verify slot => Sys2Proof.Machine.execVerify slot s
  | .move => Sys2Proof.Machine.execMove s
  | .bind => Sys2Proof.Machine.execBind s
  | .unbind => Sys2Proof.Machine.execUnbind s
  | .share => Sys2Proof.Machine.execShare s
  | .sliceReset => Sys2Proof.Machine.execSliceReset s
  | .admitFlow => Sys2Proof.Machine.execAdmit s
  | .admitPeerSegment peer req => Sys2Proof.Machine.execAdmitPeerSegment peer req s
  | .release => Sys2Proof.Machine.execRelease s
  | .telemetry slot => Sys2Proof.Machine.execTelemetry slot s
  | .groom slot => Sys2Proof.Machine.execGroom slot s
  | .fmIdentify => Sys2Proof.Machine.execFmIdentify s
  | .fmBackgroundOperationStatus => Sys2Proof.Machine.execFmBackgroundOperationStatus s
  | .fmGetDcdInfo => Sys2Proof.Machine.execFmGetDcdInfo s
  | .fmGetDcRegionExtentLists => Sys2Proof.Machine.execFmGetDcRegionExtentLists s
  | .fmInitiateDcAdd => Sys2Proof.Machine.execFmInitiateDcAdd s
  | .fmInitiateDcRelease => Sys2Proof.Machine.execFmInitiateDcRelease s
  | .fmUnsupported => Sys2Proof.Machine.execFmUnsupported s
  | .jobComplete slot => Sys2Proof.Machine.execJobComplete slot s
  | .workSteal slot => Sys2Proof.Machine.execWorkSteal slot s
  | .parkWake slot => Sys2Proof.Machine.execParkWake slot s
  | .commandComplete q => Sys2Proof.Machine.execCommandComplete q s
  | .ringReset q => Sys2Proof.Machine.execRingReset q s
  | .ringResume q => Sys2Proof.Machine.execRingResume q s
  | .moveMirrorExpire n x => Sys2Proof.Machine.execMoveMirrorExpire n x s
  | .engineFail e => Sys2Proof.Machine.execEngineFail e s
  | .extentOrphan n => Sys2Proof.Machine.execExtentOrphan n s
  | .journalAppend => Sys2Proof.Machine.execJournalAppend s
  | .homeWriteAck h => Sys2Proof.Machine.execHomeWriteAck h s
  | .homeWriteRetry h => Sys2Proof.Machine.execHomeWriteRetry h s
  | .ebtRepairDone x h0 h1 => Sys2Proof.Machine.execEbtRepairDone x h0 h1 s
  | .jrnRecover => Sys2Proof.Machine.execJrnRecover s
  | .groomNow => Sys2Proof.Machine.execGroomNow s
  | .recoveryStart => Sys2Proof.Machine.execRecoveryStart s
  | .recoveryDone h0 h1 => Sys2Proof.Machine.execRecoveryDone h0 h1 s
  | .homeWaitTimeout => Sys2Proof.Machine.execHomeWaitTimeout s
  | .imgStart m => Sys2Proof.Machine.execImgStart m s
  | .imgData m v => Sys2Proof.Machine.execImgData m v s
  | .imgAbort m => Sys2Proof.Machine.execImgAbort m s
  | .imageVerifyDone => Sys2Proof.Machine.execImageVerifyDone s
  | .imagePrecheck => Sys2Proof.Machine.execImagePrecheck s
  | .epochRelease => Sys2Proof.Machine.execEpochRelease s
  | .pwrSetLevel m req => Sys2Proof.Machine.execPwrSetLevel m req s
  | .pwrCg m req => Sys2Proof.Machine.execPwrCg m req s
  | .pwrRet m req => Sys2Proof.Machine.execPwrRet m req s
  | .pwrOff m req => Sys2Proof.Machine.execPwrOff m req s
  | .pwrWake m req => Sys2Proof.Machine.execPwrWake m req s
  | .pwrPgood => Sys2Proof.Machine.execPwrPgood s
  | .vrTimeout => Sys2Proof.Machine.execVrTimeout s
  | .regionDrainDone => Sys2Proof.Machine.execRegionDrainDone s
  | .regionDrainDeadline => Sys2Proof.Machine.execRegionDrainDeadline s
  | .regionEntryDone => Sys2Proof.Machine.execRegionEntryDone s
  | .regionWakeReady => Sys2Proof.Machine.execRegionWakeReady s
  | .por => Sys2Proof.Machine.execPor s
  | .coldResetAssert => Sys2Proof.Machine.execColdResetAssert s
  | .coldResetRelease => Sys2Proof.Machine.execColdResetRelease s
  | .coldInitDone => Sys2Proof.Machine.execColdInitDone s
  | .glbRstCold m => Sys2Proof.Machine.execGlbRstCold m s
  | .glbRstWarm m => Sys2Proof.Machine.execGlbRstWarm m s
  | .warmResetAssert => Sys2Proof.Machine.execWarmResetAssert s
  | .warmQuiesceDone => Sys2Proof.Machine.execWarmQuiesceDone s
  | .warmResetRelease => Sys2Proof.Machine.execWarmResetRelease s
  | .glbRstNi m w mask => Sys2Proof.Machine.execGlbRstNi m w mask s
  | .epClkLoss n => Sys2Proof.Machine.execEpClkLoss n s
  | .wireSteer pl x port g => Sys2Proof.Machine.execWireSteer pl x port g s
  | .wireCountExpire pl x port g => Sys2Proof.Machine.execWireCountExpire pl x port g s
  | .routerHeartbeatLoss x => Sys2Proof.Machine.execRouterHeartbeatLoss x s
  | .glbFltDecl m v => Sys2Proof.Machine.execGlbFltDecl m v s
  | .rehomeDone => Sys2Proof.Machine.execRehomeDone s
  | .glbFltRestore m v => Sys2Proof.Machine.execGlbFltRestore m v s
  | .routerBistDone pass => Sys2Proof.Machine.execRouterBistDone pass s
  | .rowRemap kind unit row err bothCopies => Sys2Proof.Machine.execRowRemap kind unit row err bothCopies s
  | .mmRequest m addr wr dataCls lock len => Sys2Proof.Machine.execMmRequest m addr wr dataCls lock len s
  | .mmGrant t => Sys2Proof.Machine.execMmGrant t s
  | .mmWriteBeat m data strb => Sys2Proof.Machine.execMmWriteBeat m data strb s
  | .mmBurstPiece t => Sys2Proof.Machine.execMmBurstPiece t s
  | .lockBreak t => Sys2Proof.Machine.execLockBreak t s
  | .cntSnapCtl v => Sys2Proof.Machine.execCntSnapCtl v s
  | .counterSnapshot => Sys2Proof.Machine.execCounterSnapshot s
  | .snapshotDone => Sys2Proof.Machine.execSnapshotDone s
  | .cntThrCfg j v => Sys2Proof.Machine.execCntThrCfg j v s
  | .sltPrsntChange n v => Sys2Proof.Machine.execSltPrsntChange n v s
  | .presenceDebounced n => Sys2Proof.Machine.execPresenceDebounced n s
  | .moduleRemoval n => Sys2Proof.Machine.execModuleRemoval n s
  | .slotPgoodRise n => Sys2Proof.Machine.execSlotPgoodRise n s
  | .rampTimeout n => Sys2Proof.Machine.execRampTimeout n s
  | .slotFault n code => Sys2Proof.Machine.execSlotFault n code s
  | .slotPgoodDrop n => Sys2Proof.Machine.execSlotPgoodDrop n s
  | .pgLost n => Sys2Proof.Machine.execPgLost n s
  | .retryEnd n => Sys2Proof.Machine.execRetryEnd n s
  | .slotFeedChange n feed => Sys2Proof.Machine.execSlotFeedChange n feed s
  | .mclr m n => Sys2Proof.Machine.execMclr m n s
  | .clear m n => Sys2Proof.Machine.execClear m n s
  | .plock m n => Sys2Proof.Machine.execPlock m n s
  | .slotOff m n force => Sys2Proof.Machine.execSlotOff m n force s
  | .slotOn m n => Sys2Proof.Machine.execSlotOn m n s
  | .tokenStart m => Sys2Proof.Machine.execTokenStart m s
  | .tokenData m v => Sys2Proof.Machine.execTokenData m v s
  | .tokenAbort m => Sys2Proof.Machine.execTokenAbort m s
  | .toProvision fuseOk => Sys2Proof.Machine.execToProvision fuseOk s
  | .toField fuseOk => Sys2Proof.Machine.execToField fuseOk s
  | .toReturn fuseOk => Sys2Proof.Machine.execToReturn fuseOk s
  | .toScrap fuseOk => Sys2Proof.Machine.execToScrap fuseOk s
  | .debugUnlock => Sys2Proof.Machine.execDebugUnlock s
  | .floor fuseOk => Sys2Proof.Machine.execFloor fuseOk s
  | .keyProgram m v fuseOk => Sys2Proof.Machine.execKeyProgram m v fuseOk s
  | .relock m => Sys2Proof.Machine.execRelock m s
  | .sessionExpire => Sys2Proof.Machine.execSessionExpire s
  | .jtagInstruction op => Sys2Proof.Machine.execJtagInstruction op s
  | .testScanEnd extest => Sys2Proof.Machine.execTestScanEnd extest s
  | .registerWrite m addr data strb => Sys2Proof.Machine.execRegisterWrite m addr data strb s
  | .epRstReqEpFall n => Sys2Proof.Machine.execEpRstReqEpFall n s
  | .rinkInResetRaise b => Sys2Proof.Machine.execRinkInResetRaise b s
  | .tokenRefusal => Sys2Proof.Machine.execTokenRefusal s

end Sys2Proof.Machine
end

