-- ==== Sys2Proof/Machine/Step.lean ====
section
/-! DEFINITION. One step: the command at the front of the queue, or one cycle of the timing clock when none waits. -/

namespace Sys2Proof.Machine

/-- The outcome of a step: the front command's effect with the queue's rest, or one cycle of the timing clock (02 R20; log 6). -/
def step (s : State) : Host.Outcome State Fault Refusal :=
  match s.pending with
  | [] => .next (timeCycle s)
  | c :: r => exec c { s with pending := r }

/-- s with the command that a table word spells at the front of its queue: no row of the table gives bits (log 21). -/
def State.withFetchWord (s : State) (_nbits _w : Nat) : State := s

end Sys2Proof.Machine
end

