-- ==== Sys2Proof/Safety.lean ====
section
/-! DEFINITION. The terms the statements are made in: a command completes, what a command leaves unchanged, what a notification may
write, and the canonical form of the register words. -/

namespace Sys2Proof.Machine

/-- The command completes at s: exec answers a next state, and it has the property P. -/
def Completes (c : Instr) (s : State) (P : State → Prop) : Prop := ∃ t, exec c s = .next t ∧ P t

/-- Every register word but the listed ones reads the same. -/
def WordsBut (l : List Nat) (s t : State) : Prop := ∀ a, a ∉ l → rd t a = rd s a

/-- NI m, but for the notification queue of its port, is the same in both states. -/
def SameNi (s t : State) (m : Nat) : Prop :=
  getNi t m = { getNi s m with port := { (getNi s m).port with ntfQ := (getNi t m).port.ntfQ } }

/-- The words that the routes of a notification and the event counters may write (03 R57; 18 R387; 20 R422, R432; 23 R478, R482):
GLB_IRQ_PEND, GLB_NTF_FWD_CNT, GLB_FLT_LCNT, NI_EP_NTF_LOST of any NI, and the CNT block below its shadow words. -/
def noteWord (a : Nat) : Bool :=
  a == 0x100 || a == 0x130 || a == 0x540 || (decide (0x200000 ≤ a) && decide (a < 0x400000) && (a - 0x200000) % 0x2000 == 0x20) ||
  (decide (0x400000 ≤ a) && decide (a < 0x480000))

/-- t differs from s only in what notifications and event counts write: those words, the notification queues of ports, the last
records, the forward queue, and the fault log. -/
def NoteOnly (s t : State) : Prop :=
  t = { s with regs := t.regs, nis := t.nis, ntf := t.ntf, flt := { s.flt with log := t.flt.log } } ∧
  (∀ a, noteWord a = false → rd t a = rd s a) ∧ ∀ m, SameNi s t m

/-- t differs from s in NI n alone. -/
def NiOnly (n : Nat) (s t : State) : Prop := t = { s with nis := t.nis } ∧ ∀ m, m ≠ n → getNi t m = getNi s m

/-- t differs from s in NI n, in the listed words, and in what notifications, event counts and free values write. -/
def NiNote (n : Nat) (l : List Nat) (s t : State) : Prop :=
  t = { s with regs := t.regs, nis := t.nis, ntf := t.ntf, flt := { s.flt with log := t.flt.log }, free := t.free } ∧
  (∀ a, a ∉ l → noteWord a = false → rd t a = rd s a) ∧ ∀ m, m ≠ n → SameNi s t m

/-- Every word but the listed ones, and but those that notifications and event counts write, reads the same. -/
def NotedBut (l : List Nat) (s t : State) : Prop := ∀ a, a ∉ l → noteWord a = false → rd t a = rd s a

/-- NI m, but for its notification queue and the credits of its attachments, is the same in both states. -/
def SameNiButCredits (s t : State) (m : Nat) : Prop :=
  getNi t m = { getNi s m with
    port := { (getNi s m).port with ntfQ := (getNi t m).port.ntfQ }
    sched := { (getNi s m).sched with credits := (getNi t m).sched.credits } }

/-- Router y, but for the credits that its outputs are owed (05 R93), is the same in both states. -/
def SameRtrButOwed (s t : State) (y : Nat) : Prop :=
  getRtr t y = { getRtr s y with
    req := { (getRtr s y).req with owed := (getRtr t y).req.owed }, rsp := { (getRtr s y).rsp with owed := (getRtr t y).rsp.owed } }

/-- A message is under way on an attachment's channel behind those that were: its flits are the last of the progress list. -/
def Injects (s t : State) (n : Nat) (alt : Bool) (p : Plane) (ch : Nat) (m : Msg) : Prop :=
  mgetD (getNi t n).sched.prog (attPl alt p) [] = mgetD (getNi s n).sched.prog (attPl alt p) [] ++ [⟨flitsOf m, ch⟩]

/-- A message that NI n makes outside its queues is sent (05 R97, R101): it waits behind another of its plane and class, or while no
attachment and channel takes it; otherwise it is stamped and under way. -/
def SentBy (s t : State) (n : Nat) (p : Plane) (att : Option Bool) (m : Msg) : Prop :=
  if (getNi s n).sched.own.any (fun w => w.pl == p && w.msg.cls == m.cls) || (ownOn s n ⟨p, m, att⟩).isNone then
    (getNi t n).sched.own = (getNi s n).sched.own ++ [⟨p, m, att⟩]
  else
    ∃ alt ch, ownOn s n ⟨p, m, att⟩ = some (alt, ch) ∧ (getNi t n).sched.own = (getNi s n).sched.own ∧
      Injects s t n alt p ch (stampMsg s n { m with vcf := vcfOfChan ch }).1

/-- The flits under way on the link into a port of a router's plane. -/
def linkOf (s : State) (x : Nat) (p : Plane) (port : Nat) : List Flit := mgetD (planeOf (getRtr s x) p).link port []

/-- Every admitted flow's source entry lies in its source's table: 64 entries of an NI, 128 of a span port (06 R119, 12 R264). -/
def flowIdx (s : State) : Bool := s.eng.flows.all fun f => decide (f.2.srcIdx < if nodeLoc f.2.srcNode < 128 then 64 else 128)

/-- Every key of a table is at least lo, and they rise. -/
def rising {α : Type} : Nat → Map α → Bool
  | _, [] => true
  | lo, (k, _) :: r => decide (lo ≤ k) && rising (k + 1) r

/-- No listed word equals its reset value. -/
def noReset : Map Word → Bool
  | [] => true
  | (a, v) :: r => decide (v ≠ resetWord a) && noReset r

/-- The canonical form of the register words (log 33): rising addresses, and no word that equals its reset value. -/
def regsWf (m : Map Word) : Bool := rising 0 m && noReset m

/-- t is s after a cold reset of a cause (17 R374, Table 17.5, Table 17.8): the always-on domain keeps its words and the time; everything
else is as reset leaves it; the reset is counted. -/
def ColdReset (s t : State) (cause : Nat) : Prop :=
  t.rst.inCold = true ∧ t.rst.initDone = false ∧ t.time = s.time ∧
  rdF t 0x438 15 8 = min 255 (rdF s 0x438 15 8 + 1) ∧ rdF t 0x438 4 2 = cause ∧
  (∀ a, a ≠ 0x438 → rd t a = if coldKeeps a then rd s a else resetWord a) ∧ (∀ n, getNi t n = niCold (getNi s n)) ∧
  t.rtrs = [] ∧ t.eng = {} ∧ t.img = {} ∧ t.mmx = {} ∧ t.cnt = {} ∧ t.ntf = {} ∧ t.flt = { log := s.flt.log } ∧
  t.lcs.session = none ∧ t.lcs.busy = false ∧ t.lcs.bytes = []

end Sys2Proof.Machine
end

