-- ==== Sys2Proof/Certificates/Slice0/Obligations.lean ====
section
/-! DEFINITION. The statements, chapter by chapter of the manual. Each says what a command answers: the next state's fields, and, by an
equation of records, that every field it does not name is unchanged. -/

open Sys2Proof Sys2Proof.Machine

/-! Time (02). -/

/-- R23: a write to TIM_STEP loads TIM_NOW and clears the fraction while LOCKED is 0, and only sets STEP_REFUSED once it is 1.
R24: writing 1 to TIM_LOCK sets LOCKED, and with it the register's own bit, which reads as it was set.
R25: a write to TIM_SLEW replaces slew_rem by v x 2^32; with TIM_PPS_EN at 1, or in an instance that takes its time from a span
link, it only sets SLEW_REFUSED. -/
def Obligations.TimeIsLoadedUntilLockedAndSlewed : Prop :=
  (∀ (s : State) (v : Word),
    (bitOf (rd s (aTim 0x40)) 6 = false → Completes (.timStep v) s fun t =>
      nowNs t = v.toNat ∧ t.time.t.toNat % 2 ^ 32 = 0 ∧
      t = { s with time := { s.time with t := t.time.t, ppsAccepted := s.time.ppsAccepted + ((v.toNat : Int) - nowNs s) } }) ∧
    (bitOf (rd s (aTim 0x40)) 6 = true → Completes (.timStep v) s fun t =>
      rd t (aTim 0x40) = rd s (aTim 0x40) ||| 0x10#64 ∧ WordsBut [aTim 0x40] s t ∧ t = { s with regs := t.regs })) ∧
  (∀ s : State, Completes .timLock s fun t =>
    bitOf (rd t (aTim 0x40)) 6 = true ∧ rd t (aTim 0x40) = rd s (aTim 0x40) ||| 0x40#64 ∧
    rd t (aTim 0x38) = rd s (aTim 0x38) ||| 1#64 ∧ WordsBut [aTim 0x40, aTim 0x38] s t ∧ t = { s with regs := t.regs }) ∧
  (∀ (s : State) (v : BitVec 32),
    (bitOf (rd s (aTim 0)) 1 = false → isChild s = false → Completes (.timSlew v) s fun t =>
      t = { s with time := { s.time with slewRem := v.toInt * 2 ^ 32 } }) ∧
    (bitOf (rd s (aTim 0)) 1 = true ∨ isChild s = true → Completes (.timSlew v) s fun t =>
      rd t (aTim 0x40) = rd s (aTim 0x40) ||| 0x20#64 ∧ WordsBut [aTim 0x40] s t ∧ t = { s with regs := t.regs }))

/-- R20: one cycle of the timing clock, which a step on an empty queue is (log 6), adds 2^32 plus the clamped sum of the trim, the slew
term and the rate term to the 96-bit count; the slew term is at most S_MAX. -/
def Obligations.IdleStepCountsOneNsPlusRate : Prop :=
  ∀ s : State, s.pending = [] → ∃ t, step s = .next t ∧
    (t.time.t.toNat : Int) = (s.time.t.toNat + (2 ^ 32 + rateNow s)) % 2 ^ 96 ∧
    rateNow s = max (-2147483) (min 2147483 (trimOf s + slewTerm s + ppsTermOf s)) ∧
    slewTerm s = (if 0 ≤ s.time.slewRem then min s.time.slewRem (slewMax s) else max s.time.slewRem (-(slewMax s : Int))) ∧
    (∀ c ∈ t.pending, c = .gateTick [] ∨ c = .ppsOutRise ∨ c = .tickOutFall ∨ c = .ppsOutFall) ∧
    (Instr.gateTick [] ∈ t.pending ↔ nowNs t / 1024 ≠ nowNs s / 1024) ∧
    WordsBut [aTim 0x40] s t ∧ t = { s with time := t.time, regs := t.regs, pending := t.pending, pwr := { s.pwr with vchg := false } }

/-- R30, R31, R39: with the reference lost TIM_HOLD and HOLD_ENTERED are set, TIM_HOLD_CNT counts and TIM_HOLDOVER is raised; a loss
in holdover restarts the test of the return; a stable reference schedules the return at the next gate tick. -/
def Obligations.ReferenceLossEntersHoldover : Prop :=
  ∀ s : State,
    (s.time.hold = false → Completes .referenceLoss s fun t => ∃ u, NoteOnly u t ∧
      bitOf (rd t (aTim 0)) 0 = true ∧ bitOf (rd t (aTim 0x40)) 0 = true ∧
      rdF t (aTim 0x58) 31 0 = (rdF s (aTim 0x58) 31 0 + 1) % 2 ^ 32 ∧
      t = raiseG u 240 0x020 1 (rdF t (aTim 0x58) 31 0) ∧ WordsBut [aTim 0, aTim 0x40, aTim 0x58] s u ∧
      u = { s with time := { s.time with hold := true, returnDue := false }, regs := u.regs }) ∧
    (s.time.hold = true → Completes .referenceLoss s fun t => t = { s with time := { s.time with returnDue := false } }) ∧
    (s.time.hold = true → Completes .referenceStable s fun t => t = { s with time := { s.time with returnDue := true } })

/-- R32: an edge of tb_pps_in is stamped; in use, its error is recorded, an edge more than 100 us off is rejected, and an accepted one
takes -e into the slew and the rate step into the PPS term.
R33 and R34: PPS_LOST after 2 s without an accepted edge; tb_pps_out rises at a whole second and falls 100 us later, tb_tick_out
falls 8 ns after its rise. -/
def Obligations.PpsEdgesAreJudgedAndOutputsPulse : Prop :=
  (∀ s : State, Completes .ppsEdge s fun t =>
    (rd t (aTim 0x48)).toNat = nowNs s ∧ WordsBut [aTim 0x40, aTim 0x48, aTim 0x50] s t ∧
    t = { s with time := t.time, regs := t.regs } ∧
    (ppsOn s = false → t.time = s.time ∧ WordsBut [aTim 0x48] s t) ∧
    (ppsOn s = true → ∀ e : Int, e = ppsError (nowNs s) → rdF t (aTim 0x50) 31 0 = unsignedOf 32 e ∧
      (100000 < |e| → t.time = s.time ∧ rd t (aTim 0x40) = rd s (aTim 0x40) ||| 0x4#64) ∧
      (|e| ≤ 100000 → rd t (aTim 0x40) = rd s (aTim 0x40) ∧
        t.time = { s.time with
          slewRem := s.time.slewRem - e * 2 ^ 32, ppsTerm := s.time.ppsTerm - ppsStep (e - s.time.ePrev), ePrev := e,
          ppsAccepted := nowNs s }))) ∧
  (∀ s : State,
    (ppsOn s = true → 2000000000 ≤ nowNs s - s.time.ppsAccepted → Completes .ppsLost s fun t =>
      rd t (aTim 0x40) = rd s (aTim 0x40) ||| 0x8#64 ∧ WordsBut [aTim 0x40] s t ∧ t = { s with regs := t.regs }) ∧
    (s.time.ppsDue = true → Completes .ppsOutRise s fun t =>
      t = { s with time := { s.time with ppsOut := true, ppsRise := nowNs s, ppsDue := false } }) ∧
    (s.time.ppsOut = true → 100000 ≤ subMod 64 (nowNs s) s.time.ppsRise → Completes .ppsOutFall s fun t =>
      t = { s with time := { s.time with ppsOut := false } }) ∧
    (s.time.tickOut = true → 8 ≤ subMod 64 (nowNs s) s.time.tickRise → Completes .tickOutFall s fun t =>
      t = { s with time := { s.time with tickOut := false } }))

/-! The endpoint port (03). -/

/-- R46: a header with no error and room is taken in its cycle, and joins its NI in taken order and its queue; a non-posted one holds a
tracker entry under its endpoint tag.
R46: while its port is out of service or its slice's reset is in progress, or with no room for it, a header without an error is held
back: not taken, and nothing of it is kept. -/
def Obligations.IngressRequestIsTakenOrHeldBack : Prop :=
  (∀ (s : State) (n : NiId) (raw : BitVec 128) (k : Nat) (h : IngHdr), h = ingHdr raw → k < 16 →
    portOpen s n.toNat = true → sliceOf? s n.toNat h.pv h.pasid = some k → slcRst s n.toNat k = false →
    errCodeOf s n.toNat (some k) h = 0 → h.cls = false → beFull s n.toNat k h = false →
    isTele s n.toNat h = false → isPtm h = false → (bitOf (rd s (aNi n.toNat 0x130)) 0 = false ∨ (h.opc ≠ 1 ∧ h.opc ≠ 2)) →
    Completes (.ingressRequest n raw) s fun t => ∃ r : Req,
      (getNi t n.toNat).port.accept = true ∧ (getNi t n.toNat).port.err = false ∧
      (getNi t n.toNat).reqs = (getNi s n.toNat).reqs ++ [r] ∧ (getNi t n.toNat).nextId = (getNi s n.toNat).nextId + 1 ∧
      (getQ (getNi t n.toNat) h.queue).reqIds = (getQ (getNi s n.toNat) h.queue).reqIds ++ [r.id] ∧
      r.id = (getNi s n.toNat).nextId ∧ r.slice.toNat = k ∧ r.kind = reqKindOf h.opc ∧ r.posted = isPosted h.opc ∧
      r.q = h.queue ∧ r.beats = ingBeats h ∧ r.issued = false ∧ r.msg.opc.toNat = h.opc ∧
      (isPosted h.opc = false → ∃ g e, r.tag = some g ∧ mget (getNi s n.toNat).trk g.toNat = none ∧
        mget (getNi t n.toNat).trk g.toNat = some e ∧ e.reqId = r.id ∧ e.epTag.toNat = h.tag ∧ e.slice.toNat = k) ∧
      NiNote n.toNat [] s t) ∧
  (∀ (s : State) (n : NiId) (raw : BitVec 128) (k : Nat) (h : IngHdr), h = ingHdr raw →
    isEpNi s n.toNat = true → bitOf (rd s (aNi n.toNat 0)) 0 = true → sliceOf? s n.toNat h.pv h.pasid = some k →
    errCodeOf s n.toNat (some k) h = 0 → h.cls = false →
    (portOpen s n.toNat = false ∨ slcRst s n.toNat k = true ∨ beFull s n.toNat k h = true) →
    Completes (.ingressRequest n raw) s fun t =>
      getNi t n.toNat = { getNi s n.toNat with port :=
        { (getNi s n.toNat).port with accept := false, err := false, errCode := 0, ntfQ := (getNi t n.toNat).port.ntfQ } } ∧
      NiNote n.toNat [] s t)

/-- R46, R47: a header that takes an error is taken with its code; a non-posted one is answered with the matching STAT, TAG echoed and no
data, behind the responses that wait; a posted one is counted in NI_PW_ERR; either way the header is recorded and its beats discarded. -/
def Obligations.IngressErrorIsTakenAndAnswered : Prop :=
  ∀ (s : State) (n : NiId) (raw : BitVec 128) (h : IngHdr) (sl : Option Nat) (code : Nat), h = ingHdr raw →
    portOpen s n.toNat = true → sl = sliceOf? s n.toNat h.pv h.pasid → (∀ k, sl = some k → slcRst s n.toNat k = false) →
    code = errCodeOf s n.toNat sl h → code ≠ 0 → (isPosted h.opc = true ∨ errCount (getNi s n.toNat).port < 16) →
    Completes (.ingressRequest n raw) s fun t =>
      (getNi t n.toNat).port.accept = true ∧ (getNi t n.toNat).port.err = true ∧ (getNi t n.toNat).port.errCode = code ∧
      rd t (aNi n.toNat 0x30) = raw.extractLsb' 0 64 ∧ rd t (aNi n.toNat 0x38) = raw.extractLsb' 64 64 ∧
      (getNi t n.toNat).reqs = (getNi s n.toNat).reqs ∧ (getNi t n.toNat).trk = (getNi s n.toNat).trk ∧
      (isPosted h.opc = false → ∃ e, (getNi t n.toNat).port.ersB = (getNi s n.toNat).port.ersB ++ [e] ∧ e.data = [] ∧
        e.hdr = egrRspHdr (rspOpOf h.opc) false h.tag 0 (statOfErr code) 0 false) ∧
      (isPosted h.opc = true → (getNi t n.toNat).port.ersB = (getNi s n.toNat).port.ersB ∧
        (rd t (aNi n.toNat 0x118)).toNat = min 0xFFFFFFFF ((rd s (aNi n.toNat 0x118)).toNat + 1)) ∧
      (getNi t n.toNat).port.rqRx = (getNi s n.toNat).port.rqRx ++
        (if ingBeats h = 0 then [] else [⟨.discard, ingBeats h, 0, h.cls, ingStart h, ingBytes h⟩]) ∧
      ∀ m, m ≠ n.toNat → SameNi s t m

/-- R43, R48: a beat of a taken best-effort request joins it with its disabled bytes cleared; a beat of an ingress response joins the
oldest response that still expects beats.
R50: an ingress response of an allowed opcode goes on best effort on queue 0; any STAT but OK, TARGET_ERR and POISON is forwarded as
TARGET_ERR and sets MALFORMED_SEEN. -/
def Obligations.BeatsJoinAndResponsesAreForwarded : Prop :=
  (∀ (s : State) (n : NiId) (data : Line) (be : BitVec 64) (last : Bool) (x : Rx) (rest : List Rx) (id : Nat), isEpNi s n.toNat = true →
    bitOf (rd s (aNi n.toNat 0)) 0 = true →
    ((getNi s n.toNat).port.rqRx = x :: rest → x.dest = .req id → x.piste = false → be = beatEnables x.start x.nbytes x.idx →
      Completes (.ingressDataBeat n false data be last false) s fun t =>
        reqById (getNi t n.toNat) id = (reqById (getNi s n.toNat) id).map (fun r =>
          { r with msg := { r.msg with data := r.msg.data ++ [maskLine data be] }, beats := r.beats - 1 }) ∧
        (getNi t n.toNat).port.rqRx = (if x.left ≤ 1 then rest else { x with left := x.left - 1, idx := x.idx + 1 } :: rest) ∧
        NiOnly n.toNat s t) ∧
    ((getNi s n.toNat).port.rsRx = x :: rest → x.dest = .rsp id →
      Completes (.ingressDataBeat n true data be last false) s fun t =>
        (getQ (getNi t n.toNat) 0).rsp = updFirst (getQ (getNi s n.toNat) 0).rsp (fun e => e.id == id && e.beats != 0)
          (fun e => { e with msg := { e.msg with data := e.msg.data ++ [data] }, beats := e.beats - 1 }) ∧
        (getNi t n.toNat).port.rsRx = (if x.left ≤ 1 then rest else { x with left := x.left - 1, idx := x.idx + 1 } :: rest) ∧
        NiOnly n.toNat s t)) ∧
  (∀ (s : State) (n : NiId) (raw : BitVec 128) (h : IngRsp) (stat : Nat), h = ingRsp raw → isEpNi s n.toNat = true →
    bitOf (rd s (aNi n.toNat 0)) 0 = true → (getNi s n.toNat).port.up = true → (getNi s n.toNat).inRst = false →
    (getNi s n.toNat).region = 0 → ingressRspOp h.opc = true → isBirsp h.opc = false → h.opc ≠ 0x69 → h.cls = false →
    rspHalfFull (getNi s n.toNat) = false → (getNi s n.toNat).mirrors = [] →
    stat = (if h.stat = 0 ∨ h.stat = 4 ∨ h.stat = 5 then h.stat else 4) →
    Completes (.ingressResponse n raw) s fun t =>
      (getNi t n.toNat).port.rsAccept = true ∧
      (getQ (getNi t n.toNat) 0).rsp = (getQ (getNi s n.toNat) 0).rsp ++
        [⟨(getNi s n.toNat).nextId, rspMsg s n.toNat h stat false, rspBeats h, none⟩] ∧
      (getNi t n.toNat).port.rsRx = (getNi s n.toNat).port.rsRx ++
        (if rspBeats h = 0 then [] else [⟨.rsp (getNi s n.toNat).nextId, rspBeats h, 0, false, 0, 0⟩]) ∧
      rd t (aNi n.toNat 8) = (if h.stat = 0 ∨ h.stat = 4 ∨ h.stat = 5 then rd s (aNi n.toNat 8) else rd s (aNi n.toNat 8) ||| 0x8#64) ∧
      NiNote n.toNat [aNi n.toNat 8] s t)

/-- R51: returned credits are added counter by counter; a return that would exceed 255 is dropped and sets CRD_OVF.
R53: an egress response channel begins with the waiting G message when its pool holds credits for the header and every beat, and with
the waiting B message only when no G message can begin; the credits are consumed. -/
def Obligations.CreditsReturnAndEgressBegins : Prop :=
  (∀ (s : State) (n : NiId) (hg hb dg db : BitVec 2), isEpNi s n.toNat = true → (getNi s n.toNat).port.up = true →
    (∀ p, p = (getNi s n.toNat).port → Completes (.egressCreditReturn n false hg hb dg db) s fun t =>
      (getNi t n.toNat) = { getNi s n.toNat with port := { p with
        erqHG := if 255 < p.erqHG + hg.toNat then p.erqHG else p.erqHG + hg.toNat
        erqHB := if 255 < p.erqHB + hb.toNat then p.erqHB else p.erqHB + hb.toNat
        erqDG := if 255 < p.erqDG + dg.toNat then p.erqDG else p.erqDG + dg.toNat
        erqDB := if 255 < p.erqDB + db.toNat then p.erqDB else p.erqDB + db.toNat } } ∧
      rd t (aNi n.toNat 8) = (if 255 < p.erqHG + hg.toNat ∨ 255 < p.erqHB + hb.toNat ∨ 255 < p.erqDG + dg.toNat ∨ 255 < p.erqDB + db.toNat
        then rd s (aNi n.toNat 8) ||| 0x20#64 else rd s (aNi n.toNat 8)) ∧
      WordsBut [aNi n.toNat 8] s t ∧ t = { s with regs := t.regs, nis := t.nis } ∧ ∀ m, m ≠ n.toNat → getNi t m = getNi s m) ∧
    (∀ p, p = (getNi s n.toNat).port → Completes (.egressCreditReturn n true hg hb dg db) s fun t =>
      (getNi t n.toNat) = { getNi s n.toNat with port := { p with
        ersHG := if 255 < p.ersHG + hg.toNat then p.ersHG else p.ersHG + hg.toNat
        ersHB := if 255 < p.ersHB + hb.toNat then p.ersHB else p.ersHB + hb.toNat
        ersDG := if 255 < p.ersDG + dg.toNat then p.ersDG else p.ersDG + dg.toNat
        ersDB := if 255 < p.ersDB + db.toNat then p.ersDB else p.ersDB + db.toNat } } ∧
      rd t (aNi n.toNat 8) = (if 255 < p.ersHG + hg.toNat ∨ 255 < p.ersHB + hb.toNat ∨ 255 < p.ersDG + dg.toNat ∨ 255 < p.ersDB + db.toNat
        then rd s (aNi n.toNat 8) ||| 0x20#64 else rd s (aNi n.toNat 8)) ∧
      WordsBut [aNi n.toNat 8] s t ∧ t = { s with regs := t.regs, nis := t.nis } ∧ ∀ m, m ≠ n.toNat → getNi t m = getNi s m)) ∧
  (∀ (s : State) (n : NiId) (e : Egr) (p : Port), isEpNi s n.toNat = true → p = (getNi s n.toNat).port → p.up = true →
    (p.ersG.head? = some e → e.piste = true → 1 ≤ p.ersHG → e.data.length ≤ p.ersDG →
      Completes (.egressMessageStart n true) s fun t =>
        (getNi t n.toNat).port.outErs = some (ptmStamp s e) ∧ (getNi t n.toNat).port.ersG = p.ersG.tail ∧ (getNi t n.toNat).port.ersB = p.ersB ∧
        (getNi t n.toNat).port.ersHG = p.ersHG - 1 ∧ (getNi t n.toNat).port.ersDG = p.ersDG - (ptmStamp s e).data.length ∧
        (getNi t n.toNat).port.ersHB = p.ersHB ∧ (getNi t n.toNat).port.ersDB = p.ersDB ∧
        NiNote n.toNat [aNi n.toNat 0x80] s t) ∧
    (p.ersG = [] → p.ersB.head? = some e → e.piste = false → 1 ≤ p.ersHB → e.data.length ≤ p.ersDB →
      Completes (.egressMessageStart n true) s fun t =>
        (getNi t n.toNat).port.outErs = some (ptmStamp s e) ∧ (getNi t n.toNat).port.ersB = p.ersB.tail ∧
        (getNi t n.toNat).port.ersHB = p.ersHB - 1 ∧ (getNi t n.toNat).port.ersDB = p.ersDB - (ptmStamp s e).data.length ∧
        (getNi t n.toNat).port.ersHG = p.ersHG ∧ (getNi t n.toNat).port.ersDG = p.ersDG ∧
        NiNote n.toNat [aNi n.toNat 0x80] s t))

/-- R55, R182: a fence strobe is ordered after every request of its slice taken so far; when nothing earlier of its slice holds it, the
oldest fence of the slice is satisfied and ep_fn_done carries its identifier; a strobe that selects no slice completes at once. -/
def Obligations.FenceStrobeOrdersAndCompletes : Prop :=
  ∀ (s : State) (n : NiId) (rw pv : Bool) (pasid : BitVec 20) (id sl : BitVec 4),
    (portOpen s n.toNat = true → ((getNi s n.toNat).fences.filter fun f => f.strobe.isSome).length < 16 →
      sliceOf? s n.toNat pv pasid.toNat = some sl.toNat → slcRst s n.toNat sl.toNat = false →
      Completes (.fenceStrobe n rw pv pasid id) s fun t =>
        getNi t n.toNat = { getNi s n.toNat with
          fences := (getNi s n.toNat).fences ++ [⟨sl, rw, (getNi s n.toNat).nextId, some id, none⟩]
          port := { (getNi s n.toNat).port with fnReady := true } } ∧ NiOnly n.toNat s t) ∧
    (portOpen s n.toNat = true → ((getNi s n.toNat).fences.filter fun f => f.strobe.isSome).length < 16 →
      sliceOf? s n.toNat pv pasid.toNat = none →
      Completes (.fenceStrobe n rw pv pasid id) s fun t =>
        getNi t n.toNat = { getNi s n.toNat with port := { (getNi s n.toNat).port with fnReady := true, fnDone := [id] } } ∧
        NiOnly n.toNat s t) ∧
    (∀ f : Fence, (getNi s n.toNat).fences.find? (fun g => g.slice == sl) = some f → f.strobe = some id → slcRst s n.toNat sl.toNat = false →
      (∀ r ∈ (getNi s n.toNat).reqs, r.slice = sl → r.id < f.after → r.kind ≠ .other → f.rw = false ∧ r.posted = false) →
      Completes (.fenceSatisfied n sl) s fun t =>
        (getNi t n.toNat).port = { (getNi s n.toNat).port with fnDone := [id] } ∧
        (getNi t n.toNat).fences = (takeFirst (getNi s n.toNat).fences fun g => g.slice == sl).2 ∧
        (getNi t n.toNat).reqs = (getNi s n.toNat).reqs ∧ NiOnly n.toNat s t)

/-- R58: a request from the endpoint takes the port out of service; the NI raises ep_rst_in_ni once its beats are complete, lowers its
request when it sees both in-reset signals, lowers ep_rst_in_ni when both requests are 0, and raises ep_up when both in-reset signals are
0, with the egress credit counters at 0 and, after an NI reset, the done pulses of its strobe fences; an endpoint that has not entered
reset within 1 ms sets RST_STALL. -/
def Obligations.ResetHandshakeRunsInOrder : Prop :=
  ∀ (s : State) (n : NiId) (p : Port), isEpNi s n.toNat = true → bitOf (rd s (aNi n.toNat 0)) 0 = true → p = (getNi s n.toNat).port →
    ((getNi s n.toNat).members = [] → Completes (.epResetRequest n) s fun t =>
      (getNi t n.toNat).port = { p with
        up := false, accept := false, rsAccept := false, fnReady := false, tbValid := false, resetting := true
        inEpSeen := (if p.resetting then p.inEpSeen else p.inEp)
        reqNs := (if p.resetting then p.reqNs else nowNs s), reqEp := true } ∧ NiOnly n.toNat s t) ∧
    (p.resetting = true → p.inNi = false → p.rqRx = [] → p.rsRx = [] → (p.reqEp = true ∨ p.reqNi = true) →
      (p.inEp = false ∨ p.reqEp = true) → Completes (.niRstInRaise n) s fun t =>
        (getNi t n.toNat).port = { p with inNi := true, reqNi := (if p.inEp then false else p.reqNi) } ∧ NiOnly n.toNat s t) ∧
    (p.inEp = true → p.inNi = true → p.reqEp = true → p.reqNi = false → Completes (.epRstReqEpFall n) s fun t =>
      (getNi t n.toNat).port = { p with reqEp := false, inNi := false } ∧ NiOnly n.toNat s t) ∧
    (p.inNi = false → p.inEp = true → Completes (.epRstInEpChange n false) s fun t =>
      (getNi t n.toNat).port = { p with inEp := false } ∧ NiOnly n.toNat s t) ∧
    (p.up = false → p.inEp = false → p.inNi = false → p.reqEp = false → p.reqNi = false → (getNi s n.toNat).region = 0 →
      s.rst.warm = 0 → s.rst.inCold = false → Completes (.epUpRaise n) s fun t =>
        (getNi t n.toNat).inRst = false ∧
        (getNi t n.toNat).fences = (if (getNi s n.toNat).inRst then [] else (getNi s n.toNat).fences) ∧
        (getNi t n.toNat).port = { p with
          fnDone := (if (getNi s n.toNat).inRst && !((getNi s n.toNat).fences.filterMap (·.strobe)).isEmpty
            then (getNi s n.toNat).fences.filterMap (·.strobe) else p.fnDone)
          up := true, resetting := false, tbValid := false, fnReady := true
          erqHG := 0, erqHB := 0, erqDG := 0, erqDB := 0, ersHG := 0, ersHB := 0, ersDG := 0, ersDB := 0 } ∧ NiOnly n.toNat s t) ∧
    (p.resetting = true → p.inEpSeen = false → p.reqNs + 1000000 ≤ nowNs s → Completes (.rstStall n) s fun t =>
      rd t (aNi n.toNat 8) = rd s (aNi n.toNat 8) ||| 0x40#64 ∧ WordsBut [aNi n.toNat 8] s t ∧ t = { s with regs := t.regs })

/-! The mesh (05, 06, 10). -/

/-- R65, R66, R93: a header flit with no error, of a class and channel that fit its opcode, enters the buffer of its channel at the input
port and leaves the link; with an uncorrectable header, or a class or channel that does not fit, it is discarded and counted. -/
def Obligations.HeaderFlitEntersItsBuffer : Prop :=
  ∀ (s : State) (pl : Plane) (x : RtrId) (port : BitVec 4) (err : FlitErr) (f : Flit) (rest : List Flit) (k p ch key : Nat),
    k = x.toNat → p = port.toNat → ch = f.ch → key = 16 * p + ch → isRtr s k = true → (getRtr s k).failed = false →
    linkOf s k pl p = f :: rest → (bufOf (planeOf (getRtr s k) pl) key).length < 4 → f.idx = 0 → f.chk = 0 →
    (ch = 0 → mgetD (planeOf (getRtr s k) pl).schn p false = false ∨ presetInto s k pl p (fcNow s) = false) →
    (clsOk f.msg = true → f.msg.len.toNat ≤ 64 → err = FlitErr.clean → Completes (.routerFlitArrive pl x port err) s fun t =>
      linkOf t k pl p = rest ∧
      bufOf (planeOf (getRtr t k) pl) key = bufOf (planeOf (getRtr s k) pl) key ++
        [if ch = 7 ∧ (neighbour s k p).isNone then { f with msg := { f.msg with root := k } } else f] ∧
      (∀ j, j ≠ key → bufOf (planeOf (getRtr t k) pl) j = bufOf (planeOf (getRtr s k) pl) j) ∧
      (∀ y, y ≠ k → getRtr t y = getRtr s y) ∧ (∀ m, SameNi s t m) ∧ NotedBut [aRtr k 0x38, aRtr k 0x70] s t ∧
      (spanAt s k p = none → t.spans = s.spans) ∧
      t = { s with
        regs := t.regs, rtrs := t.rtrs, nis := t.nis, spans := t.spans, ntf := t.ntf, flt := { s.flt with log := t.flt.log } }) ∧
    (clsOk f.msg = false → f.msg.len.toNat ≤ 64 → err = FlitErr.clean → Completes (.routerFlitArrive pl x port err) s fun t =>
      linkOf t k pl p = rest ∧ (∀ j, bufOf (planeOf (getRtr t k) pl) j = bufOf (planeOf (getRtr s k) pl) j) ∧
      (rd t (aRtr k 0x30)).toNat = min 0xFFFFFFFF ((rd s (aRtr k 0x30)).toNat + 1) ∧
      rd t (aRtr k 0x10) = rd s (aRtr k 0x10) ||| 1#64 ∧
      rd t (aRtr k 0x48) = (msgHdr f.msg false).extractLsb' 64 64 ∧
      (∀ y, y ≠ k → SameRtrButOwed s t y) ∧ (∀ m, SameNiButCredits s t m) ∧
      NotedBut [aRtr k 0x38, aRtr k 0x30, aRtr k 0x48, aRtr k 0x10] s t) ∧
    (∀ g, err.ctl = 0 → g = flitRx f err.flip → g.hdr = .uncorrectable → g.flit.idx = 0 →
      ueRecent s (getRtr s k).rx (linkKey pl p) + g.ues.length + 1 < 4 → Completes (.routerFlitArrive pl x port err) s fun t =>
      linkOf t k pl p = rest ∧ (∀ j, bufOf (planeOf (getRtr t k) pl) j = bufOf (planeOf (getRtr s k) pl) j) ∧
      (rd t (aRtr k 0x30)).toNat = min 0xFFFFFFFF ((rd s (aRtr k 0x30)).toNat + 1) ∧ bitOf (rd t (aRtr k 0x10)) 2 = true ∧
      (∀ y, y ≠ k → SameRtrButOwed s t y) ∧ (∀ m, SameNiButCredits s t m) ∧
      NotedBut [aRtr k 0x38, aRtr k 0x30, aRtr k 0x48, aRtr k 0x10, aRtr k 0xC8, 0x500] s t)

/-- R90, R93, R109: of the inputs that can send to a mesh output, the first after the last winner wins, with G before its other
channels; the flit crosses to the neighbour with its new channel code, its buffer place is free, and the channel's credit is spent. -/
def Obligations.OutputForwardsRoundRobinWinner : Prop :=
  ∀ (s : State) (pl : Plane) (x : RtrId) (out : BitVec 4) (err : FlitErr) (k o j p ch c y inp : Nat) (f : Flit) (rest : List Flit) (r : RtrPlane),
    k = x.toNat → o = out.toNat → r = planeOf (getRtr s k) pl → isRtr s k = true → (getRtr s k).failed = false →
    discardSteps s k pl = s → presetAt s k pl o (fcNow s) = none → portUp s k pl o = true →
    neighbour s k o = some (y, inp) → (getRtr s y).failed = false → j < 16 → p = (mgetD r.lastIn o 15 + 1 + j) % 16 →
    (∀ i, i < j → inputPick s k pl o ((mgetD r.lastIn o 15 + 1 + i) % 16) = none) →
    inputPick s k pl o p = some (ch, c) → bufOf r (16 * p + ch) = f :: rest → ch ≠ 7 →
    Completes (.routerFlitForward pl x out err) s fun t =>
      linkOf t y pl inp = linkOf s y pl inp ++ [{ f with ch := c, gout := none, msg := { f.msg with vcf := vcfOfChan c } }] ∧
      bufOf (planeOf (getRtr t k) pl) (16 * p + ch) = rest ∧
      outCredit (planeOf (getRtr t k) pl) o c = outCredit r o c - 1 ∧
      mgetD (planeOf (getRtr t k) pl).lastIn o 15 = p ∧
      mget (planeOf (getRtr t k) pl).owner (16 * o + c) =
        (if f.gout.isSome then mget r.owner (16 * o + c) else if f.last then none else some (16 * p + ch)) ∧
      (∀ m, SameNiButCredits s t m) ∧ (∀ z, z ≠ k → z ≠ y → SameRtrButOwed s t z) ∧ NotedBut [aRtr k 0x40] s t ∧
      t = { s with regs := t.regs, rtrs := t.rtrs, nis := t.nis, ntf := t.ntf, flt := { s.flt with log := t.flt.log } }

/-- R91, R92, R93, R102: a back-channel word gives its count of the credits owed back to the channel it names; a best-effort header that has waited
ESC_WAIT fc competes for its escape channel from then on. -/
def Obligations.CreditsReturnAndEscapeOpens : Prop :=
  (∀ (s : State) (pl : Plane) (x : RtrId) (out : BitVec 4) (w : BitVec 16) (d c ch k o : Nat), k = x.toNat → o = out.toNat →
    isRtr s k = true → (getRtr s k).failed = false → o < 10 → ctlDecode w = (d, .none) → d / 1024 % 2 = 1 → c = d / 8 % 8 → 1 ≤ c → c ≤ 4 →
    ch = d / 64 % 16 → ch ≤ 8 → outCredit (planeOf (getRtr s k) pl) o ch + c ≤ 4 →
    Completes (.linkCreditReturn pl x out w) s fun t =>
      outCredit (planeOf (getRtr t k) pl) o ch =
        outCredit (planeOf (getRtr s k) pl) o ch + min c (mgetD (planeOf (getRtr s k) pl).owed (16 * o + ch) 0) ∧
      mgetD (planeOf (getRtr t k) pl).owed (16 * o + ch) 0 = mgetD (planeOf (getRtr s k) pl).owed (16 * o + ch) 0 - c ∧
      (∀ q h, h ≤ 8 → (q, h) ≠ (o, ch) → outCredit (planeOf (getRtr t k) pl) q h = outCredit (planeOf (getRtr s k) pl) q h) ∧
      (∀ y, y ≠ k → getRtr t y = getRtr s y) ∧ t = { s with rtrs := t.rtrs }) ∧
  (∀ (s : State) (pl : Plane) (x : RtrId) (port ch : BitVec 4) (f : Flit) (rest : List Flit) (g : Grant) (k key : Nat), k = x.toNat →
    key = 16 * port.toNat + ch.toNat → (ch = 5 ∨ ch = 6) → bufOf (planeOf (getRtr s k) pl) key = f :: rest → f.idx = 0 → f.msg.cls = 0 →
    g = mgetD (planeOf (getRtr s k) pl).grant key {} → g.out = 15 → g.discard = false →
    Completes (.escWaitExpire pl x port ch) s fun t =>
      mget (planeOf (getRtr t k) pl).grant key = some { g with waited := max 1 (rdF s (aRtr k 8) 7 0) } ∧
      t = updPlane s pl k fun r => { r with grant := (planeOf (getRtr t k) pl).grant })

/-- R94, R108, R131: the flit that SCHN announced crosses a preset output in its reserved fc without a buffer, and is announced at the
next router; a reserved fc without it is released and counted. -/
def Obligations.SchussFlitPassesWithoutBuffer : Prop :=
  ∀ (s : State) (pl : Plane) (x : RtrId) (out : BitVec 4) (fc : BitVec 12) (err eject : FlitErr) (e : Preset) (k o : Nat),
    k = x.toNat → o = out.toNat → isRtr s k = true → (getRtr s k).failed = false → outTakes s k pl o = true →
    presetAt s k pl o fc.toNat = some e →
    (∀ f rest y inp, mgetD (planeOf (getRtr s k) pl).schn e.inp false = true →
      takeFirst (linkOf s k pl e.inp) (fun f => f.ch == 0) = (some f, rest) → err = FlitErr.clean → f.chk = 0 →
      (f.idx = 0 → clsOk f.msg = true ∧ f.msg.len.toNat ≤ 64) → contDrops s k pl e.inp f = false → portUp s k pl o = true →
      neighbour s k o = some (y, inp) → y ≠ k → (getRtr s y).failed = false → Completes (.schussPass pl x out fc err eject) s fun t =>
        linkOf t k pl e.inp = rest ∧ linkOf t y pl inp = linkOf s y pl inp ++ [f] ∧
        mgetD (planeOf (getRtr t y) pl).schn inp false = true ∧
        (planeOf (getRtr t k) pl).buf = (planeOf (getRtr s k) pl).buf ∧ (planeOf (getRtr t k) pl).credits = (planeOf (getRtr s k) pl).credits ∧
        (∀ z, z ≠ k → z ≠ y → getRtr t z = getRtr s z) ∧ (∀ m, SameNi s t m) ∧ NotedBut [aRtr k 0x38] s t ∧
        (spanAt s k e.inp = none → t.spans = s.spans) ∧
        t = { s with
          regs := t.regs, rtrs := t.rtrs, nis := t.nis, spans := t.spans, ntf := t.ntf, flt := { s.flt with log := t.flt.log } }) ∧
    (mgetD (planeOf (getRtr s k) pl).schn e.inp false = false ∨ (∀ f ∈ linkOf s k pl e.inp, f.ch ≠ 0) →
      Completes (.schussPass pl x out fc err eject) s fun t =>
        (rd t (aRtr k 0x68)).toNat = min 0xFFFFFFFF ((rd s (aRtr k 0x68)).toNat + 1) ∧ NotedBut [aRtr k 0x68] s t ∧
        (∀ m, SameNi s t m) ∧ t = { s with regs := t.regs, nis := t.nis, ntf := t.ntf, flt := { s.flt with log := t.flt.log } })

/-- R217 to R220: a multicast copy in stage 2 takes a gather entry of its originator and tag, with the outputs of its children, and waits
without one; each branch sends the copy's flits one grant at a time, and the last flit of the last branch frees the buffer; an answer
of a child not yet done merges into the entry, the last child's makes it due, and any other is discarded and counted; at its deadline
an entry is due, with GATHER_SHORT where its STAT was OK; a due entry's answer takes its turn for the output to its parent, and the entry
is free. -/
def Obligations.MulticastIsReplicatedAndGathered : Prop :=
  (∀ (s : State) (x : RtrId) (port : BitVec 4) (k p : Nat) (f : Flit) (rest : List Flit), k = x.toNat → p = port.toNat →
    isRtr s k = true → (getRtr s k).failed = false → mcWaiting (getRtr s k).req p = true →
    bufOf (getRtr s k).req (16 * p + 7) = f :: rest → f.msg.ep.toNat = rtrEp s k →
    (∀ e, freeGather s k = some e → (getRtr s k).gather.length < 255 → mcChild s k f.msg ≠ 0 →
      Completes (.mcCopyReplicate x port) s fun t => ∃ g,
        mget (getRtr t k).gather e = some g ∧ g.orig = f.msg.src ∧ g.tag = f.msg.tag ∧ g.parent = port ∧
        g.child = BitVec.ofNat 10 (mcChild s k f.msg) ∧ g.done = 0 ∧ g.gcnt = 0 ∧ g.stat = 0 ∧ g.st = 3 ∧
        g.deadline = (frameOf s + max 1 (rdF s 0xF000 7 0)) % 2 ^ 48 ∧
        mget (getRtr t k).req.copies p = some (mcChild s k f.msg, e) ∧ (getRtr t k).req.buf = (getRtr s k).req.buf ∧
        (∀ j, j ≠ e → mget (getRtr t k).gather j = mget (getRtr s k).gather j) ∧
        (∀ y, y ≠ k → getRtr t y = getRtr s y) ∧ t = { s with rtrs := t.rtrs }) ∧
    (freeGather s k = none → Completes (.mcCopyReplicate x port) s fun t =>
        (rd t (aRtr k 0xA8)).toNat = min 0xFFFFFFFF ((rd s (aRtr k 0xA8)).toNat + 1) ∧ t.rtrs = s.rtrs ∧ NoteOnly { s with regs := putWord s.regs (aRtr k 0xA8) (rd t (aRtr k 0xA8)) } t)) ∧
  (∀ (s : State) (x : RtrId) (port : BitVec 4) (k p key : Nat) (f : Flit) (rest : List Flit) (r : Rtr), k = x.toNat → p = port.toNat →
    key = 16 * p + 7 → r = getRtr s k → isRtr s k = true → r.failed = false → bufOf r.rsp key = f :: rest →
    (∀ e g, r.gather.find? (fun q => q.2.orig == f.msg.dst && q.2.tag == f.msg.tag && q.2.child.getLsbD p && !q.2.done.getLsbD p && !q.2.due) = some (e, g) →
      Completes (.gatherAnswer x port) s fun t =>
        mget (getRtr t k).gather e = some { gatherMerge g p f.msg with due := decide ((gatherMerge g p f.msg).done = g.child) } ∧ (gatherMerge g p f.msg).done = g.done ||| BitVec.ofNat 10 (2 ^ p) ∧
        (gatherMerge g p f.msg).gcnt.toNat = min 255 (g.gcnt.toNat + msgGcnt f.msg) ∧ bufOf (getRtr t k).rsp key = rest ∧
        (∀ m, SameNiButCredits s t m) ∧ (∀ y, y ≠ k → SameRtrButOwed s t y) ∧ t = { s with rtrs := t.rtrs, nis := t.nis }) ∧
    ((∀ q ∈ r.gather, ¬(q.2.orig = f.msg.dst ∧ q.2.tag = f.msg.tag ∧ q.2.child.getLsbD p = true ∧ q.2.done.getLsbD p = false ∧
        q.2.due = false)) →
      Completes (.gatherAnswer x port) s fun t =>
        (rd t (aRtr k 0x98)).toNat = min 0xFFFFFFFF ((rd s (aRtr k 0x98)).toNat + 1) ∧ bufOf (getRtr t k).rsp key = rest ∧
        (getRtr t k).gather = r.gather ∧ NotedBut [aRtr k 0x98] s t)) ∧
  (∀ (s : State) (x : RtrId) (e : BitVec 8) (k : Nat) (g : Gather), k = x.toNat → mget (getRtr s k).gather e.toNat = some g →
    frameGe (frameOf s) g.deadline = true → g.due = false → Completes (.gatherExpire x e) s fun t =>
      mget (getRtr t k).gather e.toNat = some { g with stat := (if g.stat = 0 then 11 else g.stat), due := true } ∧
      (∀ j, j ≠ e.toNat → mget (getRtr t k).gather j = mget (getRtr s k).gather j) ∧ (∀ y, y ≠ k → getRtr t y = getRtr s y) ∧
      (rd t (aRtr k 0xA0)).toNat = min 0xFFFFFFFF ((rd s (aRtr k 0xA0)).toNat + 1) ∧ NotedBut [aRtr k 0xA0] s t ∧ ∀ m, SameNi s t m) ∧
  (∀ (s : State) (pl : Plane) (x : RtrId) (out : BitVec 4) (err : FlitErr) (k o y inp : Nat), k = x.toNat → o = out.toNat →
    isRtr s k = true → (getRtr s k).failed = false → discardSteps s k pl = s → presetAt s k pl o (fcNow s) = none →
    portUp s k pl o = true → neighbour s k o = some (y, inp) → (getRtr s y).failed = false →
    (∀ e g more, pl = .rsp → readyInputs s k .rsp o = (10, 7, 7) :: more → gatherDue s k o = some e → mget (getRtr s k).gather e = some g →
      Completes (.routerFlitForward pl x out err) s fun t =>
        mget (getRtr t k).gather e = none ∧ linkOf t y .rsp inp = linkOf s y .rsp inp ++ [{ msg := sealMsg (gatherMsg s k g), ch := 7 }] ∧
        outCredit (getRtr t k).rsp o 7 = outCredit (getRtr s k).rsp o 7 - 1 ∧ (∀ z, z ≠ k → z ≠ y → getRtr t z = getRtr s z) ∧
        (∀ m, SameNi s t m) ∧ NotedBut [] s t) ∧
    (∀ p f r more left, pl = .req → r = (getRtr s k).req → readyInputs s k .req o = (p, 7, 7) :: more → branchFlit r p o = some f →
      left = (mgetD r.copies p (0, 0)).1 - 2 ^ o → Completes (.routerFlitForward pl x out err) s fun t =>
        linkOf t y .req inp = linkOf s y .req inp ++ [{ f with ch := 7 }] ∧ outCredit (getRtr t k).req o 7 = outCredit r o 7 - 1 ∧
        (f.last = false → mgetD (getRtr t k).req.copyIdx (16 * p + o) 0 = mgetD r.copyIdx (16 * p + o) 0 + 1 ∧
          mget (getRtr t k).req.copies p = mget r.copies p ∧ bufOf (getRtr t k).req (16 * p + 7) = bufOf r (16 * p + 7)) ∧
        (f.last = true → left ≠ 0 → mget (getRtr t k).req.copies p = some (left, (mgetD r.copies p (0, 0)).2) ∧
          bufOf (getRtr t k).req (16 * p + 7) = bufOf r (16 * p + 7)) ∧
        (f.last = true → left = 0 → mget (getRtr t k).req.copies p = none ∧
          bufOf (getRtr t k).req (16 * p + 7) = (bufOf r (16 * p + 7)).drop (copyLen r p)) ∧
        (∀ z, z ≠ k → z ≠ y → SameRtrButOwed s t z) ∧ (∀ m, SameNiButCredits s t m) ∧ NotedBut [] s t))

/-! The network interfaces (04, 06 to 11, 23). -/

/-- R66, R75, R204, R205, R209: the oldest request that passed its checks is presented on egress REQ with the header of the port; with no
TBT row, or in the wrong instance, the NI answers DECODE_ERR; failing the lift check, it answers PERM_DENIED. Both answers wait in the
answer list and are counted. R285: a service NI takes a 4-byte IO_MWR to a ring's PI as a write of it; any other opcode or size is answered
TARGET_ERR (the model's choice, log 41). -/
def Obligations.RequestIsJudgedAtItsTarget : Prop :=
  ∀ (s : State) (n : NiId) (k : Nat) (m : Msg) (alt : Bool) (rest : List (Msg × Bool)), k = n.toNat →
    (getNi s k).answers.length < 16 → takeFirst (getNi s k).inReq (fun q => targetMsg q.1 && !moveHolds s k q.1) = (some (m, alt), rest) →
    clsOk m = true → m.taint = false → msgCrc m = m.crc → niDown s k = false → isBisnp m.opc.toNat = false →
    (∀ j, m.cls = 1 → twinKey s m = some j → twinPasses (mget (getNi s k).pst.twins j) m = true) →
    (∀ addr row, targetDecide s k m = .present addr row → isSvcNi s k = false → Completes (.requestArriveAtTarget n) s fun t => ∃ e : Egr,
      (getNi t k).inReq = rest ∧ (getNi t k).answers = (getNi s k).answers ∧
      (getNi t k).port = { (getNi s k).port with
        ntfQ := (getNi t k).port.ntfQ
        erqG := (getNi s k).port.erqG ++ (if m.cls = 1 then [e] else []), erqB := (getNi s k).port.erqB ++ (if m.cls = 1 then [] else [e]) } ∧
      e.hdr = egrReqHdr m.opc.toNat (m.cls == 1) m.src.toNat m.slice.toNat m.gen.toNat m.tag.toNat
        (if isLineOp m.opc.toNat then 64 * m.len.toNat else m.nbytes.toNat) m.poison m.nt addr ∧
      e.data = m.data ∧ ∀ j, j ≠ k → SameNi s t j) ∧
    (∀ addr row, targetDecide s k m = .present addr row → isSvcNi s k = true → Completes (.requestArriveAtTarget n) s fun t =>
      (getNi t k).inReq = rest ∧ (getNi t k).port = (getNi s k).port ∧
      (m.opc ≠ 0x71 ∨ m.nbytes ≠ 4 → t.regs = s.regs ∧
        (getNi t k).answers = (getNi s k).answers ++ [{ msg := answerMsg s k m (rspOpOf m.opc.toNat) 4 0, piste := m.cls == 1 }]) ∧
      (∀ q, m.opc = 0x71 → m.nbytes = 4 → q < 16 → 120 + q % nRinks s = k → addr = 0x80000 + 16 * q → s.gen.eng = true →
        (getRing s q).resetNs ≠ some (nowNs s) →
        rdF t (aEng (0x118 + 0x40 * q)) 11 0 = ((m.data.headD 0).extractLsb' (8 * (addr % 64)) 12).toNat ∧
        WordsBut [aEng (0x118 + 0x40 * q)] s t ∧
        (getNi t k).answers = (getNi s k).answers ++ [{ msg := answerMsg s k m (rspOpOf m.opc.toNat) 0 0, piste := m.cls == 1 }]) ∧
      t = { s with regs := t.regs, nis := t.nis } ∧ ∀ j, j ≠ k → getNi t j = getNi s j) ∧
    (∀ miss, targetDecide s k m = .decodeErr miss → Completes (.requestArriveAtTarget n) s fun t =>
      (getNi t k).inReq = rest ∧ (getNi t k).port = (getNi s k).port ∧
      (getNi t k).answers = (getNi s k).answers ++ [{ msg := answerMsg s k m (rspOpOf m.opc.toNat) 1 0, piste := m.cls == 1 }] ∧
      (rd t (aNi k 0x1C58)).toNat = min 0xFFFFFFFF ((rd s (aNi k 0x1C58)).toNat + 1) ∧
      bitOf (rd t (aNi k 0x1C00)) 4 = (bitOf (rd s (aNi k 0x1C00)) 4 || miss) ∧
      NiNote k [aNi k 0x1C58, aNi k 0x1C00] s t) ∧
    (∀ why, targetDecide s k m = .denied why → Completes (.requestArriveAtTarget n) s fun t =>
      (getNi t k).inReq = rest ∧ SameNi { s with nis := mset s.nis k { getNi s k with inReq := rest, answers := (getNi t k).answers, pst := (getNi t k).pst } } t k ∧
      (getNi t k).answers = (getNi s k).answers ++ [{ msg := answerMsg s k m (rspOpOf m.opc.toNat) 2 0, piste := m.cls == 1 }] ∧
      (rd t (aNi k 0x1C68)).toNat = min 0xFFFFFFFF ((rd s (aNi k 0x1C68)).toNat + 1) ∧
      rd t (aNi k 0x1C78) = m.addr.zeroExtend 64 ∧ bitOf (rd t (aNi k 0x1C00)) 3 = true)

/-- R240, R496, R167: a response of the current generation completes the request of its tracker entry: the entry is free and the
endpoint's response, with its own tag, waits on egress RSP, with data when STAT is OK or POISON; a response that matches no entry, or of
another generation, is discarded and counted. -/
def Obligations.ResponseCompletesItsRequest : Prop :=
  ∀ (s : State) (n : NiId) (k : Nat) (m : Msg) (alt : Bool) (rest : List (Msg × Bool)), k = n.toNat →
    takeFirst (getNi s k).inRsp (fun q => q.1.opc != 0x7A) = (some (m, alt), rest) →
    clsOk m = true → m.taint = false → msgCrc m = m.crc → niDown s k = false → m.opc ≠ 0x69 →
    (∀ j, m.cls = 1 → twinKey s m = some j → twinPasses (mget (getNi s k).pst.twins j) m = true) →
    (∀ e, m.gen = slcGen s k m.slice.toNat → mget (getNi s k).trk m.tag.toNat = some e → e.slice = m.slice → e.hold = .live → e.fwd = false →
      e.posted = false → e.group = none → e.slot = none → Completes (.responseArriveAtRequester n) s fun t => ∃ g : Egr,
        (getNi t k).inRsp = rest ∧ mget (getNi t k).trk m.tag.toNat = none ∧ (∀ r ∈ (getNi t k).reqs, r.id ≠ e.reqId) ∧
        (if g.piste then (getNi t k).port.ersG = (getNi s k).port.ersG ++ [g] ∧ (getNi t k).port.ersB = (getNi s k).port.ersB
          else (getNi t k).port.ersB = (getNi s k).port.ersB ++ [g] ∧ (getNi t k).port.ersG = (getNi s k).port.ersG) ∧
        g.piste = (m.cls == 1) ∧
        (statKeeps (msgStat m) = true → g.data = m.data ∧
          g.hdr = egrRspHdr m.opc.toNat (m.cls == 1) e.epTag.toNat m.nbytes.toNat (msgStat m) (msgGcnt m) m.poison) ∧
        (statKeeps (msgStat m) = false → g.data = [] ∧
          g.hdr = egrRspHdr (rspOpOf e.opc.toNat) (m.cls == 1) e.epTag.toNat 0 (msgStat m) (msgGcnt m) m.poison) ∧
        NiOnly k s t) ∧
    ((m.gen ≠ slcGen s k m.slice.toNat ∨ mget (getNi s k).trk m.tag.toNat = none) → Completes (.responseArriveAtRequester n) s fun t =>
        (getNi t k) = { getNi s k with inRsp := rest, pst := (getNi t k).pst } ∧
        (rd t (aNi k (0x210 + 0x20 * m.slice.toNat))).toNat = min 0xFFFFFFFF ((rd s (aNi k (0x210 + 0x20 * m.slice.toNat))).toNat + 1) ∧
        NiNote k [aNi k (0x210 + 0x20 * m.slice.toNat)] s t)

/-- R205, R131, R134, R144, R173: the oldest answer goes to the RSP half of queue 0 while that has a place; a staged piste message whose
slot has come goes, announced, onto its flow's attachment, or the other one in the case of the router it reaches, its request is issued, and
it counts as late in a later frame than its own. -/
def Obligations.AnswersLeaveAndPisteLaunches : Prop :=
  (∀ (s : State) (n : NiId) (a : Answer) (rest : List Answer), (getNi s n.toNat).answers = a :: rest → a.piste = false →
    rspPlaces (getNi s n.toNat) = false → (∀ q ∈ (getNi s n.toNat).members, q.2.due = none) → Completes (.answerListDequeue n) s fun t =>
      (getNi t n.toNat).answers = rest ∧
      (getQ (getNi t n.toNat) 0).rsp = (getQ (getNi s n.toNat) 0).rsp ++ [⟨(getNi s n.toNat).nextId, a.msg, 0, a.att⟩] ∧
      (getNi t n.toNat).reqs = (getNi s n.toNat).reqs ∧ (getNi t n.toNat).port = (getNi s n.toNat).port ∧ NiOnly n.toNat s t) ∧
  (∀ (s : State) (n : NiId) (pl : Plane) (g : Staged) (k x port : Nat) (alt : Bool), k = n.toNat → isNi s k = true → (getNi s k).region = 0 →
    nextLaunch s (srcEnt s k) (getNi s k).pst pl = some g →
    alt = (if s.flt.caseR = some (attRtr (homeAt s 0 k) (seAlt (srcEnt s k g.ent))) then !seAlt (srcEnt s k g.ent) else seAlt (srcEnt s k g.ent)) →
    launchOn s k alt = true → x = attRtr (homeAt s 0 k) alt → port = attPort (homeAt s 0 k) alt → (getRtr s x).failed = false →
    Completes (.pisteLaunch n pl) s fun t =>
      (getNi t k).pst = { (getNi s k).pst with staged := (takeFirst (getNi s k).pst.staged fun q => q == g).2 } ∧
      linkOf t x pl port = linkOf s x pl port ++ (flitsOf { g.msg with ep := curEp s }).map (fun f => { f with ch := 0, msg := { f.msg with vcf := vcfOfChan 0 } }) ∧
      reqById (getNi t k) g.id = (reqById (getNi s k) g.id).map (fun r => { r with issued := true }) ∧
      mgetD (planeOf (getRtr t x) pl).schn port false = true ∧ (∀ y, y ≠ x → getRtr t y = getRtr s y) ∧
      (g.frame = frameOf s → NotedBut [] s t) ∧
      (g.frame ≠ frameOf s → rd t (aNi k 0x80) = rd s (aNi k 0x80) ||| 4#64 ∧
        (rd t (aNi k 0x88)).toNat = min 0xFFFFFFFF ((rd s (aNi k 0x88)).toNat + 1) ∧ NotedBut [aNi k 0x80, aNi k 0x88] s t) ∧
      (∀ m, m ≠ k → SameNi s t m) ∧
      t = { s with regs := t.regs, rtrs := t.rtrs, nis := t.nis, ntf := t.ntf, flt := { s.flt with log := t.flt.log } })

/-- R152 to R154, R74: when the deficit round robin picks the head of a queue's half, its descriptor is charged with its cost, PTR moves
to its queue, and its flits, sealed with their CRC, wait on the attachment and channel it starts on. -/
def Obligations.SchedulerStartsPickedMessage : Prop :=
  ∀ (s u : State) (n : NiId) (pl : Plane) (k q cost ch : Nat) (alt : Bool) (m : Msg) (sl : Option Nat), k = n.toNat → isNi s k = true →
    (getNi s k).region = 0 →
    u = wakes (roundEnd (if pl = .req then countHold (askFills (fcBegin s k pl) k) k else fcBegin s k pl) k pl) k pl →
    drrPick u k pl = some (q, m, alt, ch) → packable m = false → headOf (getNi u k) pl q = some (cost, sl) →
    Completes (.messageStart n pl) s fun t => ∃ g : Msg,
      Injects u t k alt pl ch g ∧ g.crc = msgCrc g ∧ g.dst = m.dst ∧ g.opc = m.opc ∧ g.cls = m.cls ∧ g.addr = m.addr ∧ g.data = m.data ∧
      g.vcf = vcfOfChan ch ∧ g.ep = curEp s ∧ g.span = ((m.cls != 2 || decide (opPlane m.opc.toNat = .rsp)) && nodeInst m.dst != instNo s) ∧
      halfDef (getQ (getNi t k) q) pl = halfDef (getQ (getNi u k) q) pl - cost ∧
      (match pl with | .req => (getNi t k).sched.ptrQ | .rsp => (getNi t k).sched.ptrS) = q ∧
      (pl = .rsp → (getQ (getNi t k) q).rsp = (getQ (getNi u k) q).rsp.tail) ∧ (∀ j, j ≠ k → SameNi u t j)

/-- R156, R160, R72: once the messages that waited for the attachment have started, the first message in progress whose channel holds a
credit sends at most four flits as its credits last, and the turn passes on round robin, those it passed over losing theirs; nothing else of
the NI changes. The queues whose bucket has begun leave the timing wheel, or are entered again at the horizon. -/
def Obligations.PiecesLeaveAsCreditsLast : Prop :=
  (∀ (s : State) (n : NiId) (alt : Bool) (pl : Plane) (k x port c j : Nat) (g : Prog) (u : State) (l : List Prog × List Prog), k = n.toNat →
    u = startOwns s k pl → attUp (homeOf s k) alt = true → x = attRtr (homeOf s k) alt → port = attPort (homeOf s k) alt →
    (getRtr s x).failed = false → l = splitProg (mgetD (getNi u k).sched.prog (attPl alt pl) []) →
    l.1.findIdx? (fun h => decide (1 ≤ niCredit (getNi u k) alt pl h.ch)) = some j → l.1[j]? = some g →
    c = min 4 (min (niCredit (getNi u k) alt pl g.ch) g.flits.length) →
    Completes (.attachmentPieceSend n alt pl) s fun t =>
      linkOf t x pl port = linkOf s x pl port ++
        (g.flits.take c).map (fun f => { f with ch := g.ch, msg := { f.msg with vcf := vcfOfChan g.ch } }) ∧
      niCredit (getNi t k) alt pl g.ch = niCredit (getNi u k) alt pl g.ch - c ∧
      mgetD (getNi t k).sched.prog (attPl alt pl) [] =
        l.1.drop (j + 1) ++ l.1.take j ++ (if (g.flits.drop c).isEmpty then [] else [{ g with flits := g.flits.drop c }]) ++ l.2 ∧
      getNi t k = { getNi u k with
        port := { (getNi u k).port with ntfQ := (getNi t k).port.ntfQ }
        sched := { (getNi u k).sched with prog := (getNi t k).sched.prog, credits := (getNi t k).sched.credits } } ∧
      (∀ a, a ≠ attPl alt pl → mget (getNi t k).sched.prog a = mget (getNi u k).sched.prog a) ∧
      (∀ a, a ≠ attKey alt pl g.ch → mget (getNi t k).sched.credits a = mget (getNi u k).sched.credits a) ∧
      ((∀ o ∈ (getNi s k).sched.own, o.pl ≠ pl) → getNi u k = getNi s k) ∧
      (∀ y, y ≠ x → getRtr t y = getRtr s y) ∧ (∀ m, m ≠ k → SameNi s t m) ∧ NotedBut [] s t ∧
      t = { s with regs := t.regs, rtrs := t.rtrs, nis := t.nis, ntf := t.ntf, flt := { s.flt with log := t.flt.log } }) ∧
  (∀ (s : State) (n : NiId), Completes (.wheelBucketBegin n) s fun t => NiOnly n.toNat s t ∧ ∀ q u, u = getQ (getNi s n.toNat) q →
      getQ (getNi t n.toNat) q = { u with wheel := (getQ (getNi t n.toNat) q).wheel } ∧
      (∀ b, u.wheel = some b → nowNs s < b * 2 → (getQ (getNi t n.toNat) q).wheel = some b) ∧
      (∀ b, u.wheel = some b → b * 2 ≤ nowNs s → u.tElig / 512 * 2 ≤ nowNs s → (getQ (getNi t n.toNat) q).wheel = none) ∧
      (∀ b, u.wheel = some b → b * 2 ≤ nowNs s → nowNs s < u.tElig / 512 * 2 →
        (getQ (getNi t n.toNat) q).wheel = some (min (u.tElig / 512) (nowNs s / 2 + 4095))))

/-- R167, R168, R179, R187, R225: at its deadline a non-posted request is answered with TIMEOUT and its entry is quarantined, a
multicast's for GTO frames and no longer; a posted write ends in error, logged with its tag, 0 if it was never issued, and counted, its
entry quarantined. -/
def Obligations.DeadlinesEndRequests : Prop :=
  ∀ (s : State) (n : NiId) (tag : Tag) (e : Trk) (k : Nat), k = n.toNat → mget (getNi s k).trk tag.toNat = some e →
    (e.hold = .live → e.posted = false → e.fwd = false → deadlineDue s e = true → e.slot = none → Completes (.trackerTimeout n tag) s fun t =>
      mget (getNi t k).trk tag.toNat = some { e with hold := (if e.group.isSome then .mcQuarantine (nowNs s + max 1 (rdF s 0xF000 7 0) * 1024) else .quarantine) } ∧
      (if e.flow.isSome then (getNi t k).port.ersG else (getNi t k).port.ersB) =
        (if e.flow.isSome then (getNi s k).port.ersG else (getNi s k).port.ersB) ++
          [plainErs (rspOpOf e.opc.toNat) e.flow.isSome e.epTag.toNat 3 0 (some e.slice)] ∧
      (∀ r ∈ (getNi t k).reqs, r.id ≠ e.reqId) ∧
      (rd t (aNi k 0xD8)).toNat = min 0xFFFFFFFF ((rd s (aNi k 0xD8)).toNat + 1) ∧ rd t (aNi k 0xC0) = rd s (aNi k 0xC0) ||| 1#64 ∧
      NiNote k [aNi k 0xD8, aNi k 0xC0] s t) ∧
    (e.hold = .live → e.posted = true → deadlineDue s e = true → e.slot = none → Completes (.pwDeadline n tag) s fun t =>
      mget (getNi t k).trk tag.toNat = some { e with hold := .quarantine } ∧
      (rd t (aNi k 0x118)).toNat = min 0xFFFFFFFF ((rd s (aNi k 0x118)).toNat + 1) ∧ rd t (aNi k 0x100) = rd s (aNi k 0x100) ||| 5#64 ∧
      (getSlice (getNi t k) e.slice.toNat).log = ((BitVec.ofNat 64 (1 <<< 63 ||| 3 <<< 59 ||| e.opc.toNat <<< 52 |||
          (if (getNi s k).reqs.any (fun r => r.id == e.reqId && !r.issued) then 0 else tag.toNat) <<< 38 ||| frameOf s % 2 ^ 38),
        BitVec.ofNat 64 (0x103 <<< 54 ||| e.hostAddr.toNat % 2 ^ 52)) :: (getSlice (getNi s k) e.slice.toNat).log).take 8 ∧
      NiNote k [aNi k 0x118, aNi k 0x100, aNi k 0x180, aNi k (0x218 + 0x20 * e.slice.toNat)] s t) ∧
    (∀ u, e.hold = .mcQuarantine u → u ≤ nowNs s → Completes (.mcQuarantineEnd n tag) s fun t =>
      getNi t k = { getNi s k with trk := mdel (getNi s k).trk tag.toNat } ∧ NiOnly k s t)

/-- R190, R191: a drain ends when no posted write is unissued or unacknowledged; at its deadline, 65,536 ns after it began, with the
discard flag, the unissued writes go and every other request stays, and they and the unacknowledged ones are counted; without it the drain
ends and the timeout is kept, and nothing else of the NI changes. -/
def Obligations.DrainEndsCompleteOrAtItsDeadline : Prop :=
  ∀ (s : State) (n : NiId) (k : Nat) (d : Drain), k = n.toNat → d = (getNi s k).drain → d.active = true →
    (drained (getNi s k) = true → nowNs s < d.startNs + 65536 → Completes (.drainComplete n) s fun t =>
      getNi t k = { getNi s k with drain := { d with active := false } } ∧ bitOf (rd t (aNi k 0x138)) 0 = false ∧ NiNote k [aNi k 0x138] s t) ∧
    (d.startNs + 65536 ≤ nowNs s → Completes (.drainDeadline n) s fun t =>
      (getNi t k).drain.active = false ∧ bitOf (rd t (aNi k 0x138)) 0 = false ∧ bitOf (rd t (aNi k 0x100)) 3 = true ∧
      (d.discard = false → getNi t k = { getNi s k with drain := { d with active := false, timedOut := true } }) ∧
      (d.discard = true → getNi t k = { getNi s k with
          drain := { d with active := false }, reqs := (getNi t k).reqs
          sched := { (getNi s k).sched with queues := (getNi t k).sched.queues }
          port := { (getNi s k).port with rqRx := (getNi t k).port.rqRx, ntfQ := (getNi t k).port.ntfQ } } ∧
        (∀ r ∈ (getNi t k).reqs, r ∈ (getNi s k).reqs ∧ ¬(r.posted = true ∧ r.issued = false ∧ r.piste = false)) ∧
        (∀ r ∈ (getNi s k).reqs, (∀ w ∈ (getNi s k).reqs, w.posted = true → w.issued = false → w.piste = false → w.id ≠ r.id) →
          r ∈ (getNi t k).reqs) ∧
        (rd t (aNi k 0x110)).toNat = min 0xFFFFFFFF ((rd s (aNi k 0x110)).toNat +
          ((getNi s k).reqs.filter fun r => r.posted && !r.issued && !r.piste).length +
          ((getNi s k).trk.filter fun p => p.2.posted && p.2.hold == .live).length)) ∧
      NiNote k [aNi k 0x138, aNi k 0x100, aNi k 0x110] s t)

/-- R199 to R202: an answer of a mapped entry fills the extent target cache and ends its fill; with none within BTO frames the requests
that wait for it end, and its number stays apart for a late answer; a fill to be sent again leaves as its MG_RD at a frame boundary; an invalidation drops the entry and makes a fill
stale, and a flush does so for all. -/
def Obligations.ExtentTargetCacheFillsAndForgets : Prop :=
  (∀ (s : State) (n : NiId) (k : Nat) (m : Msg) (alt : Bool) (rest : List (Msg × Bool)) (f : Fill) (v : BitVec 128), k = n.toNat →
    takeFirst (getNi s k).inRsp (fun q => q.1.opc == 0x7A) = (some (m, alt), rest) → clsOk m = true → m.taint = false → msgCrc m = m.crc →
    fillAnswer m (getNi s k) = some f → f.dead = false → f.stale = false → msgStat m = 0 → v = (m.data.headD 0).extractLsb' 0 128 →
    (fld v 119 116 = 1 ∨ fld v 119 116 = 2) → Completes (.etcFillAnswer n) s fun t =>
      (∃ used, etcGet (getNi t k) f.inst f.x = some ⟨BitVec.ofNat 8 (fld v 86 79), BitVec.ofNat 8 (fld v 100 93), used⟩) ∧
      (getNi t k).dec.fills = (takeFirst (getNi s k).dec.fills fun g => g == f).2 ∧ (getNi t k).inRsp = rest ∧
      ∀ j, j ≠ k → SameNi s t j) ∧
  (∀ (s : State) (n : NiId) (k : Nat) (inst : BitVec 4) (x : BitVec 19) (f : Fill), k = n.toNat →
    (getNi s k).dec.fills.find? (fun f => f.inst == inst && f.x == x && !f.dead) = some f →
    f.sentNs + max 1 (rdF s (aNi k 0xC8) 15 0) * 1024 ≤ nowNs s → Completes (.etcFillTimeout n inst x) s fun t =>
      (getNi t k).dec.fills = updFirst (getNi s k).dec.fills (fun g => g == f) (fun g => { g with dead := true }) ∧
      bitOf (rd t (aNi k 0x1C00)) 5 = true ∧ (∀ r ∈ (getNi t k).reqs, r.issued = true ∨ r.fill ≠ some (inst, x)) ∧
      ∀ j, j ≠ k → SameNi s t j) ∧
  (∀ (s : State) (n : NiId) (k : Nat) (inst : BitVec 4) (x : BitVec 19) (f : Fill), k = n.toNat →
    (getNi s k).dec.fills.find? (fun f => f.inst == inst && f.x == x && f.resend && !f.dead) = some f → atTick s = true →
    Completes (.etcFillResend n inst x) s fun t => ∃ g, SentBy s t k .req none g ∧ g.opc = 0x78 ∧ g.cls = 3 ∧
      g.addr.toNat = 0x1000000 + 16 * x.toNat ∧ g.dst.toNat = 256 * inst.toNat + 120 + x.toNat % 8 ∧ g.tag = f.tag ∧
      (getNi t k).dec.fills = updFirst (getNi s k).dec.fills (fun g => g == f) (fun g => { g with resend := false }) ∧
      (getNi t k).reqs = (getNi s k).reqs ∧ (getNi t k).trk = (getNi s k).trk ∧ (∀ j, j ≠ k → SameNi s t j) ∧ NotedBut [] s t) ∧
  (∀ (s : State) (n : NiId) (inst : BitVec 4) (x : BitVec 19), isNi s n.toNat = true → Completes (.etcInvalidate n inst x) s fun t =>
      etcGet (getNi t n.toNat) inst x = none ∧ (∀ j y, (j, y) ≠ (inst, x) → etcGet (getNi t n.toNat) j y = etcGet (getNi s n.toNat) j y) ∧
      (∀ f ∈ (getNi t n.toNat).dec.fills, f.inst = inst → f.x = x → f.stale = true) ∧ NiOnly n.toNat s t) ∧
  (∀ (s : State) (n : NiId), isNi s n.toNat = true → Completes (.niEtcFlush n) s fun t =>
      (getNi t n.toNat).dec = { (getNi s n.toNat).dec with etc := [], fills := (getNi s n.toNat).dec.fills.map fun f => { f with stale := true } } ∧
      getNi t n.toNat = { getNi s n.toNat with dec := (getNi t n.toNat).dec } ∧ NiOnly n.toNat s t)

/-- R205, R222, R223, R226, R482: while the answer list has room, a BISNP copy that its member may see is presented with a member entry,
and one it may not is answered at once with STATE none and GCNT 1; at its deadline a presented one is answered with TIMEOUT; a NOTIFY's
record joins the notification queue of its port and is acknowledged with GCNT 1; a record that waits for forwarding leaves as a NOTIFY of
service NI 120. Answers to multicast copies keep the attachment their copy came by. -/
def Obligations.MembersAnswerAndNotificationsForward : Prop :=
  (∀ (s : State) (n : NiId) (k j : Nat) (m : Msg) (alt : Bool) (rest : List (Msg × Bool)), k = n.toNat → freeMember (getNi s k) = some j →
    takeFirst (getNi s k).inReq (fun q => q.1.cls == 2 && isBisnp q.1.opc.toNat) = (some (m, alt), rest) → (getNi s k).answers.length < 16 →
    clsOk m = true → m.taint = false → msgCrc m = m.crc →
    (∀ a, snoopDecide s k m = .present a → Completes (.mcCopyAtMember n) s fun t => ∃ e : Egr,
      mget (getNi t k).members j = some { orig := m.src, tag := m.tag, alt := alt, opc := m.opc, slice := m.slice, gen := m.gen } ∧
      (getNi t k).inReq = rest ∧ (getNi t k).port = { (getNi s k).port with erqB := (getNi s k).port.erqB ++ [e] } ∧
      e.hdr = egrReqHdr m.opc.toNat false m.src.toNat m.slice.toNat m.gen.toNat m.tag.toNat (64 * m.len.toNat) m.poison m.nt a ∧ NiOnly k s t) ∧
    (∀ st deny miss, snoopDecide s k m = .answer st deny miss → Completes (.mcCopyAtMember n) s fun t => ∃ g,
      (getNi t k).answers = (getNi s k).answers ++ [{ msg := g, att := some alt }] ∧ g.opc = 0x48 ∧ g.cls = 2 ∧ g.dst = m.src ∧
      g.tag = m.tag ∧ g.addr = rspAddr st 1 ∧ (getNi t k).inReq = rest ∧ (getNi t k).members = (getNi s k).members ∧
      ∀ i, i ≠ k → SameNi s t i)) ∧
  (∀ (s : State) (n : NiId) (k d : Nat) (e : BitVec 6) (q : Member), k = n.toNat → mget (getNi s k).members e.toNat = some q →
    q.deadline = some d → frameGe (frameOf s) d = true → q.answered = false → q.due = none → (getNi s k).answers.length < 16 →
    Completes (.memberTimeout n e) s fun t => ∃ g,
      (getNi t k).answers = (getNi s k).answers ++ [{ msg := g, att := some q.alt }] ∧ g.opc = 0x48 ∧ g.cls = 2 ∧ g.dst = q.orig ∧
      g.tag = q.tag ∧ g.addr = rspAddr 3 1 ∧ mget (getNi t k).members e.toNat = some { q with answered := true } ∧
      (getNi t k).lateMembers = (getNi s k).lateMembers ++ [(q.orig, q.tag)] ∧ rd t (aNi k 0x1C80) = rd s (aNi k 0x1C80) ||| 2#64 ∧ NiNote k [aNi k 0x1C80] s t) ∧
  (∀ (s : State) (n : NiId) (k : Nat) (m : Msg) (alt : Bool) (rest : List (Msg × Bool)) (w : Word), k = n.toNat → isEpNi s k = true →
    takeFirst (getNi s k).inReq (fun q => q.1.opc == 0x7B && (q.1.cls != 2 || (freeMember (getNi s k)).isSome)) = (some (m, alt), rest) →
    (getNi s k).answers.length < 16 → clsOk m = true → m.taint = false → msgCrc m = m.crc →
    niDown s k = false → w = (m.data.headD 0).extractLsb' 0 64 → bitOf (rd s (aNi k 0)) 2 = true →
    rdF s (aNi k 0) 9 8 ≤ fld w 59 58 → (getNi s k).port.ntfQ.length < 16 → Completes (.notifyReceive n) s fun t => ∃ g,
      (getNi t k).answers = (getNi s k).answers ++ [{ msg := g, piste := m.cls == 1, att := if m.cls = 2 then some alt else none }] ∧
      g.opc = 0x7E ∧ g.dst = m.src ∧ g.tag = m.tag ∧ g.addr = rspAddr 0 1 ∧ (getNi t k).inReq = rest ∧
      (getNi t k).port = { (getNi s k).port with ntfQ := (getNi s k).port.ntfQ ++ [w] } ∧ NiOnly k s t) ∧
  (∀ (s : State) (w : Word) (rest : List Word), s.ntf.fwdQ = w :: rest → s.ntf.fwdBusy = false → reqFull (getNi s 120) 10 = false →
    trkRoom s 120 0 = true → (getNi s 120).inRst = false → slcAct s 120 0 = true → slcRst s 120 0 = false → Completes .ntfForward s fun t => ∃ r : Req,
      (getNi t 120).reqs = (getNi s 120).reqs ++ [r] ∧ (getQ (getNi t 120) 10).reqIds = (getQ (getNi s 120) 10).reqIds ++ [r.id] ∧
      r.msg.opc = 0x7B ∧ r.msg.dst.toNat = (rd s 0x110).toNat % 1024 ∧ r.msg.data = [w.zeroExtend 512] ∧
      t.ntf = { s.ntf with fwdQ := rest, fwdBusy := true } ∧ (∀ m, m ≠ 120 → getNi t m = getNi s m) ∧
      t = { s with nis := t.nis, ntf := t.ntf, free := t.free })

/-- R239 to R245: a reset asked for an active slice begins at once: its generation advances, its share credit is 0, and its requests,
tracker entries and waiting responses are gone, the other slices keep theirs; it ends when its time has come, 16 fc later and MINGAP frames
after its last end, with the done pulses of its strobe fences. -/
def Obligations.SliceResetRemovesOneSlice : Prop :=
  ∀ (s : State) (n : NiId) (k : Nat), k = n.toNat → isNi s k = true →
    (∀ mask : BitVec 16, Completes (.niSlcRst n mask) s fun t => ∀ j, j < 16 →
      (mask.getLsbD j = true → slcAct s k j = true → slcRst s k j = false →
        slcRst t k j = true ∧ slcGen t k j = slcGen s k j + 1 ∧ (∀ r ∈ (getNi t k).reqs, r.slice.toNat ≠ j) ∧
        (∀ p ∈ (getNi t k).trk, p.2.slice.toNat ≠ j) ∧ (∀ e ∈ (getNi t k).port.ersB, e.slice ≠ some (BitVec.ofNat 4 j)) ∧
        (∀ e ∈ (getNi t k).port.ersG, e.slice ≠ some (BitVec.ofNat 4 j)) ∧ (getSlice (getNi t k) j).sc = 0 ∧
        (getSlice (getNi t k) j).rstEnd = (match (getSlice (getNi s k) j).lastEnd with
          | some e => max (nowNs s + ceilDiv (16 * fcSixths s.pwr.lvl.toNat) 6) (e + 1024 * max 1 (rdF s (aNi k 0x158) 23 16))
          | none => nowNs s + ceilDiv (16 * fcSixths s.pwr.lvl.toNat) 6)) ∧
      ((mask.getLsbD j = false ∨ slcAct s k j = false ∨ slcRst s k j = true) →
        getSlice (getNi t k) j = getSlice (getNi s k) j ∧
        ((getNi t k).trk.filter fun p => p.2.slice.toNat == j) = ((getNi s k).trk.filter fun p => p.2.slice.toNat == j) ∧
        (∀ r ∈ (getNi s k).reqs, r.slice.toNat = j → (∀ w ∈ (getNi s k).reqs, w.slice.toNat ≠ j → w.id ≠ r.id) → r ∈ (getNi t k).reqs)) ∧
      NiNote k (aNi k 0x100 :: aNi k 0x110 :: (List.range 16).map fun j => aNi k (0x210 + 0x20 * j)) s t) ∧
    (∀ (sl : BitVec 4) (c : Slice), c = getSlice (getNi s k) sl.toNat → c.rst = true → c.rstEnd ≤ nowNs s →
      Completes (.sliceResetEnd n sl) s fun t =>
        getSlice (getNi t k) sl.toNat = { c with rst := false, lastEnd := some (nowNs s) } ∧
        (∀ f ∈ (getNi t k).fences, f.slice ≠ sl) ∧ (getNi t k).reqs = (getNi s k).reqs ∧
        (∀ ids, ids = ((getNi s k).fences.filter fun f => f.slice == sl).filterMap (·.strobe) →
          (getNi t k).port.fnDone = if ids.isEmpty then (getNi s k).port.fnDone else ids) ∧ NiNote k [] s t)

/-! Span links (12). -/

/-- R252, R255, R265 to R267: a link that runs sends a held link flit that is due again, with its trailer as it stands now, and else new data
with the next SEQ, which it holds; during INIT it sends the control word that is due. A link flit with a bad CRC is dropped and counted, the
one expected is delivered and NEXT advances; the timers ask for a replay, after four replays for a retrain, and for a missing link flit. -/
def Obligations.SpanLinkCarriesInOrderAndReplays : Prop :=
  ∀ (s : State) (p : SpId) (k : Nat) (q : Span), k = p.toNat → q = getSpan s k → isSpan s k = true →
    (∀ h, q.phyUp = true → q.lstate = 2 → q.replay.find? (·.due) = some h → Completes (.linkFlitSend p) s fun t =>
      getSpan t k = { q with
        txFlit := some (stampLink q h.raw)
        replay := updFirst q.replay (fun g => g.seq == h.seq) (fun g => { g with due := false, sentNs := nowNs s })
        naks := q.naks.tail, nakSent := (getSpan t k).nakSent } ∧
      (∀ j, j ≠ k → getSpan t j = getSpan s j) ∧ t.rtrs = s.rtrs ∧ NotedBut [] s t) ∧
    (q.phyUp = true → q.lstate = 2 → q.replay = [] → (fillSlots s k).1 ≠ [] → Completes (.linkFlitSend p) s fun t => ∃ h : Held,
      (getSpan t k).replay = [h] ∧ h.seq = q.txNext ∧ h.due = false ∧ h.sentNs = nowNs s ∧ (getSpan t k).txNext = q.txNext + 1 ∧
      (getSpan t k).txFlit = some (stampLink q h.raw) ∧ (∀ j, j ≠ k → getSpan t j = getSpan s j) ∧ t.rtrs = s.rtrs ∧ NotedBut [] s t) ∧
    (∀ w rest, q.phyUp = true → q.lstate = 1 → q.ctlDue = w :: rest → Completes (.linkFlitSend p) s fun t =>
      (getSpan t k).txFlit = some (stampLink q (plainLink 2 (stampCtl s w))) ∧ (getSpan t k).ctlDue = rest ∧
      (getSpan t k).txNext = q.txNext ∧ (getSpan t k).replay = q.replay ∧ (∀ j, j ≠ k → getSpan t j = getSpan s j) ∧ NotedBut [] s t) ∧
    (∀ raw bad, q.lstate ≠ 0 → (bad = true ∨ fld (linkTrl raw) 127 96 ≠ (linkCrc raw).toNat) → Completes (.linkFlitReceive p raw bad) s fun t =>
      (rd t (aSpn k 0x30)).toNat = min 0xFFFFFFFF ((rd s (aSpn k 0x30)).toNat + 1) ∧ rd t (aSpn k 0x18) = rd s (aSpn k 0x18) ||| 1#64 ∧
      t.spans = s.spans ∧ t.rtrs = s.rtrs ∧ NotedBut [aSpn k 0x30, aSpn k 0x18] s t) ∧
    (∀ raw, q.lstate = 2 → fld (linkTrl raw) 127 96 = (linkCrc raw).toNat → bitOf (linkTrl raw) 47 = false → fld (linkTrl raw) 46 45 = 0 →
      fld (linkTrl raw) 95 80 = q.rxNext.toNat → q.rob = [] → Completes (.linkFlitReceive p raw false) s fun t =>
        (getSpan t k).rxNext = q.rxNext + 1 ∧ (getSpan t k).rob = [] ∧ ∀ j, j ≠ k → getSpan t j = getSpan s j) ∧
    (∀ h rest, q.lstate = 2 → q.replay = h :: rest → max h.sentNs q.lastNakNs + 4 * rdF s (aSpn k 8) 36 29 ≤ nowNs s →
      (∀ u, h.passed = some u → u < max h.sentNs q.lastNakNs) → h.lastAct ≠ some (nowNs s) →
      (h.rpl < 4 → Completes (.replayTimerExpire p) s fun t =>
        getSpan t k = { q with replay := { h with due := true, rpl := h.rpl + 1, lastAct := some (nowNs s) } :: rest } ∧
        (rd t (aSpn k 0x38)).toNat = min 0xFFFFFFFF ((rd s (aSpn k 0x38)).toNat + 1) ∧ NotedBut [aSpn k 0x38] s t ∧
        (∀ j, j ≠ k → getSpan t j = getSpan s j) ∧ t.rtrs = s.rtrs) ∧
      (h.rpl = 4 → h.afterRt = false → Completes (.replayTimerExpire p) s fun t =>
        (getSpan t k).replay = { h with afterRt := true, rpl := 0, lastAct := some (nowNs s) } :: rest ∧ (getSpan t k).lstate = 3 ∧
        (getSpan t k).rtReq = true ∧ (∀ j, j ≠ k → getSpan t j = getSpan s j) ∧ NotedBut [aSpn k 0x18, aSpn k 0x40] s t)) ∧
    (∀ seq u, mget q.nakSent seq.toNat = some u → u + 4 * rdF s (aSpn k 8) 36 29 ≤ nowNs s → mget q.rob seq.toNat = none →
      seqBefore seq q.rxNext = false → seq ∉ q.naks → (∃ r ∈ q.rob, seqBefore seq (BitVec.ofNat 16 r.1) = true) →
      Completes (.nakTimerExpire p seq) s fun t => getSpan t k = { q with naks := q.naks ++ [seq] } ∧ t = { s with spans := t.spans })

/-- R268 to R274: from normal operation a write of RETRAIN, the loss of the PHY and the peer's request each begin a retrain, at a width that
only RETRAIN, at either end, may widen; a PHY that is
trained queues RESUME at the width trained for; a retrain that ends without the PHY or lasts 4 us, and FORCE_DOWN, take the link down,
counted, to its grace period or to its parallel link; after the grace period the port flushes. -/
def Obligations.SpanRetrainsOrGoesDown : Prop :=
  ∀ (s : State) (p : SpId) (k : Nat) (q : Span), k = p.toNat → q = getSpan s k → isSpan s k = true →
    (∀ c w, ((c = .spnRetrain p ∧ w = narrower q.widthCap q.peerCap) ∨ (c = .phyDown p ∧ w = q.width) ∨
        (c = .peerRetrainRequest p true ∧ w = narrower q.widthCap q.peerCap) ∨
        (c = .peerRetrainRequest p false ∧ w = narrower q.width q.trainWidth)) → q.lstate = 2 → Completes c s fun t =>
      (getSpan t k).lstate = 3 ∧ (getSpan t k).trainWidth = w ∧ (getSpan t k).rtReq = true ∧ (getSpan t k).rtStart = nowNs s ∧
      (getSpan t k).phyUp = (q.phyUp && decide (c ≠ .phyDown p)) ∧
      (rd t (aSpn k 0x40)).toNat = min 0xFFFFFFFF ((rd s (aSpn k 0x40)).toNat + 1) ∧ rd t (aSpn k 0x18) = rd s (aSpn k 0x18) ||| 2#64 ∧
      (getSpan t k).replay = q.replay ∧ (∀ j, j ≠ k → getSpan t j = getSpan s j) ∧ NotedBut [aSpn k 0x40, aSpn k 0x18] s t ∧
      t = { s with regs := t.regs, spans := t.spans, ntf := t.ntf, flt := { s.flt with log := t.flt.log }, free := t.free }) ∧
    (q.lstate = 3 → q.trainWidth.toNat ≤ rdF s (aSpn k 8) 18 17 → Completes (.retrainDone p true) s fun t =>
      (getSpan t k).ctlDue = [ctlWord 2 q.rxNext.toNat] ∧ (getSpan t k).width = q.trainWidth ∧ (getSpan t k).phyUp = true ∧
      (getSpan t k).rtReq = false ∧ (getSpan t k).resumeAt = some ((frameOf s + 2) % 2 ^ 48) ∧
      ((∀ j, isSpan s j = true → (getSpan s j).lstate ≠ 4) → (∀ j, j ≠ k → getSpan t j = getSpan s j) ∧ t.rtrs = s.rtrs ∧ NotedBut [] s t)) ∧
    (∀ c cause, ((c = .retrainDone p false ∧ q.lstate = 3 ∧ cause = 2) ∨ (c = .retrainTimeout p ∧ q.lstate = 3 ∧ q.rtStart + 4000 ≤ nowNs s ∧ cause = 2) ∨
        (c = .spnForceDown p ∧ (q.lstate = 1 ∨ q.lstate = 2 ∨ q.lstate = 3) ∧ cause = 5)) →
        flowIdx s = true → Completes c s fun t =>
      (getSpan t k).up = false ∧ (getSpan t k).lstate = (if (parallelOf s k).isSome then 5 else 4) ∧ (getSpan t k).cause = BitVec.ofNat 3 cause ∧
      (rd t (aSpn k 0x48)).toNat = min 0xFFFFFFFF ((rd s (aSpn k 0x48)).toNat + 1) ∧ bitOf (rd t (aSpn k 0x18)) 2 = true ∧
      (parallelOf s k = none → (getSpan t k).graceEnd = nowNs s + 12000)) ∧
    (q.lstate = 4 → q.graceEnd ≤ nowNs s → Completes (.graceExpire p) s fun t =>
      (getSpan t k).lstate = 5 ∧ (getSpan t k).flushing = true ∧ (getSpan t k).replay = [] ∧ (getSpan t k).waiting = [] ∧ (getSpan t k).mig = [] ∧
      (heldMsgs q ≠ [] → (rd t (aSpn k 0x58)).toNat = min 0xFFFFFFFF ((rd s (aSpn k 0x58)).toNat + (heldMsgs q).length)))

/-- R264, R270, R273, R274, R276, R278: a lower width cap is proposed to the peer; keys 16 frames old expire; a PHY that comes up starts INIT, or
RESUME within the grace period; a piste message received whole is charged to the frame after its own, and is late when no block of that frame remains; the child asks
for the time every 16 frames, and loses it when no link to its parent has had an answer for 1,024. -/
def Obligations.SpanWidthKeysStagingAndTime : Prop :=
  ∀ (s : State) (p : SpId) (k : Nat) (q : Span), k = p.toNat → q = getSpan s k → isSpan s k = true →
    (∀ cap : BitVec 2, q.lstate = 2 → q.width.toNat < cap.toNat → Completes (.widthCapDrop p cap) s fun t =>
      getSpan t k = { q with widthCap := cap, ctlDue := q.ctlDue ++ [ctlWord 5 cap.toNat], propSent := true } ∧ t = { s with spans := t.spans }) ∧
    (∀ cap : BitVec 2, q.lstate = 3 → Completes (.widthCapDrop p cap) s fun t =>
      getSpan t k = { q with widthCap := cap, trainWidth := (if q.trainWidth.toNat < cap.toNat then cap else q.trainWidth) } ∧
      t = { s with spans := t.spans }) ∧
    (∀ cap : BitVec 2, q.lstate ≠ 3 → ¬(q.lstate = 2 ∧ q.width.toNat < cap.toNat) → Completes (.widthCapDrop p cap) s fun t =>
      getSpan t k = { q with widthCap := cap } ∧ t = { s with spans := t.spans }) ∧
    Completes (.spanKeyExpire p) s (fun t => getSpan t k = { q with keys := (getSpan t k).keys } ∧ t = { s with spans := t.spans } ∧
      ∀ e, e ∈ (getSpan t k).keys ↔ e ∈ q.keys ∧ subMod 48 (frameOf s) e.2.2 < 16) ∧
    (bitOf (rd s (aSpn k 8)) 0 = true → (q.lstate = 0 ∨ q.lstate = 5) → Completes (.phyUp p) s fun t =>
      getSpan t k = { q with phyUp := true, lstate := 1, ctlDue := [ctlWord 1 ((nodeOf s (128 + k)).toNat ||| q.widthCap.toNat <<< 16)] } ∧
      t = { s with spans := t.spans }) ∧
    (bitOf (rd s (aSpn k 8)) 0 = true → q.lstate = 4 → Completes (.phyUp p) s fun t =>
      getSpan t k = { q with phyUp := true, ctlDue := [ctlWord 2 q.rxNext.toNat] } ∧ t = { s with spans := t.spans }) ∧
    (∀ m fp rest e, q.staging = (m, fp) :: rest → findSpnSrc s k m.flow.toNat = some e →
      (∀ f c, frameOf s % 2 = fp.toNat → f = (frameOf s + 1) % 2 ^ 48 → c = chargeOf q.pst e f →
        Completes (.spanPisteStage p) s fun t =>
          getSpan t k = { q with
            staging := rest
            pst := { setCharge q.pst e { c with lines := c.lines + m.data.length, hdrs := c.hdrs + 1 } with
              staged := q.pst.staged ++ [{ ent := e, frame := f, laidIn := frameOf s, msg := { m with charged := some f } }] } } ∧
          (∀ j, j ≠ k → getSpan t j = getSpan s j) ∧ t = { s with spans := t.spans }) ∧
      (frameOf s % 2 ≠ fp.toNat → Completes (.spanPisteStage p) s fun t => ∃ slot,
          (getSpan t k).staging = rest ∧ (getSpan t k).pst.staged = q.pst.staged ++
            [{ ent := e, frame := frameOf s, slot := slot, laidIn := frameOf s, msg := { m with charged := some (frameOf s) } }] ∧
          (slot = none → rd t (aSpn k 0x18) = rd s (aSpn k 0x18) ||| 0x20#64 ∧
            (rd t (aSpn k 0x68)).toNat = min 0xFFFFFFFF ((rd s (aSpn k 0x68)).toNat + 1)) ∧
          (∀ j, j ≠ k → getSpan t j = getSpan s j) ∧ NotedBut [aSpn k 0x18, aSpn k 0x68] s t)) ∧
    (timePort s = some k → frameOf s % 16 = 0 → atTick s = true → q.lstate = 2 → Completes (.tsyncSend p) s fun t =>
      getSpan t k = { q with ctlDue := q.ctlDue ++ [ctlWord 3 0], t1 := none } ∧ t = { s with spans := t.spans }) ∧
    (bitOf (rd s (aSpn k 8)) 8 = true → rdF s 0x10060 8 8 = 0 →
      (∀ j, j < 8 → isSpan s j = true → spnPeer s j = spnPeer s k → 1024 ≤ subMod 48 (frameOf s) (getSpan s j).lastTsync) → bitOf (rd s (aSpn k 0x18)) 8 = false →
      Completes (.tsyncLost p) s fun t => rd t (aSpn k 0x18) = rd s (aSpn k 0x18) ||| 0x100#64 ∧ t.spans = s.spans ∧ t.time = s.time ∧
        NotedBut [aSpn k 0x18] s t)

/-! Command rings, jobs and queues (13). -/

/-- R285, R286, R298: PI and RCI read as written, but a write of PI in the cycle of the ring's reset is discarded; a reset of a ring without commands empties its indices, with PHASE 1; a stopped ring may
resume; a rink fetches the entry at CI of the next ring that may fetch, as one MemRd of 64 bytes of its service NI. -/
def Obligations.RingsTakeIndicesFetchAndReset : Prop :=
  (∀ (s : State) (q : BitVec 4) (v : BitVec 12) (k : Nat), k = q.toNat → s.gen.eng = true →
    ((getRing s k).resetNs ≠ some (nowNs s) → Completes (.ringPiWrite q v) s fun t =>
      rdF t (aEng (0x118 + 0x40 * k)) 11 0 = v.toNat ∧ WordsBut [aEng (0x118 + 0x40 * k)] s t ∧ t = { s with regs := t.regs }) ∧
    ((getRing s k).resetNs = some (nowNs s) → Completes (.ringPiWrite q v) s fun t => t = s) ∧
    Completes (.ringRciWrite q v) s (fun t => rdF t (aEng (0x128 + 0x40 * k)) 11 0 = v.toNat ∧ WordsBut [aEng (0x128 + 0x40 * k)] s t ∧
      t = { s with regs := t.regs }) ∧
    Completes (.ringResume q) s (fun t => getRing t k = { getRing s k with stopped := false } ∧
      (∀ j, j ≠ k → getRing t j = getRing s j) ∧ t = { s with eng := { s.eng with rings := t.eng.rings } }) ∧
    ((∀ c ∈ s.eng.cmds, c.ring ≠ k) → Completes (.ringReset q) s fun t =>
      rd t (aEng (0x118 + 0x40 * k)) = 0 ∧ rd t (aEng (0x128 + 0x40 * k)) = 0 ∧ rd t (aEng (0x120 + 0x40 * k)) = 0x0001000000000000#64 ∧
      getRing t k = { getRing s k with resetting := false, stopped := false, resetNs := some (nowNs s) } ∧
      WordsBut [aEng (0x118 + 0x40 * k), aEng (0x128 + 0x40 * k), aEng (0x120 + 0x40 * k)] s t)) ∧
  (∀ (s : State) (b : BitVec 3) (n q fa : Nat), n = 120 + b.toNat → rinkTakes s b.toNat = true → engCan s n 8 1 1 = true →
    (ringOrder s b.toNat).find? (mayFetch s) = some q →
    fa = rdF s (aEng (0x108 + 0x40 * q)) 51 12 * 4096 + 64 * (ringCi s q % 2 ^ ringSz s q) → fa < 2 ^ 50 →
    Completes (.ringFetch b) s fun t => ∃ r : Req,
      (getNi t n).reqs = (getNi s n).reqs ++ [r] ∧ (getQ (getNi t n) 8).reqIds = (getQ (getNi s n) 8).reqIds ++ [r.id] ∧
      r.msg.opc = 1 ∧ r.hostAddr.toNat = fa ∧ r.nbytes = 64 ∧ r.posted = false ∧ (getRing t q).fetching = true ∧
      mget t.eng.lastRing b.toNat = some q ∧ ∀ m, m ≠ n → SameNi s t m)

/-- R286 to R288, R297: an entry that arrives advances CI; an operation the instance does not have ends with BAD_OP, one the ring may not use
with DENIED; a control command that passes its checks waits in the control queue; a fetch that failed stops the ring. -/
def Obligations.CommandEntryIsChecked : Prop :=
  ∀ (s u : State) (q : BitVec 4) (k fa stat : Nat) (data : List Line) (e : BitVec 512), k = q.toNat →
    takeAnswer s (128 + k) = (some (fa, data, stat), u) → e = data.headD 0 → (getRing s k).resetting = false →
    (stat ≠ 0 → Completes (.commandArrive q) s fun t =>
      getRing t k = { getRing s k with fetching := false, stopped := true } ∧ bitOf (rd t (aEng (0x138 + 0x40 * k))) 8 = true ∧
      bitOf (rd t (aEng 0)) 3 = true ∧ t.eng.cmds = s.eng.cmds) ∧
    (stat = 0 → permBit (fld e 7 0) = none → ringSz s k ≤ 12 → Completes (.commandArrive q) s fun t =>
      t.eng.cmds = s.eng.cmds ++ [{ cmdOf s k e with done := true, status := 1 }] ∧ t.eng.ctlQ = s.eng.ctlQ ∧
      ringCi t k = (ringCi s k + 1) % 2 ^ ringSz s k ∧ WordsBut [aEng (0x120 + 0x40 * k)] s t) ∧
    (∀ b, stat = 0 → permBit (fld e 7 0) = some b → bitOf (ringCfg s k) b = false → queueRoom s (fld e 7 0) = true →
      Completes (.commandArrive q) s fun t =>
        t.eng.cmds = s.eng.cmds ++ [{ cmdOf s k e with done := true, status := 3 }] ∧ t.eng.ctlQ = s.eng.ctlQ) ∧
    (∀ v, v = ciAdvance (updRing u k fun x => { x with fetching := false }) k → stat = 0 → isCtlOp (fld e 7 0) = true →
      queueRoom s (fld e 7 0) = true → arrivalStatus v k e = 0 → Completes (.commandArrive q) s fun t =>
        t.eng.cmds = s.eng.cmds ++ [cmdOf s k e] ∧ t.eng.ctlQ = s.eng.ctlQ ++ [s.eng.nextKey] ∧ t.eng.nextKey = s.eng.nextKey + 1)

/-- R296: the oldest finished command of a ring writes its completion entry at RPI, which advances; PHASE flips at the wrap, and the
command's record goes. -/
def Obligations.CompletionIsWrittenAtRpi : Prop :=
  ∀ (s : State) (q : BitVec 4) (k n sz rpi a i : Nat) (c : Cmd), k = q.toNat → n = 120 + k % nRinks s →
    s.eng.cmds.find? (fun c => c.ring == k && c.done) = some c → (c.ntf = false ∨ bitOf (ringCfg s k) 20 = false) → compRoom s k = true →
    engCan s n 8 0x11 1 = true → (getRing s k).resetting = false → ringSz s k ≤ 12 → sz = 2 ^ ringSz s k → rpi = ringRpi s k % sz →
    a = rdF s (aEng (0x110 + 0x40 * k)) 51 12 * 4096 + 16 * rpi → a < 2 ^ 50 → i = aEng (0x120 + 0x40 * k) →
    Completes (.commandComplete q) s fun t => ∃ r : Req,
      (getNi t n).reqs = (getNi s n).reqs ++ [r] ∧ r.msg.opc = 0x11 ∧ r.hostAddr.toNat = a ∧ r.nbytes = 16 ∧
      r.msg.data = [BitVec.ofNat 512 ((compEntry s c).toNat <<< (8 * (a % 64)))] ∧
      rdF t i 43 32 = (rpi + 1) % sz ∧ rdF t i 48 48 = (if rpi + 1 = sz then 1 - rdF s i 48 48 else rdF s i 48 48) ∧
      t.eng.cmds = s.eng.cmds.filter (fun d => d.key != c.key) ∧ NotedBut [i] s t

/-- R289, R292: a turn of a slot whose running job is of the service asked for, with no answer waiting and a place of its 96 left, makes the
service's next request and counts it outstanding; SANITISE writes the pattern at the next block, COPY reads the next block of its source. -/
def Obligations.DataServicesRequestNextBlock : Prop :=
  ∀ (s u : State) (slot : BitVec 6) (k need : Nat) (j j' : Job) (c : Cmd) (ins : Instr) (issue : IssueFn), k = slot.toNat →
    rinkOn s (k / 8) = true → (getSlot s k).running = some j → (∀ a ∈ s.eng.inbox, a.1 ≠ k ∧ a.1 ≠ 64 + k) →
    getCmd s j.cmd = some c → c.abort = false → j.outstanding + need ≤ 96 →
    ((ins = .sanitise slot ∧ j.op = 1 ∧ need = 1 ∧ issue = saniIssue) ∨ (ins = .copy slot ∧ j.op = 2 ∧ need = 1 ∧ issue = copyIssue) ∨
      (ins = .verify slot ∧ j.op = 3 ∧ need = (if verPattern c.entry then 1 else 2) ∧ issue = verIssue (!verPattern c.entry)) ∨
      (ins = .telemetry slot ∧ j.op = 0x40 ∧ need = 1 ∧ issue = teleIssue) ∨ (ins = .groom slot ∧ j.op = 0x41 ∧ need = 1 ∧ issue = groomIssue)) →
    issue s k j = some (j', u) → Completes ins s fun t =>
      (getSlot t k).running = some { j' with outstanding := j'.outstanding + need } ∧
      j'.outstanding = j.outstanding ∧ j'.cursor + j'.check = j.cursor + j.check + 1 ∧ t.nis = u.nis ∧ t.regs = u.regs ∧
      (ins = .sanitise slot → j.cursor < j.blocks → (j.fa + 4096 * j.cursor < 2 ^ 50 ∨ j.direct.isSome = true) → j.fa + 4096 * j.cursor < 2 ^ 52 →
        ∃ r : Req, (getNi t (120 + k / 8)).reqs = (getNi s (120 + k / 8)).reqs ++ [r] ∧ r.msg.opc = 0x10 ∧
          r.hostAddr.toNat = j.fa + 4096 * j.cursor ∧ r.msg.data = List.replicate 64 (patLine (cmdW c.entry 3)) ∧ r.q = k % 8) ∧
      (ins = .copy slot → j.src + 4096 * j.cursor < 2 ^ 50 →
        ∃ r : Req, (getNi t (120 + k / 8)).reqs = (getNi s (120 + k / 8)).reqs ++ [r] ∧ r.msg.opc = 1 ∧
          r.hostAddr.toNat = j.src + 4096 * j.cursor ∧ r.nbytes = 4096 ∧ r.q = k % 8)

/-- R291, R292, R299: a job that is complete leaves its slot and is counted; an idle slot takes the oldest half of its victim's deque, and
parks after eleven failures until a push; the slot of a failed engine moves to the rink's spare. -/
def Obligations.SlotsStealParkAndFailOver : Prop :=
  (∀ (s : State) (slot : BitVec 6) (k g : Nat) (j : Job) (c : Cmd), k = slot.toNat → (getSlot s k).running = some j →
    getCmd s j.cmd = some c → jobFinished c j = true → slotEng s k = some g → Completes (.jobComplete slot) s fun t =>
      (getSlot t k).running = none ∧
      (rd t (aEng (0x1010 + 0x20 * g))).toNat = min 0xFFFFFFFF ((rd s (aEng (0x1010 + 0x20 * g))).toNat + 1)) ∧
  (∀ (s : State) (slot : BitVec 6) (k v n : Nat) (e : EngSlot), k = slot.toNat → slotIdle s k = true → (getSlot s k).parked = false →
    (getSlot s k).fails < 11 → (getSlot s k).waitTo ≤ nowNs s → stealTarget s k = (some v, e) → (getSlot s v).takenNs ≠ some (nowNs s) →
    n = (getSlot s v).deque.length → 0 < n →
    (∀ c ∈ s.eng.cmds, c.waitingJobs = []) → Completes (.workSteal slot) s fun t =>
      (getSlot t v).deque = (getSlot s v).deque.take (n - (n + 1) / 2) ∧ (getSlot t k).deque = (getSlot s v).deque.drop (n - (n + 1) / 2) ∧
      (getSlot t k).fails = 0 ∧ (∀ m, m ≠ v → m ≠ k → getSlot t m = getSlot s m)) ∧
  (∀ (s : State) (slot : BitVec 6) (k : Nat), k = slot.toNat → slotIdle s k = true → (getSlot s k).parked = false →
    11 ≤ (getSlot s k).fails → (getSlot s k).waitTo ≤ nowNs s → Completes (.workSteal slot) s fun t =>
      getSlot t k = { getSlot s k with parked := true } ∧ t = { s with eng := { s.eng with slots := t.eng.slots } }) ∧
  (∀ (s : State) (slot : BitVec 6) (k : Nat), k = slot.toNat → (getSlot s k).parked = true → k ∈ s.eng.wakes →
    Completes (.parkWake slot) s fun t => getSlot t k = { getSlot s k with parked := false, fails := 0 } ∧ k ∉ t.eng.wakes ∧
      t = { s with eng := { s.eng with slots := t.eng.slots, wakes := t.eng.wakes } }) ∧
  (∀ (s : State) (e : BitVec 7) (b k : Nat), b = e.toNat / 9 → rinkOn s b = true → e.toNat ∉ s.eng.failedE →
    ((List.range 8).map (8 * b + ·)).find? (fun k => slotPos s k == some (e.toNat % 9)) = some k →
    bitOf (rd s (aEng (8 + 8 * b))) 32 = false → 9 * b + 8 ≠ e.toNat → 9 * b + 8 ∉ s.eng.failedE → Completes (.engineFail e) s fun t =>
      slotEng t k = some (9 * b + 8) ∧ bitOf (rd t (aEng (8 + 8 * b))) 32 = true ∧ bitOf (rd t (aEng 0)) 1 = true ∧ e.toNat ∈ t.eng.failedE)

/-- R290, R293, R294, R306, R309: the command at the head of the control queue takes its first step where its extent is in the state it needs: BIND
prepares the row at the target, UNBIND the RELEASED record, SHARE the lift-pass row, MOVE both rows and MV, SLICE_RESET the resets, a
removal the records; a BIND of an entry that is not FREE ends with BAD_STATE, and one whose record is committed ends well.
R293: 56 frames after the invalidation the mirrored row goes, and a zero-fill of its old location begins. -/
def Obligations.ControlCommandsStep : Prop :=
  (∀ (s : State) (c : Cmd) (x : Nat) (e : Ebt), ctlHead s = some c → c.done = false → x = fld (cmdW c.entry 1) 18 0 → e = ebtGet s x →
    (∀ ni, c.op = 0x10 → c.step = 0 → bitOf c.entry 10 = false → repairing s x = false → e.st = 0 → ni = fld (cmdW c.entry 2) 7 0 →
      tbtFull s ni x = false → Completes .bind s fun t => ∃ r : TbtRow,
        (getNi t ni).dec.tbtDue = (getNi s ni).dec.tbtDue ++ [(x, some r)] ∧ r.tag.toNat = fld (cmdW c.entry 3) 5 0 ∧
        r.dpa.toNat = fld (cmdW c.entry 2) 32 8 ∧ r.gen.toNat = (e.gen + 1) % 256 ∧ r.hidden = false ∧
        getCmd t c.key = some { c with step := 2 } ∧ t.jrn = s.jrn ∧ t.regs = s.regs) ∧
    (c.op = 0x10 → c.step = 0 → bitOf c.entry 10 = false → repairing s x = false → e.st ≠ 0 → c.ring ≠ 16 → Completes .bind s fun t =>
      getCmd t c.key = some { c with done := true, status := 4 } ∧ c.key ∉ t.eng.ctlQ ∧ t.nis = s.nis ∧ t.jrn = s.jrn) ∧
    (c.op = 0x10 → c.step = 4 → recsPending s c.key = false → c.ring ≠ 16 → Completes .bind s fun t =>
      getCmd t c.key = some { c with done := true, status := 0 } ∧ c.key ∉ t.eng.ctlQ) ∧
    (c.op = 0x11 → c.step = 0 → repairing s x = false → (e.st = 1 ∨ e.st = 2) → Completes .unbind s fun t => ∃ r : Rec,
        t.jrn.todo = s.jrn.todo ++ [r] ∧ r.typ = 1 ∧ r.index = x ∧ r.key = c.key ∧
        r.body = BitVec.ofNat 128 (ebtData { e with st := 3, bv := false, mv := false }) ∧ getCmd t c.key = some { c with step := 2 }) ∧
    (∀ row, c.op = 0x12 → c.step = 0 → repairing s x = false → (e.st = 1 ∨ e.st = 2) → bitOf (cmdW c.entry 2) 21 = false →
      bitOf (cmdW c.entry 3) 10 = false → (grantsValid s).length < 4096 →
      masterRow s (BitVec.ofNat 12 (fld (cmdW c.entry 2) 11 0)) (fld (cmdW c.entry 2) 15 12) = some row → Completes .share s fun t =>
        bitOf (pendRd t (lptAddr e.tni row)) e.tag = true ∧
        fld (pendRd t (lptAddr e.tni row + 8)) 4 0 = (fld (pendRd s (lptAddr e.tni row + 8)) 4 0 ||| fld (cmdW c.entry 2) 20 16) ∧
        getCmd t c.key = some { c with step := 2 } ∧ t.nis = s.nis) ∧
    (∀ n, c.op = 0x13 → c.step = 0 → n = fld (cmdW c.entry 1) 7 0 → Completes .sliceReset s fun t =>
        getCmd t c.key = some { c with step := 2 } ∧
        ∀ k, k < 16 → bitOf (cmdW c.entry 2) k = true → slcAct s n k = true → slcRst t n k = true) ∧
    (∀ b, c.op = 0x04 → c.step = 0 → repairing s x = false → (e.st = 1 ∨ e.st = 2) → b = fld (cmdW c.entry 2) 7 0 → e.tni ≠ b →
      ((tbtAll s e.tni).filter fun p => p.2.mirror.isSome).length < 4 → tbtFull s b x = false → e.bv = false → Completes .move s fun t =>
        ∃ rb ra : TbtRow, (getNi t b).dec.tbtDue = (getNi s b).dec.tbtDue ++ [(x, some rb)] ∧ rb.hidden = true ∧
          rb.dpa.toNat = fld (cmdW c.entry 2) 32 8 ∧ (getNi t e.tni).dec.tbtDue = (getNi s e.tni).dec.tbtDue ++ [(x, some ra)] ∧
          ra.mirror = some (BitVec.ofNat 8 b, BitVec.ofNat 25 (fld (cmdW c.entry 2) 32 8)) ∧
          ebtRaw t x = ebtSeal (ebtData { e with mv := true }) ∧ getCmd t c.key = some { c with host := e.tni, step := 2 }) ∧
    (∀ n : NiId, c.op = 0xF0 → c.host = n.toNat → c.step = 0 → s.jrn.recovering = false → s.jrn.repairs = [] →
      Completes (.extentOrphan n) s fun t =>
        t.jrn.todo.length = s.jrn.todo.length + (boundAt s n.toNat).length ∧
        getCmd t c.key = some { c with extents := boundAt s n.toNat, step := 2 })) ∧
  (∀ (s : State) (n : NiId) (x : BitVec 19) (r : TbtRow) (u : Nat), mget (getNi s n.toNat).dec.tbt x.toNat = some r → r.untilNs = some u →
    u ≤ nowNs s → Completes (.moveMirrorExpire n x) s fun t =>
      mget (getNi t n.toNat).dec.tbt x.toNat = none ∧ (∀ y, y ≠ x.toNat → mget (getNi t n.toNat).dec.tbt y = mget (getNi s n.toNat).dec.tbt y) ∧
      t.eng.nextKey = s.eng.nextKey + 1 ∧ t.eng.cmds.length = s.eng.cmds.length + 1 ∧ NiOnly n.toNat { s with eng := t.eng } t)

/-- R137, R139, R140: an ADMIT that the procedure admits records its flow, pending commit at its tick, and ends with the flow's number; a
refused one ends with its code and records nothing; a RELEASE makes every segment of the chain pending release; a peer's request is
answered. -/
def Obligations.AdmissionRecordsPendingFlows : Prop :=
  (∀ (s u : State) (c : Cmd) (r : AdmRes), admHead s = some c → c.op = 0x20 → c.ring ≠ 16 → fld (cmdW c.entry 4) 51 0 = 0 →
    admDecide (evDuty s admRink 12) (admReqOf c.entry none) (fld (cmdW c.entry 1) 11 8) = (r, u) →
    (r.code = 0 → Completes .admitFlow s fun t => (∃ f, mget t.eng.flows r.id = some f ∧ f.state = 1 ∧ f.tick = r.tick) ∧
      getCmd t c.key = some { c with
        done := true, status := 0, aux0 := BitVec.ofNat 12 r.id, aux1 := BitVec.ofNat 12 (r.twin.getD 0xFFF), result := BitVec.ofNat 64 r.tick } ∧
      c.key ∉ t.eng.admQ) ∧
    (r.code ≠ 0 → Completes .admitFlow s fun t => t.eng.flows = s.eng.flows ∧
      getCmd t c.key = some { c with done := true, status := 9, result := BitVec.ofNat 64 (r.code ||| r.peer <<< 8) } ∧ c.key ∉ t.eng.admQ)) ∧
  (∀ (s : State) (c : Cmd) (f : Flow) (id : Nat), admHead s = some c → c.op = 0x21 → c.ring ≠ 16 → id = fld (cmdW c.entry 1) 11 0 →
    mget s.eng.flows id = some f → Completes .release s fun t =>
      (∀ p ∈ s.eng.flows, p.2.chain = f.chain → ∃ g, mget t.eng.flows p.1 = some g ∧ g.state = 3) ∧
      (∃ d, getCmd t c.key = some d ∧ d.done = true ∧ d.status = 0) ∧ c.key ∉ t.eng.admQ) ∧
  (∀ (s : State) (peer : BitVec 4) (req : BitVec 512), s.gen.eng = true → Completes (.admitPeerSegment peer req) s fun t =>
      ∃ code, t.eng.peerAdmits = s.eng.peerAdmits ++ [(req, code)] ∧ (code ≠ 0 → t.eng.flows = s.eng.flows))

/-- R295: an FM API command whose request is read is executed: Identify, Background Operation Status, Get DCD Info and the extent lists
prepare their response with Success, an unknown host's with Invalid Input, an unknown opcode's with Unsupported; an Add or Release of
extents begins with the first of its list. The bytes of the response come through an opaque function (log 26). -/
def Obligations.FmApiPreparesItsResponse : Prop :=
  ∀ (s : State) (c : Cmd), ctlHead s = some c → c.op = 0x30 → c.step = 2 →
    (∀ ins code, ((ins = .fmIdentify ∧ fmOpcode c = 1 ∧ code = 0) ∨ (ins = .fmBackgroundOperationStatus ∧ fmOpcode c = 2 ∧ code = 0) ∨
        (ins = .fmGetDcdInfo ∧ fmOpcode c = 0x5600 ∧ code = 0) ∨
        (ins = .fmGetDcRegionExtentLists ∧ fmOpcode c = 0x5603 ∧ code = (if (fmNode s (fmRequest c)).isSome then 0 else 2)) ∨
        (ins = .fmInitiateDcAdd ∧ fmOpcode c = 0x5604 ∧ fmNode s (fmRequest c) = none ∧ code = 2) ∨
        (ins = .fmInitiateDcRelease ∧ fmOpcode c = 0x5605 ∧ fmList s (fmRequest c) = none ∧ code = 2) ∨
        (ins = .fmUnsupported ∧ fmKnown (fmOpcode c) = false ∧ code = 3)) → Completes ins s fun t => ∃ bytes : List (BitVec 8),
      bytes.length ≤ fld (cmdW c.entry 4) 11 0 ∧
      getCmd t c.key = some { c with step := 20, result := BitVec.ofNat 64 code, got := linesOfBytes bytes 64, host := bytes.length } ∧
      t = { s with eng := t.eng }) ∧
    (∀ ins x rest, fmList s (fmRequest c) = some (x :: rest) →
      ((ins = .fmInitiateDcAdd ∧ fmOpcode c = 0x5604 ∧ (fmNode s (fmRequest c)).isSome = true) ∨ (ins = .fmInitiateDcRelease ∧ fmOpcode c = 0x5605)) →
      Completes ins s fun t => getCmd t c.key = some { c with step := 100, extents := x :: rest } ∧ t = { s with eng := t.eng })

/-! The journal (14). -/

/-- R311, R313, R314, R316: an append takes JRN_SEQ, which advances, and goes to both homes; a record that both homes have acknowledged commits: its
entry is written and the committed SEQ moves; a failed home write is sent again after 16 frames; GROOM_NOW starts a checkpoint from the
SEQ that comes next. -/
def Obligations.JournalAppendsCommitsAndGrooms : Prop :=
  (∀ (s : State) (r : Rec), nextAppend s.jrn.todo = some r → s.jrn.recovering = false → s.gen.jrn = true → s.jrn.ring.length + 1 < 12288 →
    s.jrn.appendFc ≠ some (frameOf s, fcNow s) → Completes .journalAppend s fun t => ∃ q : Rec, t.jrn.ring = s.jrn.ring ++ [q] ∧ q.seq = rdF s (aJrn 0x20) 47 0 ∧
      q.body = r.body ∧ q.index = r.index ∧ q.typ = r.typ ∧ q.off0 = rdF s (aJrn 0x48) 29 0 ∧ q.off1 = rdF s (aJrn 0x50) 29 0 ∧
      (rd t (aJrn 0x20)).toNat = (rdF s (aJrn 0x20) 47 0 + 1) % 2 ^ 48 ∧
      t.jrn.todo = (takeFirst s.jrn.todo fun q => q == r).2 ∧
      t.jrn.outH0.length = s.jrn.outH0.length + 1 ∧ t.jrn.outH1.length = s.jrn.outH1.length + 1) ∧
  (∀ (s u : State) (h : BitVec 1) (k fa stat : Nat) (data : List Line) (w : HomeWrite) (r : Rec), k = h.toNat →
    takeAnswer s (200 + k) = (some (fa, data, stat), u) →
    (homeOut s k).find? (fun w => w.sent && w.failedAt.isNone && w.off == fa % 2 ^ 30) = some w → w.seq = some r.seq → w.hdr = false →
    s.jrn.ring = [r] → r.index < 524288 → r.committed = false → (if k = 0 then r.ack1 else r.ack0) = true → r.typ = 1 → s.jrn.ckpt = none →
    s.jrn.replaceHome = [] → s.eng.groomWanted = false → Completes (.homeWriteAck h) s fun t =>
      ebtRaw t r.index = ebtSeal (r.body.toNat % 2 ^ 120) ∧ rd t (aJrn 0x28) = BitVec.ofNat 64 r.seq ∧
      t.jrn.ring = [{ r with ack0 := true, ack1 := true, committed := true }]) ∧
  (∀ (s : State) (h : BitVec 1) (k f : Nat) (w : HomeWrite), k = h.toNat →
    (homeOut s k).find? (fun w => match w.failedAt with | some f => frameGe (frameOf s) ((f + 16) % 2 ^ 48) | none => false) = some w →
    w.failedAt = some f → engCan s 120 9 0x10 (linesOf w.off w.bytes.length) = true → Completes (.homeWriteRetry h) s fun t => ∃ q : Req,
      (getNi t 120).reqs = (getNi s 120).reqs ++ [q] ∧ q.hostAddr = BitVec.ofNat 52 (homeBase s k + w.off) ∧ q.msg.dst = homeNode s k ∧
      q.slot = some (200 + k) ∧ homeOut t k = updFirst (homeOut s k) (fun v => v == w) fun v => { v with failedAt := none }) ∧
  (∀ s : State, s.jrn.ckpt = none → s.gen.jrn = true → s.gen.eng = true → Completes .groomNow s fun t => ∃ c : Ckpt, t.jrn.ckpt = some c ∧
      c.startSeq = rdF s (aJrn 0x20) 47 0 ∧ c.key = s.eng.nextKey ∧ c.stage = 0 ∧ bitOf (rd t (aJrn 8)) 1 = true)

/-- R308, R318, R319, R491: a repaired entry takes what a home held, and stays UNREADABLE with neither; a recovery that is asked for begins when
the control queue is empty; with no correct checkpoint it ends with an empty table, its result 2, else with the checkpoint's number and
1, or 3 with one home unreadable; with no home up after 2 s there is one warning. -/
def Obligations.RepairAndRecoveryEnd : Prop :=
  (∀ (s : State) (x : BitVec 19) (h0 h1 : Option (BitVec 128)), x.toNat ∈ s.jrn.repairs →
    (∀ v, (h0 = some v ∨ (h0 = none ∧ h1 = some v)) → (∀ r ∈ s.jrn.ring, r.typ ≠ 1 ∨ r.index ≠ x.toNat) → Completes (.ebtRepairDone x h0 h1) s fun t =>
      ebtRaw t x.toNat = ebtSeal v.toNat ∧ x.toNat ∉ t.jrn.repairs ∧ WordsBut [aEbt x.toNat, aEbt x.toNat + 8] s t) ∧
    (h0 = none → h1 = none → Completes (.ebtRepairDone x h0 h1) s fun t =>
      rd t 0x1E00000 = rd s 0x1E00000 ||| 2#64 ∧ x.toNat ∈ t.jrn.unread ∧ x.toNat ∉ t.jrn.repairs ∧ WordsBut [0x1E00000] s t)) ∧
  (∀ s : State, s.gen.jrn = true → Completes .jrnRecover s fun t => t = { s with jrn := { s.jrn with recWanted := true } }) ∧
  (∀ s : State, s.jrn.recovering = false → s.eng.ctlQ = [] → s.jrn.recWanted = true → s.jrn.imageNs = none → Completes .recoveryStart s fun t =>
    t = { s with jrn := { s.jrn with recovering := true, recWanted := false } }) ∧
  (∀ (s : State) (h0 h1 : HomeRead), s.jrn.recovering = true → Completes (.recoveryDone h0 h1) s fun t =>
    t.jrn.recovering = false ∧ t.jrn.fillsOpen = true ∧ t.jrn.ring = [] ∧ bitOf (rd t (aJrn 8)) 5 = true ∧
    (∀ c, bestCkpt (ckptsOk s h0 ++ ckptsOk s h1) = some c → rd t (aJrn 0x38) = c.cknum.zeroExtend 64 ∧
      rdF t (aJrn 0x68) 63 60 = (if h0.readable && h1.readable then 1 else 3)) ∧
    (bestCkpt (ckptsOk s h0 ++ ckptsOk s h1) = none → rdF t (aJrn 0x68) 63 60 = 2 ∧ bitOf (rd t (aJrn 8)) 6 = true ∧
      ∀ x, x < 524288 → ebtRaw t x = 0)) ∧
  (∀ (s : State) (u : Nat), s.jrn.imageNs = some u → u + 2000000000 ≤ nowNs s → s.jrn.waitRaised = false → homeUp s 0 = false →
    homeUp s 1 = false → s.jrn.recovering = false → Completes .homeWaitTimeout s fun t =>
      t.jrn = { s.jrn with waitRaised := true } ∧ t.nis = s.nis ∧ NotedBut [] s t)

/-! The gate tick (01, 02). -/

/-- R17, R26, R27, R31, R34, R8: a gate tick begins the next frame, or, when the count has already crossed the boundary, leaves the time
as it is (log 6); tb_tick_out rises; a return from holdover that is due falls; a TIM_TRIM that waits takes effect. -/
def Obligations.GateTickBeginsTheFrame : Prop :=
  ∀ (s : State) (slacks : List (BitVec 6)), Completes (.gateTick slacks) s fun t =>
    t.time.tickOut = true ∧ t.time.tickRise = nowNs t ∧ t.time.tickDue = false ∧
    (s.time.tickDue = true → t.time.t = s.time.t) ∧
    (s.time.tickDue = false → nowNs t = (nowNs s / 1024 + 1) * 1024 % 2 ^ 64 ∧ frameOf t = (frameOf s + 1) % 2 ^ 48 ∧ posOf t = 0) ∧
    (s.time.hold = true → s.time.returnDue = true → t.time.hold = false) ∧
    ∀ v, s.img.st ≠ 3 → (aTim 0x20, v) ∈ s.pendT → (∀ p ∈ s.pendT, p.1 = aTim 0x20 → p.2 = v) → rdF t (aTim 0x20) 31 0 = fld v 31 0

/-! The image (15). -/

/-- R330, R333, R335, R341, R342, R327, R337, R340: START begins receipt, or is refused while an image is held or time is not locked;
IMG_DATA adds its bytes, and a header that fails its check ends the image with its code; ABORT ends an image whose switch is not in
the next frame; verification stages the image with its tick or refuses it; the frame before the tick passes it, delays it or refuses it;
the old epoch's slot is released at its tick. -/
def Obligations.ImageIsReceivedJudgedAndReleased : Prop :=
  (∀ s : State, s.rst.initDone = true →
    (s.img.st ≠ 0 → Completes (.imgStart .cp) s fun t => t.img = s.img ∧ rdF t (aImg 8) 23 16 = 0x17 ∧ bitOf (rd t (aImg 8)) 1 = true ∧
      NotedBut [aImg 8] s t) ∧
    (s.img.st = 0 → (timLocked s = false ∨ lcState s = 4) → Completes (.imgStart .cp) s fun t => t.img = s.img ∧
      rdF t (aImg 8) 23 16 = 0x18 ∧ bitOf (rd t (aImg 8)) 1 = true ∧ NotedBut [aImg 8] s t) ∧
    (s.img.st = 0 → timLocked s = true → lcState s ≠ 4 → Completes (.imgStart .cp) s fun t =>
      rdF t (aImg 8) 31 29 = 1 ∧ rdF t (aImg 8) 23 8 = 0 ∧ WordsBut [aImg 8] s t ∧
      t = { s with regs := t.regs, img := { s.img with st := 1, bytes := [] } })) ∧
  (∀ (s : State) (v : Word) (b : List (BitVec 8)), b = s.img.bytes ++ bytesOf 8 v.toNat →
    (s.img.st ≠ 1 → Completes (.imgData .cp v) s fun t =>
      rd t (aImg 8) = rd s (aImg 8) ||| 8#64 ∧ WordsBut [aImg 8] s t ∧ t = { s with regs := t.regs }) ∧
    (s.img.st = 1 → b.length < 256 → Completes (.imgData .cp v) s fun t => t = { s with img := { s.img with bytes := b } }) ∧
    (s.img.st = 1 → b.length = 256 → hdrCode s b = 0 → Completes (.imgData .cp v) s fun t =>
      rd t (aImg 0x28) = BitVec.ofNat 64 (hdrSeq b) ∧ WordsBut [aImg 0x28] s t ∧
      t = { s with regs := t.regs, img := { s.img with bytes := b } }) ∧
    (s.img.st = 1 → b.length = 256 → hdrCode s b ≠ 0 → Completes (.imgData .cp v) s fun t =>
      t.img = { s.img with st := 0, bytes := [], prechecked := false } ∧ rdF t (aImg 8) 31 29 = 0 ∧ rdF t (aImg 8) 23 16 = hdrCode s b ∧
      bitOf (rd t (aImg 8)) 1 = true ∧ rd t (aImg 0x28) = 0 ∧ NotedBut [aImg 8, aImg 0x28] s t)) ∧
  (∀ s : State,
    (s.img.st ≠ 0 → (s.img.st ≠ 3 ∨ frameGe (frameOf s + 1) s.img.switchT = false) → Completes (.imgAbort .cp) s fun t =>
      rdF t (aImg 8) 31 29 = 0 ∧ rdF t (aImg 8) 23 16 = 0x16 ∧ bitOf (rd t (aImg 8)) 1 = true ∧ rd t (aImg 0x28) = 0 ∧
      WordsBut [aImg 8, aImg 0x28] s t ∧ t = { s with regs := t.regs, img := { s.img with st := 0, bytes := [], prechecked := false } }) ∧
    ((s.img.st = 0 ∨ s.img.st = 3 ∧ frameGe (frameOf s + 1) s.img.switchT = true) → Completes (.imgAbort .cp) s fun t => t = s)) ∧
  (∀ s : State, s.img.st = 2 →
    (sigCode s s.img.bytes ≠ 0 → Completes .imageVerifyDone s fun t =>
      t.img = { s.img with st := 0, bytes := [], prechecked := false } ∧ rdF t (aImg 8) 23 16 = sigCode s s.img.bytes ∧
      bitOf (rd t (aImg 8)) 1 = true ∧ NotedBut [aImg 8, aImg 0x28] s t) ∧
    (verifyCode s = none → Completes .imageVerifyDone s fun t =>
      rdF t (aImg 8) 31 29 = 3 ∧ rd t (aImg 0x38) = BitVec.ofNat 64 (chooseTick s s.img.bytes) ∧ WordsBut [aImg 8, aImg 0x38] s t ∧
      t = { s with regs := t.regs, img := { s.img with
        st := 3, switchT := chooseTick s s.img.bytes, verifiedF := frameOf s, prechecked := false } })) ∧
  (∀ s : State, s.img.st = 3 → s.img.prechecked = false → (frameOf s + 1) % 2 ^ 48 = s.img.switchT →
    (imgWaits s s.img.switchT = none → imgConflict s = none → Completes .imagePrecheck s fun t =>
      t = { s with img := { s.img with prechecked := true } }) ∧
    (∀ c sub, imgWaits s s.img.switchT = none → imgConflict s = some (c, sub) → Completes .imagePrecheck s fun t =>
      t.img = { s.img with st := 0, bytes := [], prechecked := false } ∧ rdF t (aImg 8) 23 16 = c % 256 ∧
      bitOf (rd t (aImg 8)) 1 = true ∧ NotedBut [aImg 8, aImg 0x28] s t) ∧
    (∀ r, imgWaits s s.img.switchT = some r → hdrFabric s.img.bytes = false → Completes .imagePrecheck s fun t =>
      rd t (aImg 0x38) = BitVec.ofNat 64 r ∧ WordsBut [aImg 0x38] s t ∧
      t = { s with regs := t.regs, img := { s.img with switchT := r } })) ∧
  (∀ (s : State) (f : Nat), s.img.release = some f → frameGe (frameOf s) f = true → Completes .epochRelease s fun t =>
    (∀ x, isRtr s x = true → bitOf (rd t (aRtr x 0x18)) 17 = false) ∧ rd t (aImg 0x40) = 0 ∧ bitOf (rd t (aImg 8)) 2 = true ∧
    t.img = { s.img with release := none })

/-! Power (16). -/

/-- R348, R349, R351, R352, R355, R360, R362: a permitted write of PWR_REQ starts its change when none is in progress: a slower level waits
for its tick, a faster one drives its VID and waits for the regulator, a region begins its entry or its wake; a condition of Table 16.4
or a barred level ends it with its code. With a change in progress it becomes the pending request, and the one held is superseded. -/
def Obligations.PowerRequestsStartOrWait : Prop :=
  ∀ (s : State) (m : Master) (req : BitVec 32) (r : BitVec 24) (c : Instr) (k i l : Nat), r = req.extractLsb' 0 24 → pwrMay s m = true →
    ((c = .pwrSetLevel m req ∧ reqAction r = 0) ∨ (c = .pwrCg m req ∧ reqAction r = 1) ∨ (c = .pwrRet m req ∧ reqAction r = 2) ∨
      (c = .pwrOff m req ∧ reqAction r = 3) ∨ (c = .pwrWake m req ∧ reqAction r = 4)) →
    k = reqKind r → i = reqIndex r → l = reqLevel r →
    (s.pwr.cur.isSome = true → s.pwr.pend = none → Completes c s fun t => t = { s with pwr := { s.pwr with pend := some r } }) ∧
    (∀ o, s.pwr.cur.isSome = true → s.pwr.pend = some o → Completes c s fun t =>
      rdF t (aPwr 0x10) 63 56 = 1 ∧ rdF t (aPwr 0x10) 55 32 = o.toNat ∧ WordsBut [aPwr 0x10] s t ∧
      t = { s with regs := t.regs, pwr := { s.pwr with pend := some r } }) ∧
    (s.pwr.cur = none → s.pwr.pend = none → s.pwr.forced = none → k ≠ 3 →
      (reqAction r = 0 → bitOf (rd s (aPwr 0x20)) (16 + l) = true → bitOf (rd s (aPwr 0x108)) l = false →
        (s.pwr.lvl.toNat < l → Completes c s fun t =>
          t = { s with pwr := { s.pwr with cur := some { req := r, phase := 1, readyNs := nowNs s } } }) ∧
        (l < s.pwr.lvl.toNat → s.pwr.vid.toNat ≠ vidCode s l → Completes c s fun t =>
          t = { s with pwr := { s.pwr with
            cur := some { req := r, phase := 5, deadline := nowNs s + 1000 * max 1 (rdF s (aPwr 0x20) 31 24), readyNs := nowNs s }
            vid := BitVec.ofNat 8 (vidCode s l), vchg := true, pgood := false, vwait := true } })) ∧
      (reqAction r = 0 → (bitOf (rd s (aPwr 0x20)) (16 + l) = false ∨ bitOf (rd s (aPwr 0x108)) l = true) → Completes c s fun t =>
        rdF t (aPwr 0x10) 63 56 = 0x0C ∧ rdF t (aPwr 0x10) 55 32 = r.toNat ∧ bitOf (rd t (aPwr 0x18)) 1 = true ∧ t.pwr.cur = none) ∧
      (1 ≤ reqAction r → reqAction r ≤ 3 → regionExists s k i = true → regionOf s k i = 0 →
        (k = 0 → sleepRefusal s k i = none → Completes c s fun t =>
          t = { s with pwr := { s.pwr with cur := some { req := r, phase := 2, readyNs := nowNs s } } }) ∧
        (k ≠ 0 → sleepRefusal s k i = none → Completes c s fun t =>
          t.pwr.cur = some { req := r, phase := 3, deadline := nowNs s + 65536 } ∧ (k = 2 → (getNi t i).drain.active = true)) ∧
        (∀ e, sleepRefusal s k i = some e → Completes c s fun t =>
          rdF t (aPwr 0x10) 63 56 = e % 256 ∧ rdF t (aPwr 0x10) 55 32 = r.toNat ∧ t.pwr.cur = none ∧ regionOf t k i = 0)) ∧
      (reqAction r = 4 → regionExists s k i = true → (k = 0 → ∀ c, c < i → regionOf s 0 c = 0) →
        (regionOf s k i = 1 → Completes c s fun t =>
          t = { s with pwr := { s.pwr with cur := some { req := r, phase := 7, readyNs := nowNs s } } }) ∧
        (regionOf s k i = 2 → Completes c s fun t =>
          t = { s with pwr := { s.pwr with cur := some { req := r, phase := 5, readyNs := nowNs s + 8000 } } }) ∧
        (regionOf s k i = 3 → Completes c s fun t =>
          t = { s with pwr := { s.pwr with cur := some { req := r, phase := 6, readyNs := nowNs s + 20000 } } })))

/-- R347, R349, R356, R360: pwr_pgood lets a faster level wait for its tick; without it within VTO the change ends with 0x0B and the old
VID; a drained region is clamped and leaves its clock or supply; one not drained in 64 frames ends with 0x0A; a completed entry sets the
region's state and ends OK; a wake whose clock has started waits for the tick. -/
def Obligations.PowerChangesProgressAndEnd : Prop :=
  (∀ s : State, s.pwr.marginUps = [] →
    (s.pwr.cur = none → Completes .pwrPgood s fun t => t = { s with
      pwr := { s.pwr with pgood := true, vwait := false }
      rst := { s.rst with pgSeen := true, clearing := s.rst.clearing || (s.rst.inCold && s.rst.rstN && s.rst.porN) } }) ∧
    (∀ q, s.pwr.cur = some q → reqAction q.req = 0 → q.phase = 5 → s.pwr.lvl.toNat ≠ reqLevel q.req → Completes .pwrPgood s fun t =>
      t.pwr = { s.pwr with pgood := true, vwait := false, cur := some { q with phase := 1 } } ∧ t.regs = s.regs ∧ t.nis = s.nis)) ∧
  (∀ (s : State) (q : PwrReq), s.pwr.cur = some q → s.pwr.pend = none → s.pwr.forced = none →
    (reqAction q.req = 0 → q.phase = 5 → s.pwr.vwait = true → reqLevel q.req < s.pwr.lvl.toNat → q.deadline ≤ nowNs s →
      Completes .vrTimeout s fun t => rdF t (aPwr 0x10) 63 56 = 0x0B ∧ rdF t (aPwr 0x10) 55 32 = q.req.toNat ∧
        bitOf (rd t (aPwr 0x18)) 3 = true ∧ bitOf (rd t (aPwr 0x18)) 1 = true ∧ t.pwr.cur = none ∧
        t.pwr.vid = BitVec.ofNat 8 (vidCode s s.pwr.lvl.toNat) ∧ t.pwr.lvl = s.pwr.lvl) ∧
    (q.phase = 3 → nowNs s < q.deadline → regionDrained s (reqKind q.req) (reqIndex q.req) = true →
      accessOpen s (reqKind q.req) (reqIndex q.req) = false → sleepRefusal s (reqKind q.req) (reqIndex q.req) = none → Completes .regionDrainDone s fun t =>
        t.pwr.cur = some { q with phase := 5, readyNs := nowNs s + entryNs s 0 (reqAction q.req) } ∧
        (reqAction q.req = 3 → regionKey (reqKind q.req) (reqIndex q.req) ∈ t.pwr.saved)) ∧
    (q.phase = 3 → q.deadline ≤ nowNs s → (reqKind q.req = 0 ∨ reqDiscard q.req = false) → Completes .regionDrainDeadline s fun t =>
        bitOf (rd t (aPwr 0x18)) 2 = true ∧ rdF t (aPwr 0x10) 63 56 = 0x0A ∧ rdF t (aPwr 0x10) 55 32 = q.req.toNat ∧ t.pwr.cur = none ∧
        regionOf t (reqKind q.req) (reqIndex q.req) = regionOf s (reqKind q.req) (reqIndex q.req)) ∧
    (q.phase = 5 → 1 ≤ reqAction q.req → reqAction q.req ≤ 3 → q.readyNs ≤ nowNs s → Completes .regionEntryDone s fun t =>
        regionOf t (reqKind q.req) (reqIndex q.req) = reqAction q.req ∧ rdF t (aPwr 0x10) 63 56 = 0 ∧
        rdF t (aPwr 0x10) 55 32 = q.req.toNat ∧ bitOf (rd t (aPwr 0x18)) 0 = true ∧ t.pwr.cur = none) ∧
    (reqAction q.req = 4 → (q.phase = 5 ∨ q.phase = 6) → q.readyNs ≤ nowNs s → Completes .regionWakeReady s fun t =>
        t = { s with pwr := { s.pwr with cur := some { q with phase := 7 } } }))

/-! Reset (17, 22 R465, 24 R486). -/

/-- R370, R374, R383, R465, R486: power-up resets everything, keeps the fuses, completes a half-done TO_RETURN, and gives IMG_FLOOR the fused
floor; pwr_rst_n and GLB_RST_CTL.COLD cause a cold reset with causes 1 and 2; the arrays are cleared once both reset inputs are high and
pwr_pgood was sampled, and INIT_DONE ends it. -/
def Obligations.PowerUpAndColdResetRun : Prop :=
  (∀ s : State, Completes .por s fun t =>
    t.rst.inCold = true ∧ t.rst.initDone = false ∧ t.rst.pgSeen = false ∧ t.time = {} ∧ t.eng = {} ∧ t.jrn = {} ∧ t.img = {} ∧ t.flt = {} ∧
    t.mmx = {} ∧ t.rtrs = [] ∧ rd t (aImg 0x30) = BitVec.ofNat 64 (fusedFloor s) ∧ (∀ a, a ≠ aImg 0x30 → rd t a = resetWord a) ∧
    t.lcs.floors = s.lcs.floors ∧ t.lcs.session = none ∧ t.lcs.busy = false ∧
    ((s.lcs.fuse.ir = false ∨ s.lcs.fuse.f3 = true) → (s.lcs.fuse.is = false ∨ s.lcs.fuse.f4 = true) →
      t.lcs.fuse = s.lcs.fuse ∧ t.lcs.keyE = s.lcs.keyE ∧ t.lcs.keyM = s.lcs.keyM ∧ t.lcs.jrnA = s.lcs.jrnA ∧ t.lcs.jrnB = s.lcs.jrnB) ∧
    (s.lcs.fuse.ir = true → s.lcs.fuse.f3 = false → t.lcs.fuse.f3 = true ∧ t.lcs.jrnA = jrnWiped ∧
      ∀ ml i, 2 ≤ i → i < 8 → keySlot t ml i = keyWiped) ∧
    (s.lcs.fuse.is = true → s.lcs.fuse.f4 = false → t.lcs.fuse.f4 = true ∧ ∀ ml i, i < 8 → keySlot t ml i = keyWiped)) ∧
  (∀ s : State, s.rst.rstN = true → Completes .coldResetAssert s fun t => ColdReset s t 1 ∧ t.rst.rstN = false ∧ t.rst.clearing = false ∧
    t.lcs.fuse = s.lcs.fuse ∧ t.lcs.keyE = s.lcs.keyE ∧ t.lcs.keyM = s.lcs.keyM) ∧
  (∀ s : State, Completes (.glbRstCold .cp) s fun t => ColdReset s t 2 ∧ t.rst.clearing = (s.rst.porN && s.rst.rstN && s.rst.pgSeen) ∧
    t.lcs.fuse = s.lcs.fuse) ∧
  (∀ s : State, Completes .coldResetRelease s fun t => t = { s with rst := { s.rst with
    rstN := true, clearing := if s.rst.inCold then s.rst.porN && s.rst.pgSeen else s.rst.clearing } }) ∧
  (∀ s : State, s.rst.inCold = true → s.rst.clearing = true → Completes .coldInitDone s fun t =>
    t = { s with rst := { s.rst with inCold := false, clearing := false, initDone := true } })

/-- R375, R382: outside another reset, pwr_wrst_n and GLB_RST_CTL.WARM begin a warm reset with causes 3 and 4: every port that is enabled
and ON enters its NI reset, a pending power request goes and a staged image ends; once every port has answered, or after 1 ms, every NI is in
reset and the rings are empty; at its tick the reset is over. -/
def Obligations.WarmResetRunsItsSteps : Prop :=
  (∀ (s : State) (c : Instr) (cause : Nat), s.rst.warm = 0 → s.rst.inCold = false →
    ((c = .glbRstWarm .cp ∧ cause = 4) ∨ (c = .warmResetAssert ∧ cause = 3)) → Completes c s fun t =>
      t.rst = { s.rst with warm := 1, warmNs := nowNs s, wrstN := s.rst.wrstN && cause == 4 } ∧ rdF t 0x438 4 2 = cause ∧ t.time = s.time ∧
      t.pwr.pend = none ∧ (s.img.st = 3 → t.img.st = 0) ∧
      ∀ n, isEpNi s n = true → portEn s n = true → (getNi s n).region = 0 → (getNi t n).inRst = true) ∧
  (∀ s : State, s.rst.warm ≠ 0 → Completes (.glbRstWarm .cp) s fun t => t = s) ∧
  (∀ s : State, s.rst.warm = 1 →
    ((∀ n, isEpNi s n = true → portEn s n = true → (getNi s n).region = 0 → (getNi s n).port.inEp = true) ∨ s.rst.warmNs + 1000000 ≤ nowNs s) →
    Completes .warmQuiesceDone s fun t => t.rst = { s.rst with warm := 2, warmAt := some ((frameOf s + 1) % 2 ^ 48) } ∧
      (∀ n, isNi s n = true → (getNi t n).inRst = true) ∧
      ∀ q, q < 16 → rd t (aEng (0x118 + 0x40 * q)) = 0 ∧ rd t (aEng (0x128 + 0x40 * q)) = 0) ∧
  (∀ (s : State) (f : Nat), s.rst.warm = 2 → s.rst.warmAt = some f → frameGe (frameOf s) f = true → Completes .warmResetRelease s fun t =>
    t.rst = { s.rst with warm := 0, warmAt := none, wrstN := true } ∧
    ∀ n, isNi s n = true → (isEpNi s n = false ∨ portEn s n = false) → (getNi t n).inRst = false)

/-- R376, R378, R381, R383: GLB_RST_NI begins an NI reset with cause 1 at every NI it names, and at no other; a lost ep_clk begins one with
cause 3 and sets its bit; a rink's flag ends the reset of its service NI, whose data path is empty. -/
def Obligations.NiResetsBeginAndEnd : Prop :=
  (∀ (s : State) (w : BitVec 1) (mask : Word), Completes (.glbRstNi .cp w mask) s fun t =>
    (∀ j n, j < 64 → bitOf mask j = true → n = 64 * w.toNat + j → (getNi s n).inRst = false → (getNi s n).region = 0 →
      ((isEpNi s n = true ∧ portEn s n = true ∧ (getNi s n).port.inEp = false) ∨ isSvcNi s n = true) →
      (getNi t n).inRst = true ∧ (getNi t n).rstCause = 1 ∧ (getNi t n).rstFrame = frameOf s) ∧
    (∀ j n, j < 64 → bitOf mask j = true → n = 64 * w.toNat + j → isEpNi s n = true → portEn s n = true → (getNi s n).inRst = false →
      (getNi s n).region = 0 → (getNi t n).port.up = false) ∧
    ∀ n, (n / 64 ≠ w.toNat ∨ bitOf mask (n % 64) = false) → (getNi t n).inRst = (getNi s n).inRst ∧ (getNi t n).reqs = (getNi s n).reqs) ∧
  (∀ (s : State) (n : NiId) (k : Nat), k = n.toNat → isEpNi s k = true → (getNi s k).port.up = true → portEn s k = true →
    (getNi s k).inRst = false → (getNi s k).region = 0 → Completes (.epClkLoss n) s fun t =>
      bitOf (rd t (0x428 + 8 * (k / 64))) (k % 64) = true ∧ (getNi t k).inRst = true ∧ (getNi t k).port.up = false ∧
      ((getNi s k).port.inEp = false → (getNi t k).rstCause = 3 ∧ (getNi t k).rstFrame = frameOf s)) ∧
  (∀ (s : State) (b : BitVec 3) (n : Nat), n = 120 + b.toNat → isSvcNi s n = true → (getNi s n).inRst = true → s.rst.warm = 0 →
    Completes (.rinkInResetRaise b) s fun t => (getNi t n).inRst = false ∧ (b ≠ 0 → (getNi t n).reqs = [] ∧ (getNi t n).trk = []))

/-! Faults (18). -/

/-- R389, R393, R395, R396, R398, R401, R402: a wire over its threshold is steered out at its tick, at the router and at the NI whose
attachment it is, and a count that stands still restarts;
a router without a heartbeat, or declared by software, fails, and its case switches two ticks later; RTE_HOME follows; a restore resets the
router's column and tests it, and a pass brings the base case back; a row over its threshold moves to a spare row. -/
def Obligations.FaultsAreSteeredDeclaredAndSpared : Prop :=
  (∀ (s : State) (pl : Plane) (x : RtrId) (port : BitVec 4) (g : BitVec 3) (k f wire : Nat) (w : Wire), k = wireKey pl port.toNat g.toNat →
    w = mgetD (getRtr s x.toNat).rx.wires k {} → wireExists s x.toNat port.toNat = true →
    (w.due = some (f, wire) → frameGe (frameOf s) f = true → (getRtr s x.toNat).failed = false → Completes (.wireSteer pl x port g) s fun t =>
      mget (getRtr t x.toNat).rx.wires k = some { w with due := none, steered := some wire, count := 0 } ∧
      rd t (aRtr x.toNat 0xC8) = rd s (aRtr x.toNat 0xC8) ||| 2#64 ∧ NotedBut [aRtr x.toNat 0xC8] s t ∧
      ∀ y, y ≠ x.toNat → getRtr t y = getRtr s y) ∧
    (w.count ≠ 0 → w.due = none → wsWin s ≤ subMod 48 (frameOf s) w.since → Completes (.wireCountExpire pl x port g) s fun t =>
      mget (getRtr t x.toNat).rx.wires k = some { w with count := 0 } ∧ (∀ y, y ≠ x.toNat → getRtr t y = getRtr s y) ∧
      t = { s with rtrs := t.rtrs, nis := t.nis, spans := t.spans } ∧ (farEnd s x.toNat port.toNat = false → t = { s with rtrs := t.rtrs })) ∧
    (∀ n alt u, niAtPort s x.toNat port.toNat = some (n, alt) → u = mgetD (getNi s n).rx.wires (wireKey pl alt.toNat g.toNat) {} →
      u.due = some (f, wire) → frameGe (frameOf s) f = true → (getRtr s x.toNat).failed = false → Completes (.wireSteer pl x port g) s fun t =>
        mget (getNi t n).rx.wires (wireKey pl alt.toNat g.toNat) = some { u with due := none, steered := some wire, count := 0 })) ∧
  (∀ (s : State) (c : Instr) (x : RtrId) (cause : Nat), isRtr s x.toNat = true → (getRtr s x.toNat).failed = false →
    ((c = .routerHeartbeatLoss x ∧ colClocked s (rtrCol s x.toNat) = true ∧ cause = 1) ∨
      (c = .glbFltDecl .cp (256#32 ||| x.zeroExtend 32) ∧ cause = 4)) → Completes c s fun t =>
      (getRtr t x.toNat).failed = true ∧ bitOf (rd t 0x500) 0 = true ∧ t.flt.declared = s.flt.declared ++ [(x.toNat, nowNs s)] ∧
      (s.flt.caseR = none → s.flt.switchAt = none → t.flt.switchAt = some (x.toNat, (frameOf s + 2) % 2 ^ 48) ∧ rdF t 0x508 11 8 = cause) ∧
      ((s.flt.caseR ≠ none ∨ s.flt.switchAt ≠ none) → bitOf (rd t 0x500) 3 = true ∧ t.flt.switchAt = s.flt.switchAt)) ∧
  (∀ (s : State) (x u : Nat), s.flt.declared = [(x, u)] → Completes .rehomeDone s fun t => t.flt.declared = [] ∧
    ∀ n y, n ∈ rtrNis s x → isRtr s y = true → leavingCol s (rtrCol s y) = false →
      bitOf (rd t (aRtr y (0x200 + 4 * n) / 8 * 8)) (32 * (n % 2) + 31) = attPresent s y n false ∧
      bitOf (rd t (aRtr y (0x200 + 4 * n) / 8 * 8)) (32 * (n % 2) + 30) = attPresent s y n true) ∧
  (∀ s : State,
    (∀ x, s.flt.caseR = some x → s.flt.bist = none → s.flt.restoreAt = none → Completes (.glbFltRestore .cp 1) s fun t =>
      t.flt.bist = some x ∧ t.flt.caseR = some x) ∧
    (s.flt.caseR = none → Completes (.glbFltRestore .cp 1) s fun t => t = s) ∧
    (∀ x pass, s.flt.bist = some x → Completes (.routerBistDone pass) s fun t => t = { s with flt := { s.flt with
      bist := none, restoreAt := if pass then some ((frameOf s + 2) % 2 ^ 48) else none } })) ∧
  (∀ (s : State) (kind : BitVec 3) (unit : BitVec 8) (row : BitVec 24) (both : Bool) (k u r key : Nat), k = kind.toNat → u = unit.toNat →
    r = row.toNat → key = (k * 256 + u) * 2 ^ 24 + r → rowUnit s k u = true → r < rowsOf k →
    (mgetD s.flt.rowErrs key 0 + 1 ≠ max 1 (rdF s 0x520 23 16) → Completes (.rowRemap kind unit row .single both) s fun t =>
      t = { s with flt := { s.flt with rowErrs := mset s.flt.rowErrs key (mgetD s.flt.rowErrs key 0 + 1) } }) ∧
    (mgetD s.flt.rowErrs key 0 + 1 = max 1 (rdF s 0x520 23 16) → sparesUsed s k u < sparesOf k →
      Completes (.rowRemap kind unit row .single both) s fun t => t.flt.rowMap = s.flt.rowMap ++ [(k, u, r)] ∧
        mget t.flt.rowErrs key = none ∧ rdF t (0x548 + 8 * k) 31 16 = ((s.flt.rowMap.filter fun q => q.1 == k).length + 1) % 2 ^ 16) ∧
    (mgetD s.flt.rowErrs key 0 + 1 = max 1 (rdF s 0x520 23 16) → sparesOf k ≤ sparesUsed s k u →
      Completes (.rowRemap kind unit row .single both) s fun t => t.flt.rowMap = s.flt.rowMap ∧ bitOf (rd t 0x500) 2 = true) ∧
    (k = 5 → (getRtr s u).failed = false → Completes (.rowRemap kind unit row .uncorrectable true) s fun t => (getRtr t u).failed = true) ∧
    (k = 0 → ebtLost s (r * nRinks s + u) = false → Completes (.rowRemap kind unit row .uncorrectable both) s fun t =>
      r * nRinks s + u ∈ t.jrn.repairs))

/-! The management matrix and the registers (05, 19, 23). -/

/-- R410 to R419: with no access outstanding, an allowed request joins its target's, a barred pair's is answered ACC_ERR and noted, one to
no target is answered UNMAPPED and counted; a target grants a lone request: a read's beat is answered, a write's beats are then taken, and
its last is answered; a further piece of a burst is granted in its turn; a lock held too long is broken and the holder told, unless the
last access under it was granted before. -/
def Obligations.MatrixServesAccesses : Prop :=
  (∀ (s : State) (m : Master) (addr : BitVec 32) (wr data : Bool) (len : BitVec 8) (g : Nat) (a : MmAcc), s.mmx.accs = [] →
    (data = true ∨ len = 0) → g = reqTarget addr.toNat len.toNat → 16 * masterNo m + g ∉ s.mmx.broken →
    a = { m := m, addr := addr, wr := wr, data := data, len := len.toNat, target := g, id := s.mmx.nextId } →
    (g < 14 → barred s m g = false → priOf s m g ≠ 0 → Completes (.mmRequest m addr wr data false len) s fun t =>
      t = { s with mmx := { s.mmx with accs := [a], nextId := s.mmx.nextId + 1, out := [] } }) ∧
    (g < 14 → (barred s m g = true ∨ priOf s m g = 0) → Completes (.mmRequest m addr wr data false len) s fun t =>
      bitOf (rd t (aMmx 0)) 0 = true ∧ (wr = true → t.mmx.accs = [{ a with refused := some 1 }] ∧ t.mmx.out = []) ∧
      (wr = false → t.mmx.accs = [] ∧ t.mmx.out.map (fun b => (b.1, b.2.1)) = List.replicate (len.toNat + 1) (masterNo m, 1#2) ∧
        rd t (aMmx 8) = packW [(62, 1), (58, masterNo m), (0, addr.toNat)])) ∧
    (g = 15 → Completes (.mmRequest m addr wr data false len) s fun t =>
      bitOf (rd t (aMmx 0)) 1 = true ∧ (rd t (aMmx 0x10)).toNat = min 0xFFFFFFFF ((rd s (aMmx 0x10)).toNat + 1) ∧
      (wr = true → t.mmx.accs = [{ a with refused := some 2 }]) ∧
      (wr = false → t.mmx.accs = [] ∧ t.mmx.out.map (fun b => (b.1, b.2.1)) = List.replicate (len.toNat + 1) (masterNo m, 2#2)))) ∧
  (∀ (s u : State) (g : BitVec 4) (a : MmAcc) (k : Nat), k = g.toNat → k < 15 → s.mmx.accs = [a] → a.target = k → a.refused = none →
    a.ended = false → a.resp = [] → (getTgt s k).locked = none →
    u = updTgt s k (fun _ => { park := some (BitVec.ofNat 3 (masterNo a.m)), locked := if a.lock then some (BitVec.ofNat 3 (masterNo a.m)) else none }) →
    (a.granted = false → a.wr = true → priOf s a.m k ≠ 0 → Completes (.mmGrant g) s fun t =>
      t = { u with mmx := { u.mmx with accs := [{ a with granted := true, piece := false }], out := [] } }) ∧
    (a.granted = false → a.wr = false → a.len = 0 → a.done = 0 → a.lock = false → priOf s a.m k ≠ 0 →
      Completes (.mmGrant g) s fun t => t.mmx.accs = [] ∧ (getTgt t k).park = some (BitVec.ofNat 3 (masterNo a.m)) ∧
        t.mmx.out = [(masterNo a.m, (if (mmRead u a.addr.toNat).1 then 1#2 else 0#2), (mmRead u a.addr.toNat).2.1, true)]) ∧
    (a.granted = true → a.piece = true → a.wr = true → a.lock = false → Completes (.mmBurstPiece g) s fun t =>
      t = { u with mmx := { u.mmx with accs := [{ a with piece := false }], out := [] } }) ∧
    (a.granted = true → a.piece = true → a.wr = false → a.lock = false → a.done + 16 ≤ a.len → Completes (.mmBurstPiece g) s fun t =>
      t.mmx.accs = [{ a with done := a.done + 16 }] ∧ t.mmx.out.length = 16 ∧ ∀ b ∈ t.mmx.out, b.1 = masterNo a.m ∧ b.2.2.2 = false)) ∧
  (∀ (s : State) (a : MmAcc) (v : Word) (strb : BitVec 8) (r : Bool × State), s.mmx.accs = [a] → a.wr = true → a.ended = false → a.resp = [] →
    (∀ c, a.refused = some c → a.done = a.len → Completes (.mmWriteBeat a.m v strb) s fun t =>
      t.mmx.accs = [] ∧ t.mmx.out.map (fun b => (b.1, b.2.1)) = [(masterNo a.m, c)]) ∧
    (a.refused = none → a.granted = true → a.piece = false → r = regWrite s a.m (a.addr.toNat + 8 * a.done) v strb → r.2.mmx = s.mmx →
      (a.done = a.len → Completes (.mmWriteBeat a.m v strb) s fun t =>
        t.mmx.accs = [] ∧ t.mmx.out.map (fun b => (b.1, b.2.1)) = [(masterNo a.m, if a.err || r.1 then 1#2 else 0#2)] ∧
        ∀ b, b ≠ aMmx 8 → rd t b = rd r.2 b) ∧
      (a.done < a.len → Completes (.mmWriteBeat a.m v strb) s fun t =>
        t.mmx.accs = [{ a with done := a.done + 1, err := a.err || r.1, piece := (a.done + 1) % 16 == 0 }] ∧ t.mmx.out = [] ∧
        t = { r.2 with mmx := t.mmx }))) ∧
  (∀ (s : State) (g : BitVec 4) (h : BitVec 3), (getTgt s g.toNat).locked = some h →
    ((∀ a ∈ s.mmx.accs, masterNo a.m ≠ h.toNat ∨ a.target ≠ g.toNat) → Completes (.lockBreak g) s fun t =>
      (getTgt t g.toNat).locked = none ∧ 16 * h.toNat + g.toNat ∈ t.mmx.broken ∧ bitOf (rd t (aMmx 0)) 2 = true ∧
      (rd t (aMmx 0x18)).toNat = min 0xFFFFFFFF ((rd s (aMmx 0x18)).toNat + 1)) ∧
    (∀ a ∈ s.mmx.accs, masterNo a.m = h.toNat → a.target = g.toNat → a.granted = true → a.ended = false → a.lock = false → a.data = false →
      Completes (.lockBreak g) s fun t => t = s) ∧
    (∀ a, s.mmx.accs = [a] → masterNo a.m = h.toNat → a.target = g.toNat → a.granted = false → a.refused = none → a.wr = false →
      Completes (.lockBreak g) s fun t => (getTgt t g.toNat).locked = none ∧ t.mmx.accs = [] ∧
        t.mmx.out.map (fun b => (b.1, b.2.1)) = List.replicate (a.len + 1) (masterNo a.m, 3#2)))

/-- R5 to R10, R99, R473, R475: a write of a register with every byte strobed sets its RW bits, clears W1C bits where 1 is written, and leaves
RW/T bits to the next tick, TIM_TRIM clamped; a master that may not write it, a register strobed in part, and a block that is not ready are answered with an
error and change nothing but the error log. A management read of an NI's own words is answered with them, and a write of them is done and
answered. -/
def Obligations.RegistersAreWrittenAndRead : Prop :=
  (∀ (s : State) (m : Master) (v : Word) (strb : BitVec 8),
    (strb &&& 0x0F = 0x0F → Completes (.registerWrite m 0x108 v strb) s fun t =>
      rd t 0x108 = (rd s 0x108 &&& ~~~3#64) ||| (v &&& 3#64) ∧ WordsBut [0x108] s t ∧ t = { s with regs := t.regs }) ∧
    (strb = 0xFF → Completes (.registerWrite m 0x100 v strb) s fun t =>
      rd t 0x100 = rd s 0x100 &&& ~~~v ∧ WordsBut [0x100] s t ∧ t = { s with regs := t.regs }) ∧
    (strb &&& 0x0F = 0x0F → Completes (.registerWrite m 0x10020 v strb) s fun t =>
      fld (pendRd t (aTim 0x20)) 31 0 = unsignedOf 32 (clampInt (-2147483) 2147483 (signedOf 32 (fld v 31 0))) ∧ WordsBut [] s t ∧ t = { s with regs := t.regs, pendT := t.pendT }) ∧
    (strb &&& 0x0F = 0x0F → m ≠ .cp → Completes (.registerWrite m 0x400 v strb) s fun t =>
      rd t (aMmx 8) = packW [(62, 1), (61, 1), (58, masterNo m), (0, 0x400)] ∧ WordsBut [aMmx 8] s t ∧ t = { s with regs := t.regs }) ∧
    (strb &&& 0x0F ≠ 0x0F → strb &&& 0x0F ≠ 0 → Completes (.registerWrite m 0x108 v strb) s fun t =>
      rd t (aMmx 8) = packW [(62, 1), (61, 1), (58, masterNo m), (0, 0x108)] ∧ WordsBut [aMmx 8] s t ∧ t = { s with regs := t.regs }) ∧
    (∀ addr : BitVec 32, s.rst.initDone = false → 0x13000 ≤ addr.toNat → Completes (.registerWrite m addr v strb) s fun t =>
      rd t (aMmx 8) = packW [(62, 1), (61, 1), (58, masterNo m), (0, addr.toNat)] ∧ WordsBut [aMmx 8] s t ∧ t = { s with regs := t.regs }) ∧
    (strb &&& 0x0F = 0x0F → bitOf v 0 = true → Completes (.registerWrite .cp 0x400 v strb) s fun t => ColdReset s t 2)) ∧
  (∀ (s u : State) (node : BitVec 8) (k a c : Nat) (m : Msg) (alt : Bool) (rest : List (Msg × Bool)), k = node.toNat → k < 128 →
    clsOk m = true → m.taint = false → msgCrc m = m.crc → niDown s k = false → a = m.addr.toNat → a % 8 = 0 →
    u = updNi s k (fun i => { i with inReq := rest }) → (getNi s k).answers.length < 16 →
    (∀ g, takeFirst (getNi s k).inReq (fun q => q.1.opc.toNat == 0x78) = (some (m, alt), rest) → c = ceilDiv (max 1 m.nbytes.toNat) 8 →
      aNi k 0 ≤ a → a + 8 * c ≤ aNi (k + 1) 0 →
      g = mgAnswer u k m 0 (linesOfWords ((List.range c).map fun i => readWord u (a + 8 * i)) 65) → Completes (.mgRdReceive node) s fun t =>
        SentBy u t k .rsp none g ∧ g.opc = 0x7A ∧ g.dst = m.src ∧ g.tag = m.tag ∧ g.gen = m.gen ∧ (getNi t k).inReq = rest) ∧
    (∀ (x : Word) (w : State) (g : Msg), takeFirst (getNi s k).inReq (fun q => q.1.opc.toNat == 0x79) = (some (m, alt), rest) →
      isNi s k = true → (getNi s k).region = 0 → a = aNi k 0xC8 → m.nbytes = 4 → s.rst.initDone = true →
      x = (rd s (aNi k 0xC8) &&& ~~~0xFFFFFF#64) ||| ((m.data.getD 0 0).extractLsb' 0 64 &&& 0xFFFFFF#64) →
      w = wr u (aNi k 0xC8) x → g = mgAnswer w k m 0 [] → Completes (.mgWrReceive node) s fun t =>
        SentBy w t k .rsp none g ∧ g.opc = 0x7A ∧ g.dst = m.src ∧ g.tag = m.tag ∧ g.data = [] ∧ rd t (aNi k 0xC8) = x ∧
        (getNi t k).inReq = rest))

/-! Counters and notifications (18, 20, 23). -/

/-- R422, R430 to R432: a snapshot is armed for its tick, or for the frame after the next one where that is later; at its tick every shadow
word takes its live word; its end advances SEQ and records the tick; a comparator's write clears FIRED where it writes 1. -/
def Obligations.SnapshotCopiesCounters : Prop :=
  (∀ (s : State) (v : Word), bitOf v 48 = true → Completes (.cntSnapCtl v) s fun t =>
    (frameGe (fld v 47 0) ((frameOf s + 2) % 2 ^ 48) = true → t.cnt.armed = some (fld v 47 0) ∧ WordsBut [aCnt 8] s t) ∧
    (frameGe (fld v 47 0) ((frameOf s + 2) % 2 ^ 48) = false → t.cnt.armed = some ((frameOf s + 2) % 2 ^ 48) ∧
      rd t (aCnt 0) = rd s (aCnt 0) ||| 2#64 ∧ WordsBut [aCnt 0, aCnt 8] s t) ∧
    rd t (aCnt 8) = v &&& 0x1FFFFFFFFFFFF#64 ∧ t = { s with regs := t.regs, cnt := { s.cnt with armed := t.cnt.armed } }) ∧
  (∀ (s : State) (f : Nat), s.cnt.armed = some f →
    (frameGe (frameOf s) f = true → regsWf s.regs = true → Completes .counterSnapshot s fun t => t.cnt = { armed := none, taken := some f } ∧
      (∀ a, isLive a = true → rd t (a + 0x70000) = rd s a) ∧ (∀ a, (a < 0x480000 ∨ 0x492A00 ≤ a) → rd t a = rd s a) ∧
      t = { s with regs := t.regs, cnt := t.cnt }) ∧
    (frameGe (frameOf s) f = false → Completes .counterSnapshot s fun t => t = s)) ∧
  (∀ (s : State) (f : Nat), s.cnt.taken = some f → f < 2 ^ 48 → Completes .snapshotDone s fun t =>
    rdF t (aCnt 0x10) 63 48 = (rdF s (aCnt 0x10) 63 48 + 1) % 2 ^ 16 ∧ rdF t (aCnt 0x10) 47 0 = f ∧ bitOf (rd t (aCnt 0)) 0 = true ∧
    t.cnt = { s.cnt with taken := none }) ∧
  (∀ (s : State) (j : BitVec 6) (v : Word), Completes (.cntThrCfg j v) s fun t =>
    bitOf (rd t (aThr j.toNat)) 62 = (bitOf (rd s (aThr j.toNat)) 62 && !bitOf v 62) ∧
    rd t (aThr j.toNat) &&& 0xB000000000003FFF#64 = v &&& 0xB000000000003FFF#64 ∧ WordsBut [aThr j.toNat] s t ∧ t = { s with regs := t.regs })

/-- R387, R478, R482, R57: a notification of a unit that is no NI sets the bit of its block of codes in GLB_IRQ_PEND from its threshold on,
enters the fault log from a warning on, replaces the last record of its block, waits to be forwarded where forwarding is on, and joins the
notification queue of the port it concerns.
R57: the endpoint takes the oldest record of the notification queue. -/
def Obligations.NotificationTakesItsRoutes : Prop :=
  (∀ (s t : State) (e : Note), 128 ≤ e.unit → t = raise s e →
    rd t 0x100 = (if rdF s 0x108 1 0 ≤ e.sev then rd s 0x100 ||| BitVec.ofNat 64 (1 <<< (e.code / 16 % 64)) else rd s 0x100) ∧
    t.flt.log = (if e.sev = 0 then s.flt.log else ((noteLog1 s e, noteLog0 s e) :: s.flt.log).take 64) ∧
    (rd t 0x540).toNat = (if e.sev = 0 then (rd s 0x540).toNat else min 0xFFFFFFFF ((rd s 0x540).toNat + 1)) ∧
    mget t.ntf.last (e.code / 16) = some (noteLog0 s e, noteLog1 s e) ∧
    (bitOf (rd s 0x110) 15 = true → rdF s 0x110 13 12 ≤ e.sev →
      (s.ntf.fwdQ.length < 16 → t.ntf.fwdQ = s.ntf.fwdQ ++ [noteRecord e]) ∧
      (16 ≤ s.ntf.fwdQ.length → t.ntf.fwdQ = s.ntf.fwdQ ∧ rdF t 0x130 31 16 = min 0xFFFF (rdF s 0x130 31 16 + 1))) ∧
    ((bitOf (rd s 0x110) 15 = false ∨ e.sev < rdF s 0x110 13 12) → t.ntf.fwdQ = s.ntf.fwdQ) ∧
    (∀ n, e.port = some n → isEpNi s n = true → bitOf (rd s (aNi n 0)) 2 = true → rdF s (aNi n 0) 9 8 ≤ e.sev →
      ((getNi s n).port.ntfQ.length < 16 → (getNi t n).port.ntfQ = (getNi s n).port.ntfQ ++ [noteRecord e]) ∧
      (16 ≤ (getNi s n).port.ntfQ.length → (getNi t n).port.ntfQ = (getNi s n).port.ntfQ ∧
        (rd t (aNi n 0x20)).toNat = min 0xFFFFFFFF ((rd s (aNi n 0x20)).toNat + 1))) ∧
    NoteOnly s t) ∧
  (∀ (s : State) (n : NiId), isEpNi s n.toNat = true → bitOf (rd s (aNi n.toNat 0)) 2 = true →
    Completes (.ntfRecordTaken n) s fun t =>
      getNi t n.toNat = { getNi s n.toNat with port := { (getNi s n.toNat).port with ntfQ := (getNi s n.toNat).port.ntfQ.tail } } ∧
      NiOnly n.toNat s t)

/-! Slots (21). -/

/-- R440 to R448: presence is debounced for 20 ms and absence for 100 us; a READY slot with PREQ ramps; slt_pgood brings it ON, and ends a
short drop as a glitch; a fault, or PG_LOST, in ON leads to RETRY of 1 s, in RAMP too until the third in a row locks; GATE locks for good;
after RETRY the slot goes where its module stands; a feed change in ON is recorded. With SLT_CFG.EN 0 a fault is ignored. -/
def Obligations.SlotFollowsItsPins : Prop :=
  ∀ (s : State) (n : BitVec 6) (k : Nat) (q : SlotSt), k = n.toNat → q = getSlt s k → slotHas s k = true →
    (q.prsntN = true → Completes (.sltPrsntChange n false) s fun t => NiOnly k s t ∧ getNi t k = { getNi s k with slot :=
      { q with prsntN := false, lowSince := nowNs s, debounced := false, state := if q.state = 1 then 2 else q.state } }) ∧
    (q.prsntN = false → Completes (.sltPrsntChange n true) s fun t => NiOnly k s t ∧ getNi t k = { getNi s k with slot :=
      { q with prsntN := true, highSince := nowNs s } }) ∧
    (∀ c, bitOf (slotCfg s k) 0 = false → Completes (.slotFault n c) s fun t => t = s) ∧
    (bitOf (slotCfg s k) 0 = true →
    (q.state = 2 → q.prsntN = false → q.debounced = false → q.lowSince + 20000000 ≤ nowNs s →
      ((q.preq = false ∧ bitOf (slotCfg s k) 1 = false) → Completes (.presenceDebounced n) s fun t => NiOnly k s t ∧
        getSlt t k = { q with debounced := true, state := 3 }) ∧
      ((q.preq = true ∨ bitOf (slotCfg s k) 1 = true) → Completes (.presenceDebounced n) s fun t => NiOnly k s t ∧
        getSlt t k = { q with debounced := true, preq := true, state := 4, en := true, rampNs := nowNs s, pgLow := none })) ∧
    (q.prsntN = true → q.highSince + 100000 ≤ nowNs s →
      ((q.state = 2 ∨ q.state = 3 ∨ q.state = 4) → Completes (.moduleRemoval n) s fun t => NiOnly k s t ∧
        getSlt t k = { q with preq := false, debounced := false, lowSince := 0, state := 1, en := false, pgLow := none }) ∧
      (q.state = 5 → Completes (.moduleRemoval n) s fun t => bitOf (rd t (aNi k 0x1F18)) 5 = true ∧
        getSlt t k = { q with preq := false, debounced := false, lowSince := 0, state := 1, en := false, pgLow := none } ∧
        t.eng.ctlQ = s.eng.ctlQ ++ [s.eng.nextKey])) ∧
    (q.pgood = false →
      (q.state = 4 → q.fltN = true → Completes (.slotPgoodRise n) s fun t => NiNote k [] s t ∧
        getSlt t k = { q with pgood := true, state := 5, fcnt := 0, pgLow := none }) ∧
      (∀ u, q.state = 5 → q.pgLow = some u → nowNs s < u + pgGlitch s k → Completes (.slotPgoodRise n) s fun t =>
        getSlt t k = { q with pgood := true, pgLow := none } ∧ bitOf (rd t (aNi k 0x1F18)) 4 = true ∧
        (rd t (aNi k 0x1F28)).toNat = min 0xFFFFFFFF ((rd s (aNi k 0x1F28)).toNat + 1) ∧ WordsBut [aNi k 0x1F18, aNi k 0x1F28] s t)) ∧
    (q.state = 4 →
      (q.rampNs + rampTo s k ≤ nowNs s → q.fcnt.toNat < 2 → Completes (.rampTimeout n) s fun t =>
        getSlt t k = { q with state := 6, en := false, pgLow := none, fcnt := q.fcnt + 1, cause := 5, retryEnd := nowNs s + 1000000000 } ∧
        bitOf (rd t (aNi k 0x1F18)) 0 = true ∧ (rd t (aNi k 0x1F20)).toNat = min 0xFFFFFFFF ((rd s (aNi k 0x1F20)).toNat + 1)) ∧
      (q.rampNs + rampTo s k ≤ nowNs s → 2 ≤ q.fcnt.toNat → Completes (.rampTimeout n) s fun t =>
        getSlt t k = { q with state := 7, en := false, pgLow := none, fcnt := 3, cause := 5 } ∧ bitOf (rd t (aNi k 0x1F18)) 1 = true) ∧
      (∀ c, c ≠ 1 → q.fcnt.toNat < 2 → Completes (.slotFault n c) s fun t => (getSlt t k).state = 6 ∧ (getSlt t k).en = false ∧
        (getSlt t k).cause.toNat = c.toNat + 1 ∧ (getSlt t k).fcnt = q.fcnt + 1 ∧ (getSlt t k).pgood = false ∧
        (getSlt t k).retryEnd = nowNs s + 1000000000)) ∧
    (q.state = 5 →
      (∀ c, c ≠ 1 → Completes (.slotFault n c) s fun t => (getSlt t k).state = 6 ∧ (getSlt t k).en = false ∧
        (getSlt t k).cause.toNat = c.toNat + 1 ∧ (getSlt t k).retryEnd = nowNs s + 1000000000 ∧ (getSlt t k).pgood = false ∧
        bitOf (rd t (aNi k 0x1F18)) 5 = true) ∧
      (q.pgood = true → Completes (.slotPgoodDrop n) s fun t => NiOnly k s t ∧ getSlt t k = { q with pgood := false, pgLow := some (nowNs s) }) ∧
      (∀ u, q.pgLow = some u → u + pgGlitch s k ≤ nowNs s → Completes (.pgLost n) s fun t =>
        getSlt t k = { q with state := 6, en := false, pgLow := none, cause := 6, retryEnd := nowNs s + 1000000000 } ∧
        bitOf (rd t (aNi k 0x1F18)) 5 = true) ∧
      (∀ f, f ≠ q.feed → Completes (.slotFeedChange n f) s fun t => getSlt t k = { q with feed := f } ∧
        bitOf (rd t (aNi k 0x1F18)) 3 = true ∧ NiNote k [aNi k 0x1F18] s t)) ∧
    (q.state ≠ 0 → Completes (.slotFault n 1) s fun t => (getSlt t k).state = 7 ∧ (getSlt t k).perm = true ∧ (getSlt t k).en = false ∧
      (getSlt t k).cause = 2 ∧ bitOf (rd t (aNi k 0x1F18)) 0 = true ∧ bitOf (rd t (aNi k 0x1F18)) 2 = true) ∧
    (q.state = 6 → q.retryEnd ≤ nowNs s → Completes (.retryEnd n) s fun t => NiOnly k s t ∧
      (q.debounced = true → q.preq = true → getSlt t k = { q with
        retryEnd := 0, state := 4, en := true, rampNs := nowNs s, pgLow := none }) ∧
      (q.debounced = true → q.preq = false → getSlt t k = { q with retryEnd := 0, state := 3 }) ∧
      (q.debounced = false → getSlt t k = { q with retryEnd := 0, state := if q.prsntN then 1 else 2 })))

/-- R451, Tables 21.3 and 21.4: the commands that the CP master writes to SLT_CTL, each with its result; another master's write does
nothing. -/
def Obligations.SlotCommandsAreCarriedOut : Prop :=
  ∀ (s : State) (n : BitVec 6) (k : Nat) (q : SlotSt), k = n.toNat → q = getSlt s k → slotHas s k = true →
    (Completes (.mclr .cp n) s fun t => NiOnly k s t ∧ getNi t k = { getNi s k with slot :=
      if q.state ≠ 7 ∨ q.perm = false then { q with result := 2 }
      else if q.prsntN = false then { q with result := 6 }
      else { q with perm := false, fcnt := 0, result := 0, state := if bitOf (slotCfg s k) 0 then 1 else 0 } }) ∧
    (Completes (.clear .cp n) s fun t => NiOnly k s t ∧ getNi t k = { getNi s k with slot :=
      if q.perm then { q with result := 2 }
      else if q.state ≠ 7 then { q with result := 0 }
      else if q.debounced && q.preq then
        { q with fcnt := 0, retryEnd := 0, state := 4, en := true, rampNs := nowNs s, pgLow := none, result := 0 }
      else { q with fcnt := 0, retryEnd := 0, result := 0, state := if q.debounced then 3 else if q.prsntN then 1 else 2 } }) ∧
    (Completes (.plock .cp n) s fun t =>
      getSlt t k = { q with state := 7, en := false, pgLow := none, perm := true, retryEnd := 0, result := 0 } ∧ ∀ m, m ≠ k → SameNi s t m) ∧
    (∀ force,
      (q.state = 5 → force = false → (getNi s k).dec.tbt ≠ [] → Completes (.slotOff .cp n force) s fun t => NiOnly k s t ∧
        getNi t k = { getNi s k with slot := { q with result := 3 } }) ∧
      ((q.state ≠ 5 ∨ force = true ∨ (getNi s k).dec.tbt = []) → slotHome s k = true → Completes (.slotOff .cp n force) s fun t =>
        NiOnly k s t ∧ getNi t k = { getNi s k with slot := { q with result := 4 } }) ∧
      ((q.state ≠ 5 ∨ force = true ∨ (getNi s k).dec.tbt = []) → slotHome s k = false → Completes (.slotOff .cp n force) s fun t =>
        getSlt t k = (if q.state = 4 ∨ q.state = 5 then { q with preq := false, state := 3, en := false, pgLow := none, result := 0 }
          else { q with preq := false, result := 0 }) ∧
        (q.state ≠ 5 → NiOnly k s t) ∧ (q.state = 5 → t.eng.ctlQ = s.eng.ctlQ ++ [s.eng.nextKey]))) ∧
    (Completes (.slotOn .cp n) s fun t => NiOnly k s t ∧ getNi t k = { getNi s k with slot :=
      if q.state = 0 then { q with result := 5 }
      else if q.state = 3 then { q with preq := true, state := 4, en := true, rampNs := nowNs s, pgLow := none, result := 0 }
      else { q with preq := true, result := 0 } }) ∧
    (∀ m c force, m ≠ .cp → (c = .mclr m n ∨ c = .clear m n ∨ c = .plock m n ∨ c = .slotOff m n force ∨ c = .slotOn m n) →
      Completes c s fun t => t = s)

/-! Life cycle (22). -/

/-- R462, R463: CP or SEC start a token, give it bytes and abort it; a second START ends BUSY, bytes without a token or past its end set
DATA_ERR; a token that fails a check ends with that check's code, and every end takes a fresh nonce. -/
def Obligations.TokensAreHeldAndRefused : Prop :=
  ∀ (s : State) (m : Master), (m = .cp ∨ m = .sec) →
    (s.lcs.busy = false → Completes (.tokenStart m) s fun t => bitOf (rd t (aLcs 0x28)) 3 = true ∧ WordsBut [aLcs 0x28] s t ∧
      t = { s with regs := t.regs, lcs := { s.lcs with busy := true, bytes := [] } }) ∧
    (s.lcs.busy = true → Completes (.tokenStart m) s fun t => rdF t (aLcs 0x28) 15 8 = 0x0A ∧ bitOf (rd t (aLcs 0x28)) 1 = true ∧
      t.lcs = s.lcs ∧ NotedBut [aLcs 0x28] s t) ∧
    (∀ v, s.lcs.busy = true → tokWhole s.lcs.bytes = false → Completes (.tokenData m v) s fun t =>
      t = { s with lcs := { s.lcs with bytes := s.lcs.bytes ++ bytesOf 8 v.toNat } }) ∧
    (∀ v, (s.lcs.busy = false ∨ tokWhole s.lcs.bytes = true) → Completes (.tokenData m v) s fun t =>
      rd t (aLcs 0x28) = rd s (aLcs 0x28) ||| 4#64 ∧ WordsBut [aLcs 0x28] s t ∧ t = { s with regs := t.regs }) ∧
    (s.lcs.busy = true → Completes (.tokenAbort m) s fun t => rdF t (aLcs 0x28) 15 8 = 0x0B ∧ bitOf (rd t (aLcs 0x28)) 3 = false ∧
      t.lcs = { s.lcs with nonce := Config.freeWord s.free, bytes := [], busy := false } ∧ NotedBut [aLcs 0x28] s t) ∧
    (s.lcs.busy = false → Completes (.tokenAbort m) s fun t => t = s) ∧
    (tokenDue s = true → tokenCode s ≠ 0 → Completes .tokenRefusal s fun t => rdF t (aLcs 0x28) 15 8 = tokenCode s ∧
      bitOf (rd t (aLcs 0x28)) 1 = true ∧ bitOf (rd t (aLcs 0x28)) 3 = false ∧
      t.lcs = { s.lcs with nonce := Config.freeWord s.free, bytes := [], busy := false } ∧ NotedBut [aLcs 0x28] s t)

/-- R457, R460, R461, R464, R468: an accepted token takes effect: each transition blows its fuse, with the wipes of its table, and ends in a
cold reset of cause 5; a fuse that does not read back ends it with FUSE; FLOOR writes the next floor word and raises IMG_FLOOR; DEBUG_UNLOCK
opens its session. -/
def Obligations.AcceptedTokensTakeEffect : Prop :=
  ∀ s : State,
    (tokenIs s 1 = true → Completes (.toProvision true) s fun t => t.lcs.fuse = { s.lcs.fuse with f1 := true } ∧ ColdReset s t 5 ∧
      (s.lcs.jrnA ≠ 0 → t.lcs.jrnA = s.lcs.jrnA)) ∧
    (tokenIs s 2 = true → Completes (.toField true) s fun t => t.lcs.fuse = { s.lcs.fuse with f2 := true } ∧ ColdReset s t 5) ∧
    (tokenIs s 3 = true → Completes (.toReturn true) s fun t => t.lcs.fuse = { s.lcs.fuse with ir := true, f3 := true } ∧ ColdReset s t 5 ∧
      t.lcs.jrnA = jrnWiped ∧ (∀ ml i, 2 ≤ i → i < 8 → keySlot t ml i = keyWiped) ∧ ∀ ml i, i < 2 → keySlot t ml i = keySlot s ml i) ∧
    (tokenIs s 4 = true → Completes (.toScrap true) s fun t =>
      t.lcs.fuse = { s.lcs.fuse with is := true, f1 := true, f2 := true, f3 := true, f4 := true } ∧ ColdReset s t 5 ∧
      t.lcs.jrnA = jrnWiped ∧ t.lcs.jrnB = jrnWiped ∧ ∀ ml i, i < 8 → keySlot t ml i = keyWiped) ∧
    (∀ c k, tokenIs s k = true → ((c = .toProvision false ∧ k = 1) ∨ (c = .toField false ∧ k = 2) ∨ (c = .toReturn false ∧ k = 3) ∨
      (c = .toScrap false ∧ k = 4)) → Completes c s fun t => rdF t (aLcs 0x28) 15 8 = 9 ∧ bitOf (rd t (aLcs 0x28)) 1 = true ∧
        t.lcs.busy = false ∧ t.rst = s.rst ∧
        t.lcs.fuse = (if k = 3 then { s.lcs.fuse with ir := true } else if k = 4 then { s.lcs.fuse with is := true } else s.lcs.fuse)) ∧
    (tokenIs s 6 = true → Completes (.floor true) s fun t =>
      t.lcs.floors = s.lcs.floors.take (floorsUsed s) ++ [BitVec.ofNat 48 (tokFloor s.lcs.bytes)] ∧
      rd t (aImg 0x30) = BitVec.ofNat 64 (max (tokFloor s.lcs.bytes) (rdF s (aImg 0x30) 47 0)) ∧ rdF t (aLcs 0x28) 15 8 = 0 ∧
      bitOf (rd t (aLcs 0x28)) 0 = true ∧ t.rst = s.rst ∧ t.lcs.fuse = s.lcs.fuse) ∧
    (tokenIs s 5 = true → Completes .debugUnlock s fun t => (∃ mask : BitVec 15, bitOf mask 3 = false ∧
        (∀ i, i < 15 → i ≠ 3 → bitOf mask i = (tokArg0 s.lcs.bytes).testBit i) ∧
        t.lcs.session = some (mask, (tokArg0 s.lcs.bytes).testBit 16, (tokArg0 s.lcs.bytes).testBit 17, tokArg1 s.lcs.bytes)) ∧
      rdF t (aLcs 0x28) 15 8 = 0 ∧ t.lcs.fuse = s.lcs.fuse)

/-- R457, R458, R466 to R468: a permitted KEY_PROGRAM fills its slot, or wipes it when it does not read back, and any other only sets its
flag; RELOCK and the expiry frame end the session; the test port runs an instruction that the life-cycle state allows and selects bypass for
another; the end of a scan or of EXTEST is a cold reset. -/
def Obligations.KeysSessionsAndTestAccess : Prop :=
  (∀ (s : State) (m : Master) (v : BitVec 32) (ml : Bool) (i : Nat), ml = bitOf v 8 → i = v.toNat % 8 →
    (bitOf v 31 = true → keyMay s m ml i = true →
      (Completes (.keyProgram m v true) s fun t => keySlot t ml i = s.lcs.kbuf ∧ t.regs = s.regs ∧
        (∀ l j, (l, j) ≠ (ml, i) → keySlot t l j = keySlot s l j) ∧ t = { s with lcs := { s.lcs with keyE := t.lcs.keyE, keyM := t.lcs.keyM } }) ∧
      (Completes (.keyProgram m v false) s fun t => keySlot t ml i = keyWiped ∧ bitOf (rd t (aLcs 0x50)) 33 = true ∧
        (∀ l j, (l, j) ≠ (ml, i) → keySlot t l j = keySlot s l j) ∧ WordsBut [aLcs 0x50] s t)) ∧
    (∀ ok, bitOf v 31 = true → keyMay s m ml i = false → Completes (.keyProgram m v ok) s fun t =>
      bitOf (rd t (aLcs 0x50)) 32 = true ∧ WordsBut [aLcs 0x50] s t ∧ t = { s with regs := t.regs }) ∧
    (∀ ok, bitOf v 31 = false → Completes (.keyProgram m v ok) s fun t => t = s)) ∧
  (∀ (s : State) (m : Master), (m = .cp ∨ m = .sec) →
    (s.lcs.session ≠ none → Completes (.relock m) s fun t => t.lcs = { s.lcs with session := none } ∧ NotedBut [] s t) ∧
    (s.lcs.session = none → Completes (.relock m) s fun t => t = s)) ∧
  (∀ (s : State) (mask : BitVec 15) (a b : Bool) (f : Nat), s.lcs.session = some (mask, a, b, f) →
    (frameGe (frameOf s) f = true → Completes .sessionExpire s fun t => t.lcs = { s.lcs with session := none } ∧ NotedBut [] s t) ∧
    (frameGe (frameOf s) f = false → Completes .sessionExpire s fun t => t = s)) ∧
  (∀ (s : State) (op : JtagOp),
    ((disturbs s.lcs.jtag = false ∨ s.lcs.jtag = op) → Completes (.jtagInstruction op) s fun t =>
      t = { s with lcs := { s.lcs with jtag := if jtagMay s op then op else .bypass } }) ∧
    (disturbs s.lcs.jtag = true → s.lcs.jtag ≠ op → Completes (.jtagInstruction op) s fun t => ∃ c, ColdReset s t c) ∧
    (∀ x, s.lcs.jtag = (if x then JtagOp.extest else JtagOp.scan) → Completes (.testScanEnd x) s fun t => ∃ c, ColdReset s t c) ∧
    (∀ x, s.lcs.jtag ≠ (if x then JtagOp.extest else JtagOp.scan) → Completes (.testScanEnd x) s fun t => t = s))

/-! The block as a whole. -/

/-- A step takes the command at the front of the queue: it is that command's exec on the state with the queue's rest. -/
def Obligations.StepRunsTheFrontCommand : Prop :=
  ∀ (s : State) (c : Instr) (r : List Instr), s.pending = c :: r → step s = exec c { s with pending := r }

/-- R2, R22, R370, R371, R386, R457: what reset leaves. Nothing waits, time is 0 and not locked, no image is held, no router case is in
force, no fuse is blown, every register reads its reset value; and both invariants hold (GLB_RST_STAT.INIT_DONE 1: log 3). -/
def Obligations.ResetLeavesTheResetValues : Prop :=
  State.reset.pending = [] ∧ nowNs State.reset = 0 ∧ timLocked State.reset = false ∧ State.reset.img.st = 0 ∧ State.reset.img.loaded = false ∧
  State.reset.flt.caseR = none ∧ State.reset.flt.log = [] ∧ lcState State.reset = 0 ∧ State.reset.rst.initDone = true ∧ State.reset.rst.warm = 0 ∧
  (∀ a, rd State.reset a = resetWord a) ∧ rd State.reset (aTim 0x30) = 0x6400000000#64 ∧ rd State.reset (aPwr 0x20) = 0x640F0200#64 ∧
  (∀ n, isNi State.reset n = true → rd State.reset (aNi n 0xC8) = 0x40040#64 ∧ getNi State.reset n = {}) ∧
  regsWf State.reset.regs = true ∧ flowIdx State.reset = true

/-- Every step answers a next state: no command of the table stops the block. The profile never changes (R2), the queue loses only its front
command, and a blown fuse stays blown (R457). -/
def Obligations.EveryStepGoesOn : Prop :=
  ∀ s : State, ∃ t, step s = .next t ∧ t.gen = s.gen ∧ (∀ c r, s.pending = c :: r → t.pending = r) ∧
    (s.lcs.fuse.f1 = true → t.lcs.fuse.f1 = true) ∧ (s.lcs.fuse.f2 = true → t.lcs.fuse.f2 = true) ∧
    (s.lcs.fuse.f3 = true → t.lcs.fuse.f3 = true) ∧ (s.lcs.fuse.f4 = true → t.lcs.fuse.f4 = true) ∧
    (s.lcs.fuse.ir = true → t.lcs.fuse.ir = true) ∧ (s.lcs.fuse.is = true → t.lcs.fuse.is = true)

/-- Every step keeps the canonical form of the register words (log 33): addresses rise, and no listed word equals its reset value. -/
def Obligations.EveryStepKeepsTheRegisterForm : Prop :=
  ∀ s t : State, step s = .next t → regsWf s.regs = true → regsWf t.regs = true

/-- R119, R264: every step keeps every admitted flow's source entry inside its source's table. -/
def Obligations.EveryStepKeepsFlowEntriesInRange : Prop :=
  ∀ s t : State, step s = .next t → flowIdx s = true → flowIdx t = true
end

