-- ==== Sys2Proof/Laws/Bits.lean ====
section
/-! SUPPORT. What the sparse tables and the register words do: reading after writing, and the canonical form that every write
keeps. -/

namespace Sys2Proof.Machine


/-! Reading a table after a write. -/

@[simp] theorem mget_mset_same {α : Type} (m : Map α) (k : Nat) (v : α) : mget (mset m k v) k = some v := by
  induction m with
  | nil => simp [mset, mget]
  | cons p r ih =>
    obtain ⟨k', v'⟩ := p
    simp only [mset]
    split
    · simp [mget]
    · split
      · simp [mget]
      · rename_i h _; simp [mget, h, ih]

theorem mget_mset_ne {α : Type} (m : Map α) (k j : Nat) (v : α) (h : j ≠ k) : mget (mset m k v) j = mget m j := by
  induction m with
  | nil => simp [mset, mget, Ne.symm h]
  | cons p r ih =>
    obtain ⟨k', v'⟩ := p
    simp only [mset]
    split
    · rename_i e; subst e; simp [mget, Ne.symm h]
    · split
      · simp [mget, Ne.symm h]
      · simp [mget, ih]

theorem mget_mdel_same {α : Type} (m : Map α) (k : Nat) : mget (mdel m k) k = none := by
  induction m with
  | nil => rfl
  | cons p r ih =>
    obtain ⟨k', v'⟩ := p
    by_cases e : k' = k
    · simpa [mdel, e] using ih
    · have : mdel ((k', v') :: r) k = (k', v') :: mdel r k := by simp [mdel, e]
      rw [this]; simp [mget, e, ih]

theorem mget_mdel_ne {α : Type} (m : Map α) (k j : Nat) (h : j ≠ k) : mget (mdel m k) j = mget m j := by
  induction m with
  | nil => rfl
  | cons p r ih =>
    obtain ⟨k', v'⟩ := p
    by_cases e : k' = k
    · have : mdel ((k', v') :: r) k = mdel r k := by simp [mdel, e]
      rw [this, ih]; subst e; simp [mget, Ne.symm h]
    · have : mdel ((k', v') :: r) k = (k', v') :: mdel r k := by simp [mdel, e]
      rw [this]; simp [mget, ih]

@[simp] theorem mgetD_mset_same {α : Type} (m : Map α) (k : Nat) (v d : α) : mgetD (mset m k v) k d = v := by
  simp [mgetD]

theorem mgetD_mset_ne {α : Type} (m : Map α) (k j : Nat) (v d : α) (h : j ≠ k) : mgetD (mset m k v) j d = mgetD m j d := by
  simp [mgetD, mget_mset_ne m k j v h]

/-! The register words. -/

/-- A word reads as it was written; every other word is unchanged (23 R473). -/
theorem rd_wr (s : State) (a b : Nat) (v : Word) : rd (wr s a v) b = if b = a then v else rd s b := by
  unfold rd wr putWord
  by_cases h : b = a
  · subst h
    by_cases e : v = resetWord b
    · simp [e, mgetD, mget_mdel_same]
    · simp [e]
  · by_cases e : v = resetWord a
    · simp [e, h, mgetD, mget_mdel_ne _ _ _ h]
    · simp [e, h, mgetD, mget_mset_ne _ _ _ _ h]

@[simp] theorem rd_wr_same (s : State) (a : Nat) (v : Word) : rd (wr s a v) a = v := by simp [rd_wr]

theorem rd_wr_ne (s : State) (a b : Nat) (v : Word) (h : b ≠ a) : rd (wr s a v) b = rd s b := by simp [rd_wr, h]

/-- Setting a flag changes that word alone. -/
theorem rd_setFlag (s : State) (a i b : Nat) :
    rd (setFlag s a i) b = if b = a then rd s a ||| BitVec.ofNat 64 (1 <<< i) else rd s b := by
  simp [setFlag, rd_wr]

/-- Writing a field changes that word alone. -/
theorem rd_wrF (s : State) (a hi lo v b : Nat) :
    rd (wrF s a hi lo v) b = if b = a then setFld (rd s a) hi lo v else rd s b := by
  simp [wrF, rd_wr]

/-- A saturating counter changes that word alone. -/
theorem rd_incSat (s : State) (a d b : Nat) :
    rd (incSat s a d) b = if b = a then BitVec.ofNat 64 (satAdd 0xFFFFFFFF (rd s a).toNat d) else rd s b := by
  simp [incSat, rd_wr]

/-! The canonical form of the register words (log 33). -/

theorem rising_mono {α : Type} (m : Map α) : ∀ {lo lo' : Nat}, lo' ≤ lo → rising lo m = true → rising lo' m = true := by
  intro lo lo' h hm
  cases m with
  | nil => rfl
  | cons p r =>
    obtain ⟨k, v⟩ := p
    simp only [rising, Bool.and_eq_true, decide_eq_true_eq] at hm ⊢
    exact ⟨Nat.le_trans h hm.1, hm.2⟩

theorem rising_mset {α : Type} (m : Map α) (k : Nat) (v : α) :
    ∀ {lo : Nat}, rising lo m = true → lo ≤ k → rising lo (mset m k v) = true := by
  induction m with
  | nil => intro lo _ h; simp [mset, rising, h]
  | cons p r ih =>
    obtain ⟨k', v'⟩ := p
    intro lo hm h
    simp only [rising, Bool.and_eq_true, decide_eq_true_eq] at hm
    simp only [mset]
    split
    · rename_i e; subst e; simp [rising, h, hm.2]
    · split
      · rename_i hlt
        simp only [rising, Bool.and_eq_true, decide_eq_true_eq]
        exact ⟨h, hlt, hm.2⟩
      · rename_i h1 h2
        simp only [rising, Bool.and_eq_true, decide_eq_true_eq]
        exact ⟨hm.1, ih hm.2 (by omega)⟩

theorem rising_mdel {α : Type} (m : Map α) (k : Nat) : ∀ {lo : Nat}, rising lo m = true → rising lo (mdel m k) = true := by
  induction m with
  | nil => intro lo _; rfl
  | cons p r ih =>
    obtain ⟨k', v'⟩ := p
    intro lo hm
    simp only [rising, Bool.and_eq_true, decide_eq_true_eq] at hm
    by_cases e : k' = k
    · have : mdel ((k', v') :: r) k = mdel r k := by simp [mdel, e]
      rw [this]
      exact ih (rising_mono r (by omega) hm.2)
    · have : mdel ((k', v') :: r) k = (k', v') :: mdel r k := by simp [mdel, e]
      rw [this]
      simp only [rising, Bool.and_eq_true, decide_eq_true_eq]
      exact ⟨hm.1, ih hm.2⟩

theorem noReset_mset (m : Map Word) (a : Nat) (v : Word) (h : v ≠ resetWord a) :
    noReset m = true → noReset (mset m a v) = true := by
  induction m with
  | nil => intro _; simp [mset, noReset, h]
  | cons p r ih =>
    obtain ⟨a', v'⟩ := p
    intro hm
    simp only [noReset, Bool.and_eq_true, decide_eq_true_eq] at hm
    simp only [mset]
    split
    · simp [noReset, h, hm.2]
    · split
      · simp [noReset, h, hm.1, hm.2]
      · simp [noReset, hm.1, ih hm.2]

theorem noReset_mdel (m : Map Word) (a : Nat) : noReset m = true → noReset (mdel m a) = true := by
  induction m with
  | nil => intro _; rfl
  | cons p r ih =>
    obtain ⟨a', v'⟩ := p
    intro hm
    simp only [noReset, Bool.and_eq_true, decide_eq_true_eq] at hm
    by_cases e : a' = a
    · have : mdel ((a', v') :: r) a = mdel r a := by simp [mdel, e]
      rw [this]; exact ih hm.2
    · have : mdel ((a', v') :: r) a = (a', v') :: mdel r a := by simp [mdel, e]
      rw [this]; simp [noReset, hm.1, ih hm.2]

/-- Writing one word keeps the canonical form. -/
theorem regsWf_putWord (m : Map Word) (a : Nat) (v : Word) (h : regsWf m = true) : regsWf (putWord m a v) = true := by
  simp only [regsWf, Bool.and_eq_true] at h ⊢
  unfold putWord
  split
  · exact ⟨rising_mdel m a h.1, noReset_mdel m a h.2⟩
  · rename_i e
    exact ⟨rising_mset m a v h.1 (Nat.zero_le a), noReset_mset m a v e h.2⟩

/-- Every write of the register space keeps the canonical form. -/
theorem regsWf_wr (s : State) (a : Nat) (v : Word) (h : regsWf s.regs = true) : regsWf (wr s a v).regs = true :=
  regsWf_putWord s.regs a v h

/-- The reset state's register words have the canonical form. -/
theorem regsWf_reset : regsWf State.reset.regs = true := rfl

end Sys2Proof.Machine
end

