-- ==== Sys2Proof/Laws/Notes.lean ====
section
/-! SUPPORT. What the shared operations over units do, and all that raising a notification or counting an event can write. -/

namespace Sys2Proof.Machine


/-! Units. -/

theorem getNi_setNi (s : State) (n m : Nat) (v : Ni) : getNi (setNi s n v) m = if m = n then v else getNi s m := by
  unfold getNi setNi
  by_cases h : m = n
  · subst h; simp
  · simp [h, mgetD_mset_ne _ _ _ _ _ h]

theorem getNi_updNi (s : State) (n m : Nat) (f : Ni → Ni) :
    getNi (updNi s n f) m = if m = n then f (getNi s n) else getNi s m := by simp [updNi, getNi_setNi]

@[simp] theorem getNi_updNi_same (s : State) (n : Nat) (f : Ni → Ni) : getNi (updNi s n f) n = f (getNi s n) := by
  simp [getNi_updNi]

theorem getNi_updPort (s : State) (n m : Nat) (f : Port → Port) :
    getNi (updPort s n f) m = if m = n then { getNi s n with port := f (getNi s n).port } else getNi s m := by
  simp [updPort, getNi_updNi]

@[simp] theorem getNi_updPort_same (s : State) (n : Nat) (f : Port → Port) :
    getNi (updPort s n f) n = { getNi s n with port := f (getNi s n).port } := by simp [getNi_updPort]

@[simp] theorem getNi_wr (s : State) (a : Nat) (v : Word) (m : Nat) : getNi (wr s a v) m = getNi s m := rfl

@[simp] theorem getNi_setFlag (s : State) (a i m : Nat) : getNi (setFlag s a i) m = getNi s m := rfl

@[simp] theorem getNi_wrF (s : State) (a hi lo v m : Nat) : getNi (wrF s a hi lo v) m = getNi s m := rfl

@[simp] theorem getNi_incSat (s : State) (a d m : Nat) : getNi (incSat s a d) m = getNi s m := rfl

@[simp] theorem rd_setNi (s : State) (n : Nat) (v : Ni) (a : Nat) : rd (setNi s n v) a = rd s a := rfl

@[simp] theorem rd_updNi (s : State) (n : Nat) (f : Ni → Ni) (a : Nat) : rd (updNi s n f) a = rd s a := rfl

@[simp] theorem rd_updPort (s : State) (n : Nat) (f : Port → Port) (a : Nat) : rd (updPort s n f) a = rd s a := rfl

@[simp] theorem rd_updRtr (s : State) (x : Nat) (f : Rtr → Rtr) (a : Nat) : rd (updRtr s x f) a = rd s a := rfl

@[simp] theorem rd_updSpan (s : State) (p : Nat) (f : Span → Span) (a : Nat) : rd (updSpan s p f) a = rd s a := rfl

theorem getRtr_updRtr (s : State) (x y : Nat) (f : Rtr → Rtr) :
    getRtr (updRtr s x f) y = if y = x then f (getRtr s x) else getRtr s y := by
  unfold getRtr updRtr mupd
  by_cases h : y = x
  · subst h; simp
  · simp [h, mgetD_mset_ne _ _ _ _ _ h]

theorem getSpan_updSpan (s : State) (p q : Nat) (f : Span → Span) :
    getSpan (updSpan s p f) q = if q = p then f (getSpan s p) else getSpan s q := by
  unfold getSpan updSpan mupd
  by_cases h : q = p
  · subst h; simp
  · simp [h, mgetD_mset_ne _ _ _ _ _ h]

@[simp] theorem getSpan_updSpan_same (s : State) (p : Nat) (f : Span → Span) : getSpan (updSpan s p f) p = f (getSpan s p) := by
  simp [getSpan_updSpan]

/-! Notifications and counts. -/

theorem SameNi.refl (s : State) (m : Nat) : SameNi s s m := rfl

theorem NoteOnly.refl (s : State) : NoteOnly s s := ⟨rfl, fun _ _ => rfl, fun _ => rfl⟩

theorem NoteOnly.trans {s t u : State} (h : NoteOnly s t) (k : NoteOnly t u) : NoteOnly s u := by
  obtain ⟨h1, h2, h3⟩ := h
  obtain ⟨k1, k2, k3⟩ := k
  refine ⟨?_, fun a ha => (k2 a ha).trans (h2 a ha), fun m => ?_⟩
  · rw [k1]; conv_lhs => rw [h1]
  · have a := h3 m
    have b := k3 m
    unfold SameNi at *
    rw [b]; conv_lhs => rw [a]

theorem NoteOnly.wr (s : State) (a : Nat) (v : Word) (h : noteWord a = true) : NoteOnly s (wr s a v) :=
  ⟨rfl, fun b hb => rd_wr_ne s a b v (fun e => by subst e; simp [h] at hb), fun _ => rfl⟩

theorem NoteOnly.setFlag (s : State) (a i : Nat) (h : noteWord a = true) : NoteOnly s (setFlag s a i) := NoteOnly.wr _ _ _ h

theorem NoteOnly.incSat (s : State) (a d : Nat) (h : noteWord a = true) : NoteOnly s (incSat s a d) := NoteOnly.wr _ _ _ h

theorem noteWord_lost (n : Nat) (h : n < 256) : noteWord (aNi n 0x20) = true := by
  have h1 : decide (0x200000 ≤ aNi n 0x20) = true := decide_eq_true (by unfold aNi; omega)
  have h2 : decide (aNi n 0x20 < 0x400000) = true := decide_eq_true (by unfold aNi; omega)
  have h3 : ((aNi n 0x20 - 0x200000) % 0x2000 == 0x20) = true := beq_iff_eq.mpr (by unfold aNi; omega)
  unfold noteWord
  rw [h1, h2, h3]
  simp

theorem noteWord_cnt (a : Nat) (h1 : 0x400000 ≤ a) (h2 : a < 0x480000) : noteWord a = true := by
  unfold noteWord; simp [h1, h2]

theorem portNote_noteOnly (s : State) (n sev : Nat) (r : Word) (h : n < 256) : NoteOnly s (portNote s n sev r) := by
  unfold portNote
  split
  · exact .refl s
  · split
    · exact .refl s
    · split
      · refine ⟨rfl, fun _ _ => rfl, fun m => ?_⟩
        unfold SameNi
        rw [getNi_updPort]
        split
        · rename_i e; subst e; rfl
        · rfl
      · exact NoteOnly.incSat s _ 1 (noteWord_lost n h)

theorem nEpNis_lt (s : State) (n : Nat) (h : isEpNi s n = true) : n < 256 := by
  unfold isEpNi nEpNis at h
  split at h <;> simp at h <;> omega

theorem routeNote_noteOnly (s : State) (e : Note) : NoteOnly s (routeNote s e) := by
  have h1 : ∀ s : State, NoteOnly s (match e.port with
      | some n => if isEpNi s n then portNote s n e.sev (noteRecord e) else s
      | none => s) := by
    intro s
    cases e.port with
    | none => exact .refl s
    | some n =>
      dsimp only
      split
      · rename_i h; exact portNote_noteOnly s n _ _ (nEpNis_lt s n h)
      · exact .refl s
  have h2 : ∀ (s : State) (v : Ntf), NoteOnly s { s with ntf := v } := fun s v => ⟨rfl, fun _ _ => rfl, fun _ => rfl⟩
  have h3 : ∀ (s : State) (b : Nat), NoteOnly s (if rdF s 0x108 1 0 ≤ e.sev then setFlag s 0x100 b else s) := by
    intro s b; split
    · exact NoteOnly.setFlag s _ _ rfl
    · exact .refl s
  have h4 : ∀ s : State, NoteOnly s (logNote s e) := by
    intro s; unfold logNote; split
    · exact .refl s
    · refine NoteOnly.trans (t := { s with flt := { s.flt with log := ((noteLog1 s e, noteLog0 s e) :: s.flt.log).take 64 } }) ?_ ?_
      · exact ⟨rfl, fun _ _ => rfl, fun _ => rfl⟩
      · exact NoteOnly.incSat _ _ _ rfl
  have h5 : ∀ s : State, NoteOnly s (fwdNote s e) := by
    intro s; unfold fwdNote; dsimp only; split
    · exact .refl s
    · split
      · exact h2 s _
      · exact NoteOnly.wr _ _ _ rfl
  unfold routeNote
  exact (((h1 s).trans (h2 _ _)).trans (h3 _ _)).trans ((h4 _).trans (h5 _))

theorem fireThr_noteOnly (i old new : Nat) (s : State) (j : Nat) (hj : j < 1024) : NoteOnly s (fireThr i old new s j) := by
  unfold fireThr; dsimp only
  split
  · refine ((NoteOnly.wr s _ _ (noteWord_cnt _ (by omega) (by omega))).trans
      (NoteOnly.wr _ _ _ (noteWord_cnt _ (by unfold aThr; omega) (by unfold aThr; omega)))).trans (routeNote_noteOnly _ _)
  · exact .refl s

theorem listedThr_lt (s : State) (j : Nat) (h : j ∈ listedThr s) : j < 1024 := by
  unfold listedThr at h
  simp only [List.mem_map, List.mem_filter, Bool.and_eq_true, decide_eq_true_eq] at h
  obtain ⟨p, hp, rfl⟩ := h
  omega

theorem foldl_noteOnly {α : Type} (l : List α) (f : State → α → State) (h : ∀ s, ∀ x ∈ l, NoteOnly s (f s x)) (s : State) :
    NoteOnly s (l.foldl f s) := by
  induction l generalizing s with
  | nil => exact .refl s
  | cons a r ih => exact (h s a (by simp)).trans (ih (fun s x hx => h s x (by simp [hx])) _)

/-- Counting an event writes its counter, the overflow flag, and what a comparator's notification writes (20 R422, R432). -/
theorem bump_noteOnly (s : State) (i d : Nat) (hi : i < 9536) : NoteOnly s (bump s i d) := by
  unfold bump
  split
  · exact .refl s
  · dsimp only
    have h0 := NoteOnly.wr s (0x410000 + 8 * i) (BitVec.ofNat 64
      ((bitOf (rd s (0x410000 + 8 * i)) 48 || decide (2 ^ 48 ≤ fld (rd s (0x410000 + 8 * i)) 47 0 + d)).toNat <<< 48 |||
        (fld (rd s (0x410000 + 8 * i)) 47 0 + d) % 2 ^ 48)) (noteWord_cnt _ (by omega) (by omega))
    refine (h0.trans ?_).trans (foldl_noteOnly _ _ (fun s x hx => fireThr_noteOnly _ _ _ s x (listedThr_lt _ _ hx)) _)
    split
    · exact NoteOnly.setFlag _ _ _ rfl
    · exact .refl _

theorem evNi_noteOnly (s : State) (n e d : Nat) (hn : n < 128) (he : e < 48) : NoteOnly s (evNi s n e d) :=
  bump_noteOnly s _ d (by omega)

/-- Raising a notification writes nothing but its routes (23 R478) and the NI's event count. -/
theorem raise_noteOnly (s : State) (e : Note) : NoteOnly s (raise s e) := by
  unfold raise
  split
  · rename_i h; exact (evNi_noteOnly s e.unit 15 1 h (by decide)).trans (routeNote_noteOnly _ _)
  · exact routeNote_noteOnly _ _

theorem raiseG_noteOnly (s : State) (unit code sev info : Nat) : NoteOnly s (raiseG s unit code sev info) := raise_noteOnly _ _

theorem raiseNi_noteOnly (s : State) (n code sev info slice : Nat) : NoteOnly s (raiseNi s n code sev info slice) :=
  raise_noteOnly _ _

/-! The outcome of a command. -/

/-- A command whose new state keeps the profile, the queue and the life-cycle fuses answers that state. -/
theorem answer_eq {s t : State} (h1 : t.gen = s.gen) (h2 : t.pending = s.pending) (h3 : t.lcs = s.lcs) : answer s t = .next t := by
  unfold answer
  obtain ⟨⟩ := t
  simp_all

theorem NoteOnly.gen {s t : State} (h : NoteOnly s t) : t.gen = s.gen := by rw [h.1]
theorem NoteOnly.pending {s t : State} (h : NoteOnly s t) : t.pending = s.pending := by rw [h.1]
theorem NoteOnly.lcs {s t : State} (h : NoteOnly s t) : t.lcs = s.lcs := by rw [h.1]
theorem NoteOnly.time {s t : State} (h : NoteOnly s t) : t.time = s.time := by rw [h.1]
theorem NoteOnly.rtrs {s t : State} (h : NoteOnly s t) : t.rtrs = s.rtrs := by rw [h.1]
theorem NoteOnly.spans {s t : State} (h : NoteOnly s t) : t.spans = s.spans := by rw [h.1]
theorem NoteOnly.eng {s t : State} (h : NoteOnly s t) : t.eng = s.eng := by rw [h.1]
theorem NoteOnly.jrn {s t : State} (h : NoteOnly s t) : t.jrn = s.jrn := by rw [h.1]
theorem NoteOnly.img {s t : State} (h : NoteOnly s t) : t.img = s.img := by rw [h.1]
theorem NoteOnly.pwr {s t : State} (h : NoteOnly s t) : t.pwr = s.pwr := by rw [h.1]
theorem NoteOnly.rst {s t : State} (h : NoteOnly s t) : t.rst = s.rst := by rw [h.1]

/-- Keeping the last record of a group is within what notifications write. -/
theorem NoteOnly.keepLast {s t : State} (u : State) (g : Nat) (h : NoteOnly s t) : NoteOnly s (keepLast u t g) := by
  obtain ⟨h1, h2, h3⟩ := h
  refine ⟨?_, h2, h3⟩
  unfold Machine.keepLast
  conv_lhs => rw [h1]

end Sys2Proof.Machine
end

