-- ==== Sys2Proof/Laws/State.lean ====
section
/-! SUPPORT. What each update of the state leaves unchanged, one lemma per field: no later proof unfolds a record update. -/

namespace Sys2Proof.Machine

/-! A word of the register space replaced. -/

@[simp] theorem wr_gen (s : State) (a : Nat) (v : Word) : (wr s a v).gen = s.gen := rfl
@[simp] theorem wr_time (s : State) (a : Nat) (v : Word) : (wr s a v).time = s.time := rfl
@[simp] theorem wr_pendT (s : State) (a : Nat) (v : Word) : (wr s a v).pendT = s.pendT := rfl
@[simp] theorem wr_nis (s : State) (a : Nat) (v : Word) : (wr s a v).nis = s.nis := rfl
@[simp] theorem wr_rtrs (s : State) (a : Nat) (v : Word) : (wr s a v).rtrs = s.rtrs := rfl
@[simp] theorem wr_spans (s : State) (a : Nat) (v : Word) : (wr s a v).spans = s.spans := rfl
@[simp] theorem wr_eng (s : State) (a : Nat) (v : Word) : (wr s a v).eng = s.eng := rfl
@[simp] theorem wr_jrn (s : State) (a : Nat) (v : Word) : (wr s a v).jrn = s.jrn := rfl
@[simp] theorem wr_img (s : State) (a : Nat) (v : Word) : (wr s a v).img = s.img := rfl
@[simp] theorem wr_pwr (s : State) (a : Nat) (v : Word) : (wr s a v).pwr = s.pwr := rfl
@[simp] theorem wr_rst (s : State) (a : Nat) (v : Word) : (wr s a v).rst = s.rst := rfl
@[simp] theorem wr_flt (s : State) (a : Nat) (v : Word) : (wr s a v).flt = s.flt := rfl
@[simp] theorem wr_mmx (s : State) (a : Nat) (v : Word) : (wr s a v).mmx = s.mmx := rfl
@[simp] theorem wr_cnt (s : State) (a : Nat) (v : Word) : (wr s a v).cnt = s.cnt := rfl
@[simp] theorem wr_lcs (s : State) (a : Nat) (v : Word) : (wr s a v).lcs = s.lcs := rfl
@[simp] theorem wr_ntf (s : State) (a : Nat) (v : Word) : (wr s a v).ntf = s.ntf := rfl
@[simp] theorem wr_free (s : State) (a : Nat) (v : Word) : (wr s a v).free = s.free := rfl
@[simp] theorem wr_pending (s : State) (a : Nat) (v : Word) : (wr s a v).pending = s.pending := rfl

/-! A field of it replaced. -/

@[simp] theorem wrF_gen (s : State) (a hi lo v : Nat) : (wrF s a hi lo v).gen = s.gen := rfl
@[simp] theorem wrF_time (s : State) (a hi lo v : Nat) : (wrF s a hi lo v).time = s.time := rfl
@[simp] theorem wrF_pendT (s : State) (a hi lo v : Nat) : (wrF s a hi lo v).pendT = s.pendT := rfl
@[simp] theorem wrF_nis (s : State) (a hi lo v : Nat) : (wrF s a hi lo v).nis = s.nis := rfl
@[simp] theorem wrF_rtrs (s : State) (a hi lo v : Nat) : (wrF s a hi lo v).rtrs = s.rtrs := rfl
@[simp] theorem wrF_spans (s : State) (a hi lo v : Nat) : (wrF s a hi lo v).spans = s.spans := rfl
@[simp] theorem wrF_eng (s : State) (a hi lo v : Nat) : (wrF s a hi lo v).eng = s.eng := rfl
@[simp] theorem wrF_jrn (s : State) (a hi lo v : Nat) : (wrF s a hi lo v).jrn = s.jrn := rfl
@[simp] theorem wrF_img (s : State) (a hi lo v : Nat) : (wrF s a hi lo v).img = s.img := rfl
@[simp] theorem wrF_pwr (s : State) (a hi lo v : Nat) : (wrF s a hi lo v).pwr = s.pwr := rfl
@[simp] theorem wrF_rst (s : State) (a hi lo v : Nat) : (wrF s a hi lo v).rst = s.rst := rfl
@[simp] theorem wrF_flt (s : State) (a hi lo v : Nat) : (wrF s a hi lo v).flt = s.flt := rfl
@[simp] theorem wrF_mmx (s : State) (a hi lo v : Nat) : (wrF s a hi lo v).mmx = s.mmx := rfl
@[simp] theorem wrF_cnt (s : State) (a hi lo v : Nat) : (wrF s a hi lo v).cnt = s.cnt := rfl
@[simp] theorem wrF_lcs (s : State) (a hi lo v : Nat) : (wrF s a hi lo v).lcs = s.lcs := rfl
@[simp] theorem wrF_ntf (s : State) (a hi lo v : Nat) : (wrF s a hi lo v).ntf = s.ntf := rfl
@[simp] theorem wrF_free (s : State) (a hi lo v : Nat) : (wrF s a hi lo v).free = s.free := rfl
@[simp] theorem wrF_pending (s : State) (a hi lo v : Nat) : (wrF s a hi lo v).pending = s.pending := rfl

/-! A flag of it set. -/

@[simp] theorem setFlag_gen (s : State) (a i : Nat) : (setFlag s a i).gen = s.gen := rfl
@[simp] theorem setFlag_time (s : State) (a i : Nat) : (setFlag s a i).time = s.time := rfl
@[simp] theorem setFlag_pendT (s : State) (a i : Nat) : (setFlag s a i).pendT = s.pendT := rfl
@[simp] theorem setFlag_nis (s : State) (a i : Nat) : (setFlag s a i).nis = s.nis := rfl
@[simp] theorem setFlag_rtrs (s : State) (a i : Nat) : (setFlag s a i).rtrs = s.rtrs := rfl
@[simp] theorem setFlag_spans (s : State) (a i : Nat) : (setFlag s a i).spans = s.spans := rfl
@[simp] theorem setFlag_eng (s : State) (a i : Nat) : (setFlag s a i).eng = s.eng := rfl
@[simp] theorem setFlag_jrn (s : State) (a i : Nat) : (setFlag s a i).jrn = s.jrn := rfl
@[simp] theorem setFlag_img (s : State) (a i : Nat) : (setFlag s a i).img = s.img := rfl
@[simp] theorem setFlag_pwr (s : State) (a i : Nat) : (setFlag s a i).pwr = s.pwr := rfl
@[simp] theorem setFlag_rst (s : State) (a i : Nat) : (setFlag s a i).rst = s.rst := rfl
@[simp] theorem setFlag_flt (s : State) (a i : Nat) : (setFlag s a i).flt = s.flt := rfl
@[simp] theorem setFlag_mmx (s : State) (a i : Nat) : (setFlag s a i).mmx = s.mmx := rfl
@[simp] theorem setFlag_cnt (s : State) (a i : Nat) : (setFlag s a i).cnt = s.cnt := rfl
@[simp] theorem setFlag_lcs (s : State) (a i : Nat) : (setFlag s a i).lcs = s.lcs := rfl
@[simp] theorem setFlag_ntf (s : State) (a i : Nat) : (setFlag s a i).ntf = s.ntf := rfl
@[simp] theorem setFlag_free (s : State) (a i : Nat) : (setFlag s a i).free = s.free := rfl
@[simp] theorem setFlag_pending (s : State) (a i : Nat) : (setFlag s a i).pending = s.pending := rfl

/-! A counter of it advanced. -/

@[simp] theorem incSat_gen (s : State) (a d : Nat) : (incSat s a d).gen = s.gen := rfl
@[simp] theorem incSat_time (s : State) (a d : Nat) : (incSat s a d).time = s.time := rfl
@[simp] theorem incSat_pendT (s : State) (a d : Nat) : (incSat s a d).pendT = s.pendT := rfl
@[simp] theorem incSat_nis (s : State) (a d : Nat) : (incSat s a d).nis = s.nis := rfl
@[simp] theorem incSat_rtrs (s : State) (a d : Nat) : (incSat s a d).rtrs = s.rtrs := rfl
@[simp] theorem incSat_spans (s : State) (a d : Nat) : (incSat s a d).spans = s.spans := rfl
@[simp] theorem incSat_eng (s : State) (a d : Nat) : (incSat s a d).eng = s.eng := rfl
@[simp] theorem incSat_jrn (s : State) (a d : Nat) : (incSat s a d).jrn = s.jrn := rfl
@[simp] theorem incSat_img (s : State) (a d : Nat) : (incSat s a d).img = s.img := rfl
@[simp] theorem incSat_pwr (s : State) (a d : Nat) : (incSat s a d).pwr = s.pwr := rfl
@[simp] theorem incSat_rst (s : State) (a d : Nat) : (incSat s a d).rst = s.rst := rfl
@[simp] theorem incSat_flt (s : State) (a d : Nat) : (incSat s a d).flt = s.flt := rfl
@[simp] theorem incSat_mmx (s : State) (a d : Nat) : (incSat s a d).mmx = s.mmx := rfl
@[simp] theorem incSat_cnt (s : State) (a d : Nat) : (incSat s a d).cnt = s.cnt := rfl
@[simp] theorem incSat_lcs (s : State) (a d : Nat) : (incSat s a d).lcs = s.lcs := rfl
@[simp] theorem incSat_ntf (s : State) (a d : Nat) : (incSat s a d).ntf = s.ntf := rfl
@[simp] theorem incSat_free (s : State) (a d : Nat) : (incSat s a d).free = s.free := rfl
@[simp] theorem incSat_pending (s : State) (a d : Nat) : (incSat s a d).pending = s.pending := rfl

/-! A word that waits for the next tick. -/

@[simp] theorem pendWord_gen (s : State) (a : Nat) (v : Word) : (pendWord s a v).gen = s.gen := rfl
@[simp] theorem pendWord_time (s : State) (a : Nat) (v : Word) : (pendWord s a v).time = s.time := rfl
@[simp] theorem pendWord_regs (s : State) (a : Nat) (v : Word) : (pendWord s a v).regs = s.regs := rfl
@[simp] theorem pendWord_nis (s : State) (a : Nat) (v : Word) : (pendWord s a v).nis = s.nis := rfl
@[simp] theorem pendWord_rtrs (s : State) (a : Nat) (v : Word) : (pendWord s a v).rtrs = s.rtrs := rfl
@[simp] theorem pendWord_spans (s : State) (a : Nat) (v : Word) : (pendWord s a v).spans = s.spans := rfl
@[simp] theorem pendWord_eng (s : State) (a : Nat) (v : Word) : (pendWord s a v).eng = s.eng := rfl
@[simp] theorem pendWord_jrn (s : State) (a : Nat) (v : Word) : (pendWord s a v).jrn = s.jrn := rfl
@[simp] theorem pendWord_img (s : State) (a : Nat) (v : Word) : (pendWord s a v).img = s.img := rfl
@[simp] theorem pendWord_pwr (s : State) (a : Nat) (v : Word) : (pendWord s a v).pwr = s.pwr := rfl
@[simp] theorem pendWord_rst (s : State) (a : Nat) (v : Word) : (pendWord s a v).rst = s.rst := rfl
@[simp] theorem pendWord_flt (s : State) (a : Nat) (v : Word) : (pendWord s a v).flt = s.flt := rfl
@[simp] theorem pendWord_mmx (s : State) (a : Nat) (v : Word) : (pendWord s a v).mmx = s.mmx := rfl
@[simp] theorem pendWord_cnt (s : State) (a : Nat) (v : Word) : (pendWord s a v).cnt = s.cnt := rfl
@[simp] theorem pendWord_lcs (s : State) (a : Nat) (v : Word) : (pendWord s a v).lcs = s.lcs := rfl
@[simp] theorem pendWord_ntf (s : State) (a : Nat) (v : Word) : (pendWord s a v).ntf = s.ntf := rfl
@[simp] theorem pendWord_free (s : State) (a : Nat) (v : Word) : (pendWord s a v).free = s.free := rfl
@[simp] theorem pendWord_pending (s : State) (a : Nat) (v : Word) : (pendWord s a v).pending = s.pending := rfl

/-! A NI replaced. -/

@[simp] theorem setNi_gen (s : State) (n : Nat) (v : Ni) : (setNi s n v).gen = s.gen := rfl
@[simp] theorem setNi_time (s : State) (n : Nat) (v : Ni) : (setNi s n v).time = s.time := rfl
@[simp] theorem setNi_regs (s : State) (n : Nat) (v : Ni) : (setNi s n v).regs = s.regs := rfl
@[simp] theorem setNi_pendT (s : State) (n : Nat) (v : Ni) : (setNi s n v).pendT = s.pendT := rfl
@[simp] theorem setNi_rtrs (s : State) (n : Nat) (v : Ni) : (setNi s n v).rtrs = s.rtrs := rfl
@[simp] theorem setNi_spans (s : State) (n : Nat) (v : Ni) : (setNi s n v).spans = s.spans := rfl
@[simp] theorem setNi_eng (s : State) (n : Nat) (v : Ni) : (setNi s n v).eng = s.eng := rfl
@[simp] theorem setNi_jrn (s : State) (n : Nat) (v : Ni) : (setNi s n v).jrn = s.jrn := rfl
@[simp] theorem setNi_img (s : State) (n : Nat) (v : Ni) : (setNi s n v).img = s.img := rfl
@[simp] theorem setNi_pwr (s : State) (n : Nat) (v : Ni) : (setNi s n v).pwr = s.pwr := rfl
@[simp] theorem setNi_rst (s : State) (n : Nat) (v : Ni) : (setNi s n v).rst = s.rst := rfl
@[simp] theorem setNi_flt (s : State) (n : Nat) (v : Ni) : (setNi s n v).flt = s.flt := rfl
@[simp] theorem setNi_mmx (s : State) (n : Nat) (v : Ni) : (setNi s n v).mmx = s.mmx := rfl
@[simp] theorem setNi_cnt (s : State) (n : Nat) (v : Ni) : (setNi s n v).cnt = s.cnt := rfl
@[simp] theorem setNi_lcs (s : State) (n : Nat) (v : Ni) : (setNi s n v).lcs = s.lcs := rfl
@[simp] theorem setNi_ntf (s : State) (n : Nat) (v : Ni) : (setNi s n v).ntf = s.ntf := rfl
@[simp] theorem setNi_free (s : State) (n : Nat) (v : Ni) : (setNi s n v).free = s.free := rfl
@[simp] theorem setNi_pending (s : State) (n : Nat) (v : Ni) : (setNi s n v).pending = s.pending := rfl

/-! A NI changed. -/

@[simp] theorem updNi_gen (s : State) (n : Nat) (f : Ni → Ni) : (updNi s n f).gen = s.gen := rfl
@[simp] theorem updNi_time (s : State) (n : Nat) (f : Ni → Ni) : (updNi s n f).time = s.time := rfl
@[simp] theorem updNi_regs (s : State) (n : Nat) (f : Ni → Ni) : (updNi s n f).regs = s.regs := rfl
@[simp] theorem updNi_pendT (s : State) (n : Nat) (f : Ni → Ni) : (updNi s n f).pendT = s.pendT := rfl
@[simp] theorem updNi_rtrs (s : State) (n : Nat) (f : Ni → Ni) : (updNi s n f).rtrs = s.rtrs := rfl
@[simp] theorem updNi_spans (s : State) (n : Nat) (f : Ni → Ni) : (updNi s n f).spans = s.spans := rfl
@[simp] theorem updNi_eng (s : State) (n : Nat) (f : Ni → Ni) : (updNi s n f).eng = s.eng := rfl
@[simp] theorem updNi_jrn (s : State) (n : Nat) (f : Ni → Ni) : (updNi s n f).jrn = s.jrn := rfl
@[simp] theorem updNi_img (s : State) (n : Nat) (f : Ni → Ni) : (updNi s n f).img = s.img := rfl
@[simp] theorem updNi_pwr (s : State) (n : Nat) (f : Ni → Ni) : (updNi s n f).pwr = s.pwr := rfl
@[simp] theorem updNi_rst (s : State) (n : Nat) (f : Ni → Ni) : (updNi s n f).rst = s.rst := rfl
@[simp] theorem updNi_flt (s : State) (n : Nat) (f : Ni → Ni) : (updNi s n f).flt = s.flt := rfl
@[simp] theorem updNi_mmx (s : State) (n : Nat) (f : Ni → Ni) : (updNi s n f).mmx = s.mmx := rfl
@[simp] theorem updNi_cnt (s : State) (n : Nat) (f : Ni → Ni) : (updNi s n f).cnt = s.cnt := rfl
@[simp] theorem updNi_lcs (s : State) (n : Nat) (f : Ni → Ni) : (updNi s n f).lcs = s.lcs := rfl
@[simp] theorem updNi_ntf (s : State) (n : Nat) (f : Ni → Ni) : (updNi s n f).ntf = s.ntf := rfl
@[simp] theorem updNi_free (s : State) (n : Nat) (f : Ni → Ni) : (updNi s n f).free = s.free := rfl
@[simp] theorem updNi_pending (s : State) (n : Nat) (f : Ni → Ni) : (updNi s n f).pending = s.pending := rfl

/-! A port changed. -/

@[simp] theorem updPort_gen (s : State) (n : Nat) (f : Port → Port) : (updPort s n f).gen = s.gen := rfl
@[simp] theorem updPort_time (s : State) (n : Nat) (f : Port → Port) : (updPort s n f).time = s.time := rfl
@[simp] theorem updPort_regs (s : State) (n : Nat) (f : Port → Port) : (updPort s n f).regs = s.regs := rfl
@[simp] theorem updPort_pendT (s : State) (n : Nat) (f : Port → Port) : (updPort s n f).pendT = s.pendT := rfl
@[simp] theorem updPort_rtrs (s : State) (n : Nat) (f : Port → Port) : (updPort s n f).rtrs = s.rtrs := rfl
@[simp] theorem updPort_spans (s : State) (n : Nat) (f : Port → Port) : (updPort s n f).spans = s.spans := rfl
@[simp] theorem updPort_eng (s : State) (n : Nat) (f : Port → Port) : (updPort s n f).eng = s.eng := rfl
@[simp] theorem updPort_jrn (s : State) (n : Nat) (f : Port → Port) : (updPort s n f).jrn = s.jrn := rfl
@[simp] theorem updPort_img (s : State) (n : Nat) (f : Port → Port) : (updPort s n f).img = s.img := rfl
@[simp] theorem updPort_pwr (s : State) (n : Nat) (f : Port → Port) : (updPort s n f).pwr = s.pwr := rfl
@[simp] theorem updPort_rst (s : State) (n : Nat) (f : Port → Port) : (updPort s n f).rst = s.rst := rfl
@[simp] theorem updPort_flt (s : State) (n : Nat) (f : Port → Port) : (updPort s n f).flt = s.flt := rfl
@[simp] theorem updPort_mmx (s : State) (n : Nat) (f : Port → Port) : (updPort s n f).mmx = s.mmx := rfl
@[simp] theorem updPort_cnt (s : State) (n : Nat) (f : Port → Port) : (updPort s n f).cnt = s.cnt := rfl
@[simp] theorem updPort_lcs (s : State) (n : Nat) (f : Port → Port) : (updPort s n f).lcs = s.lcs := rfl
@[simp] theorem updPort_ntf (s : State) (n : Nat) (f : Port → Port) : (updPort s n f).ntf = s.ntf := rfl
@[simp] theorem updPort_free (s : State) (n : Nat) (f : Port → Port) : (updPort s n f).free = s.free := rfl
@[simp] theorem updPort_pending (s : State) (n : Nat) (f : Port → Port) : (updPort s n f).pending = s.pending := rfl

/-! A slot changed. -/

@[simp] theorem updSlt_gen (s : State) (n : Nat) (f : SlotSt → SlotSt) : (updSlt s n f).gen = s.gen := rfl
@[simp] theorem updSlt_time (s : State) (n : Nat) (f : SlotSt → SlotSt) : (updSlt s n f).time = s.time := rfl
@[simp] theorem updSlt_regs (s : State) (n : Nat) (f : SlotSt → SlotSt) : (updSlt s n f).regs = s.regs := rfl
@[simp] theorem updSlt_pendT (s : State) (n : Nat) (f : SlotSt → SlotSt) : (updSlt s n f).pendT = s.pendT := rfl
@[simp] theorem updSlt_rtrs (s : State) (n : Nat) (f : SlotSt → SlotSt) : (updSlt s n f).rtrs = s.rtrs := rfl
@[simp] theorem updSlt_spans (s : State) (n : Nat) (f : SlotSt → SlotSt) : (updSlt s n f).spans = s.spans := rfl
@[simp] theorem updSlt_eng (s : State) (n : Nat) (f : SlotSt → SlotSt) : (updSlt s n f).eng = s.eng := rfl
@[simp] theorem updSlt_jrn (s : State) (n : Nat) (f : SlotSt → SlotSt) : (updSlt s n f).jrn = s.jrn := rfl
@[simp] theorem updSlt_img (s : State) (n : Nat) (f : SlotSt → SlotSt) : (updSlt s n f).img = s.img := rfl
@[simp] theorem updSlt_pwr (s : State) (n : Nat) (f : SlotSt → SlotSt) : (updSlt s n f).pwr = s.pwr := rfl
@[simp] theorem updSlt_rst (s : State) (n : Nat) (f : SlotSt → SlotSt) : (updSlt s n f).rst = s.rst := rfl
@[simp] theorem updSlt_flt (s : State) (n : Nat) (f : SlotSt → SlotSt) : (updSlt s n f).flt = s.flt := rfl
@[simp] theorem updSlt_mmx (s : State) (n : Nat) (f : SlotSt → SlotSt) : (updSlt s n f).mmx = s.mmx := rfl
@[simp] theorem updSlt_cnt (s : State) (n : Nat) (f : SlotSt → SlotSt) : (updSlt s n f).cnt = s.cnt := rfl
@[simp] theorem updSlt_lcs (s : State) (n : Nat) (f : SlotSt → SlotSt) : (updSlt s n f).lcs = s.lcs := rfl
@[simp] theorem updSlt_ntf (s : State) (n : Nat) (f : SlotSt → SlotSt) : (updSlt s n f).ntf = s.ntf := rfl
@[simp] theorem updSlt_free (s : State) (n : Nat) (f : SlotSt → SlotSt) : (updSlt s n f).free = s.free := rfl
@[simp] theorem updSlt_pending (s : State) (n : Nat) (f : SlotSt → SlotSt) : (updSlt s n f).pending = s.pending := rfl

/-! A router changed. -/

@[simp] theorem updRtr_gen (s : State) (x : Nat) (f : Rtr → Rtr) : (updRtr s x f).gen = s.gen := rfl
@[simp] theorem updRtr_time (s : State) (x : Nat) (f : Rtr → Rtr) : (updRtr s x f).time = s.time := rfl
@[simp] theorem updRtr_regs (s : State) (x : Nat) (f : Rtr → Rtr) : (updRtr s x f).regs = s.regs := rfl
@[simp] theorem updRtr_pendT (s : State) (x : Nat) (f : Rtr → Rtr) : (updRtr s x f).pendT = s.pendT := rfl
@[simp] theorem updRtr_nis (s : State) (x : Nat) (f : Rtr → Rtr) : (updRtr s x f).nis = s.nis := rfl
@[simp] theorem updRtr_spans (s : State) (x : Nat) (f : Rtr → Rtr) : (updRtr s x f).spans = s.spans := rfl
@[simp] theorem updRtr_eng (s : State) (x : Nat) (f : Rtr → Rtr) : (updRtr s x f).eng = s.eng := rfl
@[simp] theorem updRtr_jrn (s : State) (x : Nat) (f : Rtr → Rtr) : (updRtr s x f).jrn = s.jrn := rfl
@[simp] theorem updRtr_img (s : State) (x : Nat) (f : Rtr → Rtr) : (updRtr s x f).img = s.img := rfl
@[simp] theorem updRtr_pwr (s : State) (x : Nat) (f : Rtr → Rtr) : (updRtr s x f).pwr = s.pwr := rfl
@[simp] theorem updRtr_rst (s : State) (x : Nat) (f : Rtr → Rtr) : (updRtr s x f).rst = s.rst := rfl
@[simp] theorem updRtr_flt (s : State) (x : Nat) (f : Rtr → Rtr) : (updRtr s x f).flt = s.flt := rfl
@[simp] theorem updRtr_mmx (s : State) (x : Nat) (f : Rtr → Rtr) : (updRtr s x f).mmx = s.mmx := rfl
@[simp] theorem updRtr_cnt (s : State) (x : Nat) (f : Rtr → Rtr) : (updRtr s x f).cnt = s.cnt := rfl
@[simp] theorem updRtr_lcs (s : State) (x : Nat) (f : Rtr → Rtr) : (updRtr s x f).lcs = s.lcs := rfl
@[simp] theorem updRtr_ntf (s : State) (x : Nat) (f : Rtr → Rtr) : (updRtr s x f).ntf = s.ntf := rfl
@[simp] theorem updRtr_free (s : State) (x : Nat) (f : Rtr → Rtr) : (updRtr s x f).free = s.free := rfl
@[simp] theorem updRtr_pending (s : State) (x : Nat) (f : Rtr → Rtr) : (updRtr s x f).pending = s.pending := rfl

/-! A plane of a router changed. -/

@[simp] theorem updPlane_gen (s : State) (p : Plane) (x : Nat) (f : RtrPlane → RtrPlane) : (updPlane s p x f).gen = s.gen := rfl
@[simp] theorem updPlane_time (s : State) (p : Plane) (x : Nat) (f : RtrPlane → RtrPlane) : (updPlane s p x f).time = s.time := rfl
@[simp] theorem updPlane_regs (s : State) (p : Plane) (x : Nat) (f : RtrPlane → RtrPlane) : (updPlane s p x f).regs = s.regs := rfl
@[simp] theorem updPlane_pendT (s : State) (p : Plane) (x : Nat) (f : RtrPlane → RtrPlane) : (updPlane s p x f).pendT = s.pendT := rfl
@[simp] theorem updPlane_nis (s : State) (p : Plane) (x : Nat) (f : RtrPlane → RtrPlane) : (updPlane s p x f).nis = s.nis := rfl
@[simp] theorem updPlane_spans (s : State) (p : Plane) (x : Nat) (f : RtrPlane → RtrPlane) : (updPlane s p x f).spans = s.spans := rfl
@[simp] theorem updPlane_eng (s : State) (p : Plane) (x : Nat) (f : RtrPlane → RtrPlane) : (updPlane s p x f).eng = s.eng := rfl
@[simp] theorem updPlane_jrn (s : State) (p : Plane) (x : Nat) (f : RtrPlane → RtrPlane) : (updPlane s p x f).jrn = s.jrn := rfl
@[simp] theorem updPlane_img (s : State) (p : Plane) (x : Nat) (f : RtrPlane → RtrPlane) : (updPlane s p x f).img = s.img := rfl
@[simp] theorem updPlane_pwr (s : State) (p : Plane) (x : Nat) (f : RtrPlane → RtrPlane) : (updPlane s p x f).pwr = s.pwr := rfl
@[simp] theorem updPlane_rst (s : State) (p : Plane) (x : Nat) (f : RtrPlane → RtrPlane) : (updPlane s p x f).rst = s.rst := rfl
@[simp] theorem updPlane_flt (s : State) (p : Plane) (x : Nat) (f : RtrPlane → RtrPlane) : (updPlane s p x f).flt = s.flt := rfl
@[simp] theorem updPlane_mmx (s : State) (p : Plane) (x : Nat) (f : RtrPlane → RtrPlane) : (updPlane s p x f).mmx = s.mmx := rfl
@[simp] theorem updPlane_cnt (s : State) (p : Plane) (x : Nat) (f : RtrPlane → RtrPlane) : (updPlane s p x f).cnt = s.cnt := rfl
@[simp] theorem updPlane_lcs (s : State) (p : Plane) (x : Nat) (f : RtrPlane → RtrPlane) : (updPlane s p x f).lcs = s.lcs := rfl
@[simp] theorem updPlane_ntf (s : State) (p : Plane) (x : Nat) (f : RtrPlane → RtrPlane) : (updPlane s p x f).ntf = s.ntf := rfl
@[simp] theorem updPlane_free (s : State) (p : Plane) (x : Nat) (f : RtrPlane → RtrPlane) : (updPlane s p x f).free = s.free := rfl
@[simp] theorem updPlane_pending (s : State) (p : Plane) (x : Nat) (f : RtrPlane → RtrPlane) : (updPlane s p x f).pending = s.pending := rfl

/-! A span port changed. -/

@[simp] theorem updSpan_gen (s : State) (p : Nat) (f : Span → Span) : (updSpan s p f).gen = s.gen := rfl
@[simp] theorem updSpan_time (s : State) (p : Nat) (f : Span → Span) : (updSpan s p f).time = s.time := rfl
@[simp] theorem updSpan_regs (s : State) (p : Nat) (f : Span → Span) : (updSpan s p f).regs = s.regs := rfl
@[simp] theorem updSpan_pendT (s : State) (p : Nat) (f : Span → Span) : (updSpan s p f).pendT = s.pendT := rfl
@[simp] theorem updSpan_nis (s : State) (p : Nat) (f : Span → Span) : (updSpan s p f).nis = s.nis := rfl
@[simp] theorem updSpan_rtrs (s : State) (p : Nat) (f : Span → Span) : (updSpan s p f).rtrs = s.rtrs := rfl
@[simp] theorem updSpan_eng (s : State) (p : Nat) (f : Span → Span) : (updSpan s p f).eng = s.eng := rfl
@[simp] theorem updSpan_jrn (s : State) (p : Nat) (f : Span → Span) : (updSpan s p f).jrn = s.jrn := rfl
@[simp] theorem updSpan_img (s : State) (p : Nat) (f : Span → Span) : (updSpan s p f).img = s.img := rfl
@[simp] theorem updSpan_pwr (s : State) (p : Nat) (f : Span → Span) : (updSpan s p f).pwr = s.pwr := rfl
@[simp] theorem updSpan_rst (s : State) (p : Nat) (f : Span → Span) : (updSpan s p f).rst = s.rst := rfl
@[simp] theorem updSpan_flt (s : State) (p : Nat) (f : Span → Span) : (updSpan s p f).flt = s.flt := rfl
@[simp] theorem updSpan_mmx (s : State) (p : Nat) (f : Span → Span) : (updSpan s p f).mmx = s.mmx := rfl
@[simp] theorem updSpan_cnt (s : State) (p : Nat) (f : Span → Span) : (updSpan s p f).cnt = s.cnt := rfl
@[simp] theorem updSpan_lcs (s : State) (p : Nat) (f : Span → Span) : (updSpan s p f).lcs = s.lcs := rfl
@[simp] theorem updSpan_ntf (s : State) (p : Nat) (f : Span → Span) : (updSpan s p f).ntf = s.ntf := rfl
@[simp] theorem updSpan_free (s : State) (p : Nat) (f : Span → Span) : (updSpan s p f).free = s.free := rfl
@[simp] theorem updSpan_pending (s : State) (p : Nat) (f : Span → Span) : (updSpan s p f).pending = s.pending := rfl

/-! An engine slot changed. -/

@[simp] theorem updSlot_gen (s : State) (k : Nat) (f : EngSlot → EngSlot) : (updSlot s k f).gen = s.gen := rfl
@[simp] theorem updSlot_time (s : State) (k : Nat) (f : EngSlot → EngSlot) : (updSlot s k f).time = s.time := rfl
@[simp] theorem updSlot_regs (s : State) (k : Nat) (f : EngSlot → EngSlot) : (updSlot s k f).regs = s.regs := rfl
@[simp] theorem updSlot_pendT (s : State) (k : Nat) (f : EngSlot → EngSlot) : (updSlot s k f).pendT = s.pendT := rfl
@[simp] theorem updSlot_nis (s : State) (k : Nat) (f : EngSlot → EngSlot) : (updSlot s k f).nis = s.nis := rfl
@[simp] theorem updSlot_rtrs (s : State) (k : Nat) (f : EngSlot → EngSlot) : (updSlot s k f).rtrs = s.rtrs := rfl
@[simp] theorem updSlot_spans (s : State) (k : Nat) (f : EngSlot → EngSlot) : (updSlot s k f).spans = s.spans := rfl
@[simp] theorem updSlot_jrn (s : State) (k : Nat) (f : EngSlot → EngSlot) : (updSlot s k f).jrn = s.jrn := rfl
@[simp] theorem updSlot_img (s : State) (k : Nat) (f : EngSlot → EngSlot) : (updSlot s k f).img = s.img := rfl
@[simp] theorem updSlot_pwr (s : State) (k : Nat) (f : EngSlot → EngSlot) : (updSlot s k f).pwr = s.pwr := rfl
@[simp] theorem updSlot_rst (s : State) (k : Nat) (f : EngSlot → EngSlot) : (updSlot s k f).rst = s.rst := rfl
@[simp] theorem updSlot_flt (s : State) (k : Nat) (f : EngSlot → EngSlot) : (updSlot s k f).flt = s.flt := rfl
@[simp] theorem updSlot_mmx (s : State) (k : Nat) (f : EngSlot → EngSlot) : (updSlot s k f).mmx = s.mmx := rfl
@[simp] theorem updSlot_cnt (s : State) (k : Nat) (f : EngSlot → EngSlot) : (updSlot s k f).cnt = s.cnt := rfl
@[simp] theorem updSlot_lcs (s : State) (k : Nat) (f : EngSlot → EngSlot) : (updSlot s k f).lcs = s.lcs := rfl
@[simp] theorem updSlot_ntf (s : State) (k : Nat) (f : EngSlot → EngSlot) : (updSlot s k f).ntf = s.ntf := rfl
@[simp] theorem updSlot_free (s : State) (k : Nat) (f : EngSlot → EngSlot) : (updSlot s k f).free = s.free := rfl
@[simp] theorem updSlot_pending (s : State) (k : Nat) (f : EngSlot → EngSlot) : (updSlot s k f).pending = s.pending := rfl

/-! A ring changed. -/

@[simp] theorem updRing_gen (s : State) (q : Nat) (f : Ring → Ring) : (updRing s q f).gen = s.gen := rfl
@[simp] theorem updRing_time (s : State) (q : Nat) (f : Ring → Ring) : (updRing s q f).time = s.time := rfl
@[simp] theorem updRing_regs (s : State) (q : Nat) (f : Ring → Ring) : (updRing s q f).regs = s.regs := rfl
@[simp] theorem updRing_pendT (s : State) (q : Nat) (f : Ring → Ring) : (updRing s q f).pendT = s.pendT := rfl
@[simp] theorem updRing_nis (s : State) (q : Nat) (f : Ring → Ring) : (updRing s q f).nis = s.nis := rfl
@[simp] theorem updRing_rtrs (s : State) (q : Nat) (f : Ring → Ring) : (updRing s q f).rtrs = s.rtrs := rfl
@[simp] theorem updRing_spans (s : State) (q : Nat) (f : Ring → Ring) : (updRing s q f).spans = s.spans := rfl
@[simp] theorem updRing_jrn (s : State) (q : Nat) (f : Ring → Ring) : (updRing s q f).jrn = s.jrn := rfl
@[simp] theorem updRing_img (s : State) (q : Nat) (f : Ring → Ring) : (updRing s q f).img = s.img := rfl
@[simp] theorem updRing_pwr (s : State) (q : Nat) (f : Ring → Ring) : (updRing s q f).pwr = s.pwr := rfl
@[simp] theorem updRing_rst (s : State) (q : Nat) (f : Ring → Ring) : (updRing s q f).rst = s.rst := rfl
@[simp] theorem updRing_flt (s : State) (q : Nat) (f : Ring → Ring) : (updRing s q f).flt = s.flt := rfl
@[simp] theorem updRing_mmx (s : State) (q : Nat) (f : Ring → Ring) : (updRing s q f).mmx = s.mmx := rfl
@[simp] theorem updRing_cnt (s : State) (q : Nat) (f : Ring → Ring) : (updRing s q f).cnt = s.cnt := rfl
@[simp] theorem updRing_lcs (s : State) (q : Nat) (f : Ring → Ring) : (updRing s q f).lcs = s.lcs := rfl
@[simp] theorem updRing_ntf (s : State) (q : Nat) (f : Ring → Ring) : (updRing s q f).ntf = s.ntf := rfl
@[simp] theorem updRing_free (s : State) (q : Nat) (f : Ring → Ring) : (updRing s q f).free = s.free := rfl
@[simp] theorem updRing_pending (s : State) (q : Nat) (f : Ring → Ring) : (updRing s q f).pending = s.pending := rfl

/-! A command record changed. -/

@[simp] theorem updCmd_gen (s : State) (key : Nat) (f : Cmd → Cmd) : (updCmd s key f).gen = s.gen := rfl
@[simp] theorem updCmd_time (s : State) (key : Nat) (f : Cmd → Cmd) : (updCmd s key f).time = s.time := rfl
@[simp] theorem updCmd_regs (s : State) (key : Nat) (f : Cmd → Cmd) : (updCmd s key f).regs = s.regs := rfl
@[simp] theorem updCmd_pendT (s : State) (key : Nat) (f : Cmd → Cmd) : (updCmd s key f).pendT = s.pendT := rfl
@[simp] theorem updCmd_nis (s : State) (key : Nat) (f : Cmd → Cmd) : (updCmd s key f).nis = s.nis := rfl
@[simp] theorem updCmd_rtrs (s : State) (key : Nat) (f : Cmd → Cmd) : (updCmd s key f).rtrs = s.rtrs := rfl
@[simp] theorem updCmd_spans (s : State) (key : Nat) (f : Cmd → Cmd) : (updCmd s key f).spans = s.spans := rfl
@[simp] theorem updCmd_jrn (s : State) (key : Nat) (f : Cmd → Cmd) : (updCmd s key f).jrn = s.jrn := rfl
@[simp] theorem updCmd_img (s : State) (key : Nat) (f : Cmd → Cmd) : (updCmd s key f).img = s.img := rfl
@[simp] theorem updCmd_pwr (s : State) (key : Nat) (f : Cmd → Cmd) : (updCmd s key f).pwr = s.pwr := rfl
@[simp] theorem updCmd_rst (s : State) (key : Nat) (f : Cmd → Cmd) : (updCmd s key f).rst = s.rst := rfl
@[simp] theorem updCmd_flt (s : State) (key : Nat) (f : Cmd → Cmd) : (updCmd s key f).flt = s.flt := rfl
@[simp] theorem updCmd_mmx (s : State) (key : Nat) (f : Cmd → Cmd) : (updCmd s key f).mmx = s.mmx := rfl
@[simp] theorem updCmd_cnt (s : State) (key : Nat) (f : Cmd → Cmd) : (updCmd s key f).cnt = s.cnt := rfl
@[simp] theorem updCmd_lcs (s : State) (key : Nat) (f : Cmd → Cmd) : (updCmd s key f).lcs = s.lcs := rfl
@[simp] theorem updCmd_ntf (s : State) (key : Nat) (f : Cmd → Cmd) : (updCmd s key f).ntf = s.ntf := rfl
@[simp] theorem updCmd_free (s : State) (key : Nat) (f : Cmd → Cmd) : (updCmd s key f).free = s.free := rfl
@[simp] theorem updCmd_pending (s : State) (key : Nat) (f : Cmd → Cmd) : (updCmd s key f).pending = s.pending := rfl

/-! A target of the matrix changed. -/

@[simp] theorem updTgt_gen (s : State) (t : Nat) (f : MmTgt → MmTgt) : (updTgt s t f).gen = s.gen := rfl
@[simp] theorem updTgt_time (s : State) (t : Nat) (f : MmTgt → MmTgt) : (updTgt s t f).time = s.time := rfl
@[simp] theorem updTgt_regs (s : State) (t : Nat) (f : MmTgt → MmTgt) : (updTgt s t f).regs = s.regs := rfl
@[simp] theorem updTgt_pendT (s : State) (t : Nat) (f : MmTgt → MmTgt) : (updTgt s t f).pendT = s.pendT := rfl
@[simp] theorem updTgt_nis (s : State) (t : Nat) (f : MmTgt → MmTgt) : (updTgt s t f).nis = s.nis := rfl
@[simp] theorem updTgt_rtrs (s : State) (t : Nat) (f : MmTgt → MmTgt) : (updTgt s t f).rtrs = s.rtrs := rfl
@[simp] theorem updTgt_spans (s : State) (t : Nat) (f : MmTgt → MmTgt) : (updTgt s t f).spans = s.spans := rfl
@[simp] theorem updTgt_eng (s : State) (t : Nat) (f : MmTgt → MmTgt) : (updTgt s t f).eng = s.eng := rfl
@[simp] theorem updTgt_jrn (s : State) (t : Nat) (f : MmTgt → MmTgt) : (updTgt s t f).jrn = s.jrn := rfl
@[simp] theorem updTgt_img (s : State) (t : Nat) (f : MmTgt → MmTgt) : (updTgt s t f).img = s.img := rfl
@[simp] theorem updTgt_pwr (s : State) (t : Nat) (f : MmTgt → MmTgt) : (updTgt s t f).pwr = s.pwr := rfl
@[simp] theorem updTgt_rst (s : State) (t : Nat) (f : MmTgt → MmTgt) : (updTgt s t f).rst = s.rst := rfl
@[simp] theorem updTgt_flt (s : State) (t : Nat) (f : MmTgt → MmTgt) : (updTgt s t f).flt = s.flt := rfl
@[simp] theorem updTgt_cnt (s : State) (t : Nat) (f : MmTgt → MmTgt) : (updTgt s t f).cnt = s.cnt := rfl
@[simp] theorem updTgt_lcs (s : State) (t : Nat) (f : MmTgt → MmTgt) : (updTgt s t f).lcs = s.lcs := rfl
@[simp] theorem updTgt_ntf (s : State) (t : Nat) (f : MmTgt → MmTgt) : (updTgt s t f).ntf = s.ntf := rfl
@[simp] theorem updTgt_free (s : State) (t : Nat) (f : MmTgt → MmTgt) : (updTgt s t f).free = s.free := rfl
@[simp] theorem updTgt_pending (s : State) (t : Nat) (f : MmTgt → MmTgt) : (updTgt s t f).pending = s.pending := rfl

/-! An access of the matrix changed. -/

@[simp] theorem updAcc_gen (s : State) (id : Nat) (f : MmAcc → MmAcc) : (updAcc s id f).gen = s.gen := rfl
@[simp] theorem updAcc_time (s : State) (id : Nat) (f : MmAcc → MmAcc) : (updAcc s id f).time = s.time := rfl
@[simp] theorem updAcc_regs (s : State) (id : Nat) (f : MmAcc → MmAcc) : (updAcc s id f).regs = s.regs := rfl
@[simp] theorem updAcc_pendT (s : State) (id : Nat) (f : MmAcc → MmAcc) : (updAcc s id f).pendT = s.pendT := rfl
@[simp] theorem updAcc_nis (s : State) (id : Nat) (f : MmAcc → MmAcc) : (updAcc s id f).nis = s.nis := rfl
@[simp] theorem updAcc_rtrs (s : State) (id : Nat) (f : MmAcc → MmAcc) : (updAcc s id f).rtrs = s.rtrs := rfl
@[simp] theorem updAcc_spans (s : State) (id : Nat) (f : MmAcc → MmAcc) : (updAcc s id f).spans = s.spans := rfl
@[simp] theorem updAcc_eng (s : State) (id : Nat) (f : MmAcc → MmAcc) : (updAcc s id f).eng = s.eng := rfl
@[simp] theorem updAcc_jrn (s : State) (id : Nat) (f : MmAcc → MmAcc) : (updAcc s id f).jrn = s.jrn := rfl
@[simp] theorem updAcc_img (s : State) (id : Nat) (f : MmAcc → MmAcc) : (updAcc s id f).img = s.img := rfl
@[simp] theorem updAcc_pwr (s : State) (id : Nat) (f : MmAcc → MmAcc) : (updAcc s id f).pwr = s.pwr := rfl
@[simp] theorem updAcc_rst (s : State) (id : Nat) (f : MmAcc → MmAcc) : (updAcc s id f).rst = s.rst := rfl
@[simp] theorem updAcc_flt (s : State) (id : Nat) (f : MmAcc → MmAcc) : (updAcc s id f).flt = s.flt := rfl
@[simp] theorem updAcc_cnt (s : State) (id : Nat) (f : MmAcc → MmAcc) : (updAcc s id f).cnt = s.cnt := rfl
@[simp] theorem updAcc_lcs (s : State) (id : Nat) (f : MmAcc → MmAcc) : (updAcc s id f).lcs = s.lcs := rfl
@[simp] theorem updAcc_ntf (s : State) (id : Nat) (f : MmAcc → MmAcc) : (updAcc s id f).ntf = s.ntf := rfl
@[simp] theorem updAcc_free (s : State) (id : Nat) (f : MmAcc → MmAcc) : (updAcc s id f).free = s.free := rfl
@[simp] theorem updAcc_pending (s : State) (id : Nat) (f : MmAcc → MmAcc) : (updAcc s id f).pending = s.pending := rfl

/-! A free value taken. -/

@[simp] theorem takeFree_gen (s : State) : (takeFree s).2.gen = s.gen := rfl
@[simp] theorem takeFree_time (s : State) : (takeFree s).2.time = s.time := rfl
@[simp] theorem takeFree_regs (s : State) : (takeFree s).2.regs = s.regs := rfl
@[simp] theorem takeFree_pendT (s : State) : (takeFree s).2.pendT = s.pendT := rfl
@[simp] theorem takeFree_nis (s : State) : (takeFree s).2.nis = s.nis := rfl
@[simp] theorem takeFree_rtrs (s : State) : (takeFree s).2.rtrs = s.rtrs := rfl
@[simp] theorem takeFree_spans (s : State) : (takeFree s).2.spans = s.spans := rfl
@[simp] theorem takeFree_eng (s : State) : (takeFree s).2.eng = s.eng := rfl
@[simp] theorem takeFree_jrn (s : State) : (takeFree s).2.jrn = s.jrn := rfl
@[simp] theorem takeFree_img (s : State) : (takeFree s).2.img = s.img := rfl
@[simp] theorem takeFree_pwr (s : State) : (takeFree s).2.pwr = s.pwr := rfl
@[simp] theorem takeFree_rst (s : State) : (takeFree s).2.rst = s.rst := rfl
@[simp] theorem takeFree_flt (s : State) : (takeFree s).2.flt = s.flt := rfl
@[simp] theorem takeFree_mmx (s : State) : (takeFree s).2.mmx = s.mmx := rfl
@[simp] theorem takeFree_cnt (s : State) : (takeFree s).2.cnt = s.cnt := rfl
@[simp] theorem takeFree_lcs (s : State) : (takeFree s).2.lcs = s.lcs := rfl
@[simp] theorem takeFree_ntf (s : State) : (takeFree s).2.ntf = s.ntf := rfl
@[simp] theorem takeFree_pending (s : State) : (takeFree s).2.pending = s.pending := rfl
@[simp] theorem takeFree_free (s : State) : (takeFree s).2.free = s.free + 1 := rfl
@[simp] theorem takeFree_value (s : State) : (takeFree s).1 = Config.freeWord s.free := rfl

/-! The last record of a group kept. -/

@[simp] theorem keepLast_gen (u t : State) (g : Nat) : (keepLast u t g).gen = t.gen := rfl
@[simp] theorem keepLast_time (u t : State) (g : Nat) : (keepLast u t g).time = t.time := rfl
@[simp] theorem keepLast_regs (u t : State) (g : Nat) : (keepLast u t g).regs = t.regs := rfl
@[simp] theorem keepLast_pendT (u t : State) (g : Nat) : (keepLast u t g).pendT = t.pendT := rfl
@[simp] theorem keepLast_nis (u t : State) (g : Nat) : (keepLast u t g).nis = t.nis := rfl
@[simp] theorem keepLast_rtrs (u t : State) (g : Nat) : (keepLast u t g).rtrs = t.rtrs := rfl
@[simp] theorem keepLast_spans (u t : State) (g : Nat) : (keepLast u t g).spans = t.spans := rfl
@[simp] theorem keepLast_eng (u t : State) (g : Nat) : (keepLast u t g).eng = t.eng := rfl
@[simp] theorem keepLast_jrn (u t : State) (g : Nat) : (keepLast u t g).jrn = t.jrn := rfl
@[simp] theorem keepLast_img (u t : State) (g : Nat) : (keepLast u t g).img = t.img := rfl
@[simp] theorem keepLast_pwr (u t : State) (g : Nat) : (keepLast u t g).pwr = t.pwr := rfl
@[simp] theorem keepLast_rst (u t : State) (g : Nat) : (keepLast u t g).rst = t.rst := rfl
@[simp] theorem keepLast_flt (u t : State) (g : Nat) : (keepLast u t g).flt = t.flt := rfl
@[simp] theorem keepLast_mmx (u t : State) (g : Nat) : (keepLast u t g).mmx = t.mmx := rfl
@[simp] theorem keepLast_cnt (u t : State) (g : Nat) : (keepLast u t g).cnt = t.cnt := rfl
@[simp] theorem keepLast_lcs (u t : State) (g : Nat) : (keepLast u t g).lcs = t.lcs := rfl
@[simp] theorem keepLast_free (u t : State) (g : Nat) : (keepLast u t g).free = t.free := rfl
@[simp] theorem keepLast_pending (u t : State) (g : Nat) : (keepLast u t g).pending = t.pending := rfl

/-! A message that an NI makes waits. -/

@[simp] theorem waitOwn_gen (s : State) (n : Nat) (o : OwnMsg) : (waitOwn s n o).gen = s.gen := rfl
@[simp] theorem waitOwn_time (s : State) (n : Nat) (o : OwnMsg) : (waitOwn s n o).time = s.time := rfl
@[simp] theorem waitOwn_regs (s : State) (n : Nat) (o : OwnMsg) : (waitOwn s n o).regs = s.regs := rfl
@[simp] theorem waitOwn_pendT (s : State) (n : Nat) (o : OwnMsg) : (waitOwn s n o).pendT = s.pendT := rfl
@[simp] theorem waitOwn_rtrs (s : State) (n : Nat) (o : OwnMsg) : (waitOwn s n o).rtrs = s.rtrs := rfl
@[simp] theorem waitOwn_spans (s : State) (n : Nat) (o : OwnMsg) : (waitOwn s n o).spans = s.spans := rfl
@[simp] theorem waitOwn_eng (s : State) (n : Nat) (o : OwnMsg) : (waitOwn s n o).eng = s.eng := rfl
@[simp] theorem waitOwn_jrn (s : State) (n : Nat) (o : OwnMsg) : (waitOwn s n o).jrn = s.jrn := rfl
@[simp] theorem waitOwn_img (s : State) (n : Nat) (o : OwnMsg) : (waitOwn s n o).img = s.img := rfl
@[simp] theorem waitOwn_pwr (s : State) (n : Nat) (o : OwnMsg) : (waitOwn s n o).pwr = s.pwr := rfl
@[simp] theorem waitOwn_rst (s : State) (n : Nat) (o : OwnMsg) : (waitOwn s n o).rst = s.rst := rfl
@[simp] theorem waitOwn_flt (s : State) (n : Nat) (o : OwnMsg) : (waitOwn s n o).flt = s.flt := rfl
@[simp] theorem waitOwn_mmx (s : State) (n : Nat) (o : OwnMsg) : (waitOwn s n o).mmx = s.mmx := rfl
@[simp] theorem waitOwn_cnt (s : State) (n : Nat) (o : OwnMsg) : (waitOwn s n o).cnt = s.cnt := rfl
@[simp] theorem waitOwn_lcs (s : State) (n : Nat) (o : OwnMsg) : (waitOwn s n o).lcs = s.lcs := rfl
@[simp] theorem waitOwn_ntf (s : State) (n : Nat) (o : OwnMsg) : (waitOwn s n o).ntf = s.ntf := rfl
@[simp] theorem waitOwn_free (s : State) (n : Nat) (o : OwnMsg) : (waitOwn s n o).free = s.free := rfl
@[simp] theorem waitOwn_pending (s : State) (n : Nat) (o : OwnMsg) : (waitOwn s n o).pending = s.pending := rfl

/-! A receiving end changed. -/

/-- A receiving end lies in a router, an NI or a span port. -/
theorem updRx_only (s : State) (x port : Nat) (far : Bool) (f : LinkRx → LinkRx) :
    updRx s x port far f = { s with nis := (updRx s x port far f).nis, rtrs := (updRx s x port far f).rtrs, spans := (updRx s x port far f).spans } := by
  unfold updRx
  split
  · split
    · rfl
    · split <;> rfl
  · rfl

@[simp] theorem updRx_gen (s : State) (x port : Nat) (far : Bool) (f : LinkRx → LinkRx) : (updRx s x port far f).gen = s.gen := by rw [updRx_only]
@[simp] theorem updRx_time (s : State) (x port : Nat) (far : Bool) (f : LinkRx → LinkRx) : (updRx s x port far f).time = s.time := by rw [updRx_only]
@[simp] theorem updRx_regs (s : State) (x port : Nat) (far : Bool) (f : LinkRx → LinkRx) : (updRx s x port far f).regs = s.regs := by rw [updRx_only]
@[simp] theorem updRx_pendT (s : State) (x port : Nat) (far : Bool) (f : LinkRx → LinkRx) : (updRx s x port far f).pendT = s.pendT := by rw [updRx_only]
@[simp] theorem updRx_eng (s : State) (x port : Nat) (far : Bool) (f : LinkRx → LinkRx) : (updRx s x port far f).eng = s.eng := by rw [updRx_only]
@[simp] theorem updRx_jrn (s : State) (x port : Nat) (far : Bool) (f : LinkRx → LinkRx) : (updRx s x port far f).jrn = s.jrn := by rw [updRx_only]
@[simp] theorem updRx_img (s : State) (x port : Nat) (far : Bool) (f : LinkRx → LinkRx) : (updRx s x port far f).img = s.img := by rw [updRx_only]
@[simp] theorem updRx_pwr (s : State) (x port : Nat) (far : Bool) (f : LinkRx → LinkRx) : (updRx s x port far f).pwr = s.pwr := by rw [updRx_only]
@[simp] theorem updRx_rst (s : State) (x port : Nat) (far : Bool) (f : LinkRx → LinkRx) : (updRx s x port far f).rst = s.rst := by rw [updRx_only]
@[simp] theorem updRx_flt (s : State) (x port : Nat) (far : Bool) (f : LinkRx → LinkRx) : (updRx s x port far f).flt = s.flt := by rw [updRx_only]
@[simp] theorem updRx_mmx (s : State) (x port : Nat) (far : Bool) (f : LinkRx → LinkRx) : (updRx s x port far f).mmx = s.mmx := by rw [updRx_only]
@[simp] theorem updRx_cnt (s : State) (x port : Nat) (far : Bool) (f : LinkRx → LinkRx) : (updRx s x port far f).cnt = s.cnt := by rw [updRx_only]
@[simp] theorem updRx_lcs (s : State) (x port : Nat) (far : Bool) (f : LinkRx → LinkRx) : (updRx s x port far f).lcs = s.lcs := by rw [updRx_only]
@[simp] theorem updRx_ntf (s : State) (x port : Nat) (far : Bool) (f : LinkRx → LinkRx) : (updRx s x port far f).ntf = s.ntf := by rw [updRx_only]
@[simp] theorem updRx_free (s : State) (x port : Nat) (far : Bool) (f : LinkRx → LinkRx) : (updRx s x port far f).free = s.free := by rw [updRx_only]
@[simp] theorem updRx_pending (s : State) (x port : Nat) (far : Bool) (f : LinkRx → LinkRx) : (updRx s x port far f).pending = s.pending := by rw [updRx_only]

end Sys2Proof.Machine
end

