-- ==== Sys2Proof/WellFormed.lean ====
section
/-! DEFINITION. Commands whose operands name something that exists: the checks that the operands' widths do not make (log 27). -/

namespace Sys2Proof

/-- A NI with an endpoint port has a number below 120 (01, "Network interfaces"). -/
def NiId.isPort (n : NiId) : Bool := n.toNat < 120

/-- The ports of a router: four of the mesh, two express links and four attachments (05 Table 05.2). -/
def portOk (p : BitVec 4) : Bool := p.toNat < 10

/-- An output of a router: a port, or its own management logic (05 Table 05.2). -/
def outOk (p : BitVec 4) : Bool := p.toNat < 11

/-- A channel whose header may wait for the escape channel: the adaptive ones (05 Table 05.3). -/
def adaptiveCh (c : BitVec 4) : Bool := c.toNat = 5 || c.toNat = 6

/-- A local node number: a NI, a span port or a router (05 R99). -/
def nodeOk (n : BitVec 8) : Bool := n.toNat < 200

/-- A target of the management matrix (19 Table 19.2). -/
def targetOk (t : BitVec 4) : Bool := t.toNat < 15

/-- The operands of a command are in range. -/
def Instr.wf : Instr → Bool
  | .gateTick slacks => slacks.length ≤ 16
  | .ingressRequest n _ => n.isPort
  | .ingressDataBeat n _ _ _ _ _ => n.isPort
  | .ingressResponse n _ => n.isPort
  | .egressCreditReturn n _ _ _ _ _ => n.isPort
  | .egressMessageStart n _ => n.isPort
  | .fenceStrobe n _ _ _ _ => n.isPort
  | .fenceSatisfied n _ => n.isPort
  | .ntfRecordTaken n => n.isPort
  | .epResetRequest n => n.isPort
  | .epRstInEpChange n _ => n.isPort
  | .epRstReqEpFall n => n.isPort
  | .niRstInRaise n => n.isPort
  | .epUpRaise n => n.isPort
  | .rstStall n => n.isPort
  | .epClkLoss n => n.isPort
  | .routerFlitArrive _ _ port _ => portOk port
  | .routerFlitForward _ _ out _ => outOk out
  | .linkCreditReturn _ _ out _ => portOk out
  | .schussPass _ _ out _ _ _ => portOk out
  | .escWaitExpire _ _ port ch => portOk port && adaptiveCh ch
  | .mgRdReceive node => nodeOk node
  | .mgWrReceive node => nodeOk node
  | .mcCopyReplicate _ port => portOk port
  | .gatherAnswer _ port => portOk port
  | .wireSteer _ _ port _ => portOk port
  | .wireCountExpire _ _ port _ => portOk port
  | .engineFail e => e.toNat < 72
  | .mmGrant t => targetOk t
  | .mmBurstPiece t => targetOk t
  | .lockBreak t => targetOk t
  | .tickOutFall | .timStep _ | .timLock | .timSlew _ | .referenceLoss | .referenceStable | .ppsEdge | .ppsLost
  | .ppsOutRise | .ppsOutFall | .tsyncSend _ | .tsyncLost _ | .requestArriveAtTarget _ | .responseArriveAtRequester _
  | .answerListDequeue _ | .pisteLaunch _ _ | .messageStart _ _ | .attachmentPieceSend _ _ _ | .wheelBucketBegin _
  | .trackerTimeout _ _ | .pwDeadline _ _ | .mcQuarantineEnd _ _ | .drainComplete _ | .drainDeadline _
  | .etcFillAnswer _ | .etcFillTimeout _ _ _ | .etcFillResend _ _ _ | .etcInvalidate _ _ _ | .niEtcFlush _
  | .gatherExpire _ _ | .mcCopyAtMember _ | .memberTimeout _ _ | .notifyReceive _ | .ntfForward | .niSlcRst _ _
  | .sliceResetEnd _ _ | .linkFlitSend _ | .linkFlitReceive _ _ _ | .replayTimerExpire _ | .nakTimerExpire _ _
  | .spnRetrain _ | .phyDown _ | .peerRetrainRequest _ _ | .retrainDone _ _ | .retrainTimeout _ | .widthCapDrop _ _
  | .spnForceDown _ | .spanKeyExpire _ | .graceExpire _ | .phyUp _ | .spanPisteStage _ | .ringPiWrite _ _
  | .ringRciWrite _ _ | .ringFetch _ | .commandArrive _ | .sanitise _ | .copy _ | .verify _ | .move | .bind | .unbind
  | .share | .sliceReset | .admitFlow | .admitPeerSegment _ _ | .release | .telemetry _ | .groom _ | .fmIdentify
  | .fmBackgroundOperationStatus | .fmGetDcdInfo | .fmGetDcRegionExtentLists | .fmInitiateDcAdd
  | .fmInitiateDcRelease | .fmUnsupported | .jobComplete _ | .workSteal _ | .parkWake _ | .commandComplete _
  | .ringReset _ | .ringResume _ | .moveMirrorExpire _ _ | .extentOrphan _ | .journalAppend | .homeWriteAck _
  | .homeWriteRetry _ | .ebtRepairDone _ _ _ | .jrnRecover | .groomNow | .recoveryStart | .recoveryDone _ _
  | .homeWaitTimeout | .imgStart _ | .imgData _ _ | .imgAbort _ | .imageVerifyDone | .imagePrecheck | .epochRelease
  | .pwrSetLevel _ _ | .pwrCg _ _ | .pwrRet _ _ | .pwrOff _ _ | .pwrWake _ _ | .pwrPgood | .vrTimeout
  | .regionDrainDone | .regionDrainDeadline | .regionEntryDone | .regionWakeReady | .por | .coldResetAssert
  | .coldResetRelease | .coldInitDone | .glbRstCold _ | .glbRstWarm _ | .warmResetAssert | .warmQuiesceDone
  | .warmResetRelease | .glbRstNi _ _ _ | .routerHeartbeatLoss _ | .glbFltDecl _ _ | .rehomeDone | .glbFltRestore _ _
  | .routerBistDone _ | .rowRemap _ _ _ _ _ | .mmRequest _ _ _ _ _ _ | .mmWriteBeat _ _ _ | .cntSnapCtl _
  | .counterSnapshot | .snapshotDone | .cntThrCfg _ _ | .sltPrsntChange _ _ | .presenceDebounced _ | .moduleRemoval _
  | .slotPgoodRise _ | .rampTimeout _ | .slotFault _ _ | .slotPgoodDrop _ | .pgLost _ | .retryEnd _
  | .slotFeedChange _ _ | .mclr _ _ | .clear _ _ | .plock _ _ | .slotOff _ _ _ | .slotOn _ _ | .tokenStart _
  | .tokenData _ _ | .tokenAbort _ | .toProvision _ | .toField _ | .toReturn _ | .toScrap _ | .debugUnlock | .floor _
  | .keyProgram _ _ _ | .relock _ | .sessionExpire | .jtagInstruction _ | .testScanEnd _ | .registerWrite _ _ _ _
  | .rinkInResetRaise _ | .tokenRefusal => true

end Sys2Proof
end

