-- ==== Sys2Proof/Tests/Slice0.lean ====
section
/-! SUPPORT. Tests of the model. A `witness_` theorem shows, for the statement it is named after and the clause named behind, a concrete
state and operands that meet its hypotheses together; a `test_` theorem holds one step of a small state against the manual. -/

namespace Sys2Proof.Tests
open Sys2Proof Sys2Proof.Machine
set_option Elab.async false

/-- A state with these register words over the reset values. -/
def st (l : List (Nat × Word)) : State := { regs := l.foldl (fun m p => putWord m p.1 p.2) [] }
/-- The state with the time at n ns. -/
def atNs (n : Nat) (s : State) : State := { s with time := { s.time with t := BitVec.ofNat 96 (n <<< 32) } }
/-- The state with NI n as given. -/
def ni (n : Nat) (i : Ni) (s : State) : State := setNi s n i
/-- An NI whose port is up. -/
def upNi : Ni := { port := { up := true } }
/-- NI 0 with its port enabled, and slice 0 the active default slice. -/
def niWords : List (Nat × Word) := [(aNi 0 0, 5#64), (aNi 0 0x158, 0x40010#64), (aNi 0 0x200, 1#64)]


/-! Witnesses: time (02). -/

def tLocked : State := st [(aTim 0x40, 0x40#64)]
def tPps : State := st [(aTim 0, 2#64)]
def tIdle : State := atNs 1023 (st [])
def tHold : State := { st [] with time := { hold := true } }
def tPpsLost : State := atNs 2000000000 tPps
def tDue : State := { st [] with time := { t := BitVec.ofNat 96 (100000 <<< 32), ppsDue := true, ppsOut := true, tickOut := true, tickRise := 99992 } }

theorem witness_TimeIsLoadedUntilLockedAndSlewed_step :
    (bitOf (rd (st []) (aTim 64)) 6 = false) := by decide +kernel

theorem witness_TimeIsLoadedUntilLockedAndSlewed_refused :
    (bitOf (rd tLocked (aTim 64)) 6 = true) := by decide +kernel

theorem witness_TimeIsLoadedUntilLockedAndSlewed_slew :
    (bitOf (rd (st []) (aTim 0)) 1 = false) ∧ (isChild (st []) = false) := by decide +kernel

theorem witness_TimeIsLoadedUntilLockedAndSlewed_noSlew :
    (bitOf (rd tPps (aTim 0)) 1 = true ∨ isChild tPps = true) := by decide +kernel

theorem witness_IdleStepCountsOneNsPlusRate :
    (tIdle.pending = []) := by decide +kernel

theorem witness_ReferenceLossEntersHoldover_enters :
    ((st []).time.hold = false) := by decide +kernel

theorem witness_ReferenceLossEntersHoldover_again :
    (tHold.time.hold = true) := by decide +kernel

theorem witness_PpsEdgesAreJudgedAndOutputsPulse_lost :
    (ppsOn tPpsLost = true) ∧ (2000000000 ≤ nowNs tPpsLost - tPpsLost.time.ppsAccepted) := by decide +kernel

theorem witness_PpsEdgesAreJudgedAndOutputsPulse_rise :
    (tDue.time.ppsDue = true) := by decide +kernel

theorem witness_PpsEdgesAreJudgedAndOutputsPulse_fall :
    (tDue.time.ppsOut = true) ∧ (100000 ≤ subMod 64 (nowNs tDue) tDue.time.ppsRise) := by decide +kernel

theorem witness_PpsEdgesAreJudgedAndOutputsPulse_tickFall :
    (tDue.time.tickOut = true) ∧ (8 ≤ subMod 64 (nowNs tDue) tDue.time.tickRise) := by decide +kernel

/-! Witnesses: the endpoint port (03). -/

def fenceHdr : BitVec 128 := BitVec.ofNat 128 (0x7C <<< 121 ||| 3 <<< 108 ||| 7 <<< 76)
def wrHdr : BitVec 128 := BitVec.ofNat 128 (0x10 <<< 121 ||| 3 <<< 108 ||| 7 <<< 76 ||| 4096 <<< 63 ||| 0x1000)
def rdHdr : BitVec 128 := BitVec.ofNat 128 (0x01 <<< 121 ||| 3 <<< 108 ||| 7 <<< 76 ||| 4096 <<< 63 ||| 0x1000)
/-- A window of the page at 0x1000, direct to node 5 or pooled. -/
def winNi (fabase : BitVec 40) : Ni :=
  { upNi with dec := { windows := [(0, { kind := 1, target := 5, base := 1, slices := 1, limit := 1, fabase := fabase })] } }
def pUp : State := ni 0 upNi (st niWords)
def pDirect : State := ni 0 (winNi 0x4000000001#40) (st niWords)
def pPooled : State := ni 0 (winNi 1#40) (st (niWords ++ [(aNi 0 0x130, 0#64)]))
def pRst : State := ni 0 { upNi with slices := [(0, { rst := true })] } (st niWords)
def pNoSlice : State := ni 0 upNi (st [(aNi 0 0, 5#64), (aNi 0 0x118, 0xFFFFFFFF#64)])
def ones : Line := BitVec.allOnes 512
def rqX : Rx := ⟨.req 1, 2, 0, false, 60, 68⟩
def rsX : Rx := ⟨.rsp 1, 1, 0, false, 0, 0⟩
def pBeats : State :=
  ni 0 { reqs := [{ id := 1, beats := 2 }], port := { rqRx := [rqX], rsRx := [rsX] }, sched := { queues := [(0, { rsp := [{ id := 1, beats := 1 }] })] } } (st [])
def rspHdr : BitVec 128 := BitVec.ofNat 128 (0x28 <<< 121 ||| 9 <<< 108 ||| 5 <<< 86 ||| 64 <<< 73 ||| 6 <<< 69)
def g0 : Egr := { opc := 0x28, piste := true, data := [ones] }
def b0 : Egr := { opc := 0x28, data := [ones] }
def pOut : State := ni 0 { port := { up := true, ersG := [g0], ersHG := 1, ersDG := 1 } } (st [])
def pOutB : State := ni 0 { port := { up := true, ersB := [b0], ersHB := 1, ersDB := 1 } } (st [])
def pCred : State := ni 0 { port := { up := true, erqHG := 255, erqHB := 252, ersDG := 254, ersDB := 253 } } (st [])
def fence0 : Fence := ⟨0, false, 5, some 9, none⟩
def pFence : State := ni 0 { upNi with fences := [fence0], reqs := [{ id := 4, kind := .read }, { id := 5, kind := .write, posted := true }] } (st niWords)
/-- NI 0, enabled, with this port. -/
def portAt (p : Port) : State := atNs 1000000 (ni 0 { port := p } (st niWords))
def portRst : Port := { resetting := true, reqEp := true }
def portBoth : Port := { resetting := true, reqEp := true, inEp := true, inNi := true }

theorem witness_IngressRequestIsTakenOrHeldBack_fence :
    (0 < 16) ∧ (portOpen pUp 0 = true) ∧ (sliceOf? pUp 0 (ingHdr fenceHdr).pv (ingHdr fenceHdr).pasid = some 0) ∧ (slcRst pUp 0 0 = false) ∧
    (errCodeOf pUp 0 (some 0) (ingHdr fenceHdr) = 0) ∧ ((ingHdr fenceHdr).cls = false) ∧ (beFull pUp 0 0 (ingHdr fenceHdr) = false) ∧
    (isTele pUp 0 (ingHdr fenceHdr) = false) ∧ (isPtm (ingHdr fenceHdr) = false) ∧
    (bitOf (rd pUp (aNi 0 304)) 0 = false ∨ (ingHdr fenceHdr).opc ≠ 1 ∧ (ingHdr fenceHdr).opc ≠ 2) := by decide +kernel

theorem witness_IngressRequestIsTakenOrHeldBack_write :
    (0 < 16) ∧ (portOpen pDirect 0 = true) ∧ (sliceOf? pDirect 0 (ingHdr wrHdr).pv (ingHdr wrHdr).pasid = some 0) ∧
    (slcRst pDirect 0 0 = false) ∧ (errCodeOf pDirect 0 (some 0) (ingHdr wrHdr) = 0) ∧ ((ingHdr wrHdr).cls = false) ∧
    (beFull pDirect 0 0 (ingHdr wrHdr) = false) ∧ (isTele pDirect 0 (ingHdr wrHdr) = false) ∧ (isPtm (ingHdr wrHdr) = false) ∧
    (bitOf (rd pDirect (aNi 0 304)) 0 = false ∨ (ingHdr wrHdr).opc ≠ 1 ∧ (ingHdr wrHdr).opc ≠ 2) := by decide +kernel

theorem witness_IngressRequestIsTakenOrHeldBack_read :
    (0 < 16) ∧ (portOpen pPooled 0 = true) ∧ (sliceOf? pPooled 0 (ingHdr rdHdr).pv (ingHdr rdHdr).pasid = some 0) ∧
    (slcRst pPooled 0 0 = false) ∧ (errCodeOf pPooled 0 (some 0) (ingHdr rdHdr) = 0) ∧ ((ingHdr rdHdr).cls = false) ∧
    (beFull pPooled 0 0 (ingHdr rdHdr) = false) ∧ (isTele pPooled 0 (ingHdr rdHdr) = false) ∧ (isPtm (ingHdr rdHdr) = false) ∧
    (bitOf (rd pPooled (aNi 0 304)) 0 = false ∨ (ingHdr rdHdr).opc ≠ 1 ∧ (ingHdr rdHdr).opc ≠ 2) := by decide +kernel

theorem witness_IngressRequestIsTakenOrHeldBack_held :
    (isEpNi pRst 0 = true) ∧ (bitOf (rd pRst (aNi 0 0)) 0 = true) ∧ (sliceOf? pRst 0 (ingHdr fenceHdr).pv (ingHdr fenceHdr).pasid = some 0) ∧
    (errCodeOf pRst 0 (some 0) (ingHdr fenceHdr) = 0) ∧ ((ingHdr fenceHdr).cls = false) ∧
    (portOpen pRst 0 = false ∨ slcRst pRst 0 0 = true ∨ beFull pRst 0 0 (ingHdr fenceHdr) = true) := by decide +kernel

theorem witness_IngressErrorIsTakenAndAnswered_read :
    (portOpen pUp 0 = true) ∧ (some 0 = sliceOf? pUp 0 (ingHdr rdHdr).pv (ingHdr rdHdr).pasid) ∧
    (∀ (k : ℕ), some 0 = some k → slcRst pUp 0 k = false) ∧ (1 = errCodeOf pUp 0 (some 0) (ingHdr rdHdr)) ∧ (1 ≠ 0) ∧
    (isPosted (ingHdr rdHdr).opc = true ∨ errCount (getNi pUp 0).port < 16) := by decide +kernel

theorem witness_IngressErrorIsTakenAndAnswered_write :
    (portOpen pNoSlice 0 = true) ∧ (none = sliceOf? pNoSlice 0 (ingHdr wrHdr).pv (ingHdr wrHdr).pasid) ∧
    (∀ (k : ℕ), none = some k → slcRst pNoSlice 0 k = false) ∧ (3 = errCodeOf pNoSlice 0 none (ingHdr wrHdr)) ∧ (3 ≠ 0) ∧
    (isPosted (ingHdr wrHdr).opc = true ∨ errCount (getNi pNoSlice 0).port < 16) := by decide +kernel

theorem witness_BeatsJoinAndResponsesAreForwarded_request :
    (isEpNi pBeats 0 = true) ∧ ((getNi pBeats 0).port.rqRx = [rqX]) ∧ (rqX.dest = RxDest.req 1) ∧ (rqX.piste = false) ∧
    (17293822569102704640#64 = beatEnables rqX.start rqX.nbytes rqX.idx) := by decide +kernel

theorem witness_BeatsJoinAndResponsesAreForwarded_response :
    (isEpNi pBeats 0 = true) ∧ ((getNi pBeats 0).port.rsRx = [rsX]) ∧ (rsX.dest = RxDest.rsp 1) := by decide +kernel

theorem witness_BeatsJoinAndResponsesAreForwarded_forward :
    (isEpNi pUp 0 = true) ∧ (bitOf (rd pUp (aNi 0 0)) 0 = true) ∧ ((getNi pUp 0).port.up = true) ∧ ((getNi pUp 0).inRst = false) ∧
    ((getNi pUp 0).region = 0) ∧ (ingressRspOp (ingRsp rspHdr).opc = true) ∧ (isBirsp (ingRsp rspHdr).opc = false) ∧
    ((ingRsp rspHdr).opc ≠ 105) ∧ ((ingRsp rspHdr).cls = false) ∧ (rspHalfFull (getNi pUp 0) = false) ∧ ((getNi pUp 0).mirrors = []) ∧
    (4 = if (ingRsp rspHdr).stat = 0 ∨ (ingRsp rspHdr).stat = 4 ∨ (ingRsp rspHdr).stat = 5 then (ingRsp rspHdr).stat else 4) := by decide +kernel

theorem witness_CreditsReturnAndEgressBegins_req :
    (isEpNi pCred 0 = true) ∧ ((getNi pCred 0).port.up = true) := by decide +kernel

theorem witness_CreditsReturnAndEgressBegins_G :
    (isEpNi pOut 0 = true) ∧ ((getNi pOut 0).port = (getNi pOut 0).port) ∧ ((getNi pOut 0).port.up = true) ∧
    ((getNi pOut 0).port.ersG.head? = some g0) ∧ (g0.piste = true) ∧ (1 ≤ (getNi pOut 0).port.ersHG) ∧
    (g0.data.length ≤ (getNi pOut 0).port.ersDG) := by decide +kernel

theorem witness_CreditsReturnAndEgressBegins_B :
    (isEpNi pOutB 0 = true) ∧ ((getNi pOutB 0).port = (getNi pOutB 0).port) ∧ ((getNi pOutB 0).port.up = true) ∧
    ((getNi pOutB 0).port.ersG = []) ∧ ((getNi pOutB 0).port.ersB.head? = some b0) ∧ (b0.piste = false) ∧ (1 ≤ (getNi pOutB 0).port.ersHB) ∧
    (b0.data.length ≤ (getNi pOutB 0).port.ersDB) := by decide +kernel

theorem witness_FenceStrobeOrdersAndCompletes_taken :
    (portOpen pUp 0 = true) ∧ ((List.filter (fun f => f.strobe.isSome) (getNi pUp 0).fences).length < 16) ∧
    (sliceOf? pUp 0 false 0 = some 0) ∧ (slcRst pUp 0 0 = false) := by decide +kernel

theorem witness_FenceStrobeOrdersAndCompletes_noSlice :
    (portOpen pNoSlice 0 = true) ∧ ((List.filter (fun f => f.strobe.isSome) (getNi pNoSlice 0).fences).length < 16) ∧
    (sliceOf? pNoSlice 0 false 0 = none) := by decide +kernel

theorem witness_FenceStrobeOrdersAndCompletes_done :
    (List.find? (fun g => g.slice == 0#4) (getNi pFence 0).fences = some fence0) ∧ (fence0.strobe = some 9#4) ∧ (slcRst pFence 0 0 = false) ∧
    (∀ r ∈ (getNi pFence 0).reqs, r.slice = 0#4 → r.id < fence0.after → r.kind ≠ ReqKind.other → fence0.rw = false ∧ r.posted = false) := by decide +kernel

theorem witness_ResetHandshakeRunsInOrder_request :
    (isEpNi (portAt { up := true }) 0 = true) ∧ (bitOf (rd (portAt { up := true }) (aNi 0 0)) 0 = true) ∧
    ((getNi (portAt { up := true }) 0).port = (getNi (portAt { up := true }) 0).port) ∧ ((getNi (portAt { up := true }) 0).members = []) := by decide +kernel

theorem witness_ResetHandshakeRunsInOrder_raise :
    (isEpNi (portAt portRst) 0 = true) ∧ (bitOf (rd (portAt portRst) (aNi 0 0)) 0 = true) ∧
    ((getNi (portAt portRst) 0).port = (getNi (portAt portRst) 0).port) ∧ ((getNi (portAt portRst) 0).port.resetting = true) ∧
    ((getNi (portAt portRst) 0).port.inNi = false) ∧ ((getNi (portAt portRst) 0).port.rqRx = []) ∧
    ((getNi (portAt portRst) 0).port.rsRx = []) ∧
    ((getNi (portAt portRst) 0).port.reqEp = true ∨ (getNi (portAt portRst) 0).port.reqNi = true) ∧
    ((getNi (portAt portRst) 0).port.inEp = false ∨ (getNi (portAt portRst) 0).port.reqEp = true) := by decide +kernel

theorem witness_ResetHandshakeRunsInOrder_fall :
    (isEpNi (portAt portBoth) 0 = true) ∧ (bitOf (rd (portAt portBoth) (aNi 0 0)) 0 = true) ∧
    ((getNi (portAt portBoth) 0).port = (getNi (portAt portBoth) 0).port) ∧ ((getNi (portAt portBoth) 0).port.inEp = true) ∧
    ((getNi (portAt portBoth) 0).port.inNi = true) ∧ ((getNi (portAt portBoth) 0).port.reqEp = true) ∧
    ((getNi (portAt portBoth) 0).port.reqNi = false) := by decide +kernel

theorem witness_ResetHandshakeRunsInOrder_inEp :
    (isEpNi (portAt { inEp := true }) 0 = true) ∧ (bitOf (rd (portAt { inEp := true }) (aNi 0 0)) 0 = true) ∧
    ((getNi (portAt { inEp := true }) 0).port = (getNi (portAt { inEp := true }) 0).port) ∧
    ((getNi (portAt { inEp := true }) 0).port.inNi = false) ∧ ((getNi (portAt { inEp := true }) 0).port.inEp = true) := by decide +kernel

theorem witness_ResetHandshakeRunsInOrder_up :
    (isEpNi (portAt { }) 0 = true) ∧ (bitOf (rd (portAt { }) (aNi 0 0)) 0 = true) ∧
    ((getNi (portAt { }) 0).port = (getNi (portAt { }) 0).port) ∧ ((getNi (portAt { }) 0).port.up = false) ∧
    ((getNi (portAt { }) 0).port.inEp = false) ∧ ((getNi (portAt { }) 0).port.inNi = false) ∧ ((getNi (portAt { }) 0).port.reqEp = false) ∧
    ((getNi (portAt { }) 0).port.reqNi = false) ∧ ((getNi (portAt { }) 0).region = 0) ∧ ((portAt { }).rst.warm = 0) ∧
    ((portAt { }).rst.inCold = false) := by decide +kernel

theorem witness_ResetHandshakeRunsInOrder_stall :
    (isEpNi (portAt portRst) 0 = true) ∧ (bitOf (rd (portAt portRst) (aNi 0 0)) 0 = true) ∧
    ((getNi (portAt portRst) 0).port = (getNi (portAt portRst) 0).port) ∧ ((getNi (portAt portRst) 0).port.resetting = true) ∧
    ((getNi (portAt portRst) 0).port.inEpSeen = false) ∧ ((getNi (portAt portRst) 0).port.reqNs + 1000000 ≤ nowNs (portAt portRst)) := by decide +kernel

/-! Witnesses: the mesh (05, 06, 10). Router 0 with its E port up; NI 2 on L0 of router 1. -/

def rtrWords : List (Nat × Word) :=
  [(aRtr 0 0x28, 0x3FF03FF#64), (aRtr 0 0x208, 0x80000004#64), (aRtr 0 0x400, 0xF000F0001002F000#64), (0xA000, 4#64), (0xE000, 0x80000000#64)]
def rtr0 (r : Rtr) : State := { st rtrWords with rtrs := [(0, r)] }
def mB : Msg := { dst := 2, src := 3, opc := 1, vcf := 2, tag := 9 }
def fB : Flit := { msg := mB, ch := 5 }
def fBad : Flit := { msg := { mB with cls := 1 }, ch := 5 }
def fG : Flit := { msg := { mB with cls := 1, vcf := 0 } }
def fMc : Flit := { msg := { dst := 0, src := 3, opc := 0x30, cls := 2, vcf := 4, tag := 9 }, ch := 7 }
def fGa : Flit := { msg := { dst := 3, src := 5, opc := 0x41, cls := 2, vcf := 4, tag := 9, addr := rspAddr 1 255 }, ch := 7 }
/-- Two flipped wires of the header. -/
def errHdr : FlitErr := ⟨3, 0⟩
def xArr : State := rtr0 { req := { link := [(1, [fB])] } }
def xBad : State := rtr0 { req := { link := [(6, [fBad])] } }
def xFwd : State := rtr0 { req := { buf := [(101, [fB])] } }
def xCred : State := rtr0 { req := { credits := [(21, 0)] } }
def crdWord : BitVec 16 := BitVec.ofNat 16 (0x560 <<< 5 ||| ctlCheck 0x560)
def pre0 : Preset := { out := 1, inp := 6 }
def xSch : State := rtr0 { presets := [pre0], req := { schn := [(6, true)], link := [(6, [fG])] } }
def xSchNo : State := rtr0 { presets := [pre0] }
def xMc : State := rtr0 { req := { buf := [(103, [fMc])] } }
def xMcFull : State := rtr0 { req := { buf := [(103, [fMc])] }, gather := (List.range 256).map fun e => (e, {}) }
def gth0 : Gather := { orig := 3, tag := 9, parent := 1, child := 3, gcnt := 1 }
def gth1 : Gather := { gth0 with stat := 11 }
def xGa : State := rtr0 { rsp := { buf := [(7, [fGa])] }, gather := [(0, gth0)] }
/-- A due entry whose parent is behind the E port, and a copy whose one branch leaves there. -/
def gthDue : Gather := { gth1 with due := true }
def xGaDue : State := rtr0 { gather := [(0, gthDue)] }
def xBr : State := rtr0 { req := { buf := [(103, [fMc])], copies := [(6, (2, 0))] }, gather := [(0, gth0)] }
def xGaNo : State := rtr0 { rsp := { buf := [(7, [fGa])] }, gather := [(0, { gth0 with done := 1 })] }

theorem witness_HeaderFlitEntersItsBuffer_enters :
    (5 = fB.ch) ∧ (fB.chk = 0) ∧ (5 = 0 → mgetD (planeOf (getRtr xArr 0) Plane.req).schn 1 false = false) ∧ (isRtr xArr 0 = true) ∧ ((getRtr xArr 0).failed = false) ∧ (linkOf xArr 0 Plane.req 1 = [fB]) ∧
    ((bufOf (planeOf (getRtr xArr 0) Plane.req) 21).length < 4) ∧ (fB.idx = 0) ∧ (clsOk fB.msg = true) ∧ (fB.msg.len.toNat ≤ 64) := by decide +kernel

theorem witness_HeaderFlitEntersItsBuffer_discarded :
    (5 = fBad.ch) ∧ (fBad.chk = 0) ∧ (isRtr xBad 0 = true) ∧ ((getRtr xBad 0).failed = false) ∧ (linkOf xBad 0 Plane.req 6 = [fBad]) ∧
    ((bufOf (planeOf (getRtr xBad 0) Plane.req) 101).length < 4) ∧ (fBad.idx = 0) ∧ (clsOk fBad.msg = false) ∧ (fBad.msg.len.toNat ≤ 64) := by decide +kernel

theorem witness_HeaderFlitEntersItsBuffer_uncorrectable :
    (5 = fB.ch) ∧ (fB.chk = 0) ∧ (isRtr xArr 0 = true) ∧ ((getRtr xArr 0).failed = false) ∧ (linkOf xArr 0 Plane.req 1 = [fB]) ∧
    ((bufOf (planeOf (getRtr xArr 0) Plane.req) 21).length < 4) ∧ (fB.idx = 0) ∧ (errHdr.ctl = 0) ∧
    ((flitRx fB errHdr.flip).hdr = EccErr.uncorrectable) ∧ ((flitRx fB errHdr.flip).flit.idx = 0) ∧
    (ueRecent xArr (getRtr xArr 0).rx (linkKey Plane.req 1) + (flitRx fB errHdr.flip).ues.length + 1 < 4) := by decide +kernel

theorem witness_OutputForwardsRoundRobinWinner :
    ((getRtr xFwd 0).req = planeOf (getRtr xFwd 0) Plane.req) ∧ (isRtr xFwd 0 = true) ∧ ((getRtr xFwd 0).failed = false) ∧
    (discardSteps xFwd 0 Plane.req = xFwd) ∧ (presetAt xFwd 0 Plane.req 1 (fcNow xFwd) = none) ∧
    (portUp xFwd 0 Plane.req 1 = true) ∧ (neighbour xFwd 0 1 = some (1, 3)) ∧ ((getRtr xFwd 1).failed = false) ∧ (6 < 16) ∧
    (6 = (mgetD (getRtr xFwd 0).req.lastIn 1 15 + 1 + 6) % 16) ∧
    (∀ i < 6, inputPick xFwd 0 Plane.req 1 ((mgetD (getRtr xFwd 0).req.lastIn 1 15 + 1 + i) % 16) = none) ∧
    (inputPick xFwd 0 Plane.req 1 6 = some (5, 5)) ∧ (bufOf (getRtr xFwd 0).req (16 * 6 + 5) = [fB]) ∧ (5 ≠ 7) := by decide +kernel

theorem witness_CreditsReturnAndEscapeOpens_credits :
    (isRtr xCred 0 = true) ∧ ((getRtr xCred 0).failed = false) ∧ (1 < 10) ∧ (ctlDecode crdWord = (1376, EccErr.none)) ∧ (1 ≤ 4) ∧ (4 ≤ 4) ∧
    (5 ≤ 8) ∧ (outCredit (planeOf (getRtr xCred 0) Plane.req) 1 5 + 4 ≤ 4) := by decide +kernel

theorem witness_CreditsReturnAndEscapeOpens_escape :
    (101 = 16 * 6 + 5) ∧ (5#4 = 5 ∨ 5#4 = 6) ∧ (bufOf (planeOf (getRtr xFwd 0) Plane.req) 101 = [fB]) ∧ (fB.idx = 0) ∧ (fB.msg.cls = 0) ∧
    ({ } = mgetD (planeOf (getRtr xFwd 0) Plane.req).grant 101 { }) ∧ (({ } : Grant).out = 15) ∧ (({ } : Grant).discard = false) := by decide +kernel

theorem witness_SchussFlitPassesWithoutBuffer_passes :
    (isRtr xSch 0 = true) ∧ ((getRtr xSch 0).failed = false) ∧ (outTakes xSch 0 Plane.req 1 = true) ∧ (presetAt xSch 0 Plane.req 1 0 = some pre0) ∧
    (mgetD (planeOf (getRtr xSch 0) Plane.req).schn pre0.inp false = true) ∧
    ((takeFirst (linkOf xSch 0 Plane.req pre0.inp) fun f => f.ch == 0) = (some fG, [])) ∧ (fG.chk = 0) ∧
    (clsOk fG.msg = true ∧ fG.msg.len.toNat ≤ 64) ∧ (contDrops xSch 0 Plane.req pre0.inp fG = false) ∧ (portUp xSch 0 Plane.req 1 = true) ∧
    (neighbour xSch 0 1 = some (1, 3)) ∧ (1 ≠ 0) ∧ ((getRtr xSch 1).failed = false) := by decide +kernel

theorem witness_SchussFlitPassesWithoutBuffer_released :
    (isRtr xSchNo 0 = true) ∧ ((getRtr xSchNo 0).failed = false) ∧ (outTakes xSchNo 0 Plane.req 1 = true) ∧ (presetAt xSchNo 0 Plane.req 1 0 = some pre0) ∧
    (mgetD (planeOf (getRtr xSchNo 0) Plane.req).schn pre0.inp false = false) := by decide +kernel

theorem witness_MulticastIsReplicatedAndGathered_takes :
    (isRtr xMc 0 = true) ∧ ((getRtr xMc 0).failed = false) ∧ (mcWaiting (getRtr xMc 0).req 6 = true) ∧
    (bufOf (getRtr xMc 0).req (16 * 6 + 7) = [fMc]) ∧ (fMc.msg.ep.toNat = rtrEp xMc 0) ∧ (freeGather xMc 0 = some 0) ∧
    (List.length (getRtr xMc 0).gather < 255) ∧ (mcChild xMc 0 fMc.msg ≠ 0) := by decide +kernel

theorem witness_MulticastIsReplicatedAndGathered_waits :
    (isRtr xMcFull 0 = true) ∧ ((getRtr xMcFull 0).failed = false) ∧ (mcWaiting (getRtr xMcFull 0).req 6 = true) ∧
    (bufOf (getRtr xMcFull 0).req (16 * 6 + 7) = [fMc]) ∧ (fMc.msg.ep.toNat = rtrEp xMcFull 0) ∧ (freeGather xMcFull 0 = none) := by decide +kernel

theorem witness_MulticastIsReplicatedAndGathered_merges :
    (isRtr xGa 0 = true) ∧ ((getRtr xGa 0).failed = false) ∧ (bufOf (getRtr xGa 0).rsp 7 = [fGa]) ∧
    (List.find? (fun q => q.2.orig == fGa.msg.dst && q.2.tag == fGa.msg.tag && q.2.child.getLsbD 0 && !q.2.done.getLsbD 0 && !q.2.due) (getRtr xGa 0).gather = some (0, gth0)) := by decide +kernel

theorem witness_MulticastIsReplicatedAndGathered_strays :
    (isRtr xGaNo 0 = true) ∧ ((getRtr xGaNo 0).failed = false) ∧ (bufOf (getRtr xGaNo 0).rsp 7 = [fGa]) ∧
    (∀ q ∈ (getRtr xGaNo 0).gather, ¬(q.2.orig = fGa.msg.dst ∧ q.2.tag = fGa.msg.tag ∧ q.2.child.getLsbD 0 = true ∧ q.2.done.getLsbD 0 = false ∧ q.2.due = false)) := by decide +kernel

theorem witness_MulticastIsReplicatedAndGathered_expires :
    (mget (getRtr xGa 0).gather 0 = some gth0) ∧ (frameGe (frameOf xGa) gth0.deadline = true) ∧ (gth0.due = false) := by decide +kernel

theorem witness_MulticastIsReplicatedAndGathered_leaves :
    (isRtr xGaDue 0 = true) ∧ ((getRtr xGaDue 0).failed = false) ∧ (discardSteps xGaDue 0 Plane.rsp = xGaDue) ∧
    (presetAt xGaDue 0 Plane.rsp 1 (fcNow xGaDue) = none) ∧ (portUp xGaDue 0 Plane.rsp 1 = true) ∧ (neighbour xGaDue 0 1 = some (1, 3)) ∧
    ((getRtr xGaDue 1).failed = false) ∧ (readyInputs xGaDue 0 Plane.rsp 1 = [(10, 7, 7)]) ∧ (gatherDue xGaDue 0 1 = some 0) ∧
    (mget (getRtr xGaDue 0).gather 0 = some gthDue) := by decide +kernel

theorem witness_MulticastIsReplicatedAndGathered_branch :
    (isRtr xBr 0 = true) ∧ ((getRtr xBr 0).failed = false) ∧ (discardSteps xBr 0 Plane.req = xBr) ∧
    (presetAt xBr 0 Plane.req 1 (fcNow xBr) = none) ∧ (portUp xBr 0 Plane.req 1 = true) ∧ (neighbour xBr 0 1 = some (1, 3)) ∧
    ((getRtr xBr 1).failed = false) ∧ (readyInputs xBr 0 Plane.req 1 = [(6, 7, 7)]) ∧ (branchFlit (getRtr xBr 0).req 6 1 = some fMc) ∧
    (0 = (mgetD (getRtr xBr 0).req.copies 6 (0, 0)).1 - 2 ^ 1) := by decide +kernel

/-! Witnesses: the network interfaces (04, 06 to 11, 23). NI 0, its primary attachment L0 of router 0; all tags lifted for row 48. -/

def nWords : List (Nat × Word) :=
  niWords ++ [(aRtr 0 0x200, 0x80000000#64), (lptAddr 0 48, 0xFFFFFFFFFFFFFFFF#64), (lptAddr 0 48 + 8, 0x1F#64)]
/-- NI 0 as given, in the words above, at 2 s. -/
def nAt (i : Ni) : State := atNs 2000000000 (ni 0 i (st nWords))
def mWr : Msg := sealMsg { dst := 0, src := 3, opc := 0x10, vcf := 2, tag := 9, len := 1, addr := 64, data := [ones] }
def mWr2 : Msg := { mWr with dst := 2 }
def tRow : TbtRow := { tag := 5, gen := 0, dpa := 7 }
def nTgt : State := nAt { upNi with inReq := [(mWr, false)], dec := { tbt := [(0, tRow)] } }
def nMiss : State := nAt { upNi with inReq := [(mWr, false)], answers := List.replicate 15 { msg := mWr } }
def nDeny : State := ni 0 { upNi with inReq := [(mWr, false)], dec := { tbt := [(0, tRow)] } } (st niWords)
def mPi : Msg := sealMsg { dst := 120, src := 3, opc := 0x71, cls := 3, vcf := 5, tag := 9, len := 1, nbytes := 4, addr := 0x8000000080000#52, data := [5] }
def mSvc : Msg := sealMsg { mWr with dst := 120, addr := 0x8000000080000#52 }
/-- NI 120, the service NI of rink 0, every tag lifted there. -/
def nSvc (m : Msg) : State :=
  ni 120 { inReq := [(m, false)] } (st [(lptAddr 120 48, 0xFFFFFFFFFFFFFFFF#64), (lptAddr 120 48 + 8, 0x1F#64)])
def mOk : Msg := sealMsg { dst := 0, src := 3, opc := 0x28, vcf := 2, tag := 5, nbytes := 64, len := 1, data := [ones] }
def mErr : Msg := sealMsg { dst := 0, src := 3, opc := 0x20, vcf := 2, tag := 5, addr := rspAddr 1 0 }
def trk5 : Trk := { reqId := 7, epTag := 3, opc := 1, deadline := some 2000000000 }
def nRsp (m : Msg) : State := nAt { upNi with inRsp := [(m, true)], trk := [(5, trk5)], reqs := [{ id := 7, issued := true, tag := some 5 }] }
def nStale : State := nAt { upNi with inRsp := [(mOk, true)], slices := [(0, { gen := 255 })] }
def ans0 : Answer := { msg := mErr }
def stg0 : Staged := { frame := 1953125, slot := some 0, laidIn := 1953125, msg := { mWr with cls := 1, vcf := 0 } }
def stgLate : Staged := { stg0 with frame := 1953124 }
def nAns : State := nAt { answers := [ans0], pst := { staged := [stg0] }, sched := { queues := [(0, { rsp := List.replicate 15 {} })] } }
def nLate : State := nAt { pst := { staged := [stgLate] } }
def rWr : Req := { id := 4, kind := .write, posted := true, nbytes := 64, q := 3, msg := mWr2, pwEntries := 1 }
def nSch : State := nAt { reqs := [rWr], nextId := 5, sched := { queues := [(0, { rsp := [{ id := 3, msg := mOk }] }), (3, { reqIds := [4] })] } }
def uReq : State := wakes (roundEnd (countHold (askFills (fcBegin nSch 0 .req) 0) 0) 0 .req) 0 .req
def uRsp : State := wakes (roundEnd (fcBegin nSch 0 .rsp) 0 .rsp) 0 .rsp
def prg5 : Prog := ⟨List.replicate 5 { msg := mWr }, 5⟩
def prg6 : Prog := ⟨List.replicate 5 { msg := mWr }, 6⟩
def nProg : State := nAt { sched := { prog := [(attPl false .req, [prg5, prg5, prg6])], credits := [(attKey false .req 5, 0), (attKey false .req 6, 3)] } }
def nWheel : State := nAt { sched := { queues :=
  [(0, { wheel := some 1000000000, tElig := 512000000511 }), (1, { wheel := some 1000000001 }), (2, { wheel := some 0, tElig := 512 * 1000009000 })] } }
def trkMc : Trk := { trk5 with group := some 1 }
def trkPw : Trk := { trk5 with posted := true, hostAddr := 0xFFFFFFFFFFFFF }
def trkQ : Trk := { trk5 with hold := .mcQuarantine 2000000000 }
def nTrk (e : Trk) : State := nAt { trk := [(5, e)], reqs := [{ id := 7, issued := true }] }
def drn (d : Bool) : Drain := { active := true, discard := d, startNs := 1999934464 }
def nDrn : State := nAt { drain := { drn false with startNs := 1999934465 } }
def nDrnEnd (d : Bool) : State :=
  nAt { drain := drn d, trk := [(5, trkPw)], reqs := [{ id := 7, posted := true, issued := true }, { id := 8, posted := true }, { id := 9 }] }
def ebtLine : Line := BitVec.ofNat 512 (2 <<< 116 ||| 200 <<< 93 ||| 9 <<< 79)
def mFill : Msg := sealMsg { dst := 0, src := 120, opc := 0x7A, cls := 3, vcf := 5, tag := 2, len := 1, data := [ebtLine] }
def fil0 : Fill := { x := 0, sentNs := 0, tag := 2 }
def filR : Fill := { x := 0, resend := true, tag := 2 }
def rFill : Req := { id := 4, q := 3, tag := some 5, fill := some (0, 0), msg := { mErr with dst := 2, opc := 1 } }
def nFill : State := nAt { upNi with inRsp := [(mFill, false)], dec := { fills := [fil0] }, reqs := [rFill], trk := [(5, { trk5 with reqId := 4 })] }
def nResend : State := atNs 2000000000 (ni 0 { dec := { fills := [filR], etc := [(0, {}), (1, {})] } } (st [(aRtr 0 0x200, 0x80000000#64)]))
def nResendT : State := atNs 1024 nResend
def mSnp : Msg := sealMsg { dst := 0, src := 3, opc := 0x30, cls := 2, vcf := 4, tag := 9, addr := 4096 }
def winDec : Dec := (winNi 1#40).dec
def nSnp : State := nAt { upNi with inReq := [(mSnp, false)], dec := winDec }
def nSnpNo : State := nAt { upNi with inReq := [(mSnp, false)] }
def mem0 : Member := { orig := 3, tag := 9, deadline := some 1953125, opc := 0x30 }
def nMem : State := nAt { members := [(63, mem0)] }
def ntfLine : Line := BitVec.ofNat 512 (3 <<< 58 ||| 0x123)
def mNtf : Msg := sealMsg { dst := 0, src := 3, opc := 0x7B, cls := 2, vcf := 4, tag := 9, len := 1, data := [ntfLine] }
def nNtf : State := nAt { upNi with inReq := [(mNtf, false)], port := { up := true, ntfQ := List.replicate 15 0#64 } }
def nFwd : State := { st [(0x110, 0x8005#64), (aNi 120 0x200, 1#64)] with ntf := { fwdQ := [0x123#64] } }
def nSlc : State :=
  nAt { slices := [(0, { gen := 255 }), (1, { rst := true, rstEnd := 2000000000 })], trk := [(5, trk5), (6, { trk5 with slice := 1 })], reqs := [{ id := 7 }, { id := 8, slice := 1 }], fences := [⟨1, true, 5, some 9, none⟩] }
def slc1 : Slice := { rst := true, rstEnd := 2000000000 }

theorem witness_RequestIsJudgedAtItsTarget_presented :
    ((getNi nTgt 0).answers.length < 16) ∧
    ((takeFirst (getNi nTgt 0).inReq fun q => targetMsg q.1 && !moveHolds nTgt 0 q.1) = (some (mWr, false), [])) ∧
    (clsOk mWr = true) ∧ (mWr.taint = false) ∧ (msgCrc mWr = mWr.crc) ∧ (niDown nTgt 0 = false) ∧ (isBisnp mWr.opc.toNat = false) ∧
    (∀ (j : ℕ), mWr.cls = 1 → twinKey nTgt mWr = some j → twinPasses (mget (getNi nTgt 0).pst.twins j) mWr = true) ∧
    (targetDecide nTgt 0 mWr = TgtDec.present (7 * 2 ^ 27 + 64) (some (0, tRow))) := 
  ⟨by decide +kernel, by decide +kernel, by decide +kernel, by decide +kernel, by decide +kernel, by decide +kernel, by decide +kernel, fun _ h => absurd h (by decide), by decide +kernel⟩

theorem witness_RequestIsJudgedAtItsTarget_missed :
    ((getNi nMiss 0).answers.length < 16) ∧
    ((takeFirst (getNi nMiss 0).inReq fun q => targetMsg q.1 && !moveHolds nMiss 0 q.1) = (some (mWr, false), [])) ∧
    (clsOk mWr = true) ∧ (mWr.taint = false) ∧ (msgCrc mWr = mWr.crc) ∧ (niDown nMiss 0 = false) ∧ (isBisnp mWr.opc.toNat = false) ∧
    (∀ (j : ℕ), mWr.cls = 1 → twinKey nMiss mWr = some j → twinPasses (mget (getNi nMiss 0).pst.twins j) mWr = true) ∧
    (targetDecide nMiss 0 mWr = TgtDec.decodeErr true) := 
  ⟨by decide +kernel, by decide +kernel, by decide +kernel, by decide +kernel, by decide +kernel, by decide +kernel, by decide +kernel, fun _ h => absurd h (by decide), by decide +kernel⟩

theorem witness_RequestIsJudgedAtItsTarget_denied :
    ((getNi nDeny 0).answers.length < 16) ∧
    ((takeFirst (getNi nDeny 0).inReq fun q => targetMsg q.1 && !moveHolds nDeny 0 q.1) = (some (mWr, false), [])) ∧
    (clsOk mWr = true) ∧ (mWr.taint = false) ∧ (msgCrc mWr = mWr.crc) ∧ (niDown nDeny 0 = false) ∧ (isBisnp mWr.opc.toNat = false) ∧
    (∀ (j : ℕ), mWr.cls = 1 → twinKey nDeny mWr = some j → twinPasses (mget (getNi nDeny 0).pst.twins j) mWr = true) ∧
    (targetDecide nDeny 0 mWr = TgtDec.denied 1) := 
  ⟨by decide +kernel, by decide +kernel, by decide +kernel, by decide +kernel, by decide +kernel, by decide +kernel, by decide +kernel, fun _ h => absurd h (by decide), by decide +kernel⟩

theorem witness_RequestIsJudgedAtItsTarget_ringIndex :
    ((getNi (nSvc mPi) 120).answers.length < 16) ∧
    ((takeFirst (getNi (nSvc mPi) 120).inReq fun q => targetMsg q.1 && !moveHolds (nSvc mPi) 120 q.1) = (some (mPi, false), [])) ∧
    (clsOk mPi = true) ∧ (mPi.taint = false) ∧ (msgCrc mPi = mPi.crc) ∧ (niDown (nSvc mPi) 120 = false) ∧ (isBisnp mPi.opc.toNat = false) ∧
    (∀ (j : ℕ), mPi.cls = 1 → twinKey (nSvc mPi) mPi = some j → twinPasses (mget (getNi (nSvc mPi) 120).pst.twins j) mPi = true) ∧
    (targetDecide (nSvc mPi) 120 mPi = TgtDec.present 0x80000 none) ∧ (isSvcNi (nSvc mPi) 120 = true) ∧
    (mPi.opc = 0x71) ∧ (mPi.nbytes = 4) ∧ (120 + 0 % nRinks (nSvc mPi) = 120) ∧ ((nSvc mPi).gen.eng = true) ∧
    ((getRing (nSvc mPi) 0).resetNs ≠ some (nowNs (nSvc mPi))) :=
  ⟨by decide +kernel, by decide +kernel, by decide +kernel, by decide +kernel, by decide +kernel, by decide +kernel, by decide +kernel, fun _ h => absurd h (by decide), by decide +kernel, by decide +kernel, by decide +kernel, by decide +kernel, by decide +kernel, by decide +kernel, by decide +kernel⟩

theorem witness_RequestIsJudgedAtItsTarget_noDevice :
    ((getNi (nSvc mSvc) 120).answers.length < 16) ∧
    ((takeFirst (getNi (nSvc mSvc) 120).inReq fun q => targetMsg q.1 && !moveHolds (nSvc mSvc) 120 q.1) = (some (mSvc, false), [])) ∧
    (clsOk mSvc = true) ∧ (mSvc.taint = false) ∧ (msgCrc mSvc = mSvc.crc) ∧ (niDown (nSvc mSvc) 120 = false) ∧ (isBisnp mSvc.opc.toNat = false) ∧
    (∀ (j : ℕ), mSvc.cls = 1 → twinKey (nSvc mSvc) mSvc = some j → twinPasses (mget (getNi (nSvc mSvc) 120).pst.twins j) mSvc = true) ∧
    (targetDecide (nSvc mSvc) 120 mSvc = TgtDec.present 0x80000 none) ∧ (isSvcNi (nSvc mSvc) 120 = true) ∧
    (mSvc.opc ≠ 0x71 ∨ mSvc.nbytes ≠ 4) :=
  ⟨by decide +kernel, by decide +kernel, by decide +kernel, by decide +kernel, by decide +kernel, by decide +kernel, by decide +kernel, fun _ h => absurd h (by decide), by decide +kernel, by decide +kernel, by decide +kernel⟩

theorem witness_ResponseCompletesItsRequest_data :
    ((takeFirst (getNi (nRsp mOk) 0).inRsp fun q => q.1.opc != 122) = (some (mOk, true), [])) ∧ (clsOk mOk = true) ∧ (mOk.taint = false) ∧
    (msgCrc mOk = mOk.crc) ∧ (niDown (nRsp mOk) 0 = false) ∧ (mOk.opc ≠ 105) ∧
    (∀ (j : ℕ), mOk.cls = 1 → twinKey (nRsp mOk) mOk = some j → twinPasses (mget (getNi (nRsp mOk) 0).pst.twins j) mOk = true) ∧
    (mOk.gen = slcGen (nRsp mOk) 0 mOk.slice.toNat) ∧ (mget (getNi (nRsp mOk) 0).trk (BitVec.toNat mOk.tag) = some trk5) ∧
    (trk5.slice = mOk.slice) ∧ (trk5.hold = TrkHold.live) ∧ (trk5.fwd = false) ∧ (trk5.posted = false) ∧ (trk5.group = none) ∧
    (trk5.slot = none) := 
  ⟨by decide +kernel, by decide +kernel, by decide +kernel, by decide +kernel, by decide +kernel, by decide +kernel, fun _ h => absurd h (by decide), by decide +kernel, by decide +kernel, by decide +kernel, by decide +kernel, by decide +kernel, by decide +kernel, by decide +kernel, by decide +kernel⟩

theorem witness_ResponseCompletesItsRequest_error :
    ((takeFirst (getNi (nRsp mErr) 0).inRsp fun q => q.1.opc != 122) = (some (mErr, true), [])) ∧ (clsOk mErr = true) ∧
    (mErr.taint = false) ∧ (msgCrc mErr = mErr.crc) ∧ (niDown (nRsp mErr) 0 = false) ∧ (mErr.opc ≠ 105) ∧
    (∀ (j : ℕ), mErr.cls = 1 → twinKey (nRsp mErr) mErr = some j → twinPasses (mget (getNi (nRsp mErr) 0).pst.twins j) mErr = true) ∧
    (mErr.gen = slcGen (nRsp mErr) 0 mErr.slice.toNat) ∧ (mget (getNi (nRsp mErr) 0).trk (BitVec.toNat mErr.tag) = some trk5) ∧
    (trk5.slice = mErr.slice) ∧ (trk5.hold = TrkHold.live) ∧ (trk5.fwd = false) ∧ (trk5.posted = false) ∧ (trk5.group = none) ∧
    (trk5.slot = none) := 
  ⟨by decide +kernel, by decide +kernel, by decide +kernel, by decide +kernel, by decide +kernel, by decide +kernel, fun _ h => absurd h (by decide), by decide +kernel, by decide +kernel, by decide +kernel, by decide +kernel, by decide +kernel, by decide +kernel, by decide +kernel, by decide +kernel⟩

theorem witness_ResponseCompletesItsRequest_stale :
    ((takeFirst (getNi nStale 0).inRsp fun q => q.1.opc != 122) = (some (mOk, true), [])) ∧ (clsOk mOk = true) ∧ (mOk.taint = false) ∧
    (msgCrc mOk = mOk.crc) ∧ (niDown nStale 0 = false) ∧ (mOk.opc ≠ 105) ∧
    (∀ (j : ℕ), mOk.cls = 1 → twinKey nStale mOk = some j → twinPasses (mget (getNi nStale 0).pst.twins j) mOk = true) ∧
    (mOk.gen ≠ slcGen nStale 0 mOk.slice.toNat ∨ mget (getNi nStale 0).trk (BitVec.toNat mOk.tag) = none) := 
  ⟨by decide +kernel, by decide +kernel, by decide +kernel, by decide +kernel, by decide +kernel, by decide +kernel, fun _ h => absurd h (by decide), by decide +kernel⟩

theorem witness_AnswersLeaveAndPisteLaunches_answer :
    ((getNi nAns 0).answers = [ans0]) ∧ (ans0.piste = false) ∧ (rspPlaces (getNi nAns 0) = false) ∧
    (∀ q ∈ (getNi nAns 0).members, q.2.due = none) := by decide +kernel

theorem witness_AnswersLeaveAndPisteLaunches_launch :
    (isNi nAns 0 = true) ∧ ((getNi nAns 0).region = 0) ∧ (nextLaunch nAns (srcEnt nAns 0) (getNi nAns 0).pst Plane.req = some stg0) ∧
    (false = if nAns.flt.caseR = some (attRtr (homeAt nAns 0 0) (seAlt (srcEnt nAns 0 stg0.ent))) then !seAlt (srcEnt nAns 0 stg0.ent) else seAlt (srcEnt nAns 0 stg0.ent)) ∧
    (launchOn nAns 0 false = true) ∧ (0 = attRtr (homeAt nAns 0 0) false) ∧ (6 = attPort (homeAt nAns 0 0) false) ∧ ((getRtr nAns 0).failed = false) ∧
    (stg0.frame = frameOf nAns) := by decide +kernel

theorem witness_AnswersLeaveAndPisteLaunches_late :
    (isNi nLate 0 = true) ∧ ((getNi nLate 0).region = 0) ∧ (nextLaunch nLate (srcEnt nLate 0) (getNi nLate 0).pst Plane.req = some stgLate) ∧
    (false = if nLate.flt.caseR = some (attRtr (homeAt nLate 0 0) (seAlt (srcEnt nLate 0 stgLate.ent))) then !seAlt (srcEnt nLate 0 stgLate.ent) else seAlt (srcEnt nLate 0 stgLate.ent)) ∧
    (launchOn nLate 0 false = true) ∧ (0 = attRtr (homeAt nLate 0 0) false) ∧ (6 = attPort (homeAt nLate 0 0) false) ∧ ((getRtr nLate 0).failed = false) ∧
    (stgLate.frame ≠ frameOf nLate) := by decide +kernel

theorem witness_SchedulerStartsPickedMessage_response :
    (isNi nSch 0 = true) ∧ ((getNi nSch 0).region = 0) ∧
    (uRsp = wakes (roundEnd (if Plane.rsp = Plane.req then countHold (askFills (fcBegin nSch 0 .rsp) 0) 0 else fcBegin nSch 0 .rsp) 0 Plane.rsp) 0 Plane.rsp) ∧
    (drrPick uRsp 0 Plane.rsp = some (0, mOk, false, 5)) ∧ (packable mOk = false) ∧ (headOf (getNi uRsp 0) Plane.rsp 0 = some (128, none)) := by decide +kernel

theorem witness_SchedulerStartsPickedMessage_request :
    (isNi nSch 0 = true) ∧ ((getNi nSch 0).region = 0) ∧
    (uReq = wakes (roundEnd (if Plane.req = Plane.req then countHold (askFills (fcBegin nSch 0 .req) 0) 0 else fcBegin nSch 0 .req) 0 Plane.req) 0 Plane.req) ∧
    (drrPick uReq 0 Plane.req = some (3, mWr2, false, 5)) ∧ (packable mWr2 = false) ∧
    (headOf (getNi uReq 0) Plane.req 3 = some (128, some 0)) := by decide +kernel

theorem witness_PiecesLeaveAsCreditsLast_piece :
    (startOwns nProg 0 Plane.req = nProg) ∧ (attUp (homeOf nProg 0) false = true) ∧ (0 = attRtr (homeOf nProg 0) false) ∧
    (6 = attPort (homeOf nProg 0) false) ∧ ((getRtr nProg 0).failed = false) ∧
    (([prg5, prg6], [prg5]) = splitProg (mgetD (getNi nProg 0).sched.prog (attPl false Plane.req) [])) ∧
    ([prg5, prg6].findIdx? (fun h => decide (1 ≤ niCredit (getNi nProg 0) false Plane.req h.ch)) = some 1) ∧ ([prg5, prg6][1]? = some prg6) ∧
    (3 = min 4 (min (niCredit (getNi nProg 0) false Plane.req prg6.ch) prg6.flits.length)) := by decide +kernel

theorem witness_DeadlinesEndRequests_timeout :
    (mget (getNi (nTrk trk5) 0).trk 5 = some trk5) ∧ (trk5.hold = TrkHold.live) ∧ (trk5.posted = false) ∧ (trk5.fwd = false) ∧
    (deadlineDue (nTrk trk5) trk5 = true) ∧ (trk5.slot = none) := by decide +kernel

theorem witness_DeadlinesEndRequests_multicast :
    (mget (getNi (nTrk trkMc) 0).trk 5 = some trkMc) ∧ (trkMc.hold = TrkHold.live) ∧ (trkMc.posted = false) ∧ (trkMc.fwd = false) ∧
    (deadlineDue (nTrk trkMc) trkMc = true) ∧ (trkMc.slot = none) := by decide +kernel

theorem witness_DeadlinesEndRequests_write :
    (mget (getNi (nTrk trkPw) 0).trk 5 = some trkPw) ∧ (trkPw.hold = TrkHold.live) ∧ (trkPw.posted = true) ∧
    (deadlineDue (nTrk trkPw) trkPw = true) ∧ (trkPw.slot = none) := by decide +kernel

theorem witness_DeadlinesEndRequests_quarantine :
    (mget (getNi (nTrk trkQ) 0).trk 5 = some trkQ) ∧ (trkQ.hold = TrkHold.mcQuarantine 2000000000) ∧ (2000000000 ≤ nowNs (nTrk trkQ)) := by decide +kernel

theorem witness_DrainEndsCompleteOrAtItsDeadline_complete :
    ((getNi nDrn 0).drain.active = true) ∧ (drained (getNi nDrn 0) = true) ∧
    (nowNs nDrn < (getNi nDrn 0).drain.startNs + 65536) := by decide +kernel

theorem witness_DrainEndsCompleteOrAtItsDeadline_deadline :
    (drn false = (getNi (nDrnEnd false) 0).drain) ∧ ((drn false).active = true) ∧
    ((drn false).startNs + 65536 ≤ nowNs (nDrnEnd false)) ∧ ((drn false).discard = false) := by decide +kernel

theorem witness_DrainEndsCompleteOrAtItsDeadline_discard :
    (drn true = (getNi (nDrnEnd true) 0).drain) ∧ ((drn true).active = true) ∧
    ((drn true).startNs + 65536 ≤ nowNs (nDrnEnd true)) ∧ ((drn true).discard = true) := by decide +kernel

theorem witness_ExtentTargetCacheFillsAndForgets_answer :
    ((takeFirst (getNi nFill 0).inRsp fun q => q.1.opc == 122) = (some (mFill, false), [])) ∧ (clsOk mFill = true) ∧ (mFill.taint = false) ∧
    (msgCrc mFill = mFill.crc) ∧ (fillAnswer mFill (getNi nFill 0) = some fil0) ∧ (fil0.dead = false) ∧ (fil0.stale = false) ∧ (msgStat mFill = 0) ∧
    (BitVec.extractLsb' 0 128 ebtLine = BitVec.extractLsb' 0 128 (mFill.data.headD 0)) ∧
    (fld (BitVec.extractLsb' 0 128 ebtLine) 119 116 = 1 ∨ fld (BitVec.extractLsb' 0 128 ebtLine) 119 116 = 2) := by decide +kernel

theorem witness_ExtentTargetCacheFillsAndForgets_timeout :
    (List.find? (fun f => f.inst == 0#4 && f.x == 0#19 && !f.dead) (getNi nFill 0).dec.fills = some fil0) ∧
    (fil0.sentNs + max 1 (rdF nFill (aNi 0 200) 15 0) * 1024 ≤ nowNs nFill) := by decide +kernel

theorem witness_ExtentTargetCacheFillsAndForgets_resend :
    (List.find? (fun f => f.inst == 0#4 && f.x == 0#19 && f.resend && !f.dead) (getNi nResendT 0).dec.fills = some filR) ∧ (atTick nResendT = true) := by decide +kernel

theorem witness_ExtentTargetCacheFillsAndForgets_invalidate :
    (isNi nResend 0 = true) := by decide +kernel

theorem witness_MembersAnswerAndNotificationsForward_presented :
    (freeMember (getNi nSnp 0) = some 0) ∧
    ((takeFirst (getNi nSnp 0).inReq fun q => q.1.cls == 2 && isBisnp q.1.opc.toNat) = (some (mSnp, false), [])) ∧
    ((getNi nSnp 0).answers.length < 16) ∧ (clsOk mSnp = true) ∧
    (mSnp.taint = false) ∧ (msgCrc mSnp = mSnp.crc) ∧ (snoopDecide nSnp 0 mSnp = SnpDec.present 4096) := by decide +kernel

theorem witness_MembersAnswerAndNotificationsForward_answered :
    (freeMember (getNi nSnpNo 0) = some 0) ∧
    ((takeFirst (getNi nSnpNo 0).inReq fun q => q.1.cls == 2 && isBisnp q.1.opc.toNat) = (some (mSnp, false), [])) ∧
    ((getNi nSnpNo 0).answers.length < 16) ∧ (clsOk mSnp = true) ∧
    (mSnp.taint = false) ∧ (msgCrc mSnp = mSnp.crc) ∧ (snoopDecide nSnpNo 0 mSnp = SnpDec.answer 1 none true) := by decide +kernel

theorem witness_MembersAnswerAndNotificationsForward_timeout :
    (mget (getNi nMem 0).members 63 = some mem0) ∧ (mem0.deadline = some 1953125) ∧ (frameGe (frameOf nMem) 1953125 = true) ∧
    (mem0.answered = false) ∧ (mem0.due = none) ∧ ((getNi nMem 0).answers.length < 16) := by decide +kernel

theorem witness_MembersAnswerAndNotificationsForward_notify :
    (isEpNi nNtf 0 = true) ∧ ((takeFirst (getNi nNtf 0).inReq fun q => q.1.opc == 123 && (q.1.cls != 2 || (freeMember (getNi nNtf 0)).isSome)) = (some (mNtf, false), [])) ∧
    ((getNi nNtf 0).answers.length < 16) ∧ (clsOk mNtf = true) ∧
    (mNtf.taint = false) ∧ (msgCrc mNtf = mNtf.crc) ∧ (niDown nNtf 0 = false) ∧ (mNtf.cls = 2) ∧
    (BitVec.extractLsb' 0 64 ntfLine = BitVec.extractLsb' 0 64 (mNtf.data.headD 0)) ∧ (bitOf (rd nNtf (aNi 0 0)) 2 = true) ∧
    (rdF nNtf (aNi 0 0) 9 8 ≤ fld (BitVec.extractLsb' 0 64 ntfLine) 59 58) ∧ ((getNi nNtf 0).port.ntfQ.length < 16) := by decide +kernel

theorem witness_MembersAnswerAndNotificationsForward_forward :
    (nFwd.ntf.fwdQ = [291#64]) ∧ (nFwd.ntf.fwdBusy = false) ∧ (reqFull (getNi nFwd 120) 10 = false) ∧ (trkRoom nFwd 120 0 = true) ∧
    ((getNi nFwd 120).inRst = false) ∧ (slcAct nFwd 120 0 = true) ∧ (slcRst nFwd 120 0 = false) := by decide +kernel

theorem witness_SliceResetRemovesOneSlice_begin :
    (isNi nSlc 0 = true) ∧ ((1#16).getLsbD 0 = true) ∧ (slcAct nSlc 0 0 = true) ∧ (slcRst nSlc 0 0 = false) := by decide +kernel

theorem witness_SliceResetRemovesOneSlice_others :
    (isNi nSlc 0 = true) ∧ ((1#16).getLsbD 15 = false ∨ slcAct nSlc 0 15 = false ∨ slcRst nSlc 0 15 = true) ∧
    (∀ w ∈ (getNi nSlc 0).reqs, w.slice.toNat ≠ 1 → w.id ≠ 8) := by decide +kernel

theorem witness_SliceResetRemovesOneSlice_end :
    (isNi nSlc 0 = true) ∧ (slc1 = getSlice (getNi nSlc 0) 1) ∧ (slc1.rst = true) ∧ (slc1.rstEnd ≤ nowNs nSlc) := by decide +kernel

/-! Witnesses: the span links (12). Port 0 at 2 s. -/

def spW : List (Nat × Word) := [(aSpn 0 8, 0x1#64)]
def spAt (w : List (Nat × Word)) (q : Span) : State := { atNs 2000000000 (st w) with spans := [(0, q)] }
def qRun : Span := { lstate := 2, phyUp := true, up := true }
def hld (d : Bool) : Held := { seq := 0, raw := plainLink 0 0, due := d, sentNs := 5 }
def spRep : State := spAt spW { qRun with replay := [hld true], txNext := 1 }
def spTx : SpanTx := { msg := mSnp, flits := taintFlits mSnp }
def spNew : State := spAt spW { qRun with waiting := [spTx] }
def spInit : State := spAt spW { lstate := 1, phyUp := true, ctlDue := [ctlWord 1 0] }
def spTim : State := spAt spW { qRun with replay := [hld false], txNext := 1 }
def rawBad : BitVec 2048 := plainLink 0 0
def rawOk : BitVec 2048 := stampLink {} (plainLink 0 0)
def spNak : State := spAt spW { qRun with nakSent := [(1, 0)], rob := [(2, rawOk)], rxNext := 1 }
def spRun : State := spAt spW qRun
def spRt : State := spAt spW { qRun with lstate := 3, rtStart := 1999996000 }
def spGrace : State := spAt spW { lstate := 4, graceEnd := 2000000000, waiting := [spTx] }
def spKeys : State := spAt spW { qRun with keys := [(3, 7, 1953110), (3, 6, 1953109)] }
def spOff : State := spAt spW {}
def spGup : State := spAt spW { lstate := 4, rxNext := 9 }
def mPst : Msg := { mWr with cls := 1, flow := 6 }
def spStg : State := spAt (spW ++ [(aSpn 0 0x400, 0x1A00#64)]) { qRun with staging := [(mPst, true)] }
def spStgLate : State := spAt (spW ++ [(aSpn 0 0x400, 0x1A00#64)]) { qRun with staging := [(mPst, false)] }
def spTs : State := { st [(0x10060, 0#64)] with img := { loaded := true }, spans := [(0, qRun)] }
def spLost : State := spAt [(aSpn 0 8, 0x101#64), (0x10060, 0#64)] qRun

theorem witness_SpanLinkCarriesInOrderAndReplays_replay :
    (isSpan spRep 0 = true) ∧ ((getSpan spRep 0).phyUp = true) ∧ ((getSpan spRep 0).lstate = 2) ∧
    (List.find? (fun x => x.due) (getSpan spRep 0).replay = some (hld true)) := by decide +kernel

theorem witness_SpanLinkCarriesInOrderAndReplays_new :
    (isSpan spNew 0 = true) ∧ ((getSpan spNew 0).phyUp = true) ∧ ((getSpan spNew 0).lstate = 2) ∧ ((getSpan spNew 0).replay = []) ∧
    ((fillSlots spNew 0).1 ≠ []) := by decide +kernel

theorem witness_SpanLinkCarriesInOrderAndReplays_init :
    (isSpan spInit 0 = true) ∧ ((getSpan spInit 0).phyUp = true) ∧ ((getSpan spInit 0).lstate = 1) ∧
    ((getSpan spInit 0).ctlDue = [ctlWord 1 0]) := by decide +kernel

theorem witness_SpanLinkCarriesInOrderAndReplays_bad :
    (isSpan spTim 0 = true) ∧ ((getSpan spTim 0).lstate ≠ 0) ∧ (false = true ∨ fld (linkTrl rawBad) 127 96 ≠ (linkCrc rawBad).toNat) := by decide +kernel

theorem witness_SpanLinkCarriesInOrderAndReplays_good :
    (isSpan spTim 0 = true) ∧ ((getSpan spTim 0).lstate = 2) ∧ (fld (linkTrl rawOk) 127 96 = (linkCrc rawOk).toNat) ∧
    (bitOf (linkTrl rawOk) 47 = false) ∧ (fld (linkTrl rawOk) 46 45 = 0) ∧ (fld (linkTrl rawOk) 95 80 = (getSpan spTim 0).rxNext.toNat) ∧
    ((getSpan spTim 0).rob = []) := by decide +kernel

theorem witness_SpanLinkCarriesInOrderAndReplays_timer :
    (isSpan spTim 0 = true) ∧ ((getSpan spTim 0).lstate = 2) ∧ ((getSpan spTim 0).replay = [hld false]) ∧
    (max (hld false).sentNs (getSpan spTim 0).lastNakNs + 4 * rdF spTim (aSpn 0 8) 36 29 ≤ nowNs spTim) ∧
    (∀ u, (hld false).passed = some u → u < max (hld false).sentNs (getSpan spTim 0).lastNakNs) ∧
    ((hld false).lastAct ≠ some (nowNs spTim)) ∧ ((hld false).rpl < 4) := by decide +kernel

theorem witness_SpanLinkCarriesInOrderAndReplays_nak :
    (isSpan spNak 0 = true) ∧ (mget (getSpan spNak 0).nakSent 1 = some 0) ∧ (0 + 4 * rdF spNak (aSpn 0 8) 36 29 ≤ nowNs spNak) ∧
    (mget (getSpan spNak 0).rob 1 = none) ∧ (seqBefore (1#16) (getSpan spNak 0).rxNext = false) ∧ (1#16 ∉ (getSpan spNak 0).naks) ∧
    (∃ r ∈ (getSpan spNak 0).rob, seqBefore (1#16) (BitVec.ofNat 16 r.1) = true) := by decide +kernel

/-- The four ways of SpanRetrainsOrGoesDown into a retrain, at span port 0. -/
def retrainCase (c : Instr) (w : BitVec 2) (s : State) : Prop :=
  (c = .spnRetrain 0 ∧ w = narrower (getSpan s 0).widthCap (getSpan s 0).peerCap) ∨ (c = .phyDown 0 ∧ w = (getSpan s 0).width) ∨
    (c = .peerRetrainRequest 0 true ∧ w = narrower (getSpan s 0).widthCap (getSpan s 0).peerCap) ∨
    (c = .peerRetrainRequest 0 false ∧ w = narrower (getSpan s 0).width (getSpan s 0).trainWidth)

theorem witness_SpanRetrainsOrGoesDown_write :
    (isSpan spRun 0 = true) ∧ retrainCase (Instr.spnRetrain 0) (narrower (getSpan spRun 0).widthCap (getSpan spRun 0).peerCap) spRun ∧ ((getSpan spRun 0).lstate = 2) := by
  unfold retrainCase; decide +kernel

theorem witness_SpanRetrainsOrGoesDown_phy :
    (isSpan spRun 0 = true) ∧ retrainCase (Instr.phyDown 0) ((getSpan spRun 0).width) spRun ∧ ((getSpan spRun 0).lstate = 2) := by
  unfold retrainCase; decide +kernel

theorem witness_SpanRetrainsOrGoesDown_peerWide :
    (isSpan spRun 0 = true) ∧ retrainCase (Instr.peerRetrainRequest 0 true) (narrower (getSpan spRun 0).widthCap (getSpan spRun 0).peerCap) spRun ∧ ((getSpan spRun 0).lstate = 2) := by
  unfold retrainCase; decide +kernel

theorem witness_SpanRetrainsOrGoesDown_peer :
    (isSpan spRun 0 = true) ∧ retrainCase (Instr.peerRetrainRequest 0 false) (narrower (getSpan spRun 0).width (getSpan spRun 0).trainWidth) spRun ∧ ((getSpan spRun 0).lstate = 2) := by
  unfold retrainCase; decide +kernel

theorem witness_SpanRetrainsOrGoesDown_done :
    (isSpan spRt 0 = true) ∧ ((getSpan spRt 0).lstate = 3) ∧ ((getSpan spRt 0).trainWidth.toNat ≤ rdF spRt (aSpn 0 8) 18 17) := by decide +kernel

theorem witness_SpanRetrainsOrGoesDown_fails :
    (isSpan spRt 0 = true) ∧
    (Instr.retrainDone (0#3) false = Instr.retrainDone (0#3) false ∧ (getSpan spRt 0).lstate = 3 ∧ 2 = 2 ∨ Instr.retrainDone (0#3) false = Instr.retrainTimeout 0#3 ∧ (getSpan spRt 0).lstate = 3 ∧ (getSpan spRt 0).rtStart + 4000 ≤ nowNs spRt ∧ 2 = 2 ∨ Instr.retrainDone (0#3) false = Instr.spnForceDown 0#3 ∧ ((getSpan spRt 0).lstate = 1 ∨ (getSpan spRt 0).lstate = 2 ∨ (getSpan spRt 0).lstate = 3) ∧ 2 = 5) ∧
    (flowIdx spRt = true) := by decide +kernel

theorem witness_SpanRetrainsOrGoesDown_timeout :
    (isSpan spRt 0 = true) ∧
    (Instr.retrainTimeout 0#3 = Instr.retrainDone (0#3) false ∧ (getSpan spRt 0).lstate = 3 ∧ 2 = 2 ∨ Instr.retrainTimeout 0#3 = Instr.retrainTimeout 0#3 ∧ (getSpan spRt 0).lstate = 3 ∧ (getSpan spRt 0).rtStart + 4000 ≤ nowNs spRt ∧ 2 = 2 ∨ Instr.retrainTimeout 0#3 = Instr.spnForceDown 0#3 ∧ ((getSpan spRt 0).lstate = 1 ∨ (getSpan spRt 0).lstate = 2 ∨ (getSpan spRt 0).lstate = 3) ∧ 2 = 5) ∧
    (flowIdx spRt = true) := by decide +kernel

theorem witness_SpanRetrainsOrGoesDown_force :
    (isSpan spRun 0 = true) ∧
    (Instr.spnForceDown 0#3 = Instr.retrainDone (0#3) false ∧ (getSpan spRun 0).lstate = 3 ∧ 5 = 2 ∨ Instr.spnForceDown 0#3 = Instr.retrainTimeout 0#3 ∧ (getSpan spRun 0).lstate = 3 ∧ (getSpan spRun 0).rtStart + 4000 ≤ nowNs spRun ∧ 5 = 2 ∨ Instr.spnForceDown 0#3 = Instr.spnForceDown 0#3 ∧ ((getSpan spRun 0).lstate = 1 ∨ (getSpan spRun 0).lstate = 2 ∨ (getSpan spRun 0).lstate = 3) ∧ 5 = 5) ∧
    (flowIdx spRun = true) := by decide +kernel

theorem witness_SpanRetrainsOrGoesDown_grace :
    (isSpan spGrace 0 = true) ∧ ((getSpan spGrace 0).lstate = 4) ∧ ((getSpan spGrace 0).graceEnd ≤ nowNs spGrace) := by decide +kernel

theorem witness_SpanWidthKeysStagingAndTime_cap :
    (isSpan spRun 0 = true) ∧ ((getSpan spRun 0).lstate = 2) ∧ ((getSpan spRun 0).width.toNat < 1) := by decide +kernel

theorem witness_SpanWidthKeysStagingAndTime_capRetrain :
    (isSpan spRt 0 = true) ∧ ((getSpan spRt 0).lstate = 3) := by decide +kernel

theorem witness_SpanWidthKeysStagingAndTime_keys :
    (isSpan spKeys 0 = true) := by decide +kernel

theorem witness_SpanWidthKeysStagingAndTime_phyUp :
    (isSpan spOff 0 = true) ∧ (bitOf (rd spOff (aSpn 0 8)) 0 = true) ∧ ((getSpan spOff 0).lstate = 0 ∨ (getSpan spOff 0).lstate = 5) := by decide +kernel

theorem witness_SpanWidthKeysStagingAndTime_phyBack :
    (isSpan spGup 0 = true) ∧ (bitOf (rd spGup (aSpn 0 8)) 0 = true) ∧ ((getSpan spGup 0).lstate = 4) := by decide +kernel

theorem witness_SpanWidthKeysStagingAndTime_staged :
    (isSpan spStg 0 = true) ∧ ((getSpan spStg 0).staging = [(mPst, true)]) ∧ (frameOf spStg % 2 = true.toNat) ∧
    (findSpnSrc spStg 0 mPst.flow.toNat = some 0) := by decide +kernel

theorem witness_SpanWidthKeysStagingAndTime_late :
    (isSpan spStgLate 0 = true) ∧ ((getSpan spStgLate 0).staging = [(mPst, false)]) ∧ (frameOf spStgLate % 2 ≠ false.toNat) ∧
    (findSpnSrc spStgLate 0 mPst.flow.toNat = some 0) := by decide +kernel

theorem witness_SpanWidthKeysStagingAndTime_capIdle :
    (isSpan spOff 0 = true) ∧ ((getSpan spOff 0).lstate ≠ 3) ∧ ¬((getSpan spOff 0).lstate = 2 ∧ (getSpan spOff 0).width.toNat < 1) := by decide +kernel

theorem witness_SpanWidthKeysStagingAndTime_tsync :
    (isSpan spTs 0 = true) ∧ (timePort spTs = some 0) ∧ (frameOf spTs % 16 = 0) ∧ (atTick spTs = true) ∧ ((getSpan spTs 0).lstate = 2) := by decide +kernel

theorem witness_SpanWidthKeysStagingAndTime_tsyncLost :
    (isSpan spLost 0 = true) ∧ (bitOf (rd spLost (aSpn 0 8)) 8 = true) ∧ (rdF spLost 65632 8 8 = 0) ∧
    (∀ j, j < 8 → isSpan spLost j = true → spnPeer spLost j = spnPeer spLost 0 → 1024 ≤ subMod 48 (frameOf spLost) (getSpan spLost j).lastTsync) ∧ (bitOf (rd spLost (aSpn 0 24)) 8 = false) := by decide +kernel

/-! Witnesses: command rings, jobs and slots (13). Ring 0 enabled with 16 entries and every permission, one entry produced. -/

def rgW : List (Nat × Word) := [(aEng 0x100, 0x4FF#64), (aEng 0x118, 1#64), (aEng 0x108, 0x7000#64)]
/-- The state with these engines, slice 0 of their service NI active. -/
def eg (w : List (Nat × Word)) (e : Eng) : State := { st ((aNi 120 0x200, 1#64) :: w) with eng := e }
/-- A command entry from its words. -/
def ent (w : List Nat) : BitVec 512 := BitVec.ofNat 512 (w.foldr (fun x a => x ||| a <<< 64) 0)
def rgFetch : State := eg rgW {}
def eBad : BitVec 512 := ent [0x7F]
def eUnb : BitVec 512 := ent [0x11, 3]
def rgIn (stat : Nat) (e : BitVec 512) : State := eg rgW { inbox := [(128, 0, [e], stat)], rings := [(0, { fetching := true })] }
def rgFail : State := rgIn 1 0
def rgBadOp : State := rgIn 0 eBad
def rgUnb : State := rgIn 0 eUnb
def rgDeny : State := eg [(aEng 0x100, 0x480#64)] { inbox := [(128, 0, [eUnb], 0)] }
def cDone : Cmd := { key := 4, ring := 0, op := 0x11, cid := 9, done := true, status := 4 }
def rgDone : State := eg (rgW ++ [(aEng 0x120, 0x1000F00000000#64), (aEng 0x128, 1#64)]) { cmds := [cDone], nextKey := 5 }
def cJob (e : BitVec 512) (op : BitVec 8) : Cmd := { key := 4, entry := e, op := op, jobsLeft := 1 }
def jSan : Job := { cmd := 4, op := 1, fa := 2 ^ 27, blocks := 2 }
def jCpy : Job := { cmd := 4, op := 2, fa := 2 ^ 27, src := 2 ^ 28, blocks := 2, outstanding := 1 }
def jVer : Job := { cmd := 4, op := 3, fa := 2 ^ 27, src := 2 ^ 28, blocks := 2 }
def jTel : Job := { cmd := 4, op := 0x40, fa := 2 ^ 27, blocks := 1 }
def jGrm : Job := { cmd := 4, op := 0x41, blocks := 512 }
def eSan : BitVec 512 := ent [1, 1, 1, 0x55]
def eTel : BitVec 512 := ent [0x40, 2 ^ 27, 3 * 2 ^ 16]
def jb (j : Job) (e : BitVec 512) : State := eg [] { slots := [(0, { running := some j })], cmds := [cJob e j.op] }
def jbSan : State := jb jSan eSan
def jbCpy : State := jb jCpy (ent [2, 2 ^ 28, 2 ^ 27, 2])
def jbVer : State := jb jVer (ent [3, 2 ^ 27, 2 ^ 28, 2])
def jbTel : State := jb jTel eTel
def jbGrm : State := { jb jGrm (ent [0x41]) with jrn := { ckpt := some { key := 4 } } }
def jSanEnd : Job := { jSan with cursor := 2 }
def jbEnd : State := jb jSanEnd eSan
def slSteal : State := eg [] { slots := [(0, {}), (1, { deque := [jSan, jCpy, jVer] })] }
def slPark : State := eg [] { slots := [(0, { fails := 11 })] }
def slWake : State := eg [] { slots := [(0, { parked := true, fails := 11 })], wakes := [0, 3] }
def slFail : State := jbSan

theorem witness_RingsTakeIndicesFetchAndReset_indices :
    (rgFetch.gen.eng = true) := by decide +kernel

theorem witness_RingsTakeIndicesFetchAndReset_reset :
    (rgFetch.gen.eng = true) ∧ (∀ c ∈ rgFetch.eng.cmds, c.ring ≠ 0) := by decide +kernel

theorem witness_RingsTakeIndicesFetchAndReset_fetch :
    (120 = 120 + 0) ∧ (rinkTakes rgFetch 0 = true) ∧ (engCan rgFetch 120 8 1 1 = true) ∧
    (List.find? (mayFetch rgFetch) (ringOrder rgFetch 0) = some 0) ∧
    (28672 = rdF rgFetch (aEng (264 + 64 * 0)) 51 12 * 4096 + 64 * (ringCi rgFetch 0 % 2 ^ ringSz rgFetch 0)) ∧ (28672 < 2 ^ 50) := by decide +kernel

theorem witness_CommandEntryIsChecked_failed :
    (takeAnswer rgFail (128 + 0) = (some (0, [0], 1), (takeAnswer rgFail 128).2)) ∧ (0 = [0].headD 0) ∧
    ((getRing rgFail 0).resetting = false) ∧ (1 ≠ 0) := by decide +kernel

theorem witness_CommandEntryIsChecked_badOp :
    (takeAnswer rgBadOp (128 + 0) = (some (0, [eBad], 0), (takeAnswer rgBadOp 128).2)) ∧ (eBad = [eBad].headD 0) ∧
    ((getRing rgBadOp 0).resetting = false) ∧ (permBit (fld eBad 7 0) = none) ∧ (ringSz rgBadOp 0 ≤ 12) := by decide +kernel

theorem witness_CommandEntryIsChecked_denied :
    (takeAnswer rgDeny (128 + 0) = (some (0, [eUnb], 0), (takeAnswer rgDeny 128).2)) ∧ (eUnb = [eUnb].headD 0) ∧
    ((getRing rgDeny 0).resetting = false) ∧ (permBit (fld eUnb 7 0) = some 2) ∧ (bitOf (ringCfg rgDeny 0) 2 = false) ∧
    (queueRoom rgDeny (fld eUnb 7 0) = true) := by decide +kernel

theorem witness_CommandEntryIsChecked_queued :
    (takeAnswer rgUnb (128 + 0) = (some (0, [eUnb], 0), (takeAnswer rgUnb 128).2)) ∧ (eUnb = [eUnb].headD 0) ∧
    ((getRing rgUnb 0).resetting = false) ∧ (isCtlOp (fld eUnb 7 0) = true) ∧ (queueRoom rgUnb (fld eUnb 7 0) = true) ∧
    (arrivalStatus (ciAdvance (updRing (takeAnswer rgUnb 128).2 0 fun x => { resetting := x.resetting, stopped := x.stopped }) 0) 0 eUnb = 0) := by decide +kernel

theorem witness_CompletionIsWrittenAtRpi :
    (120 = 120 + 0 % nRinks rgDone) ∧ (List.find? (fun c => c.ring == 0 && c.done) rgDone.eng.cmds = some cDone) ∧
    (cDone.ntf = false ∨ bitOf (ringCfg rgDone 0) 20 = false) ∧ (compRoom rgDone 0 = true) ∧ (engCan rgDone 120 8 17 1 = true) ∧
    ((getRing rgDone 0).resetting = false) ∧ (ringSz rgDone 0 ≤ 12) ∧ (16 = 2 ^ ringSz rgDone 0) ∧ (15 = ringRpi rgDone 0 % 16) ∧
    (240 = rdF rgDone (aEng (272 + 64 * 0)) 51 12 * 4096 + 16 * 15) ∧ (240 < 2 ^ 50) := by decide +kernel

theorem witness_DataServicesRequestNextBlock_sanitise :
    (rinkOn jbSan (0 / 8) = true) ∧ ((getSlot jbSan 0).running = some jSan) ∧ (∀ a ∈ jbSan.eng.inbox, a.1 ≠ 0 ∧ a.1 ≠ 64 + 0) ∧
    (getCmd jbSan jSan.cmd = some (cJob eSan 1)) ∧ ((cJob eSan 1).abort = false) ∧ (jSan.outstanding + 1 ≤ 96) ∧ (jSan.op = 1) ∧
    ((saniIssue jbSan 0 jSan).isSome = true) := by decide +kernel

theorem witness_DataServicesRequestNextBlock_copy :
    (rinkOn jbCpy (0 / 8) = true) ∧ ((getSlot jbCpy 0).running = some jCpy) ∧ (∀ a ∈ jbCpy.eng.inbox, a.1 ≠ 0 ∧ a.1 ≠ 64 + 0) ∧
    (getCmd jbCpy jCpy.cmd = some (cJob (ent [2, 2 ^ 28, 2 ^ 27, 2]) 2)) ∧ ((cJob (ent [2, 2 ^ 28, 2 ^ 27, 2]) 2).abort = false) ∧
    (jCpy.outstanding + 1 ≤ 96) ∧ (jCpy.op = 2) ∧ ((copyIssue jbCpy 0 jCpy).isSome = true) := by decide +kernel

theorem witness_DataServicesRequestNextBlock_verify :
    (rinkOn jbVer (0 / 8) = true) ∧ ((getSlot jbVer 0).running = some jVer) ∧ (∀ a ∈ jbVer.eng.inbox, a.1 ≠ 0 ∧ a.1 ≠ 64 + 0) ∧
    (getCmd jbVer jVer.cmd = some (cJob (ent [3, 2 ^ 27, 2 ^ 28, 2]) 3)) ∧ ((cJob (ent [3, 2 ^ 27, 2 ^ 28, 2]) 3).abort = false) ∧
    (jVer.outstanding + 2 ≤ 96) ∧ (jVer.op = 3 ∧ 2 = if verPattern (ent [3, 2 ^ 27, 2 ^ 28, 2]) then 1 else 2) ∧
    ((verIssue true jbVer 0 jVer).isSome = true) := by decide +kernel

theorem witness_DataServicesRequestNextBlock_telemetry :
    (rinkOn jbTel (0 / 8) = true) ∧ ((getSlot jbTel 0).running = some jTel) ∧ (∀ a ∈ jbTel.eng.inbox, a.1 ≠ 0 ∧ a.1 ≠ 64 + 0) ∧
    (getCmd jbTel jTel.cmd = some (cJob eTel 64)) ∧ ((cJob eTel 64).abort = false) ∧ (jTel.outstanding + 1 ≤ 96) ∧ (jTel.op = 0x40) ∧
    ((teleIssue jbTel 0 jTel).isSome = true) := by decide +kernel

theorem witness_DataServicesRequestNextBlock_groom :
    (rinkOn jbGrm (0 / 8) = true) ∧ ((getSlot jbGrm 0).running = some jGrm) ∧ (∀ a ∈ jbGrm.eng.inbox, a.1 ≠ 0 ∧ a.1 ≠ 64 + 0) ∧
    (getCmd jbGrm jGrm.cmd = some (cJob (ent [65]) 65)) ∧ ((cJob (ent [65]) 65).abort = false) ∧ (jGrm.outstanding + 1 ≤ 96) ∧
    (jGrm.op = 0x41) ∧ ((groomIssue jbGrm 0 jGrm).isSome = true) := by decide +kernel

theorem witness_SlotsStealParkAndFailOver_complete :
    ((getSlot jbEnd 0).running = some jSanEnd) ∧ (getCmd jbEnd jSanEnd.cmd = some (cJob eSan 1)) ∧
    (jobFinished (cJob eSan 1) jSanEnd = true) ∧ (slotEng jbEnd 0 = some 0) := by decide +kernel

theorem witness_SlotsStealParkAndFailOver_steal :
    (slotIdle slSteal 0 = true) ∧ ((getSlot slSteal 0).parked = false) ∧ ((getSlot slSteal 0).fails < 11) ∧
    ((getSlot slSteal 0).waitTo ≤ nowNs slSteal) ∧
    (stealTarget slSteal 0 = (some 1, (stealTarget slSteal 0).2)) ∧ ((getSlot slSteal 1).takenNs ≠ some (nowNs slSteal)) ∧ (3 = (getSlot slSteal 1).deque.length) ∧ (0 < 3) ∧
    (∀ c ∈ slSteal.eng.cmds, c.waitingJobs = []) := by decide +kernel

theorem witness_SlotsStealParkAndFailOver_park :
    (slotIdle slPark 0 = true) ∧ ((getSlot slPark 0).parked = false) ∧ (11 ≤ (getSlot slPark 0).fails) ∧ ((getSlot slPark 0).waitTo ≤ nowNs slPark) := by decide +kernel

theorem witness_SlotsStealParkAndFailOver_wake :
    ((getSlot slWake 0).parked = true) ∧ (0 ∈ slWake.eng.wakes) := by decide +kernel

theorem witness_SlotsStealParkAndFailOver_fail :
    (0 = 6 / 9) ∧ (rinkOn slFail 0 = true) ∧ (6 ∉ slFail.eng.failedE) ∧
    (List.find? (fun k => slotPos slFail k == some (6 % 9)) (List.map (fun x => 8 * 0 + x) (List.range 8)) = some 6) ∧
    (bitOf (rd slFail (aEng (8 + 8 * 0))) 32 = false) ∧ (9 * 0 + 8 ≠ 6) ∧ (9 * 0 + 8 ∉ slFail.eng.failedE) := by decide +kernel

/-! Witnesses: control commands (13). The command with key 4 stands at the head of the control queue. -/

def cCtl (op : BitVec 8) (w : List Nat) (step : Nat) : Cmd := { key := 4, entry := ent w, op := op, step := step }
def ct (w : List (Nat × Word)) (c : Cmd) : State := eg w { cmds := [c], ctlQ := [4], nextKey := 5 }
def eBnd : Ebt := { st := 1, gen := 7, tag := 5, tni := 2, dpa := 9 }
def cBind : Cmd := cCtl 0x10 [0x10, 3, 2 + 7 * 256, 5] 0
def ctBind : State := ct [] cBind
def ctBindNo : State := wrEbt (ct [] cBind) 3 (ebtData eBnd)
def cBind4 : Cmd := { cBind with step := 4 }
def ctBind4 : State := ct [] cBind4
def cUnb : Cmd := cCtl 0x11 [0x11, 3] 0
def ctUnb : State := wrEbt (ct [] cUnb) 3 (ebtData eBnd)
def cShr : Cmd := cCtl 0x12 [0x12, 3, 1 + 3 * 2 ^ 16] 0
def ctShr : State := wrEbt (ct [] cShr) 3 (ebtData eBnd)
def cSlr : Cmd := cCtl 0x13 [0x13, 0, 1] 0
def ctSlr : State := ni 0 upNi (ct niWords cSlr)
def cMov : Cmd := cCtl 4 [4, 3, 5 + 8 * 256] 0
def ctMov : State := wrEbt (ct [] cMov) 3 (ebtData eBnd)
def cOrp : Cmd := { cCtl 0xF0 [0] 0 with ring := 16, host := 2 }
def ctOrp : State := wrEbt (ct [] cOrp) 3 (ebtData eBnd)
def rowUntil : TbtRow := { tag := 5, dpa := 9, untilNs := some 2000000000 }
def ctMir : State := atNs 2000000000 (ni 2 { dec := { tbt := [(3, rowUntil), (4, {})] } } (st []))

theorem witness_ControlCommandsStep_bind :
    (ctlHead ctBind = some cBind) ∧ (cBind.done = false) ∧ (3 = fld (cmdW cBind.entry 1) 18 0) ∧ (cBind.op = 16) ∧ (cBind.step = 0) ∧
    (bitOf cBind.entry 10 = false) ∧ (repairing ctBind 3 = false) ∧ ((ebtGet ctBind 3).st = 0) ∧ (2 = fld (cmdW cBind.entry 2) 7 0) ∧
    (tbtFull ctBind 2 3 = false) := by decide +kernel

theorem witness_ControlCommandsStep_bindBad :
    (ctlHead ctBindNo = some cBind) ∧ (cBind.done = false) ∧ (3 = fld (cmdW cBind.entry 1) 18 0) ∧ (cBind.op = 16) ∧ (cBind.step = 0) ∧
    (bitOf cBind.entry 10 = false) ∧ (repairing ctBindNo 3 = false) ∧ ((ebtGet ctBindNo 3).st ≠ 0) ∧ (cBind.ring ≠ 16) := by decide +kernel

theorem witness_ControlCommandsStep_bindEnd :
    (ctlHead ctBind4 = some cBind4) ∧ (cBind4.done = false) ∧ (3 = fld (cmdW cBind4.entry 1) 18 0) ∧ (cBind4.op = 16) ∧ (cBind4.step = 4) ∧
    (recsPending ctBind4 cBind4.key = false) ∧ (cBind4.ring ≠ 16) := by decide +kernel

theorem witness_ControlCommandsStep_unbind :
    (ctlHead ctUnb = some cUnb) ∧ (cUnb.done = false) ∧ (3 = fld (cmdW cUnb.entry 1) 18 0) ∧ (cUnb.op = 17) ∧ (cUnb.step = 0) ∧
    (repairing ctUnb 3 = false) ∧ ((ebtGet ctUnb 3).st = 1 ∨ (ebtGet ctUnb 3).st = 2) := by decide +kernel

theorem witness_ControlCommandsStep_share :
    (ctlHead ctShr = some cShr) ∧ (cShr.done = false) ∧ (3 = fld (cmdW cShr.entry 1) 18 0) ∧ (cShr.op = 18) ∧ (cShr.step = 0) ∧
    (repairing ctShr 3 = false) ∧ ((ebtGet ctShr 3).st = 1 ∨ (ebtGet ctShr 3).st = 2) ∧ (bitOf (cmdW cShr.entry 2) 21 = false) ∧
    (bitOf (cmdW cShr.entry 3) 10 = false) ∧ ((grantsValid ctShr).length < 4096) ∧
    (masterRow ctShr (BitVec.ofNat 12 (fld (cmdW cShr.entry 2) 11 0)) (fld (cmdW cShr.entry 2) 15 12) = some 16) := by decide +kernel

theorem witness_ControlCommandsStep_sliceReset :
    (ctlHead ctSlr = some cSlr) ∧ (cSlr.done = false) ∧ (0 = fld (cmdW cSlr.entry 1) 18 0) ∧ (cSlr.op = 19) ∧ (cSlr.step = 0) ∧
    (0 = fld (cmdW cSlr.entry 1) 7 0) := by decide +kernel

theorem witness_ControlCommandsStep_move :
    (ctlHead ctMov = some cMov) ∧ (cMov.done = false) ∧ (3 = fld (cmdW cMov.entry 1) 18 0) ∧ (cMov.op = 4) ∧ (cMov.step = 0) ∧
    (repairing ctMov 3 = false) ∧ ((ebtGet ctMov 3).st = 1 ∨ (ebtGet ctMov 3).st = 2) ∧ (5 = fld (cmdW cMov.entry 2) 7 0) ∧
    ((ebtGet ctMov 3).tni ≠ 5) ∧ ((List.filter (fun p => p.2.mirror.isSome) (tbtAll ctMov (ebtGet ctMov 3).tni)).length < 4) ∧
    (tbtFull ctMov 5 3 = false) ∧ ((ebtGet ctMov 3).bv = false) := by decide +kernel

theorem witness_ControlCommandsStep_orphan :
    (ctlHead ctOrp = some cOrp) ∧ (cOrp.done = false) ∧ (0 = fld (cmdW cOrp.entry 1) 18 0) ∧ (cOrp.op = 240) ∧ (cOrp.host = 2) ∧
    (cOrp.step = 0) ∧ (ctOrp.jrn.recovering = false) ∧ (ctOrp.jrn.repairs = []) := by decide +kernel

theorem witness_ControlCommandsStep_mirror :
    (mget (getNi ctMir 2).dec.tbt 3 = some rowUntil) ∧ (rowUntil.untilNs = some 2000000000) ∧ (2000000000 ≤ nowNs ctMir) := by decide +kernel

/-! Witnesses: admission (06) and the FM API (13). -/

def cAdm (op : BitVec 8) (w : List Nat) : Cmd := { key := 4, entry := ent w, op := op }
def ad (c : Cmd) (fl : Map Flow) : State := eg [(aRtr 0 0x200, 0x8000000180000000#64)] { cmds := [c], admQ := [4], nextKey := 5, flows := fl }
/-- A flow of one header from NI 0 to NI 1, without standby paths; and one of no header, which is refused. -/
def cAdmOk : Cmd := cAdm 0x20 [0x20, 1 <<< 12 ||| 1 <<< 26 ||| 3 <<< 27 ||| 1 <<< 40]
def cAdmNo : Cmd := cAdm 0x20 [0x20, 1 <<< 12]
def adOk : State := ad cAdmOk []
def adNo : State := ad cAdmNo []
def admOf (s : State) (c : Cmd) : AdmRes × State := admDecide (evDuty s admRink 12) (admReqOf c.entry none) 0
def cRel : Cmd := cAdm 0x21 [0x21, 5]
def flow5 : Flow := { chain := 3, state := 2 }
def adRel : State := ad cRel [(5, flow5), (6, { chain := 3, state := 2, srcIdx := 1 })]
def cFm (o : Nat) : Cmd := cCtl 0x30 [0x30, 0, o, 0, 64] 2
def ctFm (o : Nat) : State := ct [] (cFm o)

/-- The state and the request that adOk's ADMIT decides: the flow's guard holds at every clock of its destination. -/
def adS : State := (takeFree (takeFree (evDuty adOk admRink 12)).2).2
def adR : AdmReq := admReqOf cAdmOk.entry none

theorem adm_path : segPath adS adR false = some ([(0, 7)], false) := by decide +kernel

theorem adm_fit : firstFit (loadOn adS.eng.flows (liveCases adS.eng.flows [(0,7)]) adR.plane adR.src [(0,7)]) adR.floor adR.maxlen (demand adR.allow adR.hdrs) 0 128 [] false = (some [0], false) := by decide +kernel


theorem adm_clock (s : State) (n : Nat) : epClkImagePs s n ≤ 2500 := by unfold epClkImagePs; omega

theorem adm_guard (g : Nat) : segGuard adS adS.eng.flows adR [(0, 7)] [0] g = true := by
  have h : nodeInst adR.dst = instNo adS := by decide +kernel
  have hb : endDemand adS adS.eng.flows (nodeLoc adR.dst) + endAdds adS.eng.flows adR = 1 := by decide +kernel
  have hd : ∀ l ∈ List.range (adR.floor + 1), (endTime [0] [(0, 7)] l + fcSixths l) * 1000 + 75000 ≤ 6144000 := by decide +kernel
  unfold segGuard guardNi
  rw [if_pos h, hb]
  refine List.all_eq_true.2 fun l hl => decide_eq_true ?_
  have := hd l hl
  have := adm_clock adS (nodeLoc adR.dst)
  omega

theorem adm_plan (g : Nat) : planSeg adS adS.eng.flows adR false g = .ok ⟨[(0, 7)], false, [0], []⟩ := by
  have h4 : segInService adS adR [(0, 7)] = true := by decide +kernel
  have h5 : ¬(31 < endLag [(0, 7)]) := by decide +kernel
  have h6 : othersGuard adS adS.eng.flows adR = true := by decide +kernel
  have h7 : adR.launch = none := by decide +kernel
  have h8 : adR.nosby = true := by decide +kernel
  simp only [planSeg, adm_path, adm_fit, adm_guard, h4, h5, h6, h7, h8, Bool.not_true, Bool.false_eq_true, if_false, if_true]

theorem admDecide_here (s : State) (r : AdmReq) (inst : Nat) (h : inst = instNo s) :
    admDecide s r inst = admitDecide (takeFree (takeFree s).2).2 r (peerAns (takeFree s).1) ((takeFree (takeFree s).2).1.toNat % 4096) := by
  unfold admDecide; rw [if_neg (fun g => g h)]

theorem adm_accepts (peer : PeerAns) (pick : Nat) : (admitDecide adS adR peer pick).1.code = 0 := by
  have e1 : (nodeInst adR.dst != instNo adS) = false := by decide +kernel
  have e2 : adR.ok = true := by decide +kernel
  have e3 : (adS.flt.caseR.isSome = true ∨ adS.flt.switchAt.isSome = true) = False := by decide +kernel
  have e4 : ¬(adR.floor < adS.pwr.lvl.toNat) := by decide +kernel
  have e5 : hasSecond adS adR peer = false := by unfold hasSecond; rw [e1]; rfl
  have e6 : (nFlows adS < adS.eng.flows.length + 1 ∨ (freeEntries adS adR.src).length < 1) = False := by decide +kernel
  have e7 : adR.second = false := by decide +kernel
  have e8 : stagingOk adS adR [⟨[(0, 7)], false, [0], []⟩] = true := by decide +kernel
  have e9 : trackerOk adS adR 1 = true := by decide +kernel
  simp only [admitDecide, e1, e2, e3, e4, e5, e6, e7, adm_plan, Option.toList, e8, e9, Bool.not_true, Bool.false_eq_true, if_false, false_and]

theorem witness_AdmissionRecordsPendingFlows_recorded :
    admHead adOk = some cAdmOk ∧ cAdmOk.op = 0x20 ∧ cAdmOk.ring ≠ 16 ∧ fld (cmdW cAdmOk.entry 4) 51 0 = 0 ∧
    (admDecide (evDuty adOk admRink 12) (admReqOf cAdmOk.entry none) (fld (cmdW cAdmOk.entry 1) 11 8)).1.code = 0 :=
  ⟨by decide +kernel, by decide +kernel, by decide +kernel, by decide +kernel, by
    have h := adm_accepts (peerAns (takeFree (evDuty adOk admRink 12)).1)
    have h0 := admDecide_here (evDuty adOk admRink 12) (admReqOf cAdmOk.entry none) (fld (cmdW cAdmOk.entry 1) 11 8) (by decide +kernel)
    simp only [adS, adR] at h
    rw [h0]; exact h _⟩

theorem witness_AdmissionRecordsPendingFlows_refused :
    (admHead adNo = some cAdmNo) ∧ (cAdmNo.op = 32) ∧ (cAdmNo.ring ≠ 16) ∧ (fld (cmdW cAdmNo.entry 4) 51 0 = 0) ∧
    (admDecide (evDuty adNo admRink 12) (admReqOf cAdmNo.entry none) (fld (cmdW cAdmNo.entry 1) 11 8) = ((admOf adNo cAdmNo).1, (admOf adNo cAdmNo).2)) ∧
    ((admOf adNo cAdmNo).1.code ≠ 0) := by decide +kernel

theorem witness_AdmissionRecordsPendingFlows_release :
    (admHead adRel = some cRel) ∧ (cRel.op = 33) ∧ (cRel.ring ≠ 16) ∧ (5 = fld (cmdW cRel.entry 1) 11 0) ∧
    (mget adRel.eng.flows 5 = some flow5) := by decide +kernel

theorem witness_AdmissionRecordsPendingFlows_peer :
    (adOk.gen.eng = true) := by decide +kernel

theorem witness_FmApiPreparesItsResponse_identify :
    (ctlHead (ctFm 1) = some (cFm 1)) ∧ ((cFm 1).op = 48) ∧ ((cFm 1).step = 2) ∧
    (Instr.fmIdentify = Instr.fmIdentify ∧ fmOpcode (cFm 1) = 1 ∧ 0 = 0 ∨ Instr.fmIdentify = Instr.fmBackgroundOperationStatus ∧ fmOpcode (cFm 1) = 2 ∧ 0 = 0 ∨ Instr.fmIdentify = Instr.fmGetDcdInfo ∧ fmOpcode (cFm 1) = 22016 ∧ 0 = 0 ∨ (Instr.fmIdentify = Instr.fmGetDcRegionExtentLists ∧ fmOpcode (cFm 1) = 22019 ∧ 0 = if (fmNode (ctFm 1) (fmRequest (cFm 1))).isSome = true then 0 else 2) ∨ Instr.fmIdentify = Instr.fmInitiateDcAdd ∧ fmOpcode (cFm 1) = 22020 ∧ fmNode (ctFm 1) (fmRequest (cFm 1)) = none ∧ 0 = 2 ∨ Instr.fmIdentify = Instr.fmInitiateDcRelease ∧ fmOpcode (cFm 1) = 22021 ∧ fmList (ctFm 1) (fmRequest (cFm 1)) = none ∧ 0 = 2 ∨ Instr.fmIdentify = Instr.fmUnsupported ∧ fmKnown (fmOpcode (cFm 1)) = false ∧ 0 = 3) := by decide +kernel

theorem witness_FmApiPreparesItsResponse_background :
    (ctlHead (ctFm 2) = some (cFm 2)) ∧ ((cFm 2).op = 48) ∧ ((cFm 2).step = 2) ∧
    (Instr.fmBackgroundOperationStatus = Instr.fmIdentify ∧ fmOpcode (cFm 2) = 1 ∧ 0 = 0 ∨ Instr.fmBackgroundOperationStatus = Instr.fmBackgroundOperationStatus ∧ fmOpcode (cFm 2) = 2 ∧ 0 = 0 ∨ Instr.fmBackgroundOperationStatus = Instr.fmGetDcdInfo ∧ fmOpcode (cFm 2) = 22016 ∧ 0 = 0 ∨ (Instr.fmBackgroundOperationStatus = Instr.fmGetDcRegionExtentLists ∧ fmOpcode (cFm 2) = 22019 ∧ 0 = if (fmNode (ctFm 2) (fmRequest (cFm 2))).isSome = true then 0 else 2) ∨ Instr.fmBackgroundOperationStatus = Instr.fmInitiateDcAdd ∧ fmOpcode (cFm 2) = 22020 ∧ fmNode (ctFm 2) (fmRequest (cFm 2)) = none ∧ 0 = 2 ∨ Instr.fmBackgroundOperationStatus = Instr.fmInitiateDcRelease ∧ fmOpcode (cFm 2) = 22021 ∧ fmList (ctFm 2) (fmRequest (cFm 2)) = none ∧ 0 = 2 ∨ Instr.fmBackgroundOperationStatus = Instr.fmUnsupported ∧ fmKnown (fmOpcode (cFm 2)) = false ∧ 0 = 3) := by decide +kernel

theorem witness_FmApiPreparesItsResponse_info :
    (ctlHead (ctFm 22016) = some (cFm 22016)) ∧ ((cFm 22016).op = 48) ∧ ((cFm 22016).step = 2) ∧
    (Instr.fmGetDcdInfo = Instr.fmIdentify ∧ fmOpcode (cFm 22016) = 1 ∧ 0 = 0 ∨ Instr.fmGetDcdInfo = Instr.fmBackgroundOperationStatus ∧ fmOpcode (cFm 22016) = 2 ∧ 0 = 0 ∨ Instr.fmGetDcdInfo = Instr.fmGetDcdInfo ∧ fmOpcode (cFm 22016) = 22016 ∧ 0 = 0 ∨ (Instr.fmGetDcdInfo = Instr.fmGetDcRegionExtentLists ∧ fmOpcode (cFm 22016) = 22019 ∧ 0 = if (fmNode (ctFm 22016) (fmRequest (cFm 22016))).isSome = true then 0 else 2) ∨ Instr.fmGetDcdInfo = Instr.fmInitiateDcAdd ∧ fmOpcode (cFm 22016) = 22020 ∧ fmNode (ctFm 22016) (fmRequest (cFm 22016)) = none ∧ 0 = 2 ∨ Instr.fmGetDcdInfo = Instr.fmInitiateDcRelease ∧ fmOpcode (cFm 22016) = 22021 ∧ fmList (ctFm 22016) (fmRequest (cFm 22016)) = none ∧ 0 = 2 ∨ Instr.fmGetDcdInfo = Instr.fmUnsupported ∧ fmKnown (fmOpcode (cFm 22016)) = false ∧ 0 = 3) := by decide +kernel

/-- The host's node is not known, whatever the opaque function makes of the request. -/
theorem witness_FmApiPreparesItsResponse_lists (h : ∀ b, Config.fmHost b = 0) :
    ctlHead (ctFm 0x5603) = some (cFm 0x5603) ∧ (cFm 0x5603).op = 0x30 ∧ (cFm 0x5603).step = 2 ∧ fmOpcode (cFm 0x5603) = 0x5603 ∧
    2 = (if (fmNode (ctFm 0x5603) (fmRequest (cFm 0x5603))).isSome then 0 else 2) := by
  simp only [fmNode, h]; decide +kernel

theorem witness_FmApiPreparesItsResponse_add (h : ∀ b, Config.fmHost b = 0) :
    ctlHead (ctFm 0x5604) = some (cFm 0x5604) ∧ (cFm 0x5604).op = 0x30 ∧ (cFm 0x5604).step = 2 ∧ fmOpcode (cFm 0x5604) = 0x5604 ∧
    fmNode (ctFm 0x5604) (fmRequest (cFm 0x5604)) = none := by
  simp only [fmNode, h]; decide +kernel

theorem witness_FmApiPreparesItsResponse_unsupported :
    (ctlHead (ctFm 7) = some (cFm 7)) ∧ ((cFm 7).op = 48) ∧ ((cFm 7).step = 2) ∧
    (Instr.fmUnsupported = Instr.fmIdentify ∧ fmOpcode (cFm 7) = 1 ∧ 3 = 0 ∨ Instr.fmUnsupported = Instr.fmBackgroundOperationStatus ∧ fmOpcode (cFm 7) = 2 ∧ 3 = 0 ∨ Instr.fmUnsupported = Instr.fmGetDcdInfo ∧ fmOpcode (cFm 7) = 22016 ∧ 3 = 0 ∨ (Instr.fmUnsupported = Instr.fmGetDcRegionExtentLists ∧ fmOpcode (cFm 7) = 22019 ∧ 3 = if (fmNode (ctFm 7) (fmRequest (cFm 7))).isSome = true then 0 else 2) ∨ Instr.fmUnsupported = Instr.fmInitiateDcAdd ∧ fmOpcode (cFm 7) = 22020 ∧ fmNode (ctFm 7) (fmRequest (cFm 7)) = none ∧ 3 = 2 ∨ Instr.fmUnsupported = Instr.fmInitiateDcRelease ∧ fmOpcode (cFm 7) = 22021 ∧ fmList (ctFm 7) (fmRequest (cFm 7)) = none ∧ 3 = 2 ∨ Instr.fmUnsupported = Instr.fmUnsupported ∧ fmKnown (fmOpcode (cFm 7)) = false ∧ 3 = 3) := by decide +kernel

theorem witness_FmApiPreparesItsResponse_release (h : ∀ b, Config.fmExtents b = [(1, 0)]) :
    ctlHead (ctFm 0x5605) = some (cFm 0x5605) ∧ (cFm 0x5605).op = 0x30 ∧ (cFm 0x5605).step = 2 ∧ fmOpcode (cFm 0x5605) = 0x5605 ∧
    fmList (ctFm 0x5605) (fmRequest (cFm 0x5605)) = none := by
  simp only [fmList, h]; decide +kernel

theorem witness_FmApiPreparesItsResponse_begins (h : ∀ b, Config.fmExtents b = [(0, 2 ^ 27)]) :
    ctlHead (ctFm 0x5605) = some (cFm 0x5605) ∧ (cFm 0x5605).op = 0x30 ∧ (cFm 0x5605).step = 2 ∧ fmOpcode (cFm 0x5605) = 0x5605 ∧
    fmList (ctFm 0x5605) (fmRequest (cFm 0x5605)) = some [0] := by
  simp only [fmList, h]; decide +kernel

/-! Witnesses: the journal (14) and the gate tick (01, 02). -/

def jr (w : List (Nat × Word)) (j : Jrn) : State := { st ((aNi 120 0x200, 1#64) :: w) with jrn := j }
def rec0 : Rec := { key := 4, typ := 1, index := 3, body := BitVec.ofNat 128 (ebtData eBnd) }
def jrApp : State := jr [(aJrn 0x20, 9#64), (aJrn 0x48, 0x40#64), (aJrn 0x50, 0x60#64)] { todo := [{ rec0 with prio := 1, index := 4 }, rec0] }
def hw0 : HomeWrite := { seq := some 9, sent := true, off := 0x40 }
def recA : Rec := { rec0 with seq := 9, ack1 := true }
def jrAck : State := { jr [] { outH0 := [hw0], ring := [recA] } with eng := { inbox := [(200, 0x40, [], 0)] } }
def hwF : HomeWrite := { seq := some 9, sent := true, off := 0x40, bytes := List.replicate 32 0, failedAt := some 3 }
def jrRetry : State := atNs (19 * 1024) (jr [] { outH1 := [hwF] })
def jrRep : State := jr [] { repairs := [3, 5] }
def jrRec : State := jr [(aEbt 3, 7#64)] { recovering := true, ring := [recA] }
def jrWant : State := jr [] { recWanted := true }
def ck0 : CkptRead := { offset := 0, magic := 0x4A4B4350, ver := 1, inst := 0, cknum := 6, startSeq := 9, digestOk := true, body := [(3, 5)], grants := [] }
def hr0 : HomeRead := { readable := true, ckpts := [ck0], records := [] }
def hrNo : HomeRead := { readable := false, ckpts := [], records := [] }
def jrWait : State := atNs 2000000000 (jr [] { imageNs := some 0 })
def gtHold : State := { atNs 1500 (st []) with time := { t := BitVec.ofNat 96 (1500 <<< 32), hold := true, returnDue := true }, pendT := [(aTim 0x20, 77#64)] }
def gtDue : State := { gtHold with time := { gtHold.time with tickDue := true } }

theorem witness_JournalAppendsCommitsAndGrooms_append :
    (nextAppend jrApp.jrn.todo = some rec0) ∧ (jrApp.jrn.recovering = false) ∧ (jrApp.gen.jrn = true) ∧ (jrApp.jrn.ring.length + 1 < 12288) ∧
    (jrApp.jrn.appendFc ≠ some (frameOf jrApp, fcNow jrApp)) := by decide +kernel

theorem witness_JournalAppendsCommitsAndGrooms_commit :
    (takeAnswer jrAck (200 + 0) = (some (64, [], 0), (takeAnswer jrAck 200).2)) ∧
    (List.find? (fun w => w.sent && w.failedAt.isNone && w.off == 64 % 2 ^ 30) (homeOut jrAck 0) = some hw0) ∧ (hw0.seq = some recA.seq) ∧
    (hw0.hdr = false) ∧ (jrAck.jrn.ring = [recA]) ∧ (recA.index < 524288) ∧ (recA.committed = false) ∧ ((if 0 = 0 then recA.ack1 else recA.ack0) = true) ∧
    (recA.typ = 1) ∧ (jrAck.jrn.ckpt = none) ∧ (jrAck.jrn.replaceHome = []) ∧ (jrAck.eng.groomWanted = false) := by decide +kernel

theorem witness_JournalAppendsCommitsAndGrooms_retry :
    (List.find? (fun w => match w.failedAt with | some f => frameGe (frameOf jrRetry) ((f + 16) % 2 ^ 48) | none => false) (homeOut jrRetry 1) = some hwF) ∧
    (hwF.failedAt = some 3) ∧ (engCan jrRetry 120 9 16 (linesOf hwF.off hwF.bytes.length) = true) := by decide +kernel

theorem witness_JournalAppendsCommitsAndGrooms_groom :
    (jrApp.jrn.ckpt = none) ∧ (jrApp.gen.jrn = true) ∧ (jrApp.gen.eng = true) := by decide +kernel

theorem witness_RepairAndRecoveryEnd_repaired :
    3 ∈ jrRep.jrn.repairs ∧ ∀ r ∈ jrRep.jrn.ring, r.typ ≠ 1 ∨ r.index ≠ 3 := by decide +kernel

theorem witness_RepairAndRecoveryEnd_lost :
    (3 ∈ jrRep.jrn.repairs) := by decide +kernel

theorem witness_RepairAndRecoveryEnd_recover :
    (jrRep.gen.jrn = true) := by decide +kernel

theorem witness_RepairAndRecoveryEnd_start :
    (jrWant.jrn.recovering = false) ∧ (jrWant.eng.ctlQ = []) ∧ (jrWant.jrn.recWanted = true) ∧ (jrWant.jrn.imageNs = none) := by decide +kernel

theorem witness_RepairAndRecoveryEnd_done :
    jrRec.jrn.recovering = true ∧ bestCkpt (ckptsOk jrRec hr0 ++ ckptsOk jrRec hrNo) = some ck0 := by decide +kernel

theorem witness_RepairAndRecoveryEnd_empty :
    jrRec.jrn.recovering = true ∧ bestCkpt (ckptsOk jrRec hrNo ++ ckptsOk jrRec hrNo) = none := by decide +kernel

theorem witness_RepairAndRecoveryEnd_wait :
    (jrWait.jrn.imageNs = some 0) ∧ (0 + 2000000000 ≤ nowNs jrWait) ∧ (jrWait.jrn.waitRaised = false) ∧ (homeUp jrWait 0 = false) ∧
    (homeUp jrWait 1 = false) ∧ (jrWait.jrn.recovering = false) := by decide +kernel

theorem witness_GateTickBeginsTheFrame :
    gtDue.time.tickDue = true ∧ gtHold.time.tickDue = false ∧ gtHold.time.hold = true ∧ gtHold.time.returnDue = true ∧
    gtHold.img.st ≠ 3 ∧ (aTim 0x20, 77#64) ∈ gtHold.pendT ∧ ∀ p ∈ gtHold.pendT, p.1 = aTim 0x20 → p.2 = 77#64 := by decide +kernel

/-! Witnesses: the image (15). -/

def im (w : List (Nat × Word)) (i : Img) : State := { st w with img := i }
def imUp (s : State) : State := { s with rst := { s.rst with initDone := true } }
def imIdle : State := imUp (im [(aTim 0x40, 0x40#64)] {})
def imNoTime : State := imUp (im [] {})
def imBusy : State := imUp (im [] { st := 1 })
/-- The header of a cold image of KV4-F, instance 0, one section, 8,512 bytes, EPOCH_HOLD 64, but for its last eight bytes. -/
def hdrCold : List (BitVec 8) :=
  [0x43, 0x4C, 0x4F, 0x47, 1, 0, 1, 0, 0, 0, 1, 0, 0x40, 0x21] ++ List.replicate 46 0 ++ [64] ++ List.replicate 187 0
def imHdr : State := im [] { st := 1, bytes := hdrCold }
def imHdrBad : State := im [] { st := 1, bytes := List.replicate 248 0 }
def imShort : State := im [] { st := 1 }
def imLate : State := im [] { st := 3, switchT := 1 }
def imSealed : State := { im [] { st := 2 } with lcs := { fuse := { f1 := true, f2 := true, f3 := true, f4 := true } } }
def imGood : State := { im [] { st := 2, bytes := List.replicate 60 0 ++ [64, 0] } with lcs := { keyE := [(0, 5)], keyM := [(0, 5)] } }
def imPre : State := im [] { st := 3, switchT := 1 }
/-- A delta with one section, a journal's, whose homes change while a recovery is wanted. -/
def bytesJrn : List (BitVec 8) := List.replicate 6 0 ++ [2, 0, 0, 0, 1] ++ List.replicate 245 0 ++ [0xE] ++ List.replicate 15 0
def imConf : State := { im [] { st := 3, switchT := 1, bytes := bytesJrn } with jrn := { recWanted := true } }
/-- A delta of two epochs (a section of type 4), while the old epoch's slot is released at frame 9. -/
def bytesTwo : List (BitVec 8) := List.replicate 6 0 ++ [2, 0, 0, 0, 1] ++ List.replicate 245 0 ++
  [4, 0, 0, 0, 0x10, 1, 0, 0, 16, 0, 0, 0, 0, 0, 0, 0] ++ [0, 0, 0, 0, 8, 0, 0, 0] ++ List.replicate 8 0
def imWait : State := im [] { st := 3, switchT := 1, bytes := bytesTwo, release := some 9 }
def imRel : State := atNs (9 * 1024) (im [(aRtr 2 0x18, 0x20000#64)] { release := some 9 })

theorem witness_ImageIsReceivedJudgedAndReleased_busy :
    (imBusy.rst.initDone = true) ∧ (imBusy.img.st ≠ 0) := by decide +kernel

theorem witness_ImageIsReceivedJudgedAndReleased_locked :
    (imNoTime.rst.initDone = true) ∧ (imNoTime.img.st = 0) ∧ (timLocked imNoTime = false ∨ lcState imNoTime = 4) := by decide +kernel

theorem witness_ImageIsReceivedJudgedAndReleased_start :
    (imIdle.rst.initDone = true) ∧ (imIdle.img.st = 0) ∧ (timLocked imIdle = true) ∧ (lcState imIdle ≠ 4) := by decide +kernel

theorem witness_ImageIsReceivedJudgedAndReleased_noReceipt :
    (imIdle.img.bytes ++ bytesOf 8 5 = imIdle.img.bytes ++ bytesOf 8 5) ∧ (imIdle.img.st ≠ 1) := by decide +kernel

theorem witness_ImageIsReceivedJudgedAndReleased_short :
    (imShort.img.bytes ++ bytesOf 8 5 = imShort.img.bytes ++ bytesOf 8 5) ∧ (imShort.img.st = 1) ∧
    ((imShort.img.bytes ++ bytesOf 8 5).length < 256) := by decide +kernel

theorem witness_ImageIsReceivedJudgedAndReleased_header :
    (imHdr.img.bytes ++ bytesOf 8 0 = imHdr.img.bytes ++ bytesOf 8 0) ∧ (imHdr.img.st = 1) ∧
    ((imHdr.img.bytes ++ bytesOf 8 0).length = 256) ∧ (hdrCode imHdr (imHdr.img.bytes ++ bytesOf 8 0) = 0) := by decide +kernel

theorem witness_ImageIsReceivedJudgedAndReleased_badHeader :
    (imHdrBad.img.bytes ++ bytesOf 8 0 = imHdrBad.img.bytes ++ bytesOf 8 0) ∧ (imHdrBad.img.st = 1) ∧
    ((imHdrBad.img.bytes ++ bytesOf 8 0).length = 256) ∧ (hdrCode imHdrBad (imHdrBad.img.bytes ++ bytesOf 8 0) ≠ 0) := by decide +kernel

theorem witness_ImageIsReceivedJudgedAndReleased_abort :
    (imBusy.img.st ≠ 0) ∧ (imBusy.img.st ≠ 3 ∨ frameGe (frameOf imBusy + 1) imBusy.img.switchT = false) := by decide +kernel

theorem witness_ImageIsReceivedJudgedAndReleased_lateAbort :
    (imLate.img.st = 0 ∨ imLate.img.st = 3 ∧ frameGe (frameOf imLate + 1) imLate.img.switchT = true) := by decide +kernel

theorem witness_ImageIsReceivedJudgedAndReleased_badSig :
    (imSealed.img.st = 2) ∧ (sigCode imSealed imSealed.img.bytes ≠ 0) := by decide +kernel

/-- A signature that verifies, with a key slot that holds the hash of its key. -/
theorem witness_ImageIsReceivedJudgedAndReleased_staged (hs : ∀ b, Config.sha384 b = bytesOf 48 5)
    (he : ∀ a b c, Config.ecdsaVerify a b c = true) (hm : ∀ a b c, Config.mldsaVerify a b c = true) :
    imGood.img.st = 2 ∧ verifyCode imGood = none := by
  simp only [verifyCode, sigCode, sigKeyEOk, sigKeyMOk, keyMatches, sigEOk, sigMOk, hs, he, hm]; decide +kernel

theorem witness_ImageIsReceivedJudgedAndReleased_passed :
    (imPre.img.st = 3) ∧ (imPre.img.prechecked = false) ∧ ((frameOf imPre + 1) % 2 ^ 48 = imPre.img.switchT) ∧
    (imgWaits imPre imPre.img.switchT = none) ∧ (imgConflict imPre = none) := by decide +kernel

theorem witness_ImageIsReceivedJudgedAndReleased_conflict :
    (imConf.img.st = 3) ∧ (imConf.img.prechecked = false) ∧ ((frameOf imConf + 1) % 2 ^ 48 = imConf.img.switchT) ∧
    (imgWaits imConf imConf.img.switchT = none) ∧ (imgConflict imConf = some (20, 0)) := by decide +kernel

theorem witness_ImageIsReceivedJudgedAndReleased_waits :
    (imWait.img.st = 3) ∧ (imWait.img.prechecked = false) ∧ ((frameOf imWait + 1) % 2 ^ 48 = imWait.img.switchT) ∧
    (imgWaits imWait imWait.img.switchT = some 9) ∧ (hdrFabric imWait.img.bytes = false) := by decide +kernel

theorem witness_ImageIsReceivedJudgedAndReleased_released :
    (imRel.img.release = some 9) ∧ (frameGe (frameOf imRel) 9 = true) := by decide +kernel

/-! Witnesses: power (16). -/

/-- PWR_REQ: action, kind, level, index. -/
def rq (a k l i : Nat) : BitVec 32 := BitVec.ofNat 32 (a <<< 20 ||| k <<< 18 ||| l <<< 16 ||| i)
/-- The same as the controller holds it. -/
def rh (a k l i : Nat) : BitVec 24 := BitVec.ofNat 24 (a <<< 20 ||| k <<< 18 ||| l <<< 16 ||| i)
def pw (p : Pwr) : State := { st [] with pwr := p }
def pwFree : State := pw {}
def pwBusy : State := pw { cur := some { req := rh 0 0 3 0, phase := 1 } }
def pwPend : State := pw { cur := some { req := rh 0 0 3 0, phase := 1 }, pend := some (rh 0 0 1 0) }
def pwBar : State := st [(aPwr 0x20, 0x64000200#64)]
def pwSet : State := { st [] with img := { loaded := true, route := [(0x10000, 1#64)] } }
def pwCg (st : BitVec 2) : State := pw { rinks := [(3, st)] }
def qUp : PwrReq := { req := rh 0 0 1 0, phase := 5 }
def pwUp : State := pw { cur := some qUp, vwait := true, vid := 0x40, pgood := false }
def qDrain : PwrReq := { req := rh 3 1 0 3, phase := 3, deadline := 65536 }
def qLate : PwrReq := { req := rh 1 0 0 7, phase := 3 }
def qEntry : PwrReq := { req := rh 1 1 0 3, phase := 5 }
def qWake : PwrReq := { req := rh 4 1 0 3, phase := 6 }
def pwCur (q : PwrReq) : State := pw { cur := some q }

theorem witness_PowerRequestsStartOrWait_pends :
    (rh 0 0 1 0 = BitVec.extractLsb' 0 24 (rq 0 0 1 0)) ∧ (pwrMay pwBusy Master.cp = true) ∧
    (Instr.pwrSetLevel Master.cp (rq 0 0 1 0) = Instr.pwrSetLevel Master.cp (rq 0 0 1 0) ∧ reqAction (rh 0 0 1 0) = 0 ∨ Instr.pwrSetLevel Master.cp (rq 0 0 1 0) = Instr.pwrCg Master.cp (rq 0 0 1 0) ∧ reqAction (rh 0 0 1 0) = 1 ∨ Instr.pwrSetLevel Master.cp (rq 0 0 1 0) = Instr.pwrRet Master.cp (rq 0 0 1 0) ∧ reqAction (rh 0 0 1 0) = 2 ∨ Instr.pwrSetLevel Master.cp (rq 0 0 1 0) = Instr.pwrOff Master.cp (rq 0 0 1 0) ∧ reqAction (rh 0 0 1 0) = 3 ∨ Instr.pwrSetLevel Master.cp (rq 0 0 1 0) = Instr.pwrWake Master.cp (rq 0 0 1 0) ∧ reqAction (rh 0 0 1 0) = 4) ∧
    (0 = reqKind (rh 0 0 1 0)) ∧ (0 = reqIndex (rh 0 0 1 0)) ∧ (1 = reqLevel (rh 0 0 1 0)) ∧ (pwBusy.pwr.cur.isSome = true) ∧
    (pwBusy.pwr.pend = none) := by decide +kernel

theorem witness_PowerRequestsStartOrWait_supersedes :
    (rh 0 0 0 0 = BitVec.extractLsb' 0 24 (rq 0 0 0 0)) ∧ (pwrMay pwPend Master.cp = true) ∧
    (Instr.pwrSetLevel Master.cp (rq 0 0 0 0) = Instr.pwrSetLevel Master.cp (rq 0 0 0 0) ∧ reqAction (rh 0 0 0 0) = 0 ∨ Instr.pwrSetLevel Master.cp (rq 0 0 0 0) = Instr.pwrCg Master.cp (rq 0 0 0 0) ∧ reqAction (rh 0 0 0 0) = 1 ∨ Instr.pwrSetLevel Master.cp (rq 0 0 0 0) = Instr.pwrRet Master.cp (rq 0 0 0 0) ∧ reqAction (rh 0 0 0 0) = 2 ∨ Instr.pwrSetLevel Master.cp (rq 0 0 0 0) = Instr.pwrOff Master.cp (rq 0 0 0 0) ∧ reqAction (rh 0 0 0 0) = 3 ∨ Instr.pwrSetLevel Master.cp (rq 0 0 0 0) = Instr.pwrWake Master.cp (rq 0 0 0 0) ∧ reqAction (rh 0 0 0 0) = 4) ∧
    (0 = reqKind (rh 0 0 0 0)) ∧ (0 = reqIndex (rh 0 0 0 0)) ∧ (0 = reqLevel (rh 0 0 0 0)) ∧ (pwPend.pwr.cur.isSome = true) ∧
    (pwPend.pwr.pend = some (rh 0 0 1 0)) := by decide +kernel

theorem witness_PowerRequestsStartOrWait_slower :
    (rh 0 0 3 0 = BitVec.extractLsb' 0 24 (rq 0 0 3 0)) ∧ (pwrMay pwFree Master.pwr = true) ∧
    (Instr.pwrSetLevel Master.pwr (rq 0 0 3 0) = Instr.pwrSetLevel Master.pwr (rq 0 0 3 0) ∧ reqAction (rh 0 0 3 0) = 0 ∨ Instr.pwrSetLevel Master.pwr (rq 0 0 3 0) = Instr.pwrCg Master.pwr (rq 0 0 3 0) ∧ reqAction (rh 0 0 3 0) = 1 ∨ Instr.pwrSetLevel Master.pwr (rq 0 0 3 0) = Instr.pwrRet Master.pwr (rq 0 0 3 0) ∧ reqAction (rh 0 0 3 0) = 2 ∨ Instr.pwrSetLevel Master.pwr (rq 0 0 3 0) = Instr.pwrOff Master.pwr (rq 0 0 3 0) ∧ reqAction (rh 0 0 3 0) = 3 ∨ Instr.pwrSetLevel Master.pwr (rq 0 0 3 0) = Instr.pwrWake Master.pwr (rq 0 0 3 0) ∧ reqAction (rh 0 0 3 0) = 4) ∧
    (0 = reqKind (rh 0 0 3 0)) ∧ (0 = reqIndex (rh 0 0 3 0)) ∧ (3 = reqLevel (rh 0 0 3 0)) ∧ (pwFree.pwr.cur = none) ∧
    (pwFree.pwr.pend = none) ∧ (pwFree.pwr.forced = none) ∧ (0 ≠ 3) ∧ (reqAction (rh 0 0 3 0) = 0) ∧
    (bitOf (rd pwFree (aPwr 32)) (16 + 3) = true) ∧ (bitOf (rd pwFree (aPwr 264)) 3 = false) ∧ (pwFree.pwr.lvl.toNat < 3) := by decide +kernel

theorem witness_PowerRequestsStartOrWait_faster :
    (rh 0 0 1 0 = BitVec.extractLsb' 0 24 (rq 0 0 1 0)) ∧ (pwrMay pwFree Master.cp = true) ∧
    (Instr.pwrSetLevel Master.cp (rq 0 0 1 0) = Instr.pwrSetLevel Master.cp (rq 0 0 1 0) ∧ reqAction (rh 0 0 1 0) = 0 ∨ Instr.pwrSetLevel Master.cp (rq 0 0 1 0) = Instr.pwrCg Master.cp (rq 0 0 1 0) ∧ reqAction (rh 0 0 1 0) = 1 ∨ Instr.pwrSetLevel Master.cp (rq 0 0 1 0) = Instr.pwrRet Master.cp (rq 0 0 1 0) ∧ reqAction (rh 0 0 1 0) = 2 ∨ Instr.pwrSetLevel Master.cp (rq 0 0 1 0) = Instr.pwrOff Master.cp (rq 0 0 1 0) ∧ reqAction (rh 0 0 1 0) = 3 ∨ Instr.pwrSetLevel Master.cp (rq 0 0 1 0) = Instr.pwrWake Master.cp (rq 0 0 1 0) ∧ reqAction (rh 0 0 1 0) = 4) ∧
    (0 = reqKind (rh 0 0 1 0)) ∧ (0 = reqIndex (rh 0 0 1 0)) ∧ (1 = reqLevel (rh 0 0 1 0)) ∧ (pwFree.pwr.cur = none) ∧
    (pwFree.pwr.pend = none) ∧ (pwFree.pwr.forced = none) ∧ (0 ≠ 3) ∧ (reqAction (rh 0 0 1 0) = 0) ∧
    (bitOf (rd pwFree (aPwr 32)) (16 + 1) = true) ∧ (bitOf (rd pwFree (aPwr 264)) 1 = false) ∧ (1 < pwFree.pwr.lvl.toNat) ∧
    (pwFree.pwr.vid.toNat ≠ vidCode pwFree 1) := by decide +kernel

theorem witness_PowerRequestsStartOrWait_barred :
    (rh 0 0 1 0 = BitVec.extractLsb' 0 24 (rq 0 0 1 0)) ∧ (pwrMay pwBar Master.cp = true) ∧
    (Instr.pwrSetLevel Master.cp (rq 0 0 1 0) = Instr.pwrSetLevel Master.cp (rq 0 0 1 0) ∧ reqAction (rh 0 0 1 0) = 0 ∨ Instr.pwrSetLevel Master.cp (rq 0 0 1 0) = Instr.pwrCg Master.cp (rq 0 0 1 0) ∧ reqAction (rh 0 0 1 0) = 1 ∨ Instr.pwrSetLevel Master.cp (rq 0 0 1 0) = Instr.pwrRet Master.cp (rq 0 0 1 0) ∧ reqAction (rh 0 0 1 0) = 2 ∨ Instr.pwrSetLevel Master.cp (rq 0 0 1 0) = Instr.pwrOff Master.cp (rq 0 0 1 0) ∧ reqAction (rh 0 0 1 0) = 3 ∨ Instr.pwrSetLevel Master.cp (rq 0 0 1 0) = Instr.pwrWake Master.cp (rq 0 0 1 0) ∧ reqAction (rh 0 0 1 0) = 4) ∧
    (0 = reqKind (rh 0 0 1 0)) ∧ (0 = reqIndex (rh 0 0 1 0)) ∧ (1 = reqLevel (rh 0 0 1 0)) ∧ (pwBar.pwr.cur = none) ∧
    (pwBar.pwr.pend = none) ∧ (pwBar.pwr.forced = none) ∧ (0 ≠ 3) ∧ (reqAction (rh 0 0 1 0) = 0) ∧
    (bitOf (rd pwBar (aPwr 32)) (16 + 1) = false ∨ bitOf (rd pwBar (aPwr 264)) 1 = true) := by decide +kernel

theorem witness_PowerRequestsStartOrWait_column :
    (rh 1 0 0 7 = BitVec.extractLsb' 0 24 (rq 1 0 0 7)) ∧ (pwrMay pwSet Master.cp = true) ∧
    (Instr.pwrCg Master.cp (rq 1 0 0 7) = Instr.pwrSetLevel Master.cp (rq 1 0 0 7) ∧ reqAction (rh 1 0 0 7) = 0 ∨ Instr.pwrCg Master.cp (rq 1 0 0 7) = Instr.pwrCg Master.cp (rq 1 0 0 7) ∧ reqAction (rh 1 0 0 7) = 1 ∨ Instr.pwrCg Master.cp (rq 1 0 0 7) = Instr.pwrRet Master.cp (rq 1 0 0 7) ∧ reqAction (rh 1 0 0 7) = 2 ∨ Instr.pwrCg Master.cp (rq 1 0 0 7) = Instr.pwrOff Master.cp (rq 1 0 0 7) ∧ reqAction (rh 1 0 0 7) = 3 ∨ Instr.pwrCg Master.cp (rq 1 0 0 7) = Instr.pwrWake Master.cp (rq 1 0 0 7) ∧ reqAction (rh 1 0 0 7) = 4) ∧
    (0 = reqKind (rh 1 0 0 7)) ∧ (7 = reqIndex (rh 1 0 0 7)) ∧ (0 = reqLevel (rh 1 0 0 7)) ∧ (pwSet.pwr.cur = none) ∧
    (pwSet.pwr.pend = none) ∧ (pwSet.pwr.forced = none) ∧ (0 ≠ 3) ∧ (1 ≤ reqAction (rh 1 0 0 7)) ∧ (reqAction (rh 1 0 0 7) ≤ 3) ∧
    (regionExists pwSet 0 7 = true) ∧ (regionOf pwSet 0 7 = 0) ∧ (sleepRefusal pwSet 0 7 = none) := by decide +kernel

theorem witness_PowerRequestsStartOrWait_rink :
    (rh 2 1 0 3 = BitVec.extractLsb' 0 24 (rq 2 1 0 3)) ∧ (pwrMay pwFree Master.cp = true) ∧
    (Instr.pwrRet Master.cp (rq 2 1 0 3) = Instr.pwrSetLevel Master.cp (rq 2 1 0 3) ∧ reqAction (rh 2 1 0 3) = 0 ∨ Instr.pwrRet Master.cp (rq 2 1 0 3) = Instr.pwrCg Master.cp (rq 2 1 0 3) ∧ reqAction (rh 2 1 0 3) = 1 ∨ Instr.pwrRet Master.cp (rq 2 1 0 3) = Instr.pwrRet Master.cp (rq 2 1 0 3) ∧ reqAction (rh 2 1 0 3) = 2 ∨ Instr.pwrRet Master.cp (rq 2 1 0 3) = Instr.pwrOff Master.cp (rq 2 1 0 3) ∧ reqAction (rh 2 1 0 3) = 3 ∨ Instr.pwrRet Master.cp (rq 2 1 0 3) = Instr.pwrWake Master.cp (rq 2 1 0 3) ∧ reqAction (rh 2 1 0 3) = 4) ∧
    (1 = reqKind (rh 2 1 0 3)) ∧ (3 = reqIndex (rh 2 1 0 3)) ∧ (0 = reqLevel (rh 2 1 0 3)) ∧ (pwFree.pwr.cur = none) ∧
    (pwFree.pwr.pend = none) ∧ (pwFree.pwr.forced = none) ∧ (1 ≠ 3) ∧ (1 ≤ reqAction (rh 2 1 0 3)) ∧ (reqAction (rh 2 1 0 3) ≤ 3) ∧
    (regionExists pwFree 1 3 = true) ∧ (regionOf pwFree 1 3 = 0) ∧ (1 ≠ 0) ∧ (sleepRefusal pwFree 1 3 = none) := by decide +kernel

theorem witness_PowerRequestsStartOrWait_ni :
    (rh 3 2 0 5 = BitVec.extractLsb' 0 24 (rq 3 2 0 5)) ∧ (pwrMay pwFree Master.cp = true) ∧
    (Instr.pwrOff Master.cp (rq 3 2 0 5) = Instr.pwrSetLevel Master.cp (rq 3 2 0 5) ∧ reqAction (rh 3 2 0 5) = 0 ∨ Instr.pwrOff Master.cp (rq 3 2 0 5) = Instr.pwrCg Master.cp (rq 3 2 0 5) ∧ reqAction (rh 3 2 0 5) = 1 ∨ Instr.pwrOff Master.cp (rq 3 2 0 5) = Instr.pwrRet Master.cp (rq 3 2 0 5) ∧ reqAction (rh 3 2 0 5) = 2 ∨ Instr.pwrOff Master.cp (rq 3 2 0 5) = Instr.pwrOff Master.cp (rq 3 2 0 5) ∧ reqAction (rh 3 2 0 5) = 3 ∨ Instr.pwrOff Master.cp (rq 3 2 0 5) = Instr.pwrWake Master.cp (rq 3 2 0 5) ∧ reqAction (rh 3 2 0 5) = 4) ∧
    (2 = reqKind (rh 3 2 0 5)) ∧ (5 = reqIndex (rh 3 2 0 5)) ∧ (0 = reqLevel (rh 3 2 0 5)) ∧ (pwFree.pwr.cur = none) ∧
    (pwFree.pwr.pend = none) ∧ (pwFree.pwr.forced = none) ∧ (2 ≠ 3) ∧ (1 ≤ reqAction (rh 3 2 0 5)) ∧ (reqAction (rh 3 2 0 5) ≤ 3) ∧
    (regionExists pwFree 2 5 = true) ∧ (regionOf pwFree 2 5 = 0) ∧ (2 ≠ 0) ∧ (sleepRefusal pwFree 2 5 = none) := by decide +kernel

theorem witness_PowerRequestsStartOrWait_refused :
    (rh 1 1 0 1 = BitVec.extractLsb' 0 24 (rq 1 1 0 1)) ∧ (pwrMay pwFree Master.cp = true) ∧
    (Instr.pwrCg Master.cp (rq 1 1 0 1) = Instr.pwrSetLevel Master.cp (rq 1 1 0 1) ∧ reqAction (rh 1 1 0 1) = 0 ∨ Instr.pwrCg Master.cp (rq 1 1 0 1) = Instr.pwrCg Master.cp (rq 1 1 0 1) ∧ reqAction (rh 1 1 0 1) = 1 ∨ Instr.pwrCg Master.cp (rq 1 1 0 1) = Instr.pwrRet Master.cp (rq 1 1 0 1) ∧ reqAction (rh 1 1 0 1) = 2 ∨ Instr.pwrCg Master.cp (rq 1 1 0 1) = Instr.pwrOff Master.cp (rq 1 1 0 1) ∧ reqAction (rh 1 1 0 1) = 3 ∨ Instr.pwrCg Master.cp (rq 1 1 0 1) = Instr.pwrWake Master.cp (rq 1 1 0 1) ∧ reqAction (rh 1 1 0 1) = 4) ∧
    (1 = reqKind (rh 1 1 0 1)) ∧ (1 = reqIndex (rh 1 1 0 1)) ∧ (0 = reqLevel (rh 1 1 0 1)) ∧ (pwFree.pwr.cur = none) ∧
    (pwFree.pwr.pend = none) ∧ (pwFree.pwr.forced = none) ∧ (1 ≠ 3) ∧ (1 ≤ reqAction (rh 1 1 0 1)) ∧ (reqAction (rh 1 1 0 1) ≤ 3) ∧
    (regionExists pwFree 1 1 = true) ∧ (regionOf pwFree 1 1 = 0) ∧ (sleepRefusal pwFree 1 1 = some 9) := by decide +kernel

theorem witness_PowerRequestsStartOrWait_wakeCg :
    (rh 4 1 0 3 = BitVec.extractLsb' 0 24 (rq 4 1 0 3)) ∧ (pwrMay (pwCg 1) Master.cp = true) ∧
    (Instr.pwrWake Master.cp (rq 4 1 0 3) = Instr.pwrSetLevel Master.cp (rq 4 1 0 3) ∧ reqAction (rh 4 1 0 3) = 0 ∨ Instr.pwrWake Master.cp (rq 4 1 0 3) = Instr.pwrCg Master.cp (rq 4 1 0 3) ∧ reqAction (rh 4 1 0 3) = 1 ∨ Instr.pwrWake Master.cp (rq 4 1 0 3) = Instr.pwrRet Master.cp (rq 4 1 0 3) ∧ reqAction (rh 4 1 0 3) = 2 ∨ Instr.pwrWake Master.cp (rq 4 1 0 3) = Instr.pwrOff Master.cp (rq 4 1 0 3) ∧ reqAction (rh 4 1 0 3) = 3 ∨ Instr.pwrWake Master.cp (rq 4 1 0 3) = Instr.pwrWake Master.cp (rq 4 1 0 3) ∧ reqAction (rh 4 1 0 3) = 4) ∧
    (1 = reqKind (rh 4 1 0 3)) ∧ (3 = reqIndex (rh 4 1 0 3)) ∧ (0 = reqLevel (rh 4 1 0 3)) ∧ ((pwCg 1).pwr.cur = none) ∧
    ((pwCg 1).pwr.pend = none) ∧ ((pwCg 1).pwr.forced = none) ∧ (1 ≠ 3) ∧ (reqAction (rh 4 1 0 3) = 4) ∧ (regionExists (pwCg 1) 1 3 = true) ∧
    (1 = 0 → ∀ c < 3, regionOf (pwCg 1) 0 c = 0) ∧ (regionOf (pwCg 1) 1 3 = 1) := by decide +kernel

theorem witness_PowerRequestsStartOrWait_wakeRet :
    (rh 4 1 0 3 = BitVec.extractLsb' 0 24 (rq 4 1 0 3)) ∧ (pwrMay (pwCg 2) Master.cp = true) ∧
    (Instr.pwrWake Master.cp (rq 4 1 0 3) = Instr.pwrSetLevel Master.cp (rq 4 1 0 3) ∧ reqAction (rh 4 1 0 3) = 0 ∨ Instr.pwrWake Master.cp (rq 4 1 0 3) = Instr.pwrCg Master.cp (rq 4 1 0 3) ∧ reqAction (rh 4 1 0 3) = 1 ∨ Instr.pwrWake Master.cp (rq 4 1 0 3) = Instr.pwrRet Master.cp (rq 4 1 0 3) ∧ reqAction (rh 4 1 0 3) = 2 ∨ Instr.pwrWake Master.cp (rq 4 1 0 3) = Instr.pwrOff Master.cp (rq 4 1 0 3) ∧ reqAction (rh 4 1 0 3) = 3 ∨ Instr.pwrWake Master.cp (rq 4 1 0 3) = Instr.pwrWake Master.cp (rq 4 1 0 3) ∧ reqAction (rh 4 1 0 3) = 4) ∧
    (1 = reqKind (rh 4 1 0 3)) ∧ (3 = reqIndex (rh 4 1 0 3)) ∧ (0 = reqLevel (rh 4 1 0 3)) ∧ ((pwCg 2).pwr.cur = none) ∧
    ((pwCg 2).pwr.pend = none) ∧ ((pwCg 2).pwr.forced = none) ∧ (1 ≠ 3) ∧ (reqAction (rh 4 1 0 3) = 4) ∧ (regionExists (pwCg 2) 1 3 = true) ∧
    (1 = 0 → ∀ c < 3, regionOf (pwCg 2) 0 c = 0) ∧ (regionOf (pwCg 2) 1 3 = 2) := by decide +kernel

theorem witness_PowerRequestsStartOrWait_wakeOff :
    (rh 4 1 0 3 = BitVec.extractLsb' 0 24 (rq 4 1 0 3)) ∧ (pwrMay (pwCg 3) Master.cp = true) ∧
    (Instr.pwrWake Master.cp (rq 4 1 0 3) = Instr.pwrSetLevel Master.cp (rq 4 1 0 3) ∧ reqAction (rh 4 1 0 3) = 0 ∨ Instr.pwrWake Master.cp (rq 4 1 0 3) = Instr.pwrCg Master.cp (rq 4 1 0 3) ∧ reqAction (rh 4 1 0 3) = 1 ∨ Instr.pwrWake Master.cp (rq 4 1 0 3) = Instr.pwrRet Master.cp (rq 4 1 0 3) ∧ reqAction (rh 4 1 0 3) = 2 ∨ Instr.pwrWake Master.cp (rq 4 1 0 3) = Instr.pwrOff Master.cp (rq 4 1 0 3) ∧ reqAction (rh 4 1 0 3) = 3 ∨ Instr.pwrWake Master.cp (rq 4 1 0 3) = Instr.pwrWake Master.cp (rq 4 1 0 3) ∧ reqAction (rh 4 1 0 3) = 4) ∧
    (1 = reqKind (rh 4 1 0 3)) ∧ (3 = reqIndex (rh 4 1 0 3)) ∧ (0 = reqLevel (rh 4 1 0 3)) ∧ ((pwCg 3).pwr.cur = none) ∧
    ((pwCg 3).pwr.pend = none) ∧ ((pwCg 3).pwr.forced = none) ∧ (1 ≠ 3) ∧ (reqAction (rh 4 1 0 3) = 4) ∧ (regionExists (pwCg 3) 1 3 = true) ∧
    (1 = 0 → ∀ c < 3, regionOf (pwCg 3) 0 c = 0) ∧ (regionOf (pwCg 3) 1 3 = 3) := by decide +kernel

theorem witness_PowerChangesProgressAndEnd_pgood :
    (pwFree.pwr.marginUps = []) ∧ (pwFree.pwr.cur = none) := by decide +kernel

theorem witness_PowerChangesProgressAndEnd_faster :
    (pwUp.pwr.marginUps = []) ∧ (pwUp.pwr.cur = some qUp) ∧ (reqAction qUp.req = 0) ∧ (qUp.phase = 5) ∧
    (pwUp.pwr.lvl.toNat ≠ reqLevel qUp.req) := by decide +kernel

theorem witness_PowerChangesProgressAndEnd_timeout :
    (pwUp.pwr.cur = some qUp) ∧ (pwUp.pwr.pend = none) ∧ (pwUp.pwr.forced = none) ∧ (reqAction qUp.req = 0) ∧ (qUp.phase = 5) ∧
    (pwUp.pwr.vwait = true) ∧ (reqLevel qUp.req < pwUp.pwr.lvl.toNat) ∧ (qUp.deadline ≤ nowNs pwUp) := by decide +kernel

theorem witness_PowerChangesProgressAndEnd_drained :
    ((pwCur qDrain).pwr.cur = some qDrain) ∧ ((pwCur qDrain).pwr.pend = none) ∧ ((pwCur qDrain).pwr.forced = none) ∧ (qDrain.phase = 3) ∧
    (nowNs (pwCur qDrain) < qDrain.deadline) ∧ (regionDrained (pwCur qDrain) (reqKind qDrain.req) (reqIndex qDrain.req) = true) ∧
    (accessOpen (pwCur qDrain) (reqKind qDrain.req) (reqIndex qDrain.req) = false) ∧
    (sleepRefusal (pwCur qDrain) (reqKind qDrain.req) (reqIndex qDrain.req) = none) := by decide +kernel

theorem witness_PowerChangesProgressAndEnd_late :
    ((pwCur qLate).pwr.cur = some qLate) ∧ ((pwCur qLate).pwr.pend = none) ∧ ((pwCur qLate).pwr.forced = none) ∧ (qLate.phase = 3) ∧
    (qLate.deadline ≤ nowNs (pwCur qLate)) ∧ (reqKind qLate.req = 0 ∨ reqDiscard qLate.req = false) := by decide +kernel

theorem witness_PowerChangesProgressAndEnd_entered :
    ((pwCur qEntry).pwr.cur = some qEntry) ∧ ((pwCur qEntry).pwr.pend = none) ∧ ((pwCur qEntry).pwr.forced = none) ∧ (qEntry.phase = 5) ∧
    (1 ≤ reqAction qEntry.req) ∧ (reqAction qEntry.req ≤ 3) ∧ (qEntry.readyNs ≤ nowNs (pwCur qEntry)) := by decide +kernel

theorem witness_PowerChangesProgressAndEnd_woken :
    ((pwCur qWake).pwr.cur = some qWake) ∧ ((pwCur qWake).pwr.pend = none) ∧ ((pwCur qWake).pwr.forced = none) ∧ (reqAction qWake.req = 4) ∧
    (qWake.phase = 5 ∨ qWake.phase = 6) ∧ (qWake.readyNs ≤ nowNs (pwCur qWake)) := by decide +kernel

/-! Witnesses: resets (17), the life cycle at power-up (22). -/

def lc (f : Fuses) : State := { st [(aTim 0x40, 0x40#64)] with lcs := { fuse := f, keyE := [(0, 5), (4, 6)], jrnA := 3 } }
def rsFree : State := lc { f1 := true }
def rsRet : State := lc { ir := true }
def rsScrap : State := lc { is := true }
def rsCold : State := { st [] with rst := { inCold := true, clearing := true, initDone := false } }
def rsWarm : State := ni 0 upNi { st niWords with img := { st := 3 }, pwr := { pend := some 1 } }
def rsIn : State := atNs 1000000 { st [(aEng 0x118, 3#64)] with rst := { warm := 1 } }
def rsHeld : State := { ni 0 { inRst := true } (ni 120 { inRst := true } (st [])) with rst := { warm := 2, warmAt := some 0 } }
def rsNi : State := ni 120 {} (ni 0 upNi (st niWords))
def rsSvc : State := ni 121 { inRst := true, reqs := [{ id := 1 }], trk := [(2, {})] } (st [])

theorem witness_PowerUpAndColdResetRun_por :
    ((rsFree.lcs.fuse.ir = false ∨ rsFree.lcs.fuse.f3 = true) ∧ (rsFree.lcs.fuse.is = false ∨ rsFree.lcs.fuse.f4 = true)) ∧
    (rsRet.lcs.fuse.ir = true ∧ rsRet.lcs.fuse.f3 = false) ∧ rsScrap.lcs.fuse.is = true ∧ rsScrap.lcs.fuse.f4 = false := by decide +kernel

theorem witness_PowerUpAndColdResetRun_assert :
    (rsFree.rst.rstN = true) := by decide +kernel

theorem witness_PowerUpAndColdResetRun_done :
    (rsCold.rst.inCold = true) ∧ (rsCold.rst.clearing = true) := by decide +kernel

theorem witness_WarmResetRunsItsSteps_write :
    (rsWarm.rst.warm = 0) ∧ (rsWarm.rst.inCold = false) ∧
    (Instr.glbRstWarm Master.cp = Instr.glbRstWarm Master.cp ∧ 4 = 4 ∨ Instr.glbRstWarm Master.cp = Instr.warmResetAssert ∧ 4 = 3) := by decide +kernel

theorem witness_WarmResetRunsItsSteps_pin :
    (rsWarm.rst.warm = 0) ∧ (rsWarm.rst.inCold = false) ∧
    (Instr.warmResetAssert = Instr.glbRstWarm Master.cp ∧ 3 = 4 ∨ Instr.warmResetAssert = Instr.warmResetAssert ∧ 3 = 3) := by decide +kernel

theorem witness_WarmResetRunsItsSteps_again :
    (rsIn.rst.warm ≠ 0) := by decide +kernel

theorem witness_WarmResetRunsItsSteps_quiesced :
    (rsIn.rst.warm = 1) ∧
    ((∀ (n : ℕ), isEpNi rsIn n = true → portEn rsIn n = true → (getNi rsIn n).region = 0 → (getNi rsIn n).port.inEp = true) ∨ rsIn.rst.warmNs + 1000000 ≤ nowNs rsIn) := 
  ⟨by decide +kernel, Or.inr (by decide +kernel)⟩

theorem witness_WarmResetRunsItsSteps_released :
    (rsHeld.rst.warm = 2) ∧ (rsHeld.rst.warmAt = some 0) ∧ (frameGe (frameOf rsHeld) 0 = true) := by decide +kernel

theorem witness_NiResetsBeginAndEnd_write :
    bitOf (1#64) 0 = true ∧ isEpNi rsNi 0 = true ∧ portEn rsNi 0 = true ∧ (getNi rsNi 0).port.inEp = false ∧ (getNi rsNi 0).inRst = false ∧
    (getNi rsNi 0).region = 0 ∧ bitOf (0x100000000000000#64) 56 = true ∧ isSvcNi rsNi 120 = true ∧ (getNi rsNi 120).inRst = false ∧
    (getNi rsNi 120).region = 0 := by decide +kernel

theorem witness_NiResetsBeginAndEnd_clock :
    (isEpNi rsNi 0 = true) ∧ ((getNi rsNi 0).port.up = true) ∧ (portEn rsNi 0 = true) ∧ ((getNi rsNi 0).inRst = false) ∧
    ((getNi rsNi 0).region = 0) := by decide +kernel

theorem witness_NiResetsBeginAndEnd_rink :
    (121 = 120 + 1) ∧ (isSvcNi rsSvc 121 = true) ∧ ((getNi rsSvc 121).inRst = true) ∧ (rsSvc.rst.warm = 0) := by decide +kernel

/-! Witnesses: faults (18). -/

def wireKey0 : Nat := wireKey .req 3 1
def flWire : State := atNs (5 * 1024) { st [] with rtrs := [(2, { rx := { wires := [(wireKey0, { due := some (5, 6), count := 7 })] } })] }
def flCnt : State := atNs (2 ^ 40) { st [] with rtrs := [(2, { rx := { wires := [(wireKey0, { count := 7 })] } })] }
/-- NI 40 stands on L0 of router 20 (05 Table 05.13), and its wire 6 of the link is due. -/
def flEnd : State := atNs (5 * 1024) (ni 40 { rx := { wires := [(wireKey .req 0 1, { due := some (5, 6) })] } } (st [(aRtr 20 0x2A0, 0xC0005650#64)]))
def flDecl : State := { st [] with flt := { declared := [(2, 9)] } }
def flCase : State := { st [] with flt := { caseR := some 2 }, rtrs := [(2, { failed := true })] }
def flBist : State := { st [] with flt := { caseR := some 2, bist := some 2 }, rtrs := [(2, { failed := true })] }
def rowKey : Nat := (7 * 256 + 0) * 2 ^ 24 + 5
def flRow (n : Nat) : State := { st [(0x520, 0x20000#64)] with flt := { rowErrs := if n = 0 then [] else [(rowKey, n)] } }
def rowKey5 : Nat := (6 * 256 + 0) * 2 ^ 24 + 5
/-- Every spare row of an array of kind 6 is taken. -/
def flFull : State := { st [(0x520, 0x20000#64)] with flt := { rowErrs := [(rowKey5, 1)], rowMap := (List.range 8).map fun r => (6, 0, 100 + r) } }

theorem witness_FaultsAreSteeredDeclaredAndSpared_steer :
    (wireKey0 = wireKey Plane.req 3 1) ∧ (mgetD (getRtr flWire 2).rx.wires wireKey0 { } = mgetD (getRtr flWire 2).rx.wires wireKey0 { }) ∧
    (wireExists flWire 2 3 = true) ∧ ((mgetD (getRtr flWire 2).rx.wires wireKey0 { }).due = some (5, 6)) ∧ (frameGe (frameOf flWire) 5 = true) ∧
    ((getRtr flWire 2).failed = false) := by decide +kernel

theorem witness_FaultsAreSteeredDeclaredAndSpared_end :
    (wireExists flEnd 20 6 = true) ∧ (niAtPort flEnd 20 6 = some (40, false)) ∧
    ((mgetD (getNi flEnd 40).rx.wires (wireKey Plane.req 0 1) { }).due = some (5, 6)) ∧ (frameGe (frameOf flEnd) 5 = true) ∧
    ((getRtr flEnd 20).failed = false) := by decide +kernel

theorem witness_FaultsAreSteeredDeclaredAndSpared_expireAlone : farEnd flCnt 2 3 = false := by decide +kernel

theorem witness_FaultsAreSteeredDeclaredAndSpared_expire :
    (wireKey0 = wireKey Plane.req 3 1) ∧ (mgetD (getRtr flCnt 2).rx.wires wireKey0 { } = mgetD (getRtr flCnt 2).rx.wires wireKey0 { }) ∧
    (wireExists flCnt 2 3 = true) ∧ ((mgetD (getRtr flCnt 2).rx.wires wireKey0 { }).count ≠ 0) ∧
    ((mgetD (getRtr flCnt 2).rx.wires wireKey0 { }).due = none) ∧
    (wsWin flCnt ≤ subMod 48 (frameOf flCnt) (mgetD (getRtr flCnt 2).rx.wires wireKey0 { }).since) := by decide +kernel

theorem witness_FaultsAreSteeredDeclaredAndSpared_heartbeat :
    (isRtr (st []) 2 = true) ∧ ((getRtr (st []) 2).failed = false) ∧
    (Instr.routerHeartbeatLoss 2#6 = Instr.routerHeartbeatLoss 2#6 ∧ colClocked (st []) (rtrCol (st []) 2) = true ∧ 1 = 1 ∨ Instr.routerHeartbeatLoss 2#6 = Instr.glbFltDecl Master.cp (256#32 ||| BitVec.zeroExtend 32 2#6) ∧ 1 = 4) := by decide +kernel

theorem witness_FaultsAreSteeredDeclaredAndSpared_declared :
    (isRtr flDecl 3 = true) ∧ ((getRtr flDecl 3).failed = false) ∧
    (Instr.glbFltDecl Master.cp (256#32 ||| BitVec.zeroExtend 32 3#6) = Instr.routerHeartbeatLoss 3#6 ∧ colClocked flDecl (rtrCol flDecl 3) = true ∧ 4 = 1 ∨ Instr.glbFltDecl Master.cp (256#32 ||| BitVec.zeroExtend 32 3#6) = Instr.glbFltDecl Master.cp (256#32 ||| BitVec.zeroExtend 32 3#6) ∧ 4 = 4) := by decide +kernel

theorem witness_FaultsAreSteeredDeclaredAndSpared_second :
    (isRtr flCase 3 = true) ∧ ((getRtr flCase 3).failed = false) ∧
    (Instr.routerHeartbeatLoss 3#6 = Instr.routerHeartbeatLoss 3#6 ∧ colClocked flCase (rtrCol flCase 3) = true ∧ 1 = 1 ∨ Instr.routerHeartbeatLoss 3#6 = Instr.glbFltDecl Master.cp (256#32 ||| BitVec.zeroExtend 32 3#6) ∧ 1 = 4) := by decide +kernel

theorem witness_FaultsAreSteeredDeclaredAndSpared_rehome :
    (flDecl.flt.declared = [(2, 9)]) := by decide +kernel

theorem witness_FaultsAreSteeredDeclaredAndSpared_restore :
    (flCase.flt.caseR = some 2) ∧ (flCase.flt.bist = none) ∧ (flCase.flt.restoreAt = none) := by decide +kernel

theorem witness_FaultsAreSteeredDeclaredAndSpared_noRestore :
    (flDecl.flt.caseR = none) := by decide +kernel

theorem witness_FaultsAreSteeredDeclaredAndSpared_test :
    (flBist.flt.bist = some 2) := by decide +kernel

theorem witness_FaultsAreSteeredDeclaredAndSpared_counted :
    (rowKey = (7 * 256 + 0) * 2 ^ 24 + 5) ∧ (rowUnit (flRow 0) 7 0 = true) ∧ (5 < rowsOf 7) ∧
    (mgetD (flRow 0).flt.rowErrs rowKey 0 + 1 ≠ max 1 (rdF (flRow 0) 1312 23 16)) := by decide +kernel

theorem witness_FaultsAreSteeredDeclaredAndSpared_moved :
    (rowKey = (7 * 256 + 0) * 2 ^ 24 + 5) ∧ (rowUnit (flRow 1) 7 0 = true) ∧ (5 < rowsOf 7) ∧
    (mgetD (flRow 1).flt.rowErrs rowKey 0 + 1 = max 1 (rdF (flRow 1) 1312 23 16)) ∧ (sparesUsed (flRow 1) 7 0 < sparesOf 7) := by decide +kernel

theorem witness_FaultsAreSteeredDeclaredAndSpared_full :
    (rowKey5 = (6 * 256 + 0) * 2 ^ 24 + 5) ∧ (rowUnit flFull 6 0 = true) ∧ (5 < rowsOf 6) ∧
    (mgetD flFull.flt.rowErrs rowKey5 0 + 1 = max 1 (rdF flFull 1312 23 16)) ∧ (sparesOf 6 ≤ sparesUsed flFull 6 0) := by decide +kernel

theorem witness_FaultsAreSteeredDeclaredAndSpared_router :
    (rowUnit (flRow 0) 5 2 = true) ∧ (5 < rowsOf 5) ∧ ((getRtr (flRow 0) 2).failed = false) := by decide +kernel

theorem witness_FaultsAreSteeredDeclaredAndSpared_entry :
    (rowUnit (flRow 0) 0 2 = true) ∧ (5 < rowsOf 0) ∧ (ebtLost (flRow 0) (5 * nRinks (flRow 0) + 2) = false) := by decide +kernel

/-! Witnesses: the matrix and the registers (19, 23), counters (20), notifications (18, 23). -/

def mxReq (a : Nat) (w : Bool) (len : Nat) : MmAcc := { addr := BitVec.ofNat 32 a, wr := w, data := true, len := len, target := reqTarget a len }
def mxHst (w : Bool) : MmAcc := { mxReq 0x13000 w 0 with m := .hst0 }
def mx (l : List MmAcc) : State := { st [] with mmx := { accs := l, nextId := 1 } }
def mxNone : State := st []
/-- The target that a grant leaves. -/
def tg0 : MmTgt := { park := some 0 }
def mxWr : MmAcc := { mxReq 0x108 true 0 with granted := true }
def mxWr2 : MmAcc := { mxReq 0x100 true 1 with granted := true }
def mxBad : MmAcc := { mxReq 0x108 true 0 with refused := some 2 }
def mxPc (w : Bool) : MmAcc := { mxReq 0x480000 w 31 with granted := true, piece := true, done := if w then 16 else 8 }
def mxLk (l : List MmAcc) : State := { st [] with mmx := { accs := l, nextId := 1, tgts := [(0, { locked := some 0 })] } }
/-- The access that ends the lock, granted before the lock is broken. -/
def mxFin : MmAcc := { mxReq 0x108 true 0 with granted := true, data := false }
def rgDown : State := { st [] with rst := { initDone := false } }
def mgMsg (o : BitVec 7) (a nb : Nat) (d : List Line) : Msg :=
  sealMsg { dst := 0, src := 3, opc := o, cls := 3, vcf := 5, tag := 2, addr := BitVec.ofNat 52 a, nbytes := BitVec.ofNat 13 nb, len := BitVec.ofNat 7 d.length, data := d }
def mgRd : Msg := mgMsg 0x78 (aNi 0 0xC8) 16 []
def mgWr : Msg := mgMsg 0x79 (aNi 0 0xC8) 4 [0x123456#512]
def mgAt (m : Msg) : State := ni 0 { upNi with inReq := [(m, false)] } (st niWords)
def mgAft (m : Msg) : State := updNi (mgAt m) 0 fun i => { i with inReq := [] }
def cnArm : State := { atNs (9 * 1024) (st [(0x410000, 5#64)]) with cnt := { armed := some 9 } }
def cnWait : State := { st [] with cnt := { armed := some 9 } }
def cnTook : State := { st [] with cnt := { taken := some 9 } }
def ntLoud : State := ni 0 { upNi with port := { up := true, ntfQ := List.replicate 15 0#64 } } (st [(aNi 0 0, 5#64), (0x110, 0x8000#64)])
def ntFull : State :=
  { ni 0 { upNi with port := { up := true, ntfQ := List.replicate 16 0#64 } } (st [(aNi 0 0, 5#64), (0x110, 0x8000#64)]) with
    ntf := { fwdQ := List.replicate 16 0#64 } }
def ntNote : Note := ⟨240, 0x131, 2, 9, some 0, 15⟩

theorem witness_MatrixServesAccesses_joins :
    (mxNone.mmx.accs = []) ∧ (true = true ∨ 0#8 = 0) ∧ (reqTarget 264 0 = reqTarget 264 0) ∧
    (16 * masterNo Master.cp + reqTarget 264 0 ∉ mxNone.mmx.broken) ∧
    (mxReq 264 false 0 = { addr := 264#32, data := true, len := 0, target := reqTarget 264 0, id := mxNone.mmx.nextId }) ∧
    (reqTarget 264 0 < 14) ∧ (barred mxNone Master.cp (reqTarget 264 0) = false) ∧ (priOf mxNone Master.cp (reqTarget 264 0) ≠ 0) := by decide +kernel

theorem witness_MatrixServesAccesses_barred :
    (mxNone.mmx.accs = []) ∧ (true = true ∨ 0#8 = 0) ∧ (reqTarget 77824 0 = reqTarget 77824 0) ∧
    (16 * masterNo Master.hst0 + reqTarget 77824 0 ∉ mxNone.mmx.broken) ∧
    (mxHst false = { m := Master.hst0, addr := 77824#32, data := true, len := 0, target := reqTarget 77824 0, id := mxNone.mmx.nextId }) ∧
    (reqTarget 77824 0 < 14) ∧ (barred mxNone Master.hst0 (reqTarget 77824 0) = true ∨ priOf mxNone Master.hst0 (reqTarget 77824 0) = 0) := by decide +kernel

theorem witness_MatrixServesAccesses_barredWrite :
    (mxNone.mmx.accs = []) ∧ (true = true ∨ 0#8 = 0) ∧ (reqTarget 77824 0 = reqTarget 77824 0) ∧
    (16 * masterNo Master.hst0 + reqTarget 77824 0 ∉ mxNone.mmx.broken) ∧
    (mxHst true = { m := Master.hst0, addr := 77824#32, wr := true, data := true, len := 0, target := reqTarget 77824 0, id := mxNone.mmx.nextId }) ∧
    (reqTarget 77824 0 < 14) ∧ (barred mxNone Master.hst0 (reqTarget 77824 0) = true ∨ priOf mxNone Master.hst0 (reqTarget 77824 0) = 0) := by decide +kernel

theorem witness_MatrixServesAccesses_unmapped :
    (mxNone.mmx.accs = []) ∧ (true = true ∨ 0#8 = 0) ∧ (reqTarget 4026531840 0 = reqTarget 4026531840 0) ∧
    (16 * masterNo Master.cp + reqTarget 4026531840 0 ∉ mxNone.mmx.broken) ∧
    (mxReq 4026531840 false 0 = { addr := 4026531840#32, data := true, len := 0, target := reqTarget 4026531840 0, id := mxNone.mmx.nextId }) ∧
    (reqTarget 4026531840 0 = 15) := by decide +kernel

theorem witness_MatrixServesAccesses_grantWrite :
    (0 < 15) ∧ ((mx [mxReq 264 true 0]).mmx.accs = [mxReq 264 true 0]) ∧ ((mxReq 264 true 0).target = 0) ∧
    ((mxReq 264 true 0).refused = none) ∧ ((mxReq 264 true 0).ended = false) ∧ ((mxReq 264 true 0).resp = []) ∧
    ((getTgt (mx [mxReq 264 true 0]) 0).locked = none) ∧
    ((updTgt (mx [mxReq 264 true 0]) 0 fun x => tg0) = updTgt (mx [mxReq 264 true 0]) 0 fun x => { park := some (BitVec.ofNat 3 (masterNo (mxReq 264 true 0).m)), locked := if (mxReq 264 true 0).lock = true then some (BitVec.ofNat 3 (masterNo (mxReq 264 true 0).m)) else none }) ∧
    ((mxReq 264 true 0).granted = false) ∧ ((mxReq 264 true 0).wr = true) ∧ (priOf (mx [mxReq 264 true 0]) (mxReq 264 true 0).m 0 ≠ 0) := by decide +kernel

theorem witness_MatrixServesAccesses_grantRead :
    (0 < 15) ∧ ((mx [mxReq 264 false 0]).mmx.accs = [mxReq 264 false 0]) ∧ ((mxReq 264 false 0).target = 0) ∧
    ((mxReq 264 false 0).refused = none) ∧ ((mxReq 264 false 0).ended = false) ∧ ((mxReq 264 false 0).resp = []) ∧
    ((getTgt (mx [mxReq 264 false 0]) 0).locked = none) ∧
    ((updTgt (mx [mxReq 264 false 0]) 0 fun x => tg0) = updTgt (mx [mxReq 264 false 0]) 0 fun x => { park := some (BitVec.ofNat 3 (masterNo (mxReq 264 false 0).m)), locked := if (mxReq 264 false 0).lock = true then some (BitVec.ofNat 3 (masterNo (mxReq 264 false 0).m)) else none }) ∧
    ((mxReq 264 false 0).granted = false) ∧ ((mxReq 264 false 0).wr = false) ∧ ((mxReq 264 false 0).len = 0) ∧
    ((mxReq 264 false 0).done = 0) ∧ ((mxReq 264 false 0).lock = false) ∧ (priOf (mx [mxReq 264 false 0]) (mxReq 264 false 0).m 0 ≠ 0) := by decide +kernel

theorem witness_MatrixServesAccesses_pieceWrite :
    (reqTarget 4718592 31 = (BitVec.ofNat 4 (reqTarget 4718592 31)).toNat) ∧ (reqTarget 4718592 31 < 15) ∧
    ((mx [mxPc true]).mmx.accs = [mxPc true]) ∧ ((mxPc true).target = reqTarget 4718592 31) ∧ ((mxPc true).refused = none) ∧
    ((mxPc true).ended = false) ∧ ((mxPc true).resp = []) ∧ ((getTgt (mx [mxPc true]) (reqTarget 4718592 31)).locked = none) ∧
    ((updTgt (mx [mxPc true]) (reqTarget 4718592 31) fun x => tg0) = updTgt (mx [mxPc true]) (reqTarget 4718592 31) fun x => { park := some (BitVec.ofNat 3 (masterNo (mxPc true).m)), locked := if (mxPc true).lock = true then some (BitVec.ofNat 3 (masterNo (mxPc true).m)) else none }) ∧
    ((mxPc true).granted = true) ∧ ((mxPc true).piece = true) ∧ ((mxPc true).wr = true) ∧ ((mxPc true).lock = false) := by decide +kernel

theorem witness_MatrixServesAccesses_pieceRead :
    (reqTarget 4718592 31 = (BitVec.ofNat 4 (reqTarget 4718592 31)).toNat) ∧ (reqTarget 4718592 31 < 15) ∧
    ((mx [mxPc false]).mmx.accs = [mxPc false]) ∧ ((mxPc false).target = reqTarget 4718592 31) ∧ ((mxPc false).refused = none) ∧
    ((mxPc false).ended = false) ∧ ((mxPc false).resp = []) ∧ ((getTgt (mx [mxPc false]) (reqTarget 4718592 31)).locked = none) ∧
    ((updTgt (mx [mxPc false]) (reqTarget 4718592 31) fun x => tg0) = updTgt (mx [mxPc false]) (reqTarget 4718592 31) fun x => { park := some (BitVec.ofNat 3 (masterNo (mxPc false).m)), locked := if (mxPc false).lock = true then some (BitVec.ofNat 3 (masterNo (mxPc false).m)) else none }) ∧
    ((mxPc false).granted = true) ∧ ((mxPc false).piece = true) ∧ ((mxPc false).wr = false) ∧ ((mxPc false).lock = false) ∧
    ((mxPc false).done + 16 ≤ (mxPc false).len) := by decide +kernel

theorem witness_MatrixServesAccesses_refusedBeat :
    ((mx [mxBad]).mmx.accs = [mxBad]) ∧ (mxBad.wr = true) ∧ (mxBad.ended = false) ∧ (mxBad.resp = []) ∧ (mxBad.refused = some 2#2) ∧
    (mxBad.done = mxBad.len) := by decide +kernel

theorem witness_MatrixServesAccesses_lastBeat :
    ((mx [mxWr]).mmx.accs = [mxWr]) ∧ (mxWr.wr = true) ∧ (mxWr.ended = false) ∧ (mxWr.resp = []) ∧ (mxWr.refused = none) ∧
    (mxWr.granted = true) ∧ (mxWr.piece = false) ∧
    (regWrite (mx [mxWr]) Master.cp 264 3#64 255#8 = regWrite (mx [mxWr]) mxWr.m (mxWr.addr.toNat + 8 * mxWr.done) 3#64 255#8) ∧
    ((regWrite (mx [mxWr]) Master.cp 264 3#64 255#8).2.mmx = (mx [mxWr]).mmx) ∧ (mxWr.done = mxWr.len) := by decide +kernel

theorem witness_MatrixServesAccesses_beat :
    ((mx [mxWr2]).mmx.accs = [mxWr2]) ∧ (mxWr2.wr = true) ∧ (mxWr2.ended = false) ∧ (mxWr2.resp = []) ∧ (mxWr2.refused = none) ∧
    (mxWr2.granted = true) ∧ (mxWr2.piece = false) ∧
    (regWrite (mx [mxWr2]) Master.cp 256 3#64 255#8 = regWrite (mx [mxWr2]) mxWr2.m (mxWr2.addr.toNat + 8 * mxWr2.done) 3#64 255#8) ∧
    ((regWrite (mx [mxWr2]) Master.cp 256 3#64 255#8).2.mmx = (mx [mxWr2]).mmx) ∧ (mxWr2.done < mxWr2.len) := by decide +kernel

theorem witness_MatrixServesAccesses_break :
    ((getTgt (mxLk []) 0).locked = some 0#3) ∧ ((mxLk []).mmx.accs = []) := by decide +kernel

theorem witness_MatrixServesAccesses_breakOther :
    ((getTgt (mxLk [mxHst false]) 0).locked = some 0#3) ∧ (∀ a ∈ (mxLk [mxHst false]).mmx.accs, masterNo a.m ≠ 0 ∨ a.target ≠ 0) ∧
    (mxLk [mxHst false]).mmx.accs ≠ [] := by decide +kernel

theorem witness_MatrixServesAccesses_breakLast :
    ((getTgt (mxLk [mxFin]) 0).locked = some 0#3) ∧ (mxFin ∈ (mxLk [mxFin]).mmx.accs) ∧ (masterNo mxFin.m = 0) ∧ (mxFin.target = 0) ∧
    (mxFin.granted = true) ∧ (mxFin.ended = false) ∧ (mxFin.lock = false) ∧ (mxFin.data = false) := by decide +kernel

theorem witness_MatrixServesAccesses_breakHeld :
    ((getTgt (mxLk [mxReq 264 false 0]) 0).locked = some 0#3) ∧ ((mxLk [mxReq 264 false 0]).mmx.accs = [mxReq 264 false 0]) ∧
    (masterNo (mxReq 264 false 0).m = 0) ∧ ((mxReq 264 false 0).target = 0) ∧ ((mxReq 264 false 0).granted = false) ∧
    ((mxReq 264 false 0).refused = none) ∧ ((mxReq 264 false 0).wr = false) := by decide +kernel

theorem witness_RegistersAreWrittenAndRead_rw :
    (15#8 &&& 15 = 15) := by decide +kernel

theorem witness_RegistersAreWrittenAndRead_w1c :
    (255#8 = 255) := by decide +kernel

theorem witness_RegistersAreWrittenAndRead_rwt :
    (15#8 &&& 15 = 15) := by decide +kernel

theorem witness_RegistersAreWrittenAndRead_master :
    (15#8 &&& 15 = 15) ∧ (Master.hst0 ≠ Master.cp) := by decide +kernel

theorem witness_RegistersAreWrittenAndRead_part :
    (3#8 &&& 15 ≠ 15) ∧ (3#8 &&& 15 ≠ 0) := by decide +kernel

theorem witness_RegistersAreWrittenAndRead_notReady :
    (rgDown.rst.initDone = false) ∧ (77824 ≤ 77824) := by decide +kernel

theorem witness_RegistersAreWrittenAndRead_cold :
    (255#8 &&& 15 = 15) ∧ (bitOf (3#64) 0 = true) := by decide +kernel

theorem witness_RegistersAreWrittenAndRead_mgRead :
    (0 < 128) ∧ (clsOk mgRd = true) ∧ (mgRd.taint = false) ∧ (msgCrc mgRd = mgRd.crc) ∧ (niDown (mgAt mgRd) 0 = false) ∧
    (aNi 0 200 = mgRd.addr.toNat) ∧ (aNi 0 200 % 8 = 0) ∧
    (mgAft mgRd = updNi (mgAt mgRd) 0 fun i => { i with inReq := [] }) ∧
    ((getNi (mgAt mgRd) 0).answers.length < 16) ∧ ((takeFirst (getNi (mgAt mgRd) 0).inReq fun q => q.1.opc.toNat == 120) = (some (mgRd, false), [])) ∧
    (2 = ceilDiv (max 1 mgRd.nbytes.toNat) 8) ∧ (aNi 0 0 ≤ aNi 0 200) ∧ (aNi 0 200 + 8 * 2 ≤ aNi (0 + 1) 0) := by decide +kernel

theorem witness_RegistersAreWrittenAndRead_mgWrite :
    (0 < 128) ∧ (clsOk mgWr = true) ∧ (mgWr.taint = false) ∧ (msgCrc mgWr = mgWr.crc) ∧ (niDown (mgAt mgWr) 0 = false) ∧
    (aNi 0 200 = mgWr.addr.toNat) ∧ (aNi 0 200 % 8 = 0) ∧
    (mgAft mgWr = updNi (mgAt mgWr) 0 fun i => { i with inReq := [] }) ∧
    ((getNi (mgAt mgWr) 0).answers.length < 16) ∧ ((takeFirst (getNi (mgAt mgWr) 0).inReq fun q => q.1.opc.toNat == 121) = (some (mgWr, false), [])) ∧ (isNi (mgAt mgWr) 0 = true) ∧
    ((getNi (mgAt mgWr) 0).region = 0) ∧ (mgWr.nbytes = 4) ∧ ((mgAt mgWr).rst.initDone = true) := by decide +kernel

theorem witness_SnapshotCopiesCounters_arm :
    (bitOf (281474976710661#64) 48 = true) := by decide +kernel

theorem witness_SnapshotCopiesCounters_late :
    (bitOf (281474976710661#64) 48 = true) := by decide +kernel

theorem witness_SnapshotCopiesCounters_taken :
    (cnArm.cnt.armed = some 9) ∧ (frameGe (frameOf cnArm) 9 = true) ∧ (regsWf cnArm.regs = true) := by decide +kernel

theorem witness_SnapshotCopiesCounters_waits :
    (cnWait.cnt.armed = some 9) ∧ (frameGe (frameOf cnWait) 9 = false) := by decide +kernel

theorem witness_SnapshotCopiesCounters_done :
    (cnTook.cnt.taken = some 9) ∧ (9 < 2 ^ 48) := by decide +kernel

theorem witness_NotificationTakesItsRoutes_raised :
    (128 ≤ ntNote.unit) := by decide +kernel

theorem witness_NotificationTakesItsRoutes_full :
    (128 ≤ ntNote.unit) := by decide +kernel

theorem witness_NotificationTakesItsRoutes_taken :
    (isEpNi ntLoud 0 = true) ∧ (bitOf (rd ntLoud (aNi 0 0)) 2 = true) := by decide +kernel

/-! Witnesses: slots (21) and the life cycle (22). -/

def sl (w : List (Nat × Word)) (q : SlotSt) : State := atNs 2000000000 (ni 0 { slot := q } (st w))
/-- The same with the slot enabled. -/
def slE (q : SlotSt) : State := sl [(aNi 0 0x1F00, 1#64)] q
def slEmpty : SlotSt := { state := 1 }
def slHere : SlotSt := { state := 2, prsntN := false, lowSince := 1980000000 }
def slGone (x : BitVec 3) : SlotSt := { state := x, preq := true, en := true, debounced := true, highSince := 1999900000 }
def slRamp : SlotSt := { state := 4, en := true, prsntN := false, rampNs := 1000000000 }
def slRamp2 : SlotSt := { state := 4, en := true, prsntN := false, rampNs := 1000000000, fcnt := 2 }
def slOn : SlotSt := { state := 5, en := true, prsntN := false, pgood := true }
def slLow : SlotSt := { state := 5, en := true, prsntN := false, pgLow := some 1999995000 }
def slLost : SlotSt := { state := 5, en := true, prsntN := false, pgLow := some 1000000000 }
def slRetry : SlotSt := { state := 6, debounced := true, preq := true, prsntN := false, retryEnd := 2000000000 }
def slLock : SlotSt := { state := 7, perm := true }
def slTbt : State := ni 0 { slot := slOn, dec := { tbt := [(0, {})] } } (st [])
def slJrn : State := sl [(aJrn 0x10, 1#64)] slOn
def tkFree : State := st []
def tkBusy : State := { st [] with lcs := { busy := true } }
/-- A token that is whole, of zero bytes: its format is wrong. -/
def tkBad : State := { st [] with lcs := { busy := true, bytes := List.replicate 64 0 } }
def kyBlank : State := { st [] with lcs := { kbuf := 9, keyE := [(1, 5)] } }
def seOpen : State := atNs (9 * 1024) { st [] with lcs := { session := some (1, true, false, 9) } }
def seLong : State := { st [] with lcs := { session := some (1, true, false, 9) } }
def jtScan : State := { st [] with lcs := { jtag := .scan } }
def jtExt : State := { st [] with lcs := { jtag := .extest } }

theorem witness_SlotFollowsItsPins_inserted :
    (slEmpty = getSlt (sl [] slEmpty) 0) ∧ (slotHas (sl [] slEmpty) 0 = true) ∧ (slEmpty.prsntN = true) := by decide +kernel

theorem witness_SlotFollowsItsPins_removed :
    (slHere = getSlt (sl [] slHere) 0) ∧ (slotHas (sl [] slHere) 0 = true) ∧ (slHere.prsntN = false) := by decide +kernel

theorem witness_SlotFollowsItsPins_disabled :
    (slOn = getSlt (sl [] slOn) 0) ∧ (slotHas (sl [] slOn) 0 = true) ∧ (bitOf (slotCfg (sl [] slOn) 0) 0 = false) := by decide +kernel

theorem witness_SlotFollowsItsPins_present :
    (slHere = getSlt (slE slHere) 0) ∧ (slotHas (slE slHere) 0 = true) ∧ (bitOf (slotCfg (slE slHere) 0) 0 = true) ∧ (slHere.state = 2) ∧ (slHere.prsntN = false) ∧
    (slHere.debounced = false) ∧ (slHere.lowSince + 20000000 ≤ nowNs (slE slHere)) ∧
    (slHere.preq = false ∧ bitOf (slotCfg (slE slHere) 0) 1 = false) := by decide +kernel

theorem witness_SlotFollowsItsPins_autoOn :
    (slHere = getSlt (sl [(aNi 0 7936, 3#64)] slHere) 0) ∧ (slotHas (sl [(aNi 0 7936, 3#64)] slHere) 0 = true) ∧ (bitOf (slotCfg (sl [(aNi 0 7936, 3#64)] slHere) 0) 0 = true) ∧ (slHere.state = 2) ∧
    (slHere.prsntN = false) ∧ (slHere.debounced = false) ∧ (slHere.lowSince + 20000000 ≤ nowNs (sl [(aNi 0 7936, 3#64)] slHere)) ∧
    (slHere.preq = true ∨ bitOf (slotCfg (sl [(aNi 0 7936, 3#64)] slHere) 0) 1 = true) := by decide +kernel

theorem witness_SlotFollowsItsPins_absent :
    (slGone 3 = getSlt (slE (slGone 3)) 0) ∧ (slotHas (slE (slGone 3)) 0 = true) ∧ (bitOf (slotCfg (slE (slGone 3)) 0) 0 = true) ∧ ((slGone 3).prsntN = true) ∧
    ((slGone 3).highSince + 100000 ≤ nowNs (slE (slGone 3))) ∧ ((slGone 3).state = 2 ∨ (slGone 3).state = 3 ∨ (slGone 3).state = 4) := by decide +kernel

theorem witness_SlotFollowsItsPins_surprise :
    (slGone 5 = getSlt (slE (slGone 5)) 0) ∧ (slotHas (slE (slGone 5)) 0 = true) ∧ (bitOf (slotCfg (slE (slGone 5)) 0) 0 = true) ∧ ((slGone 5).prsntN = true) ∧
    ((slGone 5).highSince + 100000 ≤ nowNs (slE (slGone 5))) ∧ ((slGone 5).state = 5) := by decide +kernel

theorem witness_SlotFollowsItsPins_on :
    (slRamp = getSlt (slE slRamp) 0) ∧ (slotHas (slE slRamp) 0 = true) ∧ (bitOf (slotCfg (slE slRamp) 0) 0 = true) ∧ (slRamp.pgood = false) ∧ (slRamp.state = 4) ∧
    (slRamp.fltN = true) := by decide +kernel

theorem witness_SlotFollowsItsPins_glitch :
    (slLow = getSlt (slE slLow) 0) ∧ (slotHas (slE slLow) 0 = true) ∧ (bitOf (slotCfg (slE slLow) 0) 0 = true) ∧ (slLow.pgood = false) ∧ (slLow.state = 5) ∧
    (slLow.pgLow = some 1999995000) ∧ (nowNs (slE slLow) < 1999995000 + pgGlitch (slE slLow) 0) := by decide +kernel

theorem witness_SlotFollowsItsPins_rampEnds :
    (slRamp = getSlt (slE slRamp) 0) ∧ (slotHas (slE slRamp) 0 = true) ∧ (bitOf (slotCfg (slE slRamp) 0) 0 = true) ∧ (slRamp.state = 4) ∧
    (slRamp.rampNs + rampTo (slE slRamp) 0 ≤ nowNs (slE slRamp)) ∧ (slRamp.fcnt.toNat < 2) := by decide +kernel

theorem witness_SlotFollowsItsPins_rampLocks :
    (slRamp2 = getSlt (slE slRamp2) 0) ∧ (slotHas (slE slRamp2) 0 = true) ∧ (bitOf (slotCfg (slE slRamp2) 0) 0 = true) ∧ (slRamp2.state = 4) ∧
    (slRamp2.rampNs + rampTo (slE slRamp2) 0 ≤ nowNs (slE slRamp2)) ∧ (2 ≤ slRamp2.fcnt.toNat) := by decide +kernel

theorem witness_SlotFollowsItsPins_rampFault :
    (slRamp = getSlt (slE slRamp) 0) ∧ (slotHas (slE slRamp) 0 = true) ∧ (bitOf (slotCfg (slE slRamp) 0) 0 = true) ∧ (slRamp.state = 4) ∧ (0#2 ≠ 1) ∧ (slRamp.fcnt.toNat < 2) := by decide +kernel

theorem witness_SlotFollowsItsPins_fault :
    (slOn = getSlt (slE slOn) 0) ∧ (slotHas (slE slOn) 0 = true) ∧ (bitOf (slotCfg (slE slOn) 0) 0 = true) ∧ (slOn.state = 5) ∧ (2#2 ≠ 1) := by decide +kernel

theorem witness_SlotFollowsItsPins_drop :
    (slOn = getSlt (slE slOn) 0) ∧ (slotHas (slE slOn) 0 = true) ∧ (bitOf (slotCfg (slE slOn) 0) 0 = true) ∧ (slOn.state = 5) ∧ (slOn.pgood = true) := by decide +kernel

theorem witness_SlotFollowsItsPins_lost :
    (slLost = getSlt (slE slLost) 0) ∧ (slotHas (slE slLost) 0 = true) ∧ (bitOf (slotCfg (slE slLost) 0) 0 = true) ∧ (slLost.state = 5) ∧ (slLost.pgLow = some 1000000000) ∧
    (1000000000 + pgGlitch (slE slLost) 0 ≤ nowNs (slE slLost)) := by decide +kernel

theorem witness_SlotFollowsItsPins_feed :
    (slOn = getSlt (slE slOn) 0) ∧ (slotHas (slE slOn) 0 = true) ∧ (bitOf (slotCfg (slE slOn) 0) 0 = true) ∧ (slOn.state = 5) ∧ (1#2 ≠ slOn.feed) := by decide +kernel

theorem witness_SlotFollowsItsPins_gate :
    (slOn = getSlt (slE slOn) 0) ∧ (slotHas (slE slOn) 0 = true) ∧ (bitOf (slotCfg (slE slOn) 0) 0 = true) ∧ (slOn.state ≠ 0) := by decide +kernel

theorem witness_SlotFollowsItsPins_retry :
    (slRetry = getSlt (slE slRetry) 0) ∧ (slotHas (slE slRetry) 0 = true) ∧ (bitOf (slotCfg (slE slRetry) 0) 0 = true) ∧ (slRetry.state = 6) ∧
    (slRetry.retryEnd ≤ nowNs (slE slRetry)) := by decide +kernel

theorem witness_SlotCommandsAreCarriedOut_mclr :
    (slLock = getSlt (sl [] slLock) 0) ∧ (slotHas (sl [] slLock) 0 = true) := by decide +kernel

theorem witness_SlotCommandsAreCarriedOut_clear :
    (slLock = getSlt (sl [] slLock) 0) ∧ (slotHas (sl [] slLock) 0 = true) := by decide +kernel

theorem witness_SlotCommandsAreCarriedOut_plock :
    (slOn = getSlt (sl [] slOn) 0) ∧ (slotHas (sl [] slOn) 0 = true) := by decide +kernel

theorem witness_SlotCommandsAreCarriedOut_offBound :
    (slOn = getSlt slTbt 0) ∧ (slotHas slTbt 0 = true) ∧ (slOn.state = 5) ∧ ((getNi slTbt 0).dec.tbt ≠ []) := by decide +kernel

theorem witness_SlotCommandsAreCarriedOut_offHome :
    (slOn = getSlt slJrn 0) ∧ (slotHas slJrn 0 = true) ∧ (slOn.state ≠ 5 ∨ true = true ∨ (getNi slJrn 0).dec.tbt = []) ∧
    (slotHome slJrn 0 = true) := by decide +kernel

theorem witness_SlotCommandsAreCarriedOut_off :
    (slOn = getSlt (sl [] slOn) 0) ∧ (slotHas (sl [] slOn) 0 = true) ∧
    (slOn.state ≠ 5 ∨ false = true ∨ (getNi (sl [] slOn) 0).dec.tbt = []) ∧ (slotHome (sl [] slOn) 0 = false) := by decide +kernel

theorem witness_SlotCommandsAreCarriedOut_on :
    (slOn = getSlt (sl [] slOn) 0) ∧ (slotHas (sl [] slOn) 0 = true) := by decide +kernel

theorem witness_SlotCommandsAreCarriedOut_master :
    (slOn = getSlt (sl [] slOn) 0) ∧ (slotHas (sl [] slOn) 0 = true) ∧ (Master.hst0 ≠ Master.cp) ∧
    (Instr.slotOn Master.hst0 0#6 = Instr.mclr Master.hst0 0#6 ∨ Instr.slotOn Master.hst0 0#6 = Instr.clear Master.hst0 0#6 ∨ Instr.slotOn Master.hst0 0#6 = Instr.plock Master.hst0 0#6 ∨ Instr.slotOn Master.hst0 0#6 = Instr.slotOff Master.hst0 (0#6) false ∨ Instr.slotOn Master.hst0 0#6 = Instr.slotOn Master.hst0 0#6) := by decide +kernel

theorem witness_TokensAreHeldAndRefused_start :
    (Master.cp = Master.cp ∨ Master.cp = Master.sec) ∧ (tkFree.lcs.busy = false) := by decide +kernel

theorem witness_TokensAreHeldAndRefused_busy :
    (Master.sec = Master.cp ∨ Master.sec = Master.sec) ∧ (tkBusy.lcs.busy = true) := by decide +kernel

theorem witness_TokensAreHeldAndRefused_data :
    (Master.cp = Master.cp ∨ Master.cp = Master.sec) ∧ (tkBusy.lcs.busy = true) ∧ (tokWhole tkBusy.lcs.bytes = false) := by decide +kernel

theorem witness_TokensAreHeldAndRefused_noToken :
    (Master.cp = Master.cp ∨ Master.cp = Master.sec) ∧ (tkFree.lcs.busy = false ∨ tokWhole tkFree.lcs.bytes = true) := by decide +kernel

theorem witness_TokensAreHeldAndRefused_abort :
    (Master.cp = Master.cp ∨ Master.cp = Master.sec) ∧ (tkBusy.lcs.busy = true) := by decide +kernel

theorem witness_TokensAreHeldAndRefused_noAbort :
    (Master.cp = Master.cp ∨ Master.cp = Master.sec) ∧ (tkFree.lcs.busy = false) := by decide +kernel

theorem witness_TokensAreHeldAndRefused_refused :
    (Master.cp = Master.cp ∨ Master.cp = Master.sec) ∧ (tokenDue tkBad = true) ∧ (tokenCode tkBad ≠ 0) := by decide +kernel

theorem witness_KeysSessionsAndTestAccess_key :
    (false = bitOf (2147483648#32) 8) ∧ (0 = 2147483648 % 8) ∧ (bitOf (2147483648#32) 31 = true) ∧ (keyMay kyBlank Master.cp false 0 = true) := by decide +kernel

theorem witness_KeysSessionsAndTestAccess_keyWiped :
    (false = bitOf (2147483648#32) 8) ∧ (0 = 2147483648 % 8) ∧ (bitOf (2147483648#32) 31 = true) ∧ (keyMay kyBlank Master.cp false 0 = true) := by decide +kernel

theorem witness_KeysSessionsAndTestAccess_barred :
    (false = bitOf (2147483649#32) 8) ∧ (1 = 2147483649 % 8) ∧ (bitOf (2147483649#32) 31 = true) ∧ (keyMay kyBlank Master.cp false 1 = false) := by decide +kernel

theorem witness_KeysSessionsAndTestAccess_noWrite :
    (false = bitOf (0#32) 8) ∧ (0 = 0 % 8) ∧ (bitOf (0#32) 31 = false) := by decide +kernel

theorem witness_KeysSessionsAndTestAccess_relock :
    (Master.cp = Master.cp ∨ Master.cp = Master.sec) ∧ (seOpen.lcs.session ≠ none) := by decide +kernel

theorem witness_KeysSessionsAndTestAccess_noSession :
    (Master.sec = Master.cp ∨ Master.sec = Master.sec) ∧ (tkFree.lcs.session = none) := by decide +kernel

theorem witness_KeysSessionsAndTestAccess_expires :
    (seOpen.lcs.session = some (1#15, true, false, 9)) ∧ (frameGe (frameOf seOpen) 9 = true) := by decide +kernel

theorem witness_KeysSessionsAndTestAccess_stays :
    (seLong.lcs.session = some (1#15, true, false, 9)) ∧ (frameGe (frameOf seLong) 9 = false) := by decide +kernel

theorem witness_KeysSessionsAndTestAccess_instr :
    (disturbs tkFree.lcs.jtag = false ∨ tkFree.lcs.jtag = JtagOp.idcode) := by decide +kernel

theorem witness_KeysSessionsAndTestAccess_leaves :
    (disturbs jtScan.lcs.jtag = true) ∧ (jtScan.lcs.jtag ≠ JtagOp.idcode) := by decide +kernel

theorem witness_KeysSessionsAndTestAccess_scanEnd :
    (jtExt.lcs.jtag = if true = true then JtagOp.extest else JtagOp.scan) := by decide +kernel

theorem witness_KeysSessionsAndTestAccess_noScan :
    (jtExt.lcs.jtag ≠ if false = true then JtagOp.extest else JtagOp.scan) := by decide +kernel

/-- A token of a kind with n signature blocks whose keys are in slot e, as it is received. -/
def tok (kind n e arg0 arg1 : Nat) : List (BitVec 8) :=
  bytesOf 4 0x4E4B544C ++ [BitVec.ofNat 8 kind, BitVec.ofNat 8 n] ++ List.replicate 18 0 ++ bytesOf 8 arg0 ++ bytesOf 8 arg1 ++ List.replicate 24 0 ++
    (bytesOf 2 e ++ bytesOf 2 e ++ List.replicate 8188 0) ++ (if n = 2 then List.replicate 8192 0 else [])
/-- The state that holds it, with one maker and one owner key of each sort. -/
def tkAt (f : Fuses) (b : List (BitVec 8)) : State :=
  { st [] with lcs := { fuse := f, busy := true, bytes := b, keyE := [(0, 5), (2, 5)], keyM := [(0, 5), (2, 5)] } }
def tkProv : State := tkAt {} (tok 1 1 0 0 0)
def tkField : State := tkAt { f1 := true } (tok 2 1 2 0 0)
def tkRet : State := tkAt { f1 := true, f2 := true } (tok 3 2 2 0 0)
def tkScrap : State := tkAt {} (tok 4 1 0 0 0)
def tkDebug : State := tkAt { f1 := true, f2 := true } (tok 5 1 2 1 1)
def tkFloor : State := tkAt {} (tok 6 1 0 7 0)

/-- Tokens of every kind pass their checks where their signatures verify and the key slots hold the hashes of their keys. -/
theorem witness_AcceptedTokensTakeEffect (hs : ∀ b, Config.sha384 b = bytesOf 48 5) (he : ∀ a b c, Config.ecdsaVerify a b c = true)
    (hm : ∀ a b c, Config.mldsaVerify a b c = true) :
    tokenIs tkProv 1 = true ∧ tokenIs tkField 2 = true ∧ tokenIs tkRet 3 = true ∧ tokenIs tkScrap 4 = true ∧ tokenIs tkDebug 5 = true ∧
    tokenIs tkFloor 6 = true := by
  simp only [tokenIs, tokenCode, sigKeyEOk, sigKeyMOk, keyMatches, sigEOk, sigMOk, hs, he, hm]; decide +kernel

/-! Witnesses: hypotheses that stand inside a conclusion, at the values where two clauses meet. -/

theorem witness_PpsEdgesAreJudgedAndOutputsPulse_inner :
    ppsOn (st []) = false ∧ ppsOn tPps = true ∧ 100000 < |ppsError (nowNs (atNs 999899999 tPps))| ∧
    |ppsError (nowNs (atNs 999900000 tPps))| ≤ 100000 ∧ |ppsError (nowNs (atNs 100000 tPps))| ≤ 100000 ∧
    100000 < |ppsError (nowNs (atNs 100001 tPps))| := by decide +kernel

theorem witness_AnswersLeaveAndPisteLaunches_frames : stg0.frame = frameOf nAns ∧ stgLate.frame ≠ frameOf nLate := by decide +kernel

theorem witness_PiecesLeaveAsCreditsLast_wheel :
    ((List.range 16).any fun q => match (getQ (getNi nWheel 0) q).wheel with | some b => nowNs nWheel < b * 2 | none => false) = true ∧
    ((List.range 16).any fun q => let u := getQ (getNi nWheel 0) q; match u.wheel with
      | some b => b * 2 ≤ nowNs nWheel ∧ u.tElig / 512 * 2 ≤ nowNs nWheel | none => false) = true ∧
    ((List.range 16).any fun q => let u := getQ (getNi nWheel 0) q; match u.wheel with
      | some b => b * 2 ≤ nowNs nWheel ∧ nowNs nWheel < u.tElig / 512 * 2 | none => false) = true := by decide +kernel

theorem witness_DrainEndsCompleteOrAtItsDeadline_inner :
    (drn true).discard = true ∧ (drn false).discard = false := by decide +kernel

theorem witness_SliceResetRemovesOneSlice_inner :
    slcAct nSlc 0 0 = true ∧ slcRst nSlc 0 0 = false ∧ slcRst nSlc 0 1 = true ∧ slcAct nSlc 0 15 = false := by decide +kernel

theorem witness_SpanRetrainsOrGoesDown_inner :
    parallelOf spRt 0 = none ∧ parallelOf spRun 0 = none ∧ heldMsgs { lstate := 4, graceEnd := 2000000000, waiting := [spTx] } ≠ [] := by decide +kernel

theorem witness_SpanWidthKeysStagingAndTime_inner :
    (3, 7, 1953110) ∈ (getSpan spKeys 0).keys ∧ subMod 48 (frameOf spKeys) 1953110 < 16 ∧ ¬ subMod 48 (frameOf spKeys) 1953109 < 16 := by
  decide +kernel

theorem witness_DataServicesRequestNextBlock_inner :
    jSan.cursor < jSan.blocks ∧ jSan.fa + 4096 * jSan.cursor < 2 ^ 50 ∧ jCpy.src + 4096 * jCpy.cursor < 2 ^ 50 := by decide +kernel

theorem witness_SnapshotCopiesCounters_inner :
    frameGe (fld 0x1000000000005#64 47 0) ((frameOf (atNs (3 * 1024) (st [])) + 2) % 2 ^ 48) = true ∧
    frameGe (fld 0x1000000000005#64 47 0) ((frameOf (atNs (4 * 1024) (st [])) + 2) % 2 ^ 48) = false := by decide +kernel

theorem witness_NotificationTakesItsRoutes_inner :
    rdF ntLoud 0x108 1 0 ≤ ntNote.sev ∧ bitOf (rd ntLoud 0x110) 15 = true ∧ rdF ntLoud 0x110 13 12 ≤ ntNote.sev ∧
    ntLoud.ntf.fwdQ.length < 16 ∧ isEpNi ntLoud 0 = true ∧ bitOf (rd ntLoud (aNi 0 0)) 2 = true ∧ (getNi ntLoud 0).port.ntfQ.length < 16 ∧
    bitOf (rd ntFull 0x110) 15 = true ∧ 16 ≤ ntFull.ntf.fwdQ.length ∧ 16 ≤ (getNi ntFull 0).port.ntfQ.length := by decide +kernel

theorem witness_WarmResetRunsItsSteps_inner :
    isEpNi rsWarm 0 = true ∧ portEn rsWarm 0 = true ∧ (getNi rsWarm 0).region = 0 ∧ rsWarm.img.st = 3 := by decide +kernel

theorem witness_PowerUpAndColdResetRun_inner :
    (rsRet.lcs.fuse.ir = true ∧ rsRet.lcs.fuse.f3 = false) ∧ (rsScrap.lcs.fuse.is = true ∧ rsScrap.lcs.fuse.f4 = false) ∧
    rsFree.lcs.fuse.ir = false ∧ rsFree.lcs.fuse.is = false := by decide +kernel

/-! Witnesses: the block as a whole. -/

def queued : State := { st [] with pending := [.timLock, .ppsEdge] }
theorem witness_StepRunsTheFrontCommand : queued.pending = .timLock :: [.ppsEdge] := by decide +kernel
theorem witness_EveryStepGoesOn :
    queued.pending = .timLock :: [.ppsEdge] ∧ rsScrap.lcs.fuse.is = true ∧ rsFree.lcs.fuse.f1 = true ∧ rsRet.lcs.fuse.ir = true ∧
    tkField.lcs.fuse.f1 = true ∧ tkRet.lcs.fuse.f2 = true := by decide +kernel
theorem witness_EveryStepKeepsTheRegisterForm : ∃ t, step queued = .next t ∧ regsWf queued.regs = true ∧ t.regs ≠ queued.regs :=
  ⟨_, rfl, by decide +kernel⟩
theorem witness_EveryStepKeepsFlowEntriesInRange : ∃ t, step { adRel with pending := [.release] } = .next t ∧
    flowIdx { adRel with pending := [.release] } = true ∧ t.eng.flows ≠ [] := ⟨_, rfl, by decide +kernel⟩

/-! Ill-formed commands, one for each check, which the check refuses, each beside one at the end of its range that passes. -/

theorem test_wf_slacks : Instr.wf (.gateTick (List.replicate 17 0)) = false ∧ Instr.wf (.gateTick (List.replicate 16 0)) = true := by decide
theorem test_wf_port : Instr.wf (.niRstInRaise 120) = false ∧ Instr.wf (.niRstInRaise 119) = true := by decide
theorem test_wf_routerPort : Instr.wf (.mcCopyReplicate 0 10) = false ∧ Instr.wf (.mcCopyReplicate 0 9) = true := by decide
theorem test_wf_output : Instr.wf (.routerFlitForward .req 0 11 .clean) = false ∧ Instr.wf (.routerFlitForward .req 0 10 .clean) = true := by decide
theorem test_wf_channel :
    Instr.wf (.escWaitExpire .req 0 0 7) = false ∧ Instr.wf (.escWaitExpire .req 0 0 4) = false ∧ Instr.wf (.escWaitExpire .req 0 0 6) = true := by decide
theorem test_wf_node : Instr.wf (.mgRdReceive 200) = false ∧ Instr.wf (.mgRdReceive 199) = true := by decide
theorem test_wf_target : Instr.wf (.mmGrant 15) = false ∧ Instr.wf (.mmGrant 14) = true := by decide
theorem test_wf_engine : Instr.wf (.engineFail 72) = false ∧ Instr.wf (.engineFail 71) = true := by decide

/-! The worked examples of the manual. -/

/-- 02, worked example of R27: TIM_NOW 40,963,589 lies in frame 40,003 at offset 517. -/
theorem test_frame_and_offset : frameOf (atNs 40963589 (st [])) = 40003 ∧ posOf (atNs 40963589 (st [])) = 517 := by decide +kernel

/-- 04 Table 04.7: bits [127:64] and [63:8] of the header of the read. -/
theorem test_header_of_the_read :
    (msgHdr { dst := 0x328, src := 0x107, opc := 1, vcf := 2, gen := 5, slice := 2, tag := 0xC3, len := 1, addr := 0xC80000001244 } false).extractLsb' 8 120
      = 0x328107022029186040C80000001244#120 := by decide +kernel

/-- 05 Table 05.13 with the placement of Table 05.8: NI 40 on router 20, L0, and router 21, L2. -/
theorem test_home_entry : (let h := homeOf (st [(aRtr 0 0x2A0, 0xC0005650#64)]) 40
    attRtr h false = 20 ∧ attPort h false = 6 ∧ attRtr h true = 21 ∧ attPort h true = 8 ∧ attUp h false = true) := by decide +kernel

/-- 09, worked example: instance 3, with the map entry of key 2,162 and row 2,085 of NI 40 as given. -/
def lpEx : State :=
  ni 40 { dec := { tbt := [(65536, { tag := 13, dpa := 0x500 }), (65537, { tag := 14, dpa := 0x501 })] } }
    (st [(8, 0x300#64), (0x028010E0, 0x0000802500000000#64), (0x02288250, 0x2000#64), (0x02288258, 3#64)])
theorem test_lift_pass_row : lptAddr 40 2085 = 0x02288250 ∧ masterRow lpEx 0x107 2 = some 2085 := by decide +kernel
/-- 09 Table 09.3: the read is presented at 0x28_0000_1244, and the write is denied for its TAG. -/
theorem test_lift_pass_check :
    (match targetDecide lpEx 40 { dst := 0x328, src := 0x107, opc := 1, slice := 2, len := 1, addr := 0xC80000001244 } with
      | .present a _ => a | _ => 0) = 0x2800001244 ∧
    targetDecide lpEx 40 { dst := 0x328, src := 0x107, opc := 0x10, slice := 2, len := 1, addr := 0xC80008000000 } = .denied 1 := by decide +kernel

/-- 16, worked example: with margins of 1, PL0 drives 0x52 and PL1 drives 0x42. -/
theorem test_vid_codes : vidCode (st [(aPwr 0x30, 0x11#64)]) 0 = 0x52 ∧ vidCode (st [(aPwr 0x30, 0x11#64)]) 1 = 0x42 := by decide +kernel

/-- 08, worked example: with two active slices, a slice's share of the posted-write buffer is 32 entries. -/
theorem test_share_of_two_slices : fld (shareWord (st [(aNi 0 0x200, 1#64), (aNi 0 0x220, 1#64)]) 0) 14 8 = 32 := by decide +kernel

/-- 16 Table 16.10, frame 200,030: a request that finds one pending takes its place, and the one held ends SUPERSEDED. -/
theorem test_request_supersedes : ∃ t, exec (.pwrWake .cp (rq 4 0 0 7)) pwPend = .next t ∧ t.pwr.pend = some (rh 4 0 0 7) ∧
    rdF t (aPwr 0x10) 63 56 = 1 ∧ rdF t (aPwr 0x10) 55 32 = (rh 0 0 1 0).toNat := ⟨_, rfl, by decide +kernel⟩

/-- 21 Table 21.5: fold-back in ON leads to RETRY with slt_en low; after the retry, with the debounce running, the slot is in DEBOUNCE. -/
theorem test_fault_in_on : ∃ t, exec (.slotFault 0 0) (slE slOn) = .next t ∧ (getSlt t 0).state = 6 ∧ (getSlt t 0).en = false :=
  ⟨_, rfl, by decide +kernel⟩
theorem test_retry_to_debounce : ∃ t, exec (.retryEnd 0) (slE { slRetry with debounced := false, preq := false }) = .next t ∧ (getSlt t 0).state = 2 :=
  ⟨_, rfl, by decide +kernel⟩

/-- 02 R24: LOCKED stays set once TIM_LOCK is written; R23: a step of the time is refused from then on. -/
theorem test_lock_then_step : ∃ t u, exec .timLock (st []) = .next t ∧ exec (.timStep 5) t = .next u ∧ nowNs u = 0 ∧ bitOf (rd u (aTim 0x40)) 4 = true :=
  ⟨_, _, rfl, rfl, by decide +kernel⟩

/-- 13 Table 13.9: of the 63 jobs that slot 0 holds, the thief takes the 32 oldest. -/
theorem test_steal_takes_half : ∃ t, exec (.workSteal 0) slSteal = .next t ∧ (getSlot t 1).deque.length = 1 ∧ (getSlot t 0).deque.length = 2 :=
  ⟨_, rfl, by decide +kernel⟩

end Sys2Proof.Tests
end

section
/-! SUPPORT. The outcome of a command, and the statements about every step and about reset. -/

namespace Sys2Proof.Machine

/-! The outcome of a command. -/

/-- The next state of a command that keeps the profile, the queue and the fuses is the state it is given: the rest of the life-cycle
unit may change. -/
theorem answer_eq_of_fuse {s t : State} (hgen : t.gen = s.gen) (hpending : t.pending = s.pending)
    (hfuse : t.lcs.fuse = s.lcs.fuse) : answer s t = .next t := by
  unfold answer
  rw [← hgen, ← hpending, ← hfuse]

/-- A command whose meaning is `answer s t` completes at t, if t keeps the profile, the queue and the fuses. -/
theorem completes_of_answer {c : Instr} {s t : State} {P : State → Prop} (hexec : exec c s = answer s t)
    (hgen : t.gen = s.gen) (hpending : t.pending = s.pending) (hfuse : t.lcs.fuse = s.lcs.fuse) (hP : P t) : Completes c s P :=
  ⟨t, hexec.trans (answer_eq_of_fuse hgen hpending hfuse), hP⟩

/-- Every command's meaning ends in `answer`, or in `answerFuse` where the life-cycle unit may blow fuses (22 R464) or completes an
intent at power-up (22 R465). -/
theorem exec_answers (c : Instr) (s : State) : (∃ t, exec c s = answer s t) ∨ ∃ t, exec c s = answerFuse s t := by
  cases c with
  | por | toProvision _ | toField _ | toReturn _ | toScrap _ => exact .inr ⟨_, rfl⟩
  | _ => exact .inl ⟨_, rfl⟩

/-! What every step keeps. -/

/-- Every fuse that is blown in a is blown in b (22 R457). -/
def Fuses.le (a b : Fuses) : Prop :=
  (a.f1 = true → b.f1 = true) ∧ (a.f2 = true → b.f2 = true) ∧ (a.f3 = true → b.f3 = true) ∧ (a.f4 = true → b.f4 = true) ∧
    (a.ir = true → b.ir = true) ∧ (a.is = true → b.is = true)

theorem Fuses.le_refl (a : Fuses) : a.le a := ⟨id, id, id, id, id, id⟩

theorem Fuses.le_join (a b : Fuses) : a.le (a.join b) := by simp +contextual [Fuses.le, Fuses.join]

/-- Every command answers a next state with the same profile and queue, and with no fuse gone back. -/
theorem exec_keeps (c : Instr) (s : State) :
    ∃ t, exec c s = .next t ∧ t.gen = s.gen ∧ t.pending = s.pending ∧ s.lcs.fuse.le t.lcs.fuse := by
  obtain ⟨t, h⟩ | ⟨t, h⟩ := exec_answers c s
  · exact ⟨_, h, rfl, rfl, Fuses.le_refl _⟩
  · exact ⟨_, h, rfl, rfl, Fuses.le_join _ _⟩

theorem timeCycle_gen (s : State) : (timeCycle s).gen = s.gen := by unfold timeCycle; dsimp only; split <;> rfl

theorem timeCycle_lcs (s : State) : (timeCycle s).lcs = s.lcs := by unfold timeCycle; dsimp only; split <;> rfl

/-! A step. -/

/-- With no command waiting a step is a cycle of the timing clock (log 6). -/
theorem step_of_empty {s : State} (h : s.pending = []) : step s = .next (timeCycle s) := by simp [step, h]

/-- A step takes the front command out of the queue. -/
theorem step_of_cons {s : State} {c : Instr} {r : List Instr} (h : s.pending = c :: r) : step s = exec c { s with pending := r } := by
  simp [step, h]

/-- Settles O56: the step function takes the front command by definition. -/
theorem stepRunsTheFrontCommand : Obligations.StepRunsTheFrontCommand := by
  unfold Obligations.StepRunsTheFrontCommand
  exact fun _ _ _ => step_of_cons

/-- Settles O58: an idle step changes neither profile nor fuses, and the front command's meaning ends in `answer` or `answerFuse`. -/
theorem everyStepGoesOn : Obligations.EveryStepGoesOn := by
  unfold Obligations.EveryStepGoesOn
  intro s
  cases hq : s.pending with
  | nil =>
    refine ⟨timeCycle s, step_of_empty hq, timeCycle_gen s, by simp, ?_⟩
    rw [timeCycle_lcs]
    exact Fuses.le_refl _
  | cons c r =>
    obtain ⟨t, hexec, hgen, hpending, hfuse⟩ := exec_keeps c { s with pending := r }
    refine ⟨t, (step_of_cons hq).trans hexec, hgen, ?_, hfuse⟩
    rintro c' r' h
    injection h with _ hr
    exact hpending.trans hr

/-! Reset. -/

/-- At reset every register reads its reset value: no word is listed. -/
theorem rd_reset (a : Nat) : rd State.reset a = resetWord a := rfl

/-- An NI of any profile has a number below 128 (01, "Network interfaces"). -/
theorem isNi_lt {s : State} {n : Nat} (h : isNi s n = true) : n < 128 := by
  have hep : nEpNis s ≤ 120 := by unfold nEpNis; split <;> decide
  have hrk : nRinks s ≤ 8 := by unfold nRinks; split <;> decide
  simp only [isNi, isEpNi, isSvcNi, Bool.or_eq_true, Bool.and_eq_true, decide_eq_true_eq] at h
  omega

/-- An NI's block lies in the NI window (23 Table 23.2). -/
theorem aNi_range {n off : Nat} (hn : n < 128) (ho : off < 0x2000) : 0x200000 ≤ aNi n off ∧ aNi n off < 0x300000 := by
  unfold aNi; omega

/-- NI and offset of a word of an NI's block. -/
theorem aNi_block (n : Nat) {off : Nat} (ho : off < 0x2000) :
    (aNi n off - 0x200000) / 0x2000 = n ∧ (aNi n off - 0x200000) % 0x2000 = off := by
  unfold aNi; omega

/-- The reset value of a word of an NI's block is that of its offset. -/
theorem resetWord_aNi {n off : Nat} (hn : n < 128) (ho : off < 0x2000) : resetWord (aNi n off) = niResetWord off := by
  simp only [resetWord, if_pos (aNi_range hn ho), (aNi_block n ho).2]

/-- Settles O57: the state after reset lists no register word and no NI, so each reads its reset value. -/
theorem resetLeavesTheResetValues : Obligations.ResetLeavesTheResetValues := by
  unfold Obligations.ResetLeavesTheResetValues
  refine ⟨rfl, rfl, rfl, rfl, rfl, rfl, rfl, rfl, rfl, rfl, rd_reset, rfl, rfl, fun n hn => ⟨?_, rfl⟩, regsWf_reset, rfl⟩
  rw [rd_reset, resetWord_aNi (isNi_lt hn) (by decide)]
  rfl

end Sys2Proof.Machine
end

section
/-! SUPPORT. Writing the register map (00 R5 to R10; 23 R473, R475): what a write beat of a master does, by the access codes of its word. -/

namespace Sys2Proof.Machine

/-! Words of the always-on blocks. -/

theorem notReady_of_lt {s : State} {a : Nat} (h : a < 0x13000) : notReady s a = false := by
  simp [notReady, h]

/-- Before INIT_DONE nothing above the LCS block answers (17 R374). -/
theorem notReady_of_initDone {s : State} (h : s.rst.initDone = true) (a : Nat) : notReady s a = false := by simp [notReady, h]

theorem aliasOf_of_lt {s : State} {a : Nat} (h : a < 0x3000000) : aliasOf s a = some a := by
  have : inKv3 a = false := by simp [inKv3]; omega
  simp [aliasOf, this]

/-- No power region holds the words below the routers' (19 R415). -/
theorem asleep_of_lt {s : State} {a : Nat} (h : a < 0x100000) : asleep s a = false := by
  have hlive : isLive a = false := by simp [isLive]; omega
  have hregion : regionHolding s a = none := by
    unfold regionHolding
    dsimp only
    rw [if_neg (by omega), if_neg (by omega), if_neg (by omega), hlive, if_neg Bool.false_ne_true, if_neg (by omega)]
  simp [asleep, hregion, hlive]

/-- The words of GLB below the groups, and of TIM, PWR, LCS, IMG and MMX, are in every profile. -/
theorem unitThere_of_lt {s : State} {a : Nat} (h : a < 0xA000 ∨ 0xF000 ≤ a ∧ a < 0x18000) : unitThere s a = true := by
  unfold unitThere
  iterate 11 rw [if_neg (by omega)]

/-! The write of a word, step by step. -/

/-- A write beat that strobes all of the word's registers that it strobes (23 R473), by a master that may write the word, at a unit
that answers, is the write of the word. -/
theorem regWrite_eq_wordWrite {s : State} {m : Master} {a : Nat} {strb : BitVec 8} {p : List (Nat × Nat)} (v : Word)
    (hready : notReady s a = false) (haligned : a % 8 = 0) (hmapped : a < 0x3000000) (hawake : asleep s a = false)
    (hthere : unitThere s a = true) (hstrobed : strobed (regInfo a).parts strb = (p, false)) (hsome : p.isEmpty = false)
    (hmay : mayWrite s m a = true) :
    regWrite s m a v strb = wordWrite s m a (v &&& partMask p) (partMask p) := by
  simp [regWrite, hready, haligned, aliasOf_of_lt hmapped, hawake, hthere, hstrobed, hsome, hmay]

/-- Before INIT_DONE a write above the LCS block is answered with an error and does nothing (17 R374). -/
theorem regWrite_notReady {s : State} {a : Nat} (m : Master) (v : Word) (strb : BitVec 8) (h : notReady s a = true) :
    regWrite s m a v strb = (true, s) := by simp [regWrite, h]

/-- A write that strobes no register of the word in full and one in part is answered with an error and does nothing (23 R473). -/
theorem regWrite_part {s : State} {a : Nat} {strb : BitVec 8} (m : Master) (v : Word)
    (hready : notReady s a = false) (haligned : a % 8 = 0) (hmapped : a < 0x3000000) (hawake : asleep s a = false)
    (hthere : unitThere s a = true) (hstrobed : strobed (regInfo a).parts strb = ([], true)) :
    regWrite s m a v strb = (true, s) := by
  simp [regWrite, hready, haligned, aliasOf_of_lt hmapped, hawake, hthere, hstrobed]

/-- A master that may not write the word is answered with an error, and nothing is written (00 R7). -/
theorem regWrite_barred {s : State} {m : Master} {a : Nat} {strb : BitVec 8} {p : List (Nat × Nat)} (v : Word)
    (hready : notReady s a = false) (haligned : a % 8 = 0) (hmapped : a < 0x3000000) (hawake : asleep s a = false)
    (hthere : unitThere s a = true) (hstrobed : strobed (regInfo a).parts strb = (p, false)) (hsome : p.isEmpty = false)
    (hmay : mayWrite s m a = false) : regWrite s m a v strb = (true, s) := by
  simp [regWrite, hready, haligned, aliasOf_of_lt hmapped, hawake, hthere, hstrobed, hsome, hmay]

/-- The 4-byte register in the low half of a word is strobed by its four strobes. -/
theorem strobed_low4 : ∀ strb : BitVec 8, strb &&& 0x0F = 0x0F → strobed [(0, 4)] strb = ([(0, 4)], false) := by decide +kernel

/-- With one to three of its strobes it is strobed in part. -/
theorem strobed_low4_part : ∀ strb : BitVec 8, strb &&& 0x0F ≠ 0x0F → strb &&& 0x0F ≠ 0 → strobed [(0, 4)] strb = ([], true) := by
  decide +kernel

theorem partMask_low4 : partMask [(0, 4)] = 0xFFFFFFFF#64 := by decide

theorem partMask_all8 : partMask [(0, 8)] = BitVec.allOnes 64 := by decide

/-! The access codes. -/

/-- A write changes its word alone: RW bits take the value, W1C bits clear where 1 is written (00 R7). -/
theorem rd_plainWrite (s : State) (a : Nat) (v mask : Word) (b : Nat) :
    rd (plainWrite s a v mask) b = if b = a then
      (rd s a &&& ~~~(BitVec.ofNat 64 (regInfo a).rw &&& mask) &&& ~~~(BitVec.ofNat 64 (regInfo a).w1c &&& mask &&& v)) |||
        (v &&& (BitVec.ofNat 64 (regInfo a).rw &&& mask))
    else rd s b := by
  unfold plainWrite
  dsimp only
  split
  · exact rd_wr ..
  · exact rd_wr ..

/-- RW bits alone: the strobed ones take the value at once, and nothing waits for the tick (00 R7). -/
theorem plainWrite_rw (s : State) {a : Nat} (v : Word) {mask bits : Word} (hbits : BitVec.ofNat 64 (regInfo a).rw &&& mask = bits)
    (hw1c : (regInfo a).w1c = 0) (hrwt : (regInfo a).rwt = 0) :
    plainWrite s a (v &&& mask) mask = wr s a ((rd s a &&& ~~~bits) ||| (v &&& bits)) := by
  have hv : v &&& mask &&& bits = v &&& bits := by
    rw [← hbits, BitVec.and_assoc, BitVec.and_comm mask, BitVec.and_assoc, BitVec.and_self]
  simp only [plainWrite, hbits, hw1c, hrwt, hv, BitVec.ofNat_eq_ofNat, BitVec.zero_and, BitVec.not_zero, BitVec.and_allOnes, if_true]

/-- W1C bits alone: the strobed ones clear where 1 is written, and nothing waits for the tick (00 R7). -/
theorem plainWrite_w1c (s : State) {a : Nat} (v : Word) {mask bits : Word} (hbits : BitVec.ofNat 64 (regInfo a).w1c &&& mask = bits)
    (hrw : (regInfo a).rw = 0) (hrwt : (regInfo a).rwt = 0) :
    plainWrite s a (v &&& mask) mask = wr s a (rd s a &&& ~~~(v &&& bits)) := by
  have hv : bits &&& (v &&& mask) = v &&& bits := by
    rw [BitVec.and_comm, BitVec.and_assoc, ← hbits, BitVec.and_comm mask, BitVec.and_assoc, BitVec.and_self]
  simp only [plainWrite, hbits, hrw, hrwt, hv, BitVec.ofNat_eq_ofNat, BitVec.zero_and, BitVec.and_zero, BitVec.not_zero,
    BitVec.and_allOnes, BitVec.or_zero, if_true]

/-- RW/T bits alone: no word reads otherwise before the tick (00 R7). -/
theorem rd_plainWrite_rwt (s : State) {a : Nat} (v mask : Word) (hrw : (regInfo a).rw = 0) (hw1c : (regInfo a).w1c = 0) (b : Nat) :
    rd (plainWrite s a v mask) b = rd s b := by
  rw [rd_plainWrite]
  split
  case isTrue h =>
    subst h
    simp only [hrw, hw1c, BitVec.zero_and, BitVec.and_zero, BitVec.not_zero, BitVec.and_allOnes, BitVec.or_zero]
  case isFalse => rfl

/-- RW/T bits wait for the next tick, with the value written (00 R7, R8). -/
theorem pendRd_plainWrite (s : State) {a : Nat} (v mask : Word) (h : BitVec.ofNat 64 (regInfo a).rwt &&& mask ≠ 0) :
    pendRd (plainWrite s a v mask) a =
      (pendRd s a &&& ~~~(BitVec.ofNat 64 (regInfo a).rwt &&& mask)) ||| (v &&& (BitVec.ofNat 64 (regInfo a).rwt &&& mask)) := by
  unfold plainWrite
  dsimp only
  rw [if_neg h]
  simp [pendRd, pendWord]

/-- A write by the access codes changes register words and what waits for the tick, and nothing else. -/
theorem plainWrite_only (s : State) (a : Nat) (v mask : Word) :
    plainWrite s a v mask = { s with regs := (plainWrite s a v mask).regs, pendT := (plainWrite s a v mask).pendT } := by
  unfold plainWrite
  dsimp only
  split <;> rfl

/-! Low halves. -/

theorem fld_low32 (w : Word) : fld w 31 0 = (w.setWidth 32).toNat := by simp [fld]

theorem unsignedOf_lt (width : Nat) (i : Int) : unsignedOf width i < 2 ^ width := by
  have h : ((2 ^ width : Nat) : Int) ≠ 0 := by positivity
  have h1 := Int.emod_nonneg i h
  have h2 := Int.emod_lt_of_pos i (b := ((2 ^ width : Nat) : Int)) (by positivity)
  unfold unsignedOf
  omega

/-- The 32 low bits of a word with 32 bits laid over its low half are those bits. -/
theorem fld_low32_merge (w : Word) {n : Nat} (h : n < 2 ^ 32) :
    fld ((w &&& ~~~0xFFFFFFFF#64) ||| (BitVec.ofNat 64 n &&& 0xFFFFFFFF#64)) 31 0 = n := by
  have hlow : (~~~0xFFFFFFFF#64).setWidth 32 = 0#32 := by decide
  have hones : (0xFFFFFFFF#64).setWidth 32 = BitVec.allOnes 32 := by decide
  rw [fld_low32, BitVec.setWidth_or, BitVec.setWidth_and, BitVec.setWidth_and, hlow, hones, BitVec.and_zero, BitVec.zero_or,
    BitVec.and_allOnes, BitVec.setWidth_ofNat_of_le (by decide), BitVec.toNat_ofNat, Nat.mod_eq_of_lt h]

/-! The write beat of a master. -/

/-- A write that the register block answers with an error changes the error log alone (19 R412). -/
theorem completes_registerWrite_error {s : State} {m : Master} {addr : BitVec 32} {v : Word} {strb : BitVec 8}
    (h : regWrite s m addr.toNat v strb = (true, s)) :
    Completes (.registerWrite m addr v strb) s fun t =>
      rd t (aMmx 8) = packW [(62, 1), (61, 1), (58, masterNo m), (0, addr.toNat)] ∧ WordsBut [aMmx 8] s t ∧ t = { s with regs := t.regs } := by
  have hexec : exec (.registerWrite m addr v strb) s = answer s (errLog s m 1 true addr.toNat) := by
    simp [exec, execRegisterWrite, h]
  refine completes_of_answer hexec rfl rfl rfl ⟨?_, ?_, rfl⟩
  · rw [errLog, rd_wr_same, Nat.mod_eq_of_lt addr.isLt]
    rfl
  · intro a ha
    exact rd_wr_ne _ _ _ _ (by simpa using ha)

/-- A write that is answered without an error completes at the state that it leads to. -/
theorem completes_registerWrite_ok {s t : State} {m : Master} {addr : BitVec 32} {v : Word} {strb : BitVec 8} {P : State → Prop}
    (h : regWrite s m addr.toNat v strb = (false, t)) (hgen : t.gen = s.gen) (hpending : t.pending = s.pending)
    (hfuse : t.lcs.fuse = s.lcs.fuse) (hP : P t) : Completes (.registerWrite m addr v strb) s P :=
  completes_of_answer (by simp [exec, execRegisterWrite, h]) hgen hpending hfuse hP

end Sys2Proof.Machine
end

section
/-! SUPPORT. Management messages at an NI (05 R99): what the NI sends of its own, what a read takes from its words, and what a write does
there. -/

namespace Sys2Proof.Machine

/-! A message that the NI sends outside its queues (05 R97, R101). -/

theorem stampMsg_only (s : State) (n : Nat) (m : Msg) : (stampMsg s n m).2 = { s with nis := (stampMsg s n m).2.nis } := by
  unfold stampMsg
  dsimp only
  split <;> rfl

/-- Stamping a message advances the NI's sequence counter and changes nothing else of it (04 R76). -/
theorem getNi_stampMsg (s : State) (n : Nat) (m : Msg) :
    getNi (stampMsg s n m).2 n = { getNi s n with pst := (getNi (stampMsg s n m).2 n).pst } := by
  unfold stampMsg
  dsimp only
  split
  · rw [getNi_updNi_same]
  · rfl

/-- Sending a message of its own changes the NIs alone. -/
theorem injectOwn_only (s : State) (n : Nat) (p : Plane) (m : Msg) (att : Option Bool) :
    injectOwn s n p m att = { s with nis := (injectOwn s n p m att).nis } := by
  unfold injectOwn startOwn
  dsimp only
  split
  · rfl
  · cases ownOn s n ⟨p, m, att⟩ with
    | none => rfl
    | some q =>
      simp only [Option.map_some, Option.getD_some, addProg, updNi, setNi]
      rw [stampMsg_only]

theorem rd_injectOwn (s : State) (n : Nat) (p : Plane) (m : Msg) (att : Option Bool) (a : Nat) :
    rd (injectOwn s n p m att) a = rd s a := by
  rw [injectOwn_only]
  rfl

/-- The requests that wait at the NI stay. -/
theorem inReq_injectOwn (s : State) (n : Nat) (p : Plane) (m : Msg) (att : Option Bool) :
    (getNi (injectOwn s n p m att) n).inReq = (getNi s n).inReq := by
  unfold injectOwn startOwn
  dsimp only
  split
  · simp [waitOwn]
  · cases ownOn s n ⟨p, m, att⟩ with
    | none => simp [waitOwn]
    | some q =>
      simp only [Option.map_some, Option.getD_some, addProg, getNi_updNi_same]
      rw [getNi_stampMsg]

/-- What `injectOwn` sends is sent as `SentBy` says. -/
theorem sentBy_injectOwn (s : State) (n : Nat) (p : Plane) (m : Msg) (att : Option Bool) :
    SentBy s (injectOwn s n p m att) n p att m := by
  have hplane : ((getNi s n).sched.own.any fun w => decide (w.pl = p) && w.msg.cls == m.cls) =
      (getNi s n).sched.own.any fun w => w.pl == p && w.msg.cls == m.cls := by simp only [beq_eq_decide]
  unfold SentBy injectOwn startOwn
  dsimp only
  rw [hplane]
  cases hwait : (getNi s n).sched.own.any fun w => w.pl == p && w.msg.cls == m.cls with
  | true => simp [waitOwn]
  | false =>
    cases hon : ownOn s n ⟨p, m, att⟩ with
    | none => simp [waitOwn]
    | some q =>
      have hkept := getNi_stampMsg s n { m with vcf := vcfOfChan q.2 }
      simp only [Option.map_some, Option.getD_some, Option.isNone_some, Bool.or_false, Bool.false_eq_true, if_false]
      refine ⟨q.1, q.2, rfl, ?_, ?_⟩
      · rw [addProg, getNi_updNi_same, hkept]
      · rw [Injects, addProg, getNi_updNi_same, hkept]
        simp [mupd]

/-! A management message is taken, acted on and answered. -/

/-- A received message that fits its class and whose CRC holds passes the checks as it is (04 R66, R75). -/
theorem rxCheck_pass {s : State} {n : Nat} {m : Msg} (hcls : clsOk m = true) (htaint : m.taint = false) (hcrc : msgCrc m = m.crc) :
    rxCheck s n m = .pass m s := by simp [rxCheck, hcls, htaint, hcrc]

/-- Whether an NI is out of service does not depend on what waits at it. -/
theorem niDown_inReq (s : State) (n : Nat) (l : List (Msg × Bool)) :
    niDown (updNi s n fun i => { i with inReq := l }) n = niDown s n := by
  unfold niDown
  rw [getNi_updNi_same]
  rfl

/-- m is the management message of an opcode that NI k serves next, and it can: the NI is in service with room in its answer list, and
the message passes its checks (04 R66, R75; 09 R205); `rest` waits behind it. -/
structure MgServable (s : State) (k opc : Nat) (m : Msg) (alt : Bool) (rest : List (Msg × Bool)) : Prop where
  ni : k < 128
  room : (getNi s k).answers.length < 16
  take : takeFirst (getNi s k).inReq (fun q => q.1.opc.toNat == opc) = (some (m, alt), rest)
  cls : clsOk m = true
  taint : m.taint = false
  crc : msgCrc m = m.crc
  up : niDown s k = false

/-- The message is taken and acted on, and the answer is sent on the RSP plane (05 R99). -/
theorem MgServable.mgServe_eq {s u : State} {k opc : Nat} {m : Msg} {alt : Bool} {rest : List (Msg × Bool)}
    (h : MgServable s k opc m alt rest) (hu : u = updNi s k fun i => { i with inReq := rest }) (f : State → Nat → Msg → Msg × State) :
    mgServe s k opc f = injectOwn (f u k m).2 k .rsp (f u k m).1 none := by
  have hfull : answersFull s k = false := by simp [answersFull, h.room]
  simp [hu, mgServe, h.ni, hfull, h.take, rxCheck_pass h.cls h.taint h.crc, niDown_inReq, h.up]

/-- The NI serves a management message by an action that changes register words alone: the answer is sent, and the other requests wait
on. -/
theorem completes_mgServe {s w : State} {c : Instr} {k : Nat} {rest : List (Msg × Bool)} {g : Msg} {P : State → Prop}
    (hexec : exec c s = answer s (injectOwn w k .rsp g none))
    (hw : w = { updNi s k fun i => { i with inReq := rest } with regs := w.regs })
    (hP : ∀ t, SentBy w t k .rsp none g → (getNi t k).inReq = rest → (∀ a, rd t a = rd w a) → P t) : Completes c s P := by
  have honly := injectOwn_only w k .rsp g none
  have hrest : (getNi w k).inReq = rest := by
    rw [hw]
    exact congrArg Ni.inReq (getNi_updNi_same s k fun i => { i with inReq := rest })
  refine completes_of_answer hexec ?_ ?_ ?_ (hP _ (sentBy_injectOwn ..) ((inReq_injectOwn ..).trans hrest) (rd_injectOwn w k .rsp g none))
  · rw [honly, hw]; rfl
  · rw [honly, hw]; rfl
  · rw [honly, hw]; rfl

/-! Words of an NI's block. -/

/-- A read of a word of an NI's block does nothing but read (02 R40 and 14 R308 are other blocks'). -/
theorem readBeat_of_ni {s : State} {a : Nat} (hlo : 0x200000 ≤ a) (hhi : a < 0x300000) : readBeat s a = (readWord s a, s) := by
  unfold readBeat
  rw [if_neg (by omega), if_neg (by omega)]

/-- Reading words whose reads do nothing but read gives them in address order. -/
theorem mgWords_of_pure {s : State} {a : Nat} : ∀ {count : Nat}, (∀ i < count, readBeat s (a + 8 * i) = (readWord s (a + 8 * i), s)) →
    mgWords s a count = ((List.range count).map fun i => readWord s (a + 8 * i), s)
  | 0, _ => rfl
  | count + 1, h => by
    have ih := mgWords_of_pure fun i hi => h i (Nat.lt_succ_of_lt hi)
    unfold mgWords at ih ⊢
    rw [List.range_succ, List.foldl_append, ih]
    simp [h count (Nat.lt_succ_self count)]

theorem ownWord_of_ni {s : State} {k a : Nat} (hk : k < 128) (hlo : aNi k 0 ≤ a) (hhi : a < aNi (k + 1) 0) : ownWord s k a = true := by
  simp [ownWord, hk, hlo, hhi]

/-- Of the registers an answer shows only GLB_PROFILE.INST, in its SRC (01 R19). -/
theorem mgAnswer_wr (s : State) {a : Nat} (v : Word) (node : Nat) (m : Msg) (stat : Nat) (data : List Line) (h : a ≠ 0x8) :
    mgAnswer (wr s a v) node m stat data = mgAnswer s node m stat data := by
  simp only [mgAnswer, nodeOf, instNo, rdF, rd_wr_ne s a 0x8 v h.symm]

/-- A management read of an NI's own words is answered with them and changes nothing (05 R99). -/
theorem mgRead_of_own {s : State} {k a c : Nat} {m : Msg} (hk : k < 128) (ha : a = m.addr.toNat) (haligned : a % 8 = 0)
    (hc : c = ceilDiv (max 1 m.nbytes.toNat) 8) (hlo : aNi k 0 ≤ a) (hhi : a + 8 * c ≤ aNi (k + 1) 0) :
    mgRead s k m = (mgAnswer s k m 0 (linesOfWords ((List.range c).map fun i => readWord s (a + 8 * i)) 65), s) := by
  have hcount : ceilDiv (a + max 1 m.nbytes.toNat - a) 8 = c := by rw [hc, Nat.add_sub_cancel_left]
  have hown : ((List.range c).all fun i => ownWord s k (a + 8 * i)) = true :=
    List.all_eq_true.2 fun i hi => ownWord_of_ni hk (by omega) (by have := List.mem_range.1 hi; omega)
  have hpure : ∀ i < c, readBeat s (a + 8 * i) = (readWord s (a + 8 * i), s) := fun i hi =>
    readBeat_of_ni (by unfold aNi at hlo; omega) (by unfold aNi at hhi; omega)
  unfold mgRead
  simp only [← ha, haligned, Nat.sub_zero, hcount, hown, mgWords_of_pure hpure, if_true]

/-- A management write of the 4-byte register at an aligned word of the NI's own is a write beat of its lower half by a master other
than CP; it is answered where the register takes it (05 R99). -/
theorem mgWrite_of_low4 {s w : State} {k a : Nat} {m : Msg} (hk : k < 128) (ha : a = m.addr.toNat) (haligned : a % 8 = 0)
    (hbytes : m.nbytes = 4) (hlo : aNi k 0 ≤ a) (hhi : a < aNi (k + 1) 0)
    (hwrite : regWrite s .fm a ((m.data.getD 0 0).extractLsb' 0 64) 0x0F = (false, w)) :
    mgWrite s k m = (mgAnswer s k m 0 [], w) := by
  have hn : m.nbytes.toNat = 4 := by rw [hbytes]; rfl
  have hcount : List.range (ceilDiv 4 8) = [0] := rfl
  have hstrb : (if 0 + 8 ≤ 4 then 0xFF else 0x0F : BitVec 8) = 0x0F := rfl
  have hown : ([0].all fun i => ownWord s k (a + 8 * i)) = true := by simp [ownWord_of_ni hk hlo hhi]
  unfold mgWrite
  simp only [← ha, haligned, hn, hcount, hown, List.foldl_cons, List.foldl_nil, Nat.mul_zero, Nat.add_zero, Nat.zero_div, Nat.zero_mod,
    and_self, if_true, hstrb, hwrite, Bool.or_self, Bool.false_eq_true, if_false]

/-! A write of an NI's register. -/

theorem regInfo_aNi {n off : Nat} (hn : n < 128) (ho : off < 0x2000) : regInfo (aNi n off) = niInfo off := by
  have hrange := aNi_range hn ho
  unfold regInfo
  iterate 13 rw [if_neg (by omega)]
  rw [if_pos hrange.2, (aNi_block n ho).2]

theorem unitThere_aNi {s : State} {n off : Nat} (hn : isNi s n = true) (ho : off < 0x1F00) : unitThere s (aNi n off) = true := by
  have hrange := aNi_range (isNi_lt hn) (off := off) (by omega)
  have hblock := aNi_block n (off := off) (by omega)
  unfold unitThere
  iterate 5 rw [if_neg (by omega)]
  rw [if_pos hrange, hblock.1, hblock.2]
  simp [hn, ho]

/-- The words of an NI whose region is ON answer (19 R415). -/
theorem asleep_aNi {s : State} {n off : Nat} (hn : isNi s n = true) (ho : off < 0x2000) (hregion : (getNi s n).region = 0) :
    asleep s (aNi n off) = false := by
  have hrange := aNi_range (isNi_lt hn) ho
  have hlive : isLive (aNi n off) = false := by simp [isLive]; omega
  have hholds : regionHolding s (aNi n off) = some (2, n) := by
    unfold regionHolding
    dsimp only
    rw [if_neg (by omega), if_pos hrange, (aNi_block n ho).1, if_pos hn]
  simp [asleep, hholds, hlive, regionAnswers, regionOf, hregion]

/-- Any master may write an NI's words but SLT_CTL (21 R451). -/
theorem mayWrite_aNi (s : State) {m : Master} {n off : Nat} (hn : n < 128) (ho : off < 0x2000) (hslt : off ≠ 0x1F08) :
    mayWrite s m (aNi n off) = true := by
  have hrange := aNi_range hn ho
  have hcp : cpOnly (aNi n off) = false := by
    simp [cpOnly, hrange.1, hrange.2]
    unfold aNi
    omega
  unfold mayWrite
  rw [hcp, if_neg Bool.false_ne_true]
  iterate 4 rw [if_neg (by omega)]

theorem wordWrite_aNi (s : State) (m : Master) {n off : Nat} (v mask : Word) (hn : n < 128) (ho : off < 0x2000)
    (hlock : (niInfo off).lock = false) : wordWrite s m (aNi n off) v mask = (false, niWrite s n off v mask) := by
  unfold wordWrite
  rw [regInfo_aNi hn ho, hlock, if_neg (by simp), if_pos (aNi_range hn ho), (aNi_block n ho).1, (aNi_block n ho).2]

/-- A write beat that strobes a register of an NI in full, at an NI whose region is ON, acts at the NI (23 R473). -/
theorem regWrite_aNi {s : State} {m : Master} {n off : Nat} {strb : BitVec 8} {p : List (Nat × Nat)} (v : Word) (hn : isNi s n = true)
    (ho : off < 0x1F00) (haligned : off % 8 = 0) (hdone : s.rst.initDone = true) (hregion : (getNi s n).region = 0)
    (hlock : (niInfo off).lock = false) (hstrobed : strobed (niInfo off).parts strb = (p, false)) (hsome : p.isEmpty = false) :
    regWrite s m (aNi n off) v strb = (false, niWrite s n off (v &&& partMask p) (partMask p)) := by
  have hlt := isNi_lt hn
  have hoff : off < 0x2000 := by omega
  have hrange := aNi_range hlt hoff
  rw [regWrite_eq_wordWrite v (notReady_of_initDone hdone _) (by unfold aNi; omega) (by omega) (asleep_aNi hn hoff hregion)
    (unitThere_aNi hn ho) (by rw [regInfo_aNi hlt hoff]; exact hstrobed) hsome (mayWrite_aNi s hlt hoff (by omega)),
    wordWrite_aNi s m _ _ hlt hoff hlock]

end Sys2Proof.Machine
end

section
/-! SUPPORT. Registers are written and read (00 R5 to R10; 05 R99; 23 R473, R475): the statement's clauses, and its proof. -/

namespace Sys2Proof.Machine

/-! A write of a GLB or TIM word. -/

/-- A write beat with every byte of a low 4-byte register strobed, at an always-on word that the master may write, is the write of the
word. -/
theorem regWrite_low4 {s : State} {m : Master} {a : Nat} {strb : BitVec 8} (v : Word) (ha : a < 0xA000 ∨ 0xF000 ≤ a ∧ a < 0x13000)
    (haligned : a % 8 = 0) (hparts : (regInfo a).parts = [(0, 4)]) (hstrb : strb &&& 0x0F = 0x0F) (hmay : mayWrite s m a = true) :
    regWrite s m a v strb = wordWrite s m a (v &&& 0xFFFFFFFF#64) 0xFFFFFFFF#64 := by
  rw [← partMask_low4]
  exact regWrite_eq_wordWrite v (notReady_of_lt (by omega)) haligned (by omega) (asleep_of_lt (by omega)) (unitThere_of_lt (by omega))
    (by rw [hparts]; exact strobed_low4 strb hstrb) rfl hmay

/-- GLB_IRQ_CFG's bits 1:0 take the value written. -/
theorem completes_write_irqCfg (s : State) (m : Master) (v : Word) {strb : BitVec 8} (hstrb : strb &&& 0x0F = 0x0F) :
    Completes (.registerWrite m 0x108 v strb) s fun t =>
      rd t 0x108 = (rd s 0x108 &&& ~~~3#64) ||| (v &&& 3#64) ∧ WordsBut [0x108] s t ∧ t = { s with regs := t.regs } := by
  have hwrite : regWrite s m 0x108 v strb = (false, plainWrite s 0x108 (v &&& 0xFFFFFFFF#64) 0xFFFFFFFF#64) :=
    regWrite_low4 v (by decide) (by decide) rfl hstrb rfl
  rw [plainWrite_rw s v (bits := 3#64) rfl rfl rfl] at hwrite
  exact completes_registerWrite_ok hwrite rfl rfl rfl ⟨rd_wr_same .., fun b hb => rd_wr_ne _ _ _ _ (by simpa using hb), rfl⟩

/-- GLB_IRQ_PEND's bits clear where 1 is written. -/
theorem completes_write_irqPend (s : State) (m : Master) (v : Word) :
    Completes (.registerWrite m 0x100 v 0xFF) s fun t =>
      rd t 0x100 = rd s 0x100 &&& ~~~v ∧ WordsBut [0x100] s t ∧ t = { s with regs := t.regs } := by
  have hwrite : regWrite s m 0x100 v 0xFF = wordWrite s m 0x100 (v &&& partMask [(0, 8)]) (partMask [(0, 8)]) :=
    regWrite_eq_wordWrite v (notReady_of_lt (by decide)) (by decide) (by decide) (asleep_of_lt (by decide)) (unitThere_of_lt (by decide))
      (by decide) rfl rfl
  have hword : ∀ x mask, wordWrite s m 0x100 x mask = (false, plainWrite s 0x100 x mask) := fun _ _ => rfl
  rw [hword, plainWrite_w1c s v (bits := BitVec.allOnes 64) (by rw [partMask_all8]; rfl) rfl rfl, BitVec.and_allOnes] at hwrite
  exact completes_registerWrite_ok hwrite rfl rfl rfl ⟨rd_wr_same .., fun b hb => rd_wr_ne _ _ _ _ (by simpa using hb), rfl⟩

/-- TIM_TRIM waits for the next tick, clamped (02 R20). -/
theorem completes_write_timTrim (s : State) (m : Master) (v : Word) {strb : BitVec 8} (hstrb : strb &&& 0x0F = 0x0F) :
    Completes (.registerWrite m 0x10020 v strb) s fun t =>
      fld (pendRd t (aTim 0x20)) 31 0 = unsignedOf 32 (clampInt (-2147483) 2147483 (signedOf 32 (fld v 31 0))) ∧
        WordsBut [] s t ∧ t = { s with regs := t.regs, pendT := t.pendT } := by
  have hlow : fld (v &&& 0xFFFFFFFF#64) 31 0 = fld v 31 0 := by
    have hones : (0xFFFFFFFF#64).setWidth 32 = BitVec.allOnes 32 := rfl
    rw [fld_low32, fld_low32, BitVec.setWidth_and, hones, BitVec.and_allOnes]
  have hwrite : regWrite s m 0x10020 v strb = (false, plainWrite s 0x10020
      (BitVec.ofNat 64 (unsignedOf 32 (clampInt (-rateMax) rateMax (signedOf 32 (fld (v &&& 0xFFFFFFFF#64) 31 0))))) 0xFFFFFFFF#64) :=
    regWrite_low4 v (by decide) (by decide) rfl hstrb rfl
  rw [hlow] at hwrite
  have hrwt : BitVec.ofNat 64 (regInfo 0x10020).rwt &&& 0xFFFFFFFF#64 = 0xFFFFFFFF#64 := rfl
  have honly := plainWrite_only s 0x10020
    (BitVec.ofNat 64 (unsignedOf 32 (clampInt (-rateMax) rateMax (signedOf 32 (fld v 31 0))))) 0xFFFFFFFF#64
  refine completes_registerWrite_ok hwrite (by rw [honly]) (by rw [honly]) (by rw [honly])
    ⟨?_, fun b _ => rd_plainWrite_rwt s _ _ rfl rfl b, honly⟩
  rw [show aTim 0x20 = 0x10020 from rfl, pendRd_plainWrite _ _ _ (by rw [hrwt]; decide), hrwt]
  exact fld_low32_merge _ (unsignedOf_lt 32 _)

/-- A master other than CP may not write GLB_RST_CTL (17 R383). -/
theorem regWrite_rstCtl_barred (s : State) {m : Master} (v : Word) {strb : BitVec 8} (hstrb : strb &&& 0x0F = 0x0F) (hm : m ≠ .cp) :
    regWrite s m 0x400 v strb = (true, s) :=
  regWrite_barred v (notReady_of_lt (by decide)) (by decide) (by decide) (asleep_of_lt (by decide)) (unitThere_of_lt (by decide))
    (strobed_low4 strb hstrb) rfl (beq_false_of_ne hm)

/-- GLB_IRQ_CFG strobed in part is not written (23 R473). -/
theorem regWrite_irqCfg_part (s : State) (m : Master) (v : Word) {strb : BitVec 8} (hpart : strb &&& 0x0F ≠ 0x0F)
    (hsome : strb &&& 0x0F ≠ 0) : regWrite s m 0x108 v strb = (true, s) :=
  regWrite_part m v (notReady_of_lt (by decide)) (by decide) (by decide) (asleep_of_lt (by decide)) (unitThere_of_lt (by decide))
    (strobed_low4_part strb hpart hsome)

/-! A cold reset (17 R374). -/

theorem mget_filter {α : Type} (p : Nat → Bool) (m : Map α) (k : Nat) :
    mget (m.filter fun q => p q.1) k = if p k then mget m k else none := by
  induction m with
  | nil => simp [mget]
  | cons q r ih =>
    obtain ⟨k', v⟩ := q
    by_cases hk : k' = k
    · subst hk
      by_cases hp : p k' <;> simp [hp, mget, ih]
    · by_cases hp : p k' <;> simp [hp, mget, ih, hk]

theorem mget_mmap {α : Type} (m : Map α) (f : Nat → α → α) (k : Nat) : mget (mmap m f) k = (mget m k).map (f k) := by
  induction m with
  | nil => rfl
  | cons q r ih =>
    obtain ⟨k', v⟩ := q
    have hcons : mmap ((k', v) :: r) f = (k', f k' v) :: mmap r f := rfl
    by_cases hk : k' = k
    · subst hk; simp [hcons, mget]
    · simp [hcons, mget, hk, ih]

/-- Outside the always-on domain every word takes its reset value (17 Table 17.5). -/
theorem rd_coldState (s : State) (a : Nat) : rd (coldState s) a = if coldKeeps a then rd s a else resetWord a := by
  have h : mget (coldState s).regs a = if coldKeeps a then mget s.regs a else none := mget_filter coldKeeps s.regs a
  unfold rd mgetD
  rw [h]
  split <;> rfl

theorem getNi_coldState (s : State) (n : Nat) : getNi (coldState s) n = niCold (getNi s n) := by
  have h : mget (coldState s).nis n = (mget s.nis n).map niCold := mget_mmap s.nis (fun _ => niCold) n
  unfold getNi mgetD
  rw [h]
  cases mget s.nis n <;> rfl

/-- GLB_RST_STAT as a cold reset leaves it: the number of resets and the cause (17 Table 17.8). -/
theorem fld_rstStat {n cause : Nat} (hn : n < 256) (hcause : cause < 8) :
    fld (BitVec.ofNat 64 (n <<< 8 ||| cause <<< 2)) 15 8 = n ∧ fld (BitVec.ofNat 64 (n <<< 8 ||| cause <<< 2)) 4 2 = cause := by
  have hor : n <<< 8 ||| cause <<< 2 = 256 * n + 4 * cause := by
    rw [Nat.shiftLeft_eq n, Nat.mul_comm, ← Nat.two_pow_add_eq_or_of_lt (by rw [Nat.shiftLeft_eq]; omega), Nat.shiftLeft_eq]
    omega
  have hlt : 256 * n + 4 * cause < 2 ^ 64 := by omega
  rw [hor]
  simp only [fld, BitVec.toNat_ofNat, Nat.mod_eq_of_lt hlt, Nat.shiftRight_eq_div_pow]
  constructor <;> omega

/-- What a cold reset leaves. -/
theorem coldReset_spec (s : State) {cause : Nat} (hcause : cause < 8) : ColdReset s (coldReset s cause) cause := by
  have hcount := fld_rstStat (n := satAdd 0xFF (rdF s 0x438 15 8) 1) (by unfold satAdd; omega) hcause
  have hstat : rd (coldReset s cause) 0x438 = BitVec.ofNat 64 (satAdd 0xFF (rdF s 0x438 15 8) 1 <<< 8 ||| cause <<< 2) := rd_wr_same ..
  refine ⟨rfl, rfl, rfl, ?_, ?_, ?_, getNi_coldState s, rfl, rfl, rfl, rfl, rfl, rfl, rfl, rfl, rfl, rfl⟩
  · rw [rdF, hstat]
    exact hcount.1
  · rw [rdF, hstat]
    exact hcount.2
  · intro a ha
    exact (rd_wr_ne _ _ _ _ ha).trans (rd_coldState s a)

/-- GLB_RST_CTL.COLD written by the CP master is a cold reset (17 R383). -/
theorem completes_write_rstCtl_cold (s : State) (v : Word) {strb : BitVec 8} (hstrb : strb &&& 0x0F = 0x0F) (hcold : bitOf v 0 = true) :
    Completes (.registerWrite .cp 0x400 v strb) s fun t => ColdReset s t 2 := by
  have hbit : bitOf (v &&& 0xFFFFFFFF#64) 0 = true := by
    simp only [bitOf, BitVec.getLsbD_and] at hcold ⊢
    rw [hcold]
    rfl
  have hword : wordWrite s .cp 0x400 (v &&& 0xFFFFFFFF#64) 0xFFFFFFFF#64 =
    (false, if bitOf (v &&& 0xFFFFFFFF#64) 0 then coldReset s 2 else if bitOf (v &&& 0xFFFFFFFF#64) 1 then warmStart s 4 else s) := rfl
  have hwrite : regWrite s .cp 0x400 v strb = (false, coldReset s 2) := by
    rw [regWrite_low4 v (by decide) (by decide) rfl hstrb rfl, hword, if_pos hbit]
  exact completes_registerWrite_ok hwrite rfl rfl rfl (coldReset_spec s (by decide))

/-! Management messages at an NI (05 R99). -/

/-- NI_TOUT (07 R170) of an NI whose region is ON takes its 24 bits from a management write of 4 bytes. -/
theorem regWrite_niTout {s : State} {n : Nat} (v : Word) (hn : isNi s n = true) (hdone : s.rst.initDone = true)
    (hregion : (getNi s n).region = 0) :
    regWrite s .fm (aNi n 0xC8) v 0x0F =
      (false, wr s (aNi n 0xC8) ((rd s (aNi n 0xC8) &&& ~~~0xFFFFFF#64) ||| (v &&& 0xFFFFFF#64))) := by
  have hinfo : regInfo (aNi n 0xC8) = niInfo 0xC8 := regInfo_aNi (isNi_lt hn) (by decide)
  rw [regWrite_aNi (off := 0xC8) v hn (by decide) (by decide) hdone hregion rfl (strobed_low4 _ (by decide)) rfl, partMask_low4]
  exact congrArg (Prod.mk false) (plainWrite_rw s v (by rw [hinfo]; rfl) (by rw [hinfo]; rfl) (by rw [hinfo]; rfl))

/-- A management read of an NI's own words is answered with them. -/
theorem completes_mgRdReceive {s u : State} {node : BitVec 8} {a c : Nat} {m : Msg} {alt : Bool} {rest : List (Msg × Bool)} {g : Msg}
    (hm : MgServable s node.toNat 0x78 m alt rest) (hu : u = updNi s node.toNat fun i => { i with inReq := rest })
    (ha : a = m.addr.toNat) (haligned : a % 8 = 0) (hc : c = ceilDiv (max 1 m.nbytes.toNat) 8)
    (hlo : aNi node.toNat 0 ≤ a) (hhi : a + 8 * c ≤ aNi (node.toNat + 1) 0)
    (hg : g = mgAnswer u node.toNat m 0 (linesOfWords ((List.range c).map fun i => readWord u (a + 8 * i)) 65)) :
    Completes (.mgRdReceive node) s fun t =>
      SentBy u t node.toNat .rsp none g ∧ g.opc = 0x7A ∧ g.dst = m.src ∧ g.tag = m.tag ∧ g.gen = m.gen ∧ (getNi t node.toNat).inReq = rest := by
  have hexec : exec (.mgRdReceive node) s = answer s (injectOwn u node.toNat .rsp g none) := by
    rw [exec, execMgRdReceive, hm.mgServe_eq hu, mgRead_of_own hm.ni ha haligned hc hlo hhi, hg]
  refine completes_mgServe (rest := rest) hexec (by rw [hu]) fun t hsent hrest _ => ?_
  subst hg
  exact ⟨hsent, rfl, rfl, rfl, rfl, hrest⟩

/-- A management write of NI_TOUT is done and answered. -/
theorem completes_mgWrReceive_niTout {s u w : State} {node : BitVec 8} {m : Msg} {alt : Bool} {rest : List (Msg × Bool)} {x : Word}
    {g : Msg} (hm : MgServable s node.toNat 0x79 m alt rest) (hu : u = updNi s node.toNat fun i => { i with inReq := rest })
    (haddr : aNi node.toNat 0xC8 = m.addr.toNat) (hbytes : m.nbytes = 4) (hni : isNi s node.toNat = true)
    (hregion : (getNi s node.toNat).region = 0) (hdone : s.rst.initDone = true)
    (hx : x = (rd s (aNi node.toNat 0xC8) &&& ~~~0xFFFFFF#64) ||| ((m.data.getD 0 0).extractLsb' 0 64 &&& 0xFFFFFF#64))
    (hw : w = wr u (aNi node.toNat 0xC8) x) (hg : g = mgAnswer w node.toNat m 0 []) :
    Completes (.mgWrReceive node) s fun t =>
      SentBy w t node.toNat .rsp none g ∧ g.opc = 0x7A ∧ g.dst = m.src ∧ g.tag = m.tag ∧ g.data = [] ∧
        rd t (aNi node.toNat 0xC8) = x ∧ (getNi t node.toNat).inReq = rest := by
  have hregion' : (getNi u node.toNat).region = 0 := by rw [hu, getNi_updNi_same]; exact hregion
  have hrd : rd u (aNi node.toNat 0xC8) = rd s (aNi node.toNat 0xC8) := by rw [hu, rd_updNi]
  have hwrite := regWrite_niTout (s := u) ((m.data.getD 0 0).extractLsb' 0 64) (by rw [hu]; exact hni) (by rw [hu]; exact hdone) hregion'
  rw [hrd, ← hx, ← hw] at hwrite
  have hrange : aNi node.toNat 0xC8 % 8 = 0 ∧ aNi node.toNat 0 ≤ aNi node.toNat 0xC8 ∧
      aNi node.toNat 0xC8 < aNi (node.toNat + 1) 0 ∧ aNi node.toNat 0xC8 ≠ 8 := by unfold aNi; omega
  obtain ⟨haligned, hlo, hhi, hne⟩ := hrange
  have hexec : exec (.mgWrReceive node) s = answer s (injectOwn w node.toNat .rsp g none) := by
    rw [exec, execMgWrReceive, hm.mgServe_eq hu, mgWrite_of_low4 hm.ni haddr haligned hbytes hlo hhi hwrite, hg, hw,
      mgAnswer_wr _ _ _ _ _ _ hne]
  refine completes_mgServe (rest := rest) hexec (by rw [hw, hu]; rfl) fun t hsent hrest hword => ?_
  subst hg
  exact ⟨hsent, rfl, rfl, rfl, rfl, by rw [hword, hw, rd_wr_same], hrest⟩

/-- Settles O48: each register write is the write of its word by its access code, or an error that changes the error log alone; a
management message is taken, read or written at the NI, and answered. -/
theorem registersAreWrittenAndRead : Obligations.RegistersAreWrittenAndRead := by
  unfold Obligations.RegistersAreWrittenAndRead
  refine ⟨fun s m v strb => ⟨completes_write_irqCfg s m v, ?_, completes_write_timTrim s m v, ?_, ?_, ?_, completes_write_rstCtl_cold s v⟩,
    fun s u node k a c m alt rest hnode hk hcls htaint hcrc hup ha haligned hu hroom => ?_⟩
  · rintro rfl
    exact completes_write_irqPend s m v
  · exact fun hstrb hm => completes_registerWrite_error (regWrite_rstCtl_barred s v hstrb hm)
  · exact fun hpart hsome => completes_registerWrite_error (regWrite_irqCfg_part s m v hpart hsome)
  · exact fun addr hdone hlo => completes_registerWrite_error (regWrite_notReady m v strb (by simp [notReady, hdone, hlo]))
  · subst hnode
    constructor
    · intro g htake hc hlo hhi hg
      exact completes_mgRdReceive ⟨hk, hroom, htake, hcls, htaint, hcrc, hup⟩ hu ha haligned hc hlo hhi hg
    · intro x w g htake hni hregion haddr hbytes hdone hx hw hg
      exact completes_mgWrReceive_niTout ⟨hk, hroom, htake, hcls, htaint, hcrc, hup⟩ hu (haddr.symm.trans ha) hbytes hni hregion hdone
        hx hw hg

end Sys2Proof.Machine
end

section
/-! SUPPORT. What a change keeps: the time, the words that wait for the tick, and TIM_TRIM. -/

namespace Sys2Proof.Machine

/-! Keeping a view. -/

/-- Seen through g, t is as s. -/
def Keeps {α β : Type} (g : α → β) (s t : α) : Prop := g t = g s

theorem Keeps.refl {α β : Type} (g : α → β) (s : α) : Keeps g s s := rfl

theorem Keeps.trans {α β : Type} {g : α → β} {s t u : α} (h : Keeps g s t) (k : Keeps g t u) : Keeps g s u := Eq.trans k h

/-- A fold keeps what each of its turns keeps. -/
theorem Keeps.foldl {α β γ : Type} {g : α → β} {f : α → γ → α} {l : List γ}
    (h : ∀ t, ∀ x ∈ l, Keeps g t (f t x)) (s : α) : Keeps g s (l.foldl f s) := by
  induction l generalizing s with
  | nil => rfl
  | cons x r ih =>
    have hhead : Keeps g s (f s x) := h s x List.mem_cons_self
    exact hhead.trans (ih (fun t y hy => h t y (List.mem_cons_of_mem x hy)) (f s x))

/-- The same for a fold that gathers something beside what is looked at. -/
theorem Keeps.foldl_snd {α β γ δ : Type} {g : α → β} {f : δ × α → γ → δ × α} {l : List γ}
    (h : ∀ a, ∀ x ∈ l, Keeps g a.2 (f a x).2) (a : δ × α) : Keeps g a.2 (l.foldl f a).2 :=
  Keeps.foldl (α := δ × α) (g := fun b => g b.2) h a

/-- A choice keeps what both of its branches keep. -/
theorem Keeps.ite {α β : Type} {g : α → β} {c : Prop} [Decidable c] {s t u : α} (ht : Keeps g s t) (hu : Keeps g s u) :
    Keeps g s (if c then t else u) := by split <;> assumption

/-- Where the outcome is a state, it is as s seen through g. -/
def OkKeeps {β : Type} (g : State → β) (s : State) (e : Except Nat State) : Prop := ∀ t, e = .ok t → Keeps g s t

theorem OkKeeps.error {β : Type} {g : State → β} {s : State} (c : Nat) : OkKeeps g s (.error c) := by
  intro t h
  cases h

theorem OkKeeps.ok {β : Type} {g : State → β} {s t : State} (h : Keeps g s t) : OkKeeps g s (.ok t) := by
  intro u hu
  cases hu
  exact h

theorem OkKeeps.ite {β : Type} {g : State → β} {c : Prop} [Decidable c] {s : State} {e d : Except Nat State}
    (he : OkKeeps g s e) (hd : OkKeeps g s d) : OkKeeps g s (if c then e else d) := by split <;> assumption

/-! The three views. -/

/-- The time base, the words that wait for the gate tick, and the state of the image loader. -/
def dueView (s : State) : Time × Map Word × BitVec 2 := (s.time, s.pendT, s.img.st)

/-- The same with TIM_TRIM as it reads. -/
def trimView (s : State) : (Time × Map Word × BitVec 2) × Word := (dueView s, rd s (aTim 0x20))

abbrev KeepsTime (s t : State) : Prop := Keeps State.time s t
abbrev KeepsDue (s t : State) : Prop := Keeps dueView s t
abbrev KeepsTrim (s t : State) : Prop := Keeps trimView s t

theorem keepsDue_iff {s t : State} : KeepsDue s t ↔ t.time = s.time ∧ t.pendT = s.pendT ∧ t.img.st = s.img.st := by
  simp [Keeps, dueView]

theorem keepsTrim_iff {s t : State} : KeepsTrim s t ↔ KeepsDue s t ∧ rd t (aTim 0x20) = rd s (aTim 0x20) := by
  simp [Keeps, trimView]

theorem Keeps.due {s t : State} (h : KeepsTrim s t) : KeepsDue s t := (keepsTrim_iff.mp h).1

theorem Keeps.time {s t : State} (h : KeepsDue s t) : KeepsTime s t := (keepsDue_iff.mp h).1

/-! Words and units. -/

theorem aNi_ne_trim {n off : Nat} : aNi n off ≠ aTim 0x20 := by unfold aNi aTim; omega
theorem aSpn_ne_trim {p off : Nat} : aSpn p off ≠ aTim 0x20 := by unfold aSpn aTim; omega
theorem aPwr_ne_trim {off : Nat} : aPwr off ≠ aTim 0x20 := by unfold aPwr aTim; omega

theorem wr_keepsTrim (s : State) {a : Nat} (v : Word) (h : a ≠ aTim 0x20) : KeepsTrim s (wr s a v) :=
  keepsTrim_iff.mpr ⟨rfl, rd_wr_ne s a _ v h.symm⟩

theorem wrF_keepsTrim (s : State) {a : Nat} (hi lo v : Nat) (h : a ≠ aTim 0x20) : KeepsTrim s (wrF s a hi lo v) := wr_keepsTrim s _ h

theorem setFlag_keepsTrim (s : State) {a : Nat} (i : Nat) (h : a ≠ aTim 0x20) : KeepsTrim s (setFlag s a i) := wr_keepsTrim s _ h

theorem incSat_keepsTrim (s : State) {a : Nat} (d : Nat) (h : a ≠ aTim 0x20) : KeepsTrim s (incSat s a d) := wr_keepsTrim s _ h

theorem wr_keepsDue (s : State) (a : Nat) (v : Word) : KeepsDue s (wr s a v) := rfl
theorem wrF_keepsDue (s : State) (a hi lo v : Nat) : KeepsDue s (wrF s a hi lo v) := rfl

theorem updNi_keepsTrim (s : State) (n : Nat) (f : Ni → Ni) : KeepsTrim s (updNi s n f) := rfl
theorem updPort_keepsTrim (s : State) (n : Nat) (f : Port → Port) : KeepsTrim s (updPort s n f) := rfl
theorem updRtr_keepsTrim (s : State) (x : Nat) (f : Rtr → Rtr) : KeepsTrim s (updRtr s x f) := rfl
theorem updPlane_keepsTrim (s : State) (p : Plane) (x : Nat) (f : RtrPlane → RtrPlane) : KeepsTrim s (updPlane s p x f) := rfl
theorem updSpan_keepsTrim (s : State) (p : Nat) (f : Span → Span) : KeepsTrim s (updSpan s p f) := rfl
theorem updSlot_keepsTrim (s : State) (k : Nat) (f : EngSlot → EngSlot) : KeepsTrim s (updSlot s k f) := rfl
theorem withRegs_keepsDue (s : State) (r : Map Word) : KeepsDue s { s with regs := r } := rfl
theorem withEng_keepsTrim (s : State) (e : Eng) : KeepsTrim s { s with eng := e } := rfl
theorem withPwr_keepsTrim (s : State) (p : Pwr) : KeepsTrim s { s with pwr := p } := rfl
theorem withFlt_keepsTrim (s : State) (f : Flt) : KeepsTrim s { s with flt := f } := rfl

/-! Notifications and counts. -/

theorem NoteOnly.keepsTrim {s t : State} (h : NoteOnly s t) : KeepsTrim s t := by
  obtain ⟨hall, hwords, _⟩ := h
  refine keepsTrim_iff.mpr ⟨?_, hwords _ (by decide)⟩
  unfold KeepsDue Keeps
  rw [hall]
  rfl

theorem raiseG_keepsTrim (s : State) (unit code sev info : Nat) : KeepsTrim s (raiseG s unit code sev info) :=
  (raiseG_noteOnly ..).keepsTrim

theorem raiseGFree_keepsTrim (s : State) (unit code sev : Nat) : KeepsTrim s (raiseGFree s unit code sev) :=
  raiseG_keepsTrim (takeFree s).2 unit code sev _

theorem raiseNi_keepsTrim (s : State) (n code sev info slice : Nat) : KeepsTrim s (raiseNi s n code sev info slice) :=
  (raiseNi_noteOnly ..).keepsTrim

theorem raiseNiFree_keepsTrim (s : State) (n code sev slice : Nat) : KeepsTrim s (raiseNiFree s n code sev slice) :=
  raiseNi_keepsTrim (takeFree s).2 n code sev _ slice

theorem fireThr_keepsTrim (i old new : Nat) (s : State) (j : Nat) : KeepsTrim s (fireThr i old new s j) := by
  have hshadow : 0x400800 + 8 * j ≠ aTim 0x20 := by unfold aTim; omega
  have hthr : aThr j ≠ aTim 0x20 := by unfold aThr aTim; omega
  unfold fireThr
  exact .ite (((wr_keepsTrim s _ hshadow).trans (wr_keepsTrim _ _ hthr)).trans (routeNote_noteOnly _ _).keepsTrim) (.refl _ s)

/-- Counting an event of any unit (20 R422, R432). -/
theorem bump_keepsTrim (s : State) (i d : Nat) : KeepsTrim s (bump s i d) := by
  have hcount : 0x410000 + 8 * i ≠ aTim 0x20 := by unfold aTim; omega
  unfold bump
  split
  · rfl
  · exact ((wr_keepsTrim s _ hcount).trans (.ite (setFlag_keepsTrim _ 2 (by decide)) (.refl _ _))).trans
      (.foldl (fun t j _ => fireThr_keepsTrim _ _ _ t j) _)

/-! Members, drains and ports of an NI. -/

theorem memberDrain_keepsTrim (s : State) (n : Nat) : KeepsTrim s (memberDrain s n) := by
  refine Keeps.foldl (fun t p _ => ?_) s
  split
  · exact .ite (.refl _ t) rfl
  · rfl

theorem answerMembers_keepsTrim (s : State) (n : Nat) : KeepsTrim s (answerMembers s n) :=
  (updNi_keepsTrim s n _).trans (memberDrain_keepsTrim _ n)

theorem portResetBegin_keepsTrim (s : State) (n : Nat) : KeepsTrim s (portResetBegin s n) :=
  (updPort_keepsTrim s n _).trans (answerMembers_keepsTrim _ n)

theorem startDrain_keepsTrim (s : State) (n : Nat) (discard : Bool) : KeepsTrim s (startDrain s n discard) :=
  (updNi_keepsTrim s n _).trans (wr_keepsTrim _ _ aNi_ne_trim)

/-! Span ports and flows. -/

theorem spanOwn_keepsTrim (s : State) (p : Nat) (pl : Plane) (m : Msg) : KeepsTrim s (spanOwn s p pl m) := by
  have hinject : ∀ t m, KeepsTrim t (spanInject t p pl m) := fun t m => .ite (.refl _ t) (updPlane_keepsTrim t pl _ _)
  exact (Keeps.ite (updSpan_keepsTrim s p _) (.refl _ s)).trans (hinject _ _)

theorem flushMsg_keepsTrim (s : State) (p : Nat) (m : Msg) : KeepsTrim s (flushMsg s p m) := by
  have hcount : KeepsTrim s (evSpn (setFlag (incSat s (aSpn p 0x58) 1) (aSpn p 0x18) 3) p 18 1) :=
    ((incSat_keepsTrim s 1 aSpn_ne_trim).trans (setFlag_keepsTrim _ 3 aSpn_ne_trim)).trans (bump_keepsTrim _ _ 1)
  exact .ite hcount (.ite (hcount.trans (spanOwn_keepsTrim ..)) (.ite hcount (hcount.trans (spanOwn_keepsTrim ..))))

theorem wrFlowEnt_keepsTrim (s : State) (f : Flow) (v : BitVec 256) : KeepsTrim s (wrFlowEnt s f v) := by
  refine .ite ?_ ?_
  · exact (((wr_keepsTrim s _ aNi_ne_trim).trans (wr_keepsTrim _ _ aNi_ne_trim)).trans
      (wr_keepsTrim _ _ aNi_ne_trim)).trans (wr_keepsTrim _ _ aNi_ne_trim)
  · exact (((wr_keepsTrim s _ aSpn_ne_trim).trans (wr_keepsTrim _ _ aSpn_ne_trim)).trans
      (wr_keepsTrim _ _ aSpn_ne_trim)).trans (wr_keepsTrim _ _ aSpn_ne_trim)

theorem suspendFlow_keepsTrim (s : State) (id : Nat) : KeepsTrim s (suspendFlow s id) := by
  unfold suspendFlow
  split
  · rfl
  next f _ =>
    have hent : ∀ v e, KeepsTrim s { wrFlowEnt s f v with eng := e } :=
      fun v e => (wrFlowEnt_keepsTrim s f v).trans (withEng_keepsTrim _ e)
    refine .ite (.refl _ s) (.ite ?_ ?_)
    · exact ((hent _ _).trans (setFlag_keepsTrim _ 3 aNi_ne_trim)).trans (raiseNi_keepsTrim ..)
    · exact (hent _ _).trans (raiseG_keepsTrim ..)

theorem resumeFlow_keepsTrim (s : State) (id : Nat) : KeepsTrim s (resumeFlow s id) := by
  unfold resumeFlow
  split
  · rfl
  next f _ => exact .ite (.refl _ s) ((wrFlowEnt_keepsTrim s f _).trans (withEng_keepsTrim _ _))

theorem dropPiste_keepsTrim (s : State) (p : Nat) : KeepsTrim s (dropPiste s p) :=
  (Keeps.foldl (fun t m _ => .ite (.refl _ t) (flushMsg_keepsTrim t p m)) s).trans (updSpan_keepsTrim _ p _)

/-- Of the state, the messages that one port hands to another change the two ports alone (12 R272). -/
theorem handOver_keepsTrim (s : State) (p q : Nat) : KeepsTrim s (handOver s p q) := by
  have hnew : ∀ (a : List Msg × State) (m : Msg), KeepsTrim a.2
      (if m.cls = 2 then (a.1 ++ [(spanSeq a.2 p m).1], (spanSeq a.2 p m).2) else (a.1 ++ [m], a.2)).2 := by
    intro a m
    split <;> rfl
  have hall := fun l old => Keeps.foldl_snd (l := l) (fun a m _ => hnew a m) (old, s)
  exact .ite ((hall _ _).trans (updSpan_keepsTrim _ p _))
    (((hall _ _).trans (updSpan_keepsTrim _ p _)).trans (updSpan_keepsTrim _ q _))

theorem graceFailover_keepsTrim (s : State) : KeepsTrim s (graceFailover s) := by
  refine Keeps.foldl (fun t p _ => .ite ?_ (.refl _ t)) s
  split
  · exact (dropPiste_keepsTrim t p).trans (handOver_keepsTrim _ p _)
  · rfl

/-- A span link counts as up, and its chains resume, at its ticks (12 R276). -/
theorem tickSpan_keepsTrim (s : State) (p : Nat) : KeepsTrim s (tickSpan s p) := by
  have hup : ∀ (c : Bool) f, KeepsTrim s (if c then graceFailover (updSpan s p f) else s) := fun c f =>
    .ite ((updSpan_keepsTrim s p f).trans (graceFailover_keepsTrim _)) (.refl _ s)
  exact .ite (((hup _ _).trans (updSpan_keepsTrim _ p _)).trans (.foldl (fun t id _ => resumeFlow_keepsTrim t id) _)) (hup _ _)

end Sys2Proof.Machine
end

section
/-! SUPPORT. The power manager keeps the time, the words that wait and TIM_TRIM (16). -/

namespace Sys2Proof.Machine

theorem driveVid_keepsTrim (s : State) (code : Nat) (wait : Bool) : KeepsTrim s (driveVid s code wait) := .ite rfl rfl

theorem setPhase_keepsTrim (s : State) (ph : Nat) : KeepsTrim s (setPhase s ph) := rfl

theorem raiseMargin_keepsTrim (s : State) (l v : Nat) : KeepsTrim s (raiseMargin s l v) := by
  have hword : ∀ hi lo x, KeepsTrim s (wrF s (aPwr 0x30) hi lo x) := fun hi lo x => wrF_keepsTrim s hi lo x aPwr_ne_trim
  exact .ite ((hword _ _ _).trans (driveVid_keepsTrim ..)) (hword _ _ _)

/-- The words of a block above TIM take their reset or image values. -/
theorem wordsReset_keepsTrim (s : State) {base : Nat} (size : Nat) (p : Nat → Bool) (h : aTim 0x20 < base) :
    KeepsTrim s (wordsReset s base size p) := by
  refine Keeps.foldl (fun t a ha => wr_keepsTrim t _ ?_) s
  simp only [List.mem_filter, Bool.and_eq_true, decide_eq_true_eq] at ha
  omega

theorem pushOn_keepsTrim (s : State) (k : Nat) (jobs : List Job) : KeepsTrim s (pushOn s k jobs).2 := .ite rfl rfl

/-- Jobs change places among the slots (16 Table 16.5). -/
theorem moveJobs_keepsTrim (s : State) (b : Nat) : KeepsTrim s (moveJobs s b) := by
  refine Keeps.foldl (fun t j _ => Keeps.foldl (fun u job _ => ?_) t) s
  split
  · exact .ite ((updSlot_keepsTrim u _ _).trans (pushOn_keepsTrim ..)) (.refl _ u)
  · rfl

theorem loseRegion_keepsTrim (s : State) (kind i : Nat) : KeepsTrim s (loseRegion s kind i) := by
  unfold loseRegion
  split
  · exact Keeps.foldl (fun t x _ => (updRtr_keepsTrim t x _).trans
      (wordsReset_keepsTrim _ _ _ (by unfold aRtr aTim; omega))) s
  · exact Keeps.foldl (fun t j _ => updSlot_keepsTrim t _ _) s
  · exact (updNi_keepsTrim s i _).trans (wordsReset_keepsTrim _ _ _ (by unfold aNi aTim; omega))

theorem pwrOutcome_keepsTrim (s : State) (r : BitVec 24) (code : Nat) : KeepsTrim s (pwrOutcome s r code) := by
  have hresult : KeepsTrim s (pwrResult s r code) := wr_keepsTrim s _ aPwr_ne_trim
  have hflag := fun i => hresult.trans (setFlag_keepsTrim _ i (aPwr_ne_trim (off := 0x18)))
  exact .ite ((hflag 0).trans (raiseG_keepsTrim ..)) (.ite hresult ((hflag 1).trans (raiseG_keepsTrim ..)))

theorem drainHandshake_keepsTrim (s : State) (n : Nat) : KeepsTrim s (drainHandshake s n) :=
  .ite ((portResetBegin_keepsTrim s n).trans (updPort_keepsTrim _ n _)) (.refl _ s)

theorem drainBegin_keepsTrim (s : State) (q : PwrReq) : KeepsTrim s (drainBegin s q) := by
  unfold drainBegin
  dsimp only
  split
  · exact (withPwr_keepsTrim s _).trans (moveJobs_keepsTrim _ _)
  · exact ((withPwr_keepsTrim s _).trans (startDrain_keepsTrim ..)).trans (drainHandshake_keepsTrim _ _)
  · rfl

/-- A request that starts: the branches of 16 R351, R353, R355 and R360. -/
theorem pwrTry_keepsTrim (s : State) (q : PwrReq) : OkKeeps trimView s (pwrTry s q) := by
  have hlevel : ∀ p code, KeepsTrim s (driveVid { s with pwr := p } code true) :=
    fun p code => (withPwr_keepsTrim s p).trans (driveVid_keepsTrim ..)
  refine .ite (.error _) (.ite ?level (.ite (.error _) (.ite (.error _) (.ite ?wake ?sleep))))
  case level =>
    exact .ite (.error _) (.ite (.error _) (.ite (.ok rfl) (.ok (.ite (hlevel _ _) ((hlevel _ _).trans (setPhase_keepsTrim _ 1))))))
  case wake => exact .ite (.error _) (.ite (.ok rfl) (.ite (.ok rfl) (.ok rfl)))
  case sleep =>
    split
    · exact .error _
    · refine .ite (.ite (.ok rfl) (.ok (drainBegin_keepsTrim s q))) (.ok ?_)
      exact Keeps.trans (.ite ((withPwr_keepsTrim s _).trans (loseRegion_keepsTrim ..)) (.refl _ s)) (withPwr_keepsTrim _ _)

theorem pwrFinish_keepsTrim (s : State) (r : BitVec 24) (code : Nat) (agedown : Bool) : KeepsTrim s (pwrFinish s r code agedown) := by
  have houtcome := (withPwr_keepsTrim s { s.pwr with cur := none }).trans (pwrOutcome_keepsTrim _ r code)
  have hnote := fun c [Decidable c] i => houtcome.trans (Keeps.ite (c := c) (raiseG_keepsTrim _ 241 0x189 3 i) (.refl _ _))
  exact .ite (hnote _ _) ((hnote _ _).trans (driveVid_keepsTrim ..))

theorem pwrNext_keepsTrim (s : State) (fuel : Nat) : KeepsTrim s (pwrNext s fuel) := by
  induction fuel generalizing s with
  | zero => rfl
  | succ f ih =>
    have htry : ∀ (s1 : State) (q : PwrReq) (r : BitVec 24) (agedown : Bool), KeepsTrim s s1 → KeepsTrim s
        (match pwrTry s1 q with | .ok t => t | .error c => pwrNext (pwrFinish s1 r c agedown) f) := by
      intro s1 q r agedown h
      split
      next t ht => exact h.trans (pwrTry_keepsTrim s1 q t ht)
      · exact (h.trans (pwrFinish_keepsTrim ..)).trans (ih _)
    unfold pwrNext
    refine .ite (.refl _ s) ?_
    split
    · exact htry _ _ _ _ (withPwr_keepsTrim s _)
    · split
      · exact htry _ _ _ _ (withPwr_keepsTrim s _)
      · rfl

theorem pwrEnd_keepsTrim (s : State) (code : Nat) : KeepsTrim s (pwrEnd s code) := by
  unfold pwrEnd
  split
  · exact (pwrFinish_keepsTrim ..).trans (pwrNext_keepsTrim _ 3)
  · rfl

theorem ageRestart_keepsTrim (s : State) : KeepsTrim s (ageRestart s) :=
  Keeps.foldl (fun t _ _ => wrF_keepsTrim t _ _ _ aPwr_ne_trim) s

theorem marginDue_keepsTrim (s : State) (m : Nat) : KeepsTrim s (marginDue s m) := by
  have hflag := fun l => (setFlag_keepsTrim s l (aPwr_ne_trim (off := 0x108))).trans (raiseG_keepsTrim _ 241 0x188 2 l)
  refine .ite (((withPwr_keepsTrim s _).trans (ageRestart_keepsTrim _)).trans (raiseMargin_keepsTrim ..)) (.ite (.refl _ s) ?_)
  dsimp only
  split
  · exact ((hflag _).trans (withPwr_keepsTrim _ _)).trans (pwrNext_keepsTrim _ 3)
  · exact (hflag _).trans (raiseG_keepsTrim ..)

/-- The replica paths are measured after the tick (18 R403). -/
theorem ageTick_keepsTrim (s : State) (slacks : List (BitVec 6)) : KeepsTrim s (ageTick s slacks) := by
  have hmeasure : ∀ t m v, KeepsTrim t (ageMeasure t m v) := fun t _ _ => (withPwr_keepsTrim t _).trans (wr_keepsTrim _ _ aPwr_ne_trim)
  have hall : ∀ l : List (Nat × BitVec 6), KeepsTrim s (l.foldl (fun t p => ageMeasure t p.1 p.2.toNat) s) :=
    fun l => Keeps.foldl (fun t p _ => hmeasure t p.1 p.2.toNat) s
  unfold ageTick
  dsimp only
  split
  · exact (hall _).trans (marginDue_keepsTrim _ _)
  · exact hall _

end Sys2Proof.Machine
end

section
/-! SUPPORT. Route sets, piste flows, faults, regions and slices keep the time and the words that wait for the tick (05, 06, 11, 16,
18). -/

namespace Sys2Proof.Machine

/-! Route sets. -/

theorem keepGroups_keepsDue (s : State) : KeepsDue s (keepGroups s) :=
  (withRegs_keepsDue s _).trans (.foldl (fun t p _ => wr_keepsDue t _ p.2) _)

theorem loadSlot_keepsDue (s : State) (rs e : Nat) : KeepsDue s (loadSlot s rs e) := by
  have hwords : ∀ (l : Map Word) t, KeepsDue t (l.foldl (fun t p => wr t (slotAddr e p.1) p.2) t) :=
    fun l => Keeps.foldl (fun t p _ => wr_keepsDue t _ p.2)
  exact ((withRegs_keepsDue s _).trans (hwords _ _)).trans (.foldl (fun t _ _ => wrF_keepsDue t _ _ _ rs) _)

theorem switchSet_keepsDue (s : State) (rs hold : Nat) : KeepsDue s (switchSet s rs hold) := by
  have hrouter : ∀ e t x, KeepsDue t (evSwitch (wrF (wrF t (aRtr x 0x18) 16 16 e) (aRtr x 0x18) 17 17 1) x) := fun e t x =>
    ((wrF_keepsDue t _ _ _ e).trans (wrF_keepsDue _ _ _ _ 1)).trans (.ite (.refl _ _) (bump_keepsTrim ..).due)
  have hrouters : ∀ e (l : List Nat) t,
      KeepsDue t (l.foldl (fun t x => evSwitch (wrF (wrF t (aRtr x 0x18) 16 16 e) (aRtr x 0x18) 17 17 1) x) t) :=
    fun e l => Keeps.foldl (fun t x _ => hrouter e t x)
  exact ((keepGroups_keepsDue s).trans (loadSlot_keepsDue _ rs _)).trans (hrouters _ _ _)

theorem releaseOld_keepsDue (s : State) : KeepsDue s (releaseOld s) := by
  have hrouters : KeepsDue s ((List.range (nRtrs s)).foldl (fun t x => wrF t (aRtr x 0x18) 17 17 0) s) :=
    Keeps.foldl (fun t _ _ => wrF_keepsDue t _ _ _ 0) s
  have hword : ∀ t : State, KeepsDue t (setFlag (wr { t with img := { t.img with release := none } } (aImg 0x40) 0) (aImg 8) 2) :=
    fun _ => rfl
  exact (hrouters.trans (hword _)).trans (raiseGFree_keepsTrim ..).due

theorem tickRelease_keepsDue (s : State) : KeepsDue s (tickRelease s) := by
  unfold tickRelease
  split
  · exact .ite (releaseOld_keepsDue s) (.refl _ s)
  · rfl

/-! Piste flows. -/

theorem addPresets_keepsDue (s : State) (id : Nat) (f : Flow) : KeepsDue s (addPresets s id f) :=
  Keeps.foldl (fun t q _ => (updRtr_keepsTrim t q.1 _).due) s

theorem dropTwinRec_keepsDue (s : State) (id : Nat) (f : Flow) : KeepsDue s (dropTwinRec s id f) := by
  unfold dropTwinRec
  split
  · exact .ite rfl (.refl _ s)
  · rfl

theorem freeFlow_keepsDue (s : State) (id : Nat) (f : Flow) : KeepsDue s (freeFlow s id f) :=
  (wrFlowEnt_keepsTrim s f 0).due.trans (dropTwinRec_keepsDue _ id f)

theorem commitFlow_keepsDue (s : State) (id : Nat) (f : Flow) : KeepsDue s (commitFlow s id f) :=
  ((withEng_keepsTrim s _).trans (wrFlowEnt_keepsTrim ..)).due.trans (addPresets_keepsDue ..)

theorem releaseAt_keepsDue (t : Nat) (s : State) (q : Nat × Flow) : KeepsDue s (releaseAt t s q) :=
  ((withEng_keepsTrim s _).trans (wrFlowEnt_keepsTrim ..)).due

theorem refuseFlow_keepsDue (s : State) (id : Nat) (f : Flow) : KeepsDue s (refuseFlow s id f) :=
  (freeFlow_keepsDue s id f).trans (withEng_keepsTrim _ _).due

/-- Step 3 of Table 01.3. -/
theorem pisteTick_keepsDue (s : State) : KeepsDue s (pisteTick s) := by
  have hfree : ∀ l : List (Nat × Flow), KeepsDue s (l.foldl (fun t q => freeFlow t q.1 q.2) s) :=
    fun l => Keeps.foldl (fun t q _ => freeFlow_keepsDue t q.1 q.2) s
  have hcommit : ∀ (bad : List Nat) (l : List (Nat × Flow)) t,
      KeepsDue t (l.foldl (fun t q => if bad.contains q.2.chain then t else commitFlow t q.1 q.2) t) :=
    fun bad l => Keeps.foldl (fun t q _ => .ite (.refl _ t) (commitFlow_keepsDue t q.1 q.2))
  have hrefuse : ∀ (l : List (Nat × Flow)) t, KeepsDue t (l.foldl (fun t q => refuseFlow t q.1 q.2) t) :=
    fun l => Keeps.foldl (fun t q _ => refuseFlow_keepsDue t q.1 q.2)
  have hrelease : ∀ f (l : List (Nat × Flow)) t, KeepsDue t (l.foldl (releaseAt f) t) :=
    fun f l => Keeps.foldl (fun t q _ => releaseAt_keepsDue f t q)
  exact (((hfree _).trans (hcommit _ _ _)).trans (hrefuse _ _)).trans (hrelease _ _ _)

/-! Links, attachments and regions. -/

theorem setHome_keepsDue (s : State) (n : Nat) : KeepsDue s (setHome s n) :=
  Keeps.foldl (fun t _ _ => (wrF_keepsDue t _ _ _ _).trans (wrF_keepsDue _ _ _ _ _)) s

theorem homes_keepsDue (l : List Nat) (s : State) : KeepsDue s (l.foldl setHome s) := Keeps.foldl (fun t n _ => setHome_keepsDue t n) s

theorem setPortUp_keepsDue (s : State) (x : Nat) (p : Plane) (port : Nat) (v : Bool) : KeepsDue s (setPortUp s x p port v) :=
  wrF_keepsDue s _ _ _ _

theorem setLinks_keepsDue (s : State) (x : Nat) (up : Bool) : KeepsDue s (setLinks s x up) := by
  refine Keeps.foldl (fun t port _ => ?_) s
  split
  · exact ((setPortUp_keepsDue t ..).trans (setPortUp_keepsDue ..)).trans ((setPortUp_keepsDue ..).trans (setPortUp_keepsDue ..))
  · rfl

theorem freshLinks_keepsDue (s : State) (x : Nat) : KeepsDue s (freshLinks s x) := by
  refine Keeps.foldl (fun t port _ => ?_) s
  split
  · exact ((updRtr_keepsTrim t _ _).trans (updRtr_keepsTrim _ x _)).due
  · rfl

theorem links_keepsDue (s : State) (x : Nat) (up : Bool) : KeepsDue s (freshLinks (setLinks s x up) x) :=
  (setLinks_keepsDue s x up).trans (freshLinks_keepsDue _ x)

theorem rtrFlags_keepsDue (s : State) (c : Nat) : KeepsDue s (rtrFlags s c) :=
  Keeps.foldl (fun t _ _ => (wordsReset_keepsTrim t _ _ (by unfold aRtr aTim; omega)).due) s

theorem niReturns_keepsDue (s : State) (n : Nat) (lost : Bool) : KeepsDue s (niReturns s n lost) :=
  (Keeps.ite (updNi_keepsTrim s n _).due (.refl _ s)).trans ((setHome_keepsDue _ n).trans (updPort_keepsTrim _ n _).due)

theorem setRegion_keepsDue (s : State) (kind i st : Nat) : KeepsDue s (setRegion s kind i st) := by
  unfold setRegion
  split <;> rfl

theorem rejoin_keepsDue (s : State) (q : PwrReq) : KeepsDue s (rejoin s q) := by
  have hregion : ∀ p kind i, KeepsDue s (setRegion { s with pwr := p } kind i 0) :=
    fun p kind i => (withPwr_keepsTrim s p).due.trans (setRegion_keepsDue _ kind i 0)
  unfold rejoin
  dsimp only
  split
  next h =>
    have hlinks : ∀ (l : List Nat) t, KeepsDue t (l.foldl (fun t x => freshLinks (setLinks t x true) x) t) :=
      fun l => Keeps.foldl (fun t x _ => links_keepsDue t x true)
    have hflags : ∀ (c : Bool) t i, KeepsDue t (if c then rtrFlags t i else t) := fun c t i => .ite (rtrFlags_keepsDue t i) (.refl _ t)
    exact (((hregion _ _ _).trans (hflags _ _ _)).trans (hlinks _ _)).trans ((homes_keepsDue _ _).trans (withPwr_keepsTrim _ _).due)
  · exact (hregion _ _ _).trans (niReturns_keepsDue ..)
  · exact hregion _ _ _

/-- A region that wakes joins before the order of Table 01.3 (16 R360). -/
theorem pwrRejoin_keepsDue (s : State) : KeepsDue s (pwrRejoin s) := by
  unfold pwrRejoin
  split
  next q _ =>
    exact .ite (.ite (rejoin_keepsDue s q) ((rejoin_keepsDue s q).trans (pwrEnd_keepsTrim _ 0).due))
      (.ite (drainHandshake_keepsTrim ..).due (.refl _ s))
  · rfl

/-- Step 2 of Table 01.3 for a column that goes or comes. -/
theorem pwrStep2_keepsDue (s : State) : KeepsDue s (pwrStep2 s) := by
  have hset : ∀ p rs hold, KeepsDue s (switchSet { s with pwr := p } rs hold) :=
    fun p rs hold => (withPwr_keepsTrim s p).due.trans (switchSet_keepsDue _ rs hold)
  have hend : ∀ code, KeepsDue s (pwrEnd s code) := fun code => (pwrEnd_keepsTrim s code).due
  unfold pwrStep2
  dsimp only
  split
  · exact .ite (.refl _ s) (hset _ _ _)
  split
  next q _ =>
    refine .ite (.ite ?leave (.ite (.refl _ s) (drainBegin_keepsTrim s q).due)) (.ite ?join (.refl _ s))
    case leave =>
      exact .ite (hend 5) (.ite (.refl _ s) (.ite (hend 5) ((hset _ _ _).trans (homes_keepsDue _ _))))
    case join =>
      exact .ite (.refl _ s) (.ite (hend 5) ((switchSet_keepsDue s _ _).trans (pwrEnd_keepsTrim _ 0).due))
  · rfl

/-- Step 5 of Table 01.3. -/
theorem pwrStep5_keepsDue (s : State) : KeepsDue s (pwrStep5 s) := by
  have hlevel : ∀ p, KeepsTrim s (ageRestart { s with pwr := p }) := fun p => (withPwr_keepsTrim s p).trans (ageRestart_keepsTrim _)
  have hslow : ∀ p code, KeepsTrim s (driveVid (setPhase (ageRestart { s with pwr := p }) 5) code true) :=
    fun p code => ((hlevel p).trans (setPhase_keepsTrim _ 5)).trans (driveVid_keepsTrim ..)
  unfold pwrStep5
  split
  · refine Keeps.due (.ite (.ite (pwrEnd_keepsTrim s 2) (.ite ?slower ?faster)) (.refl _ s))
    case slower => exact .ite (hslow _ _) ((hslow _ _).trans (pwrEnd_keepsTrim _ 0))
    case faster => exact (hlevel _).trans (pwrEnd_keepsTrim _ 0)
  · rfl

/-! A router's case. -/

theorem caseEnter_keepsDue (s : State) (x : Nat) : KeepsDue s (caseEnter s x) := by
  have hset : ∀ f rs hold, KeepsDue s (wrF (switchSet { s with flt := f } rs hold) 0x508 6 0 (64 + x)) :=
    fun f rs hold => (withFlt_keepsTrim s f).due.trans (switchSet_keepsDue _ rs hold)
  have hsuspend : ∀ (l : List Nat) t, KeepsDue t (l.foldl suspendFlow t) := fun l =>
    Keeps.foldl (fun t id _ => (suspendFlow_keepsTrim t id).due)
  exact (hset _ _ _).trans (hsuspend _ _)

theorem caseLeave_keepsDue (s : State) : KeepsDue s (caseLeave s) := by
  have hend : KeepsDue s (caseEnd s) := rfl
  unfold caseLeave
  split
  · exact hend.trans (Keeps.foldl (fun t f _ => (resumeFlow_keepsTrim t f.1).due) _)
  · exact hend

theorem routerBack_keepsDue (s : State) (x : Nat) : KeepsDue s (routerBack s x) := by
  have hlinks : KeepsDue s (freshLinks (setLinks (updRtr s x fun r => { r with failed := false }) x true) x) :=
    (updRtr_keepsTrim s x _).due.trans (links_keepsDue _ x true)
  exact (hlinks.trans (Keeps.foldl (fun t n _ => (updNi_keepsTrim t n _).due) _)).trans (homes_keepsDue _ _)

/-- Step 2 of Table 01.3 for a router that failed or is restored. -/
theorem fltStep2_keepsDue (s : State) : KeepsDue s (fltStep2 s) := by
  unfold fltStep2
  split
  · exact .ite (caseEnter_keepsDue ..) (.refl _ s)
  split
  next x _ _ =>
    have hback := (routerBack_keepsDue s x).trans (caseLeave_keepsDue _)
    exact .ite ((hback.trans (switchSet_keepsDue ..)).trans (raiseG_keepsTrim ..).due) (.refl _ s)
  · rfl

/-! Slices. -/

theorem discardWrites_keepsDue (s : State) (n : Nat) (k : Option Nat) : KeepsDue s (discardWrites s n k).2 := by
  have hgone : ∀ l : List Req, KeepsDue s (l.foldl (fun t r => updNi t n fun i => dropReq i r.id) s) :=
    fun l => Keeps.foldl (fun t r _ => (updNi_keepsTrim t n _).due) s
  have hcount := fun l a d => (hgone l).trans (wr_keepsDue _ a d)
  exact .ite (hcount _ _ _) ((hcount _ _ _).trans (wr_keepsDue _ _ _))

theorem sliceResetStart_keepsDue (s : State) (n k : Nat) : KeepsDue s (sliceResetStart s n k) := by
  have hdiscard : ∀ f, KeepsDue s (discardWrites (updNi s n f) n (some k)).2 := fun f =>
    (updNi_keepsTrim s n f).due.trans (discardWrites_keepsDue ..)
  have hpurge : ∀ t, KeepsDue t (dropSliceErs (updNi t n fun i => endSliceReqs i k) n k) := fun _ => rfl
  exact .ite (.refl _ s) (((Keeps.ite (hdiscard _) ((hdiscard _).trans (raiseNi_keepsTrim ..).due)).trans (hpurge _)).trans
    (updNi_keepsTrim _ n _).due)

theorem applyEn_keepsDue (s : State) : KeepsDue s (applyEn s) := Keeps.foldl (fun t p _ => wr_keepsDue t p.1 _) s

theorem sliceStep_keepsDue (was s : State) (n : Nat) : KeepsDue s (sliceStep was s n) := by
  have hoff : ∀ l : List Nat, KeepsDue s (l.foldl (fun t k => sliceResetStart t n k) s) := fun l =>
    Keeps.foldl (fun t k _ => sliceResetStart_keepsDue t n k) s
  have hon : ∀ (l : List Nat) u, KeepsDue u
      (l.foldl (fun t k => updNi t n fun i => updSlice i k fun c => { c with sc := 0, scUpd := nowNs s }) u) :=
    fun l => Keeps.foldl (fun t k _ => (updNi_keepsTrim t n _).due)
  have hslices := fun l m => (hoff l).trans (hon m _)
  have hshares : ∀ t, KeepsDue t (wr (scTick was t n) (aNi n 0x140) (shareWord (scTick was t n) n)) := fun t =>
    (updNi_keepsTrim t n _).due.trans (wr_keepsDue _ _ _)
  exact .ite (.refl _ s) (.ite (hslices _ _) (((hslices _ _).trans (hshares _)).trans (raiseNi_keepsTrim ..).due))

/-- Step 4 of Table 01.3. -/
theorem tickSlices_keepsDue (was s : State) : KeepsDue s (tickSlices was s) :=
  Keeps.foldl (fun t n _ => .ite (sliceStep_keepsDue was t n) (.refl _ t)) s

end Sys2Proof.Machine
end

section
/-! SUPPORT. An image keeps the time (15; 02 R21). -/

namespace Sys2Proof.Machine

/-! Single changes. -/

theorem wr_keepsTime (s : State) (a : Nat) (v : Word) : KeepsTime s (wr s a v) := rfl
theorem wrF_keepsTime (s : State) (a hi lo v : Nat) : KeepsTime s (wrF s a hi lo v) := rfl
theorem setFlag_keepsTime (s : State) (a i : Nat) : KeepsTime s (setFlag s a i) := rfl
theorem updNi_keepsTime (s : State) (n : Nat) (f : Ni → Ni) : KeepsTime s (updNi s n f) := rfl
theorem updPort_keepsTime (s : State) (n : Nat) (f : Port → Port) : KeepsTime s (updPort s n f) := rfl
theorem withImg_keepsTime (s : State) (i : Img) : KeepsTime s { s with img := i } := rfl
theorem withJrn_keepsTime (s : State) (j : Jrn) : KeepsTime s { s with jrn := j } := rfl
theorem withJrnImg_keepsTime (s : State) (j : Jrn) (i : Img) : KeepsTime s { s with jrn := j, img := i } := rfl
theorem withEng_keepsTime (s : State) (e : Eng) : KeepsTime s { s with eng := e } := rfl

theorem raiseG_keepsTime (s : State) (unit code sev info : Nat) : KeepsTime s (raiseG s unit code sev info) :=
  (raiseG_keepsTrim ..).due.time

theorem imgRefusal_keepsTime (s : State) (code sub : Nat) : KeepsTime s (imgRefusal s code sub) :=
  Keeps.trans (t := setFlag (imgCode s code sub) (aImg 8) 1) (by rfl) (raiseG_keepsTime ..)

theorem imgRefuse_keepsTime (s : State) (code sub : Nat) : KeepsTime s (imgRefuse s code sub) :=
  Keeps.trans (t := imgIdle s) (by rfl) (imgRefusal_keepsTime ..)

/-! The queue clamps and the reset of an NI's data path (07 R163; 03 R58). -/

theorem clampQueues_keepsTrim (s : State) (p : Nat → Bool) : KeepsTrim s (clampQueues s p) := by
  have hclamp : ∀ t n q, KeepsTrim t (clampQueue t n q) := fun t _ _ =>
    .ite (.refl _ t) ((wr_keepsTrim t _ aNi_ne_trim).trans (setFlag_keepsTrim _ 1 aNi_ne_trim))
  exact Keeps.foldl (fun t k _ => hclamp t k.1 k.2) s

theorem niDataReset_keepsTime (s : State) (n : Nat) : KeepsTime s (niDataReset s n) := by
  have hdiscard : ∀ t, KeepsTime t (niDiscardWrites t n) := fun t => Keeps.foldl (fun u k _ =>
    .ite (discardWrites_keepsDue u n (some k)).time ((discardWrites_keepsDue u n (some k)).time.trans (raiseNi_keepsTrim ..).due.time)) t
  have hslices : ∀ t, KeepsTime t (niSlicesReset t n) := fun t => Keeps.foldl (fun u k _ => .ite (updNi_keepsTime u n _) (.refl _ u)) t
  have hregs : ∀ t, KeepsTime t (niRegReset t n) := by
    intro t
    have hwords : ∀ l : List Nat, KeepsTime t (l.foldl (fun u a => wr u a (imgWord t a)) t) :=
      fun l => Keeps.foldl (fun u a _ => wr_keepsTime u a _) t
    exact hwords _
  have hdata := (((answerMembers_keepsTrim s n).due.time.trans (hdiscard _)).trans (hslices _)).trans (updNi_keepsTime _ n niEmptied)
  have hclamped := (hdata.trans (hregs _)).trans (clampQueues_keepsTrim _ (· == n)).due.time
  exact (hclamped.trans (updNi_keepsTime _ n _)).trans (raiseG_keepsTime ..)

/-! The words of an image. -/

theorem updRx_keepsTime (s : State) (x port : Nat) (far : Bool) (f : LinkRx → LinkRx) : KeepsTime s (updRx s x port far f) :=
  updRx_time ..

theorem putWires_keepsTime (s : State) (x : Nat) (v : Word) : KeepsTime s (putWires s x v) := by
  unfold putWires
  split
  · exact Keeps.foldl (fun t _ _ => updRx_keepsTime t _ _ _ _) s
  · rfl

theorem putWindow_keepsTime (s : State) (n k : Nat) (v : Word) : KeepsTime s (putWindow s n k v) := rfl
theorem putBgt_keepsTime (s : State) (n : Nat) (v : Word) : KeepsTime s (putBgt s n v) := rfl
theorem putActive_keepsTime (s : State) (a : Nat) (v : Word) : KeepsTime s (putActive s a v) := rfl

theorem imgPut_keepsTime (s : State) (w : Nat × Word) : KeepsTime s (imgPut s w) := by
  have hword : ∀ v, KeepsTime s (wr s w.1 v) := wr_keepsTime s w.1
  have hactive : ∀ v, KeepsTime s (putActive s w.1 v) := putActive_keepsTime s w.1
  have hmargins : ∀ v : Nat → Nat, KeepsTime s ((List.range 4).foldl (fun t l => raiseMargin t l (v l)) s) :=
    fun v => Keeps.foldl (fun t l _ => (raiseMargin_keepsTrim t l (v l)).due.time) s
  have hrow : ∀ v a b x y, KeepsTime s (wr (wr (putActive s w.1 v) a x) b y) := fun v a b x y =>
    ((hactive v).trans (wr_keepsTime _ a x)).trans (wr_keepsTime _ b y)
  exact .ite (.ite (hword _) (putWindow_keepsTime ..)) (.ite (hword _) (.ite (putBgt_keepsTime ..) (.ite (hword _) (.ite (hactive _)
    (.ite (putWires_keepsTime ..) (.ite (hmargins _) (.ite (hrow _ _ _ _ _) (hactive _))))))))

theorem imgPutAll_keepsTime (s : State) (l : List (Nat × Word)) : KeepsTime s (imgPutAll s l) :=
  Keeps.foldl (fun t w _ => imgPut_keepsTime t w) s

theorem coldClear_keepsTime (s : State) : KeepsTime s (coldClear s) := rfl

theorem imgWords2_keepsTime (s : State) : KeepsTime s (imgWords2 s) := by
  have hcold : ∀ v, KeepsTime s (wrF (coldClear s) 0x8 11 8 v) := fun v => (coldClear_keepsTime s).trans (wrF_keepsTime _ _ _ _ v)
  have hroute : ∀ (l : List (Nat × Word)) t, KeepsTime t (l.foldl putRoute t) :=
    fun l => Keeps.foldl (fun t w _ => withImg_keepsTime t _)
  have hslot : ∀ (l : List Nat) t, KeepsTime t (l.foldl (fun t x => wrF t (aRtr x 0x18) 17 16 0) (loadSlot t 0 0)) := fun l t =>
    (loadSlot_keepsDue t 0 0).time.trans (.foldl (fun u x _ => wrF_keepsTime u _ _ _ 0) _)
  have hset : ∀ t rs hold, KeepsTime t (switchSet t rs hold) := fun t rs hold => (switchSet_keepsDue t rs hold).time
  exact ((((Keeps.ite (hcold _) (.refl _ s)).trans (hroute _ _)).trans (imgPutAll_keepsTime _ _)).trans
    (.ite (hslot _ _) (.ite (hset _ _ _) (.refl _ _)))).trans (imgPutAll_keepsTime _ _)

/-! Step 2 of Table 01.3 for an image. -/

theorem portsImg_keepsTime (s : State) (x : Nat) (was : Word) : KeepsTime s (portsImg s x was) := by
  have hport : ∀ (c v : Bool) t pl port, KeepsTime t (setPortUp (if c then freshPort t x pl port else t) x pl port v) :=
    fun c v t pl port => (Keeps.ite (c := c = true) (updPlane_keepsTrim t pl x _).due.time (.refl _ t)).trans (wrF_keepsTime _ _ _ _ _)
  exact Keeps.foldl (fun t b _ => .ite (.refl _ t) (hport _ _ t _ _)) s

theorem spanImg_keepsTime (s : State) (p : Nat) : KeepsTime s (spanImg s p) := by
  have hspan : ∀ f, KeepsTime s (updSpan s p f) := fun f => (updSpan_keepsTrim s p f).due.time
  exact .ite (.refl _ s) (.ite (.ite (.refl _ s) (hspan _)) (.ite (hspan _) (.refl _ s)))

theorem portImg_keepsTime (s : State) (n : Nat) (was : Bool) : KeepsTime s (portImg s n was) := by
  have hup := (portResetBegin_keepsTrim s n).due.time
  have hreset : ∀ f g, KeepsTime s (updNi (niDataReset (updPort s n f) n) n g) := fun f g =>
    ((updPort_keepsTime s n f).trans (niDataReset_keepsTime _ n)).trans (updNi_keepsTime _ n g)
  exact .ite (.refl _ s) (.ite (hup.trans (updPort_keepsTime _ n _)) (.ite (hreset _ _) (updPort_keepsTime s n _)))

theorem submitOrphan_keepsTime (s : State) (n : Nat) : KeepsTime s (submitOrphan s n) := rfl

theorem slotEnable_keepsTime (s : State) (n : Nat) : KeepsTime s (slotEnable s n) := by
  have hslt : ∀ t f, KeepsTime t (updSlt t n f) := fun _ _ => rfl
  have hremoved : ∀ t, KeepsTime t (slotRemoved t n) := fun t =>
    ((setFlag_keepsTime t _ 5).trans (raiseNiFree_keepsTrim ..).due.time).trans (submitOrphan_keepsTime _ n)
  have hleave : ∀ st, KeepsTime s (slotLeave s n st) := fun st =>
    .ite ((hslt s _).trans (hremoved _)) (hslt s _)
  exact .ite (.refl _ s) (.ite (.ite (hslt s _) (.refl _ s)) (.ite (.refl _ s) ((hleave 0).trans (hslt _ _))))

theorem retireRouter_keepsTime (s : State) (x : Nat) : KeepsTime s (retireRouter s x) := by
  have hflow : ∀ t id f, KeepsTime t (retireFlow t x id f) := by
    intro t id f
    unfold retireFlow
    split
    · exact Keeps.trans (t := dropPresets { t with eng := _ } id) (by rfl)
        ((wrFlowEnt_keepsTrim ..).due.trans (addPresets_keepsDue ..)).time
    · rfl
  have hflows : ∀ l : List (Nat × Flow), KeepsTime s (l.foldl (fun t f => retireFlow t x f.1 f.2) s) :=
    fun l => Keeps.foldl (fun t f _ => hflow t f.1 f.2) s
  exact hflows _

theorem imgStep2_keepsTime (s : State) : KeepsTime s (imgStep2 s) := by
  have hports : ∀ (l : List Nat) t, KeepsTime t (l.foldl (fun t x => portsImg t x (rd s (aRtr x 0x20))) t) :=
    fun l => Keeps.foldl (fun t x _ => portsImg_keepsTime t x _)
  have hhomes : ∀ (l : List Nat) t, KeepsTime t (l.foldl (fun t n => setHome (updNi t n fun i => { i with attDown := 0 }) n) t) :=
    fun l => Keeps.foldl (fun t n _ => (updNi_keepsTime t n _).trans (setHome_keepsDue _ n).time)
  have hspans : ∀ (l : List Nat) t, KeepsTime t (l.foldl spanImg t) := fun l => Keeps.foldl (fun t p _ => spanImg_keepsTime t p)
  have hnis : ∀ (l : List Nat) t, KeepsTime t (l.foldl (fun t n => portImg t n (portEn s n)) t) :=
    fun l => Keeps.foldl (fun t n _ => portImg_keepsTime t n _)
  have hslots : ∀ (l : List Nat) t, KeepsTime t (l.foldl slotEnable t) := fun l => Keeps.foldl (fun t n _ => slotEnable_keepsTime t n)
  have hunits := ((imgWords2_keepsTime s).trans (hports (List.range (nRtrs s)) _)).trans (hhomes (homesIn s.img.bytes) _)
  have hall := ((hunits.trans (hspans (List.range (nSpans s)) _)).trans (hnis (List.range (nEpNis s)) _)).trans
    (hslots (List.range (nSlots s)) _)
  unfold imgStep2
  dsimp only
  split
  · exact hall.trans (retireRouter_keepsTime ..)
  · exact hall

/-! Its verdict at the tick. -/

theorem imgGate_keepsTime (s : State) : KeepsTime s (imgGate s) := by
  have hrepeat : KeepsTime s (imgRepeat s) := .ite (imgRefuse_keepsTime s _ _) (.ite (imgRefuse_keepsTime s _ _) (.refl _ s))
  have hjudge : KeepsTime s (imgJudge s) := by
    unfold imgJudge
    split
    · exact .ite (imgRefuse_keepsTime s _ _) rfl
    split
    · exact imgRefuse_keepsTime s _ _
    · rfl
  exact .ite (.ite hrepeat hjudge) (.refl _ s)

/-! Step 3 for an image. -/

theorem imgTrkMax_keepsTime (s : State) : KeepsTime s (imgTrkMax s) :=
  (wr_keepsTime s _ _).trans (.foldl (fun t w _ => wrF_keepsTime t w.1 _ _ _) _)

theorem imgAdmit_keepsTime (s : State) (k : Nat × Nat) (v : BitVec 256) : OkKeeps State.time s (imgAdmit s k v) := by
  have hput : ∀ t id f split, KeepsTime t (putFlow t id f split) := fun t id f _ =>
    ((withEng_keepsTrim t _).trans (wrFlowEnt_keepsTrim _ f _)).due.time
  have hcommit : ∀ id f split e, KeepsTime s (commitFlow { putFlow (takeFree (takeFree s).2).2 id f split with eng := e } id f) :=
    fun id f split e => ((hput (takeFree (takeFree s).2).2 id f split).trans (withEng_keepsTime _ e)).trans
      (commitFlow_keepsDue _ id f).time
  refine .ite (.error _) (.ite (.error _) (.ite (.error _) (.ite (.error _) ?_)))
  dsimp only
  split
  · exact .error _
  · exact .ite (.error _) (.ite (.error _) (.ok (hcommit ..)))

theorem imgFlow_keepsTime (s : State) (k : Nat × Nat) (v : BitVec 256) : OkKeeps State.time s (imgFlow s k v) := by
  have hadmit : ∀ t, KeepsTime s t → OkKeeps State.time s (imgAdmit t k v) := fun t h u hu => h.trans (imgAdmit_keepsTime t k v u hu)
  unfold imgFlow
  split
  next id f _ =>
    have hfree := (freeFlow_keepsDue s id f).time
    exact .ite (.ite (.ok rfl) (.error 3)) (.ite (.ok hfree) (.ite (.ok rfl) (hadmit _ hfree)))
  · exact .ite (.ok rfl) (hadmit s rfl)

theorem imgStep3_keepsTime (s : State) : OkKeeps State.time s (imgStep3 s) := by
  refine List.foldlRecOn _ _ (.ok (imgTrkMax_keepsTime s)) fun acc hacc k _ => ?_
  split
  next t => exact fun u hu => (hacc t rfl).trans (imgFlow_keepsTime t k _ u hu)
  · exact .error _

theorem imgFlows_keepsTime (s : State) : KeepsTime s (imgFlows s) := by
  refine .ite ((imgTrkMax_keepsTime s).trans (.foldl (fun t k _ => ?_) _)) ?_
  · split
    next u hu => exact imgFlow_keepsTime t k _ u hu
    · rfl
  · split
    next t ht => exact imgStep3_keepsTime s t ht
    · exact imgRefusal_keepsTime ..

/-! Steps 4 and 6 for an image. -/

theorem imgStep4_keepsTime (s : State) : KeepsTime s (imgStep4 s) := Keeps.foldl (fun t _ _ => by rfl) s

theorem pushJobs_keepsTime (s : State) (key : Nat) : KeepsTime s (pushJobs s key) := by
  unfold pushJobs
  split
  · split
    · exact (pushOn_keepsTrim s _ _).due.time.trans (withEng_keepsTime _ _)
    · rfl
  · rfl

theorem groomStart_keepsTime (s : State) (key : Nat) : KeepsTime s (groomStart s key) := by
  have hreserve : ∀ t h, KeepsTime t (reserve t h) := fun t h => wr_keepsTime t _ _
  have hhomes : ∀ c, KeepsTime s (setFlag (reserve (reserve { s with jrn := { s.jrn with ckpt := some c } } 0) 1) (aJrn 8) 1) := fun c =>
    (((withJrn_keepsTime s _).trans (hreserve _ 0)).trans (hreserve _ 1)).trans (setFlag_keepsTime _ _ 1)
  exact ((hhomes _).trans (withEng_keepsTime _ _)).trans (pushJobs_keepsTime _ key)

/-- A change of a home drops the checkpoint being written and submits a groom (14 R316, R320). -/
theorem homeReplace_keepsTime (s : State) (h : Nat) : KeepsTime s (homeReplace s h) := by
  have hgroom : ∀ t, KeepsTime t (submitGroom t) := fun t => .ite (.refl _ t) ((withEng_keepsTime t _).trans (groomStart_keepsTime _ _))
  have hdrop : KeepsTime s (dropCkpt (wr s (aJrn (0x48 + 8 * h)) 0)) :=
    ((wr_keepsTime s _ _).trans (withJrn_keepsTime _ _)).trans (wrF_keepsTime _ _ _ _ _)
  exact ((hdrop.trans (setFlag_keepsTime _ _ 7)).trans (withJrn_keepsTime _ _)).trans (hgroom _)

theorem pwrWrite_keepsTrim (s : State) (r : BitVec 24) : KeepsTrim s (pwrWrite s r) := by
  have hnext : ∀ t, KeepsTrim s t → ∀ p, KeepsTrim s (pwrNext { t with pwr := p } 3) := fun t h p =>
    (h.trans (withPwr_keepsTrim t p)).trans (pwrNext_keepsTrim _ 3)
  unfold pwrWrite
  dsimp only
  split
  · exact hnext _ (pwrOutcome_keepsTrim ..) _
  · exact hnext s (.refl _ s) _

theorem boundOk_keepsTime (s : State) : KeepsTime s (boundOk s) :=
  Keeps.foldl (fun t _ _ => (withImg_keepsTime t _).trans (wr_keepsTime _ _ _)) s

theorem imgIdle_keepsTime (s : State) : KeepsTime s (imgIdle s) :=
  ((withImg_keepsTime s _).trans ((withImg_keepsTime _ _).trans (wrF_keepsTime _ _ _ _ _))).trans (wr_keepsTime _ _ _)

theorem imgCode_keepsTime (s : State) (code sub : Nat) : KeepsTime s (imgCode s code sub) :=
  (wrF_keepsTime s _ _ _ code).trans (wrF_keepsTime _ _ _ _ sub)

/-- The words that say which image is in force, and the end of its loading (15 R328, R333, R342). -/
theorem imgDone_keepsTime (s : State) : KeepsTime s (imgDone s) := by
  unfold imgDone
  extract_lets b cold d s1 s2 s3 s4 image s4a s5 s6
  have h1 : KeepsTime s s1 := .ite (boundOk_keepsTime s) (.refl _ s)
  have h2 : KeepsTime s1 s2 := ((wr_keepsTime s1 _ _).trans (wr_keepsTime _ _ _)).trans (wr_keepsTime _ _ _)
  have h3 : KeepsTime s2 s3 := Keeps.foldl (fun t w _ => wr_keepsTime t _ _) s2
  have h4 : KeepsTime s3 s4 := (wr_keepsTime s3 _ _).trans (wr_keepsTime _ _ _)
  have h4a : KeepsTime s4 s4a := (withImg_keepsTime s4 _).trans (imgIdle_keepsTime _)
  have h5 : KeepsTime s4a s5 := .ite (.refl _ s4a) (imgCode_keepsTime s4a 0 0)
  have h6 : KeepsTime s5 s6 := ((setFlag_keepsTime s5 _ 28).trans (setFlag_keepsTime _ _ 0)).trans (raiseG_keepsTime ..)
  have hall : KeepsTime s s6 := (((((h1.trans h2).trans h3).trans h4).trans h4a).trans h5).trans h6
  exact .ite ((hall.trans (withJrnImg_keepsTime s6 _ _)).trans (pwrWrite_keepsTrim _ _).due.time) hall

theorem imgStep6_keepsTime (s : State) : KeepsTime s (imgStep6 s) := by
  have hhomes : ∀ (l : List Nat) t, KeepsTime t
      (l.foldl (fun u h => if rd s (aJrn (0x10 + 8 * h)) = rd u (aJrn (0x10 + 8 * h)) then u else homeReplace u h) t) :=
    fun l => Keeps.foldl (fun u h _ => .ite (.refl _ u) (homeReplace_keepsTime u h))
  have hwords := (imgPutAll_keepsTime s (words6 s s.img.bytes)).trans (clampQueues_keepsTrim _ fun _ => true).due.time
  exact (hwords.trans (.ite (.refl _ _) (hhomes _ _))).trans (imgDone_keepsTime _)

end Sys2Proof.Machine
end

section
/-! SUPPORT. The gate tick (01 R17; 02 R26, R27, R31, R34; 00 R8): its time, the word of TIM_TRIM, and the statement. -/

namespace Sys2Proof.Machine

/-! Step 1 of Table 01.3 and the return from holdover. -/

theorem tickTime_of_due {s : State} (h : s.time.tickDue = true) : (tickTime s).time = { s.time with tickDue := false } := by
  simp [tickTime, h]

/-- The time of a count that begins a nanosecond. -/
theorem nowNs_of_whole {s : State} {k : Nat} (h : s.time.t = BitVec.ofNat 96 (k * 2 ^ 32)) : nowNs s = k % 2 ^ 64 := by
  rw [nowNs, h, BitVec.toNat_ofNat, Nat.shiftRight_eq_div_pow]
  omega

theorem tickTime_of_not_due {s : State} (h : s.time.tickDue = false) :
    (tickTime s).time.t = BitVec.ofNat 96 ((nowNs s / 1024 + 1) * 1024 * 2 ^ 32) := by
  simp only [tickTime, h, Bool.false_eq_true, if_false]

/-- A tick that was not counted takes the time to the next multiple of 1,024 ns (02 R26; log 6). -/
theorem nowNs_tickTime {s : State} (h : s.time.tickDue = false) : nowNs (tickTime s) = (nowNs s / 1024 + 1) * 1024 % 2 ^ 64 :=
  nowNs_of_whole (tickTime_of_not_due h)

theorem tickDue_tickTime (s : State) : (tickTime s).time.tickDue = false := by
  cases h : s.time.tickDue with
  | true => rw [tickTime_of_due h]
  | false => simp [tickTime, h]

/-- Step 1 changes the time and what is due at its boundary alone. -/
theorem tickTime_only (s : State) :
    ∃ n tick pps, tickTime s = { s with time := { s.time with t := n, tickDue := tick, ppsDue := pps } } := by
  unfold tickTime
  split
  · exact ⟨_, _, _, rfl⟩
  · exact ⟨_, _, _, rfl⟩

theorem tickTime_frame (s : State) : (tickTime s).time.hold = s.time.hold ∧ (tickTime s).time.returnDue = s.time.returnDue ∧
    (tickTime s).pendT = s.pendT ∧ (tickTime s).img.st = s.img.st := by
  obtain ⟨n, tick, pps, h⟩ := tickTime_only s
  rw [h]
  exact ⟨rfl, rfl, rfl, rfl⟩

/-- The return from holdover changes neither the time nor its outputs, nor the words that wait, nor the image loader. -/
theorem holdExit_frame (s : State) : (holdExit s).time.t = s.time.t ∧ (holdExit s).time.tickOut = s.time.tickOut ∧
    (holdExit s).time.tickRise = s.time.tickRise ∧ (holdExit s).time.tickDue = s.time.tickDue ∧ (holdExit s).pendT = s.pendT ∧
    (holdExit s).img.st = s.img.st := by
  unfold holdExit
  split <;> exact ⟨rfl, rfl, rfl, rfl, rfl, rfl⟩

theorem holdExit_hold {s : State} (h : s.time.hold = true) (hdue : s.time.returnDue = true) : (holdExit s).time.hold = false := by
  simp [holdExit, h, hdue]

/-- The state in which the order of Table 01.3 begins, but for regions that join: the frame has begun. -/
def tickBegun (s : State) : State := holdExit (tickOuts (tickTime s))

theorem tickBegun_spec (s : State) :
    (tickBegun s).time.t = (tickTime s).time.t ∧ (tickBegun s).time.tickOut = true ∧
      (tickBegun s).time.tickRise = nowNs (tickBegun s) ∧ (tickBegun s).time.tickDue = false ∧ (tickBegun s).pendT = s.pendT ∧
      (tickBegun s).img.st = s.img.st := by
  obtain ⟨ht, hout, hrise, hdue, hpend, hst⟩ := holdExit_frame (tickOuts (tickTime s))
  obtain ⟨_, _, hpend', hst'⟩ := tickTime_frame s
  refine ⟨ht, hout, ?_, hdue.trans (tickDue_tickTime s), hpend.trans hpend', hst.trans hst'⟩
  rw [tickBegun, hrise, nowNs, ht]
  rfl

theorem nowNs_tickBegun (s : State) : nowNs (tickBegun s) = nowNs (tickTime s) := by rw [nowNs, (tickBegun_spec s).1, nowNs]

theorem tickBegun_hold {s : State} (h : s.time.hold = true) (hdue : s.time.returnDue = true) : (tickBegun s).time.hold = false := by
  obtain ⟨hhold, hreturn, _, _⟩ := tickTime_frame s
  exact holdExit_hold (hhold.trans h) (hreturn.trans hdue)

/-! The order of Table 01.3 keeps the time. -/

theorem tickQueues_keepsTrim (was s : State) : KeepsTrim s (tickQueues was s) := by
  have hqueue : ∀ t n q, KeepsTrim t (queueTick was t n q) := fun t n q => .ite (updNi_keepsTrim t n _) (updNi_keepsTrim t n _)
  exact Keeps.foldl (fun t k _ => hqueue t k.1 k.2) s

theorem tickShares_keepsTrim (was s : State) : KeepsTrim s (tickShares was s) :=
  Keeps.foldl (fun t n _ => (updNi_keepsTrim t n _).trans (wr_keepsTrim _ _ aNi_ne_trim)) s

theorem applyRows_keepsTrim (s : State) : KeepsTrim s (applyRows s) := rfl

theorem applyPend_keepsTime (s : State) : KeepsTime s (applyPend s) := by
  have hwords : ∀ (l : List (Nat × Word)) t, KeepsTime t (l.foldl applyWord t) := fun l =>
    Keeps.foldl (fun t p _ => wr_keepsTime t p.1 _)
  exact hwords s.pendT s

theorem tickStep6_keepsTime (was s : State) (img : Bool) : KeepsTime s (tickStep6 was s img) := by
  have hvalues : KeepsTime s (applyRows (applyPend s)) := (applyPend_keepsTime s).trans (applyRows_keepsTrim _).due.time
  have hfollow : ∀ t, KeepsTime t (tickShares was (tickQueues was t)) := fun t =>
    ((tickQueues_keepsTrim was t).trans (tickShares_keepsTrim was _)).due.time
  exact (hvalues.trans (.ite (imgStep6_keepsTime _) (clampQueues_keepsTrim _ _).due.time)).trans (hfollow _)

theorem tickOrder_keepsTime (s : State) : KeepsTime s (tickOrder s) := by
  unfold tickOrder
  extract_lets s1 img s2 s3 s4 s5
  have h1 : KeepsTime s s1 := ((tickRelease_keepsDue s).trans (fltStep2_keepsDue _)).time.trans (imgGate_keepsTime _)
  have h2 : KeepsTime s1 s2 := (Keeps.ite (imgStep2_keepsTime s1) (.refl _ s1)).trans (pwrStep2_keepsDue _).time
  have h3 : KeepsTime s2 s3 := (pisteTick_keepsDue s2).time
  have h4 : KeepsTime s3 s4 := .ite (imgFlows_keepsTime s3) (.refl _ s3)
  have h5 : KeepsTime s4 s5 := (Keeps.ite (imgStep4_keepsTime s4) (.refl _ s4)).trans
    ((applyEn_keepsDue _).trans (tickSlices_keepsDue s _)).time
  exact ((((h1.trans h2).trans h3).trans h4).trans h5).trans ((pwrStep5_keepsDue s5).time.trans (tickStep6_keepsTime ..))

/-! What begins with the frame. -/

theorem tickLay_keepsTrim (s : State) : KeepsTrim s (tickLay s) := rfl

theorem tickBounds_keepsTrim (s : State) : KeepsTrim s (tickBounds s) := rfl

theorem gateTick_keepsTrim (s : State) (slacks : List (BitVec 6)) :
    KeepsTrim (tickOrder (pwrRejoin (tickBegun s))) (gateTick s slacks) := by
  have hframe : ∀ t, KeepsTrim t (tickBounds (tickLay t)) := fun t => (tickLay_keepsTrim t).trans (tickBounds_keepsTrim _)
  have hspans : ∀ (l : List Nat) t, KeepsTrim t (l.foldl tickSpan t) := fun l => Keeps.foldl (fun t p _ => tickSpan_keepsTrim t p)
  exact ((hframe _).trans (hspans _ _)).trans (ageTick_keepsTrim _ slacks)

/-- Nothing after step 1 and the return from holdover changes the time base. -/
theorem gateTick_time (s : State) (slacks : List (BitVec 6)) : (gateTick s slacks).time = (tickBegun s).time :=
  ((pwrRejoin_keepsDue _).time.trans (tickOrder_keepsTime _)).trans (gateTick_keepsTrim s slacks).due.time

/-! TIM_TRIM. -/

theorem imgGate_of_noImage {s : State} (h : s.img.st ≠ 3) : imgGate s = s := if_neg fun hc => h hc.1

theorem imgSwitches_of_noImage {s : State} (h : s.img.st ≠ 3) : imgSwitches s = false := by
  simp only [imgSwitches, beq_false_of_ne h, Bool.false_and]

/-- With no image staged the words that wait come to step 6 as the tick found them. -/
theorem tickOrder_of_noImage {s : State} (h : s.img.st ≠ 3) : ∃ t, KeepsDue s t ∧ tickOrder s = tickStep6 s t false := by
  have h1 : KeepsDue s (fltStep2 (tickRelease s)) := (tickRelease_keepsDue s).trans (fltStep2_keepsDue _)
  have hst : (fltStep2 (tickRelease s)).img.st ≠ 3 := by
    rw [(keepsDue_iff.mp h1).2.2]
    exact h
  refine ⟨pwrStep5 (tickSlices s (applyEn (pisteTick (pwrStep2 (fltStep2 (tickRelease s)))))), ?_, ?_⟩
  · exact ((((h1.trans (pwrStep2_keepsDue _)).trans (pisteTick_keepsDue _)).trans (applyEn_keepsDue _)).trans
      (tickSlices_keepsDue s _)).trans (pwrStep5_keepsDue _)
  · simp only [tickOrder, imgGate_of_noImage hst, imgSwitches_of_noImage hst, Bool.false_eq_true, if_false]

/-- The low half of a word takes the value laid over it. -/
theorem fld_low32_over (w v : Word) : fld ((w &&& ~~~0xFFFFFFFF#64) ||| (v &&& 0xFFFFFFFF#64)) 31 0 = fld v 31 0 := by
  have hlow : (~~~0xFFFFFFFF#64).setWidth 32 = 0#32 := by decide
  have hones : (0xFFFFFFFF#64).setWidth 32 = BitVec.allOnes 32 := by decide
  rw [fld_low32, fld_low32, BitVec.setWidth_or, BitVec.setWidth_and, BitVec.setWidth_and, hlow, hones, BitVec.and_zero, BitVec.zero_or,
    BitVec.and_allOnes]

theorem trim_applyWord (s : State) (v : Word) : rdF (applyWord s (aTim 0x20, v)) (aTim 0x20) 31 0 = fld v 31 0 := by
  have hrwt : (regInfo (aTim 0x20)).rwt = 0xFFFFFFFF := rfl
  have hmask : BitVec.ofNat 64 (if (regInfo (aTim 0x20)).rwt = 0 then ones64 else (regInfo (aTim 0x20)).rwt) = 0xFFFFFFFF#64 := by
    rw [hrwt, if_neg (by decide)]
  rw [rdF, applyWord, rd_wr_same, hmask, fld_low32_over]

/-- Where the words that wait hold one value for TIM_TRIM, or TIM_TRIM has it and none waits, TIM_TRIM ends with it. -/
theorem trim_applyWords {v : Word} (l : List (Nat × Word)) (hone : ∀ p ∈ l, p.1 = aTim 0x20 → p.2 = v) :
    ∀ s, (aTim 0x20, v) ∈ l ∨ rdF s (aTim 0x20) 31 0 = fld v 31 0 → rdF (l.foldl applyWord s) (aTim 0x20) 31 0 = fld v 31 0 := by
  induction l with
  | nil => exact fun s h => h.resolve_left List.not_mem_nil
  | cons p r ih =>
    intro s h
    obtain ⟨a, w⟩ := p
    refine ih (fun q hq => hone q (List.mem_cons_of_mem _ hq)) (applyWord s (a, w)) ?_
    by_cases ha : a = aTim 0x20
    · subst ha
      have hw : w = v := hone _ List.mem_cons_self rfl
      exact .inr (hw ▸ trim_applyWord s w)
    · refine h.imp (fun hmem => ?_) (fun hrd => ?_)
      · exact (List.mem_cons.mp hmem).resolve_left fun heq => ha (congrArg Prod.fst heq).symm
      · rw [rdF, applyWord, rd_wr_ne _ _ _ _ (Ne.symm ha)]
        exact hrd

/-- A TIM_TRIM that waits takes effect at step 6 (00 R8). -/
theorem trim_tickStep6 (was s : State) {v : Word} (hmem : (aTim 0x20, v) ∈ s.pendT)
    (hone : ∀ p ∈ s.pendT, p.1 = aTim 0x20 → p.2 = v) :
    rdF (tickStep6 was s false) (aTim 0x20) 31 0 = fld v 31 0 := by
  have hafter : KeepsTrim (applyPend s) (tickShares was (tickQueues was (clampQueues (applyRows (applyPend s)) fun _ => true))) :=
    (((applyRows_keepsTrim _).trans (clampQueues_keepsTrim _ _)).trans (tickQueues_keepsTrim was _)).trans (tickShares_keepsTrim was _)
  have hstep : tickStep6 was s false = tickShares was (tickQueues was (clampQueues (applyRows (applyPend s)) fun _ => true)) := rfl
  rw [hstep, rdF, (keepsTrim_iff.mp hafter).2]
  exact trim_applyWords s.pendT hone s (.inl hmem)

theorem trim_gateTick {s : State} (slacks : List (BitVec 6)) {v : Word} (hst : s.img.st ≠ 3) (hmem : (aTim 0x20, v) ∈ s.pendT)
    (hone : ∀ p ∈ s.pendT, p.1 = aTim 0x20 → p.2 = v) : rdF (gateTick s slacks) (aTim 0x20) 31 0 = fld v 31 0 := by
  obtain ⟨_, _, _, _, hpend0, hst0⟩ := tickBegun_spec s
  obtain ⟨_, hpend1, hst1⟩ := keepsDue_iff.mp (pwrRejoin_keepsDue (tickBegun s))
  obtain ⟨t, ht, horder⟩ := tickOrder_of_noImage (s := pwrRejoin (tickBegun s)) (by rw [hst1, hst0]; exact hst)
  have hpend : t.pendT = s.pendT := (keepsDue_iff.mp ht).2.1.trans (hpend1.trans hpend0)
  rw [rdF, (keepsTrim_iff.mp (gateTick_keepsTrim s slacks)).2, horder]
  exact trim_tickStep6 _ t (hpend ▸ hmem) (hpend ▸ hone)

/-! The statement. -/

theorem frameOf_next {s t : State} (h : nowNs t = (nowNs s / 1024 + 1) * 1024 % 2 ^ 64) :
    frameOf t = (frameOf s + 1) % 2 ^ 48 ∧ posOf t = 0 := by
  simp only [frameOf, posOf, h, Nat.shiftRight_eq_div_pow]
  omega

/-- Settles O39: only step 1 and the return from holdover touch the time base, and after step 6 nothing writes TIM_TRIM. -/
theorem gateTickBeginsTheFrame : Obligations.GateTickBeginsTheFrame := by
  unfold Obligations.GateTickBeginsTheFrame
  intro s slacks
  refine ⟨_, rfl, ?_⟩
  have htime := gateTick_time s slacks
  have hnow : nowNs (gateTick s slacks) = nowNs (tickTime s) := by rw [nowNs, htime]; exact nowNs_tickBegun s
  obtain ⟨ht, hout, hrise, hdue, _, _⟩ := tickBegun_spec s
  refine ⟨htime ▸ hout, ?_, htime ▸ hdue, fun h => ?_, fun h => ?_, fun h hreturn =>
    htime ▸ tickBegun_hold h hreturn, fun v => trim_gateTick slacks⟩
  · change (gateTick s slacks).time.tickRise = nowNs (gateTick s slacks)
    rw [hnow, htime, hrise, nowNs_tickBegun]
  · change (gateTick s slacks).time.t = s.time.t
    rw [htime, ht, tickTime_of_due h]
  · change nowNs (gateTick s slacks) = _ ∧ frameOf (gateTick s slacks) = _ ∧ posOf (gateTick s slacks) = 0
    have hnext := hnow.trans (nowNs_tickTime h)
    exact ⟨hnext, frameOf_next hnext⟩

end Sys2Proof.Machine
end

section
/-! SUPPORT. Words of the register map: fields and flags as they read after a write, and which words a chain of writes leaves. -/

namespace Sys2Proof.Machine

/-! Fields and flags of a word. -/

/-- A bit of a word with a field replaced is the new value's inside the field, and the word's own outside it. -/
theorem getLsbD_setFld {n : Nat} (w : BitVec n) (hi lo v i : Nat) :
    (setFld w hi lo v).getLsbD i =
      if lo ≤ i ∧ i - lo < hi - lo + 1 then decide (i < n) && v.testBit (i - lo) else w.getLsbD i := by
  by_cases hn : i < n
  · simp only [setFld, BitVec.getLsbD_or, BitVec.getLsbD_and, BitVec.getLsbD_not, BitVec.getLsbD_ofNat, Nat.testBit_shiftLeft,
      Nat.testBit_two_pow_sub_one, Nat.testBit_mod_two_pow]
    by_cases hlo : lo ≤ i <;> by_cases hhi : i - lo < hi - lo + 1 <;> simp [hn, hlo, hhi]
  · simp [BitVec.getLsbD_of_ge _ _ (Nat.le_of_not_lt hn), hn]

theorem testBit_fld {n : Nat} (w : BitVec n) (hi lo i : Nat) :
    (fld w hi lo).testBit i = (decide (i < hi - lo + 1) && w.getLsbD (lo + i)) := by
  simp [fld, Nat.testBit_mod_two_pow, Nat.testBit_shiftRight, BitVec.getLsbD]

/-- A field reads as it was written, modulo its width. -/
theorem fld_setFld_same {n : Nat} (w : BitVec n) {hi lo : Nat} (v : Nat) (hn : hi < n) (hle : lo ≤ hi) :
    fld (setFld w hi lo v) hi lo = v % 2 ^ (hi - lo + 1) := by
  refine Nat.eq_of_testBit_eq fun i => ?_
  rw [testBit_fld, getLsbD_setFld, Nat.testBit_mod_two_pow, Nat.add_sub_cancel_left]
  by_cases hi' : i < hi - lo + 1
  · have hlt : lo + i < n := by omega
    simp [hi', hlt]
  · simp [hi']

/-- A field below the one written reads as before. -/
theorem fld_setFld_of_lt {n : Nat} (w : BitVec n) {hi lo hi' lo' : Nat} (v : Nat) (hle : lo ≤ hi) (hlt : hi < lo') :
    fld (setFld w hi' lo' v) hi lo = fld w hi lo := by
  refine Nat.eq_of_testBit_eq fun i => ?_
  rw [testBit_fld, testBit_fld, getLsbD_setFld]
  by_cases hi' : i < hi - lo + 1
  · rw [if_neg (by omega)]
  · simp [hi']

theorem bitOf_or_flag (w : Word) {i : Nat} (h : i < 64) : bitOf (w ||| BitVec.ofNat 64 (1 <<< i)) i = true := by
  simp only [bitOf, BitVec.getLsbD_or, BitVec.getLsbD_ofNat, Nat.testBit_shiftLeft]
  simp [h]

/-! Words of the TIM block. -/

theorem aTim_inj {a b : Nat} : aTim a = aTim b ↔ a = b := Nat.add_left_cancel_iff

/-! Words that a chain of writes leaves. -/

theorem WordsBut.of_regs {s t : State} (l : List Nat) (h : t.regs = s.regs) : WordsBut l s t := fun a _ => by rw [rd, h, rd]

theorem WordsBut.trans {l : List Nat} {s t u : State} (h : WordsBut l s t) (k : WordsBut l t u) : WordsBut l s u :=
  fun a ha => (k a ha).trans (h a ha)

theorem WordsBut.mono {l k : List Nat} {s t : State} (h : WordsBut l s t) (hl : l ⊆ k) : WordsBut k s t :=
  fun a ha => h a fun hmem => ha (hl hmem)

theorem WordsBut.wr {l : List Nat} (s : State) {a : Nat} (v : Word) (h : a ∈ l) : WordsBut l s (wr s a v) :=
  fun b hb => rd_wr_ne s a b v fun e => hb (e ▸ h)

theorem WordsBut.wrF {l : List Nat} (s : State) {a : Nat} (hi lo v : Nat) (h : a ∈ l) : WordsBut l s (wrF s a hi lo v) := .wr s _ h

theorem WordsBut.setFlag {l : List Nat} (s : State) {a : Nat} (i : Nat) (h : a ∈ l) : WordsBut l s (setFlag s a i) := .wr s _ h

theorem WordsBut.ite {l : List Nat} {c : Prop} [Decidable c] {s t u : State} (ht : WordsBut l s t) (hu : WordsBut l s u) :
    WordsBut l s (if c then t else u) := by split <;> assumption

/-- A command that sets one flag and does nothing else. -/
theorem completes_setFlag {c : Instr} {s : State} {a i : Nat} (hexec : exec c s = answer s (setFlag s a i)) :
    Completes c s fun t => rd t a = rd s a ||| BitVec.ofNat 64 (1 <<< i) ∧ WordsBut [a] s t ∧ t = { s with regs := t.regs } :=
  completes_of_answer hexec rfl rfl rfl ⟨rd_wr_same .., .setFlag s i (List.mem_singleton_self a), rfl⟩

end Sys2Proof.Machine
end

section
/-! SUPPORT. A cycle of the timing clock (02 R20; log 6). -/

namespace Sys2Proof.Machine

/-! Signed arithmetic. -/

theorem clampInt_eq_max_min {lo hi : Int} (h : lo ≤ hi) (i : Int) : clampInt lo hi i = max lo (min hi i) := by
  unfold clampInt
  omega

/-- A count advanced by a signed number, modulo its width. -/
theorem toNat_add_unsignedOf {n : Nat} (t : BitVec n) (i : Int) :
    ((t + BitVec.ofNat n (unsignedOf n i)).toNat : Int) = (t.toNat + i) % 2 ^ n := by
  have hcast : ((unsignedOf n i : Nat) : Int) = i % 2 ^ n := by
    rw [unsignedOf, Int.toNat_of_nonneg (Int.emod_nonneg _ (by positivity))]
    push_cast
    rfl
  rw [BitVec.toNat_add, BitVec.toNat_ofNat, Nat.mod_eq_of_lt (unsignedOf_lt n i)]
  push_cast
  rw [hcast, Int.add_emod_emod]

/-- The rate correction is the sum of the three terms within 500 ppm (02 R20). -/
theorem rateNow_eq (s : State) : rateNow s = max (-2147483) (min 2147483 (trimOf s + slewTerm s + ppsTermOf s)) :=
  clampInt_eq_max_min (by decide) _

/-- The slew term is what remains, at most S_MAX in magnitude (02 R20). -/
theorem slewTerm_eq (s : State) :
    slewTerm s = if 0 ≤ s.time.slewRem then min s.time.slewRem (slewMax s) else max s.time.slewRem (-(slewMax s : Int)) := by
  unfold slewTerm clampInt
  omega

/-! The cycle. -/

theorem frame_eq_div (t : BitVec 96) : t.toNat >>> 42 = (t.toNat >>> 32) / 1024 := by
  rw [Nat.shiftRight_add t.toNat 32 10, Nat.shiftRight_eq_div_pow _ 10]

theorem timeCycle_t (s : State) : (timeCycle s).time.t = s.time.t + BitVec.ofNat 96 (unsignedOf 96 (4294967296 + rateNow s)) := by
  unfold timeCycle
  dsimp only
  split <;> rfl

/-- What the count crosses in a cycle, and the pulses that end in it, wait behind what waited (log 6). -/
theorem timeCycle_pending (s : State) :
    (timeCycle s).pending = s.pending ++
      (if (timeCycle s).time.t.toNat >>> 42 != s.time.t.toNat >>> 42 then [.gateTick []] else []) ++
      (if secondOf (timeCycle s).time.t != secondOf s.time.t then [.ppsOutRise] else []) ++
      (if s.time.tickOut && decide (8 ≤ subMod 64 (nowNs (timeCycle s)) s.time.tickRise) then [.tickOutFall] else []) ++
      (if s.time.ppsOut && decide (100000 ≤ subMod 64 (nowNs (timeCycle s)) s.time.ppsRise) then [.ppsOutFall] else []) := by
  rw [nowNs, timeCycle_t]
  unfold timeCycle
  dsimp only
  split <;> rfl

/-- Of the words a cycle can write TIM_STAT alone, with CLAMPED (02 R20). -/
theorem timeCycle_words (s : State) : WordsBut [aTim 0x40] s (timeCycle s) :=
  .ite (c := rateRaw s ≤ -rateMax ∨ rateMax ≤ rateRaw s)
    (.setFlag { s with time := _ } 1 (List.mem_singleton_self _)) (.of_regs (t := { s with time := _ }) _ rfl)

theorem timeCycle_only (s : State) :
    timeCycle s = { s with
      time := (timeCycle s).time, regs := (timeCycle s).regs, pending := (timeCycle s).pending, pwr := { s.pwr with vchg := false } } := by
  unfold timeCycle
  dsimp only
  split <;> rfl

theorem mem_timeCycle_pending {s : State} (h : s.pending = []) {c : Instr} (hc : c ∈ (timeCycle s).pending) :
    c = .gateTick [] ∨ c = .ppsOutRise ∨ c = .tickOutFall ∨ c = .ppsOutFall := by
  rw [timeCycle_pending, h] at hc
  simp only [List.nil_append, List.mem_append, List.mem_ite_nil_right, List.mem_singleton] at hc
  tauto

/-- The gate tick falls when the count enters another frame (02 R20, R26). -/
theorem gateTick_mem_timeCycle_iff {s : State} (h : s.pending = []) :
    Instr.gateTick [] ∈ (timeCycle s).pending ↔ nowNs (timeCycle s) / 1024 ≠ nowNs s / 1024 := by
  rw [timeCycle_pending, h, frame_eq_div, frame_eq_div]
  simp [nowNs]

/-- Settles O2: the count advances modulo 2^96 by a clamped sum, and only what it crosses waits. -/
theorem idleStepCountsOneNsPlusRate : Obligations.IdleStepCountsOneNsPlusRate := by
  unfold Obligations.IdleStepCountsOneNsPlusRate
  intro s h
  refine ⟨timeCycle s, step_of_empty h, ?_, rateNow_eq s, slewTerm_eq s, fun c => mem_timeCycle_pending h,
    gateTick_mem_timeCycle_iff h, timeCycle_words s, timeCycle_only s⟩
  rw [timeCycle_t, toNat_add_unsignedOf]
  rfl

end Sys2Proof.Machine
end

section
/-! SUPPORT. The PPS input and the time outputs (02 R32 to R34). -/

namespace Sys2Proof.Machine

/-! An edge of tb_pps_in. -/

theorem nowNs_lt (s : State) : nowNs s < 2 ^ 64 := by
  rw [nowNs, Nat.shiftRight_eq_div_pow]
  omega

/-- The edge is stamped. -/
def ppsStamped (s : State) : State := wr s (aTim 0x48) (BitVec.ofNat 64 (nowNs s))

/-- The stamped edge with its error recorded. -/
def ppsErred (s : State) : State := wrF (ppsStamped s) (aTim 0x50) 31 0 (unsignedOf 32 (ppsError (nowNs s)))

theorem exec_ppsEdge_unused {s : State} (h : ppsOn s = false) : exec .ppsEdge s = answer s (ppsStamped s) :=
  congrArg (answer s) (if_pos h)

theorem exec_ppsEdge_used {s : State} (h : ppsOn s = true) :
    exec .ppsEdge s = answer s (if 100000 < |ppsError (nowNs s)| then setFlag (ppsErred s) (aTim 0x40) 2
      else ppsAccept (ppsErred s) (ppsError (nowNs s))) := by
  have hfar : 100000 < |ppsError (nowNs s)| ↔ 100000 < ppsError (nowNs s) ∨ ppsError (nowNs s) < -100000 := by
    rw [lt_abs, lt_neg]
  rw [if_congr hfar rfl rfl]
  exact congrArg (answer s) (if_neg (by simp [h]))

/-- The stamp reads as TIM_NOW. -/
theorem rd_ppsStamped (s : State) : (rd (ppsStamped s) (aTim 0x48)).toNat = nowNs s := by
  rw [ppsStamped, rd_wr_same, BitVec.toNat_ofNat, Nat.mod_eq_of_lt (nowNs_lt s)]

theorem rd_ppsErred_ne {s : State} {a : Nat} (h : a ≠ aTim 0x50) : rd (ppsErred s) a = rd (ppsStamped s) a := rd_wr_ne _ _ _ _ h

theorem ppsError_ppsErred (s : State) : rdF (ppsErred s) (aTim 0x50) 31 0 = unsignedOf 32 (ppsError (nowNs s)) := by
  rw [rdF, ppsErred, rd_wrF, if_pos rfl, fld_setFld_same _ _ (by decide) (by decide)]
  exact Nat.mod_eq_of_lt (unsignedOf_lt 32 _)

theorem ppsErred_words (s : State) : WordsBut [aTim 0x40, aTim 0x48, aTim 0x50] s (ppsErred s) :=
  WordsBut.trans (.wr s _ (by simp)) (.wrF (ppsStamped s) _ _ _ (by simp))

theorem ppsAccept_words (s : State) (e : Int) : WordsBut [aTim 0x50] s (ppsAccept s e) :=
  .wrF { s with time := _ } _ _ _ (List.mem_singleton_self _)

/-- The error stands below the PPS term in its word, so an accepted edge leaves it (02 Table 02.2). -/
theorem ppsError_ppsAccept (s : State) (e : Int) : rdF (ppsAccept s e) (aTim 0x50) 31 0 = rdF s (aTim 0x50) 31 0 := by
  rw [rdF, ppsAccept, rd_wrF, if_pos rfl, fld_setFld_of_lt _ _ (by decide) (by decide)]
  rfl

/-- An edge out of use is stamped alone. -/
theorem completes_ppsEdge_unused {s : State} (h : ppsOn s = false) : Completes .ppsEdge s fun t =>
    (rd t (aTim 0x48)).toNat = nowNs s ∧ WordsBut [aTim 0x48] s t ∧ t = { s with regs := t.regs } :=
  completes_of_answer (exec_ppsEdge_unused h) rfl rfl rfl ⟨rd_ppsStamped s, .wr s _ (List.mem_singleton_self _), rfl⟩

/-- An edge in use with an error of more than 100 us is recorded and rejected. -/
theorem completes_ppsEdge_rejected {s : State} (h : ppsOn s = true) (hfar : 100000 < |ppsError (nowNs s)|) : Completes .ppsEdge s fun t =>
    (rd t (aTim 0x48)).toNat = nowNs s ∧ WordsBut [aTim 0x40, aTim 0x48, aTim 0x50] s t ∧ t = { s with regs := t.regs } ∧
      rdF t (aTim 0x50) 31 0 = unsignedOf 32 (ppsError (nowNs s)) ∧ rd t (aTim 0x40) = rd s (aTim 0x40) ||| 0x4#64 := by
  refine completes_of_answer (t := setFlag (ppsErred s) (aTim 0x40) 2) (by rw [exec_ppsEdge_used h, if_pos hfar]) rfl rfl rfl
    ⟨?_, (ppsErred_words s).trans (.setFlag _ 2 (by simp)), rfl, ?_, ?_⟩
  · rw [rd_setFlag, if_neg (by decide), rd_ppsErred_ne (by decide), rd_ppsStamped]
  · rw [rdF, rd_setFlag, if_neg (by decide)]
    exact ppsError_ppsErred s
  · rw [rd_setFlag, if_pos rfl, rd_ppsErred_ne (by decide), ppsStamped, rd_wr_ne _ _ _ _ (by decide)]
    rfl

/-- Any other edge in use is recorded and disciplines the time base. -/
theorem completes_ppsEdge_accepted {s : State} (h : ppsOn s = true) (hnear : |ppsError (nowNs s)| ≤ 100000) :
    Completes .ppsEdge s fun t =>
      (rd t (aTim 0x48)).toNat = nowNs s ∧ WordsBut [aTim 0x40, aTim 0x48, aTim 0x50] s t ∧
        t = { s with time := t.time, regs := t.regs } ∧ rdF t (aTim 0x50) 31 0 = unsignedOf 32 (ppsError (nowNs s)) ∧
        rd t (aTim 0x40) = rd s (aTim 0x40) ∧
        t.time = { s.time with
          slewRem := s.time.slewRem - ppsError (nowNs s) * 2 ^ 32
          ppsTerm := s.time.ppsTerm - ppsStep (ppsError (nowNs s) - s.time.ePrev)
          ePrev := ppsError (nowNs s), ppsAccepted := nowNs s } := by
  have hwords := ppsAccept_words (ppsErred s) (ppsError (nowNs s))
  refine completes_of_answer (t := ppsAccept (ppsErred s) (ppsError (nowNs s)))
    (by rw [exec_ppsEdge_used h, if_neg (not_lt.mpr hnear)]) rfl rfl rfl ⟨?_, ?_, rfl, ?_, ?_, rfl⟩
  · rw [hwords _ (by decide), rd_ppsErred_ne (by decide), rd_ppsStamped]
  · exact (ppsErred_words s).trans (hwords.mono (by simp))
  · rw [ppsError_ppsAccept, ppsError_ppsErred]
  · rw [hwords _ (by decide), rd_ppsErred_ne (by decide), ppsStamped, rd_wr_ne _ _ _ _ (by decide)]

/-! The loss of the edges, and the outputs. -/

theorem exec_ppsLost {s : State} (h : ppsOn s = true) (hlate : 2000000000 ≤ nowNs s - s.time.ppsAccepted) :
    exec .ppsLost s = answer s (setFlag s (aTim 0x40) 3) :=
  congrArg (answer s) (if_pos (by simp [h, hlate]))

theorem exec_ppsOutRise {s : State} (h : s.time.ppsDue = true) :
    exec .ppsOutRise s = answer s { s with time := { s.time with ppsOut := true, ppsRise := nowNs s, ppsDue := false } } :=
  congrArg (answer s) (if_pos h)

theorem exec_ppsOutFall {s : State} (h : s.time.ppsOut = true) (hend : 100000 ≤ subMod 64 (nowNs s) s.time.ppsRise) :
    exec .ppsOutFall s = answer s { s with time := { s.time with ppsOut := false } } :=
  congrArg (answer s) (if_pos (by simp [h, hend]))

theorem exec_tickOutFall {s : State} (h : s.time.tickOut = true) (hend : 8 ≤ subMod 64 (nowNs s) s.time.tickRise) :
    exec .tickOutFall s = answer s { s with time := { s.time with tickOut := false } } :=
  congrArg (answer s) (if_pos (by simp [h, hend]))

/-- Settles O4: an edge is out of use, rejected or accepted; the loss and the outputs each act under their own condition. -/
theorem ppsEdgesAreJudgedAndOutputsPulse : Obligations.PpsEdgesAreJudgedAndOutputsPulse := by
  unfold Obligations.PpsEdgesAreJudgedAndOutputsPulse
  refine ⟨fun s => ?_, fun s => ⟨fun h hlate => completes_setFlag (exec_ppsLost h hlate),
    fun h => completes_of_answer (exec_ppsOutRise h) rfl rfl rfl rfl,
    fun h hend => completes_of_answer (exec_ppsOutFall h hend) rfl rfl rfl rfl,
    fun h hend => completes_of_answer (exec_tickOutFall h hend) rfl rfl rfl rfl⟩⟩
  cases hon : ppsOn s with
  | false =>
    obtain ⟨t, hexec, hstamp, hwords, honly⟩ := completes_ppsEdge_unused hon
    have htime : t.time = s.time := by rw [honly]
    exact ⟨t, hexec, hstamp, hwords.mono (by simp), by rw [htime]; exact honly, fun _ => ⟨htime, hwords⟩, nofun⟩
  | true =>
    by_cases hfar : 100000 < |ppsError (nowNs s)|
    · obtain ⟨t, hexec, hstamp, hwords, honly, herror, hflag⟩ := completes_ppsEdge_rejected hon hfar
      have htime : t.time = s.time := by rw [honly]
      refine ⟨t, hexec, hstamp, hwords, by rw [htime]; exact honly, nofun, fun _ e he => ?_⟩
      subst he
      exact ⟨herror, fun _ => ⟨htime, hflag⟩, fun hnear => absurd hfar (not_lt.mpr hnear)⟩
    · obtain ⟨t, hexec, hstamp, hwords, honly, herror, hstat, htime⟩ := completes_ppsEdge_accepted hon (not_lt.mp hfar)
      refine ⟨t, hexec, hstamp, hwords, honly, nofun, fun _ e he => ?_⟩
      subst he
      exact ⟨herror, fun h => absurd h hfar, fun _ => ⟨hstat, htime⟩⟩

end Sys2Proof.Machine
end

section
/-! SUPPORT. TIM_STEP, TIM_LOCK and TIM_SLEW (02 R23 to R25). -/

namespace Sys2Proof.Machine

/-! TIM_STEP. -/

theorem timStep_of_unlocked {s : State} (v : Word) (h : bitOf (rd s (aTim 0x40)) 6 = false) :
    timStep s v = { s with time := { s.time with
      t := BitVec.ofNat 96 (v.toNat * 2 ^ 32), ppsAccepted := s.time.ppsAccepted + ((v.toNat : Int) - nowNs s) } } := by
  rw [timStep, timLocked, h, Nat.shiftLeft_eq]
  rfl

theorem timStep_of_locked {s : State} (v : Word) (h : bitOf (rd s (aTim 0x40)) 6 = true) : timStep s v = setFlag s (aTim 0x40) 4 := by
  rw [timStep, timLocked, if_pos h]

/-- Before the lock the value is loaded, with no fraction. -/
theorem completes_timStep_unlocked {s : State} (v : Word) (h : bitOf (rd s (aTim 0x40)) 6 = false) :
    Completes (.timStep v) s fun t => nowNs t = v.toNat ∧ t.time.t.toNat % 2 ^ 32 = 0 ∧
      t = { s with time := { s.time with t := t.time.t, ppsAccepted := s.time.ppsAccepted + ((v.toNat : Int) - nowNs s) } } := by
  have hexec : exec (.timStep v) s = answer s _ := congrArg (answer s) (timStep_of_unlocked v h)
  refine completes_of_answer hexec rfl rfl rfl ⟨?_, ?_, rfl⟩
  · exact (nowNs_of_whole rfl).trans (Nat.mod_eq_of_lt v.isLt)
  · rw [BitVec.toNat_ofNat]
    omega

/-! TIM_LOCK. -/

theorem completes_timLock (s : State) : Completes .timLock s fun t =>
    bitOf (rd t (aTim 0x40)) 6 = true ∧ rd t (aTim 0x40) = rd s (aTim 0x40) ||| 0x40#64 ∧
    rd t (aTim 0x38) = rd s (aTim 0x38) ||| 1#64 ∧ WordsBut [aTim 0x40, aTim 0x38] s t ∧ t = { s with regs := t.regs } := by
  have hstat : rd (timLock s) (aTim 0x40) = rd s (aTim 0x40) ||| BitVec.ofNat 64 (1 <<< 6) :=
    (rd_wr_ne _ _ _ _ (by decide)).trans (rd_wr_same ..)
  have hlock : rd (timLock s) (aTim 0x38) = rd s (aTim 0x38) ||| BitVec.ofNat 64 (1 <<< 0) := by
    rw [timLock, rd_setFlag, if_pos rfl, rd_setFlag, if_neg (by decide)]
  refine completes_of_answer (t := timLock s) rfl rfl rfl rfl ⟨?_, hstat, hlock, ?_, rfl⟩
  · rw [hstat]
    exact bitOf_or_flag _ (by decide)
  · exact WordsBut.trans (.setFlag s 6 (by simp)) (.setFlag _ 0 (by simp))

/-! TIM_SLEW. -/

theorem signedOf_toNat (v : BitVec 32) : signedOf 32 v.toNat = v.toInt := by
  have hlt := v.isLt
  rw [BitVec.toInt_eq_toNat_cond]
  unfold signedOf
  omega

theorem timSlew_of_free {s : State} (v : BitVec 32) (hpps : bitOf (rd s (aTim 0)) 1 = false) (hchild : isChild s = false) :
    timSlew s v = { s with time := { s.time with slewRem := v.toInt * 2 ^ 32 } } := by
  rw [timSlew, hpps, hchild, signedOf_toNat]
  rfl

theorem timSlew_of_disciplined {s : State} (v : BitVec 32) (h : bitOf (rd s (aTim 0)) 1 = true ∨ isChild s = true) :
    timSlew s v = setFlag s (aTim 0x40) 5 := by
  rw [timSlew, if_pos (by simpa using h)]

/-- Settles O1: each write acts or only sets its flag, by what holds at that moment. -/
theorem timeIsLoadedUntilLockedAndSlewed : Obligations.TimeIsLoadedUntilLockedAndSlewed := by
  unfold Obligations.TimeIsLoadedUntilLockedAndSlewed
  refine ⟨fun s v => ⟨completes_timStep_unlocked v, fun h => ?_⟩, completes_timLock, fun s v => ⟨fun hpps hchild => ?_, fun h => ?_⟩⟩
  · exact completes_setFlag (i := 4) (congrArg (answer s) (timStep_of_locked v h))
  · exact completes_of_answer (congrArg (answer s) (timSlew_of_free v hpps hchild)) rfl rfl rfl rfl
  · exact completes_setFlag (i := 5) (congrArg (answer s) (timSlew_of_disciplined v h))

end Sys2Proof.Machine
end

section
/-! SUPPORT. Holdover (02 R30, R31, R39). -/

namespace Sys2Proof.Machine

/-- TIM_HOLD_CNT after one more entry. -/
def holdCount (s : State) : Nat := (rdF s (aTim 0x58) 31 0 + 1) % 2 ^ 32

/-- Holdover with its flags. -/
def holdFlagged (s : State) : State :=
  setFlag (setFlag { s with time := { s.time with hold := true, returnDue := false } } (aTim 0) 0) (aTim 0x40) 0

/-- Holdover is entered: the state in which TIM_HOLDOVER is raised. -/
def holdEntered (s : State) : State := wrF (holdFlagged s) (aTim 0x58) 31 0 (holdCount s)

theorem rd_holdFlagged (s : State) (a : Nat) :
    rd (holdFlagged s) a = if a = aTim 0 ∨ a = aTim 0x40 then rd s a ||| BitVec.ofNat 64 (1 <<< 0) else rd s a := by
  have hregs : ∀ b, rd { s with time := { s.time with hold := true, returnDue := false } } b = rd s b := fun _ => rfl
  simp only [holdFlagged, rd_setFlag, hregs]
  by_cases hstat : a = aTim 0x40
  · subst hstat
    simp [aTim_inj]
  by_cases hctl : a = aTim 0
  · subst hctl
    simp [aTim_inj]
  · simp [hstat, hctl]

theorem exec_referenceLoss_enters {s : State} (h : s.time.hold = false) :
    exec .referenceLoss s = answer s (raiseG (holdEntered s) 240 0x020 1 (holdCount s)) := by
  have hcount : (rdF (holdFlagged s) (aTim 0x58) 31 0 + 1) % 2 ^ 32 = holdCount s := by
    rw [rdF, rd_holdFlagged, if_neg (by decide), holdCount, rdF]
  have hexec : exec .referenceLoss s = answer s (raiseG (wrF (holdFlagged s) (aTim 0x58) 31 0
      ((rdF (holdFlagged s) (aTim 0x58) 31 0 + 1) % 2 ^ 32)) 240 0x020 1 ((rdF (holdFlagged s) (aTim 0x58) 31 0 + 1) % 2 ^ 32)) :=
    congrArg (answer s) (if_neg (by simp [h]))
  rw [hexec, hcount, holdEntered]

theorem exec_referenceLoss_again {s : State} (h : s.time.hold = true) :
    exec .referenceLoss s = answer s { s with time := { s.time with returnDue := false } } :=
  congrArg (answer s) (if_pos h)

theorem exec_referenceStable {s : State} (h : s.time.hold = true) :
    exec .referenceStable s = answer s { s with time := { s.time with returnDue := true } } :=
  congrArg (answer s) (if_pos h)

theorem holdEntered_hold (s : State) : bitOf (rd (holdEntered s) (aTim 0)) 0 = true := by
  rw [holdEntered, rd_wrF, if_neg (by decide), rd_holdFlagged, if_pos (.inl rfl)]
  exact bitOf_or_flag _ (by decide)

theorem holdEntered_entered (s : State) : bitOf (rd (holdEntered s) (aTim 0x40)) 0 = true := by
  rw [holdEntered, rd_wrF, if_neg (by decide), rd_holdFlagged, if_pos (.inr rfl)]
  exact bitOf_or_flag _ (by decide)

theorem holdEntered_count (s : State) : rdF (holdEntered s) (aTim 0x58) 31 0 = holdCount s := by
  rw [rdF, holdEntered, rd_wrF, if_pos rfl, fld_setFld_same _ _ (by decide) (by decide)]
  exact Nat.mod_mod _ _

theorem holdEntered_words (s : State) : WordsBut [aTim 0, aTim 0x40, aTim 0x58] s (holdEntered s) :=
  ((WordsBut.of_regs (t := { s with time := _ }) _ rfl).trans (.setFlag _ 0 (by simp))).trans
    ((WordsBut.setFlag _ 0 (by simp)).trans (.wrF _ 31 0 _ (by simp)))

/-- Settles O3: the notification of an entry writes no word of the time base. -/
theorem referenceLossEntersHoldover : Obligations.ReferenceLossEntersHoldover := by
  unfold Obligations.ReferenceLossEntersHoldover
  refine fun s => ⟨fun h => ?_, fun h => completes_of_answer (exec_referenceLoss_again h) rfl rfl rfl rfl,
    fun h => completes_of_answer (exec_referenceStable h) rfl rfl rfl rfl⟩
  have hnote := raiseG_noteOnly (holdEntered s) 240 0x020 1 (holdCount s)
  have ⟨_, hwords, _⟩ := hnote
  have hcount : rdF (raiseG (holdEntered s) 240 0x020 1 (holdCount s)) (aTim 0x58) 31 0 = holdCount s := by
    rw [rdF, hwords _ (by decide)]
    exact holdEntered_count s
  refine completes_of_answer (exec_referenceLoss_enters h) hnote.gen hnote.pending (congrArg Lcs.fuse hnote.lcs)
    ⟨holdEntered s, hnote, ?_, ?_, hcount, ?_, holdEntered_words s, rfl⟩
  · rw [hwords _ (by decide)]
    exact holdEntered_hold s
  · rw [hwords _ (by decide)]
    exact holdEntered_entered s
  · rw [hcount]

end Sys2Proof.Machine
end

section
/-! SUPPORT. A command at one NI: what it leaves unchanged, and where its words lie. -/

namespace Sys2Proof.Machine

/-! Other NIs and words. -/

theorem isEpNi_lt {s : State} {n : Nat} (h : isEpNi s n = true) : n < 128 := isNi_lt (by rw [isNi, h, Bool.true_or])

theorem aNi_inj {n a b : Nat} : aNi n a = aNi n b ↔ a = b := Nat.add_left_cancel_iff

/-- Of an NI's words notifications and event counts write NI_EP_NTF_LOST alone (03 R57). -/
theorem noteWord_aNi {n off : Nat} (hn : n < 128) (ho : off < 0x2000) (hlost : off ≠ 0x20) : noteWord (aNi n off) = false := by
  have hrange := aNi_range hn ho
  have hblock := (aNi_block n ho).2
  simp [noteWord, hblock, hlost]
  omega

/-- What a notification may change of an NI is the notification queue of its port. -/
theorem SameNi.exists_ntfQ {s t : State} {m : Nat} (h : SameNi s t m) :
    ∃ q, getNi t m = { getNi s m with port := { (getNi s m).port with ntfQ := q } } := ⟨_, h⟩

theorem SameNi.of_eq {s t : State} {m : Nat} (h : getNi t m = getNi s m) : SameNi s t m := by unfold SameNi; rw [h]

theorem SameNi.trans {s t u : State} {m : Nat} (h : SameNi s t m) (k : SameNi t u m) : SameNi s u m := by
  obtain ⟨q, hq⟩ := h.exists_ntfQ
  unfold SameNi at k ⊢
  rw [k, hq]

/-! A command that changes one NI alone. -/

theorem NiOnly.updNi (s : State) (n : Nat) (f : Ni → Ni) : NiOnly n s (updNi s n f) :=
  ⟨rfl, fun m hm => by rw [getNi_updNi, if_neg hm]⟩

theorem NiOnly.trans {n : Nat} {s t u : State} (h : NiOnly n s t) (k : NiOnly n t u) : NiOnly n s u := by
  obtain ⟨hall, hni⟩ := h
  obtain ⟨kall, kni⟩ := k
  refine ⟨?_, fun m hm => (kni m hm).trans (hni m hm)⟩
  rw [kall]
  conv_lhs => rw [hall]

theorem completes_of_niOnly {n : Nat} {c : Instr} {s t : State} {P : State → Prop} (hexec : exec c s = answer s t)
    (honly : NiOnly n s t) (hP : P t) : Completes c s P := by
  have hall := honly.1
  exact completes_of_answer hexec (by rw [hall]) (by rw [hall]) (by rw [hall]) hP

/-! A command that changes one NI, words of its own, and what notifications write. -/

theorem NiNote.refl (n : Nat) (l : List Nat) (s : State) : NiNote n l s s := ⟨rfl, fun _ _ _ => rfl, fun m _ => .refl s m⟩

theorem NiNote.trans {n : Nat} {l : List Nat} {s t u : State} (h : NiNote n l s t) (k : NiNote n l t u) : NiNote n l s u := by
  obtain ⟨hall, hwords, hni⟩ := h
  obtain ⟨kall, kwords, kni⟩ := k
  refine ⟨?_, fun a ha hnote => (kwords a ha hnote).trans (hwords a ha hnote), fun m hm => (hni m hm).trans (kni m hm)⟩
  rw [kall]
  conv_lhs => rw [hall]

theorem NiNote.mono {n : Nat} {l k : List Nat} {s t : State} (h : NiNote n l s t) (hl : l ⊆ k) : NiNote n k s t := by
  obtain ⟨hall, hwords, hni⟩ := h
  exact ⟨hall, fun a ha => hwords a fun hmem => ha (hl hmem), hni⟩

theorem NoteOnly.niNote {s t : State} (h : NoteOnly s t) (n : Nat) (l : List Nat) : NiNote n l s t := by
  obtain ⟨hall, hwords, hni⟩ := h
  refine ⟨?_, fun a _ => hwords a, fun m _ => hni m⟩
  rw [hall]

theorem NiOnly.niNote {n : Nat} {s t : State} (h : NiOnly n s t) (l : List Nat) : NiNote n l s t := by
  obtain ⟨hall, hni⟩ := h
  refine ⟨?_, fun a _ _ => ?_, fun m hm => .of_eq (hni m hm)⟩
  · rw [hall]
  · rw [hall]; rfl

theorem NiNote.updNi (n : Nat) (l : List Nat) (s : State) (f : Ni → Ni) : NiNote n l s (updNi s n f) := (NiOnly.updNi s n f).niNote l

theorem NiNote.updPort (n : Nat) (l : List Nat) (s : State) (f : Port → Port) : NiNote n l s (updPort s n f) := .updNi n l s _

theorem NiNote.wr {n a : Nat} {l : List Nat} (s : State) (v : Word) (h : a ∈ l) : NiNote n l s (wr s a v) :=
  ⟨rfl, fun b hb _ => rd_wr_ne s a b v fun e => hb (e ▸ h), fun m _ => .refl s m⟩

theorem NiNote.setFlag {n a : Nat} {l : List Nat} (s : State) (i : Nat) (h : a ∈ l) : NiNote n l s (setFlag s a i) := .wr s _ h

theorem NiNote.incSat {n a : Nat} {l : List Nat} (s : State) (d : Nat) (h : a ∈ l) : NiNote n l s (incSat s a d) := .wr s _ h

theorem NiNote.takeFree (n : Nat) (l : List Nat) (s : State) : NiNote n l s (takeFree s).2 :=
  ⟨rfl, fun _ _ _ => rfl, fun m _ => .refl s m⟩

theorem NiNote.ite {n : Nat} {l : List Nat} {c : Prop} [Decidable c] {s t u : State} (ht : NiNote n l s t) (hu : NiNote n l s u) :
    NiNote n l s (if c then t else u) := by split <;> assumption

theorem completes_of_niNote {n : Nat} {l : List Nat} {c : Instr} {s t : State} {P : State → Prop} (hexec : exec c s = answer s t)
    (hnote : NiNote n l s t) (hP : P t) : Completes c s P := by
  have hall := hnote.1
  exact completes_of_answer hexec (by rw [hall]) (by rw [hall]) (by rw [hall]) hP

end Sys2Proof.Machine
end

section
/-! SUPPORT. The reset handshake of a port (03 R58). -/

namespace Sys2Proof.Machine

/-! The beginning of a reset. -/

/-- Without member entries a reset has no copy to answer (10 R223). -/
theorem answerMembers_of_none {s : State} {n : Nat} (h : (getNi s n).members = []) :
    answerMembers s n = updNi s n fun i => { i with members := [] } := by
  have hnone : mmap (getNi s n).members (fun _ e => if e.answered || e.due.isSome then e else { e with due := some 4 }) = [] := by
    rw [h]
    rfl
  unfold answerMembers memberDrain
  rw [getNi_updNi_same]
  dsimp only
  rw [hnone]
  simp only [List.foldl_nil, updNi, h, mmap, List.map_nil]

theorem exec_epResetRequest {s : State} {n : NiId} (hni : isEpNi s n.toNat = true) (hen : portEn s n.toNat = true) :
    exec (.epResetRequest n) s = answer s (updPort (portResetBegin s n.toNat) n.toNat fun p => { p with reqEp := true }) :=
  congrArg (answer s) (if_neg (by simp [hni, hen]))

theorem completes_epResetRequest {s : State} {n : NiId} (hni : isEpNi s n.toNat = true) (hen : portEn s n.toNat = true)
    (hnone : (getNi s n.toNat).members = []) : Completes (.epResetRequest n) s fun t =>
      (getNi t n.toNat).port = { portQuiet (getNi s n.toNat).port (nowNs s) with reqEp := true } ∧ NiOnly n.toNat s t := by
  have hmembers : (getNi (updPort s n.toNat fun p => portQuiet p (nowNs s)) n.toNat).members = [] := by
    rw [getNi_updPort_same]
    exact hnone
  refine completes_of_niOnly (n := n.toNat) (exec_epResetRequest hni hen) ?_ ⟨?_, ?_⟩
  all_goals rw [portResetBegin, answerMembers_of_none hmembers]
  · exact ((NiOnly.updNi ..).trans (.updNi ..)).trans (.updNi ..)
  · simp
  · exact ((NiOnly.updNi ..).trans (.updNi ..)).trans (.updNi ..)

/-! Its steps. -/

/-- A command that gives one port its next value and does nothing else. -/
theorem completes_updPort {c : Instr} {s : State} {n : Nat} {f : Port → Port} {p : Port} (hexec : exec c s = answer s (updPort s n f))
    (hp : f (getNi s n).port = p) : Completes c s fun t => (getNi t n).port = p ∧ NiOnly n s t :=
  completes_of_niOnly hexec (.updNi ..) ⟨by rw [getNi_updPort_same, hp], .updNi ..⟩

/-- As the NI raises ep_rst_in_ni it lowers its request, if the endpoint is in reset; it stays in reset while a request stands (03 R58
step 2). -/
theorem portStep_raise {p : Port} (hreq : p.inEp = false ∨ p.reqEp = true) :
    portStep { p with inNi := true } = { p with inNi := true, reqNi := if p.inEp then false else p.reqNi } := by
  unfold portStep
  cases hep : p.inEp <;> simp_all

/-- As the endpoint lowers the last request, with both in reset, the NI leaves reset. -/
theorem portStep_lastFall {p : Port} (hep : p.inEp = true) (hni : p.inNi = true) (hreq : p.reqNi = false) :
    portStep { p with reqEp := false } = { p with reqEp := false, inNi := false } := by simp [portStep, hep, hni, hreq]

/-- As the endpoint leaves reset the NI does nothing. -/
theorem portStep_inEpFall (p : Port) : portStep { p with inEp := false, inEpSeen := p.inEpSeen || false } = { p with inEp := false } := by
  simp [portStep]

theorem exec_niRstInRaise {s : State} {n : NiId} {p : Port} (hni : isEpNi s n.toNat = true) (hp : p = (getNi s n.toNat).port)
    (hreset : p.resetting = true) (hin : p.inNi = false) (hrq : p.rqRx = []) (hrs : p.rsRx = []) (hreq : p.reqEp = true ∨ p.reqNi = true) :
    exec (.niRstInRaise n) s = answer s (updPort s n.toNat fun p => portStep { p with inNi := true }) :=
  congrArg (answer s) (if_pos (by simpa [← hp, hni, hreset, hin, hrq, hrs] using hreq))

theorem exec_epRstReqEpFall {s : State} {n : NiId} (hni : isEpNi s n.toNat = true) (hen : portEn s n.toNat = true) :
    exec (.epRstReqEpFall n) s = answer s (updPort s n.toNat fun p => portStep { p with reqEp := false }) :=
  congrArg (answer s) (if_pos (by simp [hni, hen]))

theorem exec_epRstInEpChange_fall {s : State} {n : NiId} (hni : isEpNi s n.toNat = true) (hen : portEn s n.toNat = true) :
    exec (.epRstInEpChange n false) s =
      answer s (updPort s n.toNat fun p => portStep { p with inEp := false, inEpSeen := p.inEpSeen || false }) :=
  congrArg (answer s) ((if_neg (by simp [hni, hen])).trans (if_neg (by simp)))

/-! ep_up and RST_STALL. -/

/-- The NI as ep_up rises (03 R58 steps 3 and 4). -/
def niUp (j : Ni) : Ni :=
  let i := if j.inRst then pulseFences j fun _ => true else j
  { i with
    inRst := false
    port := { i.port with
      up := true, resetting := false, tbValid := false, fnReady := true
      erqHG := 0, erqHB := 0, erqDG := 0, erqDB := 0, ersHG := 0, ersHB := 0, ersDG := 0, ersDB := 0 } }

theorem exec_epUpRaise {s : State} {n : NiId} (h : epUpReady s n.toNat = true) :
    exec (.epUpRaise n) s = answer s (updNi s n.toNat niUp) := congrArg (answer s) (if_pos h)

/-- Every fence of an NI completes at once, in their order. -/
theorem pulseFences_all (i : Ni) : pulseFences i (fun _ => true) =
    { i with
      fences := []
      port := if (i.fences.filterMap (·.strobe)).isEmpty then i.port else { i.port with fnDone := i.fences.filterMap (·.strobe) } } := by
  simp [pulseFences]

theorem niUp_fences (i : Ni) : (niUp i).fences = if i.inRst then [] else i.fences := by
  unfold niUp
  cases i.inRst <;> simp [pulseFences_all]

theorem niUp_port (i : Ni) : (niUp i).port = { i.port with
    fnDone := if i.inRst && !(i.fences.filterMap (·.strobe)).isEmpty then i.fences.filterMap (·.strobe) else i.port.fnDone
    up := true, resetting := false, tbValid := false, fnReady := true
    erqHG := 0, erqHB := 0, erqDG := 0, erqDB := 0, ersHG := 0, ersHB := 0, ersDG := 0, ersDB := 0 } := by
  unfold niUp
  cases hrst : i.inRst <;> cases hids : (i.fences.filterMap (·.strobe)).isEmpty <;> simp [pulseFences_all, hids]

theorem exec_rstStall {s : State} {n : NiId} {p : Port} (hni : isEpNi s n.toNat = true) (hp : p = (getNi s n.toNat).port)
    (hreset : p.resetting = true) (hseen : p.inEpSeen = false) (hlate : p.reqNs + 1000000 ≤ nowNs s) :
    exec (.rstStall n) s = answer s (setFlag s (aNi n.toNat 8) 6) :=
  congrArg (answer s) (if_pos (by simp [← hp, hni, hreset, hseen, hlate]))

/-- Settles O10: each step of the handshake is one change of the port, which `portStep` makes once both in-reset signals are seen. -/
theorem resetHandshakeRunsInOrder : Obligations.ResetHandshakeRunsInOrder := by
  unfold Obligations.ResetHandshakeRunsInOrder
  rintro s n p hni hen rfl
  refine ⟨completes_epResetRequest hni hen,
    fun hreset hin hrq hrs hreq hstay => completes_updPort (exec_niRstInRaise hni rfl hreset hin hrq hrs hreq) (portStep_raise hstay),
    fun hep hin _ hreq => completes_updPort (exec_epRstReqEpFall hni hen) (portStep_lastFall hep hin hreq),
    fun _ _ => completes_updPort (exec_epRstInEpChange_fall hni hen) (portStep_inEpFall _),
    fun hup hep hin hreqEp hreqNi hregion hwarm hcold => ?_,
    fun hreset hseen hlate => completes_setFlag (exec_rstStall hni rfl hreset hseen hlate)⟩
  have hready : epUpReady s n.toNat = true := by
    simp [epUpReady, portEn, hni, hen, hup, hep, hin, hreqEp, hreqNi, hregion, hwarm, hcold]
  refine completes_of_niOnly (exec_epUpRaise hready) (.updNi ..) ?_
  rw [getNi_updNi_same]
  exact ⟨rfl, niUp_fences _, niUp_port _, .updNi ..⟩

end Sys2Proof.Machine
end

section
/-! SUPPORT. Fence strobes (03 R55; 08 R182). -/

namespace Sys2Proof.Machine

/-! A strobe is taken. -/

theorem exec_fenceStrobe_taken {s : State} {n : NiId} {rw pv : Bool} {pasid : BitVec 20} {id : BitVec 4} {k : Nat}
    (hopen : portOpen s n.toNat = true) (hbusy : ((getNi s n.toNat).fences.filter fun f => f.strobe.isSome).length < 16)
    (hslice : sliceOf? s n.toNat pv pasid.toNat = some k) (hrst : slcRst s n.toNat k = false) :
    exec (.fenceStrobe n rw pv pasid id) s = answer s (updNi s n.toNat fun i =>
      { i with fences := i.fences ++ [⟨BitVec.ofNat 4 k, rw, i.nextId, some id, none⟩], port := { i.port with fnReady := true } }) := by
  change execFenceStrobe n rw pv pasid id s = _
  have hfree : ¬(portOpen s n.toNat = false ∨ 16 ≤ ((getNi s n.toNat).fences.filter fun f => f.strobe.isSome).length ∨
      slcRst s n.toNat k = true) := by simp [hopen, hrst, hbusy]
  simp only [execFenceStrobe, hslice, if_neg hfree]

theorem exec_fenceStrobe_noSlice {s : State} {n : NiId} {rw pv : Bool} {pasid : BitVec 20} {id : BitVec 4}
    (hopen : portOpen s n.toNat = true) (hbusy : ((getNi s n.toNat).fences.filter fun f => f.strobe.isSome).length < 16)
    (hslice : sliceOf? s n.toNat pv pasid.toNat = none) :
    exec (.fenceStrobe n rw pv pasid id) s = answer s (updPort s n.toNat fun p => { p with fnReady := true, fnDone := [id] }) := by
  change execFenceStrobe n rw pv pasid id s = _
  simp only [execFenceStrobe, hslice, if_pos (And.intro hopen hbusy)]

/-! A fence is satisfied. -/

/-- A fence is clear when no earlier request of its slice that takes part in the order is one it waits for: any for FENCE_RW, a posted
write for FENCE_W (08 R182). -/
theorem fenceClear_of_none {i : Ni} {f : Fence}
    (h : ∀ r ∈ i.reqs, r.slice = f.slice → r.id < f.after → r.kind ≠ .other → f.rw = false ∧ r.posted = false) :
    fenceClear i f = true := by
  rw [fenceClear, Bool.not_eq_true', List.any_eq_false]
  intro r hr hholds
  simp only [Bool.and_eq_true, beq_iff_eq, decide_eq_true_eq, bne_iff_ne, Bool.or_eq_true] at hholds
  obtain ⟨⟨⟨hslice, hafter⟩, hkind⟩, hwaits⟩ := hholds
  have hclear := h r hr hslice hafter hkind
  simp [hclear] at hwaits

theorem exec_fenceSatisfied_strobe {s : State} {n : NiId} {sl id : BitVec 4} {f : Fence}
    (hfirst : (getNi s n.toNat).fences.find? (fun g => g.slice == sl) = some f) (hstrobe : f.strobe = some id)
    (hclear : fenceClear (getNi s n.toNat) f = true) (hrst : slcRst s n.toNat sl.toNat = false) :
    exec (.fenceSatisfied n sl) s = answer s (updPort
      (updNi s n.toNat fun i => { i with fences := (takeFirst i.fences fun g => g.slice == sl).2 }) n.toNat
      fun p => { p with fnDone := [id] }) := by
  change execFenceSatisfied n sl s = _
  have hdone : ¬(fenceClear (getNi s n.toNat) f = false ∨ slcRst s n.toNat sl.toNat = true) := by simp [hclear, hrst]
  simp only [execFenceSatisfied, hfirst, if_neg hdone, hstrobe]

/-- Settles O9: the requests taken so far are those below the NI's next id, and an oldest fence that nothing holds is clear. -/
theorem fenceStrobeOrdersAndCompletes : Obligations.FenceStrobeOrdersAndCompletes := by
  unfold Obligations.FenceStrobeOrdersAndCompletes
  refine fun s n rw pv pasid id sl => ⟨fun hopen hbusy hslice hrst => ?_, fun hopen hbusy hslice => ?_,
    fun f hfirst hstrobe hrst hnone => ?_⟩
  · refine completes_of_niOnly (exec_fenceStrobe_taken hopen hbusy hslice hrst) (.updNi ..) ⟨?_, .updNi ..⟩
    rw [getNi_updNi_same, BitVec.ofNat_toNat, BitVec.setWidth_eq]
  · refine completes_of_niOnly (exec_fenceStrobe_noSlice hopen hbusy hslice) (.updNi ..) ⟨?_, .updNi ..⟩
    rw [getNi_updPort_same]
  · have hsl : f.slice = sl := by simpa using List.find?_some hfirst
    have hclear : fenceClear (getNi s n.toNat) f = true := fenceClear_of_none fun r hr hslice => hnone r hr (hslice.trans hsl)
    have honly := (NiOnly.updNi s n.toNat fun i => { i with fences := (takeFirst i.fences fun g => g.slice == sl).2 }).trans
      (.updNi _ _ fun i => { i with port := { i.port with fnDone := [id] } })
    refine completes_of_niOnly (exec_fenceSatisfied_strobe hfirst hstrobe hclear hrst) honly ⟨?_, ?_, ?_, honly⟩
    all_goals rw [getNi_updPort_same, getNi_updNi_same]

end Sys2Proof.Machine
end

section
/-! SUPPORT. Egress credits, and the beginning of an egress message (03 R51 to R53). -/

namespace Sys2Proof.Machine

/-! Credits come back. -/

theorem exec_egressCreditReturn_rsp {s : State} {n : NiId} {hg hb dg db : BitVec 2} {p : Port} (hni : isEpNi s n.toNat = true)
    (hp : p = (getNi s n.toNat).port) (hup : p.up = true) : exec (.egressCreditReturn n true hg hb dg db) s = answer s (
      if 255 < p.ersHG + hg.toNat ∨ 255 < p.ersHB + hb.toNat ∨ 255 < p.ersDG + dg.toNat ∨ 255 < p.ersDB + db.toNat then
        setFlag (updPort s n.toNat fun p => { p with
          ersHG := addCredit p.ersHG hg, ersHB := addCredit p.ersHB hb
          ersDG := addCredit p.ersDG dg, ersDB := addCredit p.ersDB db }) (aNi n.toNat 8) 5
      else updPort s n.toNat fun p => { p with
        ersHG := addCredit p.ersHG hg, ersHB := addCredit p.ersHB hb, ersDG := addCredit p.ersDG dg, ersDB := addCredit p.ersDB db }) := by
  subst hp
  exact congrArg (answer s) (if_neg (by simp [hni, hup]))

theorem exec_egressCreditReturn_req {s : State} {n : NiId} {hg hb dg db : BitVec 2} {p : Port} (hni : isEpNi s n.toNat = true)
    (hp : p = (getNi s n.toNat).port) (hup : p.up = true) : exec (.egressCreditReturn n false hg hb dg db) s = answer s (
      if 255 < p.erqHG + hg.toNat ∨ 255 < p.erqHB + hb.toNat ∨ 255 < p.erqDG + dg.toNat ∨ 255 < p.erqDB + db.toNat then
        setFlag (updPort s n.toNat fun p => { p with
          erqHG := addCredit p.erqHG hg, erqHB := addCredit p.erqHB hb
          erqDG := addCredit p.erqDG dg, erqDB := addCredit p.erqDB db }) (aNi n.toNat 8) 5
      else updPort s n.toNat fun p => { p with
        erqHG := addCredit p.erqHG hg, erqHB := addCredit p.erqHB hb, erqDG := addCredit p.erqDG dg, erqDB := addCredit p.erqDB db }) := by
  subst hp
  exact congrArg (answer s) (if_neg (by simp [hni, hup]))

/-- A command that changes one port and, on a condition, sets a flag of a word. -/
theorem completes_updPort_flag {c : Instr} {s : State} {n a i : Nat} {f : Port → Port} {ovf : Prop} [Decidable ovf]
    (hexec : exec c s = answer s (if ovf then setFlag (updPort s n f) a i else updPort s n f)) :
    Completes c s fun t => getNi t n = { getNi s n with port := f (getNi s n).port } ∧
      rd t a = (if ovf then rd s a ||| BitVec.ofNat 64 (1 <<< i) else rd s a) ∧ WordsBut [a] s t ∧
      t = { s with regs := t.regs, nis := t.nis } ∧ ∀ m, m ≠ n → getNi t m = getNi s m := by
  have hother : ∀ m, m ≠ n → getNi (updPort s n f) m = getNi s m := fun m hm => by rw [getNi_updPort, if_neg hm]
  by_cases h : ovf
  · rw [if_pos h] at hexec ⊢
    exact completes_of_answer hexec rfl rfl rfl
      ⟨getNi_updPort_same s n f, rd_wr_same .., .setFlag _ i (List.mem_singleton_self a), rfl, hother⟩
  · rw [if_neg h] at hexec ⊢
    exact completes_of_answer hexec rfl rfl rfl ⟨getNi_updPort_same s n f, rfl, fun _ _ => rfl, rfl, hother⟩

/-! A message begins. -/

/-- The port of NI n. -/
def portOf (n : Nat) (s : State) : Port := (getNi s n).port

/-- A change of an NI that keeps the NI's port. -/
theorem updNi_keepsPort (s : State) (n : Nat) {f : Ni → Ni} (hf : ∀ i, (f i).port = i.port) : Keeps (portOf n) s (updNi s n f) := by
  unfold Keeps portOf
  rw [getNi_updNi_same, hf]

theorem freeTrk_keepsPort (s : State) (n : Nat) (t : Tag) : Keeps (portOf n) s (freeTrk s n t) := updNi_keepsPort _ _ fun _ => rfl

/-- What follows the presentation changes the NI but never its port (08 R173, R180; 10 R223), and may set EGR_LATE (06 R134). -/
theorem egrAfter_frame (s : State) (n : Nat) (e : Egr) :
    NiNote n [aNi n 0x80] s (egrAfter s n e) ∧ Keeps (portOf n) s (egrAfter s n e) := by
  unfold egrAfter
  extract_lets s1 s2 s3
  have hfrees : NiNote n [aNi n 0x80] s s1 ∧ Keeps (portOf n) s s1 := by
    unfold s1
    split
    · split
      · exact ⟨(NiNote.updNi ..).trans (.updNi ..), (freeTrk_keepsPort ..).trans (updNi_keepsPort _ _ fun _ => rfl)⟩
      · exact ⟨.refl .., .refl ..⟩
    · exact ⟨.refl .., .refl ..⟩
  have hacked : NiNote n [aNi n 0x80] s1 s2 ∧ Keeps (portOf n) s1 s2 :=
    ⟨.ite (.updNi ..) (.refl ..), .ite (updNi_keepsPort _ _ fun _ => rfl) (.refl ..)⟩
  have hmember : NiNote n [aNi n 0x80] s2 s3 ∧ Keeps (portOf n) s2 s3 :=
    ⟨.ite (.updNi ..) (.refl ..), .ite (updNi_keepsPort _ _ fun _ => rfl) (.refl ..)⟩
  have hbefore := And.intro (hfrees.1.trans (hacked.1.trans hmember.1)) (hfrees.2.trans (hacked.2.trans hmember.2))
  split
  · exact ⟨hbefore.1.trans (.ite (.setFlag _ 0 (by simp)) (.refl ..)), hbefore.2.trans (.ite rfl (.refl ..))⟩
  · exact hbefore

theorem ptmStamp_piste (s : State) (e : Egr) : (ptmStamp s e).piste = e.piste := by unfold ptmStamp; split <;> rfl

/-- A G message that its pool's credits carry begins (03 R53). -/
theorem egrNext_of_G {p : Port} {e : Egr} (hhead : p.ersG.head? = some e) (hready : egrReady p true e = true) :
    egrNext p true = some e := by
  unfold egrNext
  cases hB : p.ersB.head? <;> simp [hhead, hready]

/-- With no G message waiting the B message begins. -/
theorem egrNext_of_B {p : Port} {e : Egr} (hnone : p.ersG = []) (hhead : p.ersB.head? = some e) (hready : egrReady p true e = true) :
    egrNext p true = some e := by simp [egrNext, hnone, hhead, hready]

/-- An egress RSP channel presents its next message, when no G message waits for credits (03 R52, R53). -/
theorem exec_egressMessageStart_rsp {s : State} {n : NiId} {e : Egr} {p : Port} (hni : isEpNi s n.toNat = true)
    (hp : p = (getNi s n.toNat).port) (hup : p.up = true) (hnext : egrNext p true = some e)
    (hG : ∀ g, p.ersG.head? = some g → egrReady p true g = true) :
    exec (.egressMessageStart n true) s =
      answer s (egrAfter (evNi (updPort s n.toNat fun p => egrTake p true (ptmStamp s e)) n.toNat 5 1) n.toNat e) := by
  subst hp
  change execEgressMessageStart n true s = _
  cases hhead : (getNi s n.toNat).port.ersG.head? with
  | none => simp [execEgressMessageStart, hni, hup, hnext, hhead]
  | some g => simp [execEgressMessageStart, hni, hup, hnext, hhead, hG g hhead]

/-- The message is presented and the port is as `egrTake` leaves it, but for its notification queue. -/
theorem completes_egressMessageStart_rsp {s : State} {n : NiId} {e : Egr} {p : Port} (hni : isEpNi s n.toNat = true)
    (hp : p = (getNi s n.toNat).port) (hup : p.up = true) (hnext : egrNext p true = some e)
    (hG : ∀ g, p.ersG.head? = some g → egrReady p true g = true) :
    Completes (.egressMessageStart n true) s fun t =>
      (∃ q, (getNi t n.toNat).port = { egrTake p true (ptmStamp s e) with ntfQ := q }) ∧ NiNote n.toNat [aNi n.toNat 0x80] s t := by
  have hcount := evNi_noteOnly (updPort s n.toNat fun p => egrTake p true (ptmStamp s e)) n.toNat 5 1 (isEpNi_lt hni) (by decide)
  have ⟨hafter, hport⟩ := egrAfter_frame (evNi (updPort s n.toNat fun p => egrTake p true (ptmStamp s e)) n.toNat 5 1) n.toNat e
  have hnote := (NiNote.updPort n.toNat [aNi n.toNat 0x80] s fun p => egrTake p true (ptmStamp s e)).trans ((hcount.niNote ..).trans hafter)
  obtain ⟨q, hq⟩ := (hcount.2.2 n.toNat).exists_ntfQ
  refine completes_of_niNote (exec_egressMessageStart_rsp hni hp hup hnext hG) hnote ⟨⟨q, ?_⟩, hnote⟩
  refine Eq.trans hport ?_
  rw [portOf, hq, getNi_updPort_same, hp]

/-- Settles O8: returned credits are added counter by counter; the message that begins leaves its queue with its credits. -/
theorem creditsReturnAndEgressBegins : Obligations.CreditsReturnAndEgressBegins := by
  unfold Obligations.CreditsReturnAndEgressBegins
  refine ⟨fun s n hg hb dg db hni hup => ⟨?_, ?_⟩,
    fun s n e p hni hp hup => ⟨fun hhead hpiste hH hD => ?_, fun hnone hhead hpiste hH hD => ?_⟩⟩
  · rintro p rfl
    exact completes_updPort_flag (exec_egressCreditReturn_req hni rfl hup)
  · rintro p rfl
    exact completes_updPort_flag (exec_egressCreditReturn_rsp hni rfl hup)
  · have hready : egrReady p true e = true := by simp [egrReady, hpiste, hH, hD]
    have hstart := completes_egressMessageStart_rsp hni hp hup (egrNext_of_G hhead hready) fun g hg => by
      rw [hhead] at hg
      exact Option.some.inj hg ▸ hready
    obtain ⟨t, hexec, ⟨q, hport⟩, hnote⟩ := hstart
    refine ⟨t, hexec, ?_⟩
    simp [hport, egrTake, ptmStamp_piste, hpiste, hnote]
  · have hready : egrReady p true e = true := by simp [egrReady, hpiste, hH, hD]
    have hstart := completes_egressMessageStart_rsp hni hp hup (egrNext_of_B hnone hhead hready) fun g hg => by
      simp [hnone] at hg
    obtain ⟨t, hexec, ⟨q, hport⟩, hnote⟩ := hstart
    refine ⟨t, hexec, ?_⟩
    simp [hport, egrTake, ptmStamp_piste, hpiste, hnote]

end Sys2Proof.Machine
end

section
/-! SUPPORT. Data beats, and ingress responses (03 R43, R48, R50). -/

namespace Sys2Proof.Machine

/-! A beat of a request. -/

/-- Changing the first element that is looked for, by what keeps it looked for, is changing what is found. -/
theorem find?_updFirst {α : Type} {l : List α} {p : α → Bool} {f : α → α} (hp : ∀ a, p (f a) = p a) :
    (updFirst l p f).find? p = (l.find? p).map f := by
  induction l with
  | nil => rfl
  | cons a r ih =>
    cases ha : p a with
    | true => simp [updFirst, ha, hp]
    | false => simp [updFirst, ha, ih]

theorem reqById_updReq {i : Ni} {id : Nat} {f : Req → Req} (hf : ∀ r, (f r).id = r.id) :
    reqById (updReq i id f) id = (reqById i id).map f := find?_updFirst fun r => by rw [hf]

theorem exec_ingressDataBeat_rq {s : State} {n : NiId} {data : Line} {be : BitVec 64} {last gap : Bool} (hni : isEpNi s n.toNat = true)
    (hen : bitOf (rd s (aNi n.toNat 0)) 0 = true) :
    exec (.ingressDataBeat n false data be last gap) s = answer s (rqBeat s n.toNat data be gap) :=
  congrArg (answer s) (if_pos (by simp [hni, hen]))

theorem exec_ingressDataBeat_rs {s : State} {n : NiId} {data : Line} {be : BitVec 64} {last gap : Bool} (hni : isEpNi s n.toNat = true)
    (hen : bitOf (rd s (aNi n.toNat 0)) 0 = true) :
    exec (.ingressDataBeat n true data be last gap) s = answer s (rsBeat s n.toNat data gap) :=
  congrArg (answer s) (if_pos (by simp [hni, hen]))

/-- A beat with the right enables joins its best-effort request (03 R43). -/
theorem rqBeat_joins {s : State} {n : Nat} {data : Line} {be : BitVec 64} {x : Rx} {rest : List Rx} {id : Nat}
    (hrx : (getNi s n).port.rqRx = x :: rest) (hdest : x.dest = .req id) (hbest : x.piste = false)
    (hbe : be = beatEnables x.start x.nbytes x.idx) : rqBeat s n data be false =
      updNi (updPort s n fun p => { p with rqRx := if x.left ≤ 1 then rest else { x with left := x.left - 1, idx := x.idx + 1 } :: rest }) n
        fun i => { updReq i id (fun r => { r with msg := { r.msg with data := r.msg.data ++ [maskLine data be] }, beats := r.beats - 1 })
          with pst := stageLine i.pst id (frameOf s) (maskLine data be) false } := by
  simp [rqBeat, hrx, hdest, hbest, hbe]

/-- A beat joins its response (03 R48). -/
theorem rsBeat_joins {s : State} {n : Nat} {data : Line} {x : Rx} {rest : List Rx} {id : Nat}
    (hrx : (getNi s n).port.rsRx = x :: rest) (hdest : x.dest = .rsp id) : rsBeat s n data false =
      updNi (updPort s n fun p => { p with rsRx := if x.left ≤ 1 then rest else { x with left := x.left - 1, idx := x.idx + 1 } :: rest }) n
        fun i => rspLine i id (frameOf s) data false := by
  simp [rsBeat, hrx, hdest]

/-! Queues. -/

@[simp] theorem getQ_updQ_same (i : Ni) (q : Nat) (f : Queue → Queue) : getQ (updQ i q f) q = f (getQ i q) := by
  simp [getQ, updQ, mupd]

@[simp] theorem updQ_port (i : Ni) (q : Nat) (f : Queue → Queue) : (updQ i q f).port = i.port := rfl

theorem rspLine_rsp (i : Ni) (id f : Nat) (d : Line) (gap : Bool) : (getQ (rspLine i id f d gap) 0).rsp =
    updFirst (getQ i 0).rsp (fun e => e.id == id && e.beats != 0)
      fun e => { e with msg := { e.msg with data := e.msg.data ++ [d] }, beats := e.beats - 1 } :=
  congrArg Queue.rsp (getQ_updQ_same i 0 _)

theorem rspLine_port (i : Ni) (id f : Nat) (d : Line) (gap : Bool) : (rspLine i id f d gap).port = i.port := rfl

/-! A best-effort response. -/

theorem getNi_expectRsp (s : State) (n : Nat) (d : RxDest) (count : Nat) (piste : Bool) : getNi (expectRsp s n d count piste) n =
    { getNi s n with port := { (getNi s n).port with
      rsRx := (getNi s n).port.rsRx ++ if count = 0 then [] else [⟨d, count, 0, piste, 0, 0⟩] } } := by
  unfold expectRsp
  split <;> simp

theorem expectRsp_niOnly (s : State) (n : Nat) (d : RxDest) (count : Nat) (piste : Bool) : NiOnly n s (expectRsp s n d count piste) := by
  unfold expectRsp
  split
  · exact ⟨rfl, fun _ _ => rfl⟩
  · exact .updNi ..

theorem pushRsp_niOnly (s : State) (n : Nat) (m : Msg) (beats : Nat) : NiOnly n s (pushRsp s n m beats) := by
  unfold pushRsp pushRspOn
  exact .updNi ..

theorem rsTaken_niNote (s : State) {n : Nat} (l : List Nat) (hn : n < 128) : NiNote n l s (rsTaken s n) :=
  (NiNote.updPort ..).trans ((evNi_noteOnly _ n 3 1 hn (by decide)).niNote ..)

theorem getNi_rsTaken (s : State) {n : Nat} (hn : n < 128) :
    ∃ q, getNi (rsTaken s n) n = { getNi s n with port := { (getNi s n).port with rsAccept := true, ntfQ := q } } := by
  have hcount := evNi_noteOnly (updPort s n fun p => { p with rsAccept := true }) n 3 1 hn (by decide)
  obtain ⟨q, hq⟩ := (hcount.2.2 n).exists_ntfQ
  refine ⟨q, ?_⟩
  rw [rsTaken, hq, getNi_updPort_same]

/-- With a place in the RSP half of queue 0, and no mirrored write to acknowledge, a response joins that half (03 R50). -/
theorem rspBest_joins {s : State} {n beats : Nat} {m : Msg} (hroom : rspHalfFull (getNi s n) = false) (hmirrors : (getNi s n).mirrors = []) :
    rspBest s n m beats = expectRsp (pushRsp (rsTaken s n) n m beats) n (.rsp (getNi s n).nextId) beats false := by
  simp [rspBest, hroom, hmirrors]

theorem rspBest_spec {s t : State} {n beats : Nat} {m : Msg} (hn : n < 128) (hroom : rspHalfFull (getNi s n) = false)
    (hmirrors : (getNi s n).mirrors = []) (ht : t = rspBest s n m beats) :
    (getNi t n).port.rsAccept = true ∧
      (getQ (getNi t n) 0).rsp = (getQ (getNi s n) 0).rsp ++ [⟨(getNi s n).nextId, m, beats, none⟩] ∧
      (getNi t n).port.rsRx = (getNi s n).port.rsRx ++ (if beats = 0 then [] else [⟨.rsp (getNi s n).nextId, beats, 0, false, 0, 0⟩]) ∧
      NiNote n [] s t := by
  rw [rspBest_joins hroom hmirrors] at ht
  obtain ⟨q, hq⟩ := getNi_rsTaken s hn
  have hni : getNi (pushRsp (rsTaken s n) n m beats) n = updQ { getNi (rsTaken s n) n with nextId := (getNi (rsTaken s n) n).nextId + 1 } 0
      fun q => { q with rsp := q.rsp ++ [⟨(getNi (rsTaken s n) n).nextId, m, beats, none⟩] } := getNi_updNi_same ..
  have hqueue : ∀ (i : Ni) (p : Port), getQ { i with port := p } 0 = getQ i 0 := fun _ _ => rfl
  subst ht
  refine ⟨?_, ?_, ?_, (rsTaken_niNote s [] hn).trans (((pushRsp_niOnly ..).trans (expectRsp_niOnly ..)).niNote [])⟩
  · simp [getNi_expectRsp, hni, hq]
  · rw [getNi_expectRsp, hqueue, hni, getQ_updQ_same, hq]
    rfl
  · simp [getNi_expectRsp, hni, hq]

/-- A response of an allowed opcode that is no BIRSP and no CD2H_DATA, on a port in service: it takes its route, and an illegal STAT sets
MALFORMED_SEEN once it is taken (03 R50). -/
theorem exec_ingressResponse_route {s t : State} {n : NiId} {raw : BitVec 128} {h : IngRsp} {stat : Nat} (hh : h = ingRsp raw)
    (hni : isEpNi s n.toNat = true) (hen : bitOf (rd s (aNi n.toNat 0)) 0 = true) (hup : (getNi s n.toNat).port.up = true)
    (hrst : (getNi s n.toNat).inRst = false) (hregion : (getNi s n.toNat).region = 0) (hop : ingressRspOp h.opc = true)
    (hbi : isBirsp h.opc = false) (hd2h : h.opc ≠ 0x69) (hcls : h.cls = false)
    (hstat : stat = if h.stat = 0 ∨ h.stat = 4 ∨ h.stat = 5 then h.stat else 4)
    (ht : t = rspBest s n.toNat (rspMsg s n.toNat h stat false) (rspBeats h)) (htaken : (getNi t n.toNat).port.rsAccept = true) :
    exec (.ingressResponse n raw) s =
      answer s (if h.stat = 0 ∨ h.stat = 4 ∨ h.stat = 5 then t else setFlag t (aNi n.toNat 8) 3) := by
  have hlegal : rspIllegal h = false := by simp [rspIllegal, hop, hcls]
  have hok : (h.stat == 0 || h.stat == 4 || h.stat == 5) = decide (h.stat = 0 ∨ h.stat = 4 ∨ h.stat = 5) := by
    simp [Bool.or_assoc, Bool.decide_or, beq_eq_decide]
  have hroute : t = rspRoute s n.toNat h stat := by simp [ht, rspRoute, hcls]
  change execIngressResponse n raw s = _
  unfold execIngressResponse
  simp only [← hh, hni, hen, hup, hrst, hregion, hlegal, hbi, if_neg hd2h, hok, decide_eq_true_eq, ← hstat, ← hroute]
  simp [htaken]

/-- Settles O7: a beat changes the first entry that waits for it; a response with a place in queue 0 joins its RSP half. -/
theorem beatsJoinAndResponsesAreForwarded : Obligations.BeatsJoinAndResponsesAreForwarded := by
  unfold Obligations.BeatsJoinAndResponsesAreForwarded
  refine ⟨fun s n data be last x rest id hni hen => ⟨fun hrx hdest hbest hbe => ?_, fun hrx hdest => ?_⟩,
    fun s n raw h stat hh hni hen hup hrst hregion hop hbi hd2h hcls hroom hmirrors hstat => ?_⟩
  · have hexec := (exec_ingressDataBeat_rq (last := last) hni hen).trans
      (congrArg (answer s) (rqBeat_joins (data := data) hrx hdest hbest hbe))
    refine completes_of_niOnly hexec ((NiOnly.updNi ..).trans (.updNi ..)) ⟨?_, ?_, (NiOnly.updNi ..).trans (.updNi ..)⟩
    · rw [getNi_updNi_same, getNi_updPort_same]
      exact reqById_updReq fun _ => rfl
    · rw [getNi_updNi_same, getNi_updPort_same]
      rfl
  · have hexec := (exec_ingressDataBeat_rs (be := be) (last := last) hni hen).trans
      (congrArg (answer s) (rsBeat_joins (data := data) hrx hdest))
    refine completes_of_niOnly hexec ((NiOnly.updNi ..).trans (.updNi ..)) ⟨?_, ?_, (NiOnly.updNi ..).trans (.updNi ..)⟩
    · rw [getNi_updNi_same, rspLine_rsp, getNi_updPort_same]
      rfl
    · rw [getNi_updNi_same, rspLine_port, getNi_updPort_same]
  · have hn := isEpNi_lt hni
    obtain ⟨htaken, hqueue, hbeats, hnote⟩ :=
      rspBest_spec (t := rspBest s n.toNat (rspMsg s n.toNat h stat false) (rspBeats h)) hn hroom hmirrors rfl
    have hexec := exec_ingressResponse_route hh hni hen hup hrst hregion hop hbi hd2h hcls hstat rfl htaken
    have hword := hnote.2.1 (aNi n.toNat 8) (by simp) (noteWord_aNi hn (by decide) (by decide))
    have hsame := hnote.mono (k := [aNi n.toNat 8]) (by simp)
    by_cases hok : h.stat = 0 ∨ h.stat = 4 ∨ h.stat = 5
    · rw [if_pos hok] at hexec
      simp only [if_pos hok]
      exact completes_of_niNote hexec hnote ⟨htaken, hqueue, hbeats, hword, hsame⟩
    · rw [if_neg hok] at hexec
      have hflag := hsame.trans (.setFlag (a := aNi n.toNat 8) _ 3 (by simp))
      simp only [if_neg hok]
      refine completes_of_niNote hexec hflag ?_
      rw [getNi_setFlag, rd_setFlag, if_pos rfl, hword]
      exact ⟨htaken, hqueue, hbeats, rfl, hflag⟩

end Sys2Proof.Machine
end

section
/-! SUPPORT. An ingress header that takes an error (03 R46, R47; 08 R187; 09 R198). -/

namespace Sys2Proof.Machine

/-! A header is judged. -/

theorem mem_map_aNi {n off : Nat} {l : List Nat} : aNi n off ∈ l.map (aNi n) ↔ off ∈ l := by simp [aNi_inj]

/-- An NI's word that is not listed reads the same. -/
theorem NiNote.rd_aNi {n off : Nat} {l : List Nat} {s t : State} (h : NiNote n (l.map (aNi n)) s t) (hn : n < 128) (hmem : off ∉ l)
    (ho : off < 0x2000) (hlost : off ≠ 0x20) : rd t (aNi n off) = rd s (aNi n off) :=
  h.2.1 _ (fun hm => hmem (mem_map_aNi.1 hm)) (noteWord_aNi hn ho hlost)

theorem on_of_portOpen {s : State} {n : Nat} (h : portOpen s n = true) : isEpNi s n = true ∧ bitOf (rd s (aNi n 0)) 0 = true := by
  simp only [portOpen, Bool.and_eq_true] at h
  exact h.1.1.1.1.1

theorem exec_ingressRequest {s : State} {n : NiId} (raw : BitVec 128) (hni : isEpNi s n.toNat = true)
    (hen : bitOf (rd s (aNi n.toNat 0)) 0 = true) : exec (.ingressRequest n raw) s = answer s (judgeHeader s n.toNat raw) :=
  congrArg (answer s) (if_pos (by simp [hni, hen]))

/-- The port's outputs for a header stand once its events are counted. -/
theorem getNi_of_portAnswer {s t : State} {n : Nat} {acc err : Bool} {code : Nat} (h : NoteOnly (portAnswer s n acc err code) t) :
    ∃ q, getNi t n = { getNi s n with port := { (getNi s n).port with accept := acc, err := err, errCode := code, ntfQ := q } } := by
  obtain ⟨q, hq⟩ := (h.2.2 n).exists_ntfQ
  refine ⟨q, ?_⟩
  rw [hq, portAnswer, getNi_updPort_same]

theorem niNote_of_portAnswer {s t : State} {n : Nat} {acc err : Bool} {code : Nat} (l : List Nat)
    (h : NoteOnly (portAnswer s n acc err code) t) : NiNote n l s t := (NiNote.updPort ..).trans (h.niNote ..)

/-- Beats that are still to come join those that are expected. -/
theorem getNi_expectBeats (s : State) (n : Nat) (d : RxDest) (count start nbytes : Nat) (piste : Bool) :
    getNi (expectBeats s n d count start nbytes piste) n = { getNi s n with port := { (getNi s n).port with
      rqRx := (getNi s n).port.rqRx ++ if count = 0 then [] else [⟨d, count, 0, piste, start, nbytes⟩] } } := by
  unfold expectBeats
  split <;> simp

theorem expectBeats_niOnly (s : State) (n : Nat) (d : RxDest) (count start nbytes : Nat) (piste : Bool) :
    NiOnly n s (expectBeats s n d count start nbytes piste) := by
  unfold expectBeats
  split
  · exact ⟨rfl, fun _ _ => rfl⟩
  · exact .updNi ..

/-! A posted write ends in error. -/

theorem toNat_satAdd (x : Nat) : (BitVec.ofNat 64 (satAdd 0xFFFFFFFF x 1)).toNat = min 0xFFFFFFFF (x + 1) := by
  rw [BitVec.toNat_ofNat, satAdd]
  exact Nat.mod_eq_of_lt (by omega)

/-- The slice's error log takes the record: the log and its counters change (11 R247). -/
theorem sliceLog_niNote (s : State) (n k : Nat) (el1 el0 : Word) :
    NiNote n [aNi n 0x180, aNi n (0x218 + 0x20 * k)] s (sliceLog s n k el1 el0) := by
  unfold sliceLog
  extract_lets full s1 s2
  have hlog : NiNote n [aNi n 0x180, aNi n (0x218 + 0x20 * k)] s s1 := .updNi ..
  have hfull : NiNote n [aNi n 0x180, aNi n (0x218 + 0x20 * k)] s1 s2 := .ite (.incSat _ 1 (by simp)) (.refl ..)
  exact hlog.trans (hfull.trans (.incSat _ 1 (by simp)))

theorem getNi_sliceLog (s : State) (n k : Nat) (el1 el0 : Word) :
    ∃ c, getNi (sliceLog s n k el1 el0) n = { getNi s n with slices := c } := by
  unfold sliceLog
  extract_lets full s1 s2
  have hfull : getNi s2 n = getNi s1 n := by unfold s2; split <;> rfl
  simp only [getNi_incSat, hfull, s1, getNi_updNi_same]
  exact ⟨_, rfl⟩

/-- The words of an NI that a posted write's error changes (08 R187, 11 R247), by their offsets; k is the slice of the record. -/
def pwErrOffs (k : Nat) : List Nat := [0x180, 0x218 + 0x20 * k, 0x118, 0x100]

/-- A posted write's error changes its slice's log and its words, and is notified; NI_PW_ERR counts it (08 R187). -/
theorem pwError_spec {s t : State} {n : Nat} {slice : Option Nat} {code stat opc tag addr : Nat} (hn : n < 128)
    (ht : t = pwError s n slice code stat opc tag addr) : NiNote n ((pwErrOffs (slice.getD 15)).map (aNi n)) s t ∧
      (∃ c q, getNi t n = { getNi s n with slices := c, port := { (getNi s n).port with ntfQ := q } }) ∧
      rd t (aNi n 0x118) = BitVec.ofNat 64 (satAdd 0xFFFFFFFF (rd s (aNi n 0x118)).toNat 1) := by
  unfold pwError at ht
  extract_lets k el1 el0 s1 s2 s3 s4 at ht
  have hnote : NoteOnly s1 s2 := raiseNi_noteOnly ..
  have hlogged : NiNote n [aNi n 0x180, aNi n (0x218 + 0x20 * k)] s s2 := (sliceLog_niNote s n k el1 el0).trans (hnote.niNote ..)
  have hcount : NiNote n ((pwErrOffs k).map (aNi n)) s2 s3 := .incSat _ 1 (mem_map_aNi.2 (by simp [pwErrOffs]))
  have hflag : NiNote n ((pwErrOffs k).map (aNi n)) s3 s4 := .setFlag _ 0 (mem_map_aNi.2 (by simp [pwErrOffs]))
  have hlate : NiNote n ((pwErrOffs k).map (aNi n)) s4 t := by
    rw [ht]
    exact .ite (.setFlag _ 2 (mem_map_aNi.2 (by simp [pwErrOffs]))) (.refl ..)
  have hwhole : NiNote n ((pwErrOffs k).map (aNi n)) s t :=
    (hlogged.mono (by simp [pwErrOffs])).trans (hcount.trans (hflag.trans hlate))
  refine ⟨hwhole, ?_, ?_⟩
  · obtain ⟨q, hq⟩ := (hnote.2.2 n).exists_ntfQ
    obtain ⟨c, hc⟩ := getNi_sliceLog s n k el1 el0
    have hwords : getNi s4 n = getNi s2 n := (getNi_setFlag ..).trans (getNi_incSat ..)
    have hlast : getNi t n = getNi s4 n := by
      rw [ht]
      split
      · exact getNi_setFlag ..
      · rfl
    exact ⟨c, q, by rw [hlast, hwords, hq, hc]⟩
  · have hkept : rd s2 (aNi n 0x118) = rd s (aNi n 0x118) :=
      hlogged.2.1 _ (by simp [aNi_inj]; omega) (noteWord_aNi hn (by decide) (by decide))
    have hlast : rd t (aNi n 0x118) = rd s3 (aNi n 0x118) := by
      rw [ht]
      split <;> simp [s4, rd_setFlag, aNi_inj]
    rw [hlast, rd_incSat, if_pos rfl, hkept]

/-! A header takes an error. -/

/-- The default target changes its own words and flags (09 R198). -/
theorem defaultTarget_niNote (s : State) (n reason slice addr : Nat) :
    NiNote n ([0x1C10, 0x1C08, 0x1C00, 0xC0].map (aNi n)) s (defaultTarget s n reason slice addr) := by
  unfold defaultTarget
  extract_lets s1 s2
  have hrecord : NiNote n ([0x1C10, 0x1C08, 0x1C00, 0xC0].map (aNi n)) s s1 := .wr _ _ (by simp)
  have hcount : NiNote n ([0x1C10, 0x1C08, 0x1C00, 0xC0].map (aNi n)) s1 s2 := .incSat _ 1 (by simp)
  exact hrecord.trans (hcount.trans (.ite (.setFlag _ 1 (by simp)) (.ite (.setFlag _ 2 (by simp)) (.setFlag _ 0 (by simp)))))

@[simp] theorem getNi_defaultTarget (s : State) (n reason slice addr m : Nat) :
    getNi (defaultTarget s n reason slice addr) m = getNi s m := by
  unfold defaultTarget
  extract_lets s1 s2
  have hwords : getNi s2 m = getNi s m := (getNi_incSat ..).trans (getNi_wr ..)
  have hflag : ∀ off i, getNi (setFlag s2 (aNi n off) i) m = getNi s m := fun _ _ => (getNi_setFlag ..).trans hwords
  split
  · exact hflag ..
  · split <;> exact hflag ..

/-- The header is taken with its code and recorded (03 R46, R47). -/
def errRecorded (s : State) (n : Nat) (raw : BitVec 128) (code : Nat) : State :=
  wr (wr (evNi (evNi (portAnswer s n true true code) n 0 1) n 1 1) (aNi n 0x30) (raw.extractLsb' 0 64)) (aNi n 0x38) (raw.extractLsb' 64 64)

/-- MALFORMED_SEEN is set, and the default target records a decode miss of a slice. -/
def errFlagged (s : State) (n : Nat) (slice : Option Nat) (h : IngHdr) (raw : BitVec 128) (code : Nat) : State :=
  let s3 := if code = 2 then setFlag (errRecorded s n raw code) (aNi n 8) 3 else errRecorded s n raw code
  match code, slice with
  | 1, some k => defaultTarget s3 n ((decodeMiss s n k h).getD 1) k h.addr
  | _, _ => s3

/-- The header is answered, or counted. -/
def errAnswered (s : State) (n : Nat) (slice : Option Nat) (h : IngHdr) (code : Nat) : State :=
  if isPosted h.opc then pwError s n slice 0x104 (statOfErr code) h.opc 0 h.addr
  else pushErs s n { plainErs (rspOpOf h.opc) false h.tag (statOfErr code) 0 (slice.map (BitVec.ofNat 4)) with err := true }

theorem takeError_eq (s : State) (n : Nat) (slice : Option Nat) (h : IngHdr) (raw : BitVec 128) (code : Nat) :
    takeError s n slice h raw code =
      expectBeats (errAnswered (errFlagged s n slice h raw code) n slice h code) n .discard (ingBeats h) (ingStart h) (ingBytes h) h.cls := rfl

/-- The words of an NI that the flags and the default target change, by their offsets. -/
def flagOffs : List Nat := [8, 0x1C10, 0x1C08, 0x1C00, 0xC0]

theorem errRecorded_noted (s : State) {n : Nat} (code : Nat) (hn : n < 128) :
    NoteOnly (portAnswer s n true true code) (evNi (evNi (portAnswer s n true true code) n 0 1) n 1 1) :=
  (evNi_noteOnly _ n 0 1 hn (by decide)).trans (evNi_noteOnly _ n 1 1 hn (by decide))

theorem errRecorded_niNote (s : State) {n : Nat} (raw : BitVec 128) (code : Nat) (hn : n < 128) :
    NiNote n ([0x30, 0x38].map (aNi n)) s (errRecorded s n raw code) :=
  (niNote_of_portAnswer _ (errRecorded_noted s code hn)).trans ((NiNote.wr _ _ (by simp)).trans (.wr _ _ (by simp)))

theorem getNi_errRecorded (s : State) {n : Nat} (raw : BitVec 128) (code : Nat) (hn : n < 128) : ∃ q, getNi (errRecorded s n raw code) n =
    { getNi s n with port := { (getNi s n).port with accept := true, err := true, errCode := code, ntfQ := q } } := by
  simp only [errRecorded, getNi_wr]
  exact getNi_of_portAnswer (errRecorded_noted s code hn)

theorem errFlagged_niNote (s : State) (n : Nat) (slice : Option Nat) (h : IngHdr) (raw : BitVec 128) (code : Nat) :
    NiNote n (flagOffs.map (aNi n)) (errRecorded s n raw code) (errFlagged s n slice h raw code) := by
  unfold errFlagged
  extract_lets s3
  have hflag : NiNote n (flagOffs.map (aNi n)) (errRecorded s n raw code) s3 :=
    .ite (.setFlag _ 3 (mem_map_aNi.2 (by simp [flagOffs]))) (.refl ..)
  split
  · exact hflag.trans ((defaultTarget_niNote ..).mono (List.map_subset _ (by simp [flagOffs])))
  · exact hflag

theorem getNi_errFlagged (s : State) (n : Nat) (slice : Option Nat) (h : IngHdr) (raw : BitVec 128) (code m : Nat) :
    getNi (errFlagged s n slice h raw code) m = getNi (errRecorded s n raw code) m := by
  unfold errFlagged
  extract_lets s3
  have hflag : getNi s3 m = getNi (errRecorded s n raw code) m := by
    simp only [s3, apply_ite (getNi · m), getNi_setFlag, ite_self]
  split
  · rw [getNi_defaultTarget, hflag]
  · exact hflag

/-- The port's outputs and the record stand, and no other word that the answer reads or changes (03 R47). -/
theorem errFlagged_spec {s u : State} {n : Nat} {slice : Option Nat} {h : IngHdr} {raw : BitVec 128} {code : Nat} (hn : n < 128)
    (hu : u = errFlagged s n slice h raw code) : NiNote n (([0x30, 0x38] ++ flagOffs).map (aNi n)) s u ∧
      (∃ q, getNi u n = { getNi s n with port := { (getNi s n).port with accept := true, err := true, errCode := code, ntfQ := q } }) ∧
      rd u (aNi n 0x30) = raw.extractLsb' 0 64 ∧ rd u (aNi n 0x38) = raw.extractLsb' 64 64 := by
  have hrecord := errRecorded_niNote s raw code hn
  have hflag := errFlagged_niNote s n slice h raw code
  subst hu
  refine ⟨(hrecord.mono (List.map_subset _ (List.subset_append_left ..))).trans (hflag.mono (List.map_subset _ (List.subset_append_right ..))),
    ?_, ?_, ?_⟩
  · rw [getNi_errFlagged]
    exact getNi_errRecorded s raw code hn
  · rw [hflag.rd_aNi hn (by decide) (by decide) (by decide), errRecorded, rd_wr_ne _ _ _ _ (by simp [aNi_inj]), rd_wr_same]
  · rw [hflag.rd_aNi hn (by decide) (by decide) (by decide), errRecorded, rd_wr_same]

theorem pushErs_of_B (s : State) (n : Nat) {e : Egr} (h : e.piste = false) :
    pushErs s n e = updPort s n fun p => { p with ersB := p.ersB ++ [e] } := by simp [pushErs, h]

/-- What answering or counting does: the outputs, the requests and the beats stay. -/
theorem errAnswered_spec {s t : State} {n : Nat} {slice : Option Nat} {h : IngHdr} {code : Nat} (hn : n < 128)
    (ht : t = errAnswered s n slice h code) : NiNote n ((pwErrOffs (slice.getD 15)).map (aNi n)) s t ∧
      (∃ c q b, getNi t n = { getNi s n with slices := c, port := { (getNi s n).port with ersB := b, ntfQ := q } }) ∧
      (isPosted h.opc = false → ∃ e : Egr, (getNi t n).port.ersB = (getNi s n).port.ersB ++ [e] ∧ e.data = [] ∧
        e.hdr = egrRspHdr (rspOpOf h.opc) false h.tag 0 (statOfErr code) 0 false) ∧
      (isPosted h.opc = true → (getNi t n).port.ersB = (getNi s n).port.ersB ∧
        (rd t (aNi n 0x118)).toNat = min 0xFFFFFFFF ((rd s (aNi n 0x118)).toNat + 1)) := by
  unfold errAnswered at ht
  cases hposted : isPosted h.opc with
  | true =>
    rw [if_pos hposted] at ht
    obtain ⟨hnote, ⟨c, q, hni⟩, hcount⟩ := pwError_spec hn ht
    refine ⟨hnote, ⟨c, q, (getNi s n).port.ersB, hni⟩, nofun, fun _ => ⟨by rw [hni], ?_⟩⟩
    rw [hcount, toNat_satAdd]
  | false =>
    rw [if_neg (by simp [hposted]), pushErs_of_B _ _ rfl] at ht
    rw [ht, getNi_updPort_same]
    exact ⟨.updPort .., ⟨_, _, _, rfl⟩, fun _ => ⟨_, rfl, rfl, rfl⟩, nofun⟩

/-- A header with an error that finds room for its error completion is taken with it (03 R46). -/
theorem judgeHeader_error {s : State} {n : Nat} {raw : BitVec 128} {h : IngHdr} {sl : Option Nat} {code : Nat} (hh : h = ingHdr raw)
    (hopen : portOpen s n = true) (hsl : sl = sliceOf? s n h.pv h.pasid) (hrst : ∀ k, sl = some k → slcRst s n k = false)
    (hcode : code = errCodeOf s n sl h) (herr : code ≠ 0) (hroom : isPosted h.opc = true ∨ errCount (getNi s n).port < 16) :
    judgeHeader s n raw = takeError s n sl h raw code := by
  have hsteady : ¬(portOpen s n = false ∨ (sl.any fun k => slcRst s n k) = true) := by
    cases sl with
    | none => simp [hopen]
    | some k => simp [hopen, hrst k rfl]
  have hfull : ¬(isPosted h.opc = false ∧ 16 ≤ errCount (getNi s n).port) := by
    rintro ⟨hposted, hcount⟩
    simp [hposted] at hroom
    omega
  unfold judgeHeader
  simp only [← hh, ← hsl, ← hcode, if_neg hsteady, if_pos herr, if_neg hfull]

/-- No word that the answer changes is the record's. -/
theorem not_mem_pwErrOffs {k off : Nat} (h : off < 0x100) : off ∉ pwErrOffs k := by
  simp only [pwErrOffs, List.mem_cons, List.not_mem_nil, or_false]
  omega

/-- Settles O6: the header's outputs and record stand, since its answer or its count changes neither. -/
theorem ingressErrorIsTakenAndAnswered : Obligations.IngressErrorIsTakenAndAnswered := by
  unfold Obligations.IngressErrorIsTakenAndAnswered
  intro s n raw h sl code hh hopen hsl hrst hcode herr hroom
  obtain ⟨hep, hen⟩ := on_of_portOpen hopen
  have hn := isEpNi_lt hep
  have hexec := (exec_ingressRequest raw hep hen).trans
    (congrArg (answer s) ((judgeHeader_error hh hopen hsl hrst hcode herr hroom).trans (takeError_eq ..)))
  generalize hu : errFlagged s n.toNat sl h raw code = u at hexec
  obtain ⟨htaken, ⟨q, hout⟩, hlow, hhigh⟩ := errFlagged_spec hn hu.symm
  generalize hw : errAnswered u n.toNat sl h code = w at hexec
  obtain ⟨hnote, ⟨c, q', b, hni⟩, hanswered, hcounted⟩ := errAnswered_spec hn hw.symm
  have hcount := htaken.rd_aNi (off := 0x118) hn (by decide) (by decide) (by decide)
  have hrecord : ∀ off < 0x100, off ≠ 0x20 → rd w (aNi n.toNat off) = rd u (aNi n.toNat off) := fun off ho hlost =>
    hnote.rd_aNi hn (not_mem_pwErrOffs ho) (by omega) hlost
  have hbeats := (expectBeats_niOnly w n.toNat .discard (ingBeats h) (ingStart h) (ingBytes h) h.cls).niNote
    (([0x30, 0x38] ++ flagOffs ++ pwErrOffs (sl.getD 15)).map (aNi n.toNat))
  have hwhole := (htaken.mono (List.map_subset _ (List.subset_append_left ..))).trans
    ((hnote.mono (List.map_subset _ (List.subset_append_right ..))).trans hbeats)
  have hregs : ∀ a, rd (expectBeats w n.toNat .discard (ingBeats h) (ingStart h) (ingBytes h) h.cls) a = rd w a := by
    rw [(expectBeats_niOnly ..).1]
    exact fun _ => rfl
  refine completes_of_niNote hexec hwhole ?_
  simp only [getNi_expectBeats, hregs, hrecord 0x30 (by decide) (by decide), hrecord 0x38 (by decide) (by decide), hlow, hhigh]
  rw [hout] at hni hanswered hcounted
  rw [hcount] at hcounted
  refine ⟨?_, ?_, ?_, trivial, trivial, ?_, ?_, hanswered, hcounted, ?_, hwhole.2.2⟩
  all_goals rw [hni]

end Sys2Proof.Machine
end

section
/-! SUPPORT. A tracker entry for a request, and the fill that a request starts (07 R167; 09 R199, R200). -/

namespace Sys2Proof.Machine

/-! A free tracker tag. -/

theorem mem_keys_of_mget {α : Type} {m : Map α} {k : Nat} (h : mget m k ≠ none) : k ∈ m.map Prod.fst := by
  induction m with
  | nil => exact absurd rfl h
  | cons p r ih =>
    by_cases hk : p.1 = k
    · simp [hk]
    · rw [mget, if_neg hk] at h
      exact List.mem_cons_of_mem _ (ih h)

/-- A table with fewer keys than numbers below c leaves one of them free. -/
theorem exists_free_key {α : Type} {m : Map α} {c : Nat} (h : m.length < c) : ∃ j < c, mget m j = none := by
  by_contra hfull
  push Not at hfull
  have hsub : List.range c ⊆ m.map Prod.fst := fun j hj => mem_keys_of_mget (hfull j (List.mem_range.1 hj))
  have hlen := (List.subperm_of_subset List.nodup_range hsub).length_le
  rw [List.length_range, List.length_map] at hlen
  omega

/-- While fewer than 1,024 entries are held the search finds a tag, and the tag is free (07 R167). -/
theorem freeTag_spec {i : Ni} (start : Nat) (h : i.trk.length < 1024) : ∃ g, freeTag i start = some g ∧ mget i.trk g.toNat = none := by
  obtain ⟨j, hj, hfree⟩ := exists_free_key h
  have hreach : (start + (j + 1024 - start % 1024) % 1024) % 1024 = j := by omega
  have hsome : (((List.range 1024).map fun j => (start + j) % 1024).find? fun t => (mget i.trk t).isNone).isSome := by
    rw [List.find?_isSome]
    exact ⟨j, List.mem_map.2 ⟨(j + 1024 - start % 1024) % 1024, List.mem_range.2 (Nat.mod_lt _ (by decide)), hreach⟩, by rw [hfree]; rfl⟩
  obtain ⟨t, ht⟩ := Option.isSome_iff_exists.1 hsome
  have hnone : mget i.trk t = none := Option.isNone_iff_eq_none.1 (List.find?_some (p := fun t => (mget i.trk t).isNone) ht)
  have hlt : t < 1024 := by
    obtain ⟨_, _, rfl⟩ := List.mem_map.1 (List.mem_of_find?_eq_some ht)
    exact Nat.mod_lt _ (by decide)
  refine ⟨BitVec.ofNat 10 t, by rw [freeTag, ht]; rfl, ?_⟩
  rwa [BitVec.toNat_ofNat, Nat.mod_eq_of_lt hlt]

theorem allocTrk_of_tag {s : State} {n : Nat} {e : Trk} {g : Tag} (h : freeTag (getNi s n) ((takeFree s).1.toNat % 1024) = some g) :
    allocTrk s n e = (some g, updNi (takeFree s).2 n fun i => { i with trk := mset i.trk g.toNat e }) := by
  unfold allocTrk
  rw [h]

/-- A request that is not posted takes a tracker entry under a tag that was free; a posted one takes none. -/
theorem allocTrk_spec {s : State} {n : Nat} {posted : Bool} {e : Trk} {u : Option Tag × State}
    (hu : u = if posted then (none, s) else allocTrk s n e) (hroom : posted = false → (getNi s n).trk.length < 1024) :
    NiNote n [] s u.2 ∧ (∃ m, getNi u.2 n = { getNi s n with trk := m }) ∧
      (posted = false → ∃ g, u.1 = some g ∧ mget (getNi s n).trk g.toNat = none ∧ mget (getNi u.2 n).trk g.toNat = some e) := by
  cases posted with
  | true =>
    rw [if_pos rfl] at hu
    subst hu
    exact ⟨.refl .., ⟨_, rfl⟩, nofun⟩
  | false =>
    obtain ⟨g, hg, hfree⟩ := freeTag_spec ((takeFree s).1.toNat % 1024) (hroom rfl)
    rw [if_neg Bool.false_ne_true, allocTrk_of_tag hg] at hu
    have hni : getNi (takeFree s).2 n = getNi s n := rfl
    rw [hu]
    dsimp only
    rw [getNi_updNi_same, hni]
    exact ⟨(NiNote.takeFree ..).trans (.updNi ..), ⟨_, rfl⟩, fun _ => ⟨g, rfl, hfree, mget_mset_same (getNi s n).trk g.toNat e⟩⟩

/-! What a taken request leaves at its NI. -/

/-- The requests and their queues, the tracker, and the port's answer. -/
def takenOf (i : Ni) : List Req × Nat × Map Trk × Map Queue × Bool × Bool :=
  (i.reqs, i.nextId, i.trk, i.sched.queues, i.port.accept, i.port.err)

/-- The same of NI n. -/
def takenView (n : Nat) (s : State) : List Req × Nat × Map Trk × Map Queue × Bool × Bool := takenOf (getNi s n)

theorem updNi_keepsTaken (s : State) (n : Nat) {f : Ni → Ni} (hf : ∀ i, takenOf (f i) = takenOf i) : Keeps (takenView n) s (updNi s n f) := by
  unfold Keeps takenView
  rw [getNi_updNi_same, hf]

theorem NoteOnly.keepsTaken {s t : State} (h : NoteOnly s t) (n : Nat) : Keeps (takenView n) s t := by
  obtain ⟨q, hq⟩ := (h.2.2 n).exists_ntfQ
  unfold Keeps takenView
  rw [hq]
  rfl

theorem expectBeats_keepsTaken (s : State) (n : Nat) (d : RxDest) (count start nbytes : Nat) (piste : Bool) :
    Keeps (takenView n) s (expectBeats s n d count start nbytes piste) := by
  unfold Keeps takenView
  rw [getNi_expectBeats]
  rfl

/-! A fill starts. -/

theorem stampMsg_niOnly (s : State) (n : Nat) (m : Msg) : NiOnly n s (stampMsg s n m).2 := by
  unfold stampMsg
  dsimp only
  split
  · exact .updNi ..
  · exact ⟨rfl, fun _ _ => rfl⟩

theorem stampMsg_keepsTaken (s : State) (n : Nat) (m : Msg) : Keeps (takenView n) s (stampMsg s n m).2 := by
  unfold Keeps takenView
  rw [getNi_stampMsg]
  rfl

theorem addProg_niOnly (s : State) (n : Nat) (alt : Bool) (p : Plane) (ch : Nat) (fs : List Flit) : NiOnly n s (addProg s n alt p ch fs) :=
  .updNi ..

theorem addProg_keepsTaken (s : State) (n : Nat) (alt : Bool) (p : Plane) (ch : Nat) (fs : List Flit) :
    Keeps (takenView n) s (addProg s n alt p ch fs) := updNi_keepsTaken s n fun _ => rfl

theorem waitOwn_niOnly (s : State) (n : Nat) (o : OwnMsg) : NiOnly n s (waitOwn s n o) := .updNi ..

theorem waitOwn_keepsTaken (s : State) (n : Nat) (o : OwnMsg) : Keeps (takenView n) s (waitOwn s n o) := updNi_keepsTaken s n fun _ => rfl

/-- A message that an NI sends outside its queues changes neither its requests nor their queues (05 R97). -/
theorem injectOwn_keepsTaken (s : State) (n : Nat) (p : Plane) (m : Msg) (att : Option Bool) :
    NiOnly n s (injectOwn s n p m att) ∧ Keeps (takenView n) s (injectOwn s n p m att) := by
  unfold injectOwn startOwn
  dsimp only
  split
  · exact ⟨waitOwn_niOnly .., waitOwn_keepsTaken ..⟩
  · cases ownOn s n ⟨p, m, att⟩ with
    | none => exact ⟨waitOwn_niOnly .., waitOwn_keepsTaken ..⟩
    | some q => exact ⟨(stampMsg_niOnly ..).trans (addProg_niOnly ..), (stampMsg_keepsTaken ..).trans (addProg_keepsTaken ..)⟩

theorem sendFill_keepsTaken (s : State) {n : Nat} (inst : BitVec 4) (x : BitVec 19) (tag : Tag) (hn : n < 128) :
    NiNote n [] s (sendFill s n inst x tag) ∧ Keeps (takenView n) s (sendFill s n inst x tag) := by
  have hsent := injectOwn_keepsTaken s n .req (fillMsg s n inst x tag) none
  have hcount := evNi_noteOnly (injectOwn s n .req (fillMsg s n inst x tag) none) n 12 1 hn (by decide)
  exact ⟨(hsent.1.niNote _).trans (hcount.niNote ..), hsent.2.trans (hcount.keepsTaken n)⟩

theorem sendFill_updNi_keepsTaken {s : State} {n : Nat} {f : Ni → Ni} {inst : BitVec 4} {x : BitVec 19} {tag : Tag} (hn : n < 128)
    (hf : ∀ i, takenOf (f i) = takenOf i) : NiNote n [] s (sendFill (updNi s n f) n inst x tag) ∧
      Keeps (takenView n) s (sendFill (updNi s n f) n inst x tag) := by
  have hfill := sendFill_keepsTaken (updNi s n f) inst x tag hn
  exact ⟨(NiNote.updNi ..).trans hfill.1, (updNi_keepsTaken s n hf).trans hfill.2⟩

theorem etcNeed_keepsTaken (s : State) {n : Nat} (inst : BitVec 4) (x : BitVec 19) (hn : n < 128) :
    NiNote n [] s (etcNeed s n inst x) ∧ Keeps (takenView n) s (etcNeed s n inst x) := by
  unfold etcNeed
  dsimp only
  split
  · exact ⟨.refl .., .refl ..⟩
  · exact sendFill_updNi_keepsTaken hn fun _ => rfl

theorem takenOf_etcTouch (i : Ni) (inst : BitVec 4) (x : BitVec 19) : takenOf (etcTouch i inst x) = takenOf i := by
  unfold etcTouch
  split <;> rfl

end Sys2Proof.Machine
end

section
/-! SUPPORT. An ingress header without an error (03 R46; 07 R150). -/

namespace Sys2Proof.Machine

/-! The request that a header makes. -/

/-- r is the request that NI n makes of header h of slice k, taken now. -/
structure IsReqOf (s : State) (n k : Nat) (h : IngHdr) (r : Req) : Prop where
  id : r.id = (getNi s n).nextId
  slice : r.slice = BitVec.ofNat 4 k
  kind : r.kind = reqKindOf h.opc
  posted : r.posted = isPosted h.opc
  queue : r.q = h.queue
  beats : r.beats = ingBeats h
  issued : r.issued = false
  opc : r.msg.opc = BitVec.ofNat 7 h.opc
  epTag : r.epTag = BitVec.ofNat 10 h.tag

/-- A request joins its NI in taken order, and its queue. -/
theorem takenView_enqueueReq (s : State) (n : Nat) (r : Req) : takenView n (enqueueReq s n r) =
    ((getNi s n).reqs ++ [r], (getNi s n).nextId + 1, (getNi s n).trk,
      mupd (getNi s n).sched.queues r.q {} fun q => { q with reqIds := q.reqIds ++ [r.id] }, (getNi s n).port.accept, (getNi s n).port.err) := by
  rw [takenView, enqueueReq, getNi_updNi_same]
  rfl

theorem enqueueReq_niOnly (s : State) (n : Nat) (r : Req) : NiOnly n s (enqueueReq s n r) := .updNi ..

/-- A best-effort request is taken: it joins its NI and its queue, with its tracker entry; what follows keeps both. -/
theorem takeBest_spec {s t : State} {n k fa : Nat} {h : IngHdr} {device : Bool} {d : Option Dest} (hn : n < 128)
    (hroom : isPosted h.opc = false → (getNi s n).trk.length < 1024) (ht : t = takeBest s n k h fa device d) :
    ∃ (r : Req) (trk : Map Trk), IsReqOf s n k h r ∧ takenView n t = ((getNi s n).reqs ++ [r], (getNi s n).nextId + 1, trk,
        mupd (getNi s n).sched.queues h.queue {} (fun q => { q with reqIds := q.reqIds ++ [r.id] }),
        (getNi s n).port.accept, (getNi s n).port.err) ∧
      (isPosted h.opc = false → ∃ (g : Tag) (e : Trk), r.tag = some g ∧ mget (getNi s n).trk g.toNat = none ∧
        mget trk g.toNat = some e ∧ e.reqId = r.id ∧ e.epTag = BitVec.ofNat 10 h.tag ∧ e.slice = BitVec.ofNat 4 k) ∧ NiNote n [] s t := by
  unfold takeBest at ht
  extract_lets dst bgt group m0 m ovs fill made r0 r u s1 s2 s3 at ht
  clear_value group fill
  have hopc : m.opc = BitVec.ofNat 7 h.opc := by
    unfold m
    cases group <;> rfl
  have hr0 : IsReqOf s n k h r0 := ⟨rfl, rfl, rfl, rfl, rfl, rfl, rfl, hopc, rfl⟩
  have hr : IsReqOf s n k h r := by
    unfold r
    split
    · exact { hr0 with }
    · exact hr0
  obtain ⟨hallocNote, ⟨trk, halloc⟩, hentry⟩ := allocTrk_spec (u := u) rfl (by rwa [hr.posted])
  have hjoin : takenView n s1 = _ := takenView_enqueueReq u.2 n { r with tag := u.1 }
  have hfence : NiNote n [] s1 s2 ∧ Keeps (takenView n) s1 s2 :=
    ⟨.ite (.updNi ..) (.refl ..), .ite (updNi_keepsTaken _ _ fun _ => rfl) (.refl ..)⟩
  have hfill : NiNote n [] s2 s3 ∧ Keeps (takenView n) s2 s3 := by
    unfold s3
    split
    · rename_i i x
      have hneed := etcNeed_keepsTaken s2 i x hn
      exact ⟨hneed.1.trans (.updNi ..), hneed.2.trans (updNi_keepsTaken _ _ fun q => takenOf_etcTouch q i x)⟩
    · exact ⟨.refl .., .refl ..⟩
  have hrest : NiNote n [] s1 t ∧ Keeps (takenView n) s1 t := by
    rw [ht]
    exact ⟨hfence.1.trans (hfill.1.trans ((expectBeats_niOnly ..).niNote _)), hfence.2.trans (hfill.2.trans (expectBeats_keepsTaken ..))⟩
  have hqueue : r.q = h.queue := hr.queue
  refine ⟨{ r with tag := u.1 }, trk, { hr with }, ?_, ?_, hallocNote.trans (((enqueueReq_niOnly ..).niNote _).trans hrest.1)⟩
  · refine Eq.trans hrest.2 (hjoin.trans ?_)
    rw [halloc, hqueue]
  · intro hposted
    obtain ⟨g, hg, hfree, hheld⟩ := hentry (hr.posted.trans hposted)
    rw [halloc] at hheld
    exact ⟨g, _, hg, hfree, hheld, rfl, hr.epTag, hr.slice⟩

/-! The header is judged. -/

theorem fld_lt {n : Nat} (w : BitVec n) (hi lo : Nat) : fld w hi lo < 2 ^ (hi - lo + 1) := Nat.mod_lt _ (Nat.two_pow_pos _)

theorem ingHdr_opc_lt (raw : BitVec 128) : (ingHdr raw).opc < 128 := fld_lt raw 127 121

theorem ingHdr_tag_lt (raw : BitVec 128) : (ingHdr raw).tag < 1024 := fld_lt raw 85 76

/-- A read is not answered from the buffer where PW_FWD is 0, nor is a request of another opcode (08 R180). -/
theorem forwardData_none {s : State} {n : Nat} (k : Nat) {h : IngHdr} (device : Bool)
    (hno : bitOf (rd s (aNi n 0x130)) 0 = false ∨ (h.opc ≠ 1 ∧ h.opc ≠ 2)) : forwardData s n k h device = none := by
  unfold forwardData
  obtain hoff | ⟨h1, h2⟩ := hno
  · simp [hoff]
  · simp [h1, h2]

/-- A slice with room for its request's tracker entry finds one free (11 R236). -/
theorem trk_lt_of_room {s : State} {n k : Nat} {h : IngHdr} (hroom : beFull s n k h = false) (hposted : isPosted h.opc = false) :
    (getNi s n).trk.length < 1024 := by
  simp only [beFull, hposted, Bool.or_eq_false_iff, Bool.false_eq_true, if_false, Bool.not_eq_false', trkRoom, Bool.and_eq_true,
    decide_eq_true_eq] at hroom
  exact hroom.2.2

/-- The port answers that the header is taken, and its events are counted (03 R46; 20 Table 20.3). -/
def okAnswered (s : State) (n k : Nat) : State := evNi (evNi (portAnswer s n true false 0) n 0 1) n (16 + k) 1

theorem okAnswered_noted (s : State) {n k : Nat} (hn : n < 128) (hk : k < 16) : NoteOnly (portAnswer s n true false 0) (okAnswered s n k) :=
  (evNi_noteOnly _ n 0 1 hn (by decide)).trans (evNi_noteOnly _ n (16 + k) 1 hn (by omega))

/-- A header in service that takes no error and finds room is taken (03 R46). -/
theorem judgeHeader_takes {s : State} {n k : Nat} {raw : BitVec 128} {h : IngHdr} (hh : h = ingHdr raw) (hopen : portOpen s n = true)
    (hslice : sliceOf? s n h.pv h.pasid = some k) (hrst : slcRst s n k = false) (herr : errCodeOf s n (some k) h = 0)
    (hbest : h.cls = false) (hroom : beFull s n k h = false) : judgeHeader s n raw = takeOk s n k h := by
  simp [judgeHeader, ← hh, hslice, hopen, hrst, herr, hbest, hroom]

/-- What it makes is a best-effort request, if nothing answers it at once. -/
theorem takeOk_best {s : State} {n k : Nat} {h : IngHdr} (hn : n < 128) (hk : k < 16) (htele : isTele s n h = false) (hptm : isPtm h = false)
    (hno : bitOf (rd s (aNi n 0x130)) 0 = false ∨ (h.opc ≠ 1 ∧ h.opc ≠ 2)) :
    ∃ fa device d, takeOk s n k h = takeBest (okAnswered s n k) n k h fa device d := by
  have hword : rd (okAnswered s n k) (aNi n 0x130) = rd s (aNi n 0x130) :=
    (niNote_of_portAnswer [] (okAnswered_noted s hn hk)).2.1 _ (List.not_mem_nil) (noteWord_aNi hn (by decide) (by decide))
  unfold takeOk
  extract_lets s0 dec fa device d
  rw [if_neg (by simp [htele]), if_neg (by simp [hptm])]
  have hnone : forwardData s0 n k h device = none := forwardData_none k device (hword.symm ▸ hno)
  rw [hnone]
  exact ⟨fa, device, d, rfl⟩

/-- A header without an error is held back, out of service or without room (03 R46). -/
theorem judgeHeader_holds {s : State} {n k : Nat} {raw : BitVec 128} {h : IngHdr} (hh : h = ingHdr raw)
    (hslice : sliceOf? s n h.pv h.pasid = some k) (herr : errCodeOf s n (some k) h = 0) (hbest : h.cls = false)
    (hheld : portOpen s n = false ∨ slcRst s n k = true ∨ beFull s n k h = true) :
    judgeHeader s n raw = evNi (portAnswer s n false false 0) n 2 1 := by
  have hhold : holdHeader s n false = evNi (portAnswer s n false false 0) n 2 1 := rfl
  unfold judgeHeader
  by_cases hclosed : portOpen s n = false ∨ slcRst s n k = true
  · simp [← hh, hslice, hbest, hclosed, hhold]
  · have hfull : beFull s n k h = true := by tauto
    simp [← hh, hslice, hbest, hclosed, herr, hfull, hhold]

/-- Settles O5: the request joins the NI and its queue as `takenView` shows them, under a tracker tag that was free. -/
theorem ingressRequestIsTakenOrHeldBack : Obligations.IngressRequestIsTakenOrHeldBack := by
  unfold Obligations.IngressRequestIsTakenOrHeldBack
  refine ⟨fun s n raw k h hh hk hopen hslice hrst herr hbest hroom htele hptm hno => ?_,
    fun s n raw k h hh hep hen hslice herr hbest hheld => ?_⟩
  · obtain ⟨hep, hen⟩ := on_of_portOpen hopen
    have hn := isEpNi_lt hep
    obtain ⟨q, hq⟩ := getNi_of_portAnswer (okAnswered_noted s hn hk)
    have hanswered := niNote_of_portAnswer [] (okAnswered_noted s hn hk)
    obtain ⟨fa, device, d, htake⟩ := takeOk_best (h := h) hn hk htele hptm hno
    have hexec := (exec_ingressRequest raw hep hen).trans
      (congrArg (answer s) ((judgeHeader_takes hh hopen hslice hrst herr hbest hroom).trans htake))
    generalize ht : takeBest (okAnswered s n.toNat k) n.toNat k h fa device d = t at hexec
    obtain ⟨r, trk, hr, hview, hentry, hnote⟩ :=
      takeBest_spec hn (fun hposted => by rw [hq]; exact trk_lt_of_room hroom hposted) ht.symm
    have hwhole := hanswered.trans hnote
    simp only [takenView, takenOf, hq, Prod.mk.injEq] at hview
    rw [hq] at hentry
    obtain ⟨hreqs, hnext, htrk, hqueues, haccept, hnoErr⟩ := hview
    have hid : r.id = (getNi s n.toNat).nextId := by rw [hr.id, hq]
    have hsliceOf : (BitVec.ofNat 4 k).toNat = k := Nat.mod_eq_of_lt hk
    have hopcOf : (BitVec.ofNat 7 h.opc).toNat = h.opc := Nat.mod_eq_of_lt (hh ▸ ingHdr_opc_lt raw)
    have htagOf : (BitVec.ofNat 10 h.tag).toNat = h.tag := Nat.mod_eq_of_lt (hh ▸ ingHdr_tag_lt raw)
    refine completes_of_niNote hexec hwhole ⟨r, haccept, hnoErr, hreqs, hnext, ?_, hid, by rw [hr.slice, hsliceOf], hr.kind,
      hr.posted, hr.queue, hr.beats, hr.issued, by rw [hr.opc, hopcOf], fun hposted => ?_, hwhole⟩
    · rw [getQ, hqueues]
      exact congrArg Queue.reqIds (mgetD_mset_same ..)
    · obtain ⟨g, e, hg, hfree, hheld, hreq, hepTag, heSlice⟩ := hentry hposted
      exact ⟨g, e, hg, hfree, by rw [htrk, hheld], hreq, by rw [hepTag, htagOf], by rw [heSlice, hsliceOf]⟩
  · have hn := isEpNi_lt hep
    have hnoted := evNi_noteOnly (portAnswer s n.toNat false false 0) n.toNat 2 1 hn (by decide)
    obtain ⟨q, hq⟩ := getNi_of_portAnswer hnoted
    have hexec := (exec_ingressRequest raw hep hen).trans (congrArg (answer s) (judgeHeader_holds hh hslice herr hbest hheld))
    have hnote := niNote_of_portAnswer [] hnoted
    refine completes_of_niNote hexec hnote ⟨?_, hnote⟩
    rw [hq]

end Sys2Proof.Machine
end

section
/-! SUPPORT. A request that reached its target: it is taken, and what its NI decides of it (04 R66, R75; 06 R136; 09 R204). -/

namespace Sys2Proof.Machine

/-! The request is taken. -/

/-- u is s with the request that its NI k serves taken: `rest` waits on, and the twin record may have moved (06 R136). -/
structure RequestTaken (s u : State) (k : Nat) (rest : List (Msg × Bool)) : Prop where
  only : NiOnly k s u
  ni : ∃ p, getNi u k = { getNi s k with inReq := rest, pst := p }

/-- A copy that no twin copy came before passes, and is recorded (06 R136). -/
theorem twinJudge_of_passes {s : State} {n : Nat} {m : Msg}
    (h : ∀ j, m.cls = 1 → twinKey s m = some j → twinPasses (mget (getNi s n).pst.twins j) m = true) :
    (twinJudge s n m).1 = true ∧ NiOnly n s (twinJudge s n m).2 ∧ ∃ p, getNi (twinJudge s n m).2 n = { getNi s n with pst := p } := by
  have hsame : NiOnly n s s ∧ ∃ p, getNi s n = { getNi s n with pst := p } := ⟨⟨rfl, fun _ _ => rfl⟩, _, rfl⟩
  unfold twinJudge
  by_cases hcls : m.cls = 1
  · rw [if_neg (by simp [hcls])]
    cases hkey : twinKey s m with
    | none => exact ⟨rfl, hsame⟩
    | some j =>
      simp only [h j hcls hkey, if_true]
      exact ⟨trivial, .updNi .., _, getNi_updNi_same ..⟩
  · rw [if_pos (by simpa using hcls)]
    exact ⟨rfl, hsame⟩

/-- Whether an NI is out of service depends on the profile, its reset and its port (17 R377). -/
theorem RequestTaken.niDown_eq {s u : State} {k : Nat} {rest : List (Msg × Bool)} (h : RequestTaken s u k rest) : niDown u k = niDown s k := by
  obtain ⟨p, hp⟩ := h.ni
  have hep : isEpNi u k = isEpNi s k := by rw [h.only.1]; rfl
  simp only [niDown, hp, hep]

theorem RequestTaken.rd_eq {s u : State} {k : Nat} {rest : List (Msg × Bool)} (h : RequestTaken s u k rest) : rd u = rd s := by
  rw [h.only.1]; rfl

/-- The target decides by the register words and by its decoder (09 R204). -/
theorem RequestTaken.targetDecide_eq {s u : State} {k : Nat} {rest : List (Msg × Bool)} (h : RequestTaken s u k rest) (m : Msg) :
    targetDecide u k m = targetDecide s k m := by
  obtain ⟨p, hp⟩ := h.ni
  have htbt : tbtRow (getNi u k) = tbtRow (getNi s k) := by rw [hp]; rfl
  have hlift : liftCheck u k m = liftCheck s k m := by rw [h.only.1]; rfl
  have hinst : instNo u = instNo s := by rw [h.only.1]; rfl
  have hdir : dirTag u k = dirTag s k := by rw [h.only.1]; rfl
  simp only [targetDecide, htbt, hlift, hinst, hdir]

/-- The oldest request that passes its checks at an NI in service is taken and judged (04 R66, R75; 09 R205). -/
theorem exec_requestArriveAtTarget {s : State} {n : NiId} {k : Nat} {m : Msg} {alt : Bool} {rest : List (Msg × Bool)} (hk : k = n.toNat)
    (hroom : (getNi s k).answers.length < 16)
    (htake : takeFirst (getNi s k).inReq (fun q => targetMsg q.1 && !moveHolds s k q.1) = (some (m, alt), rest))
    (hcls : clsOk m = true) (htaint : m.taint = false) (hcrc : msgCrc m = m.crc) (hup : niDown s k = false)
    (htwin : ∀ j, m.cls = 1 → twinKey s m = some j → twinPasses (mget (getNi s k).pst.twins j) m = true) :
    ∃ u, RequestTaken s u k rest ∧ exec (.requestArriveAtTarget n) s = answer s (atTarget u k m) := by
  subst hk
  have hfull : answersFull s n.toNat = false := by simp [answersFull, hroom]
  generalize hv : updNi s n.toNat (fun i => { i with inReq := rest }) = v
  have hni : getNi v n.toNat = { getNi s n.toNat with inReq := rest } := by rw [← hv, getNi_updNi_same]
  have hdown : niDown v n.toNat = false := by rw [← hv, niDown_inReq, hup]
  have hkey : twinKey v m = twinKey s m := by rw [← hv]; rfl
  obtain ⟨hpass, honly, p, hp⟩ := twinJudge_of_passes (s := v) (n := n.toNat) (m := m) (by rw [hkey, hni]; exact htwin)
  refine ⟨(twinJudge v n.toNat m).2, ⟨(hv ▸ NiOnly.updNi s n.toNat _).trans honly, p, by rw [hp, hni]⟩, ?_⟩
  change execRequestArriveAtTarget n s = _
  simp [execRequestArriveAtTarget, hfull, htake, hv, rxCheck_pass hcls htaint hcrc, hdown, hpass]

/-! The answer list. -/

/-- Of the state an answer shows GLB_PROFILE.INST alone, in its SRC (01 R19). -/
theorem answerMsg_congr {s t : State} (h : rd t 0x8 = rd s 0x8) (n : Nat) (m : Msg) (opc stat gcnt : Nat) :
    answerMsg t n m opc stat gcnt = answerMsg s n m opc stat gcnt := by simp only [answerMsg, niNode, nodeOf, instNo, rdF, h]

/-- The NI's answer to request m, as it waits in the answer list (09 R205). -/
def answerTo (s : State) (n : Nat) (m : Msg) (stat : Nat) : Answer :=
  { msg := answerMsg s n m (rspOpOf m.opc.toNat) stat 0, piste := m.cls == 1 }

/-- An answer made after words other than GLB_PROFILE were written joins the answer list; nothing else of the NI changes. -/
theorem getNi_pushAnswer {s w : State} (h : rd w 0x8 = rd s 0x8) (n : Nat) (m : Msg) (stat : Nat) :
    getNi (pushAnswer w n m (rspOpOf m.opc.toNat) stat 0) n = { getNi w n with answers := (getNi w n).answers ++ [answerTo s n m stat] } := by
  rw [pushAnswer, getNi_updNi_same, answerMsg_congr h, answerTo]

theorem pushAnswer_niOnly (s : State) (n : Nat) (m : Msg) (opc stat gcnt : Nat) : NiOnly n s (pushAnswer s n m opc stat gcnt) := .updNi ..

theorem rd_pushAnswer (s : State) (n : Nat) (m : Msg) (opc stat gcnt a : Nat) : rd (pushAnswer s n m opc stat gcnt) a = rd s a := rfl

/-! What the target does. -/

/-- A decode error is counted, and a missing TBT row flagged. -/
def decodeErrCounted (s : State) (n : Nat) (miss : Bool) : State :=
  if miss then setFlag (incSat s (aNi n 0x1C58) 1) (aNi n 0x1C00) 4 else incSat s (aNi n 0x1C58) 1

/-- m is a request other than BISNP, at an NI in service (09 R204). -/
structure Judged (s : State) (k : Nat) (m : Msg) : Prop where
  opc : isBisnp m.opc.toNat = false
  up : niDown s k = false

theorem Judged.atTarget_present {s : State} {k addr : Nat} {m : Msg} {row : Option (Nat × TbtRow)} (h : Judged s k m)
    (hdec : targetDecide s k m = .present addr row) (hep : isSvcNi s k = false) :
    atTarget s k m = row.elim (presentReq s k m addr) fun r => mirrorWrite (presentReq s k m addr) k m r.2 := by
  simp only [atTarget, h.opc, h.up, hdec, hep]
  cases row <;> rfl

theorem Judged.atTarget_service {s : State} {k addr : Nat} {m : Msg} {row : Option (Nat × TbtRow)} (h : Judged s k m)
    (hdec : targetDecide s k m = .present addr row) (hsvc : isSvcNi s k = true) : atTarget s k m = atService s k m addr := by
  simp [atTarget, h.opc, h.up, hdec, hsvc]

theorem Judged.atTarget_decodeErr {s : State} {k : Nat} {m : Msg} {miss : Bool} (h : Judged s k m)
    (hdec : targetDecide s k m = .decodeErr miss) : atTarget s k m =
      pushAnswer (decodeErrCounted s k miss) k m (rspOpOf m.opc.toNat) 1 0 := by
  simp only [atTarget, h.opc, h.up, hdec, Bool.false_eq_true, if_false, decodeErrCounted]

theorem Judged.atTarget_denied {s : State} {k why : Nat} {m : Msg} (h : Judged s k m) (hdec : targetDecide s k m = .denied why) :
    atTarget s k m = pushAnswer (denyLog s k m why) k m (rspOpOf m.opc.toNat) 2 0 := by
  simp [atTarget, h.opc, h.up, hdec]

end Sys2Proof.Machine
end

section
/-! SUPPORT. What its target does with a request: it presents it, takes a ring's index, or answers an error (09 R204 to R209; 13 R285,
R293). -/

namespace Sys2Proof.Machine

/-! The request is presented (03 Table 03.3). -/

/-- The message that stands on egress REQ for request m. -/
def presented (m : Msg) (addr : Nat) : Egr :=
  let nb := if isLineOp m.opc.toNat then 64 * m.len.toNat else m.nbytes.toNat
  { opc := m.opc.toNat, piste := m.cls == 1,
    hdr := egrReqHdr m.opc.toNat (m.cls == 1) m.src.toNat m.slice.toNat m.gen.toNat m.tag.toNat nb m.poison m.nt addr,
    data := m.data, charged := m.charged, src := m.src, msg := m, be := rangeEnables m.opc.toNat addr nb m.data.length }

theorem presentReq_eq (s : State) (n : Nat) (m : Msg) (addr : Nat) : presentReq s n m addr = pushErq s n (presented m addr) := rfl

/-- A presented request joins the class of egress REQ that it is of. -/
theorem getNi_presentReq (s : State) (n : Nat) (m : Msg) (addr : Nat) :
    getNi (presentReq s n m addr) n = { getNi s n with port := { (getNi s n).port with
      erqG := (getNi s n).port.erqG ++ (if m.cls = 1 then [presented m addr] else [])
      erqB := (getNi s n).port.erqB ++ (if m.cls = 1 then [] else [presented m addr]) } } := by
  have hpiste : (presented m addr).piste = (m.cls == 1) := rfl
  rw [presentReq_eq, pushErq, getNi_updPort_same, hpiste]
  by_cases hcls : m.cls = 1
  · simp only [hcls, beq_self_eq_true, if_true, List.append_nil]
  · simp only [beq_eq_false_iff_ne.2 hcls, if_neg hcls, Bool.false_eq_true, if_false, List.append_nil]

theorem presentReq_niOnly (s : State) (n : Nat) (m : Msg) (addr : Nat) : NiOnly n s (presentReq s n m addr) := by
  rw [presentReq_eq, pushErq, updPort]
  exact .updNi ..

/-! A mirrored write (13 R293). -/

/-- A message that an NI sends outside its queues changes what is under way and what is stamped (05 R97). -/
theorem getNi_injectOwn (s : State) (n : Nat) (p : Plane) (m : Msg) (att : Option Bool) :
    ∃ c q, getNi (injectOwn s n p m att) n = { getNi s n with sched := c, pst := q } := by
  have hwait : ∀ o, ∃ c q, getNi (waitOwn s n o) n = { getNi s n with sched := c, pst := q } := fun o => ⟨_, _, getNi_updNi_same ..⟩
  unfold injectOwn startOwn
  dsimp only
  split
  · exact hwait _
  · cases ownOn s n ⟨p, m, att⟩ with
    | none => exact hwait _
    | some q =>
      simp only [Option.map_some, Option.getD_some, addProg, getNi_updNi_same]
      rw [getNi_stampMsg]
      exact ⟨_, _, rfl⟩

theorem injectOwn_niOnly (s : State) (n : Nat) (p : Plane) (m : Msg) (att : Option Bool) : NiOnly n s (injectOwn s n p m att) :=
  (injectOwn_keepsTaken s n p m att).1

/-- What waits at an NI for its checks, its answer list, and its endpoint port. -/
def arrivedOf (i : Ni) : List (Msg × Bool) × List Answer × Port := (i.inReq, i.answers, i.port)

/-- The same of NI n. -/
def arrivedView (n : Nat) (s : State) : List (Msg × Bool) × List Answer × Port := arrivedOf (getNi s n)

theorem updNi_keepsArrived (s : State) (n : Nat) {f : Ni → Ni} (hf : ∀ i, arrivedOf (f i) = arrivedOf i) :
    Keeps (arrivedView n) s (updNi s n f) := by
  unfold Keeps arrivedView
  rw [getNi_updNi_same, hf]

theorem injectOwn_keepsArrived (s : State) (n : Nat) (p : Plane) (m : Msg) (att : Option Bool) :
    Keeps (arrivedView n) s (injectOwn s n p m att) := by
  obtain ⟨c, q, hni⟩ := getNi_injectOwn s n p m att
  unfold Keeps arrivedView
  rw [hni]
  rfl

theorem allocTrk_keepsArrived (s : State) (n : Nat) (e : Trk) :
    NiNote n [] s (allocTrk s n e).2 ∧ Keeps (arrivedView n) s (allocTrk s n e).2 := by
  unfold allocTrk
  split <;> dsimp only
  · exact ⟨(NiNote.takeFree ..).trans (.updNi ..), updNi_keepsArrived (takeFree s).2 n fun _ => rfl⟩
  · exact ⟨.refl .., .refl ..⟩

/-- The copy of a mirrored write has a tracker entry, a share of its slice's rate and its way onto the fabric. -/
theorem mirrorWrite_keepsArrived (s : State) (n : Nat) (m : Msg) (r : TbtRow) :
    NiNote n [] s (mirrorWrite s n m r) ∧ Keeps (arrivedView n) s (mirrorWrite s n m r) := by
  unfold mirrorWrite
  split
  · exact ⟨.refl .., .refl ..⟩
  · split
    · exact ⟨.refl .., .refl ..⟩
    · extract_lets k fa t c s1
      have halloc : NiNote n [] s t.2 ∧ Keeps (arrivedView n) s t.2 := allocTrk_keepsArrived ..
      have hwaits : Keeps (arrivedView n) t.2 s1 := updNi_keepsArrived _ _ fun _ => rfl
      have hcharge : Keeps (arrivedView n) s1 (chargeSc s1 n k (msgCost c)) := updNi_keepsArrived _ _ fun _ => rfl
      exact ⟨halloc.1.trans ((NiNote.updNi n [] t.2 _).trans ((NiNote.updNi n [] s1 _).trans ((injectOwn_niOnly ..).niNote _))),
        halloc.2.trans (hwaits.trans (hcharge.trans (injectOwn_keepsArrived ..)))⟩

/-- Presented or presented and mirrored, a request is on egress REQ and changes nothing else of the port. -/
theorem presentReq_mirrored {s t : State} {n addr : Nat} {m : Msg} {row : Option (Nat × TbtRow)}
    (ht : t = row.elim (presentReq s n m addr) fun r => mirrorWrite (presentReq s n m addr) n m r.2) :
    NiNote n [] s t ∧ Keeps (arrivedView n) (presentReq s n m addr) t := by
  have hpresent := (presentReq_niOnly s n m addr).niNote []
  subst ht
  cases row with
  | none => exact ⟨hpresent, .refl ..⟩
  | some r =>
    have hmirror := mirrorWrite_keepsArrived (presentReq s n m addr) n m r.2
    exact ⟨hpresent.trans hmirror.1, hmirror.2⟩

/-! A service NI (13 R285). -/

/-- A write of a ring's producer index, outside the rc of its RESET. -/
theorem ringPiPut_eq {s : State} {q : Nat} (v : BitVec 12) (heng : s.gen.eng = true) (hreset : (getRing s q).resetNs ≠ some (nowNs s)) :
    ringPiPut s q v = wrF s (aEng (0x118 + 0x40 * q)) 11 0 v.toNat := by
  have hnow : ((mgetD s.eng.rings q {}).resetNs != some (nowNs s)) = true := bne_iff_ne.2 hreset
  simp [ringPiPut, heng, hnow]

/-- A ring's index written changes a word of the engines' block at most. -/
theorem ringPut_words {s w : State} {q : Nat} {v : BitVec 12} (hw : w = ringPiPut s q v ∨ w = ringRciPut s q v) :
    w = { s with regs := w.regs } ∧ rd w 0x8 = rd s 0x8 := by
  have hwr : ∀ off x, aEng off = x → rd (wrF s x 11 0 v.toNat) 0x8 = rd s 0x8 := by
    intro off x hx
    rw [rd_wrF, if_neg (by unfold aEng at hx; omega)]
  obtain rfl | rfl := hw
  · unfold ringPiPut
    split
    · exact ⟨rfl, hwr _ _ rfl⟩
    · exact ⟨rfl, rfl⟩
  · unfold ringRciPut
    split
    · exact ⟨rfl, hwr _ _ rfl⟩
    · exact ⟨rfl, rfl⟩

/-- A service NI answers every request, after at most a write of a register word. -/
theorem atService_answers (s : State) (n : Nat) (m : Msg) (a : Nat) :
    ∃ w stat, atService s n m a = pushAnswer w n m (rspOpOf m.opc.toNat) stat 0 ∧ w = { s with regs := w.regs } ∧ rd w 0x8 = rd s 0x8 := by
  unfold atService
  extract_lets q o v
  split
  · refine ⟨_, 0, rfl, ringPut_words (q := q) (v := v) ?_⟩
    split
    · exact .inl rfl
    · exact .inr rfl
  · exact ⟨s, 4, rfl, rfl, rfl⟩

theorem atService_noDevice {s : State} {n a : Nat} {m : Msg} (h : m.opc ≠ 0x71 ∨ m.nbytes ≠ 4) :
    atService s n m a = pushAnswer s n m (rspOpOf m.opc.toNat) 4 0 := by
  unfold atService
  rw [if_neg (by tauto)]

/-- An IO_MWR of 4 bytes to a ring's PI at its rink's service NI. -/
theorem atService_ringPi {s : State} {n a q : Nat} {m : Msg} (hopc : m.opc = 0x71) (hbytes : m.nbytes = 4) (hq : q < 16)
    (hrink : 120 + q % nRinks s = n) (ha : a = 0x80000 + 16 * q) (heng : s.gen.eng = true) (hreset : (getRing s q).resetNs ≠ some (nowNs s)) :
    atService s n m a = pushAnswer (wrF s (aEng (0x118 + 0x40 * q)) 11 0 ((m.data.headD 0).extractLsb' (8 * (a % 64)) 12).toNat) n m
      (rspOpOf m.opc.toNat) 0 0 := by
  have hring : (a - 0x80000) / 16 = q := by omega
  have hpi : a % 16 = 0 := by omega
  unfold atService
  simp only [hring, hpi, ringPiPut_eq _ heng hreset]
  rw [if_pos ⟨hopc, hbytes, by omega, hq, hrink, .inl trivial⟩, if_pos trivial]

/-! A request that no row of the target serves (09 R204). -/

/-- The count of a decode error, and its flag, are the only words that change. -/
theorem decodeErrCounted_spec (s : State) (n : Nat) (miss : Bool) :
    NiNote n [aNi n 0x1C58, aNi n 0x1C00] s (decodeErrCounted s n miss) ∧ getNi (decodeErrCounted s n miss) n = getNi s n ∧
      (rd (decodeErrCounted s n miss) (aNi n 0x1C58)).toNat = min 0xFFFFFFFF ((rd s (aNi n 0x1C58)).toNat + 1) ∧
      bitOf (rd (decodeErrCounted s n miss) (aNi n 0x1C00)) 4 = (bitOf (rd s (aNi n 0x1C00)) 4 || miss) := by
  have hcount : NiNote n [aNi n 0x1C58, aNi n 0x1C00] s (incSat s (aNi n 0x1C58) 1) := .incSat _ 1 (by simp)
  have hne : aNi n 0x1C58 ≠ aNi n 0x1C00 := fun h => absurd (aNi_inj.1 h) (by decide)
  have hni : getNi (decodeErrCounted s n miss) n = getNi s n := by
    unfold decodeErrCounted
    split
    · rw [getNi_setFlag, getNi_incSat]
    · rw [getNi_incSat]
  cases miss with
  | false =>
    refine ⟨hcount, hni, ?_, ?_⟩
    · simp only [decodeErrCounted, Bool.false_eq_true, if_false, rd_incSat, if_true, toNat_satAdd]
    · simp only [decodeErrCounted, Bool.false_eq_true, if_false, rd_incSat, hne.symm, Bool.or_false]
  | true =>
    refine ⟨hcount.trans (.setFlag _ 4 (by simp)), hni, ?_, ?_⟩
    · simp only [decodeErrCounted, if_true, rd_setFlag, hne, if_false, rd_incSat, toNat_satAdd]
    · rw [decodeErrCounted, if_pos rfl, rd_setFlag, if_pos rfl, bitOf_or_flag _ (by decide), Bool.or_true]

/-! A failed lift check (09 R209). -/

/-- The words of an NI that a failed lift check writes, by their offsets. -/
def denyOffs : List Nat := [0x1C68, 0x1C70, 0x1C78, 0x1C00]

/-- The row of a failed check counts it, in the lift-pass table; without a row nothing does. -/
def denyRowed (s : State) (n : Nat) (m : Msg) (reason : Nat) : State :=
  match reason, masterRow s m.src m.slice.toNat with
  | 0, _ => s
  | _, some row => wrF s (lptAddr n row + 8) 39 32 (satAdd 0xFF (rdF s (lptAddr n row + 8) 39 32) 1)
  | _, none => s

/-- The failed check is counted and its request recorded. -/
def denyRecorded (s : State) (n : Nat) (m : Msg) (reason : Nat) : State :=
  let s2 := incSat (denyRowed s n m reason) (aNi n 0x1C68) 1
  let s3 := wr s2 (aNi n 0x1C70) (BitVec.ofNat 64 (m.src.toNat <<< 52 ||| m.slice.toNat <<< 48 ||| m.opc.toNat <<< 41 |||
    reason <<< 38 ||| frameOf s % 2 ^ 38))
  setFlag (wr s3 (aNi n 0x1C78) (m.addr.zeroExtend 64)) (aNi n 0x1C00) 3

theorem denyLog_eq (s : State) (n : Nat) (m : Msg) (reason : Nat) : denyLog s n m reason = evNi (denyRecorded s n m reason) n 13 1 := rfl

/-- The count of a row lies in the lift-pass tables. -/
theorem denyRowed_spec (s : State) (n : Nat) (m : Msg) (reason : Nat) :
    ∃ a, 0x2000000 ≤ a ∧ NiNote n [a] s (denyRowed s n m reason) ∧ getNi (denyRowed s n m reason) n = getNi s n := by
  unfold denyRowed
  split
  · exact ⟨0x2000000, le_rfl, .refl .., rfl⟩
  · exact ⟨_, by unfold lptAddr; omega, .wr _ _ (List.mem_singleton_self _), rfl⟩
  · exact ⟨0x2000000, le_rfl, .refl .., rfl⟩

/-- A failed check is counted and recorded, and its NI counts the event. -/
theorem denyLog_spec (s : State) {n : Nat} (m : Msg) (reason : Nat) (hn : n < 128) :
    (∃ a, 0x2000000 ≤ a ∧ NiNote n (a :: denyOffs.map (aNi n)) s (denyLog s n m reason)) ∧
      (∃ q, getNi (denyLog s n m reason) n = { getNi s n with port := { (getNi s n).port with ntfQ := q } }) ∧
      (rd (denyLog s n m reason) (aNi n 0x1C68)).toNat = min 0xFFFFFFFF ((rd s (aNi n 0x1C68)).toNat + 1) ∧
      rd (denyLog s n m reason) (aNi n 0x1C78) = m.addr.zeroExtend 64 ∧ bitOf (rd (denyLog s n m reason) (aNi n 0x1C00)) 3 = true := by
  obtain ⟨a, ha, hrow, hrowNi⟩ := denyRowed_spec s n m reason
  rw [denyLog_eq]
  have hcount := evNi_noteOnly (denyRecorded s n m reason) n 13 1 hn (by decide)
  have hword : ∀ off < 0x2000, off ≠ 0x20 →
      rd (evNi (denyRecorded s n m reason) n 13 1) (aNi n off) = rd (denyRecorded s n m reason) (aNi n off) :=
    fun off ho hlost => hcount.2.1 _ (noteWord_aNi hn ho hlost)
  have hkept : rd (denyRowed s n m reason) (aNi n 0x1C68) = rd s (aNi n 0x1C68) := by
    have hrange := aNi_range (off := 0x1C68) hn (by decide)
    exact hrow.2.1 _ (by rw [List.mem_singleton]; omega) (noteWord_aNi hn (by decide) (by decide))
  have hrowed : NiNote n (a :: denyOffs.map (aNi n)) s (denyRowed s n m reason) := hrow.mono (by simp)
  have hlisted : ∀ off ∈ denyOffs, aNi n off ∈ a :: denyOffs.map (aNi n) := fun off ho =>
    List.mem_cons_of_mem _ (List.mem_map_of_mem ho)
  have hni : getNi (denyRecorded s n m reason) n = getNi s n := by
    rw [denyRecorded, getNi_setFlag, getNi_wr, getNi_wr, getNi_incSat, hrowNi]
  obtain ⟨q, hq⟩ := (hcount.2.2 n).exists_ntfQ
  have hrecorded : NiNote n (a :: denyOffs.map (aNi n)) (denyRowed s n m reason) (denyRecorded s n m reason) :=
    (((NiNote.incSat _ 1 (hlisted _ (by decide))).trans (.wr _ _ (hlisted _ (by decide)))).trans
      (.wr _ _ (hlisted _ (by decide)))).trans (.setFlag _ 3 (hlisted _ (by decide)))
  refine ⟨⟨a, ha, hrowed.trans (hrecorded.trans (hcount.niNote ..))⟩, ⟨q, by rw [hq, hni]⟩, ?_, ?_, ?_⟩
  · rw [hword _ (by decide) (by decide)]
    simp only [denyRecorded, rd_setFlag, rd_wr, rd_incSat, aNi_inj, hkept, toNat_satAdd, if_true, Nat.reduceEqDiff, if_false]
  · rw [hword _ (by decide) (by decide)]
    simp only [denyRecorded, rd_setFlag, rd_wr_same, aNi_inj, Nat.reduceEqDiff, if_false]
  · rw [hword _ (by decide) (by decide), denyRecorded, rd_setFlag, if_pos rfl]
    exact bitOf_or_flag _ (by decide)

end Sys2Proof.Machine
end

section
/-! SUPPORT. The statement about a request at its target, clause by clause. -/

namespace Sys2Proof.Machine

/-! From the state with the request taken to the one before. -/

/-- What a command at an NI notes does not touch GLB_PROFILE. -/
theorem NiNote.rd_profile {n : Nat} {l : List Nat} {s t : State} (h : NiNote n l s t) (hl : 0x8 ∉ l) : rd t 0x8 = rd s 0x8 := h.2.1 _ hl rfl

/-- A service NI changes register words and itself. -/
theorem atService_spec {s u : State} {k a : Nat} {m : Msg} {rest : List (Msg × Bool)} (htaken : RequestTaken s u k rest) :
    (getNi (atService u k m a) k).inReq = rest ∧ (getNi (atService u k m a) k).port = (getNi s k).port ∧
      atService u k m a = { s with regs := (atService u k m a).regs, nis := (atService u k m a).nis } ∧
      ∀ j, j ≠ k → getNi (atService u k m a) j = getNi s j := by
  obtain ⟨p, hp⟩ := htaken.ni
  obtain ⟨hall, hother⟩ := htaken.only
  obtain ⟨w, stat, heq, hw, hprofile⟩ := atService_answers u k m a
  have hni : ∀ j, getNi w j = getNi u j := fun j => by rw [hw]; rfl
  rw [heq, getNi_pushAnswer hprofile, hni, hp]
  refine ⟨rfl, rfl, ?_, fun j hj => ?_⟩
  · rw [pushAnswer, updNi, setNi, hw, hall]
  · rw [pushAnswer, getNi_updNi, if_neg hj, hni, hother j hj]

/-- An answer to a request joins those of the state before it was taken. -/
theorem RequestTaken.answers_pushAnswer {s u w : State} {k stat : Nat} {m : Msg} {rest : List (Msg × Bool)} (h : RequestTaken s u k rest)
    (hprofile : rd w 0x8 = rd u 0x8) (hni : (getNi w k).answers = (getNi u k).answers) :
    (getNi (pushAnswer w k m (rspOpOf m.opc.toNat) stat 0) k).answers = (getNi s k).answers ++ [answerTo s k m stat] := by
  obtain ⟨p, hp⟩ := h.ni
  rw [getNi_pushAnswer (hprofile.trans (congrFun h.rd_eq _)), hni, hp]

/-- A 4-byte write to a ring's PI is a write of that word, answered (13 R285). -/
theorem RequestTaken.atService_ringPi {s u : State} {k addr q : Nat} {m : Msg} {rest : List (Msg × Bool)} (h : RequestTaken s u k rest)
    (hopc : m.opc = 0x71) (hbytes : m.nbytes = 4) (hq : q < 16) (hrink : 120 + q % nRinks s = k) (haddr : addr = 0x80000 + 16 * q)
    (heng : s.gen.eng = true) (hreset : (getRing s q).resetNs ≠ some (nowNs s)) :
    rdF (atService u k m addr) (aEng (0x118 + 0x40 * q)) 11 0 = ((m.data.headD 0).extractLsb' (8 * (addr % 64)) 12).toNat ∧
      WordsBut [aEng (0x118 + 0x40 * q)] s (atService u k m addr) ∧
      (getNi (atService u k m addr) k).answers = (getNi s k).answers ++ [answerTo s k m 0] := by
  have hgen : u.gen = s.gen := by rw [h.only.1]
  have hrinkU : 120 + q % nRinks u = k := by rw [← hrink, nRinks, hgen]; rfl
  have hresetU : (getRing u q).resetNs ≠ some (nowNs u) := by rw [h.only.1]; exact hreset
  rw [Machine.atService_ringPi hopc hbytes hq hrinkU haddr (by rw [hgen, heng]) hresetU]
  refine ⟨?_, fun a ha => ?_, h.answers_pushAnswer ?_ rfl⟩
  · rw [rdF, rd_pushAnswer, rd_wrF, if_pos rfl, fld_setFld_same _ _ (by decide) (by decide)]
    exact Nat.mod_eq_of_lt (BitVec.isLt _)
  · rw [rd_pushAnswer, rd_wrF, if_neg (by simpa using ha), h.rd_eq]
  · rw [rd_wrF, if_neg (by unfold aEng; omega)]

theorem RequestTaken.note_pushAnswer {s u w : State} {k : Nat} {l : List Nat} {rest : List (Msg × Bool)} (h : RequestTaken s u k rest)
    (hnote : NiNote k l u w) (m : Msg) (stat : Nat) : NiNote k l s (pushAnswer w k m (rspOpOf m.opc.toNat) stat 0) :=
  (h.only.niNote l).trans (hnote.trans ((pushAnswer_niOnly ..).niNote l))

theorem getNi_withNi (s : State) (k : Nat) (i : Ni) : getNi { s with nis := mset s.nis k i } k = i :=
  (getNi_setNi s k k i).trans (if_pos rfl)

/-- Settles O16: the request is taken, and each decision of its target ends in the egress queue, the ring's word or the answer list. -/
theorem requestIsJudgedAtItsTarget : Obligations.RequestIsJudgedAtItsTarget := by
  unfold Obligations.RequestIsJudgedAtItsTarget
  intro s n k m alt rest hk hroom htake hcls htaint hcrc hup hbisnp htwin
  have hn : k < 128 := hk ▸ n.isLt
  obtain ⟨u, htaken, hexec⟩ := exec_requestArriveAtTarget hk hroom htake hcls htaint hcrc hup htwin
  have hjudged : Judged u k m := ⟨hbisnp, by rw [htaken.niDown_eq, hup]⟩
  have hdecided := htaken.targetDecide_eq m
  have hsvcEq : isSvcNi u k = isSvcNi s k := by rw [htaken.only.1]; rfl
  obtain ⟨p, hp⟩ := htaken.ni
  have hrd := htaken.rd_eq
  refine ⟨fun addr row hdec hep => ?_, fun addr row hdec hsvc => ?_, fun miss hdec => ?_, fun why hdec => ?_⟩
  · rw [hjudged.atTarget_present (hdecided.trans hdec) (hsvcEq.trans hep)] at hexec
    generalize ht : Option.elim row _ _ = t at hexec
    obtain ⟨hnote, hkept⟩ := presentReq_mirrored ht.symm
    have hwhole := (htaken.only.niNote []).trans hnote
    simp only [Keeps, arrivedView, arrivedOf, getNi_presentReq, hp, Prod.mk.injEq] at hkept
    obtain ⟨hreq, hanswers, hport⟩ := hkept
    refine completes_of_niNote hexec hwhole ⟨presented m addr, hreq, hanswers, ?_, rfl, rfl, hwhole.2.2⟩
    rw [hport]
  · rw [hjudged.atTarget_service (hdecided.trans hdec) (hsvcEq.trans hsvc)] at hexec
    obtain ⟨hreq, hport, hall, hother⟩ := atService_spec (a := addr) (m := m) htaken
    refine completes_of_answer hexec (by rw [hall]) (by rw [hall]) (by rw [hall]) ⟨hreq, hport, fun hno => ?_,
      fun q hopc hbytes hq hrink haddr heng hreset => htaken.atService_ringPi hopc hbytes hq hrink haddr heng hreset, hall, hother⟩
    rw [atService_noDevice hno]
    exact ⟨by rw [pushAnswer, updNi_regs, htaken.only.1], htaken.answers_pushAnswer rfl rfl⟩
  · rw [hjudged.atTarget_decodeErr (hdecided.trans hdec)] at hexec
    obtain ⟨hnote, hni, hcount, hflag⟩ := decodeErrCounted_spec u k miss
    have hprofile : rd (decodeErrCounted u k miss) 0x8 = rd u 0x8 := hnote.rd_profile (by simp [aNi])
    have hwhole := htaken.note_pushAnswer hnote m 1
    refine completes_of_niNote hexec hwhole ⟨?_, ?_, htaken.answers_pushAnswer hprofile (congrArg Ni.answers hni), ?_, ?_, hwhole⟩
    · rw [getNi_pushAnswer hprofile, hni, hp]
    · rw [getNi_pushAnswer hprofile, hni, hp]
    · rw [rd_pushAnswer, hcount, hrd]
    · rw [rd_pushAnswer, hflag, hrd]
  · rw [hjudged.atTarget_denied (hdecided.trans hdec)] at hexec
    obtain ⟨⟨a, ha, hnote⟩, ⟨q, hq⟩, hcount, hlog, hflag⟩ := denyLog_spec u m why hn
    have hprofile : rd (denyLog u k m why) 0x8 = rd u 0x8 := hnote.rd_profile (by simp [denyOffs, aNi]; omega)
    have hanswers := htaken.answers_pushAnswer (m := m) (stat := 2) hprofile (by rw [hq])
    have hwhole := htaken.note_pushAnswer hnote m 2
    refine completes_of_niNote hexec hwhole ⟨?_, ?_, hanswers, ?_, ?_, ?_⟩
    · rw [getNi_pushAnswer hprofile, hq, hp]
    · unfold SameNi
      rw [getNi_withNi, getNi_pushAnswer hprofile, hq, hp]
    · rw [rd_pushAnswer, hcount, hrd]
    · rw [rd_pushAnswer, hlog]
    · rw [rd_pushAnswer, hflag]

end Sys2Proof.Machine
end

section
/-! SUPPORT. What a command at one router leaves unchanged, and the rules of its planes (05 R93; 04 R69). -/

namespace Sys2Proof.Machine

/-! Words. -/

/-- Notifications and event counts write no word of a router's block. -/
theorem noteWord_aRtr {x off : Nat} (hx : x < 64) (ho : off < 0x1000) : noteWord (aRtr x off) = false := by
  have hrange : 0x100000 ≤ aRtr x off ∧ aRtr x off < 0x200000 := by unfold aRtr; omega
  simp [noteWord]
  omega

theorem aRtr_inj {x a b : Nat} : aRtr x a = aRtr x b ↔ a = b := Nat.add_left_cancel_iff

theorem evRtr_noteOnly (s : State) {x e : Nat} (d : Nat) (hx : x < 64) (he : e < 32) : NoteOnly s (evRtr s x e d) :=
  bump_noteOnly s _ d (by omega)

theorem NoteOnly.getRtr {s t : State} (h : NoteOnly s t) (y : Nat) : getRtr t y = getRtr s y := by rw [Machine.getRtr, h.rtrs]; rfl

/-! Planes. -/

@[simp] theorem planeOf_updPlane_same (s : State) (p : Plane) (x : Nat) (f : RtrPlane → RtrPlane) :
    planeOf (getRtr (updPlane s p x f) x) p = f (planeOf (getRtr s x) p) := by
  rw [updPlane, getRtr_updRtr, if_pos rfl]
  cases p <;> rfl

@[simp] theorem rx_updPlane (s : State) (p : Plane) (x y : Nat) (f : RtrPlane → RtrPlane) :
    (getRtr (updPlane s p x f) y).rx = (getRtr s y).rx := by
  rw [updPlane, getRtr_updRtr]
  split
  next h => subst h; cases p <;> rfl
  · rfl

@[simp] theorem planeOf_withRx (r : Rtr) (l : LinkRx) (p : Plane) : planeOf { r with rx := l } p = planeOf r p := by cases p <;> rfl

/-! A command that changes one router, span ports, words of its own, and what notifications write. -/

/-- t differs from s in router x, in span ports, in the listed words, and in what notifications and event counts write. -/
def RtrOnly (x : Nat) (l : List Nat) (s t : State) : Prop :=
  t = { s with
    regs := t.regs, rtrs := t.rtrs, nis := t.nis, spans := t.spans, ntf := t.ntf, flt := { s.flt with log := t.flt.log } } ∧
  NotedBut l s t ∧ (∀ y, y ≠ x → getRtr t y = getRtr s y) ∧ ∀ m, SameNi s t m

theorem RtrOnly.refl (x : Nat) (l : List Nat) (s : State) : RtrOnly x l s s := ⟨rfl, fun _ _ _ => rfl, fun _ _ => rfl, fun m => .refl s m⟩

theorem RtrOnly.trans {x : Nat} {l : List Nat} {s t u : State} (h : RtrOnly x l s t) (k : RtrOnly x l t u) : RtrOnly x l s u := by
  obtain ⟨hall, hwords, hrtr, hni⟩ := h
  obtain ⟨kall, kwords, krtr, kni⟩ := k
  refine ⟨?_, fun a ha hn => (kwords a ha hn).trans (hwords a ha hn), fun y hy => (krtr y hy).trans (hrtr y hy), fun m => (hni m).trans (kni m)⟩
  rw [kall]
  conv_lhs => rw [hall]

theorem RtrOnly.mono {x : Nat} {l k : List Nat} {s t : State} (h : RtrOnly x l s t) (hl : l ⊆ k) : RtrOnly x k s t := by
  obtain ⟨hall, hwords, hrest⟩ := h
  exact ⟨hall, fun a ha => hwords a fun hm => ha (hl hm), hrest⟩

theorem NoteOnly.rtrOnly {s t : State} (h : NoteOnly s t) (x : Nat) (l : List Nat) : RtrOnly x l s t := by
  have hall := h.1
  refine ⟨?_, fun a _ => h.2.1 a, fun y _ => h.getRtr y, h.2.2⟩
  rw [hall]

theorem RtrOnly.wr {x a : Nat} {l : List Nat} (s : State) (v : Word) (h : a ∈ l) : RtrOnly x l s (wr s a v) :=
  ⟨rfl, fun b hb _ => rd_wr_ne s a b v fun e => hb (e ▸ h), fun _ _ => rfl, fun m => .refl s m⟩

theorem RtrOnly.updRtr (x : Nat) (l : List Nat) (s : State) (f : Rtr → Rtr) : RtrOnly x l s (updRtr s x f) :=
  ⟨rfl, fun _ _ _ => rfl, fun y hy => by rw [getRtr_updRtr, if_neg hy], fun m => .refl s m⟩

theorem RtrOnly.updSpan (x : Nat) (l : List Nat) (s : State) (p : Nat) (f : Span → Span) : RtrOnly x l s (updSpan s p f) :=
  ⟨rfl, fun _ _ _ => rfl, fun _ _ => rfl, fun m => .refl s m⟩

/-- The links and buffers of a router's plane, and the uncorrectable words that its receiving ends count (05 R93; 18 R391). -/
def flitView (x : Nat) (pl : Plane) (s : State) : Map (List Flit) × Map (List Flit) × List Nat :=
  ((planeOf (getRtr s x) pl).link, (planeOf (getRtr s x) pl).buf, (getRtr s x).rx.ueTimes)

/-- Router x alone may change, and not the flits on its links and in its buffers. -/
def KeepsFlits (x : Nat) (pl : Plane) (l : List Nat) (s t : State) : Prop := RtrOnly x l s t ∧ Keeps (flitView x pl) s t

theorem KeepsFlits.refl (x : Nat) (pl : Plane) (l : List Nat) (s : State) : KeepsFlits x pl l s s := ⟨.refl .., .refl ..⟩

theorem KeepsFlits.trans {x : Nat} {pl : Plane} {l : List Nat} {s t u : State} (h : KeepsFlits x pl l s t) (k : KeepsFlits x pl l t u) :
    KeepsFlits x pl l s u := ⟨h.1.trans k.1, h.2.trans k.2⟩

theorem KeepsFlits.mono {x : Nat} {pl : Plane} {l k : List Nat} {s t : State} (h : KeepsFlits x pl l s t) (hl : l ⊆ k) :
    KeepsFlits x pl k s t := ⟨h.1.mono hl, h.2⟩

theorem KeepsFlits.ite {x : Nat} {pl : Plane} {l : List Nat} {c : Prop} [Decidable c] {s t u : State} (ht : KeepsFlits x pl l s t)
    (hu : KeepsFlits x pl l s u) : KeepsFlits x pl l s (if c then t else u) := by split <;> assumption

theorem NoteOnly.keepsFlits {s t : State} (h : NoteOnly s t) (x : Nat) (pl : Plane) (l : List Nat) : KeepsFlits x pl l s t :=
  ⟨h.rtrOnly x l, by unfold Keeps flitView; rw [h.getRtr]⟩

theorem KeepsFlits.wr {x a : Nat} {pl : Plane} {l : List Nat} (s : State) (v : Word) (h : a ∈ l) : KeepsFlits x pl l s (wr s a v) :=
  ⟨.wr s v h, rfl⟩

theorem KeepsFlits.setFlag {x a : Nat} {pl : Plane} {l : List Nat} (s : State) (i : Nat) (h : a ∈ l) : KeepsFlits x pl l s (setFlag s a i) :=
  .wr s _ h

theorem KeepsFlits.incSat {x a : Nat} {pl : Plane} {l : List Nat} (s : State) (d : Nat) (h : a ∈ l) : KeepsFlits x pl l s (incSat s a d) :=
  .wr s _ h

theorem KeepsFlits.updSpan (x : Nat) (pl : Plane) (l : List Nat) (s : State) (p : Nat) (f : Span → Span) :
    KeepsFlits x pl l s (updSpan s p f) := ⟨.updSpan .., rfl⟩

theorem KeepsFlits.updPlane (x : Nat) (pl : Plane) (l : List Nat) (s : State) {f : RtrPlane → RtrPlane}
    (hf : ∀ r, (f r).link = r.link ∧ (f r).buf = r.buf) : KeepsFlits x pl l s (updPlane s pl x f) := by
  refine ⟨.updRtr .., ?_⟩
  unfold Keeps flitView
  rw [planeOf_updPlane_same, rx_updPlane, (hf _).1, (hf _).2]

theorem KeepsFlits.updRx (x : Nat) (pl : Plane) (l : List Nat) (s : State) (port : Nat) {f : LinkRx → LinkRx}
    (hf : ∀ r, (f r).ueTimes = r.ueTimes) : KeepsFlits x pl l s (updRx s x port false f) := by
  have heq : Machine.updRx s x port false f = Machine.updRtr s x fun r => { r with rx := f r.rx } := rfl
  rw [heq]
  refine ⟨.updRtr .., ?_⟩
  unfold Keeps flitView
  rw [getRtr_updRtr, if_pos rfl, planeOf_withRx, hf]

theorem KeepsFlits.foldl {α : Type} {x : Nat} {pl : Plane} {l : List Nat} {f : State → α → State} (h : ∀ t a, KeepsFlits x pl l t (f t a)) :
    ∀ (as : List α) (s : State), KeepsFlits x pl l s (as.foldl f s)
  | [], s => .refl x pl l s
  | a :: as, s => (h s a).trans (KeepsFlits.foldl h as (f s a))

/-! Credits given back. -/

theorem SameNiButCredits.trans {s t u : State} {m : Nat} (h : SameNiButCredits s t m) (k : SameNiButCredits t u m) : SameNiButCredits s u m := by
  have hqc : ∃ q c, getNi t m = { getNi s m with
      port := { (getNi s m).port with ntfQ := q }, sched := { (getNi s m).sched with credits := c } } := ⟨_, _, h⟩
  obtain ⟨q, c, hq⟩ := hqc
  unfold SameNiButCredits at k ⊢
  rw [k, hq]

theorem SameNi.butCredits {s t : State} {m : Nat} (h : SameNi s t m) : SameNiButCredits s t m := by
  obtain ⟨q, hq⟩ := h.exists_ntfQ
  unfold SameNiButCredits
  rw [hq]

theorem SameRtrButOwed.of_eq {s t : State} {y : Nat} (h : getRtr t y = getRtr s y) : SameRtrButOwed s t y := by
  unfold SameRtrButOwed
  rw [h]

theorem SameRtrButOwed.trans {s t u : State} {y : Nat} (h : SameRtrButOwed s t y) (k : SameRtrButOwed t u y) : SameRtrButOwed s u y := by
  have hab : ∃ a b, getRtr t y = { getRtr s y with
      req := { (getRtr s y).req with owed := a }, rsp := { (getRtr s y).rsp with owed := b } } := ⟨_, _, h⟩
  obtain ⟨a, b, hab⟩ := hab
  unfold SameRtrButOwed at k ⊢
  rw [k, hab]

/-- t differs from s as `RtrOnly` says, and in credits owed to routers and given to attachments (05 R93). -/
def RtrCredit (x : Nat) (l : List Nat) (s t : State) : Prop :=
  t = { s with
    regs := t.regs, rtrs := t.rtrs, nis := t.nis, spans := t.spans, ntf := t.ntf, flt := { s.flt with log := t.flt.log } } ∧
  NotedBut l s t ∧ (∀ y, y ≠ x → SameRtrButOwed s t y) ∧ ∀ m, SameNiButCredits s t m

theorem RtrOnly.credit {x : Nat} {l : List Nat} {s t : State} (h : RtrOnly x l s t) : RtrCredit x l s t := by
  obtain ⟨hall, hwords, hrtr, hni⟩ := h
  exact ⟨hall, hwords, fun y hy => .of_eq (hrtr y hy), fun m => (hni m).butCredits⟩

theorem RtrCredit.trans {x : Nat} {l : List Nat} {s t u : State} (h : RtrCredit x l s t) (k : RtrCredit x l t u) : RtrCredit x l s u := by
  obtain ⟨hall, hwords, hrtr, hni⟩ := h
  obtain ⟨kall, kwords, krtr, kni⟩ := k
  refine ⟨?_, fun a ha hn => (kwords a ha hn).trans (hwords a ha hn), fun y hy => (hrtr y hy).trans (krtr y hy), fun m => (hni m).trans (kni m)⟩
  rw [kall]
  conv_lhs => rw [hall]

theorem RtrCredit.mono {x : Nat} {l k : List Nat} {s t : State} (h : RtrCredit x l s t) (hl : l ⊆ k) : RtrCredit x k s t := by
  obtain ⟨hall, hwords, hrest⟩ := h
  exact ⟨hall, fun a ha => hwords a fun hm => ha (hl hm), hrest⟩

theorem completes_of_rtrCredit {x : Nat} {l : List Nat} {c : Instr} {s t : State} {P : State → Prop} (hexec : exec c s = answer s t)
    (h : RtrCredit x l s t) (hP : P t) : Completes c s P := by
  have hall := h.1
  exact completes_of_answer hexec (by rw [hall]) (by rw [hall]) (by rw [hall]) hP

/-- An output is owed a credit: its router changes in nothing else (05 R93). -/
theorem owe_credit (s : State) (x y : Nat) (pl : Plane) (out ch : Nat) (l : List Nat) :
    RtrCredit x l s (owe s y pl out ch) ∧ Keeps (flitView x pl) s (owe s y pl out ch) := by
  unfold owe
  split
  · exact ⟨(RtrOnly.refl x l s).credit, .refl ..⟩
  refine ⟨⟨rfl, fun _ _ _ => rfl, fun z _ => ?_, fun m => (SameNi.refl s m).butCredits⟩, ?_⟩
  · unfold SameRtrButOwed updPlane
    rw [getRtr_updRtr]
    split
    next h => subst h; cases pl <;> rfl
    · rfl
  · by_cases hxy : x = y
    · subst hxy
      refine (KeepsFlits.updPlane x pl l s ?_).2
      exact fun _ => ⟨rfl, rfl⟩
    · unfold Keeps flitView updPlane
      rw [getRtr_updRtr, if_neg hxy]

/-- A buffer's place given back changes credits alone (05 R92, R93). -/
theorem creditUp_credit (s : State) (x : Nat) (pl : Plane) (port ch : Nat) (l : List Nat) :
    RtrCredit x l s (creditUp s x pl port ch) ∧ Keeps (flitView x pl) s (creditUp s x pl port ch) := by
  have hsame : RtrCredit x l s s ∧ Keeps (flitView x pl) s s := ⟨(RtrOnly.refl x l s).credit, .refl ..⟩
  unfold creditUp
  split
  · cases niAtPort s x port with
    | none => exact hsame
    | some q =>
      refine ⟨⟨rfl, fun _ _ _ => rfl, fun y _ => .of_eq rfl, fun m => ?_⟩, rfl⟩
      unfold SameNiButCredits
      dsimp only
      rw [getNi_updNi]
      split
      next h => subst h; rfl
      · rfl
  · cases neighbour s x port with
    | none => exact hsame
    | some q => exact owe_credit ..

end Sys2Proof.Machine
end

section
/-! SUPPORT. A flit arrives at a router (04 R66, R69, R71; 05 R93; 18 R389 to R391). -/

namespace Sys2Proof.Machine

/-! The flit is taken off its link and checked. -/

/-- The flit is off the link, which is announced no longer when it is empty (05 R94). -/
def flitTaken (s : State) (x : Nat) (pl : Plane) (port : Nat) (rest : List Flit) : State :=
  updPlane s pl x fun r => { r with link := mset r.link port rest, schn := if rest.isEmpty then mdel r.schn port else r.schn }

/-- It is counted, and the errors that its checks find too (04 R69; 18 R389). -/
def flitChecked (s : State) (x : Nat) (pl : Plane) (port : Nat) (f : Flit) (rest : List Flit) (g : FlitRx) : State :=
  rtrCheck (countIn (flitTaken s x pl port rest) x pl port f.msg) x pl port g .none

/-- The next flit on a link whose buffer has room arrives, unless a preset takes it (05 R93, R94). -/
theorem arriving_head {r : RtrPlane} {port : Nat} {schuss : Bool} {f : Flit} {rest : List Flit}
    (hroom : (bufOf r (16 * port + f.ch)).length < 4) (hschuss : f.ch = 0 → schuss = false) :
    arriving r port schuss [] (f :: rest) = some (f, rest) := by
  have hfree : (schuss && f.ch == 0) = false := by
    by_cases hch : f.ch = 0
    · simp [hschuss hch]
    · simp [hch]
  simp [arriving, hroom, hfree]

/-- With its control word sound a flit that arrives is checked, and enters the router (04 R69; 05 R93). -/
theorem exec_routerFlitArrive {s : State} {pl : Plane} {x : RtrId} {port : BitVec 4} {err : FlitErr} {f : Flit} {rest : List Flit} {k p : Nat}
    {g : FlitRx} (hk : k = x.toNat) (hp : p = port.toNat) (hrtr : isRtr s k = true) (hup : (getRtr s k).failed = false)
    (hlink : linkOf s k pl p = f :: rest) (hroom : (bufOf (planeOf (getRtr s k) pl) (16 * p + f.ch)).length < 4)
    (hschuss : f.ch = 0 → mgetD (planeOf (getRtr s k) pl).schn p false = false ∨ presetInto s k pl p (fcNow s) = false)
    (hctl : err.ctl = 0) (hg : g = flitRx f err.flip) : exec (.routerFlitArrive pl x port err) s =
      answer s (ueError (flitIn (flitChecked s k pl p f rest g) k pl p g) k pl p false (g.ues.length + (badHeader g).toNat)) := by
  subst hk hp hg
  have hhead := arriving_head (schuss := mgetD (planeOf (getRtr s x.toNat) pl).schn port.toNat false &&
    presetInto s x.toNat pl port.toNat (fcNow s)) (rest := rest) hroom fun hch => Bool.and_eq_false_iff.2 (hschuss hch)
  have hlinked : mgetD (planeOf (getRtr s x.toNat) pl).link port.toNat [] = f :: rest := hlink
  have hword : ∀ b, ctlRx f b err.ctl = (f.ch, .none) := fun b => by rw [hctl, ctlRx_clean]
  change execRouterFlitArrive pl x port err s = _
  unfold execRouterFlitArrive
  simp only [hrtr, hup, hlinked, hhead, hword]
  rfl

theorem flitTaken_only (s : State) (x : Nat) (pl : Plane) (port : Nat) (rest : List Flit) (l : List Nat) :
    RtrOnly x l s (flitTaken s x pl port rest) := .updRtr ..

/-- A taken flit is off its link, and the buffers are as they were. -/
theorem flitView_flitTaken (s : State) (x : Nat) (pl : Plane) (port : Nat) (rest : List Flit) :
    flitView x pl (flitTaken s x pl port rest) =
      (mset (planeOf (getRtr s x) pl).link port rest, (planeOf (getRtr s x) pl).buf, (getRtr s x).rx.ueTimes) := by
  unfold flitView flitTaken
  rw [planeOf_updPlane_same, rx_updPlane]

theorem evRtr_keepsFlits (s : State) {x e : Nat} (pl : Plane) (l : List Nat) (d : Nat) (hx : x < 64) (he : e < 32) :
    KeepsFlits x pl l s (evRtr s x e d) := (evRtr_noteOnly s d hx he).keepsFlits x pl l

theorem retCredits_keepsFlits (s : State) (x p : Nat) (pl plane : Plane) (m : Msg) (n : Nat) (l : List Nat) :
    KeepsFlits x plane l s (retCredits s p pl m n) := by
  unfold retCredits
  split
  · exact .updSpan ..
  · exact .refl ..

/-- The count of a flit taken from a span port gives its pool the credit back (12 R258). -/
theorem countIn_spec (s : State) {x : Nat} (pl : Plane) (port : Nat) (m : Msg) (l : List Nat) (hx : x < 64) :
    KeepsFlits x pl l s (countIn s x pl port m) ∧ (spanAt s x port = none → (countIn s x pl port m).spans = s.spans) := by
  unfold countIn
  extract_lets s1
  have hcount : NoteOnly s s1 := evRtr_noteOnly s _ hx (by decide)
  cases spanAt s x port with
  | none => exact ⟨hcount.keepsFlits .., fun _ => hcount.spans⟩
  | some q =>
    have hspanCount : KeepsFlits x pl l s1 (evRtr s1 x 28 1) := evRtr_keepsFlits s1 pl l 1 hx (by decide)
    exact ⟨(hcount.keepsFlits ..).trans (hspanCount.trans (retCredits_keepsFlits ..)), nofun⟩

/-- A corrected bit is counted at its wire, and a wire without a spare is reported (18 R389, R390). -/
theorem wireError_keepsFlits (s : State) (x : Nat) (pl : Plane) (port bit : Nat) :
    KeepsFlits x pl [aRtr x 0xC8, 0x500] s (wireError s x pl port false bit) := by
  unfold wireError
  extract_lets g k w pos s1
  have hwire : KeepsFlits x pl [aRtr x 0xC8, 0x500] s s1 := by
    refine .updRx x pl _ s port ?_
    exact fun _ => rfl
  have hflags : KeepsFlits x pl [aRtr x 0xC8, 0x500] s1 (setFlag (setFlag s1 (aRtr x 0xC8) 2) 0x500 1) :=
    (KeepsFlits.setFlag s1 2 (by simp)).trans (.setFlag _ 1 (by simp))
  exact .ite (hwire.trans (hflags.trans ((raiseG_noteOnly ..).keepsFlits ..))) hwire

/-- The words that the checks of a flit at router x write (04 R69; 18 R389, R390). -/
def checkWords (x : Nat) : List Nat := [aRtr x 0x38, aRtr x 0x10, aRtr x 0xC8, 0x500]

theorem rtrCheck_keepsFlits (s : State) {x : Nat} (pl : Plane) (port : Nat) (g : FlitRx) (hx : x < 64) :
    KeepsFlits x pl (checkWords x) s (rtrCheck s x pl port g .none) := by
  unfold rtrCheck
  extract_lets hs cs s1 s2
  have hcount : KeepsFlits x pl (checkWords x) s s1 :=
    (((KeepsFlits.incSat s _ (by simp [checkWords])).trans (evRtr_keepsFlits _ pl _ _ hx (by decide))).trans
      (evRtr_keepsFlits _ pl _ _ hx (by decide))).trans (evRtr_keepsFlits _ pl _ _ hx (by decide))
  have hwires : KeepsFlits x pl (checkWords x) s1 s2 :=
    (KeepsFlits.foldl (fun t b => wireError_keepsFlits t x pl port b) g.bits s1).mono (by simp [checkWords])
  exact .ite (hcount.trans hwires) ((hcount.trans hwires).trans (.setFlag _ 1 (by simp [checkWords])))

/-- A flit without an error is counted with no error. -/
theorem rtrCheck_clean (s : State) (x : Nat) (pl : Plane) (port : Nat) (f : Flit) :
    rtrCheck s x pl port { flit := f } .none = incSat s (aRtr x 0x38) 0 := rfl

theorem flitChecked_only (s : State) {x : Nat} (pl : Plane) (port : Nat) (f : Flit) (rest : List Flit) (g : FlitRx) (hx : x < 64) :
    KeepsFlits x pl (checkWords x) (flitTaken s x pl port rest) (flitChecked s x pl port f rest g) :=
  (countIn_spec _ pl port f.msg _ hx).1.trans (rtrCheck_keepsFlits _ pl port g hx)

theorem flitChecked_clean (s : State) {x : Nat} (pl : Plane) (port : Nat) (f : Flit) (rest : List Flit) (hx : x < 64) :
    KeepsFlits x pl [aRtr x 0x38] (flitTaken s x pl port rest) (flitChecked s x pl port f rest { flit := f }) := by
  rw [flitChecked, rtrCheck_clean]
  exact (countIn_spec _ pl port f.msg _ hx).1.trans (.incSat _ 0 (List.mem_singleton_self _))

end Sys2Proof.Machine
end

section
/-! SUPPORT. A header flit enters its buffer or is discarded, and the statement (04 R66, R69, R71; 05 R93; 06 R132; 18 R391). -/

namespace Sys2Proof.Machine

/-! Uncorrectable words are counted (18 R391). -/

theorem ueRecent_congr {s t : State} {l k : LinkRx} (htime : t.time = s.time) (hl : k.ueTimes = l.ueTimes) (key : Nat) :
    ueRecent t k key = ueRecent s l key := by
  have hframe : frameOf t = frameOf s := by unfold frameOf nowNs; rw [htime]
  unfold ueRecent
  rw [hframe, hl]

/-- Fewer than four uncorrectable words in 1,024 frames do not fail the link: they are counted. -/
theorem ueError_few {s : State} {x : Nat} {pl : Plane} {port count : Nat} (hx : x < 64)
    (hfew : count = 0 ∨ ueRecent s (getRtr s x).rx (linkKey pl port) + count < 4) :
    RtrOnly x [] s (ueError s x pl port false count) ∧ planeOf (getRtr (ueError s x pl port false count) x) pl = planeOf (getRtr s x) pl := by
  by_cases hcount : count = 0
  · rw [ueError, if_pos hcount]
    exact ⟨.refl .., rfl⟩
  have hrecent := hfew.resolve_left hcount
  have hnote := evRtr_noteOnly (e := 19) s count hx (by decide)
  have heq : ueError s x pl port false count =
      updRtr (evRtr s x 19 count) x fun r => { r with rx := ueCount s r.rx (linkKey pl port) count } := by
    unfold ueError
    rw [if_neg hcount]
    exact if_neg fun h => absurd h.1 (Nat.not_le.2 hrecent)
  rw [heq]
  refine ⟨(hnote.rtrOnly ..).trans (.updRtr ..), ?_⟩
  rw [getRtr_updRtr, if_pos rfl, planeOf_withRx, hnote.getRtr]

/-! What fails a header (04 R66, R69, R71). -/

theorem badHeader_clean {f : Flit} (hlen : f.msg.len.toNat ≤ 64) : badHeader { flit := f } = false := by
  simp [badHeader, Nat.not_lt.2 hlen]

theorem headerFails_clean {f : Flit} (hidx : f.idx = 0) (hlen : f.msg.len.toNat ≤ 64) :
    headerFails { flit := f } = !clsOk f.msg := by simp [headerFails, hidx, badHeader_clean hlen]

theorem badHeader_uncorrectable {g : FlitRx} (hidx : g.flit.idx = 0) (hhdr : g.hdr = .uncorrectable) : badHeader g = true := by
  simp [badHeader, hidx, hhdr]

/-! A message is discarded at a router. -/

/-- The words that a discard at router x writes: RTE_DISC_CNT, RTE_DISC_HDR and RTE_ERR (04 R66). -/
def discardWords (x : Nat) : List Nat := [aRtr x 0x30, aRtr x 0x48, aRtr x 0x10]

/-- The discard is counted, its header recorded, and its cause flagged. -/
theorem rteDiscard_spec (s : State) {x : Nat} (pl : Plane) (m : Msg) (flag : Option Nat) (hx : x < 64) :
    KeepsFlits x pl (discardWords x) s (rteDiscard s x m flag) ∧
      (rd (rteDiscard s x m flag) (aRtr x 0x30)).toNat = min 0xFFFFFFFF ((rd s (aRtr x 0x30)).toNat + 1) ∧
      rd (rteDiscard s x m flag) (aRtr x 0x48) = (msgHdr m false).extractLsb' 64 64 ∧
      rd (rteDiscard s x m flag) (aRtr x 0x10) = flag.elim (rd s (aRtr x 0x10)) fun i => rd s (aRtr x 0x10) ||| BitVec.ofNat 64 (1 <<< i) := by
  unfold rteDiscard
  extract_lets s1 s2 s3
  have hcount : NoteOnly s3 (evRtr s3 x 15 1) := evRtr_noteOnly s3 1 hx (by decide)
  have hword : ∀ off < 0x1000, rd (evRtr s3 x 15 1) (aRtr x off) = rd s3 (aRtr x off) := fun off ho => hcount.2.1 _ (noteWord_aRtr hx ho)
  have hlogged : KeepsFlits x pl (discardWords x) s s2 :=
    (KeepsFlits.incSat s 1 (by simp [discardWords])).trans (.wr _ _ (by simp [discardWords]))
  have hkept : KeepsFlits x pl (discardWords x) s s3 := by
    unfold s3
    cases flag with
    | none => exact hlogged
    | some i => exact hlogged.trans (.setFlag _ i (by simp [discardWords]))
  have hflagged : ∀ off, rd s3 (aRtr x off) =
      if off = 0x10 then flag.elim (rd s2 (aRtr x 0x10)) fun i => rd s2 (aRtr x 0x10) ||| BitVec.ofNat 64 (1 <<< i)
      else rd s2 (aRtr x off) := by
    intro off
    unfold s3
    cases flag with
    | none =>
      dsimp only [Option.elim_none]
      split
      next h => rw [h]
      · rfl
    | some i => simp [rd_setFlag, aRtr_inj]
  refine ⟨hkept.trans (hcount.keepsFlits ..), ?_, ?_, ?_⟩
  · rw [hword _ (by decide), hflagged]
    simp only [s2, s1, rd_wr, rd_incSat, aRtr_inj, Nat.reduceEqDiff, if_false, if_true, toNat_satAdd]
  · rw [hword _ (by decide), hflagged]
    simp only [s2, rd_wr_same, Nat.reduceEqDiff, if_false]
  · rw [hword _ (by decide), hflagged]
    simp only [s2, s1, rd_wr, rd_incSat, aRtr_inj, Nat.reduceEqDiff, if_false, if_true]

/-- A failing header's message is discarded, and the credit of the buffer place that it does not take goes back (05 R93). -/
theorem flitIn_discards {s : State} {x : Nat} {pl : Plane} {port : Nat} {g : FlitRx} (hx : x < 64) (hfail : headerFails g = true) :
    (RtrCredit x (discardWords x) s (flitIn s x pl port g) ∧ Keeps (flitView x pl) s (flitIn s x pl port g)) ∧
      (rd (flitIn s x pl port g) (aRtr x 0x30)).toNat = min 0xFFFFFFFF ((rd s (aRtr x 0x30)).toNat + 1) ∧
      rd (flitIn s x pl port g) (aRtr x 0x48) = (msgHdr g.flit.msg false).extractLsb' 64 64 ∧
      rd (flitIn s x pl port g) (aRtr x 0x10) = rd s (aRtr x 0x10) ||| BitVec.ofNat 64 (1 <<< if badHeader g then 2 else 0) := by
  rw [flitIn, if_pos hfail]
  unfold headerDiscard
  extract_lets f s1
  have hdiscard : KeepsFlits x pl (discardWords x) s s1 ∧ (rd s1 (aRtr x 0x30)).toNat = min 0xFFFFFFFF ((rd s (aRtr x 0x30)).toNat + 1) ∧
      rd s1 (aRtr x 0x48) = (msgHdr f.msg false).extractLsb' 64 64 ∧
      rd s1 (aRtr x 0x10) = rd s (aRtr x 0x10) ||| BitVec.ofNat 64 (1 <<< if badHeader g then 2 else 0) := by
    unfold s1
    cases badHeader g with
    | false =>
      simp only [Bool.false_eq_true, if_false]
      exact rteDiscard_spec s pl f.msg (some 0) hx
    | true =>
      simp only [if_true]
      obtain ⟨hkept, hcount, hlog, hflag⟩ := rteDiscard_spec (setFlag s (aRtr x 0x10) 2) pl f.msg none hx
      rw [rd_setFlag, if_neg fun h => absurd (aRtr_inj.1 h) (by decide)] at hcount
      rw [Option.elim_none, rd_setFlag, if_pos rfl] at hflag
      exact ⟨(KeepsFlits.setFlag s 2 (by simp [discardWords])).trans hkept, hcount, hlog, hflag⟩
  obtain ⟨hkept, hwords⟩ := hdiscard
  generalize hs2 : updPlane s1 pl x _ = s2
  have hdrops : KeepsFlits x pl (discardWords x) s1 s2 := by
    rw [← hs2]
    refine .updPlane x pl _ s1 fun r => ?_
    split <;> exact ⟨rfl, rfl⟩
  obtain ⟨hcredit, hflits⟩ := creditUp_credit s2 x pl port f.ch (discardWords x)
  have hword : ∀ off < 0x1000, rd (creditUp s2 x pl port f.ch) (aRtr x off) = rd s1 (aRtr x off) := fun off ho => by
    rw [(creditUp_credit s2 x pl port f.ch []).1.2.1 _ List.not_mem_nil (noteWord_aRtr hx ho), ← hs2, updPlane, rd_updRtr]
  rw [hword _ (by decide), hword _ (by decide), hword _ (by decide)]
  exact ⟨⟨((hkept.trans hdrops).1.credit).trans hcredit, (hkept.trans hdrops).2.trans hflits⟩, hwords⟩

end Sys2Proof.Machine
end

section
/-! SUPPORT. A header flit that passes its checks enters its buffer (05 R93; 06 R132; 10 R217), and the statement. -/

namespace Sys2Proof.Machine

/-! The header enters. -/

/-- The flit as its buffer holds it: a multicast copy that comes in here from outside has its root here (10 R217). -/
def buffered (s : State) (x port : Nat) (f : Flit) : Flit :=
  if f.ch = 7 ∧ (neighbour s x port).isNone then { f with msg := { f.msg with root := x } } else f

/-- A passing header joins its channel's buffer; a piste flit that no preset covered is counted (06 R132). -/
theorem headerIn_spec (s : State) {x : Nat} (pl : Plane) (port : Nat) (f : Flit) (hx : x < 64) :
    RtrOnly x [aRtr x 0x70] s (headerIn s x pl port f) ∧ (headerIn s x pl port f).spans = s.spans ∧
      (planeOf (getRtr (headerIn s x pl port f) x) pl).link = (planeOf (getRtr s x) pl).link ∧
      (planeOf (getRtr (headerIn s x pl port f) x) pl).buf =
        mset (planeOf (getRtr s x) pl).buf (16 * port + f.ch) (bufOf (planeOf (getRtr s x) pl) (16 * port + f.ch) ++ [buffered s x port f]) := by
  unfold headerIn presetMiss
  extract_lets key
  generalize hu : updPlane s pl x _ = u
  have hupd : RtrOnly x [aRtr x 0x70] s u := by rw [← hu]; exact .updRtr ..
  have hspans : u.spans = s.spans := by rw [← hu]; rfl
  have hplane : (planeOf (getRtr u x) pl).link = (planeOf (getRtr s x) pl).link ∧ (planeOf (getRtr u x) pl).buf =
      mset (planeOf (getRtr s x) pl).buf key (bufOf (planeOf (getRtr s x) pl) key ++ [buffered s x port f]) := by
    rw [← hu, planeOf_updPlane_same]
    exact ⟨rfl, rfl⟩
  have hmiss : RtrOnly x [aRtr x 0x70] u (incSat u (aRtr x 0x70) 1) := .wr u _ (List.mem_singleton_self _)
  have hcount : NoteOnly (incSat u (aRtr x 0x70) 1) (evRtr (incSat u (aRtr x 0x70) 1) x 9 1) := evRtr_noteOnly _ 1 hx (by decide)
  split
  · refine ⟨(hupd.trans hmiss).trans (hcount.rtrOnly ..), hcount.spans.trans hspans, ?_⟩
    rw [hcount.getRtr]
    exact hplane
  · exact ⟨hupd, hspans, hplane⟩

theorem flitIn_enters {s : State} {x port : Nat} {pl : Plane} {f : Flit} (hidx : f.idx = 0) (hlen : f.msg.len.toNat ≤ 64)
    (hcls : clsOk f.msg = true) : flitIn s x pl port { flit := f } = headerIn s x pl port f := by
  have hdrops : contDrops s x pl port f = false := by simp [contDrops, hidx]
  simp [flitIn, headerFails_clean hidx hlen, hcls, hdrops, hidx]

/-! What arrival does. -/

/-- A flit without error, when its header is judged: it is off its link, and the buffers are as they were. -/
theorem flitChecked_clean_spec (s : State) {x : Nat} (pl : Plane) (port : Nat) (f : Flit) (rest : List Flit) (hx : x < 64) :
    RtrOnly x [aRtr x 0x38] s (flitChecked s x pl port f rest { flit := f }) ∧
      flitView x pl (flitChecked s x pl port f rest { flit := f }) =
        (mset (planeOf (getRtr s x) pl).link port rest, (planeOf (getRtr s x) pl).buf, (getRtr s x).rx.ueTimes) ∧
      (spanAt s x port = none → (flitChecked s x pl port f rest { flit := f }).spans = s.spans) := by
  have hkept := flitChecked_clean s pl port f rest hx
  refine ⟨(flitTaken_only ..).trans hkept.1, Eq.trans hkept.2 (flitView_flitTaken ..), ?_⟩
  rw [flitChecked, rtrCheck_clean]
  exact (countIn_spec (flitTaken s x pl port rest) pl port f.msg [] hx).2

/-- A sound header that fits is off its link and at the end of its channel's buffer. -/
theorem arrival_enters {s t : State} {x port : Nat} {pl : Plane} {f : Flit} {rest : List Flit} (hx : x < 64)
    (ht : t = headerIn (flitChecked s x pl port f rest { flit := f }) x pl port f) :
    RtrOnly x [aRtr x 0x38, aRtr x 0x70] s t ∧ (spanAt s x port = none → t.spans = s.spans) ∧ linkOf t x pl port = rest ∧
      bufOf (planeOf (getRtr t x) pl) (16 * port + f.ch) = bufOf (planeOf (getRtr s x) pl) (16 * port + f.ch) ++ [buffered s x port f] ∧
      ∀ j, j ≠ 16 * port + f.ch → bufOf (planeOf (getRtr t x) pl) j = bufOf (planeOf (getRtr s x) pl) j := by
  obtain ⟨hchecked, hview, hspans⟩ := flitChecked_clean_spec s pl port f rest hx
  generalize flitChecked s x pl port f rest { flit := f } = u at ht hchecked hview hspans
  simp only [flitView, Prod.mk.injEq] at hview
  obtain ⟨hlinkU, hbufU, -⟩ := hview
  obtain ⟨henter, hspansIn, hlinkIn, hbufIn⟩ := headerIn_spec u pl port f hx
  have hroot : buffered u x port f = buffered s x port f := by unfold buffered; rw [hchecked.1]; rfl
  rw [bufOf, hbufU, hroot] at hbufIn
  rw [ht]
  refine ⟨(hchecked.mono (by simp)).trans (henter.mono (by simp)), fun h => hspansIn.trans (hspans h), ?_, ?_, fun j hj => ?_⟩
  · rw [linkOf, hlinkIn, hlinkU, mgetD_mset_same]
  · rw [bufOf, hbufIn, mgetD_mset_same, bufOf]
  · rw [bufOf, hbufIn, mgetD_mset_ne _ _ _ _ _ hj, bufOf]

/-- A flit whose header fails is discarded: it is off its link, no buffer changes, and the discard is counted, recorded and flagged. -/
theorem arrival_discards {s t u : State} {x port : Nat} {pl : Plane} {g : FlitRx} {rest : List Flit} {l : List Nat} {count : Nat} (hx : x < 64)
    (hfail : headerFails g = true) (hu : KeepsFlits x pl l (flitTaken s x pl port rest) u)
    (hfew : count = 0 ∨ ueRecent s (getRtr s x).rx (linkKey pl port) + count < 4)
    (ht : t = ueError (flitIn u x pl port g) x pl port false count) :
    RtrCredit x (l ++ discardWords x) s t ∧ linkOf t x pl port = rest ∧
      (∀ j, bufOf (planeOf (getRtr t x) pl) j = bufOf (planeOf (getRtr s x) pl) j) ∧
      (rd t (aRtr x 0x30)).toNat = min 0xFFFFFFFF ((rd u (aRtr x 0x30)).toNat + 1) ∧
      rd t (aRtr x 0x48) = (msgHdr g.flit.msg false).extractLsb' 64 64 ∧
      rd t (aRtr x 0x10) = rd u (aRtr x 0x10) ||| BitVec.ofNat 64 (1 <<< if badHeader g then 2 else 0) := by
  obtain ⟨⟨hcredit, hflits⟩, hcount, hlog, hflag⟩ := flitIn_discards (s := u) (port := port) (pl := pl) hx hfail
  have hview := Eq.trans hflits (Eq.trans hu.2 (flitView_flitTaken s x pl port rest))
  simp only [flitView, Prod.mk.injEq] at hview
  obtain ⟨hlink, hbuf, hues⟩ := hview
  have htime : (flitIn u x pl port g).time = s.time := by rw [hcredit.1, hu.1.1]; rfl
  obtain ⟨hend, hplane⟩ := ueError_few (pl := pl) (port := port) (s := flitIn u x pl port g) hx (by rwa [ueRecent_congr htime hues])
  have hword : ∀ off < 0x1000, rd t (aRtr x off) = rd (flitIn u x pl port g) (aRtr x off) := fun off ho => by
    rw [ht]
    exact hend.2.1 _ List.not_mem_nil (noteWord_aRtr hx ho)
  rw [hword _ (by decide), hword _ (by decide), hword _ (by decide)]
  refine ⟨?_, ?_, fun j => ?_, hcount, hlog, hflag⟩
  · have hstart := ((flitTaken_only s x pl port rest l).trans hu.1).mono (List.subset_append_left l (discardWords x))
    rw [ht]
    exact (hstart.credit.trans (hcredit.mono (List.subset_append_right ..))).trans (hend.mono (List.nil_subset _)).credit
  · rw [linkOf, ht, hplane, hlink, mgetD_mset_same]
  · rw [bufOf, ht, hplane, hbuf, bufOf]

/-- Settles O11: a sound header that fits is put at the end of its buffer, any other is discarded with its place given back. -/
theorem headerFlitEntersItsBuffer : Obligations.HeaderFlitEntersItsBuffer := by
  unfold Obligations.HeaderFlitEntersItsBuffer
  intro s pl x port err f rest k p ch key hk hp hch hkey hrtr hup hlink hroom hidx hchk hschuss
  subst hch hkey
  have hx : k < 64 := hk ▸ x.isLt
  have hexec := fun (g : FlitRx) (hctl : err.ctl = 0) (hg : g = flitRx f err.flip) =>
    exec_routerFlitArrive hk hp hrtr hup hlink hroom hschuss hctl hg
  have hclean : err = .clean → ({ flit := f } : FlitRx) = flitRx f err.flip := fun h => by rw [h]; exact (flitRx_clean f hchk).symm
  refine ⟨fun hcls hlen herr => ?_, fun hcls hlen herr => ?_, fun g hctl hg hhdr hgidx hfew => ?_⟩
  · have hexec := hexec _ (by rw [herr]; rfl) (hclean herr)
    rw [badHeader_clean hlen, flitIn_enters hidx hlen hcls] at hexec
    obtain ⟨honly, hspans, hlinked, hjoined, hothers⟩ := arrival_enters (s := s) (pl := pl) (port := p) (f := f) (rest := rest) hx rfl
    have ⟨hall, hwords, hrtr, hni⟩ := honly
    exact completes_of_rtrCredit hexec honly.credit ⟨hlinked, hjoined, hothers, hrtr, hni, hwords, hspans, hall⟩
  · have hexec := hexec _ (by rw [herr]; rfl) (hclean herr)
    have hfail : headerFails { flit := f } = true := by rw [headerFails_clean hidx hlen, hcls]; rfl
    have hkept := (flitChecked_clean_spec s pl p f rest hx).1.2.1
    have hword : ∀ off < 0x1000, off ≠ 0x38 → rd (flitChecked s k pl p f rest { flit := f }) (aRtr k off) = rd s (aRtr k off) :=
      fun off ho hne => hkept _ (by simpa [aRtr_inj] using hne) (noteWord_aRtr hx ho)
    rw [badHeader_clean hlen] at hexec
    generalize ht : ueError (flitIn _ k pl p _) k pl p false _ = t at hexec
    obtain ⟨hcredit, hlinked, hbufs, hcount, hlog, hflag⟩ :=
      arrival_discards hx hfail (flitChecked_clean s pl p f rest hx) (.inl rfl) ht.symm
    rw [hword _ (by decide) (by decide)] at hcount hflag
    rw [badHeader_clean hlen] at hflag
    have ⟨_, hwords, hrtr, hni⟩ := hcredit
    exact completes_of_rtrCredit hexec hcredit ⟨hlinked, hbufs, hcount, hflag, hlog, hrtr, hni, hwords⟩
  · have hexec := hexec g hctl hg
    have hbad := badHeader_uncorrectable hgidx hhdr
    have hfail : headerFails g = true := by simp [headerFails, hgidx, hbad]
    have hchecked := flitChecked_only s pl p f rest g hx
    have hkept : rd (flitChecked s k pl p f rest g) (aRtr k 0x30) = rd s (aRtr k 0x30) :=
      ((flitTaken_only ..).trans hchecked.1).2.1 _ (by simp [checkWords, aRtr_inj]; unfold aRtr; omega) (noteWord_aRtr hx (by decide))
    rw [hbad] at hexec
    generalize ht : ueError (flitIn _ k pl p _) k pl p false _ = t at hexec
    obtain ⟨hcredit, hlinked, hbufs, hcount, -, hflag⟩ := arrival_discards hx hfail hchecked (.inr hfew) ht.symm
    rw [hkept] at hcount
    have hflagged : bitOf (rd t (aRtr k 0x10)) 2 = true := by
      rw [hflag, hbad, if_pos rfl]
      exact bitOf_or_flag _ (by decide)
    have hlisted : checkWords k ++ discardWords k ⊆ [aRtr k 0x38, aRtr k 0x30, aRtr k 0x48, aRtr k 0x10, aRtr k 0xC8, 0x500] := by
      simp [checkWords, discardWords]
    obtain ⟨-, hwords, hrtr, hni⟩ := hcredit.mono hlisted
    exact completes_of_rtrCredit hexec hcredit ⟨hlinked, hbufs, hcount, hflagged, hrtr, hni, hwords⟩

end Sys2Proof.Machine
end

section
/-! SUPPORT. What the commands at a router's outputs count, and how a flit crosses to the neighbour (05 R91 to R94, R109). -/

namespace Sys2Proof.Machine

/-! A command that writes the listed words, and what notifications and event counts write. -/

/-- t differs from s in the listed words, and in what notifications and event counts write. -/
def CountOnly (l : List Nat) (s t : State) : Prop :=
  t = { s with regs := t.regs, nis := t.nis, ntf := t.ntf, flt := { s.flt with log := t.flt.log } } ∧ NotedBut l s t ∧ ∀ m, SameNi s t m

theorem CountOnly.refl (l : List Nat) (s : State) : CountOnly l s s := ⟨rfl, fun _ _ _ => rfl, fun m => .refl s m⟩

theorem CountOnly.trans {l : List Nat} {s t u : State} (h : CountOnly l s t) (k : CountOnly l t u) : CountOnly l s u := by
  obtain ⟨hall, hwords, hni⟩ := h
  obtain ⟨kall, kwords, kni⟩ := k
  refine ⟨?_, fun a ha hn => (kwords a ha hn).trans (hwords a ha hn), fun m => (hni m).trans (kni m)⟩
  rw [kall]
  conv_lhs => rw [hall]

theorem CountOnly.ite {l : List Nat} {c : Prop} [Decidable c] {s t u : State} (ht : CountOnly l s t) (hu : CountOnly l s u) :
    CountOnly l s (if c then t else u) := by split <;> assumption

theorem NoteOnly.countOnly {s t : State} (h : NoteOnly s t) (l : List Nat) : CountOnly l s t := ⟨h.1, fun a _ => h.2.1 a, h.2.2⟩

theorem CountOnly.incSat {a : Nat} {l : List Nat} (s : State) (d : Nat) (h : a ∈ l) : CountOnly l s (incSat s a d) :=
  ⟨rfl, fun b hb _ => rd_wr_ne s a b _ fun e => hb (e ▸ h), fun m => .refl s m⟩

theorem CountOnly.evRtr (s : State) {x e : Nat} (d : Nat) (l : List Nat) (hx : x < 64) (he : e < 32) : CountOnly l s (evRtr s x e d) :=
  (evRtr_noteOnly s d hx he).countOnly l

theorem CountOnly.rtrs {l : List Nat} {s t : State} (h : CountOnly l s t) : t.rtrs = s.rtrs := by rw [h.1]

theorem CountOnly.spans {l : List Nat} {s t : State} (h : CountOnly l s t) : t.spans = s.spans := by rw [h.1]

theorem CountOnly.rtrOnly {l : List Nat} {s t : State} (h : CountOnly l s t) (x : Nat) : RtrOnly x l s t := by
  obtain ⟨hall, hwords, hni⟩ := h
  refine ⟨?_, hwords, fun y _ => ?_, hni⟩
  · rw [hall]
  · rw [hall]; rfl

theorem getRtr_congr {s t : State} (h : t.rtrs = s.rtrs) (y : Nat) : getRtr t y = getRtr s y := by rw [getRtr, h, getRtr]

theorem plNo_lt (pl : Plane) : plNo pl < 2 := by cases pl <;> decide

/-! A command that changes routers, NIs and span ports. -/

/-- The time, the engines, the journal and all else outside the mesh, its attachments, the words and the notifications stay. -/
def MeshFrame (s t : State) : Prop :=
  t = { s with
    regs := t.regs, rtrs := t.rtrs, nis := t.nis, spans := t.spans, ntf := t.ntf, flt := { s.flt with log := t.flt.log } }

theorem MeshFrame.trans {s t u : State} (h : MeshFrame s t) (k : MeshFrame t u) : MeshFrame s u := by
  unfold MeshFrame at *
  rw [k]
  conv_lhs => rw [h]

/-- With the span ports as they were they need not be named. -/
theorem MeshFrame.of_spans {s t : State} (h : MeshFrame s t) (hspans : t.spans = s.spans) :
    t = { s with regs := t.regs, rtrs := t.rtrs, nis := t.nis, ntf := t.ntf, flt := { s.flt with log := t.flt.log } } := by
  unfold MeshFrame at h
  rw [hspans] at h
  exact h

theorem RtrOnly.frame {x : Nat} {l : List Nat} {s t : State} (h : RtrOnly x l s t) : MeshFrame s t := h.1

theorem RtrCredit.frame {x : Nat} {l : List Nat} {s t : State} (h : RtrCredit x l s t) : MeshFrame s t := h.1

theorem completes_of_meshFrame {c : Instr} {s t : State} {P : State → Prop} (hexec : exec c s = answer s t) (h : MeshFrame s t) (hP : P t) :
    Completes c s P := by
  unfold MeshFrame at h
  exact completes_of_answer hexec (by rw [h]) (by rw [h]) (by rw [h]) hP

/-! Planes and neighbours. -/

theorem getRtr_updPlane_ne (s : State) (pl : Plane) {x y : Nat} (f : RtrPlane → RtrPlane) (h : y ≠ x) :
    getRtr (updPlane s pl x f) y = getRtr s y := by rw [updPlane, getRtr_updRtr, if_neg h]

@[simp] theorem failed_updPlane (s : State) (pl : Plane) (x y : Nat) (f : RtrPlane → RtrPlane) :
    (getRtr (updPlane s pl x f) y).failed = (getRtr s y).failed := by
  rw [updPlane, getRtr_updRtr]
  split
  next h => subst h; cases pl <;> rfl
  · rfl

/-- What a plane becomes depends on what it is alone. -/
theorem updPlane_congr {s : State} {pl : Plane} {x : Nat} {f g : RtrPlane → RtrPlane}
    (h : f (planeOf (getRtr s x) pl) = g (planeOf (getRtr s x) pl)) : updPlane s pl x f = updPlane s pl x g := by
  unfold getRtr at h
  unfold updPlane updRtr mupd
  cases pl <;> (dsimp only [planeOf] at h ⊢; rw [h])

/-- Only credits owed differ: the flits on a plane's links are the same. -/
theorem SameRtrButOwed.link {s t : State} {y : Nat} (h : SameRtrButOwed s t y) (pl : Plane) :
    (planeOf (getRtr t y) pl).link = (planeOf (getRtr s y) pl).link := by rw [h]; cases pl <;> rfl

theorem SameRtrButOwed.failed {s t : State} {y : Nat} (h : SameRtrButOwed s t y) : (getRtr t y).failed = (getRtr s y).failed := by rw [h]

/-- Which router lies behind a port is a matter of the profile alone. -/
theorem neighbour_congr {s t : State} (h : MeshFrame s t) (x port : Nat) : neighbour t x port = neighbour s x port := by rw [h]; rfl

/-- Mesh and express ports have the codes 0 to 5 (05 Table 05.1). -/
theorem neighbour_port_lt {s : State} {x port : Nat} {q : Nat × Nat} (h : neighbour s x port = some q) : port < 6 := by
  unfold neighbour at h
  split at h
  case h_7 => cases h
  all_goals decide

/-- No link leads from a router to itself. -/
theorem neighbour_ne {s : State} {x port y inp : Nat} (h : neighbour s x port = some (y, inp)) : y ≠ x := by
  have hcols : nCols s = 8 ∨ nCols s = 4 := by
    unfold nCols
    cases s.gen.profile <;> simp
  unfold neighbour rtrAt rtrCol rtrRow at h
  split at h
  case h_7 => cases h
  all_goals
    simp only [Option.ite_none_right_eq_some, Option.some.injEq, Prod.mk.injEq] at h
    rcases hcols with hc | hc <;> rw [hc] at h <;> omega

/-! Credits and crossings. -/

/-- A place freed at router x is none of router x's credits: an NI, a span port or the router upstream has it (05 R93). -/
theorem creditUp_self (s : State) (x : Nat) (pl : Plane) (port ch : Nat) :
    getRtr (creditUp s x pl port ch) x = getRtr s x ∧ (creditUp s x pl port ch).spans = s.spans := by
  unfold creditUp
  split
  · cases niAtPort s x port <;> exact ⟨rfl, rfl⟩
  · cases hn : neighbour s x port with
    | none => exact ⟨rfl, rfl⟩
    | some q =>
      dsimp only
      unfold owe
      split
      · exact ⟨rfl, rfl⟩
      · exact ⟨getRtr_updPlane_ne s pl _ (neighbour_ne hn).symm, rfl⟩

/-- A flit that crosses to a neighbour is on its link behind those under way (05 R93). -/
theorem sendOut_mesh {s : State} {x out y inp : Nat} (pl : Plane) (f : Flit) (err : FlitErr) (hx : x < 64)
    (hn : neighbour s x out = some (y, inp)) (hup : (getRtr s y).failed = false) :
    RtrOnly y [] s (sendOut s x pl out f err) ∧ (sendOut s x pl out f err).spans = s.spans ∧
      planeOf (getRtr (sendOut s x pl out f err) y) pl =
        { planeOf (getRtr s y) pl with link := mset (planeOf (getRtr s y) pl).link inp (linkOf s y pl inp ++ [f]) } := by
  unfold sendOut
  rw [hn]
  simp only [hup, Bool.false_eq_true, if_false]
  generalize hu : updPlane s pl y _ = u
  have hcount := evRtr_noteOnly (e := 24) u (if out = 4 ∨ out = 5 then 1 else 0) hx (by decide)
  have hput : RtrOnly y [] s u := by rw [← hu]; exact .updRtr ..
  refine ⟨hput.trans (hcount.rtrOnly ..), hcount.spans.trans ?_, ?_⟩
  · rw [← hu]; rfl
  · rw [hcount.getRtr, ← hu, planeOf_updPlane_same]
    rfl

end Sys2Proof.Machine
end

section
/-! SUPPORT. Credits that a back channel returns, and a header that has waited for its escape channel (05 R91, R92, R102). -/

namespace Sys2Proof.Machine

/-! A back-channel word. -/

/-- An output's credits on one channel are set: those of its other channels, and of other outputs, are as they were. -/
theorem outCredit_mset {r t : RtrPlane} {o ch v : Nat} (ho : o < 10) (hch : ch ≤ 8) (ht : t.credits = mset r.credits (16 * o + ch) v) :
    outCredit t o ch = v ∧ ∀ q h, h ≤ 8 → (q, h) ≠ (o, ch) → outCredit t q h = outCredit r q h := by
  unfold outCredit
  rw [ht]
  refine ⟨?_, fun q h hh hne => ?_⟩
  · rw [if_neg (by omega), mgetD_mset_same]
  · have hkey : 16 * q + h ≠ 16 * o + ch := fun e => hne (Prod.ext (by dsimp only; omega) (by dsimp only; omega))
    rw [mgetD_mset_ne _ _ _ _ _ hkey]

/-- The plane with as many of the credits that an output is owed as the word counts back at the output (05 R91). -/
def creditsReturned (o ch c : Nat) (r : RtrPlane) : RtrPlane :=
  { r with
    credits := mset r.credits (16 * o + ch) (outCredit r o ch + min c (mgetD r.owed (16 * o + ch) 0))
    owed := mset r.owed (16 * o + ch) (mgetD r.owed (16 * o + ch) 0 - min c (mgetD r.owed (16 * o + ch) 0)) }

/-- A sound word whose count is in range, and does not exceed what the channel can owe, returns credits (05 R91, R92). -/
theorem exec_linkCreditReturn {s : State} {pl : Plane} {x : RtrId} {out : BitVec 4} {w : BitVec 16} {d c ch k o : Nat} (hk : k = x.toNat)
    (ho : o = out.toNat) (hrtr : isRtr s k = true) (hup : (getRtr s k).failed = false) (hout : o < 10) (hw : ctlDecode w = (d, .none))
    (hvalid : d / 1024 % 2 = 1) (hc : c = d / 8 % 8) (hc1 : 1 ≤ c) (hc4 : c ≤ 4) (hch : ch = d / 64 % 16) (hch8 : ch ≤ 8)
    (hroom : outCredit (planeOf (getRtr s k) pl) o ch + c ≤ 4) :
    exec (.linkCreditReturn pl x out w) s = answer s (updPlane s pl k (creditsReturned o ch c)) := by
  subst hk ho hc hch
  change execLinkCreditReturn pl x out w s = _
  have hfits : ¬ (d / 1024 % 2 = 0 ∨ d / 8 % 8 = 0 ∨ 4 < d / 8 % 8 ∨ 8 < d / 64 % 16) := by omega
  have hpast : ¬ 4 < outCredit (planeOf (getRtr s x.toNat) pl) out.toNat (d / 64 % 16) + d / 8 % 8 := by omega
  have hin : ¬ 10 ≤ out.toNat := by omega
  unfold execLinkCreditReturn
  simp only [hrtr, hup, hin, hw, hfits, hpast, Bool.not_true, Bool.or_self, decide_false, Bool.false_eq_true, if_false, reduceCtorEq]
  exact congrArg (answer s) (updPlane_congr rfl)

/-- What the word gives is the lesser of its count and the credits owed; no other channel's credits change. -/
theorem creditsReturned_spec (o ch c : Nat) (r : RtrPlane) (ho : o < 10) (hch : ch ≤ 8) :
    outCredit (creditsReturned o ch c r) o ch = outCredit r o ch + min c (mgetD r.owed (16 * o + ch) 0) ∧
      mgetD (creditsReturned o ch c r).owed (16 * o + ch) 0 = mgetD r.owed (16 * o + ch) 0 - c ∧
      ∀ q h, h ≤ 8 → (q, h) ≠ (o, ch) → outCredit (creditsReturned o ch c r) q h = outCredit r q h := by
  obtain ⟨hcredit, hothers⟩ := outCredit_mset (r := r) (t := creditsReturned o ch c r) ho hch rfl
  have howed : mgetD (creditsReturned o ch c r).owed (16 * o + ch) 0 =
      mgetD r.owed (16 * o + ch) 0 - min c (mgetD r.owed (16 * o + ch) 0) := mgetD_mset_same ..
  refine ⟨hcredit, ?_, hothers⟩
  rw [howed]
  omega

/-! A header that has waited ESC_WAIT fc. -/

/-- The header at the head of a buffer has waited, and competes for its escape channel (05 R102). -/
def waitedAt (key : Nat) (g : Grant) (fcs : Nat) (r : RtrPlane) : RtrPlane :=
  { r with grant := mset r.grant key { g with waited := max 1 fcs } }

/-- A best-effort header on an adaptive channel, without a grant, has its wait recorded (05 R102). -/
theorem exec_escWaitExpire {s : State} {pl : Plane} {x : RtrId} {port ch : BitVec 4} {f : Flit} {rest : List Flit} {g : Grant} {k key : Nat}
    (hk : k = x.toNat) (hkey : key = 16 * port.toNat + ch.toNat) (hch : ch = 5 ∨ ch = 6)
    (hbuf : bufOf (planeOf (getRtr s k) pl) key = f :: rest) (hidx : f.idx = 0) (hcls : f.msg.cls = 0)
    (hg : g = mgetD (planeOf (getRtr s k) pl).grant key {}) (hout : g.out = 15) (hstay : g.discard = false) :
    exec (.escWaitExpire pl x port ch) s = answer s (updPlane s pl k (waitedAt key g (rdF s (aRtr k 8) 7 0))) := by
  subst hk hkey hg
  change execEscWaitExpire pl x port ch s = _
  unfold execEscWaitExpire
  simp only [hbuf]
  rw [if_pos ⟨hch, hidx, hout, hstay, hcls⟩]
  exact congrArg (answer s) (updPlane_congr rfl)

/-- Settles O13: the word's count is in range, so the channel has what is owed of it; the header's grant records its wait. -/
theorem creditsReturnAndEscapeOpens : Obligations.CreditsReturnAndEscapeOpens := by
  unfold Obligations.CreditsReturnAndEscapeOpens
  refine ⟨?_, ?_⟩
  · intro s pl x out w d c ch k o hk ho hrtr hup hout hw hvalid hc hc1 hc4 hch hch8 hroom
    obtain ⟨hcredit, howed, hothers⟩ := creditsReturned_spec o ch c (planeOf (getRtr s k) pl) hout hch8
    refine completes_of_answer (exec_linkCreditReturn hk ho hrtr hup hout hw hvalid hc hc1 hc4 hch hch8 hroom) rfl rfl rfl ?_
    rw [planeOf_updPlane_same]
    exact ⟨hcredit, howed, hothers, fun y hy => getRtr_updPlane_ne s pl _ hy, rfl⟩
  · intro s pl x port ch f rest g k key hk hkey hch hbuf hidx hcls hg hout hstay
    refine completes_of_answer (exec_escWaitExpire hk hkey hch hbuf hidx hcls hg hout hstay) rfl rfl rfl ?_
    rw [planeOf_updPlane_same]
    exact ⟨mget_mset_same .., updPlane_congr rfl⟩

end Sys2Proof.Machine
end

section
/-! SUPPORT. The arbitration of an output, and the flit that wins it (05 R90, R93, R109). -/

namespace Sys2Proof.Machine

/-! The winner. -/

/-- Where the first j places give nothing and place j does, what place j gives comes first. -/
theorem filterMap_range_head {α : Type} {F : Nat → Option α} {n j : Nat} {v : α} (hj : j < n) (hnone : ∀ i, i < j → F i = none)
    (hv : F j = some v) : ∃ more, (List.range n).filterMap F = v :: more := by
  obtain ⟨m, rfl⟩ : ∃ m, n = j + (m + 1) := ⟨n - j - 1, by omega⟩
  have hbefore : (List.range j).filterMap F = [] := List.filterMap_eq_nil_iff.2 fun i hi => hnone i (List.mem_range.1 hi)
  rw [List.range_add, List.filterMap_append, hbefore, List.range_succ_eq_map, List.map_cons, Nat.add_zero, List.filterMap_cons_some hv]
  exact ⟨_, rfl⟩

/-- Of the inputs that can send, the first after the last winner comes first (05 R109). -/
theorem readyInputs_head {s : State} {x : Nat} {pl : Plane} {out j p : Nat} {v : Nat × Nat} (hj : j < 16)
    (hp : p = (mgetD (planeOf (getRtr s x) pl).lastIn out 15 + 1 + j) % 16)
    (hnone : ∀ i, i < j → inputPick s x pl out ((mgetD (planeOf (getRtr s x) pl).lastIn out 15 + 1 + i) % 16) = none)
    (hpick : inputPick s x pl out p = some v) : ∃ more, readyInputs s x pl out = (p, v) :: more := by
  unfold readyInputs
  rw [List.filterMap_map]
  refine filterMap_range_head hj (fun i hi => ?_) ?_
  · rw [Function.comp_apply, hnone i hi, Option.map_none]
  · rw [Function.comp_apply, ← hp, hpick, Option.map_some]

/-- The state in which the winner of a contest sends: a contest of two or more is counted. -/
def contested (s : State) (x : Nat) (pl : Plane) (more : List (Nat × Nat × Nat)) : State :=
  if more.isEmpty then s else evRtr s x (22 + plNo pl) 1

theorem contested_only (s : State) {x : Nat} (pl : Plane) (more : List (Nat × Nat × Nat)) (hx : x < 64) :
    CountOnly [aRtr x 0x40] s (contested s x pl more) :=
  .ite (.refl ..) (.evRtr s 1 _ hx (by have := plNo_lt pl; omega))

/-- At an output that leads to a neighbour and that no preset has in this fc, the winner sends its flit (05 R109). -/
theorem exec_routerFlitForward {s : State} {pl : Plane} {x : RtrId} {out : BitVec 4} {k o : Nat} {p ch c : Nat}
    {more : List (Nat × Nat × Nat)} {q : Nat × Nat} (err : FlitErr) (hk : k = x.toNat) (ho : o = out.toNat) (hrtr : isRtr s k = true)
    (hup : (getRtr s k).failed = false) (hgone : discardSteps s k pl = s) (hpre : presetAt s k pl o (fcNow s) = none)
    (hport : portUp s k pl o = true) (hn : neighbour s k o = some q) (hready : readyInputs s k pl o = (p, ch, c) :: more) (hch : ch ≠ 7) :
    exec (.routerFlitForward pl x out err) s = answer s (winFlit (contested s k pl more) k pl o p ch c err) := by
  subst hk ho
  have htakes : outTakes s x.toNat pl out.toNat = true := by
    have hmesh : ¬ 6 ≤ out.toNat := Nat.not_le.2 (neighbour_port_lt hn)
    simp [outTakes, hmesh]
  change execRouterFlitForward pl x out err s = _
  unfold execRouterFlitForward
  simp only [hrtr, hup, hgone, hpre, hport, htakes, hready, winAt, hch, Option.isSome_none, Bool.false_eq_true, if_false]
  rfl

/-! What winning does. -/

/-- The plane of an output that a flit wins on a channel: the grant and the channel's owner until the last flit, the credit, and the last
winners (05 R90, R109). -/
def planeWon (out port ch outCh : Nat) (f : Flit) (r : RtrPlane) : RtrPlane :=
  { r with
    grant := if f.gout.isSome then r.grant else if f.last then mdel r.grant (16 * port + ch)
      else mset r.grant (16 * port + ch) { (mgetD r.grant (16 * port + ch) {}) with out := out, ch := outCh, hdr := f.msg }
    owner := if f.gout.isSome then r.owner else if f.last then mdel r.owner (16 * out + outCh)
      else mset r.owner (16 * out + outCh) (16 * port + ch)
    credits := if out = 10 then r.credits else mset r.credits (16 * out + outCh) (outCredit r out outCh - 1)
    lastIn := mset r.lastIn out port, lastCh := mset r.lastCh port ch }

/-- The counts of a flit that wins: a header's grant on an adaptive or an escape channel, a header of the other epoch, the flit. -/
def winCounted (s : State) (x : Nat) (pl : Plane) (ch outCh : Nat) (f : Flit) : State :=
  let esc := decide ((ch = 5 ∨ ch = 6) ∧ 1 ≤ outCh ∧ outCh ≤ 4) && f.idx == 0
  let s2 := if f.idx = 0 ∧ (outCh = 5 ∨ outCh = 6) then evRtr s x (4 + plNo pl) 1 else s
  let s3 := if esc then evRtr (incSat s2 (aRtr x 0x40) 1) x (6 + plNo pl) 1 else s2
  let s4 := if f.idx = 0 ∧ f.msg.cls ≠ 1 ∧ f.msg.ep.toNat ≠ rtrEp s x then evRtr s3 x 30 1 else s3
  evRtr s4 x (plNo pl) 1

/-- The state in which the winning flit, its buffer place free, crosses to the output. -/
def winLeaving (s : State) (x : Nat) (pl : Plane) (out port ch outCh : Nat) (f : Flit) : State :=
  popBuf (winCounted (updPlane s pl x (planeWon out port ch outCh f)) x pl ch outCh f) x pl (16 * port + ch)

/-- The flit as it crosses, with its new channel's code (05 R93). -/
def onChannel (f : Flit) (c : Nat) : Flit := { f with ch := c, gout := none, msg := { f.msg with vcf := vcfOfChan c } }

theorem winFlit_eq {s : State} {x : Nat} {pl : Plane} {out port ch outCh : Nat} {f : Flit} {rest : List Flit} (err : FlitErr)
    (hbuf : bufOf (planeOf (getRtr s x) pl) (16 * port + ch) = f :: rest) :
    winFlit s x pl out port ch outCh err = sendOut (winLeaving s x pl out port ch outCh f) x pl out (onChannel f outCh) err := by
  unfold winFlit
  extract_lets key r
  have hhead : bufOf r key = f :: rest := hbuf
  rw [hhead]
  rfl

theorem winCounted_only (s : State) {x : Nat} (pl : Plane) (ch outCh : Nat) (f : Flit) (hx : x < 64) :
    CountOnly [aRtr x 0x40] s (winCounted s x pl ch outCh f) := by
  have hpl := plNo_lt pl
  have hcount : ∀ (t : State) (e : Nat), e < 32 → CountOnly [aRtr x 0x40] t (evRtr t x e 1) := fun t e he => .evRtr t 1 _ hx he
  unfold winCounted
  extract_lets esc s2 s3 s4
  have hadapt : CountOnly [aRtr x 0x40] s s2 := .ite (hcount s _ (by omega)) (.refl ..)
  have hesc : CountOnly [aRtr x 0x40] s2 s3 :=
    .ite ((CountOnly.incSat s2 1 (List.mem_singleton_self _)).trans (hcount _ _ (by omega))) (.refl ..)
  have hepoch : CountOnly [aRtr x 0x40] s3 s4 := .ite (hcount s3 _ (by omega)) (.refl ..)
  exact ((hadapt.trans hesc).trans hepoch).trans (hcount s4 _ (by omega))

/-- The head flit leaves its buffer: its router changes in nothing else, and the place is given back (05 R93). -/
theorem popBuf_spec (s : State) (x : Nat) (pl : Plane) (key : Nat) (l : List Nat) :
    RtrCredit x l s (popBuf s x pl key) ∧ (popBuf s x pl key).spans = s.spans ∧
      planeOf (getRtr (popBuf s x pl key) x) pl =
        { planeOf (getRtr s x) pl with buf := mset (planeOf (getRtr s x) pl).buf key (bufOf (planeOf (getRtr s x) pl) key).tail } := by
  unfold popBuf
  generalize hu : updPlane s pl x _ = u
  have hpop : RtrOnly x l s u := by rw [← hu]; exact .updRtr ..
  obtain ⟨hself, hspans⟩ := creditUp_self u x pl (key / 16) (key % 16)
  refine ⟨hpop.credit.trans (creditUp_credit u x pl _ _ l).1, hspans.trans ?_, ?_⟩
  · rw [← hu]; rfl
  · rw [hself, ← hu, planeOf_updPlane_same]

theorem winLeaving_spec (s : State) {x : Nat} (pl : Plane) (out port ch outCh : Nat) (f : Flit) (hx : x < 64) :
    RtrCredit x [aRtr x 0x40] s (winLeaving s x pl out port ch outCh f) ∧ (winLeaving s x pl out port ch outCh f).spans = s.spans ∧
      planeOf (getRtr (winLeaving s x pl out port ch outCh f) x) pl =
        { planeWon out port ch outCh f (planeOf (getRtr s x) pl) with
          buf := mset (planeOf (getRtr s x) pl).buf (16 * port + ch) (bufOf (planeOf (getRtr s x) pl) (16 * port + ch)).tail } := by
  unfold winLeaving
  generalize hu : updPlane s pl x (planeWon out port ch outCh f) = u
  have hwon : RtrOnly x [aRtr x 0x40] s u := by rw [← hu]; exact .updRtr ..
  have hcount := winCounted_only u pl ch outCh f hx
  obtain ⟨hpop, hspans, hplane⟩ := popBuf_spec (winCounted u x pl ch outCh f) x pl (16 * port + ch) [aRtr x 0x40]
  refine ⟨(hwon.trans (hcount.rtrOnly x)).credit.trans hpop, (hspans.trans hcount.spans).trans ?_, ?_⟩
  · rw [← hu]; rfl
  · rw [hplane, getRtr_congr hcount.rtrs, ← hu, planeOf_updPlane_same]
    rfl

/-- The credit is spent. -/
theorem outCredit_planeWon {out outCh : Nat} (port ch : Nat) (f : Flit) (r : RtrPlane) (hout : out ≠ 10) :
    outCredit (planeWon out port ch outCh f r) out outCh = outCredit r out outCh - 1 := by
  simp [planeWon, outCredit, hout]

/-- The channel belongs to the message until its last flit (05 R90). -/
theorem owner_planeWon (out port ch outCh : Nat) (f : Flit) (r : RtrPlane) :
    mget (planeWon out port ch outCh f r).owner (16 * out + outCh) =
      if f.gout.isSome then mget r.owner (16 * out + outCh) else if f.last then none else some (16 * port + ch) := by
  dsimp only [planeWon]
  split_ifs
  · rfl
  · exact mget_mdel_same ..
  · exact mget_mset_same ..

/-- t differs from s in routers x and y, in the listed words, in credits owed and given, and in what notifications and event counts write. -/
def CrossOnly (x y : Nat) (l : List Nat) (s t : State) : Prop :=
  MeshFrame s t ∧ NotedBut l s t ∧ (∀ z, z ≠ x → z ≠ y → SameRtrButOwed s t z) ∧ ∀ m, SameNiButCredits s t m

theorem RtrCredit.cross {x y : Nat} {l : List Nat} {s t u : State} (h : RtrCredit x l s t) (k : RtrOnly y [] t u) : CrossOnly x y l s u := by
  obtain ⟨hall, hwords, hrtr, hni⟩ := h
  obtain ⟨kall, kwords, krtr, kni⟩ := k
  exact ⟨MeshFrame.trans hall kall, fun a ha hn => (kwords a List.not_mem_nil hn).trans (hwords a ha hn),
    fun z hx hy => (hrtr z hx).trans (.of_eq (krtr z hy)), fun m => (hni m).trans (kni m).butCredits⟩

/-- The winner's router has the output won and the buffer place free, and the neighbour has the flit on its link (05 R93, R109). -/
theorem winner_crosses {s t : State} {x : Nat} {pl : Plane} {out port ch outCh y inp : Nat} {f : Flit} {rest : List Flit}
    {more : List (Nat × Nat × Nat)} {err : FlitErr} (hx : x < 64) (hn : neighbour s x out = some (y, inp)) (hup : (getRtr s y).failed = false)
    (hbuf : bufOf (planeOf (getRtr s x) pl) (16 * port + ch) = f :: rest)
    (ht : t = winFlit (contested s x pl more) x pl out port ch outCh err) :
    CrossOnly x y [aRtr x 0x40] s t ∧ t.spans = s.spans ∧
      planeOf (getRtr t x) pl = { planeWon out port ch outCh f (planeOf (getRtr s x) pl) with
        buf := mset (planeOf (getRtr s x) pl).buf (16 * port + ch) rest } ∧
      linkOf t y pl inp = linkOf s y pl inp ++ [onChannel f outCh] := by
  have hy := neighbour_ne hn
  have hcontest := contested_only s pl more hx
  have hsame := getRtr_congr hcontest.rtrs x
  rw [winFlit_eq err (by rw [hsame]; exact hbuf)] at ht
  obtain ⟨hleave, hspans, hplane⟩ := winLeaving_spec (contested s x pl more) pl out port ch outCh f hx
  rw [hsame, hbuf, List.tail_cons] at hplane
  generalize winLeaving (contested s x pl more) x pl out port ch outCh f = u at ht hleave hspans hplane
  have hleft := (hcontest.rtrOnly x).credit.trans hleave
  have howed := hleft.2.2.1 y hy
  obtain ⟨hcross, hcrossSpans, hcrossPlane⟩ := sendOut_mesh pl (onChannel f outCh) err hx
    ((neighbour_congr hleft.frame x out).trans hn) (howed.failed.trans hup)
  rw [← ht] at hcross hcrossSpans hcrossPlane
  refine ⟨hleft.cross hcross, (hcrossSpans.trans hspans).trans hcontest.spans, ?_, ?_⟩
  · rw [hcross.2.2.1 x hy.symm, hplane]
  · rw [linkOf, hcrossPlane, mgetD_mset_same, linkOf, howed.link, linkOf]

/-- Settles O12: the winner's plane has spent the credit and freed the place, and only then the flit crosses to the neighbour. -/
theorem outputForwardsRoundRobinWinner : Obligations.OutputForwardsRoundRobinWinner := by
  unfold Obligations.OutputForwardsRoundRobinWinner
  intro s pl x out err k o j p ch c y inp f rest r hk ho hr hrtr hup hgone hpre hport hn hupY hj hp hnone hpick hbuf hch
  subst hr
  have hx : k < 64 := hk ▸ x.isLt
  have hout : o ≠ 10 := by have := neighbour_port_lt hn; omega
  obtain ⟨more, hready⟩ := readyInputs_head hj hp hnone hpick
  have hexec := exec_routerFlitForward err hk ho hrtr hup hgone hpre hport hn hready hch
  generalize ht : winFlit (contested s k pl more) k pl o p ch c err = t at hexec
  obtain ⟨⟨hframe, hwords, hrtrs, hni⟩, hspans, hplane, hlink⟩ := winner_crosses hx hn hupY hbuf ht.symm
  refine completes_of_meshFrame hexec hframe ⟨hlink, ?_, ?_, ?_, ?_, hni, hrtrs, hwords, hframe.of_spans hspans⟩ <;> rw [hplane]
  · exact mgetD_mset_same ..
  · exact outCredit_planeWon p ch f _ hout
  · exact mgetD_mset_same ..
  · exact owner_planeWon ..

end Sys2Proof.Machine
end

section
/-! SUPPORT. The schuss pass, and the release of a reserved fc (05 R94, R108; 06 R131). -/

namespace Sys2Proof.Machine

/-! A reserved fc without its flit. -/

theorem takeFirst_none {α : Type} {p : α → Bool} : ∀ {l : List α}, (∀ a ∈ l, p a = false) → takeFirst l p = (none, l)
  | [], _ => rfl
  | a :: l, h => by
    have hrest := takeFirst_none fun b hb => h b (List.mem_cons_of_mem a hb)
    simp [takeFirst, h a List.mem_cons_self, hrest]

/-- A preset fc whose flit SCHN did not announce, or that is not on the link, is released (05 R108). -/
theorem exec_schussPass_released {s : State} {pl : Plane} {x : RtrId} {out : BitVec 4} {fc : BitVec 12} {err eject : FlitErr} {e : Preset}
    {k o : Nat} (hk : k = x.toNat) (ho : o = out.toNat) (hrtr : isRtr s k = true) (hup : (getRtr s k).failed = false)
    (htakes : outTakes s k pl o = true) (hpre : presetAt s k pl o fc.toNat = some e)
    (hnone : mgetD (planeOf (getRtr s k) pl).schn e.inp false = false ∨ ∀ f ∈ linkOf s k pl e.inp, f.ch ≠ 0) :
    exec (.schussPass pl x out fc err eject) s = answer s (evRtr (incSat s (aRtr k 0x68) 1) k 8 1) := by
  subst hk ho
  change execSchussPass pl x out fc err eject s = _
  unfold execSchussPass
  simp only [hrtr, hup, htakes, hpre]
  refine congrArg (answer s) ?_
  rcases hnone with hquiet | hempty
  · simp only [hquiet]
    rfl
  · have htaken := takeFirst_none (p := fun f : Flit => f.ch == 0) fun f hf => beq_false_of_ne (hempty f hf)
    rw [linkOf] at htaken
    simp only [htaken]
    cases mgetD (planeOf (getRtr s x.toNat) pl).schn e.inp false <;> rfl

/-! The pass. -/

/-- The flit is off the link, which stays announced while another piste flit is on it (05 R94). -/
def schussTaken (port : Nat) (rest : List Flit) (r : RtrPlane) : RtrPlane :=
  { r with link := mset r.link port rest, schn := if rest.any (fun g => g.ch == 0) then r.schn else mdel r.schn port }

/-- The flits behind a header that passes follow it (06 R132). -/
def schussHeld (port out : Nat) (f : Flit) (r : RtrPlane) : RtrPlane :=
  { r with gOut := if f.idx = 0 then mset r.gOut port out else r.gOut }

/-- The flit has come off its link, and its check found no error (04 R69). -/
def schussChecked (s : State) (x : Nat) (pl : Plane) (port : Nat) (f : Flit) (rest : List Flit) : State :=
  incSat (countIn (updPlane s pl x (schussTaken port rest)) x pl port f.msg) (aRtr x 0x38) 0

/-- The state in which it crosses, counted as a flit of the plane and as a schuss flit. -/
def schussLeaving (s : State) (x : Nat) (pl : Plane) (port out : Nat) (f : Flit) (rest : List Flit) : State :=
  evRtr (evRtr (updPlane (schussChecked s x pl port f rest) pl x (schussHeld port out f)) x (2 + plNo pl) 1) x (plNo pl) 1

/-- The neighbour's input is announced the flit that crosses to it (05 R94). -/
def announced (s : State) (pl : Plane) (y inp : Nat) : State := updPlane s pl y fun r => { r with schn := mset r.schn inp true }

theorem countIn_rtrs (s : State) {x : Nat} (pl : Plane) (port : Nat) (m : Msg) (hx : x < 64) : (countIn s x pl port m).rtrs = s.rtrs := by
  unfold countIn
  extract_lets s1
  have hcount : s1.rtrs = s.rtrs := (evRtr_noteOnly s _ hx (by decide)).rtrs
  cases spanAt s x port with
  | none => exact hcount
  | some q =>
    have hspanCount : (evRtr s1 x 28 1).rtrs = s1.rtrs := (evRtr_noteOnly s1 1 hx (by decide)).rtrs
    dsimp only [retCredits]
    split <;> exact hspanCount.trans hcount

/-- The router has the flit off its link, and all else of it is as it was. -/
theorem schussChecked_spec (s : State) {x : Nat} (pl : Plane) (port : Nat) (f : Flit) (rest : List Flit) (hx : x < 64) :
    RtrOnly x [aRtr x 0x38] s (schussChecked s x pl port f rest) ∧
      planeOf (getRtr (schussChecked s x pl port f rest) x) pl = schussTaken port rest (planeOf (getRtr s x) pl) ∧
      (spanAt s x port = none → (schussChecked s x pl port f rest).spans = s.spans) := by
  unfold schussChecked
  generalize hu : updPlane s pl x (schussTaken port rest) = u
  have htake : RtrOnly x [aRtr x 0x38] s u := by rw [← hu]; exact .updRtr ..
  obtain ⟨hcount, hspans⟩ := countIn_spec u pl port f.msg [aRtr x 0x38] hx
  have hce : CountOnly [aRtr x 0x38] (countIn u x pl port f.msg) (incSat (countIn u x pl port f.msg) (aRtr x 0x38) 0) :=
    .incSat _ 0 (List.mem_singleton_self _)
  refine ⟨(htake.trans hcount.1).trans (hce.rtrOnly x), ?_, fun h => hce.spans.trans ?_⟩
  · rw [getRtr_congr (hce.rtrs.trans (countIn_rtrs u pl port f.msg hx)), ← hu, planeOf_updPlane_same]
  · subst hu
    exact hspans h

/-- The router also has its header's output held; its buffers and credits are as they were. -/
theorem schussLeaving_spec (s : State) {x : Nat} (pl : Plane) (port out : Nat) (f : Flit) (rest : List Flit) (hx : x < 64) :
    RtrOnly x [aRtr x 0x38] s (schussLeaving s x pl port out f rest) ∧
      planeOf (getRtr (schussLeaving s x pl port out f rest) x) pl =
        schussHeld port out f (schussTaken port rest (planeOf (getRtr s x) pl)) ∧
      (spanAt s x port = none → (schussLeaving s x pl port out f rest).spans = s.spans) := by
  obtain ⟨hchecked, hplane, hspans⟩ := schussChecked_spec s pl port f rest hx
  unfold schussLeaving
  generalize hu : updPlane (schussChecked s x pl port f rest) pl x (schussHeld port out f) = u
  have hpl := plNo_lt pl
  have hcount : NoteOnly u (evRtr (evRtr u x (2 + plNo pl) 1) x (plNo pl) 1) :=
    (evRtr_noteOnly u 1 hx (by omega)).trans (evRtr_noteOnly _ 1 hx (by omega))
  have hheld : RtrOnly x [aRtr x 0x38] (schussChecked s x pl port f rest) u := by rw [← hu]; exact .updRtr ..
  refine ⟨(hchecked.trans hheld).trans (hcount.rtrOnly ..), ?_, fun h => hcount.spans.trans ?_⟩
  · rw [hcount.getRtr, ← hu, planeOf_updPlane_same, hplane]
  · rw [← hu]
    exact hspans h

/-- What the check of a flit received without error finds: a header that fits, or none. -/
theorem header_sound {f : Flit} (hfits : f.idx = 0 → clsOk f.msg = true ∧ f.msg.len.toNat ≤ 64) :
    badHeader { flit := f } = false ∧ headerFails { flit := f } = false := by
  by_cases hidx : f.idx = 0
  · obtain ⟨hcls, hlen⟩ := hfits hidx
    exact ⟨badHeader_clean hlen, by rw [headerFails_clean hidx hlen, hcls]; rfl⟩
  · simp [badHeader, headerFails, hidx]

/-- A flit that passes its checks crosses a preset output in its reserved fc, its neighbour announced (05 R94; 06 R131). -/
theorem exec_schussPass_passes {s : State} {pl : Plane} {x : RtrId} {out : BitVec 4} {fc : BitVec 12} {eject : FlitErr} {e : Preset}
    {k o y inp : Nat} {f : Flit} {rest : List Flit} (hk : k = x.toNat) (ho : o = out.toNat) (hrtr : isRtr s k = true)
    (hup : (getRtr s k).failed = false) (htakes : outTakes s k pl o = true) (hpre : presetAt s k pl o fc.toNat = some e)
    (hschn : mgetD (planeOf (getRtr s k) pl).schn e.inp false = true)
    (htake : takeFirst (linkOf s k pl e.inp) (fun f => f.ch == 0) = (some f, rest)) (hchk : f.chk = 0)
    (hfits : f.idx = 0 → clsOk f.msg = true ∧ f.msg.len.toNat ≤ 64) (hdrops : contDrops s k pl e.inp f = false)
    (hport : portUp s k pl o = true) (hn : neighbour s k o = some (y, inp)) (hupY : (getRtr s y).failed = false) :
    exec (.schussPass pl x out fc .clean eject) s =
      answer s (sendOut (announced (schussLeaving s k pl e.inp o f rest) pl y inp) k pl o f eject) := by
  subst hk ho
  have hx := x.isLt
  obtain ⟨hbad, hsound⟩ := header_sound hfits
  have hkeeps : contDrops (schussChecked s x.toNat pl e.inp f rest) x.toNat pl e.inp f = false := by
    rw [contDrops, (schussChecked_spec s pl e.inp f rest hx).2.1]
    exact hdrops
  have hword : ∀ b, ctlRx f b FlitErr.clean.ctl = (f.ch, .none) := ctlRx_clean f
  have hflit : flitRx f FlitErr.clean.flip = { flit := f } := flitRx_clean f hchk
  rw [linkOf] at htake
  change execSchussPass pl x out fc .clean eject s = _
  unfold execSchussPass
  simp only [hrtr, hup, htakes, hpre, hschn, htake, hword, hflit, hbad, hsound, rtrCheck_clean]
  unfold schussChecked schussTaken at hkeeps
  simp only [hkeeps, hport, hn, hupY, reduceCtorEq, if_false, if_true, Bool.false_eq_true, Bool.not_true, Bool.or_self,
    List.length_nil, Bool.toNat_false]
  rw [ueError, if_pos rfl]
  rfl

/-- The flit is off its link and on the neighbour's, which is announced it; no buffer and no credit of the router changes (05 R94). -/
theorem schussPass_crosses {s t : State} {x : Nat} {pl : Plane} {port out y inp : Nat} {f : Flit} {rest : List Flit} {eject : FlitErr}
    (hx : x < 64) (hn : neighbour s x out = some (y, inp)) (hup : (getRtr s y).failed = false)
    (ht : t = sendOut (announced (schussLeaving s x pl port out f rest) pl y inp) x pl out f eject) :
    (MeshFrame s t ∧ NotedBut [aRtr x 0x38] s t ∧ (∀ z, z ≠ x → z ≠ y → getRtr t z = getRtr s z) ∧ ∀ m, SameNi s t m) ∧
      (spanAt s x port = none → t.spans = s.spans) ∧
      planeOf (getRtr t x) pl = schussHeld port out f (schussTaken port rest (planeOf (getRtr s x) pl)) ∧
      linkOf t y pl inp = linkOf s y pl inp ++ [f] ∧ mgetD (planeOf (getRtr t y) pl).schn inp false = true := by
  have hy := neighbour_ne hn
  obtain ⟨hleave, hplane, hspans⟩ := schussLeaving_spec s pl port out f rest hx
  generalize schussLeaving s x pl port out f rest = u at ht hleave hplane hspans
  have hsame := hleave.2.2.1 y hy
  have hannounce : RtrOnly y [] u (announced u pl y inp) := .updRtr ..
  have hplaneY : planeOf (getRtr (announced u pl y inp) y) pl =
      { planeOf (getRtr s y) pl with schn := mset (planeOf (getRtr s y) pl).schn inp true } := by
    rw [announced, planeOf_updPlane_same, hsame]
  have hupY : (getRtr (announced u pl y inp) y).failed = false := by rw [announced, failed_updPlane, hsame, hup]
  obtain ⟨hcross, hcrossSpans, hcrossPlane⟩ := sendOut_mesh pl f eject hx
    ((neighbour_congr (hleave.frame.trans hannounce.frame) x out).trans hn) hupY
  rw [← ht] at hcross hcrossSpans hcrossPlane
  obtain ⟨hall, hwords, hrtrs, hni⟩ := hannounce.trans hcross
  refine ⟨⟨hleave.frame.trans hall, fun a ha hnote => (hwords a List.not_mem_nil hnote).trans (hleave.2.1 a ha hnote),
    fun z hzx hzy => (hrtrs z hzy).trans (hleave.2.2.1 z hzx), fun m => (hleave.2.2.2 m).trans (hni m)⟩,
    fun h => hcrossSpans.trans (hspans h), ?_, ?_, ?_⟩
  · rw [hrtrs x hy.symm, hplane]
  · rw [linkOf, hcrossPlane, mgetD_mset_same, linkOf, hplaneY, linkOf]
  · rw [hcrossPlane, hplaneY]
    exact mgetD_mset_same ..

/-- Settles O14: the announced flit goes from link to link past the buffers; without one the reserved fc is counted, and nothing else. -/
theorem schussFlitPassesWithoutBuffer : Obligations.SchussFlitPassesWithoutBuffer := by
  unfold Obligations.SchussFlitPassesWithoutBuffer
  intro s pl x out fc err eject e k o hk ho hrtr hup htakes hpre
  have hx : k < 64 := hk ▸ x.isLt
  refine ⟨fun f rest y inp hschn htake herr hchk hfits hdrops hport hn hy hupY => ?_, fun hnone => ?_⟩
  · subst herr
    have hexec := exec_schussPass_passes (eject := eject) hk ho hrtr hup htakes hpre hschn htake hchk hfits hdrops hport hn hupY
    generalize ht : sendOut (announced (schussLeaving s k pl e.inp o f rest) pl y inp) k pl o f eject = t at hexec
    obtain ⟨⟨hframe, hwords, hrtrs, hni⟩, hspans, hplane, hlink, hannounced⟩ := schussPass_crosses hx hn hupY ht.symm
    refine completes_of_meshFrame hexec hframe ⟨?_, hlink, hannounced, ?_, ?_, hrtrs, hni, hwords, hspans, hframe⟩
    · rw [linkOf, hplane]
      exact mgetD_mset_same ..
    · rw [hplane]
      rfl
    · rw [hplane]
      rfl
  · have hexec := exec_schussPass_released (err := err) (eject := eject) hk ho hrtr hup htakes hpre hnone
    have hevent := evRtr_noteOnly (e := 8) (incSat s (aRtr k 0x68) 1) 1 hx (by decide)
    have hcount := (CountOnly.incSat s 1 (List.mem_singleton_self (aRtr k 0x68))).trans (hevent.countOnly _)
    refine completes_of_meshFrame hexec (hcount.rtrOnly k).frame ⟨?_, hcount.2.1, hcount.2.2, hcount.1⟩
    rw [hevent.2.1 _ (noteWord_aRtr hx (by decide)), rd_incSat, if_pos rfl, toNat_satAdd]

end Sys2Proof.Machine
end

section
/-! SUPPORT. The admitted flows (06 R119; for O60), and that the functions of Machine/Ops to Machine/AddrDec leave them as they are. -/

namespace Sys2Proof.Machine

/-- The admitted flows (06 R119). -/
def flowsOf (s : State) : Map Flow := s.eng.flows

@[simp] theorem eng_flows (s : State) : s.eng.flows = flowsOf s := (rfl)

@[simp] theorem flowsOf_mk (gen time regs pendT nis rtrs spans eng jrn img pwr rst flt mmx cnt lcs ntf free pending) :
    flowsOf (.mk gen time regs pendT nis rtrs spans eng jrn img pwr rst flt mmx cnt lcs ntf free pending) = eng.flows := (rfl)

@[simp] theorem flowsOf_ite (c : Prop) [Decidable c] (s t : State) :
    flowsOf (if c then s else t) = if c then flowsOf s else flowsOf t := apply_ite flowsOf c s t

@[simp] theorem flowsOf_foldl {α : Type} {f : State → α → State} (h : ∀ t x, flowsOf (f t x) = flowsOf t) (l : List α) (s : State) :
    flowsOf (l.foldl f s) = flowsOf s := by
  induction l generalizing s with
  | nil => rfl
  | cons x l ih => exact (ih _).trans (h s x)

@[simp] theorem flowsOf_foldl_snd {α β : Type} {f : β × State → α → β × State} (h : ∀ r x, flowsOf (f r x).2 = flowsOf r.2) (l : List α)
    (r : β × State) : flowsOf (l.foldl f r).2 = flowsOf r.2 := by
  induction l generalizing r with
  | nil => rfl
  | cons x l ih => exact (ih _).trans (h r x)

/-- An outcome that, where it is a next state, has the flows of s. -/
structure OutFlows (s : State) (o : Host.Outcome State Fault Refusal) : Prop where
  flows : ∀ t, o = .next t → flowsOf t = flowsOf s

theorem OutFlows.answer {s u : State} (h : flowsOf u = flowsOf s) : OutFlows s (answer s u) := by
  refine ⟨?_⟩
  rintro t ⟨⟩
  exact h

/-- A step of a queued command keeps the flows. -/
def StepKeepsFlows (f : State → Cmd → Sub × State) : Prop := ∀ s c, flowsOf (f s c).2 = flowsOf s

theorem StepKeepsFlows.of_eq {f : State → Cmd → Sub × State} (h : StepKeepsFlows f) {s t : State} {c : Cmd} {r : Sub}
    (hstep : f s c = (r, t)) : flowsOf t = flowsOf s := by rw [← h s c, hstep]

/-- Taking an answer of a job keeps the flows. -/
def AnsKeepsFlows (f : AnsFn) : Prop := ∀ s k j second fa data r, f s k j second fa data = some r → flowsOf r.2 = flowsOf s

/-- Making a request of a job keeps the flows. -/
def IssueKeepsFlows (f : IssueFn) : Prop := ∀ s k j r, f s k j = some r → flowsOf r.2 = flowsOf s

/-- What a failed request does to its job keeps the flows. -/
def BadKeepsFlows (f : State → Job → Bool → Nat → Job × State) : Prop := ∀ s j second fa, flowsOf (f s j second fa).2 = flowsOf s

/-! The functions of Machine/Ops. -/

@[simp] theorem flowsOf_wr (s : State) (a : Nat) (v : Word) : flowsOf (wr s a v) = flowsOf s := by simp [wr]
@[simp] theorem flowsOf_wrF (s : State) (a hi lo v : Nat) : flowsOf (wrF s a hi lo v) = flowsOf s := by simp [wrF]
@[simp] theorem flowsOf_setFlag (s : State) (a i : Nat) : flowsOf (setFlag s a i) = flowsOf s := by simp [setFlag]
@[simp] theorem flowsOf_incSat (s : State) (a d : Nat) : flowsOf (incSat s a d) = flowsOf s := by simp [incSat]
@[simp] theorem flowsOf_setNi (s : State) (n : Nat) (v : Ni) : flowsOf (setNi s n v) = flowsOf s := by simp [setNi]
@[simp] theorem flowsOf_updNi (s : State) (n : Nat) (f : Ni → Ni) : flowsOf (updNi s n f) = flowsOf s := by simp [updNi]
@[simp] theorem flowsOf_updPort (s : State) (n : Nat) (f : Port → Port) : flowsOf (updPort s n f) = flowsOf s := by simp [updPort]
@[simp] theorem flowsOf_updRtr (s : State) (x : Nat) (f : Rtr → Rtr) : flowsOf (updRtr s x f) = flowsOf s := by simp [updRtr]
@[simp] theorem flowsOf_updPlane (s : State) (p : Plane) (x : Nat) (f : RtrPlane → RtrPlane) :
    flowsOf (updPlane s p x f) = flowsOf s := by simp [updPlane]
@[simp] theorem flowsOf_updSpan (s : State) (p : Nat) (f : Span → Span) : flowsOf (updSpan s p f) = flowsOf s := by simp [updSpan]
@[simp] theorem flowsOf_takeFree (s : State) : flowsOf (takeFree s).2 = flowsOf s := by simp [takeFree]
@[simp] theorem flowsOf_portNote (s : State) (n sev : Nat) (r : Word) : flowsOf (portNote s n sev r) = flowsOf s := by simp [portNote]
@[simp] theorem flowsOf_fwdNote (s : State) (e : Note) : flowsOf (fwdNote s e) = flowsOf s := by simp [fwdNote]
@[simp] theorem flowsOf_logNote (s : State) (e : Note) : flowsOf (logNote s e) = flowsOf s := by simp [logNote]

@[simp] theorem flowsOf_routeNote (s : State) (e : Note) : flowsOf (routeNote s e) = flowsOf s := by
  unfold routeNote
  split <;> simp

@[simp] theorem flowsOf_keepLast (u t : State) (g : Nat) : flowsOf (keepLast u t g) = flowsOf t := by simp [keepLast]
@[simp] theorem flowsOf_fireThr (i old new : Nat) (s : State) (j : Nat) : flowsOf (fireThr i old new s j) = flowsOf s := by simp [fireThr]
@[simp] theorem flowsOf_bump (s : State) (i d : Nat) : flowsOf (bump s i d) = flowsOf s := by simp [bump]
@[simp] theorem flowsOf_evRtr (s : State) (x e d : Nat) : flowsOf (evRtr s x e d) = flowsOf s := by simp [evRtr]
@[simp] theorem flowsOf_evNi (s : State) (n e d : Nat) : flowsOf (evNi s n e d) = flowsOf s := by simp [evNi]
@[simp] theorem flowsOf_evSpn (s : State) (p e d : Nat) : flowsOf (evSpn s p e d) = flowsOf s := by simp [evSpn]
@[simp] theorem flowsOf_evEng (s : State) (g e d : Nat) : flowsOf (evEng s g e d) = flowsOf s := by simp [evEng]
@[simp] theorem flowsOf_raise (s : State) (e : Note) : flowsOf (raise s e) = flowsOf s := by simp [raise]
@[simp] theorem flowsOf_raiseG (s : State) (unit code sev info : Nat) :
    flowsOf (raiseG s unit code sev info) = flowsOf s := by simp [raiseG]
@[simp] theorem flowsOf_raiseNi (s : State) (n code sev info slice : Nat) :
    flowsOf (raiseNi s n code sev info slice) = flowsOf s := by simp [raiseNi]
@[simp] theorem flowsOf_raiseGFree (s : State) (unit code sev : Nat) :
    flowsOf (raiseGFree s unit code sev) = flowsOf s := by simp [raiseGFree]
@[simp] theorem flowsOf_raiseNiFree (s : State) (n code sev slice : Nat) :
    flowsOf (raiseNiFree s n code sev slice) = flowsOf s := by simp [raiseNiFree]

/-! The functions of Machine/NiCore. -/

@[simp] theorem flowsOf_stampMsg (s : State) (n : Nat) (m : Msg) : flowsOf (stampMsg s n m).2 = flowsOf s := by simp [stampMsg]
@[simp] theorem flowsOf_addProg (s : State) (n : Nat) (alt : Bool) (p : Plane) (ch : Nat) (fs : List Flit) :
    flowsOf (addProg s n alt p ch fs) = flowsOf s := by simp [addProg]

theorem flowsOf_startOwn {s t : State} {n : Nat} {o : OwnMsg} (h : startOwn s n o = some t) : flowsOf t = flowsOf s := by
  obtain ⟨q, -, rfl⟩ := Option.map_eq_some_iff.mp h
  simp

@[simp] theorem flowsOf_waitOwn (s : State) (n : Nat) (o : OwnMsg) : flowsOf (waitOwn s n o) = flowsOf s := by simp [waitOwn]

@[simp] theorem flowsOf_injectOwn (s : State) (n : Nat) (p : Plane) (m : Msg) (att : Option Bool) :
    flowsOf (injectOwn s n p m att) = flowsOf s := by
  unfold injectOwn
  dsimp only
  split
  · simp
  · cases h : startOwn s n ⟨p, m, att⟩ with
    | none => simp
    | some t => simpa using flowsOf_startOwn h

@[simp] theorem flowsOf_startOwns (s : State) (n : Nat) (p : Plane) : flowsOf (startOwns s n p) = flowsOf s := by simp [startOwns]

@[simp] theorem flowsOf_allocTrk (s : State) (n : Nat) (e : Trk) : flowsOf (allocTrk s n e).2 = flowsOf s := by
  unfold allocTrk
  split <;> simp

@[simp] theorem flowsOf_freeTrk (s : State) (n : Nat) (t : Tag) : flowsOf (freeTrk s n t) = flowsOf s := by simp [freeTrk]
@[simp] theorem flowsOf_pushErs (s : State) (n : Nat) (e : Egr) : flowsOf (pushErs s n e) = flowsOf s := by simp [pushErs]
@[simp] theorem flowsOf_pushErq (s : State) (n : Nat) (e : Egr) : flowsOf (pushErq s n e) = flowsOf s := by simp [pushErq]
@[simp] theorem flowsOf_sliceLog (s : State) (n k : Nat) (el1 el0 : Word) :
    flowsOf (sliceLog s n k el1 el0) = flowsOf s := by simp [sliceLog]
@[simp] theorem flowsOf_pwError (s : State) (n : Nat) (slice : Option Nat) (code stat opc tag addr : Nat) :
    flowsOf (pwError s n slice code stat opc tag addr) = flowsOf s := by simp [pwError]
@[simp] theorem flowsOf_niDiscard (s : State) (n : Nat) : flowsOf (niDiscard s n) = flowsOf s := by simp [niDiscard]
@[simp] theorem flowsOf_countStale (s : State) (n k : Nat) : flowsOf (countStale s n k) = flowsOf s := by simp [countStale]
@[simp] theorem flowsOf_defaultTarget (s : State) (n reason slice addr : Nat) :
    flowsOf (defaultTarget s n reason slice addr) = flowsOf s := by simp [defaultTarget]
@[simp] theorem flowsOf_wrSrcEnt (s : State) (n e : Nat) (v : BitVec 256) : flowsOf (wrSrcEnt s n e v) = flowsOf s := by simp [wrSrcEnt]
@[simp] theorem flowsOf_setHomeOut (s : State) (h : Nat) (l : List HomeWrite) :
    flowsOf (setHomeOut s h l) = flowsOf s := by simp [setHomeOut]
@[simp] theorem flowsOf_homeFail (s : State) (h fa : Nat) : flowsOf (homeFail s h fa) = flowsOf s := by simp [homeFail]
@[simp] theorem flowsOf_engAnswer (s : State) (code fa : Nat) (data : List Line) (stat : Nat) :
    flowsOf (engAnswer s code fa data stat) = flowsOf s := by simp [engAnswer]

/-! The functions of Machine/AddrDec. -/

@[simp] theorem flowsOf_sendFill (s : State) (n : Nat) (inst : BitVec 4) (x : BitVec 19) (tag : Tag) :
    flowsOf (sendFill s n inst x tag) = flowsOf s := by simp [sendFill]
@[simp] theorem flowsOf_etcNeed (s : State) (n : Nat) (inst : BitVec 4) (x : BitVec 19) :
    flowsOf (etcNeed s n inst x) = flowsOf s := by simp [etcNeed]

end Sys2Proof.Machine
end

section
/-! SUPPORT. The functions of an NI leave the admitted flows as they are (for O60). -/

namespace Sys2Proof.Machine

/-! The functions of Machine/Ingress. -/

@[simp] theorem flowsOf_portAnswer (s : State) (n : Nat) (acc err : Bool) (code : Nat) :
    flowsOf (portAnswer s n acc err code) = flowsOf s := by simp [portAnswer]
@[simp] theorem flowsOf_expectBeats (s : State) (n : Nat) (d : RxDest) (count start nbytes : Nat) (piste : Bool) :
    flowsOf (expectBeats s n d count start nbytes piste) = flowsOf s := by simp [expectBeats]
@[simp] theorem flowsOf_holdHeader (s : State) (n : Nat) (piste : Bool) : flowsOf (holdHeader s n piste) = flowsOf s := by simp [holdHeader]

@[simp] theorem flowsOf_takeError (s : State) (n : Nat) (slice : Option Nat) (h : IngHdr) (raw : BitVec 128) (code : Nat) :
    flowsOf (takeError s n slice h raw code) = flowsOf s := by
  unfold takeError
  dsimp only
  repeat' split
  all_goals simp

@[simp] theorem flowsOf_takeTele (s : State) (n k : Nat) (h : IngHdr) : flowsOf (takeTele s n k h) = flowsOf s := by simp [takeTele]
@[simp] theorem flowsOf_takePtm (s : State) (n k : Nat) (h : IngHdr) : flowsOf (takePtm s n k h) = flowsOf s := by simp [takePtm]
@[simp] theorem flowsOf_enqueueReq (s : State) (n : Nat) (r : Req) : flowsOf (enqueueReq s n r) = flowsOf s := by simp [enqueueReq]

@[simp] theorem flowsOf_takeBest (s : State) (n k : Nat) (h : IngHdr) (fa : Nat) (device : Bool) (d : Option Dest) :
    flowsOf (takeBest s n k h fa device d) = flowsOf s := by
  unfold takeBest
  extract_lets dst bgt group m0 m ovs fill req0 r0 r t s1 s2 s3
  have ht : flowsOf t.2 = flowsOf s := by
    simp only [t]
    split <;> simp
  have h2 : flowsOf s2 = flowsOf s := by
    simp only [s2, s1]
    split <;> simp [ht]
  have h3 : flowsOf s3 = flowsOf s := by
    clear_value fill
    simp only [s3]
    split <;> simp [h2]
  simp [h3]

@[simp] theorem flowsOf_takeForward (s : State) (n k : Nat) (h : IngHdr) (m : Msg) (data : List Line × Bool) :
    flowsOf (takeForward s n k h m data) = flowsOf s := by simp [takeForward]
@[simp] theorem flowsOf_takePisteReq (s : State) (n k e c : Nat) (h : IngHdr) (device : Bool) (m : Msg) :
    flowsOf (takePisteReq s n k e c h device m).2.2 = flowsOf s := by simp [takePisteReq]

@[simp] theorem flowsOf_takePiste (s : State) (n k e : Nat) (h : IngHdr) (fa : Nat) (device : Bool) (tk : PisteTake) :
    flowsOf (takePiste s n k e h fa device tk) = flowsOf s := by
  unfold takePiste
  split <;> simp

@[simp] theorem flowsOf_takeOk (s : State) (n k : Nat) (h : IngHdr) : flowsOf (takeOk s n k h) = flowsOf s := by
  unfold takeOk
  dsimp only
  repeat' split
  all_goals simp

@[simp] theorem flowsOf_judgeHeader (s : State) (n : Nat) (raw : BitVec 128) : flowsOf (judgeHeader s n raw) = flowsOf s := by
  unfold judgeHeader
  dsimp only
  repeat' split
  all_goals simp

theorem execIngressRequest_flows (n : NiId) (hdr : BitVec 128) (s : State) : OutFlows s (execIngressRequest n hdr s) := .answer (by simp)
@[simp] theorem flowsOf_pisteGap (s : State) (n flow : Nat) : flowsOf (pisteGap s n flow) = flowsOf s := by simp [pisteGap]

@[simp] theorem flowsOf_badEnables (s : State) (n id : Nat) : flowsOf (badEnables s n id) = flowsOf s := by
  unfold badEnables
  dsimp only
  repeat' split
  all_goals simp

@[simp] theorem flowsOf_rqBeat (s : State) (n : Nat) (data : Line) (be : BitVec 64) (gap : Bool) :
    flowsOf (rqBeat s n data be gap) = flowsOf s := by
  unfold rqBeat
  dsimp only
  repeat' split
  all_goals simp

@[simp] theorem flowsOf_rsBeat (s : State) (n : Nat) (data : Line) (gap : Bool) : flowsOf (rsBeat s n data gap) = flowsOf s := by
  unfold rsBeat
  dsimp only
  repeat' split
  all_goals simp

theorem execIngressDataBeat_flows (n : NiId) (rsp : Bool) (data : Line) (be : BitVec 64) (_last gap : Bool) (s : State) :
    OutFlows s (execIngressDataBeat n rsp data be _last gap s) := .answer (by simp)

theorem execFenceStrobe_flows (n : NiId) (rw pv : Bool) (pasid : BitVec 20) (id : BitVec 4) (s : State) :
    OutFlows s (execFenceStrobe n rw pv pasid id s) := .answer (by
  dsimp only
  split <;> simp)

theorem execFenceSatisfied_flows (n : NiId) (slice : BitVec 4) (s : State) : OutFlows s (execFenceSatisfied n slice s) := .answer (by
  dsimp only
  split
  · rfl
  · split
    · rfl
    · split
      · simp
      · split
        · split <;> simp
        · simp
      · simp)

/-! The functions of Machine/Egress. -/

@[simp] theorem flowsOf_pushAnswer (s : State) (n : Nat) (m : Msg) (opc stat gcnt : Nat) :
    flowsOf (pushAnswer s n m opc stat gcnt) = flowsOf s := by simp [pushAnswer]
@[simp] theorem flowsOf_pushRspOn (s : State) (n : Nat) (m : Msg) (beats : Nat) (att : Option Bool) :
    flowsOf (pushRspOn s n m beats att) = flowsOf s := by simp [pushRspOn]
@[simp] theorem flowsOf_pushRsp (s : State) (n : Nat) (m : Msg) (beats : Nat) :
    flowsOf (pushRsp s n m beats) = flowsOf s := by simp [pushRsp]
@[simp] theorem flowsOf_sendMemberAnswer (s : State) (n : Nat) (e : Member) (opc stat : Nat) :
    flowsOf (sendMemberAnswer s n e opc stat) = flowsOf s := by simp [sendMemberAnswer]

@[simp] theorem flowsOf_memberDrain (s : State) (n : Nat) : flowsOf (memberDrain s n) = flowsOf s := by
  refine flowsOf_foldl (fun t x => ?_) _ _
  dsimp only
  split <;> simp

@[simp] theorem flowsOf_rsTaken (s : State) (n : Nat) : flowsOf (rsTaken s n) = flowsOf s := by simp [rsTaken]
@[simp] theorem flowsOf_rsHeld (s : State) (n : Nat) : flowsOf (rsHeld s n) = flowsOf s := by simp [rsHeld]
@[simp] theorem flowsOf_expectRsp (s : State) (n : Nat) (d : RxDest) (count : Nat) (piste : Bool) :
    flowsOf (expectRsp s n d count piste) = flowsOf s := by simp [expectRsp]

theorem flowsOf_stageRsp {s t : State} {n e : Nat} {m : Msg} {pay lead : Nat} (h : stageRsp s n e m pay lead = some t) :
    flowsOf t = flowsOf s := by
  unfold stageRsp at h
  dsimp only at h
  split at h
  · cases h
  · rw [← Option.some.inj h]
    simp

@[simp] theorem flowsOf_rspBest (s : State) (n : Nat) (m : Msg) (beats : Nat) :
    flowsOf (rspBest s n m beats) = flowsOf s := by simp [rspBest]

@[simp] theorem flowsOf_rspRoute (s : State) (n : Nat) (h : IngRsp) (stat : Nat) : flowsOf (rspRoute s n h stat) = flowsOf s := by
  unfold rspRoute
  dsimp only
  split
  · split
    · split
      next hst => simp [flowsOf_stageRsp hst]
      · simp
    · split <;> simp
  · simp

@[simp] theorem flowsOf_birspIn (s : State) (n : Nat) (h : IngRsp) (stat : Nat) : flowsOf (birspIn s n h stat) = flowsOf s := by
  unfold birspIn
  dsimp only
  split <;> simp

@[simp] theorem flowsOf_d2hData (s : State) (n : Nat) (h : IngRsp) (stat : Nat) : flowsOf (d2hData s n h stat) = flowsOf s := by
  unfold d2hData
  split <;> simp

@[simp] theorem flowsOf_rspBad (s : State) (n : Nat) (h : IngRsp) : flowsOf (rspBad s n h) = flowsOf s := by simp [rspBad]
theorem execIngressResponse_flows (n : NiId) (hdr : BitVec 128) (s : State) : OutFlows s (execIngressResponse n hdr s) := .answer (by simp)
theorem execEgressCreditReturn_flows (n : NiId) (rsp : Bool) (hg hb dg db : BitVec 2) (s : State) :
    OutFlows s (execEgressCreditReturn n rsp hg hb dg db s) := .answer (by simp)

@[simp] theorem flowsOf_egrAfter (s : State) (n : Nat) (e : Egr) : flowsOf (egrAfter s n e) = flowsOf s := by
  unfold egrAfter
  repeat' split
  all_goals simp

theorem execEgressMessageStart_flows (n : NiId) (rsp : Bool) (s : State) : OutFlows s (execEgressMessageStart n rsp s) := .answer (by
  extract_lets m p gWait s1 count
  have h1 : flowsOf s1 = flowsOf s := by simp [s1]
  split
  · rfl
  · split <;> simp [h1])

theorem execNtfRecordTaken_flows (n : NiId) (s : State) : OutFlows s (execNtfRecordTaken n s) := .answer (by simp)

/-! The functions of Machine/Sched. -/

@[simp] theorem flowsOf_chargeQ (s : State) (n : Nat) (p : Plane) (q cost : Nat) :
    flowsOf (chargeQ s n p q cost) = flowsOf s := by simp [chargeQ]
@[simp] theorem flowsOf_fcBegin (s : State) (n : Nat) (p : Plane) : flowsOf (fcBegin s n p) = flowsOf s := by simp [fcBegin]
@[simp] theorem flowsOf_chargeSc (s : State) (n k cost : Nat) : flowsOf (chargeSc s n k cost) = flowsOf s := by simp [chargeSc]
@[simp] theorem flowsOf_roundEnd (s : State) (n : Nat) (p : Plane) : flowsOf (roundEnd s n p) = flowsOf s := by simp [roundEnd]
@[simp] theorem flowsOf_wakes (s : State) (n : Nat) (p : Plane) : flowsOf (wakes s n p) = flowsOf s := by simp [wakes]
@[simp] theorem flowsOf_sleeps (s : State) (n : Nat) (p : Plane) : flowsOf (sleeps s n p) = flowsOf s := by simp [sleeps]

@[simp] theorem flowsOf_issueReq (s : State) (n : Nat) (r : Req) (m : Msg) : flowsOf (issueReq s n r m).2 = flowsOf s := by
  unfold issueReq
  dsimp only
  repeat' split
  all_goals simp

theorem flowsOf_startHead {s : State} {n : Nat} {p : Plane} {q : Nat} {m : Msg} {ch : Nat} {r : Msg × State}
    (h : startHead s n p q m ch = some r) : flowsOf r.2 = flowsOf s := by
  cases p with
  | req =>
    obtain ⟨r, -, rfl⟩ := Option.map_eq_some_iff.mp h
    dsimp only
    split <;> simp
  | rsp =>
    rw [← Option.some.inj h]
    simp

@[simp] theorem flowsOf_startMsg (s : State) (n : Nat) (p : Plane) (q : Nat) (m : Msg) (alt : Bool) (ch : Nat) :
    flowsOf (startMsg s n p q m alt ch) = flowsOf s := by
  unfold startMsg
  split
  next h => simp [flowsOf_startHead h]
  · rfl

@[simp] theorem flowsOf_packHeads (s : State) (n : Nat) (p : Plane) (first : Msg) (ch : Nat) :
    flowsOf (packHeads s n p first ch).2 = flowsOf s := by
  unfold packHeads
  refine flowsOf_foldl_snd (fun t q => ?_) _ _
  split
  · rfl
  · split
    · split
      next h => simp [flowsOf_startHead h]
      · rfl
    · rfl

@[simp] theorem flowsOf_startPack (s : State) (n : Nat) (p : Plane) (q : Nat) (m : Msg) (alt : Bool) (ch : Nat) :
    flowsOf (startPack s n p q m alt ch) = flowsOf s := by
  unfold startPack
  dsimp only
  repeat' split
  all_goals simp

@[simp] theorem flowsOf_askFills (s : State) (n : Nat) : flowsOf (askFills s n) = flowsOf s := by
  unfold askFills
  refine flowsOf_foldl (fun t q => ?_) _ _
  split
  · split <;> simp
  · rfl

@[simp] theorem flowsOf_countHold (s : State) (n : Nat) : flowsOf (countHold s n) = flowsOf s := by simp [countHold]

theorem execMessageStart_flows (n : NiId) (pl : Plane) (s : State) : OutFlows s (execMessageStart n pl s) := .answer (by
  extract_lets m f s0 s1
  have h0 : flowsOf s0 = flowsOf s := by simp [s0, f]
  have h1 : flowsOf s1 = flowsOf s := by simp [s1, h0]
  split
  · rfl
  · split
    · simp [h1]
    · exact h1)

theorem flowsOf_answerGo {s t : State} {n : Nat} {a : Answer} (h : answerGo s n a = some t) : flowsOf t = flowsOf s := by
  unfold answerGo at h
  split at h
  · split at h
    · exact flowsOf_stageRsp h
    · split at h
      · cases h
      · rw [← Option.some.inj h]
        simp
  · split at h
    · cases h
    · rw [← Option.some.inj h]
      simp

theorem flowsOf_answerNext {s t : State} {n : Nat} {before after : List Answer} (h : answerNext s n before after = some t) :
    flowsOf t = flowsOf s := by
  induction after generalizing before with
  | nil => cases h
  | cons a rest ih =>
    unfold answerNext at h
    split at h
    next hgo =>
      rw [← Option.some.inj h, flowsOf_answerGo hgo, flowsOf_updNi]
    · exact ih h

theorem execAnswerListDequeue_flows (n : NiId) (s : State) : OutFlows s (execAnswerListDequeue n s) := .answer (by
  split
  next h => simp [flowsOf_answerNext h]
  · rfl)

@[simp] theorem flowsOf_toRouterOn (h : BitVec 32) (s : State) (alt : Bool) (p : Plane) (f : Flit) (ch : Nat) :
    flowsOf (toRouterOn h s alt p f ch) = flowsOf s := by simp [toRouterOn]
@[simp] theorem flowsOf_toRouter (s : State) (n : Nat) (alt : Bool) (p : Plane) (f : Flit) (ch : Nat) :
    flowsOf (toRouter s n alt p f ch) = flowsOf s := by simp [toRouter]

@[simp] theorem flowsOf_sendPiece (s : State) (n : Nat) (alt : Bool) (p : Plane) (g : Prog) (fuel : Nat) :
    flowsOf (sendPiece s n alt p g fuel).2 = flowsOf s := by
  induction fuel generalizing s g with
  | zero => rfl
  | succ fuel ih =>
    unfold sendPiece
    split
    · rfl
    · dsimp only
      split
      · rfl
      · simp [ih]

theorem execAttachmentPieceSend_flows (n : NiId) (alt : Bool) (pl : Plane) (s : State) :
    OutFlows s (execAttachmentPieceSend n alt pl s) := .answer (by
  dsimp only
  split
  · simp
  · split
    · simp
    · split <;> simp)

theorem execWheelBucketBegin_flows (n : NiId) (s : State) : OutFlows s (execWheelBucketBegin n s) := .answer (by simp)
@[simp] theorem flowsOf_launchLate (s : State) (n : Nat) : flowsOf (launchLate s n) = flowsOf s := by simp [launchLate]

theorem execPisteLaunch_flows (n : NiId) (pl : Plane) (s : State) : OutFlows s (execPisteLaunch n pl s) := .answer (by
  dsimp only
  split
  · rfl
  · split
    · rfl
    · split <;> simp)

@[simp] theorem flowsOf_deliverEnd (s : State) (n : Nat) (e : Trk) (g : Egr) (stat : Nat) (data : List Line) :
    flowsOf (deliverEnd s n e g stat data) = flowsOf s := by
  unfold deliverEnd
  split <;> simp

theorem execTrackerTimeout_flows (n : NiId) (tag : Tag) (s : State) : OutFlows s (execTrackerTimeout n tag s) := .answer (by
  dsimp only
  split <;> simp)

theorem execPwDeadline_flows (n : NiId) (tag : Tag) (s : State) : OutFlows s (execPwDeadline n tag s) := .answer (by
  dsimp only
  repeat' split
  all_goals simp)

theorem execMcQuarantineEnd_flows (n : NiId) (tag : Tag) (s : State) : OutFlows s (execMcQuarantineEnd n tag s) := .answer (by
  split
  · split
    · split <;> simp
    · rfl
  · rfl)

@[simp] theorem flowsOf_drainReg (s : State) (n : Nat) : flowsOf (drainReg s n) = flowsOf s := by simp [drainReg]
@[simp] theorem flowsOf_startDrain (s : State) (n : Nat) (discard : Bool) :
    flowsOf (startDrain s n discard) = flowsOf s := by simp [startDrain]
@[simp] theorem flowsOf_discardWrites (s : State) (n : Nat) (k : Option Nat) :
    flowsOf (discardWrites s n k).2 = flowsOf s := by simp [discardWrites]
theorem execDrainComplete_flows (n : NiId) (s : State) : OutFlows s (execDrainComplete n s) := .answer (by simp)
@[simp] theorem flowsOf_drainExpire (s : State) (m : Nat) : flowsOf (drainExpire s m) = flowsOf s := by simp [drainExpire]
theorem execDrainDeadline_flows (n : NiId) (s : State) : OutFlows s (execDrainDeadline n s) := .answer (by simp)

/-! The functions of Machine/NiRx. -/

@[simp] theorem flowsOf_deliverFlit (s : State) (n : Nat) (alt : Bool) (p : Plane) (f : Flit) :
    flowsOf (deliverFlit s n alt p f) = flowsOf s := by simp [deliverFlit]

/-- What the receive check keeps, whether the message is let in or dropped. -/
def RxKeepsFlows (s : State) : RxCheck → Prop
  | .pass _ t => flowsOf t = flowsOf s
  | .drop t => flowsOf t = flowsOf s

theorem rxCheck_keepsFlows (s : State) (n : Nat) (m : Msg) : RxKeepsFlows s (rxCheck s n m) := by
  unfold rxCheck
  split
  · simp [RxKeepsFlows]
  · split
    · simp [RxKeepsFlows]
    · split
      · simp [RxKeepsFlows]
      · dsimp only
        split <;> simp [RxKeepsFlows]

theorem flowsOf_rxCheck_pass {s t : State} {n : Nat} {m m' : Msg} (h : rxCheck s n m = .pass m' t) : flowsOf t = flowsOf s := by
  have hrx := rxCheck_keepsFlows s n m
  rwa [h] at hrx

theorem flowsOf_rxCheck_drop {s t : State} {n : Nat} {m : Msg} (h : rxCheck s n m = .drop t) : flowsOf t = flowsOf s := by
  have hrx := rxCheck_keepsFlows s n m
  rwa [h] at hrx

@[simp] theorem flowsOf_twinJudge (s : State) (n : Nat) (m : Msg) : flowsOf (twinJudge s n m).2 = flowsOf s := by
  unfold twinJudge
  split
  · rfl
  · split
    · rfl
    · split <;> simp

@[simp] theorem flowsOf_denyLog (s : State) (n : Nat) (m : Msg) (reason : Nat) : flowsOf (denyLog s n m reason) = flowsOf s := by
  unfold denyLog
  split <;> simp

@[simp] theorem flowsOf_presentReq (s : State) (n : Nat) (m : Msg) (addr : Nat) :
    flowsOf (presentReq s n m addr) = flowsOf s := by simp [presentReq]

@[simp] theorem flowsOf_mirrorWrite (s : State) (n : Nat) (m : Msg) (r : TbtRow) : flowsOf (mirrorWrite s n m r) = flowsOf s := by
  unfold mirrorWrite
  split <;> simp

@[simp] theorem flowsOf_snoopLog (s : State) (n : Nat) (m : Msg) (deny : Option Nat) (miss : Bool) :
    flowsOf (snoopLog s n m deny miss) = flowsOf s := by
  unfold snoopLog
  split <;> simp

@[simp] theorem flowsOf_unicastSnoop (s : State) (n : Nat) (m : Msg) : flowsOf (unicastSnoop s n m) = flowsOf s := by
  unfold unicastSnoop
  split <;> simp

@[simp] theorem flowsOf_ringPiPut (s : State) (q : Nat) (v : BitVec 12) : flowsOf (ringPiPut s q v) = flowsOf s := by simp [ringPiPut]
@[simp] theorem flowsOf_ringRciPut (s : State) (q : Nat) (v : BitVec 12) : flowsOf (ringRciPut s q v) = flowsOf s := by simp [ringRciPut]
@[simp] theorem flowsOf_atService (s : State) (n : Nat) (m : Msg) (a : Nat) : flowsOf (atService s n m a) = flowsOf s := by simp [atService]

@[simp] theorem flowsOf_atTarget (s : State) (n : Nat) (m : Msg) : flowsOf (atTarget s n m) = flowsOf s := by
  unfold atTarget
  dsimp only
  repeat' split
  all_goals simp

theorem execRequestArriveAtTarget_flows (n : NiId) (s : State) : OutFlows s (execRequestArriveAtTarget n s) := .answer (by
  dsimp only
  split
  · rfl
  · split
    · rfl
    · split
      next hrx => simp [flowsOf_rxCheck_drop hrx]
      next hrx =>
        split
        · simp [flowsOf_rxCheck_pass hrx]
        · split <;> simp [flowsOf_rxCheck_pass hrx])

@[simp] theorem flowsOf_ackPosted (s : State) (n : Nat) (tag : Tag) (e : Trk) :
    flowsOf (ackPosted s n tag e) = flowsOf s := by simp [ackPosted]

@[simp] theorem flowsOf_mirrorAck (s : State) (n : Nat) (k : BitVec 12 × Tag) : flowsOf (mirrorAck s n k) = flowsOf s := by
  unfold mirrorAck
  repeat' split
  all_goals simp

@[simp] theorem flowsOf_completeReq (s : State) (n : Nat) (tag : Tag) (e : Trk) (m : Msg) :
    flowsOf (completeReq s n tag e m) = flowsOf s := by simp [completeReq]
@[simp] theorem flowsOf_forwardEnd (s : State) (stat : Nat) : flowsOf (forwardEnd s stat) = flowsOf s := by simp [forwardEnd]
@[simp] theorem flowsOf_gatherResult (s : State) (n : Nat) (tag : Tag) (e : Trk) (g : Nat) (m : Msg) :
    flowsOf (gatherResult s n tag e g m) = flowsOf s := by simp [gatherResult]

@[simp] theorem flowsOf_atRequester (s : State) (n : Nat) (m : Msg) : flowsOf (atRequester s n m) = flowsOf s := by
  unfold atRequester
  dsimp only
  repeat' split
  all_goals simp

theorem execResponseArriveAtRequester_flows (n : NiId) (s : State) : OutFlows s (execResponseArriveAtRequester n s) := .answer (by
  dsimp only
  split
  · rfl
  · split
    next hrx => simp [flowsOf_rxCheck_drop hrx]
    next hrx => split <;> simp [flowsOf_rxCheck_pass hrx])

theorem execMcCopyAtMember_flows (n : NiId) (s : State) : OutFlows s (execMcCopyAtMember n s) := .answer (by
  dsimp only
  split
  · split
    next hrx => simp [flowsOf_rxCheck_drop hrx]
    next hrx => split <;> simp [flowsOf_rxCheck_pass hrx]
  · rfl)

@[simp] theorem flowsOf_memberExpire (s : State) (n j : Nat) (e : Member) :
    flowsOf (memberExpire s n j e) = flowsOf s := by simp [memberExpire]

theorem execMemberTimeout_flows (n : NiId) (e : BitVec 6) (s : State) : OutFlows s (execMemberTimeout n e s) := .answer (by
  dsimp only
  repeat' split
  all_goals simp)

theorem flowsOf_notifyRecord {s t : State} (h : flowsOf t = flowsOf s) (n : Nat) (m : Msg) (r : Word) :
    flowsOf (notifyRecord s t n m r) = flowsOf s := by
  unfold notifyRecord
  split
  · split
    next hrx => simp [flowsOf_rxCheck_pass hrx]
    next hrx => simp [flowsOf_rxCheck_drop hrx]
  · simp [h]

theorem execNotifyReceive_flows (n : NiId) (s : State) : OutFlows s (execNotifyReceive n s) := .answer (by
  dsimp only
  split
  · rfl
  · split
    next hrx => simp [flowsOf_rxCheck_drop hrx]
    next hrx =>
      have ht := flowsOf_rxCheck_pass hrx
      have ht1 := ht.trans (flowsOf_updNi ..)
      split <;> simp [ht1, flowsOf_notifyRecord ht])

@[simp] theorem flowsOf_endByFill (s : State) (n stat code : Nat) (r : Req) : flowsOf (endByFill s n stat code r) = flowsOf s := by
  unfold endByFill
  dsimp only
  split
  · split <;> simp
  · split
    · split <;> simp
    · simp

@[simp] theorem flowsOf_reachResolved (s : State) (n : Nat) (inst : BitVec 4) (x : BitVec 19) (d : BitVec 12) :
    flowsOf (reachResolved s n inst x d) = flowsOf s := by simp [reachResolved]

theorem execEtcFillAnswer_flows (n : NiId) (s : State) : OutFlows s (execEtcFillAnswer n s) := .answer (by
  dsimp only
  split
  · rfl
  · split
    next hrx => simp [flowsOf_rxCheck_drop hrx]
    next hrx =>
      have ht := flowsOf_rxCheck_pass hrx
      split
      · simp [ht]
      · repeat' split
        all_goals simp [ht])

theorem execEtcFillTimeout_flows (n : NiId) (inst : BitVec 4) (x : BitVec 19) (s : State) :
    OutFlows s (execEtcFillTimeout n inst x s) := .answer (by
  dsimp only
  split <;> simp)

theorem execEtcFillResend_flows (n : NiId) (inst : BitVec 4) (x : BitVec 19) (s : State) :
    OutFlows s (execEtcFillResend n inst x s) := .answer (by
  dsimp only
  split <;> simp)

theorem execEtcInvalidate_flows (n : NiId) (inst : BitVec 4) (x : BitVec 19) (s : State) :
    OutFlows s (execEtcInvalidate n inst x s) := .answer (by simp)
@[simp] theorem flowsOf_etcFlush (s : State) (n : Nat) : flowsOf (etcFlush s n) = flowsOf s := by simp [etcFlush]
theorem execNiEtcFlush_flows (n : NiId) (s : State) : OutFlows s (execNiEtcFlush n s) := .answer (by simp)

end Sys2Proof.Machine
end

section
/-! SUPPORT. The functions of the mesh and the spans that suspend no flow leave the admitted flows as they are (for O60). -/

namespace Sys2Proof.Machine

/-! The functions of Machine/Link. -/

@[simp] theorem flowsOf_setPortUp (s : State) (x : Nat) (p : Plane) (port : Nat) (v : Bool) :
    flowsOf (setPortUp s x p port v) = flowsOf s := by simp [setPortUp]

@[simp] theorem flowsOf_rteDiscard (s : State) (x : Nat) (m : Msg) (flag : Option Nat) : flowsOf (rteDiscard s x m flag) = flowsOf s := by
  unfold rteDiscard
  split <;> simp

@[simp] theorem flowsOf_wrSpnEnt (s : State) (p e : Nat) (v : BitVec 256) : flowsOf (wrSpnEnt s p e v) = flowsOf s := by simp [wrSpnEnt]
@[simp] theorem flowsOf_wrFlowEnt (s : State) (f : Flow) (v : BitVec 256) : flowsOf (wrFlowEnt s f v) = flowsOf s := by simp [wrFlowEnt]

@[simp] theorem flowsOf_retCredits (s : State) (p : Nat) (pl : Plane) (m : Msg) (n : Nat) :
    flowsOf (retCredits s p pl m n) = flowsOf s := by
  unfold retCredits
  split <;> simp

@[simp] theorem flowsOf_spanInject (s : State) (p : Nat) (pl : Plane) (m : Msg) :
    flowsOf (spanInject s p pl m) = flowsOf s := by simp [spanInject]
@[simp] theorem flowsOf_spanOwn (s : State) (p : Nat) (pl : Plane) (m : Msg) : flowsOf (spanOwn s p pl m) = flowsOf s := by simp [spanOwn]
@[simp] theorem flowsOf_flushMsg (s : State) (p : Nat) (m : Msg) : flowsOf (flushMsg s p m) = flowsOf s := by simp [flushMsg]
@[simp] theorem flowsOf_disposePiste (p : Nat) (s : State) (m : Msg) : flowsOf (disposePiste p s m) = flowsOf s := by simp [disposePiste]
@[simp] theorem flowsOf_spanSeq (s : State) (p : Nat) (m : Msg) : flowsOf (spanSeq s p m).2 = flowsOf s := by simp [spanSeq]
@[simp] theorem flowsOf_dropPiste (s : State) (p : Nat) : flowsOf (dropPiste s p) = flowsOf s := by simp [dropPiste]

@[simp] theorem flowsOf_handOver (s : State) (p q : Nat) : flowsOf (handOver s p q) = flowsOf s := by
  unfold handOver
  extract_lets x old new r s1
  have hr : flowsOf r.2 = flowsOf s := flowsOf_foldl_snd (fun a m => by split <;> simp) new (old, s)
  simp [s1, hr]

@[simp] theorem flowsOf_graceFailover (s : State) : flowsOf (graceFailover s) = flowsOf s := by
  unfold graceFailover
  refine flowsOf_foldl (fun t p => ?_) _ s
  split
  · split <;> simp
  · rfl

@[simp] theorem flowsOf_spanTake (s : State) (p : Nat) (pl : Plane) (f : Flit) : flowsOf (spanTake s p pl f) = flowsOf s := by
  unfold spanTake
  dsimp only
  repeat' split
  all_goals simp

@[simp] theorem flowsOf_cutNeighbour (s : State) (x port : Nat) : flowsOf (cutNeighbour s x port) = flowsOf s := by
  unfold cutNeighbour
  split <;> simp

@[simp] theorem flowsOf_dropAtt (s : State) (n : Nat) (alt : Bool) : flowsOf (dropAtt s n alt) = flowsOf s := by simp [dropAtt]

/-! The functions of Machine/Mesh. -/

@[simp] theorem flowsOf_owe (s : State) (x : Nat) (pl : Plane) (out ch : Nat) : flowsOf (owe s x pl out ch) = flowsOf s := by simp [owe]

@[simp] theorem flowsOf_creditUp (s : State) (x : Nat) (pl : Plane) (port ch : Nat) : flowsOf (creditUp s x pl port ch) = flowsOf s := by
  unfold creditUp
  repeat' split
  all_goals simp

@[simp] theorem flowsOf_popBuf (s : State) (x : Nat) (pl : Plane) (key : Nat) : flowsOf (popBuf s x pl key) = flowsOf s := by simp [popBuf]
@[simp] theorem flowsOf_updRx (s : State) (x port : Nat) (far : Bool) (f : LinkRx → LinkRx) :
    flowsOf (updRx s x port far f) = flowsOf s := congrArg Eng.flows (updRx_eng ..)
@[simp] theorem flowsOf_wireError (s : State) (x : Nat) (pl : Plane) (port : Nat) (far : Bool) (bit : Nat) :
    flowsOf (wireError s x pl port far bit) = flowsOf s := by simp [wireError]
@[simp] theorem flowsOf_wireErrors (s : State) (x : Nat) (pl : Plane) (port : Nat) (far : Bool) (bits : List Nat) :
    flowsOf (wireErrors s x pl port far bits) = flowsOf s := by simp [wireErrors]
@[simp] theorem flowsOf_setDropping (s : State) (x : Nat) (pl : Plane) (port : Nat) (far : Bool) (ch : Nat) (v : Bool) :
    flowsOf (setDropping s x pl port far ch v) = flowsOf s := by simp [setDropping]
@[simp] theorem flowsOf_dropFlit (s : State) (x : Nat) (pl : Plane) (port : Nat) (far : Bool) (f : Flit) :
    flowsOf (dropFlit s x pl port far f) = flowsOf s := by simp [dropFlit]
@[simp] theorem flowsOf_dropFrom (s : State) (x : Nat) (pl : Plane) (port : Nat) (far : Bool) (f : Flit) :
    flowsOf (dropFrom s x pl port far f) = flowsOf s := by simp [dropFrom]
@[simp] theorem flowsOf_rtrCheck (s : State) (x : Nat) (pl : Plane) (port : Nat) (r : FlitRx) (ctl : EccErr) :
    flowsOf (rtrCheck s x pl port r ctl) = flowsOf s := by simp [rtrCheck]
@[simp] theorem flowsOf_headerDiscard (s : State) (x : Nat) (pl : Plane) (port : Nat) (r : FlitRx) :
    flowsOf (headerDiscard s x pl port r) = flowsOf s := by simp [headerDiscard]
@[simp] theorem flowsOf_contDrop (s : State) (x : Nat) (pl : Plane) (port : Nat) (f : Flit) :
    flowsOf (contDrop s x pl port f) = flowsOf s := by simp [contDrop]
@[simp] theorem flowsOf_presetMiss (s : State) (x ch : Nat) : flowsOf (presetMiss s x ch) = flowsOf s := by simp [presetMiss]
@[simp] theorem flowsOf_headerIn (s : State) (x : Nat) (pl : Plane) (port : Nat) (f : Flit) :
    flowsOf (headerIn s x pl port f) = flowsOf s := by simp [headerIn]
@[simp] theorem flowsOf_contIn (s : State) (x : Nat) (pl : Plane) (port : Nat) (f : Flit) :
    flowsOf (contIn s x pl port f) = flowsOf s := by simp [contIn]
@[simp] theorem flowsOf_flitIn (s : State) (x : Nat) (pl : Plane) (port : Nat) (r : FlitRx) :
    flowsOf (flitIn s x pl port r) = flowsOf s := by simp [flitIn]

@[simp] theorem flowsOf_countIn (s : State) (x : Nat) (pl : Plane) (port : Nat) (m : Msg) :
    flowsOf (countIn s x pl port m) = flowsOf s := by
  unfold countIn
  dsimp only
  split <;> simp

@[simp] theorem flowsOf_branchesLeft (s : State) (x port left : Nat) :
    flowsOf (branchesLeft s x port left) = flowsOf s := by simp [branchesLeft]

@[simp] theorem flowsOf_branchDiscard (s : State) (x port : Nat) : flowsOf (branchDiscard s x port) = flowsOf s := by
  unfold branchDiscard
  split <;> simp

@[simp] theorem flowsOf_discardStep (s : State) (x : Nat) (pl : Plane) (key : Nat) : flowsOf (discardStep s x pl key) = flowsOf s := by
  unfold discardStep
  dsimp only
  split
  · rfl
  · repeat' split
    all_goals simp

@[simp] theorem flowsOf_gatherDiscard (s : State) (x : Nat) : flowsOf (gatherDiscard s x) = flowsOf s := by simp [gatherDiscard]

@[simp] theorem flowsOf_discardSteps (s : State) (x : Nat) (pl : Plane) : flowsOf (discardSteps s x pl) = flowsOf s := by
  unfold discardSteps
  split <;> simp

theorem execEscWaitExpire_flows (pl : Plane) (x : RtrId) (port ch : BitVec 4) (s : State) :
    OutFlows s (execEscWaitExpire pl x port ch s) := .answer (by
  dsimp only
  split <;> simp)

/-! The functions of Machine/Multicast. -/

@[simp] theorem flowsOf_gatherReady (s : State) (x e : Nat) (g : Gather) :
    flowsOf (gatherReady s x e g) = flowsOf s := by simp [gatherReady]
@[simp] theorem flowsOf_gatherShort (s : State) (x e : Nat) (g : Gather) :
    flowsOf (gatherShort s x e g) = flowsOf s := by simp [gatherShort]

theorem execMcCopyReplicate_flows (x : RtrId) (port : BitVec 4) (s : State) : OutFlows s (execMcCopyReplicate x port s) := .answer (by
  dsimp only
  repeat' split
  all_goals simp)

theorem execGatherAnswer_flows (x : RtrId) (port : BitVec 4) (s : State) : OutFlows s (execGatherAnswer x port s) := .answer (by
  dsimp only
  split
  · rfl
  · split
    · rfl
    · split
      · simp
      · split <;> simp)

theorem execGatherExpire_flows (x : RtrId) (e : BitVec 8) (s : State) : OutFlows s (execGatherExpire x e s) := .answer (by
  dsimp only
  split <;> simp)

theorem execNtfForward_flows (s : State) : OutFlows s (execNtfForward s) := .answer (by split <;> simp)

/-! The functions of Machine/Span. -/

@[simp] theorem flowsOf_txStart (s : State) (p : Nat) (t : SpanTx) : flowsOf (txStart s p t).2 = flowsOf s := by
  unfold txStart
  dsimp only
  repeat' split
  all_goals simp

@[simp] theorem flowsOf_fillMig (s : State) (p : Nat) (o : BitVec 3) (fuel : Nat) : flowsOf (fillMig s p o fuel).2 = flowsOf s := by
  induction fuel generalizing s with
  | zero => rfl
  | succ fuel ih =>
    unfold fillMig
    dsimp only
    split
    · split
      · simp [ih]
      · rfl
    · rfl

@[simp] theorem flowsOf_fillOwn (s : State) (p fuel : Nat) : flowsOf (fillOwn s p fuel).2 = flowsOf s := by
  induction fuel generalizing s with
  | zero => rfl
  | succ fuel ih =>
    unfold fillOwn
    dsimp only
    split
    · split
      · simp [ih]
      · rfl
    · rfl

@[simp] theorem flowsOf_fillSlots (s : State) (p : Nat) : flowsOf (fillSlots s p).2 = flowsOf s := by
  unfold fillSlots
  split <;> simp

@[simp] theorem flowsOf_emitLink (s : State) (p : Nat) (raw : BitVec 2048) (ev : Nat) :
    flowsOf (emitLink s p raw ev) = flowsOf s := by simp [emitLink]

@[simp] theorem flowsOf_sendCtl (s : State) (p : Nat) (idle : Bool) : flowsOf (sendCtl s p idle) = flowsOf s := by
  unfold sendCtl
  split <;> simp

theorem flowsOf_sendData {s t : State} {p : Nat} (h : sendData s p = some t) : flowsOf t = flowsOf s := by
  unfold sendData at h
  extract_lets q o mig f ret slots sds cr mg raw ms s1 at h
  split at h
  · cases h
  · split at h
    · cases h
    · rw [← Option.some.inj h]
      simp [s1, f]

theorem execLinkFlitSend_flows (p : SpId) (s : State) : OutFlows s (execLinkFlitSend p s) := .answer (by
  dsimp only
  split
  · rfl
  · split
    · split
      · simp
      · split
        next h => exact flowsOf_sendData h
        · simp
    · simp
    · simp
    · simp
    · simp
    · rfl)

@[simp] theorem flowsOf_retrainStart (s : State) (p : Nat) (w : BitVec 2) :
    flowsOf (retrainStart s p w) = flowsOf s := by simp [retrainStart]

theorem execNakTimerExpire_flows (p : SpId) (seq : BitVec 16) (s : State) : OutFlows s (execNakTimerExpire p seq s) := .answer (by
  dsimp only
  split <;> simp)

theorem execSpnRetrain_flows (p : SpId) (s : State) : OutFlows s (execSpnRetrain p s) := .answer (by simp)
theorem execPhyDown_flows (p : SpId) (s : State) : OutFlows s (execPhyDown p s) := .answer (by simp)
theorem execPeerRetrainRequest_flows (p : SpId) (wide : Bool) (s : State) :
    OutFlows s (execPeerRetrainRequest p wide s) := .answer (by simp)
theorem execWidthCapDrop_flows (p : SpId) (cap : BitVec 2) (s : State) : OutFlows s (execWidthCapDrop p cap s) := .answer (by simp)
theorem execSpanKeyExpire_flows (p : SpId) (s : State) : OutFlows s (execSpanKeyExpire p s) := .answer (by simp)
theorem execGraceExpire_flows (p : SpId) (s : State) : OutFlows s (execGraceExpire p s) := .answer (by simp)
theorem execPhyUp_flows (p : SpId) (s : State) : OutFlows s (execPhyUp p s) := .answer (by simp)

@[simp] theorem flowsOf_ackIn (s : State) (p : Nat) (ak : BitVec 16) : flowsOf (ackIn s p ak) = flowsOf s := by
  unfold ackIn
  dsimp only
  split <;> simp

@[simp] theorem flowsOf_recordKey (s : State) (p : Nat) (m : Msg) : flowsOf (recordKey s p m) = flowsOf s := by simp [recordKey]
@[simp] theorem flowsOf_spanMsgIn (s : State) (p : Nat) (pl : Plane) (m : Msg) (fp mig : Bool) (oport : Nat) :
    flowsOf (spanMsgIn s p pl m fp mig oport) = flowsOf s := by simp [spanMsgIn]
@[simp] theorem flowsOf_slotIn (s : State) (p : Nat) (v : BitVec 640) (sd : Nat) (mig : Bool) (oport : Nat) :
    flowsOf (slotIn s p v sd mig oport) = flowsOf s := by simp [slotIn]
@[simp] theorem flowsOf_deliverLink (s : State) (p : Nat) (raw : BitVec 2048) :
    flowsOf (deliverLink s p raw) = flowsOf s := by simp [deliverLink]

@[simp] theorem flowsOf_drainRob (s : State) (p fuel : Nat) : flowsOf (drainRob s p fuel) = flowsOf s := by
  induction fuel generalizing s with
  | zero => rfl
  | succ fuel ih =>
    unfold drainRob
    dsimp only
    split
    · simp [ih]
    · rfl

@[simp] theorem flowsOf_dataIn (s : State) (p : Nat) (raw : BitVec 2048) : flowsOf (dataIn s p raw) = flowsOf s := by simp [dataIn]
@[simp] theorem flowsOf_tsyncRsp (s : State) (p t1 t2 t3 : Nat) : flowsOf (tsyncRsp s p t1 t2 t3) = flowsOf s := by simp [tsyncRsp]
@[simp] theorem flowsOf_initIn (s : State) (p : Nat) (w : BitVec 640) : flowsOf (initIn s p w) = flowsOf s := by simp [initIn]
@[simp] theorem flowsOf_resumeIn (s : State) (p : Nat) (next : BitVec 16) : flowsOf (resumeIn s p next) = flowsOf s := by simp [resumeIn]
@[simp] theorem flowsOf_widthPropIn (s : State) (p : Nat) (w : BitVec 2) : flowsOf (widthPropIn s p w) = flowsOf s := by simp [widthPropIn]

@[simp] theorem flowsOf_spanStage (s : State) (p : Nat) (m : Msg) (fp : Bool) : flowsOf (spanStage s p m fp) = flowsOf s := by
  unfold spanStage
  extract_lets cur c
  split
  · simp
  · refine Keeps.ite (g := flowsOf) ?_ (by simp [Keeps])
    unfold Keeps
    split <;> simp

theorem execSpanPisteStage_flows (p : SpId) (s : State) : OutFlows s (execSpanPisteStage p s) := .answer (by
  dsimp only
  split
  · rfl
  · split
    · simp
    · split <;> simp)

theorem execTsyncSend_flows (p : SpId) (s : State) : OutFlows s (execTsyncSend p s) := .answer (by simp)
theorem execTsyncLost_flows (p : SpId) (s : State) : OutFlows s (execTsyncLost p s) := .answer (by simp)

/-! The functions of Machine/Time. -/

@[simp] theorem flowsOf_timeCycle (s : State) : flowsOf (timeCycle s) = flowsOf s := by simp [timeCycle]
theorem execTickOutFall_flows (s : State) : OutFlows s (execTickOutFall s) := .answer (by simp)
theorem execPpsOutRise_flows (s : State) : OutFlows s (execPpsOutRise s) := .answer (by simp)
theorem execPpsOutFall_flows (s : State) : OutFlows s (execPpsOutFall s) := .answer (by simp)
@[simp] theorem flowsOf_timStep (s : State) (v : Word) : flowsOf (timStep s v) = flowsOf s := by simp [timStep]
theorem execTimStep_flows (v : Word) (s : State) : OutFlows s (execTimStep v s) := .answer (by simp)
@[simp] theorem flowsOf_timLock (s : State) : flowsOf (timLock s) = flowsOf s := by simp [timLock]
theorem execTimLock_flows (s : State) : OutFlows s (execTimLock s) := .answer (by simp)
@[simp] theorem flowsOf_timSlew (s : State) (v : BitVec 32) : flowsOf (timSlew s v) = flowsOf s := by simp [timSlew]
theorem execTimSlew_flows (v : BitVec 32) (s : State) : OutFlows s (execTimSlew v s) := .answer (by simp)
theorem execReferenceLoss_flows (s : State) : OutFlows s (execReferenceLoss s) := .answer (by simp)
theorem execReferenceStable_flows (s : State) : OutFlows s (execReferenceStable s) := .answer (by simp)
@[simp] theorem flowsOf_holdExit (s : State) : flowsOf (holdExit s) = flowsOf s := by simp [holdExit]
@[simp] theorem flowsOf_ppsAccept (s : State) (e : ℤ) : flowsOf (ppsAccept s e) = flowsOf s := by simp [ppsAccept]
theorem execPpsEdge_flows (s : State) : OutFlows s (execPpsEdge s) := .answer (by simp)
@[simp] theorem flowsOf_ppsRestart (old s : State) : flowsOf (ppsRestart old s) = flowsOf s := by simp [ppsRestart]
theorem execPpsLost_flows (s : State) : OutFlows s (execPpsLost s) := .answer (by simp)

/-! The functions of Machine/Route. -/

@[simp] theorem flowsOf_loadSlot (s : State) (rs e : Nat) : flowsOf (loadSlot s rs e) = flowsOf s := by simp [loadSlot]
@[simp] theorem flowsOf_keepGroups (s : State) : flowsOf (keepGroups s) = flowsOf s := by simp [keepGroups]
@[simp] theorem flowsOf_evSwitch (s : State) (x : Nat) : flowsOf (evSwitch s x) = flowsOf s := by simp [evSwitch]
@[simp] theorem flowsOf_switchSet (s : State) (rs hold : Nat) : flowsOf (switchSet s rs hold) = flowsOf s := by simp [switchSet]
@[simp] theorem flowsOf_releaseOld (s : State) : flowsOf (releaseOld s) = flowsOf s := by simp [releaseOld]
theorem execEpochRelease_flows (s : State) : OutFlows s (execEpochRelease s) := .answer (by split <;> simp)

end Sys2Proof.Machine
end

section
/-! SUPPORT. The functions of the engines leave the admitted flows as they are, admission and release apart (for O60). -/

namespace Sys2Proof.Machine

/-! The functions of Machine/Admit. -/

@[simp] theorem flowsOf_addPresets (s : State) (id : Nat) (f : Flow) : flowsOf (addPresets s id f) = flowsOf s := by simp [addPresets]
@[simp] theorem flowsOf_dropPresets (s : State) (id : Nat) : flowsOf (dropPresets s id) = flowsOf s := by simp [dropPresets]

@[simp] theorem flowsOf_dropTwinRec (s : State) (id : Nat) (f : Flow) : flowsOf (dropTwinRec s id f) = flowsOf s := by
  unfold dropTwinRec
  split <;> simp

/-! The functions of Machine/NiReset. -/

@[simp] theorem flowsOf_dropSliceErs (s : State) (n k : Nat) : flowsOf (dropSliceErs s n k) = flowsOf s := by simp [dropSliceErs]
@[simp] theorem flowsOf_sliceResetStart (s : State) (n k : Nat) : flowsOf (sliceResetStart s n k) = flowsOf s := by simp [sliceResetStart]
@[simp] theorem flowsOf_sliceResetReq (s : State) (n k : Nat) : flowsOf (sliceResetReq s n k) = flowsOf s := by simp [sliceResetReq]
theorem execNiSlcRst_flows (n : NiId) (mask : BitVec 16) (s : State) : OutFlows s (execNiSlcRst n mask s) := .answer (by simp)
theorem execSliceResetEnd_flows (n : NiId) (slice : BitVec 4) (s : State) : OutFlows s (execSliceResetEnd n slice s) := .answer (by simp)
@[simp] theorem flowsOf_niRegReset (s : State) (n : Nat) : flowsOf (niRegReset s n) = flowsOf s := by simp [niRegReset]
@[simp] theorem flowsOf_clampQueue (s : State) (n q : Nat) : flowsOf (clampQueue s n q) = flowsOf s := by simp [clampQueue]
@[simp] theorem flowsOf_clampQueues (s : State) (p : Nat → Bool) : flowsOf (clampQueues s p) = flowsOf s := by simp [clampQueues]
@[simp] theorem flowsOf_answerMembers (s : State) (n : Nat) : flowsOf (answerMembers s n) = flowsOf s := by simp [answerMembers]
@[simp] theorem flowsOf_niSlicesReset (s : State) (n : Nat) : flowsOf (niSlicesReset s n) = flowsOf s := by simp [niSlicesReset]
@[simp] theorem flowsOf_niDiscardWrites (s : State) (n : Nat) : flowsOf (niDiscardWrites s n) = flowsOf s := by simp [niDiscardWrites]
@[simp] theorem flowsOf_niDataReset (s : State) (n : Nat) : flowsOf (niDataReset s n) = flowsOf s := by simp [niDataReset]
@[simp] theorem flowsOf_portResetBegin (s : State) (n : Nat) : flowsOf (portResetBegin s n) = flowsOf s := by simp [portResetBegin]
theorem execEpResetRequest_flows (n : NiId) (s : State) : OutFlows s (execEpResetRequest n s) := .answer (by simp)
theorem execEpRstInEpChange_flows (n : NiId) (v : Bool) (s : State) : OutFlows s (execEpRstInEpChange n v s) := .answer (by simp)
theorem execNiRstInRaise_flows (n : NiId) (s : State) : OutFlows s (execNiRstInRaise n s) := .answer (by simp)
theorem execEpRstReqEpFall_flows (n : NiId) (s : State) : OutFlows s (execEpRstReqEpFall n s) := .answer (by simp)
theorem execEpUpRaise_flows (n : NiId) (s : State) : OutFlows s (execEpUpRaise n s) := .answer (by simp)
theorem execRstStall_flows (n : NiId) (s : State) : OutFlows s (execRstStall n s) := .answer (by simp)
@[simp] theorem flowsOf_niResetBegin (s : State) (n cause : Nat) : flowsOf (niResetBegin s n cause) = flowsOf s := by simp [niResetBegin]
@[simp] theorem flowsOf_niResetMask (s : State) (w mask : Nat) : flowsOf (niResetMask s w mask) = flowsOf s := by simp [niResetMask]
theorem execGlbRstNi_flows (m : Master) (w : BitVec 1) (mask : Word) (s : State) : OutFlows s (execGlbRstNi m w mask s) := .answer (by simp)
theorem execEpClkLoss_flows (n : NiId) (s : State) : OutFlows s (execEpClkLoss n s) := .answer (by simp)

/-! The functions of Machine/EngCore. -/

@[simp] theorem flowsOf_updSlot (s : State) (k : Nat) (f : EngSlot → EngSlot) : flowsOf (updSlot s k f) = flowsOf s := by simp [updSlot]

@[simp] theorem flowsOf_evSlot (s : State) (k e d : Nat) : flowsOf (evSlot s k e d) = flowsOf s := by
  unfold evSlot
  split <;> simp

@[simp] theorem flowsOf_engSend (s : State) (n q code opc fa : Nat) (dst : Option (BitVec 12)) (nbytes : Nat) (data : List Line) :
    flowsOf (engSend s n q code opc fa dst nbytes data) = flowsOf s := by
  unfold engSend
  dsimp only
  repeat' split
  all_goals simp

@[simp] theorem flowsOf_slotSend (s : State) (k code opc fa : Nat) (dst : Option (BitVec 12)) (nbytes : Nat) (data : List Line) :
    flowsOf (slotSend s k code opc fa dst nbytes data) = flowsOf s := by simp [slotSend]

@[simp] theorem flowsOf_takeAnswer (s : State) (code : Nat) : flowsOf (takeAnswer s code).2 = flowsOf s := by
  unfold takeAnswer
  split <;> simp

theorem flowsOf_of_takeAnswer {s t : State} {code : Nat} {o : Option (Nat × List Line × Nat)} (h : takeAnswer s code = (o, t)) :
    flowsOf t = flowsOf s := by rw [← flowsOf_takeAnswer s code, h]

@[simp] theorem flowsOf_updCmd (s : State) (key : Nat) (f : Cmd → Cmd) : flowsOf (updCmd s key f) = flowsOf s := by simp [updCmd]
@[simp] theorem flowsOf_addCmd (s : State) (c : Cmd) : flowsOf (addCmd s c) = flowsOf s := by simp [addCmd]
@[simp] theorem flowsOf_endCmd (s : State) (key status : Nat) : flowsOf (endCmd s key status) = flowsOf s := by simp [endCmd]

@[simp] theorem flowsOf_evDuty (s : State) (b e : Nat) : flowsOf (evDuty s b e) = flowsOf s := by
  unfold evDuty
  split <;> simp

@[simp] theorem flowsOf_endQueued (s : State) (b key status : Nat) : flowsOf (endQueued s b key status) = flowsOf s := by simp [endQueued]
@[simp] theorem flowsOf_failCmd (s : State) (key fa stat : Nat) : flowsOf (failCmd s key fa stat) = flowsOf s := by simp [failCmd]
@[simp] theorem flowsOf_wakeAll (s : State) : flowsOf (wakeAll s) = flowsOf s := by simp [wakeAll]
@[simp] theorem flowsOf_pushOn (s : State) (k : Nat) (jobs : List Job) : flowsOf (pushOn s k jobs).2 = flowsOf s := by simp [pushOn]

@[simp] theorem flowsOf_pushJobs (s : State) (key : Nat) : flowsOf (pushJobs s key) = flowsOf s := by
  unfold pushJobs
  repeat' split
  all_goals simp

@[simp] theorem flowsOf_updRing (s : State) (q : Nat) (f : Ring → Ring) : flowsOf (updRing s q f) = flowsOf s := by simp [updRing]
@[simp] theorem flowsOf_raiseRink (s : State) (b code sev info : Nat) :
    flowsOf (raiseRink s b code sev info) = flowsOf s := by simp [raiseRink]
@[simp] theorem flowsOf_raiseRinkFree (s : State) (b code sev : Nat) :
    flowsOf (raiseRinkFree s b code sev) = flowsOf s := by simp [raiseRinkFree]
@[simp] theorem flowsOf_wr128 (s : State) (a : Nat) (v : BitVec 128) : flowsOf (wr128 s a v) = flowsOf s := by simp [wr128]
@[simp] theorem flowsOf_wrEbt (s : State) (x data : Nat) : flowsOf (wrEbt s x data) = flowsOf s := by simp [wrEbt]
@[simp] theorem flowsOf_wrGrant (s : State) (i : Nat) (v : BitVec 128) : flowsOf (wrGrant s i v) = flowsOf s := by simp [wrGrant]
@[simp] theorem flowsOf_pendWord (s : State) (a : Nat) (v : Word) : flowsOf (pendWord s a v) = flowsOf s := by simp [pendWord]

/-! The functions of Machine/Journal. -/

@[simp] theorem flowsOf_jrnAdd (s : State) (r : Rec) : flowsOf (jrnAdd s r) = flowsOf s := by simp [jrnAdd]
@[simp] theorem flowsOf_setLp (s : State) (h off : Nat) (wrapped : Bool) : flowsOf (setLp s h off wrapped) = flowsOf s := by simp [setLp]
@[simp] theorem flowsOf_addHome (s : State) (h : Nat) (w : HomeWrite) : flowsOf (addHome s h w) = flowsOf s := by simp [addHome]
@[simp] theorem flowsOf_sendHome (s : State) (h : Nat) (w : HomeWrite) : flowsOf (sendHome s h w) = flowsOf s := by simp [sendHome]

@[simp] theorem flowsOf_pumpHome (s : State) (h fuel : Nat) : flowsOf (pumpHome s h fuel) = flowsOf s := by
  induction fuel generalizing s with
  | zero => rfl
  | succ fuel ih =>
    unfold pumpHome
    split <;> simp [ih]

@[simp] theorem flowsOf_pumpHomes (s : State) : flowsOf (pumpHomes s) = flowsOf s := by simp [pumpHomes]
@[simp] theorem flowsOf_reserve (s : State) (h : Nat) : flowsOf (reserve s h) = flowsOf s := by simp [reserve]
@[simp] theorem flowsOf_groomStart (s : State) (key : Nat) : flowsOf (groomStart s key) = flowsOf s := by simp [groomStart]
@[simp] theorem flowsOf_submitGroom (s : State) : flowsOf (submitGroom s) = flowsOf s := by simp [submitGroom]
@[simp] theorem flowsOf_dropCkpt (s : State) : flowsOf (dropCkpt s) = flowsOf s := by simp [dropCkpt]
@[simp] theorem flowsOf_ckptTail (s : State) (c : Ckpt) : flowsOf (ckptTail s c) = flowsOf s := by simp [ckptTail]
@[simp] theorem flowsOf_commitRec (s : State) (r : Rec) : flowsOf (commitRec s r) = flowsOf s := by simp [commitRec]

@[simp] theorem flowsOf_commitLoop (s : State) (fuel : Nat) : flowsOf (commitLoop s fuel) = flowsOf s := by
  induction fuel generalizing s with
  | zero => rfl
  | succ fuel ih =>
    unfold commitLoop
    split <;> simp [ih]

@[simp] theorem flowsOf_settleData (s : State) : flowsOf (settleData s) = flowsOf s := by simp [settleData]
@[simp] theorem flowsOf_ckptCommit (s : State) (c : Ckpt) : flowsOf (ckptCommit s c) = flowsOf s := by simp [ckptCommit]

@[simp] theorem flowsOf_jrnAdvance (s : State) : flowsOf (jrnAdvance s) = flowsOf s := by
  unfold jrnAdvance
  split <;> simp

@[simp] theorem flowsOf_appendRec (s : State) (r0 : Rec) : flowsOf (appendRec s r0) = flowsOf s := by simp [appendRec]
theorem execJournalAppend_flows (s : State) : OutFlows s (execJournalAppend s) := .answer (by split <;> simp)

@[simp] theorem flowsOf_homeAcked (s : State) (h : Nat) (w : HomeWrite) : flowsOf (homeAcked s h w) = flowsOf s := by
  unfold homeAcked
  split <;> simp

theorem execHomeWriteAck_flows (h : BitVec 1) (s : State) : OutFlows s (execHomeWriteAck h s) := .answer (by
  split
  · rfl
  next htake => split <;> simp [flowsOf_of_takeAnswer htake])

theorem execHomeWriteRetry_flows (h : BitVec 1) (s : State) : OutFlows s (execHomeWriteRetry h s) := .answer (by
  dsimp only
  split <;> simp)

theorem execGroomNow_flows (s : State) : OutFlows s (execGroomNow s) := .answer (by simp)
@[simp] theorem flowsOf_homeReplace (s : State) (h : Nat) : flowsOf (homeReplace s h) = flowsOf s := by simp [homeReplace]
@[simp] theorem flowsOf_ebtRepairStart (s : State) (x : Nat) : flowsOf (ebtRepairStart s x) = flowsOf s := by simp [ebtRepairStart]

@[simp] theorem flowsOf_ebtRead (s : State) (x : Nat) : flowsOf (ebtRead s x).2 = flowsOf s := by
  unfold ebtRead
  dsimp only
  repeat' split
  all_goals simp

theorem execEbtRepairDone_flows (x : BitVec 19) (h0 h1 : Option (BitVec 128)) (s : State) :
    OutFlows s (execEbtRepairDone x h0 h1 s) := .answer (by split <;> simp)
theorem execJrnRecover_flows (s : State) : OutFlows s (execJrnRecover s) := .answer (by simp)
theorem execRecoveryStart_flows (s : State) : OutFlows s (execRecoveryStart s) := .answer (by simp)
theorem execHomeWaitTimeout_flows (s : State) : OutFlows s (execHomeWaitTimeout s) := .answer (by simp)

@[simp] theorem flowsOf_replay (s : State) (h0 h1 : HomeRead) (o0 o1 : Option Nat) (seq fuel count : Nat) :
    flowsOf (replay s h0 h1 o0 o1 seq fuel count).2 = flowsOf s := by
  induction fuel generalizing s o0 o1 seq count with
  | zero => rfl
  | succ fuel ih =>
    unfold replay
    split
    · rfl
    · simp [ih]

@[simp] theorem flowsOf_ebtClear (s : State) : flowsOf (ebtClear s) = flowsOf s := by simp [ebtClear]
@[simp] theorem flowsOf_tbtPut (s : State) (n x : Nat) (r : Option TbtRow) : flowsOf (tbtPut s n x r) = flowsOf s := by simp [tbtPut]
@[simp] theorem flowsOf_bgtPut (s : State) (n j : Nat) (r : Option BgtRow) : flowsOf (bgtPut s n j r) = flowsOf s := by simp [bgtPut]
@[simp] theorem flowsOf_rowPut (s : State) (n row : Nat) : flowsOf (rowPut s n row) = flowsOf s := by simp [rowPut]

@[simp] theorem flowsOf_rebuild (s : State) : flowsOf (rebuild s) = flowsOf s := by
  unfold rebuild
  extract_lets l s0 s1 s2 rows
  have h0 : flowsOf s0 = flowsOf s := by simp [s0]
  have h1 : flowsOf s1 = flowsOf s0 := by simp [s1]
  have h2 : flowsOf s2 = flowsOf s1 := by
    refine flowsOf_foldl (fun t x => ?_) _ _
    dsimp only
    split
    · split <;> simp
    · simp
  simp [h2, h1, h0]

@[simp] theorem flowsOf_lpAfter (s : State) (h : Nat) (o : Option Nat) (count : Nat) : flowsOf (lpAfter s h o count) = flowsOf s := by
  unfold lpAfter
  split <;> simp

@[simp] theorem flowsOf_recEnd (s : State) (result src count : Nat) : flowsOf (recEnd s result src count) = flowsOf s := by simp [recEnd]

theorem execRecoveryDone_flows (h0 h1 : HomeRead) (s : State) : OutFlows s (execRecoveryDone h0 h1 s) := .answer (by
  dsimp only
  repeat' split
  all_goals simp)

/-! The functions of Machine/Jobs. -/

@[simp] theorem flowsOf_finishData (s : State) (key : Nat) : flowsOf (finishData s key) = flowsOf s := by
  unfold finishData
  split <;> simp

@[simp] theorem flowsOf_setRunning (s : State) (k : Nat) (j : Option Job) : flowsOf (setRunning s k j) = flowsOf s := by simp [setRunning]

@[simp] theorem flowsOf_takeJob (s : State) (k op : Nat) : flowsOf (takeJob s k op) = flowsOf s := by
  unfold takeJob
  dsimp only
  split <;> simp

theorem flowsOf_drainAnswers {f : AnsFn} {bad : State → Job → Bool → Nat → Job × State} (hf : AnsKeepsFlows f) (hbad : BadKeepsFlows bad)
    (s : State) (k fuel : Nat) : flowsOf (drainAnswers f bad s k fuel) = flowsOf s := by
  induction fuel generalizing s with
  | zero => rfl
  | succ fuel ih =>
    unfold drainAnswers
    split
    · rfl
    · dsimp only
      split
      · simp [ih]
      · split
        · simp [ih, hbad _ _ _ _]
        · split
          next h => simp [ih, hf _ _ _ _ _ _ _ h]
          · rfl

@[simp] theorem flowsOf_noBad (s : State) (j : Job) (second : Bool) (fa : Nat) : flowsOf (noBad s j second fa).2 = flowsOf s := by
  simp [noBad]

theorem flowsOf_serveJob {f : AnsFn} {bad : State → Job → Bool → Nat → Job × State} {issue : IssueFn} (hf : AnsKeepsFlows f)
    (hbad : BadKeepsFlows bad) (hissue : IssueKeepsFlows issue) (op need : Nat) (s : State) (k : Nat) :
    flowsOf (serveJob op need f bad issue s k) = flowsOf s := by
  have hdrain : ∀ t fuel, flowsOf (drainAnswers f bad t k fuel) = flowsOf t := fun t => flowsOf_drainAnswers hf hbad t k
  unfold serveJob
  split
  · rfl
  · dsimp only
    split
    · simp
    · split
      · simp
      · split
        · simp [hdrain]
        · refine Keeps.ite (g := flowsOf) (by simp [Keeps, hdrain]) (.ite (by simp [Keeps, hdrain]) ?_)
          unfold Keeps
          split
          next h => simp [hissue _ _ _ _ h, hdrain]
          · simp [hdrain]

theorem flowsOf_saniAnswer : AnsKeepsFlows saniAnswer := by
  intro s k j second fa data r h
  unfold saniAnswer at h
  dsimp only at h
  repeat' split at h
  all_goals
    cases h
    simp

theorem flowsOf_saniIssue : IssueKeepsFlows saniIssue := by
  intro s k j r h
  unfold saniIssue at h
  dsimp only at h
  split at h
  · split at h
    · obtain rfl := Option.some.inj h
      simp
    · cases h
  · split at h
    · obtain rfl := Option.some.inj h
      simp
    · cases h

theorem execSanitise_flows (slot : BitVec 6) (s : State) : OutFlows s (execSanitise slot s) :=
  .answer (flowsOf_serveJob flowsOf_saniAnswer flowsOf_noBad flowsOf_saniIssue ..)

theorem flowsOf_copyAnswer : AnsKeepsFlows copyAnswer := by
  intro s k j second fa data r h
  unfold copyAnswer at h
  split at h
  · cases h
    rfl
  · split at h
    · cases h
      simp
    · cases h

theorem flowsOf_copyIssue : IssueKeepsFlows copyIssue := by
  intro s k j r h
  unfold copyIssue at h
  split at h
  · injection h with h
    simp [← h]
  · cases h

theorem execCopy_flows (slot : BitVec 6) (s : State) : OutFlows s (execCopy slot s) :=
  .answer (flowsOf_serveJob flowsOf_copyAnswer flowsOf_noBad flowsOf_copyIssue ..)

theorem flowsOf_verAnswer : AnsKeepsFlows verAnswer := by
  intro s k j second fa data r h
  unfold verAnswer at h
  dsimp only at h
  repeat' split at h
  all_goals
    cases h
    simp

@[simp] theorem flowsOf_verBad (s : State) (j : Job) (second : Bool) (fa : Nat) : flowsOf (verBad s j second fa).2 = flowsOf s := by
  unfold verBad
  dsimp only
  split <;> simp

theorem flowsOf_verIssue (two : Bool) : IssueKeepsFlows (verIssue two) := by
  intro s k j r h
  unfold verIssue at h
  dsimp only at h
  split at h
  · split at h
    · split at h
      · obtain rfl := Option.some.inj h
        simp
      · cases h
    · obtain rfl := Option.some.inj h
      simp
  · cases h

theorem execVerify_flows (slot : BitVec 6) (s : State) : OutFlows s (execVerify slot s) :=
  .answer (flowsOf_serveJob flowsOf_verAnswer flowsOf_verBad (flowsOf_verIssue _) ..)

theorem flowsOf_ackAnswer : AnsKeepsFlows ackAnswer := by
  rintro s k j second fa data r ⟨⟩
  rfl

theorem flowsOf_teleIssue : IssueKeepsFlows teleIssue := by
  intro s k j r h
  unfold teleIssue at h
  dsimp only at h
  split at h
  · injection h with h
    simp [← h]
  · cases h

theorem execTelemetry_flows (slot : BitVec 6) (s : State) : OutFlows s (execTelemetry slot s) :=
  .answer (flowsOf_serveJob flowsOf_ackAnswer flowsOf_noBad flowsOf_teleIssue ..)

theorem flowsOf_groomIssue : IssueKeepsFlows groomIssue := by
  intro s k j r h
  unfold groomIssue at h
  dsimp only at h
  split at h
  · cases h
  · split at h
    · cases h
    · split at h
      · injection h with h
        simp [← h]
      · split at h
        · cases h
        · injection h with h
          simp [← h]

@[simp] theorem flowsOf_groomBad (s : State) (j : Job) (second : Bool) (fa : Nat) : flowsOf (groomBad s j second fa).2 = flowsOf s := by
  unfold groomBad
  dsimp only
  repeat' split
  all_goals simp

theorem execGroom_flows (slot : BitVec 6) (s : State) : OutFlows s (execGroom slot s) :=
  .answer (flowsOf_serveJob flowsOf_ackAnswer flowsOf_groomBad flowsOf_groomIssue ..)
@[simp] theorem flowsOf_mergeDiffs (s : State) (j : Job) : flowsOf (mergeDiffs s j) = flowsOf s := by simp [mergeDiffs]

@[simp] theorem flowsOf_jobEnded (s : State) (j : Job) : flowsOf (jobEnded s j) = flowsOf s := by
  unfold jobEnded
  extract_lets s1 s2 jrn s3
  have h2 : flowsOf s2 = flowsOf s := by simp [s2, s1]
  have h3 : flowsOf s3 = flowsOf s := by
    simp only [s3, jrn]
    split
    · split <;> simp [h2]
    · exact h2
  split
  · split <;> simp [h3]
  · exact h3

theorem execJobComplete_flows (slot : BitVec 6) (s : State) : OutFlows s (execJobComplete slot s) := .answer (by
  dsimp only
  repeat' split
  all_goals simp)

@[simp] theorem flowsOf_stealCount (s : State) (k : Nat) (theft : Bool) : flowsOf (stealCount s k theft) = flowsOf s := by
  unfold stealCount
  split <;> simp

theorem execWorkSteal_flows (slot : BitVec 6) (s : State) : OutFlows s (execWorkSteal slot s) := .answer (by
  dsimp only
  repeat' split
  all_goals simp)

theorem execParkWake_flows (slot : BitVec 6) (s : State) : OutFlows s (execParkWake slot s) := .answer (by simp)

@[simp] theorem flowsOf_replayJob (s : State) (k : Nat) : flowsOf (replayJob s k) = flowsOf s := by
  unfold replayJob
  split <;> simp

@[simp] theorem flowsOf_closeSlot (s : State) (k : Nat) : flowsOf (closeSlot s k) = flowsOf s := by simp [closeSlot]

@[simp] theorem flowsOf_restartAdmit (s : State) : flowsOf (restartAdmit s) = flowsOf s := by
  unfold restartAdmit
  split <;> simp

theorem execEngineFail_flows (e : BitVec 7) (s : State) : OutFlows s (execEngineFail e s) := .answer (by
  dsimp only
  repeat' split
  all_goals simp)

/-! The functions of Machine/Rings. -/

theorem execRingPiWrite_flows (q : BitVec 4) (v : BitVec 12) (s : State) : OutFlows s (execRingPiWrite q v s) := .answer (by simp)
theorem execRingRciWrite_flows (q : BitVec 4) (v : BitVec 12) (s : State) : OutFlows s (execRingRciWrite q v s) := .answer (by simp)

theorem execRingFetch_flows (b : BitVec 3) (s : State) : OutFlows s (execRingFetch b s) := .answer (by
  dsimp only
  repeat' split
  all_goals simp)

@[simp] theorem flowsOf_startData (s : State) (key : Nat) : flowsOf (startData s key) = flowsOf s := by
  unfold startData
  split <;> simp

@[simp] theorem flowsOf_startCmd (s : State) (q : Nat) (e : BitVec 512) : flowsOf (startCmd s q e) = flowsOf s := by simp [startCmd]
@[simp] theorem flowsOf_ciAdvance (s : State) (q : Nat) : flowsOf (ciAdvance s q) = flowsOf s := by simp [ciAdvance]

theorem execCommandArrive_flows (q : BitVec 4) (s : State) : OutFlows s (execCommandArrive q s) := .answer (by
  dsimp only
  split
  · rfl
  next htake =>
    repeat' split
    all_goals simp [flowsOf_of_takeAnswer htake])

@[simp] theorem flowsOf_ringResetEnd (s : State) (q : Nat) : flowsOf (ringResetEnd s q) = flowsOf s := by simp [ringResetEnd]
@[simp] theorem flowsOf_engNotify (s : State) (n : Nat) (dst : BitVec 12) (r : Word) :
    flowsOf (engNotify s n dst r) = flowsOf s := by simp [engNotify]

theorem execCommandComplete_flows (q : BitVec 4) (s : State) : OutFlows s (execCommandComplete q s) := .answer (by
  dsimp only
  split <;> simp)

@[simp] theorem flowsOf_abortCmd (s : State) (key : Nat) : flowsOf (abortCmd s key) = flowsOf s := by
  unfold abortCmd
  dsimp only
  repeat' split
  all_goals simp

theorem execRingReset_flows (q : BitVec 4) (s : State) : OutFlows s (execRingReset q s) := .answer (by simp)
theorem execRingResume_flows (q : BitVec 4) (s : State) : OutFlows s (execRingResume q s) := .answer (by simp)

/-! The functions of Machine/Bind. -/

theorem flowsOf_runCtl {f : State → Cmd → Sub × State} (h : StepKeepsFlows f) (op : Nat) (s : State) :
    flowsOf (runCtl op f s) = flowsOf s := by
  unfold runCtl
  split
  · split
    · split
      next hstep => simp [h.of_eq hstep]
      next hstep => simp [h.of_eq hstep]
    · rfl
  · rfl

@[simp] theorem flowsOf_bgtDrop (s : State) (n x : Nat) : flowsOf (bgtDrop s n x) = flowsOf s := by simp [bgtDrop]
@[simp] theorem flowsOf_invalidateAll (s : State) (x : Nat) : flowsOf (invalidateAll s x) = flowsOf s := by simp [invalidateAll]
@[simp] theorem flowsOf_invalAck (s : State) (x : Nat) : flowsOf (invalAck s x) = flowsOf s := by simp [invalAck]

@[simp] theorem flowsOf_bindStep (s : State) (key sub x ni dpa tag : Nat) (restore : Bool) :
    flowsOf (bindStep s key sub x ni dpa tag restore).2 = flowsOf s := by
  unfold bindStep
  extract_lets e v s1
  split
  · rw [apply_ite Prod.snd, apply_ite Prod.snd, apply_ite Prod.snd, apply_ite Prod.snd]
    refine Keeps.ite (g := flowsOf) rfl (.ite rfl (.ite rfl (.ite (.trans ?_ rfl) ?_)))
    · unfold Keeps
      split <;> simp [s1]
    · simp [Keeps, s1]
  · split <;> simp
  · split <;> rfl

theorem execBind_flows (s : State) : OutFlows s (execBind s) := .answer (flowsOf_runCtl (fun _ _ => flowsOf_bindStep ..) ..)
@[simp] theorem flowsOf_followSanitise (s : State) (c : Cmd) (x : Nat) (pattern : Word) :
    flowsOf (followSanitise s c x pattern) = flowsOf s := by simp [followSanitise]

@[simp] theorem flowsOf_unbindStep (s : State) (key sub x : Nat) : flowsOf (unbindStep s key sub x).2 = flowsOf s := by
  unfold unbindStep
  dsimp only
  split
  · split
    · rfl
    · split
      · simp
      · split <;> simp
  · split <;> simp
  · split <;> simp
  · split <;> rfl

theorem execUnbind_flows (s : State) : OutFlows s (execUnbind s) := .answer (by
  generalize hs1 : runCtl 0x11 _ s = s1
  have h1 : flowsOf s1 = flowsOf s := by
    rw [← hs1]
    exact flowsOf_runCtl (fun t c => flowsOf_unbindStep ..) ..
  dsimp only
  split
  · rw [flowsOf_ite]
    split <;> simp [h1]
  · exact h1)

@[simp] theorem flowsOf_shareRow (s : State) (a : ShareArg) (n row tag : Nat) :
    flowsOf (shareRow s a n row tag) = flowsOf s := by simp [shareRow]
@[simp] theorem flowsOf_grantFree (s : State) : flowsOf (grantFree s).2 = flowsOf s := by simp [grantFree]

@[simp] theorem flowsOf_shareRecs (s : State) (key : Nat) (a : ShareArg) (e : Ebt) (row : Nat) :
    flowsOf (shareRecs s key a e row) = flowsOf s := by
  unfold shareRecs
  extract_lets f s1 v
  have h1 : flowsOf s1 = flowsOf s := by
    simp only [s1, f]
    split
    · rfl
    · simp
    · split <;> simp
  split <;> simp [h1]

@[simp] theorem flowsOf_shareStep (s : State) (key sub : Nat) (a : ShareArg) : flowsOf (shareStep s key sub a).2 = flowsOf s := by
  unfold shareStep
  extract_lets e row full idx s1 v s2
  have h2 : flowsOf s2 = flowsOf s := by simp [s2, s1]
  split
  · simp [apply_ite Prod.snd, h2]
  · split <;> simp
  · split <;> rfl

theorem execShare_flows (s : State) : OutFlows s (execShare s) := .answer (flowsOf_runCtl (fun t c => by simp) ..)

theorem execSliceReset_flows (s : State) : OutFlows s (execSliceReset s) := .answer (flowsOf_runCtl (fun t c => by
  dsimp only
  split
  · simp
  · split <;> rfl) ..)

@[simp] theorem flowsOf_tbtMark (s : State) (n x : Nat) (f : TbtRow → TbtRow) : flowsOf (tbtMark s n x f) = flowsOf s := by simp [tbtMark]
@[simp] theorem flowsOf_moveUndo (s : State) (x a b : Nat) : flowsOf (moveUndo s x a b) = flowsOf s := by simp [moveUndo]

theorem flowsOf_moveStep : StepKeepsFlows moveStep := by
  intro s c
  unfold moveStep
  dsimp only
  split
  · repeat' split
    all_goals simp
  · repeat' split
    all_goals simp
  · split
    · rfl
    next htake =>
      repeat' split
      all_goals simp [flowsOf_of_takeAnswer htake]
  · split
    · rfl
    next htake => split <;> simp [flowsOf_of_takeAnswer htake]
  · split <;> simp
  · split <;> simp

theorem execMove_flows (s : State) : OutFlows s (execMove s) := .answer (flowsOf_runCtl (fun t c => by
  dsimp only
  split
  · simp [flowsOf_moveStep _ _]
  · exact flowsOf_moveStep t c) ..)

theorem execMoveMirrorExpire_flows (n : NiId) (x : BitVec 19) (s : State) : OutFlows s (execMoveMirrorExpire n x s) := .answer (by
  dsimp only
  repeat' split
  all_goals simp)

@[simp] theorem flowsOf_submitOrphan (s : State) (n : Nat) : flowsOf (submitOrphan s n) = flowsOf s := by simp [submitOrphan]

@[simp] theorem flowsOf_orphanStep (s : State) (c : Cmd) : flowsOf (orphanStep s c).2 = flowsOf s := by
  unfold orphanStep
  dsimp only
  split
  · split <;> simp
  · split <;> simp
  · split <;> simp

theorem execExtentOrphan_flows (n : NiId) (s : State) : OutFlows s (execExtentOrphan n s) := .answer (by
  split
  · split
    · exact flowsOf_runCtl flowsOf_orphanStep ..
    · rfl
  · rfl)

@[simp] theorem flowsOf_admResult (s : State) (key : Nat) (r : AdmRes) : flowsOf (admResult s key r).2 = flowsOf s := by
  unfold admResult
  split <;> simp

/-! The functions of Machine/FmApi. -/

@[simp] theorem flowsOf_fmRespond (s : State) (c : Cmd) (code : Nat) (vals : List Nat) :
    flowsOf (fmRespond s c code vals).2 = flowsOf s := by simp [fmRespond]

theorem flowsOf_fmStep {f : State → Cmd → Sub × State} (h : StepKeepsFlows f) : StepKeepsFlows (fmStep f) := by
  intro s c
  unfold fmStep
  dsimp only
  split
  · split
    · rfl
    · split <;> simp
  · split
    · rfl
    next htake => split <;> simp [flowsOf_of_takeAnswer htake]
  · split
    · rfl
    · split <;> simp
  · split
    · rfl
    next htake => split <;> simp [flowsOf_of_takeAnswer htake]
  · exact h s c

theorem flowsOf_runFm {f : State → Cmd → Sub × State} (h : StepKeepsFlows f) (ok : Nat → Bool) (s : State) :
    flowsOf (runFm ok f s) = flowsOf s := by
  unfold runFm
  split
  · split
    · exact flowsOf_runCtl (flowsOf_fmStep h) ..
    · rfl
  · rfl

theorem execFmIdentify_flows (s : State) : OutFlows s (execFmIdentify s) := .answer (flowsOf_runFm (fun t c => by simp) ..)
theorem execFmBackgroundOperationStatus_flows (s : State) : OutFlows s (execFmBackgroundOperationStatus s) :=
  .answer (flowsOf_runFm (fun t c => by split <;> simp) ..)
theorem execFmGetDcdInfo_flows (s : State) : OutFlows s (execFmGetDcdInfo s) := .answer (flowsOf_runFm (fun t c => by simp) ..)
theorem execFmGetDcRegionExtentLists_flows (s : State) : OutFlows s (execFmGetDcRegionExtentLists s) :=
  .answer (flowsOf_runFm (fun t c => by split <;> simp) ..)

@[simp] theorem flowsOf_fmNext (s : State) (c : Cmd) (rest : List Nat) : flowsOf (fmNext s c rest).2 = flowsOf s := by
  unfold fmNext
  split <;> simp

@[simp] theorem flowsOf_fmRefused (s : State) (c : Cmd) : flowsOf (fmRefused s c).2 = flowsOf s := by simp [fmRefused]

theorem flowsOf_of_bindStep {s t : State} {key sub x ni dpa tag : Nat} {restore : Bool} {r : Sub}
    (h : bindStep s key sub x ni dpa tag restore = (r, t)) : flowsOf t = flowsOf s := by
  rw [← flowsOf_bindStep s key sub x ni dpa tag restore, h]

theorem flowsOf_of_shareStep {s t : State} {key sub : Nat} {a : ShareArg} {r : Sub} (h : shareStep s key sub a = (r, t)) :
    flowsOf t = flowsOf s := by rw [← flowsOf_shareStep s key sub a, h]

theorem flowsOf_fmAddStep : StepKeepsFlows fmAddStep := by
  intro s c
  unfold fmAddStep
  dsimp only
  split
  · split <;> simp
  · split
    · split
      · split
        · simp
        · split
          next h => exact flowsOf_of_bindStep h
          next h => exact flowsOf_of_bindStep h
          next h => simp [flowsOf_of_bindStep h]
      · split
        · simp
        · split
          next h => exact flowsOf_of_shareStep h
          next h => simp [flowsOf_of_shareStep h]
          next h => simp [flowsOf_of_shareStep h]
    · simp

theorem execFmInitiateDcAdd_flows (s : State) : OutFlows s (execFmInitiateDcAdd s) := .answer (flowsOf_runFm flowsOf_fmAddStep ..)

theorem flowsOf_of_unbindStep {s t : State} {key sub x : Nat} {r : Sub} (h : unbindStep s key sub x = (r, t)) : flowsOf t = flowsOf s := by
  rw [← flowsOf_unbindStep s key sub x, h]

theorem flowsOf_fmReleaseStep : StepKeepsFlows fmReleaseStep := by
  intro s c
  unfold fmReleaseStep
  split
  · split <;> simp
  · split
    · split
      next h => exact flowsOf_of_unbindStep h
      next h => simp [flowsOf_of_unbindStep h]
      next h => simp [flowsOf_of_unbindStep h]
    · simp

theorem execFmInitiateDcRelease_flows (s : State) : OutFlows s (execFmInitiateDcRelease s) := .answer (flowsOf_runFm flowsOf_fmReleaseStep ..)
theorem execFmUnsupported_flows (s : State) : OutFlows s (execFmUnsupported s) := .answer (flowsOf_runFm (fun t c => by simp) ..)

end Sys2Proof.Machine
end

section
/-! SUPPORT. The functions of power, faults and images that touch no flow leave the admitted flows as they are (for O60). -/

namespace Sys2Proof.Machine

/-! The functions of Machine/Power. -/

@[simp] theorem flowsOf_driveVid (s : State) (code : Nat) (wait : Bool) : flowsOf (driveVid s code wait) = flowsOf s := by simp [driveVid]
@[simp] theorem flowsOf_raiseMargin (s : State) (l v : Nat) : flowsOf (raiseMargin s l v) = flowsOf s := by simp [raiseMargin]

@[simp] theorem flowsOf_setRegion (s : State) (kind i st : Nat) : flowsOf (setRegion s kind i st) = flowsOf s := by
  unfold setRegion
  split <;> simp

@[simp] theorem flowsOf_setHomeAt (s : State) (n x : Nat) : flowsOf (setHomeAt s n x) = flowsOf s := by simp [setHomeAt]
@[simp] theorem flowsOf_setHome (s : State) (n : Nat) : flowsOf (setHome s n) = flowsOf s := by simp [setHome]

@[simp] theorem flowsOf_setLinks (s : State) (x : Nat) (up : Bool) : flowsOf (setLinks s x up) = flowsOf s := by
  refine flowsOf_foldl (fun t x => ?_) _ _
  dsimp only
  split <;> simp

@[simp] theorem flowsOf_freshLinks (s : State) (x : Nat) : flowsOf (freshLinks s x) = flowsOf s := by
  refine flowsOf_foldl (fun t x => ?_) _ _
  dsimp only
  split <;> simp

@[simp] theorem flowsOf_attReset (s : State) (n : Nat) (alt : Bool) : flowsOf (attReset s n alt) = flowsOf s := by simp [attReset]
@[simp] theorem flowsOf_attResetCol (s : State) (c n : Nat) : flowsOf (attResetCol s c n) = flowsOf s := by simp [attResetCol]
@[simp] theorem flowsOf_clampCol (s : State) (c : Nat) : flowsOf (clampCol s c) = flowsOf s := by simp [clampCol]
@[simp] theorem flowsOf_clampNi (s : State) (n : Nat) : flowsOf (clampNi s n) = flowsOf s := by simp [clampNi]
@[simp] theorem flowsOf_wordsReset (s : State) (base size : Nat) (p : Nat → Bool) :
    flowsOf (wordsReset s base size p) = flowsOf s := by simp [wordsReset]
@[simp] theorem flowsOf_rtrFlags (s : State) (c : Nat) : flowsOf (rtrFlags s c) = flowsOf s := by simp [rtrFlags]

@[simp] theorem flowsOf_loseRegion (s : State) (kind i : Nat) : flowsOf (loseRegion s kind i) = flowsOf s := by
  unfold loseRegion
  split <;> simp

@[simp] theorem flowsOf_pwrResult (s : State) (r : BitVec 24) (code : Nat) : flowsOf (pwrResult s r code) = flowsOf s := by simp [pwrResult]
@[simp] theorem flowsOf_pwrOutcome (s : State) (r : BitVec 24) (code : Nat) :
    flowsOf (pwrOutcome s r code) = flowsOf s := by simp [pwrOutcome]

@[simp] theorem flowsOf_moveJobs (s : State) (b : Nat) : flowsOf (moveJobs s b) = flowsOf s := by
  unfold moveJobs
  refine flowsOf_foldl (fun t j => flowsOf_foldl (fun u job => ?_) _ _) _ _
  split <;> simp

@[simp] theorem flowsOf_drainHandshake (s : State) (n : Nat) : flowsOf (drainHandshake s n) = flowsOf s := by simp [drainHandshake]
@[simp] theorem flowsOf_setPhase (s : State) (ph : Nat) : flowsOf (setPhase s ph) = flowsOf s := by simp [setPhase]

@[simp] theorem flowsOf_drainBegin (s : State) (q : PwrReq) : flowsOf (drainBegin s q) = flowsOf s := by
  unfold drainBegin
  split <;> simp

/-- A request that starts: the branches of 16 R351, R353, R355 and R360. -/
theorem pwrTry_keepsFlows (s : State) (q : PwrReq) : OkKeeps flowsOf s (pwrTry s q) := by
  refine .ite (.error _) (.ite ?level (.ite (.error _) (.ite (.error _) (.ite ?wake ?sleep))))
  case level =>
    exact .ite (.error _) (.ite (.error _) (.ite (.ok (by simp [Keeps])) (.ok (.ite (by simp [Keeps]) (by simp [Keeps])))))
  case wake => exact .ite (.error _) (.ite (.ok (by simp [Keeps])) (.ite (.ok (by simp [Keeps])) (.ok (by simp [Keeps]))))
  case sleep =>
    split
    · exact .error _
    · refine .ite (.ite (.ok (by simp [Keeps])) (.ok (by simp [Keeps]))) (.ok ?_)
      unfold Keeps
      dsimp only
      split <;> simp

@[simp] theorem flowsOf_pwrFinish (s : State) (r : BitVec 24) (code : Nat) (agedown : Bool) :
    flowsOf (pwrFinish s r code agedown) = flowsOf s := by simp [pwrFinish]

@[simp] theorem flowsOf_pwrNext (s : State) (fuel : Nat) : flowsOf (pwrNext s fuel) = flowsOf s := by
  induction fuel generalizing s with
  | zero => rfl
  | succ fuel ih =>
    unfold pwrNext
    split
    · rfl
    · split
      · dsimp only
        split
        next h => exact Eq.trans (pwrTry_keepsFlows _ _ _ h) (by simp)
        · simp [ih]
      · split
        · dsimp only
          split
          next h => exact Eq.trans (pwrTry_keepsFlows _ _ _ h) (by simp)
          · simp [ih]
        · rfl

@[simp] theorem flowsOf_pwrEnd (s : State) (code : Nat) : flowsOf (pwrEnd s code) = flowsOf s := by
  unfold pwrEnd
  split <;> simp

@[simp] theorem flowsOf_pwrWrite (s : State) (r : BitVec 24) : flowsOf (pwrWrite s r) = flowsOf s := by
  unfold pwrWrite
  split <;> simp

@[simp] theorem flowsOf_pwrCmd (s : State) (m : Master) (req : BitVec 32) (action : Nat) :
    flowsOf (pwrCmd s m req action) = flowsOf s := by simp [pwrCmd]
theorem execPwrSetLevel_flows (m : Master) (req : BitVec 32) (s : State) : OutFlows s (execPwrSetLevel m req s) := .answer (by simp)
theorem execPwrCg_flows (m : Master) (req : BitVec 32) (s : State) : OutFlows s (execPwrCg m req s) := .answer (by simp)
theorem execPwrRet_flows (m : Master) (req : BitVec 32) (s : State) : OutFlows s (execPwrRet m req s) := .answer (by simp)
theorem execPwrOff_flows (m : Master) (req : BitVec 32) (s : State) : OutFlows s (execPwrOff m req s) := .answer (by simp)
theorem execPwrWake_flows (m : Master) (req : BitVec 32) (s : State) : OutFlows s (execPwrWake m req s) := .answer (by simp)
@[simp] theorem flowsOf_marginDone (s : State) : flowsOf (marginDone s) = flowsOf s := by simp [marginDone]
theorem execPwrPgood_flows (s : State) : OutFlows s (execPwrPgood s) := .answer (by split <;> simp)
theorem execVrTimeout_flows (s : State) : OutFlows s (execVrTimeout s) := .answer (by split <;> simp)
@[simp] theorem flowsOf_colBack (s : State) (c : Nat) : flowsOf (colBack s c) = flowsOf s := by simp [colBack]

@[simp] theorem flowsOf_entryFails (s : State) (q : PwrReq) (code : Nat) : flowsOf (entryFails s q code) = flowsOf s := by
  unfold entryFails
  split <;> simp

@[simp] theorem flowsOf_entryClamp (s : State) (q : PwrReq) : flowsOf (entryClamp s q) = flowsOf s := by
  unfold entryClamp
  dsimp only
  repeat' split
  all_goals simp

theorem execRegionDrainDone_flows (s : State) : OutFlows s (execRegionDrainDone s) := .answer (by split <;> simp)
@[simp] theorem flowsOf_niDiscardAll (s : State) (n : Nat) : flowsOf (niDiscardAll s n) = flowsOf s := by simp [niDiscardAll]
@[simp] theorem flowsOf_closeRun (s : State) (k : Nat) :
    flowsOf (execRegionDrainDeadline.closeRun s k) = flowsOf s := by simp [execRegionDrainDeadline.closeRun]

theorem execRegionDrainDeadline_flows (s : State) : OutFlows s (execRegionDrainDeadline s) := .answer (by
  split
  · split
    · rfl
    · dsimp only
      split
      · simp
      · split <;> simp
      · split
        · simp
        · split <;> simp
  · rfl)

theorem execRegionEntryDone_flows (s : State) : OutFlows s (execRegionEntryDone s) := .answer (by split <;> simp)
theorem execRegionWakeReady_flows (s : State) : OutFlows s (execRegionWakeReady s) := .answer (by split <;> simp)
@[simp] theorem flowsOf_niReturns (s : State) (n : Nat) (lost : Bool) : flowsOf (niReturns s n lost) = flowsOf s := by simp [niReturns]

@[simp] theorem flowsOf_rejoin (s : State) (q : PwrReq) : flowsOf (rejoin s q) = flowsOf s := by
  unfold rejoin
  dsimp only
  split <;> simp

@[simp] theorem flowsOf_pwrStep2 (s : State) : flowsOf (pwrStep2 s) = flowsOf s := by
  unfold pwrStep2
  dsimp only
  repeat' split
  all_goals simp

@[simp] theorem flowsOf_pwrRejoin (s : State) : flowsOf (pwrRejoin s) = flowsOf s := by
  unfold pwrRejoin
  split <;> simp

@[simp] theorem flowsOf_ageRestart (s : State) : flowsOf (ageRestart s) = flowsOf s := by simp [ageRestart]

@[simp] theorem flowsOf_pwrStep5 (s : State) : flowsOf (pwrStep5 s) = flowsOf s := by
  unfold pwrStep5
  split <;> simp

@[simp] theorem flowsOf_marginDue (s : State) (m : Nat) : flowsOf (marginDue s m) = flowsOf s := by
  unfold marginDue
  dsimp only
  repeat' split
  all_goals simp

@[simp] theorem flowsOf_ageMeasure (s : State) (m v : Nat) : flowsOf (ageMeasure s m v) = flowsOf s := by simp [ageMeasure]

@[simp] theorem flowsOf_ageTick (s : State) (slacks : List (BitVec 6)) : flowsOf (ageTick s slacks) = flowsOf s := by
  unfold ageTick
  dsimp only
  split <;> simp

/-! The functions of Machine/Faults. -/

@[simp] theorem flowsOf_wireSteerAt (s : State) (pl : Plane) (x port g : Nat) (far : Bool) :
    flowsOf (wireSteerAt s pl x port g far) = flowsOf s := by
  unfold wireSteerAt
  dsimp only
  split <;> simp

@[simp] theorem flowsOf_wireCountEnd (s : State) (pl : Plane) (x port g : Nat) (far : Bool) :
    flowsOf (wireCountEnd s pl x port g far) = flowsOf s := by simp [wireCountEnd]
theorem execWireSteer_flows (pl : Plane) (x : RtrId) (port : BitVec 4) (g : BitVec 3) (s : State) :
    OutFlows s (execWireSteer pl x port g s) := .answer (by simp)
theorem execWireCountExpire_flows (pl : Plane) (x : RtrId) (port : BitVec 4) (g : BitVec 3) (s : State) :
    OutFlows s (execWireCountExpire pl x port g s) := .answer (by simp)
@[simp] theorem flowsOf_rehome (s : State) (x : Nat) : flowsOf (rehome s x) = flowsOf s := by simp [rehome]
theorem execRehomeDone_flows (s : State) : OutFlows s (execRehomeDone s) := .answer (by simp)
@[simp] theorem flowsOf_caseEnd (s : State) : flowsOf (caseEnd s) = flowsOf s := by simp [caseEnd]

@[simp] theorem flowsOf_fltRestore (s : State) (v : Nat) : flowsOf (fltRestore s v) = flowsOf s := by
  unfold fltRestore
  split <;> simp

theorem execGlbFltRestore_flows (m : Master) (v : BitVec 32) (s : State) : OutFlows s (execGlbFltRestore m v s) := .answer (by simp)
theorem execRouterBistDone_flows (pass : Bool) (s : State) : OutFlows s (execRouterBistDone pass s) := .answer (by simp)
@[simp] theorem flowsOf_routerBack (s : State) (x : Nat) : flowsOf (routerBack s x) = flowsOf s := by simp [routerBack]
@[simp] theorem flowsOf_rowNote (s : State) (kind unit row code sev : Nat) :
    flowsOf (rowNote s kind unit row code sev) = flowsOf s := by simp [rowNote]
@[simp] theorem flowsOf_rowspWrite (s : State) (kind : Nat) : flowsOf (rowspWrite s kind) = flowsOf s := by simp [rowspWrite]
@[simp] theorem flowsOf_rowSpare (s : State) (kind unit row : Nat) : flowsOf (rowSpare s kind unit row) = flowsOf s := by simp [rowSpare]

@[simp] theorem flowsOf_rowInvalid (s : State) (kind n row : Nat) : flowsOf (rowInvalid s kind n row) = flowsOf s := by
  unfold rowInvalid
  split <;> simp

@[simp] theorem flowsOf_rowTracker (s : State) (n row : Nat) : flowsOf (rowTracker s n row) = flowsOf s := by
  unfold rowTracker
  split <;> simp

@[simp] theorem flowsOf_rowLost (s : State) (kind unit row : Nat) : flowsOf (rowLost s kind unit row) = flowsOf s := by
  unfold rowLost
  repeat' split
  all_goals simp

@[simp] theorem flowsOf_rowCorrected (s : State) (kind unit row : Nat) :
    flowsOf (rowCorrected s kind unit row) = flowsOf s := by simp [rowCorrected]

/-! The functions of Machine/Keys. -/

@[simp] theorem flowsOf_setKey (s : State) (ml : Bool) (i : Nat) (v : BitVec 384) :
    flowsOf (setKey s ml i v) = flowsOf s := by simp [setKey]
@[simp] theorem flowsOf_wipeKeys (s : State) (l : List Nat) : flowsOf (wipeKeys s l) = flowsOf s := by simp [wipeKeys]
@[simp] theorem flowsOf_takeFree256 (s : State) : flowsOf (takeFree256 s).2 = flowsOf s := by simp [takeFree256]
@[simp] theorem flowsOf_fillJrnA (s : State) : flowsOf (fillJrnA s) = flowsOf s := by simp [fillJrnA]
@[simp] theorem flowsOf_fillJrnB (s : State) : flowsOf (fillJrnB s) = flowsOf s := by simp [fillJrnB]
@[simp] theorem flowsOf_returnWipes (s : State) : flowsOf (returnWipes s) = flowsOf s := by simp [returnWipes]
@[simp] theorem flowsOf_scrapWipes (s : State) : flowsOf (scrapWipes s) = flowsOf s := by simp [scrapWipes]

/-! The functions of Machine/SlotPower. -/

@[simp] theorem flowsOf_updSlt (s : State) (n : Nat) (f : SlotSt → SlotSt) : flowsOf (updSlt s n f) = flowsOf s := by simp [updSlt]
@[simp] theorem flowsOf_slotNote (s : State) (n code sev : Nat) : flowsOf (slotNote s n code sev) = flowsOf s := by simp [slotNote]
@[simp] theorem flowsOf_slotRamp (s : State) (n : Nat) : flowsOf (slotRamp s n) = flowsOf s := by simp [slotRamp]
@[simp] theorem flowsOf_slotRemoved (s : State) (n : Nat) : flowsOf (slotRemoved s n) = flowsOf s := by simp [slotRemoved]
@[simp] theorem flowsOf_slotLeave (s : State) (n : Nat) (st : BitVec 3) : flowsOf (slotLeave s n st) = flowsOf s := by simp [slotLeave]
@[simp] theorem flowsOf_slotFaultLeave (s : State) (n : Nat) (st : BitVec 3) :
    flowsOf (slotFaultLeave s n st) = flowsOf s := by simp [slotFaultLeave]
@[simp] theorem flowsOf_slotRetry (s : State) (n : Nat) : flowsOf (slotRetry s n) = flowsOf s := by simp [slotRetry]
@[simp] theorem flowsOf_slotFaultNote (s : State) (n cause : Nat) : flowsOf (slotFaultNote s n cause) = flowsOf s := by simp [slotFaultNote]
@[simp] theorem flowsOf_slotGate (s : State) (n : Nat) : flowsOf (slotGate s n) = flowsOf s := by simp [slotGate]
@[simp] theorem flowsOf_slotRampFault (s : State) (n cause : Nat) : flowsOf (slotRampFault s n cause) = flowsOf s := by simp [slotRampFault]
@[simp] theorem flowsOf_slotFaultIn (s : State) (n cause : Nat) : flowsOf (slotFaultIn s n cause) = flowsOf s := by simp [slotFaultIn]
@[simp] theorem flowsOf_slotResume (s : State) (n : Nat) : flowsOf (slotResume s n) = flowsOf s := by simp [slotResume]
@[simp] theorem flowsOf_slotEnable (s : State) (n : Nat) : flowsOf (slotEnable s n) = flowsOf s := by simp [slotEnable]
theorem execSltPrsntChange_flows (n : BitVec 6) (v : Bool) (s : State) : OutFlows s (execSltPrsntChange n v s) := .answer (by simp)
theorem execPresenceDebounced_flows (n : BitVec 6) (s : State) : OutFlows s (execPresenceDebounced n s) := .answer (by simp)
@[simp] theorem flowsOf_slotRemoval (s : State) (n : Nat) : flowsOf (slotRemoval s n) = flowsOf s := by simp [slotRemoval]
theorem execModuleRemoval_flows (n : BitVec 6) (s : State) : OutFlows s (execModuleRemoval n s) := .answer (by simp)

theorem execSlotPgoodRise_flows (n : BitVec 6) (s : State) : OutFlows s (execSlotPgoodRise n s) := .answer (by
  dsimp only
  repeat' split
  all_goals simp)

theorem execRampTimeout_flows (n : BitVec 6) (s : State) : OutFlows s (execRampTimeout n s) := .answer (by simp)
theorem execSlotFault_flows (n : BitVec 6) (code : BitVec 2) (s : State) : OutFlows s (execSlotFault n code s) := .answer (by simp)
theorem execSlotPgoodDrop_flows (n : BitVec 6) (s : State) : OutFlows s (execSlotPgoodDrop n s) := .answer (by simp)

theorem execPgLost_flows (n : BitVec 6) (s : State) : OutFlows s (execPgLost n s) := .answer (by
  dsimp only
  split <;> simp)

theorem execRetryEnd_flows (n : BitVec 6) (s : State) : OutFlows s (execRetryEnd n s) := .answer (by simp)
theorem execSlotFeedChange_flows (n : BitVec 6) (feed : BitVec 2) (s : State) :
    OutFlows s (execSlotFeedChange n feed s) := .answer (by simp)
@[simp] theorem flowsOf_slotResult (s : State) (n res : Nat) : flowsOf (slotResult s n res) = flowsOf s := by simp [slotResult]
@[simp] theorem flowsOf_slotMclr (s : State) (n : Nat) : flowsOf (slotMclr s n) = flowsOf s := by simp [slotMclr]
@[simp] theorem flowsOf_slotClear (s : State) (n : Nat) : flowsOf (slotClear s n) = flowsOf s := by simp [slotClear]
@[simp] theorem flowsOf_slotPlock (s : State) (n : Nat) : flowsOf (slotPlock s n) = flowsOf s := by simp [slotPlock]
@[simp] theorem flowsOf_slotOff (s : State) (n : Nat) (force : Bool) : flowsOf (slotOff s n force) = flowsOf s := by simp [slotOff]
@[simp] theorem flowsOf_slotPowerOn (s : State) (n : Nat) : flowsOf (slotPowerOn s n) = flowsOf s := by simp [slotPowerOn]
@[simp] theorem flowsOf_slotCtl (s : State) (n v : Nat) : flowsOf (slotCtl s n v) = flowsOf s := by simp [slotCtl]
theorem flowsOf_slotCmd {f : State → Nat → State} (h : ∀ t k, flowsOf (f t k) = flowsOf t) (s : State) (m : Master) (n : BitVec 6) :
    flowsOf (slotCmd s m n f) = flowsOf s := by simp [slotCmd, h]
theorem execMclr_flows (m : Master) (n : BitVec 6) (s : State) : OutFlows s (execMclr m n s) := .answer (flowsOf_slotCmd flowsOf_slotMclr ..)
theorem execClear_flows (m : Master) (n : BitVec 6) (s : State) : OutFlows s (execClear m n s) := .answer (flowsOf_slotCmd flowsOf_slotClear ..)
theorem execPlock_flows (m : Master) (n : BitVec 6) (s : State) : OutFlows s (execPlock m n s) := .answer (flowsOf_slotCmd flowsOf_slotPlock ..)
theorem execSlotOff_flows (m : Master) (n : BitVec 6) (force : Bool) (s : State) : OutFlows s (execSlotOff m n force s) :=
  .answer (flowsOf_slotCmd (fun t k => flowsOf_slotOff t k force) ..)
theorem execSlotOn_flows (m : Master) (n : BitVec 6) (s : State) : OutFlows s (execSlotOn m n s) := .answer (flowsOf_slotCmd flowsOf_slotPowerOn ..)

/-! The functions of Machine/Image. -/

@[simp] theorem flowsOf_imgState (s : State) (st : Nat) : flowsOf (imgState s st) = flowsOf s := by simp [imgState]
@[simp] theorem flowsOf_imgCode (s : State) (code sub : Nat) : flowsOf (imgCode s code sub) = flowsOf s := by simp [imgCode]
@[simp] theorem flowsOf_imgIdle (s : State) : flowsOf (imgIdle s) = flowsOf s := by simp [imgIdle]
@[simp] theorem flowsOf_imgRefusal (s : State) (code sub : Nat) : flowsOf (imgRefusal s code sub) = flowsOf s := by simp [imgRefusal]
@[simp] theorem flowsOf_imgRefuse (s : State) (code sub : Nat) : flowsOf (imgRefuse s code sub) = flowsOf s := by simp [imgRefuse]
@[simp] theorem flowsOf_imgAborted (s : State) : flowsOf (imgAborted s) = flowsOf s := by simp [imgAborted]
@[simp] theorem flowsOf_imgStartWrite (s : State) : flowsOf (imgStartWrite s) = flowsOf s := by simp [imgStartWrite]
theorem execImgStart_flows (m : Master) (s : State) : OutFlows s (execImgStart m s) := .answer (by simp)
@[simp] theorem flowsOf_imgAbortWrite (s : State) : flowsOf (imgAbortWrite s) = flowsOf s := by simp [imgAbortWrite]
theorem execImgAbort_flows (m : Master) (s : State) : OutFlows s (execImgAbort m s) := .answer (by simp)

@[simp] theorem flowsOf_imgDataWrite (s : State) (v : Word) : flowsOf (imgDataWrite s v) = flowsOf s := by
  unfold imgDataWrite
  dsimp only
  repeat' split
  all_goals simp

theorem execImgData_flows (m : Master) (v : Word) (s : State) : OutFlows s (execImgData m v s) := .answer (by simp)
@[simp] theorem flowsOf_putWindow (s : State) (n k : Nat) (v : Word) : flowsOf (putWindow s n k v) = flowsOf s := by simp [putWindow]
@[simp] theorem flowsOf_putBgt (s : State) (n : Nat) (v : Word) : flowsOf (putBgt s n v) = flowsOf s := by simp [putBgt]

@[simp] theorem flowsOf_putWires (s : State) (x : Nat) (v : Word) : flowsOf (putWires s x v) = flowsOf s := by
  unfold putWires
  split <;> simp

@[simp] theorem flowsOf_putActive (s : State) (a : Nat) (v : Word) : flowsOf (putActive s a v) = flowsOf s := by simp [putActive]
@[simp] theorem flowsOf_imgPut (s : State) (w : Nat × Word) : flowsOf (imgPut s w) = flowsOf s := by simp [imgPut]
@[simp] theorem flowsOf_imgPutAll (s : State) (l : List (Nat × Word)) : flowsOf (imgPutAll s l) = flowsOf s := by simp [imgPutAll]
@[simp] theorem flowsOf_putRoute (s : State) (w : Nat × Word) : flowsOf (putRoute s w) = flowsOf s := by simp [putRoute]
@[simp] theorem flowsOf_coldClear (s : State) : flowsOf (coldClear s) = flowsOf s := by simp [coldClear]
@[simp] theorem flowsOf_freshPort (s : State) (x : Nat) (pl : Plane) (port : Nat) :
    flowsOf (freshPort s x pl port) = flowsOf s := by simp [freshPort]
@[simp] theorem flowsOf_portsImg (s : State) (x : Nat) (was : Word) : flowsOf (portsImg s x was) = flowsOf s := by simp [portsImg]
@[simp] theorem flowsOf_spanImg (s : State) (p : Nat) : flowsOf (spanImg s p) = flowsOf s := by simp [spanImg]
@[simp] theorem flowsOf_portImg (s : State) (n : Nat) (was : Bool) : flowsOf (portImg s n was) = flowsOf s := by simp [portImg]
@[simp] theorem flowsOf_imgWords2 (s : State) : flowsOf (imgWords2 s) = flowsOf s := by simp [imgWords2]
@[simp] theorem flowsOf_imgTrkMax (s : State) : flowsOf (imgTrkMax s) = flowsOf s := by simp [imgTrkMax]
@[simp] theorem flowsOf_imgStep4 (s : State) : flowsOf (imgStep4 s) = flowsOf s := by simp [imgStep4]
@[simp] theorem flowsOf_boundOk (s : State) : flowsOf (boundOk s) = flowsOf s := by simp [boundOk]

@[simp] theorem flowsOf_imgDone (s : State) : flowsOf (imgDone s) = flowsOf s := by
  unfold imgDone
  extract_lets b cold d s1 s2 s3 s4 img4 s4a s5 s6
  have h1 : flowsOf s1 = flowsOf s := by simp [s1]
  have h3 : flowsOf s3 = flowsOf s := by simp [s3, s2, h1]
  have h4 : flowsOf s4 = flowsOf s := by simp [s4, h3]
  have h5 : flowsOf s5 = flowsOf s := by
    simp only [s5, s4a]
    split <;> simp [h4]
  have h6 : flowsOf s6 = flowsOf s := by simp [s6, h5]
  split <;> simp [h6]

@[simp] theorem flowsOf_imgStep6 (s : State) : flowsOf (imgStep6 s) = flowsOf s := by simp [imgStep6]

theorem execImageVerifyDone_flows (s : State) : OutFlows s (execImageVerifyDone s) := .answer (by
  repeat' split
  all_goals simp)

@[simp] theorem flowsOf_imgJudge (s : State) : flowsOf (imgJudge s) = flowsOf s := by
  unfold imgJudge
  repeat' split
  all_goals simp

theorem execImagePrecheck_flows (s : State) : OutFlows s (execImagePrecheck s) := .answer (by simp)

/-! The functions of Machine/Reset. -/

theorem execColdResetRelease_flows (s : State) : OutFlows s (execColdResetRelease s) := .answer (by simp)
theorem execColdInitDone_flows (s : State) : OutFlows s (execColdInitDone s) := .answer (by simp)
@[simp] theorem flowsOf_warmPort (s : State) (n : Nat) : flowsOf (warmPort s n) = flowsOf s := by simp [warmPort]

@[simp] theorem flowsOf_warmPower (s : State) : flowsOf (warmPower s) = flowsOf s := by
  unfold warmPower
  split <;> simp

@[simp] theorem flowsOf_warmRegion (s : State) (kind i : Nat) : flowsOf (warmRegion s kind i) = flowsOf s := by
  unfold warmRegion
  dsimp only
  repeat' split
  all_goals simp

@[simp] theorem flowsOf_warmRegions (s : State) : flowsOf (warmRegions s) = flowsOf s := by simp [warmRegions]
@[simp] theorem flowsOf_warmNi (s : State) (n : Nat) : flowsOf (warmNi s n) = flowsOf s := by simp [warmNi]
@[simp] theorem flowsOf_warmRings (s : State) : flowsOf (warmRings s) = flowsOf s := by simp [warmRings]
@[simp] theorem flowsOf_warmJrn (s : State) : flowsOf (warmJrn s) = flowsOf s := by simp [warmJrn]
@[simp] theorem flowsOf_warmRoutes (s : State) : flowsOf (warmRoutes s) = flowsOf s := by simp [warmRoutes]

@[simp] theorem flowsOf_warmPwrReq (s : State) : flowsOf (warmPwrReq s) = flowsOf s := by
  unfold warmPwrReq
  split <;> simp

@[simp] theorem flowsOf_warmReset (s : State) : flowsOf (warmReset s) = flowsOf s := by simp [warmReset, warmEng]
theorem execWarmQuiesceDone_flows (s : State) : OutFlows s (execWarmQuiesceDone s) := .answer (by simp)
@[simp] theorem flowsOf_rewriteRecs (s : State) : flowsOf (rewriteRecs s) = flowsOf s := by simp [rewriteRecs]
theorem execWarmResetRelease_flows (s : State) : OutFlows s (execWarmResetRelease s) := .answer (by split <;> simp)

@[simp] theorem flowsOf_restartCtl (s : State) : flowsOf (restartCtl s) = flowsOf s := by
  unfold restartCtl
  split <;> simp

theorem execRinkInResetRaise_flows (b : BitVec 3) (s : State) : OutFlows s (execRinkInResetRaise b s) := .answer (by simp)

/-! The functions of Machine/LifeCycle. -/

@[simp] theorem flowsOf_tokenStat (s : State) (code : Nat) : flowsOf (tokenStat s code) = flowsOf s := by simp [tokenStat]
@[simp] theorem flowsOf_tokenEnd (s : State) (code : Nat) : flowsOf (tokenEnd s code) = flowsOf s := by simp [tokenEnd]
@[simp] theorem flowsOf_tokenStartWrite (s : State) : flowsOf (tokenStartWrite s) = flowsOf s := by simp [tokenStartWrite]
theorem execTokenStart_flows (m : Master) (s : State) : OutFlows s (execTokenStart m s) := .answer (by simp)
@[simp] theorem flowsOf_tokenDataWrite (s : State) (v : Word) : flowsOf (tokenDataWrite s v) = flowsOf s := by simp [tokenDataWrite]
theorem execTokenData_flows (m : Master) (v : Word) (s : State) : OutFlows s (execTokenData m v s) := .answer (by simp)
@[simp] theorem flowsOf_tokenAbortWrite (s : State) : flowsOf (tokenAbortWrite s) = flowsOf s := by simp [tokenAbortWrite]
theorem execTokenAbort_flows (m : Master) (s : State) : OutFlows s (execTokenAbort m s) := .answer (by simp)
theorem execTokenRefusal_flows (s : State) : OutFlows s (execTokenRefusal s) := .answer (by simp)
@[simp] theorem flowsOf_sessionEnd (s : State) : flowsOf (sessionEnd s) = flowsOf s := by simp [sessionEnd]
theorem execDebugUnlock_flows (s : State) : OutFlows s (execDebugUnlock s) := .answer (by simp)
theorem execRelock_flows (m : Master) (s : State) : OutFlows s (execRelock m s) := .answer (by simp)

@[simp] theorem flowsOf_sessionOver (s : State) : flowsOf (sessionOver s) = flowsOf s := by
  unfold sessionOver
  split <;> simp

theorem execSessionExpire_flows (s : State) : OutFlows s (execSessionExpire s) := .answer (by simp)
theorem execFloor_flows (fuseOk : Bool) (s : State) : OutFlows s (execFloor fuseOk s) := .answer (by simp)
@[simp] theorem flowsOf_keyWrite (s : State) (m : Master) (v : Nat) (fuseOk : Bool) :
    flowsOf (keyWrite s m v fuseOk) = flowsOf s := by simp [keyWrite]
theorem execKeyProgram_flows (m : Master) (v : BitVec 32) (fuseOk : Bool) (s : State) :
    OutFlows s (execKeyProgram m v fuseOk s) := .answer (by simp)

end Sys2Proof.Machine
end

section
/-! SUPPORT. The functions of registers, the matrix and the gate tick that touch no flow leave the admitted flows as they are (for O60). -/

namespace Sys2Proof.Machine

/-! The functions of Machine/Counters. -/

@[simp] theorem flowsOf_snapWrite (s : State) (v : Word) : flowsOf (snapWrite s v) = flowsOf s := by simp [snapWrite]
theorem execCntSnapCtl_flows (v : Word) (s : State) : OutFlows s (execCntSnapCtl v s) := .answer (by simp)

@[simp] theorem flowsOf_snapTake (s : State) : flowsOf (snapTake s) = flowsOf s := by
  unfold snapTake
  split <;> simp

theorem execCounterSnapshot_flows (s : State) : OutFlows s (execCounterSnapshot s) := .answer (by simp)
theorem execSnapshotDone_flows (s : State) : OutFlows s (execSnapshotDone s) := .answer (by split <;> simp)
@[simp] theorem flowsOf_thrWrite (s : State) (j : Nat) (v : Word) : flowsOf (thrWrite s j v) = flowsOf s := by simp [thrWrite]
theorem execCntThrCfg_flows (j : BitVec 6) (v : Word) (s : State) : OutFlows s (execCntThrCfg j v s) := .answer (by simp)

/-! The functions of Machine/RegRead. -/

@[simp] theorem flowsOf_readBeat (s : State) (a : Nat) : flowsOf (readBeat s a).2 = flowsOf s := by
  unfold readBeat
  repeat' split
  all_goals simp

/-! The functions of Machine/Registers. -/

theorem flowsOf_nextOf {o : Host.Outcome State Fault Refusal} {s : State} (h : OutFlows s o) : flowsOf (nextOf o s) = flowsOf s := by
  cases o with
  | next t => exact h.flows t rfl
  | fault _ => rfl
  | refused _ => rfl

@[simp] theorem flowsOf_plainWrite (s : State) (a : Nat) (v mask : Word) :
    flowsOf (plainWrite s a v mask) = flowsOf s := by simp [plainWrite]
@[simp] theorem flowsOf_kbufWrite (s : State) (w : Nat) (v : Word) : flowsOf (kbufWrite s w v) = flowsOf s := by simp [kbufWrite]

@[simp] theorem flowsOf_ringWrite (s : State) (q k : Nat) (v mask : Word) : flowsOf (ringWrite s q k v mask) = flowsOf s := by
  have hreset : ∀ b, flowsOf (nextOf (execRingReset b s) s) = flowsOf s := fun b => flowsOf_nextOf (execRingReset_flows b s)
  have hresume : ∀ b t, flowsOf (nextOf (execRingResume b t) t) = flowsOf t := fun b t => flowsOf_nextOf (execRingResume_flows b t)
  unfold ringWrite
  dsimp only
  split
  · exact flowsOf_nextOf (execRingPiWrite_flows ..)
  · exact flowsOf_nextOf (execRingRciWrite_flows ..)
  · simp [hreset, hresume]
  · simp

@[simp] theorem flowsOf_niWrite (s : State) (n off : Nat) (v mask : Word) : flowsOf (niWrite s n off v mask) = flowsOf s := by
  unfold niWrite
  split
  · exact flowsOf_nextOf (execNiSlcRst_flows ..)
  · simp
  · simp
  · simp

@[simp] theorem flowsOf_errLog (s : State) (m : Master) (resp : BitVec 2) (wr' : Bool) (addr : Nat) :
    flowsOf (errLog s m resp wr' addr) = flowsOf s := by simp [errLog]
@[simp] theorem flowsOf_mgWords (s : State) (a count : Nat) : flowsOf (mgWords s a count).2 = flowsOf s := by simp [mgWords]

@[simp] theorem flowsOf_mgRead (s : State) (node : Nat) (m : Msg) : flowsOf (mgRead s node m).2 = flowsOf s := by
  unfold mgRead
  dsimp only
  split <;> simp

@[simp] theorem flowsOf_rtrAnswer (s : State) (x : Nat) (m : Msg) : flowsOf (rtrAnswer s x m) = flowsOf s := by simp [rtrAnswer]

theorem flowsOf_mgServe {f : State → Nat → Msg → Msg × State} (h : ∀ s n m, flowsOf (f s n m).2 = flowsOf s) (s : State)
    (node opc : Nat) : flowsOf (mgServe s node opc f) = flowsOf s := by
  unfold mgServe
  dsimp only
  split
  · split
    · rfl
    · split
      next hrx => simp [flowsOf_rxCheck_drop hrx]
      next hrx => split <;> simp [h, flowsOf_rxCheck_pass hrx]
  · split
    · split
      · rfl
      · simp [h]
    · split
      · rfl
      · split
        · rfl
        · simp [h]

theorem execMgRdReceive_flows (node : BitVec 8) (s : State) : OutFlows s (execMgRdReceive node s) :=
  .answer (flowsOf_mgServe flowsOf_mgRead ..)

/-! The functions of Machine/Matrix. -/

@[simp] theorem flowsOf_updTgt (s : State) (t : Nat) (f : MmTgt → MmTgt) : flowsOf (updTgt s t f) = flowsOf s := by simp [updTgt]
@[simp] theorem flowsOf_updAcc (s : State) (id : Nat) (f : MmAcc → MmAcc) : flowsOf (updAcc s id f) = flowsOf s := by simp [updAcc]
@[simp] theorem flowsOf_mmFlush (s : State) : flowsOf (mmFlush s) = flowsOf s := by simp [mmFlush]
@[simp] theorem flowsOf_emptyBeats (s : State) (count : Nat) (code : BitVec 2) :
    flowsOf (emptyBeats s count code).2 = flowsOf s := by simp [emptyBeats]
@[simp] theorem flowsOf_mmEnd (s : State) (a : MmAcc) (code : BitVec 2) : flowsOf (mmEnd s a code) = flowsOf s := by simp [mmEnd]
@[simp] theorem flowsOf_mmRefuse (s : State) (a : MmAcc) (code : BitVec 2) : flowsOf (mmRefuse s a code) = flowsOf s := by simp [mmRefuse]
@[simp] theorem flowsOf_barNote (s : State) (m : Master) (t : Nat) : flowsOf (barNote s m t) = flowsOf s := by simp [barNote]

@[simp] theorem flowsOf_mmJudge (s : State) (a : MmAcc) : flowsOf (mmJudge s a).2 = flowsOf s := by
  unfold mmJudge
  dsimp only
  split
  · simp
  · repeat' split
    all_goals simp

theorem execMmRequest_flows (m : Master) (addr : BitVec 32) (wr dataCls lock : Bool) (len : BitVec 8) (s : State) :
    OutFlows s (execMmRequest m addr wr dataCls lock len s) := .answer (by
  dsimp only
  repeat' split
  all_goals simp)

@[simp] theorem flowsOf_mmRead (s : State) (addr : Nat) : flowsOf (mmRead s addr).2.2 = flowsOf s := by
  unfold mmRead
  split
  · simp
  · split
    · rfl
    · split
      · rfl
      · split <;> simp

@[simp] theorem flowsOf_mmUnlock (s : State) (a : MmAcc) : flowsOf (mmUnlock s a) = flowsOf s := by simp [mmUnlock]
@[simp] theorem flowsOf_readPiece (s : State) (a : MmAcc) : flowsOf (readPiece s a) = flowsOf s := by simp [readPiece]
@[simp] theorem flowsOf_mmGrantTo (s : State) (t : Nat) (a : MmAcc) : flowsOf (mmGrantTo s t a) = flowsOf s := by simp [mmGrantTo]
@[simp] theorem flowsOf_refuseZero (s : State) (t : Nat) : flowsOf (refuseZero s t) = flowsOf s := by simp [refuseZero]

@[simp] theorem flowsOf_mmArbitrate (s : State) (t : Nat) : flowsOf (mmArbitrate s t) = flowsOf s := by
  unfold mmArbitrate
  dsimp only
  split
  · simp
  · split <;> simp

theorem execMmGrant_flows (t : BitVec 4) (s : State) : OutFlows s (execMmGrant t s) := .answer (by simp)
theorem execMmBurstPiece_flows (t : BitVec 4) (s : State) : OutFlows s (execMmBurstPiece t s) := .answer (by simp)

theorem execLockBreak_flows (t : BitVec 4) (s : State) : OutFlows s (execLockBreak t s) := .answer (by
  dsimp only
  repeat' split
  all_goals simp)

/-! The functions of Machine/GateTick. -/

@[simp] theorem flowsOf_tickTime (s : State) : flowsOf (tickTime s) = flowsOf s := by simp [tickTime]
@[simp] theorem flowsOf_tickOuts (s : State) : flowsOf (tickOuts s) = flowsOf s := by simp [tickOuts]

@[simp] theorem flowsOf_tickRelease (s : State) : flowsOf (tickRelease s) = flowsOf s := by
  unfold tickRelease
  split <;> simp

@[simp] theorem flowsOf_applyEn (s : State) : flowsOf (applyEn s) = flowsOf s := by simp [applyEn]
@[simp] theorem flowsOf_scTick (was s : State) (n : Nat) : flowsOf (scTick was s n) = flowsOf s := by simp [scTick]
@[simp] theorem flowsOf_sliceStep (was s : State) (n : Nat) : flowsOf (sliceStep was s n) = flowsOf s := by simp [sliceStep]
@[simp] theorem flowsOf_tickSlices (was s : State) : flowsOf (tickSlices was s) = flowsOf s := by simp [tickSlices]
@[simp] theorem flowsOf_applyWord (s : State) (p : Nat × Word) : flowsOf (applyWord s p) = flowsOf s := by simp [applyWord]
@[simp] theorem flowsOf_applyPend (s : State) : flowsOf (applyPend s) = flowsOf s := by simp [applyPend]
@[simp] theorem flowsOf_applyRows (s : State) : flowsOf (applyRows s) = flowsOf s := by simp [applyRows]
@[simp] theorem flowsOf_queueTick (was s : State) (n q : Nat) : flowsOf (queueTick was s n q) = flowsOf s := by simp [queueTick]
@[simp] theorem flowsOf_tickQueues (was s : State) : flowsOf (tickQueues was s) = flowsOf s := by simp [tickQueues]
@[simp] theorem flowsOf_tickShares (was s : State) : flowsOf (tickShares was s) = flowsOf s := by simp [tickShares]
@[simp] theorem flowsOf_tickStep6 (was s : State) (img : Bool) : flowsOf (tickStep6 was s img) = flowsOf s := by simp [tickStep6]
@[simp] theorem flowsOf_tickLay (s : State) : flowsOf (tickLay s) = flowsOf s := by simp [tickLay]
@[simp] theorem flowsOf_tickBounds (s : State) : flowsOf (tickBounds s) = flowsOf s := by simp [tickBounds]

end Sys2Proof.Machine
end

section
/-! SUPPORT. Every source entry lies in its table (06 R119, 12 R264; for O60), and suspending, the resets and the writes of registers keep this. -/

namespace Sys2Proof.Machine

variable {s : State}

/-- A flow's source entry lies in its source's table (06 R119, 12 R264). -/
def SrcOk (f : Flow) : Prop := f.srcIdx < if nodeLoc f.srcNode < 128 then 64 else 128

/-- Every flow's source entry lies in its source's table. -/
structure FlowsOk (m : Map Flow) : Prop where
  mem : ∀ p ∈ m, SrcOk p.2

theorem flowsOk_iff {m : Map Flow} : FlowsOk m ↔ ∀ p ∈ m, SrcOk p.2 := ⟨fun h => h.mem, .mk⟩

theorem flowIdx_iff (s : State) : flowIdx s = true ↔ FlowsOk (flowsOf s) := by
  simp [flowIdx, flowsOk_iff, SrcOk, List.all_eq_true]

theorem SrcOk.congr {f g : Flow} (hf : SrcOk f) (hnode : g.srcNode = f.srcNode) (hidx : g.srcIdx = f.srcIdx) : SrcOk g := by
  unfold SrcOk
  rw [hnode, hidx]
  exact hf

theorem FlowsOk.nil : FlowsOk [] := ⟨nofun⟩

theorem flowsOk_cons {p : Nat × Flow} {m : Map Flow} : FlowsOk (p :: m) ↔ SrcOk p.2 ∧ FlowsOk m := by
  simp only [flowsOk_iff, List.forall_mem_cons]

theorem FlowsOk.mset {m : Map Flow} (h : FlowsOk m) (f : Flow) (k : Nat) (hf : SrcOk f) : FlowsOk (mset m k f) := by
  induction m with
  | nil => simpa [Machine.mset, flowsOk_iff] using hf
  | cons p r ih =>
    obtain ⟨hp, hr⟩ := flowsOk_cons.mp h
    unfold Machine.mset
    split
    · exact flowsOk_cons.mpr ⟨hf, hr⟩
    · split
      · exact flowsOk_cons.mpr ⟨hf, h⟩
      · exact flowsOk_cons.mpr ⟨hp, ih hr⟩

theorem FlowsOk.mdel {m : Map Flow} (h : FlowsOk m) (k : Nat) : FlowsOk (mdel m k) :=
  ⟨fun p hp => h.mem p (List.mem_of_mem_filter hp)⟩

theorem mem_of_mget {α : Type} {m : Map α} {k : Nat} {v : α} (h : mget m k = some v) : (k, v) ∈ m := by
  induction m with
  | nil => cases h
  | cons p r ih =>
    unfold mget at h
    split at h
    next hk =>
      obtain rfl := Option.some.inj h
      simp [← hk]
    · exact List.mem_cons_of_mem _ (ih h)

theorem FlowsOk.mget {m : Map Flow} (h : FlowsOk m) {k : Nat} {f : Flow} (hf : mget m k = some f) : SrcOk f := h.mem _ (mem_of_mget hf)

@[simp] theorem flowsOk_ite (c : Prop) [Decidable c] (m n : Map Flow) :
    FlowsOk (if c then m else n) ↔ if c then FlowsOk m else FlowsOk n := by split <;> rfl

theorem flowsOk_foldl {α : Type} {f : State → α → State} {l : List α}
    (hf : ∀ t, ∀ x ∈ l, FlowsOk (flowsOf t) → FlowsOk (flowsOf (f t x))) {s : State} (h : FlowsOk (flowsOf s)) :
    FlowsOk (flowsOf (l.foldl f s)) := by
  induction l generalizing s with
  | nil => exact h
  | cons x l ih => exact ih (fun t y hy => hf t y (List.mem_cons_of_mem x hy)) (hf s x List.mem_cons_self h)

/-- An outcome that, where it is a next state, has every source entry in its table if s has. -/
structure OutFlowsOk (s : State) (o : Host.Outcome State Fault Refusal) : Prop where
  ok : FlowsOk (flowsOf s) → ∀ t, o = .next t → FlowsOk (flowsOf t)

theorem OutFlows.ok {s : State} {o : Host.Outcome State Fault Refusal} (h : OutFlows s o) : OutFlowsOk s o :=
  ⟨fun hs t ht => by rwa [h.flows t ht]⟩

theorem OutFlowsOk.answer {s u : State} (h : FlowsOk (flowsOf s) → FlowsOk (flowsOf u)) : OutFlowsOk s (answer s u) :=
  ⟨fun hs t ht => by cases ht; exact h hs⟩

theorem OutFlowsOk.answerFuse {s u : State} (h : FlowsOk (flowsOf s) → FlowsOk (flowsOf u)) : OutFlowsOk s (answerFuse s u) :=
  ⟨fun hs t ht => by cases ht; exact h hs⟩

@[simp] theorem flowsOk_suspendFlow (h : FlowsOk (flowsOf s)) (id : Nat) : FlowsOk (flowsOf (suspendFlow s id)) := by
  unfold suspendFlow
  split
  · exact h
  next f hf =>
    have hs : FlowsOk (mset (flowsOf s) id { f with susp := true }) := h.mset _ id (.congr (h.mget hf) rfl rfl)
    split <;> simp [h, hs]

@[simp] theorem flowsOk_resumeFlow (h : FlowsOk (flowsOf s)) (id : Nat) : FlowsOk (flowsOf (resumeFlow s id)) := by
  unfold resumeFlow
  split
  · exact h
  next f hf =>
    have hs : FlowsOk (mset (flowsOf s) id { f with susp := false }) := h.mset _ id (.congr (h.mget hf) rfl rfl)
    split <;> simp [h, hs]

@[simp] theorem flowsOk_suspendSpan (h : FlowsOk (flowsOf s)) (p : Nat) : FlowsOk (flowsOf (suspendSpan s p)) :=
  flowsOk_foldl (fun _ id _ ht => flowsOk_suspendFlow ht id) h

@[simp] theorem flowsOk_spanDown (h : FlowsOk (flowsOf s)) (p cause : Nat) : FlowsOk (flowsOf (spanDown s p cause)) := by
  unfold spanDown
  dsimp only
  split <;> simp [h]

@[simp] theorem flowsOk_declareRouter (h : FlowsOk (flowsOf s)) (x cause : Nat) : FlowsOk (flowsOf (declareRouter s x cause)) := by
  unfold declareRouter
  extract_lets second s1 s2 s3 s4 s5 flt5 s6 flt6
  have h3 : FlowsOk (flowsOf s3) := by
    have heq : flowsOf s3 = flowsOf s2 := flowsOf_foldl (fun t k => by split <;> simp) _ _
    simp [heq, s2, s1, h]
  have h4 : FlowsOk (flowsOf s4) := flowsOk_foldl (fun t p _ ht => by split <;> simp [ht]) h3
  have h6 : FlowsOk (flowsOf s6) := by simp [s6, s5, h4]
  split
  · exact h
  · split <;> simp [h6]

@[simp] theorem flowsOk_fltDecl (h : FlowsOk (flowsOf s)) (v : Nat) : FlowsOk (flowsOf (fltDecl s v)) := by simp [fltDecl, h]

@[simp] theorem flowsOk_warmSpan (h : FlowsOk (flowsOf s)) (p : Nat) : FlowsOk (flowsOf (warmSpan s p)) := by simp [warmSpan, h]

@[simp] theorem flowsOk_warmStart (h : FlowsOk (flowsOf s)) (cause : Nat) : FlowsOk (flowsOf (warmStart s cause)) := by
  have hspans : ∀ (l : List Nat) {t : State}, FlowsOk (flowsOf t) → FlowsOk (flowsOf (l.foldl warmSpan t)) :=
    fun l t => flowsOk_foldl fun u p _ hu => flowsOk_warmSpan hu p
  simp [warmStart, h, hspans]

@[simp] theorem flowsOk_coldReset (s : State) (cause : Nat) : FlowsOk (flowsOf (coldReset s cause)) := by
  simp [coldReset, coldState, FlowsOk.nil]

theorem execSpnForceDown_flowsOk (p : SpId) (s : State) : OutFlowsOk s (execSpnForceDown p s) := .answer fun h => by simp [h]

theorem flowsOk_nextOf {o : Host.Outcome State Fault Refusal} (ho : OutFlowsOk s o) (h : FlowsOk (flowsOf s)) :
    FlowsOk (flowsOf (nextOf o s)) := by
  cases o with
  | next t => exact ho.ok h t rfl
  | fault _ => exact h
  | refused _ => exact h

@[simp] theorem flowsOk_wordWrite (h : FlowsOk (flowsOf s)) (m : Master) (a : Nat) (v mask : Word) :
    FlowsOk (flowsOf (wordWrite s m a v mask).2) := by
  have hretrain : ∀ p t, flowsOf (nextOf (execSpnRetrain p t) t) = flowsOf t := fun p t => flowsOf_nextOf (execSpnRetrain_flows p t)
  have hrecover : ∀ t, flowsOf (nextOf (execJrnRecover t) t) = flowsOf t := fun t => flowsOf_nextOf (execJrnRecover_flows t)
  have hdown : ∀ p {t : State}, FlowsOk (flowsOf t) → FlowsOk (flowsOf (nextOf (execSpnForceDown p t) t)) :=
    fun p t => flowsOk_nextOf (execSpnForceDown_flowsOk p t)
  unfold wordWrite
  repeat' split
  all_goals simp [h, hretrain, hrecover, hdown]

@[simp] theorem flowsOk_regWrite (h : FlowsOk (flowsOf s)) (m : Master) (addr : Nat) (v : Word) (strb : BitVec 8) :
    FlowsOk (flowsOf (regWrite s m addr v strb).2) := by
  unfold regWrite
  dsimp only
  repeat' split
  all_goals simp [h]

theorem execRegisterWrite_flowsOk (m : Master) (addr : BitVec 32) (data : Word) (strb : BitVec 8) (s : State) :
    OutFlowsOk s (execRegisterWrite m addr data strb s) := .answer fun h => by simp [h]

@[simp] theorem flowsOk_testReset (s : State) : FlowsOk (flowsOf (testReset s)) := flowsOk_coldReset ..

theorem execTestScanEnd_flowsOk (extest : Bool) (s : State) : OutFlowsOk s (execTestScanEnd extest s) := .answer fun h => by simp [h]

theorem execJtagInstruction_flowsOk (op : JtagOp) (s : State) : OutFlowsOk s (execJtagInstruction op s) := .answer fun h => by simp [h]

@[simp] theorem flowsOk_transitionDone (s : State) : FlowsOk (flowsOf (transitionDone s)) := flowsOk_coldReset ..

theorem execToScrap_flowsOk (fuseOk : Bool) (s : State) : OutFlowsOk s (execToScrap fuseOk s) := .answerFuse fun h => by simp [h]

theorem execToReturn_flowsOk (fuseOk : Bool) (s : State) : OutFlowsOk s (execToReturn fuseOk s) := .answerFuse fun h => by simp [h]

theorem execToField_flowsOk (fuseOk : Bool) (s : State) : OutFlowsOk s (execToField fuseOk s) := .answerFuse fun h => by simp [h]

theorem execToProvision_flowsOk (fuseOk : Bool) (s : State) : OutFlowsOk s (execToProvision fuseOk s) := .answerFuse fun h => by simp [h]

@[simp] theorem flowsOk_writeBeat (h : FlowsOk (flowsOf s)) (a : MmAcc) (v : Word) (strb : BitVec 8) :
    FlowsOk (flowsOf (writeBeat s a v strb)) := by simp [writeBeat, h]

theorem execMmWriteBeat_flowsOk (m : Master) (data : Word) (strb : BitVec 8) (s : State) : OutFlowsOk s (execMmWriteBeat m data strb s) :=
  .answer fun h => by
    split
    · exact h
    · split <;> simp [h]

theorem execRowRemap_flowsOk (kind : BitVec 3) (unit : BitVec 8) (row : BitVec 24) (err : EccErr) (bothCopies : Bool) (s : State) :
    OutFlowsOk s (execRowRemap kind unit row err bothCopies s) := .answer fun h => by
  dsimp only
  split
  · exact h
  · split <;> simp [h]

theorem execGlbFltDecl_flowsOk (m : Master) (v : BitVec 32) (s : State) : OutFlowsOk s (execGlbFltDecl m v s) := .answer fun h => by simp [h]

theorem execRouterHeartbeatLoss_flowsOk (x : RtrId) (s : State) : OutFlowsOk s (execRouterHeartbeatLoss x s) := .answer fun h => by simp [h]

theorem execWarmResetAssert_flowsOk (s : State) : OutFlowsOk s (execWarmResetAssert s) := .answer fun h => by simp [h]

theorem execGlbRstWarm_flowsOk (m : Master) (s : State) : OutFlowsOk s (execGlbRstWarm m s) := .answer fun h => by simp [h]

theorem execGlbRstCold_flowsOk (m : Master) (s : State) : OutFlowsOk s (execGlbRstCold m s) := .answer fun h => by simp [h]

theorem execColdResetAssert_flowsOk (s : State) : OutFlowsOk s (execColdResetAssert s) := .answer fun h => by simp [h]

theorem execPor_flowsOk (s : State) : OutFlowsOk s (execPor s) := .answerFuse fun h => by simp [FlowsOk.nil]

@[simp] theorem flowsOk_commitFlow (h : FlowsOk (flowsOf s)) {f : Flow} (hf : SrcOk f) (id : Nat) : FlowsOk (flowsOf (commitFlow s id f)) := by
  have hs : FlowsOk (mset (flowsOf s) id { f with state := 2 }) := h.mset _ id (hf.congr rfl rfl)
  simp [commitFlow, hs]

@[simp] theorem flowsOf_putFlow (s : State) (id : Nat) (f : Flow) (split : Bool) : flowsOf (putFlow s id f split) = mset (flowsOf s) id f := by
  simp [putFlow]

@[simp] theorem flowsOf_freeFlow (s : State) (id : Nat) (f : Flow) : flowsOf (freeFlow s id f) = mdel (flowsOf s) id := by
  simp [freeFlow]

@[simp] theorem flowsOk_retireFlow (h : FlowsOk (flowsOf s)) {f : Flow} (hf : SrcOk f) (x id : Nat) :
    FlowsOk (flowsOf (retireFlow s x id f)) := by
  unfold retireFlow
  split
  next path _ =>
    have hs : FlowsOk (mset (flowsOf s) id { f with path := path, standby := [], nosby := true }) := h.mset _ id (hf.congr rfl rfl)
    simp [hs]
  · exact h

@[simp] theorem flowsOk_retireRouter (h : FlowsOk (flowsOf s)) (x : Nat) : FlowsOk (flowsOf (retireRouter s x)) := by
  unfold retireRouter
  simpa using flowsOk_foldl (fun t f hf ht => flowsOk_retireFlow ht (h.mem f (List.mem_of_mem_filter hf)) x f.1) h

@[simp] theorem flowsOk_imgStep2 (h : FlowsOk (flowsOf s)) : FlowsOk (flowsOf (imgStep2 s)) := by
  unfold imgStep2
  dsimp only
  split <;> simp [h]

@[simp] theorem flowsOf_releaseAt (t : Nat) (s : State) (q : Nat × Flow) :
    flowsOf (releaseAt t s q) = mset (flowsOf s) q.1 { q.2 with state := 3, tick := t } := by simp [releaseAt]

theorem flowsOk_releaseAll (h : FlowsOk (flowsOf s)) {l : List (Nat × Flow)} (hl : ∀ q ∈ l, SrcOk q.2) (t : Nat) :
    FlowsOk (flowsOf (l.foldl (releaseAt t) s)) := by
  refine flowsOk_foldl (fun u q hq hu => ?_) h
  rw [flowsOf_releaseAt]
  exact hu.mset _ q.1 (.congr (hl q hq) rfl rfl)

@[simp] theorem flowsOk_release (h : FlowsOk (flowsOf s)) (id tick : Nat) : FlowsOk (flowsOf (release s id tick).2) := by
  unfold release
  split
  · exact h
  · exact flowsOk_releaseAll h (fun q hq => h.mem q (List.mem_of_mem_filter hq)) _

end Sys2Proof.Machine
end

section
/-! SUPPORT. Admission, release and the flows of an image keep every source entry in its table (06 R137 to R139, 15 R339; for O60). -/

namespace Sys2Proof.Machine

variable {s : State}

theorem planSeg_error_ne_zero {fl : Map Flow} {r : AdmReq} {twin : Bool} {gNext c : Nat} (h : planSeg s fl r twin gNext = .error c) : c ≠ 0 := by
  unfold planSeg at h
  split at h
  · cases h
    decide
  split at h
  · cases h
    decide
  split at h
  · cases h
    decide
  dsimp only at h
  split at h
  next full _ =>
    cases h
    cases full <;> decide
  split at h
  · cases h
    split <;> decide
  split at h
  · cases h
    decide
  split at h
  · cases h
  split at h
  · split at h
    · cases h
    · cases h
      decide
  · cases h
    decide

/-- A flow that an admission records: pending commit at its tick, in a free source entry (06 R137, R139). -/
structure NewFlow (s : State) (r : AdmReq) (tick : Nat) (f : Flow) : Prop where
  node : f.srcNode = nodeOf s r.src
  entry : f.srcIdx ∈ freeEntries s r.src
  state : f.state = 1
  tick : f.tick = tick

/-- What an admission makes of s: its flow is recorded, and the flow it pairs with gets its number or a twin of its own is recorded too
(06 R137). -/
def Records (s : State) (r : AdmReq) (id tick : Nat) (u : State) : Prop :=
  ∃ f, NewFlow s r tick f ∧ (u = pairUp (putFlow s id f r.split) r id ∨
    ∃ id2 g, NewFlow s r tick g ∧ u = putFlow (putFlow s id f r.split) id2 g r.split)

/-- A decision of an admission: a code, and the state as it was; or no code, and the flow recorded under its number and tick. -/
def Decides (s : State) (r : AdmReq) (d : AdmRes × State) : Prop :=
  (d.1.code ≠ 0 ∧ d.2 = s) ∨
    (d.1.code = 0 ∧ ∃ u, Records s r d.1.id d.1.tick u ∧ d.2 = { u with eng := { u.eng with nextChain := u.eng.nextChain + 1 } })

theorem Decides.refused (s : State) (r : AdmReq) {a : AdmRes} (h : a.code ≠ 0) : Decides s r (a, s) := .inl ⟨h, rfl⟩

theorem nth_mem {l : List Nat} {i : Nat} (h : i < l.length) : nth l i ∈ l := by
  unfold nth
  rw [List.getD_eq_getElem l 0 h]
  exact List.getElem_mem h

theorem admitDecide_decides (s : State) (r : AdmReq) (peer : PeerAns) (pick : Nat) : Decides s r (admitDecide s r peer pick) := by
  unfold admitDecide
  extract_lets leaves twin need ents ids id t id2 next next2 chain
  split
  · exact .refused s r (by decide)
  split
  · exact .refused s r (by decide)
  split
  · exact .refused s r (by decide)
  split
  · exact .refused s r (by decide)
  next hroom =>
  split
  next hplan => exact .refused s r (planSeg_error_ne_zero hplan)
  next a _ =>
  extract_lets fa plan2
  have herr : ∀ c, plan2 = .error c → c ≠ 0 := by
    intro c hc
    simp only [plan2] at hc
    split at hc
    · split at hc
      next hplan =>
        cases hc
        exact planSeg_error_ne_zero hplan
      · cases hc
    · cases hc
  have htwo : ∀ g, plan2 = .ok (some g) → need = 2 := by
    intro g hg
    simp only [plan2] at hg
    split at hg
    next htwin => simp [need, htwin]
    · cases hg
  clear_value plan2
  obtain c | b := plan2
  · exact .refused s r (herr c rfl)
  dsimp only
  split
  · exact .refused s r (by decide)
  split
  · exact .refused s r (by decide)
  split
  · exact .refused s r (by simp)
  have hnew : ∀ i < need, nth ents i ∈ ents := fun i hi => nth_mem (by omega)
  have hneed : 0 < need := by
    simp only [need]
    split <;> decide
  have hfirst : NewFlow s r t { fa with
      tick := t, next := next, chain := chain, twin := if b.isSome then some (BitVec.ofNat 12 id2) else fa.twin } :=
    ⟨rfl, hnew 0 hneed, rfl, rfl⟩
  refine .inr ⟨rfl, _, ⟨_, hfirst, ?_⟩, rfl⟩
  cases b with
  | none => exact .inl rfl
  | some g => exact .inr ⟨id2, _, ⟨rfl, hnew 1 (by rw [htwo g rfl]; decide), rfl, rfl⟩, rfl⟩

theorem nodeLoc_nodeOf (s : State) (src : Nat) : nodeLoc (nodeOf s src) = src % 256 := by
  simp only [nodeLoc, nodeOf, BitVec.toNat_ofNat]
  omega

theorem NewFlow.srcOk {r : AdmReq} {tick : Nat} {f : Flow} (hf : NewFlow s r tick f) (hr : r.src < 256) : SrcOk f := by
  have hentry := hf.entry
  unfold SrcOk
  rw [hf.node, nodeLoc_nodeOf, Nat.mod_eq_of_lt hr]
  unfold freeEntries at hentry
  split at hentry
  next h =>
    rw [if_pos h]
    exact List.mem_range.mp (List.mem_of_mem_filter hentry)
  next h =>
    rw [if_neg h]
    exact List.mem_range.mp (List.mem_of_mem_filter hentry)

theorem flowsOk_pairUp (h : FlowsOk (flowsOf s)) (r : AdmReq) (id : Nat) : FlowsOk (flowsOf (pairUp s r id)) := by
  unfold pairUp
  split
  next t f hpair =>
    obtain ⟨k, -, hk⟩ := Option.bind_eq_some_iff.mp hpair
    obtain ⟨g, hg, heq⟩ := Option.map_eq_some_iff.mp hk
    cases heq
    have hs : FlowsOk (mset (flowsOf s) t { f with twin := some (BitVec.ofNat 12 id) }) := h.mset _ t (.congr (h.mget hg) rfl rfl)
    simp [hs]
  · exact h

theorem Records.flowsOk {r : AdmReq} {id tick : Nat} {u : State} (hu : Records s r id tick u) (hr : r.src < 256) (h : FlowsOk (flowsOf s)) :
    FlowsOk (flowsOf u) := by
  obtain ⟨f, hf, rfl | ⟨id2, g, hg, rfl⟩⟩ := hu
  · refine flowsOk_pairUp ?_ r id
    rw [flowsOf_putFlow]
    exact h.mset f id (hf.srcOk hr)
  · rw [flowsOf_putFlow, flowsOf_putFlow]
    exact (h.mset f id (hf.srcOk hr)).mset g id2 (hg.srcOk hr)

theorem Decides.flowsOk {r : AdmReq} {d : AdmRes × State} (hd : Decides s r d) (hr : r.src < 256) (h : FlowsOk (flowsOf s)) :
    FlowsOk (flowsOf d.2) := by
  obtain ⟨-, heq⟩ | ⟨-, u, hu, heq⟩ := hd
  · rwa [heq]
  · simpa [heq] using hu.flowsOk hr h

theorem flowsOk_admDecide (h : FlowsOk (flowsOf s)) {r : AdmReq} (hr : r.src < 256) (inst : Nat) :
    FlowsOk (flowsOf (admDecide s r inst).2) := by
  unfold admDecide
  split
  · exact h
  · exact (admitDecide_decides _ r _ _).flowsOk hr (by simpa using h)

theorem admReqOf_src_lt (e : BitVec 512) (path : Option (List Nat)) : (admReqOf e path).src < 256 := by
  simp only [admReqOf, fld]
  have := (BitVec.extractLsb' 0 8 (BitVec.extractLsb' 64 64 e)).isLt
  omega

theorem FlowsOk.ite {c : Prop} [Decidable c] {t u : State} (ht : FlowsOk (flowsOf t)) (hu : FlowsOk (flowsOf u)) :
    FlowsOk (flowsOf (if c then t else u)) := by split <;> assumption

/-- A step of a queued command keeps every source entry in its table. -/
def StepKeepsOk (f : State → Cmd → Sub × State) : Prop := ∀ s c, FlowsOk (flowsOf s) → FlowsOk (flowsOf (f s c).2)

theorem StepKeepsOk.of_eq {f : State → Cmd → Sub × State} (hf : StepKeepsOk f) {s t : State} {c : Cmd} {r : Sub}
    (hstep : f s c = (r, t)) (h : FlowsOk (flowsOf s)) : FlowsOk (flowsOf t) := by
  have hs := hf s c h
  rwa [hstep] at hs

theorem flowsOk_runAdm {f : State → Cmd → Sub × State} (hf : StepKeepsOk f) (h : FlowsOk (flowsOf s)) (op : Nat) :
    FlowsOk (flowsOf (runAdm op f s)) := by
  unfold runAdm
  split
  · split
    · split
      next hstep => simp [hf.of_eq hstep h]
      next hstep => simp [hf.of_eq hstep h]
    · exact h
  · exact h

theorem execRelease_flowsOk (s : State) : OutFlowsOk s (execRelease s) :=
  .answer fun h => flowsOk_runAdm (fun t c ht => by simp [ht]) h _

theorem admitStep_keepsOk : StepKeepsOk admitStep := by
  intro s c h
  have hdecide : ∀ {t : State} (path : Option (List Nat)), FlowsOk (flowsOf t) →
      FlowsOk (flowsOf (admDecide (evDuty t admRink 12) (admReqOf c.entry path) (fld (cmdW c.entry 1) 11 8)).2) := fun path ht =>
    flowsOk_admDecide (by simpa using ht) (admReqOf_src_lt c.entry path) _
  unfold admitStep
  dsimp only
  split
  · simp [hdecide none h]
  · split
    · split <;> simp [h]
    · split
      · exact h
      next htake =>
        have ht := flowsOf_of_takeAnswer htake
        split
        · simp [ht, h]
        · simpa using hdecide _ (ht ▸ h)

theorem execAdmit_flowsOk (s : State) : OutFlowsOk s (execAdmit s) := .answer fun h => flowsOk_runAdm admitStep_keepsOk h _

theorem execAdmitPeerSegment_flowsOk (peer : BitVec 4) (req : BitVec 512) (s : State) : OutFlowsOk s (execAdmitPeerSegment peer req s) :=
  .answer fun h => by
    extract_lets r p a second d
    split
    · exact h
    · have hd : FlowsOk (flowsOf d.2) := by
        simp only [d]
        split
        · refine flowsOk_admDecide ?_ ?_ _
          · simpa [a] using h
          · exact admReqOf_src_lt req none
        · exact h
      exact hd

/-- A source entry that an image names lies in its unit's table (15 Table 15.2). -/
def KeyOk (k : Nat × Nat) : Prop := k.2 < if k.1 % 256 < 128 then 64 else 128

/-- Where the outcome is a state, every source entry in it is in its table if those of s are. -/
def OkFlowsOk (s : State) (e : Except Nat State) : Prop := FlowsOk (flowsOf s) → ∀ t, e = .ok t → FlowsOk (flowsOf t)

theorem OkFlowsOk.error (c : Nat) : OkFlowsOk s (.error c) := fun _ _ ht => by cases ht

theorem OkFlowsOk.ok {t : State} (h : FlowsOk (flowsOf s) → FlowsOk (flowsOf t)) : OkFlowsOk s (.ok t) := fun hs _ ht => by
  cases ht
  exact h hs

theorem OkFlowsOk.congr {t : State} {e : Except Nat State} (he : OkFlowsOk t e) (h : FlowsOk (flowsOf s) → FlowsOk (flowsOf t)) : OkFlowsOk s e :=
  fun hs => he (h hs)

theorem imgAdmit_flowsOk {k : Nat × Nat} (hk : KeyOk k) (s : State) (v : BitVec 256) : OkFlowsOk s (imgAdmit s k v) := by
  unfold imgAdmit
  dsimp only
  split
  · exact .error _
  split
  · exact .error _
  split
  · exact .error _
  split
  · exact .error _
  split
  · exact .error _
  split
  · exact .error _
  split
  · exact .error _
  refine .ok fun h => ?_
  have hsrc : ∀ f : Flow, f.srcNode = nodeOf s k.1 → f.srcIdx = k.2 → SrcOk f := fun f hn hi => by
    unfold SrcOk
    rw [hn, hi, nodeLoc_nodeOf]
    exact hk
  refine flowsOk_commitFlow ?_ (hsrc _ ?_ rfl) _
  · simp only [flowsOf_mk, eng_flows, flowsOf_putFlow, flowsOf_takeFree]
    exact h.mset _ _ (hsrc _ rfl rfl)
  · rfl

theorem imgFlow_flowsOk {k : Nat × Nat} (hk : KeyOk k) (s : State) (v : BitVec 256) : OkFlowsOk s (imgFlow s k v) := by
  have hfree : ∀ id f, FlowsOk (flowsOf s) → FlowsOk (flowsOf (freeFlow s id f)) := fun id f h => by
    rw [flowsOf_freeFlow]
    exact h.mdel id
  unfold imgFlow
  split
  next id f _ =>
    split
    · split
      · exact .ok fun h => h
      · exact .error _
    split
    · exact .ok (hfree id f)
    split
    · exact .ok fun h => h
    · exact (imgAdmit_flowsOk hk _ v).congr (hfree id f)
  · split
    · exact .ok fun h => h
    · exact imgAdmit_flowsOk hk s v

theorem keyOk_of_mem_pisteKeys {b : List (BitVec 8)} {k : Nat × Nat} (h : k ∈ pisteKeys b) : KeyOk k := by
  obtain ⟨w, -, hw⟩ := List.mem_filterMap.mp (List.mem_dedup.mp h)
  unfold KeyOk
  dsimp only at hw
  split at hw
  · split at hw
    · obtain rfl := Option.some.inj hw
      dsimp only
      split <;> omega
    · cases hw
  · split at hw
    · obtain rfl := Option.some.inj hw
      dsimp only
      split <;> omega
    · cases hw

/-- Taking the entries of an image one after the other, up to the first that is refused. -/
theorem imgFlow_foldl_flowsOk {l : List (Nat × Nat)} (hl : ∀ k ∈ l, KeyOk k) (v : Nat × Nat → BitVec 256) {e : Except Nat State}
    (he : OkFlowsOk s e) :
    OkFlowsOk s (l.foldl (fun acc k => match acc with | .ok t => imgFlow t k (v k) | .error c => .error c) e) := by
  induction l generalizing e with
  | nil => exact he
  | cons k l ih =>
    refine ih (fun j hj => hl j (List.mem_cons_of_mem k hj)) ?_
    cases e with
    | ok t => exact (imgFlow_flowsOk (hl k List.mem_cons_self) t (v k)).congr fun h => he h t rfl
    | error c => exact .error c

theorem imgStep3_flowsOk (s : State) : OkFlowsOk s (imgStep3 s) := by
  have hkeys : ∀ p, ∀ k ∈ (pisteKeys s.img.bytes).filter p, KeyOk k := fun p k hk => keyOk_of_mem_pisteKeys (List.mem_of_mem_filter hk)
  exact imgFlow_foldl_flowsOk (List.forall_mem_append.mpr ⟨hkeys _, hkeys _⟩) (pisteEntry s s.img.bytes) (.ok fun h => by simpa using h)

@[simp] theorem flowsOk_imgFlows (h : FlowsOk (flowsOf s)) : FlowsOk (flowsOf (imgFlows s)) := by
  unfold imgFlows
  dsimp only
  split
  · refine flowsOk_foldl (fun t k hk ht => ?_) (by simpa using h)
    split
    next hok => exact imgFlow_flowsOk (keyOk_of_mem_pisteKeys hk) t _ ht _ hok
    · exact ht
  · split
    next hok => exact imgStep3_flowsOk s h _ hok
    · simpa using h

end Sys2Proof.Machine
end

section
/-! SUPPORT. The spans, the mesh and the gate tick keep every source entry in its table (for O60). -/

namespace Sys2Proof.Machine

variable {s : State}

theorem execRetrainTimeout_flowsOk (p : SpId) (s : State) : OutFlowsOk s (execRetrainTimeout p s) := .answer fun h => by simp [h]

@[simp] theorem flowsOk_widthInUse (h : FlowsOk (flowsOf s)) (p : Nat) (w : BitVec 2) : FlowsOk (flowsOf (widthInUse s p w)) := by
  unfold widthInUse
  dsimp only
  split
  · split <;> simp [h]
  · simp [h]

theorem execRetrainDone_flowsOk (p : SpId) (up : Bool) (s : State) : OutFlowsOk s (execRetrainDone p up s) := .answer fun h => by simp [h]

@[simp] theorem flowsOk_replayAct (h : FlowsOk (flowsOf s)) (p : Nat) (seq : BitVec 16) : FlowsOk (flowsOf (replayAct s p seq)) := by
  unfold replayAct
  split
  · exact h
  · simp [h]

theorem execReplayTimerExpire_flowsOk (p : SpId) (s : State) : OutFlowsOk s (execReplayTimerExpire p s) := .answer fun h => by
  dsimp only
  split
  · simp [h]
  · exact h

@[simp] theorem flowsOk_ctlIn (h : FlowsOk (flowsOf s)) (p : Nat) (w : BitVec 640) : FlowsOk (flowsOf (ctlIn s p w)) := by
  unfold ctlIn
  split <;> simp [h]

theorem execLinkFlitReceive_flowsOk (p : SpId) (raw : BitVec 2048) (bad : Bool) (s : State) : OutFlowsOk s (execLinkFlitReceive p raw bad s) :=
  .answer fun h => by
    dsimp only
    split
    · exact h
    · split
      · simp [h]
      · split <;> simp [h]

theorem flowsOk_mgWrite (h : FlowsOk (flowsOf s)) (node : Nat) (m : Msg) : FlowsOk (flowsOf (mgWrite s node m).2) := by
  have hwords : ∀ (f : Bool × State → Nat → Bool × State) (l : List Nat), (∀ r i, FlowsOk (flowsOf r.2) → FlowsOk (flowsOf (f r i).2)) →
      FlowsOk (flowsOf (l.foldl f (false, s)).2) := fun f l hf => by
    suffices ∀ r : Bool × State, FlowsOk (flowsOf r.2) → FlowsOk (flowsOf (l.foldl f r).2) from this _ h
    induction l with
    | nil => exact fun r hr => hr
    | cons i l ih => exact fun r hr => ih _ (hf r i hr)
  unfold mgWrite
  dsimp only
  split
  · generalize hr : List.foldl _ (false, s) _ = r
    have hok : FlowsOk (flowsOf r.2) := by
      rw [← hr]
      exact hwords _ _ fun r i ht => flowsOk_regWrite ht ..
    split <;> simp [hok]
  · simp [h]

theorem flowsOk_mgServe {f : State → Nat → Msg → Msg × State} (hf : ∀ {s : State}, FlowsOk (flowsOf s) → ∀ n m, FlowsOk (flowsOf (f s n m).2))
    (h : FlowsOk (flowsOf s)) (node opc : Nat) : FlowsOk (flowsOf (mgServe s node opc f)) := by
  unfold mgServe
  dsimp only
  split
  · split
    · exact h
    · split
      next hrx => simp [flowsOf_rxCheck_drop hrx, h]
      next hrx =>
        have ht := flowsOf_rxCheck_pass hrx
        split <;> simp [hf, ht, h]
  · split
    · split
      · exact h
      · simp [hf, h]
    · split
      · exact h
      · split
        · exact h
        · simp [hf, h]

theorem execMgWrReceive_flowsOk (node : BitVec 8) (s : State) : OutFlowsOk s (execMgWrReceive node s) :=
  .answer fun h => flowsOk_mgServe flowsOk_mgWrite h _ _

@[simp] theorem flowsOk_declareBehind (h : FlowsOk (flowsOf s)) (x : Nat) : FlowsOk (flowsOf (declareBehind s x)) := by
  simp [declareBehind, h]

@[simp] theorem flowsOk_linkFail (h : FlowsOk (flowsOf s)) (x : Nat) (pl : Plane) (port cause rx : Nat) :
    FlowsOk (flowsOf (linkFail s x pl port cause rx)) := by
  unfold linkFail
  dsimp only
  split
  · split
    · simp [h]
    · simp [h]
  · simp [h]

@[simp] theorem flowsOk_ueError (h : FlowsOk (flowsOf s)) (x : Nat) (pl : Plane) (port : Nat) (far : Bool) (count : Nat) :
    FlowsOk (flowsOf (ueError s x pl port far count)) := by simp [ueError, h]

@[simp] theorem flowsOk_niFlitIn (h : FlowsOk (flowsOf s)) (x n : Nat) (alt : Bool) (pl : Plane) (port : Nat) (r : FlitRx) :
    FlowsOk (flowsOf (niFlitIn s x n alt pl port r)) := by
  unfold niFlitIn
  refine flowsOk_ueError ?_ ..
  simp [h]

@[simp] theorem flowsOk_spanFlitIn (h : FlowsOk (flowsOf s)) (x p : Nat) (pl : Plane) (port : Nat) (r : FlitRx) :
    FlowsOk (flowsOf (spanFlitIn s x p pl port r)) := by
  unfold spanFlitIn
  refine flowsOk_ueError ?_ ..
  simp [h]

@[simp] theorem flowsOk_sendOut (h : FlowsOk (flowsOf s)) (x : Nat) (pl : Plane) (out : Nat) (f : Flit) (err : FlitErr) :
    FlowsOk (flowsOf (sendOut s x pl out f err)) := by
  unfold sendOut
  dsimp only
  split
  · simp [h]
  · split
    · simp [h]
    · split
      · simp [h]
      · split
        · simp [h]
        · exact h

theorem execSchussPass_flowsOk (pl : Plane) (x : RtrId) (out : BitVec 4) (fc : BitVec 12) (err eject : FlitErr) (s : State) :
    OutFlowsOk s (execSchussPass pl x out fc err eject s) := .answer fun h => by
  dsimp only
  split
  · exact h
  split
  · exact h
  split
  · split
    · simp [h]
    · refine flowsOk_ueError (.ite (by simp [h]) (.ite (by simp [h]) (.ite (flowsOk_sendOut ?_ ..) (by simp [h])))) ..
      split
      · split <;> simp [h]
      · simp [h]
  · simp [h]

theorem execLinkCreditReturn_flowsOk (pl : Plane) (x : RtrId) (out : BitVec 4) (w : BitVec 16) (s : State) :
    OutFlowsOk s (execLinkCreditReturn pl x out w s) := .answer fun h => by
  dsimp only
  split
  · exact h
  · split <;> simp [h]

@[simp] theorem flowsOk_winFlit (h : FlowsOk (flowsOf s)) (x : Nat) (pl : Plane) (out port ch outCh : Nat) (err : FlitErr) :
    FlowsOk (flowsOf (winFlit s x pl out port ch outCh err)) := by
  unfold winFlit
  dsimp only
  split
  · exact h
  · refine flowsOk_sendOut ?_ ..
    simp [h]

@[simp] theorem flowsOk_winGather (h : FlowsOk (flowsOf s)) (x out : Nat) (err : FlitErr) : FlowsOk (flowsOf (winGather s x out err)) := by
  unfold winGather
  split
  · exact h
  · split <;> simp [h]

@[simp] theorem flowsOk_winBranch (h : FlowsOk (flowsOf s)) (x out port : Nat) (err : FlitErr) :
    FlowsOk (flowsOf (winBranch s x out port err)) := by
  unfold winBranch
  dsimp only
  split
  · exact h
  · refine flowsOk_sendOut ?_ ..
    simp [h]

@[simp] theorem flowsOk_winAt (h : FlowsOk (flowsOf s)) (x : Nat) (pl : Plane) (out port ch outCh : Nat) (err : FlitErr) :
    FlowsOk (flowsOf (winAt s x pl out port ch outCh err)) := by
  unfold winAt
  split
  · split <;> simp [h]
  · simp [h]

theorem execRouterFlitForward_flowsOk (pl : Plane) (x : RtrId) (out : BitVec 4) (err : FlitErr) (s : State) :
    OutFlowsOk s (execRouterFlitForward pl x out err s) := .answer fun h => by
  dsimp only
  repeat' split
  all_goals simp [h]

theorem execRouterFlitArrive_flowsOk (pl : Plane) (x : RtrId) (port : BitVec 4) (err : FlitErr) (s : State) :
    OutFlowsOk s (execRouterFlitArrive pl x port err s) := .answer fun h => by
  dsimp only
  split
  · exact h
  · split
    · exact h
    · split
      · simp [h]
      · simp [h]

@[simp] theorem flowsOk_tickSpan (h : FlowsOk (flowsOf s)) (p : Nat) : FlowsOk (flowsOf (tickSpan s p)) := by
  have hresume : ∀ (l : List Nat) {t : State}, FlowsOk (flowsOf t) → FlowsOk (flowsOf (l.foldl resumeFlow t)) :=
    fun l t => flowsOk_foldl fun u id _ hu => flowsOk_resumeFlow hu id
  simp [tickSpan, h, hresume]

@[simp] theorem flowsOf_refuseFlow (s : State) (id : Nat) (f : Flow) : flowsOf (refuseFlow s id f) = mdel (flowsOf s) id := by
  simp [refuseFlow]

@[simp] theorem flowsOk_pisteTick (h : FlowsOk (flowsOf s)) : FlowsOk (flowsOf (pisteTick s)) := by
  unfold pisteTick
  extract_lets due s1 com bad s2 s3
  have h1 : FlowsOk (flowsOf s1) := flowsOk_foldl (fun t q _ ht => by simpa using ht.mdel q.1) h
  have hcom : ∀ q ∈ com, SrcOk q.2 := fun q hq => h.mem q (List.mem_of_mem_filter (List.mem_of_mem_filter hq))
  have h2 : FlowsOk (flowsOf s2) := flowsOk_foldl (fun t q hq ht => by split <;> simp [ht, hcom q hq]) h1
  have h3 : FlowsOk (flowsOf s3) := flowsOk_foldl (fun t q _ ht => by simpa using ht.mdel q.1) h2
  exact flowsOk_releaseAll h3 (fun q hq => h3.mem q (List.mem_of_mem_filter hq)) _

@[simp] theorem flowsOk_caseLeave (h : FlowsOk (flowsOf s)) : FlowsOk (flowsOf (caseLeave s)) := by
  unfold caseLeave
  split
  · exact flowsOk_foldl (fun t f _ ht => flowsOk_resumeFlow ht f.1) (by simpa using h)
  · simpa using h

@[simp] theorem flowsOk_caseEnter (h : FlowsOk (flowsOf s)) (x : Nat) : FlowsOk (flowsOf (caseEnter s x)) := by
  unfold caseEnter
  exact flowsOk_foldl (fun t id _ ht => flowsOk_suspendFlow ht id) (by simpa using h)

@[simp] theorem flowsOk_fltStep2 (h : FlowsOk (flowsOf s)) : FlowsOk (flowsOf (fltStep2 s)) := by
  unfold fltStep2
  split
  · simp [h]
  · split <;> simp [h]

@[simp] theorem flowsOf_imgRepeat (s : State) : flowsOf (imgRepeat s) = flowsOf s := by simp [imgRepeat]

@[simp] theorem flowsOf_imgGate (s : State) : flowsOf (imgGate s) = flowsOf s := by simp [imgGate]

@[simp] theorem flowsOk_tickOrder (h : FlowsOk (flowsOf s)) : FlowsOk (flowsOf (tickOrder s)) := by
  unfold tickOrder
  extract_lets s1 img s2 s3 s4 s5
  have h1 : FlowsOk (flowsOf s1) := by simp [s1, h]
  have h2 : FlowsOk (flowsOf s2) := by simp [s2, h1]
  have h3 : FlowsOk (flowsOf s3) := flowsOk_pisteTick h2
  have h4 : FlowsOk (flowsOf s4) := by simp [s4, h3]
  simp [s5, h4]

@[simp] theorem flowsOk_gateTick (h : FlowsOk (flowsOf s)) (slacks : List (BitVec 6)) : FlowsOk (flowsOf (gateTick s slacks)) := by
  have hspans : ∀ (l : List Nat) {t : State}, FlowsOk (flowsOf t) → FlowsOk (flowsOf (l.foldl tickSpan t)) :=
    fun l t => flowsOk_foldl fun u p _ hu => flowsOk_tickSpan hu p
  simp [gateTick, h, hspans]

theorem execGateTick_flowsOk (slacks : List (BitVec 6)) (s : State) : OutFlowsOk s (execGateTick slacks s) := .answer fun h => by simp [h]

end Sys2Proof.Machine
end

section
/-! SUPPORT. Every command, and so every step, keeps every source entry in its table (O60). -/

namespace Sys2Proof.Machine

/-- Every command keeps every flow's source entry in its table. -/
theorem exec_flowsOk (c : Instr) (s : State) : OutFlowsOk s (exec c s) := by
  cases c with
  | gateTick slacks => exact execGateTick_flowsOk slacks s
  | tickOutFall => exact (execTickOutFall_flows s).ok
  | timStep v => exact (execTimStep_flows v s).ok
  | timLock => exact (execTimLock_flows s).ok
  | timSlew v => exact (execTimSlew_flows v s).ok
  | referenceLoss => exact (execReferenceLoss_flows s).ok
  | referenceStable => exact (execReferenceStable_flows s).ok
  | ppsEdge => exact (execPpsEdge_flows s).ok
  | ppsLost => exact (execPpsLost_flows s).ok
  | ppsOutRise => exact (execPpsOutRise_flows s).ok
  | ppsOutFall => exact (execPpsOutFall_flows s).ok
  | tsyncSend p => exact (execTsyncSend_flows p s).ok
  | tsyncLost p => exact (execTsyncLost_flows p s).ok
  | ingressRequest n hdr => exact (execIngressRequest_flows n hdr s).ok
  | ingressDataBeat n rsp data be last gap => exact (execIngressDataBeat_flows n rsp data be last gap s).ok
  | ingressResponse n hdr => exact (execIngressResponse_flows n hdr s).ok
  | egressCreditReturn n rsp hg hb dg db => exact (execEgressCreditReturn_flows n rsp hg hb dg db s).ok
  | egressMessageStart n rsp => exact (execEgressMessageStart_flows n rsp s).ok
  | fenceStrobe n rw pv pasid id => exact (execFenceStrobe_flows n rw pv pasid id s).ok
  | fenceSatisfied n slice => exact (execFenceSatisfied_flows n slice s).ok
  | ntfRecordTaken n => exact (execNtfRecordTaken_flows n s).ok
  | epResetRequest n => exact (execEpResetRequest_flows n s).ok
  | epRstInEpChange n v => exact (execEpRstInEpChange_flows n v s).ok
  | niRstInRaise n => exact (execNiRstInRaise_flows n s).ok
  | epUpRaise n => exact (execEpUpRaise_flows n s).ok
  | rstStall n => exact (execRstStall_flows n s).ok
  | routerFlitArrive pl x port err => exact execRouterFlitArrive_flowsOk pl x port err s
  | routerFlitForward pl x out err => exact execRouterFlitForward_flowsOk pl x out err s
  | linkCreditReturn pl x out w => exact execLinkCreditReturn_flowsOk pl x out w s
  | schussPass pl x out fc err eject => exact execSchussPass_flowsOk pl x out fc err eject s
  | escWaitExpire pl x port ch => exact (execEscWaitExpire_flows pl x port ch s).ok
  | mgRdReceive node => exact (execMgRdReceive_flows node s).ok
  | mgWrReceive node => exact execMgWrReceive_flowsOk node s
  | requestArriveAtTarget n => exact (execRequestArriveAtTarget_flows n s).ok
  | responseArriveAtRequester n => exact (execResponseArriveAtRequester_flows n s).ok
  | answerListDequeue n => exact (execAnswerListDequeue_flows n s).ok
  | pisteLaunch n pl => exact (execPisteLaunch_flows n pl s).ok
  | messageStart n pl => exact (execMessageStart_flows n pl s).ok
  | attachmentPieceSend n alt pl => exact (execAttachmentPieceSend_flows n alt pl s).ok
  | wheelBucketBegin n => exact (execWheelBucketBegin_flows n s).ok
  | trackerTimeout n tag => exact (execTrackerTimeout_flows n tag s).ok
  | pwDeadline n tag => exact (execPwDeadline_flows n tag s).ok
  | mcQuarantineEnd n tag => exact (execMcQuarantineEnd_flows n tag s).ok
  | drainComplete n => exact (execDrainComplete_flows n s).ok
  | drainDeadline n => exact (execDrainDeadline_flows n s).ok
  | etcFillAnswer n => exact (execEtcFillAnswer_flows n s).ok
  | etcFillTimeout n inst x => exact (execEtcFillTimeout_flows n inst x s).ok
  | etcFillResend n inst x => exact (execEtcFillResend_flows n inst x s).ok
  | etcInvalidate n inst x => exact (execEtcInvalidate_flows n inst x s).ok
  | niEtcFlush n => exact (execNiEtcFlush_flows n s).ok
  | mcCopyReplicate x port => exact (execMcCopyReplicate_flows x port s).ok
  | gatherAnswer x port => exact (execGatherAnswer_flows x port s).ok
  | gatherExpire x e => exact (execGatherExpire_flows x e s).ok
  | mcCopyAtMember n => exact (execMcCopyAtMember_flows n s).ok
  | memberTimeout n e => exact (execMemberTimeout_flows n e s).ok
  | notifyReceive n => exact (execNotifyReceive_flows n s).ok
  | ntfForward => exact (execNtfForward_flows s).ok
  | niSlcRst n mask => exact (execNiSlcRst_flows n mask s).ok
  | sliceResetEnd n slice => exact (execSliceResetEnd_flows n slice s).ok
  | linkFlitSend p => exact (execLinkFlitSend_flows p s).ok
  | linkFlitReceive p raw bad => exact execLinkFlitReceive_flowsOk p raw bad s
  | replayTimerExpire p => exact execReplayTimerExpire_flowsOk p s
  | nakTimerExpire p seq => exact (execNakTimerExpire_flows p seq s).ok
  | spnRetrain p => exact (execSpnRetrain_flows p s).ok
  | phyDown p => exact (execPhyDown_flows p s).ok
  | peerRetrainRequest p wide => exact (execPeerRetrainRequest_flows p wide s).ok
  | retrainDone p up => exact execRetrainDone_flowsOk p up s
  | retrainTimeout p => exact execRetrainTimeout_flowsOk p s
  | widthCapDrop p cap => exact (execWidthCapDrop_flows p cap s).ok
  | spnForceDown p => exact execSpnForceDown_flowsOk p s
  | spanKeyExpire p => exact (execSpanKeyExpire_flows p s).ok
  | graceExpire p => exact (execGraceExpire_flows p s).ok
  | phyUp p => exact (execPhyUp_flows p s).ok
  | spanPisteStage p => exact (execSpanPisteStage_flows p s).ok
  | ringPiWrite q v => exact (execRingPiWrite_flows q v s).ok
  | ringRciWrite q v => exact (execRingRciWrite_flows q v s).ok
  | ringFetch b => exact (execRingFetch_flows b s).ok
  | commandArrive q => exact (execCommandArrive_flows q s).ok
  | sanitise slot => exact (execSanitise_flows slot s).ok
  | copy slot => exact (execCopy_flows slot s).ok
  | verify slot => exact (execVerify_flows slot s).ok
  | move => exact (execMove_flows s).ok
  | bind => exact (execBind_flows s).ok
  | unbind => exact (execUnbind_flows s).ok
  | share => exact (execShare_flows s).ok
  | sliceReset => exact (execSliceReset_flows s).ok
  | admitFlow => exact execAdmit_flowsOk s
  | admitPeerSegment peer req => exact execAdmitPeerSegment_flowsOk peer req s
  | release => exact execRelease_flowsOk s
  | telemetry slot => exact (execTelemetry_flows slot s).ok
  | groom slot => exact (execGroom_flows slot s).ok
  | fmIdentify => exact (execFmIdentify_flows s).ok
  | fmBackgroundOperationStatus => exact (execFmBackgroundOperationStatus_flows s).ok
  | fmGetDcdInfo => exact (execFmGetDcdInfo_flows s).ok
  | fmGetDcRegionExtentLists => exact (execFmGetDcRegionExtentLists_flows s).ok
  | fmInitiateDcAdd => exact (execFmInitiateDcAdd_flows s).ok
  | fmInitiateDcRelease => exact (execFmInitiateDcRelease_flows s).ok
  | fmUnsupported => exact (execFmUnsupported_flows s).ok
  | jobComplete slot => exact (execJobComplete_flows slot s).ok
  | workSteal slot => exact (execWorkSteal_flows slot s).ok
  | parkWake slot => exact (execParkWake_flows slot s).ok
  | commandComplete q => exact (execCommandComplete_flows q s).ok
  | ringReset q => exact (execRingReset_flows q s).ok
  | ringResume q => exact (execRingResume_flows q s).ok
  | moveMirrorExpire n x => exact (execMoveMirrorExpire_flows n x s).ok
  | engineFail e => exact (execEngineFail_flows e s).ok
  | extentOrphan n => exact (execExtentOrphan_flows n s).ok
  | journalAppend => exact (execJournalAppend_flows s).ok
  | homeWriteAck h => exact (execHomeWriteAck_flows h s).ok
  | homeWriteRetry h => exact (execHomeWriteRetry_flows h s).ok
  | ebtRepairDone x h0 h1 => exact (execEbtRepairDone_flows x h0 h1 s).ok
  | jrnRecover => exact (execJrnRecover_flows s).ok
  | groomNow => exact (execGroomNow_flows s).ok
  | recoveryStart => exact (execRecoveryStart_flows s).ok
  | recoveryDone h0 h1 => exact (execRecoveryDone_flows h0 h1 s).ok
  | homeWaitTimeout => exact (execHomeWaitTimeout_flows s).ok
  | imgStart m => exact (execImgStart_flows m s).ok
  | imgData m v => exact (execImgData_flows m v s).ok
  | imgAbort m => exact (execImgAbort_flows m s).ok
  | imageVerifyDone => exact (execImageVerifyDone_flows s).ok
  | imagePrecheck => exact (execImagePrecheck_flows s).ok
  | epochRelease => exact (execEpochRelease_flows s).ok
  | pwrSetLevel m req => exact (execPwrSetLevel_flows m req s).ok
  | pwrCg m req => exact (execPwrCg_flows m req s).ok
  | pwrRet m req => exact (execPwrRet_flows m req s).ok
  | pwrOff m req => exact (execPwrOff_flows m req s).ok
  | pwrWake m req => exact (execPwrWake_flows m req s).ok
  | pwrPgood => exact (execPwrPgood_flows s).ok
  | vrTimeout => exact (execVrTimeout_flows s).ok
  | regionDrainDone => exact (execRegionDrainDone_flows s).ok
  | regionDrainDeadline => exact (execRegionDrainDeadline_flows s).ok
  | regionEntryDone => exact (execRegionEntryDone_flows s).ok
  | regionWakeReady => exact (execRegionWakeReady_flows s).ok
  | por => exact execPor_flowsOk s
  | coldResetAssert => exact execColdResetAssert_flowsOk s
  | coldResetRelease => exact (execColdResetRelease_flows s).ok
  | coldInitDone => exact (execColdInitDone_flows s).ok
  | glbRstCold m => exact execGlbRstCold_flowsOk m s
  | glbRstWarm m => exact execGlbRstWarm_flowsOk m s
  | warmResetAssert => exact execWarmResetAssert_flowsOk s
  | warmQuiesceDone => exact (execWarmQuiesceDone_flows s).ok
  | warmResetRelease => exact (execWarmResetRelease_flows s).ok
  | glbRstNi m w mask => exact (execGlbRstNi_flows m w mask s).ok
  | epClkLoss n => exact (execEpClkLoss_flows n s).ok
  | wireSteer pl x port g => exact (execWireSteer_flows pl x port g s).ok
  | wireCountExpire pl x port g => exact (execWireCountExpire_flows pl x port g s).ok
  | routerHeartbeatLoss x => exact execRouterHeartbeatLoss_flowsOk x s
  | glbFltDecl m v => exact execGlbFltDecl_flowsOk m v s
  | rehomeDone => exact (execRehomeDone_flows s).ok
  | glbFltRestore m v => exact (execGlbFltRestore_flows m v s).ok
  | routerBistDone pass => exact (execRouterBistDone_flows pass s).ok
  | rowRemap kind unit row err bothCopies => exact execRowRemap_flowsOk kind unit row err bothCopies s
  | mmRequest m addr wr dataCls lock len => exact (execMmRequest_flows m addr wr dataCls lock len s).ok
  | mmGrant t => exact (execMmGrant_flows t s).ok
  | mmWriteBeat m data strb => exact execMmWriteBeat_flowsOk m data strb s
  | mmBurstPiece t => exact (execMmBurstPiece_flows t s).ok
  | lockBreak t => exact (execLockBreak_flows t s).ok
  | cntSnapCtl v => exact (execCntSnapCtl_flows v s).ok
  | counterSnapshot => exact (execCounterSnapshot_flows s).ok
  | snapshotDone => exact (execSnapshotDone_flows s).ok
  | cntThrCfg j v => exact (execCntThrCfg_flows j v s).ok
  | sltPrsntChange n v => exact (execSltPrsntChange_flows n v s).ok
  | presenceDebounced n => exact (execPresenceDebounced_flows n s).ok
  | moduleRemoval n => exact (execModuleRemoval_flows n s).ok
  | slotPgoodRise n => exact (execSlotPgoodRise_flows n s).ok
  | rampTimeout n => exact (execRampTimeout_flows n s).ok
  | slotFault n code => exact (execSlotFault_flows n code s).ok
  | slotPgoodDrop n => exact (execSlotPgoodDrop_flows n s).ok
  | pgLost n => exact (execPgLost_flows n s).ok
  | retryEnd n => exact (execRetryEnd_flows n s).ok
  | slotFeedChange n feed => exact (execSlotFeedChange_flows n feed s).ok
  | mclr m n => exact (execMclr_flows m n s).ok
  | clear m n => exact (execClear_flows m n s).ok
  | plock m n => exact (execPlock_flows m n s).ok
  | slotOff m n force => exact (execSlotOff_flows m n force s).ok
  | slotOn m n => exact (execSlotOn_flows m n s).ok
  | tokenStart m => exact (execTokenStart_flows m s).ok
  | tokenData m v => exact (execTokenData_flows m v s).ok
  | tokenAbort m => exact (execTokenAbort_flows m s).ok
  | toProvision fuseOk => exact execToProvision_flowsOk fuseOk s
  | toField fuseOk => exact execToField_flowsOk fuseOk s
  | toReturn fuseOk => exact execToReturn_flowsOk fuseOk s
  | toScrap fuseOk => exact execToScrap_flowsOk fuseOk s
  | debugUnlock => exact (execDebugUnlock_flows s).ok
  | floor fuseOk => exact (execFloor_flows fuseOk s).ok
  | keyProgram m v fuseOk => exact (execKeyProgram_flows m v fuseOk s).ok
  | relock m => exact (execRelock_flows m s).ok
  | sessionExpire => exact (execSessionExpire_flows s).ok
  | jtagInstruction op => exact execJtagInstruction_flowsOk op s
  | testScanEnd extest => exact execTestScanEnd_flowsOk extest s
  | registerWrite m addr data strb => exact execRegisterWrite_flowsOk m addr data strb s
  | epRstReqEpFall n => exact (execEpRstReqEpFall_flows n s).ok
  | rinkInResetRaise b => exact (execRinkInResetRaise_flows b s).ok
  | tokenRefusal => exact (execTokenRefusal_flows s).ok

/-- Settles O60: a step is a cycle of the timing clock, which leaves the flows, or a command, and every command keeps the source entries in
their tables: an admission takes a free entry of its source, an image names entries of its units, the rest leave a flow's entry as it is. -/
theorem everyStepKeepsFlowEntriesInRange : Obligations.EveryStepKeepsFlowEntriesInRange := by
  unfold Obligations.EveryStepKeepsFlowEntriesInRange
  intro s t hstep hs
  rw [flowIdx_iff] at hs ⊢
  cases hq : s.pending with
  | nil =>
    rw [step_of_empty hq] at hstep
    cases hstep
    simpa using hs
  | cons c r =>
    rw [step_of_cons hq] at hstep
    exact (exec_flowsOk c _).ok (by simpa using hs) t hstep

end Sys2Proof.Machine
end

section
/-! SUPPORT. What admission and release leave of the engines' state but the flows, and how an ADMIT or RELEASE ends (06 R137 to R140,
13 R297; for O35). -/

namespace Sys2Proof.Machine

/-! The engines' state but the flows. -/

/-- t's engines differ from s's in the flows and the number of the next chain alone. -/
def FlowsOnly (s t : State) : Prop := t.eng = { s.eng with flows := t.eng.flows, nextChain := t.eng.nextChain }

theorem FlowsOnly.of_eq {s t : State} (h : t.eng = s.eng) : FlowsOnly s t := by rw [FlowsOnly, h]

theorem FlowsOnly.trans {s t u : State} (h : FlowsOnly s t) (k : FlowsOnly t u) : FlowsOnly s u := by
  unfold FlowsOnly at *
  rw [k, h]

theorem FlowsOnly.getCmd {s t : State} (h : FlowsOnly s t) (key : Nat) : getCmd t key = getCmd s key := by
  unfold Machine.getCmd
  rw [h]

theorem FlowsOnly.peerAdmits {s t : State} (h : FlowsOnly s t) : t.eng.peerAdmits = s.eng.peerAdmits := by rw [h]

theorem fireThr_eng (i old new : Nat) (s : State) (j : Nat) : (fireThr i old new s j).eng = s.eng := by
  unfold fireThr
  dsimp only
  split
  · rw [(routeNote_noteOnly _ _).1]
    rfl
  · rfl

theorem bump_eng (s : State) (i d : Nat) : (bump s i d).eng = s.eng := by
  unfold bump
  split
  · rfl
  · refine Eq.trans (Keeps.foldl (g := State.eng) (fun t j _ => fireThr_eng _ _ _ t j) _) ?_
    split <;> rfl

theorem evDuty_eng (s : State) (b e : Nat) : (evDuty s b e).eng = s.eng := by
  unfold evDuty evSlot
  split
  · split
    · exact bump_eng ..
    · rfl
  · rfl

theorem wrFlowEnt_eng (s : State) (f : Flow) (v : BitVec 256) : (wrFlowEnt s f v).eng = s.eng := by
  unfold wrFlowEnt
  split <;> rfl

theorem putFlow_flowsOnly (s : State) (id : Nat) (f : Flow) (split : Bool) : FlowsOnly s (putFlow s id f split) := by
  rw [FlowsOnly, putFlow, wrFlowEnt_eng]

theorem pairUp_flowsOnly (s : State) (r : AdmReq) (id : Nat) : FlowsOnly s (pairUp s r id) := by
  unfold pairUp
  split
  · rw [FlowsOnly, wrFlowEnt_eng]
  · exact .of_eq rfl

theorem releaseAt_flowsOnly (t : Nat) (s : State) (q : Nat × Flow) : FlowsOnly s (releaseAt t s q) := by
  rw [FlowsOnly, releaseAt, wrFlowEnt_eng]

theorem releaseAll_flowsOnly (t : Nat) (l : List (Nat × Flow)) (s : State) : FlowsOnly s (l.foldl (releaseAt t) s) := by
  induction l generalizing s with
  | nil => exact .of_eq rfl
  | cons q l ih => exact (releaseAt_flowsOnly t s q).trans (ih _)

/-! The decision of an admission. -/

theorem Decides.flowsOnly {s : State} {r : AdmReq} {d : AdmRes × State} (hd : Decides s r d) : FlowsOnly s d.2 := by
  obtain ⟨-, heq⟩ | ⟨-, u, ⟨f, -, hu⟩, heq⟩ := hd
  · exact .of_eq (by rw [heq])
  · have hput := putFlow_flowsOnly s d.1.id f r.split
    have hs : FlowsOnly s u := by
      obtain rfl | ⟨id2, g, -, rfl⟩ := hu
      · exact hput.trans (pairUp_flowsOnly ..)
      · exact hput.trans (putFlow_flowsOnly ..)
    refine hs.trans ?_
    rw [heq]
    rfl

theorem Decides.flows_of_refused {s : State} {r : AdmReq} {d : AdmRes × State} (hd : Decides s r d) (hcode : d.1.code ≠ 0) :
    flowsOf d.2 = flowsOf s := by
  obtain ⟨-, heq⟩ | ⟨hzero, -⟩ := hd
  · rw [heq]
  · exact absurd hzero hcode

theorem pairUp_of_alone {s : State} {r : AdmReq} (h : r.pair = none) (id : Nat) : pairUp s r id = s := by simp [pairUp, h]

/-- A request that names no pair: the flow that it records is pending commit at the tick (06 R139). -/
theorem Decides.flow_of_admitted {s : State} {r : AdmReq} {d : AdmRes × State} (hd : Decides s r d) (hpair : r.pair = none)
    (hcode : d.1.code = 0) : ∃ f, mget (flowsOf d.2) d.1.id = some f ∧ f.state = 1 ∧ f.tick = d.1.tick := by
  obtain ⟨hne, -⟩ | ⟨-, u, ⟨f, hf, hu⟩, heq⟩ := hd
  · exact absurd hcode hne
  have hflows : flowsOf d.2 = flowsOf u := by rw [heq]; simp
  rw [hflows]
  obtain rfl | ⟨id2, g, hg, rfl⟩ := hu
  · rw [pairUp_of_alone hpair, flowsOf_putFlow, mget_mset_same]
    exact ⟨f, rfl, hf.state, hf.tick⟩
  · rw [flowsOf_putFlow, flowsOf_putFlow]
    obtain hid | hid := eq_or_ne d.1.id id2
    · rw [hid, mget_mset_same]
      exact ⟨g, rfl, hg.state, hg.tick⟩
    · rw [mget_mset_ne _ _ _ _ hid, mget_mset_same]
      exact ⟨f, rfl, hf.state, hf.tick⟩

theorem admDecide_decides (s : State) (r : AdmReq) (inst : Nat) : ∃ t, t.eng = s.eng ∧ Decides t r (admDecide s r inst) := by
  unfold admDecide
  split
  · exact ⟨s, rfl, .refused s r (by decide)⟩
  · exact ⟨(takeFree (takeFree s).2).2, rfl, admitDecide_decides _ r _ _⟩

/-! How a command of the ADMIT queue ends. -/

theorem getCmd_of_admHead {s : State} {c : Cmd} (h : admHead s = some c) : getCmd s c.key = some c := by
  unfold admHead at h
  split at h
  · obtain ⟨key, -, hkey⟩ := Option.bind_eq_some_iff.mp h
    have hc : c.key = key := by simpa using List.find?_some hkey
    rwa [hc]
  · cases h

theorem getCmd_updCmd {s : State} {key : Nat} {c : Cmd} {f : Cmd → Cmd} (hf : ∀ d, (f d).key = d.key) (h : getCmd s key = some c) :
    getCmd (updCmd s key f) key = some (f c) := by
  have hfind : getCmd (updCmd s key f) key = (getCmd s key).map f := find?_updFirst fun d => by rw [hf]
  rw [hfind, h, Option.map_some]

theorem find?_filter_of_find? {α : Type} {l : List α} {p q : α → Bool} {a : α} (h : l.find? q = some a) (hp : p a = true) :
    (l.filter p).find? q = some a := by
  induction l with
  | nil => cases h
  | cons b l ih =>
    rw [List.find?_cons] at h
    split at h
    next hb =>
      obtain rfl := Option.some.inj h
      simp [List.filter_cons_of_pos hp, hb]
    next hb =>
      rw [List.filter_cons]
      split
      · rw [List.find?_cons, hb]
        exact ih h
      · exact ih h

theorem getCmd_endCmd {s : State} {key status : Nat} {c : Cmd} (h : getCmd s key = some c) (hring : c.ring ≠ 16) :
    getCmd (endCmd s key status) key = some { c with done := true, status := BitVec.ofNat 8 status } := by
  have hupd := getCmd_updCmd (f := fun d => { d with done := true, status := BitVec.ofNat 8 status }) (fun _ => rfl) h
  exact find?_filter_of_find? hupd (by simp [hring])

theorem getCmd_endQueued {s : State} {key status b : Nat} {c : Cmd} (h : getCmd s key = some c) (hring : c.ring ≠ 16) :
    getCmd (endQueued s b key status) key = some { c with done := true, status := BitVec.ofNat 8 status } :=
  getCmd_endCmd (((FlowsOnly.of_eq (evDuty_eng ..)).getCmd key).trans h) hring

theorem not_mem_admQ_endQueued (s : State) (b key status : Nat) : key ∉ (endQueued s b key status).eng.admQ := by
  simp [endQueued, endCmd]

/-- How a command of the ADMIT queue has ended: its record is d, and its queue holds it no more. -/
def Ended (key : Nat) (d : Cmd) (t : State) : Prop := getCmd t key = some d ∧ key ∉ t.eng.admQ

/-- What the outcome of an admission or release makes of its command's record (13 R297). -/
def admRecord (r : AdmRes) (c : Cmd) : Cmd :=
  if r.code = 0 then
    { c with done := true, status := 0, aux0 := BitVec.ofNat 12 r.id, aux1 := BitVec.ofNat 12 (r.twin.getD 0xFFF), result := BitVec.ofNat 64 r.tick }
  else { c with done := true, status := 9, result := BitVec.ofNat 64 (r.code ||| r.peer <<< 8) }

/-- A command whose step has its outcome r in u ends with r's record, and u's flows stay. -/
theorem runAdm_ends {s u : State} {c : Cmd} {r : AdmRes} {op : Nat} {f : State → Cmd → Sub × State} (hhead : admHead s = some c)
    (hop : c.op.toNat = op) (hring : c.ring ≠ 16) (hf : f s c = admResult u c.key r) (hu : FlowsOnly s u) :
    flowsOf (runAdm op f s) = flowsOf u ∧ Ended c.key (admRecord r c) (runAdm op f s) := by
  have hcmd : getCmd u c.key = some c := (hu.getCmd c.key).trans (getCmd_of_admHead hhead)
  unfold runAdm
  rw [hhead]
  dsimp only
  rw [if_pos hop, hf]
  unfold admResult admRecord
  by_cases hcode : r.code = 0
  · simp only [hcode, if_true]
    refine ⟨by simp, ?_, not_mem_admQ_endQueued _ _ _ _⟩
    refine getCmd_endQueued (getCmd_updCmd ?_ hcmd) ?_
    · exact fun _ => rfl
    · exact hring
  · simp only [hcode, if_false]
    refine ⟨by simp, ?_, not_mem_admQ_endQueued _ _ _ _⟩
    refine getCmd_endQueued (getCmd_updCmd ?_ hcmd) ?_
    · exact fun _ => rfl
    · exact hring

/-! The three parts of O35. -/

theorem admitStep_of_no_path {s u : State} {c : Cmd} {r : AdmRes} (hfa : fld (cmdW c.entry 4) 51 0 = 0)
    (hdec : admDecide (evDuty s admRink 12) (admReqOf c.entry none) (fld (cmdW c.entry 1) 11 8) = (r, u)) :
    admitStep s c = admResult u c.key r := by
  unfold admitStep
  dsimp only
  rw [if_pos hfa, hdec]

theorem mget_mset_state {m : Map Flow} {k j : Nat} {f : Flow} {n : Nat} (hf : f.state = n)
    (h : k = j ∨ ∃ g, mget m j = some g ∧ g.state = n) : ∃ g, mget (mset m k f) j = some g ∧ g.state = n := by
  obtain rfl | hne := eq_or_ne j k
  · exact ⟨f, mget_mset_same .., hf⟩
  · obtain rfl | ⟨g, hg, hn⟩ := h
    · exact absurd rfl hne
    · exact ⟨g, (mget_mset_ne _ _ _ _ hne).trans hg, hn⟩

/-- Releasing a list of flows makes each of them pending release. -/
theorem releaseAll_pending (t : Nat) {l : List (Nat × Flow)} {s : State} {j : Nat}
    (h : (∃ q ∈ l, q.1 = j) ∨ ∃ g, mget (flowsOf s) j = some g ∧ g.state = 3) :
    ∃ g, mget (flowsOf (l.foldl (releaseAt t) s)) j = some g ∧ g.state = 3 := by
  induction l generalizing s with
  | nil =>
    obtain ⟨q, hq, -⟩ | hdone := h
    · cases hq
    · exact hdone
  | cons q l ih =>
    refine ih ?_
    rw [flowsOf_releaseAt]
    obtain ⟨p, hp, hj⟩ | hdone := h
    · obtain rfl | hp := List.mem_cons.mp hp
      · exact .inr (mget_mset_state rfl (.inl hj))
      · exact .inl ⟨p, hp, hj⟩
    · exact .inr (mget_mset_state rfl (.inr hdone))

/-- A command whose meaning ends in a state with engines like t's completes, seen through the engines (13 R297). -/
theorem completes_of_eng {i : Instr} {s u : State} {P : State → Prop} (hexec : exec i s = answer s u)
    (hP : ∀ t, t.eng = u.eng → P t) : Completes i s P := ⟨_, hexec, hP _ rfl⟩

theorem flowsOf_congr {s t : State} (h : t.eng = s.eng) : t.eng.flows = flowsOf s := by
  rw [h, eng_flows]

theorem Ended.congr {key : Nat} {d : Cmd} {s t : State} (hd : Ended key d s) (h : t.eng = s.eng) : Ended key d t := by
  unfold Ended getCmd at *
  rwa [h]

/-- An ADMIT without a path of its own: what it records or leaves, and how its command ends (06 R137, R139, 13 R297). -/
theorem execAdmit_ends {s u : State} {c : Cmd} {r : AdmRes} (hhead : admHead s = some c) (hop : c.op = 0x20) (hring : c.ring ≠ 16)
    (hfa : fld (cmdW c.entry 4) 51 0 = 0)
    (hdec : admDecide (evDuty s admRink 12) (admReqOf c.entry none) (fld (cmdW c.entry 1) 11 8) = (r, u)) :
    ∃ v, execAdmit s = answer s v ∧ Ended c.key (admRecord r c) v ∧
      (r.code = 0 → ∃ f, mget (flowsOf v) r.id = some f ∧ f.state = 1 ∧ f.tick = r.tick) ∧ (r.code ≠ 0 → flowsOf v = flowsOf s) := by
  obtain ⟨w, hw, hdecides⟩ := admDecide_decides (evDuty s admRink 12) (admReqOf c.entry none) (fld (cmdW c.entry 1) 11 8)
  rw [hdec] at hdecides
  have hs : w.eng = s.eng := hw.trans (evDuty_eng ..)
  obtain ⟨hflows, hended⟩ := runAdm_ends (op := 0x20) hhead (by rw [hop]; rfl) hring (admitStep_of_no_path hfa hdec)
    ((FlowsOnly.of_eq hs).trans hdecides.flowsOnly)
  refine ⟨_, rfl, hended, fun hcode => ?_, fun hcode => ?_⟩
  · rw [hflows]
    exact hdecides.flow_of_admitted rfl hcode
  · rw [hflows, hdecides.flows_of_refused hcode]
    exact flowsOf_congr hs

/-- A RELEASE of an admitted flow: every flow of its chain is pending release, and the command ends without a code (06 R139, 13 R297). -/
theorem execRelease_ends {s : State} {c : Cmd} {f : Flow} (hhead : admHead s = some c) (hop : c.op = 0x21) (hring : c.ring ≠ 16)
    (hf : mget s.eng.flows (fld (cmdW c.entry 1) 11 0) = some f) :
    ∃ v, ∃ r : AdmRes, execRelease s = answer s v ∧ r.code = 0 ∧ Ended c.key (admRecord r c) v ∧
      ∀ p ∈ s.eng.flows, p.2.chain = f.chain → ∃ g, mget (flowsOf v) p.1 = some g ∧ g.state = 3 := by
  have hrel : release s (fld (cmdW c.entry 1) 11 0) (fld (cmdW c.entry 3) 47 0) =
      ({ code := 0, id := fld (cmdW c.entry 1) 11 0, twin := f.twin.map (·.toNat), tick := tickFrom s (fld (cmdW c.entry 3) 47 0) },
        (s.eng.flows.filter fun q => q.2.chain == f.chain).foldl (releaseAt (tickFrom s (fld (cmdW c.entry 3) 47 0))) s) := by
    unfold release
    rw [hf]
  obtain ⟨hflows, hended⟩ := runAdm_ends (op := 0x21) (f := fun s c =>
      admResult (release s (fld (cmdW c.entry 1) 11 0) (fld (cmdW c.entry 3) 47 0)).2 c.key
        (release s (fld (cmdW c.entry 1) 11 0) (fld (cmdW c.entry 3) 47 0)).1)
    hhead (by rw [hop]; rfl) hring (by rw [hrel]) (releaseAll_flowsOnly ..)
  refine ⟨_, _, rfl, rfl, hended, fun p hp hchain => ?_⟩
  rw [hflows]
  exact releaseAll_pending _ (.inl ⟨p, List.mem_filter.mpr ⟨hp, by simp [hchain]⟩, rfl⟩)

/-- The answer to a peer's request: the peer gets a code; where the request is refused, the flows stay (06 R137, R140). -/
theorem execAdmitPeerSegment_answers (peer : BitVec 4) (req : BitVec 512) {s : State} (heng : s.gen.eng = true) :
    ∃ v, ∃ code : Nat, execAdmitPeerSegment peer req s = answer s v ∧
      v.eng.peerAdmits = s.eng.peerAdmits ++ [(req, BitVec.ofNat 8 code)] ∧ (code ≠ 0 → flowsOf v = flowsOf s) := by
  unfold execAdmitPeerSegment
  extract_lets r p a second d
  rw [heng]
  have hd : FlowsOnly s d.2 ∧ (d.1.code ≠ 0 → flowsOf d.2 = flowsOf s) := by
    simp only [d]
    split
    · obtain ⟨t, ht, hdecides⟩ := admDecide_decides (evDuty a.2 admRink 12)
        { r with second := second, pair := if second then pairOf? a.2 r peer.toNat else none } (fld (cmdW req 1) 11 8)
      have hs : t.eng = s.eng := ht.trans (evDuty_eng ..)
      exact ⟨(FlowsOnly.of_eq hs).trans hdecides.flowsOnly, fun h => (hdecides.flows_of_refused h).trans (flowsOf_congr hs)⟩
    · exact ⟨.of_eq rfl, fun _ => rfl⟩
  exact ⟨_, d.1.code, rfl, congrArg (· ++ _) hd.1.peerAdmits, hd.2⟩

/-- Settles O35: an ADMIT, a RELEASE and a peer's request each end with the outcome of their decision, and leave the flows that it
records, releases or refuses. -/
theorem admissionRecordsPendingFlows : Obligations.AdmissionRecordsPendingFlows := by
  unfold Obligations.AdmissionRecordsPendingFlows
  refine ⟨fun s u c r hhead hop hring hfa hdec => ?_, fun s c f id hhead hop hring hid hf => ?_, fun s peer req heng => ?_⟩
  · obtain ⟨v, hexec, hended, hrecorded, hrefused⟩ := execAdmit_ends hhead hop hring hfa hdec
    refine ⟨fun hcode => completes_of_eng hexec fun t ht => ?_, fun hcode => completes_of_eng hexec fun t ht => ?_⟩
    · rw [admRecord, if_pos hcode] at hended
      rw [flowsOf_congr ht]
      exact ⟨hrecorded hcode, hended.congr ht⟩
    · rw [admRecord, if_neg hcode] at hended
      rw [flowsOf_congr ht]
      exact ⟨hrefused hcode, hended.congr ht⟩
  · subst hid
    obtain ⟨v, r, hexec, hcode, hended, hreleased⟩ := execRelease_ends hhead hop hring hf
    refine completes_of_eng hexec fun t ht => ?_
    rw [admRecord, if_pos hcode] at hended
    obtain ⟨hcmd, hqueue⟩ := hended.congr ht
    rw [flowsOf_congr ht]
    exact ⟨hreleased, ⟨_, hcmd, rfl, rfl⟩, hqueue⟩
  · obtain ⟨v, code, hexec, hanswer, hflows⟩ := execAdmitPeerSegment_answers peer req heng
    refine completes_of_eng hexec fun t ht => ⟨BitVec.ofNat 8 code, by rw [ht, hanswer], fun hne => ?_⟩
    rw [flowsOf_congr ht]
    exact hflows fun hzero => hne (congrArg _ hzero)

end Sys2Proof.Machine
end

section
/-! SUPPORT. Deadlines of tracker entries (07 R167, R168; 08 R179, R187; 10 R225). -/

namespace Sys2Proof.Machine

/-! A non-posted request reaches its deadline. -/

/-- The entry that a timeout leaves: a multicast's is apart for GTO frames, any other until a late answer or a reset (07 R168; 10 R225). -/
def timedOutTrk (s : State) (e : Trk) : Trk :=
  { e with hold := if e.group.isSome then .mcQuarantine (nowNs s + gtoOf s * 1024) else .quarantine }

/-- The request is gone, its entry is in quarantine, and its endpoint is answered with TIMEOUT (07 R167). -/
def timeoutTaken (s : State) (n : Nat) (tag : Tag) (e : Trk) : State :=
  pushErs (updNi s n fun i => { dropReq i e.reqId with trk := mset i.trk tag.toNat (timedOutTrk s e) }) n (trkErs e 3 0)

theorem exec_trackerTimeout {s : State} {n : NiId} {tag : Tag} {e : Trk} (he : mget (getNi s n.toNat).trk tag.toNat = some e)
    (hlive : e.hold = .live) (hposted : e.posted = false) (hfwd : e.fwd = false) (hdue : deadlineDue s e = true) (hslot : e.slot = none) :
    exec (.trackerTimeout n tag) s = answer s
      (evNi (setFlag (incSat (timeoutTaken s n.toNat tag e) (aNi n.toNat 0xD8) 1) (aNi n.toNat 0xC0) 0) n.toNat 14 1) := by
  have hends : (e.hold != .live || e.posted || e.fwd || !deadlineDue s e) = false := by simp [hlive, hposted, hfwd, hdue]
  change execTrackerTimeout n tag s = _
  simp only [execTrackerTimeout, he, hends, deliverEnd, hslot, Bool.false_eq_true, if_false, timeoutTaken, timedOutTrk]

theorem pushErs_niOnly (s : State) (n : Nat) (g : Egr) : NiOnly n s (pushErs s n g) := by
  rw [pushErs, updPort]
  exact .updNi ..

theorem getNi_pushErs (s : State) (n : Nat) (g : Egr) : getNi (pushErs s n g) n = { getNi s n with port := { (getNi s n).port with
    ersG := if g.piste then (getNi s n).port.ersG ++ [g] else (getNi s n).port.ersG
    ersB := if g.piste then (getNi s n).port.ersB else (getNi s n).port.ersB ++ [g] } } := by
  rw [pushErs, getNi_updPort_same]
  split <;> rfl

/-- What a timeout changes of its NI (07 R167): the entry, the requests, and the pool that its answer joins. -/
theorem timeoutTaken_spec {s t : State} {n : Nat} {tag : Tag} {e : Trk} (ht : t = timeoutTaken s n tag e) :
    NiOnly n s t ∧ mget (getNi t n).trk tag.toNat = some (timedOutTrk s e) ∧
      (if e.flow.isSome then (getNi t n).port.ersG else (getNi t n).port.ersB) =
        (if e.flow.isSome then (getNi s n).port.ersG else (getNi s n).port.ersB) ++ [trkErs e 3 0] ∧
      ∀ r ∈ (getNi t n).reqs, r.id ≠ e.reqId := by
  have hpool : (trkErs e 3 0).piste = e.flow.isSome := rfl
  subst ht
  refine ⟨(NiOnly.updNi ..).trans (pushErs_niOnly ..), ?_, ?_, ?_⟩
  all_goals rw [timeoutTaken, getNi_pushErs, getNi_updNi_same]
  · exact mget_mset_same ..
  · rw [hpool]
    split <;> rfl
  · simp [dropReq]

/-- Counting the timeout and setting TOUT change those two words alone (07 R167). -/
theorem timeoutCounted_spec {s t : State} {n : Nat} (hn : n < 128)
    (ht : t = evNi (setFlag (incSat s (aNi n 0xD8) 1) (aNi n 0xC0) 0) n 14 1) :
    NiNote n [aNi n 0xD8, aNi n 0xC0] s t ∧ (∃ q, getNi t n = { getNi s n with port := { (getNi s n).port with ntfQ := q } }) ∧
      (rd t (aNi n 0xD8)).toNat = min 0xFFFFFFFF ((rd s (aNi n 0xD8)).toNat + 1) ∧ rd t (aNi n 0xC0) = rd s (aNi n 0xC0) ||| 1#64 := by
  have hcount : NoteOnly _ t := ht ▸ evNi_noteOnly (setFlag (incSat s (aNi n 0xD8) 1) (aNi n 0xC0) 0) n 14 1 hn (by decide)
  have hkept : ∀ off < 0x2000, off ≠ 0x20 → rd t (aNi n off) = rd (setFlag (incSat s (aNi n 0xD8) 1) (aNi n 0xC0) 0) (aNi n off) :=
    fun off ho hlost => hcount.2.1 _ (noteWord_aNi hn ho hlost)
  obtain ⟨q, hq⟩ := (hcount.2.2 n).exists_ntfQ
  rw [getNi_setFlag, getNi_incSat] at hq
  refine ⟨(NiNote.incSat s 1 (by simp)).trans ((NiNote.setFlag _ 0 (by simp)).trans (hcount.niNote ..)), ⟨q, hq⟩, ?_, ?_⟩
  · rw [hkept _ (by decide) (by decide), rd_setFlag, if_neg (by simp [aNi_inj]), rd_incSat, if_pos rfl, toNat_satAdd]
  · rw [hkept _ (by decide) (by decide), rd_setFlag, if_pos rfl, rd_incSat, if_neg (by simp [aNi_inj])]
    rfl

/-! A posted write reaches its deadline. -/

/-- The record is the newest of the slice's log, which keeps eight (11 R247). -/
theorem slices_sliceLog (s : State) (n k : Nat) (el1 el0 : Word) : (getNi (sliceLog s n k el1 el0) n).slices =
    mupd (getNi s n).slices k {} fun c => { c with log := ((el1, el0) :: c.log).take 8 } := by
  unfold sliceLog
  extract_lets full s1 s2
  have hfull : getNi s2 n = getNi s1 n := by unfold s2; split <;> rfl
  simp only [getNi_incSat, hfull, s1, getNi_updNi_same]
  rfl

/-- The record of a posted write's error is logged with its slice (08 R187, 11 R247). -/
theorem log_pwError (s : State) (n k code stat opc tag addr : Nat) :
    (getSlice (getNi (pwError s n (some k) code stat opc tag addr) n) k).log =
      ((BitVec.ofNat 64 (1 <<< 63 ||| stat <<< 59 ||| opc <<< 52 ||| tag <<< 38 ||| frameOf s % 2 ^ 38),
        BitVec.ofNat 64 (code <<< 54 ||| addr % 2 ^ 52)) :: (getSlice (getNi s n) k).log).take 8 := by
  unfold pwError
  extract_lets j el1 el0 s1 s2 s3 s4
  have hnote : NoteOnly s1 s2 := raiseNi_noteOnly ..
  have hnoted : (getNi s2 n).slices = (getNi s1 n).slices := by
    obtain ⟨q, hq⟩ := (hnote.2.2 n).exists_ntfQ
    rw [hq]
  have hflag : getNi s4 n = getNi s2 n := (getNi_setFlag ..).trans (getNi_incSat ..)
  have hwords : getNi (if code = 0x103 then setFlag s4 (aNi n 0x100) 2 else s4) n = getNi s2 n := by
    split
    · exact (getNi_setFlag ..).trans hflag
    · exact hflag
  have hslices : (getNi s1 n).slices = mupd (getNi s n).slices k {} fun c => { c with log := ((el1, el0) :: c.log).take 8 } :=
    slices_sliceLog s n k el1 el0
  rw [getSlice, hwords, hnoted, hslices, mupd, mgetD_mset_same]
  rfl

/-- PW_ERR is set, and the flag of a write that reached its deadline with it (08 R187). -/
theorem flags_pwError {s : State} {n : Nat} (slice : Option Nat) (stat opc tag addr : Nat) (hn : n < 128) :
    rd (pwError s n slice 0x103 stat opc tag addr) (aNi n 0x100) = rd s (aNi n 0x100) ||| 5#64 := by
  unfold pwError
  extract_lets k el1 el0 s1 s2 s3 s4
  have hlogged : NiNote n [aNi n 0x180, aNi n (0x218 + 0x20 * k)] s s2 :=
    (sliceLog_niNote s n k el1 el0).trans ((raiseNi_noteOnly ..).niNote ..)
  have hkept : rd s2 (aNi n 0x100) = rd s (aNi n 0x100) :=
    hlogged.2.1 _ (by simp [aNi_inj]; omega) (noteWord_aNi hn (by decide) (by decide))
  have hboth : (1#64 ||| 4#64) = 5#64 := by decide
  rw [if_pos rfl, rd_setFlag, if_pos rfl, rd_setFlag, if_pos rfl, rd_incSat, if_neg (by simp [aNi_inj]), hkept, BitVec.or_assoc]
  exact congrArg _ hboth

/-- The write's entry is in quarantine, and it holds nothing back any longer, but for an acknowledgement bound still awaited (08 R179,
R185). -/
def writeEnded (s : State) (n : Nat) (tag : Tag) (e : Trk) : State :=
  updNi s n fun i => { i with
    trk := mset i.trk tag.toNat { e with hold := .quarantine }
    reqs := i.reqs.filter fun r => r.id != e.reqId || r.ackBound.isSome }

theorem exec_pwDeadline {s : State} {n : NiId} {tag : Tag} {e : Trk} (he : mget (getNi s n.toNat).trk tag.toNat = some e)
    (hlive : e.hold = .live) (hposted : e.posted = true) (hdue : deadlineDue s e = true) (hslot : e.slot = none) :
    exec (.pwDeadline n tag) s = answer s (pwError (writeEnded s n.toNat tag e) n.toNat (some e.slice.toNat) 0x103 3 e.opc.toNat
      (issuedTag (getNi s n.toNat) e tag) e.hostAddr.toNat) := by
  have hends : (e.hold != .live || !e.posted || !deadlineDue s e) = false := by simp [hlive, hposted, hdue]
  change execPwDeadline n tag s = _
  simp only [execPwDeadline, he, hends, hslot, Bool.false_eq_true, if_false, writeEnded]

/-! A multicast's quarantine ends. -/

theorem exec_mcQuarantineEnd {s : State} {n : NiId} {tag : Tag} {e : Trk} {u : Nat} (he : mget (getNi s n.toNat).trk tag.toNat = some e)
    (hold : e.hold = .mcQuarantine u) (hover : u ≤ nowNs s) : exec (.mcQuarantineEnd n tag) s = answer s (freeTrk s n.toNat tag) := by
  change execMcQuarantineEnd n tag s = _
  simp only [execMcQuarantineEnd, he, hold, if_pos hover]

/-- Settles O21: the request ends with its answer or its record, and only then its words are counted and flagged. -/
theorem deadlinesEndRequests : Obligations.DeadlinesEndRequests := by
  unfold Obligations.DeadlinesEndRequests
  rintro s n tag e k rfl he
  have hn : n.toNat < 128 := n.isLt
  refine ⟨fun hlive hposted hfwd hdue hslot => ?_, fun hlive hposted hdue hslot => ?_, fun u hold hover => ?_⟩
  · have hexec := exec_trackerTimeout he hlive hposted hfwd hdue hslot
    generalize hu : timeoutTaken s n.toNat tag e = u at hexec
    obtain ⟨honly, htrk, hanswer, hreqs⟩ := timeoutTaken_spec hu.symm
    obtain ⟨hnote, ⟨q, hq⟩, hcount, hflag⟩ := timeoutCounted_spec (s := u) hn rfl
    have hwords : ∀ a, rd u a = rd s a := by rw [honly.1]; exact fun _ => rfl
    have hwhole := (honly.niNote _).trans hnote
    refine completes_of_niNote hexec hwhole ?_
    rw [hq, hcount, hflag, hwords, hwords]
    exact ⟨htrk, hanswer, hreqs, rfl, rfl, hwhole⟩
  · obtain ⟨hnote, ⟨c, q, hni⟩, hcount⟩ := pwError_spec (s := writeEnded s n.toNat tag e) (slice := some e.slice.toNat) (code := 0x103)
      (stat := 3) (opc := e.opc.toNat) (tag := issuedTag (getNi s n.toNat) e tag) (addr := e.hostAddr.toNat) hn rfl
    have hended : NiOnly n.toNat s (writeEnded s n.toNat tag e) := .updNi ..
    have hwhole := (hended.niNote _).trans (hnote.mono (k := [aNi n.toNat 0x118, aNi n.toNat 0x100, aNi n.toNat 0x180,
      aNi n.toNat (0x218 + 0x20 * e.slice.toNat)]) (by simp [pwErrOffs]))
    refine completes_of_niNote (exec_pwDeadline he hlive hposted hdue hslot) hwhole ⟨?_, ?_, ?_, ?_, hwhole⟩
    · rw [hni, writeEnded, getNi_updNi_same]
      exact mget_mset_same ..
    · rw [hcount, toNat_satAdd, writeEnded, rd_updNi]
    · rw [flags_pwError _ _ _ _ _ hn, writeEnded, rd_updNi]
    · rw [log_pwError, writeEnded, getNi_updNi_same]
      rfl
  · have honly : NiOnly n.toNat s (freeTrk s n.toNat tag) := .updNi ..
    exact completes_of_niOnly (exec_mcQuarantineEnd he hold hover) honly ⟨getNi_updNi_same .., honly⟩

end Sys2Proof.Machine
end

section
/-! SUPPORT. Pieces of started messages, and the timing wheel (04 R72; 05 R97; 07 R156, R160). -/

namespace Sys2Proof.Machine

/-! Messages that waited for an attachment. -/

/-- The attachments that NI n has found down (18 R394). -/
def attDownOf (n : Nat) (s : State) : BitVec 2 := (getNi s n).attDown

theorem injectOwn_keepsAttDown (s : State) (n : Nat) (p : Plane) (m : Msg) (att : Option Bool) :
    Keeps (attDownOf n) s (injectOwn s n p m att) := by
  obtain ⟨c, q, hni⟩ := getNi_injectOwn s n p m att
  unfold Keeps attDownOf
  rw [hni]

theorem NiOnly.foldl {α : Type} {n : Nat} {f : State → α → State} (h : ∀ s a, NiOnly n s (f s a)) :
    ∀ (l : List α) (s : State), NiOnly n s (l.foldl f s)
  | [], _ => ⟨rfl, fun _ _ => rfl⟩
  | a :: l, s => (h s a).trans (NiOnly.foldl h l (f s a))

/-- Messages made outside the queues that start or wait on change their NI alone, and not what it knows of its attachments (05 R97). -/
theorem startOwns_spec (s : State) (n : Nat) (p : Plane) :
    NiOnly n s (startOwns s n p) ∧ Keeps (attDownOf n) s (startOwns s n p) := by
  unfold startOwns
  extract_lets l s0
  have hown : Keeps (attDownOf n) s s0 := by
    unfold Keeps attDownOf
    rw [getNi_updNi_same]
  exact ⟨(NiOnly.updNi ..).trans (NiOnly.foldl (fun t o => injectOwn_niOnly ..) _ _),
    hown.trans (Keeps.foldl (fun t o _ => injectOwn_keepsAttDown ..) s0)⟩

/-- Where no message waits for the plane nothing starts. -/
theorem getNi_startOwns_of_none {s : State} {n : Nat} {p : Plane} (h : ∀ o ∈ (getNi s n).sched.own, o.pl ≠ p) :
    getNi (startOwns s n p) n = getNi s n := by
  unfold startOwns
  extract_lets l s0
  have hkept : l.filter (fun o => o.pl != p) = l := List.filter_eq_self.2 fun o ho => by simpa using h o ho
  have hnone : l.filter (fun o => o.pl == p) = [] := List.filter_eq_nil_iff.2 fun o ho => by simpa using h o ho
  rw [hnone, List.foldl_nil, getNi_updNi_same, hkept]

/-! The placement that an NI holds. -/

/-- The words of router 0 that hold the placement are none that notifications write (05 Table 05.13). -/
theorem homeAt_congr {s t : State} {n : Nat} (hn : n < 128) (h : NotedBut [] s t) : homeAt t 0 n = homeAt s 0 n := by
  have haddr : aRtr 0 (0x200 + 4 * n) - aRtr 0 (0x200 + 4 * n) % 8 = aRtr 0 (0x200 + 4 * n - 4 * n % 8) := by unfold aRtr; omega
  have hword : rd t (aRtr 0 (0x200 + 4 * n - 4 * n % 8)) = rd s (aRtr 0 (0x200 + 4 * n - 4 * n % 8)) :=
    h _ List.not_mem_nil (noteWord_aRtr (by decide) (by omega))
  simp only [homeAt, rdBytes, haddr, hword]

theorem homeOf_congr {s t : State} {n : Nat} (hn : n < 128) (h : NotedBut [] s t) (hatt : Keeps (attDownOf n) s t) : homeOf t n = homeOf s n := by
  have hdown : (getNi t n).attDown = (getNi s n).attDown := hatt
  rw [homeOf, homeOf, homeAt_congr hn h, hdown]

theorem NiOnly.notedBut {n : Nat} {s t : State} (h : NiOnly n s t) : NotedBut [] s t := (h.niNote []).2.1

/-! Flits leave on an attachment. -/

/-- t differs from s in NI n, in router x, and in what notifications and event counts write. -/
def AttOnly (n x : Nat) (s t : State) : Prop :=
  t = { s with regs := t.regs, rtrs := t.rtrs, nis := t.nis, ntf := t.ntf, flt := { s.flt with log := t.flt.log } } ∧
  NotedBut [] s t ∧ (∀ y, y ≠ x → getRtr t y = getRtr s y) ∧ ∀ m, m ≠ n → SameNi s t m

theorem AttOnly.trans {n x : Nat} {s t u : State} (h : AttOnly n x s t) (k : AttOnly n x t u) : AttOnly n x s u := by
  obtain ⟨hall, hwords, hrtr, hni⟩ := h
  obtain ⟨kall, kwords, krtr, kni⟩ := k
  refine ⟨?_, fun a ha hn => (kwords a ha hn).trans (hwords a ha hn), fun y hy => (krtr y hy).trans (hrtr y hy),
    fun m hm => (hni m hm).trans (kni m hm)⟩
  rw [kall]
  conv_lhs => rw [hall]

theorem NiOnly.attOnly {n : Nat} {s t : State} (h : NiOnly n s t) (x : Nat) : AttOnly n x s t := by
  have ⟨hall, hni⟩ := h
  refine ⟨?_, h.notedBut, fun y _ => getRtr_congr (by rw [hall]) y, fun m hm => .of_eq (hni m hm)⟩
  rw [hall]

theorem NoteOnly.attOnly {s t : State} (h : NoteOnly s t) (n x : Nat) : AttOnly n x s t :=
  ⟨by rw [h.1], fun a _ => h.2.1 a, fun y _ => h.getRtr y, fun m _ => h.2.2 m⟩

theorem AttOnly.updPlane (n x : Nat) (s : State) (p : Plane) (f : RtrPlane → RtrPlane) : AttOnly n x s (updPlane s p x f) :=
  ⟨rfl, fun _ _ _ => rfl, fun _ hy => getRtr_updPlane_ne s p f hy, fun m _ => .refl s m⟩

theorem completes_of_attOnly {n x : Nat} {c : Instr} {s t : State} {P : State → Prop} (hexec : exec c s = answer s t)
    (h : AttOnly n x s t) (hP : P t) : Completes c s P := by
  have hall := h.1
  exact completes_of_answer hexec (by rw [hall]) (by rw [hall]) (by rw [hall]) hP

theorem linkOf_congr {s t : State} (h : t.rtrs = s.rtrs) (x : Nat) (p : Plane) (port : Nat) : linkOf t x p port = linkOf s x p port := by
  rw [linkOf, getRtr_congr h, linkOf]

/-- A flit as it enters its router on a channel (05 R89). -/
def intoRouter (ch : Nat) (f : Flit) : Flit := { f with ch := ch, msg := { f.msg with vcf := vcfOfChan ch } }

theorem SameNiButCredits.exists_ntfQ_credits {s t : State} {m : Nat} (h : SameNiButCredits s t m) : ∃ q b, getNi t m = { getNi s m with
    port := { (getNi s m).port with ntfQ := q }, sched := { (getNi s m).sched with credits := b } } := ⟨_, _, h⟩

/-- Flits of a channel have left NI n for router x: they are on the link behind those under way, and each has spent a credit (05 R90;
07 R156). -/
structure PieceSent (n x port : Nat) (alt : Bool) (p : Plane) (ch : Nat) (fs : List Flit) (s t : State) : Prop where
  frame : AttOnly n x s t
  link : linkOf t x p port = linkOf s x p port ++ fs.map (intoRouter ch)
  ni : SameNiButCredits s t n
  credit : niCredit (getNi t n) alt p ch = niCredit (getNi s n) alt p ch - fs.length
  others : ∀ a, a ≠ attKey alt p ch → mget (getNi t n).sched.credits a = mget (getNi s n).sched.credits a

theorem PieceSent.nil (n x port : Nat) (alt : Bool) (p : Plane) (ch : Nat) (s : State) : PieceSent n x port alt p ch [] s s :=
  ⟨(NoteOnly.refl s).attOnly n x, (List.append_nil _).symm, rfl, rfl, fun _ _ => rfl⟩

theorem PieceSent.trans {n x port : Nat} {alt : Bool} {p : Plane} {ch : Nat} {fs gs : List Flit} {s t u : State}
    (h : PieceSent n x port alt p ch fs s t) (k : PieceSent n x port alt p ch gs t u) : PieceSent n x port alt p ch (fs ++ gs) s u where
  frame := h.frame.trans k.frame
  link := by rw [k.link, h.link, List.map_append, List.append_assoc]
  ni := h.ni.trans k.ni
  credit := by rw [k.credit, h.credit, List.length_append, Nat.sub_sub]
  others a ha := (k.others a ha).trans (h.others a ha)

/-- The NI's placement stands while its flits leave. -/
theorem PieceSent.homeOf {n x port : Nat} {alt : Bool} {p : Plane} {ch : Nat} {fs : List Flit} {s t : State}
    (h : PieceSent n x port alt p ch fs s t) (hn : n < 128) : homeOf t n = homeOf s n :=
  homeOf_congr hn h.frame.2.1 (by unfold Keeps attDownOf; rw [h.ni])

/-- The event that counts the flits of a plane (20 Table 20.3). -/
def flitEvent : Plane → Nat
  | .req => 9
  | .rsp => 10

theorem flitEvent_lt (p : Plane) : flitEvent p < 48 := by cases p <;> decide

/-- One flit leaves with a credit, and is counted. -/
def flitSent (s : State) (n : Nat) (alt : Bool) (p : Plane) (ch : Nat) (f : Flit) : State :=
  evNi (updNi (toRouter s n alt p f ch) n fun i => { i with sched := { i.sched with
    credits := mset i.sched.credits (attKey alt p ch) (niCredit (getNi s n) alt p ch - 1) } }) n (flitEvent p) 1

theorem toRouter_of_up {s : State} {n : Nat} {alt : Bool} (p : Plane) (f : Flit) (ch : Nat)
    (h : (getRtr s (attRtr (homeOf s n) alt)).failed = false) :
    toRouter s n alt p f ch = updPlane s p (attRtr (homeOf s n) alt) fun r => { r with
      link := mupd r.link (attPort (homeOf s n) alt) [] fun l => l ++ [intoRouter ch f] } := by
  simp only [toRouter, toRouterOn, h, Bool.false_eq_true, if_false, intoRouter]

theorem flitSent_spec {s : State} {n : Nat} {alt : Bool} (p : Plane) (ch : Nat) (f : Flit) (hn : n < 128)
    (hup : (getRtr s (attRtr (homeOf s n) alt)).failed = false) :
    PieceSent n (attRtr (homeOf s n) alt) (attPort (homeOf s n) alt) alt p ch [f] s (flitSent s n alt p ch f) ∧
      (getRtr (flitSent s n alt p ch f) (attRtr (homeOf s n) alt)).failed = false := by
  unfold flitSent
  rw [toRouter_of_up p f ch hup]
  generalize attRtr (homeOf s n) alt = x at hup ⊢
  generalize attPort (homeOf s n) alt = port
  generalize hu : updPlane s p x _ = u
  generalize hv : updNi u n _ = v
  have hput : AttOnly n x s u := by rw [← hu]; exact .updPlane ..
  have hspent : NiOnly n u v := by rw [← hv]; exact .updNi ..
  have hcount : NoteOnly v (evNi v n (flitEvent p) 1) := evNi_noteOnly v n _ 1 hn (flitEvent_lt p)
  have hrtr : getRtr v x = getRtr u x := getRtr_congr (by rw [hspent.1]) x
  have hniU : getNi u n = getNi s n := by rw [← hu]; rfl
  have hniV : getNi v n = { getNi s n with sched := { (getNi s n).sched with
      credits := mset (getNi s n).sched.credits (attKey alt p ch) (niCredit (getNi s n) alt p ch - 1) } } := by
    rw [← hv, getNi_updNi_same, hniU]
  obtain ⟨q, hq⟩ := (hcount.2.2 n).exists_ntfQ
  rw [hniV] at hq
  refine ⟨⟨hput.trans ((hspent.attOnly x).trans (hcount.attOnly n x)), ?_, ?_, ?_, fun a ha => ?_⟩, ?_⟩
  · rw [linkOf, hcount.getRtr, hrtr, ← hu, planeOf_updPlane_same]
    exact mgetD_mset_same ..
  · unfold SameNiButCredits
    rw [hq]
  · rw [hq]
    exact mgetD_mset_same ..
  · rw [hq]
    exact mget_mset_ne _ _ _ _ ha
  · rw [hcount.getRtr, hrtr, ← hu, failed_updPlane]
    exact hup

theorem sendPiece_cons {s : State} {n : Nat} {alt : Bool} {p : Plane} {g : Prog} {f : Flit} {rest : List Flit} (fuel : Nat)
    (hflits : g.flits = f :: rest) (hcredit : niCredit (getNi s n) alt p g.ch ≠ 0) :
    sendPiece s n alt p g (fuel + 1) = sendPiece (flitSent s n alt p g.ch f) n alt p { g with flits := rest } fuel := by
  simp only [sendPiece, hflits, if_neg hcredit]
  cases p <;> rfl

theorem sendPiece_stops {s : State} {n : Nat} {alt : Bool} {p : Plane} {g : Prog} {fuel : Nat}
    (h : min fuel (min (niCredit (getNi s n) alt p g.ch) g.flits.length) = 0) : sendPiece s n alt p g fuel = (g, s) := by
  cases fuel with
  | zero => rfl
  | succ fuel =>
    unfold sendPiece
    cases hflits : g.flits with
    | nil => rfl
    | cons f rest =>
      have hzero : niCredit (getNi s n) alt p g.ch = 0 := by
        rw [hflits, List.length_cons] at h
        omega
      simp only [hzero, if_true]

/-- A piece is as many flits as its length, its credits and the message last (07 R156). -/
theorem sendPiece_spec {n : Nat} {alt : Bool} {p : Plane} (hn : n < 128) (fuel : Nat) :
    ∀ {s : State} {g : Prog} {c : Nat}, (getRtr s (attRtr (homeOf s n) alt)).failed = false →
      c = min fuel (min (niCredit (getNi s n) alt p g.ch) g.flits.length) →
      (sendPiece s n alt p g fuel).1 = { g with flits := g.flits.drop c } ∧
        PieceSent n (attRtr (homeOf s n) alt) (attPort (homeOf s n) alt) alt p g.ch (g.flits.take c) s (sendPiece s n alt p g fuel).2 := by
  induction fuel with
  | zero =>
    intro s g c _ hc
    rw [hc, Nat.zero_min]
    exact ⟨rfl, .nil ..⟩
  | succ fuel ih =>
    intro s g c hup hc
    cases c with
    | zero =>
      rw [sendPiece_stops hc.symm]
      exact ⟨rfl, .nil ..⟩
    | succ c =>
      obtain ⟨f, rest, hflits⟩ : ∃ f rest, g.flits = f :: rest := List.exists_cons_of_length_pos (by omega)
      have hlen : g.flits.length = rest.length + 1 := by rw [hflits, List.length_cons]
      obtain ⟨hsent, hstill⟩ := flitSent_spec (alt := alt) p g.ch f hn hup
      have hhome := hsent.homeOf hn
      have hcredit := hsent.credit
      obtain ⟨hleft, hrest⟩ := ih (s := flitSent s n alt p g.ch f) (g := { g with flits := rest }) (c := c) (by rw [hhome]; exact hstill)
        (by rw [hcredit, List.length_singleton]; dsimp only; omega)
      rw [hhome] at hrest
      rw [sendPiece_cons fuel hflits (by omega), hflits]
      exact ⟨hleft, hsent.trans hrest⟩

/-! The statement about a piece. -/

theorem exec_attachmentPieceSend {s u : State} {n : NiId} {alt : Bool} {pl : Plane} {j : Nat} {g : Prog} {l : List Prog × List Prog}
    (hu : u = startOwns s n.toNat pl) (hup : attUp (homeOf u n.toNat) alt = true)
    (hl : l = splitProg (mgetD (getNi u n.toNat).sched.prog (attPl alt pl) []))
    (hpick : pickProg (getNi u n.toNat) alt pl l.1 = some j) (hg : l.1[j]? = some g) :
    exec (.attachmentPieceSend n alt pl) s = answer s (updNi (sendPiece u n.toNat alt pl g 4).2 n.toNat fun i =>
      { i with sched := { i.sched with
        prog := mset i.sched.prog (attPl alt pl) (turnProg l.1 l.2 j (sendPiece u n.toNat alt pl g 4).1) } }) := by
  change execAttachmentPieceSend n alt pl s = _
  simp only [execAttachmentPieceSend, ← hu, ← hl, hup, Bool.true_eq_false, if_false, hpick, hg]

/-- The piece's attachment and its plane's turn: what is sent, what is left, and what stays (07 R156). -/
theorem completes_attachmentPieceSend {s u : State} {n : NiId} {alt : Bool} {pl : Plane} {x port c j : Nat} {g : Prog}
    {l : List Prog × List Prog} (hu : u = startOwns s n.toNat pl) (hup : attUp (homeOf s n.toNat) alt = true)
    (hx : x = attRtr (homeOf s n.toNat) alt) (hport : port = attPort (homeOf s n.toNat) alt) (hlive : (getRtr s x).failed = false)
    (hl : l = splitProg (mgetD (getNi u n.toNat).sched.prog (attPl alt pl) []))
    (hpick : pickProg (getNi u n.toNat) alt pl l.1 = some j) (hg : l.1[j]? = some g)
    (hc : c = min 4 (min (niCredit (getNi u n.toNat) alt pl g.ch) g.flits.length)) :
    Completes (.attachmentPieceSend n alt pl) s fun t => ∃ v, PieceSent n.toNat x port alt pl g.ch (g.flits.take c) u v ∧
      NiOnly n.toNat s u ∧ t = updNi v n.toNat fun i => { i with sched := { i.sched with
        prog := mset i.sched.prog (attPl alt pl) (turnProg l.1 l.2 j { g with flits := g.flits.drop c }) } } := by
  have hn : n.toNat < 128 := n.isLt
  obtain ⟨hstarted, hatt⟩ := startOwns_spec s n.toNat pl
  rw [← hu] at hstarted hatt
  have hhome : homeOf u n.toNat = homeOf s n.toNat := homeOf_congr hn hstarted.notedBut hatt
  have hrtr : getRtr u x = getRtr s x := getRtr_congr (by rw [hstarted.1]) x
  rw [← hhome] at hup hx hport
  rw [← hrtr, hx] at hlive
  obtain ⟨hleft, hsent⟩ := sendPiece_spec hn 4 hlive hc
  have hexec := exec_attachmentPieceSend hu hup hl hpick hg
  rw [hleft] at hexec
  rw [← hx, ← hport] at hsent
  exact completes_of_attOnly hexec ((hstarted.attOnly x).trans (hsent.frame.trans ((NiOnly.updNi ..).attOnly x))) ⟨_, hsent, hstarted, rfl⟩

/-! The timing wheel. -/

theorem getQ_mmap {i : Ni} {f : Nat → Queue → Queue} {q : Nat} (hf : f q {} = {}) :
    getQ { i with sched := { i.sched with queues := mmap i.sched.queues f } } q = f q (getQ i q) := by
  unfold getQ mgetD
  rw [mget_mmap]
  cases mget i.sched.queues q with
  | none => exact hf.symm
  | some u => rfl

/-- A queue as its bucket begins (07 R160). -/
def wheelTurned (now : Nat) (u : Queue) : Queue :=
  match u.wheel with
  | some b => if b * 2 ≤ now then { u with wheel := if now < u.tElig / 512 * 2 then some (min (u.tElig / 512) (now / 2 + 4095)) else none } else u
  | none => u

theorem wheelTurned_only (now : Nat) (u : Queue) : wheelTurned now u = { u with wheel := (wheelTurned now u).wheel } := by
  unfold wheelTurned
  split
  · split <;> rfl
  · rfl

theorem wheelTurned_of_not_begun {now b : Nat} {u : Queue} (hb : u.wheel = some b) (h : now < b * 2) : wheelTurned now u = u := by
  simp only [wheelTurned, hb, if_neg (Nat.not_le.2 h)]

theorem wheel_wheelTurned_of_begun {now b : Nat} {u : Queue} (hb : u.wheel = some b) (h : b * 2 ≤ now) :
    (wheelTurned now u).wheel = if now < u.tElig / 512 * 2 then some (min (u.tElig / 512) (now / 2 + 4095)) else none := by
  simp only [wheelTurned, hb, if_pos h]

theorem exec_wheelBucketBegin (s : State) (n : NiId) : exec (.wheelBucketBegin n) s = answer s (updNi s n.toNat fun i =>
    { i with sched := { i.sched with queues := mmap i.sched.queues fun _ => wheelTurned (nowNs s) } }) := rfl

/-- Settles O20: the flits leave one by one, each with its credit, and the turn then passes; a queue's wheel entry is judged alone. -/
theorem piecesLeaveAsCreditsLast : Obligations.PiecesLeaveAsCreditsLast := by
  unfold Obligations.PiecesLeaveAsCreditsLast
  refine ⟨?_, fun s n => ?_⟩
  · rintro s n alt pl _ x port c j g u l rfl hu hup hx hport hlive hl hpick hg hc
    obtain ⟨t, hexec, v, hsent, hstarted, ht⟩ := completes_attachmentPieceSend hu hup hx hport hlive hl hpick hg hc
    have hturn : NiOnly n.toNat v t := ht ▸ NiOnly.updNi ..
    obtain ⟨hall, hwords, hrtrs, hnis⟩ := (hstarted.attOnly x).trans (hsent.frame.trans (hturn.attOnly x))
    obtain ⟨-, hlink, hni, hcredit, hothers⟩ := hsent
    obtain ⟨q, b, hq⟩ := hni.exists_ntfQ_credits
    rw [hq] at hcredit hothers
    have hlinks : ∀ {s t : State}, NiOnly n.toNat s t → linkOf t x pl port = linkOf s x pl port := fun h => linkOf_congr (by rw [h.1]) ..
    have hniT : getNi t n.toNat = { getNi u n.toNat with
        port := { (getNi u n.toNat).port with ntfQ := q }
        sched := { (getNi u n.toNat).sched with
          credits := b
          prog := mset (getNi u n.toNat).sched.prog (attPl alt pl) (turnProg l.1 l.2 j { g with flits := g.flits.drop c }) } } := by
      rw [ht, getNi_updNi_same, hq]
    have hlen : (g.flits.take c).length = c := by rw [List.length_take]; omega
    rw [hlen] at hcredit
    refine ⟨t, hexec, ?_, ?_, ?_, ?_, fun a ha => ?_, fun a ha => ?_, fun hnone => ?_, hrtrs, hnis, hwords, hall⟩
    · rw [hlinks hturn, hlink, hlinks hstarted]
      rfl
    · rw [hniT]
      exact hcredit
    · rw [hniT]
      exact mgetD_mset_same ..
    · rw [hniT]
    · rw [hniT]
      exact mget_mset_ne _ _ _ _ ha
    · rw [hniT]
      exact hothers a ha
    · rw [hu, getNi_startOwns_of_none hnone]
  · have honly : NiOnly n.toNat s _ := NiOnly.updNi s n.toNat fun i =>
      { i with sched := { i.sched with queues := mmap i.sched.queues fun _ => wheelTurned (nowNs s) } }
    refine completes_of_niOnly (exec_wheelBucketBegin s n) honly ⟨honly, ?_⟩
    rintro q _ rfl
    rw [getNi_updNi_same, getQ_mmap rfl]
    refine ⟨wheelTurned_only .., fun b hb hwait => ?_, fun b hb hbegun hpast => ?_, fun b hb hbegun hahead => ?_⟩
    · rw [wheelTurned_of_not_begun hb hwait, hb]
    · rw [wheel_wheelTurned_of_begun hb hbegun, if_neg (Nat.not_lt.2 hpast)]
    · rw [wheel_wheelTurned_of_begun hb hbegun, if_pos hahead]

end Sys2Proof.Machine
end

section
/-! SUPPORT. The start of the message that the deficit round robin picks (04 R74; 07 R152 to R154). -/

namespace Sys2Proof.Machine

/-! The deficit round robin of a plane, as it stands for one queue. -/

/-- PTR of a plane (07 R153). -/
def ptrOf (c : Sched) : Plane → Nat
  | .req => c.ptrQ
  | .rsp => c.ptrS

/-- The messages under way, PTR of a plane, and the deficit and the responses of a queue. -/
def drrOf (p : Plane) (q : Nat) (i : Ni) : Map (List Prog) × Nat × Nat × List RspEnt :=
  (i.sched.prog, ptrOf i.sched p, halfDef (getQ i q) p, (getQ i q).rsp)

/-- The same of NI n. -/
def drrView (n : Nat) (p : Plane) (q : Nat) (s : State) : Map (List Prog) × Nat × Nat × List RspEnt := drrOf p q (getNi s n)

/-- NI n alone may change, with what notifications write, and not what its deficit round robin has for queue q. -/
def KeepsDrr (n : Nat) (p : Plane) (q : Nat) (s t : State) : Prop := NiNote n [] s t ∧ Keeps (drrView n p q) s t

section
variable {n : Nat} {p : Plane} {q : Nat}

theorem KeepsDrr.refl (s : State) : KeepsDrr n p q s s := ⟨.refl .., .refl ..⟩

theorem KeepsDrr.trans {s t u : State} (h : KeepsDrr n p q s t) (k : KeepsDrr n p q t u) : KeepsDrr n p q s u :=
  ⟨h.1.trans k.1, h.2.trans k.2⟩

theorem KeepsDrr.updNi (s : State) {f : Ni → Ni} (hf : ∀ i, drrOf p q (f i) = drrOf p q i) : KeepsDrr n p q s (updNi s n f) := by
  refine ⟨.updNi .., ?_⟩
  unfold Keeps drrView
  rw [getNi_updNi_same, hf]

theorem NoteOnly.keepsDrr {s t : State} (h : NoteOnly s t) : KeepsDrr n p q s t := by
  obtain ⟨r, hr⟩ := (h.2.2 n).exists_ntfQ
  refine ⟨h.niNote .., ?_⟩
  unfold Keeps drrView
  rw [hr]
  rfl

theorem getQ_updQ_ne (i : Ni) {j : Nat} (f : Queue → Queue) (h : q ≠ j) : getQ (updQ i j f) q = getQ i q := mgetD_mset_ne _ _ _ _ _ h

/-- A change of a queue that keeps its deficit and its responses. -/
theorem drrOf_updQ (i : Ni) (j : Nat) {f : Queue → Queue} (hf : ∀ u, halfDef (f u) p = halfDef u p ∧ (f u).rsp = u.rsp) :
    drrOf p q (updQ i j f) = drrOf p q i := by
  have hqueue : halfDef (getQ (updQ i j f) q) p = halfDef (getQ i q) p ∧ (getQ (updQ i j f) q).rsp = (getQ i q).rsp := by
    by_cases h : q = j
    · rw [h, getQ_updQ_same]
      exact hf _
    · rw [getQ_updQ_ne i f h]
      exact ⟨rfl, rfl⟩
  unfold drrOf
  rw [hqueue.1, hqueue.2]
  rfl

/-! What a start changes of its queue. -/

theorem halfDef_setHalf (u : Queue) (d : Nat) (g a : Bool) : halfDef (setHalf u p d g a) p = d := by cases p <;> rfl

theorem rsp_setHalf (u : Queue) (d : Nat) (g a : Bool) : (setHalf u p d g a).rsp = u.rsp := by cases p <;> rfl

/-- A queue whose half is charged with a cost and whose response, if it is one, has left (07 R153). -/
def headTaken (p : Plane) (cost : Nat) (u : Queue) : Queue :=
  setHalf (match p with | .req => u | .rsp => { u with rsp := u.rsp.tail }) p (halfDef u p - cost) (halfGot u p) (halfAct u p)

theorem getQ_takeHead (i : Ni) (cost : Nat) : getQ (takeHead i p q cost) q = headTaken p cost (getQ i q) := by
  cases p with
  | req => exact getQ_updQ_same i q (headTaken .req cost)
  | rsp => exact getQ_updQ_same i q (headTaken .rsp cost)

/-- What the deficit round robin has for a queue whose head of a cost has left (07 R153). -/
def drrTaken (p : Plane) (q cost : Nat) (i : Ni) : Map (List Prog) × Nat × Nat × List RspEnt :=
  (i.sched.prog, q, halfDef (getQ i q) p - cost, match p with | .req => (getQ i q).rsp | .rsp => (getQ i q).rsp.tail)

/-- The head is gone, its half is charged, and PTR names its queue. -/
theorem drrOf_takeHead (i : Ni) (cost : Nat) : drrOf p q (takeHead i p q cost) = drrTaken p q cost i := by
  unfold drrOf drrTaken
  rw [getQ_takeHead]
  unfold headTaken
  rw [halfDef_setHalf, rsp_setHalf]
  cases p <;> rfl

theorem fcNote_kept (u : Queue) (pl : Plane) (c t : Nat) : halfDef (fcNote u pl c t) p = halfDef u p ∧ (fcNote u pl c t).rsp = u.rsp := by
  cases p <;> cases pl <;> exact ⟨rfl, rfl⟩

/-- The rate limiter's charge (07 R157 to R160). -/
theorem chargeQ_keepsDrr (s : State) (pl : Plane) (j cost : Nat) : KeepsDrr n p q s (chargeQ s n pl j cost) := by
  unfold chargeQ
  extract_lets u d t
  split
  · exact .updNi s fun i => drrOf_updQ i j fun u => by
      obtain ⟨hdef, hrsp⟩ := fcNote_kept (p := p) { u with
        tElig := t, sLast := nowNs s, cLast := cost, wheel := some (min (t / 512) (nowNs s / 2 + 4095)) } pl 0 d
      exact ⟨hdef.trans (by cases p <;> rfl), hrsp⟩
  · exact .updNi s fun i => drrOf_updQ i j fun u => by
      obtain ⟨hdef, hrsp⟩ := fcNote_kept (p := p) { u with credit := creditNow s n j - (16 * cost : Nat), tUpd := nowNs s } pl (16 * cost) 0
      exact ⟨hdef.trans (by cases p <;> rfl), hrsp⟩

theorem chargeSc_keepsDrr (s : State) (k cost : Nat) : KeepsDrr n p q s (chargeSc s n k cost) := .updNi s fun _ => rfl

theorem drrOf_etcTouch (i : Ni) (a : BitVec 4) (x : BitVec 19) : drrOf p q (etcTouch i a x) = drrOf p q i := by
  unfold etcTouch
  split <;> rfl

theorem drrOf_memberGone (i : Ni) (m : Msg) : drrOf p q (memberGone i m) = drrOf p q i := by
  unfold memberGone
  split <;> rfl

theorem allocTrk_keepsDrr (s : State) (e : Trk) : KeepsDrr n p q s (allocTrk s n e).2 := by
  unfold allocTrk
  split <;> dsimp only
  · have htake : KeepsDrr n p q s (takeFree s).2 := ⟨.takeFree .., rfl⟩
    exact htake.trans (.updNi _ fun _ => rfl)
  · exact .refl s

/-- A request that is issued leaves its queue, with its tracker entry (08 R173, R178, R179). -/
theorem issueReq_keepsDrr (s : State) (r : Req) (m : Msg) : KeepsDrr n p q s (issueReq s n r m).2 := by
  unfold issueReq
  extract_lets t t2
  have htag : KeepsDrr n p q s t.2 := by
    unfold t
    split
    · exact allocTrk_keepsDrr ..
    · exact .refl s
  have hdst : KeepsDrr n p q t.2 t2 := by
    unfold t2
    split
    · exact .updNi _ fun _ => rfl
    · exact .refl _
  exact htag.trans (hdst.trans (.updNi _ fun i => drrOf_updQ (updReq i r.id _) r.q fun u => by cases p <;> exact ⟨rfl, rfl⟩))

theorem stampMsg_keepsDrr (s : State) (m : Msg) : KeepsDrr n p q s (stampMsg s n m).2 := by
  refine ⟨(stampMsg_niOnly s n m).niNote _, ?_⟩
  unfold Keeps drrView
  rw [getNi_stampMsg]
  rfl

end

/-! The message that starts. -/

/-- g is m as the NI sends it on a channel (04 R66, R73, R74): stamped and sealed. -/
def StartedAs (s : State) (ch : Nat) (m g : Msg) : Prop :=
  g.crc = msgCrc g ∧ g.dst = m.dst ∧ g.opc = m.opc ∧ g.cls = m.cls ∧ g.addr = m.addr ∧ g.data = m.data ∧ g.vcf = vcfOfChan ch ∧
    g.ep = curEp s ∧ g.span = ((m.cls != 2 || decide (opPlane m.opc.toNat = .rsp)) && nodeInst m.dst != instNo s)

/-- The CRC does not cover its own field (04 R74). -/
theorem msgCrc_sealMsg (m : Msg) : msgCrc (sealMsg m) = msgCrc m := congrArg crc32c rfl

theorem stampMsg_startedAs (s : State) (n ch : Nat) (m : Msg) : StartedAs s ch m (stampMsg s n { m with vcf := vcfOfChan ch }).1 :=
  ⟨(msgCrc_sealMsg _).symm, rfl, rfl, rfl, rfl, rfl, rfl, rfl, rfl⟩

/-- What a stamp reads, the epoch in force and GLB_PROFILE.INST, lies outside the blocks of the NIs (01 R19; 05 R110). -/
theorem StartedAs.congr {s t : State} {k ch : Nat} {m g : Msg} {l : List Nat} (hnote : NiNote k l s t) (hl : ∀ a ∈ l, 0x200000 ≤ a)
    (h : StartedAs t ch m g) : StartedAs s ch m g := by
  have hword : ∀ a < 0x200000, noteWord a = false → rd t a = rd s a := fun a ha hn => hnote.2.1 a (fun hm => absurd (hl a hm) (by omega)) hn
  have hep : curEp t = curEp s := by rw [curEp, rdF, hword _ (by decide) (noteWord_aRtr (by decide) (by decide)), curEp, rdF]
  have hinst : instNo t = instNo s := by rw [instNo, rdF, hword _ (by decide) (by decide), instNo, rdF]
  unfold StartedAs at h ⊢
  rwa [hep, hinst] at h

/-! The pick. -/

theorem startable_of_drrPick {s : State} {n q ch : Nat} {p : Plane} {m : Msg} {alt : Bool} (h : drrPick s n p = some (q, m, alt, ch)) :
    startable s n p q = some m := by
  unfold drrPick at h
  obtain ⟨j, -, hj⟩ := List.exists_of_findSome?_eq_some h
  split at hj
  next c sl m' hhead hstart =>
    simp only [Option.ite_none_right_eq_some, Option.map_eq_some_iff, Prod.mk.injEq] at hj
    obtain ⟨-, a, -, rfl, rfl, -, -⟩ := hj
    exact hstart
  next => cases hj

theorem exec_messageStart {s u : State} {n : NiId} {pl : Plane} {q ch : Nat} {m : Msg} {alt : Bool} (hni : isNi s n.toNat = true)
    (hregion : (getNi s n.toNat).region = 0)
    (hu : u = wakes (roundEnd (if pl = .req then countHold (askFills (fcBegin s n.toNat pl) n.toNat) n.toNat else fcBegin s n.toNat pl)
      n.toNat pl) n.toNat pl)
    (hpick : drrPick u n.toNat pl = some (q, m, alt, ch)) (halone : packable m = false) :
    exec (.messageStart n pl) s = answer s (sleeps (startMsg u n.toNat pl q m alt ch) n.toNat pl) := by
  have hon : (!isNi s n.toNat || (getNi s n.toNat).region != 0) = false := by simp [hni, hregion]
  change execMessageStart n pl s = _
  simp only [execMessageStart, hon, Bool.false_eq_true, if_false, ← hu, hpick, startPack, halone, Bool.false_and]

/-! What the scheduler does before it picks. -/

theorem NiNote.foldl {α : Type} {n : Nat} {l : List Nat} {f : State → α → State} (h : ∀ s a, NiNote n l s (f s a)) :
    ∀ (as : List α) (s : State), NiNote n l s (as.foldl f s)
  | [], s => .refl n l s
  | a :: as, s => (h s a).trans (NiNote.foldl h as (f s a))

theorem askFills_niNote (s : State) {n : Nat} (hn : n < 128) : NiNote n [] s (askFills s n) := by
  refine NiNote.foldl (fun t q => ?_) _ _
  split
  · split
    · exact (etcNeed_keepsTaken _ _ _ hn).1
    · exact .refl ..
  · exact .refl ..

theorem countHold_niNote (s : State) (n : Nat) : NiNote n [aNi n 0x128] s (countHold s n) :=
  .ite (.incSat s 1 (List.mem_singleton_self _)) (.refl ..)

theorem roundEnd_niNote (s : State) (n : Nat) (p : Plane) (l : List Nat) : NiNote n l s (roundEnd s n p) := .ite (.refl ..) (.updNi ..)

/-- Until it picks, a scheduler changes its NI, NI_ORD_HOLD, and what notifications and event counts write (07 R153; 08 R192). -/
theorem picking_niNote {s u : State} {n : Nat} {pl : Plane} (hn : n < 128)
    (hu : u = wakes (roundEnd (if pl = .req then countHold (askFills (fcBegin s n pl) n) n else fcBegin s n pl) n pl) n pl) :
    NiNote n [aNi n 0x128] s u := by
  have hbegin : NiNote n [aNi n 0x128] s (fcBegin s n pl) := by
    unfold fcBegin
    exact .updNi ..
  have hasked : NiNote n [aNi n 0x128] (fcBegin s n pl) (countHold (askFills (fcBegin s n pl) n) n) :=
    ((askFills_niNote _ hn).mono (List.nil_subset _)).trans (countHold_niNote ..)
  rw [hu]
  exact (hbegin.trans (.ite hasked (.refl ..))).trans ((roundEnd_niNote ..).trans (.updNi ..))

/-! The head starts. -/

/-- The state with the head request gone and charged to its queue and its slice (07 R157; 11 R235); the entry that named its target is
used (09 R199). -/
def reqCharged (s : State) (n q : Nat) (r : Req) : State :=
  let s1 := chargeSc (chargeQ (updNi s n fun i => takeHead i .req q (reqCost r)) n .req q (reqCost r)) n r.slice.toNat (reqCost r)
  match r.fill with
  | some (a, x) => updNi s1 n fun i => etcTouch i a x
  | none => s1

/-- The request is issued, and its message stamped. -/
def reqSent (s : State) (n : Nat) (r : Req) (m : Msg) (ch : Nat) : Msg × State :=
  stampMsg (issueReq s n r m).2 n { withTag m (issueReq s n r m).1 with vcf := vcfOfChan ch }

theorem startHead_of_req {s : State} {n q : Nat} {r : Req} (m : Msg) (ch : Nat)
    (hr : (getQ (getNi s n) q).reqIds.head?.bind (reqById (getNi s n)) = some r) :
    startHead s n .req q m ch = some ((reqSent (reqCharged s n q r) n r m ch).1,
      evNi (reqSent (reqCharged s n q r) n r m ch).2 n (32 + r.slice.toNat) m.data.length) := by
  unfold startHead
  dsimp only
  rw [hr]
  rfl

/-- The request's charges take its head and keep the rest of its deficit round robin. -/
theorem reqCharged_spec (s : State) (n q : Nat) (r : Req) :
    NiNote n [] s (reqCharged s n q r) ∧ drrView n .req q (reqCharged s n q r) = drrTaken .req q (reqCost r) (getNi s n) := by
  unfold reqCharged
  extract_lets s1
  have htaken : drrView n .req q (updNi s n fun i => takeHead i .req q (reqCost r)) = drrTaken .req q (reqCost r) (getNi s n) := by
    rw [drrView, getNi_updNi_same, drrOf_takeHead]
  have hcharged : KeepsDrr n .req q (updNi s n fun i => takeHead i .req q (reqCost r)) s1 :=
    (chargeQ_keepsDrr ..).trans (chargeSc_keepsDrr ..)
  have hkept : ∀ {t : State}, KeepsDrr n .req q s1 t → NiNote n [] s t ∧ drrView n .req q t = drrTaken .req q (reqCost r) (getNi s n) :=
    fun h => ⟨(NiNote.updNi ..).trans (hcharged.trans h).1, Eq.trans (hcharged.trans h).2 htaken⟩
  split
  · exact hkept (.updNi s1 fun i => drrOf_etcTouch ..)
  · exact hkept (.refl s1)

theorem reqSent_spec (s : State) (n q : Nat) (r : Req) (m : Msg) (ch : Nat) :
    KeepsDrr n .req q s (reqSent s n r m ch).2 ∧ StartedAs s ch m (reqSent s n r m ch).1 := by
  have hissued : KeepsDrr n .req q s (issueReq s n r m).2 := issueReq_keepsDrr ..
  exact ⟨hissued.trans (stampMsg_keepsDrr ..), StartedAs.congr hissued.1 (by simp) (stampMsg_startedAs _ n ch (withTag m _))⟩

theorem startHead_req {s : State} {n q ch cost : Nat} {m : Msg} {sl : Option Nat} (hn : n < 128)
    (hhead : headOf (getNi s n) .req q = some (cost, sl)) : ∃ g v, startHead s n .req q m ch = some (g, v) ∧ NiNote n [] s v ∧
      drrView n .req q v = drrTaken .req q cost (getNi s n) ∧ StartedAs s ch m g := by
  obtain ⟨r, hr, hcost⟩ := Option.map_eq_some_iff.1 hhead
  obtain ⟨rfl, -⟩ := Prod.mk.inj hcost
  obtain ⟨hcharged, htaken⟩ := reqCharged_spec s n q r
  obtain ⟨hsent, hg⟩ := reqSent_spec (reqCharged s n q r) n q r m ch
  have hcounted := (evNi_noteOnly (reqSent (reqCharged s n q r) n r m ch).2 n (32 + r.slice.toNat) m.data.length hn
    (by omega)).keepsDrr (n := n) (p := .req) (q := q)
  have hkept := hsent.trans hcounted
  exact ⟨_, _, startHead_of_req m ch hr, hcharged.trans hkept.1, Eq.trans hkept.2 htaken, hg.congr hcharged (by simp)⟩

theorem startHead_rsp {s : State} {n q ch cost : Nat} {m : Msg} {sl : Option Nat}
    (hhead : headOf (getNi s n) .rsp q = some (cost, sl)) (hstart : startable s n .rsp q = some m) :
    ∃ g v, startHead s n .rsp q m ch = some (g, v) ∧ NiNote n [] s v ∧
      drrView n .rsp q v = drrTaken .rsp q cost (getNi s n) ∧ StartedAs s ch m g := by
  obtain ⟨e, he, hcost⟩ := Option.map_eq_some_iff.1 hhead
  simp only [startable, he, Option.ite_none_right_eq_some, Option.some.injEq] at hstart
  obtain ⟨hbeats, rfl⟩ := hstart
  obtain ⟨hcost, -⟩ := Prod.mk.inj hcost
  rw [hbeats, Nat.add_zero] at hcost
  simp only [startHead, msgCost, hcost]
  generalize hw : updNi s n (fun i => memberGone (takeHead i .rsp q cost) e.msg) = w
  have htaken : NiNote n [] s w ∧ drrView n .rsp q w = drrTaken .rsp q cost (getNi s n) := by
    rw [← hw, drrView, getNi_updNi_same, drrOf_memberGone]
    exact ⟨.updNi .., drrOf_takeHead ..⟩
  have hcharged : KeepsDrr n .rsp q w (chargeQ w n .rsp q cost) := chargeQ_keepsDrr ..
  have hkept := hcharged.trans (stampMsg_keepsDrr (chargeQ w n .rsp q cost) { e.msg with vcf := vcfOfChan ch })
  refine ⟨_, _, rfl, htaken.1.trans hkept.1, Eq.trans hkept.2 htaken.2, ?_⟩
  exact StartedAs.congr (htaken.1.trans hcharged.1) (by simp) (stampMsg_startedAs ..)

/-- The head that is picked starts: its half is charged and it goes out stamped, and all else that changes is the NI's (07 R153). -/
theorem startHead_spec {s : State} {n q ch cost : Nat} {p : Plane} {m : Msg} {sl : Option Nat} (hn : n < 128)
    (hhead : headOf (getNi s n) p q = some (cost, sl)) (hstart : startable s n p q = some m) :
    ∃ g v, startHead s n p q m ch = some (g, v) ∧ NiNote n [] s v ∧ drrView n p q v = drrTaken p q cost (getNi s n) ∧ StartedAs s ch m g := by
  cases p with
  | req => exact startHead_req hn hhead
  | rsp => exact startHead_rsp hhead hstart

/-- Halves that fall asleep keep their deficits (07 R154). -/
theorem sleeps_keepsDrr (s : State) (n : Nat) (p : Plane) (q : Nat) : KeepsDrr n p q s (sleeps s n p) := by
  refine .updNi s fun i => ?_
  unfold drrOf
  rw [getQ_mmap (by cases p <;> rfl), halfDef_setHalf, rsp_setHalf]
  rfl

/-- Settles O19: the head is charged and taken, what follows keeps its queue, and its flits join those under way. -/
theorem schedulerStartsPickedMessage : Obligations.SchedulerStartsPickedMessage := by
  unfold Obligations.SchedulerStartsPickedMessage
  rintro s u n pl _ q cost ch alt m sl rfl hni hregion hu hpick halone hhead
  have hn : n.toNat < 128 := n.isLt
  have hexec := exec_messageStart hni hregion hu hpick halone
  have hbefore := picking_niNote hn hu
  obtain ⟨g, v, hstart, hnote, hdrr, hg⟩ := startHead_spec (ch := ch) hn hhead (startable_of_drrPick hpick)
  have hstarted : startMsg u n.toNat pl q m alt ch = addProg v n.toNat alt pl ch (flitsOf g) := by simp only [startMsg, hstart]
  rw [hstarted] at hexec
  have hsleep := sleeps_keepsDrr (addProg v n.toNat alt pl ch (flitsOf g)) n.toNat pl q
  generalize sleeps (addProg v n.toNat alt pl ch (flitsOf g)) n.toNat pl = t at hexec hsleep
  have hafter : NiNote n.toNat [] u t := hnote.trans (((addProg_niOnly ..).niNote _).trans hsleep.1)
  have hview := hsleep.2
  unfold Keeps drrView at hview
  rw [addProg, getNi_updNi_same] at hview
  simp only [drrView, drrTaken, drrOf, Prod.mk.injEq] at hview hdrr
  obtain ⟨hprog, hptr, hdef, hrsp⟩ := hdrr
  obtain ⟨tprog, tptr, tdef, trsp⟩ := hview
  obtain ⟨hcrc, hdst, hopc, hcls, haddr, hdata, hvcf, hep, hspan⟩ := hg.congr hbefore (by simp [aNi]; omega)
  refine completes_of_niNote hexec (hbefore.trans (hafter.mono (List.nil_subset _)))
    ⟨g, ?_, hcrc, hdst, hopc, hcls, haddr, hdata, hvcf, hep, hspan, tdef.trans hdef, ?_, fun hpl => ?_, hafter.2.2⟩
  · rw [Injects, tprog, hprog]
    exact mgetD_mset_same ..
  · cases pl <;> exact tptr.trans hptr
  · subst hpl
    exact trsp.trans hrsp

end Sys2Proof.Machine
end

section
/-! SUPPORT. The end of a drain (08 R190, R191). -/

namespace Sys2Proof.Machine

/-! NI_DRAIN follows the drain's state. -/

/-- Bit 0 of NI_DRAIN is ACTIVE (08 Table 08.6). -/
theorem active_drainReg (s : State) (n : Nat) : bitOf (rd (drainReg s n) (aNi n 0x138)) 0 = (getNi s n).drain.active := by
  have hbit : ∀ a b : Bool, (b.toNat <<< 1 ||| a.toNat).testBit 0 = a := by decide
  rw [drainReg, rd_wr_same, bitOf, BitVec.getLsbD_ofNat, Nat.or_assoc, Nat.testBit_or, hbit, Nat.testBit_shiftLeft]
  simp

/-- The drain of an NI changed by f, and NI_DRAIN with it. -/
def drainSet (s : State) (n : Nat) (f : Drain → Drain) : State := drainReg (updNi s n fun i => { i with drain := f i.drain }) n

/-- The end of a drain changes the drain alone, and no word but NI_DRAIN (08 R190). -/
theorem drainSet_spec {s t : State} {n : Nat} {f : Drain → Drain} (ht : t = drainSet s n f) :
    NiNote n ([0x138].map (aNi n)) s t ∧ getNi t n = { getNi s n with drain := f (getNi s n).drain } ∧
      bitOf (rd t (aNi n 0x138)) 0 = (f (getNi s n).drain).active ∧ ∀ off, off ≠ 0x138 → rd t (aNi n off) = rd s (aNi n off) := by
  have hni : getNi t n = { getNi s n with drain := f (getNi s n).drain } := by
    rw [ht, drainSet, drainReg, getNi_wr, getNi_updNi_same]
  refine ⟨ht ▸ (NiNote.updNi ..).trans (.wr _ _ (List.mem_singleton_self _)), hni, ?_, fun off hoff => ?_⟩
  · rw [ht, drainSet, active_drainReg, getNi_updNi_same]
  · rw [ht, drainSet, drainReg, rd_wr_ne _ _ _ _ (by simpa [aNi_inj] using hoff), rd_updNi]

/-! The unissued posted writes leave. -/

/-- The posted writes that a drain's discard takes out of the buffer (08 R190). -/
def unissuedWrites (i : Ni) : List Req := i.reqs.filter fun r => r.posted && !r.issued && !r.piste

theorem mem_unissuedWrites {i : Ni} {r : Req} :
    r ∈ unissuedWrites i ↔ r ∈ i.reqs ∧ r.posted = true ∧ r.issued = false ∧ r.piste = false := by
  simp [unissuedWrites, and_assoc]

/-- The entries of posted writes still unacknowledged (08 R190). -/
def unackedWrites (i : Ni) : Map Trk := i.trk.filter fun p => p.2.posted && p.2.hold == .live

/-- Requests that leave take with them their places in the queues and the beats still to come for them; the others stay. -/
theorem foldl_dropReq (l : List Req) (i : Ni) : ∃ rs qs xs, l.foldl (fun i r => dropReq i r.id) i =
    { i with reqs := rs, sched := { i.sched with queues := qs }, port := { i.port with rqRx := xs } } ∧
      ∀ r, r ∈ rs ↔ r ∈ i.reqs ∧ ∀ w ∈ l, w.id ≠ r.id := by
  induction l generalizing i with
  | nil => exact ⟨_, _, _, rfl, by simp⟩
  | cons w l ih =>
    obtain ⟨rs, qs, xs, hni, hmem⟩ := ih (dropReq i w.id)
    have hdrop : ∀ r, r ∈ (dropReq i w.id).reqs ↔ r ∈ i.reqs ∧ w.id ≠ r.id := by simp [dropReq, ne_comm]
    exact ⟨rs, qs, xs, hni, fun r => by rw [hmem, hdrop, List.forall_mem_cons, and_assoc]⟩

/-- The requests of a list leave the NI. -/
def dropReqs (s : State) (n : Nat) (l : List Req) : State := l.foldl (fun t r => updNi t n fun i => dropReq i r.id) s

theorem dropReqs_niOnly (s : State) (n : Nat) (l : List Req) : NiOnly n s (dropReqs s n l) := NiOnly.foldl (fun _ _ => .updNi ..) l s

theorem getNi_dropReqs (s : State) (n : Nat) (l : List Req) :
    getNi (dropReqs s n l) n = l.foldl (fun i r => dropReq i r.id) (getNi s n) :=
  (List.foldl_hom (getNi · n) fun t r => (getNi_updNi_same t n fun i => dropReq i r.id).symm).symm

theorem toNat_incSat (s : State) (a d : Nat) : (rd (incSat s a d) a).toNat = min 0xFFFFFFFF ((rd s a).toNat + d) := by
  rw [rd_incSat, if_pos rfl, BitVec.toNat_ofNat, satAdd]
  exact Nat.mod_eq_of_lt (by omega)

theorem bitOf_setFlag {s : State} {b j : Nat} (a i : Nat) (h : bitOf (rd s b) j = true) : bitOf (rd (setFlag s a i) b) j = true := by
  rw [rd_setFlag]
  split
  · next e =>
    subst e
    rw [bitOf] at h ⊢
    rw [BitVec.getLsbD_or, h, Bool.true_or]
  · exact h

/-- With no slice named the discard takes the NI's unissued posted writes of every slice (08 R190). -/
theorem discardWrites_none {s : State} {n : Nat} {l : List Req} (hl : unissuedWrites (getNi s n) = l) : discardWrites s n none =
    (l.length, if l.isEmpty then incSat (dropReqs s n l) (aNi n 0x110) l.length
      else setFlag (incSat (dropReqs s n l) (aNi n 0x110) l.length) (aNi n 0x100) 1) := by
  simp only [discardWrites, Bool.and_true, ← hl, dropReqs, unissuedWrites]

/-- The discard of the NI's unissued posted writes (08 R188, R190): they leave, and NI_PW_DISC and a flag of NI_ORD_STAT record it. -/
theorem discardWrites_spec {s t : State} {n c : Nat} {l : List Req} (hl : unissuedWrites (getNi s n) = l)
    (h : discardWrites s n none = (c, t)) :
    NiNote n ([0x100, 0x110].map (aNi n)) s t ∧
      (∃ rs qs xs, getNi t n = { getNi s n with
          reqs := rs, sched := { (getNi s n).sched with queues := qs }, port := { (getNi s n).port with rqRx := xs } } ∧
        ∀ r, r ∈ rs ↔ r ∈ (getNi s n).reqs ∧ ∀ w ∈ l, w.id ≠ r.id) ∧
      (rd t (aNi n 0x110)).toNat = min 0xFFFFFFFF ((rd s (aNi n 0x110)).toNat + l.length) ∧
      (bitOf (rd s (aNi n 0x100)) 3 = true → bitOf (rd t (aNi n 0x100)) 3 = true) := by
  rw [discardWrites_none hl] at h
  obtain ⟨-, rfl⟩ := Prod.mk.inj h
  have honly := dropReqs_niOnly s n l
  have hni := getNi_dropReqs s n l
  generalize dropReqs s n l = u at honly hni ⊢
  have hwords : ∀ a, rd u a = rd s a := by rw [honly.1]; exact fun _ => rfl
  have hcount : (rd (incSat u (aNi n 0x110) l.length) (aNi n 0x110)).toNat =
      min 0xFFFFFFFF ((rd s (aNi n 0x110)).toNat + l.length) := by rw [toNat_incSat, hwords]
  have hflags : rd (incSat u (aNi n 0x110) l.length) (aNi n 0x100) = rd s (aNi n 0x100) := by
    rw [rd_incSat, if_neg (by simp [aNi_inj]), hwords]
  have hcounted : NiNote n ([0x100, 0x110].map (aNi n)) s (incSat u (aNi n 0x110) l.length) :=
    (honly.niNote _).trans (.incSat u _ (by simp))
  have hleft := foldl_dropReq l (getNi s n)
  rw [← hni] at hleft
  split
  · exact ⟨hcounted, hleft, hcount, fun hset => hflags ▸ hset⟩
  · refine ⟨hcounted.trans (.setFlag _ 1 (by simp)), hleft, ?_, fun hset => bitOf_setFlag _ _ (hflags ▸ hset)⟩
    rwa [rd_setFlag, if_neg (by simp [aNi_inj])]

/-! A drain ends. -/

theorem exec_drainComplete {s : State} {n : NiId} (hactive : (getNi s n.toNat).drain.active = true)
    (hdrained : drained (getNi s n.toNat) = true) (hearly : nowNs s < (getNi s n.toNat).drain.startNs + 65536) :
    exec (.drainComplete n) s = answer s (drainSet s n.toNat fun d => { d with active := false }) :=
  congrArg (answer s) (if_pos (by simp [hactive, hdrained, drainOver, hearly]))

theorem exec_drainDeadline {s : State} {n : NiId} (hactive : (getNi s n.toNat).drain.active = true)
    (hover : (getNi s n.toNat).drain.startNs + 65536 ≤ nowNs s) : exec (.drainDeadline n) s = answer s (drainExpire s n.toNat) :=
  congrArg (answer s) (if_pos (by simp [hactive, drainOver, hover]))

/-- The discard of a drain's deadline: its notification if a write went, and the count of the unacknowledged ones (08 R190; log 36). -/
def drainDiscarded (s : State) (n : Nat) : State :=
  incSat (if (discardWrites s n none).1 = 0 then (discardWrites s n none).2
    else raiseNi (discardWrites s n none).2 n 0x102 1 (discardWrites s n none).1 15) (aNi n 0x110) (unackedWrites (getNi s n)).length

/-- At its deadline a drain sets DRAIN_TO, and ends with the discard or as timed out (08 R190). -/
theorem drainExpire_eq (s : State) (n : Nat) : drainExpire s n =
    if (getNi s n).drain.discard then drainSet (drainDiscarded (setFlag s (aNi n 0x100) 3) n) n fun d => { d with active := false }
    else drainSet (setFlag s (aNi n 0x100) 3) n fun d => { d with active := false, timedOut := true } := rfl

/-- What the discard of a drain's deadline changes: the requests, the count and the flags of discarded writes, and what its notification
writes (08 R190). -/
theorem drainDiscarded_spec {s t : State} {n : Nat} (hn : n < 128) (ht : t = drainDiscarded s n) :
    NiNote n ([0x100, 0x110].map (aNi n)) s t ∧
      (∃ rs qs xs q, getNi t n = { getNi s n with
          reqs := rs, sched := { (getNi s n).sched with queues := qs }, port := { (getNi s n).port with rqRx := xs, ntfQ := q } } ∧
        ∀ r, r ∈ rs ↔ r ∈ (getNi s n).reqs ∧ ∀ w ∈ unissuedWrites (getNi s n), w.id ≠ r.id) ∧
      (rd t (aNi n 0x110)).toNat = min 0xFFFFFFFF ((rd s (aNi n 0x110)).toNat + (unissuedWrites (getNi s n)).length +
        (unackedWrites (getNi s n)).length) ∧
      (bitOf (rd s (aNi n 0x100)) 3 = true → bitOf (rd t (aNi n 0x100)) 3 = true) := by
  generalize hd : discardWrites s n none = d
  obtain ⟨c, u⟩ := d
  obtain ⟨hgone, ⟨rs, qs, xs, hni, hmem⟩, hcount, hflag⟩ := discardWrites_spec rfl hd
  rw [drainDiscarded, hd] at ht
  generalize hv : (if c = 0 then u else raiseNi u n 0x102 1 c 15) = v at ht
  have hraised : NoteOnly u v := by
    rw [← hv]
    split
    · exact .refl u
    · exact raiseNi_noteOnly ..
  have hkept : ∀ off < 0x2000, off ≠ 0x20 → rd v (aNi n off) = rd u (aNi n off) :=
    fun off ho hlost => hraised.2.1 _ (noteWord_aNi hn ho hlost)
  obtain ⟨q, hq⟩ := (hraised.2.2 n).exists_ntfQ
  subst ht
  refine ⟨hgone.trans ((hraised.niNote ..).trans (.incSat _ _ (by simp))), ⟨rs, qs, xs, q, ?_, hmem⟩, ?_, fun hset => ?_⟩
  · rw [getNi_incSat, hq, hni]
  · rw [toNat_incSat, hkept _ (by decide) (by decide), hcount]
    omega
  · rw [rd_incSat, if_neg (by simp [aNi_inj]), hkept _ (by decide) (by decide)]
    exact hflag hset

/-- Settles O22: the end of a drain changes the drain and NI_DRAIN, after the flag, the discard and its counts at a deadline. -/
theorem drainEndsCompleteOrAtItsDeadline : Obligations.DrainEndsCompleteOrAtItsDeadline := by
  unfold Obligations.DrainEndsCompleteOrAtItsDeadline
  rintro s n k d rfl rfl hactive
  have hn : n.toNat < 128 := n.isLt
  refine ⟨fun hdrained hearly => ?_, fun hover => ?_⟩
  · have hexec := exec_drainComplete hactive hdrained hearly
    generalize ht : drainSet _ _ _ = t at hexec
    obtain ⟨hnote, hni, hended, -⟩ := drainSet_spec ht.symm
    exact completes_of_niNote hexec hnote ⟨hni, hended, hnote⟩
  · have hexec := (exec_drainDeadline hactive hover).trans (congrArg (answer s) (drainExpire_eq s n.toNat))
    have htimed : bitOf (rd (setFlag s (aNi n.toNat 0x100) 3) (aNi n.toNat 0x100)) 3 = true := by
      rw [rd_setFlag, if_pos rfl, bitOf_or_flag _ (by decide)]
    have hflagged : NiNote n.toNat ([0x138, 0x100, 0x110].map (aNi n.toNat)) s (setFlag s (aNi n.toNat 0x100) 3) := .setFlag s 3 (by simp)
    obtain hdiscard | hdiscard := Bool.eq_false_or_eq_true (getNi s n.toNat).drain.discard
    · rw [hdiscard, if_pos rfl] at hexec
      generalize hu : drainDiscarded (setFlag s (aNi n.toNat 0x100) 3) n.toNat = u at hexec
      obtain ⟨hgone, ⟨rs, qs, xs, q, huni, hmem⟩, hcount, hflag⟩ := drainDiscarded_spec hn hu.symm
      generalize ht : drainSet _ _ _ = t at hexec
      obtain ⟨hnote, hni, hended, hwords⟩ := drainSet_spec ht.symm
      have hwhole := hflagged.trans ((hgone.mono (by simp)).trans (hnote.mono (by simp)))
      rw [getNi_setFlag] at huni hmem hcount
      rw [rd_setFlag, if_neg (by simp [aNi_inj])] at hcount
      rw [huni] at hni
      refine completes_of_niNote hexec hwhole ⟨by rw [hni], hended, ?_, (absurd · (by simp [hdiscard])), fun _ => ?_, hwhole⟩
      · rw [hwords _ (by decide)]
        exact hflag htimed
      · rw [hni, hwords _ (by decide)]
        refine ⟨rfl, fun r hr => ?_, fun r hr hkeep => ?_, hcount⟩
        · obtain ⟨hold, hstays⟩ := (hmem r).1 hr
          exact ⟨hold, fun hwrite => hstays r (mem_unissuedWrites.2 ⟨hold, hwrite⟩) rfl⟩
        · refine (hmem r).2 ⟨hr, fun w hw => ?_⟩
          obtain ⟨hmemw, hposted, hissued, hpiste⟩ := mem_unissuedWrites.1 hw
          exact hkeep w hmemw hposted hissued hpiste
    · rw [hdiscard, if_neg Bool.false_ne_true] at hexec
      generalize ht : drainSet _ _ _ = t at hexec
      obtain ⟨hnote, hni, hended, hwords⟩ := drainSet_spec ht.symm
      have hwhole := hflagged.trans (hnote.mono (by simp))
      refine completes_of_niNote hexec hwhole ⟨by rw [hni], hended, ?_, fun _ => hni, (absurd · (by simp [hdiscard])), hwhole⟩
      rwa [hwords _ (by decide)]

end Sys2Proof.Machine
end

section
/-! SUPPORT. The oldest answer leaves the list, and a staged piste message launches in its slot (06 R131, R134, R144; 08 R173; 09 R205). -/

namespace Sys2Proof.Machine

/-! The oldest answer. -/

/-- Where no member's answer is due none takes the place (17 R377). -/
theorem memberDrain_of_none_due {s : State} {n : Nat} (h : ∀ q ∈ (getNi s n).members, q.2.due = none) : memberDrain s n = s := by
  unfold memberDrain
  generalize (getNi s n).members = l at h
  induction l with
  | nil => rfl
  | cons p r ih =>
    obtain ⟨hp, hr⟩ := List.forall_mem_cons.1 h
    rw [List.foldl_cons, hp]
    exact ih hr

theorem getNi_pushRspOn (s : State) (n : Nat) (m : Msg) (beats : Nat) (att : Option Bool) : getNi (pushRspOn s n m beats att) n =
    updQ { getNi s n with nextId := (getNi s n).nextId + 1 } 0 fun q =>
      { q with rsp := q.rsp ++ [⟨(getNi s n).nextId, m, beats, att⟩] } := getNi_updNi_same ..

/-- The oldest answer has left the list for the RSP half of queue 0 (09 R205). -/
def answerLeft (s : State) (n : Nat) (a : Answer) (rest : List Answer) : State :=
  pushRspOn (updNi s n fun i => { i with answers := rest }) n a.msg 0 a.att

theorem answerNext_of_place {s : State} {n : Nat} {a : Answer} {rest : List Answer} (hpiste : a.piste = false)
    (hplace : rspPlaces (getNi s n) = false) : answerNext s n [] (a :: rest) = some (answerLeft s n a rest) := by
  have hstill : rspPlaces (getNi (updNi s n fun i => { i with answers := [] ++ rest }) n) = false := by
    rw [getNi_updNi_same]
    exact hplace
  simp only [answerNext, answerGo, hpiste, hstill, Bool.false_eq_true, if_false]
  rfl

theorem exec_answerListDequeue {s : State} {n : NiId} {a : Answer} {rest : List Answer} (hlist : (getNi s n.toNat).answers = a :: rest)
    (hpiste : a.piste = false) (hplace : rspPlaces (getNi s n.toNat) = false) (hdue : ∀ q ∈ (getNi s n.toNat).members, q.2.due = none) :
    exec (.answerListDequeue n) s = answer s (answerLeft s n.toNat a rest) := by
  have hmembers : (getNi (answerLeft s n.toNat a rest) n.toNat).members = (getNi s n.toNat).members := by
    rw [answerLeft, getNi_pushRspOn, getNi_updNi_same]
    rfl
  rw [← hmembers] at hdue
  change execAnswerListDequeue n s = _
  simp only [execAnswerListDequeue, hlist, answerNext_of_place hpiste hplace, memberDrain_of_none_due hdue]

/-- The answer joins the queue under the NI's next id, and nothing else changes (09 R205). -/
theorem answerLeft_spec {s t : State} {n : Nat} {a : Answer} {rest : List Answer} (ht : t = answerLeft s n a rest) :
    NiOnly n s t ∧ (getNi t n).answers = rest ∧
      (getQ (getNi t n) 0).rsp = (getQ (getNi s n) 0).rsp ++ [⟨(getNi s n).nextId, a.msg, 0, a.att⟩] ∧
      (getNi t n).reqs = (getNi s n).reqs ∧ (getNi t n).port = (getNi s n).port := by
  have hni : getNi t n = updQ { getNi s n with answers := rest, nextId := (getNi s n).nextId + 1 } 0 fun q =>
      { q with rsp := q.rsp ++ [⟨(getNi s n).nextId, a.msg, 0, a.att⟩] } := by
    rw [ht, answerLeft, getNi_pushRspOn, getNi_updNi_same]
  have honly : NiOnly n s t := by
    rw [ht, answerLeft, pushRspOn]
    exact (NiOnly.updNi ..).trans (.updNi ..)
  rw [hni]
  refine ⟨honly, rfl, ?_, rfl, rfl⟩
  rw [getQ, updQ, mupd, mgetD_mset_same]
  rfl

/-! Flits cross to the router. -/

theorem toRouterOn_of_up {h : BitVec 32} {s : State} {alt : Bool} (p : Plane) (f : Flit) (ch : Nat)
    (hup : (getRtr s (attRtr h alt)).failed = false) : toRouterOn h s alt p f ch = updPlane s p (attRtr h alt) fun r => { r with
      link := mupd r.link (attPort h alt) [] fun l => l ++ [intoRouter ch f] } := by
  simp only [toRouterOn, hup, Bool.false_eq_true, if_false, intoRouter]

/-- Flits that cross one by one are on the link in their order, behind those under way (05 R89). -/
theorem foldl_toRouterOn_spec {h : BitVec 32} {alt : Bool} {p : Plane} {ch x port : Nat} (hx : x = attRtr h alt)
    (hport : port = attPort h alt) :
    ∀ {fs : List Flit} {s t : State}, (getRtr s x).failed = false → t = fs.foldl (fun t f => toRouterOn h t alt p f ch) s →
      t = { s with rtrs := t.rtrs } ∧ linkOf t x p port = linkOf s x p port ++ fs.map (intoRouter ch) ∧
        ∀ y, y ≠ x → getRtr t y = getRtr s y
  | [], s, t, _, ht => ht ▸ ⟨rfl, (List.append_nil _).symm, fun _ _ => rfl⟩
  | f :: fs, s, t, hup, ht => by
    rw [hx] at hup
    rw [List.foldl_cons, toRouterOn_of_up p f ch hup, ← hx, ← hport] at ht
    generalize hu : updPlane s p x _ = u at ht
    have hcross : u = { s with rtrs := u.rtrs } := by rw [← hu]; rfl
    have hput : linkOf u x p port = linkOf s x p port ++ [intoRouter ch f] := by
      rw [linkOf, ← hu, planeOf_updPlane_same]
      exact mgetD_mset_same ..
    have hstill : (getRtr u x).failed = false := by rw [← hu, failed_updPlane, hx, hup]
    obtain ⟨hall, hlink, hrtrs⟩ := foldl_toRouterOn_spec hx hport hstill ht
    refine ⟨?_, ?_, fun y hy => (hrtrs y hy).trans ?_⟩
    · rw [hall, hcross]
    · rw [hlink, hput, List.append_assoc, List.map_cons, List.singleton_append]
    · rw [← hu, getRtr_updPlane_ne s p _ hy]

/-! A launch. -/

/-- The NI's part of a launch: the message is no longer staged, and its request is issued (06 R131; 08 R173). -/
def launchNi (g : Staged) (i : Ni) : Ni :=
  updReq { i with pst := { i.pst with staged := (takeFirst i.pst.staged fun q => q == g).2 } } g.id fun r => { r with issued := true }

/-- The flits of a launch are on the link. -/
def launchCrossed (s : State) (n : Nat) (p : Plane) (alt : Bool) (g : Staged) : State :=
  (flitsOf { g.msg with ep := curEp s }).foldl (fun t f => toRouterOn (homeAt s 0 n) t alt p f 0) s

/-- The state before the events of a launch: its flits are on the link, and the router knows of them (06 R134). -/
def launchPut (s : State) (n : Nat) (p : Plane) (alt : Bool) (g : Staged) : State :=
  updNi (updPlane (launchCrossed s n p alt g) p (attRtr (homeAt s 0 n) alt) fun r =>
    { r with schn := mset r.schn (attPort (homeAt s 0 n) alt) true }) n (launchNi g)

/-- A launch in its own frame, with its events. -/
def launchDone (s : State) (n : Nat) (p : Plane) (alt : Bool) (g : Staged) : State :=
  evNi (evNi (evNi (launchPut s n p alt g) n 7 1) n (flitEvent p) (flitsOf { g.msg with ep := curEp s }).length)
    n (32 + g.msg.slice.toNat) g.msg.data.length

theorem launchAtt_eq (s : State) (n : Nat) (v : BitVec 256) :
    launchAtt s n v = if s.flt.caseR = some (attRtr (homeAt s 0 n) (seAlt v)) then !seAlt v else seAlt v := by
  simp only [launchAtt, beq_iff_eq]

theorem exec_pisteLaunch {s : State} {n : NiId} {pl : Plane} {g : Staged} {alt : Bool} (hni : isNi s n.toNat = true)
    (hregion : (getNi s n.toNat).region = 0) (hnext : nextLaunch s (srcEnt s n.toNat) (getNi s n.toNat).pst pl = some g)
    (halt : alt = launchAtt s n.toNat (srcEnt s n.toNat g.ent)) (hon : launchOn s n.toNat alt = true) :
    exec (.pisteLaunch n pl) s = answer s
      (if g.frame = frameOf s then launchDone s n.toNat pl alt g else launchLate (launchDone s n.toNat pl alt g) n.toNat) := by
  have hserves : (!isNi s n.toNat || (getNi s n.toNat).region != 0) = false := by simp [hni, hregion]
  change execPisteLaunch n pl s = _
  simp only [execPisteLaunch, hserves, hnext, ← halt, hon, Bool.true_eq_false, Bool.false_eq_true, if_false]
  cases pl <;> rfl

/-- What a launch of message g at NI n onto port `port` of router x does, but for the words: the flits `fs` are on the link and announced,
the message is no longer staged, and its request is issued (06 R131, R134; 08 R173). -/
structure Launched (n x port : Nat) (p : Plane) (g : Staged) (fs : List Flit) (s t : State) : Prop where
  whole : t = { s with regs := t.regs, rtrs := t.rtrs, nis := t.nis, ntf := t.ntf, flt := { s.flt with log := t.flt.log } }
  link : linkOf t x p port = linkOf s x p port ++ fs.map (intoRouter 0)
  announced : mgetD (planeOf (getRtr t x) p).schn port false = true
  routers : ∀ y, y ≠ x → getRtr t y = getRtr s y
  ni : ∃ q, getNi t n = { launchNi g (getNi s n) with port := { (getNi s n).port with ntfQ := q } }
  others : ∀ m, m ≠ n → SameNi s t m

/-- Words, notifications and event counts do not undo a launch. -/
theorem Launched.noted {n x port : Nat} {p : Plane} {g : Staged} {fs : List Flit} {s t w u : State} (h : Launched n x port p g fs s t)
    (hw : w = { t with regs := w.regs }) (hnote : NoteOnly w u) : Launched n x port p g fs s u := by
  have hrtrs : u.rtrs = t.rtrs := by rw [hnote.rtrs, hw]
  have hsame : ∀ m, SameNi t u m := fun m => by
    have hm := hnote.2.2 m
    rw [hw] at hm
    exact hm
  refine ⟨?_, ?_, ?_, fun y hy => (getRtr_congr hrtrs y).trans (h.routers y hy), ?_, fun m hm => (h.others m hm).trans (hsame m)⟩
  · rw [hnote.1, hw]
    conv_lhs => rw [h.whole]
  · rw [linkOf_congr hrtrs, h.link]
  · rw [getRtr_congr hrtrs, h.announced]
  · obtain ⟨q, hq⟩ := (hsame n).exists_ntfQ
    obtain ⟨b, hb⟩ := h.ni
    exact ⟨q, by rw [hq, hb]⟩

theorem launchPut_spec {s t : State} {n x port : Nat} {p : Plane} {alt : Bool} {g : Staged} (hx : x = attRtr (homeAt s 0 n) alt)
    (hport : port = attPort (homeAt s 0 n) alt) (hup : (getRtr s x).failed = false) (ht : t = launchPut s n p alt g) :
    Launched n x port p g (flitsOf { g.msg with ep := curEp s }) s t ∧ t.regs = s.regs := by
  obtain ⟨hall, hlink, hrtrs⟩ := foldl_toRouterOn_spec (t := launchCrossed s n p alt g) hx hport hup rfl
  rw [launchPut, ← hx, ← hport] at ht
  generalize launchCrossed s n p alt g = s1 at hall hlink hrtrs ht
  generalize hu : updPlane s1 p x _ = u at ht
  have hplane : planeOf (getRtr u x) p = { planeOf (getRtr s1 x) p with schn := mset (planeOf (getRtr s1 x) p).schn port true } := by
    rw [← hu, planeOf_updPlane_same]
  have hnis : getNi u = getNi s := by rw [← hu, hall]; rfl
  have hrtrT : ∀ y, getRtr t y = getRtr u y := getRtr_congr (by rw [ht]; rfl)
  refine ⟨⟨?_, ?_, ?_, fun y hy => ?_, ⟨(getNi s n).port.ntfQ, ?_⟩, fun m hm => .of_eq ?_⟩, ?_⟩
  · rw [ht, ← hu, hall]
    rfl
  · rw [linkOf, hrtrT, hplane]
    exact hlink
  · rw [hrtrT, hplane]
    exact mgetD_mset_same ..
  · rw [hrtrT, ← hu, getRtr_updPlane_ne s1 p _ hy, hrtrs y hy]
  · rw [ht, getNi_updNi_same, hnis]
    rfl
  · rw [ht, getNi_updNi, if_neg hm, hnis]
  · rw [ht, ← hu, hall]
    rfl

/-- In its own frame a launch writes no word but those of event counts. -/
theorem launchDone_spec {s t : State} {n x port : Nat} {p : Plane} {alt : Bool} {g : Staged} (hn : n < 128)
    (hx : x = attRtr (homeAt s 0 n) alt) (hport : port = attPort (homeAt s 0 n) alt) (hup : (getRtr s x).failed = false)
    (ht : t = launchDone s n p alt g) : Launched n x port p g (flitsOf { g.msg with ep := curEp s }) s t ∧ NotedBut [] s t := by
  have hslice : 32 + g.msg.slice.toNat < 48 := by have := g.msg.slice.isLt; omega
  obtain ⟨hput, hregs⟩ := launchPut_spec (p := p) (g := g) hx hport hup rfl
  have hcount : NoteOnly (launchPut s n p alt g) t := ht ▸ (((evNi_noteOnly _ n 7 1 hn (by decide)).trans
    (evNi_noteOnly _ n _ _ hn (flitEvent_lt p))).trans (evNi_noteOnly _ n _ _ hn hslice))
  refine ⟨hput.noted rfl hcount, fun a _ ha => (hcount.2.1 a ha).trans ?_⟩
  rw [rd, hregs, rd]

/-- A late launch sets its flag and is counted (06 R144). -/
theorem launchLate_spec {s u : State} {n : Nat} (hn : n < 128) (hu : u = launchLate s n) :
    (∃ w, w = { s with regs := w.regs } ∧ NoteOnly w u) ∧ NotedBut [aNi n 0x80, aNi n 0x88] s u ∧
      rd u (aNi n 0x80) = rd s (aNi n 0x80) ||| 4#64 ∧ (rd u (aNi n 0x88)).toNat = min 0xFFFFFFFF ((rd s (aNi n 0x88)).toNat + 1) := by
  have hcount : NoteOnly (incSat (setFlag s (aNi n 0x80) 2) (aNi n 0x88) 1) u := hu ▸ evNi_noteOnly _ n 8 1 hn (by decide)
  have hkept : ∀ off < 0x2000, off ≠ 0x20 → rd u (aNi n off) = rd (incSat (setFlag s (aNi n 0x80) 2) (aNi n 0x88) 1) (aNi n off) :=
    fun off ho hlost => hcount.2.1 _ (noteWord_aNi hn ho hlost)
  have hwhole : NiNote n [aNi n 0x80, aNi n 0x88] s u :=
    (NiNote.setFlag s 2 (by simp)).trans ((NiNote.incSat _ 1 (by simp)).trans (hcount.niNote ..))
  refine ⟨⟨_, rfl, hcount⟩, hwhole.2.1, ?_, ?_⟩
  · rw [hkept _ (by decide) (by decide), rd_incSat, if_neg (by simp [aNi_inj]), rd_setFlag, if_pos rfl]
    rfl
  · rw [hkept _ (by decide) (by decide), toNat_incSat, rd_setFlag, if_neg (by simp [aNi_inj])]

theorem completes_of_launched {s t : State} {n x port : Nat} {p : Plane} {g : Staged} {fs : List Flit} {c : Instr} {P : State → Prop}
    (hexec : exec c s = answer s t) (h : Launched n x port p g fs s t) (hP : P t) : Completes c s P := by
  have hall := h.whole
  exact completes_of_answer hexec (by rw [hall]) (by rw [hall]) (by rw [hall]) hP

/-- Settles O18: the answer joins queue 0 alone; a late launch is a launch with its flag and its count. -/
theorem answersLeaveAndPisteLaunches : Obligations.AnswersLeaveAndPisteLaunches := by
  unfold Obligations.AnswersLeaveAndPisteLaunches
  refine ⟨fun s n a rest hlist hpiste hplace hdue => ?_, ?_⟩
  · obtain ⟨honly, hanswers, hqueue, hreqs, hport⟩ := answerLeft_spec (s := s) (n := n.toNat) (a := a) (rest := rest) rfl
    exact completes_of_niOnly (exec_answerListDequeue hlist hpiste hplace hdue) honly ⟨hanswers, hqueue, hreqs, hport, honly⟩
  · rintro s n pl g _ x port alt rfl hni hregion hnext halt hon hx hport hup
    have hn : n.toNat < 128 := n.isLt
    have hexec := exec_pisteLaunch hni hregion hnext (halt.trans (launchAtt_eq ..).symm) hon
    generalize ht : launchDone s n.toNat pl alt g = t at hexec
    obtain ⟨hlaunched, hwords⟩ := launchDone_spec hn hx hport hup ht.symm
    obtain ⟨⟨w, hw, hnote⟩, hbut, hflag, hlate⟩ := launchLate_spec (s := t) hn rfl
    have hword : ∀ off < 0x2000, off ≠ 0x20 → rd t (aNi n.toNat off) = rd s (aNi n.toNat off) :=
      fun off ho hlost => hwords _ List.not_mem_nil (noteWord_aNi hn ho hlost)
    generalize hu : (if g.frame = frameOf s then t else launchLate t n.toNat) = u at hexec
    have hend : Launched n.toNat x port pl g (flitsOf { g.msg with ep := curEp s }) s u := by
      rw [← hu]
      split
      · exact hlaunched
      · exact hlaunched.noted hw hnote
    obtain ⟨q, hq⟩ := hend.ni
    refine completes_of_launched hexec hend ⟨?_, hend.link, ?_, hend.announced, hend.routers, fun hown => ?_, fun hother => ?_,
      hend.others, hend.whole⟩
    · rw [hq]
      rfl
    · rw [hq]
      exact find?_updFirst fun _ => rfl
    · rw [← hu, if_pos hown]
      exact hwords
    · rw [← hu, if_neg hother, hflag, hlate, hword _ (by decide) (by decide), hword _ (by decide) (by decide)]
      exact ⟨rfl, rfl, fun a ha hnw => (hbut a ha hnw).trans (hwords a List.not_mem_nil hnw)⟩

end Sys2Proof.Machine
end

section
/-! SUPPORT. The extent target cache: its entries, the requests that a fill's outcome ends, and its fills (09 R199 to R202). -/

namespace Sys2Proof.Machine

/-! Its entries. -/

/-- Extents have entries of their own (09 R199). -/
theorem etcKey_inj {inst j : BitVec 4} {x y : BitVec 19} : etcKey j y = etcKey inst x ↔ (j, y) = (inst, x) := by
  refine ⟨fun h => ?_, fun h => by rw [(Prod.mk.inj h).1, (Prod.mk.inj h).2]⟩
  unfold etcKey at h
  have hinst : j.toNat = inst.toNat := by omega
  have hx : y.toNat = x.toNat := by omega
  rw [BitVec.eq_of_toNat_eq hinst, BitVec.eq_of_toNat_eq hx]

theorem etcGet_etcPut (i : Ni) (inst : BitVec 4) (x : BitVec 19) (e : EtcRow) :
    etcGet { i with dec := etcPut i.dec inst x e } inst x = some { e with used := i.dec.useCnt + 1 } := mget_mset_same ..

theorem etcGet_etcInval_same (i : Ni) (inst : BitVec 4) (x : BitVec 19) : etcGet (etcInval i inst x) inst x = none := mget_mdel_same ..

theorem etcGet_etcInval_ne (i : Ni) {inst j : BitVec 4} {x y : BitVec 19} (h : (j, y) ≠ (inst, x)) :
    etcGet (etcInval i inst x) j y = etcGet i j y := mget_mdel_ne _ _ _ fun hkey => h (etcKey_inj.1 hkey)

/-- A fill of an invalidated extent is stale (09 R202). -/
theorem stale_of_mem_etcInval {i : Ni} {inst : BitVec 4} {x : BitVec 19} {f : Fill} (hf : f ∈ (etcInval i inst x).dec.fills)
    (hinst : f.inst = inst) (hx : f.x = x) : f.stale = true := by
  obtain ⟨g, -, rfl⟩ := List.mem_map.1 hf
  by_cases h : g.inst = inst ∧ g.x = x
  · rw [if_pos h]
  · rw [if_neg h] at hinst hx
    exact absurd ⟨hinst, hx⟩ h

/-! Requests that end. -/

/-- t is s after requests of NI n have ended: the cache and the responses that wait at it are as they were, and no request is new; an
engine, the journal and the error records may have taken the outcome. -/
structure EndsRequests (n : Nat) (s t : State) : Prop where
  whole : t = { s with
    regs := t.regs, nis := t.nis, ntf := t.ntf, flt := t.flt, eng := t.eng, jrn := t.jrn, free := t.free }
  others : ∀ m, m ≠ n → SameNi s t m
  dec : (getNi t n).dec = (getNi s n).dec
  inRsp : (getNi t n).inRsp = (getNi s n).inRsp
  reqs : ∀ r ∈ (getNi t n).reqs, r ∈ (getNi s n).reqs

theorem EndsRequests.trans {n : Nat} {s t u : State} (h : EndsRequests n s t) (k : EndsRequests n t u) : EndsRequests n s u where
  whole := by
    rw [k.whole]
    conv_lhs => rw [h.whole]
  others m hm := (h.others m hm).trans (k.others m hm)
  dec := k.dec.trans h.dec
  inRsp := k.inRsp.trans h.inRsp
  reqs r hr := h.reqs r (k.reqs r hr)

/-- Where no NI changes but in its notification queue, no request ends. -/
theorem EndsRequests.of_same {s t : State} (n : Nat) (hwhole : t = { s with
    regs := t.regs, nis := t.nis, ntf := t.ntf, flt := t.flt, eng := t.eng, jrn := t.jrn, free := t.free })
    (hsame : ∀ m, SameNi s t m) : EndsRequests n s t := by
  obtain ⟨q, hq⟩ := (hsame n).exists_ntfQ
  exact ⟨hwhole, fun m _ => hsame m, by rw [hq], by rw [hq], by rw [hq]; exact fun _ => id⟩

theorem EndsRequests.refl (n : Nat) (s : State) : EndsRequests n s s := .of_same n rfl (.refl s)

theorem NoteOnly.endsRequests {s t : State} (h : NoteOnly s t) (n : Nat) : EndsRequests n s t := .of_same n (by rw [h.1]) h.2.2

theorem EndsRequests.setFlag (n : Nat) (s : State) (a i : Nat) : EndsRequests n s (setFlag s a i) := .of_same n rfl (.refl s)

/-- The cache, the responses that wait, and the requests of an NI. -/
def waitsOf (i : Ni) : Dec × List (Msg × Bool) × List Req := (i.dec, i.inRsp, i.reqs)

/-- The same of NI n. -/
def waitsView (n : Nat) (s : State) : Dec × List (Msg × Bool) × List Req := waitsOf (getNi s n)

theorem NiNote.endsRequests {n : Nat} {l : List Nat} {s t : State} (h : NiNote n l s t) (hkeeps : Keeps (waitsView n) s t) :
    EndsRequests n s t := by
  have ⟨hdec, hrest⟩ := Prod.mk.inj hkeeps
  have ⟨hrsp, hreqs⟩ := Prod.mk.inj hrest
  exact ⟨by rw [h.1], h.2.2, hdec, hrsp, hreqs ▸ fun _ => id⟩

theorem updNi_keepsWaits (s : State) (n : Nat) {f : Ni → Ni} (hf : ∀ i, waitsOf (f i) = waitsOf i) :
    Keeps (waitsView n) s (updNi s n f) := by
  unfold Keeps waitsView
  rw [getNi_updNi_same, hf]

theorem pushErs_keepsWaits (s : State) (n : Nat) (g : Egr) : Keeps (waitsView n) s (pushErs s n g) := by
  unfold Keeps waitsView
  rw [getNi_pushErs]
  rfl

theorem EndsRequests.ite {n : Nat} {c : Prop} [Decidable c] {s t u : State} (ht : EndsRequests n s t) (hu : EndsRequests n s u) :
    EndsRequests n s (if c then t else u) := by split <;> assumption

theorem EndsRequests.foldl {α : Type} {n : Nat} {f : State → α → State} (h : ∀ t a, EndsRequests n t (f t a)) :
    ∀ (l : List α) (s : State), EndsRequests n s (l.foldl f s)
  | [], s => .refl n s
  | a :: l, s => (h s a).trans (EndsRequests.foldl h l (f s a))

/-- A failed home write is the journal's (14 R314). -/
theorem homeFail_endsRequests (n : Nat) (s : State) (h fa : Nat) : EndsRequests n s (homeFail s h fa) := by
  unfold homeFail
  extract_lets s1 s2
  have hcount : EndsRequests n s s2 := .of_same n rfl (.refl s)
  refine .ite hcount (hcount.trans ?_)
  generalize hu : setFlag _ (aJrn 8) (2 + h) = u
  have hepisode : EndsRequests n s2 (takeFree u).2 := by
    rw [← hu]
    exact .of_same n rfl (.refl s2)
  exact hepisode.trans ((raiseG_noteOnly ..).endsRequests n)

/-- An outcome that an engine or the journal takes changes no NI (13 R284; 14 R313). -/
theorem engAnswer_endsRequests (n : Nat) (s : State) (code fa : Nat) (data : List Line) (stat : Nat) :
    EndsRequests n s (engAnswer s code fa data stat) := by
  have hinbox : ∀ g, EndsRequests n s { s with eng := g } := fun g => .of_same n rfl (.refl s)
  exact .ite (.refl n s) (.ite (homeFail_endsRequests ..) (hinbox _))

theorem freeTrk_endsRequests (s : State) (n : Nat) (tag : Tag) : EndsRequests n s (freeTrk s n tag) :=
  (NiNote.updNi n [] s _).endsRequests (updNi_keepsWaits s n fun _ => rfl)

theorem deliverEnd_endsRequests (s : State) (n : Nat) (e : Trk) (g : Egr) (stat : Nat) (data : List Line) :
    EndsRequests n s (deliverEnd s n e g stat data) := by
  unfold deliverEnd
  split
  · exact engAnswer_endsRequests ..
  · exact ((pushErs_niOnly s n g).niNote []).endsRequests (pushErs_keepsWaits s n g)

theorem pwError_endsRequests {n : Nat} (hn : n < 128) (s : State) (slice : Option Nat) (code stat opc tag addr : Nat) :
    EndsRequests n s (pwError s n slice code stat opc tag addr) := by
  obtain ⟨hnote, ⟨c, q, hni⟩, -⟩ := pwError_spec (s := s) (slice := slice) (code := code) (stat := stat) (opc := opc) (tag := tag)
    (addr := addr) hn rfl
  refine hnote.endsRequests ?_
  unfold Keeps waitsView
  rw [hni]
  rfl

/-- The request has left its NI, and whoever waited for it has the outcome (09 R200). -/
theorem endByFill_ends {n : Nat} (hn : n < 128) (s : State) (stat code : Nat) (r : Req) :
    EndsRequests n (updNi s n fun i => dropReq i r.id) (endByFill s n stat code r) := by
  unfold endByFill
  extract_lets s1
  split
  · refine EndsRequests.trans ?_ (pwError_endsRequests hn ..)
    split
    · exact engAnswer_endsRequests ..
    · exact .refl n s1
  · split
    · split
      · exact (freeTrk_endsRequests ..).trans (deliverEnd_endsRequests ..)
      · exact .refl n s1
    · exact .refl n s1

theorem dropReq_endsRequests (s : State) (n id : Nat) : EndsRequests n s (updNi s n fun i => dropReq i id) := by
  refine ⟨rfl, fun m hm => .of_eq ((NiOnly.updNi s n _).2 m hm), ?_, ?_, ?_⟩
  all_goals rw [getNi_updNi_same]
  · rfl
  · rfl
  · exact fun r hr => (List.mem_filter.1 hr).1

theorem endByFill_spec {n : Nat} (hn : n < 128) (s : State) (stat code : Nat) (r : Req) :
    EndsRequests n s (endByFill s n stat code r) ∧ ∀ q ∈ (getNi (endByFill s n stat code r) n).reqs, q.id ≠ r.id := by
  have hends := endByFill_ends hn s stat code r
  refine ⟨(dropReq_endsRequests s n r.id).trans hends, fun q hq => ?_⟩
  have hleft := hends.reqs q hq
  rw [getNi_updNi_same] at hleft
  simpa using (List.mem_filter.1 hleft).2

/-- Requests that a fill's outcome ends one after another have all left (09 R200). -/
theorem foldl_endByFill_spec {n : Nat} (hn : n < 128) (stat code : Nat) (l : List Req) : ∀ {s t : State},
    t = l.foldl (fun u r => endByFill u n stat code r) s →
      EndsRequests n s t ∧ ∀ r ∈ l, ∀ q ∈ (getNi t n).reqs, q.id ≠ r.id := by
  induction l with
  | nil =>
    intro s t ht
    subst ht
    exact ⟨.refl .., fun r hr => absurd hr List.not_mem_nil⟩
  | cons r l ih =>
    intro s t ht
    rw [List.foldl_cons] at ht
    obtain ⟨hfirst, hgone⟩ := endByFill_spec hn s stat code r
    obtain ⟨hrest, hothers⟩ := ih ht
    exact ⟨hfirst.trans hrest, List.forall_mem_cons.2 ⟨fun q hq => hgone q (hrest.reqs q hq), hothers⟩⟩

/-- A request that waits for an extent is unissued and needs its fill. -/
theorem mem_waiters {i : Ni} {inst : BitVec 4} {x : BitVec 19} {r : Req} :
    r ∈ waiters i inst x ↔ r ∈ i.reqs ∧ r.issued = false ∧ r.fill = some (inst, x) := by simp [waiters]

theorem reachResolved_endsRequests {n : Nat} (hn : n < 128) (s : State) (inst : BitVec 4) (x : BitVec 19) (d : BitVec 12) :
    EndsRequests n s (reachResolved s n inst x d) :=
  .foldl (fun t r => (endByFill_spec hn t 1 0x100 r).1.trans (.setFlag ..)) _ s

/-- A command that changes one NI and then ends requests of it completes. -/
theorem completes_of_endsRequests {n : Nat} {c : Instr} {s t u : State} {P : State → Prop} (hexec : exec c s = answer s u)
    (honly : NiOnly n s t) (hends : EndsRequests n t u) (hP : P u) : Completes c s P := by
  have hfrom := honly.1
  have hall := hends.whole
  exact completes_of_answer hexec (by rw [hall, hfrom]) (by rw [hall, hfrom]) (by rw [hall, hfrom]) hP

/-! A fill is answered. -/

/-- The fill has ended with its answer taken, and the extent has its entry (09 R199, R200). -/
def fillTaken (s : State) (n : Nat) (rest : List (Msg × Bool)) (f : Fill) (e : EtcRow) : State :=
  updNi (updNi (updNi s n fun i => { i with inRsp := rest }) n fun i =>
    { i with dec := { i.dec with fills := (takeFirst i.dec.fills fun g => g == f).2 } }) n fun i =>
    { i with dec := etcPut i.dec f.inst f.x e }

theorem fillTaken_spec {s u : State} {n : Nat} {rest : List (Msg × Bool)} {f : Fill} {e : EtcRow} (hu : u = fillTaken s n rest f e) :
    NiOnly n s u ∧ (∃ used, etcGet (getNi u n) f.inst f.x = some ⟨e.tni, e.gen, used⟩) ∧
      (getNi u n).dec.fills = (takeFirst (getNi s n).dec.fills fun g => g == f).2 ∧ (getNi u n).inRsp = rest := by
  have honly : NiOnly n s (fillTaken s n rest f e) := ((NiOnly.updNi ..).trans (.updNi ..)).trans (.updNi ..)
  subst hu
  refine ⟨honly, ?_, ?_, ?_⟩
  all_goals rw [fillTaken, getNi_updNi_same]
  · exact ⟨_, etcGet_etcPut ..⟩
  all_goals rw [getNi_updNi_same, getNi_updNi_same]
  rfl

/-- The entry that an EBT line gives an extent (14 Table 14.1). -/
def ebtRow (v : BitVec 128) : EtcRow := { tni := BitVec.ofNat 8 (ebtTni v), gen := BitVec.ofNat 8 (ebtGen v) }

theorem exec_etcFillAnswer {s : State} {n : NiId} {m : Msg} {alt : Bool} {rest : List (Msg × Bool)} {f : Fill} {v : BitVec 128}
    (htake : takeFirst (getNi s n.toNat).inRsp (fun q => q.1.opc == 0x7A) = (some (m, alt), rest)) (hcls : clsOk m = true)
    (htaint : m.taint = false) (hcrc : msgCrc m = m.crc) (hfill : fillAnswer m (getNi s n.toNat) = some f) (hdead : f.dead = false)
    (hstale : f.stale = false) (hstat : msgStat m = 0) (hv : v = (m.data.headD 0).extractLsb' 0 128)
    (hmapped : ebtState v = 1 ∨ ebtState v = 2) : exec (.etcFillAnswer n) s = answer s
      (reachResolved (fillTaken s n.toNat rest f (ebtRow v)) n.toNat f.inst f.x (etcNode f.inst (ebtRow v))) := by
  have hsame : fillAnswer m (getNi (updNi s n.toNat fun i => { i with inRsp := rest }) n.toNat) = some f := by
    rw [getNi_updNi_same]
    exact hfill
  change execEtcFillAnswer n s = _
  simp only [execEtcFillAnswer, htake, rxCheck_pass hcls htaint hcrc, hsame, hdead, hstale, hstat, ne_eq, not_true, Bool.false_eq_true,
    if_false, ← hv, if_pos hmapped]
  rfl

/-! A fill is not answered. -/

/-- Fill f of NI n is changed by h: it ends at its deadline with its number apart, or is sent again (09 R200). -/
def fillSet (s : State) (n : Nat) (f : Fill) (h : Fill → Fill) : State :=
  updNi s n fun i => { i with dec := { i.dec with fills := updFirst i.dec.fills (fun g => g == f) h } }

theorem getNi_fillSet (s : State) (n : Nat) (f : Fill) (h : Fill → Fill) : getNi (fillSet s n f h) n = { getNi s n with dec :=
    { (getNi s n).dec with fills := updFirst (getNi s n).dec.fills (fun g => g == f) h } } := getNi_updNi_same ..

theorem fillSet_niOnly (s : State) (n : Nat) (f : Fill) (h : Fill → Fill) : NiOnly n s (fillSet s n f h) := .updNi ..

/-- The state in which the requests that waited for fill f end. -/
def fillDead (s : State) (n : Nat) (f : Fill) : State := fillSet s n f fun g => { g with dead := true }

theorem exec_etcFillTimeout {s : State} {n : NiId} {inst : BitVec 4} {x : BitVec 19} {f : Fill}
    (hfind : (getNi s n.toNat).dec.fills.find? (fun f => f.inst == inst && f.x == x && !f.dead) = some f)
    (hlate : f.sentNs + btoOf s n.toNat * 1024 ≤ nowNs s) : exec (.etcFillTimeout n inst x) s = answer s
      (setFlag ((waiters (getNi s n.toNat) inst x).foldl (fun u r => endByFill u n.toNat 3 0x103 r) (fillDead s n.toNat f))
        (aNi n.toNat 0x1C00) 5) := by
  change execEtcFillTimeout n inst x s = _
  simp only [execEtcFillTimeout, hfind, if_neg (Nat.not_lt.2 hlate), fillDead, fillSet]

/-- The requests that waited for the fill have ended, and FILL_TOUT is set (09 R200). -/
theorem fillTimedOut_spec {s t : State} {n : Nat} {inst : BitVec 4} {x : BitVec 19} {f : Fill} (hn : n < 128)
    (ht : t = setFlag ((waiters (getNi s n) inst x).foldl (fun u r => endByFill u n 3 0x103 r) (fillDead s n f)) (aNi n 0x1C00) 5) :
    EndsRequests n (fillDead s n f) t ∧ bitOf (rd t (aNi n 0x1C00)) 5 = true ∧
      ∀ r ∈ (getNi t n).reqs, r.issued = true ∨ r.fill ≠ some (inst, x) := by
  generalize hu : (waiters (getNi s n) inst x).foldl (fun u r => endByFill u n 3 0x103 r) (fillDead s n f) = u at ht
  obtain ⟨hended, hgone⟩ := foldl_endByFill_spec hn 3 0x103 _ hu.symm
  have hends : EndsRequests n (fillDead s n f) t := ht ▸ hended.trans (.setFlag ..)
  refine ⟨hends, ?_, fun r hr => ?_⟩
  · rw [ht, rd_setFlag, if_pos rfl]
    exact bitOf_or_flag _ (by decide)
  · have hfrom := hends.reqs r hr
    rw [fillDead, getNi_fillSet] at hfrom
    rw [ht, getNi_setFlag] at hr
    by_contra hwaits
    obtain ⟨hissued, hneeds⟩ := not_or.1 hwaits
    exact hgone r (mem_waiters.2 ⟨hfrom, Bool.eq_false_iff.2 hissued, not_not.1 hneeds⟩) r hr rfl

/-! A fill is sent again. -/

/-- Whether a message has been sent shows in what its NI has under way. -/
theorem SentBy.of_sched {s t u : State} {n : Nat} {p : Plane} {att : Option Bool} {m : Msg} (h : SentBy s t n p att m)
    (hsched : (getNi u n).sched = (getNi t n).sched) : SentBy s u n p att m := by
  unfold SentBy Injects at h ⊢
  rwa [hsched]

/-- The way a message takes does not depend on the cache (05 R97). -/
theorem ownOn_updDec (s : State) (n : Nat) (d : Ni → Dec) (o : OwnMsg) :
    ownOn (updNi s n fun i => { i with dec := d i }) n o = ownOn s n o := by
  unfold ownOn startOn pickAtt homeOf
  rw [getNi_updNi_same]
  rfl

theorem stampMsg_updDec (s : State) (n : Nat) (d : Ni → Dec) (m : Msg) :
    (stampMsg (updNi s n fun i => { i with dec := d i }) n m).1 = (stampMsg s n m).1 := by
  unfold stampMsg
  rw [getNi_updNi_same]
  rfl

theorem SentBy.of_updDec {s t : State} {n : Nat} {p : Plane} {att : Option Bool} {m : Msg} {d : Ni → Dec}
    (h : SentBy (updNi s n fun i => { i with dec := d i }) t n p att m) : SentBy s t n p att m := by
  unfold SentBy Injects at h ⊢
  simp only [ownOn_updDec, stampMsg_updDec, getNi_updNi_same] at h
  exact h

/-- A fill's MG_RD is sent, and its NI keeps all but what is under way (09 R200). -/
theorem sendFill_spec {s t : State} {n : Nat} {inst : BitVec 4} {x : BitVec 19} {tag : Tag} (hn : n < 128)
    (ht : t = sendFill s n inst x tag) :
    SentBy s t n .req none (fillMsg s n inst x tag) ∧ NiNote n [] s t ∧
      ∃ c q b, getNi t n = { getNi s n with sched := c, pst := q, port := { (getNi s n).port with ntfQ := b } } := by
  have hsent := sentBy_injectOwn s n .req (fillMsg s n inst x tag) none
  have hcount : NoteOnly (injectOwn s n .req (fillMsg s n inst x tag) none) t := ht ▸ evNi_noteOnly _ n 12 1 hn (by decide)
  obtain ⟨b, hb⟩ := (hcount.2.2 n).exists_ntfQ
  obtain ⟨c, q, hc⟩ := getNi_injectOwn s n .req (fillMsg s n inst x tag) none
  refine ⟨hsent.of_sched (by rw [hb]), ht ▸ (sendFill_keepsTaken s inst x tag hn).1, c, q, b, ?_⟩
  rw [hb, hc]

/-- The state in which fill f, which waited to be sent again, is sent. -/
def fillResent (s : State) (n : Nat) (f : Fill) : State := fillSet s n f fun g => { g with resend := false }

theorem exec_etcFillResend {s : State} {n : NiId} {inst : BitVec 4} {x : BitVec 19} {f : Fill}
    (hfind : (getNi s n.toNat).dec.fills.find? (fun f => f.inst == inst && f.x == x && f.resend && !f.dead) = some f)
    (htick : atTick s = true) : exec (.etcFillResend n inst x) s = answer s (sendFill (fillResent s n.toNat f) n.toNat inst x f.tag) := by
  change execEtcFillResend n inst x s = _
  simp only [execEtcFillResend, hfind, htick, Bool.not_true, Bool.false_eq_true, if_false, fillResent, fillSet]

theorem toNat_ebtAddr (x : BitVec 19) : (BitVec.ofNat 52 (ebtAddr x)).toNat = 0x1000000 + 16 * x.toNat := by
  rw [BitVec.toNat_ofNat, ebtAddr]
  exact Nat.mod_eq_of_lt (by omega)

theorem toNat_fillNode (inst : BitVec 4) (x : BitVec 19) :
    (BitVec.ofNat 12 (256 * inst.toNat + 120 + x.toNat % 8)).toNat = 256 * inst.toNat + 120 + x.toNat % 8 := by
  rw [BitVec.toNat_ofNat]
  exact Nat.mod_eq_of_lt (by omega)

theorem exec_etcInvalidate {s : State} {n : NiId} (inst : BitVec 4) (x : BitVec 19) (hni : isNi s n.toNat = true) :
    exec (.etcInvalidate n inst x) s = answer s (updNi s n.toNat fun i => etcInval i inst x) := congrArg (answer s) (if_pos hni)

theorem exec_niEtcFlush {s : State} {n : NiId} (hni : isNi s n.toNat = true) : exec (.niEtcFlush n) s = answer s (etcFlush s n.toNat) :=
  congrArg (answer s) (if_pos hni)

/-- Settles O23: requests that end leave the cache as it is, so it holds what the fill, its deadline or the invalidation made of it. -/
theorem extentTargetCacheFillsAndForgets : Obligations.ExtentTargetCacheFillsAndForgets := by
  unfold Obligations.ExtentTargetCacheFillsAndForgets
  refine ⟨?_, ?_, ?_, fun s n inst x hni => ?_, fun s n hni => ?_⟩
  · rintro s n _ m alt rest f v rfl htake hcls htaint hcrc hfill hdead hstale hstat hv hmapped
    obtain ⟨honly, hrow, hfills, hrest⟩ := fillTaken_spec (s := s) (n := n.toNat) (rest := rest) (f := f) (e := ebtRow v) rfl
    have hends := reachResolved_endsRequests n.isLt (fillTaken s n.toNat rest f (ebtRow v)) f.inst f.x (etcNode f.inst (ebtRow v))
    refine completes_of_endsRequests (exec_etcFillAnswer htake hcls htaint hcrc hfill hdead hstale hstat hv hmapped) honly hends
      ⟨?_, ?_, ?_, fun j hj => (SameNi.of_eq (honly.2 j hj)).trans (hends.others j hj)⟩
    · rw [etcGet, hends.dec]
      exact hrow
    · rw [hends.dec, hfills]
    · rw [hends.inRsp, hrest]
  · rintro s n _ inst x f rfl hfind hlate
    have hexec := exec_etcFillTimeout hfind hlate
    generalize ht : setFlag _ (aNi n.toNat 0x1C00) 5 = t at hexec
    obtain ⟨hends, hflag, hgone⟩ := fillTimedOut_spec n.isLt ht.symm
    have honly : NiOnly n.toNat s (fillDead s n.toNat f) := fillSet_niOnly ..
    refine completes_of_endsRequests hexec honly hends ⟨?_, hflag, hgone,
      fun j hj => (SameNi.of_eq (honly.2 j hj)).trans (hends.others j hj)⟩
    rw [hends.dec, fillDead, getNi_fillSet]
  · rintro s n _ inst x f rfl hfind htick
    obtain ⟨hsent, hnote, c, q, b, hni⟩ := sendFill_spec (s := fillResent s n.toNat f) (inst := inst) (x := x) (tag := f.tag) n.isLt rfl
    have hwhole := ((fillSet_niOnly s n.toNat f _).niNote []).trans hnote
    refine completes_of_niNote (exec_etcFillResend hfind htick) hwhole
      ⟨_, hsent.of_updDec, rfl, rfl, toNat_ebtAddr x, toNat_fillNode inst x, rfl, ?_, ?_, ?_, hwhole.2.2, hwhole.2.1⟩
    all_goals rw [hni, fillResent, getNi_fillSet]
  · have honly : NiOnly n.toNat s (updNi s n.toNat fun i => etcInval i inst x) := .updNi ..
    refine completes_of_niOnly (exec_etcInvalidate inst x hni) honly ?_
    rw [getNi_updNi_same]
    exact ⟨etcGet_etcInval_same .., fun j y => etcGet_etcInval_ne _, fun f => stale_of_mem_etcInval, honly⟩
  · have honly : NiOnly n.toNat s (etcFlush s n.toNat) := .updNi ..
    refine completes_of_niOnly (exec_niEtcFlush hni) honly ?_
    rw [etcFlush, getNi_updNi_same]
    exact ⟨rfl, rfl, honly⟩

end Sys2Proof.Machine
end

section
/-! SUPPORT. A multicast copy takes a gather entry, and answers of its children merge (10 R217 to R220). -/

namespace Sys2Proof.Machine

/-! A counter of a router. -/

/-- A counter of the router and its event advance together: nothing else is written but what the event's notifications write. -/
theorem counted_only (s : State) {x off e : Nat} (hx : x < 64) (he : e < 32) :
    CountOnly [aRtr x off] s (evRtr (incSat s (aRtr x off) 1) x e 1) :=
  (CountOnly.incSat s 1 (List.mem_singleton_self _)).trans (.evRtr _ 1 _ hx he)

theorem rd_counted (s : State) {x off e : Nat} (hx : x < 64) (ho : off < 0x1000) (he : e < 32) :
    rd (evRtr (incSat s (aRtr x off) 1) x e 1) (aRtr x off) = rd (incSat s (aRtr x off) 1) (aRtr x off) :=
  (evRtr_noteOnly _ 1 hx he).2.1 _ (noteWord_aRtr hx ho)

theorem toNat_rd_counted (s : State) {x off e : Nat} (hx : x < 64) (ho : off < 0x1000) (he : e < 32) :
    (rd (evRtr (incSat s (aRtr x off) 1) x e 1) (aRtr x off)).toNat = min 0xFFFFFFFF ((rd s (aRtr x off)).toNat + 1) := by
  rw [rd_counted s hx ho he, rd_incSat, if_pos rfl, toNat_satAdd]

/-- The state with a counter advanced is the one with the counter's new word written. -/
theorem incSat_eq_putWord (s : State) (a d : Nat) : incSat s a d = { s with regs := putWord s.regs a (rd (incSat s a d) a) } := by
  rw [incSat, rd_wr_same, wr]

/-! A copy in stage 2. -/

/-- The gather entry of a copy that came in on `port`, with the outputs of its children (10 R219). -/
def gatherFor (s : State) (port : BitVec 4) (m : Msg) (child : Nat) : Gather :=
  { orig := m.src, tag := m.tag, parent := port, child := BitVec.ofNat 10 child, notify := m.opc == 0x7B,
    deadline := (frameOf s + gtoOf s) % 2 ^ 48, gen := m.gen, slice := m.slice }

/-- Entry e is the copy's, and its branches are to be sent (10 R217 to R219). -/
def copyTaken (s : State) (x : Nat) (port : BitVec 4) (m : Msg) (e : Nat) : State :=
  updPlane (updRtr s x fun r => { r with gather := mset r.gather e (gatherFor s port m (mcChild s x m)), gthLast := port.toNat }) .req x
    fun r => { r with copies := mset r.copies port.toNat (mcChild s x m, e) }

/-- While fewer than 255 entries are used, a copy with children takes a free one (10 R218, R219). -/
theorem exec_mcCopyReplicate_takes {s : State} {x : RtrId} {port : BitVec 4} {k p e : Nat} {f : Flit} {rest : List Flit} (hk : k = x.toNat)
    (hp : p = port.toNat) (hrtr : isRtr s k = true) (hup : (getRtr s k).failed = false) (hwait : mcWaiting (getRtr s k).req p = true)
    (hbuf : bufOf (getRtr s k).req (16 * p + 7) = f :: rest) (hep : f.msg.ep.toNat = rtrEp s k) (hfree : freeGather s k = some e)
    (hused : (getRtr s k).gather.length < 255) (hchild : mcChild s k f.msg ≠ 0) :
    exec (.mcCopyReplicate x port) s = answer s (copyTaken s k port f.msg e) := by
  subst hk hp
  change execMcCopyReplicate x port s = _
  unfold execMcCopyReplicate
  simp only [hrtr, hup, hwait, hbuf, hep, hfree, hchild, Nat.ne_of_lt hused, ne_eq, not_true, false_and, if_false, Bool.not_true,
    Bool.or_self, Bool.false_eq_true]
  rfl

/-- Without a free entry the copy waits, and the fc is counted (10 R218). -/
theorem exec_mcCopyReplicate_waits {s : State} {x : RtrId} {port : BitVec 4} {k p : Nat} {f : Flit} {rest : List Flit} (hk : k = x.toNat)
    (hp : p = port.toNat) (hrtr : isRtr s k = true) (hup : (getRtr s k).failed = false) (hwait : mcWaiting (getRtr s k).req p = true)
    (hbuf : bufOf (getRtr s k).req (16 * p + 7) = f :: rest) (hep : f.msg.ep.toNat = rtrEp s k) (hfree : freeGather s k = none) :
    exec (.mcCopyReplicate x port) s = answer s (evRtr (incSat s (aRtr k 0xA8) 1) k 14 1) := by
  subst hk hp
  change execMcCopyReplicate x port s = _
  unfold execMcCopyReplicate
  simp only [hrtr, hup, hwait, hbuf, hep, hfree, ne_eq, not_true, false_and, if_false, Bool.not_true, Bool.or_self, Bool.false_eq_true]

/-- The count of a waiting copy is the only word written but what its event's notifications write. -/
theorem copyWaits_spec {s t : State} {x : Nat} (hx : x < 64) (ht : t = evRtr (incSat s (aRtr x 0xA8) 1) x 14 1) :
    MeshFrame s t ∧ (rd t (aRtr x 0xA8)).toNat = min 0xFFFFFFFF ((rd s (aRtr x 0xA8)).toNat + 1) ∧ t.rtrs = s.rtrs ∧
      NoteOnly { s with regs := putWord s.regs (aRtr x 0xA8) (rd t (aRtr x 0xA8)) } t := by
  have hcount := counted_only s (off := 0xA8) hx (show 14 < 32 by decide)
  subst ht
  refine ⟨(hcount.rtrOnly x).frame, toNat_rd_counted s hx (by decide) (by decide), hcount.rtrs, ?_⟩
  rw [rd_counted s hx (by decide) (by decide), ← incSat_eq_putWord]
  exact evRtr_noteOnly _ 1 hx (by decide)

theorem getRtr_copyTaken (s : State) (x : Nat) (port : BitVec 4) (m : Msg) (e : Nat) :
    getRtr (copyTaken s x port m e) x = { getRtr s x with
      gather := mset (getRtr s x).gather e (gatherFor s port m (mcChild s x m)), gthLast := port.toNat
      req := { (getRtr s x).req with copies := mset (getRtr s x).req.copies port.toNat (mcChild s x m, e) } } := by
  rw [copyTaken, updPlane, getRtr_updRtr, if_pos rfl, getRtr_updRtr, if_pos rfl]

theorem getRtr_copyTaken_ne (s : State) {x y : Nat} (port : BitVec 4) (m : Msg) (e : Nat) (hy : y ≠ x) :
    getRtr (copyTaken s x port m e) y = getRtr s y := by
  rw [copyTaken, getRtr_updPlane_ne _ _ _ hy, getRtr_updRtr, if_neg hy]

/-! A place freed in a buffer. -/

/-- A place given back changes routers and NIs alone (05 R93). -/
theorem creditUp_meshOnly (s : State) (x : Nat) (pl : Plane) (port ch : Nat) :
    creditUp s x pl port ch = { s with rtrs := (creditUp s x pl port ch).rtrs, nis := (creditUp s x pl port ch).nis } := by
  unfold creditUp
  split
  · cases niAtPort s x port <;> rfl
  · cases neighbour s x port with
    | none => rfl
    | some q =>
      dsimp only
      unfold owe
      split <;> rfl

theorem popBuf_meshOnly (s : State) (x : Nat) (pl : Plane) (key : Nat) :
    popBuf s x pl key = { s with rtrs := (popBuf s x pl key).rtrs, nis := (popBuf s x pl key).nis } := creditUp_meshOnly ..

/-- The router whose buffer gives its head flit changes in that buffer alone. -/
theorem getRtr_popBuf (s : State) (x : Nat) (pl : Plane) (key : Nat) :
    getRtr (popBuf s x pl key) x = getRtr (updPlane s pl x fun r => { r with buf := mset r.buf key (bufOf r key).tail }) x :=
  (creditUp_self ..).1

theorem getRtr_popBuf_rsp (s : State) (x key : Nat) :
    getRtr (popBuf s x .rsp key) x = { getRtr s x with
      rsp := { (getRtr s x).rsp with buf := mset (getRtr s x).rsp.buf key (bufOf (getRtr s x).rsp key).tail } } := by
  rw [getRtr_popBuf, updPlane, getRtr_updRtr, if_pos rfl]

theorem bufOf_mset_tail {r : RtrPlane} {key : Nat} {f : Flit} {rest : List Flit} (h : bufOf r key = f :: rest) :
    bufOf { r with buf := mset r.buf key (bufOf r key).tail } key = rest := by
  rw [h]
  exact mgetD_mset_same ..

/-! An answer meets its entry. -/

/-- The entry with the answer merged in is due with its last child's (10 R220). -/
def mergedEntry (g : Gather) (p : Nat) (m : Msg) : Gather :=
  { gatherMerge g p m with due := decide ((gatherMerge g p m).done = g.child) }

/-- The answer has left its buffer and is in its entry (10 R220). -/
def answerMerged (s : State) (x p e : Nat) (g : Gather) (m : Msg) : State :=
  updRtr (popBuf s x .rsp (16 * p + 7)) x fun r => { r with gather := mset r.gather e (mergedEntry g p m) }

/-- Merging an answer changes neither the children awaited nor whether the entry is due. -/
theorem gatherMerge_keeps (g : Gather) (p : Nat) (m : Msg) :
    (gatherMerge g p m).child = g.child ∧ (gatherMerge g p m).due = g.due ∧
      (gatherMerge g p m).done = g.done ||| BitVec.ofNat 10 (2 ^ p) ∧
      (gatherMerge g p m).gcnt.toNat = min 255 (g.gcnt.toNat + msgGcnt m) := by
  have hcount : (BitVec.ofNat 8 (min 255 (g.gcnt.toNat + msgGcnt m))).toNat = min 255 (g.gcnt.toNat + msgGcnt m) := by
    rw [BitVec.toNat_ofNat]
    exact Nat.mod_eq_of_lt (by omega)
  unfold gatherMerge
  dsimp only
  split <;> exact ⟨rfl, rfl, rfl, hcount⟩

/-- An answer of a child not yet done merges into its entry (10 R220). -/
theorem exec_gatherAnswer_merges {s : State} {x : RtrId} {port : BitVec 4} {k p e : Nat} {f : Flit} {rest : List Flit} {g : Gather}
    (hk : k = x.toNat) (hp : p = port.toNat) (hrtr : isRtr s k = true) (hup : (getRtr s k).failed = false)
    (hbuf : bufOf (getRtr s k).rsp (16 * p + 7) = f :: rest)
    (hfind : (getRtr s k).gather.find? (fun q => q.2.orig == f.msg.dst && q.2.tag == f.msg.tag && q.2.child.getLsbD p &&
      !q.2.done.getLsbD p && !q.2.due) = some (e, g)) :
    exec (.gatherAnswer x port) s = answer s (answerMerged s k p e g f.msg) := by
  subst hk hp
  have hpending : g.due = false := by
    have hmatch := List.find?_some hfind
    simp only [Bool.and_eq_true, Bool.not_eq_true'] at hmatch
    exact hmatch.2
  obtain ⟨hchild, hdue, -, -⟩ := gatherMerge_keeps g port.toNat f.msg
  change execGatherAnswer x port s = _
  unfold execGatherAnswer
  simp only [hrtr, hup, hbuf, hfind, Bool.not_true, Bool.or_self, Bool.false_eq_true, if_false, hchild]
  refine congrArg (answer s) ?_
  unfold answerMerged mergedEntry
  split
  next hlast => rw [gatherReady, decide_eq_true hlast]
  next hmore => rw [decide_eq_false hmore, ← hpending, ← hdue]

/-- Any other answer is discarded and counted (10 R220). -/
theorem exec_gatherAnswer_strays {s : State} {x : RtrId} {port : BitVec 4} {k p : Nat} {f : Flit} {rest : List Flit}
    (hk : k = x.toNat) (hp : p = port.toNat) (hrtr : isRtr s k = true) (hup : (getRtr s k).failed = false)
    (hbuf : bufOf (getRtr s k).rsp (16 * p + 7) = f :: rest)
    (hnone : ∀ q ∈ (getRtr s k).gather, ¬(q.2.orig = f.msg.dst ∧ q.2.tag = f.msg.tag ∧ q.2.child.getLsbD p = true ∧
      q.2.done.getLsbD p = false ∧ q.2.due = false)) :
    exec (.gatherAnswer x port) s = answer s (evRtr (incSat (popBuf s k .rsp (16 * p + 7)) (aRtr k 0x98) 1) k 13 1) := by
  subst hk hp
  have hfind : (getRtr s x.toNat).gather.find? (fun q => q.2.orig == f.msg.dst && q.2.tag == f.msg.tag && q.2.child.getLsbD port.toNat &&
      !q.2.done.getLsbD port.toNat && !q.2.due) = none := by
    rw [List.find?_eq_none]
    intro q hq hmatch
    simp only [Bool.and_eq_true, beq_iff_eq, Bool.not_eq_true', and_assoc] at hmatch
    exact hnone q hq hmatch
  change execGatherAnswer x port s = _
  unfold execGatherAnswer
  simp only [hrtr, hup, hbuf, hfind, Bool.not_true, Bool.or_self, Bool.false_eq_true, if_false]

theorem answerMerged_spec {s t : State} {x p e : Nat} {g : Gather} {f : Flit} {rest : List Flit}
    (hbuf : bufOf (getRtr s x).rsp (16 * p + 7) = f :: rest) (ht : t = answerMerged s x p e g f.msg) :
    RtrCredit x [] s t ∧ t = { s with rtrs := t.rtrs, nis := t.nis } ∧ mget (getRtr t x).gather e = some (mergedEntry g p f.msg) ∧
      bufOf (getRtr t x).rsp (16 * p + 7) = rest := by
  have hrtr : getRtr t x = { getRtr (popBuf s x .rsp (16 * p + 7)) x with
      gather := mset (getRtr (popBuf s x .rsp (16 * p + 7)) x).gather e (mergedEntry g p f.msg) } := by
    rw [ht, answerMerged, getRtr_updRtr, if_pos rfl]
  rw [hrtr, getRtr_popBuf_rsp]
  refine ⟨?_, ?_, mget_mset_same .., bufOf_mset_tail hbuf⟩
  · rw [ht]
    exact (popBuf_spec s x .rsp _ []).1.trans (RtrOnly.updRtr ..).credit
  · rw [ht, answerMerged, updRtr, popBuf_meshOnly]

/-- A stray answer's place is free, and its count is the only word written but what its event's notifications write (10 R220). -/
theorem strayDiscarded_spec {s t : State} {x key : Nat} {f : Flit} {rest : List Flit} (hx : x < 64)
    (hbuf : bufOf (getRtr s x).rsp key = f :: rest) (ht : t = evRtr (incSat (popBuf s x .rsp key) (aRtr x 0x98) 1) x 13 1) :
    RtrCredit x [aRtr x 0x98] s t ∧ (rd t (aRtr x 0x98)).toNat = min 0xFFFFFFFF ((rd s (aRtr x 0x98)).toNat + 1) ∧
      bufOf (getRtr t x).rsp key = rest ∧ (getRtr t x).gather = (getRtr s x).gather := by
  have hword : rd (popBuf s x .rsp key) (aRtr x 0x98) = rd s (aRtr x 0x98) := by rw [popBuf_meshOnly]; rfl
  have hcount := counted_only (popBuf s x .rsp key) (off := 0x98) hx (show 13 < 32 by decide)
  subst ht
  refine ⟨(popBuf_spec s x .rsp key _).1.trans (hcount.rtrOnly x).credit, ?_, ?_⟩
  · rw [toNat_rd_counted _ hx (by decide) (by decide), hword]
  · rw [getRtr_congr hcount.rtrs, getRtr_popBuf_rsp]
    exact ⟨bufOf_mset_tail hbuf, rfl⟩

/-! An entry's deadline. -/

/-- The entry as its deadline leaves it: due, and short of answers where its STAT was OK (10 R220). -/
def expiredEntry (g : Gather) : Gather := { g with stat := (if g.stat = 0 then 11 else g.stat), due := true }

/-- Entry e has expired. -/
def gatherExpired (s : State) (x e : Nat) (g : Gather) : State :=
  evRtr (incSat (updRtr s x fun r => { r with gather := mset r.gather e (expiredEntry g) }) (aRtr x 0xA0) 1) x 12 1

theorem exec_gatherExpire {s : State} {x : RtrId} {e : BitVec 8} {k : Nat} {g : Gather} (hk : k = x.toNat)
    (hentry : mget (getRtr s k).gather e.toNat = some g) (hdead : frameGe (frameOf s) g.deadline = true) (hdue : g.due = false) :
    exec (.gatherExpire x e) s = answer s (gatherExpired s k e.toNat g) := by
  subst hk
  change execGatherExpire x e s = _
  unfold execGatherExpire
  simp only [hentry, hdead, hdue, Bool.not_false, Bool.and_self, if_true]
  refine congrArg (answer s) ?_
  unfold gatherExpired gatherShort gatherReady expiredEntry
  split <;> rfl

/-- The entry alone changes of the router; its count is the only word written but what its event's notifications write. -/
theorem gatherExpired_spec (s : State) {x : Nat} (e : Nat) (g : Gather) (hx : x < 64) :
    RtrOnly x [aRtr x 0xA0] s (gatherExpired s x e g) ∧
      (rd (gatherExpired s x e g) (aRtr x 0xA0)).toNat = min 0xFFFFFFFF ((rd s (aRtr x 0xA0)).toNat + 1) ∧
      getRtr (gatherExpired s x e g) x = { getRtr s x with gather := mset (getRtr s x).gather e (expiredEntry g) } := by
  unfold gatherExpired
  generalize hu : updRtr s x _ = u
  have hupd : RtrOnly x [aRtr x 0xA0] s u := by rw [← hu]; exact .updRtr ..
  have hword : rd u (aRtr x 0xA0) = rd s (aRtr x 0xA0) := by rw [← hu]; rfl
  have hcount := counted_only u (off := 0xA0) hx (show 12 < 32 by decide)
  refine ⟨hupd.trans (hcount.rtrOnly x), ?_, ?_⟩
  · rw [toNat_rd_counted u hx (by decide) (by decide), hword]
  · rw [getRtr_congr hcount.rtrs, ← hu, getRtr_updRtr, if_pos rfl]

end Sys2Proof.Machine
end

section
/-! SUPPORT. A gathered answer, and a branch of a multicast copy, take their turn for an output (10 R218, R220), and the statement. -/

namespace Sys2Proof.Machine

/-! The crossing. -/

/-- At an output that leads to a neighbour and that no preset has in this fc, the winner of any channel sends (05 R109). -/
theorem exec_routerFlitForward_winAt {s : State} {pl : Plane} {x : RtrId} {out : BitVec 4} {k o p ch c : Nat}
    {more : List (Nat × Nat × Nat)} {q : Nat × Nat} (err : FlitErr) (hk : k = x.toNat) (ho : o = out.toNat) (hrtr : isRtr s k = true)
    (hup : (getRtr s k).failed = false) (hgone : discardSteps s k pl = s) (hpre : presetAt s k pl o (fcNow s) = none)
    (hport : portUp s k pl o = true) (hn : neighbour s k o = some q) (hready : readyInputs s k pl o = (p, ch, c) :: more) :
    exec (.routerFlitForward pl x out err) s = answer s (winAt (contested s k pl more) k pl o p ch c err) := by
  subst hk ho
  have htakes : outTakes s x.toNat pl out.toNat = true := by
    have hmesh : ¬ 6 ≤ out.toNat := Nat.not_le.2 (neighbour_port_lt hn)
    simp [outTakes, hmesh]
  change execRouterFlitForward pl x out err s = _
  unfold execRouterFlitForward
  simp only [hrtr, hup, hgone, hpre, hport, htakes, hready, Option.isSome_none, Bool.false_eq_true, if_false]
  rfl

theorem contested_noteOnly (s : State) {x : Nat} (pl : Plane) (more : List (Nat × Nat × Nat)) (hx : x < 64) :
    NoteOnly s (contested s x pl more) := by
  unfold contested
  split
  · exact .refl s
  · exact evRtr_noteOnly s 1 hx (by have := plNo_lt pl; omega)

/-- What leaves router x for its neighbour is on the neighbour's link; router x is as it was left. -/
theorem leaving_crosses {s u t : State} {x y out inp : Nat} {pl : Plane} {f : Flit} {err : FlitErr} (hx : x < 64)
    (hn : neighbour s x out = some (y, inp)) (hup : (getRtr s y).failed = false) (hleave : RtrCredit x [] s u)
    (ht : t = sendOut u x pl out f err) :
    RtrOnly y [] u t ∧ getRtr t x = getRtr u x ∧ linkOf t y pl inp = linkOf s y pl inp ++ [f] := by
  have hy := neighbour_ne hn
  have howed := hleave.2.2.1 y hy
  obtain ⟨hcross, -, hplane⟩ := sendOut_mesh pl f err hx ((neighbour_congr hleave.frame x out).trans hn) (howed.failed.trans hup)
  rw [← ht] at hcross hplane
  refine ⟨hcross, hcross.2.2.1 x hy.symm, ?_⟩
  rw [linkOf, hplane, mgetD_mset_same, linkOf, howed.link, linkOf]

/-- A credit spent on S is one less at that output. -/
theorem outCredit_spent {r t : RtrPlane} {out : Nat} (hout : out < 10)
    (ht : t.credits = mset r.credits (16 * out + 7) (outCredit r out 7 - 1)) : outCredit t out 7 = outCredit r out 7 - 1 :=
  (outCredit_mset hout (by decide) ht).1

/-! A gathered answer. -/

/-- The plane of an output that a gathered answer takes: the credit, and the last winners (05 R90, R109). -/
def gatherSent (out : Nat) (r : RtrPlane) : RtrPlane :=
  { r with credits := mset r.credits (16 * out + 7) (outCredit r out 7 - 1), lastIn := mset r.lastIn out 10, lastCh := mset r.lastCh 10 7 }

/-- The state in which the answer of entry e, which is free, crosses to the output. -/
def gatherLeaving (s : State) (x out e : Nat) : State :=
  evRtr (evRtr (updPlane (updRtr s x fun r => { r with gather := mdel r.gather e }) .rsp x (gatherSent out)) x 11 1) x 1 1

/-- The answer of a gather entry as the flit that crosses. -/
def gatherFlit (s : State) (x : Nat) (g : Gather) : Flit := { msg := sealMsg (gatherMsg s x g), ch := 7 }

theorem winGather_eq {s : State} {x out e : Nat} {g : Gather} (err : FlitErr) (hdue : gatherDue s x out = some e)
    (hentry : mget (getRtr s x).gather e = some g) :
    winGather s x out err = sendOut (gatherLeaving s x out e) x .rsp out (gatherFlit s x g) err := by
  unfold winGather
  rw [hdue]
  dsimp only
  rw [hentry]
  rfl

theorem gatherLeaving_spec (s : State) {x : Nat} (out e : Nat) (hx : x < 64) :
    RtrOnly x [] s (gatherLeaving s x out e) ∧ getRtr (gatherLeaving s x out e) x = { getRtr s x with
      gather := mdel (getRtr s x).gather e, rsp := gatherSent out (getRtr s x).rsp } := by
  unfold gatherLeaving
  generalize hu : updPlane _ .rsp x _ = u
  have hcount : NoteOnly u (evRtr (evRtr u x 11 1) x 1 1) := (evRtr_noteOnly u 1 hx (by decide)).trans (evRtr_noteOnly _ 1 hx (by decide))
  have hsent : RtrOnly x [] s u := by
    rw [← hu]
    exact (RtrOnly.updRtr ..).trans (.updRtr ..)
  refine ⟨hsent.trans (hcount.rtrOnly ..), ?_⟩
  rw [hcount.getRtr, ← hu, updPlane, getRtr_updRtr, if_pos rfl, getRtr_updRtr, if_pos rfl]

/-- What an answer says depends on its entry, the router's epoch and GLB_PROFILE.INST (01 R19). -/
theorem NoteOnly.gatherFlit_eq {s t : State} (h : NoteOnly s t) {x : Nat} (hx : x < 64) (g : Gather) : gatherFlit t x g = gatherFlit s x g := by
  have hep : rtrEp t x = rtrEp s x := by rw [rtrEp, rdF, h.2.1 _ (noteWord_aRtr hx (by decide)), rtrEp, rdF]
  have hinst : instNo t = instNo s := by rw [instNo, rdF, h.2.1 0x8 rfl, instNo, rdF]
  rw [gatherFlit, gatherMsg, nodeOf, hep, hinst, gatherFlit, gatherMsg, nodeOf]

theorem NoteOnly.gatherDue_eq {s t : State} (h : NoteOnly s t) (x out : Nat) : gatherDue t x out = gatherDue s x out := by
  rw [gatherDue, h.getRtr, gatherDue]

/-- The answer that wins is on its parent's link, and its entry is free (10 R220). -/
theorem gatherAnswer_crosses {s t : State} {x out e y inp : Nat} {g : Gather} {more : List (Nat × Nat × Nat)} {err : FlitErr} (hx : x < 64)
    (hn : neighbour s x out = some (y, inp)) (hup : (getRtr s y).failed = false) (hdue : gatherDue s x out = some e)
    (hentry : mget (getRtr s x).gather e = some g) (ht : t = winGather (contested s x .rsp more) x out err) :
    (MeshFrame s t ∧ NotedBut [] s t ∧ (∀ z, z ≠ x → z ≠ y → getRtr t z = getRtr s z) ∧ ∀ m, SameNi s t m) ∧
      getRtr t x = { getRtr s x with gather := mdel (getRtr s x).gather e, rsp := gatherSent out (getRtr s x).rsp } ∧
      linkOf t y .rsp inp = linkOf s y .rsp inp ++ [gatherFlit s x g] := by
  have hcontest := contested_noteOnly s .rsp more hx
  have hsame := hcontest.getRtr x
  rw [winGather_eq err ((hcontest.gatherDue_eq x out).trans hdue) (by rw [hsame, hentry]), hcontest.gatherFlit_eq hx] at ht
  obtain ⟨hleave, hrtr⟩ := gatherLeaving_spec (contested s x .rsp more) out e hx
  rw [hsame] at hrtr
  have hleft := (hcontest.rtrOnly x []).trans hleave
  obtain ⟨hcross, hself, hlink⟩ := leaving_crosses hx hn hup hleft.credit ht
  have ⟨_, hwords, hrtrs, hni⟩ := hleft
  have ⟨_, hwordsT, hrtrsT, hniT⟩ := hcross
  exact ⟨⟨hleft.frame.trans hcross.frame, fun a ha hnote => (hwordsT a ha hnote).trans (hwords a ha hnote),
    fun z hzx hzy => (hrtrsT z hzy).trans (hrtrs z hzx), fun m => (hni m).trans (hniT m)⟩, hself.trans hrtr, hlink⟩

/-! A branch of a copy. -/

/-- The plane of an output on which a branch sends flit f of the copy at `port`: the branch's next flit, the channel's owner until the
last flit, the credit, and the last winners (10 R218; 05 R90, R109). -/
def branchSent (out port : Nat) (f : Flit) (r : RtrPlane) : RtrPlane :=
  { r with
    copyIdx := if f.last then mdel r.copyIdx (16 * port + out) else mupd r.copyIdx (16 * port + out) 0 (· + 1)
    owner := if f.last then mdel r.owner (16 * out + 7) else mset r.owner (16 * out + 7) (16 * port + 7)
    credits := mset r.credits (16 * out + 7) (outCredit r out 7 - 1)
    lastIn := mset r.lastIn out port, lastCh := mset r.lastCh port 7 }

/-- The branch's flit is counted, as a header too where it is one. -/
def branchCounted (s : State) (x out port : Nat) (f : Flit) : State :=
  evRtr (evRtr (updPlane s .req x (branchSent out port f)) x 10 (if f.idx = 0 then 1 else 0)) x 0 1

/-- The branches of the copy at `port` that remain when the one to `out` ends. -/
def otherBranches (r : RtrPlane) (port out : Nat) : Nat := (mgetD r.copies port (0, 0)).1 - 2 ^ out

/-- The state in which the branch's flit crosses to the output: with its last flit the branch has ended. -/
def branchLeaving (s : State) (x out port : Nat) (f : Flit) : State :=
  if f.last then branchesLeft (branchCounted s x out port f) x port (otherBranches (getRtr s x).req port out)
  else branchCounted s x out port f

theorem winBranch_eq {s : State} {x out port : Nat} {f : Flit} (err : FlitErr) (hflit : branchFlit (getRtr s x).req port out = some f) :
    winBranch s x out port err = sendOut (branchLeaving s x out port f) x .req out { f with ch := 7 } err := by
  unfold winBranch
  dsimp only
  rw [hflit]
  rfl

theorem branchCounted_spec (s : State) {x : Nat} (out port : Nat) (f : Flit) (hx : x < 64) :
    RtrOnly x [] s (branchCounted s x out port f) ∧
      (getRtr (branchCounted s x out port f) x).req = branchSent out port f (getRtr s x).req := by
  unfold branchCounted
  generalize hu : updPlane s .req x (branchSent out port f) = u
  have hcount : NoteOnly u (evRtr (evRtr u x 10 (if f.idx = 0 then 1 else 0)) x 0 1) :=
    (evRtr_noteOnly u _ hx (by decide)).trans (evRtr_noteOnly _ 1 hx (by decide))
  have hsent : RtrOnly x [] s u := by rw [← hu]; exact .updRtr ..
  refine ⟨hsent.trans (hcount.rtrOnly ..), ?_⟩
  rw [hcount.getRtr, ← hu]
  exact planeOf_updPlane_same s .req x _

/-- n flits leave a buffer from its head: its plane changes in nothing else but that buffer. -/
theorem foldl_popBuf_spec (s : State) (x : Nat) (pl : Plane) (key n : Nat) :
    RtrCredit x [] s ((List.range n).foldl (fun t _ => popBuf t x pl key) s) ∧
      bufOf (planeOf (getRtr ((List.range n).foldl (fun t _ => popBuf t x pl key) s) x) pl) key =
        (bufOf (planeOf (getRtr s x) pl) key).drop n ∧
      ∃ b, planeOf (getRtr ((List.range n).foldl (fun t _ => popBuf t x pl key) s) x) pl = { planeOf (getRtr s x) pl with buf := b } := by
  induction n with
  | zero => exact ⟨(RtrOnly.refl ..).credit, rfl, _, rfl⟩
  | succ n ih =>
    rw [List.range_succ, List.foldl_append, List.foldl_cons, List.foldl_nil]
    generalize (List.range n).foldl _ s = u at ih ⊢
    obtain ⟨hcredit, hdrop, b, hplane⟩ := ih
    obtain ⟨hpop, -, hpopped⟩ := popBuf_spec u x pl key []
    refine ⟨hcredit.trans hpop, ?_, _, by rw [hpopped, hplane]⟩
    rw [hpopped, bufOf, mgetD_mset_same, hdrop, List.tail_drop]

/-- The last branch's end frees the copy's buffer; another's leaves the rest (10 R218). -/
theorem branchesLeft_spec (s : State) (x port left : Nat) :
    RtrCredit x [] s (branchesLeft s x port left) ∧
      (getRtr (branchesLeft s x port left) x).req.credits = (getRtr s x).req.credits ∧
      (left ≠ 0 →
        mget (getRtr (branchesLeft s x port left) x).req.copies port = some (left, (mgetD (getRtr s x).req.copies port (0, 0)).2) ∧
        (getRtr (branchesLeft s x port left) x).req.buf = (getRtr s x).req.buf) ∧
      (left = 0 → mget (getRtr (branchesLeft s x port left) x).req.copies port = none ∧
        bufOf (getRtr (branchesLeft s x port left) x).req (16 * port + 7) =
          (bufOf (getRtr s x).req (16 * port + 7)).drop (copyLen (getRtr s x).req port)) := by
  unfold branchesLeft
  extract_lets r
  split
  next hnone =>
    generalize hu : updPlane s .req x _ = u
    have hended : RtrOnly x [] s u := by rw [← hu]; exact .updRtr ..
    have hplaneU : planeOf (getRtr u x) .req =
        { r with copies := mdel r.copies port, copyIdx := mdrop r.copyIdx fun k => k / 16 == port } := by
      rw [← hu, planeOf_updPlane_same]
      rfl
    obtain ⟨hpops, hdrop, b, hplane⟩ := foldl_popBuf_spec u x .req (16 * port + 7) (copyLen r port)
    generalize (List.range (copyLen r port)).foldl _ u = t at hpops hdrop hplane ⊢
    rw [hplaneU] at hdrop hplane
    simp only [planeOf] at hdrop hplane
    refine ⟨hended.credit.trans hpops, by rw [hplane], fun hsome => absurd hnone hsome, fun _ => ⟨?_, hdrop⟩⟩
    rw [hplane]
    exact mget_mdel_same ..
  next hsome =>
    have hplane := planeOf_updPlane_same s .req x fun r => { r with copies := mset r.copies port (left, (mgetD r.copies port (0, 0)).2) }
    simp only [planeOf] at hplane
    rw [hplane]
    exact ⟨(RtrOnly.updRtr ..).credit, rfl, fun _ => ⟨mget_mset_same .., rfl⟩, fun hnone => absurd hnone hsome⟩

/-- A branch sends a flit: while flits of it are left the copy stays as it is, and with its last one the branch has ended (10 R218). -/
structure BranchSends (r t : RtrPlane) (port out : Nat) (f : Flit) : Prop where
  credit : t.credits = mset r.credits (16 * out + 7) (outCredit r out 7 - 1)
  next : f.last = false → t = branchSent out port f r
  branch : f.last = true → otherBranches r port out ≠ 0 →
    mget t.copies port = some (otherBranches r port out, (mgetD r.copies port (0, 0)).2) ∧ t.buf = r.buf
  last : f.last = true → otherBranches r port out = 0 →
    mget t.copies port = none ∧ bufOf t (16 * port + 7) = (bufOf r (16 * port + 7)).drop (copyLen r port)

theorem branchLeaving_spec (s : State) {x : Nat} (out port : Nat) (f : Flit) (hx : x < 64) :
    RtrCredit x [] s (branchLeaving s x out port f) ∧
      BranchSends (getRtr s x).req (getRtr (branchLeaving s x out port f) x).req port out f := by
  obtain ⟨hcounted, hplane⟩ := branchCounted_spec s out port f hx
  unfold branchLeaving
  split
  next hlast =>
    obtain ⟨hends, hcredits, hothers, hnone⟩ :=
      branchesLeft_spec (branchCounted s x out port f) x port (otherBranches (getRtr s x).req port out)
    rw [hplane] at hcredits hothers hnone
    exact ⟨hcounted.credit.trans hends, hcredits, fun hmore => absurd hlast (by simp [hmore]), fun _ => hothers, fun _ => hnone⟩
  next hmore =>
    exact ⟨hcounted.credit, congrArg RtrPlane.credits hplane, fun _ => hplane,
      fun hlast => absurd hlast hmore, fun hlast => absurd hlast hmore⟩

/-- The flit of the branch that wins is on its link (10 R218). -/
theorem branch_crosses {s t : State} {x out port y inp : Nat} {f : Flit} {more : List (Nat × Nat × Nat)} {err : FlitErr} (hx : x < 64)
    (hn : neighbour s x out = some (y, inp)) (hup : (getRtr s y).failed = false) (hflit : branchFlit (getRtr s x).req port out = some f)
    (ht : t = winBranch (contested s x .req more) x out port err) :
    CrossOnly x y [] s t ∧ BranchSends (getRtr s x).req (getRtr t x).req port out f ∧
      linkOf t y .req inp = linkOf s y .req inp ++ [{ f with ch := 7 }] := by
  have hcontest := contested_noteOnly s .req more hx
  have hsame := hcontest.getRtr x
  rw [winBranch_eq err (by rw [hsame, hflit])] at ht
  obtain ⟨hleave, hsends⟩ := branchLeaving_spec (contested s x .req more) out port f hx
  rw [hsame] at hsends
  have hleft := (hcontest.rtrOnly x []).credit.trans hleave
  obtain ⟨hcross, hself, hlink⟩ := leaving_crosses hx hn hup hleft ht
  exact ⟨hleft.cross hcross, by rw [hself]; exact hsends, hlink⟩

/-- Settles O15: an entry changes by one table write in each command; what wins an output leaves its router as it says and only then
crosses to the neighbour. -/
theorem multicastIsReplicatedAndGathered : Obligations.MulticastIsReplicatedAndGathered := by
  unfold Obligations.MulticastIsReplicatedAndGathered
  refine ⟨?_, ?_, ?_, ?_⟩
  · intro s x port k p f rest hk hp hrtr hup hwait hbuf hep
    have hx : k < 64 := hk ▸ x.isLt
    refine ⟨fun e hfree hused hchild => ?_, fun hfree => ?_⟩
    · have hexec := exec_mcCopyReplicate_takes hk hp hrtr hup hwait hbuf hep hfree hused hchild
      refine completes_of_answer hexec rfl rfl rfl ⟨gatherFor s port f.msg (mcChild s k f.msg), ?_⟩
      rw [getRtr_copyTaken, hp]
      exact ⟨mget_mset_same .., rfl, rfl, rfl, rfl, rfl, rfl, rfl, rfl, rfl, mget_mset_same .., rfl, fun j hj => mget_mset_ne _ _ _ _ hj,
        fun y hy => getRtr_copyTaken_ne s port f.msg e hy, rfl⟩
    · obtain ⟨hframe, hcount⟩ := copyWaits_spec (s := s) hx rfl
      exact completes_of_meshFrame (exec_mcCopyReplicate_waits hk hp hrtr hup hwait hbuf hep hfree) hframe hcount
  · intro s x port k p key f rest r hk hp hkey hr hrtr hup hbuf
    subst hkey hr
    have hx : k < 64 := hk ▸ x.isLt
    refine ⟨fun e g hfind => ?_, fun hnone => ?_⟩
    · obtain ⟨hcredit, hwhole, hentry, hrest⟩ := answerMerged_spec (e := e) (g := g) hbuf rfl
      obtain ⟨-, -, hdone, hgcnt⟩ := gatherMerge_keeps g p f.msg
      have ⟨_, _, hrtrs, hni⟩ := hcredit
      exact completes_of_rtrCredit (exec_gatherAnswer_merges hk hp hrtr hup hbuf hfind) hcredit
        ⟨hentry, hdone, hgcnt, hrest, hni, hrtrs, hwhole⟩
    · obtain ⟨hcredit, hcount, hrest, hgather⟩ := strayDiscarded_spec hx hbuf rfl
      exact completes_of_rtrCredit (exec_gatherAnswer_strays hk hp hrtr hup hbuf hnone) hcredit ⟨hcount, hrest, hgather, hcredit.2.1⟩
  · intro s x e k g hk hentry hdead hdue
    obtain ⟨honly, hcount, hself⟩ := gatherExpired_spec s e.toNat g (hk ▸ x.isLt)
    have ⟨_, hwords, hrtrs, hni⟩ := honly
    refine completes_of_meshFrame (exec_gatherExpire hk hentry hdead hdue) honly.frame
      ⟨?_, fun j hj => ?_, hrtrs, hcount, hwords, hni⟩ <;> rw [hself]
    · exact mget_mset_same ..
    · exact mget_mset_ne _ _ _ _ hj
  · intro s pl x out err k o y inp hk ho hrtr hup hgone hpre hport hn hupY
    have hx : k < 64 := hk ▸ x.isLt
    have hout : o < 10 := by have := neighbour_port_lt hn; omega
    refine ⟨fun e g more hpl hready hdue hentry => ?_, fun p f r more left hpl hr hready hflit hleft => ?_⟩
    · subst hpl
      have hexec := exec_routerFlitForward_winAt err hk ho hrtr hup hgone hpre hport hn hready
      generalize ht : winAt _ k .rsp o 10 7 7 err = t at hexec
      obtain ⟨⟨hframe, hwords, hrtrs, hni⟩, hself, hlink⟩ := gatherAnswer_crosses hx hn hupY hdue hentry ht.symm
      refine completes_of_meshFrame hexec hframe ⟨?_, hlink, ?_, hrtrs, hni, hwords⟩ <;> rw [hself]
      · exact mget_mdel_same ..
      · exact outCredit_spent hout rfl
    · subst hpl hr hleft
      have hexec := exec_routerFlitForward_winAt err hk ho hrtr hup hgone hpre hport hn hready
      generalize ht : winAt _ k .req o p 7 7 err = t at hexec
      obtain ⟨⟨hframe, hwords, hrtrs, hni⟩, hsends, hlink⟩ := branch_crosses hx hn hupY hflit ht.symm
      refine completes_of_meshFrame hexec hframe ⟨hlink, outCredit_spent hout hsends.credit, fun hmore => ?_, fun hlast hsome => ?_,
        hsends.last, hrtrs, hni, hwords⟩
      · rw [hsends.next hmore]
        refine ⟨?_, rfl, rfl⟩
        simp [branchSent, hmore, mupd]
      · obtain ⟨hcopies, hbufs⟩ := hsends.branch hlast hsome
        exact ⟨hcopies, by rw [bufOf, hbufs, bufOf]⟩

end Sys2Proof.Machine
end

section
/-! SUPPORT. Copies and notifications at an NI, the NI's own gathered answers, and a forwarded record (10 R222, R223, R226; 23 R482), and the
statement. -/

namespace Sys2Proof.Machine

/-! The NI's own gathered answer. -/

/-- The answer that the NI makes for a member entry, for the attachment its copy came by (10 R220, R223). -/
def memberAnswer (s : State) (n : Nat) (e : Member) (opc stat : Nat) : Answer := { msg := memberMsg s n e opc stat, att := some e.alt }

/-- It joins the answer list (09 R205); nothing else of the NI changes. -/
theorem getNi_sendMemberAnswer (s : State) (n : Nat) (e : Member) (opc stat : Nat) :
    getNi (sendMemberAnswer s n e opc stat) n = { getNi s n with answers := (getNi s n).answers ++ [memberAnswer s n e opc stat] } :=
  getNi_updNi_same ..

theorem sendMemberAnswer_niOnly (s : State) (n : Nat) (e : Member) (opc stat : Nat) : NiOnly n s (sendMemberAnswer s n e opc stat) := .updNi ..

/-! A BISNP copy. -/

/-- The message taken is one that was looked for. -/
theorem of_takeFirst_eq_some {α : Type} {p : α → Bool} {a : α} : ∀ {l rest : List α}, takeFirst l p = (some a, rest) → p a = true
  | [], _, h => nomatch h
  | b :: l, rest, h => by
    by_cases hb : p b = true
    · rw [takeFirst, if_pos hb] at h
      cases h
      exact hb
    · rw [takeFirst, if_neg hb] at h
      have hhead : (takeFirst l p).1 = some a := congrArg Prod.fst h
      exact of_takeFirst_eq_some (rest := (takeFirst l p).2) (Prod.ext hhead rfl)

/-- NI n has its oldest message taken, and `rest` waits on. -/
def reqTaken (s : State) (n : Nat) (rest : List (Msg × Bool)) : State := updNi s n fun i => { i with inReq := rest }

theorem getNi_reqTaken (s : State) (n : Nat) (rest : List (Msg × Bool)) : getNi (reqTaken s n rest) n = { getNi s n with inReq := rest } :=
  getNi_updNi_same ..

theorem reqTaken_niOnly (s : State) (n : Nat) (rest : List (Msg × Bool)) : NiOnly n s (reqTaken s n rest) := .updNi ..

/-- The member entry of copy m that came by the attachment (10 R222). -/
def memberOf (m : Msg) (alt : Bool) : Member := { orig := m.src, tag := m.tag, alt := alt, opc := m.opc, slice := m.slice, gen := m.gen }

/-- Whether a member may see a copy does not depend on what waits at it. -/
theorem snoopDecide_reqTaken (s : State) (n : Nat) (rest : List (Msg × Bool)) (m : Msg) :
    snoopDecide (reqTaken s n rest) n m = snoopDecide s n m := by
  have hdown : niDown (reqTaken s n rest) n = niDown s n := niDown_inReq ..
  have hlift : liftCheck (reqTaken s n rest) n m (dirTag (reqTaken s n rest) n) 0 = liftCheck s n m (dirTag s n) 0 := rfl
  have hwin : revWin (getNi (reqTaken s n rest) n) m.addr.toNat = revWin (getNi s n) m.addr.toNat := by rw [getNi_reqTaken]; rfl
  simp only [snoopDecide, hdown, hlift, hwin]

/-- m is the BISNP copy that NI n takes next: it passes its checks, member entry j is free, and the answer list has room (10 R222; 09 R205). -/
structure CopyServable (s : State) (n j : Nat) (m : Msg) (alt : Bool) (rest : List (Msg × Bool)) : Prop where
  free : freeMember (getNi s n) = some j
  take : takeFirst (getNi s n).inReq (fun q => q.1.cls == 2 && isBisnp q.1.opc.toNat) = (some (m, alt), rest)
  room : (getNi s n).answers.length < 16
  cls : clsOk m = true
  taint : m.taint = false
  crc : msgCrc m = m.crc

/-- The copy is presented with its member entry. -/
def copyPresented (s : State) (n j : Nat) (m : Msg) (alt : Bool) (rest : List (Msg × Bool)) (a : Nat) : State :=
  presentReq (updNi (reqTaken s n rest) n fun i => { i with members := mset i.members j (memberOf m alt) }) n m a

/-- The copy is answered with STATE none. -/
def copyAnswered (s : State) (n : Nat) (m : Msg) (alt : Bool) (rest : List (Msg × Bool)) (stat : Nat) (deny : Option Nat)
    (miss : Bool) : State :=
  sendMemberAnswer (snoopLog (reqTaken s n rest) n m deny miss) n (memberOf m alt) 0x48 stat

/-- What becomes of the copy, by what its NI decides of it (10 R222). -/
def copyDecided (s : State) (n j : Nat) (m : Msg) (alt : Bool) (rest : List (Msg × Bool)) : SnpDec → State
  | .answer stat deny miss => copyAnswered s n m alt rest stat deny miss
  | .present a => copyPresented s n j m alt rest a

theorem CopyServable.exec_eq {s : State} {n : NiId} {j : Nat} {m : Msg} {alt : Bool} {rest : List (Msg × Bool)}
    (h : CopyServable s n.toNat j m alt rest) :
    exec (.mcCopyAtMember n) s = answer s (copyDecided s n.toNat j m alt rest (snoopDecide s n.toNat m)) := by
  have hfull : answersFull s n.toNat = false := by simp [answersFull, h.room]
  have hdecided := snoopDecide_reqTaken s n.toNat rest m
  unfold reqTaken at hdecided
  change execMcCopyAtMember n s = _
  simp only [execMcCopyAtMember, hfull, h.free, h.take, rxCheck_pass h.cls h.taint h.crc, hdecided, Bool.false_eq_true, if_false]
  cases snoopDecide s n.toNat m <;> rfl

/-- The class and the opcode of a BISNP copy. -/
theorem CopyServable.isCopy {s : State} {n j : Nat} {m : Msg} {alt : Bool} {rest : List (Msg × Bool)} (h : CopyServable s n j m alt rest) :
    m.cls = 2 ∧ isBisnp m.opc.toNat = true := by
  have hmatch := of_takeFirst_eq_some h.take
  simpa using hmatch

/-- A presented copy takes its member entry and stands on egress REQ (10 R222). -/
theorem CopyServable.getNi_copyPresented {s : State} {n j : Nat} {m : Msg} {alt : Bool} {rest : List (Msg × Bool)}
    (h : CopyServable s n j m alt rest) (a : Nat) : getNi (copyPresented s n j m alt rest a) n = { getNi s n with
      inReq := rest, members := mset (getNi s n).members j (memberOf m alt)
      port := { (getNi s n).port with erqB := (getNi s n).port.erqB ++ [presented m a] } } := by
  have hbest : m.cls ≠ 1 := by rw [h.isCopy.1]; decide
  rw [copyPresented, getNi_presentReq, getNi_updNi_same, getNi_reqTaken, if_neg hbest, if_neg hbest, List.append_nil]

theorem copyPresented_niOnly (s : State) (n j : Nat) (m : Msg) (alt : Bool) (rest : List (Msg × Bool)) (a : Nat) :
    NiOnly n s (copyPresented s n j m alt rest a) := ((reqTaken_niOnly ..).trans (.updNi ..)).trans (presentReq_niOnly ..)

/-- The header of a presented copy is of class best effort and counts its lines (03 Table 03.3). -/
theorem CopyServable.presented_hdr {s : State} {n j : Nat} {m : Msg} {alt : Bool} {rest : List (Msg × Bool)}
    (h : CopyServable s n j m alt rest) (a : Nat) : (presented m a).hdr =
      egrReqHdr m.opc.toNat false m.src.toNat m.slice.toNat m.gen.toNat m.tag.toNat (64 * m.len.toNat) m.poison m.nt a := by
  obtain ⟨hcls, hopc⟩ := h.isCopy
  have hline : isLineOp m.opc.toNat = true := by simp [isLineOp, hopc]
  simp only [presented, hcls, hline, if_true]
  rfl

/-- What an NI logs and flags of its own answer to a snoop changes nothing of it but its port's notifications. -/
theorem snoopLog_spec (s : State) {n : Nat} (m : Msg) (deny : Option Nat) (miss : Bool) (hn : n < 128) :
    (∃ l, NiNote n l s (snoopLog s n m deny miss)) ∧ SameNi s (snoopLog s n m deny miss) n := by
  unfold snoopLog
  extract_lets s1
  have hlogged : (∃ l, NiNote n l s s1) ∧ SameNi s s1 n := by
    unfold s1
    cases deny with
    | none => exact ⟨⟨[], .refl ..⟩, .refl ..⟩
    | some why =>
      obtain ⟨⟨a, -, hnote⟩, ⟨q, hq⟩, -⟩ := denyLog_spec s m why hn
      refine ⟨⟨_, hnote⟩, ?_⟩
      unfold SameNi
      rw [hq]
  obtain ⟨⟨l, hnote⟩, hsame⟩ := hlogged
  split
  · exact ⟨⟨aNi n 0x1C80 :: l, (hnote.mono (List.subset_cons_self ..)).trans (.setFlag _ 0 List.mem_cons_self)⟩,
      hsame.trans (.of_eq (getNi_setFlag ..))⟩
  · exact ⟨⟨l, hnote⟩, hsame⟩

/-- An answered copy leaves its answer, and no member entry (10 R222). -/
theorem copyAnswered_spec {s t : State} {n : Nat} {m : Msg} {alt : Bool} {rest : List (Msg × Bool)} {stat : Nat} {deny : Option Nat}
    {miss : Bool} (hn : n < 128) (ht : t = copyAnswered s n m alt rest stat deny miss) : (∃ l, NiNote n l s t) ∧ ∃ u : State,
      (getNi t n).answers = (getNi s n).answers ++ [memberAnswer u n (memberOf m alt) 0x48 stat] ∧ (getNi t n).inReq = rest ∧
      (getNi t n).members = (getNi s n).members := by
  obtain ⟨⟨l, hnote⟩, hsame⟩ := snoopLog_spec (reqTaken s n rest) m deny miss hn
  obtain ⟨q, hq⟩ := hsame.exists_ntfQ
  rw [getNi_reqTaken] at hq
  subst ht
  refine ⟨⟨l, (((reqTaken_niOnly ..).niNote l).trans hnote).trans ((sendMemberAnswer_niOnly ..).niNote l)⟩,
    snoopLog (reqTaken s n rest) n m deny miss, ?_⟩
  rw [copyAnswered, getNi_sendMemberAnswer, hq]
  exact ⟨rfl, rfl, rfl⟩

/-! A presented copy's deadline. -/

theorem exec_memberTimeout {s : State} {n : NiId} {e : BitVec 6} {q : Member} {d : Nat}
    (hentry : mget (getNi s n.toNat).members e.toNat = some q) (hdead : q.deadline = some d) (hlate : frameGe (frameOf s) d = true)
    (hopen : q.answered = false) (hdue : q.due = none) (hroom : (getNi s n.toNat).answers.length < 16) :
    exec (.memberTimeout n e) s = answer s (memberExpire s n.toNat e.toNat q) := by
  have hfull : answersFull s n.toNat = false := by simp [answersFull, hroom]
  change execMemberTimeout n e s = _
  simp [execMemberTimeout, hentry, hdead, hlate, hopen, hdue, hfull]

/-- The NI answers with TIMEOUT, keeps the entry as answered, and knows a later BIRSP for it as late (10 R223). -/
theorem memberExpire_spec (s : State) (n j : Nat) (e : Member) :
    NiNote n [aNi n 0x1C80] s (memberExpire s n j e) ∧
      rd (memberExpire s n j e) (aNi n 0x1C80) = rd s (aNi n 0x1C80) ||| 2#64 ∧
      getNi (memberExpire s n j e) n = { getNi s n with
        answers := (getNi s n).answers ++ [memberAnswer s n e 0x48 3], members := mset (getNi s n).members j { e with answered := true }
        lateMembers := (getNi s n).lateMembers ++ [(e.orig, e.tag)] } := by
  unfold memberExpire
  refine ⟨(((sendMemberAnswer_niOnly ..).niNote _).trans (.updNi ..)).trans (.setFlag _ 1 (List.mem_singleton_self _)), ?_, ?_⟩
  · rw [rd_setFlag, if_pos rfl]
    rfl
  · rw [getNi_setFlag, getNi_updNi_same, getNi_sendMemberAnswer]

/-! A NOTIFY. -/

/-- m is the NOTIFY that endpoint NI n, in service, takes next: it passes its checks, and the answer list has room (10 R226; 09 R205). -/
structure NotifyServable (s : State) (n : Nat) (m : Msg) (alt : Bool) (rest : List (Msg × Bool)) : Prop where
  ep : isEpNi s n = true
  take : takeFirst (getNi s n).inReq (fun q => q.1.opc == 0x7B && (q.1.cls != 2 || (freeMember (getNi s n)).isSome)) = (some (m, alt), rest)
  room : (getNi s n).answers.length < 16
  cls : clsOk m = true
  taint : m.taint = false
  crc : msgCrc m = m.crc
  up : niDown s n = false

/-- The port of NI n takes records of this severity, and its queue has room (03 R57). -/
structure PortNotes (s : State) (n sev : Nat) : Prop where
  on : bitOf (rd s (aNi n 0)) 2 = true
  severe : rdF s (aNi n 0) 9 8 ≤ sev
  room : (getNi s n).port.ntfQ.length < 16

/-- The record has joined the queue of the port. -/
def recordQueued (s : State) (n : Nat) (w : Word) : State := updPort s n fun p => { p with ntfQ := p.ntfQ ++ [w] }

theorem PortNotes.portNote_eq {s : State} {n sev : Nat} (h : PortNotes s n sev) (w : Word) : portNote s n sev w = recordQueued s n w := by
  rw [portNote, if_neg (by simp [h.on]), if_neg (Nat.not_lt.2 h.severe), if_pos h.room, recordQueued]

theorem PortNotes.after_reqTaken {s : State} {n sev : Nat} (h : PortNotes s n sev) (rest : List (Msg × Bool)) :
    PortNotes (reqTaken s n rest) n sev := ⟨h.on, h.severe, by rw [getNi_reqTaken]; exact h.room⟩

theorem recordQueued_niOnly (s : State) (n : Nat) (w : Word) : NiOnly n s (recordQueued s n w) := by
  unfold recordQueued updPort
  exact .updNi ..

/-- With its message taken and its record queued, NI n is as it was in all else. -/
theorem getNi_recordQueued_reqTaken (s : State) (n : Nat) (rest : List (Msg × Bool)) (w : Word) :
    getNi (recordQueued (reqTaken s n rest) n w) n = { getNi s n with
      inReq := rest, port := { (getNi s n).port with ntfQ := (getNi s n).port.ntfQ ++ [w] } } := by
  rw [recordQueued, getNi_updPort_same, getNi_reqTaken]

/-- A NOTIFY whose message passes its checks raises no record of its own, so its record is noted alone. -/
theorem notifyRecord_of_passes {s : State} {n : Nat} {m : Msg} (w : Word) (hcls : clsOk m = true) (htaint : m.taint = false)
    (hcrc : msgCrc m = m.crc) : notifyRecord s s n m w = portNote s n (fld w 59 58) w := by
  unfold notifyRecord
  split
  next hfatal => rw [rxCheck_pass hcls htaint hcrc, hfatal]
  next => rfl

/-- A NOTIFY is acknowledged with GCNT 1 at once, a multicast copy by its attachment (10 R226). -/
def notifyAcked (s : State) (n : Nat) (m : Msg) (alt : Bool) : State :=
  if m.cls = 2 then sendMemberAnswer s n (memberOf m alt) 0x7E 0 else pushAnswer s n m 0x7E 0 1

theorem NotifyServable.exec_eq {s : State} {n : NiId} {m : Msg} {alt : Bool} {rest : List (Msg × Bool)} {w : Word}
    (h : NotifyServable s n.toNat m alt rest) (hw : w = (m.data.headD 0).extractLsb' 0 64) (hport : PortNotes s n.toNat (fld w 59 58)) :
    exec (.notifyReceive n) s = answer s (notifyAcked (recordQueued (reqTaken s n.toNat rest) n.toNat w) n.toNat m alt) := by
  have hfull : answersFull s n.toNat = false := by simp [answersFull, h.room]
  have hup : niDown (reqTaken s n.toNat rest) n.toNat = false := (niDown_inReq ..).trans h.up
  have hep : isEpNi (reqTaken s n.toNat rest) n.toNat = true := h.ep
  have hnoted : notifyRecord (reqTaken s n.toNat rest) (reqTaken s n.toNat rest) n.toNat m w =
      recordQueued (reqTaken s n.toNat rest) n.toNat w := by
    rw [notifyRecord_of_passes w h.cls h.taint h.crc, (hport.after_reqTaken rest).portNote_eq]
  unfold reqTaken at hup hep hnoted ⊢
  subst hw
  change execNotifyReceive n s = _
  simp only [execNotifyReceive, hfull, h.take, rxCheck_pass h.cls h.taint h.crc, hup, hep, hnoted, Bool.false_eq_true, if_false, if_true]
  rfl

/-- The acknowledgement is the one answer that joins the list. -/
theorem notifyAcked_spec (s : State) (n : Nat) (m : Msg) (alt : Bool) : NiOnly n s (notifyAcked s n m alt) ∧ ∃ g : Msg,
    getNi (notifyAcked s n m alt) n = { getNi s n with
      answers := (getNi s n).answers ++ [{ msg := g, piste := m.cls == 1, att := if m.cls = 2 then some alt else none }] } ∧
    g.opc = 0x7E ∧ g.dst = m.src ∧ g.tag = m.tag ∧ g.addr = rspAddr 0 1 := by
  unfold notifyAcked
  split
  next hcopy =>
    refine ⟨sendMemberAnswer_niOnly .., memberMsg s n (memberOf m alt) 0x7E 0, ?_, rfl, rfl, rfl, rfl⟩
    rw [getNi_sendMemberAnswer, hcopy]
    rfl
  next => exact ⟨pushAnswer_niOnly .., answerMsg s n m 0x7E 0 1, getNi_updNi_same .., rfl, rfl, rfl, rfl⟩

/-! A forwarded record (23 R482). -/

/-- The NOTIFY of a record to the group of GLB_NTF_FWD, from service NI 120. -/
def forwardMsg (s : State) (w : Word) : Msg :=
  { dst := ((rd s 0x110).extractLsb' 0 10).zeroExtend 12, src := niNode s 120, opc := 0x7B, cls := 2, gen := slcGen s 120 0, len := 1,
    nbytes := 8, data := [w.zeroExtend 512] }

/-- Its destination is the group's number (10 R213). -/
theorem toNat_dst_forwardMsg (s : State) (w : Word) : (forwardMsg s w).dst.toNat = (rd s 0x110).toNat % 1024 := by
  simp only [forwardMsg, BitVec.truncate_eq_setWidth, BitVec.toNat_setWidth, BitVec.extractLsb'_toNat]
  omega

/-- Its request in queue 10, under its tracker tag. -/
def forwardReq (s : State) (w : Word) (tag : Option Tag) : Req :=
  { id := (getNi s 120).nextId, q := 10, tag := tag, msg := forwardMsg s w, group := some ((rd s 0x110).extractLsb' 0 10), nbytes := 8,
    lineCnt := 1 }

/-- Its tracker entry. -/
def forwardTrk (s : State) (w : Word) : Trk :=
  { gen := slcGen s 120 0, reqId := (getNi s 120).nextId, opc := 0x7B, dst := (forwardMsg s w).dst,
    group := some ((rd s 0x110).extractLsb' 0 10), notify := true, deadline := some (beDeadline s 120) }

/-- The record has become a request, with the tracker entry that the search found, and the forward is outstanding. -/
def recordForwarded (s : State) (w : Word) (rest : List Word) (found : Option Tag × State) : State :=
  let t := enqueueReq found.2 120 (forwardReq s w found.1)
  { t with ntf := { t.ntf with fwdQ := rest, fwdBusy := true } }

/-- While no forward is outstanding and service NI 120 has room for it, the oldest record leaves. -/
theorem exec_ntfForward {s : State} {w : Word} {rest : List Word} (hq : s.ntf.fwdQ = w :: rest) (hidle : s.ntf.fwdBusy = false)
    (hfree : reqFull (getNi s 120) 10 = false) (hroom : trkRoom s 120 0 = true) (hup : (getNi s 120).inRst = false)
    (hact : slcAct s 120 0 = true) (hrst : slcRst s 120 0 = false) :
    exec .ntfForward s = answer s (recordForwarded s w rest (allocTrk s 120 (forwardTrk s w))) := by
  have hready : (s.ntf.fwdBusy || reqFull (getNi s 120) 10 || !trkRoom s 120 0 || (getNi s 120).inRst || !slcAct s 120 0 ||
      slcRst s 120 0) = false := by simp [hidle, hfree, hroom, hup, hact, hrst]
  change execNtfForward s = _
  unfold execNtfForward
  rw [hq]
  dsimp -zeta only
  refine congrArg (answer s) ((if_neg (by rw [hready]; exact Bool.false_ne_true)).trans ?_)
  extract_lets grp m r t
  have hfound : allocTrk s 120 (forwardTrk s w) = t := rfl
  rw [hfound]
  clear_value t
  rfl

theorem trk_length_lt_of_trkRoom {s : State} {n k : Nat} (h : trkRoom s n k = true) : (getNi s n).trk.length < 1024 := by
  simp only [trkRoom, Bool.and_eq_true, decide_eq_true_eq] at h
  exact h.2

/-- NI 120 has the request behind those it had, in queue 10; beside it the notification unit and the free values alone change. -/
theorem recordForwarded_spec {s t : State} {w : Word} {rest : List Word} (hroom : (getNi s 120).trk.length < 1024)
    (ht : t = recordForwarded s w rest (allocTrk s 120 (forwardTrk s w))) : ∃ g,
      (getNi t 120).reqs = (getNi s 120).reqs ++ [forwardReq s w (some g)] ∧
      (getQ (getNi t 120) 10).reqIds = (getQ (getNi s 120) 10).reqIds ++ [(forwardReq s w (some g)).id] ∧
      t.ntf = { s.ntf with fwdQ := rest, fwdBusy := true } ∧ (∀ m, m ≠ 120 → getNi t m = getNi s m) ∧
      t = { s with nis := t.nis, ntf := t.ntf, free := t.free } := by
  obtain ⟨g, hg, -⟩ := freeTag_spec ((takeFree s).1.toNat % 1024) hroom
  rw [allocTrk_of_tag hg] at ht
  generalize hu : updNi (takeFree s).2 120 _ = u at ht
  have hntf : u.ntf = s.ntf := by rw [← hu]; rfl
  have hall : u = { s with nis := u.nis, free := u.free } := by rw [← hu]; rfl
  have hself : getNi u 120 = { getNi s 120 with trk := mset (getNi s 120).trk g.toNat (forwardTrk s w) } := by
    rw [← hu, getNi_updNi_same]
    rfl
  have hother : ∀ m, m ≠ 120 → getNi u m = getNi s m := fun m hm => by
    rw [← hu, getNi_updNi, if_neg hm]
    rfl
  have hjoined : takenView 120 t = takenView 120 (enqueueReq u 120 (forwardReq s w (some g))) := by rw [ht]; rfl
  rw [takenView_enqueueReq, hself] at hjoined
  simp only [takenView, takenOf, Prod.mk.injEq] at hjoined
  obtain ⟨hreqs, -, -, hqueues, -⟩ := hjoined
  refine ⟨g, hreqs, ?_, ?_, fun m hm => ?_, ?_⟩
  · rw [getQ, hqueues]
    exact congrArg Queue.reqIds (mgetD_mset_same ..)
  · rw [ht, ← hntf]
    rfl
  · rw [← hother m hm, ht]
    exact (enqueueReq_niOnly u 120 _).2 m hm
  · rw [ht, recordForwarded, (enqueueReq_niOnly u 120 _).1, hall]

/-- Settles O24: each answer is one entry of the answer list, which what precedes it leaves alone; a forwarded record is a request with a
free tracker tag. -/
theorem membersAnswerAndNotificationsForward : Obligations.MembersAnswerAndNotificationsForward := by
  unfold Obligations.MembersAnswerAndNotificationsForward
  refine ⟨?_, ?_, ?_, ?_⟩
  · intro s n k j m alt rest hk hfree htake hroom hcls htaint hcrc
    subst hk
    have hcopy : CopyServable s n.toNat j m alt rest := ⟨hfree, htake, hroom, hcls, htaint, hcrc⟩
    have hexec := hcopy.exec_eq
    refine ⟨fun a hdec => ?_, fun st deny miss hdec => ?_⟩ <;> rw [hdec, copyDecided] at hexec
    · have honly := copyPresented_niOnly s n.toNat j m alt rest a
      refine completes_of_niOnly hexec honly ⟨presented m a, ?_⟩
      rw [hcopy.getNi_copyPresented]
      exact ⟨mget_mset_same .., rfl, rfl, hcopy.presented_hdr a, honly⟩
    · obtain ⟨⟨l, hnote⟩, u, hanswers, hreq, hmembers⟩ := copyAnswered_spec (stat := st) (deny := deny) (miss := miss) n.isLt rfl
      exact completes_of_niNote hexec hnote
        ⟨memberMsg u n.toNat (memberOf m alt) 0x48 st, hanswers, rfl, rfl, rfl, rfl, rfl, hreq, hmembers, hnote.2.2⟩
  · intro s n k d e q hk hentry hdead hlate hopen hdue hroom
    subst hk
    obtain ⟨hnote, hflag, hni⟩ := memberExpire_spec s n.toNat e.toNat q
    refine completes_of_niNote (exec_memberTimeout hentry hdead hlate hopen hdue hroom) hnote ⟨memberMsg s n.toNat q 0x48 3, ?_⟩
    rw [hni]
    exact ⟨rfl, rfl, rfl, rfl, rfl, rfl, mget_mset_same .., rfl, hflag, hnote⟩
  · intro s n k m alt rest w hk hep htake hroom hcls htaint hcrc hup hw hon hsevere hplace
    subst hk
    have hnotify : NotifyServable s n.toNat m alt rest := ⟨hep, htake, hroom, hcls, htaint, hcrc, hup⟩
    have hexec := hnotify.exec_eq hw ⟨hon, hsevere, hplace⟩
    have hqueued := (reqTaken_niOnly s n.toNat rest).trans (recordQueued_niOnly _ n.toNat w)
    obtain ⟨hacked, g, hni, hopc, hdst, htag, haddr⟩ := notifyAcked_spec (recordQueued (reqTaken s n.toNat rest) n.toNat w) n.toNat m alt
    refine completes_of_niOnly hexec (hqueued.trans hacked) ⟨g, ?_⟩
    rw [hni, getNi_recordQueued_reqTaken]
    exact ⟨rfl, hopc, hdst, htag, haddr, rfl, rfl, hqueued.trans hacked⟩
  · intro s w rest hq hidle hfree hroom hup hact hrst
    obtain ⟨g, hreqs, hids, hntf, hothers, hall⟩ := recordForwarded_spec (rest := rest) (trk_length_lt_of_trkRoom hroom) rfl
    refine completes_of_answer (exec_ntfForward hq hidle hfree hroom hup hact hrst) (by rw [hall]) (by rw [hall]) (by rw [hall])
      ⟨forwardReq s w (some g), hreqs, hids, rfl, ?_, rfl, hntf, hothers, hall⟩
    exact toNat_dst_forwardMsg s w

end Sys2Proof.Machine
end

section
/-! SUPPORT. The canonical form of the register words (23 R473, log 33; for O59), and that the functions of Machine/Ops to Machine/AddrDec keep it. -/

namespace Sys2Proof.Machine

/-- Where the register words of s have the canonical form, those of t have it (log 33). -/
structure KeptForm (s t : State) : Prop where
  keeps : regsWf s.regs = true → regsWf t.regs = true

/-- The form of u is kept in t, though not on the way in s. -/
def MendsForm (u s t : State) : Prop := ¬ KeptForm u s ∧ KeptForm u t

/-- From s to t the form is kept, as a rule that simp can chain: what keeps the form up to s keeps it up to t. -/
abbrev FormStep (s t : State) : Prop := ∀ u, KeptForm u t ↔ KeptForm u s ∨ MendsForm u s t

theorem FormStep.of {s t : State} (h : KeptForm s t) : FormStep s t := by
  intro u
  have hchain : KeptForm u s → KeptForm u t := fun hu => ⟨fun hw => h.keeps (hu.keeps hw)⟩
  unfold MendsForm
  tauto

theorem FormStep.kept {s t : State} (h : FormStep s t) : KeptForm s t := (h s).mpr (.inl ⟨id⟩)

@[refl, simp] theorem KeptForm.refl (s : State) : KeptForm s s := ⟨id⟩

theorem KeptForm.trans {s t u : State} (h : KeptForm s t) (k : KeptForm t u) : KeptForm s u := ⟨fun hs => k.keeps (h.keeps hs)⟩

/-- A state that differs in no register word keeps the form. -/
@[simp] theorem keptForm_mk (u s : State) (gen time pendT nis rtrs spans eng jrn img pwr rst flt mmx cnt lcs ntf free pending) :
    KeptForm u (.mk gen time s.regs pendT nis rtrs spans eng jrn img pwr rst flt mmx cnt lcs ntf free pending) ↔ KeptForm u s := ⟨fun h => ⟨h.keeps⟩, fun h => ⟨h.keeps⟩⟩

@[simp] theorem keptForm_ite (c : Prop) [Decidable c] (u s t : State) :
    KeptForm u (if c then s else t) ↔ if c then KeptForm u s else KeptForm u t := by split <;> rfl

theorem KeptForm.ite {c : Prop} [Decidable c] {s t u : State} (ht : KeptForm s t) (hu : KeptForm s u) : KeptForm s (if c then t else u) := by
  split <;> assumption

theorem rising_filter {α : Type} (p : Nat × α → Bool) (m : Map α) : ∀ {lo : Nat}, rising lo m = true → rising lo (m.filter p) = true := by
  induction m with
  | nil => exact fun h => h
  | cons q r ih =>
    intro lo h
    simp only [rising, Bool.and_eq_true, decide_eq_true_eq] at h
    rw [List.filter_cons]
    split
    · simp only [rising, Bool.and_eq_true, decide_eq_true_eq]
      exact ⟨h.1, ih h.2⟩
    · exact ih (rising_mono r (by omega) h.2)

theorem noReset_filter (p : Nat × Word → Bool) (m : Map Word) (h : noReset m = true) : noReset (m.filter p) = true := by
  induction m with
  | nil => exact h
  | cons q r ih =>
    simp only [noReset, Bool.and_eq_true, decide_eq_true_eq] at h
    rw [List.filter_cons]
    split
    · simp only [noReset, Bool.and_eq_true, decide_eq_true_eq]
      exact ⟨h.1, ih h.2⟩
    · exact ih h.2

/-- Taking words off the list keeps the form. -/
theorem regsWf_filter (p : Nat × Word → Bool) (m : Map Word) (h : regsWf m = true) : regsWf (m.filter p) = true := by
  simp only [regsWf, Bool.and_eq_true] at h ⊢
  exact ⟨rising_filter p m h.1, noReset_filter p m h.2⟩

/-- A state that only lacks some of the register words keeps the form. -/
@[simp] theorem form_filter (s : State) (p : Nat × Word → Bool)
    (gen time pendT nis rtrs spans eng jrn img pwr rst flt mmx cnt lcs ntf free pending) :
    FormStep s (.mk gen time (s.regs.filter p) pendT nis rtrs spans eng jrn img pwr rst flt mmx cnt lcs ntf free pending) :=
  .of ⟨regsWf_filter p s.regs⟩

theorem KeptForm.foldl {α : Type} {f : State → α → State} (h : ∀ t x, KeptForm t (f t x)) (l : List α) (s : State) :
    KeptForm s (l.foldl f s) := by
  induction l generalizing s with
  | nil => exact .refl s
  | cons x l ih => exact (h s x).trans (ih _)

theorem KeptForm.foldl_snd {α β : Type} {f : β × State → α → β × State} (h : ∀ r x, KeptForm r.2 (f r x).2) (l : List α)
    (r : β × State) : KeptForm r.2 (l.foldl f r).2 := by
  induction l generalizing r with
  | nil => exact .refl r.2
  | cons x l ih => exact (h r x).trans (ih _)

@[simp] theorem form_foldl {α : Type} {f : State → α → State} (h : ∀ t x, KeptForm t (f t x)) (l : List α) (s : State) :
    FormStep s (l.foldl f s) := .of (.foldl h l s)

@[simp] theorem form_foldl_snd {α β : Type} {f : β × State → α → β × State} (h : ∀ r x, KeptForm r.2 (f r x).2) (l : List α)
    (r : β × State) : FormStep r.2 (l.foldl f r).2 := .of (.foldl_snd h l r)

/-- An outcome that, where it is a next state, keeps the form of s. -/
structure OutForm (s : State) (o : Host.Outcome State Fault Refusal) : Prop where
  kept : ∀ t, o = .next t → KeptForm s t

theorem OutForm.answer {s u : State} (h : KeptForm s u) : OutForm s (answer s u) := ⟨fun _ ht => by cases ht; exact ⟨h.keeps⟩⟩

theorem OutForm.answerFuse {s u : State} (h : KeptForm s u) : OutForm s (answerFuse s u) := ⟨fun _ ht => by cases ht; exact ⟨h.keeps⟩⟩

/-- An outcome that, where it is a state, keeps the form of s. -/
def OkForm (s : State) (e : Except Nat State) : Prop := ∀ t, e = .ok t → KeptForm s t

theorem OkForm.error {s : State} (c : Nat) : OkForm s (.error c) := fun _ ht => nomatch ht

theorem OkForm.ok {s t : State} (h : KeptForm s t) : OkForm s (.ok t) := fun _ ht => by
  cases ht
  exact h

theorem OkForm.ite {c : Prop} [Decidable c] {s : State} {e d : Except Nat State} (he : OkForm s e) (hd : OkForm s d) :
    OkForm s (if c then e else d) := by split <;> assumption

theorem OkForm.congr {s t : State} {e : Except Nat State} (h : KeptForm s t) (he : OkForm t e) : OkForm s e :=
  fun u hu => h.trans (he u hu)

/-- A step of a queued command keeps the form. -/
def StepKeepsForm (f : State → Cmd → Sub × State) : Prop := ∀ s c, KeptForm s (f s c).2

theorem StepKeepsForm.of_eq {f : State → Cmd → Sub × State} (h : StepKeepsForm f) {s t : State} {c : Cmd} {r : Sub}
    (hstep : f s c = (r, t)) : FormStep s t := by
  have hs := h s c
  rw [hstep] at hs
  exact .of hs

/-- Taking an answer of a job keeps the form. -/
def AnsKeepsForm (f : AnsFn) : Prop := ∀ s k j second fa data r, f s k j second fa data = some r → KeptForm s r.2

/-- Making a request of a job keeps the form. -/
def IssueKeepsForm (f : IssueFn) : Prop := ∀ s k j r, f s k j = some r → KeptForm s r.2

/-- What a failed request does to its job keeps the form. -/
def BadKeepsForm (f : State → Job → Bool → Nat → Job × State) : Prop := ∀ s j second fa, KeptForm s (f s j second fa).2

/-! The functions of Machine/Ops. -/

@[simp] theorem form_wr (s : State) (a : Nat) (v : Word) : FormStep s (wr s a v) := .of ⟨regsWf_wr s a v⟩
@[simp] theorem form_wrF (s : State) (a hi lo v : Nat) : FormStep s (wrF s a hi lo v) := .of (by simp [wrF])
@[simp] theorem form_setFlag (s : State) (a i : Nat) : FormStep s (setFlag s a i) := .of (by simp [setFlag])
@[simp] theorem form_incSat (s : State) (a d : Nat) : FormStep s (incSat s a d) := .of (by simp [incSat])
@[simp] theorem form_setNi (s : State) (n : Nat) (v : Ni) : FormStep s (setNi s n v) := .of (by simp [setNi])
@[simp] theorem form_updNi (s : State) (n : Nat) (f : Ni → Ni) : FormStep s (updNi s n f) := .of (by simp [updNi])
@[simp] theorem form_updPort (s : State) (n : Nat) (f : Port → Port) : FormStep s (updPort s n f) := .of (by simp [updPort])
@[simp] theorem form_updRtr (s : State) (x : Nat) (f : Rtr → Rtr) : FormStep s (updRtr s x f) := .of (by simp [updRtr])
@[simp] theorem form_updPlane (s : State) (p : Plane) (x : Nat) (f : RtrPlane → RtrPlane) :
    FormStep s (updPlane s p x f) := .of (by simp [updPlane])
@[simp] theorem form_updSpan (s : State) (p : Nat) (f : Span → Span) : FormStep s (updSpan s p f) := .of (by simp [updSpan])
@[simp] theorem form_takeFree (s : State) : FormStep s (takeFree s).2 := .of (by simp [takeFree])
@[simp] theorem form_portNote (s : State) (n sev : Nat) (r : Word) : FormStep s (portNote s n sev r) := .of (by simp [portNote])
@[simp] theorem form_fwdNote (s : State) (e : Note) : FormStep s (fwdNote s e) := .of (by simp [fwdNote])
@[simp] theorem form_logNote (s : State) (e : Note) : FormStep s (logNote s e) := .of (by simp [logNote])

@[simp] theorem form_routeNote (s : State) (e : Note) : FormStep s (routeNote s e) := by
  refine .of ?_
  unfold routeNote
  split <;> simp

@[simp] theorem form_keepLast (u t : State) (g : Nat) : FormStep t (keepLast u t g) := .of (by simp [keepLast])
@[simp] theorem form_fireThr (i old new : Nat) (s : State) (j : Nat) : FormStep s (fireThr i old new s j) := .of (by simp [fireThr])
@[simp] theorem form_bump (s : State) (i d : Nat) : FormStep s (bump s i d) := .of (by simp [bump])
@[simp] theorem form_evRtr (s : State) (x e d : Nat) : FormStep s (evRtr s x e d) := .of (by simp [evRtr])
@[simp] theorem form_evNi (s : State) (n e d : Nat) : FormStep s (evNi s n e d) := .of (by simp [evNi])
@[simp] theorem form_evSpn (s : State) (p e d : Nat) : FormStep s (evSpn s p e d) := .of (by simp [evSpn])
@[simp] theorem form_evEng (s : State) (g e d : Nat) : FormStep s (evEng s g e d) := .of (by simp [evEng])
@[simp] theorem form_raise (s : State) (e : Note) : FormStep s (raise s e) := .of (by simp [raise])
@[simp] theorem form_raiseG (s : State) (unit code sev info : Nat) :
    FormStep s (raiseG s unit code sev info) := .of (by simp [raiseG])
@[simp] theorem form_raiseNi (s : State) (n code sev info slice : Nat) :
    FormStep s (raiseNi s n code sev info slice) := .of (by simp [raiseNi])
@[simp] theorem form_raiseGFree (s : State) (unit code sev : Nat) :
    FormStep s (raiseGFree s unit code sev) := .of (by simp [raiseGFree])
@[simp] theorem form_raiseNiFree (s : State) (n code sev slice : Nat) :
    FormStep s (raiseNiFree s n code sev slice) := .of (by simp [raiseNiFree])

/-! The functions of Machine/NiCore. -/

@[simp] theorem form_stampMsg (s : State) (n : Nat) (m : Msg) : FormStep s (stampMsg s n m).2 := .of (by simp [stampMsg])
@[simp] theorem form_addProg (s : State) (n : Nat) (alt : Bool) (p : Plane) (ch : Nat) (fs : List Flit) :
    FormStep s (addProg s n alt p ch fs) := .of (by simp [addProg])

theorem form_startOwn {s t : State} {n : Nat} {o : OwnMsg} (h : startOwn s n o = some t) : FormStep s t := by
  refine .of ?_
  obtain ⟨q, -, rfl⟩ := Option.map_eq_some_iff.mp h
  simp

@[simp] theorem form_waitOwn (s : State) (n : Nat) (o : OwnMsg) : FormStep s (waitOwn s n o) := .of (by simp [waitOwn])

@[simp] theorem form_injectOwn (s : State) (n : Nat) (p : Plane) (m : Msg) (att : Option Bool) :
    FormStep s (injectOwn s n p m att) := by
  refine .of ?_
  unfold injectOwn
  dsimp only
  split
  · simp
  · cases h : startOwn s n ⟨p, m, att⟩ with
    | none => simp
    | some t => simp [form_startOwn h]

@[simp] theorem form_startOwns (s : State) (n : Nat) (p : Plane) : FormStep s (startOwns s n p) := .of (by simp [startOwns])

@[simp] theorem form_allocTrk (s : State) (n : Nat) (e : Trk) : FormStep s (allocTrk s n e).2 := by
  refine .of ?_
  unfold allocTrk
  split <;> simp

@[simp] theorem form_freeTrk (s : State) (n : Nat) (t : Tag) : FormStep s (freeTrk s n t) := .of (by simp [freeTrk])
@[simp] theorem form_pushErs (s : State) (n : Nat) (e : Egr) : FormStep s (pushErs s n e) := .of (by simp [pushErs])
@[simp] theorem form_pushErq (s : State) (n : Nat) (e : Egr) : FormStep s (pushErq s n e) := .of (by simp [pushErq])
@[simp] theorem form_sliceLog (s : State) (n k : Nat) (el1 el0 : Word) :
    FormStep s (sliceLog s n k el1 el0) := .of (by simp [sliceLog])
@[simp] theorem form_pwError (s : State) (n : Nat) (slice : Option Nat) (code stat opc tag addr : Nat) :
    FormStep s (pwError s n slice code stat opc tag addr) := .of (by simp [pwError])
@[simp] theorem form_niDiscard (s : State) (n : Nat) : FormStep s (niDiscard s n) := .of (by simp [niDiscard])
@[simp] theorem form_countStale (s : State) (n k : Nat) : FormStep s (countStale s n k) := .of (by simp [countStale])
@[simp] theorem form_defaultTarget (s : State) (n reason slice addr : Nat) :
    FormStep s (defaultTarget s n reason slice addr) := .of (by simp [defaultTarget])
@[simp] theorem form_wrSrcEnt (s : State) (n e : Nat) (v : BitVec 256) : FormStep s (wrSrcEnt s n e v) := .of (by simp [wrSrcEnt])
@[simp] theorem form_setHomeOut (s : State) (h : Nat) (l : List HomeWrite) :
    FormStep s (setHomeOut s h l) := .of (by simp [setHomeOut])
@[simp] theorem form_homeFail (s : State) (h fa : Nat) : FormStep s (homeFail s h fa) := .of (by simp [homeFail])
@[simp] theorem form_engAnswer (s : State) (code fa : Nat) (data : List Line) (stat : Nat) :
    FormStep s (engAnswer s code fa data stat) := .of (by simp [engAnswer])

/-! The functions of Machine/AddrDec. -/

@[simp] theorem form_sendFill (s : State) (n : Nat) (inst : BitVec 4) (x : BitVec 19) (tag : Tag) :
    FormStep s (sendFill s n inst x tag) := .of (by simp [sendFill])
@[simp] theorem form_etcNeed (s : State) (n : Nat) (inst : BitVec 4) (x : BitVec 19) :
    FormStep s (etcNeed s n inst x) := .of (by simp [etcNeed])

end Sys2Proof.Machine
end

section
/-! SUPPORT. The functions of an NI keep the form of the register words (for O59). -/

namespace Sys2Proof.Machine

/-! The functions of Machine/Ingress. -/

@[simp] theorem form_portAnswer (s : State) (n : Nat) (acc err : Bool) (code : Nat) :
    FormStep s (portAnswer s n acc err code) := .of (by simp [portAnswer])
@[simp] theorem form_expectBeats (s : State) (n : Nat) (d : RxDest) (count start nbytes : Nat) (piste : Bool) :
    FormStep s (expectBeats s n d count start nbytes piste) := .of (by simp [expectBeats])
@[simp] theorem form_holdHeader (s : State) (n : Nat) (piste : Bool) : FormStep s (holdHeader s n piste) := .of (by simp [holdHeader])

@[simp] theorem form_takeError (s : State) (n : Nat) (slice : Option Nat) (h : IngHdr) (raw : BitVec 128) (code : Nat) :
    FormStep s (takeError s n slice h raw code) := by
  refine .of ?_
  unfold takeError
  dsimp only
  repeat' split
  all_goals simp

@[simp] theorem form_takeTele (s : State) (n k : Nat) (h : IngHdr) : FormStep s (takeTele s n k h) := .of (by simp [takeTele])
@[simp] theorem form_takePtm (s : State) (n k : Nat) (h : IngHdr) : FormStep s (takePtm s n k h) := .of (by simp [takePtm])
@[simp] theorem form_enqueueReq (s : State) (n : Nat) (r : Req) : FormStep s (enqueueReq s n r) := .of (by simp [enqueueReq])

@[simp] theorem form_takeBest (s : State) (n k : Nat) (h : IngHdr) (fa : Nat) (device : Bool) (d : Option Dest) :
    FormStep s (takeBest s n k h fa device d) := by
  refine .of ?_
  unfold takeBest
  extract_lets dst bgt group m0 m ovs fill req0 r0 r t s1 s2 s3
  have ht : FormStep s t.2 := by
    refine .of ?_
    simp only [t]
    split <;> simp
  have h2 : FormStep s s2 := by
    refine .of ?_
    simp only [s2, s1]
    split <;> simp [ht]
  have h3 : FormStep s s3 := by
    refine .of ?_
    clear_value fill
    simp only [s3]
    split <;> simp [h2]
  simp [h3]

@[simp] theorem form_takeForward (s : State) (n k : Nat) (h : IngHdr) (m : Msg) (data : List Line × Bool) :
    FormStep s (takeForward s n k h m data) := .of (by simp [takeForward])
@[simp] theorem form_takePisteReq (s : State) (n k e c : Nat) (h : IngHdr) (device : Bool) (m : Msg) :
    FormStep s (takePisteReq s n k e c h device m).2.2 := .of (by simp [takePisteReq])

@[simp] theorem form_takePiste (s : State) (n k e : Nat) (h : IngHdr) (fa : Nat) (device : Bool) (tk : PisteTake) :
    FormStep s (takePiste s n k e h fa device tk) := by
  refine .of ?_
  unfold takePiste
  split <;> simp

@[simp] theorem form_takeOk (s : State) (n k : Nat) (h : IngHdr) : FormStep s (takeOk s n k h) := by
  refine .of ?_
  unfold takeOk
  dsimp only
  repeat' split
  all_goals simp

@[simp] theorem form_judgeHeader (s : State) (n : Nat) (raw : BitVec 128) : FormStep s (judgeHeader s n raw) := by
  refine .of ?_
  unfold judgeHeader
  dsimp only
  repeat' split
  all_goals simp

theorem execIngressRequest_form (n : NiId) (hdr : BitVec 128) (s : State) : OutForm s (execIngressRequest n hdr s) := .answer (by simp)
@[simp] theorem form_pisteGap (s : State) (n flow : Nat) : FormStep s (pisteGap s n flow) := .of (by simp [pisteGap])

@[simp] theorem form_badEnables (s : State) (n id : Nat) : FormStep s (badEnables s n id) := by
  refine .of ?_
  unfold badEnables
  dsimp only
  repeat' split
  all_goals simp

@[simp] theorem form_rqBeat (s : State) (n : Nat) (data : Line) (be : BitVec 64) (gap : Bool) :
    FormStep s (rqBeat s n data be gap) := by
  refine .of ?_
  unfold rqBeat
  dsimp only
  repeat' split
  all_goals simp

@[simp] theorem form_rsBeat (s : State) (n : Nat) (data : Line) (gap : Bool) : FormStep s (rsBeat s n data gap) := by
  refine .of ?_
  unfold rsBeat
  dsimp only
  repeat' split
  all_goals simp

theorem execIngressDataBeat_form (n : NiId) (rsp : Bool) (data : Line) (be : BitVec 64) (_last gap : Bool) (s : State) :
    OutForm s (execIngressDataBeat n rsp data be _last gap s) := .answer (by simp)

theorem execFenceStrobe_form (n : NiId) (rw pv : Bool) (pasid : BitVec 20) (id : BitVec 4) (s : State) :
    OutForm s (execFenceStrobe n rw pv pasid id s) := .answer (by
  dsimp only
  split <;> simp)

theorem execFenceSatisfied_form (n : NiId) (slice : BitVec 4) (s : State) : OutForm s (execFenceSatisfied n slice s) := .answer (by
  dsimp only
  split
  · simp
  · split
    · simp
    · split
      · simp
      · split
        · split <;> simp
        · simp
      · simp)

/-! The functions of Machine/Egress. -/

@[simp] theorem form_pushAnswer (s : State) (n : Nat) (m : Msg) (opc stat gcnt : Nat) :
    FormStep s (pushAnswer s n m opc stat gcnt) := .of (by simp [pushAnswer])
@[simp] theorem form_pushRspOn (s : State) (n : Nat) (m : Msg) (beats : Nat) (att : Option Bool) :
    FormStep s (pushRspOn s n m beats att) := .of (by simp [pushRspOn])
@[simp] theorem form_pushRsp (s : State) (n : Nat) (m : Msg) (beats : Nat) :
    FormStep s (pushRsp s n m beats) := .of (by simp [pushRsp])
@[simp] theorem form_sendMemberAnswer (s : State) (n : Nat) (e : Member) (opc stat : Nat) :
    FormStep s (sendMemberAnswer s n e opc stat) := .of (by simp [sendMemberAnswer])

@[simp] theorem form_memberDrain (s : State) (n : Nat) : FormStep s (memberDrain s n) := by
  refine .of ?_
  refine .foldl (fun t x => ?_) _ _
  dsimp only
  split <;> simp

@[simp] theorem form_rsTaken (s : State) (n : Nat) : FormStep s (rsTaken s n) := .of (by simp [rsTaken])
@[simp] theorem form_rsHeld (s : State) (n : Nat) : FormStep s (rsHeld s n) := .of (by simp [rsHeld])
@[simp] theorem form_expectRsp (s : State) (n : Nat) (d : RxDest) (count : Nat) (piste : Bool) :
    FormStep s (expectRsp s n d count piste) := .of (by simp [expectRsp])

theorem form_stageRsp {s t : State} {n e : Nat} {m : Msg} {pay lead : Nat} (h : stageRsp s n e m pay lead = some t) :
    FormStep s t := by
  refine .of ?_
  unfold stageRsp at h
  dsimp only at h
  split at h
  · cases h
  · rw [← Option.some.inj h]
    simp

@[simp] theorem form_rspBest (s : State) (n : Nat) (m : Msg) (beats : Nat) :
    FormStep s (rspBest s n m beats) := .of (by simp [rspBest])

@[simp] theorem form_rspRoute (s : State) (n : Nat) (h : IngRsp) (stat : Nat) : FormStep s (rspRoute s n h stat) := by
  refine .of ?_
  unfold rspRoute
  dsimp only
  split
  · split
    · split
      next hst => simp [form_stageRsp hst]
      · simp
    · split <;> simp
  · simp

@[simp] theorem form_birspIn (s : State) (n : Nat) (h : IngRsp) (stat : Nat) : FormStep s (birspIn s n h stat) := by
  refine .of ?_
  unfold birspIn
  dsimp only
  split <;> simp

@[simp] theorem form_d2hData (s : State) (n : Nat) (h : IngRsp) (stat : Nat) : FormStep s (d2hData s n h stat) := by
  refine .of ?_
  unfold d2hData
  split <;> simp

@[simp] theorem form_rspBad (s : State) (n : Nat) (h : IngRsp) : FormStep s (rspBad s n h) := .of (by simp [rspBad])
theorem execIngressResponse_form (n : NiId) (hdr : BitVec 128) (s : State) : OutForm s (execIngressResponse n hdr s) := .answer (by simp)
theorem execEgressCreditReturn_form (n : NiId) (rsp : Bool) (hg hb dg db : BitVec 2) (s : State) :
    OutForm s (execEgressCreditReturn n rsp hg hb dg db s) := .answer (by simp)

@[simp] theorem form_egrAfter (s : State) (n : Nat) (e : Egr) : FormStep s (egrAfter s n e) := by
  refine .of ?_
  unfold egrAfter
  repeat' split
  all_goals simp

theorem execEgressMessageStart_form (n : NiId) (rsp : Bool) (s : State) : OutForm s (execEgressMessageStart n rsp s) := .answer (by
  extract_lets m p gWait s1 count
  have h1 : FormStep s s1 := .of (by simp [s1])
  split
  · simp
  · split <;> simp [h1])

theorem execNtfRecordTaken_form (n : NiId) (s : State) : OutForm s (execNtfRecordTaken n s) := .answer (by simp)

/-! The functions of Machine/Sched. -/

@[simp] theorem form_chargeQ (s : State) (n : Nat) (p : Plane) (q cost : Nat) :
    FormStep s (chargeQ s n p q cost) := .of (by simp [chargeQ])
@[simp] theorem form_fcBegin (s : State) (n : Nat) (p : Plane) : FormStep s (fcBegin s n p) := .of (by simp [fcBegin])
@[simp] theorem form_chargeSc (s : State) (n k cost : Nat) : FormStep s (chargeSc s n k cost) := .of (by simp [chargeSc])
@[simp] theorem form_roundEnd (s : State) (n : Nat) (p : Plane) : FormStep s (roundEnd s n p) := .of (by simp [roundEnd])
@[simp] theorem form_wakes (s : State) (n : Nat) (p : Plane) : FormStep s (wakes s n p) := .of (by simp [wakes])
@[simp] theorem form_sleeps (s : State) (n : Nat) (p : Plane) : FormStep s (sleeps s n p) := .of (by simp [sleeps])

@[simp] theorem form_issueReq (s : State) (n : Nat) (r : Req) (m : Msg) : FormStep s (issueReq s n r m).2 := by
  refine .of ?_
  unfold issueReq
  dsimp only
  repeat' split
  all_goals simp

theorem form_startHead {s : State} {n : Nat} {p : Plane} {q : Nat} {m : Msg} {ch : Nat} {r : Msg × State}
    (h : startHead s n p q m ch = some r) : FormStep s r.2 := by
  refine .of ?_
  cases p with
  | req =>
    obtain ⟨r, -, rfl⟩ := Option.map_eq_some_iff.mp h
    dsimp only
    split <;> simp
  | rsp =>
    rw [← Option.some.inj h]
    simp

@[simp] theorem form_startMsg (s : State) (n : Nat) (p : Plane) (q : Nat) (m : Msg) (alt : Bool) (ch : Nat) :
    FormStep s (startMsg s n p q m alt ch) := by
  refine .of ?_
  unfold startMsg
  split
  next h => simp [form_startHead h]
  · simp

@[simp] theorem form_packHeads (s : State) (n : Nat) (p : Plane) (first : Msg) (ch : Nat) :
    FormStep s (packHeads s n p first ch).2 := by
  refine .of ?_
  unfold packHeads
  refine .foldl_snd (fun t q => ?_) _ ([], s)
  split
  · simp
  · split
    · split
      next h => simp [form_startHead h]
      · simp
    · simp

@[simp] theorem form_startPack (s : State) (n : Nat) (p : Plane) (q : Nat) (m : Msg) (alt : Bool) (ch : Nat) :
    FormStep s (startPack s n p q m alt ch) := by
  refine .of ?_
  unfold startPack
  dsimp only
  repeat' split
  all_goals simp

@[simp] theorem form_askFills (s : State) (n : Nat) : FormStep s (askFills s n) := by
  refine .of ?_
  unfold askFills
  refine .foldl (fun t q => ?_) _ _
  split
  · split <;> simp
  · simp

@[simp] theorem form_countHold (s : State) (n : Nat) : FormStep s (countHold s n) := .of (by simp [countHold])

theorem execMessageStart_form (n : NiId) (pl : Plane) (s : State) : OutForm s (execMessageStart n pl s) := .answer (by
  extract_lets m f s0 s1
  have h0 : FormStep s s0 := .of (by simp [s0, f])
  have h1 : FormStep s s1 := .of (by simp [s1, h0])
  split
  · simp
  · split
    · simp [h1]
    · exact h1.kept)

theorem form_answerGo {s t : State} {n : Nat} {a : Answer} (h : answerGo s n a = some t) : FormStep s t := by
  refine .of ?_
  unfold answerGo at h
  split at h
  · split at h
    · exact (form_stageRsp h).kept
    · split at h
      · cases h
      · rw [← Option.some.inj h]
        simp
  · split at h
    · cases h
    · rw [← Option.some.inj h]
      simp

theorem form_answerNext {s t : State} {n : Nat} {before after : List Answer} (h : answerNext s n before after = some t) :
    FormStep s t := by
  refine .of ?_
  induction after generalizing before with
  | nil => cases h
  | cons a rest ih =>
    unfold answerNext at h
    split at h
    next hgo =>
      simp [← Option.some.inj h, form_answerGo hgo]
    · exact ih h

theorem execAnswerListDequeue_form (n : NiId) (s : State) : OutForm s (execAnswerListDequeue n s) := .answer (by
  split
  next h => simp [form_answerNext h]
  · simp)

@[simp] theorem form_toRouterOn (h : BitVec 32) (s : State) (alt : Bool) (p : Plane) (f : Flit) (ch : Nat) :
    FormStep s (toRouterOn h s alt p f ch) := .of (by simp [toRouterOn])
@[simp] theorem form_toRouter (s : State) (n : Nat) (alt : Bool) (p : Plane) (f : Flit) (ch : Nat) :
    FormStep s (toRouter s n alt p f ch) := .of (by simp [toRouter])

@[simp] theorem form_sendPiece (s : State) (n : Nat) (alt : Bool) (p : Plane) (g : Prog) (fuel : Nat) :
    FormStep s (sendPiece s n alt p g fuel).2 := by
  induction fuel generalizing s g with
  | zero => exact .of (.refl s)
  | succ fuel ih =>
    refine .of ?_
    unfold sendPiece
    split
    · simp
    · dsimp only
      split
      · simp
      · simp [ih]

theorem execAttachmentPieceSend_form (n : NiId) (alt : Bool) (pl : Plane) (s : State) :
    OutForm s (execAttachmentPieceSend n alt pl s) := .answer (by
  dsimp only
  split
  · simp
  · split
    · simp
    · split <;> simp)

theorem execWheelBucketBegin_form (n : NiId) (s : State) : OutForm s (execWheelBucketBegin n s) := .answer (by simp)
@[simp] theorem form_launchLate (s : State) (n : Nat) : FormStep s (launchLate s n) := .of (by simp [launchLate])

theorem execPisteLaunch_form (n : NiId) (pl : Plane) (s : State) : OutForm s (execPisteLaunch n pl s) := .answer (by
  dsimp only
  split
  · simp
  · split
    · simp
    · split <;> simp)

@[simp] theorem form_deliverEnd (s : State) (n : Nat) (e : Trk) (g : Egr) (stat : Nat) (data : List Line) :
    FormStep s (deliverEnd s n e g stat data) := by
  refine .of ?_
  unfold deliverEnd
  split <;> simp

theorem execTrackerTimeout_form (n : NiId) (tag : Tag) (s : State) : OutForm s (execTrackerTimeout n tag s) := .answer (by
  dsimp only
  split <;> simp)

theorem execPwDeadline_form (n : NiId) (tag : Tag) (s : State) : OutForm s (execPwDeadline n tag s) := .answer (by
  dsimp only
  repeat' split
  all_goals simp)

theorem execMcQuarantineEnd_form (n : NiId) (tag : Tag) (s : State) : OutForm s (execMcQuarantineEnd n tag s) := .answer (by
  split
  · split
    · split <;> simp
    · simp
  · simp)

@[simp] theorem form_drainReg (s : State) (n : Nat) : FormStep s (drainReg s n) := .of (by simp [drainReg])
@[simp] theorem form_startDrain (s : State) (n : Nat) (discard : Bool) :
    FormStep s (startDrain s n discard) := .of (by simp [startDrain])
@[simp] theorem form_discardWrites (s : State) (n : Nat) (k : Option Nat) :
    FormStep s (discardWrites s n k).2 := .of (by simp [discardWrites])
theorem execDrainComplete_form (n : NiId) (s : State) : OutForm s (execDrainComplete n s) := .answer (by simp)
@[simp] theorem form_drainExpire (s : State) (m : Nat) : FormStep s (drainExpire s m) := .of (by simp [drainExpire])
theorem execDrainDeadline_form (n : NiId) (s : State) : OutForm s (execDrainDeadline n s) := .answer (by simp)

/-! The functions of Machine/NiRx. -/

@[simp] theorem form_deliverFlit (s : State) (n : Nat) (alt : Bool) (p : Plane) (f : Flit) :
    FormStep s (deliverFlit s n alt p f) := .of (by simp [deliverFlit])

/-- What the receive check keeps, whether the message is let in or dropped. -/
def RxKeepsForm (s : State) : RxCheck → Prop
  | .pass _ t => KeptForm s t
  | .drop t => KeptForm s t

theorem rxCheck_keepsForm (s : State) (n : Nat) (m : Msg) : RxKeepsForm s (rxCheck s n m) := by
  unfold rxCheck
  split
  · simp [RxKeepsForm]
  · split
    · simp [RxKeepsForm]
    · split
      · simp [RxKeepsForm]
      · dsimp only
        split <;> simp [RxKeepsForm]

theorem form_rxCheck_pass {s t : State} {n : Nat} {m m' : Msg} (h : rxCheck s n m = .pass m' t) : FormStep s t := by
  refine .of ?_
  have hrx := rxCheck_keepsForm s n m
  rw [h] at hrx
  exact hrx

theorem form_rxCheck_drop {s t : State} {n : Nat} {m : Msg} (h : rxCheck s n m = .drop t) : FormStep s t := by
  refine .of ?_
  have hrx := rxCheck_keepsForm s n m
  rw [h] at hrx
  exact hrx

@[simp] theorem form_twinJudge (s : State) (n : Nat) (m : Msg) : FormStep s (twinJudge s n m).2 := by
  refine .of ?_
  unfold twinJudge
  split
  · simp
  · split
    · simp
    · split <;> simp

@[simp] theorem form_denyLog (s : State) (n : Nat) (m : Msg) (reason : Nat) : FormStep s (denyLog s n m reason) := by
  refine .of ?_
  unfold denyLog
  split <;> simp

@[simp] theorem form_presentReq (s : State) (n : Nat) (m : Msg) (addr : Nat) :
    FormStep s (presentReq s n m addr) := .of (by simp [presentReq])

@[simp] theorem form_mirrorWrite (s : State) (n : Nat) (m : Msg) (r : TbtRow) : FormStep s (mirrorWrite s n m r) := by
  refine .of ?_
  unfold mirrorWrite
  split <;> simp

@[simp] theorem form_snoopLog (s : State) (n : Nat) (m : Msg) (deny : Option Nat) (miss : Bool) :
    FormStep s (snoopLog s n m deny miss) := by
  refine .of ?_
  unfold snoopLog
  split <;> simp

@[simp] theorem form_unicastSnoop (s : State) (n : Nat) (m : Msg) : FormStep s (unicastSnoop s n m) := by
  refine .of ?_
  unfold unicastSnoop
  split <;> simp

@[simp] theorem form_ringPiPut (s : State) (q : Nat) (v : BitVec 12) : FormStep s (ringPiPut s q v) := .of (by simp [ringPiPut])
@[simp] theorem form_ringRciPut (s : State) (q : Nat) (v : BitVec 12) : FormStep s (ringRciPut s q v) := .of (by simp [ringRciPut])
@[simp] theorem form_atService (s : State) (n : Nat) (m : Msg) (a : Nat) : FormStep s (atService s n m a) := .of (by simp [atService])

@[simp] theorem form_atTarget (s : State) (n : Nat) (m : Msg) : FormStep s (atTarget s n m) := by
  refine .of ?_
  unfold atTarget
  dsimp only
  repeat' split
  all_goals simp

theorem execRequestArriveAtTarget_form (n : NiId) (s : State) : OutForm s (execRequestArriveAtTarget n s) := .answer (by
  dsimp only
  split
  · simp
  · split
    · simp
    · split
      next hrx => simp [form_rxCheck_drop hrx]
      next hrx =>
        split
        · simp [form_rxCheck_pass hrx]
        · split <;> simp [form_rxCheck_pass hrx])

@[simp] theorem form_ackPosted (s : State) (n : Nat) (tag : Tag) (e : Trk) :
    FormStep s (ackPosted s n tag e) := .of (by simp [ackPosted])

@[simp] theorem form_mirrorAck (s : State) (n : Nat) (k : BitVec 12 × Tag) : FormStep s (mirrorAck s n k) := by
  refine .of ?_
  unfold mirrorAck
  repeat' split
  all_goals simp

@[simp] theorem form_completeReq (s : State) (n : Nat) (tag : Tag) (e : Trk) (m : Msg) :
    FormStep s (completeReq s n tag e m) := .of (by simp [completeReq])
@[simp] theorem form_forwardEnd (s : State) (stat : Nat) : FormStep s (forwardEnd s stat) := .of (by simp [forwardEnd])
@[simp] theorem form_gatherResult (s : State) (n : Nat) (tag : Tag) (e : Trk) (g : Nat) (m : Msg) :
    FormStep s (gatherResult s n tag e g m) := .of (by simp [gatherResult])

@[simp] theorem form_atRequester (s : State) (n : Nat) (m : Msg) : FormStep s (atRequester s n m) := by
  refine .of ?_
  unfold atRequester
  dsimp only
  repeat' split
  all_goals simp

theorem execResponseArriveAtRequester_form (n : NiId) (s : State) : OutForm s (execResponseArriveAtRequester n s) := .answer (by
  dsimp only
  split
  · simp
  · split
    next hrx => simp [form_rxCheck_drop hrx]
    next hrx => split <;> simp [form_rxCheck_pass hrx])

theorem execMcCopyAtMember_form (n : NiId) (s : State) : OutForm s (execMcCopyAtMember n s) := .answer (by
  dsimp only
  split
  · split
    next hrx => simp [form_rxCheck_drop hrx]
    next hrx => split <;> simp [form_rxCheck_pass hrx]
  · simp)

@[simp] theorem form_memberExpire (s : State) (n j : Nat) (e : Member) :
    FormStep s (memberExpire s n j e) := .of (by simp [memberExpire])

theorem execMemberTimeout_form (n : NiId) (e : BitVec 6) (s : State) : OutForm s (execMemberTimeout n e s) := .answer (by
  dsimp only
  repeat' split
  all_goals simp)

theorem form_notifyRecord {s t : State} (h : FormStep s t) (n : Nat) (m : Msg) (r : Word) : FormStep s (notifyRecord s t n m r) := by
  refine .of ?_
  unfold notifyRecord
  split
  · split
    next hrx => simp [form_rxCheck_pass hrx]
    next hrx => simp [form_rxCheck_drop hrx]
  · simp [h]

theorem execNotifyReceive_form (n : NiId) (s : State) : OutForm s (execNotifyReceive n s) := .answer (by
  dsimp only
  split
  · simp
  · split
    next hrx => simp [form_rxCheck_drop hrx]
    next hrx =>
      have ht := form_rxCheck_pass hrx
      split <;> simp [ht, form_notifyRecord ht])

@[simp] theorem form_endByFill (s : State) (n stat code : Nat) (r : Req) : FormStep s (endByFill s n stat code r) := by
  refine .of ?_
  unfold endByFill
  dsimp only
  split
  · split <;> simp
  · split
    · split <;> simp
    · simp

@[simp] theorem form_reachResolved (s : State) (n : Nat) (inst : BitVec 4) (x : BitVec 19) (d : BitVec 12) :
    FormStep s (reachResolved s n inst x d) := .of (by simp [reachResolved])

theorem execEtcFillAnswer_form (n : NiId) (s : State) : OutForm s (execEtcFillAnswer n s) := .answer (by
  dsimp only
  split
  · simp
  · split
    next hrx => simp [form_rxCheck_drop hrx]
    next hrx =>
      have ht := form_rxCheck_pass hrx
      split
      · simp [ht]
      · repeat' split
        all_goals simp [ht])

theorem execEtcFillTimeout_form (n : NiId) (inst : BitVec 4) (x : BitVec 19) (s : State) :
    OutForm s (execEtcFillTimeout n inst x s) := .answer (by
  dsimp only
  split <;> simp)

theorem execEtcFillResend_form (n : NiId) (inst : BitVec 4) (x : BitVec 19) (s : State) :
    OutForm s (execEtcFillResend n inst x s) := .answer (by
  dsimp only
  split <;> simp)

theorem execEtcInvalidate_form (n : NiId) (inst : BitVec 4) (x : BitVec 19) (s : State) :
    OutForm s (execEtcInvalidate n inst x s) := .answer (by simp)
@[simp] theorem form_etcFlush (s : State) (n : Nat) : FormStep s (etcFlush s n) := .of (by simp [etcFlush])
theorem execNiEtcFlush_form (n : NiId) (s : State) : OutForm s (execNiEtcFlush n s) := .answer (by simp)

end Sys2Proof.Machine
end

section
/-! SUPPORT. The functions of the mesh and the spans that suspend no flow keep the form of the register words (for O59). -/

namespace Sys2Proof.Machine

/-! The functions of Machine/Link. -/

@[simp] theorem form_setPortUp (s : State) (x : Nat) (p : Plane) (port : Nat) (v : Bool) :
    FormStep s (setPortUp s x p port v) := .of (by simp [setPortUp])

@[simp] theorem form_rteDiscard (s : State) (x : Nat) (m : Msg) (flag : Option Nat) : FormStep s (rteDiscard s x m flag) := by
  refine .of ?_
  unfold rteDiscard
  split <;> simp

@[simp] theorem form_wrSpnEnt (s : State) (p e : Nat) (v : BitVec 256) : FormStep s (wrSpnEnt s p e v) := .of (by simp [wrSpnEnt])
@[simp] theorem form_wrFlowEnt (s : State) (f : Flow) (v : BitVec 256) : FormStep s (wrFlowEnt s f v) := .of (by simp [wrFlowEnt])

@[simp] theorem form_retCredits (s : State) (p : Nat) (pl : Plane) (m : Msg) (n : Nat) :
    FormStep s (retCredits s p pl m n) := by
  refine .of ?_
  unfold retCredits
  split <;> simp

@[simp] theorem form_spanInject (s : State) (p : Nat) (pl : Plane) (m : Msg) :
    FormStep s (spanInject s p pl m) := .of (by simp [spanInject])
@[simp] theorem form_spanOwn (s : State) (p : Nat) (pl : Plane) (m : Msg) : FormStep s (spanOwn s p pl m) := .of (by simp [spanOwn])
@[simp] theorem form_flushMsg (s : State) (p : Nat) (m : Msg) : FormStep s (flushMsg s p m) := .of (by simp [flushMsg])
@[simp] theorem form_disposePiste (p : Nat) (s : State) (m : Msg) : FormStep s (disposePiste p s m) := .of (by simp [disposePiste])
@[simp] theorem form_spanSeq (s : State) (p : Nat) (m : Msg) : FormStep s (spanSeq s p m).2 := .of (by simp [spanSeq])
@[simp] theorem form_dropPiste (s : State) (p : Nat) : FormStep s (dropPiste s p) := .of (by simp [dropPiste])

@[simp] theorem form_handOver (s : State) (p q : Nat) : FormStep s (handOver s p q) := by
  refine .of ?_
  unfold handOver
  extract_lets x old new r s1
  have hr : FormStep s r.2 := form_foldl_snd (fun a m => by dsimp only; split <;> simp) new (old, s)
  simp [s1, hr]

@[simp] theorem form_graceFailover (s : State) : FormStep s (graceFailover s) := by
  refine .of ?_
  unfold graceFailover
  refine .foldl (fun t p => ?_) _ s
  split
  · split <;> simp
  · simp

@[simp] theorem form_spanTake (s : State) (p : Nat) (pl : Plane) (f : Flit) : FormStep s (spanTake s p pl f) := by
  refine .of ?_
  unfold spanTake
  dsimp only
  repeat' split
  all_goals simp

@[simp] theorem form_cutNeighbour (s : State) (x port : Nat) : FormStep s (cutNeighbour s x port) := by
  refine .of ?_
  unfold cutNeighbour
  split <;> simp

@[simp] theorem form_dropAtt (s : State) (n : Nat) (alt : Bool) : FormStep s (dropAtt s n alt) := .of (by simp [dropAtt])

/-! The functions of Machine/Mesh. -/

@[simp] theorem form_owe (s : State) (x : Nat) (pl : Plane) (out ch : Nat) : FormStep s (owe s x pl out ch) := .of (by simp [owe])

@[simp] theorem form_creditUp (s : State) (x : Nat) (pl : Plane) (port ch : Nat) : FormStep s (creditUp s x pl port ch) := by
  refine .of ?_
  unfold creditUp
  repeat' split
  all_goals simp

@[simp] theorem form_popBuf (s : State) (x : Nat) (pl : Plane) (key : Nat) : FormStep s (popBuf s x pl key) := .of (by simp [popBuf])
@[simp] theorem form_updRx (s : State) (x port : Nat) (far : Bool) (f : LinkRx → LinkRx) :
    FormStep s (updRx s x port far f) := by
  refine .of ?_
  unfold updRx
  repeat' split
  all_goals simp
@[simp] theorem form_wireError (s : State) (x : Nat) (pl : Plane) (port : Nat) (far : Bool) (bit : Nat) :
    FormStep s (wireError s x pl port far bit) := .of (by simp [wireError])
@[simp] theorem form_wireErrors (s : State) (x : Nat) (pl : Plane) (port : Nat) (far : Bool) (bits : List Nat) :
    FormStep s (wireErrors s x pl port far bits) := .of (by simp [wireErrors])
@[simp] theorem form_setDropping (s : State) (x : Nat) (pl : Plane) (port : Nat) (far : Bool) (ch : Nat) (v : Bool) :
    FormStep s (setDropping s x pl port far ch v) := .of (by simp [setDropping])
@[simp] theorem form_dropFlit (s : State) (x : Nat) (pl : Plane) (port : Nat) (far : Bool) (f : Flit) :
    FormStep s (dropFlit s x pl port far f) := .of (by simp [dropFlit])
@[simp] theorem form_dropFrom (s : State) (x : Nat) (pl : Plane) (port : Nat) (far : Bool) (f : Flit) :
    FormStep s (dropFrom s x pl port far f) := .of (by simp [dropFrom])
@[simp] theorem form_rtrCheck (s : State) (x : Nat) (pl : Plane) (port : Nat) (r : FlitRx) (ctl : EccErr) :
    FormStep s (rtrCheck s x pl port r ctl) := .of (by simp [rtrCheck])
@[simp] theorem form_headerDiscard (s : State) (x : Nat) (pl : Plane) (port : Nat) (r : FlitRx) :
    FormStep s (headerDiscard s x pl port r) := .of (by simp [headerDiscard])
@[simp] theorem form_contDrop (s : State) (x : Nat) (pl : Plane) (port : Nat) (f : Flit) :
    FormStep s (contDrop s x pl port f) := .of (by simp [contDrop])
@[simp] theorem form_presetMiss (s : State) (x ch : Nat) : FormStep s (presetMiss s x ch) := .of (by simp [presetMiss])
@[simp] theorem form_headerIn (s : State) (x : Nat) (pl : Plane) (port : Nat) (f : Flit) :
    FormStep s (headerIn s x pl port f) := .of (by simp [headerIn])
@[simp] theorem form_contIn (s : State) (x : Nat) (pl : Plane) (port : Nat) (f : Flit) :
    FormStep s (contIn s x pl port f) := .of (by simp [contIn])
@[simp] theorem form_flitIn (s : State) (x : Nat) (pl : Plane) (port : Nat) (r : FlitRx) :
    FormStep s (flitIn s x pl port r) := .of (by simp [flitIn])

@[simp] theorem form_countIn (s : State) (x : Nat) (pl : Plane) (port : Nat) (m : Msg) :
    FormStep s (countIn s x pl port m) := by
  refine .of ?_
  unfold countIn
  dsimp only
  split <;> simp

@[simp] theorem form_branchesLeft (s : State) (x port left : Nat) :
    FormStep s (branchesLeft s x port left) := .of (by simp [branchesLeft])

@[simp] theorem form_branchDiscard (s : State) (x port : Nat) : FormStep s (branchDiscard s x port) := by
  refine .of ?_
  unfold branchDiscard
  split <;> simp

@[simp] theorem form_discardStep (s : State) (x : Nat) (pl : Plane) (key : Nat) : FormStep s (discardStep s x pl key) := by
  refine .of ?_
  unfold discardStep
  dsimp only
  split
  · simp
  · repeat' split
    all_goals simp

@[simp] theorem form_gatherDiscard (s : State) (x : Nat) : FormStep s (gatherDiscard s x) := .of (by simp [gatherDiscard])

@[simp] theorem form_discardSteps (s : State) (x : Nat) (pl : Plane) : FormStep s (discardSteps s x pl) := by
  refine .of ?_
  unfold discardSteps
  split <;> simp

theorem execEscWaitExpire_form (pl : Plane) (x : RtrId) (port ch : BitVec 4) (s : State) :
    OutForm s (execEscWaitExpire pl x port ch s) := .answer (by
  dsimp only
  split <;> simp)

/-! The functions of Machine/Multicast. -/

@[simp] theorem form_gatherReady (s : State) (x e : Nat) (g : Gather) :
    FormStep s (gatherReady s x e g) := .of (by simp [gatherReady])
@[simp] theorem form_gatherShort (s : State) (x e : Nat) (g : Gather) :
    FormStep s (gatherShort s x e g) := .of (by simp [gatherShort])

theorem execMcCopyReplicate_form (x : RtrId) (port : BitVec 4) (s : State) : OutForm s (execMcCopyReplicate x port s) := .answer (by
  dsimp only
  repeat' split
  all_goals simp)

theorem execGatherAnswer_form (x : RtrId) (port : BitVec 4) (s : State) : OutForm s (execGatherAnswer x port s) := .answer (by
  dsimp only
  split
  · simp
  · split
    · simp
    · split
      · simp
      · split <;> simp)

theorem execGatherExpire_form (x : RtrId) (e : BitVec 8) (s : State) : OutForm s (execGatherExpire x e s) := .answer (by
  dsimp only
  split <;> simp)

theorem execNtfForward_form (s : State) : OutForm s (execNtfForward s) := .answer (by split <;> simp)

/-! The functions of Machine/Span. -/

@[simp] theorem form_txStart (s : State) (p : Nat) (t : SpanTx) : FormStep s (txStart s p t).2 := by
  refine .of ?_
  unfold txStart
  dsimp only
  repeat' split
  all_goals simp

@[simp] theorem form_fillMig (s : State) (p : Nat) (o : BitVec 3) (fuel : Nat) : FormStep s (fillMig s p o fuel).2 := by
  induction fuel generalizing s with
  | zero => exact .of (.refl s)
  | succ fuel ih =>
    refine .of ?_
    unfold fillMig
    dsimp only
    split
    · split
      · simp [ih]
      · simp
    · simp

@[simp] theorem form_fillOwn (s : State) (p fuel : Nat) : FormStep s (fillOwn s p fuel).2 := by
  induction fuel generalizing s with
  | zero => exact .of (.refl s)
  | succ fuel ih =>
    refine .of ?_
    unfold fillOwn
    dsimp only
    split
    · split
      · simp [ih]
      · simp
    · simp

@[simp] theorem form_fillSlots (s : State) (p : Nat) : FormStep s (fillSlots s p).2 := by
  refine .of ?_
  unfold fillSlots
  split <;> simp

@[simp] theorem form_emitLink (s : State) (p : Nat) (raw : BitVec 2048) (ev : Nat) :
    FormStep s (emitLink s p raw ev) := .of (by simp [emitLink])

@[simp] theorem form_sendCtl (s : State) (p : Nat) (idle : Bool) : FormStep s (sendCtl s p idle) := by
  refine .of ?_
  unfold sendCtl
  split <;> simp

theorem form_sendData {s t : State} {p : Nat} (h : sendData s p = some t) : FormStep s t := by
  refine .of ?_
  unfold sendData at h
  extract_lets q o mig f ret slots sds cr mg raw ms s1 at h
  split at h
  · cases h
  · split at h
    · cases h
    · rw [← Option.some.inj h]
      simp [s1, f]

theorem execLinkFlitSend_form (p : SpId) (s : State) : OutForm s (execLinkFlitSend p s) := .answer (by
  dsimp only
  split
  · simp
  · split
    · split
      · simp
      · split
        next h => exact (form_sendData h).kept
        · simp
    · simp
    · simp
    · simp
    · simp
    · rfl)

@[simp] theorem form_retrainStart (s : State) (p : Nat) (w : BitVec 2) :
    FormStep s (retrainStart s p w) := .of (by simp [retrainStart])

theorem execNakTimerExpire_form (p : SpId) (seq : BitVec 16) (s : State) : OutForm s (execNakTimerExpire p seq s) := .answer (by
  dsimp only
  split <;> simp)

theorem execSpnRetrain_form (p : SpId) (s : State) : OutForm s (execSpnRetrain p s) := .answer (by simp)
theorem execPhyDown_form (p : SpId) (s : State) : OutForm s (execPhyDown p s) := .answer (by simp)
theorem execPeerRetrainRequest_form (p : SpId) (wide : Bool) (s : State) :
    OutForm s (execPeerRetrainRequest p wide s) := .answer (by simp)
theorem execWidthCapDrop_form (p : SpId) (cap : BitVec 2) (s : State) : OutForm s (execWidthCapDrop p cap s) := .answer (by simp)
theorem execSpanKeyExpire_form (p : SpId) (s : State) : OutForm s (execSpanKeyExpire p s) := .answer (by simp)
theorem execGraceExpire_form (p : SpId) (s : State) : OutForm s (execGraceExpire p s) := .answer (by simp)
theorem execPhyUp_form (p : SpId) (s : State) : OutForm s (execPhyUp p s) := .answer (by simp)

@[simp] theorem form_ackIn (s : State) (p : Nat) (ak : BitVec 16) : FormStep s (ackIn s p ak) := by
  refine .of ?_
  unfold ackIn
  dsimp only
  split <;> simp

@[simp] theorem form_recordKey (s : State) (p : Nat) (m : Msg) : FormStep s (recordKey s p m) := .of (by simp [recordKey])
@[simp] theorem form_spanMsgIn (s : State) (p : Nat) (pl : Plane) (m : Msg) (fp mig : Bool) (oport : Nat) :
    FormStep s (spanMsgIn s p pl m fp mig oport) := .of (by simp [spanMsgIn])
@[simp] theorem form_slotIn (s : State) (p : Nat) (v : BitVec 640) (sd : Nat) (mig : Bool) (oport : Nat) :
    FormStep s (slotIn s p v sd mig oport) := .of (by simp [slotIn])
@[simp] theorem form_deliverLink (s : State) (p : Nat) (raw : BitVec 2048) :
    FormStep s (deliverLink s p raw) := .of (by simp [deliverLink])

@[simp] theorem form_drainRob (s : State) (p fuel : Nat) : FormStep s (drainRob s p fuel) := by
  induction fuel generalizing s with
  | zero => exact .of (.refl s)
  | succ fuel ih =>
    refine .of ?_
    unfold drainRob
    dsimp only
    split
    · simp [ih]
    · simp

@[simp] theorem form_dataIn (s : State) (p : Nat) (raw : BitVec 2048) : FormStep s (dataIn s p raw) := .of (by simp [dataIn])
@[simp] theorem form_tsyncRsp (s : State) (p t1 t2 t3 : Nat) : FormStep s (tsyncRsp s p t1 t2 t3) := .of (by simp [tsyncRsp])
@[simp] theorem form_initIn (s : State) (p : Nat) (w : BitVec 640) : FormStep s (initIn s p w) := .of (by simp [initIn])
@[simp] theorem form_resumeIn (s : State) (p : Nat) (next : BitVec 16) : FormStep s (resumeIn s p next) := .of (by simp [resumeIn])
@[simp] theorem form_widthPropIn (s : State) (p : Nat) (w : BitVec 2) : FormStep s (widthPropIn s p w) := .of (by simp [widthPropIn])

@[simp] theorem form_spanStage (s : State) (p : Nat) (m : Msg) (fp : Bool) : FormStep s (spanStage s p m fp) := by
  refine .of ?_
  unfold spanStage
  extract_lets cur c
  split
  · simp
  · refine .ite ?_ (by simp)
    split <;> simp

theorem execSpanPisteStage_form (p : SpId) (s : State) : OutForm s (execSpanPisteStage p s) := .answer (by
  dsimp only
  split
  · simp
  · split
    · simp
    · split <;> simp)

theorem execTsyncSend_form (p : SpId) (s : State) : OutForm s (execTsyncSend p s) := .answer (by simp)
theorem execTsyncLost_form (p : SpId) (s : State) : OutForm s (execTsyncLost p s) := .answer (by simp)

/-! The functions of Machine/Time. -/

@[simp] theorem form_timeCycle (s : State) : FormStep s (timeCycle s) := .of (by simp [timeCycle])
theorem execTickOutFall_form (s : State) : OutForm s (execTickOutFall s) := .answer (by simp)
theorem execPpsOutRise_form (s : State) : OutForm s (execPpsOutRise s) := .answer (by simp)
theorem execPpsOutFall_form (s : State) : OutForm s (execPpsOutFall s) := .answer (by simp)
@[simp] theorem form_timStep (s : State) (v : Word) : FormStep s (timStep s v) := .of (by simp [timStep])
theorem execTimStep_form (v : Word) (s : State) : OutForm s (execTimStep v s) := .answer (by simp)
@[simp] theorem form_timLock (s : State) : FormStep s (timLock s) := .of (by simp [timLock])
theorem execTimLock_form (s : State) : OutForm s (execTimLock s) := .answer (by simp)
@[simp] theorem form_timSlew (s : State) (v : BitVec 32) : FormStep s (timSlew s v) := .of (by simp [timSlew])
theorem execTimSlew_form (v : BitVec 32) (s : State) : OutForm s (execTimSlew v s) := .answer (by simp)
theorem execReferenceLoss_form (s : State) : OutForm s (execReferenceLoss s) := .answer (by simp)
theorem execReferenceStable_form (s : State) : OutForm s (execReferenceStable s) := .answer (by simp)
@[simp] theorem form_holdExit (s : State) : FormStep s (holdExit s) := .of (by simp [holdExit])
@[simp] theorem form_ppsAccept (s : State) (e : ℤ) : FormStep s (ppsAccept s e) := .of (by simp [ppsAccept])
theorem execPpsEdge_form (s : State) : OutForm s (execPpsEdge s) := .answer (by simp)
@[simp] theorem form_ppsRestart (old s : State) : FormStep s (ppsRestart old s) := .of (by simp [ppsRestart])
theorem execPpsLost_form (s : State) : OutForm s (execPpsLost s) := .answer (by simp)

/-! The functions of Machine/Route. -/

@[simp] theorem form_loadSlot (s : State) (rs e : Nat) : FormStep s (loadSlot s rs e) := .of (by simp [loadSlot])
@[simp] theorem form_keepGroups (s : State) : FormStep s (keepGroups s) := .of (by simp [keepGroups])
@[simp] theorem form_evSwitch (s : State) (x : Nat) : FormStep s (evSwitch s x) := .of (by simp [evSwitch])
@[simp] theorem form_switchSet (s : State) (rs hold : Nat) : FormStep s (switchSet s rs hold) := .of (by simp [switchSet])
@[simp] theorem form_releaseOld (s : State) : FormStep s (releaseOld s) := .of (by simp [releaseOld])
theorem execEpochRelease_form (s : State) : OutForm s (execEpochRelease s) := .answer (by split <;> simp)

end Sys2Proof.Machine
end

section
/-! SUPPORT. The functions of the engines keep the form of the register words, admission and release apart (for O59). -/

namespace Sys2Proof.Machine

/-! The functions of Machine/Admit. -/

@[simp] theorem form_addPresets (s : State) (id : Nat) (f : Flow) : FormStep s (addPresets s id f) := .of (by simp [addPresets])
@[simp] theorem form_dropPresets (s : State) (id : Nat) : FormStep s (dropPresets s id) := .of (by simp [dropPresets])

@[simp] theorem form_dropTwinRec (s : State) (id : Nat) (f : Flow) : FormStep s (dropTwinRec s id f) := by
  refine .of ?_
  unfold dropTwinRec
  split <;> simp

/-! The functions of Machine/NiReset. -/

@[simp] theorem form_dropSliceErs (s : State) (n k : Nat) : FormStep s (dropSliceErs s n k) := .of (by simp [dropSliceErs])
@[simp] theorem form_sliceResetStart (s : State) (n k : Nat) : FormStep s (sliceResetStart s n k) := .of (by simp [sliceResetStart])
@[simp] theorem form_sliceResetReq (s : State) (n k : Nat) : FormStep s (sliceResetReq s n k) := .of (by simp [sliceResetReq])
theorem execNiSlcRst_form (n : NiId) (mask : BitVec 16) (s : State) : OutForm s (execNiSlcRst n mask s) := .answer (by simp)
theorem execSliceResetEnd_form (n : NiId) (slice : BitVec 4) (s : State) : OutForm s (execSliceResetEnd n slice s) := .answer (by simp)
@[simp] theorem form_niRegReset (s : State) (n : Nat) : FormStep s (niRegReset s n) := .of (by simp [niRegReset])
@[simp] theorem form_clampQueue (s : State) (n q : Nat) : FormStep s (clampQueue s n q) := .of (by simp [clampQueue])
@[simp] theorem form_clampQueues (s : State) (p : Nat → Bool) : FormStep s (clampQueues s p) := .of (by simp [clampQueues])
@[simp] theorem form_answerMembers (s : State) (n : Nat) : FormStep s (answerMembers s n) := .of (by simp [answerMembers])
@[simp] theorem form_niSlicesReset (s : State) (n : Nat) : FormStep s (niSlicesReset s n) := .of (by simp [niSlicesReset])
@[simp] theorem form_niDiscardWrites (s : State) (n : Nat) : FormStep s (niDiscardWrites s n) := .of (by simp [niDiscardWrites])
@[simp] theorem form_niDataReset (s : State) (n : Nat) : FormStep s (niDataReset s n) := .of (by simp [niDataReset])
@[simp] theorem form_portResetBegin (s : State) (n : Nat) : FormStep s (portResetBegin s n) := .of (by simp [portResetBegin])
theorem execEpResetRequest_form (n : NiId) (s : State) : OutForm s (execEpResetRequest n s) := .answer (by simp)
theorem execEpRstInEpChange_form (n : NiId) (v : Bool) (s : State) : OutForm s (execEpRstInEpChange n v s) := .answer (by simp)
theorem execNiRstInRaise_form (n : NiId) (s : State) : OutForm s (execNiRstInRaise n s) := .answer (by simp)
theorem execEpRstReqEpFall_form (n : NiId) (s : State) : OutForm s (execEpRstReqEpFall n s) := .answer (by simp)
theorem execEpUpRaise_form (n : NiId) (s : State) : OutForm s (execEpUpRaise n s) := .answer (by simp)
theorem execRstStall_form (n : NiId) (s : State) : OutForm s (execRstStall n s) := .answer (by simp)
@[simp] theorem form_niResetBegin (s : State) (n cause : Nat) : FormStep s (niResetBegin s n cause) := .of (by simp [niResetBegin])
@[simp] theorem form_niResetMask (s : State) (w mask : Nat) : FormStep s (niResetMask s w mask) := .of (by simp [niResetMask])
theorem execGlbRstNi_form (m : Master) (w : BitVec 1) (mask : Word) (s : State) : OutForm s (execGlbRstNi m w mask s) := .answer (by simp)
theorem execEpClkLoss_form (n : NiId) (s : State) : OutForm s (execEpClkLoss n s) := .answer (by simp)

/-! The functions of Machine/EngCore. -/

@[simp] theorem form_updSlot (s : State) (k : Nat) (f : EngSlot → EngSlot) : FormStep s (updSlot s k f) := .of (by simp [updSlot])

@[simp] theorem form_evSlot (s : State) (k e d : Nat) : FormStep s (evSlot s k e d) := by
  refine .of ?_
  unfold evSlot
  split <;> simp

@[simp] theorem form_engSend (s : State) (n q code opc fa : Nat) (dst : Option (BitVec 12)) (nbytes : Nat) (data : List Line) :
    FormStep s (engSend s n q code opc fa dst nbytes data) := by
  refine .of ?_
  unfold engSend
  dsimp only
  repeat' split
  all_goals simp

@[simp] theorem form_slotSend (s : State) (k code opc fa : Nat) (dst : Option (BitVec 12)) (nbytes : Nat) (data : List Line) :
    FormStep s (slotSend s k code opc fa dst nbytes data) := .of (by simp [slotSend])

@[simp] theorem form_takeAnswer (s : State) (code : Nat) : FormStep s (takeAnswer s code).2 := by
  refine .of ?_
  unfold takeAnswer
  split <;> simp

theorem form_of_takeAnswer {s t : State} {code : Nat} {o : Option (Nat × List Line × Nat)} (h : takeAnswer s code = (o, t)) :
    FormStep s t := by
  have ht := form_takeAnswer s code
  rwa [h] at ht

@[simp] theorem form_updCmd (s : State) (key : Nat) (f : Cmd → Cmd) : FormStep s (updCmd s key f) := .of (by simp [updCmd])
@[simp] theorem form_addCmd (s : State) (c : Cmd) : FormStep s (addCmd s c) := .of (by simp [addCmd])
@[simp] theorem form_endCmd (s : State) (key status : Nat) : FormStep s (endCmd s key status) := .of (by simp [endCmd])

@[simp] theorem form_evDuty (s : State) (b e : Nat) : FormStep s (evDuty s b e) := by
  refine .of ?_
  unfold evDuty
  split <;> simp

@[simp] theorem form_endQueued (s : State) (b key status : Nat) : FormStep s (endQueued s b key status) := .of (by simp [endQueued])
@[simp] theorem form_failCmd (s : State) (key fa stat : Nat) : FormStep s (failCmd s key fa stat) := .of (by simp [failCmd])
@[simp] theorem form_wakeAll (s : State) : FormStep s (wakeAll s) := .of (by simp [wakeAll])
@[simp] theorem form_pushOn (s : State) (k : Nat) (jobs : List Job) : FormStep s (pushOn s k jobs).2 := .of (by simp [pushOn])

@[simp] theorem form_pushJobs (s : State) (key : Nat) : FormStep s (pushJobs s key) := by
  refine .of ?_
  unfold pushJobs
  repeat' split
  all_goals simp

@[simp] theorem form_updRing (s : State) (q : Nat) (f : Ring → Ring) : FormStep s (updRing s q f) := .of (by simp [updRing])
@[simp] theorem form_raiseRink (s : State) (b code sev info : Nat) :
    FormStep s (raiseRink s b code sev info) := .of (by simp [raiseRink])
@[simp] theorem form_raiseRinkFree (s : State) (b code sev : Nat) :
    FormStep s (raiseRinkFree s b code sev) := .of (by simp [raiseRinkFree])
@[simp] theorem form_wr128 (s : State) (a : Nat) (v : BitVec 128) : FormStep s (wr128 s a v) := .of (by simp [wr128])
@[simp] theorem form_wrEbt (s : State) (x data : Nat) : FormStep s (wrEbt s x data) := .of (by simp [wrEbt])
@[simp] theorem form_wrGrant (s : State) (i : Nat) (v : BitVec 128) : FormStep s (wrGrant s i v) := .of (by simp [wrGrant])
@[simp] theorem form_pendWord (s : State) (a : Nat) (v : Word) : FormStep s (pendWord s a v) := .of (by simp [pendWord])

/-! The functions of Machine/Journal. -/

@[simp] theorem form_jrnAdd (s : State) (r : Rec) : FormStep s (jrnAdd s r) := .of (by simp [jrnAdd])
@[simp] theorem form_setLp (s : State) (h off : Nat) (wrapped : Bool) : FormStep s (setLp s h off wrapped) := .of (by simp [setLp])
@[simp] theorem form_addHome (s : State) (h : Nat) (w : HomeWrite) : FormStep s (addHome s h w) := .of (by simp [addHome])
@[simp] theorem form_sendHome (s : State) (h : Nat) (w : HomeWrite) : FormStep s (sendHome s h w) := .of (by simp [sendHome])

@[simp] theorem form_pumpHome (s : State) (h fuel : Nat) : FormStep s (pumpHome s h fuel) := by
  induction fuel generalizing s with
  | zero => exact .of (.refl s)
  | succ fuel ih =>
    refine .of ?_
    unfold pumpHome
    split <;> simp [ih]

@[simp] theorem form_pumpHomes (s : State) : FormStep s (pumpHomes s) := .of (by simp [pumpHomes])
@[simp] theorem form_reserve (s : State) (h : Nat) : FormStep s (reserve s h) := .of (by simp [reserve])
@[simp] theorem form_groomStart (s : State) (key : Nat) : FormStep s (groomStart s key) := .of (by simp [groomStart])
@[simp] theorem form_submitGroom (s : State) : FormStep s (submitGroom s) := .of (by simp [submitGroom])
@[simp] theorem form_dropCkpt (s : State) : FormStep s (dropCkpt s) := .of (by simp [dropCkpt])
@[simp] theorem form_ckptTail (s : State) (c : Ckpt) : FormStep s (ckptTail s c) := .of (by simp [ckptTail])
@[simp] theorem form_commitRec (s : State) (r : Rec) : FormStep s (commitRec s r) := .of (by simp [commitRec])

@[simp] theorem form_commitLoop (s : State) (fuel : Nat) : FormStep s (commitLoop s fuel) := by
  induction fuel generalizing s with
  | zero => exact .of (.refl s)
  | succ fuel ih =>
    refine .of ?_
    unfold commitLoop
    split <;> simp [ih]

@[simp] theorem form_settleData (s : State) : FormStep s (settleData s) := .of (by simp [settleData])
@[simp] theorem form_ckptCommit (s : State) (c : Ckpt) : FormStep s (ckptCommit s c) := .of (by simp [ckptCommit])

@[simp] theorem form_jrnAdvance (s : State) : FormStep s (jrnAdvance s) := by
  refine .of ?_
  unfold jrnAdvance
  split <;> simp

@[simp] theorem form_appendRec (s : State) (r0 : Rec) : FormStep s (appendRec s r0) := .of (by simp [appendRec])
theorem execJournalAppend_form (s : State) : OutForm s (execJournalAppend s) := .answer (by split <;> simp)

@[simp] theorem form_homeAcked (s : State) (h : Nat) (w : HomeWrite) : FormStep s (homeAcked s h w) := by
  refine .of ?_
  unfold homeAcked
  split <;> simp

theorem execHomeWriteAck_form (h : BitVec 1) (s : State) : OutForm s (execHomeWriteAck h s) := .answer (by
  split
  · simp
  next htake => split <;> simp [form_of_takeAnswer htake])

theorem execHomeWriteRetry_form (h : BitVec 1) (s : State) : OutForm s (execHomeWriteRetry h s) := .answer (by
  dsimp only
  split <;> simp)

theorem execGroomNow_form (s : State) : OutForm s (execGroomNow s) := .answer (by simp)
@[simp] theorem form_homeReplace (s : State) (h : Nat) : FormStep s (homeReplace s h) := .of (by simp [homeReplace])
@[simp] theorem form_ebtRepairStart (s : State) (x : Nat) : FormStep s (ebtRepairStart s x) := .of (by simp [ebtRepairStart])

@[simp] theorem form_ebtRead (s : State) (x : Nat) : FormStep s (ebtRead s x).2 := by
  refine .of ?_
  unfold ebtRead
  dsimp only
  repeat' split
  all_goals simp

theorem execEbtRepairDone_form (x : BitVec 19) (h0 h1 : Option (BitVec 128)) (s : State) :
    OutForm s (execEbtRepairDone x h0 h1 s) := .answer (by split <;> simp)
theorem execJrnRecover_form (s : State) : OutForm s (execJrnRecover s) := .answer (by simp)
theorem execRecoveryStart_form (s : State) : OutForm s (execRecoveryStart s) := .answer (by simp)
theorem execHomeWaitTimeout_form (s : State) : OutForm s (execHomeWaitTimeout s) := .answer (by simp)

@[simp] theorem form_replay (s : State) (h0 h1 : HomeRead) (o0 o1 : Option Nat) (seq fuel count : Nat) :
    FormStep s (replay s h0 h1 o0 o1 seq fuel count).2 := by
  induction fuel generalizing s o0 o1 seq count with
  | zero => exact .of (.refl s)
  | succ fuel ih =>
    refine .of ?_
    unfold replay
    split
    · simp
    · simp [ih]

@[simp] theorem form_ebtClear (s : State) : FormStep s (ebtClear s) := .of (by simp [ebtClear])
@[simp] theorem form_tbtPut (s : State) (n x : Nat) (r : Option TbtRow) : FormStep s (tbtPut s n x r) := .of (by simp [tbtPut])
@[simp] theorem form_bgtPut (s : State) (n j : Nat) (r : Option BgtRow) : FormStep s (bgtPut s n j r) := .of (by simp [bgtPut])
@[simp] theorem form_rowPut (s : State) (n row : Nat) : FormStep s (rowPut s n row) := .of (by simp [rowPut])

@[simp] theorem form_rebuild (s : State) : FormStep s (rebuild s) := by
  refine .of ?_
  unfold rebuild
  extract_lets l s0 s1 s2 rows
  have h0 : FormStep s s0 := .of (by simp [s0])
  have h1 : FormStep s0 s1 := .of (by simp [s1])
  have h2 : FormStep s1 s2 := by
    refine .of ?_
    refine .foldl (fun t x => ?_) _ _
    dsimp only
    split
    · split <;> simp
    · simp
  simp [h2, h1, h0]

@[simp] theorem form_lpAfter (s : State) (h : Nat) (o : Option Nat) (count : Nat) : FormStep s (lpAfter s h o count) := by
  refine .of ?_
  unfold lpAfter
  split <;> simp

@[simp] theorem form_recEnd (s : State) (result src count : Nat) : FormStep s (recEnd s result src count) := .of (by simp [recEnd])

theorem execRecoveryDone_form (h0 h1 : HomeRead) (s : State) : OutForm s (execRecoveryDone h0 h1 s) := .answer (by
  dsimp only
  repeat' split
  all_goals simp)

/-! The functions of Machine/Jobs. -/

@[simp] theorem form_finishData (s : State) (key : Nat) : FormStep s (finishData s key) := by
  refine .of ?_
  unfold finishData
  split <;> simp

@[simp] theorem form_setRunning (s : State) (k : Nat) (j : Option Job) : FormStep s (setRunning s k j) := .of (by simp [setRunning])

@[simp] theorem form_takeJob (s : State) (k op : Nat) : FormStep s (takeJob s k op) := by
  refine .of ?_
  unfold takeJob
  dsimp only
  split <;> simp

theorem form_drainAnswers {f : AnsFn} {bad : State → Job → Bool → Nat → Job × State} (hf : AnsKeepsForm f) (hbad : BadKeepsForm bad)
    (s : State) (k fuel : Nat) : FormStep s (drainAnswers f bad s k fuel) := by
  induction fuel generalizing s with
  | zero => exact .of (.refl s)
  | succ fuel ih =>
    refine .of ?_
    unfold drainAnswers
    split
    · simp
    · dsimp only
      split
      · simp [ih]
      · split
        · simp [ih, FormStep.of (hbad _ _ _ _)]
        · split
          next h => simp [ih, FormStep.of (hf _ _ _ _ _ _ _ h)]
          · simp

theorem form_noBad : BadKeepsForm noBad := by
  intro s j second fa
  simp [noBad]

theorem form_serveJob {f : AnsFn} {bad : State → Job → Bool → Nat → Job × State} {issue : IssueFn} (hf : AnsKeepsForm f)
    (hbad : BadKeepsForm bad) (hissue : IssueKeepsForm issue) (op need : Nat) (s : State) (k : Nat) :
    KeptForm s (serveJob op need f bad issue s k) := by
  have hdrain : ∀ t fuel, FormStep t (drainAnswers f bad t k fuel) := fun t => form_drainAnswers hf hbad t k
  unfold serveJob
  split
  · simp
  · dsimp only
    split
    · simp
    · split
      · simp
      · split
        · simp [hdrain]
        · refine .ite (by simp [hdrain]) (.ite (by simp [hdrain]) ?_)
          split
          next h => simp [FormStep.of (hissue _ _ _ _ h), hdrain]
          · simp [hdrain]

theorem form_saniAnswer : AnsKeepsForm saniAnswer := by
  intro s k j second fa data r h
  unfold saniAnswer at h
  dsimp only at h
  repeat' split at h
  all_goals
    cases h
    simp

theorem form_saniIssue : IssueKeepsForm saniIssue := by
  intro s k j r h
  unfold saniIssue at h
  dsimp only at h
  split at h
  · split at h
    · obtain rfl := Option.some.inj h
      simp
    · cases h
  · split at h
    · obtain rfl := Option.some.inj h
      simp
    · cases h

theorem execSanitise_form (slot : BitVec 6) (s : State) : OutForm s (execSanitise slot s) :=
  .answer (form_serveJob form_saniAnswer form_noBad form_saniIssue ..)

theorem form_copyAnswer : AnsKeepsForm copyAnswer := by
  intro s k j second fa data r h
  unfold copyAnswer at h
  split at h
  · cases h
    rfl
  · split at h
    · cases h
      simp
    · cases h

theorem form_copyIssue : IssueKeepsForm copyIssue := by
  intro s k j r h
  unfold copyIssue at h
  split at h
  · injection h with h
    simp [← h]
  · cases h

theorem execCopy_form (slot : BitVec 6) (s : State) : OutForm s (execCopy slot s) :=
  .answer (form_serveJob form_copyAnswer form_noBad form_copyIssue ..)

theorem form_verAnswer : AnsKeepsForm verAnswer := by
  intro s k j second fa data r h
  unfold verAnswer at h
  dsimp only at h
  repeat' split at h
  all_goals
    cases h
    simp

theorem form_verBad : BadKeepsForm verBad := by
  intro s j second fa
  unfold verBad
  dsimp only
  split <;> simp

theorem form_verIssue (two : Bool) : IssueKeepsForm (verIssue two) := by
  intro s k j r h
  unfold verIssue at h
  dsimp only at h
  split at h
  · split at h
    · split at h
      · obtain rfl := Option.some.inj h
        simp
      · cases h
    · obtain rfl := Option.some.inj h
      simp
  · cases h

theorem execVerify_form (slot : BitVec 6) (s : State) : OutForm s (execVerify slot s) :=
  .answer (form_serveJob form_verAnswer form_verBad (form_verIssue _) ..)

theorem form_ackAnswer : AnsKeepsForm ackAnswer := by
  rintro s k j second fa data r ⟨⟩
  simp

theorem form_teleIssue : IssueKeepsForm teleIssue := by
  intro s k j r h
  unfold teleIssue at h
  dsimp only at h
  split at h
  · injection h with h
    simp [← h]
  · cases h

theorem execTelemetry_form (slot : BitVec 6) (s : State) : OutForm s (execTelemetry slot s) :=
  .answer (form_serveJob form_ackAnswer form_noBad form_teleIssue ..)

theorem form_groomIssue : IssueKeepsForm groomIssue := by
  intro s k j r h
  unfold groomIssue at h
  dsimp only at h
  split at h
  · cases h
  · split at h
    · cases h
    · split at h
      · injection h with h
        simp [← h]
      · split at h
        · cases h
        · injection h with h
          simp [← h]

theorem form_groomBad : BadKeepsForm groomBad := by
  intro s j second fa
  unfold groomBad
  dsimp only
  repeat' split
  all_goals simp

theorem execGroom_form (slot : BitVec 6) (s : State) : OutForm s (execGroom slot s) :=
  .answer (form_serveJob form_ackAnswer form_groomBad form_groomIssue ..)
@[simp] theorem form_mergeDiffs (s : State) (j : Job) : FormStep s (mergeDiffs s j) := .of (by simp [mergeDiffs])

@[simp] theorem form_jobEnded (s : State) (j : Job) : FormStep s (jobEnded s j) := by
  refine .of ?_
  unfold jobEnded
  extract_lets s1 s2 jrn s3
  have h2 : FormStep s s2 := .of (by simp [s2, s1])
  have h3 : FormStep s s3 := by
    refine .of ?_
    simp only [s3, jrn]
    split
    · split <;> simp [h2]
    · simp [h2]
  split
  · split <;> simp [h3]
  · simp [h3]

theorem execJobComplete_form (slot : BitVec 6) (s : State) : OutForm s (execJobComplete slot s) := .answer (by
  dsimp only
  repeat' split
  all_goals simp)

@[simp] theorem form_stealCount (s : State) (k : Nat) (theft : Bool) : FormStep s (stealCount s k theft) := by
  refine .of ?_
  unfold stealCount
  split <;> simp

theorem execWorkSteal_form (slot : BitVec 6) (s : State) : OutForm s (execWorkSteal slot s) := .answer (by
  dsimp only
  repeat' split
  all_goals simp)

theorem execParkWake_form (slot : BitVec 6) (s : State) : OutForm s (execParkWake slot s) := .answer (by simp)

@[simp] theorem form_replayJob (s : State) (k : Nat) : FormStep s (replayJob s k) := by
  refine .of ?_
  unfold replayJob
  split <;> simp

@[simp] theorem form_closeSlot (s : State) (k : Nat) : FormStep s (closeSlot s k) := .of (by simp [closeSlot])

@[simp] theorem form_restartAdmit (s : State) : FormStep s (restartAdmit s) := by
  refine .of ?_
  unfold restartAdmit
  split <;> simp

theorem execEngineFail_form (e : BitVec 7) (s : State) : OutForm s (execEngineFail e s) := .answer (by
  dsimp only
  repeat' split
  all_goals simp)

/-! The functions of Machine/Rings. -/

theorem execRingPiWrite_form (q : BitVec 4) (v : BitVec 12) (s : State) : OutForm s (execRingPiWrite q v s) := .answer (by simp)
theorem execRingRciWrite_form (q : BitVec 4) (v : BitVec 12) (s : State) : OutForm s (execRingRciWrite q v s) := .answer (by simp)

theorem execRingFetch_form (b : BitVec 3) (s : State) : OutForm s (execRingFetch b s) := .answer (by
  dsimp only
  repeat' split
  all_goals simp)

@[simp] theorem form_startData (s : State) (key : Nat) : FormStep s (startData s key) := by
  refine .of ?_
  unfold startData
  split <;> simp

@[simp] theorem form_startCmd (s : State) (q : Nat) (e : BitVec 512) : FormStep s (startCmd s q e) := .of (by simp [startCmd])
@[simp] theorem form_ciAdvance (s : State) (q : Nat) : FormStep s (ciAdvance s q) := .of (by simp [ciAdvance])

theorem execCommandArrive_form (q : BitVec 4) (s : State) : OutForm s (execCommandArrive q s) := .answer (by
  dsimp only
  split
  · simp
  next htake =>
    repeat' split
    all_goals simp [form_of_takeAnswer htake])

@[simp] theorem form_ringResetEnd (s : State) (q : Nat) : FormStep s (ringResetEnd s q) := .of (by simp [ringResetEnd])
@[simp] theorem form_engNotify (s : State) (n : Nat) (dst : BitVec 12) (r : Word) :
    FormStep s (engNotify s n dst r) := .of (by simp [engNotify])

theorem execCommandComplete_form (q : BitVec 4) (s : State) : OutForm s (execCommandComplete q s) := .answer (by
  dsimp only
  split <;> simp)

@[simp] theorem form_abortCmd (s : State) (key : Nat) : FormStep s (abortCmd s key) := by
  refine .of ?_
  unfold abortCmd
  dsimp only
  repeat' split
  all_goals simp

theorem execRingReset_form (q : BitVec 4) (s : State) : OutForm s (execRingReset q s) := .answer (by simp)
theorem execRingResume_form (q : BitVec 4) (s : State) : OutForm s (execRingResume q s) := .answer (by simp)

/-! The functions of Machine/Bind. -/

theorem form_runCtl {f : State → Cmd → Sub × State} (h : StepKeepsForm f) (op : Nat) (s : State) :
    KeptForm s (runCtl op f s) := by
  unfold runCtl
  split
  · split
    · split
      next hstep => simp [h.of_eq hstep]
      next hstep => simp [h.of_eq hstep]
    · simp
  · simp

@[simp] theorem form_bgtDrop (s : State) (n x : Nat) : FormStep s (bgtDrop s n x) := .of (by simp [bgtDrop])
@[simp] theorem form_invalidateAll (s : State) (x : Nat) : FormStep s (invalidateAll s x) := .of (by simp [invalidateAll])
@[simp] theorem form_invalAck (s : State) (x : Nat) : FormStep s (invalAck s x) := .of (by simp [invalAck])

@[simp] theorem form_bindStep (s : State) (key sub x ni dpa tag : Nat) (restore : Bool) :
    FormStep s (bindStep s key sub x ni dpa tag restore).2 := by
  refine .of ?_
  unfold bindStep
  extract_lets e v s1
  split
  · rw [apply_ite Prod.snd, apply_ite Prod.snd, apply_ite Prod.snd, apply_ite Prod.snd]
    refine .ite (by simp) (.ite (by simp) (.ite (by simp) (.ite ?_ (by simp [s1]))))
    split <;> simp [s1]
  · split <;> simp
  · split <;> simp

theorem execBind_form (s : State) : OutForm s (execBind s) := .answer (form_runCtl (fun t c => by simp) ..)
@[simp] theorem form_followSanitise (s : State) (c : Cmd) (x : Nat) (pattern : Word) :
    FormStep s (followSanitise s c x pattern) := .of (by simp [followSanitise])

@[simp] theorem form_unbindStep (s : State) (key sub x : Nat) : FormStep s (unbindStep s key sub x).2 := by
  refine .of ?_
  unfold unbindStep
  dsimp only
  split
  · split
    · simp
    · split
      · simp
      · split <;> simp
  · split <;> simp
  · split <;> simp
  · split <;> simp

theorem execUnbind_form (s : State) : OutForm s (execUnbind s) := .answer (by
  generalize hs1 : runCtl 0x11 _ s = s1
  have h1 : FormStep s s1 := by
    rw [← hs1]
    exact .of (form_runCtl (fun t c => by simp) ..)
  dsimp only
  split
  · refine .ite (by simp [h1]) (by simp [h1])
  · simp [h1])

@[simp] theorem form_shareRow (s : State) (a : ShareArg) (n row tag : Nat) :
    FormStep s (shareRow s a n row tag) := .of (by simp [shareRow])
@[simp] theorem form_grantFree (s : State) : FormStep s (grantFree s).2 := .of (by simp [grantFree])

@[simp] theorem form_shareRecs (s : State) (key : Nat) (a : ShareArg) (e : Ebt) (row : Nat) :
    FormStep s (shareRecs s key a e row) := by
  refine .of ?_
  unfold shareRecs
  extract_lets f s1 v
  have h1 : FormStep s s1 := by
    refine .of ?_
    simp only [s1, f]
    split
    · simp
    · simp
    · split <;> simp
  split <;> simp [h1]

@[simp] theorem form_shareStep (s : State) (key sub : Nat) (a : ShareArg) : FormStep s (shareStep s key sub a).2 := by
  refine .of ?_
  unfold shareStep
  extract_lets e row full idx s1 v s2
  have h2 : FormStep s s2 := .of (by simp [s2, s1])
  split
  · simp [apply_ite Prod.snd, h2]
  · split <;> simp
  · split <;> simp

theorem execShare_form (s : State) : OutForm s (execShare s) := .answer (form_runCtl (fun t c => by simp) ..)

theorem execSliceReset_form (s : State) : OutForm s (execSliceReset s) := .answer (form_runCtl (fun t c => by
  dsimp only
  split
  · simp
  · split <;> simp) ..)

@[simp] theorem form_tbtMark (s : State) (n x : Nat) (f : TbtRow → TbtRow) : FormStep s (tbtMark s n x f) := .of (by simp [tbtMark])
@[simp] theorem form_moveUndo (s : State) (x a b : Nat) : FormStep s (moveUndo s x a b) := .of (by simp [moveUndo])

theorem form_moveStep : StepKeepsForm moveStep := by
  intro s c
  unfold moveStep
  dsimp only
  split
  · repeat' split
    all_goals simp
  · repeat' split
    all_goals simp
  · split
    · simp
    next htake =>
      repeat' split
      all_goals simp [form_of_takeAnswer htake]
  · split
    · simp
    next htake => split <;> simp [form_of_takeAnswer htake]
  · split <;> simp
  · split <;> simp

theorem execMove_form (s : State) : OutForm s (execMove s) := .answer (form_runCtl (fun t c => by
  dsimp only
  split
  · simp [FormStep.of (form_moveStep _ _)]
  · exact form_moveStep t c) ..)

theorem execMoveMirrorExpire_form (n : NiId) (x : BitVec 19) (s : State) : OutForm s (execMoveMirrorExpire n x s) := .answer (by
  dsimp only
  repeat' split
  all_goals simp)

@[simp] theorem form_submitOrphan (s : State) (n : Nat) : FormStep s (submitOrphan s n) := .of (by simp [submitOrphan])

@[simp] theorem form_orphanStep (s : State) (c : Cmd) : FormStep s (orphanStep s c).2 := by
  refine .of ?_
  unfold orphanStep
  dsimp only
  split
  · split <;> simp
  · split <;> simp
  · split <;> simp

theorem execExtentOrphan_form (n : NiId) (s : State) : OutForm s (execExtentOrphan n s) := .answer (by
  split
  · split
    · exact form_runCtl (fun t c => (form_orphanStep t c).kept) ..
    · simp
  · simp)

@[simp] theorem form_admResult (s : State) (key : Nat) (r : AdmRes) : FormStep s (admResult s key r).2 := by
  refine .of ?_
  unfold admResult
  split <;> simp

/-! The functions of Machine/FmApi. -/

@[simp] theorem form_fmRespond (s : State) (c : Cmd) (code : Nat) (vals : List Nat) :
    FormStep s (fmRespond s c code vals).2 := .of (by simp [fmRespond])

theorem form_fmStep {f : State → Cmd → Sub × State} (h : StepKeepsForm f) : StepKeepsForm (fmStep f) := by
  intro s c
  unfold fmStep
  dsimp only
  split
  · split
    · simp
    · split <;> simp
  · split
    · simp
    next htake => split <;> simp [form_of_takeAnswer htake]
  · split
    · simp
    · split <;> simp
  · split
    · simp
    next htake => split <;> simp [form_of_takeAnswer htake]
  · exact h s c

theorem form_runFm {f : State → Cmd → Sub × State} (h : StepKeepsForm f) (ok : Nat → Bool) (s : State) :
    KeptForm s (runFm ok f s) := by
  unfold runFm
  split
  · split
    · exact form_runCtl (form_fmStep h) ..
    · simp
  · simp

theorem execFmIdentify_form (s : State) : OutForm s (execFmIdentify s) := .answer (form_runFm (fun t c => by simp) ..)
theorem execFmBackgroundOperationStatus_form (s : State) : OutForm s (execFmBackgroundOperationStatus s) :=
  .answer (form_runFm (fun t c => by split <;> simp) ..)
theorem execFmGetDcdInfo_form (s : State) : OutForm s (execFmGetDcdInfo s) := .answer (form_runFm (fun t c => by simp) ..)
theorem execFmGetDcRegionExtentLists_form (s : State) : OutForm s (execFmGetDcRegionExtentLists s) :=
  .answer (form_runFm (fun t c => by split <;> simp) ..)

@[simp] theorem form_fmNext (s : State) (c : Cmd) (rest : List Nat) : FormStep s (fmNext s c rest).2 := by
  refine .of ?_
  unfold fmNext
  split <;> simp

@[simp] theorem form_fmRefused (s : State) (c : Cmd) : FormStep s (fmRefused s c).2 := .of (by simp [fmRefused])

theorem form_of_bindStep {s t : State} {key sub x ni dpa tag : Nat} {restore : Bool} {r : Sub}
    (h : bindStep s key sub x ni dpa tag restore = (r, t)) : FormStep s t := by
  have ht := form_bindStep s key sub x ni dpa tag restore
  rwa [h] at ht

theorem form_of_shareStep {s t : State} {key sub : Nat} {a : ShareArg} {r : Sub} (h : shareStep s key sub a = (r, t)) :
    FormStep s t := by
  have ht := form_shareStep s key sub a
  rwa [h] at ht

theorem form_fmAddStep : StepKeepsForm fmAddStep := by
  intro s c
  unfold fmAddStep
  dsimp only
  split
  · split <;> simp
  · split
    · split
      · split
        · simp
        · split
          next h => exact (form_of_bindStep h).kept
          next h => exact (form_of_bindStep h).kept
          next h => simp [form_of_bindStep h]
      · split
        · simp
        · split
          next h => exact (form_of_shareStep h).kept
          next h => simp [form_of_shareStep h]
          next h => simp [form_of_shareStep h]
    · simp

theorem execFmInitiateDcAdd_form (s : State) : OutForm s (execFmInitiateDcAdd s) := .answer (form_runFm form_fmAddStep ..)

theorem form_of_unbindStep {s t : State} {key sub x : Nat} {r : Sub} (h : unbindStep s key sub x = (r, t)) : FormStep s t := by
  have ht := form_unbindStep s key sub x
  rwa [h] at ht

theorem form_fmReleaseStep : StepKeepsForm fmReleaseStep := by
  intro s c
  unfold fmReleaseStep
  split
  · split <;> simp
  · split
    · split
      next h => exact (form_of_unbindStep h).kept
      next h => simp [form_of_unbindStep h]
      next h => simp [form_of_unbindStep h]
    · simp

theorem execFmInitiateDcRelease_form (s : State) : OutForm s (execFmInitiateDcRelease s) := .answer (form_runFm form_fmReleaseStep ..)
theorem execFmUnsupported_form (s : State) : OutForm s (execFmUnsupported s) := .answer (form_runFm (fun t c => by simp) ..)

end Sys2Proof.Machine
end

section
/-! SUPPORT. The functions of power, faults and images that touch no flow keep the form of the register words (for O59). -/

namespace Sys2Proof.Machine

/-! The functions of Machine/Power. -/

@[simp] theorem form_driveVid (s : State) (code : Nat) (wait : Bool) : FormStep s (driveVid s code wait) := .of (by simp [driveVid])
@[simp] theorem form_raiseMargin (s : State) (l v : Nat) : FormStep s (raiseMargin s l v) := .of (by simp [raiseMargin])

@[simp] theorem form_setRegion (s : State) (kind i st : Nat) : FormStep s (setRegion s kind i st) := by
  refine .of ?_
  unfold setRegion
  split <;> simp

@[simp] theorem form_setHomeAt (s : State) (n x : Nat) : FormStep s (setHomeAt s n x) := .of (by simp [setHomeAt])
@[simp] theorem form_setHome (s : State) (n : Nat) : FormStep s (setHome s n) := .of (by simp [setHome])

@[simp] theorem form_setLinks (s : State) (x : Nat) (up : Bool) : FormStep s (setLinks s x up) := by
  refine .of ?_
  refine .foldl (fun t x => ?_) _ _
  dsimp only
  split <;> simp

@[simp] theorem form_freshLinks (s : State) (x : Nat) : FormStep s (freshLinks s x) := by
  refine .of ?_
  refine .foldl (fun t x => ?_) _ _
  dsimp only
  split <;> simp

@[simp] theorem form_attReset (s : State) (n : Nat) (alt : Bool) : FormStep s (attReset s n alt) := .of (by simp [attReset])
@[simp] theorem form_attResetCol (s : State) (c n : Nat) : FormStep s (attResetCol s c n) := .of (by simp [attResetCol])
@[simp] theorem form_clampCol (s : State) (c : Nat) : FormStep s (clampCol s c) := .of (by simp [clampCol])
@[simp] theorem form_clampNi (s : State) (n : Nat) : FormStep s (clampNi s n) := .of (by simp [clampNi])
@[simp] theorem form_wordsReset (s : State) (base size : Nat) (p : Nat → Bool) :
    FormStep s (wordsReset s base size p) := .of (by simp [wordsReset])
@[simp] theorem form_rtrFlags (s : State) (c : Nat) : FormStep s (rtrFlags s c) := .of (by simp [rtrFlags])

@[simp] theorem form_loseRegion (s : State) (kind i : Nat) : FormStep s (loseRegion s kind i) := by
  refine .of ?_
  unfold loseRegion
  split <;> simp

@[simp] theorem form_pwrResult (s : State) (r : BitVec 24) (code : Nat) : FormStep s (pwrResult s r code) := .of (by simp [pwrResult])
@[simp] theorem form_pwrOutcome (s : State) (r : BitVec 24) (code : Nat) :
    FormStep s (pwrOutcome s r code) := .of (by simp [pwrOutcome])

@[simp] theorem form_moveJobs (s : State) (b : Nat) : FormStep s (moveJobs s b) := by
  refine .of ?_
  unfold moveJobs
  refine .foldl (fun t j => .foldl (fun u job => ?_) _ _) _ _
  split <;> simp

@[simp] theorem form_drainHandshake (s : State) (n : Nat) : FormStep s (drainHandshake s n) := .of (by simp [drainHandshake])
@[simp] theorem form_setPhase (s : State) (ph : Nat) : FormStep s (setPhase s ph) := .of (by simp [setPhase])

@[simp] theorem form_drainBegin (s : State) (q : PwrReq) : FormStep s (drainBegin s q) := by
  refine .of ?_
  unfold drainBegin
  split <;> simp

/-- A request that starts: the branches of 16 R351, R353, R355 and R360. -/
theorem pwrTry_keepsForm (s : State) (q : PwrReq) : OkForm s (pwrTry s q) := by
  refine .ite (.error _) (.ite ?level (.ite (.error _) (.ite (.error _) (.ite ?wake ?sleep))))
  case level =>
    exact .ite (.error _) (.ite (.error _) (.ite (.ok (by simp)) (.ok (.ite (by simp) (by simp)))))
  case wake => exact .ite (.error _) (.ite (.ok (by simp)) (.ite (.ok (by simp)) (.ok (by simp))))
  case sleep =>
    split
    · exact .error _
    · refine .ite (.ite (.ok (by simp)) (.ok (by simp))) (.ok ?_)
      dsimp only
      split <;> simp

@[simp] theorem form_pwrFinish (s : State) (r : BitVec 24) (code : Nat) (agedown : Bool) :
    FormStep s (pwrFinish s r code agedown) := .of (by simp [pwrFinish])

@[simp] theorem form_pwrNext (s : State) (fuel : Nat) : FormStep s (pwrNext s fuel) := by
  induction fuel generalizing s with
  | zero => exact .of (.refl s)
  | succ fuel ih =>
    refine .of ?_
    unfold pwrNext
    split
    · simp
    · split
      · dsimp only
        split
        next h => exact .trans (by simp) (pwrTry_keepsForm _ _ _ h)
        · simp [ih]
      · split
        · dsimp only
          split
          next h => exact .trans (by simp) (pwrTry_keepsForm _ _ _ h)
          · simp [ih]
        · simp

@[simp] theorem form_pwrEnd (s : State) (code : Nat) : FormStep s (pwrEnd s code) := by
  refine .of ?_
  unfold pwrEnd
  split <;> simp

@[simp] theorem form_pwrWrite (s : State) (r : BitVec 24) : FormStep s (pwrWrite s r) := by
  refine .of ?_
  unfold pwrWrite
  split <;> simp

@[simp] theorem form_pwrCmd (s : State) (m : Master) (req : BitVec 32) (action : Nat) :
    FormStep s (pwrCmd s m req action) := .of (by simp [pwrCmd])
theorem execPwrSetLevel_form (m : Master) (req : BitVec 32) (s : State) : OutForm s (execPwrSetLevel m req s) := .answer (by simp)
theorem execPwrCg_form (m : Master) (req : BitVec 32) (s : State) : OutForm s (execPwrCg m req s) := .answer (by simp)
theorem execPwrRet_form (m : Master) (req : BitVec 32) (s : State) : OutForm s (execPwrRet m req s) := .answer (by simp)
theorem execPwrOff_form (m : Master) (req : BitVec 32) (s : State) : OutForm s (execPwrOff m req s) := .answer (by simp)
theorem execPwrWake_form (m : Master) (req : BitVec 32) (s : State) : OutForm s (execPwrWake m req s) := .answer (by simp)
@[simp] theorem form_marginDone (s : State) : FormStep s (marginDone s) := .of (by simp [marginDone])
theorem execPwrPgood_form (s : State) : OutForm s (execPwrPgood s) := .answer (by split <;> simp)
theorem execVrTimeout_form (s : State) : OutForm s (execVrTimeout s) := .answer (by split <;> simp)
@[simp] theorem form_colBack (s : State) (c : Nat) : FormStep s (colBack s c) := .of (by simp [colBack])

@[simp] theorem form_entryFails (s : State) (q : PwrReq) (code : Nat) : FormStep s (entryFails s q code) := by
  refine .of ?_
  unfold entryFails
  split <;> simp

@[simp] theorem form_entryClamp (s : State) (q : PwrReq) : FormStep s (entryClamp s q) := by
  refine .of ?_
  unfold entryClamp
  dsimp only
  repeat' split
  all_goals simp

theorem execRegionDrainDone_form (s : State) : OutForm s (execRegionDrainDone s) := .answer (by split <;> simp)
@[simp] theorem form_niDiscardAll (s : State) (n : Nat) : FormStep s (niDiscardAll s n) := .of (by simp [niDiscardAll])
@[simp] theorem form_closeRun (s : State) (k : Nat) :
    FormStep s (execRegionDrainDeadline.closeRun s k) := .of (by simp [execRegionDrainDeadline.closeRun])

theorem execRegionDrainDeadline_form (s : State) : OutForm s (execRegionDrainDeadline s) := .answer (by
  split
  · split
    · simp
    · dsimp only
      split
      · simp
      · split <;> simp
      · split
        · simp
        · split <;> simp
  · rfl)

theorem execRegionEntryDone_form (s : State) : OutForm s (execRegionEntryDone s) := .answer (by split <;> simp)
theorem execRegionWakeReady_form (s : State) : OutForm s (execRegionWakeReady s) := .answer (by split <;> simp)
@[simp] theorem form_niReturns (s : State) (n : Nat) (lost : Bool) : FormStep s (niReturns s n lost) := .of (by simp [niReturns])

@[simp] theorem form_rejoin (s : State) (q : PwrReq) : FormStep s (rejoin s q) := by
  refine .of ?_
  unfold rejoin
  dsimp only
  split <;> simp

@[simp] theorem form_pwrStep2 (s : State) : FormStep s (pwrStep2 s) := by
  refine .of ?_
  unfold pwrStep2
  dsimp only
  repeat' split
  all_goals simp

@[simp] theorem form_pwrRejoin (s : State) : FormStep s (pwrRejoin s) := by
  refine .of ?_
  unfold pwrRejoin
  split <;> simp

@[simp] theorem form_ageRestart (s : State) : FormStep s (ageRestart s) := .of (by simp [ageRestart])

@[simp] theorem form_pwrStep5 (s : State) : FormStep s (pwrStep5 s) := by
  refine .of ?_
  unfold pwrStep5
  split <;> simp

@[simp] theorem form_marginDue (s : State) (m : Nat) : FormStep s (marginDue s m) := by
  refine .of ?_
  unfold marginDue
  dsimp only
  repeat' split
  all_goals simp

@[simp] theorem form_ageMeasure (s : State) (m v : Nat) : FormStep s (ageMeasure s m v) := .of (by simp [ageMeasure])

@[simp] theorem form_ageTick (s : State) (slacks : List (BitVec 6)) : FormStep s (ageTick s slacks) := by
  refine .of ?_
  unfold ageTick
  dsimp only
  split <;> simp

/-! The functions of Machine/Faults. -/

@[simp] theorem form_wireSteerAt (s : State) (pl : Plane) (x port g : Nat) (far : Bool) :
    FormStep s (wireSteerAt s pl x port g far) := by
  refine .of ?_
  unfold wireSteerAt
  dsimp only
  split <;> simp

@[simp] theorem form_wireCountEnd (s : State) (pl : Plane) (x port g : Nat) (far : Bool) :
    FormStep s (wireCountEnd s pl x port g far) := .of (by simp [wireCountEnd])
theorem execWireSteer_form (pl : Plane) (x : RtrId) (port : BitVec 4) (g : BitVec 3) (s : State) :
    OutForm s (execWireSteer pl x port g s) := .answer (by simp)
theorem execWireCountExpire_form (pl : Plane) (x : RtrId) (port : BitVec 4) (g : BitVec 3) (s : State) :
    OutForm s (execWireCountExpire pl x port g s) := .answer (by simp)
@[simp] theorem form_rehome (s : State) (x : Nat) : FormStep s (rehome s x) := .of (by simp [rehome])
theorem execRehomeDone_form (s : State) : OutForm s (execRehomeDone s) := .answer (by simp)
@[simp] theorem form_caseEnd (s : State) : FormStep s (caseEnd s) := .of (by simp [caseEnd])

@[simp] theorem form_fltRestore (s : State) (v : Nat) : FormStep s (fltRestore s v) := by
  refine .of ?_
  unfold fltRestore
  split <;> simp

theorem execGlbFltRestore_form (m : Master) (v : BitVec 32) (s : State) : OutForm s (execGlbFltRestore m v s) := .answer (by simp)
theorem execRouterBistDone_form (pass : Bool) (s : State) : OutForm s (execRouterBistDone pass s) := .answer (by simp)
@[simp] theorem form_routerBack (s : State) (x : Nat) : FormStep s (routerBack s x) := .of (by simp [routerBack])
@[simp] theorem form_rowNote (s : State) (kind unit row code sev : Nat) :
    FormStep s (rowNote s kind unit row code sev) := .of (by simp [rowNote])
@[simp] theorem form_rowspWrite (s : State) (kind : Nat) : FormStep s (rowspWrite s kind) := .of (by simp [rowspWrite])
@[simp] theorem form_rowSpare (s : State) (kind unit row : Nat) : FormStep s (rowSpare s kind unit row) := .of (by simp [rowSpare])

@[simp] theorem form_rowInvalid (s : State) (kind n row : Nat) : FormStep s (rowInvalid s kind n row) := by
  refine .of ?_
  unfold rowInvalid
  split <;> simp

@[simp] theorem form_rowTracker (s : State) (n row : Nat) : FormStep s (rowTracker s n row) := by
  refine .of ?_
  unfold rowTracker
  split <;> simp

@[simp] theorem form_rowLost (s : State) (kind unit row : Nat) : FormStep s (rowLost s kind unit row) := by
  refine .of ?_
  unfold rowLost
  repeat' split
  all_goals simp

@[simp] theorem form_rowCorrected (s : State) (kind unit row : Nat) :
    FormStep s (rowCorrected s kind unit row) := .of (by simp [rowCorrected])

/-! The functions of Machine/Keys. -/

@[simp] theorem form_setKey (s : State) (ml : Bool) (i : Nat) (v : BitVec 384) :
    FormStep s (setKey s ml i v) := .of (by simp [setKey])
@[simp] theorem form_wipeKeys (s : State) (l : List Nat) : FormStep s (wipeKeys s l) := .of (by simp [wipeKeys])
@[simp] theorem form_takeFree256 (s : State) : FormStep s (takeFree256 s).2 := .of (by simp [takeFree256])
@[simp] theorem form_fillJrnA (s : State) : FormStep s (fillJrnA s) := .of (by simp [fillJrnA])
@[simp] theorem form_fillJrnB (s : State) : FormStep s (fillJrnB s) := .of (by simp [fillJrnB])
@[simp] theorem form_returnWipes (s : State) : FormStep s (returnWipes s) := .of (by simp [returnWipes])
@[simp] theorem form_scrapWipes (s : State) : FormStep s (scrapWipes s) := .of (by simp [scrapWipes])

/-! The functions of Machine/SlotPower. -/

@[simp] theorem form_updSlt (s : State) (n : Nat) (f : SlotSt → SlotSt) : FormStep s (updSlt s n f) := .of (by simp [updSlt])
@[simp] theorem form_slotNote (s : State) (n code sev : Nat) : FormStep s (slotNote s n code sev) := .of (by simp [slotNote])
@[simp] theorem form_slotRamp (s : State) (n : Nat) : FormStep s (slotRamp s n) := .of (by simp [slotRamp])
@[simp] theorem form_slotRemoved (s : State) (n : Nat) : FormStep s (slotRemoved s n) := .of (by simp [slotRemoved])
@[simp] theorem form_slotLeave (s : State) (n : Nat) (st : BitVec 3) : FormStep s (slotLeave s n st) := .of (by simp [slotLeave])
@[simp] theorem form_slotFaultLeave (s : State) (n : Nat) (st : BitVec 3) :
    FormStep s (slotFaultLeave s n st) := .of (by simp [slotFaultLeave])
@[simp] theorem form_slotRetry (s : State) (n : Nat) : FormStep s (slotRetry s n) := .of (by simp [slotRetry])
@[simp] theorem form_slotFaultNote (s : State) (n cause : Nat) : FormStep s (slotFaultNote s n cause) := .of (by simp [slotFaultNote])
@[simp] theorem form_slotGate (s : State) (n : Nat) : FormStep s (slotGate s n) := .of (by simp [slotGate])
@[simp] theorem form_slotRampFault (s : State) (n cause : Nat) : FormStep s (slotRampFault s n cause) := .of (by simp [slotRampFault])
@[simp] theorem form_slotFaultIn (s : State) (n cause : Nat) : FormStep s (slotFaultIn s n cause) := .of (by simp [slotFaultIn])
@[simp] theorem form_slotResume (s : State) (n : Nat) : FormStep s (slotResume s n) := .of (by simp [slotResume])
@[simp] theorem form_slotEnable (s : State) (n : Nat) : FormStep s (slotEnable s n) := .of (by simp [slotEnable])
theorem execSltPrsntChange_form (n : BitVec 6) (v : Bool) (s : State) : OutForm s (execSltPrsntChange n v s) := .answer (by simp)
theorem execPresenceDebounced_form (n : BitVec 6) (s : State) : OutForm s (execPresenceDebounced n s) := .answer (by simp)
@[simp] theorem form_slotRemoval (s : State) (n : Nat) : FormStep s (slotRemoval s n) := .of (by simp [slotRemoval])
theorem execModuleRemoval_form (n : BitVec 6) (s : State) : OutForm s (execModuleRemoval n s) := .answer (by simp)

theorem execSlotPgoodRise_form (n : BitVec 6) (s : State) : OutForm s (execSlotPgoodRise n s) := .answer (by
  dsimp only
  repeat' split
  all_goals simp)

theorem execRampTimeout_form (n : BitVec 6) (s : State) : OutForm s (execRampTimeout n s) := .answer (by simp)
theorem execSlotFault_form (n : BitVec 6) (code : BitVec 2) (s : State) : OutForm s (execSlotFault n code s) := .answer (by simp)
theorem execSlotPgoodDrop_form (n : BitVec 6) (s : State) : OutForm s (execSlotPgoodDrop n s) := .answer (by simp)

theorem execPgLost_form (n : BitVec 6) (s : State) : OutForm s (execPgLost n s) := .answer (by
  dsimp only
  split <;> simp)

theorem execRetryEnd_form (n : BitVec 6) (s : State) : OutForm s (execRetryEnd n s) := .answer (by simp)
theorem execSlotFeedChange_form (n : BitVec 6) (feed : BitVec 2) (s : State) :
    OutForm s (execSlotFeedChange n feed s) := .answer (by simp)
@[simp] theorem form_slotResult (s : State) (n res : Nat) : FormStep s (slotResult s n res) := .of (by simp [slotResult])
@[simp] theorem form_slotMclr (s : State) (n : Nat) : FormStep s (slotMclr s n) := .of (by simp [slotMclr])
@[simp] theorem form_slotClear (s : State) (n : Nat) : FormStep s (slotClear s n) := .of (by simp [slotClear])
@[simp] theorem form_slotPlock (s : State) (n : Nat) : FormStep s (slotPlock s n) := .of (by simp [slotPlock])
@[simp] theorem form_slotOff (s : State) (n : Nat) (force : Bool) : FormStep s (slotOff s n force) := .of (by simp [slotOff])
@[simp] theorem form_slotPowerOn (s : State) (n : Nat) : FormStep s (slotPowerOn s n) := .of (by simp [slotPowerOn])
@[simp] theorem form_slotCtl (s : State) (n v : Nat) : FormStep s (slotCtl s n v) := .of (by simp [slotCtl])
theorem form_slotCmd {f : State → Nat → State} (h : ∀ t k, FormStep t (f t k)) (s : State) (m : Master) (n : BitVec 6) :
    KeptForm s (slotCmd s m n f) := by simp [slotCmd, h]
theorem execMclr_form (m : Master) (n : BitVec 6) (s : State) : OutForm s (execMclr m n s) := .answer (form_slotCmd form_slotMclr ..)
theorem execClear_form (m : Master) (n : BitVec 6) (s : State) : OutForm s (execClear m n s) := .answer (form_slotCmd form_slotClear ..)
theorem execPlock_form (m : Master) (n : BitVec 6) (s : State) : OutForm s (execPlock m n s) := .answer (form_slotCmd form_slotPlock ..)
theorem execSlotOff_form (m : Master) (n : BitVec 6) (force : Bool) (s : State) : OutForm s (execSlotOff m n force s) :=
  .answer (form_slotCmd (fun t k => form_slotOff t k force) ..)
theorem execSlotOn_form (m : Master) (n : BitVec 6) (s : State) : OutForm s (execSlotOn m n s) := .answer (form_slotCmd form_slotPowerOn ..)

/-! The functions of Machine/Image. -/

@[simp] theorem form_imgState (s : State) (st : Nat) : FormStep s (imgState s st) := .of (by simp [imgState])
@[simp] theorem form_imgCode (s : State) (code sub : Nat) : FormStep s (imgCode s code sub) := .of (by simp [imgCode])
@[simp] theorem form_imgIdle (s : State) : FormStep s (imgIdle s) := .of (by simp [imgIdle])
@[simp] theorem form_imgRefusal (s : State) (code sub : Nat) : FormStep s (imgRefusal s code sub) := .of (by simp [imgRefusal])
@[simp] theorem form_imgRefuse (s : State) (code sub : Nat) : FormStep s (imgRefuse s code sub) := .of (by simp [imgRefuse])
@[simp] theorem form_imgAborted (s : State) : FormStep s (imgAborted s) := .of (by simp [imgAborted])
@[simp] theorem form_imgStartWrite (s : State) : FormStep s (imgStartWrite s) := .of (by simp [imgStartWrite])
theorem execImgStart_form (m : Master) (s : State) : OutForm s (execImgStart m s) := .answer (by simp)
@[simp] theorem form_imgAbortWrite (s : State) : FormStep s (imgAbortWrite s) := .of (by simp [imgAbortWrite])
theorem execImgAbort_form (m : Master) (s : State) : OutForm s (execImgAbort m s) := .answer (by simp)

@[simp] theorem form_imgDataWrite (s : State) (v : Word) : FormStep s (imgDataWrite s v) := by
  refine .of ?_
  unfold imgDataWrite
  dsimp only
  repeat' split
  all_goals simp

theorem execImgData_form (m : Master) (v : Word) (s : State) : OutForm s (execImgData m v s) := .answer (by simp)
@[simp] theorem form_putWindow (s : State) (n k : Nat) (v : Word) : FormStep s (putWindow s n k v) := .of (by simp [putWindow])
@[simp] theorem form_putBgt (s : State) (n : Nat) (v : Word) : FormStep s (putBgt s n v) := .of (by simp [putBgt])

@[simp] theorem form_putWires (s : State) (x : Nat) (v : Word) : FormStep s (putWires s x v) := by
  refine .of ?_
  unfold putWires
  split <;> simp

@[simp] theorem form_putActive (s : State) (a : Nat) (v : Word) : FormStep s (putActive s a v) := .of (by simp [putActive])
@[simp] theorem form_imgPut (s : State) (w : Nat × Word) : FormStep s (imgPut s w) := .of (by simp [imgPut])
@[simp] theorem form_imgPutAll (s : State) (l : List (Nat × Word)) : FormStep s (imgPutAll s l) := .of (by simp [imgPutAll])
@[simp] theorem form_putRoute (s : State) (w : Nat × Word) : FormStep s (putRoute s w) := .of (by simp [putRoute])
@[simp] theorem form_coldClear (s : State) : FormStep s (coldClear s) := .of (by simp [coldClear, mdrop])
@[simp] theorem form_freshPort (s : State) (x : Nat) (pl : Plane) (port : Nat) :
    FormStep s (freshPort s x pl port) := .of (by simp [freshPort])
@[simp] theorem form_portsImg (s : State) (x : Nat) (was : Word) : FormStep s (portsImg s x was) := .of (by simp [portsImg])
@[simp] theorem form_spanImg (s : State) (p : Nat) : FormStep s (spanImg s p) := .of (by simp [spanImg])
@[simp] theorem form_portImg (s : State) (n : Nat) (was : Bool) : FormStep s (portImg s n was) := .of (by simp [portImg])
@[simp] theorem form_imgWords2 (s : State) : FormStep s (imgWords2 s) := .of (by simp [imgWords2])
@[simp] theorem form_imgTrkMax (s : State) : FormStep s (imgTrkMax s) := .of (by simp [imgTrkMax])
@[simp] theorem form_imgStep4 (s : State) : FormStep s (imgStep4 s) := .of (by simp [imgStep4])
@[simp] theorem form_boundOk (s : State) : FormStep s (boundOk s) := .of (by simp [boundOk])

@[simp] theorem form_imgDone (s : State) : FormStep s (imgDone s) := by
  refine .of ?_
  unfold imgDone
  extract_lets b cold d s1 s2 s3 s4 img4 s4a s5 s6
  have h1 : FormStep s s1 := .of (by simp [s1])
  have h3 : FormStep s s3 := .of (by simp [s3, s2, h1])
  have h4 : FormStep s s4 := .of (by simp [s4, h3])
  have h5 : FormStep s s5 := by
    refine .of ?_
    simp only [s5, s4a]
    split <;> simp [h4]
  have h6 : FormStep s s6 := .of (by simp [s6, h5])
  split <;> simp [h6]

@[simp] theorem form_imgStep6 (s : State) : FormStep s (imgStep6 s) := .of (by simp [imgStep6])

theorem execImageVerifyDone_form (s : State) : OutForm s (execImageVerifyDone s) := .answer (by
  repeat' split
  all_goals simp)

@[simp] theorem form_imgJudge (s : State) : FormStep s (imgJudge s) := by
  refine .of ?_
  unfold imgJudge
  repeat' split
  all_goals simp

theorem execImagePrecheck_form (s : State) : OutForm s (execImagePrecheck s) := .answer (by simp)

/-! The functions of Machine/Reset. -/

theorem execColdResetRelease_form (s : State) : OutForm s (execColdResetRelease s) := .answer (by simp)
theorem execColdInitDone_form (s : State) : OutForm s (execColdInitDone s) := .answer (by simp)
@[simp] theorem form_warmPort (s : State) (n : Nat) : FormStep s (warmPort s n) := .of (by simp [warmPort])

@[simp] theorem form_warmPower (s : State) : FormStep s (warmPower s) := by
  refine .of ?_
  unfold warmPower
  split <;> simp

@[simp] theorem form_warmRegion (s : State) (kind i : Nat) : FormStep s (warmRegion s kind i) := by
  refine .of ?_
  unfold warmRegion
  dsimp only
  repeat' split
  all_goals simp

@[simp] theorem form_warmRegions (s : State) : FormStep s (warmRegions s) := .of (by simp [warmRegions])
@[simp] theorem form_warmNi (s : State) (n : Nat) : FormStep s (warmNi s n) := .of (by simp [warmNi])
@[simp] theorem form_warmRings (s : State) : FormStep s (warmRings s) := .of (by simp [warmRings])
@[simp] theorem form_warmJrn (s : State) : FormStep s (warmJrn s) := .of (by simp [warmJrn])
@[simp] theorem form_warmRoutes (s : State) : FormStep s (warmRoutes s) := .of (by simp [warmRoutes])

@[simp] theorem form_warmPwrReq (s : State) : FormStep s (warmPwrReq s) := by
  refine .of ?_
  unfold warmPwrReq
  split <;> simp

@[simp] theorem form_warmReset (s : State) : FormStep s (warmReset s) := .of (by simp [warmReset, warmEng])
theorem execWarmQuiesceDone_form (s : State) : OutForm s (execWarmQuiesceDone s) := .answer (by simp)
@[simp] theorem form_rewriteRecs (s : State) : FormStep s (rewriteRecs s) := .of (by simp [rewriteRecs])
theorem execWarmResetRelease_form (s : State) : OutForm s (execWarmResetRelease s) := .answer (by split <;> simp)

@[simp] theorem form_restartCtl (s : State) : FormStep s (restartCtl s) := by
  refine .of ?_
  unfold restartCtl
  split <;> simp

theorem execRinkInResetRaise_form (b : BitVec 3) (s : State) : OutForm s (execRinkInResetRaise b s) := .answer (by simp)

/-! The functions of Machine/LifeCycle. -/

@[simp] theorem form_tokenStat (s : State) (code : Nat) : FormStep s (tokenStat s code) := .of (by simp [tokenStat])
@[simp] theorem form_tokenEnd (s : State) (code : Nat) : FormStep s (tokenEnd s code) := .of (by simp [tokenEnd])
@[simp] theorem form_tokenStartWrite (s : State) : FormStep s (tokenStartWrite s) := .of (by simp [tokenStartWrite])
theorem execTokenStart_form (m : Master) (s : State) : OutForm s (execTokenStart m s) := .answer (by simp)
@[simp] theorem form_tokenDataWrite (s : State) (v : Word) : FormStep s (tokenDataWrite s v) := .of (by simp [tokenDataWrite])
theorem execTokenData_form (m : Master) (v : Word) (s : State) : OutForm s (execTokenData m v s) := .answer (by simp)
@[simp] theorem form_tokenAbortWrite (s : State) : FormStep s (tokenAbortWrite s) := .of (by simp [tokenAbortWrite])
theorem execTokenAbort_form (m : Master) (s : State) : OutForm s (execTokenAbort m s) := .answer (by simp)
theorem execTokenRefusal_form (s : State) : OutForm s (execTokenRefusal s) := .answer (by simp)
@[simp] theorem form_sessionEnd (s : State) : FormStep s (sessionEnd s) := .of (by simp [sessionEnd])
theorem execDebugUnlock_form (s : State) : OutForm s (execDebugUnlock s) := .answer (by simp)
theorem execRelock_form (m : Master) (s : State) : OutForm s (execRelock m s) := .answer (by simp)

@[simp] theorem form_sessionOver (s : State) : FormStep s (sessionOver s) := by
  refine .of ?_
  unfold sessionOver
  split <;> simp

theorem execSessionExpire_form (s : State) : OutForm s (execSessionExpire s) := .answer (by simp)
theorem execFloor_form (fuseOk : Bool) (s : State) : OutForm s (execFloor fuseOk s) := .answer (by simp)
@[simp] theorem form_keyWrite (s : State) (m : Master) (v : Nat) (fuseOk : Bool) :
    FormStep s (keyWrite s m v fuseOk) := .of (by simp [keyWrite])
theorem execKeyProgram_form (m : Master) (v : BitVec 32) (fuseOk : Bool) (s : State) :
    OutForm s (execKeyProgram m v fuseOk s) := .answer (by simp)

end Sys2Proof.Machine
end

section
/-! SUPPORT. The functions of registers, the matrix and the gate tick that touch no flow keep the form of the register words (for O59). -/

namespace Sys2Proof.Machine

/-! The functions of Machine/Counters. -/

@[simp] theorem form_snapWrite (s : State) (v : Word) : FormStep s (snapWrite s v) := .of (by simp [snapWrite])
theorem execCntSnapCtl_form (v : Word) (s : State) : OutForm s (execCntSnapCtl v s) := .answer (by simp)

@[simp] theorem form_snapTake (s : State) : FormStep s (snapTake s) := by
  refine .of ?_
  unfold snapTake
  split <;> simp

theorem execCounterSnapshot_form (s : State) : OutForm s (execCounterSnapshot s) := .answer (by simp)
theorem execSnapshotDone_form (s : State) : OutForm s (execSnapshotDone s) := .answer (by split <;> simp)
@[simp] theorem form_thrWrite (s : State) (j : Nat) (v : Word) : FormStep s (thrWrite s j v) := .of (by simp [thrWrite])
theorem execCntThrCfg_form (j : BitVec 6) (v : Word) (s : State) : OutForm s (execCntThrCfg j v s) := .answer (by simp)

/-! The functions of Machine/RegRead. -/

@[simp] theorem form_readBeat (s : State) (a : Nat) : FormStep s (readBeat s a).2 := by
  refine .of ?_
  unfold readBeat
  repeat' split
  all_goals simp

/-! The functions of Machine/Registers. -/

theorem form_nextOf {o : Host.Outcome State Fault Refusal} {s : State} (h : OutForm s o) : FormStep s (nextOf o s) := by
  refine .of ?_
  cases o with
  | next t => exact h.kept t rfl
  | fault _ => rfl
  | refused _ => rfl

@[simp] theorem form_plainWrite (s : State) (a : Nat) (v mask : Word) :
    FormStep s (plainWrite s a v mask) := .of (by simp [plainWrite])
@[simp] theorem form_kbufWrite (s : State) (w : Nat) (v : Word) : FormStep s (kbufWrite s w v) := .of (by simp [kbufWrite])

@[simp] theorem form_ringWrite (s : State) (q k : Nat) (v mask : Word) : FormStep s (ringWrite s q k v mask) := by
  refine .of ?_
  have hreset : ∀ b, FormStep s (nextOf (execRingReset b s) s) := fun b => form_nextOf (execRingReset_form b s)
  have hresume : ∀ b t, FormStep t (nextOf (execRingResume b t) t) := fun b t => form_nextOf (execRingResume_form b t)
  unfold ringWrite
  dsimp only
  split
  · simp [form_nextOf (execRingPiWrite_form _ _ _)]
  · simp [form_nextOf (execRingRciWrite_form _ _ _)]
  · simp [hreset, hresume]
  · simp

@[simp] theorem form_niWrite (s : State) (n off : Nat) (v mask : Word) : FormStep s (niWrite s n off v mask) := by
  refine .of ?_
  unfold niWrite
  split
  · simp [form_nextOf (execNiSlcRst_form _ _ _)]
  · simp
  · simp
  · simp

@[simp] theorem form_errLog (s : State) (m : Master) (resp : BitVec 2) (wr' : Bool) (addr : Nat) :
    FormStep s (errLog s m resp wr' addr) := .of (by simp [errLog])
@[simp] theorem form_mgWords (s : State) (a count : Nat) : FormStep s (mgWords s a count).2 := .of (by simp [mgWords])

@[simp] theorem form_mgRead (s : State) (node : Nat) (m : Msg) : FormStep s (mgRead s node m).2 := by
  refine .of ?_
  unfold mgRead
  dsimp only
  split <;> simp

@[simp] theorem form_rtrAnswer (s : State) (x : Nat) (m : Msg) : FormStep s (rtrAnswer s x m) := .of (by simp [rtrAnswer])

theorem form_mgServe {f : State → Nat → Msg → Msg × State} (h : ∀ s n m, FormStep s (f s n m).2) (s : State)
    (node opc : Nat) : KeptForm s (mgServe s node opc f) := by
  unfold mgServe
  dsimp only
  split
  · split
    · simp
    · split
      next hrx => simp [form_rxCheck_drop hrx]
      next hrx => split <;> simp [h, form_rxCheck_pass hrx]
  · split
    · split
      · simp
      · simp [h]
    · split
      · simp
      · split
        · simp
        · simp [h]

theorem execMgRdReceive_form (node : BitVec 8) (s : State) : OutForm s (execMgRdReceive node s) :=
  .answer (form_mgServe form_mgRead ..)

/-! The functions of Machine/Matrix. -/

@[simp] theorem form_updTgt (s : State) (t : Nat) (f : MmTgt → MmTgt) : FormStep s (updTgt s t f) := .of (by simp [updTgt])
@[simp] theorem form_updAcc (s : State) (id : Nat) (f : MmAcc → MmAcc) : FormStep s (updAcc s id f) := .of (by simp [updAcc])
@[simp] theorem form_mmFlush (s : State) : FormStep s (mmFlush s) := .of (by simp [mmFlush])
@[simp] theorem form_emptyBeats (s : State) (count : Nat) (code : BitVec 2) :
    FormStep s (emptyBeats s count code).2 := .of (by simp [emptyBeats])
@[simp] theorem form_mmEnd (s : State) (a : MmAcc) (code : BitVec 2) : FormStep s (mmEnd s a code) := .of (by simp [mmEnd])
@[simp] theorem form_mmRefuse (s : State) (a : MmAcc) (code : BitVec 2) : FormStep s (mmRefuse s a code) := .of (by simp [mmRefuse])
@[simp] theorem form_barNote (s : State) (m : Master) (t : Nat) : FormStep s (barNote s m t) := .of (by simp [barNote])

@[simp] theorem form_mmJudge (s : State) (a : MmAcc) : FormStep s (mmJudge s a).2 := by
  refine .of ?_
  unfold mmJudge
  dsimp only
  split
  · simp
  · repeat' split
    all_goals simp

theorem execMmRequest_form (m : Master) (addr : BitVec 32) (wr dataCls lock : Bool) (len : BitVec 8) (s : State) :
    OutForm s (execMmRequest m addr wr dataCls lock len s) := .answer (by
  dsimp only
  repeat' split
  all_goals simp)

@[simp] theorem form_mmRead (s : State) (addr : Nat) : FormStep s (mmRead s addr).2.2 := by
  refine .of ?_
  unfold mmRead
  split
  · simp
  · split
    · simp
    · split
      · simp
      · split <;> simp

@[simp] theorem form_mmUnlock (s : State) (a : MmAcc) : FormStep s (mmUnlock s a) := .of (by simp [mmUnlock])
@[simp] theorem form_readPiece (s : State) (a : MmAcc) : FormStep s (readPiece s a) := .of (by simp [readPiece])
@[simp] theorem form_mmGrantTo (s : State) (t : Nat) (a : MmAcc) : FormStep s (mmGrantTo s t a) := .of (by simp [mmGrantTo])
@[simp] theorem form_refuseZero (s : State) (t : Nat) : FormStep s (refuseZero s t) := .of (by simp [refuseZero])

@[simp] theorem form_mmArbitrate (s : State) (t : Nat) : FormStep s (mmArbitrate s t) := by
  refine .of ?_
  unfold mmArbitrate
  dsimp only
  split
  · simp
  · split <;> simp

theorem execMmGrant_form (t : BitVec 4) (s : State) : OutForm s (execMmGrant t s) := .answer (by simp)
theorem execMmBurstPiece_form (t : BitVec 4) (s : State) : OutForm s (execMmBurstPiece t s) := .answer (by simp)

theorem execLockBreak_form (t : BitVec 4) (s : State) : OutForm s (execLockBreak t s) := .answer (by
  dsimp only
  repeat' split
  all_goals simp)

/-! The functions of Machine/GateTick. -/

@[simp] theorem form_tickTime (s : State) : FormStep s (tickTime s) := .of (by simp [tickTime])
@[simp] theorem form_tickOuts (s : State) : FormStep s (tickOuts s) := .of (by simp [tickOuts])

@[simp] theorem form_tickRelease (s : State) : FormStep s (tickRelease s) := by
  refine .of ?_
  unfold tickRelease
  split <;> simp

@[simp] theorem form_applyEn (s : State) : FormStep s (applyEn s) := .of (by simp [applyEn])
@[simp] theorem form_scTick (was s : State) (n : Nat) : FormStep s (scTick was s n) := .of (by simp [scTick])
@[simp] theorem form_sliceStep (was s : State) (n : Nat) : FormStep s (sliceStep was s n) := .of (by simp [sliceStep])
@[simp] theorem form_tickSlices (was s : State) : FormStep s (tickSlices was s) := .of (by simp [tickSlices])
@[simp] theorem form_applyWord (s : State) (p : Nat × Word) : FormStep s (applyWord s p) := .of (by simp [applyWord])
@[simp] theorem form_applyPend (s : State) : FormStep s (applyPend s) := .of (by simp [applyPend])
@[simp] theorem form_applyRows (s : State) : FormStep s (applyRows s) := .of (by simp [applyRows])
@[simp] theorem form_queueTick (was s : State) (n q : Nat) : FormStep s (queueTick was s n q) := .of (by simp [queueTick])
@[simp] theorem form_tickQueues (was s : State) : FormStep s (tickQueues was s) := .of (by simp [tickQueues])
@[simp] theorem form_tickShares (was s : State) : FormStep s (tickShares was s) := .of (by simp [tickShares])
@[simp] theorem form_tickStep6 (was s : State) (img : Bool) : FormStep s (tickStep6 was s img) := .of (by simp [tickStep6])
@[simp] theorem form_tickLay (s : State) : FormStep s (tickLay s) := .of (by simp [tickLay])
@[simp] theorem form_tickBounds (s : State) : FormStep s (tickBounds s) := .of (by simp [tickBounds])

end Sys2Proof.Machine
end

section
/-! SUPPORT. The functions of flows, the resets and the writes of registers keep the form of the register words (for O59). -/

namespace Sys2Proof.Machine

@[simp] theorem form_suspendFlow (s : State) (id : Nat) : FormStep s (suspendFlow s id) := by
  refine .of ?_
  unfold suspendFlow
  split
  · simp
  · split <;> simp

@[simp] theorem form_resumeFlow (s : State) (id : Nat) : FormStep s (resumeFlow s id) := by
  refine .of ?_
  unfold resumeFlow
  split
  · simp
  · split <;> simp

@[simp] theorem form_suspendSpan (s : State) (p : Nat) : FormStep s (suspendSpan s p) := .of (by simp [suspendSpan])

@[simp] theorem form_spanDown (s : State) (p cause : Nat) : FormStep s (spanDown s p cause) := by
  refine .of ?_
  unfold spanDown
  dsimp only
  split <;> simp

@[simp] theorem form_declareRouter (s : State) (x cause : Nat) : FormStep s (declareRouter s x cause) := by
  refine .of ?_
  unfold declareRouter
  extract_lets second s1 s2 s3 s4 s5 flt5 s6 flt6
  have h3 : FormStep s s3 := .of (.trans (by simp [s2, s1]) (.foldl (fun t k => by split <;> simp) _ _))
  have h4 : FormStep s3 s4 := .of (.foldl (fun t p => by split <;> simp) _ _)
  have h6 : FormStep s s6 := .of (by simp [s6, s5, h4, h3])
  split
  · simp
  · split <;> simp [h6]

@[simp] theorem form_fltDecl (s : State) (v : Nat) : FormStep s (fltDecl s v) := .of (by simp [fltDecl])

@[simp] theorem form_warmSpan (s : State) (p : Nat) : FormStep s (warmSpan s p) := .of (by simp [warmSpan])

@[simp] theorem form_warmStart (s : State) (cause : Nat) : FormStep s (warmStart s cause) := by
  refine .of ?_
  simp [warmStart]

@[simp] theorem form_coldReset (s : State) (cause : Nat) : FormStep s (coldReset s cause) := .of (by simp [coldReset, coldState])

theorem execSpnForceDown_form (p : SpId) (s : State) : OutForm s (execSpnForceDown p s) := .answer (by simp)

@[simp] theorem form_wordWrite (s : State) (m : Master) (a : Nat) (v mask : Word) :
    FormStep s (wordWrite s m a v mask).2 := by
  refine .of ?_
  have hretrain : ∀ p t, FormStep t (nextOf (execSpnRetrain p t) t) := fun p t => form_nextOf (execSpnRetrain_form p t)
  have hrecover : ∀ t, FormStep t (nextOf (execJrnRecover t) t) := fun t => form_nextOf (execJrnRecover_form t)
  have hdown : ∀ p t, FormStep t (nextOf (execSpnForceDown p t) t) := fun p t => form_nextOf (execSpnForceDown_form p t)
  unfold wordWrite
  repeat' split
  all_goals simp [hretrain, hrecover, hdown]

@[simp] theorem form_regWrite (s : State) (m : Master) (addr : Nat) (v : Word) (strb : BitVec 8) :
    FormStep s (regWrite s m addr v strb).2 := by
  refine .of ?_
  unfold regWrite
  dsimp only
  repeat' split
  all_goals simp

theorem execRegisterWrite_form (m : Master) (addr : BitVec 32) (data : Word) (strb : BitVec 8) (s : State) :
    OutForm s (execRegisterWrite m addr data strb s) := .answer (by simp)

@[simp] theorem form_testReset (s : State) : FormStep s (testReset s) := .of (by simp [testReset])

theorem execTestScanEnd_form (extest : Bool) (s : State) : OutForm s (execTestScanEnd extest s) := .answer (by simp)

theorem execJtagInstruction_form (op : JtagOp) (s : State) : OutForm s (execJtagInstruction op s) := .answer (by simp)

@[simp] theorem form_transitionDone (s : State) : FormStep s (transitionDone s) := .of (by simp [transitionDone])

theorem execToScrap_form (fuseOk : Bool) (s : State) : OutForm s (execToScrap fuseOk s) := .answerFuse (by simp)

theorem execToReturn_form (fuseOk : Bool) (s : State) : OutForm s (execToReturn fuseOk s) := .answerFuse (by simp)

theorem execToField_form (fuseOk : Bool) (s : State) : OutForm s (execToField fuseOk s) := .answerFuse (by simp)

theorem execToProvision_form (fuseOk : Bool) (s : State) : OutForm s (execToProvision fuseOk s) := .answerFuse (by simp)

@[simp] theorem form_writeBeat (s : State) (a : MmAcc) (v : Word) (strb : BitVec 8) :
    FormStep s (writeBeat s a v strb) := .of (by simp [writeBeat])

theorem execMmWriteBeat_form (m : Master) (data : Word) (strb : BitVec 8) (s : State) : OutForm s (execMmWriteBeat m data strb s) :=
  .answer (by
    split
    · simp
    · split <;> simp)

theorem execRowRemap_form (kind : BitVec 3) (unit : BitVec 8) (row : BitVec 24) (err : EccErr) (bothCopies : Bool) (s : State) :
    OutForm s (execRowRemap kind unit row err bothCopies s) := .answer (by
  dsimp only
  split
  · simp
  · split <;> simp)

theorem execGlbFltDecl_form (m : Master) (v : BitVec 32) (s : State) : OutForm s (execGlbFltDecl m v s) := .answer (by simp)

theorem execRouterHeartbeatLoss_form (x : RtrId) (s : State) : OutForm s (execRouterHeartbeatLoss x s) := .answer (by simp)

theorem execWarmResetAssert_form (s : State) : OutForm s (execWarmResetAssert s) := .answer (by simp)

theorem execGlbRstWarm_form (m : Master) (s : State) : OutForm s (execGlbRstWarm m s) := .answer (by simp)

theorem execGlbRstCold_form (m : Master) (s : State) : OutForm s (execGlbRstCold m s) := .answer (by simp)

theorem execColdResetAssert_form (s : State) : OutForm s (execColdResetAssert s) := .answer (by simp)

theorem execPor_form (s : State) : OutForm s (execPor s) := .answerFuse ⟨fun _ => regsWf_putWord [] _ _ rfl⟩

@[simp] theorem form_commitFlow (s : State) (id : Nat) (f : Flow) : FormStep s (commitFlow s id f) := .of (by simp [commitFlow])
@[simp] theorem form_putFlow (s : State) (id : Nat) (f : Flow) (split : Bool) : FormStep s (putFlow s id f split) := .of (by simp [putFlow])
@[simp] theorem form_freeFlow (s : State) (id : Nat) (f : Flow) : FormStep s (freeFlow s id f) := .of (by simp [freeFlow])

@[simp] theorem form_retireFlow (s : State) (x id : Nat) (f : Flow) : FormStep s (retireFlow s x id f) := by
  refine .of ?_
  unfold retireFlow
  split <;> simp

@[simp] theorem form_retireRouter (s : State) (x : Nat) : FormStep s (retireRouter s x) := .of (by simp [retireRouter])

@[simp] theorem form_imgStep2 (s : State) : FormStep s (imgStep2 s) := by
  refine .of ?_
  unfold imgStep2
  dsimp only
  split <;> simp

@[simp] theorem form_releaseAt (t : Nat) (s : State) (q : Nat × Flow) : FormStep s (releaseAt t s q) := .of (by simp [releaseAt])

@[simp] theorem form_release (s : State) (id tick : Nat) : FormStep s (release s id tick).2 := by
  refine .of ?_
  unfold release
  split <;> simp

end Sys2Proof.Machine
end

section
/-! SUPPORT. Admission, release and the flows of an image keep the form of the register words (for O59). -/

namespace Sys2Proof.Machine

@[simp] theorem form_pairUp (s : State) (r : AdmReq) (id : Nat) : FormStep s (pairUp s r id) := by
  refine .of ?_
  unfold pairUp
  split <;> simp

theorem Records.form {s u : State} {r : AdmReq} {id tick : Nat} (hu : Records s r id tick u) : FormStep s u := by
  refine .of ?_
  obtain ⟨f, -, rfl | ⟨id2, g, -, rfl⟩⟩ := hu <;> simp

theorem Decides.form {s : State} {r : AdmReq} {d : AdmRes × State} (hd : Decides s r d) : FormStep s d.2 := by
  refine .of ?_
  obtain ⟨-, heq⟩ | ⟨-, u, hu, heq⟩ := hd
  · simp [heq]
  · simp [heq, hu.form]

@[simp] theorem form_admDecide (s : State) (r : AdmReq) (inst : Nat) : FormStep s (admDecide s r inst).2 := by
  refine .of ?_
  unfold admDecide
  split
  · simp
  · simp [(admitDecide_decides _ _ _ _).form]

theorem form_runAdm {f : State → Cmd → Sub × State} (hf : StepKeepsForm f) (op : Nat) (s : State) : KeptForm s (runAdm op f s) := by
  unfold runAdm
  split
  · split
    · split
      next hstep => simp [hf.of_eq hstep]
      next hstep => simp [hf.of_eq hstep]
    · simp
  · simp

theorem execRelease_form (s : State) : OutForm s (execRelease s) := .answer (form_runAdm (fun t c => by simp) ..)

theorem admitStep_keepsForm : StepKeepsForm admitStep := by
  intro s c
  unfold admitStep
  dsimp only
  split
  · simp
  · split
    · split <;> simp
    · split
      · simp
      next htake => split <;> simp [form_of_takeAnswer htake]

theorem execAdmit_form (s : State) : OutForm s (execAdmit s) := .answer (form_runAdm admitStep_keepsForm ..)

theorem execAdmitPeerSegment_form (peer : BitVec 4) (req : BitVec 512) (s : State) : OutForm s (execAdmitPeerSegment peer req s) :=
  .answer (by
    extract_lets r p a second d
    split
    · simp
    · have hd : FormStep s d.2 := by
        refine .of ?_
        simp only [d]
        split <;> simp [a]
      exact ⟨hd.kept.keeps⟩)

theorem imgAdmit_form (s : State) (k : Nat × Nat) (v : BitVec 256) : OkForm s (imgAdmit s k v) := by
  unfold imgAdmit
  dsimp only
  split
  · exact .error _
  split
  · exact .error _
  split
  · exact .error _
  split
  · exact .error _
  split
  · exact .error _
  split
  · exact .error _
  split
  · exact .error _
  · exact .ok (by simp)

theorem imgFlow_form (s : State) (k : Nat × Nat) (v : BitVec 256) : OkForm s (imgFlow s k v) := by
  unfold imgFlow
  split
  · split
    · split
      · exact .ok (by simp)
      · exact .error _
    split
    · exact .ok (by simp)
    split
    · exact .ok (by simp)
    · exact .congr (by simp) (imgAdmit_form _ k v)
  · split
    · exact .ok (by simp)
    · exact imgAdmit_form s k v

/-- Taking the entries of an image one after the other, up to the first that is refused. -/
theorem imgFlow_foldl_form {s : State} (l : List (Nat × Nat)) (v : Nat × Nat → BitVec 256) {e : Except Nat State} (he : OkForm s e) :
    OkForm s (l.foldl (fun acc k => match acc with | .ok t => imgFlow t k (v k) | .error c => .error c) e) := by
  induction l generalizing e with
  | nil => exact he
  | cons k l ih =>
    refine ih ?_
    cases e with
    | ok t => exact .congr (he t rfl) (imgFlow_form t k (v k))
    | error c => exact .error c

theorem imgStep3_form (s : State) : OkForm s (imgStep3 s) := imgFlow_foldl_form _ (pisteEntry s s.img.bytes) (.ok (by simp))

@[simp] theorem form_imgFlows (s : State) : FormStep s (imgFlows s) := by
  refine .of ?_
  unfold imgFlows
  dsimp only
  split
  · refine .trans (by simp) (.foldl (fun t k => ?_) _ (imgTrkMax s))
    split
    next hok => exact imgFlow_form t k _ _ hok
    · simp
  · split
    next hok => exact imgStep3_form s _ hok
    · simp

end Sys2Proof.Machine
end

section
/-! SUPPORT. The spans, the mesh and the gate tick keep the form of the register words (for O59). -/

namespace Sys2Proof.Machine

theorem execRetrainTimeout_form (p : SpId) (s : State) : OutForm s (execRetrainTimeout p s) := .answer (by simp)

@[simp] theorem form_widthInUse (s : State) (p : Nat) (w : BitVec 2) : FormStep s (widthInUse s p w) := by
  refine .of ?_
  unfold widthInUse
  dsimp only
  split
  · split <;> simp
  · simp

theorem execRetrainDone_form (p : SpId) (up : Bool) (s : State) : OutForm s (execRetrainDone p up s) := .answer (by simp)

@[simp] theorem form_replayAct (s : State) (p : Nat) (seq : BitVec 16) : FormStep s (replayAct s p seq) := by
  refine .of ?_
  unfold replayAct
  split
  · simp
  · simp

theorem execReplayTimerExpire_form (p : SpId) (s : State) : OutForm s (execReplayTimerExpire p s) := .answer (by
  dsimp only
  split
  · simp
  · simp)

@[simp] theorem form_ctlIn (s : State) (p : Nat) (w : BitVec 640) : FormStep s (ctlIn s p w) := by
  refine .of ?_
  unfold ctlIn
  split <;> simp

theorem execLinkFlitReceive_form (p : SpId) (raw : BitVec 2048) (bad : Bool) (s : State) : OutForm s (execLinkFlitReceive p raw bad s) :=
  .answer (by
    dsimp only
    split
    · simp
    · split
      · simp
      · split <;> simp)

@[simp] theorem form_mgWrite (s : State) (node : Nat) (m : Msg) : FormStep s (mgWrite s node m).2 := by
  refine .of ?_
  unfold mgWrite
  dsimp only
  split
  · generalize hr : List.foldl _ (false, s) _ = r
    have hwords : FormStep s r.2 := by
      rw [← hr]
      exact .of (.foldl_snd (fun r i => by simp) _ (false, s))
    split <;> simp [hwords]
  · simp

theorem execMgWrReceive_form (node : BitVec 8) (s : State) : OutForm s (execMgWrReceive node s) := .answer (form_mgServe form_mgWrite ..)

@[simp] theorem form_declareBehind (s : State) (x : Nat) : FormStep s (declareBehind s x) := by
  refine .of ?_
  simp [declareBehind]

@[simp] theorem form_linkFail (s : State) (x : Nat) (pl : Plane) (port cause rx : Nat) :
    FormStep s (linkFail s x pl port cause rx) := by
  refine .of ?_
  unfold linkFail
  dsimp only
  split
  · split
    · simp
    · simp
  · simp

@[simp] theorem form_ueError (s : State) (x : Nat) (pl : Plane) (port : Nat) (far : Bool) (count : Nat) :
    FormStep s (ueError s x pl port far count) := .of (by simp [ueError])

@[simp] theorem form_niFlitIn (s : State) (x n : Nat) (alt : Bool) (pl : Plane) (port : Nat) (r : FlitRx) :
    FormStep s (niFlitIn s x n alt pl port r) := by
  refine .of ?_
  unfold niFlitIn
  simp

@[simp] theorem form_spanFlitIn (s : State) (x p : Nat) (pl : Plane) (port : Nat) (r : FlitRx) :
    FormStep s (spanFlitIn s x p pl port r) := by
  refine .of ?_
  unfold spanFlitIn
  simp

@[simp] theorem form_sendOut (s : State) (x : Nat) (pl : Plane) (out : Nat) (f : Flit) (err : FlitErr) :
    FormStep s (sendOut s x pl out f err) := by
  refine .of ?_
  unfold sendOut
  dsimp only
  split
  · simp
  · split
    · simp
    · split
      · simp
      · split
        · simp
        · simp

theorem execSchussPass_form (pl : Plane) (x : RtrId) (out : BitVec 4) (fc : BitVec 12) (err eject : FlitErr) (s : State) :
    OutForm s (execSchussPass pl x out fc err eject s) := .answer (by
  dsimp only
  split
  · simp
  split
  · simp
  split
  · split
    · simp
    · refine .trans (.ite (by simp) (.ite (by simp) (.ite (.trans ?_ (form_sendOut _ _ _ _ _ _).kept) (by simp)))) (form_ueError _ _ _ _ _ _).kept
      split
      · split <;> simp
      · simp
  · simp)

theorem execLinkCreditReturn_form (pl : Plane) (x : RtrId) (out : BitVec 4) (w : BitVec 16) (s : State) :
    OutForm s (execLinkCreditReturn pl x out w s) := .answer (by
  dsimp only
  split
  · simp
  · split <;> simp)

@[simp] theorem form_winFlit (s : State) (x : Nat) (pl : Plane) (out port ch outCh : Nat) (err : FlitErr) :
    FormStep s (winFlit s x pl out port ch outCh err) := by
  refine .of ?_
  unfold winFlit
  dsimp only
  split
  · simp
  · simp

@[simp] theorem form_winGather (s : State) (x out : Nat) (err : FlitErr) : FormStep s (winGather s x out err) := by
  refine .of ?_
  unfold winGather
  split
  · simp
  · split <;> simp

@[simp] theorem form_winBranch (s : State) (x out port : Nat) (err : FlitErr) :
    FormStep s (winBranch s x out port err) := by
  refine .of ?_
  unfold winBranch
  dsimp only
  split
  · simp
  · simp

@[simp] theorem form_winAt (s : State) (x : Nat) (pl : Plane) (out port ch outCh : Nat) (err : FlitErr) :
    FormStep s (winAt s x pl out port ch outCh err) := by
  refine .of ?_
  unfold winAt
  split
  · split <;> simp
  · simp

theorem execRouterFlitForward_form (pl : Plane) (x : RtrId) (out : BitVec 4) (err : FlitErr) (s : State) :
    OutForm s (execRouterFlitForward pl x out err s) := .answer (by
  dsimp only
  repeat' split
  all_goals simp)

theorem execRouterFlitArrive_form (pl : Plane) (x : RtrId) (port : BitVec 4) (err : FlitErr) (s : State) :
    OutForm s (execRouterFlitArrive pl x port err s) := .answer (by
  dsimp only
  split
  · simp
  · split
    · simp
    · split
      · simp
      · simp)

@[simp] theorem form_tickSpan (s : State) (p : Nat) : FormStep s (tickSpan s p) := by
  refine .of ?_
  simp [tickSpan]

@[simp] theorem form_refuseFlow (s : State) (id : Nat) (f : Flow) : FormStep s (refuseFlow s id f) := .of (by simp [refuseFlow])

@[simp] theorem form_pisteTick (s : State) : FormStep s (pisteTick s) := by
  refine .of ?_
  unfold pisteTick
  extract_lets due s1 com bad s2 s3
  have h1 : FormStep s s1 := .of (by simp [s1])
  have h2 : FormStep s1 s2 := .of (.foldl (fun t q => by split <;> simp) _ _)
  have h3 : FormStep s s3 := .of (by simp [s3, h2, h1])
  simp [h3]

@[simp] theorem form_caseLeave (s : State) : FormStep s (caseLeave s) := by
  refine .of ?_
  unfold caseLeave
  split
  · simp
  · simp

@[simp] theorem form_caseEnter (s : State) (x : Nat) : FormStep s (caseEnter s x) := by
  refine .of ?_
  unfold caseEnter
  simp

@[simp] theorem form_fltStep2 (s : State) : FormStep s (fltStep2 s) := by
  refine .of ?_
  unfold fltStep2
  split
  · simp
  · split <;> simp

@[simp] theorem form_imgRepeat (s : State) : FormStep s (imgRepeat s) := .of (by simp [imgRepeat])

@[simp] theorem form_imgGate (s : State) : FormStep s (imgGate s) := .of (by simp [imgGate])

@[simp] theorem form_tickOrder (s : State) : FormStep s (tickOrder s) := by
  refine .of ?_
  unfold tickOrder
  extract_lets s1 img s2 s3 s4 s5
  have h1 : FormStep s s1 := .of (by simp [s1])
  have h2 : FormStep s s2 := .of (by simp [s2, h1])
  have h4 : FormStep s s4 := .of (by simp [s4, s3, h2])
  simp [s5, h4]

@[simp] theorem form_gateTick (s : State) (slacks : List (BitVec 6)) : FormStep s (gateTick s slacks) := by
  refine .of ?_
  simp [gateTick]

theorem execGateTick_form (slacks : List (BitVec 6)) (s : State) : OutForm s (execGateTick slacks s) := .answer (by simp)

end Sys2Proof.Machine
end

section
/-! SUPPORT. Every command, and so every step, keeps the form of the register words (O59). -/

namespace Sys2Proof.Machine

/-- Every command keeps the form of the register words. -/
theorem exec_form (c : Instr) (s : State) : OutForm s (exec c s) := by
  cases c with
  | gateTick slacks => exact execGateTick_form slacks s
  | tickOutFall => exact execTickOutFall_form s
  | timStep v => exact execTimStep_form v s
  | timLock => exact execTimLock_form s
  | timSlew v => exact execTimSlew_form v s
  | referenceLoss => exact execReferenceLoss_form s
  | referenceStable => exact execReferenceStable_form s
  | ppsEdge => exact execPpsEdge_form s
  | ppsLost => exact execPpsLost_form s
  | ppsOutRise => exact execPpsOutRise_form s
  | ppsOutFall => exact execPpsOutFall_form s
  | tsyncSend p => exact execTsyncSend_form p s
  | tsyncLost p => exact execTsyncLost_form p s
  | ingressRequest n hdr => exact execIngressRequest_form n hdr s
  | ingressDataBeat n rsp data be last gap => exact execIngressDataBeat_form n rsp data be last gap s
  | ingressResponse n hdr => exact execIngressResponse_form n hdr s
  | egressCreditReturn n rsp hg hb dg db => exact execEgressCreditReturn_form n rsp hg hb dg db s
  | egressMessageStart n rsp => exact execEgressMessageStart_form n rsp s
  | fenceStrobe n rw pv pasid id => exact execFenceStrobe_form n rw pv pasid id s
  | fenceSatisfied n slice => exact execFenceSatisfied_form n slice s
  | ntfRecordTaken n => exact execNtfRecordTaken_form n s
  | epResetRequest n => exact execEpResetRequest_form n s
  | epRstInEpChange n v => exact execEpRstInEpChange_form n v s
  | niRstInRaise n => exact execNiRstInRaise_form n s
  | epUpRaise n => exact execEpUpRaise_form n s
  | rstStall n => exact execRstStall_form n s
  | routerFlitArrive pl x port err => exact execRouterFlitArrive_form pl x port err s
  | routerFlitForward pl x out err => exact execRouterFlitForward_form pl x out err s
  | linkCreditReturn pl x out w => exact execLinkCreditReturn_form pl x out w s
  | schussPass pl x out fc err eject => exact execSchussPass_form pl x out fc err eject s
  | escWaitExpire pl x port ch => exact execEscWaitExpire_form pl x port ch s
  | mgRdReceive node => exact execMgRdReceive_form node s
  | mgWrReceive node => exact execMgWrReceive_form node s
  | requestArriveAtTarget n => exact execRequestArriveAtTarget_form n s
  | responseArriveAtRequester n => exact execResponseArriveAtRequester_form n s
  | answerListDequeue n => exact execAnswerListDequeue_form n s
  | pisteLaunch n pl => exact execPisteLaunch_form n pl s
  | messageStart n pl => exact execMessageStart_form n pl s
  | attachmentPieceSend n alt pl => exact execAttachmentPieceSend_form n alt pl s
  | wheelBucketBegin n => exact execWheelBucketBegin_form n s
  | trackerTimeout n tag => exact execTrackerTimeout_form n tag s
  | pwDeadline n tag => exact execPwDeadline_form n tag s
  | mcQuarantineEnd n tag => exact execMcQuarantineEnd_form n tag s
  | drainComplete n => exact execDrainComplete_form n s
  | drainDeadline n => exact execDrainDeadline_form n s
  | etcFillAnswer n => exact execEtcFillAnswer_form n s
  | etcFillTimeout n inst x => exact execEtcFillTimeout_form n inst x s
  | etcFillResend n inst x => exact execEtcFillResend_form n inst x s
  | etcInvalidate n inst x => exact execEtcInvalidate_form n inst x s
  | niEtcFlush n => exact execNiEtcFlush_form n s
  | mcCopyReplicate x port => exact execMcCopyReplicate_form x port s
  | gatherAnswer x port => exact execGatherAnswer_form x port s
  | gatherExpire x e => exact execGatherExpire_form x e s
  | mcCopyAtMember n => exact execMcCopyAtMember_form n s
  | memberTimeout n e => exact execMemberTimeout_form n e s
  | notifyReceive n => exact execNotifyReceive_form n s
  | ntfForward => exact execNtfForward_form s
  | niSlcRst n mask => exact execNiSlcRst_form n mask s
  | sliceResetEnd n slice => exact execSliceResetEnd_form n slice s
  | linkFlitSend p => exact execLinkFlitSend_form p s
  | linkFlitReceive p raw bad => exact execLinkFlitReceive_form p raw bad s
  | replayTimerExpire p => exact execReplayTimerExpire_form p s
  | nakTimerExpire p seq => exact execNakTimerExpire_form p seq s
  | spnRetrain p => exact execSpnRetrain_form p s
  | phyDown p => exact execPhyDown_form p s
  | peerRetrainRequest p wide => exact execPeerRetrainRequest_form p wide s
  | retrainDone p up => exact execRetrainDone_form p up s
  | retrainTimeout p => exact execRetrainTimeout_form p s
  | widthCapDrop p cap => exact execWidthCapDrop_form p cap s
  | spnForceDown p => exact execSpnForceDown_form p s
  | spanKeyExpire p => exact execSpanKeyExpire_form p s
  | graceExpire p => exact execGraceExpire_form p s
  | phyUp p => exact execPhyUp_form p s
  | spanPisteStage p => exact execSpanPisteStage_form p s
  | ringPiWrite q v => exact execRingPiWrite_form q v s
  | ringRciWrite q v => exact execRingRciWrite_form q v s
  | ringFetch b => exact execRingFetch_form b s
  | commandArrive q => exact execCommandArrive_form q s
  | sanitise slot => exact execSanitise_form slot s
  | copy slot => exact execCopy_form slot s
  | verify slot => exact execVerify_form slot s
  | move => exact execMove_form s
  | bind => exact execBind_form s
  | unbind => exact execUnbind_form s
  | share => exact execShare_form s
  | sliceReset => exact execSliceReset_form s
  | admitFlow => exact execAdmit_form s
  | admitPeerSegment peer req => exact execAdmitPeerSegment_form peer req s
  | release => exact execRelease_form s
  | telemetry slot => exact execTelemetry_form slot s
  | groom slot => exact execGroom_form slot s
  | fmIdentify => exact execFmIdentify_form s
  | fmBackgroundOperationStatus => exact execFmBackgroundOperationStatus_form s
  | fmGetDcdInfo => exact execFmGetDcdInfo_form s
  | fmGetDcRegionExtentLists => exact execFmGetDcRegionExtentLists_form s
  | fmInitiateDcAdd => exact execFmInitiateDcAdd_form s
  | fmInitiateDcRelease => exact execFmInitiateDcRelease_form s
  | fmUnsupported => exact execFmUnsupported_form s
  | jobComplete slot => exact execJobComplete_form slot s
  | workSteal slot => exact execWorkSteal_form slot s
  | parkWake slot => exact execParkWake_form slot s
  | commandComplete q => exact execCommandComplete_form q s
  | ringReset q => exact execRingReset_form q s
  | ringResume q => exact execRingResume_form q s
  | moveMirrorExpire n x => exact execMoveMirrorExpire_form n x s
  | engineFail e => exact execEngineFail_form e s
  | extentOrphan n => exact execExtentOrphan_form n s
  | journalAppend => exact execJournalAppend_form s
  | homeWriteAck h => exact execHomeWriteAck_form h s
  | homeWriteRetry h => exact execHomeWriteRetry_form h s
  | ebtRepairDone x h0 h1 => exact execEbtRepairDone_form x h0 h1 s
  | jrnRecover => exact execJrnRecover_form s
  | groomNow => exact execGroomNow_form s
  | recoveryStart => exact execRecoveryStart_form s
  | recoveryDone h0 h1 => exact execRecoveryDone_form h0 h1 s
  | homeWaitTimeout => exact execHomeWaitTimeout_form s
  | imgStart m => exact execImgStart_form m s
  | imgData m v => exact execImgData_form m v s
  | imgAbort m => exact execImgAbort_form m s
  | imageVerifyDone => exact execImageVerifyDone_form s
  | imagePrecheck => exact execImagePrecheck_form s
  | epochRelease => exact execEpochRelease_form s
  | pwrSetLevel m req => exact execPwrSetLevel_form m req s
  | pwrCg m req => exact execPwrCg_form m req s
  | pwrRet m req => exact execPwrRet_form m req s
  | pwrOff m req => exact execPwrOff_form m req s
  | pwrWake m req => exact execPwrWake_form m req s
  | pwrPgood => exact execPwrPgood_form s
  | vrTimeout => exact execVrTimeout_form s
  | regionDrainDone => exact execRegionDrainDone_form s
  | regionDrainDeadline => exact execRegionDrainDeadline_form s
  | regionEntryDone => exact execRegionEntryDone_form s
  | regionWakeReady => exact execRegionWakeReady_form s
  | por => exact execPor_form s
  | coldResetAssert => exact execColdResetAssert_form s
  | coldResetRelease => exact execColdResetRelease_form s
  | coldInitDone => exact execColdInitDone_form s
  | glbRstCold m => exact execGlbRstCold_form m s
  | glbRstWarm m => exact execGlbRstWarm_form m s
  | warmResetAssert => exact execWarmResetAssert_form s
  | warmQuiesceDone => exact execWarmQuiesceDone_form s
  | warmResetRelease => exact execWarmResetRelease_form s
  | glbRstNi m w mask => exact execGlbRstNi_form m w mask s
  | epClkLoss n => exact execEpClkLoss_form n s
  | wireSteer pl x port g => exact execWireSteer_form pl x port g s
  | wireCountExpire pl x port g => exact execWireCountExpire_form pl x port g s
  | routerHeartbeatLoss x => exact execRouterHeartbeatLoss_form x s
  | glbFltDecl m v => exact execGlbFltDecl_form m v s
  | rehomeDone => exact execRehomeDone_form s
  | glbFltRestore m v => exact execGlbFltRestore_form m v s
  | routerBistDone pass => exact execRouterBistDone_form pass s
  | rowRemap kind unit row err bothCopies => exact execRowRemap_form kind unit row err bothCopies s
  | mmRequest m addr wr dataCls lock len => exact execMmRequest_form m addr wr dataCls lock len s
  | mmGrant t => exact execMmGrant_form t s
  | mmWriteBeat m data strb => exact execMmWriteBeat_form m data strb s
  | mmBurstPiece t => exact execMmBurstPiece_form t s
  | lockBreak t => exact execLockBreak_form t s
  | cntSnapCtl v => exact execCntSnapCtl_form v s
  | counterSnapshot => exact execCounterSnapshot_form s
  | snapshotDone => exact execSnapshotDone_form s
  | cntThrCfg j v => exact execCntThrCfg_form j v s
  | sltPrsntChange n v => exact execSltPrsntChange_form n v s
  | presenceDebounced n => exact execPresenceDebounced_form n s
  | moduleRemoval n => exact execModuleRemoval_form n s
  | slotPgoodRise n => exact execSlotPgoodRise_form n s
  | rampTimeout n => exact execRampTimeout_form n s
  | slotFault n code => exact execSlotFault_form n code s
  | slotPgoodDrop n => exact execSlotPgoodDrop_form n s
  | pgLost n => exact execPgLost_form n s
  | retryEnd n => exact execRetryEnd_form n s
  | slotFeedChange n feed => exact execSlotFeedChange_form n feed s
  | mclr m n => exact execMclr_form m n s
  | clear m n => exact execClear_form m n s
  | plock m n => exact execPlock_form m n s
  | slotOff m n force => exact execSlotOff_form m n force s
  | slotOn m n => exact execSlotOn_form m n s
  | tokenStart m => exact execTokenStart_form m s
  | tokenData m v => exact execTokenData_form m v s
  | tokenAbort m => exact execTokenAbort_form m s
  | toProvision fuseOk => exact execToProvision_form fuseOk s
  | toField fuseOk => exact execToField_form fuseOk s
  | toReturn fuseOk => exact execToReturn_form fuseOk s
  | toScrap fuseOk => exact execToScrap_form fuseOk s
  | debugUnlock => exact execDebugUnlock_form s
  | floor fuseOk => exact execFloor_form fuseOk s
  | keyProgram m v fuseOk => exact execKeyProgram_form m v fuseOk s
  | relock m => exact execRelock_form m s
  | sessionExpire => exact execSessionExpire_form s
  | jtagInstruction op => exact execJtagInstruction_form op s
  | testScanEnd extest => exact execTestScanEnd_form extest s
  | registerWrite m addr data strb => exact execRegisterWrite_form m addr data strb s
  | epRstReqEpFall n => exact execEpRstReqEpFall_form n s
  | rinkInResetRaise b => exact execRinkInResetRaise_form b s
  | tokenRefusal => exact execTokenRefusal_form s

/-- Settles O59: a step is a cycle of the timing clock, which writes the flags of the time base, or a command, and a command changes the
register words by writes of single words, each of which keeps the form, and by taking words off the list. -/
theorem everyStepKeepsTheRegisterForm : Obligations.EveryStepKeepsTheRegisterForm := by
  unfold Obligations.EveryStepKeepsTheRegisterForm
  intro s t hstep
  cases hq : s.pending with
  | nil =>
    rw [step_of_empty hq] at hstep
    cases hstep
    exact (show KeptForm s _ by simp).keeps
  | cons c r =>
    rw [step_of_cons hq] at hstep
    exact ((exec_form c _).kept t hstep).keeps

end Sys2Proof.Machine
end

section
/-! SUPPORT. What raising a notification and counting an event leave unchanged, one lemma per field (23 R478, 20 R422). -/

namespace Sys2Proof.Machine

/-- t differs from s in what notifications, event counts and free values write. -/
structure Noted (s t : State) : Prop where
  whole : t = { s with regs := t.regs, nis := t.nis, ntf := t.ntf, flt := { s.flt with log := t.flt.log }, free := t.free }
  words : ∀ a, noteWord a = false → rd t a = rd s a
  nis : ∀ m, SameNi s t m

theorem Noted.refl (s : State) : Noted s s := ⟨rfl, fun _ _ => rfl, fun _ => rfl⟩

theorem Noted.trans {s t u : State} (h : Noted s t) (k : Noted t u) : Noted s u where
  whole := by
    rw [k.whole]
    conv_lhs => rw [h.whole]
  words a ha := (k.words a ha).trans (h.words a ha)
  nis m := (h.nis m).trans (k.nis m)

theorem NoteOnly.noted {s t : State} (h : NoteOnly s t) : Noted s t := by
  obtain ⟨hwhole, hwords, hnis⟩ := h
  exact ⟨by rw [hwhole], hwords, hnis⟩

theorem Noted.niNote {s t : State} (h : Noted s t) (n : Nat) (l : List Nat) : NiNote n l s t :=
  ⟨h.whole, fun a _ => h.words a, fun m _ => h.nis m⟩

theorem noted_takeFree (s : State) : Noted s (takeFree s).2 := ⟨rfl, fun _ _ => rfl, fun _ => rfl⟩
theorem noted_raiseG (s : State) (unit code sev info : Nat) : Noted s (raiseG s unit code sev info) := (raiseG_noteOnly ..).noted
theorem noted_raiseNi (s : State) (n code sev info slice : Nat) : Noted s (raiseNi s n code sev info slice) := (raiseNi_noteOnly ..).noted
theorem noted_raiseGFree (s : State) (unit code sev : Nat) : Noted s (raiseGFree s unit code sev) := (noted_takeFree s).trans (noted_raiseG ..)
theorem noted_raiseNiFree (s : State) (n code sev slice : Nat) : Noted s (raiseNiFree s n code sev slice) :=
  (noted_takeFree s).trans (noted_raiseNi ..)

theorem rd_raiseG (s : State) (unit code sev info : Nat) {a : Nat} (h : noteWord a = false) :
    rd (raiseG s unit code sev info) a = rd s a := (noted_raiseG ..).words a h
theorem rd_raiseNiFree (s : State) (n code sev slice : Nat) {a : Nat} (h : noteWord a = false) :
    rd (raiseNiFree s n code sev slice) a = rd s a := (noted_raiseNiFree ..).words a h

@[simp] theorem raiseG_gen (s : State) (unit code sev info : Nat) : (raiseG s unit code sev info).gen = s.gen := by rw [(noted_raiseG ..).whole]
@[simp] theorem raiseG_cnt (s : State) (unit code sev info : Nat) : (raiseG s unit code sev info).cnt = s.cnt := by rw [(noted_raiseG ..).whole]
@[simp] theorem raiseG_lcs (s : State) (unit code sev info : Nat) : (raiseG s unit code sev info).lcs = s.lcs := by rw [(noted_raiseG ..).whole]
@[simp] theorem raiseG_pending (s : State) (unit code sev info : Nat) : (raiseG s unit code sev info).pending = s.pending := by rw [(noted_raiseG ..).whole]

@[simp] theorem raiseNiFree_eng (s : State) (n code sev slice : Nat) : (raiseNiFree s n code sev slice).eng = s.eng := by rw [(noted_raiseNiFree ..).whole]

end Sys2Proof.Machine
end

section
/-! SUPPORT. The slot manager of an NI (21): what its steps make of the slot, and what they leave unchanged. -/

namespace Sys2Proof.Machine

/-! The slot of an NI. -/

theorem getNi_updSlt_same (s : State) (n : Nat) (f : SlotSt → SlotSt) :
    getNi (updSlt s n f) n = { getNi s n with slot := f (getSlt s n) } := getNi_updNi_same ..

@[simp] theorem getSlt_updSlt_same (s : State) (n : Nat) (f : SlotSt → SlotSt) : getSlt (updSlt s n f) n = f (getSlt s n) := by
  rw [getSlt, getNi_updSlt_same]

theorem updSlt_niOnly (s : State) (n : Nat) (f : SlotSt → SlotSt) : NiOnly n s (updSlt s n f) := .updNi ..

theorem NiOnly.refl (n : Nat) (s : State) : NiOnly n s s := ⟨rfl, fun _ _ => rfl⟩

theorem slotHas_lt {s : State} {n : Nat} (h : slotHas s n = true) : n < 128 := by
  unfold slotHas nSlots at h
  simp only [Bool.and_eq_true, decide_eq_true_eq] at h
  obtain ⟨-, hn⟩ := h
  split at hn <;> omega

theorem slotResult_niOnly (s : State) (n res : Nat) : NiOnly n s (slotResult s n res) := updSlt_niOnly ..

theorem slotRamp_niOnly (s : State) (n : Nat) : NiOnly n s (slotRamp s n) := by
  unfold slotRamp
  dsimp only
  split
  · exact updSlt_niOnly ..
  · exact .refl n s

theorem slotResume_niOnly (s : State) (n : Nat) : NiOnly n s (slotResume s n) := (updSlt_niOnly ..).trans (slotRamp_niOnly ..)

/-- A slot after slotRamp: READY with PREQ ramps (21 R441). -/
def ramped (s : State) (q : SlotSt) : SlotSt :=
  if q.state = 3 ∧ q.preq then { q with state := 4, en := true, rampNs := nowNs s, pgLow := none } else q

theorem getNi_slotRamp (s : State) (n : Nat) : getNi (slotRamp s n) n = { getNi s n with slot := ramped s (getSlt s n) } := by
  unfold slotRamp ramped
  dsimp only
  split
  · exact getNi_updSlt_same ..
  · rfl

/-- A slot after slotResume (21 R445). -/
def resumed (s : State) (q : SlotSt) : SlotSt :=
  ramped s { q with retryEnd := 0, state := if q.debounced then 3 else if q.prsntN then 1 else 2 }

theorem getNi_slotResume (s : State) (n : Nat) : getNi (slotResume s n) n = { getNi s n with slot := resumed s (getSlt s n) } := by
  unfold slotResume resumed
  rw [getNi_slotRamp, getSlt_updSlt_same, getNi_updSlt_same]
  rfl

theorem getNi_slotResult (s : State) (n res : Nat) :
    getNi (slotResult s n res) n = { getNi s n with slot := { getSlt s n with result := BitVec.ofNat 4 res } } := getNi_updSlt_same ..

/-! Leaving a state, with the removal of the module where it was ON (21 R448). -/

/-- t differs from s in NI n's slot, its status and counters, the engines' commands, and what notifications write. -/
structure SlotOnly (n : Nat) (s t : State) : Prop where
  whole : t = { s with
    regs := t.regs, nis := t.nis, eng := t.eng, ntf := t.ntf, flt := { s.flt with log := t.flt.log }, free := t.free }
  nis : ∀ m, m ≠ n → SameNi s t m

theorem SlotOnly.trans {n : Nat} {s t u : State} (h : SlotOnly n s t) (k : SlotOnly n t u) : SlotOnly n s u where
  whole := by
    rw [k.whole]
    conv_lhs => rw [h.whole]
  nis m hm := (h.nis m hm).trans (k.nis m hm)

theorem NiNote.slotOnly {n : Nat} {l : List Nat} {s t : State} (h : NiNote n l s t) : SlotOnly n s t := by
  obtain ⟨hwhole, -, hnis⟩ := h
  exact ⟨by rw [hwhole], hnis⟩

theorem NiOnly.slotOnly {n : Nat} {s t : State} (h : NiOnly n s t) : SlotOnly n s t := (h.niNote []).slotOnly

theorem Noted.slotOnly {n : Nat} {s t : State} (h : Noted s t) : SlotOnly n s t := (h.niNote n []).slotOnly

theorem slotOnly_setFlag (n : Nat) (s : State) (a i : Nat) : SlotOnly n s (setFlag s a i) := ⟨rfl, fun m _ => .refl s m⟩

theorem slotOnly_incSat (n : Nat) (s : State) (a d : Nat) : SlotOnly n s (incSat s a d) := ⟨rfl, fun m _ => .refl s m⟩

theorem slotOnly_keepLast {n : Nat} {s t : State} (u : State) (g : Nat) (h : SlotOnly n s t) : SlotOnly n s (keepLast u t g) := by
  refine ⟨?_, h.nis⟩
  unfold keepLast
  conv_lhs => rw [h.whole]

theorem completes_of_slotOnly {n : Nat} {c : Instr} {s t : State} {P : State → Prop} (hexec : exec c s = answer s t)
    (h : SlotOnly n s t) (hP : P t) : Completes c s P := by
  have hwhole := h.whole
  exact completes_of_answer hexec (by rw [hwhole]) (by rw [hwhole]) (by rw [hwhole]) hP

theorem noted_slotNote (s : State) (n code sev : Nat) : Noted s (slotNote s n code sev) := noted_raiseNiFree ..

theorem SameNi.slot {s t : State} {n : Nat} (h : SameNi s t n) : getSlt t n = getSlt s n := by
  unfold getSlt
  rw [h]

@[simp] theorem getSlt_slotNote (s : State) (n code sev m : Nat) : getSlt (slotNote s n code sev) m = getSlt s m :=
  ((noted_slotNote ..).nis m).slot

@[simp] theorem slotNote_eng (s : State) (n code sev : Nat) : (slotNote s n code sev).eng = s.eng := raiseNiFree_eng ..

@[simp] theorem getSlt_setFlag (s : State) (a i n : Nat) : getSlt (setFlag s a i) n = getSlt s n := rfl

@[simp] theorem getSlt_incSat (s : State) (a d n : Nat) : getSlt (incSat s a d) n = getSlt s n := rfl

@[simp] theorem getSlt_keepLast (u t : State) (g n : Nat) : getSlt (keepLast u t g) n = getSlt t n := rfl

/-- Registers of a slot: no notification writes them (21 Table 21.5). -/
theorem rd_slotNote (s : State) {n off : Nat} (code sev : Nat) (hn : n < 128) (ho : off < 0x2000) (hlost : off ≠ 0x20) :
    rd (slotNote s n code sev) (aNi n off) = rd s (aNi n off) := rd_raiseNiFree s n code sev 15 (noteWord_aNi hn ho hlost)

theorem slotOnly_submitOrphan (s : State) (n : Nat) : SlotOnly n s (submitOrphan s n) := ⟨rfl, fun m _ => .refl s m⟩

@[simp] theorem getSlt_submitOrphan (s : State) (n m : Nat) : getSlt (submitOrphan s n) m = getSlt s m := rfl

@[simp] theorem rd_submitOrphan (s : State) (n a : Nat) : rd (submitOrphan s n) a = rd s a := rfl

theorem ctlQ_submitOrphan (s : State) (n : Nat) : (submitOrphan s n).eng.ctlQ = s.eng.ctlQ ++ [s.eng.nextKey] := rfl

theorem slotRemoved_slotOnly (s : State) (n : Nat) : SlotOnly n s (slotRemoved s n) :=
  ((slotOnly_setFlag ..).trans (noted_slotNote ..).slotOnly).trans (slotOnly_submitOrphan ..)

@[simp] theorem getSlt_slotRemoved (s : State) (n m : Nat) : getSlt (slotRemoved s n) m = getSlt s m := by simp [slotRemoved]

theorem rd_slotRemoved (s : State) {n off : Nat} (hn : n < 128) (ho : off < 0x2000) (hlost : off ≠ 0x20) :
    rd (slotRemoved s n) (aNi n off) = rd (setFlag s (aNi n 0x1F18) 5) (aNi n off) := by
  rw [slotRemoved, rd_submitOrphan, rd_slotNote _ 0x212 1 hn ho hlost]

/-- The removal of the module waits in the control queue (14 R306). -/
theorem ctlQ_slotRemoved (s : State) (n : Nat) : (slotRemoved s n).eng.ctlQ = s.eng.ctlQ ++ [s.eng.nextKey] := by
  rw [slotRemoved, ctlQ_submitOrphan, slotNote_eng, setFlag_eng]

/-- A slot that has left its state with slt_en at 0. -/
def left (q : SlotSt) (st : BitVec 3) : SlotSt := { q with state := st, en := false, pgLow := none }

theorem slotLeave_eq_of_on {s : State} {n : Nat} (st : BitVec 3) (h : (getSlt s n).state = 5) :
    slotLeave s n st = slotRemoved (updSlt s n fun q => left q st) n := if_pos h

theorem slotLeave_eq_of_not_on {s : State} {n : Nat} (st : BitVec 3) (h : (getSlt s n).state ≠ 5) :
    slotLeave s n st = updSlt s n fun q => left q st := if_neg h

theorem slotLeave_slotOnly (s : State) (n : Nat) (st : BitVec 3) : SlotOnly n s (slotLeave s n st) := by
  have hleft := (updSlt_niOnly s n fun q => left q st).slotOnly
  by_cases h : (getSlt s n).state = 5
  · rw [slotLeave_eq_of_on st h]
    exact hleft.trans (slotRemoved_slotOnly ..)
  · rw [slotLeave_eq_of_not_on st h]
    exact hleft

@[simp] theorem getSlt_slotLeave (s : State) (n : Nat) (st : BitVec 3) : getSlt (slotLeave s n st) n = left (getSlt s n) st := by
  by_cases h : (getSlt s n).state = 5
  · rw [slotLeave_eq_of_on st h, getSlt_slotRemoved, getSlt_updSlt_same]
  · rw [slotLeave_eq_of_not_on st h, getSlt_updSlt_same]

end Sys2Proof.Machine
end

section
/-! SUPPORT. The commands of SLT_CTL (21 R451, Tables 21.3 and 21.4; for O52). -/

namespace Sys2Proof.Machine

theorem slotCmd_cp {s : State} {n : BitVec 6} (f : State → Nat → State) (h : slotHas s n.toNat = true) :
    slotCmd s .cp n f = f s n.toNat := if_pos ⟨rfl, h⟩

theorem slotCmd_other {s : State} {m : Master} (n : BitVec 6) (f : State → Nat → State) (h : m ≠ .cp) : slotCmd s m n f = s :=
  if_neg fun hm => h hm.1

/-- A command of the slot that ends in NI n alone. -/
theorem completes_slotCmd {c : Instr} {s : State} {n : BitVec 6} {k : Nat} {v : SlotSt} {f : State → Nat → State} (hk : k = n.toNat)
    (hexec : exec c s = answer s (slotCmd s .cp n f)) (hhas : slotHas s k = true) (honly : NiOnly k s (f s k))
    (hslot : getNi (f s k) k = { getNi s k with slot := v }) :
    Completes c s fun t => NiOnly k s t ∧ getNi t k = { getNi s k with slot := v } := by
  subst hk
  rw [slotCmd_cp f hhas] at hexec
  exact completes_of_niOnly hexec honly ⟨honly, hslot⟩

theorem slotMclr_niOnly (s : State) (n : Nat) : NiOnly n s (slotMclr s n) := by
  unfold slotMclr
  dsimp only
  split
  · exact slotResult_niOnly ..
  · split
    · exact slotResult_niOnly ..
    · exact (updSlt_niOnly ..).trans (slotResult_niOnly ..)

theorem getNi_slotMclr (s : State) (n : Nat) {q : SlotSt} (hq : q = getSlt s n) : getNi (slotMclr s n) n = { getNi s n with slot :=
    if q.state ≠ 7 ∨ q.perm = false then { q with result := 2 }
    else if q.prsntN = false then { q with result := 6 }
    else { q with perm := false, fcnt := 0, result := 0, state := if bitOf (slotCfg s n) 0 then 1 else 0 } } := by
  subst hq
  unfold slotMclr
  simp only [Bool.not_eq_true']
  split
  · exact getNi_slotResult ..
  · split
    · exact getNi_slotResult ..
    · rw [getNi_slotResult, getNi_updSlt_same, getSlt_updSlt_same]
      rfl

theorem slotClear_niOnly (s : State) (n : Nat) : NiOnly n s (slotClear s n) := by
  unfold slotClear
  dsimp only
  split
  · exact slotResult_niOnly ..
  · split
    · exact slotResult_niOnly ..
    · exact ((updSlt_niOnly ..).trans (slotResume_niOnly ..)).trans (slotResult_niOnly ..)

theorem getNi_slotClear (s : State) (n : Nat) {q : SlotSt} (hq : q = getSlt s n) : getNi (slotClear s n) n = { getNi s n with slot :=
    if q.perm then { q with result := 2 }
    else if q.state ≠ 7 then { q with result := 0 }
    else if q.debounced && q.preq then
      { q with fcnt := 0, retryEnd := 0, state := 4, en := true, rampNs := nowNs s, pgLow := none, result := 0 }
    else { q with fcnt := 0, retryEnd := 0, result := 0, state := if q.debounced then 3 else if q.prsntN then 1 else 2 } } := by
  subst hq
  unfold slotClear
  dsimp only
  split
  · exact getNi_slotResult ..
  · split
    · exact getNi_slotResult ..
    · rw [getNi_slotResult, getSlt, getNi_slotResume, getSlt_updSlt_same, getNi_updSlt_same]
      unfold resumed ramped
      cases (getSlt s n).debounced <;> cases (getSlt s n).preq <;> cases (getSlt s n).prsntN <;> rfl

theorem slotPowerOn_niOnly (s : State) (n : Nat) : NiOnly n s (slotPowerOn s n) := by
  unfold slotPowerOn
  split
  · exact slotResult_niOnly ..
  · exact ((updSlt_niOnly ..).trans (slotRamp_niOnly ..)).trans (slotResult_niOnly ..)

theorem getNi_slotPowerOn (s : State) (n : Nat) {q : SlotSt} (hq : q = getSlt s n) : getNi (slotPowerOn s n) n = { getNi s n with slot :=
    if q.state = 0 then { q with result := 5 }
    else if q.state = 3 then { q with preq := true, state := 4, en := true, rampNs := nowNs s, pgLow := none, result := 0 }
    else { q with preq := true, result := 0 } } := by
  subst hq
  unfold slotPowerOn
  split
  · exact getNi_slotResult ..
  · rw [getNi_slotResult, getSlt, getNi_slotRamp, getSlt_updSlt_same, getNi_updSlt_same]
    unfold ramped
    dsimp only
    split
    next h => rw [if_pos h.1]; rfl
    next h => rw [if_neg fun hs => h ⟨hs, rfl⟩]; rfl

end Sys2Proof.Machine
end

section
/-! SUPPORT. The commands of SLT_CTL and the results they leave (21 R451, Tables 21.3 and 21.4; for O52). -/

namespace Sys2Proof.Machine

theorem slotOff_held {s : State} {n : Nat} (hon : (getSlt s n).state = 5) (htbt : (getNi s n).dec.tbt ≠ []) :
    slotOff s n false = slotResult s n 3 := if_pos ⟨hon, rfl, by simpa using htbt⟩

theorem slotOff_freed {s : State} {n : Nat} {force : Bool} (h : (getSlt s n).state ≠ 5 ∨ force = true ∨ (getNi s n).dec.tbt = []) :
    slotOff s n force = if slotHome s n then slotResult s n 4
      else
        let s1 := updSlt s n fun q => { q with preq := false }
        slotResult (if (getSlt s n).state = 4 ∨ (getSlt s n).state = 5 then slotLeave s1 n 3 else s1) n 0 :=
  if_neg fun ⟨hon, hforce, htbt⟩ => by
    obtain h | h | h := h
    · exact h hon
    · simp [h] at hforce
    · simp [h] at htbt

theorem slotOff_home {s : State} {n : Nat} {force : Bool} (h : (getSlt s n).state ≠ 5 ∨ force = true ∨ (getNi s n).dec.tbt = [])
    (hhome : slotHome s n = true) : slotOff s n force = slotResult s n 4 := (slotOff_freed h).trans (if_pos hhome)

/-- OFF at a slot that is no journal home: out of ON the module is removed (21 R448). -/
theorem slotOff_spec {s t : State} {n : Nat} {force : Bool} {q : SlotSt} (hq : q = getSlt s n)
    (h : q.state ≠ 5 ∨ force = true ∨ (getNi s n).dec.tbt = []) (hhome : slotHome s n = false) (ht : t = slotOff s n force) :
    SlotOnly n s t ∧ getSlt t n = (if q.state = 4 ∨ q.state = 5
        then { q with preq := false, state := 3, en := false, pgLow := none, result := 0 } else { q with preq := false, result := 0 }) ∧
      (q.state ≠ 5 → NiOnly n s t) ∧ (q.state = 5 → t.eng.ctlQ = s.eng.ctlQ ++ [s.eng.nextKey]) := by
  subst hq
  rw [slotOff_freed h, if_neg (by simp [hhome])] at ht
  dsimp only at ht
  have hset : NiOnly n s (updSlt s n fun q => { q with preq := false }) := updSlt_niOnly ..
  by_cases hon : (getSlt s n).state = 5
  · rw [if_pos (.inr hon)] at ht
    refine ⟨?_, ?_, fun hoff => absurd hon hoff, fun _ => ?_⟩
    · rw [ht]
      exact (hset.slotOnly.trans (slotLeave_slotOnly ..)).trans (slotResult_niOnly ..).slotOnly
    · rw [if_pos (.inr hon), ht]
      simp [slotResult, left]
    · have hleave : (getSlt (updSlt s n fun q => { q with preq := false }) n).state = 5 := by simpa using hon
      rw [ht, slotLeave_eq_of_on 3 hleave]
      exact ctlQ_slotRemoved ..
  · have hplain : NiOnly n s t := by
      rw [ht]
      refine NiOnly.trans ?_ (slotResult_niOnly ..)
      split
      · rw [slotLeave_eq_of_not_on 3 (by simpa using hon)]
        exact hset.trans (updSlt_niOnly ..)
      · exact hset
    refine ⟨hplain.slotOnly, ?_, fun _ => hplain, fun h => absurd h hon⟩
    rw [ht]
    split <;> simp [slotResult, left]

theorem slotPlock_spec (s : State) (n : Nat) : SlotOnly n s (slotPlock s n) ∧ getSlt (slotPlock s n) n =
    { getSlt s n with state := 7, en := false, pgLow := none, perm := true, retryEnd := 0, result := 0 } := by
  refine ⟨?_, by simp [slotPlock, slotResult, left]⟩
  exact ((slotLeave_slotOnly ..).trans (updSlt_niOnly ..).slotOnly).trans (slotResult_niOnly ..).slotOnly

theorem completes_of_eq_self {c : Instr} {s : State} (h : exec c s = answer s s) : Completes c s fun t => t = s :=
  completes_of_answer h rfl rfl rfl rfl

/-- Settles O52: every command but a removal changes the slot alone; OFF of a slot in ON, and PLOCK, may remove its module. -/
theorem slotCommandsAreCarriedOut : Obligations.SlotCommandsAreCarriedOut := by
  unfold Obligations.SlotCommandsAreCarriedOut
  intro s n k q hk hq hhas
  have hexec : ∀ {c : Instr} (f : State → Nat → State), exec c s = answer s (slotCmd s .cp n f) → exec c s = answer s (f s k) := by
    intro c f h
    rw [h, slotCmd_cp f (hk ▸ hhas), hk]
  refine ⟨?mclr, ?clear, ?plock, fun force => ⟨?held, ?home, ?off⟩, ?on, ?others⟩
  case mclr => exact completes_slotCmd (f := slotMclr) hk rfl hhas (slotMclr_niOnly s k) (getNi_slotMclr s k hq)
  case clear => exact completes_slotCmd (f := slotClear) hk rfl hhas (slotClear_niOnly s k) (getNi_slotClear s k hq)
  case plock =>
    obtain ⟨honly, hslot⟩ := slotPlock_spec s k
    exact completes_of_slotOnly (hexec slotPlock rfl) honly ⟨hq ▸ hslot, honly.nis⟩
  case held =>
    intro hon hforce htbt
    subst hforce hq
    have heq := hexec (c := .slotOff .cp n false) (fun t j => slotOff t j false) rfl
    rw [slotOff_held hon htbt] at heq
    exact completes_of_niOnly heq (slotResult_niOnly ..) ⟨slotResult_niOnly .., getNi_slotResult s k 3⟩
  case home =>
    intro h hhome
    subst hq
    have heq := hexec (c := .slotOff .cp n force) (fun t j => slotOff t j force) rfl
    rw [slotOff_home h hhome] at heq
    exact completes_of_niOnly heq (slotResult_niOnly ..) ⟨slotResult_niOnly .., getNi_slotResult s k 4⟩
  case off =>
    intro h hhome
    obtain ⟨honly, hslot, hplain, hqueue⟩ := slotOff_spec hq h hhome rfl
    exact completes_of_slotOnly (hexec (fun t j => slotOff t j force) rfl) honly ⟨hslot, hplain, hqueue⟩
  case on => exact completes_slotCmd (f := slotPowerOn) hk rfl hhas (slotPowerOn_niOnly s k) (getNi_slotPowerOn s k hq)
  case others =>
    rintro m c force hm (rfl | rfl | rfl | rfl | rfl) <;>
      exact completes_of_eq_self (congrArg (answer s) (slotCmd_other n _ hm))

end Sys2Proof.Machine
end

section
/-! SUPPORT. Pins, faults and retries of a slot (21 R440 to R448; for O51). -/

namespace Sys2Proof.Machine

theorem slotOn_of_enabled {s : State} {n : Nat} (hhas : slotHas s n = true) (hen : bitOf (slotCfg s n) 0 = true)
    (hst : (getSlt s n).state ≠ 0) : slotOn s n = true := by
  simpa [slotOn, hhas, hen] using hst

theorem slotOn_of_disabled {s : State} {n : Nat} (hen : bitOf (slotCfg s n) 0 = false) : slotOn s n = false := by simp [slotOn, hen]

theorem bitOf_setFlag_same (s : State) (a : Nat) {i : Nat} (hi : i < 64) : bitOf (rd (setFlag s a i) a) i = true := by
  rw [rd_setFlag, if_pos rfl, bitOf_or_flag _ hi]

@[simp] theorem rd_updSlt (s : State) (n : Nat) (f : SlotSt → SlotSt) (a : Nat) : rd (updSlt s n f) a = rd s a := rfl

@[simp] theorem nowNs_updSlt (s : State) (n : Nat) (f : SlotSt → SlotSt) : nowNs (updSlt s n f) = nowNs s := rfl

theorem SlotOnly.nowNs {n : Nat} {s t : State} (h : SlotOnly n s t) : nowNs t = nowNs s := by
  unfold Machine.nowNs
  rw [h.whole]

/-- A register of the slot but its status is as it was when the slot leaves a state. -/
theorem rd_slotLeave (s : State) {n off : Nat} (st : BitVec 3) (hn : n < 128) (ho : off < 0x2000) (hlost : off ≠ 0x20)
    (hstat : off ≠ 0x1F18) : rd (slotLeave s n st) (aNi n off) = rd s (aNi n off) := by
  by_cases h : (getSlt s n).state = 5
  · rw [slotLeave_eq_of_on st h, rd_slotRemoved _ hn ho hlost, rd_setFlag, if_neg (by unfold aNi; omega)]
    rfl
  · rw [slotLeave_eq_of_not_on st h]
    rfl

/-- Flags of SLT_STAT stay when the slot leaves a state. -/
theorem bitOf_slotLeave {s : State} {n : Nat} (st : BitVec 3) {i : Nat} (hn : n < 128) (h : bitOf (rd s (aNi n 0x1F18)) i = true) :
    bitOf (rd (slotLeave s n st) (aNi n 0x1F18)) i = true := by
  by_cases hon : (getSlt s n).state = 5
  · rw [slotLeave_eq_of_on st hon, rd_slotRemoved _ hn (by decide) (by decide)]
    exact bitOf_setFlag _ 5 h
  · rw [slotLeave_eq_of_not_on st hon]
    exact h

/-- Leaving ON sets the flag of a removal (21 R448). -/
theorem bitOf_slotLeave_of_on {s : State} {n : Nat} (st : BitVec 3) (hn : n < 128) (hon : (getSlt s n).state = 5) :
    bitOf (rd (slotLeave s n st) (aNi n 0x1F18)) 5 = true := by
  rw [slotLeave_eq_of_on st hon, rd_slotRemoved _ hn (by decide) (by decide)]
  exact bitOf_setFlag_same _ _ (by decide)

/-- A fault is counted, recorded as the cause, and flagged (21 R443). -/
theorem slotFaultNote_spec {s t : State} {n cause : Nat} (hn : n < 128) (ht : t = slotFaultNote s n cause) :
    SlotOnly n s t ∧ getSlt t n = { getSlt s n with cause := BitVec.ofNat 4 cause } ∧ bitOf (rd t (aNi n 0x1F18)) 0 = true ∧
      (rd t (aNi n 0x1F20)).toNat = min 0xFFFFFFFF ((rd s (aNi n 0x1F20)).toNat + 1) := by
  unfold slotFaultNote at ht
  extract_lets st u at ht
  have hu : SlotOnly n s u := ((slotOnly_incSat ..).trans (slotOnly_setFlag ..)).trans (updSlt_niOnly ..).slotOnly
  have hnote : Noted u t := ht ▸ noted_raiseNi ..
  refine ⟨hu.trans hnote.slotOnly, ?_, ?_, ?_⟩
  · rw [(hnote.nis n).slot]
    rw [getSlt_updSlt_same, getSlt_setFlag, getSlt_incSat]
  · rw [hnote.words _ (noteWord_aNi hn (by decide) (by decide)), rd_updSlt]
    exact bitOf_setFlag_same _ _ (by decide)
  · rw [hnote.words _ (noteWord_aNi hn (by decide) (by decide)), rd_updSlt, rd_setFlag, if_neg (by unfold aNi; omega)]
    exact toNat_incSat ..

/-- RETRY begins (21 R445): one second, and out of ON the module is removed. -/
theorem slotRetry_spec {s t : State} {n : Nat} (ht : t = slotRetry s n) :
    SlotOnly n s t ∧ getSlt t n = { left (getSlt s n) 6 with retryEnd := nowNs s + 1000000000 } ∧
      ∀ a, rd t a = rd (slotLeave s n 6) a := by
  subst ht
  refine ⟨?_, by simp [slotRetry, slotFaultLeave], fun _ => rfl⟩
  exact (slotOnly_keepLast s 0x21 (slotLeave_slotOnly s n 6)).trans (updSlt_niOnly ..).slotOnly

theorem ofNat_fcnt_succ {c : BitVec 2} (h : c.toNat < 2) : BitVec.ofNat 2 (min 3 (c.toNat + 1)) = c + 1 := by
  revert c
  decide

theorem slotRampFault_retries {s : State} {n cause : Nat} (h : (getSlt (slotFaultNote s n cause) n).fcnt.toNat < 2) :
    slotRampFault s n cause = slotRetry (updSlt (slotFaultNote s n cause) n fun q =>
      { q with fcnt := (getSlt (slotFaultNote s n cause) n).fcnt + 1 }) n := by
  unfold slotRampFault
  dsimp only
  rw [if_neg (by omega), ofNat_fcnt_succ h]

theorem slotRampFault_locks {s : State} {n cause : Nat} (h : 2 ≤ (getSlt (slotFaultNote s n cause) n).fcnt.toNat) :
    slotRampFault s n cause = slotNote (setFlag (slotLeave (updSlt (slotFaultNote s n cause) n fun q => { q with fcnt := 3 }) n 7)
      (aNi n 0x1F18) 1) n 0x214 2 := by
  unfold slotRampFault
  dsimp only
  rw [if_pos (by omega), show min 3 _ = 3 by omega]
  rfl

/-- A first or second fault in RAMP: the slot retries (21 R444). -/
theorem slotRampFault_spec {s t : State} {n cause : Nat} {q : SlotSt} (hn : n < 128) (hq : q = getSlt s n) (hstate : q.state = 4)
    (hfcnt : q.fcnt.toNat < 2) (ht : t = slotRampFault s n cause) :
    SlotOnly n s t ∧ getSlt t n = { q with
        state := 6, en := false, pgLow := none, fcnt := q.fcnt + 1, cause := BitVec.ofNat 4 cause, retryEnd := nowNs s + 1000000000 } ∧ bitOf (rd t (aNi n 0x1F18)) 0 = true ∧
      (rd t (aNi n 0x1F20)).toNat = min 0xFFFFFFFF ((rd s (aNi n 0x1F20)).toNat + 1) := by
  subst hq
  obtain ⟨hfault, hslot, hflag, hcount⟩ := slotFaultNote_spec (s := s) (cause := cause) hn rfl
  rw [slotRampFault_retries (by simpa [hslot] using hfcnt)] at ht
  obtain ⟨hretry, hretried, hwords⟩ := slotRetry_spec ht
  refine ⟨(hfault.trans (updSlt_niOnly ..).slotOnly).trans hretry, ?_, ?_, ?_⟩
  · rw [hretried, getSlt_updSlt_same, hslot, nowNs_updSlt, hfault.nowNs]
    rfl
  · rw [hwords]
    exact bitOf_slotLeave 6 hn hflag
  · rw [hwords, rd_slotLeave _ 6 hn (by decide) (by decide) (by decide)]
    exact hcount

/-- A fault in ON: the module is removed, and the slot retries (21 Table 21.2). -/
theorem slotFaultIn_on_spec {s t : State} {n cause : Nat} {q : SlotSt} (hn : n < 128) (hq : q = getSlt s n) (hstate : q.state = 5)
    (ht : t = slotFaultIn s n cause) :
    SlotOnly n s t ∧ getSlt t n = { q with
        state := 6, en := false, pgLow := none, cause := BitVec.ofNat 4 cause, retryEnd := nowNs s + 1000000000 } ∧ bitOf (rd t (aNi n 0x1F18)) 5 = true := by
  subst hq
  obtain ⟨hfault, hslot, -, -⟩ := slotFaultNote_spec (s := s) (cause := cause) hn rfl
  unfold slotFaultIn at ht
  rw [if_neg (by rw [hstate]; decide), if_pos hstate] at ht
  obtain ⟨hretry, hretried, hwords⟩ := slotRetry_spec ht
  refine ⟨hfault.trans hretry, ?_, ?_⟩
  · rw [hretried, hslot, hfault.nowNs]
    rfl
  · rw [hwords]
    exact bitOf_slotLeave_of_on 6 hn (by rw [hslot]; exact hstate)

theorem slotFaultIn_ramp {s : State} {n : Nat} (cause : Nat) (h : (getSlt s n).state = 4) :
    slotFaultIn s n cause = slotRampFault s n cause := if_pos h

/-- GATE locks the slot for good (21 R446). -/
theorem slotGate_spec {s t : State} {n : Nat} (hn : n < 128) (ht : t = slotGate s n) :
    SlotOnly n s t ∧ getSlt t n = { left (getSlt s n) 7 with cause := 2, perm := true } ∧
      bitOf (rd t (aNi n 0x1F18)) 0 = true ∧ bitOf (rd t (aNi n 0x1F18)) 2 = true := by
  obtain ⟨hfault, hslot, hflag, -⟩ := slotFaultNote_spec (s := s) (cause := 2) hn rfl
  unfold slotGate slotFaultLeave at ht
  extract_lets u at ht
  have hu : SlotOnly n s u := hfault.trans (updSlt_niOnly ..).slotOnly
  have hnoted := (slotOnly_setFlag n u (aNi n 0x1F18) 2).trans (noted_slotNote (setFlag u (aNi n 0x1F18) 2) n 0x215 2).slotOnly
  have hrd : rd (slotNote (setFlag u (aNi n 0x1F18) 2) n 0x215 2) (aNi n 0x1F18) = rd (setFlag u (aNi n 0x1F18) 2) (aNi n 0x1F18) :=
    rd_slotNote _ 0x215 2 hn (by decide) (by decide)
  subst ht
  refine ⟨(hu.trans hnoted).trans (slotOnly_keepLast _ 0x21 (slotLeave_slotOnly ..)), ?_, ?_, ?_⟩
  · simp [u, left, hslot]
  · refine bitOf_slotLeave 7 hn ?_
    rw [hrd]
    exact bitOf_setFlag _ 2 hflag
  · refine bitOf_slotLeave 7 hn ?_
    rw [hrd]
    exact bitOf_setFlag_same _ _ (by decide)

/-- The third fault in a row in RAMP locks the slot (21 R444). -/
theorem slotRampFault_third_spec {s t : State} {n cause : Nat} {q : SlotSt} (hn : n < 128) (hq : q = getSlt s n)
    (hfcnt : 2 ≤ q.fcnt.toNat) (ht : t = slotRampFault s n cause) :
    SlotOnly n s t ∧ getSlt t n = { q with state := 7, en := false, pgLow := none, fcnt := 3, cause := BitVec.ofNat 4 cause } ∧
      bitOf (rd t (aNi n 0x1F18)) 1 = true := by
  subst hq
  obtain ⟨hfault, hslot, -, -⟩ := slotFaultNote_spec (s := s) (cause := cause) hn rfl
  rw [slotRampFault_locks (by simpa [hslot] using hfcnt)] at ht
  subst ht
  refine ⟨?_, by simp [left, hslot], ?_⟩
  · exact (((hfault.trans (updSlt_niOnly ..).slotOnly).trans (slotLeave_slotOnly ..)).trans (slotOnly_setFlag ..)).trans
      (noted_slotNote ..).slotOnly
  · rw [rd_slotNote _ 0x214 2 hn (by decide) (by decide)]
    exact bitOf_setFlag_same _ _ (by decide)

/-- The slot after the removal of its module out of DEBOUNCE, READY, RAMP or ON (21 R440, R448). -/
theorem slotRemoval_eq {s : State} {n : Nat} {st : BitVec 3} (hst : (getSlt s n).state = st) (h : st = 2 ∨ st = 3 ∨ st = 4 ∨ st = 5) :
    slotRemoval s n = slotLeave (updSlt s n fun q => { q with preq := false, debounced := false, lowSince := 0 }) n 1 :=
  if_pos (hst ▸ h)

/-! The commands. -/

theorem exec_sltPrsntChange {s : State} {n : BitVec 6} {v : Bool} (hhas : slotHas s n.toNat = true) (h : (getSlt s n.toNat).prsntN = !v) :
    exec (.sltPrsntChange n v) s = answer s (updSlt s n.toNat fun q =>
      if v then { q with prsntN := true, highSince := nowNs s }
      else { q with prsntN := false, lowSince := nowNs s, debounced := false, state := if q.state = 1 then 2 else q.state }) :=
  congrArg (answer s) (if_neg (by cases v <;> simp [hhas, h]))

theorem exec_presenceDebounced {s : State} {n : BitVec 6} {q : SlotSt} (hq : q = getSlt s n.toNat) (hon : slotOn s n.toNat = true)
    (hprsnt : q.prsntN = false) (hdeb : q.debounced = false) (hsince : q.lowSince + 20000000 ≤ nowNs s) :
    exec (.presenceDebounced n) s = answer s (slotRamp (updSlt s n.toNat fun q' => { q' with
      debounced := true, preq := q.preq || bitOf (slotCfg s n.toNat) 1, state := if q'.state = 2 then 3 else q'.state }) n.toNat) := by
  subst hq
  exact congrArg (answer s) (if_neg (by simp [hon, hprsnt, hdeb, hsince]))

theorem exec_moduleRemoval {s : State} {n : BitVec 6} (hon : slotOn s n.toNat = true) (hprsnt : (getSlt s n.toNat).prsntN = true)
    (hsince : (getSlt s n.toNat).highSince + 100000 ≤ nowNs s) :
    exec (.moduleRemoval n) s = answer s (slotRemoval s n.toNat) :=
  congrArg (answer s) (if_neg (by simp [hon, hprsnt, hsince]))

theorem exec_slotPgoodRise_ramp {s : State} {n : BitVec 6} (hon : slotOn s n.toNat = true) (hpgood : (getSlt s n.toNat).pgood = false)
    (hstate : (getSlt s n.toNat).state = 4) (hflt : (getSlt s n.toNat).fltN = true) :
    exec (.slotPgoodRise n) s = answer s (slotNote (updSlt (updSlt s n.toNat fun q => { q with pgood := true }) n.toNat
      fun q => { q with state := 5, fcnt := 0, pgLow := none }) n.toNat 0x211 0) :=
  congrArg (answer s) ((if_neg (by simp [hon, hpgood])).trans (if_pos ⟨hstate, hflt⟩))

theorem exec_slotPgoodRise_glitch {s : State} {n : BitVec 6} {u : Nat} (hon : slotOn s n.toNat = true)
    (hpgood : (getSlt s n.toNat).pgood = false) (hstate : (getSlt s n.toNat).state = 5) (hlow : (getSlt s n.toNat).pgLow = some u)
    (hsince : nowNs s < u + pgGlitch s n.toNat) :
    exec (.slotPgoodRise n) s = answer s (setFlag (incSat (updSlt (updSlt s n.toNat fun q => { q with pgood := true }) n.toNat
      fun q => { q with pgLow := none }) (aNi n.toNat 0x1F28) 1) (aNi n.toNat 0x1F18) 4) := by
  refine congrArg (answer s) ((if_neg (by simp [hon, hpgood])).trans ((if_neg (by simp [hstate])).trans ?_))
  rw [hlow]
  exact (if_neg (by simp [hstate])).trans (if_pos hsince)

theorem exec_rampTimeout {s : State} {n : BitVec 6} (hon : slotOn s n.toNat = true) (hstate : (getSlt s n.toNat).state = 4)
    (hsince : (getSlt s n.toNat).rampNs + rampTo s n.toNat ≤ nowNs s) :
    exec (.rampTimeout n) s = answer s (slotRampFault s n.toNat 5) :=
  congrArg (answer s) (if_pos (by simp [hon, hstate, hsince]))

theorem exec_slotFault_gate {s : State} {n : BitVec 6} (hon : slotOn s n.toNat = true) :
    exec (.slotFault n 1) s = answer s (updSlt (slotGate (updSlt s n.toNat fun q => { q with fltN := false }) n.toNat) n.toNat
      fun q => { q with fltN := true, pgood := false }) :=
  congrArg (answer s) (if_neg (by simp [hon]))

theorem exec_slotFault_other {s : State} {n : BitVec 6} {c : BitVec 2} (hon : slotOn s n.toNat = true) (hc : c ≠ 1) :
    exec (.slotFault n c) s = answer s (updSlt (slotFaultIn (updSlt s n.toNat fun q => { q with fltN := false }) n.toNat (c.toNat + 1)) n.toNat
      fun q => { q with fltN := true, pgood := false }) := by
  refine congrArg (answer s) ((if_neg (by simp [hon])).trans ?_)
  dsimp only
  rw [if_neg hc]

theorem exec_slotFault_disabled {s : State} {n : BitVec 6} (c : BitVec 2) (h : slotOn s n.toNat = false) :
    exec (.slotFault n c) s = answer s s := congrArg (answer s) (if_pos (by simp [h]))

theorem exec_slotPgoodDrop {s : State} {n : BitVec 6} (hon : slotOn s n.toNat = true) (hpgood : (getSlt s n.toNat).pgood = true) :
    exec (.slotPgoodDrop n) s = answer s (updSlt s n.toNat fun q => { q with
      pgood := false, pgLow := if (getSlt s n.toNat).state = 5 then some (nowNs s) else q.pgLow }) :=
  congrArg (answer s) (if_neg (by simp [hon, hpgood]))

theorem exec_pgLost {s : State} {n : BitVec 6} {u : Nat} (hon : slotOn s n.toNat = true) (hstate : (getSlt s n.toNat).state = 5)
    (hlow : (getSlt s n.toNat).pgLow = some u) (hsince : u + pgGlitch s n.toNat ≤ nowNs s) :
    exec (.pgLost n) s = answer s (slotFaultIn s n.toNat 6) := by
  refine congrArg (answer s) ?_
  dsimp only
  rw [hlow]
  exact if_pos (by simp [hon, hstate, hsince])

theorem exec_retryEnd {s : State} {n : BitVec 6} (hon : slotOn s n.toNat = true) (hstate : (getSlt s n.toNat).state = 6)
    (hsince : (getSlt s n.toNat).retryEnd ≤ nowNs s) : exec (.retryEnd n) s = answer s (slotResume s n.toNat) :=
  congrArg (answer s) (if_pos (by simp [hon, hstate, hsince]))

theorem exec_slotFeedChange {s : State} {n : BitVec 6} {f : BitVec 2} (hon : slotOn s n.toNat = true)
    (hstate : (getSlt s n.toNat).state = 5) (hf : f ≠ (getSlt s n.toNat).feed) :
    exec (.slotFeedChange n f) s = answer s (slotNote (setFlag (updSlt s n.toNat fun q => { q with feed := f })
      (aNi n.toNat 0x1F18) 3) n.toNat 0x216 1) :=
  congrArg (answer s) ((if_neg (by simp [hon, Ne.symm hf])).trans (if_pos hstate))

theorem toNat_faultCause : ∀ c : BitVec 2, (BitVec.ofNat 4 (c.toNat + 1)).toNat = c.toNat + 1 := by decide

/-! The parts of O51. -/

section
variable {s : State} {n : BitVec 6} {k : Nat} {q : SlotSt} (hk : k = n.toNat) (hq : q = getSlt s k) (hhas : slotHas s k = true)
include hk hq hhas

theorem slot_presence :
    (q.prsntN = true → Completes (.sltPrsntChange n false) s fun t => NiOnly k s t ∧ getNi t k = { getNi s k with slot :=
      { q with prsntN := false, lowSince := nowNs s, debounced := false, state := if q.state = 1 then 2 else q.state } }) ∧
    (q.prsntN = false → Completes (.sltPrsntChange n true) s fun t => NiOnly k s t ∧ getNi t k = { getNi s k with slot :=
      { q with prsntN := true, highSince := nowNs s } }) := by
  subst hk hq
  exact ⟨fun h => completes_of_niOnly (exec_sltPrsntChange hhas h) (updSlt_niOnly ..) ⟨updSlt_niOnly .., getNi_updSlt_same ..⟩,
    fun h => completes_of_niOnly (exec_sltPrsntChange hhas h) (updSlt_niOnly ..) ⟨updSlt_niOnly .., getNi_updSlt_same ..⟩⟩

variable (hen : bitOf (slotCfg s k) 0 = true)
include hen

theorem slot_debounced (hstate : q.state = 2) (hprsnt : q.prsntN = false) (hdeb : q.debounced = false)
    (hsince : q.lowSince + 20000000 ≤ nowNs s) :
    ((q.preq = false ∧ bitOf (slotCfg s k) 1 = false) → Completes (.presenceDebounced n) s fun t => NiOnly k s t ∧
      getSlt t k = { q with debounced := true, state := 3 }) ∧
    ((q.preq = true ∨ bitOf (slotCfg s k) 1 = true) → Completes (.presenceDebounced n) s fun t => NiOnly k s t ∧
      getSlt t k = { q with debounced := true, preq := true, state := 4, en := true, rampNs := nowNs s, pgLow := none }) := by
  subst hk
  have hon : slotOn s n.toNat = true := slotOn_of_enabled hhas hen (by rw [← hq, hstate]; decide)
  have hexec := exec_presenceDebounced hq hon hprsnt hdeb hsince
  have honly := (updSlt_niOnly s n.toNat fun q' => { q' with
    debounced := true, preq := q.preq || bitOf (slotCfg s n.toNat) 1, state := if q'.state = 2 then 3 else q'.state }).trans
    (slotRamp_niOnly ..)
  refine ⟨fun ⟨hpreq, hauto⟩ => completes_of_niOnly hexec honly ⟨honly, ?_⟩, fun h => completes_of_niOnly hexec honly ⟨honly, ?_⟩⟩
  · rw [getSlt, getNi_slotRamp, getSlt_updSlt_same, ← hq]
    simp [ramped, hstate, hpreq, hauto]
  · have hpreq : (q.preq || bitOf (slotCfg s n.toNat) 1) = true := by simpa using h
    rw [getSlt, getNi_slotRamp, getSlt_updSlt_same, ← hq, hpreq]
    simp [ramped, hstate]

theorem slot_removed (hprsnt : q.prsntN = true) (hsince : q.highSince + 100000 ≤ nowNs s) :
    ((q.state = 2 ∨ q.state = 3 ∨ q.state = 4) → Completes (.moduleRemoval n) s fun t => NiOnly k s t ∧
      getSlt t k = { q with preq := false, debounced := false, lowSince := 0, state := 1, en := false, pgLow := none }) ∧
    (q.state = 5 → Completes (.moduleRemoval n) s fun t => bitOf (rd t (aNi k 0x1F18)) 5 = true ∧
      getSlt t k = { q with preq := false, debounced := false, lowSince := 0, state := 1, en := false, pgLow := none } ∧
      t.eng.ctlQ = s.eng.ctlQ ++ [s.eng.nextKey]) := by
  subst hk hq
  have hexec : (getSlt s n.toNat).state ≠ 0 → _ := fun h => exec_moduleRemoval (slotOn_of_enabled hhas hen h) hprsnt hsince
  refine ⟨fun hstate => ?_, fun hstate => ?_⟩
  · have hoff : (getSlt s n.toNat).state ≠ 5 ∧ (getSlt s n.toNat).state ≠ 0 := by
      obtain h | h | h := hstate <;> rw [h] <;> decide
    have hmoved := slotRemoval_eq rfl (hstate.imp_right fun h => h.imp_right .inl)
    rw [slotLeave_eq_of_not_on 1 (by rw [getSlt_updSlt_same]; exact hoff.1)] at hmoved
    have hrun := hexec hoff.2
    rw [hmoved] at hrun
    have honly := (updSlt_niOnly s n.toNat fun q => { q with preq := false, debounced := false, lowSince := 0 }).trans
      (updSlt_niOnly _ n.toNat fun q => left q 1)
    exact completes_of_niOnly hrun honly ⟨honly, by rw [getSlt_updSlt_same, getSlt_updSlt_same]; rfl⟩
  · have hrun := hexec (by rw [hstate]; decide)
    rw [slotRemoval_eq hstate (by decide)] at hrun
    have hstill : (getSlt (updSlt s n.toNat fun q => { q with preq := false, debounced := false, lowSince := 0 }) n.toNat).state = 5 := by
      rw [getSlt_updSlt_same]
      exact hstate
    refine completes_of_slotOnly hrun ((updSlt_niOnly ..).slotOnly.trans (slotLeave_slotOnly ..))
      ⟨bitOf_slotLeave_of_on 1 (slotHas_lt hhas) hstill, ?_, ?_⟩
    · rw [getSlt_slotLeave, getSlt_updSlt_same]
      rfl
    · rw [slotLeave_eq_of_on 1 hstill, ctlQ_slotRemoved]
      rfl

theorem slot_pgood (hpgood : q.pgood = false) :
    (q.state = 4 → q.fltN = true → Completes (.slotPgoodRise n) s fun t => NiNote k [] s t ∧
      getSlt t k = { q with pgood := true, state := 5, fcnt := 0, pgLow := none }) ∧
    (∀ u, q.state = 5 → q.pgLow = some u → nowNs s < u + pgGlitch s k → Completes (.slotPgoodRise n) s fun t =>
      getSlt t k = { q with pgood := true, pgLow := none } ∧ bitOf (rd t (aNi k 0x1F18)) 4 = true ∧
      (rd t (aNi k 0x1F28)).toNat = min 0xFFFFFFFF ((rd s (aNi k 0x1F28)).toNat + 1) ∧ WordsBut [aNi k 0x1F18, aNi k 0x1F28] s t) := by
  subst hk hq
  have hon : (getSlt s n.toNat).state ≠ 0 → slotOn s n.toNat = true := slotOn_of_enabled hhas hen
  refine ⟨fun hstate hflt => ?_, fun u hstate hlow hsince => ?_⟩
  · have hexec := exec_slotPgoodRise_ramp (hon (by rw [hstate]; decide)) hpgood hstate hflt
    have hnote := ((NiNote.updNi n.toNat [] s _).trans (.updNi ..)).trans
      ((noted_slotNote (updSlt (updSlt s n.toNat fun q => { q with pgood := true }) n.toNat fun q =>
        { q with state := 5, fcnt := 0, pgLow := none }) n.toNat 0x211 0).niNote n.toNat [])
    refine completes_of_niNote hexec hnote ⟨hnote, ?_⟩
    rw [getSlt_slotNote, getSlt_updSlt_same, getSlt_updSlt_same]
  · have hexec := exec_slotPgoodRise_glitch (hon (by rw [hstate]; decide)) hpgood hstate hlow hsince
    have honly := (((updSlt_niOnly s n.toNat fun q => { q with pgood := true }).trans (updSlt_niOnly _ n.toNat fun q =>
      { q with pgLow := none })).slotOnly.trans (slotOnly_incSat _ _ (aNi n.toNat 0x1F28) 1)).trans (slotOnly_setFlag _ _ (aNi n.toNat 0x1F18) 4)
    refine completes_of_slotOnly hexec honly ⟨?_, bitOf_setFlag_same _ _ (by decide), ?_, fun a ha => ?_⟩
    · rw [getSlt_setFlag, getSlt_incSat, getSlt_updSlt_same, getSlt_updSlt_same]
    · rw [rd_setFlag, if_neg (by unfold aNi; omega), toNat_incSat]
      rfl
    · simp only [List.mem_cons, List.not_mem_nil, or_false, not_or] at ha
      rw [rd_setFlag, if_neg ha.1, rd_incSat, if_neg ha.2]
      rfl

theorem slot_ramps (hstate : q.state = 4) :
    (q.rampNs + rampTo s k ≤ nowNs s → q.fcnt.toNat < 2 → Completes (.rampTimeout n) s fun t =>
      getSlt t k = { q with state := 6, en := false, pgLow := none, fcnt := q.fcnt + 1, cause := 5, retryEnd := nowNs s + 1000000000 } ∧
      bitOf (rd t (aNi k 0x1F18)) 0 = true ∧ (rd t (aNi k 0x1F20)).toNat = min 0xFFFFFFFF ((rd s (aNi k 0x1F20)).toNat + 1)) ∧
    (q.rampNs + rampTo s k ≤ nowNs s → 2 ≤ q.fcnt.toNat → Completes (.rampTimeout n) s fun t =>
      getSlt t k = { q with state := 7, en := false, pgLow := none, fcnt := 3, cause := 5 } ∧ bitOf (rd t (aNi k 0x1F18)) 1 = true) ∧
    (∀ c, c ≠ 1 → q.fcnt.toNat < 2 → Completes (.slotFault n c) s fun t => (getSlt t k).state = 6 ∧ (getSlt t k).en = false ∧
      (getSlt t k).cause.toNat = c.toNat + 1 ∧ (getSlt t k).fcnt = q.fcnt + 1 ∧ (getSlt t k).pgood = false ∧
      (getSlt t k).retryEnd = nowNs s + 1000000000) := by
  subst hk
  have hn := slotHas_lt hhas
  have hon : slotOn s n.toNat = true := slotOn_of_enabled hhas hen (by rw [← hq, hstate]; decide)
  refine ⟨fun hsince hfcnt => ?_, fun hsince hfcnt => ?_, fun c hc hfcnt => ?_⟩
  · obtain ⟨honly, hslot, hflag, hcount⟩ := slotRampFault_spec (cause := 5) hn hq hstate hfcnt rfl
    exact completes_of_slotOnly (exec_rampTimeout hon (hq ▸ hstate) (hq ▸ hsince)) honly ⟨hslot, hflag, hcount⟩
  · obtain ⟨honly, hslot, hflag⟩ := slotRampFault_third_spec (cause := 5) hn hq hfcnt rfl
    exact completes_of_slotOnly (exec_rampTimeout hon (hq ▸ hstate) (hq ▸ hsince)) honly ⟨hslot, hflag⟩
  · have hlow : { q with fltN := false } = getSlt (updSlt s n.toNat fun q => { q with fltN := false }) n.toNat := by
      rw [getSlt_updSlt_same, hq]
    have hexec := exec_slotFault_other hon hc
    rw [slotFaultIn_ramp _ (by rw [← hlow]; exact hstate)] at hexec
    obtain ⟨honly, hslot, -, -⟩ := slotRampFault_spec (cause := c.toNat + 1) hn hlow hstate hfcnt rfl
    refine completes_of_slotOnly hexec (((updSlt_niOnly ..).slotOnly.trans honly).trans (updSlt_niOnly ..).slotOnly) ?_
    rw [getSlt_updSlt_same, hslot]
    exact ⟨rfl, rfl, toNat_faultCause c, rfl, rfl, rfl⟩

theorem slot_on (hstate : q.state = 5) :
    (∀ c, c ≠ 1 → Completes (.slotFault n c) s fun t => (getSlt t k).state = 6 ∧ (getSlt t k).en = false ∧
      (getSlt t k).cause.toNat = c.toNat + 1 ∧ (getSlt t k).retryEnd = nowNs s + 1000000000 ∧ (getSlt t k).pgood = false ∧
      bitOf (rd t (aNi k 0x1F18)) 5 = true) ∧
    (q.pgood = true → Completes (.slotPgoodDrop n) s fun t => NiOnly k s t ∧ getSlt t k = { q with pgood := false, pgLow := some (nowNs s) }) ∧
    (∀ u, q.pgLow = some u → u + pgGlitch s k ≤ nowNs s → Completes (.pgLost n) s fun t =>
      getSlt t k = { q with state := 6, en := false, pgLow := none, cause := 6, retryEnd := nowNs s + 1000000000 } ∧
      bitOf (rd t (aNi k 0x1F18)) 5 = true) ∧
    (∀ f, f ≠ q.feed → Completes (.slotFeedChange n f) s fun t => getSlt t k = { q with feed := f } ∧
      bitOf (rd t (aNi k 0x1F18)) 3 = true ∧ NiNote k [aNi k 0x1F18] s t) := by
  subst hk
  have hn := slotHas_lt hhas
  have hon : slotOn s n.toNat = true := slotOn_of_enabled hhas hen (by rw [← hq, hstate]; decide)
  refine ⟨fun c hc => ?_, fun hpgood => ?_, fun u hlow hsince => ?_, fun f hf => ?_⟩
  · have hlow : { q with fltN := false } = getSlt (updSlt s n.toNat fun q => { q with fltN := false }) n.toNat := by
      rw [getSlt_updSlt_same, hq]
    obtain ⟨honly, hslot, hflag⟩ := slotFaultIn_on_spec (cause := c.toNat + 1) hn hlow hstate rfl
    refine completes_of_slotOnly (exec_slotFault_other hon hc)
      (((updSlt_niOnly ..).slotOnly.trans honly).trans (updSlt_niOnly ..).slotOnly) ?_
    rw [getSlt_updSlt_same, hslot]
    exact ⟨rfl, rfl, toNat_faultCause c, rfl, rfl, hflag⟩
  · refine completes_of_niOnly (exec_slotPgoodDrop hon (hq ▸ hpgood)) (updSlt_niOnly ..) ⟨updSlt_niOnly .., ?_⟩
    rw [getSlt_updSlt_same, ← hq, if_pos hstate]
  · obtain ⟨honly, hslot, hflag⟩ := slotFaultIn_on_spec (cause := 6) hn hq hstate rfl
    exact completes_of_slotOnly (exec_pgLost hon (hq ▸ hstate) (hq ▸ hlow) hsince) honly ⟨hslot, hflag⟩
  · have hnote := ((NiNote.updNi n.toNat [aNi n.toNat 0x1F18] s _).trans (.setFlag _ 3 (List.mem_singleton_self _))).trans
      ((noted_slotNote (setFlag (updSlt s n.toNat fun q => { q with feed := f }) (aNi n.toNat 0x1F18) 3) n.toNat 0x216 1).niNote
        n.toNat [aNi n.toNat 0x1F18])
    refine completes_of_niNote (exec_slotFeedChange hon (hq ▸ hstate) (hq ▸ hf)) hnote ⟨?_, ?_, hnote⟩
    · rw [getSlt_slotNote, getSlt_setFlag, getSlt_updSlt_same, hq]
    · rw [rd_slotNote _ 0x216 1 hn (by decide) (by decide)]
      exact bitOf_setFlag_same _ _ (by decide)

theorem slot_gates (hstate : q.state ≠ 0) : Completes (.slotFault n 1) s fun t => (getSlt t k).state = 7 ∧ (getSlt t k).perm = true ∧
    (getSlt t k).en = false ∧ (getSlt t k).cause = 2 ∧ bitOf (rd t (aNi k 0x1F18)) 0 = true ∧ bitOf (rd t (aNi k 0x1F18)) 2 = true := by
  subst hk
  obtain ⟨honly, hslot, hfault, hgate⟩ := slotGate_spec (s := updSlt s n.toNat fun q => { q with fltN := false }) (slotHas_lt hhas) rfl
  refine completes_of_slotOnly (exec_slotFault_gate (slotOn_of_enabled hhas hen (hq ▸ hstate)))
    (((updSlt_niOnly ..).slotOnly.trans honly).trans (updSlt_niOnly ..).slotOnly) ?_
  rw [getSlt_updSlt_same, hslot]
  exact ⟨rfl, rfl, rfl, rfl, hfault, hgate⟩

theorem slot_retries (hstate : q.state = 6) (hend : q.retryEnd ≤ nowNs s) : Completes (.retryEnd n) s fun t => NiOnly k s t ∧
    (q.debounced = true → q.preq = true → getSlt t k = { q with
      retryEnd := 0, state := 4, en := true, rampNs := nowNs s, pgLow := none }) ∧
    (q.debounced = true → q.preq = false → getSlt t k = { q with retryEnd := 0, state := 3 }) ∧
    (q.debounced = false → getSlt t k = { q with retryEnd := 0, state := if q.prsntN then 1 else 2 }) := by
  subst hk
  have hon : slotOn s n.toNat = true := slotOn_of_enabled hhas hen (by rw [← hq, hstate]; decide)
  refine completes_of_niOnly (exec_retryEnd hon (hq ▸ hstate) (hq ▸ hend)) (slotResume_niOnly ..) ⟨slotResume_niOnly .., ?_⟩
  rw [getSlt, getNi_slotResume, ← hq]
  refine ⟨fun hdeb hpreq => ?_, fun hdeb hpreq => ?_, fun hdeb => ?_⟩
  · simp [resumed, ramped, hdeb, hpreq]
  · simp [resumed, ramped, hdeb, hpreq]
  · cases hprsnt : q.prsntN <;> simp [resumed, ramped, hdeb, hprsnt]

end

/-- Settles O51: each pin's change, timer and fault takes the slot to its next state, and only out of ON is the module removed. -/
theorem slotFollowsItsPins : Obligations.SlotFollowsItsPins := by
  unfold Obligations.SlotFollowsItsPins
  intro s n k q hk hq hhas
  obtain ⟨hlow, hhigh⟩ := slot_presence hk hq hhas
  refine ⟨hlow, hhigh, fun c hdis => ?_, fun hen => ⟨slot_debounced hk hq hhas hen, slot_removed hk hq hhas hen, slot_pgood hk hq hhas hen,
    slot_ramps hk hq hhas hen, slot_on hk hq hhas hen, slot_gates hk hq hhas hen, slot_retries hk hq hhas hen⟩⟩
  exact completes_of_eq_self (exec_slotFault_disabled c (slotOn_of_disabled (hk ▸ hdis)))

end Sys2Proof.Machine
end

section
/-! SUPPORT. Snapshots and comparators (20 R430 to R432; for O49). -/

namespace Sys2Proof.Machine

/-! What a notification of a unit that is no NI, with no port, writes. -/

theorem raise_of_unit (s : State) {e : Note} (h : 128 ≤ e.unit) : raise s e = routeNote s e :=
  congrArg (routeNote · e) (if_neg (by omega))

theorem rd_fwdNote (s : State) (e : Note) {a : Nat} (h : a ≠ 0x130) : rd (fwdNote s e) a = rd s a := by
  unfold fwdNote
  dsimp only
  split
  · rfl
  · split
    · rfl
    · exact rd_wr_ne _ _ _ _ h

theorem rd_logNote (s : State) (e : Note) {a : Nat} (h : a ≠ 0x540) : rd (logNote s e) a = rd s a := by
  unfold logNote
  split
  · rfl
  · exact rd_wr_ne _ _ _ _ h

/-- A notification without a port writes GLB_IRQ_PEND, GLB_FLT_LCNT and GLB_NTF_FWD_CNT alone. -/
theorem rd_raiseG_of_unit (s : State) {unit : Nat} (code sev info : Nat) {a : Nat} (hunit : 128 ≤ unit)
    (ha : a ∉ [0x100, 0x130, 0x540]) : rd (raiseG s unit code sev info) a = rd s a := by
  simp only [List.mem_cons, List.not_mem_nil, or_false, not_or] at ha
  obtain ⟨hpend, hfwd, hlog⟩ := ha
  refine (congrArg (rd · a) (raise_of_unit s hunit)).trans ((rd_fwdNote _ _ hfwd).trans ((rd_logNote _ _ hlog).trans ?_))
  dsimp only
  split
  · exact rd_wr_ne _ _ _ _ hpend
  · rfl

/-! The copies of the live words (20 R430). -/

/-- The words of a list copied d bytes up. -/
def copyUp (d : Nat) (l : Map Word) (s : State) : State := l.foldl (fun u p => wr u (p.1 + d) p.2) s

theorem copyUp_regs (d : Nat) (l : Map Word) (s : State) : copyUp d l s = { s with regs := (copyUp d l s).regs } := by
  induction l generalizing s with
  | nil => rfl
  | cons p l ih => exact ih (wr s (p.1 + d) p.2)

theorem rd_copyUp_of_not_mem {d : Nat} {l : Map Word} {a : Nat} (h : ∀ p ∈ l, p.1 + d ≠ a) (s : State) :
    rd (copyUp d l s) a = rd s a := by
  induction l generalizing s with
  | nil => rfl
  | cons p l ih =>
    obtain ⟨hp, hl⟩ := List.forall_mem_cons.mp h
    exact (ih hl _).trans (rd_wr_ne _ _ _ _ hp.symm)

theorem mget_ne_none {m : Map Word} {p : Nat × Word} (h : p ∈ m) : mget m p.1 ≠ none := by
  induction m with
  | nil => cases h
  | cons q m ih =>
    obtain ⟨k, v⟩ := q
    unfold mget
    split
    · nofun
    · next hk =>
      obtain rfl | h := List.mem_cons.mp h
      · exact absurd rfl hk
      · exact ih h

theorem le_of_mem_rising {l : Map Word} {lo : Nat} (h : rising lo l = true) {p : Nat × Word} (hp : p ∈ l) : lo ≤ p.1 := by
  induction l generalizing lo with
  | nil => cases hp
  | cons q l ih =>
    simp only [rising, Bool.and_eq_true, decide_eq_true_eq] at h
    obtain rfl | hp := List.mem_cons.mp hp
    · exact h.1
    · exact Nat.le_of_succ_le (Nat.le_trans (by omega) (ih h.2 hp))

/-- A listed word of a table whose addresses rise is what its copy reads: no later entry writes there. -/
theorem rd_copyUp_of_mget {d : Nat} {l : Map Word} {lo a : Nat} {v : Word} (hrise : rising lo l = true) (h : mget l a = some v)
    (s : State) : rd (copyUp d l s) (a + d) = v := by
  induction l generalizing lo s with
  | nil => simp [mget] at h
  | cons q l ih =>
    obtain ⟨k, w⟩ := q
    simp only [rising, Bool.and_eq_true, decide_eq_true_eq] at hrise
    obtain ⟨-, hrest⟩ := hrise
    unfold mget at h
    split at h
    · next hk =>
      cases h
      subst hk
      have hmiss : ∀ p ∈ l, p.1 + d ≠ k + d := fun p hp => by
        have hle := le_of_mem_rising hrest hp
        omega
      exact (rd_copyUp_of_not_mem hmiss (wr s (k + d) v)).trans (rd_wr_same ..)
    · exact ih hrest h _

theorem resetWord_cnt {a : Nat} (h : 0x400000 ≤ a) (h' : a < 0x800000) : resetWord a = 0 := by
  unfold resetWord
  simp only [show ¬ (0x200000 ≤ a ∧ a < 0x300000) by omega, show ¬ (0x100000 ≤ a ∧ a < 0x140000) by omega, show ¬ a < 0x10000 by omega,
    show a ≠ 0x10030 by omega, show a ≠ 0x11020 by omega, show a ≠ 0x11080 by omega, show ¬ (0x14000 ≤ a ∧ a < 0x15000) by omega,
    show ¬ (0x800008 ≤ a ∧ a < 0x800048) by omega, show ¬ (0x800120 ≤ a ∧ a < 0x800500 ∧ (a - 0x800120) % 0x40 = 0) by omega, if_false]
  rfl

/-- Address of a shadow word. -/
def isShadow (a : Nat) : Bool := decide (0x480000 ≤ a) && decide (a < 0x492A00)

theorem isLive_iff {a : Nat} : isLive a = true ↔ 0x410000 ≤ a ∧ a < 0x422A00 := by simp [isLive]

theorem isShadow_iff {a : Nat} : isShadow a = true ↔ 0x480000 ≤ a ∧ a < 0x492A00 := by simp [isShadow]

/-- The snapshot of tick f, whose live words are copied over the shadow words. -/
def snapTaken (s : State) (f : Nat) : State := copyUp 0x70000 (s.regs.filter fun p => isLive p.1)
  { s with
    regs := s.regs.filter fun p => !isShadow p.1
    cnt := { armed := none, taken := some f } }

theorem snapTake_due {s : State} {f : Nat} (harmed : s.cnt.armed = some f) (hdue : frameGe (frameOf s) f = true) :
    snapTake s = snapTaken s f := by
  unfold snapTake
  rw [harmed]
  exact if_pos hdue

theorem snapTake_early {s : State} {f : Nat} (harmed : s.cnt.armed = some f) (hdue : frameGe (frameOf s) f = false) : snapTake s = s := by
  unfold snapTake
  rw [harmed]
  exact if_neg (by simp [hdue])

theorem snapTaken_whole (s : State) (f : Nat) : snapTaken s f = { s with
    regs := (snapTaken s f).regs
    cnt := { armed := none, taken := some f } } := copyUp_regs ..

theorem rd_unshadowed (s : State) (a : Nat) : rd { s with regs := s.regs.filter fun p => !isShadow p.1 } a =
    if isShadow a then resetWord a else rd s a := by
  have h : mget (s.regs.filter fun p => !isShadow p.1) a = if !isShadow a then mget s.regs a else none :=
    mget_filter (fun a => !isShadow a) s.regs a
  unfold rd mgetD
  dsimp only
  rw [h]
  cases isShadow a <;> rfl

theorem rd_snapTaken_other {s : State} {f a : Nat} (h : isShadow a = false) : rd (snapTaken s f) a = rd s a := by
  have hmiss : ∀ p ∈ s.regs.filter fun p => isLive p.1, p.1 + 0x70000 ≠ a := by
    rintro p hp rfl
    have hlive : 0x410000 ≤ p.1 ∧ p.1 < 0x422A00 := isLive_iff.mp (List.mem_filter.mp hp).2
    exact absurd (isShadow_iff (a := p.1 + 0x70000).mpr ⟨by omega, by omega⟩) (by rw [h]; decide)
  exact (rd_copyUp_of_not_mem hmiss _).trans ((rd_unshadowed s a).trans (if_neg (by simp [h])))

theorem rd_snapTaken_live {s : State} {f a : Nat} (hwf : regsWf s.regs = true) (h : isLive a = true) :
    rd (snapTaken s f) (a + 0x70000) = rd s a := by
  have hbound := isLive_iff.mp h
  have hlive : mget (s.regs.filter fun p => isLive p.1) a = mget s.regs a := (mget_filter isLive s.regs a).trans (if_pos h)
  cases hmget : mget s.regs a with
  | none =>
    have hmiss : ∀ p ∈ s.regs.filter fun p => isLive p.1, p.1 + 0x70000 ≠ a + 0x70000 := by
      intro p hp heq
      have hkey : p.1 = a := by omega
      exact absurd hmget (hkey ▸ mget_ne_none (List.mem_of_mem_filter hp))
    have hzero : rd s a = 0 := by rw [rd, mgetD, hmget, resetWord_cnt (by omega) (by omega)]; rfl
    refine (rd_copyUp_of_not_mem hmiss _).trans ((rd_unshadowed s _).trans ((if_pos (isShadow_iff.mpr ⟨by omega, by omega⟩)).trans ?_))
    rw [hzero, resetWord_cnt (by omega) (by omega)]
  | some v =>
    have hrise : rising 0 s.regs = true := (Bool.and_eq_true _ _ ▸ hwf).1
    have hread : rd s a = v := by rw [rd, mgetD, hmget]; rfl
    rw [hread]
    exact rd_copyUp_of_mget (rising_filter _ _ hrise) (hlive.trans hmget) _

/-! The writes of CNT_SNAP_CTL and CNT_THR_CFG, and the end of a snapshot. -/

theorem exec_cntSnapCtl_armed {s : State} {v : Word} (harm : bitOf v 48 = true)
    (hlate : frameGe (fld v 47 0) ((frameOf s + 2) % 2 ^ 48) = true) : exec (.cntSnapCtl v) s = answer s
      { wr s (aCnt 8) (v &&& 0x1FFFFFFFFFFFF#64) with cnt := { s.cnt with armed := some (fld v 47 0) } } :=
  congrArg (answer s) ((if_neg (by simp [harm])).trans (if_pos hlate))

theorem exec_cntSnapCtl_soon {s : State} {v : Word} (harm : bitOf v 48 = true)
    (hearly : frameGe (fld v 47 0) ((frameOf s + 2) % 2 ^ 48) = false) : exec (.cntSnapCtl v) s = answer s (setFlag
      { wr s (aCnt 8) (v &&& 0x1FFFFFFFFFFFF#64) with cnt := { s.cnt with armed := some ((frameOf s + 2) % 2 ^ 48) } } (aCnt 0) 1) :=
  congrArg (answer s) ((if_neg (by simp [harm])).trans (if_neg (by rw [hearly]; decide)))

theorem snapshot_armed {s : State} {v : Word} (harm : bitOf v 48 = true) : Completes (.cntSnapCtl v) s fun t =>
    (frameGe (fld v 47 0) ((frameOf s + 2) % 2 ^ 48) = true → t.cnt.armed = some (fld v 47 0) ∧ WordsBut [aCnt 8] s t) ∧
    (frameGe (fld v 47 0) ((frameOf s + 2) % 2 ^ 48) = false → t.cnt.armed = some ((frameOf s + 2) % 2 ^ 48) ∧
      rd t (aCnt 0) = rd s (aCnt 0) ||| 2#64 ∧ WordsBut [aCnt 0, aCnt 8] s t) ∧
    rd t (aCnt 8) = v &&& 0x1FFFFFFFFFFFF#64 ∧ t = { s with regs := t.regs, cnt := { s.cnt with armed := t.cnt.armed } } := by
  cases hge : frameGe (fld v 47 0) ((frameOf s + 2) % 2 ^ 48) with
  | true =>
    exact completes_of_answer (exec_cntSnapCtl_armed harm hge) rfl rfl rfl
      ⟨fun _ => ⟨rfl, fun a ha => rd_wr_ne _ _ _ _ (by simpa using ha)⟩, nofun, rd_wr_same .., rfl⟩
  | false =>
    refine completes_of_answer (exec_cntSnapCtl_soon harm hge) rfl rfl rfl
      ⟨nofun, fun _ => ⟨rfl, ?_, fun a ha => ?_⟩, ?_, rfl⟩
    · rw [rd_setFlag, if_pos rfl]
      exact congrArg (· ||| _) (rd_wr_ne _ _ _ _ (by decide))
    · simp only [List.mem_cons, List.not_mem_nil, or_false, not_or] at ha
      rw [rd_setFlag, if_neg ha.1]
      exact rd_wr_ne _ _ _ _ ha.2
    · rw [rd_setFlag, if_neg (by decide)]
      exact rd_wr_same ..

theorem snapshot_taken {s : State} {f : Nat} (harmed : s.cnt.armed = some f) (hdue : frameGe (frameOf s) f = true)
    (hwf : regsWf s.regs = true) : Completes .counterSnapshot s fun t => t.cnt = { armed := none, taken := some f } ∧
      (∀ a, isLive a = true → rd t (a + 0x70000) = rd s a) ∧ (∀ a, (a < 0x480000 ∨ 0x492A00 ≤ a) → rd t a = rd s a) ∧
      t = { s with regs := t.regs, cnt := t.cnt } := by
  have hwhole := snapTaken_whole s f
  have hexec : exec .counterSnapshot s = answer s (snapTaken s f) := congrArg (answer s) (snapTake_due harmed hdue)
  refine completes_of_answer hexec (by rw [hwhole]) (by rw [hwhole]) (by rw [hwhole])
    ⟨by rw [hwhole], fun a ha => rd_snapTaken_live hwf ha, fun a ha => rd_snapTaken_other ?_, by rw [hwhole]⟩
  refine Bool.eq_false_iff.mpr fun h => ?_
  have hbound := isShadow_iff.mp h
  omega

/-- The snapshot of tick f, its number seq recorded. -/
def snapDone (s : State) (f : Nat) : State :=
  setFlag (wr { s with cnt := { s.cnt with taken := none } } (aCnt 0x10)
    (BitVec.ofNat 64 (((rdF s (aCnt 0x10) 63 48 + 1) % 2 ^ 16) <<< 48 ||| f))) (aCnt 0) 0

theorem exec_snapshotDone {s : State} {f : Nat} (htaken : s.cnt.taken = some f) :
    exec .snapshotDone s = answer s (raiseG (snapDone s f) 247 0x201 0 f) := by
  refine congrArg (answer s) ?_
  rw [htaken]
  rfl

theorem fld_joined (x : Nat) {f : Nat} (hf : f < 2 ^ 48) (hx : x < 2 ^ 16) :
    fld (BitVec.ofNat 64 (x <<< 48 ||| f)) 63 48 = x ∧ fld (BitVec.ofNat 64 (x <<< 48 ||| f)) 47 0 = f := by
  have hsum : x <<< 48 ||| f = x * 2 ^ 48 + f := by
    rw [Nat.shiftLeft_eq, Nat.mul_comm]
    exact (Nat.two_pow_add_eq_or_of_lt hf x).symm
  rw [hsum]
  unfold fld
  rw [BitVec.toNat_ofNat, Nat.shiftRight_eq_div_pow, Nat.shiftRight_eq_div_pow]
  omega

theorem snapshot_done {s : State} {f : Nat} (htaken : s.cnt.taken = some f) (hf : f < 2 ^ 48) : Completes .snapshotDone s fun t =>
    rdF t (aCnt 0x10) 63 48 = (rdF s (aCnt 0x10) 63 48 + 1) % 2 ^ 16 ∧ rdF t (aCnt 0x10) 47 0 = f ∧ bitOf (rd t (aCnt 0)) 0 = true ∧
    t.cnt = { s.cnt with taken := none } := by
  have hwhole := noted_raiseG (snapDone s f) 247 0x201 0 f
  have hword : rd (raiseG (snapDone s f) 247 0x201 0 f) (aCnt 0x10) = BitVec.ofNat 64 (((rdF s (aCnt 0x10) 63 48 + 1) % 2 ^ 16) <<< 48 ||| f) := by
    rw [rd_raiseG_of_unit _ _ _ _ (by decide) (by decide), snapDone, rd_setFlag, if_neg (by decide), rd_wr_same]
  have hflag : bitOf (rd (raiseG (snapDone s f) 247 0x201 0 f) (aCnt 0)) 0 = true := by
    rw [rd_raiseG_of_unit _ _ _ _ (by decide) (by decide)]
    exact bitOf_setFlag_same _ _ (by decide)
  obtain ⟨hseq, htick⟩ := fld_joined ((rdF s (aCnt 0x10) 63 48 + 1) % 2 ^ 16) hf (Nat.mod_lt _ (by decide))
  exact completes_of_answer (exec_snapshotDone htaken) (raiseG_gen ..) (raiseG_pending ..) (congrArg Lcs.fuse (raiseG_lcs ..))
    ⟨(congrArg (fld · 63 48) hword).trans hseq, (congrArg (fld · 47 0) hword).trans htick, hflag, raiseG_cnt ..⟩

/-- A word below a mask without bit i keeps the masked bits when bit i is written. -/
theorem setBit_and {w mask : Word} {i : Nat} (b : Bool) (h : bitOf mask i = false) : setBit w i b &&& mask = w &&& mask := by
  refine BitVec.eq_of_getLsbD_eq fun j _ => ?_
  rw [BitVec.getLsbD_and, BitVec.getLsbD_and, setBit, getLsbD_setFld]
  split
  · next hj =>
    obtain rfl : j = i := by omega
    rw [show mask.getLsbD j = false from h, Bool.and_false, Bool.and_false]
  · rfl

theorem bitOf_setBit (w : Word) {i : Nat} (b : Bool) (h : i < 64) : bitOf (setBit w i b) i = b := by
  rw [bitOf, setBit, getLsbD_setFld, if_pos ⟨Nat.le_refl i, by omega⟩]
  cases b <;> simp [h]

theorem comparator_written (s : State) (j : BitVec 6) (v : Word) : Completes (.cntThrCfg j v) s fun t =>
    bitOf (rd t (aThr j.toNat)) 62 = (bitOf (rd s (aThr j.toNat)) 62 && !bitOf v 62) ∧
    rd t (aThr j.toNat) &&& 0xB000000000003FFF#64 = v &&& 0xB000000000003FFF#64 ∧ WordsBut [aThr j.toNat] s t ∧
    t = { s with regs := t.regs } := by
  refine completes_of_answer rfl rfl rfl rfl ⟨?_, ?_, fun a ha => rd_wr_ne _ _ _ _ (by simpa using ha), rfl⟩
  · rw [thrWrite, rd_wr_same]
    exact bitOf_setBit _ _ (by decide)
  · rw [thrWrite, rd_wr_same, setBit_and _ (by decide), BitVec.and_assoc, BitVec.and_self]

/-- Settles O49: the copies read what the live words read, because the table's addresses rise and so each copy is written once. -/
theorem snapshotCopiesCounters : Obligations.SnapshotCopiesCounters := by
  unfold Obligations.SnapshotCopiesCounters
  refine ⟨fun s v harm => snapshot_armed harm, fun s f harmed => ⟨fun hdue hwf => snapshot_taken harmed hdue hwf, fun hdue => ?_⟩,
    fun s f htaken hf => snapshot_done htaken hf, comparator_written⟩
  exact completes_of_eq_self (congrArg (answer s) (snapTake_early harmed hdue))

end Sys2Proof.Machine
end

section
/-! PROOF. The record at the head of a notification queue stays with a port that is not enabled (03 R57, R62; refutes O50). -/

namespace Sys2Proof.Machine

/-- Port 0 with NTF_EN 1 and EN 0 in NI_EP_CTL, and a record in its notification queue. -/
def disabledPort : State := { State.reset with regs := [(0x200000, 4)], nis := [(0, { port := { ntfQ := [0] } })] }

theorem exec_ntfRecordTaken_disabled : exec (.ntfRecordTaken 0) disabledPort = .next disabledPort := rfl

/-- Refutes O50: a port with NTF_EN 1 that is not enabled ignores its inputs (03 R62), so its endpoint takes no record. -/
theorem not_notificationTakesItsRoutes : ¬ Obligations.NotificationTakesItsRoutes := by
  unfold Obligations.NotificationTakesItsRoutes
  rintro ⟨-, htaken⟩
  obtain ⟨t, hexec, hni, -⟩ := htaken disabledPort 0 (by decide) (by decide)
  rw [exec_ntfRecordTaken_disabled] at hexec
  cases hexec
  exact absurd (congrArg (fun i : Ni => i.port.ntfQ) hni) (by decide)

end Sys2Proof.Machine
end

section
/-! SUPPORT. A request of the engines at its service NI, and the indices of a ring (13 R284 to R286, R296, R298). -/

namespace Sys2Proof.Machine

/-! Words of the engines' block, and fields of a word. -/

theorem noteWord_aEng {off : Nat} (h : off < 0x10000) : noteWord (aEng off) = false := by
  unfold noteWord aEng
  simp only [Bool.or_eq_false_iff, Bool.and_eq_false_iff, beq_eq_false_iff_ne, decide_eq_false_iff_not]
  omega

theorem fld_setFld_of_gt {n : Nat} (w : BitVec n) {hi lo hi' lo' : Nat} (v : Nat) (hle' : lo' ≤ hi') (hgt : hi' < lo) :
    fld (setFld w hi' lo' v) hi lo = fld w hi lo := by
  refine Nat.eq_of_testBit_eq fun i => ?_
  rw [testBit_fld, testBit_fld, getLsbD_setFld]
  by_cases hi' : i < hi - lo + 1
  · rw [if_neg (by omega)]
  · simp [hi']

theorem rdF_wrF_same (s : State) (a : Nat) {hi lo : Nat} (v : Nat) (hhi : hi < 64) (hle : lo ≤ hi) :
    rdF (wrF s a hi lo v) a hi lo = v % 2 ^ (hi - lo + 1) := by
  rw [rdF, rd_wrF, if_pos rfl, fld_setFld_same _ _ hhi hle]

theorem rdF_wrF_of_lt (s : State) (a : Nat) {hi lo hi' lo' : Nat} (v : Nat) (hle : lo ≤ hi) (hlt : hi < lo') :
    rdF (wrF s a hi' lo' v) a hi lo = rdF s a hi lo := by
  rw [rdF, rd_wrF, if_pos rfl, fld_setFld_of_lt _ _ hle hlt]
  rfl

theorem rdF_wrF_of_gt (s : State) (a : Nat) {hi lo hi' lo' : Nat} (v : Nat) (hle' : lo' ≤ hi') (hgt : hi' < lo) :
    rdF (wrF s a hi' lo' v) a hi lo = rdF s a hi lo := by
  rw [rdF, rd_wrF, if_pos rfl, fld_setFld_of_gt _ _ hle' hgt]
  rfl

theorem mgetD_mupd_same {α : Type} (m : Map α) (k : Nat) (d : α) (f : α → α) : mgetD (mupd m k d f) k d = f (mgetD m k d) := by
  simp [mupd, mgetD]

theorem wordsBut_wr (s : State) (a : Nat) (v : Word) : WordsBut [a] s (wr s a v) :=
  fun b hb => rd_wr_ne _ _ _ _ (by simpa using hb)

/-! Rings. -/

theorem getRing_updRing (s : State) (q j : Nat) (f : Ring → Ring) :
    getRing (updRing s q f) j = if j = q then f (getRing s q) else getRing s j := by
  unfold getRing updRing
  by_cases h : j = q
  · subst h
    simp [mgetD_mupd_same]
  · simp [h, mupd, mgetD_mset_ne _ _ _ _ _ h]

theorem getRing_updRing_same (s : State) (q : Nat) (f : Ring → Ring) : getRing (updRing s q f) q = f (getRing s q) := by
  rw [getRing_updRing, if_pos rfl]

theorem ringResetEnd_steady {s : State} {q : Nat} (h : (getRing s q).resetting = false) : ringResetEnd s q = s :=
  if_neg (by simp [h])

/-! A request of the engines (13 R284). -/

/-- r is the request of the engines that NI n takes for queue q: an operation opc at FA fa. -/
structure IsEngReq (s : State) (n q code opc fa : Nat) (dst : Option (BitVec 12)) (nbytes : Nat) (data : List Line) (r : Req) : Prop where
  id : r.id = (getNi s n).nextId
  queue : r.q = q
  posted : r.posted = isPosted opc
  opc : r.msg.opc = BitVec.ofNat 7 opc
  addr : r.hostAddr = BitVec.ofNat 52 fa
  dst : r.msg.dst = dst.getD 0
  nbytes : r.nbytes = nbytes
  data : r.msg.data = data
  slot : r.slot = some code
  start : r.start = fa

/-- A request of the engines joins its NI and its queue; its tracker entry and the fill it may start change nothing else (13 R284). -/
theorem engSend_spec {s t : State} {n q code opc fa nbytes : Nat} {dst : Option (BitVec 12)} {data : List Line} (hn : n < 128)
    (hto : fa / 2 ^ 50 = 0 ∨ dst.isSome = true) (hroom : isPosted opc = false → (getNi s n).trk.length < 1024)
    (ht : t = engSend s n q code opc fa dst nbytes data) :
    ∃ (r : Req) (trk : Map Trk), IsEngReq s n q code opc fa dst nbytes data r ∧
      takenView n t = ((getNi s n).reqs ++ [r], (getNi s n).nextId + 1, trk,
        mupd (getNi s n).sched.queues q {} (fun q => { q with reqIds := q.reqIds ++ [r.id] }),
        (getNi s n).port.accept, (getNi s n).port.err) ∧ NiNote n [] s t := by
  have hsent : ¬ (fa / 2 ^ 50 ≠ 0 ∧ dst.isNone = true) := by
    rintro ⟨hfa, hdst⟩
    obtain h | h := hto
    · exact hfa h
    · rw [Option.isNone_iff_eq_none.mp hdst] at h
      exact Bool.false_ne_true h
  unfold engSend at ht
  rw [if_neg hsent] at ht
  extract_lets len fill m ovs r u s1 at ht
  clear_value fill
  obtain ⟨hallocNote, ⟨trk, halloc⟩, -⟩ := allocTrk_spec (u := u) rfl hroom
  have hjoin : takenView n s1 = _ := takenView_enqueueReq u.2 n { r with tag := u.1 }
  have hfill : NiNote n [] s1 t ∧ Keeps (takenView n) s1 t := by
    rw [ht]
    cases fill with
    | none => exact ⟨.refl .., .refl ..⟩
    | some f =>
      obtain ⟨i, x⟩ := f
      have hneed := etcNeed_keepsTaken s1 i x hn
      exact ⟨hneed.1.trans (.updNi ..), hneed.2.trans (updNi_keepsTaken _ _ fun q => takenOf_etcTouch q i x)⟩
  refine ⟨{ r with tag := u.1 }, trk, ⟨rfl, rfl, rfl, rfl, rfl, rfl, rfl, rfl, rfl, rfl⟩, ?_, hallocNote.trans (((enqueueReq_niOnly ..).niNote _).trans hfill.1)⟩
  refine Eq.trans hfill.2 (hjoin.trans ?_)
  rw [halloc]

/-- The requests and the queue of an NI that has taken one. -/
theorem of_takenView {t : State} {n q id next : Nat} {reqs : List Req} {trk : Map Trk} {qs : Map Queue} {a b : Bool}
    (h : takenView n t = (reqs, next, trk, mupd qs q {} (fun x => { x with reqIds := x.reqIds ++ [id] }), a, b)) :
    (getNi t n).reqs = reqs ∧ (getQ (getNi t n) q).reqIds = (mgetD qs q {}).reqIds ++ [id] := by
  simp only [takenView, takenOf, Prod.mk.injEq] at h
  obtain ⟨hreqs, -, -, hqueues, -, -⟩ := h
  refine ⟨hreqs, ?_⟩
  rw [getQ, hqueues, mgetD_mupd_same]

theorem engCan_trk {s : State} {n q opc len : Nat} (h : engCan s n q opc len = true) (hposted : isPosted opc = false) :
    (getNi s n).trk.length < 1024 := by
  simp only [engCan, hposted, Bool.false_eq_true, if_false, Bool.and_eq_true] at h
  exact trk_length_lt_of_trkRoom h.2

theorem NiNote.eng {n : Nat} {l : List Nat} {s t : State} (h : NiNote n l s t) : t.eng = s.eng := by rw [h.1]

theorem nRinks_le (s : State) : nRinks s ≤ 8 := by
  unfold nRinks
  split <;> decide

theorem nRinks_pos (s : State) : 0 < nRinks s := by
  unfold nRinks
  split <;> decide

end Sys2Proof.Machine
end

section
/-! SUPPORT. The completion entry of a finished command (13 R296; for O31). -/

namespace Sys2Proof.Machine

/-- The completion entry of command c of ring k leaves for RPI. -/
def entrySent (s : State) (k : Nat) (c : Cmd) : State :=
  let a := rdF s (aEng (0x110 + 0x40 * k)) 51 12 * 4096 + 16 * (ringRpi s k % 2 ^ ringSz s k)
  engSend s (svcNi (rinkOf s k)) 8 190 opMwrPtl a none 16 [BitVec.ofNat 512 ((compEntry s c).toNat <<< (8 * (a % 64)))]

/-- RPI of ring k advances in t from what it was in s; PHASE flips at the wrap. -/
def rpiAdvanced (s t : State) (k : Nat) : State :=
  let sz := 2 ^ ringSz s k
  let rpi := ringRpi s k % sz
  let i := aEng (0x120 + 0x40 * k)
  let s2 := wrF t i 43 32 ((rpi + 1) % sz)
  if rpi + 1 = sz then wrF s2 i 48 48 (1 - rdF s i 48 48) else s2

/-- The record of a command goes. -/
def dropCmd (s : State) (key : Nat) : State := { s with eng := { s.eng with cmds := s.eng.cmds.filter fun d => d.key != key } }

theorem exec_commandComplete {s : State} {q : BitVec 4} {c : Cmd}
    (hfind : s.eng.cmds.find? (fun c => c.ring == q.toNat && c.done) = some c)
    (hquiet : c.ntf = false ∨ bitOf (ringCfg s q.toNat) 20 = false) (hroom : compRoom s q.toNat = true)
    (hcan : engCan s (svcNi (rinkOf s q.toNat)) 8 0x11 1 = true) : exec (.commandComplete q) s =
      answer s (ringResetEnd (dropCmd (rpiAdvanced s (entrySent s q.toNat c) q.toNat) c.key) q.toNat) := by
  have hnote : (c.ntf && bitOf (ringCfg s q.toNat) 20) = false := by
    obtain h | h := hquiet
    · rw [h, Bool.false_and]
    · rw [h, Bool.and_false]
  refine congrArg (answer s) ?_
  dsimp only
  rw [hfind]
  dsimp only
  rw [hnote, hroom, show engCan s (svcNi (rinkOf s q.toNat)) 8 opMwrPtl 1 = true from hcan]
  rfl

theorem rpiAdvanced_whole (s t : State) (k : Nat) : rpiAdvanced s t k = { t with regs := (rpiAdvanced s t k).regs } := by
  unfold rpiAdvanced
  dsimp only
  split <;> rfl

theorem rd_rpiAdvanced_ne (s t : State) (k : Nat) {a : Nat} (h : a ≠ aEng (0x120 + 0x40 * k)) : rd (rpiAdvanced s t k) a = rd t a := by
  unfold rpiAdvanced
  dsimp only
  split
  · rw [rd_wrF, if_neg h, rd_wrF, if_neg h]
  · rw [rd_wrF, if_neg h]

theorem rpiAdvanced_fields {s t : State} {k : Nat} (hword : rd t (aEng (0x120 + 0x40 * k)) = rd s (aEng (0x120 + 0x40 * k)))
    (hsz : ringSz s k ≤ 12) :
    rdF (rpiAdvanced s t k) (aEng (0x120 + 0x40 * k)) 43 32 = (ringRpi s k % 2 ^ ringSz s k + 1) % 2 ^ ringSz s k ∧
    rdF (rpiAdvanced s t k) (aEng (0x120 + 0x40 * k)) 48 48 = (if ringRpi s k % 2 ^ ringSz s k + 1 = 2 ^ ringSz s k
      then 1 - rdF s (aEng (0x120 + 0x40 * k)) 48 48 else rdF s (aEng (0x120 + 0x40 * k)) 48 48) := by
  have hle : 2 ^ ringSz s k ≤ 2 ^ 12 := Nat.pow_le_pow_right (by decide) hsz
  have hlt : (ringRpi s k % 2 ^ ringSz s k + 1) % 2 ^ ringSz s k < 2 ^ 12 :=
    Nat.lt_of_lt_of_le (Nat.mod_lt _ (Nat.two_pow_pos _)) hle
  have hphase : rdF t (aEng (0x120 + 0x40 * k)) 48 48 = rdF s (aEng (0x120 + 0x40 * k)) 48 48 := congrArg (fld · 48 48) hword
  unfold rpiAdvanced
  dsimp only
  split
  · rw [rdF_wrF_of_lt _ _ _ (by decide) (by decide), rdF_wrF_same _ _ _ (by decide) (by decide), rdF_wrF_same _ _ _ (by decide) (by decide)]
    exact ⟨Nat.mod_eq_of_lt hlt, Nat.mod_eq_of_lt (by omega)⟩
  · rw [rdF_wrF_same _ _ _ (by decide) (by decide), rdF_wrF_of_gt _ _ _ (by decide) (by decide)]
    exact ⟨Nat.mod_eq_of_lt hlt, hphase⟩

/-- Settles O31: the entry is one request of the rink's service NI, and only the ring's index word and its command records change. -/
theorem completionIsWrittenAtRpi : Obligations.CompletionIsWrittenAtRpi := by
  unfold Obligations.CompletionIsWrittenAtRpi
  intro s q k n sz rpi a i c hk hn hfind hquiet hroom hcan hsteady hsz hszdef hrpi ha hfa hi
  subst hk hszdef hrpi ha hi
  have hrink : svcNi (rinkOf s q.toNat) = n := by rw [hn, svcNi, rinkOf, if_pos q.isLt]
  have hlt : n < 128 := by
    have hmod := Nat.mod_lt q.toNat (nRinks_pos s)
    have hle := nRinks_le s
    omega
  have hexec := exec_commandComplete hfind hquiet hroom (by rw [hrink]; exact hcan)
  obtain ⟨r, trk, hr, hview, hnote⟩ := engSend_spec hlt (.inl (Nat.div_eq_of_lt hfa)) (Bool.noConfusion : true = false → _)
    (show entrySent s q.toNat c = _ by rw [entrySent, hrink])
  obtain ⟨hposted, hopc, haddr, hbytes, hdata⟩ : r.posted = true ∧ r.msg.opc = 0x11 ∧ r.hostAddr = _ ∧ r.nbytes = 16 ∧ r.msg.data = _ :=
    ⟨hr.posted, hr.opc, hr.addr, hr.nbytes, hr.data⟩
  generalize hu : entrySent s q.toNat c = u at hexec hview hnote
  have hword : rd u (aEng (0x120 + 0x40 * q.toNat)) = rd s (aEng (0x120 + 0x40 * q.toNat)) :=
    hnote.2.1 _ (by simp) (noteWord_aEng (by omega))
  have hwhole := rpiAdvanced_whole s u q.toNat
  obtain ⟨hindex, hphase⟩ := rpiAdvanced_fields hword hsz
  have hwords := fun a => rd_rpiAdvanced_ne s u q.toNat (a := a)
  generalize rpiAdvanced s u q.toNat = v at hexec hwhole hindex hphase hwords
  have heng : v.eng = s.eng := by rw [hwhole, ← hnote.eng]
  have hrings : getRing (dropCmd v c.key) q.toNat = getRing s q.toNat := by rw [getRing, dropCmd, heng]; rfl
  rw [ringResetEnd_steady (by rw [hrings, hsteady])] at hexec
  have hgen := hnote.1
  refine completes_of_answer hexec ?_ ?_ ?_ ⟨r, ?_, hopc, ?_, hbytes, hdata, hindex, hphase, ?_, fun b hb hfree => ?_⟩
  · rw [dropCmd, hwhole, hgen]
  · rw [dropCmd, hwhole, hgen]
  · rw [dropCmd, hwhole, hgen]
  · rw [show getNi (dropCmd v c.key) n = getNi u n by rw [dropCmd, hwhole]; rfl]
    exact (of_takenView hview).1
  · rw [haddr, BitVec.toNat_ofNat]
    exact Nat.mod_eq_of_lt (Nat.lt_trans hfa (by decide))
  · rw [dropCmd, heng]
  · exact (hwords b (by simpa using hb)).trans (hnote.2.1 b (by simp) hfree)

end Sys2Proof.Machine
end

section
/-! SUPPORT. The indices of a ring, its reset, and the fetch of its next entry (13 R285, R286, R298; for O29). -/

namespace Sys2Proof.Machine

theorem exec_ringPiWrite {s : State} {q : BitVec 4} (v : BitVec 12) (heng : s.gen.eng = true)
    (hreset : (getRing s q.toNat).resetNs ≠ some (nowNs s)) :
    exec (.ringPiWrite q v) s = answer s (wrF s (aEng (0x118 + 0x40 * q.toNat)) 11 0 v.toNat) :=
  congrArg (answer s) (ringPiPut_eq v heng hreset)

theorem exec_ringPiWrite_discarded {s : State} {q : BitVec 4} (v : BitVec 12) (hreset : (getRing s q.toNat).resetNs = some (nowNs s)) :
    exec (.ringPiWrite q v) s = answer s s := by
  have hnow : ((mgetD s.eng.rings q.toNat {}).resetNs != some (nowNs s)) = false := bne_eq_false_iff_eq.mpr hreset
  exact congrArg (answer s) (if_neg (by rw [hnow, Bool.and_false]; decide))

theorem exec_ringRciWrite {s : State} (q : BitVec 4) (v : BitVec 12) (heng : s.gen.eng = true) :
    exec (.ringRciWrite q v) s = answer s (wrF s (aEng (0x128 + 0x40 * q.toNat)) 11 0 v.toNat) :=
  congrArg (answer s) (if_pos heng)

theorem exec_ringResume {s : State} (q : BitVec 4) (heng : s.gen.eng = true) :
    exec (.ringResume q) s = answer s (updRing s q.toNat fun x => { x with stopped := false }) := congrArg (answer s) (if_pos heng)

/-- A ring's index written is read as it was written, and no other word changes. -/
theorem completes_of_index {c : Instr} {s : State} {a : Nat} {v : BitVec 12} (hexec : exec c s = answer s (wrF s a 11 0 v.toNat)) :
    Completes c s fun t => rdF t a 11 0 = v.toNat ∧ WordsBut [a] s t ∧ t = { s with regs := t.regs } :=
  completes_of_answer hexec rfl rfl rfl ⟨(rdF_wrF_same s a v.toNat (by decide) (by decide)).trans (Nat.mod_eq_of_lt v.isLt), wordsBut_wr s a _, rfl⟩

/-! The reset of a ring without commands. -/

/-- Ring k begins its reset: CI is PI. -/
def ringResetBegun (s : State) (k : Nat) : State :=
  wrF (updRing s k fun x => { x with resetting := true, stopped := false, resetNs := some (nowNs s) }) (aEng (0x120 + 0x40 * k)) 11 0 (ringPi s k)

/-- Ring k with its indices 0 and PHASE 1. -/
def ringEmptied (s : State) (k : Nat) : State :=
  updRing (wr (wr (wr s (aEng (0x118 + 0x40 * k)) 0) (aEng (0x128 + 0x40 * k)) 0) (aEng (0x120 + 0x40 * k)) (BitVec.ofNat 64 (2 ^ 48))) k
    fun x => { x with resetting := false }

theorem ringResetEnd_due {s : State} {k : Nat} (hresetting : (getRing s k).resetting = true) (hbusy : ringBusy s k = 0) :
    ringResetEnd s k = ringEmptied s k := if_pos (by rw [hresetting, hbusy]; rfl)

theorem exec_ringReset {s : State} {q : BitVec 4} (heng : s.gen.eng = true) (hnone : ∀ c ∈ s.eng.cmds, c.ring ≠ q.toNat) :
    exec (.ringReset q) s = answer s (ringEmptied (ringResetBegun s q.toNat) q.toNat) := by
  have hempty : ∀ p : Cmd → Bool, (s.eng.cmds.filter fun c => c.ring == q.toNat && p c) = [] := fun p =>
    List.filter_eq_nil_iff.mpr fun c hc => by simp [hnone c hc]
  have hdata : (s.eng.cmds.filter fun c => c.ring == q.toNat && !c.done && !isCtlOp c.op.toNat && !isAdmOp c.op.toNat) = [] := by
    simpa only [Bool.and_assoc] using hempty fun c => !c.done && (!isCtlOp c.op.toNat && !isAdmOp c.op.toNat)
  have hbusy : ringBusy (ringResetBegun s q.toNat) q.toNat = 0 := by
    have h := hempty fun _ => true
    simp only [Bool.and_true] at h
    exact congrArg List.length h
  have hresetting : (getRing (ringResetBegun s q.toNat) q.toNat).resetting = true :=
    congrArg Ring.resetting (getRing_updRing_same s q.toNat fun x => { x with resetting := true, stopped := false, resetNs := some (nowNs s) })
  refine congrArg (answer s) ((if_neg (by simp [heng])).trans ?_)
  dsimp only
  rw [hdata]
  exact ringResetEnd_due hresetting hbusy

theorem rd_ringResetBegun {s : State} {k a : Nat} (h : a ≠ aEng (0x120 + 0x40 * k)) : rd (ringResetBegun s k) a = rd s a := by
  rw [ringResetBegun, rd_wrF, if_neg h]
  rfl

theorem ring_reset {s : State} {q : BitVec 4} {k : Nat} (hk : k = q.toNat) (heng : s.gen.eng = true) (hnone : ∀ c ∈ s.eng.cmds, c.ring ≠ k) :
    Completes (.ringReset q) s fun t =>
      rd t (aEng (0x118 + 0x40 * k)) = 0 ∧ rd t (aEng (0x128 + 0x40 * k)) = 0 ∧ rd t (aEng (0x120 + 0x40 * k)) = 0x0001000000000000#64 ∧
      getRing t k = { getRing s k with resetting := false, stopped := false, resetNs := some (nowNs s) } ∧
      WordsBut [aEng (0x118 + 0x40 * k), aEng (0x128 + 0x40 * k), aEng (0x120 + 0x40 * k)] s t := by
  subst hk
  have hrd : ∀ u a, rd (ringEmptied u q.toNat) a = if a = aEng (0x120 + 0x40 * q.toNat) then BitVec.ofNat 64 (2 ^ 48)
      else if a = aEng (0x128 + 0x40 * q.toNat) then 0 else if a = aEng (0x118 + 0x40 * q.toNat) then 0 else rd u a := fun u a => by
    rw [show rd (ringEmptied u q.toNat) a = rd (wr (wr (wr u _ 0) _ 0) _ (BitVec.ofNat 64 (2 ^ 48))) a from rfl, rd_wr, rd_wr, rd_wr]
  refine completes_of_answer (exec_ringReset heng hnone) rfl rfl rfl ⟨?_, ?_, ?_, ?_, fun a ha => ?_⟩
  · rw [hrd, if_neg (by unfold aEng; omega), if_neg (by unfold aEng; omega), if_pos rfl]
  · rw [hrd, if_neg (by unfold aEng; omega), if_pos rfl]
  · rw [hrd, if_pos rfl]
    rfl
  · have hbegun : getRing (ringResetBegun s q.toNat) q.toNat = { getRing s q.toNat with
        resetting := true, stopped := false, resetNs := some (nowNs s) } := getRing_updRing_same s _ _
    exact (getRing_updRing_same _ _ _).trans (congrArg (fun x : Ring => { x with resetting := false }) hbegun)
  · simp only [List.mem_cons, List.not_mem_nil, or_false, not_or] at ha
    obtain ⟨hpi, hrci, hci⟩ := ha
    rw [hrd, if_neg hci, if_neg hrci, if_neg hpi, rd_ringResetBegun hci]

/-! The fetch. -/

/-- Ring q is the one that rink b fetches. -/
def fetchBegun (s : State) (b q : Nat) : State :=
  let s1 := updRing s q fun x => { x with fetching := true }
  { s1 with eng := { s1.eng with lastRing := mset s1.eng.lastRing b q } }

theorem exec_ringFetch {s : State} {b : BitVec 3} {q : Nat} (htakes : rinkTakes s b.toNat = true)
    (hcan : engCan s (svcNi b.toNat) 8 1 1 = true) (hfind : (ringOrder s b.toNat).find? (mayFetch s) = some q) :
    exec (.ringFetch b) s = answer s (engSend (fetchBegun s b.toNat q) (svcNi b.toNat) 8 (128 + q) 1
      (rdF s (aEng (0x108 + 0x40 * q)) 51 12 * 4096 + 64 * (ringCi s q % 2 ^ ringSz s q)) none 64 []) := by
  have hgo : ¬ ((!rinkTakes s b.toNat || !engCan s (svcNi b.toNat) 8 opMemRd 1) = true) := by
    rw [htakes, show engCan s (svcNi b.toNat) 8 opMemRd 1 = true from hcan]
    decide
  refine congrArg (answer s) ((if_neg hgo).trans ?_)
  rw [hfind]
  rfl

theorem ring_fetched {s : State} {b : BitVec 3} {n q fa : Nat} (hn : n = 120 + b.toNat) (htakes : rinkTakes s b.toNat = true)
    (hcan : engCan s n 8 1 1 = true) (hfind : (ringOrder s b.toNat).find? (mayFetch s) = some q)
    (hfa : fa = rdF s (aEng (0x108 + 0x40 * q)) 51 12 * 4096 + 64 * (ringCi s q % 2 ^ ringSz s q)) (hlt : fa < 2 ^ 50) :
    Completes (.ringFetch b) s fun t => ∃ r : Req,
      (getNi t n).reqs = (getNi s n).reqs ++ [r] ∧ (getQ (getNi t n) 8).reqIds = (getQ (getNi s n) 8).reqIds ++ [r.id] ∧
      r.msg.opc = 1 ∧ r.hostAddr.toNat = fa ∧ r.nbytes = 64 ∧ r.posted = false ∧ (getRing t q).fetching = true ∧
      mget t.eng.lastRing b.toNat = some q ∧ ∀ m, m ≠ n → SameNi s t m := by
  have hexec := exec_ringFetch htakes (by rw [svcNi, ← hn]; exact hcan) hfind
  rw [← hfa, svcNi, ← hn] at hexec
  have hni : ∀ m, getNi (fetchBegun s b.toNat q) m = getNi s m := fun _ => rfl
  have hring : getRing (fetchBegun s b.toNat q) q = { getRing s q with fetching := true } :=
    mgetD_mupd_same s.eng.rings q {} fun x => { x with fetching := true }
  have hlast : mget (fetchBegun s b.toNat q).eng.lastRing b.toNat = some q := mget_mset_same ..
  have hother : (fetchBegun s b.toNat q).gen = s.gen ∧ (fetchBegun s b.toNat q).pending = s.pending ∧ (fetchBegun s b.toNat q).lcs = s.lcs :=
    ⟨rfl, rfl, rfl⟩
  generalize fetchBegun s b.toNat q = u at hexec hni hring hlast hother
  obtain ⟨hgen, hpending, hlcs⟩ := hother
  have hb := b.isLt
  generalize ht : engSend u n 8 (128 + q) 1 fa none 64 [] = t at hexec
  obtain ⟨r, trk, hr, hview, hnote⟩ := engSend_spec (by omega) (.inl (Nat.div_eq_of_lt hlt)) (fun h => by
    rw [hni]
    exact engCan_trk hcan h) ht.symm
  obtain ⟨hposted, hopc, haddr, hbytes⟩ : r.posted = false ∧ r.msg.opc = 1 ∧ r.hostAddr = BitVec.ofNat 52 fa ∧ r.nbytes = 64 :=
    ⟨hr.posted, hr.opc, hr.addr, hr.nbytes⟩
  have heng := hnote.eng
  obtain ⟨hwhole, -, hnis⟩ := hnote
  rw [hni] at hview
  obtain ⟨hreqs, hqueue⟩ := of_takenView hview
  refine completes_of_answer hexec (by rw [hwhole, hgen]) (by rw [hwhole, hpending]) (by rw [hwhole, hlcs])
    ⟨r, hreqs, hqueue, hopc, ?_, hbytes, hposted, ?_, ?_, fun m hm => ?_⟩
  · rw [haddr, BitVec.toNat_ofNat]
    exact Nat.mod_eq_of_lt (Nat.lt_trans hlt (by decide))
  · rw [getRing, heng, ← getRing, hring]
  · rw [heng, hlast]
  · have hsame := hnis m hm
    unfold SameNi at hsame ⊢
    rwa [hni] at hsame

/-- Settles O29: PI and RCI are fields of words of their own, and a fetch is one request of the rink's service NI. -/
theorem ringsTakeIndicesFetchAndReset : Obligations.RingsTakeIndicesFetchAndReset := by
  unfold Obligations.RingsTakeIndicesFetchAndReset
  refine ⟨fun s q v k hk heng => ?_, fun s b n q fa hn htakes hcan hfind hfa hlt => ring_fetched hn htakes hcan hfind hfa hlt⟩
  subst hk
  refine ⟨fun hreset => completes_of_index (exec_ringPiWrite v heng hreset), fun hreset =>
    completes_of_eq_self (exec_ringPiWrite_discarded v hreset), completes_of_index (exec_ringRciWrite q v heng),
    completes_of_answer (exec_ringResume q heng) rfl rfl rfl ⟨getRing_updRing_same .., fun j hj => ?_, rfl⟩, ring_reset rfl heng⟩
  rw [getRing_updRing, if_neg hj]

end Sys2Proof.Machine
end

section
/-! SUPPORT. A fetched command entry at its arrival (13 R286 to R290, R297; for O30). -/

namespace Sys2Proof.Machine

/-- Taking an answer changes the inbox alone. -/
theorem takeAnswer_inbox {s u : State} {code : Nat} {a : Nat × List Line × Nat} (h : takeAnswer s code = (some a, u)) :
    ∃ l, u = { s with eng := { s.eng with inbox := l } } := by
  unfold takeAnswer at h
  split at h
  · cases h
    exact ⟨_, rfl⟩
  · cases h

theorem noted_raiseRinkFree (s : State) (b code sev : Nat) : Noted s (raiseRinkFree s b code sev) :=
  (noted_takeFree s).trans (routeNote_noteOnly ..).noted

/-- The fetch of ring k is over. -/
def fetched (u : State) (k : Nat) : State := updRing u k fun x => { x with fetching := false }

/-- A failed fetch stops ring k (13 R297). -/
def fetchFailed (u : State) (k : Nat) : State :=
  setFlag (setFlag (updRing (fetched u k) k fun x => { x with stopped := true }) (aEng (0x138 + 0x40 * k)) 8) (aEng 0) 3

section
variable {s u : State} {q : BitVec 4} {fa stat : Nat} {data : List Line} (htake : takeAnswer s (128 + q.toNat) = (some (fa, data, stat), u))
  (hsteady : (getRing s q.toNat).resetting = false)
include htake hsteady

theorem exec_commandArrive_failed (hstat : stat ≠ 0) :
    exec (.commandArrive q) s = answer s (raiseRinkFree (fetchFailed u q.toNat) (rinkOf s q.toNat) 0x133 2) := by
  refine congrArg (answer s) ?_
  dsimp only
  rw [htake]
  exact (if_neg (by rw [hsteady]; decide)).trans (if_pos hstat)

theorem exec_commandArrive (hstat : stat = 0)
    (hroom : permBit (fld (data.headD 0) 7 0) = none ∨ queueRoom s (fld (data.headD 0) 7 0) = true) :
    exec (.commandArrive q) s = answer s (startCmd (ciAdvance (fetched u q.toNat) q.toNat) q.toNat (data.headD 0)) := by
  refine congrArg (answer s) ?_
  dsimp only
  rw [htake]
  exact (if_neg (by rw [hsteady]; decide)).trans ((if_neg (not_not_intro hstat)).trans (if_pos hroom))

end

theorem fetchFailed_whole (u : State) (k : Nat) : fetchFailed u k = { u with
    regs := (fetchFailed u k).regs
    eng := { u.eng with rings := (fetchFailed u k).eng.rings } } := rfl

theorem getRing_fetchFailed (u : State) (k : Nat) : getRing (fetchFailed u k) k = { getRing u k with fetching := false, stopped := true } :=
  (getRing_updRing_same _ _ _).trans (congrArg (fun x : Ring => { x with stopped := true }) (getRing_updRing_same _ _ _))

theorem bitOf_fetchFailed (u : State) (k : Nat) :
    bitOf (rd (fetchFailed u k) (aEng (0x138 + 0x40 * k))) 8 = true ∧ bitOf (rd (fetchFailed u k) (aEng 0)) 3 = true :=
  ⟨bitOf_setFlag _ _ (bitOf_setFlag_same _ _ (by decide)), bitOf_setFlag_same _ _ (by decide)⟩

/-! What a command's start makes of the command records. -/

theorem startCmd_refused {s : State} {k st : Nat} {e : BitVec 512} (h : arrivalStatus s k e = st) (hst : st ≠ 0) :
    startCmd s k e = addCmd s { cmdOf s k e with done := true, status := BitVec.ofNat 8 st } := by
  subst h
  exact if_pos hst

theorem startCmd_control {s : State} {k : Nat} {e : BitVec 512} (h : arrivalStatus s k e = 0) (hctl : isCtlOp (fld e 7 0) = true) :
    (startCmd s k e).eng.cmds = s.eng.cmds ++ [cmdOf s k e] ∧ (startCmd s k e).eng.ctlQ = s.eng.ctlQ ++ [s.eng.nextKey] ∧
    (startCmd s k e).eng.nextKey = s.eng.nextKey + 1 ∧ startCmd s k e = { s with eng := (startCmd s k e).eng } := by
  have hstart : startCmd s k e = { addCmd s (cmdOf s k e) with eng := { (addCmd s (cmdOf s k e)).eng with
      ctlQ := (addCmd s (cmdOf s k e)).eng.ctlQ ++ [(cmdOf s k e).key] } } := (if_neg (not_not_intro h)).trans (if_pos hctl)
  rw [hstart]
  exact ⟨rfl, rfl, rfl, rfl⟩

theorem arrivalStatus_badOp {s : State} {k : Nat} {e : BitVec 512} (h : permBit (fld e 7 0) = none) : arrivalStatus s k e = 1 := by
  unfold arrivalStatus
  dsimp only
  rw [h]

theorem arrivalStatus_denied {s : State} {k b : Nat} {e : BitVec 512} (h : permBit (fld e 7 0) = some b)
    (hperm : bitOf (ringCfg s k) b = false) : arrivalStatus s k e = 3 := by
  unfold arrivalStatus
  dsimp only
  rw [h]
  exact if_pos (by rw [hperm]; rfl)

/-- Ring k after its fetch, CI advanced: only its index word, its fetch state and the inbox differ. -/
theorem arrived_spec {s u v : State} {k fa stat : Nat} {data : List Line} (htake : takeAnswer s (128 + k) = (some (fa, data, stat), u))
    (hv : v = ciAdvance (fetched u k) k) :
    v.eng.cmds = s.eng.cmds ∧ v.eng.ctlQ = s.eng.ctlQ ∧ v.eng.nextKey = s.eng.nextKey ∧ v.gen = s.gen ∧ v.pending = s.pending ∧
    v.lcs = s.lcs ∧ ringCfg v k = ringCfg s k ∧ WordsBut [aEng (0x120 + 0x40 * k)] s v ∧
    (ringSz s k ≤ 12 → ringCi v k = (ringCi s k + 1) % 2 ^ ringSz s k) := by
  obtain ⟨l, rfl⟩ := takeAnswer_inbox htake
  subst hv
  refine ⟨rfl, rfl, rfl, rfl, rfl, rfl, ?_, wordsBut_wr _ _ _, fun hsz => ?_⟩
  · refine (congrArg (rd · _) rfl).trans (rd_wr_ne _ _ _ _ ?_)
    unfold aEng
    omega
  · refine (rdF_wrF_same _ _ _ (by decide) (by decide)).trans (Nat.mod_eq_of_lt ?_)
    exact Nat.lt_of_lt_of_le (Nat.mod_lt _ (Nat.two_pow_pos _)) (Nat.pow_le_pow_right (by decide) hsz)

/-- Settles O30: the status of an arrival decides what becomes of the entry, and its start writes the command records alone. -/
theorem commandEntryIsChecked : Obligations.CommandEntryIsChecked := by
  unfold Obligations.CommandEntryIsChecked
  intro s u q k fa stat data e hk htake he hsteady
  subst hk he
  obtain ⟨hcmds, hctlQ, hnext, hgen, hpending, hlcs, hcfg, hwords, hci⟩ := arrived_spec htake rfl
  have hcmdOf : ∀ v : State, v.eng.nextKey = s.eng.nextKey → cmdOf v q.toNat (data.headD 0) = cmdOf s q.toNat (data.headD 0) :=
    fun v hv => by rw [cmdOf, cmdOf, hv]
  refine ⟨fun hstat => ?_, fun hstat hop hsz => ?_, fun b hstat hop hperm hroom => ?_, fun v hv hstat hctl hroom harr => ?_⟩
  · have hexec := exec_commandArrive_failed htake hsteady hstat
    have hnoted := noted_raiseRinkFree (fetchFailed u q.toNat) (rinkOf s q.toNat) 0x133 2
    generalize raiseRinkFree (fetchFailed u q.toNat) (rinkOf s q.toNat) 0x133 2 = t at hexec hnoted
    obtain ⟨l, rfl⟩ := takeAnswer_inbox htake
    have hfailed := fetchFailed_whole { s with eng := { s.eng with inbox := l } } q.toNat
    have hring := getRing_fetchFailed { s with eng := { s.eng with inbox := l } } q.toNat
    obtain ⟨herr, hstop⟩ := bitOf_fetchFailed { s with eng := { s.eng with inbox := l } } q.toNat
    generalize fetchFailed { s with eng := { s.eng with inbox := l } } q.toNat = v at hnoted hfailed hring herr hstop
    obtain ⟨hwhole, hrd, -⟩ := hnoted
    refine completes_of_answer hexec (by rw [hwhole, hfailed]) (by rw [hwhole, hfailed]) (by rw [hwhole, hfailed])
      ⟨?_, by rwa [hrd _ (noteWord_aEng (by omega))], by rwa [hrd _ (noteWord_aEng (by omega))], by rw [hwhole, hfailed]⟩
    rw [getRing, show t.eng = v.eng by rw [hwhole]]
    exact hring
  · have hexec := exec_commandArrive htake hsteady hstat (.inl hop)
    rw [startCmd_refused (arrivalStatus_badOp hop) (by decide), hcmdOf _ hnext] at hexec
    exact completes_of_answer hexec hgen hpending (congrArg Lcs.fuse hlcs) ⟨congrArg (· ++ _) hcmds, hctlQ, hci hsz, hwords⟩
  · have hexec := exec_commandArrive htake hsteady hstat (.inr hroom)
    rw [startCmd_refused (arrivalStatus_denied hop (by rw [hcfg, hperm])) (by decide), hcmdOf _ hnext] at hexec
    exact completes_of_answer hexec hgen hpending (congrArg Lcs.fuse hlcs) ⟨congrArg (· ++ _) hcmds, hctlQ⟩
  · have hexec := exec_commandArrive htake hsteady hstat (.inr hroom)
    obtain ⟨hadded, hqueued, hkey, hwhole⟩ := startCmd_control (show arrivalStatus (ciAdvance (fetched u q.toNat) q.toNat) q.toNat _ = 0 from hv ▸ harr) hctl
    rw [hcmds, hcmdOf _ hnext] at hadded
    rw [hctlQ, hnext] at hqueued
    rw [hnext] at hkey
    exact completes_of_answer hexec (by rw [hwhole, hgen]) (by rw [hwhole, hpending]) (by rw [hwhole, hlcs]) ⟨hadded, hqueued, hkey⟩

end Sys2Proof.Machine
end

section
/-! SUPPORT. The token's registers and its end, and the end of a debug session (22 R462, R463, R468). -/

namespace Sys2Proof.Machine

theorem noteWord_aLcs {off : Nat} (h : off < 0x1000) : noteWord (aLcs off) = false := by
  unfold noteWord aLcs
  simp only [Bool.or_eq_false_iff, Bool.and_eq_false_iff, beq_eq_false_iff_ne, decide_eq_false_iff_not]
  omega

theorem cpSec_of {m : Master} (h : m = .cp ∨ m = .sec) : cpSec m = true := by
  obtain rfl | rfl := h <;> rfl

theorem NiNote.notedBut {n : Nat} {l : List Nat} {s t : State} (h : NiNote n l s t) : NotedBut l s t := h.2.1

theorem NiNote.lcs {n : Nat} {l : List Nat} {s t : State} (h : NiNote n l s t) : t.lcs = s.lcs := by rw [h.1]

theorem getLsbD_or_flag (w : Word) {i j : Nat} (h : j ≠ i) : (w ||| BitVec.ofNat 64 (1 <<< i)).getLsbD j = w.getLsbD j := by
  rw [BitVec.getLsbD_or, BitVec.getLsbD_ofNat, Nat.shiftLeft_eq, Nat.one_mul, Nat.testBit_two_pow_of_ne (Ne.symm h), Bool.and_false,
    Bool.or_false]

theorem bitOf_setFlag_ne (s : State) (a b : Nat) {i j : Nat} (h : j ≠ i) : bitOf (rd (setFlag s a i) b) j = bitOf (rd s b) j := by
  rw [rd_setFlag]
  split
  · next e =>
    subst e
    exact getLsbD_or_flag _ h
  · rfl

/-- A flag outside a field leaves the field. -/
theorem rdF_setFlag_of_out (s : State) (a b : Nat) {hi lo i : Nat} (h : i < lo ∨ hi < i) (hle : lo ≤ hi) :
    rdF (setFlag s a i) b hi lo = rdF s b hi lo := by
  refine Nat.eq_of_testBit_eq fun j => ?_
  rw [rdF, rdF, testBit_fld, testBit_fld]
  by_cases hj : j < hi - lo + 1
  · rw [show (rd (setFlag s a i) b).getLsbD (lo + j) = (rd s b).getLsbD (lo + j) from bitOf_setFlag_ne s a b (by omega)]
  · simp [hj]

theorem bitOf_wrF_out (s : State) (a : Nat) {hi lo i : Nat} (v : Nat) (h : i < lo ∨ hi < i) (hle : lo ≤ hi) :
    bitOf (rd (wrF s a hi lo v) a) i = bitOf (rd s a) i := by
  rw [rd_wrF, if_pos rfl, bitOf, getLsbD_setFld, if_neg (by omega)]
  rfl

/-! LCS_TSTAT. -/

/-- The word as a code other than OK leaves it, before the notification. -/
def refusedStat (s : State) (code : Nat) : State := setFlag (wrF s (aLcs 0x28) 15 8 code) (aLcs 0x28) 1

theorem tokenStat_refused {s : State} {code : Nat} (h : code ≠ 0) :
    tokenStat s code = raiseG (refusedStat s code) 244 0x221 1 code := if_neg h

theorem tokenStat_ok (s : State) : tokenStat s 0 = setFlag (wrF s (aLcs 0x28) 15 8 0) (aLcs 0x28) 0 := by
  unfold tokenStat
  exact if_pos rfl

theorem tokenStat_niNote (n : Nat) (s : State) (code : Nat) : NiNote n [aLcs 0x28] s (tokenStat s code) := by
  have hfield : NiNote n [aLcs 0x28] s (wrF s (aLcs 0x28) 15 8 code) := .wr _ _ (List.mem_singleton.mpr rfl)
  unfold tokenStat
  exact hfield.trans (.ite (.setFlag _ _ (List.mem_singleton.mpr rfl))
    ((NiNote.setFlag _ _ (List.mem_singleton.mpr rfl)).trans ((noted_raiseG ..).niNote ..)))

theorem rdF_tokenStat_code (s : State) {code : Nat} (h : code < 256) : rdF (tokenStat s code) (aLcs 0x28) 15 8 = code := by
  have hfield : rdF (wrF s (aLcs 0x28) 15 8 code) (aLcs 0x28) 15 8 = code :=
    (rdF_wrF_same _ _ _ (by decide) (by decide)).trans (Nat.mod_eq_of_lt h)
  by_cases hcode : code = 0
  · subst hcode
    rw [tokenStat_ok, rdF_setFlag_of_out _ _ _ (.inl (by decide)) (by decide), hfield]
  · rw [tokenStat_refused hcode, rdF, rd_raiseG _ _ _ _ _ (noteWord_aLcs (by decide))]
    exact (rdF_setFlag_of_out _ _ _ (.inl (by decide)) (by decide)).trans hfield

theorem bitOf_tokenStat_refused (s : State) {code : Nat} (h : code ≠ 0) : bitOf (rd (tokenStat s code) (aLcs 0x28)) 1 = true := by
  rw [tokenStat_refused h, rd_raiseG _ _ _ _ _ (noteWord_aLcs (by decide))]
  exact bitOf_setFlag_same _ _ (by decide)

theorem bitOf_tokenStat_busy (s : State) (code : Nat) : bitOf (rd (tokenStat s code) (aLcs 0x28)) 3 = bitOf (rd s (aLcs 0x28)) 3 := by
  have hfield : bitOf (rd (wrF s (aLcs 0x28) 15 8 code) (aLcs 0x28)) 3 = bitOf (rd s (aLcs 0x28)) 3 :=
    bitOf_wrF_out _ _ _ (.inl (by decide)) (by decide)
  by_cases hcode : code = 0
  · subst hcode
    rw [tokenStat_ok, bitOf_setFlag_ne _ _ _ (by decide), hfield]
  · rw [tokenStat_refused hcode, rd_raiseG _ _ _ _ _ (noteWord_aLcs (by decide))]
    exact (bitOf_setFlag_ne _ _ _ (by decide)).trans hfield

/-! The end of a token. -/

/-- The life-cycle unit with no token held, and a fresh nonce. -/
def tokenGone (s : State) : Lcs := { s.lcs with nonce := Config.freeWord s.free, bytes := [], busy := false }

/-- No token is held; LCS_TSTAT still has its code. -/
def tokenLeft (s : State) : State := wrF { (takeFree s).2 with lcs := tokenGone s } (aLcs 0x28) 3 3 0

theorem tokenEnd_eq (s : State) (code : Nat) : tokenEnd s code = tokenStat (tokenLeft s) code := rfl

theorem tokenEnd_niNote (n : Nat) (s : State) (code : Nat) : NiNote n [aLcs 0x28] { s with lcs := tokenGone s } (tokenEnd s code) := by
  have hleft : NiNote n [aLcs 0x28] { s with lcs := tokenGone s } (tokenLeft s) :=
    (NiNote.takeFree n _ { s with lcs := tokenGone s }).trans (.wr _ _ (List.mem_singleton.mpr rfl))
  exact hleft.trans (tokenStat_niNote ..)

theorem tokenEnd_lcs (s : State) (code : Nat) : (tokenEnd s code).lcs = tokenGone s := (tokenEnd_niNote 0 s code).lcs

theorem rdF_tokenEnd_code (s : State) {code : Nat} (h : code < 256) : rdF (tokenEnd s code) (aLcs 0x28) 15 8 = code :=
  rdF_tokenStat_code _ h

theorem bitOf_tokenEnd_refused (s : State) {code : Nat} (h : code ≠ 0) : bitOf (rd (tokenEnd s code) (aLcs 0x28)) 1 = true :=
  bitOf_tokenStat_refused _ h

theorem bitOf_tokenEnd_busy (s : State) (code : Nat) : bitOf (rd (tokenEnd s code) (aLcs 0x28)) 3 = false := by
  rw [tokenEnd_eq, bitOf_tokenStat_busy, bitOf, tokenLeft, rd_wrF, if_pos rfl, getLsbD_setFld, if_pos (by decide)]
  rfl

/-- A token that ends with a code other than OK is gone, and LCS_TSTAT says so. -/
theorem completes_tokenEnd {c : Instr} {s : State} {code : Nat} (hexec : exec c s = answer s (tokenEnd s code)) (hcode : code ≠ 0)
    (hlt : code < 256) : Completes c s fun t => rdF t (aLcs 0x28) 15 8 = code ∧ bitOf (rd t (aLcs 0x28)) 1 = true ∧
      bitOf (rd t (aLcs 0x28)) 3 = false ∧ t.lcs = { s.lcs with nonce := Config.freeWord s.free, bytes := [], busy := false } ∧
      NotedBut [aLcs 0x28] s t := by
  have hnote := tokenEnd_niNote 0 s code
  have hwhole := hnote.1
  exact completes_of_answer hexec (by rw [hwhole]) (by rw [hwhole]) (by rw [hwhole]; rfl)
    ⟨rdF_tokenEnd_code s hlt, bitOf_tokenEnd_refused s hcode, bitOf_tokenEnd_busy s code, tokenEnd_lcs s code, hnote.notedBut⟩

theorem tokenCode_lt (s : State) : tokenCode s < 256 := by
  unfold tokenCode
  dsimp only
  repeat' split
  all_goals decide

/-! Sessions. -/

theorem sessionEnd_open {s : State} (h : s.lcs.session ≠ none) :
    sessionEnd s = raiseGFree { s with lcs := { s.lcs with session := none } } 244 0x223 0 :=
  if_pos (Option.isSome_iff_ne_none.mpr h)

theorem sessionEnd_closed {s : State} (h : s.lcs.session = none) : sessionEnd s = s := if_neg (by rw [h]; decide)

theorem completes_sessionEnd {c : Instr} {s : State} (hexec : exec c s = answer s (sessionEnd s)) (h : s.lcs.session ≠ none) :
    Completes c s fun t => t.lcs = { s.lcs with session := none } ∧ NotedBut [] s t := by
  rw [sessionEnd_open h] at hexec
  have hnoted := noted_raiseGFree { s with lcs := { s.lcs with session := none } } 244 0x223 0
  have hwhole := hnoted.whole
  exact completes_of_answer hexec (by rw [hwhole]) (by rw [hwhole]) (by rw [hwhole]) ⟨by rw [hwhole], fun a _ => hnoted.words a⟩

end Sys2Proof.Machine
end

section
/-! PROOF. Tokens are started, received, aborted and refused (22 R462, R463; for O53). -/

namespace Sys2Proof.Machine

theorem exec_tokenStart {m : Master} (s : State) (hm : cpSec m = true) : exec (.tokenStart m) s = answer s (tokenStartWrite s) :=
  congrArg (answer s) (if_pos hm)

theorem exec_tokenData {m : Master} (s : State) (v : Word) (hm : cpSec m = true) :
    exec (.tokenData m v) s = answer s (tokenDataWrite s v) := congrArg (answer s) (if_pos hm)

theorem exec_tokenAbort {m : Master} (s : State) (hm : cpSec m = true) : exec (.tokenAbort m) s = answer s (tokenAbortWrite s) :=
  congrArg (answer s) (if_pos hm)

theorem exec_tokenRefusal {s : State} (hdue : tokenDue s = true) (hcode : tokenCode s ≠ 0) :
    exec .tokenRefusal s = answer s (tokenEnd s (tokenCode s)) := congrArg (answer s) (if_pos (by simp [hdue, hcode]))

theorem token_started {s : State} {m : Master} (hm : cpSec m = true) (hbusy : s.lcs.busy = false) : Completes (.tokenStart m) s fun t =>
    bitOf (rd t (aLcs 0x28)) 3 = true ∧ WordsBut [aLcs 0x28] s t ∧
      t = { s with regs := t.regs, lcs := { s.lcs with busy := true, bytes := [] } } := by
  have hexec : exec (.tokenStart m) s = answer s (wrF { s with lcs := { s.lcs with busy := true, bytes := [] } } (aLcs 0x28) 3 3 1) :=
    (exec_tokenStart s hm).trans (congrArg (answer s) (if_neg (by simp [hbusy])))
  refine completes_of_answer hexec rfl rfl rfl ⟨?_, fun a ha => rd_wr_ne _ _ _ _ (by simpa using ha), rfl⟩
  rw [rd_wrF, if_pos rfl, bitOf, getLsbD_setFld, if_pos (by decide)]
  rfl

theorem token_busy {s : State} {m : Master} (hm : cpSec m = true) (hbusy : s.lcs.busy = true) : Completes (.tokenStart m) s fun t =>
    rdF t (aLcs 0x28) 15 8 = 0x0A ∧ bitOf (rd t (aLcs 0x28)) 1 = true ∧ t.lcs = s.lcs ∧ NotedBut [aLcs 0x28] s t := by
  have hnote := tokenStat_niNote 0 s 0x0A
  exact completes_of_niNote ((exec_tokenStart s hm).trans (congrArg (answer s) (if_pos hbusy))) hnote
    ⟨rdF_tokenStat_code s (by decide), bitOf_tokenStat_refused s (by decide), hnote.lcs, hnote.notedBut⟩

/-- Settles O53: a token that ends, by ABORT or by a failed check, ends the same way, with the code of its end. -/
theorem tokensAreHeldAndRefused : Obligations.TokensAreHeldAndRefused := by
  unfold Obligations.TokensAreHeldAndRefused
  intro s m hmaster
  have hm := cpSec_of hmaster
  refine ⟨token_started hm, token_busy hm, fun v hbusy hpart => ?_, fun v hfull => ?_, fun hbusy => ?_, fun hbusy => ?_,
    fun hdue hcode => completes_tokenEnd (exec_tokenRefusal hdue hcode) hcode (tokenCode_lt s)⟩
  · exact completes_of_answer ((exec_tokenData s v hm).trans (congrArg (answer s) (if_neg (by simp [hbusy, hpart])))) rfl rfl rfl rfl
  · have hexec := (exec_tokenData s v hm).trans (congrArg (answer s) (if_pos (by simpa using hfull)))
    exact completes_of_answer hexec rfl rfl rfl ⟨rd_wr_same .., wordsBut_wr s _ _, rfl⟩
  · have hexec := (exec_tokenAbort s hm).trans (congrArg (answer s) (if_pos hbusy))
    obtain ⟨t, ht, hend, -, hidle, hlcs, hwords⟩ := completes_tokenEnd hexec (by decide) (by decide)
    exact ⟨t, ht, hend, hidle, hlcs, hwords⟩
  · exact completes_of_eq_self ((exec_tokenAbort s hm).trans (congrArg (answer s) (if_neg (by simp [hbusy]))))

end Sys2Proof.Machine
end

section
/-! PROOF. Key programming, the end of sessions, and the test port (22 R457, R458, R466 to R468; for O55). -/

namespace Sys2Proof.Machine

theorem keySlot_setKey (s : State) (ml l : Bool) (i j : Nat) (v : BitVec 384) :
    keySlot (setKey s ml i v) l j = if (l, j) = (ml, i) then v else keySlot s l j := by
  unfold keySlot setKey
  by_cases hj : j = i
  · subst hj
    cases ml <;> cases l <;> simp [mgetD]
  · cases ml <;> cases l <;> simp [hj, mgetD_mset_ne _ _ _ _ _ hj]

/-- What programming a key slot changes. -/
theorem setKey_whole (s : State) (ml : Bool) (i : Nat) (v : BitVec 384) : setKey s ml i v = { s with lcs := { s.lcs with
    keyE := (setKey s ml i v).lcs.keyE
    keyM := (setKey s ml i v).lcs.keyM } } := by cases ml <;> rfl

section
variable {s : State} {m : Master} {v : BitVec 32} {ml : Bool} {i : Nat} (hml : ml = bitOf v 8) (hi : i = v.toNat % 8)
  (hgo : bitOf v 31 = true)
include hml hi hgo

theorem exec_keyProgram (ok : Bool) : exec (.keyProgram m v ok) s = answer s (if !keyMay s m ml i then setFlag s (aLcs 0x50) 32
    else if ok then setKey s ml i s.lcs.kbuf else setFlag (setKey s ml i keyWiped) (aLcs 0x50) 33) := by
  subst hml hi
  exact congrArg (answer s) (if_neg (by rw [show v.toNat.testBit 31 = true from hgo]; decide))

theorem exec_keyProgram_ok (hmay : keyMay s m ml i = true) : exec (.keyProgram m v true) s = answer s (setKey s ml i s.lcs.kbuf) := by
  rw [exec_keyProgram hml hi hgo, hmay]
  rfl

theorem exec_keyProgram_bad (hmay : keyMay s m ml i = true) :
    exec (.keyProgram m v false) s = answer s (setFlag (setKey s ml i keyWiped) (aLcs 0x50) 33) := by
  rw [exec_keyProgram hml hi hgo, hmay]
  rfl

theorem exec_keyProgram_refused (ok : Bool) (hmay : keyMay s m ml i = false) :
    exec (.keyProgram m v ok) s = answer s (setFlag s (aLcs 0x50) 32) := by
  rw [exec_keyProgram hml hi hgo, hmay]
  rfl

theorem key_programmed (hmay : keyMay s m ml i = true) : Completes (.keyProgram m v true) s fun t =>
    keySlot t ml i = s.lcs.kbuf ∧ t.regs = s.regs ∧ (∀ l j, (l, j) ≠ (ml, i) → keySlot t l j = keySlot s l j) ∧
    t = { s with lcs := { s.lcs with keyE := t.lcs.keyE, keyM := t.lcs.keyM } } := by
  have hwhole := setKey_whole s ml i s.lcs.kbuf
  exact completes_of_answer (exec_keyProgram_ok hml hi hgo hmay) (by rw [hwhole]) (by rw [hwhole]) (by rw [hwhole])
    ⟨(keySlot_setKey ..).trans (if_pos rfl), by rw [hwhole], fun l j hj => (keySlot_setKey ..).trans (if_neg hj), hwhole⟩

theorem key_wiped (hmay : keyMay s m ml i = true) : Completes (.keyProgram m v false) s fun t =>
    keySlot t ml i = keyWiped ∧ bitOf (rd t (aLcs 0x50)) 33 = true ∧ (∀ l j, (l, j) ≠ (ml, i) → keySlot t l j = keySlot s l j) ∧
    WordsBut [aLcs 0x50] s t := by
  have hwhole := setKey_whole s ml i keyWiped
  have hslot := fun l j => keySlot_setKey s ml l i j keyWiped
  have hexec := exec_keyProgram_bad hml hi hgo hmay
  generalize setKey s ml i keyWiped = u at hwhole hslot hexec
  have hwords : ∀ a, rd u a = rd s a := fun a => by rw [hwhole]; rfl
  refine completes_of_answer hexec (by rw [setFlag_gen, hwhole]) (by rw [setFlag_pending, hwhole]) (by rw [setFlag_lcs, hwhole])
    ⟨(hslot ml i).trans (if_pos rfl), bitOf_setFlag_same _ _ (by decide), fun l j hj => (hslot l j).trans (if_neg hj), fun a ha => ?_⟩
  exact (rd_wr_ne _ _ _ _ (by simpa using ha)).trans (hwords a)

theorem key_refused (ok : Bool) (hmay : keyMay s m ml i = false) : Completes (.keyProgram m v ok) s fun t =>
    bitOf (rd t (aLcs 0x50)) 32 = true ∧ WordsBut [aLcs 0x50] s t ∧ t = { s with regs := t.regs } :=
  completes_of_answer (exec_keyProgram_refused hml hi hgo ok hmay) rfl rfl rfl
    ⟨bitOf_setFlag_same _ _ (by decide), wordsBut_wr s _ _, rfl⟩

end

theorem exec_keyProgram_idle {s : State} {v : BitVec 32} (m : Master) (ok : Bool) (h : bitOf v 31 = false) :
    exec (.keyProgram m v ok) s = answer s s := congrArg (answer s) (if_pos (by rw [show v.toNat.testBit 31 = false from h]; rfl))

theorem exec_relock {m : Master} (s : State) (hm : cpSec m = true) : exec (.relock m) s = answer s (sessionEnd s) :=
  congrArg (answer s) (if_pos hm)

theorem sessionOver_eq {s : State} {mask : BitVec 15} {a b : Bool} {f : Nat} (h : s.lcs.session = some (mask, a, b, f)) :
    sessionOver s = if frameGe (frameOf s) f then sessionEnd s else s := by
  unfold sessionOver
  rw [h]

theorem session_over {s : State} {mask : BitVec 15} {a b : Bool} {f : Nat} (h : s.lcs.session = some (mask, a, b, f)) :
    (frameGe (frameOf s) f = true → Completes .sessionExpire s fun t => t.lcs = { s.lcs with session := none } ∧ NotedBut [] s t) ∧
    (frameGe (frameOf s) f = false → Completes .sessionExpire s fun t => t = s) := by
  have hexec : exec .sessionExpire s = answer s (if frameGe (frameOf s) f then sessionEnd s else s) := congrArg (answer s) (sessionOver_eq h)
  refine ⟨fun hge => ?_, fun hge => ?_⟩
  · rw [if_pos hge] at hexec
    exact completes_sessionEnd hexec (by rw [h]; nofun)
  · rw [if_neg (by rw [hge]; decide)] at hexec
    exact completes_of_eq_self hexec

/-! The test port. -/

theorem testReset_cold (s : State) : ∃ c, ColdReset s (testReset s) c ∧ (testReset s).gen = s.gen ∧ (testReset s).pending = s.pending ∧
    (testReset s).lcs.fuse = s.lcs.fuse :=
  ⟨_, coldReset_spec (takeFree s).2 (Nat.mod_lt _ (by decide)), rfl, rfl, rfl⟩

theorem exec_jtagInstruction_quiet {s : State} {op : JtagOp} (h : disturbs s.lcs.jtag = false ∨ s.lcs.jtag = op) :
    exec (.jtagInstruction op) s = answer s { s with lcs := { s.lcs with jtag := if jtagMay s op then op else .bypass } } := by
  have hquiet : ¬ ((disturbs s.lcs.jtag && s.lcs.jtag != op) = true) := by
    obtain h | h := h
    · simp [h]
    · simp [h]
  refine congrArg (answer s) ?_
  dsimp only
  rw [if_neg hquiet]

theorem exec_jtagInstruction_ends {s : State} {op : JtagOp} (hdist : disturbs s.lcs.jtag = true) (hne : s.lcs.jtag ≠ op) :
    exec (.jtagInstruction op) s =
      answer s { testReset s with lcs := { (testReset s).lcs with jtag := if jtagMay (testReset s) op then op else .bypass } } := by
  refine congrArg (answer s) ?_
  dsimp only
  rw [if_pos (by simp [hdist, hne])]

theorem jtag_ends {s : State} {op : JtagOp} (hdist : disturbs s.lcs.jtag = true) (hne : s.lcs.jtag ≠ op) :
    Completes (.jtagInstruction op) s fun t => ∃ c, ColdReset s t c := by
  have hexec := exec_jtagInstruction_ends hdist hne
  obtain ⟨c, hcold, hgen, hpending, hfuse⟩ := testReset_cold s
  exact completes_of_answer hexec hgen hpending hfuse ⟨c, hcold⟩

theorem test_ended {s : State} {x : Bool} (h : s.lcs.jtag = (if x then JtagOp.extest else JtagOp.scan)) :
    Completes (.testScanEnd x) s fun t => ∃ c, ColdReset s t c := by
  obtain ⟨c, hcold, hgen, hpending, hfuse⟩ := testReset_cold s
  exact completes_of_answer (congrArg (answer s) (if_pos h)) hgen hpending hfuse ⟨c, hcold⟩

/-- Settles O55: programming a key writes its slot alone, and a session or a test that ends leaves what its end leaves. -/
theorem keysSessionsAndTestAccess : Obligations.KeysSessionsAndTestAccess := by
  unfold Obligations.KeysSessionsAndTestAccess
  refine ⟨fun s m v ml i hml hi => ⟨fun hgo hmay => ⟨key_programmed hml hi hgo hmay, key_wiped hml hi hgo hmay⟩,
      fun ok hgo hmay => key_refused hml hi hgo ok hmay, fun ok hidle => completes_of_eq_self (exec_keyProgram_idle m ok hidle)⟩,
    fun s m hm => ⟨completes_sessionEnd (exec_relock s (cpSec_of hm)), fun hclosed => ?_⟩,
    fun s mask a b f hopen => session_over hopen,
    fun s op => ⟨fun hquiet => completes_of_answer (exec_jtagInstruction_quiet hquiet) rfl rfl rfl rfl, jtag_ends,
      fun x hruns => test_ended hruns, fun x hnot => completes_of_eq_self (congrArg (answer s) (if_neg hnot))⟩⟩
  exact completes_of_eq_self ((exec_relock s (cpSec_of hm)).trans (congrArg (answer s) (sessionEnd_closed hclosed)))

end Sys2Proof.Machine
end

section
/-! SUPPORT. The steps of a transition, and the cold reset that ends it (22 R457, R460, R461, R464, R468; for O54). -/

namespace Sys2Proof.Machine

/-! What a cold reset clears. -/

/-- t differs from s only in what a cold reset clears, and in the life-cycle unit. -/
structure ColdSame (s t : State) : Prop where
  whole : t = { s with regs := t.regs, ntf := t.ntf, free := t.free, lcs := t.lcs }
  words : ∀ a, coldKeeps a = true → rd t a = rd s a

theorem ColdSame.refl (s : State) : ColdSame s s := ⟨rfl, fun _ _ => rfl⟩

theorem ColdSame.trans {s t u : State} (h : ColdSame s t) (k : ColdSame t u) : ColdSame s u where
  whole := by
    rw [k.whole]
    conv_lhs => rw [h.whole]
  words a ha := (k.words a ha).trans (h.words a ha)

theorem ColdSame.wr (s : State) {a : Nat} (v : Word) (h : coldKeeps a = false) : ColdSame s (wr s a v) :=
  ⟨rfl, fun b hb => rd_wr_ne _ _ _ _ fun e => by rw [e, h] at hb; exact Bool.false_ne_true hb⟩

theorem ColdSame.lcs (s : State) (v : Lcs) : ColdSame s { s with lcs := v } := ⟨rfl, fun _ _ => rfl⟩

theorem ColdSame.takeFree (s : State) : ColdSame s (takeFree s).2 := ⟨rfl, fun _ _ => rfl⟩

theorem ColdSame.ite {c : Prop} [Decidable c] {s t u : State} (ht : ColdSame s t) (hu : ColdSame s u) : ColdSame s (if c then t else u) := by
  split <;> assumption

theorem logNote_informational (s : State) {e : Note} (h : e.sev = 0) : logNote s e = s := if_pos h

theorem fwdNote_coldSame (s : State) (e : Note) : ColdSame s (fwdNote s e) :=
  .ite (.refl s) (.ite ⟨rfl, fun _ _ => rfl⟩ (.wr _ _ (by decide)))

/-- An informational notification without a port writes only what a cold reset clears: the fault log is for warnings (18 R387). -/
theorem raiseG_coldSame (s : State) {unit : Nat} (code info : Nat) (hunit : 128 ≤ unit) : ColdSame s (raiseG s unit code 0 info) := by
  rw [raiseG, raise_of_unit _ hunit]
  unfold routeNote
  dsimp only
  rw [logNote_informational _ rfl]
  have hlast : ∀ v : Ntf, ColdSame s { s with ntf := v } := fun v => ⟨rfl, fun _ _ => rfl⟩
  exact ((hlast _).trans (.ite (.wr _ _ (by decide)) (.refl _))).trans (fwdNote_coldSame ..)

theorem coldReset_of_coldSame {s u : State} {cause : Nat} (h : ColdSame s u) (hcause : cause < 8) : ColdReset s (coldReset u cause) cause := by
  obtain ⟨hcold, hinit, htime, hcount, hwhy, hwords, hnis, hrtrs, heng, himg, hmmx, hcnt, hntf, hflt, hlcs⟩ := coldReset_spec u hcause
  have hwhole := h.whole
  have hni : ∀ n, getNi u n = getNi s n := fun n => by rw [hwhole]; rfl
  refine ⟨hcold, hinit, htime.trans (by rw [hwhole]), ?_, hwhy, fun a ha => ?_, fun n => (hnis n).trans (congrArg niCold (hni n)), hrtrs, heng, himg,
    hmmx, hcnt, hntf, hflt.trans (by rw [hwhole]), hlcs⟩
  · rw [hcount, rdF, h.words 0x438 (by decide)]
    rfl
  · rw [hwords a ha]
    split
    · next hkeep => exact h.words a hkeep
    · rfl

/-! The end of a transition. -/

theorem tokenEnd_ok_coldSame (s : State) : ColdSame s (tokenEnd s 0) := by
  have hleft : ColdSame s (tokenLeft s) := ((ColdSame.takeFree s).trans (.lcs _ _)).trans (.wr _ _ (by decide))
  rw [tokenEnd_eq, tokenStat_ok]
  exact hleft.trans ((ColdSame.wr _ _ (by decide)).trans (.wr _ _ (by decide)))

theorem sessionEnd_coldSame (s : State) : ColdSame s (sessionEnd s) :=
  .ite (((ColdSame.lcs s _).trans (.takeFree _)).trans (raiseG_coldSame _ _ _ (by decide))) (.refl s)

theorem sessionEnd_lcs (s : State) : (sessionEnd s).lcs = { s.lcs with session := none } := by
  by_cases h : s.lcs.session = none
  · rw [sessionEnd_closed h, ← h]
  · rw [sessionEnd_open h, (noted_raiseGFree ..).whole]

/-- The state in which a transition requests its cold reset. -/
def transitionEnded (s : State) : State := raiseG (sessionEnd (tokenEnd s 0)) 244 0x220 0 (lcState s)

theorem transitionEnded_coldSame (s : State) : ColdSame s (transitionEnded s) :=
  ((tokenEnd_ok_coldSame s).trans (sessionEnd_coldSame _)).trans (raiseG_coldSame _ _ _ (by decide))

theorem transitionEnded_lcs (s : State) : (transitionEnded s).lcs = { tokenGone s with session := none } := by
  rw [transitionEnded, raiseG_lcs, sessionEnd_lcs, tokenEnd_lcs]

/-- The transition of a state u, of which s shares what a cold reset keeps, ends in a cold reset of cause 5; fuses and keys stay. -/
theorem transitionDone_spec {s u : State} (h : ColdSame s u) : ColdReset s (transitionDone u) 5 ∧ (transitionDone u).gen = s.gen ∧
    (transitionDone u).pending = s.pending ∧ (transitionDone u).lcs.fuse = u.lcs.fuse ∧
    (∀ ml i, keySlot (transitionDone u) ml i = keySlot u ml i) ∧ (transitionDone u).lcs.jrnA = u.lcs.jrnA ∧
    (transitionDone u).lcs.jrnB = u.lcs.jrnB := by
  have hdone : transitionDone u = coldReset (transitionEnded u) 5 := rfl
  have hsame := h.trans (transitionEnded_coldSame u)
  have hlcs := transitionEnded_lcs u
  rw [hdone]
  generalize transitionEnded u = v at hsame hlcs
  have hcold : (coldReset v 5).lcs = lcsCold v (takeFree v).1 := rfl
  have hwhole := hsame.whole
  refine ⟨coldReset_of_coldSame hsame (by decide), show v.gen = _ by rw [hwhole], show v.pending = _ by rw [hwhole], ?_, fun ml i => ?_, ?_, ?_⟩
  · rw [hcold, lcsCold, hlcs]
    rfl
  · rw [keySlot, hcold, lcsCold, hlcs]
    rfl
  · rw [hcold, lcsCold, hlcs]
    rfl
  · rw [hcold, lcsCold, hlcs]
    rfl

/-! Fuses. -/

theorem completes_of_answerFuse {c : Instr} {s t : State} {P : State → Prop} (hexec : exec c s = answerFuse s t) (hgen : t.gen = s.gen)
    (hpending : t.pending = s.pending) (hfuse : s.lcs.fuse.join t.lcs.fuse = t.lcs.fuse) (hP : P t) : Completes c s P := by
  have hnext : answerFuse s t = .next t := by
    unfold answerFuse
    rw [hfuse, ← hgen, ← hpending]
  exact ⟨t, hexec.trans hnext, hP⟩

/-- Fuses that only gain blown ones are what the outcome leaves (22 R457). -/
theorem join_of_blown {a b : Fuses} (h1 : a.f1 = true → b.f1 = true) (h2 : a.f2 = true → b.f2 = true) (h3 : a.f3 = true → b.f3 = true)
    (h4 : a.f4 = true → b.f4 = true) (hr : a.ir = true → b.ir = true) (hs : a.is = true → b.is = true) : a.join b = b := by
  obtain ⟨a1, a2, a3, a4, ar, as⟩ := a
  obtain ⟨b1, b2, b3, b4, br, bs⟩ := b
  simp only [Fuses.join, Fuses.mk.injEq, Bool.or_eq_right_iff_imp]
  exact ⟨h1, h2, h3, h4, hr, hs⟩

theorem join_self (a : Fuses) : a.join a = a := join_of_blown id id id id id id

/-- A transition whose steps took s to u, with its fuse blown, completes. -/
theorem completes_transition {c : Instr} {s u : State} {P : State → Prop} (hexec : exec c s = answerFuse s (transitionDone u))
    (hsame : ColdSame s u) (hfuse : s.lcs.fuse.join u.lcs.fuse = u.lcs.fuse) (hP : P (transitionDone u)) : Completes c s P := by
  obtain ⟨-, hgen, hpending, hkept, -⟩ := transitionDone_spec hsame
  exact completes_of_answerFuse hexec hgen hpending (by rw [hkept, hfuse]) hP

/-- A transition whose fuse does not read back, its steps having taken s to u, ends with FUSE and without a reset. -/
theorem completes_fuseFault {c : Instr} {s u : State} (hexec : exec c s = answerFuse s (tokenEnd u 9)) (hsame : ColdSame s u)
    (hfuse : s.lcs.fuse.join u.lcs.fuse = u.lcs.fuse) : Completes c s fun t => rdF t (aLcs 0x28) 15 8 = 9 ∧
      bitOf (rd t (aLcs 0x28)) 1 = true ∧ t.lcs.busy = false ∧ t.rst = s.rst ∧ t.lcs.fuse = u.lcs.fuse := by
  have hend := (tokenEnd_niNote 0 u 9).1
  have hwhole := hsame.whole
  have hlcs := tokenEnd_lcs u 9
  refine completes_of_answerFuse hexec (by rw [hend, hwhole]) (by rw [hend, hwhole]) (by rw [hlcs]; exact hfuse)
    ⟨rdF_tokenEnd_code u (by decide), bitOf_tokenEnd_refused u (by decide), by rw [hlcs]; rfl, by rw [hend, hwhole], by rw [hlcs]; rfl⟩

/-! The wipes and fills. -/

theorem wipeKeys_whole (l : List Nat) (s : State) : wipeKeys s l = { s with lcs := { s.lcs with
    keyE := (wipeKeys s l).lcs.keyE
    keyM := (wipeKeys s l).lcs.keyM } } := by
  induction l generalizing s with
  | nil => rfl
  | cons i l ih => exact ih (setKey (setKey s false i keyWiped) true i keyWiped)

theorem keySlot_wipeKeys (l : List Nat) (s : State) (ml : Bool) (i : Nat) :
    keySlot (wipeKeys s l) ml i = if i ∈ l then keyWiped else keySlot s ml i := by
  induction l generalizing s with
  | nil => rfl
  | cons j l ih =>
    refine (ih _).trans ?_
    rw [keySlot_setKey, keySlot_setKey]
    by_cases hj : i = j
    · subst hj
      cases ml <;> simp
    · simp [hj]

theorem takeFree256_coldSame (s : State) : ColdSame s (takeFree256 s).2 := ⟨rfl, fun _ _ => rfl⟩

theorem fillJrnA_coldSame (s : State) : ColdSame s (fillJrnA s) := .ite ((takeFree256_coldSame s).trans (.lcs _ _)) (.refl s)

theorem fillJrnB_coldSame (s : State) : ColdSame s (fillJrnB s) := .ite ((takeFree256_coldSame s).trans (.lcs _ _)) (.refl s)

theorem fillJrnA_lcs (s : State) : (fillJrnA s).lcs = { s.lcs with jrnA := (fillJrnA s).lcs.jrnA } := by
  unfold fillJrnA
  split <;> rfl

theorem fillJrnA_held {s : State} (h : s.lcs.jrnA ≠ 0) : fillJrnA s = s := if_neg h

theorem fillJrnB_lcs (s : State) : (fillJrnB s).lcs = { s.lcs with jrnB := (fillJrnB s).lcs.jrnB } := by
  unfold fillJrnB
  split <;> rfl

theorem wipeKeys_coldSame (s : State) (l : List Nat) : ColdSame s (wipeKeys s l) := by
  rw [wipeKeys_whole]
  exact .lcs s _

theorem returnWipes_coldSame (s : State) : ColdSame s (returnWipes s) :=
  ((wipeKeys_coldSame s _).trans (.lcs _ _)).trans (fillJrnB_coldSame _)

theorem scrapWipes_coldSame (s : State) : ColdSame s (scrapWipes s) := (wipeKeys_coldSame s _).trans (.lcs _ _)

theorem returnWipes_spec (s : State) : (returnWipes s).lcs.fuse = s.lcs.fuse ∧ (returnWipes s).lcs.jrnA = jrnWiped ∧
    ∀ ml i, keySlot (returnWipes s) ml i = if i ∈ [2, 3, 4, 5, 6, 7] then keyWiped else keySlot s ml i := by
  have hlcs := fillJrnB_lcs { wipeKeys s [2, 3, 4, 5, 6, 7] with lcs := { (wipeKeys s [2, 3, 4, 5, 6, 7]).lcs with jrnA := jrnWiped } }
  have hkeys := keySlot_wipeKeys [2, 3, 4, 5, 6, 7] s
  have hwhole := wipeKeys_whole [2, 3, 4, 5, 6, 7] s
  unfold returnWipes
  refine ⟨?_, ?_, fun ml i => ?_⟩
  · rw [hlcs]
    exact (congrArg (fun t : State => t.lcs.fuse) hwhole).trans rfl
  · rw [hlcs]
  · rw [keySlot, hlcs]
    exact hkeys ml i

theorem scrapWipes_spec (s : State) : (scrapWipes s).lcs.fuse = s.lcs.fuse ∧ (scrapWipes s).lcs.jrnA = jrnWiped ∧
    (scrapWipes s).lcs.jrnB = jrnWiped ∧
    ∀ ml i, keySlot (scrapWipes s) ml i = if i ∈ [0, 1, 2, 3, 4, 5, 6, 7] then keyWiped else keySlot s ml i := by
  have hkeys := keySlot_wipeKeys [0, 1, 2, 3, 4, 5, 6, 7] s
  have hfuse : (wipeKeys s [0, 1, 2, 3, 4, 5, 6, 7]).lcs.fuse = s.lcs.fuse := by rw [wipeKeys_whole]
  unfold scrapWipes
  generalize wipeKeys s [0, 1, 2, 3, 4, 5, 6, 7] = u at hkeys hfuse
  exact ⟨hfuse, rfl, rfl, hkeys⟩

/-! The transitions. -/

/-- A fuse written. -/
def withFuse (s : State) (f : Fuses) : State := { s with lcs := { s.lcs with fuse := f } }

theorem withFuse_coldSame (s : State) (f : Fuses) : ColdSame s (withFuse s f) := .lcs s _

theorem exec_toProvision {s : State} (ok : Bool) (h : tokenIs s 1 = true) : exec (.toProvision ok) s = answerFuse s
    (if ok then transitionDone (withFuse (fillJrnA s) { (fillJrnA s).lcs.fuse with f1 := true }) else tokenEnd (fillJrnA s) 9) :=
  congrArg (answerFuse s) (if_pos h)

theorem exec_toField {s : State} (ok : Bool) (h : tokenIs s 2 = true) : exec (.toField ok) s = answerFuse s
    (if ok then transitionDone (withFuse s { s.lcs.fuse with f2 := true }) else tokenEnd s 9) := congrArg (answerFuse s) (if_pos h)

/-- The state with the intent fuse of TO_RETURN blown and its wipes done. -/
def returnReady (s : State) : State := returnWipes (withFuse s { s.lcs.fuse with ir := true })

/-- The state with the intent fuse of TO_SCRAP blown and its wipes done. -/
def scrapReady (s : State) : State := scrapWipes (withFuse s { s.lcs.fuse with is := true })

theorem exec_toReturn {s : State} (ok : Bool) (h : tokenIs s 3 = true) : exec (.toReturn ok) s = answerFuse s
    (if ok then transitionDone (withFuse (returnReady s) { (returnReady s).lcs.fuse with f3 := true }) else tokenEnd (returnReady s) 9) :=
  congrArg (answerFuse s) (if_pos h)

theorem exec_toScrap {s : State} (ok : Bool) (h : tokenIs s 4 = true) : exec (.toScrap ok) s = answerFuse s
    (if ok then transitionDone (withFuse (scrapReady s) { (scrapReady s).lcs.fuse with f1 := true, f2 := true, f3 := true, f4 := true })
      else tokenEnd (scrapReady s) 9) := congrArg (answerFuse s) (if_pos h)

theorem fillJrnA_fuse (s : State) : (fillJrnA s).lcs.fuse = s.lcs.fuse := by rw [fillJrnA_lcs]

theorem returnReady_coldSame (s : State) : ColdSame s (returnReady s) := (withFuse_coldSame s _).trans (returnWipes_coldSame _)

theorem scrapReady_coldSame (s : State) : ColdSame s (scrapReady s) := (withFuse_coldSame s _).trans (scrapWipes_coldSame _)

theorem token_provision {s : State} (h : tokenIs s 1 = true) : Completes (.toProvision true) s fun t =>
    t.lcs.fuse = { s.lcs.fuse with f1 := true } ∧ ColdReset s t 5 ∧ (s.lcs.jrnA ≠ 0 → t.lcs.jrnA = s.lcs.jrnA) := by
  have hexec := exec_toProvision true h
  rw [fillJrnA_fuse] at hexec
  have hsame := (fillJrnA_coldSame s).trans (withFuse_coldSame (fillJrnA s) { s.lcs.fuse with f1 := true })
  obtain ⟨hcold, -, -, hfuse, -, hjrn, -⟩ := transitionDone_spec hsame
  refine completes_transition hexec hsame (join_of_blown (fun _ => rfl) id id id id id) ⟨hfuse, hcold, fun hheld => hjrn.trans ?_⟩
  rw [fillJrnA_held hheld]
  rfl

theorem token_field {s : State} (h : tokenIs s 2 = true) : Completes (.toField true) s fun t =>
    t.lcs.fuse = { s.lcs.fuse with f2 := true } ∧ ColdReset s t 5 := by
  have hsame := withFuse_coldSame s { s.lcs.fuse with f2 := true }
  obtain ⟨hcold, -, -, hfuse, -⟩ := transitionDone_spec hsame
  exact completes_transition (exec_toField true h) hsame (join_of_blown id (fun _ => rfl) id id id id) ⟨hfuse, hcold⟩

theorem token_return {s : State} (h : tokenIs s 3 = true) : Completes (.toReturn true) s fun t =>
    t.lcs.fuse = { s.lcs.fuse with ir := true, f3 := true } ∧ ColdReset s t 5 ∧ t.lcs.jrnA = jrnWiped ∧
      (∀ ml i, 2 ≤ i → i < 8 → keySlot t ml i = keyWiped) ∧ ∀ ml i, i < 2 → keySlot t ml i = keySlot s ml i := by
  have hexec := exec_toReturn true h
  obtain ⟨hready, hwiped, hkeys⟩ := returnWipes_spec (withFuse s { s.lcs.fuse with ir := true })
  rw [show (returnReady s).lcs.fuse = { s.lcs.fuse with ir := true } from hready] at hexec
  have hsame := (returnReady_coldSame s).trans (withFuse_coldSame (returnReady s) { s.lcs.fuse with ir := true, f3 := true })
  obtain ⟨hcold, -, -, hfuse, hslots, hjrn, -⟩ := transitionDone_spec hsame
  refine completes_transition hexec hsame (join_of_blown id id (fun _ => rfl) id (fun _ => rfl) id)
    ⟨hfuse, hcold, hjrn.trans hwiped, fun ml i hlo hhi => ?_, fun ml i hlo => ?_⟩
  · refine (hslots ml i).trans ((hkeys ml i).trans (if_pos ?_))
    simp only [List.mem_cons, List.not_mem_nil, or_false]
    omega
  · refine (hslots ml i).trans ((hkeys ml i).trans (if_neg ?_))
    simp only [List.mem_cons, List.not_mem_nil, or_false]
    omega

theorem token_scrap {s : State} (h : tokenIs s 4 = true) : Completes (.toScrap true) s fun t =>
    t.lcs.fuse = { s.lcs.fuse with is := true, f1 := true, f2 := true, f3 := true, f4 := true } ∧ ColdReset s t 5 ∧
      t.lcs.jrnA = jrnWiped ∧ t.lcs.jrnB = jrnWiped ∧ ∀ ml i, i < 8 → keySlot t ml i = keyWiped := by
  have hexec := exec_toScrap true h
  obtain ⟨hblown, hwipedA, hwipedB, hkeys⟩ := scrapWipes_spec (withFuse s { s.lcs.fuse with is := true })
  rw [show (scrapReady s).lcs.fuse = { s.lcs.fuse with is := true } from hblown] at hexec
  have hready := scrapReady_coldSame s
  rw [← scrapReady] at hwipedA hwipedB hkeys
  generalize scrapReady s = u at hexec hready hwipedA hwipedB hkeys
  have hsame := hready.trans (withFuse_coldSame u { s.lcs.fuse with is := true, f1 := true, f2 := true, f3 := true, f4 := true })
  obtain ⟨hcold, -, -, hfuse, hslots, hjrnA, hjrnB⟩ := transitionDone_spec hsame
  refine completes_transition hexec hsame (join_of_blown (fun _ => rfl) (fun _ => rfl) (fun _ => rfl) (fun _ => rfl) id fun _ => rfl)
    ⟨hfuse, hcold, hjrnA.trans hwipedA, hjrnB.trans hwipedB, fun ml i hlt => ?_⟩
  refine (hslots ml i).trans ((hkeys ml i).trans (if_pos ?_))
  simp only [List.mem_cons, List.not_mem_nil, or_false]
  omega

theorem token_fuseFault {s : State} {c : Instr} {k : Nat} (h : tokenIs s k = true)
    (hc : (c = .toProvision false ∧ k = 1) ∨ (c = .toField false ∧ k = 2) ∨ (c = .toReturn false ∧ k = 3) ∨ (c = .toScrap false ∧ k = 4)) :
    Completes c s fun t => rdF t (aLcs 0x28) 15 8 = 9 ∧ bitOf (rd t (aLcs 0x28)) 1 = true ∧ t.lcs.busy = false ∧ t.rst = s.rst ∧
      t.lcs.fuse = (if k = 3 then { s.lcs.fuse with ir := true } else if k = 4 then { s.lcs.fuse with is := true } else s.lcs.fuse) := by
  obtain ⟨rfl, rfl⟩ | ⟨rfl, rfl⟩ | ⟨rfl, rfl⟩ | ⟨rfl, rfl⟩ := hc
  · have hfault := completes_fuseFault (exec_toProvision false h) (fillJrnA_coldSame s) (by rw [fillJrnA_fuse, join_self])
    rwa [fillJrnA_fuse] at hfault
  · exact completes_fuseFault (exec_toField false h) (.refl s) (join_self _)
  · have hfuse : (returnReady s).lcs.fuse = { s.lcs.fuse with ir := true } := (returnWipes_spec _).1
    have hfault := completes_fuseFault (exec_toReturn false h) (returnReady_coldSame s)
      (by rw [hfuse]; exact join_of_blown id id id id (fun _ => rfl) id)
    rwa [hfuse] at hfault
  · have hfuse : (scrapReady s).lcs.fuse = { s.lcs.fuse with is := true } := (scrapWipes_spec _).1
    have hfault := completes_fuseFault (exec_toScrap false h) (scrapReady_coldSame s)
      (by rw [hfuse]; exact join_of_blown id id id id id fun _ => rfl)
    rwa [hfuse] at hfault

/-! FLOOR and DEBUG_UNLOCK. -/

/-- The next floor word written, and IMG_FLOOR raised. -/
def floorRaised (s : State) : State :=
  wr { s with lcs := { s.lcs with floors := s.lcs.floors.take (floorsUsed s) ++ [BitVec.ofNat 48 (tokFloor s.lcs.bytes)] } } (aImg 0x30)
    (BitVec.ofNat 64 (max (tokFloor s.lcs.bytes) (rdF s (aImg 0x30) 47 0)))

theorem exec_floor {s : State} (h : tokenIs s 6 = true) : exec (.floor true) s = answer s (tokenEnd (floorRaised s) 0) :=
  congrArg (answer s) ((if_pos h).trans (if_pos rfl))

theorem bitOf_tokenEnd_ok (s : State) : bitOf (rd (tokenEnd s 0) (aLcs 0x28)) 0 = true := by
  rw [tokenEnd_eq, tokenStat_ok]
  exact bitOf_setFlag_same _ _ (by decide)

theorem token_floor {s : State} (h : tokenIs s 6 = true) : Completes (.floor true) s fun t =>
    t.lcs.floors = s.lcs.floors.take (floorsUsed s) ++ [BitVec.ofNat 48 (tokFloor s.lcs.bytes)] ∧
    rd t (aImg 0x30) = BitVec.ofNat 64 (max (tokFloor s.lcs.bytes) (rdF s (aImg 0x30) 47 0)) ∧ rdF t (aLcs 0x28) 15 8 = 0 ∧
    bitOf (rd t (aLcs 0x28)) 0 = true ∧ t.rst = s.rst ∧ t.lcs.fuse = s.lcs.fuse := by
  have hnote := tokenEnd_niNote 0 (floorRaised s) 0
  have hend := hnote.1
  have hlcs := tokenEnd_lcs (floorRaised s) 0
  refine completes_of_answer (exec_floor h) (by rw [hend]; rfl) (by rw [hend]; rfl) (by rw [hlcs]; rfl)
    ⟨by rw [hlcs]; rfl, ?_, rdF_tokenEnd_code _ (by decide), bitOf_tokenEnd_ok _, by rw [hend]; rfl, by rw [hlcs]; rfl⟩
  exact (hnote.notedBut _ (by decide) (by decide)).trans (rd_wr_same ..)

/-- The trace and scan parts that the token opens; T3 never (22 R468). -/
def unlockMask (s : State) : BitVec 15 := setBit (BitVec.ofNat 15 (tokArg0 s.lcs.bytes)) 3 false

/-- The session of an accepted DEBUG_UNLOCK is open. -/
def sessionOpened (s : State) : State :=
  { tokenEnd s 0 with lcs := { (tokenEnd s 0).lcs with
      session := some (unlockMask s, (tokArg0 s.lcs.bytes).testBit 16, (tokArg0 s.lcs.bytes).testBit 17, tokArg1 s.lcs.bytes) } }

theorem exec_debugUnlock {s : State} (h : tokenIs s 5 = true) :
    exec .debugUnlock s = answer s (raiseG (sessionOpened s) 244 0x222 1 (unlockMask s).toNat) := congrArg (answer s) (if_pos h)

theorem bitOf_unlockMask (s : State) {i : Nat} (hi : i < 15) : bitOf (unlockMask s) i = (decide (i ≠ 3) && (tokArg0 s.lcs.bytes).testBit i) := by
  rw [bitOf, unlockMask, setBit, getLsbD_setFld, BitVec.getLsbD_ofNat]
  by_cases h : i = 3
  · subst h
    simp
  · rw [if_neg (by omega)]
    simp [hi, h]

theorem token_unlock {s : State} (h : tokenIs s 5 = true) : Completes .debugUnlock s fun t => (∃ mask : BitVec 15, bitOf mask 3 = false ∧
      (∀ i, i < 15 → i ≠ 3 → bitOf mask i = (tokArg0 s.lcs.bytes).testBit i) ∧
      t.lcs.session = some (mask, (tokArg0 s.lcs.bytes).testBit 16, (tokArg0 s.lcs.bytes).testBit 17, tokArg1 s.lcs.bytes)) ∧
    rdF t (aLcs 0x28) 15 8 = 0 ∧ t.lcs.fuse = s.lcs.fuse := by
  have hexec := exec_debugUnlock h
  have hend := (tokenEnd_niNote 0 s 0).1
  have hlcs := tokenEnd_lcs s 0
  have hgen : (sessionOpened s).gen = s.gen := by rw [sessionOpened, hend]
  have hpending : (sessionOpened s).pending = s.pending := by rw [sessionOpened, hend]
  have hfuse : (sessionOpened s).lcs.fuse = s.lcs.fuse := by rw [sessionOpened, hlcs]; rfl
  have hcode : rdF (sessionOpened s) (aLcs 0x28) 15 8 = 0 := rdF_tokenEnd_code s (by decide)
  have hsession : (sessionOpened s).lcs.session = some (unlockMask s, (tokArg0 s.lcs.bytes).testBit 16, (tokArg0 s.lcs.bytes).testBit 17,
    tokArg1 s.lcs.bytes) := rfl
  generalize sessionOpened s = u at hexec hgen hpending hfuse hcode hsession
  refine completes_of_answer hexec (by rw [raiseG_gen, hgen]) (by rw [raiseG_pending, hpending]) (by rw [raiseG_lcs, hfuse])
    ⟨⟨unlockMask s, ?_, fun i hi hne => ?_, by rw [raiseG_lcs, hsession]⟩, ?_, by rw [raiseG_lcs, hfuse]⟩
  · rw [bitOf_unlockMask s (by decide)]
    rfl
  · rw [bitOf_unlockMask s hi]
    simp [hne]
  · rw [rdF, rd_raiseG _ _ _ _ _ (noteWord_aLcs (by decide))]
    exact hcode

/-- Settles O54: each transition's steps change only what its cold reset clears and the life-cycle unit, so the reset is that of s. -/
theorem acceptedTokensTakeEffect : Obligations.AcceptedTokensTakeEffect := by
  unfold Obligations.AcceptedTokensTakeEffect
  exact fun s => ⟨token_provision, token_field, token_return, token_scrap, fun c k => token_fuseFault, token_floor, token_unlock⟩

end Sys2Proof.Machine
end

section
/-! PROOF. Power-up and cold reset (17 R370, R374, R383; 22 R465; 24 R486; for O43). -/

namespace Sys2Proof.Machine

/-! Half-done transitions at power-up (22 R465). -/

/-- The transition that intent fuse IR records, completed if it is half done. -/
def returnRecovered (s : State) : State :=
  if s.lcs.fuse.ir && !s.lcs.fuse.f3 then withFuse (returnWipes s) { (returnWipes s).lcs.fuse with f3 := true } else s

/-- The transition that intent fuse IS records, completed if it is half done. -/
def scrapRecovered (s : State) : State :=
  if s.lcs.fuse.is && !s.lcs.fuse.f4 then
    withFuse (scrapWipes s) { (scrapWipes s).lcs.fuse with f1 := true, f2 := true, f3 := true, f4 := true }
  else s

theorem intentRecovery_eq (s : State) : intentRecovery s = scrapRecovered (returnRecovered s) := rfl

/-- What completing a transition leaves of the life-cycle unit: its floors, its session and its token; fuses only gain blown ones. -/
structure Recovers (s t : State) : Prop where
  floors : t.lcs.floors = s.lcs.floors
  session : t.lcs.session = s.lcs.session
  busy : t.lcs.busy = s.lcs.busy
  fuse : s.lcs.fuse.join t.lcs.fuse = t.lcs.fuse
  ir : t.lcs.fuse.ir = s.lcs.fuse.ir
  is : t.lcs.fuse.is = s.lcs.fuse.is

theorem Recovers.refl (s : State) : Recovers s s := ⟨rfl, rfl, rfl, join_self _, rfl, rfl⟩

theorem join_assoc (a b c : Fuses) : (a.join b).join c = a.join (b.join c) := by simp [Fuses.join, Bool.or_assoc]

theorem Recovers.trans {s t u : State} (h : Recovers s t) (k : Recovers t u) : Recovers s u where
  floors := k.floors.trans h.floors
  session := k.session.trans h.session
  busy := k.busy.trans h.busy
  fuse := by rw [← k.fuse, ← join_assoc, h.fuse]
  ir := k.ir.trans h.ir
  is := k.is.trans h.is

/-- The wipes of TO_RETURN write keys and journal slots alone. -/
theorem returnWipes_lcs (s : State) : (returnWipes s).lcs = { s.lcs with
    keyE := (returnWipes s).lcs.keyE
    keyM := (returnWipes s).lcs.keyM
    jrnA := jrnWiped
    jrnB := (returnWipes s).lcs.jrnB } := by
  have hlcs := fillJrnB_lcs { wipeKeys s [2, 3, 4, 5, 6, 7] with lcs := { (wipeKeys s [2, 3, 4, 5, 6, 7]).lcs with jrnA := jrnWiped } }
  have hwhole := congrArg State.lcs (wipeKeys_whole [2, 3, 4, 5, 6, 7] s)
  unfold returnWipes
  generalize wipeKeys s [2, 3, 4, 5, 6, 7] = u at hlcs hwhole
  dsimp only at hwhole ⊢
  rw [hlcs, hwhole]

/-- The wipes of TO_SCRAP write keys and journal slots alone. -/
theorem scrapWipes_lcs (s : State) : (scrapWipes s).lcs = { s.lcs with
    keyE := (scrapWipes s).lcs.keyE
    keyM := (scrapWipes s).lcs.keyM
    jrnA := jrnWiped
    jrnB := jrnWiped } := by
  have hwhole := congrArg State.lcs (wipeKeys_whole [0, 1, 2, 3, 4, 5, 6, 7] s)
  unfold scrapWipes
  generalize wipeKeys s [0, 1, 2, 3, 4, 5, 6, 7] = u at hwhole
  dsimp only at hwhole ⊢
  rw [hwhole]

theorem returnRecovered_recovers (s : State) : Recovers s (returnRecovered s) := by
  have hlcs := returnWipes_lcs s
  unfold returnRecovered
  generalize returnWipes s = u at hlcs
  split
  · exact ⟨show u.lcs.floors = _ by rw [hlcs], show u.lcs.session = _ by rw [hlcs], show u.lcs.busy = _ by rw [hlcs],
      show s.lcs.fuse.join { u.lcs.fuse with f3 := true } = _ by rw [hlcs]; exact join_of_blown id id (fun _ => rfl) id id id,
      show u.lcs.fuse.ir = _ by rw [hlcs], show u.lcs.fuse.is = _ by rw [hlcs]⟩
  · exact .refl s

theorem scrapRecovered_recovers (s : State) : Recovers s (scrapRecovered s) := by
  have hlcs := scrapWipes_lcs s
  unfold scrapRecovered
  generalize scrapWipes s = u at hlcs
  split
  · exact ⟨show u.lcs.floors = _ by rw [hlcs], show u.lcs.session = _ by rw [hlcs], show u.lcs.busy = _ by rw [hlcs],
      show s.lcs.fuse.join { u.lcs.fuse with f1 := true, f2 := true, f3 := true, f4 := true } = _ by
        rw [hlcs]; exact join_of_blown (fun _ => rfl) (fun _ => rfl) (fun _ => rfl) (fun _ => rfl) id id,
      show u.lcs.fuse.ir = _ by rw [hlcs], show u.lcs.fuse.is = _ by rw [hlcs]⟩
  · exact .refl s

theorem intentRecovery_recovers (s : State) : Recovers s (intentRecovery s) :=
  (returnRecovered_recovers s).trans (scrapRecovered_recovers _)

theorem returnRecovered_quiet {s : State} (h : s.lcs.fuse.ir = false ∨ s.lcs.fuse.f3 = true) : returnRecovered s = s :=
  if_neg (by obtain h | h := h <;> simp [h])

theorem scrapRecovered_quiet {s : State} (h : s.lcs.fuse.is = false ∨ s.lcs.fuse.f4 = true) : scrapRecovered s = s :=
  if_neg (by obtain h | h := h <;> simp [h])

theorem returnRecovered_due {s : State} (hir : s.lcs.fuse.ir = true) (hf3 : s.lcs.fuse.f3 = false) :
    returnRecovered s = withFuse (returnWipes s) { (returnWipes s).lcs.fuse with f3 := true } := if_pos (by simp [hir, hf3])

theorem scrapRecovered_due {s : State} (his : s.lcs.fuse.is = true) (hf4 : s.lcs.fuse.f4 = false) : scrapRecovered s =
    withFuse (scrapWipes s) { (scrapWipes s).lcs.fuse with f1 := true, f2 := true, f3 := true, f4 := true } := if_pos (by simp [his, hf4])

/-- What TO_SCRAP adds to a state leaves F3 and journal slot A as blown as they were, and wiped keys wiped. -/
theorem scrapRecovered_keeps (s : State) : (s.lcs.fuse.f3 = true → (scrapRecovered s).lcs.fuse.f3 = true) ∧
    (s.lcs.jrnA = jrnWiped → (scrapRecovered s).lcs.jrnA = jrnWiped) ∧
    ∀ ml i, keySlot s ml i = keyWiped → keySlot (scrapRecovered s) ml i = keyWiped := by
  obtain ⟨-, hjrn, -, hkeys⟩ := scrapWipes_spec s
  unfold scrapRecovered
  generalize scrapWipes s = u at hjrn hkeys
  split
  · refine ⟨fun _ => rfl, fun _ => hjrn, fun ml i h => (hkeys ml i).trans ?_⟩
    split
    · rfl
    · exact h
  · exact ⟨id, id, fun _ _ => id⟩

theorem intentRecovery_return {s : State} (hir : s.lcs.fuse.ir = true) (hf3 : s.lcs.fuse.f3 = false) :
    (intentRecovery s).lcs.fuse.f3 = true ∧ (intentRecovery s).lcs.jrnA = jrnWiped ∧
    ∀ ml i, 2 ≤ i → i < 8 → keySlot (intentRecovery s) ml i = keyWiped := by
  obtain ⟨-, hjrn, hkeys⟩ := returnWipes_spec s
  obtain ⟨hfuse, hslot, hwiped⟩ := scrapRecovered_keeps (returnRecovered s)
  rw [intentRecovery_eq]
  rw [returnRecovered_due hir hf3] at hfuse hslot hwiped ⊢
  generalize returnWipes s = u at hjrn hkeys hfuse hslot hwiped
  refine ⟨hfuse rfl, hslot hjrn, fun ml i hlo hhi => hwiped ml i ((hkeys ml i).trans (if_pos ?_))⟩
  simp only [List.mem_cons, List.not_mem_nil, or_false]
  omega

theorem returnRecovered_f4 (s : State) : (returnRecovered s).lcs.fuse.f4 = s.lcs.fuse.f4 := by
  have hlcs := returnWipes_lcs s
  unfold returnRecovered
  generalize returnWipes s = u at hlcs
  split
  · exact show u.lcs.fuse.f4 = _ by rw [hlcs]
  · rfl

theorem intentRecovery_scrap {s : State} (his : s.lcs.fuse.is = true) (hf4 : s.lcs.fuse.f4 = false) :
    (intentRecovery s).lcs.fuse.f4 = true ∧ ∀ ml i, i < 8 → keySlot (intentRecovery s) ml i = keyWiped := by
  have hreturned := returnRecovered_recovers s
  have hopen := returnRecovered_f4 s
  rw [intentRecovery_eq]
  generalize returnRecovered s = v at hreturned hopen
  obtain ⟨-, -, -, hkeys⟩ := scrapWipes_spec v
  rw [scrapRecovered_due (hreturned.is.trans his) (hopen.trans hf4)]
  generalize scrapWipes v = u at hkeys
  refine ⟨rfl, fun ml i hlt => (hkeys ml i).trans (if_pos ?_)⟩
  simp only [List.mem_cons, List.not_mem_nil, or_false]
  omega

/-! Power-up. -/

/-- What power-up finds of the life-cycle unit: its fuses. -/
def lcsPowered (s : State) : State := { s with lcs := { s.lcs with kbuf := 0, busy := false, bytes := [], session := none, jtag := .bypass } }

/-- The state after power-up, the life-cycle unit of i. -/
def poweredUp (s i : State) : State :=
  { gen := s.gen, free := (takeFree i).2.free, pending := s.pending, lcs := { i.lcs with nonce := (takeFree i).1 }
    nis := mmap s.nis fun _ n => niCold { n with slot := { n.slot with perm := false } }
    spans := mmap s.spans fun _ q => { phyUp := q.phyUp, widthCap := q.widthCap }
    pwr := { pgood := false }
    rst := { porN := s.rst.porN, rstN := s.rst.rstN, wrstN := s.rst.wrstN, inCold := true, initDone := false, pgSeen := false } }

theorem exec_por (s : State) : exec .por s = answerFuse s
    (wr (poweredUp s (intentRecovery (lcsPowered s))) 0x13030 (BitVec.ofNat 64 (fusedFloor (poweredUp s (intentRecovery (lcsPowered s)))))) := rfl

theorem power_up (s : State) : Completes .por s fun t =>
    t.rst.inCold = true ∧ t.rst.initDone = false ∧ t.rst.pgSeen = false ∧ t.time = {} ∧ t.eng = {} ∧ t.jrn = {} ∧ t.img = {} ∧ t.flt = {} ∧
    t.mmx = {} ∧ t.rtrs = [] ∧ rd t (aImg 0x30) = BitVec.ofNat 64 (fusedFloor s) ∧ (∀ a, a ≠ aImg 0x30 → rd t a = resetWord a) ∧
    t.lcs.floors = s.lcs.floors ∧ t.lcs.session = none ∧ t.lcs.busy = false ∧
    ((s.lcs.fuse.ir = false ∨ s.lcs.fuse.f3 = true) → (s.lcs.fuse.is = false ∨ s.lcs.fuse.f4 = true) →
      t.lcs.fuse = s.lcs.fuse ∧ t.lcs.keyE = s.lcs.keyE ∧ t.lcs.keyM = s.lcs.keyM ∧ t.lcs.jrnA = s.lcs.jrnA ∧ t.lcs.jrnB = s.lcs.jrnB) ∧
    (s.lcs.fuse.ir = true → s.lcs.fuse.f3 = false → t.lcs.fuse.f3 = true ∧ t.lcs.jrnA = jrnWiped ∧
      ∀ ml i, 2 ≤ i → i < 8 → keySlot t ml i = keyWiped) ∧
    (s.lcs.fuse.is = true → s.lcs.fuse.f4 = false → t.lcs.fuse.f4 = true ∧ ∀ ml i, i < 8 → keySlot t ml i = keyWiped) := by
  have hexec := exec_por s
  have hrec := intentRecovery_recovers (lcsPowered s)
  have hquiet : (s.lcs.fuse.ir = false ∨ s.lcs.fuse.f3 = true) → (s.lcs.fuse.is = false ∨ s.lcs.fuse.f4 = true) →
      intentRecovery (lcsPowered s) = lcsPowered s := fun hreturn hscrap => by
    have hreturned : returnRecovered (lcsPowered s) = lcsPowered s := returnRecovered_quiet hreturn
    rw [intentRecovery_eq, hreturned]
    exact scrapRecovered_quiet hscrap
  have hreturn := intentRecovery_return (s := lcsPowered s)
  have hscrap := intentRecovery_scrap (s := lcsPowered s)
  generalize intentRecovery (lcsPowered s) = i at hexec hrec hquiet hreturn hscrap
  have hfloor : fusedFloor (poweredUp s i) = fusedFloor s := congrArg (fun l : List (BitVec 48) => (l.reverse.find? (· != 0)).elim 0 (·.toNat)) hrec.floors
  rw [hfloor] at hexec
  refine completes_of_answerFuse hexec rfl rfl hrec.fuse ⟨rfl, rfl, rfl, rfl, rfl, rfl, rfl, rfl, rfl, rfl, rd_wr_same .., fun a ha => ?_,
    hrec.floors, hrec.session, hrec.busy, fun hret hscr => ?_, hreturn, hscrap⟩
  · exact (rd_wr_ne _ _ _ _ ha).trans rfl
  · have hsame := hquiet hret hscr
    subst hsame
    exact ⟨rfl, rfl, rfl, rfl, rfl⟩

/-! Cold reset. -/

theorem exec_coldResetAssert {s : State} (h : s.rst.rstN = true) :
    exec .coldResetAssert s = answer s (coldReset { s with rst := { s.rst with rstN := false } } 1) := congrArg (answer s) (if_pos h)

theorem cold_asserted {s : State} (h : s.rst.rstN = true) : Completes .coldResetAssert s fun t => ColdReset s t 1 ∧ t.rst.rstN = false ∧
    t.rst.clearing = false ∧ t.lcs.fuse = s.lcs.fuse ∧ t.lcs.keyE = s.lcs.keyE ∧ t.lcs.keyM = s.lcs.keyM :=
  completes_of_answer (exec_coldResetAssert h) rfl rfl rfl
    ⟨coldReset_spec { s with rst := { s.rst with rstN := false } } (by decide), rfl, by simp [coldReset, coldState, mayClear], rfl, rfl, rfl⟩

theorem exec_coldResetRelease (s : State) : exec .coldResetRelease s = answer s { s with rst := { s.rst with
    rstN := true, clearing := if s.rst.inCold then s.rst.porN && s.rst.pgSeen else s.rst.clearing } } := by
  refine congrArg (answer s) ?_
  dsimp only
  cases s.rst.inCold
  · rfl
  · simp [mayClear]

/-- Settles O43: power-up keeps of the life-cycle unit what the recovery of a half-done transition leaves of it. -/
theorem powerUpAndColdResetRun : Obligations.PowerUpAndColdResetRun := by
  unfold Obligations.PowerUpAndColdResetRun
  refine ⟨power_up, fun s => cold_asserted, fun s => completes_of_answer (t := coldReset s 2) rfl rfl rfl rfl ⟨coldReset_spec s (by decide), rfl, rfl⟩,
    fun s => completes_of_answer (exec_coldResetRelease s) rfl rfl rfl rfl, fun s hcold hclearing => ?_⟩
  exact completes_of_answer (congrArg (answer s) (if_pos (by rw [hcold, hclearing]; rfl))) rfl rfl rfl rfl

end Sys2Proof.Machine
end

section
/-! SUPPORT. What the resets of an NI's data path and port leave unchanged (03 R58; 17 R376 to R378). -/

namespace Sys2Proof.Machine

/-- A word of NI n's block. -/
def InBlock (n a : Nat) : Prop := aNi n 0 ≤ a ∧ a < aNi n 0x2000

theorem inBlock_aNi (n : Nat) {off : Nat} (h : off < 0x2000) : InBlock n (aNi n off) := by
  unfold InBlock aNi
  omega

theorem not_inBlock_of_ne {n m a : Nat} (h : n ≠ m) (ha : InBlock n a) : ¬ InBlock m a := by
  unfold InBlock aNi at *
  omega

/-- What an NI knows of its resets, and its region. -/
def rstOf (i : Ni) : Bool × Nat × Nat × List Nat × BitVec 2 × Bool × Bool :=
  (i.inRst, i.rstCause, i.rstFrame, i.rstSlices, i.region, i.port.up, i.port.inEp)

/-- t differs from s only in NI n, its words and their pending values, and in what notifications write. -/
structure NiBlock (n : Nat) (s t : State) : Prop where
  whole : t = { s with
    regs := t.regs, pendT := t.pendT, nis := t.nis, ntf := t.ntf, flt := { s.flt with log := t.flt.log }, free := t.free }
  words : ∀ a, ¬ InBlock n a → noteWord a = false → rd t a = rd s a
  nis : ∀ m, m ≠ n → SameNi s t m

/-- Such a t in which the NI's resets stand as in s. -/
structure NiWork (n : Nat) (s t : State) : Prop extends NiBlock n s t where
  kept : rstOf (getNi t n) = rstOf (getNi s n)

theorem NiBlock.refl (n : Nat) (s : State) : NiBlock n s s := ⟨rfl, fun _ _ _ => rfl, fun m _ => .refl s m⟩

theorem NiBlock.trans {n : Nat} {s t u : State} (h : NiBlock n s t) (k : NiBlock n t u) : NiBlock n s u where
  whole := by
    rw [k.whole]
    conv_lhs => rw [h.whole]
  words a ha hfree := (k.words a ha hfree).trans (h.words a ha hfree)
  nis m hm := (h.nis m hm).trans (k.nis m hm)

theorem NiNote.niBlock {n : Nat} {l : List Nat} {s t : State} (h : NiNote n l s t) (hl : ∀ a ∈ l, InBlock n a) : NiBlock n s t := by
  obtain ⟨hwhole, hwords, hnis⟩ := h
  refine ⟨?_, fun a ha => hwords a fun hmem => ha (hl a hmem), hnis⟩
  rw [hwhole]

theorem NiOnly.niBlock {n : Nat} {s t : State} (h : NiOnly n s t) : NiBlock n s t := (h.niNote []).niBlock (by simp)

theorem NiBlock.updNi (n : Nat) (s : State) (f : Ni → Ni) : NiBlock n s (updNi s n f) := (NiOnly.updNi s n f).niBlock

theorem NiBlock.updPort (n : Nat) (s : State) (f : Port → Port) : NiBlock n s (updPort s n f) := .updNi n s _

theorem NiBlock.ite {n : Nat} {c : Prop} [Decidable c] {s t u : State} (ht : NiBlock n s t) (hu : NiBlock n s u) :
    NiBlock n s (if c then t else u) := by split <;> assumption

theorem NiBlock.wr {n a : Nat} (s : State) (v : Word) (h : InBlock n a) : NiBlock n s (wr s a v) :=
  (NiNote.wr (n := n) (l := [a]) s v (List.mem_singleton.mpr rfl)).niBlock (by simpa using h)

theorem NiBlock.setFlag {n a : Nat} (s : State) (i : Nat) (h : InBlock n a) : NiBlock n s (setFlag s a i) := .wr s _ h

theorem NiWork.refl (n : Nat) (s : State) : NiWork n s s := { NiBlock.refl n s with kept := rfl }

theorem NiWork.trans {n : Nat} {s t u : State} (h : NiWork n s t) (k : NiWork n t u) : NiWork n s u :=
  { h.toNiBlock.trans k.toNiBlock with kept := k.kept.trans h.kept }

theorem NiWork.ite {n : Nat} {c : Prop} [Decidable c] {s t u : State} (ht : NiWork n s t) (hu : NiWork n s u) :
    NiWork n s (if c then t else u) := by split <;> assumption

theorem NiWork.foldl {α : Type} {n : Nat} {f : State → α → State} {l : List α} (h : ∀ s, ∀ a ∈ l, NiWork n s (f s a)) (s : State) :
    NiWork n s (l.foldl f s) := by
  induction l generalizing s with
  | nil => exact .refl n s
  | cons a l ih => exact (h s a (List.mem_cons_self ..)).trans (ih (fun s b hb => h s b (List.mem_cons_of_mem a hb)) _)

theorem NiWork.updNi (n : Nat) (s : State) {f : Ni → Ni} (h : ∀ i, rstOf (f i) = rstOf i) : NiWork n s (updNi s n f) :=
  { NiBlock.updNi n s f with kept := by rw [getNi_updNi_same, h] }

theorem NiWork.wr {n a : Nat} (s : State) (v : Word) (h : InBlock n a) : NiWork n s (wr s a v) := { NiBlock.wr s v h with kept := rfl }

theorem NiWork.setFlag {n a : Nat} (s : State) (i : Nat) (h : InBlock n a) : NiWork n s (setFlag s a i) := .wr s _ h

theorem NiWork.incSat {n a : Nat} (s : State) (d : Nat) (h : InBlock n a) : NiWork n s (incSat s a d) := .wr s _ h

theorem SameNi.rst {s t : State} {m : Nat} (h : SameNi s t m) : rstOf (getNi t m) = rstOf (getNi s m) := by
  obtain ⟨q, hq⟩ := h.exists_ntfQ
  rw [hq]
  rfl

theorem Noted.niWork {s t : State} (h : Noted s t) (n : Nat) : NiWork n s t :=
  { (h.niNote n []).niBlock (by simp) with kept := (h.nis n).rst }

/-! The data path of an NI is reset (17 R376). -/

theorem memberDrain_niWork (s : State) (n : Nat) : NiWork n s (memberDrain s n) := by
  unfold memberDrain
  refine .foldl (fun t p _ => ?_) s
  split
  · exact .ite (.refl n t) ((NiWork.updNi n t fun _ => by rfl).trans (.updNi n _ fun _ => by rfl))
  · exact .refl n t

theorem answerMembers_niWork (s : State) (n : Nat) : NiWork n s (answerMembers s n) :=
  (NiWork.updNi n s fun _ => by rfl).trans (memberDrain_niWork ..)

theorem discardWrites_niWork (s : State) (n : Nat) (k : Option Nat) : NiWork n s (discardWrites s n k).2 := by
  have hdrop : ∀ l : List Req, NiWork n s (l.foldl (fun t r => Machine.updNi t n fun i => dropReq i r.id) s) :=
    fun l => .foldl (fun t r _ => .updNi n t fun _ => by rfl) s
  have hcount : ∀ (t : State) (d : Nat), NiWork n t (Machine.incSat t (aNi n 0x110) d) := fun t d => .incSat t d (inBlock_aNi n (by decide))
  exact (hdrop _).trans ((hcount _ _).trans (.ite (.refl n _) (.setFlag _ _ (inBlock_aNi n (by decide)))))

theorem niDiscardWrites_niWork (s : State) (n : Nat) : NiWork n s (niDiscardWrites s n) :=
  .foldl (fun t k _ => .ite (discardWrites_niWork t n (some k))
    ((discardWrites_niWork t n (some k)).trans ((noted_raiseNi ..).niWork n))) s

theorem niSlicesReset_niWork (s : State) (n : Nat) : NiWork n s (niSlicesReset s n) :=
  .foldl (fun t k _ => .ite (.updNi n t fun _ => by rfl) (.refl n t)) s

theorem mem_niListed {s : State} {n a : Nat} (h : a ∈ niListed s n) : InBlock n a := by
  unfold niListed at h
  have hcond := (List.mem_filter.mp h).2
  rw [Bool.and_eq_true, decide_eq_true_eq, decide_eq_true_eq] at hcond
  exact hcond

theorem niRegReset_niWork (s : State) (n : Nat) : NiWork n s (niRegReset s n) := by
  have hwords : NiWork n s (((niListed s n).filter fun a => niRegResets (a - aNi n 0)).foldl (fun t a => Machine.wr t a (imgWord s a)) s) :=
    .foldl (fun t a ha => .wr t _ (mem_niListed (List.mem_of_mem_filter ha))) s
  have hpend : ∀ (t : State) (l : Map Word), NiWork n t { t with pendT := l } := fun t l =>
    { whole := rfl, words := fun _ _ _ => rfl, nis := fun m _ => .refl t m, kept := rfl }
  exact hwords.trans (hpend _ _)

theorem clampQueue_niWork (s : State) (n q : Nat) (hq : q < 64) : NiWork n s (clampQueue s n q) := by
  have hword : ∀ (t : State) (v : Word), NiWork n t (Machine.wr t (aNi n (0xC08 + 0x40 * q)) v) := fun t v => .wr t v (inBlock_aNi n (by omega))
  unfold clampQueue
  exact .ite (.refl n s) ((hword _ _).trans (.setFlag _ _ (inBlock_aNi n (by decide))))

theorem clampAt_lt {a n q : Nat} (h : clampAt a = some (n, q)) : q < 64 := by
  unfold clampAt at h
  dsimp only at h
  split at h
  · cases h
    omega
  · cases h

theorem clampQueues_niWork (s : State) (n : Nat) : NiWork n s (clampQueues s (· == n)) := by
  refine .foldl (fun t k hk => ?_) s
  obtain ⟨hmem, hn⟩ := List.mem_filter.mp hk
  obtain ⟨w, -, hw⟩ := List.mem_filterMap.mp hmem
  obtain ⟨m, q⟩ := k
  obtain rfl : m = n := by simpa using hn
  exact clampQueue_niWork t m q (clampAt_lt hw)

theorem niWork_niEmptied (s : State) (n : Nat) : NiWork n s (updNi s n niEmptied) := .updNi n s fun _ => by rfl

theorem regs_clampQueue (s : State) (n q : Nat) : clampQueue s n q = { s with regs := (clampQueue s n q).regs } := by
  unfold clampQueue
  dsimp only
  split <;> rfl

theorem getNi_clampQueues (s : State) (p : Nat → Bool) (m : Nat) : getNi (clampQueues s p) m = getNi s m := by
  unfold clampQueues
  generalize (s.regs.filterMap fun w => clampAt w.1).filter (fun k => p k.1) = l
  induction l generalizing s with
  | nil => rfl
  | cons k l ih =>
    refine (ih (clampQueue s k.1 k.2)).trans ?_
    rw [regs_clampQueue]
    rfl

theorem getNi_niRegReset (s : State) (n m : Nat) : getNi (niRegReset s n) m = getNi s m := by
  have hwords : ∀ (l : List Nat) (t : State), getNi (l.foldl (fun t a => wr t a (imgWord s a)) t) m = getNi t m := fun l => by
    induction l with
    | nil => exact fun _ => rfl
    | cons a l ih => exact fun t => (ih _).trans rfl
  exact hwords _ s

/-- The state with the data path of NI n empty, before its notification. -/
def niCleared (s : State) (n : Nat) : State :=
  updNi (clampQueues (niRegReset (updNi (niSlicesReset (niDiscardWrites (answerMembers s n) n) n) n niEmptied) n) (· == n)) n
    fun i => { i with rstCause := 0 }

theorem niDataReset_eq (s : State) (n : Nat) : niDataReset s n =
    raiseG (niCleared s n) n 0x171 0 ((getNi s n).rstCause ||| ((getNi s n).rstFrame % 2 ^ 40) <<< 8) := rfl

/-- The data path of an NI is reset: no request and no tracker entry is left, and its resets stand but for the cause, which is 0. -/
theorem niDataReset_spec (s : State) (n : Nat) : NiBlock n s (niDataReset s n) ∧ (getNi (niDataReset s n) n).reqs = [] ∧
    (getNi (niDataReset s n) n).trk = [] ∧
    rstOf (getNi (niDataReset s n) n) = rstOf { getNi s n with rstCause := 0 } := by
  have hbefore := ((answerMembers_niWork s n).trans (niDiscardWrites_niWork _ n)).trans (niSlicesReset_niWork _ n)
  have hcleared : niCleared s n = updNi (clampQueues (niRegReset (updNi (niSlicesReset (niDiscardWrites (answerMembers s n) n) n) n niEmptied) n)
    (· == n)) n fun i => { i with rstCause := 0 } := rfl
  generalize niSlicesReset (niDiscardWrites (answerMembers s n) n) n = u at hbefore hcleared
  have hwork := hbefore.trans (((niWork_niEmptied u n).trans (niRegReset_niWork _ n)).trans (clampQueues_niWork _ n))
  have hni : getNi (clampQueues (niRegReset (updNi u n niEmptied) n) (· == n)) n = niEmptied (getNi u n) := by
    rw [getNi_clampQueues, getNi_niRegReset, getNi_updNi_same]
  generalize clampQueues (niRegReset (updNi u n niEmptied) n) (· == n) = v at hcleared hwork hni
  rw [niDataReset_eq]
  have hnoted := noted_raiseG (niCleared s n) n 0x171 0 ((getNi s n).rstCause ||| ((getNi s n).rstFrame % 2 ^ 40) <<< 8)
  generalize raiseG (niCleared s n) n 0x171 0 ((getNi s n).rstCause ||| ((getNi s n).rstFrame % 2 ^ 40) <<< 8) = t at hnoted
  obtain ⟨q, hq⟩ := (hnoted.nis n).exists_ntfQ
  have hlast : getNi (niCleared s n) n = { niEmptied (getNi u n) with rstCause := 0 } := by rw [hcleared, getNi_updNi_same, hni]
  have hkept := hbefore.kept
  rw [hlast] at hq
  refine ⟨?_, by rw [hq]; rfl, by rw [hq]; rfl, ?_⟩
  · rw [hcleared] at hnoted
    exact (hwork.toNiBlock.trans (.updNi ..)).trans (hnoted.niWork n).toNiBlock
  · rw [hq]
    simp only [rstOf, Prod.mk.injEq] at hkept ⊢
    obtain ⟨hin, -, hframe, hslices, hregion, hup, hep⟩ := hkept
    exact ⟨hin, trivial, hframe, hslices, hregion, hup, hep⟩

/-! A reset of the port, and of the NI, begins. -/

/-- The port's reset begins: ep_up falls. -/
theorem portResetBegin_spec (s : State) (n : Nat) : NiBlock n s (portResetBegin s n) ∧ rstOf (getNi (portResetBegin s n) n) =
    rstOf { getNi s n with port := { (getNi s n).port with up := false } } := by
  have hquiet : getNi (updPort s n fun p => portQuiet p (nowNs s)) n = { getNi s n with port := portQuiet (getNi s n).port (nowNs s) } :=
    getNi_updPort_same ..
  have hwork := answerMembers_niWork (updPort s n fun p => portQuiet p (nowNs s)) n
  refine ⟨(NiBlock.updNi n s _).trans hwork.toNiBlock, hwork.kept.trans ?_⟩
  rw [hquiet]
  rfl

theorem portStep_up (p : Port) : (portStep p).up = p.up ∧ (portStep p).inEp = p.inEp := by
  unfold portStep
  dsimp only
  split <;> split <;> exact ⟨rfl, rfl⟩

/-- NI n's reset of a cause begins, in the current frame. -/
def rstMarked (s : State) (n cause : Nat) : State := updNi s n fun i => { i with
  inRst := true, rstCause := cause, rstFrame := frameOf s, rstSlices := (List.range 16).filter fun k => (getSlice i k).rst }

/-- The NI asks its port for the reset handshake. -/
def portAsked (s : State) (n : Nat) : State := updPort (portResetBegin s n) n fun p => portStep { p with reqNi := true }

theorem portAsked_spec (s : State) (n : Nat) : NiBlock n s (portAsked s n) ∧ rstOf (getNi (portAsked s n) n) =
    rstOf { getNi s n with port := { (getNi s n).port with up := false } } := by
  obtain ⟨hblock, hview⟩ := portResetBegin_spec s n
  have hni : getNi (portAsked s n) n = { getNi (portResetBegin s n) n with
    port := portStep { (getNi (portResetBegin s n) n).port with reqNi := true } } := getNi_updPort_same ..
  refine ⟨hblock.trans (.updPort ..), ?_⟩
  obtain ⟨hup, hep⟩ := portStep_up { (getNi (portResetBegin s n) n).port with reqNi := true }
  rw [← hview, hni]
  simp only [rstOf, hup, hep]

theorem niResetBegin_on {s : State} {n : Nat} (cause : Nat) (hni : isNi s n = true) (hrst : (getNi s n).inRst = false)
    (hon : (getNi s n).region = 0) : niResetBegin s n cause = if isSvcNi s n then rstMarked s n cause
      else if portEn s n then (if (getNi s n).port.inEp then niDataReset (portAsked (rstMarked s n cause) n) n else portAsked (rstMarked s n cause) n)
      else updNi (niDataReset (rstMarked s n cause) n) n fun i => { pulseFences i (fun _ => true) with inRst := false } :=
  if_neg (by simp [hni, hrst, hon])

theorem niResetBegin_block (s : State) (n cause : Nat) : NiBlock n s (niResetBegin s n cause) := by
  have hmark : NiBlock n s (rstMarked s n cause) := .updNi ..
  have hasked := hmark.trans (portAsked_spec (rstMarked s n cause) n).1
  have hreset : ∀ u, NiBlock n u (niDataReset u n) := fun u => (niDataReset_spec u n).1
  unfold niResetBegin
  exact .ite (.refl n s) (.ite hmark (.ite (.ite (hasked.trans (hreset _)) hasked) ((hmark.trans (hreset _)).trans (.updNi ..))))

/-- What a state shares with s at NI n: the NI but for its notifications, and its words but for those that notifications write. -/
structure Spares (n : Nat) (s t : State) : Prop where
  gen : t.gen = s.gen
  time : t.time = s.time
  words : ∀ a, InBlock n a → noteWord a = false → rd t a = rd s a
  ni : SameNi s t n

theorem Spares.refl (n : Nat) (s : State) : Spares n s s := ⟨rfl, rfl, fun _ _ _ => rfl, .refl s n⟩

theorem Spares.trans {n : Nat} {s t u : State} (h : Spares n s t) (k : Spares n t u) : Spares n s u :=
  ⟨k.gen.trans h.gen, k.time.trans h.time, fun a ha hfree => (k.words a ha hfree).trans (h.words a ha hfree), h.ni.trans k.ni⟩

/-- Work at another NI spares NI n. -/
theorem NiBlock.spares {n m : Nat} {s t : State} (h : NiBlock m s t) (hne : n ≠ m) : Spares n s t := by
  have hwhole := h.whole
  exact ⟨by rw [hwhole], by rw [hwhole], fun a ha => h.words a (not_inBlock_of_ne hne ha), h.nis n hne⟩

theorem Spares.portEn {n : Nat} {s t : State} (h : Spares n s t) (hn : n < 128) : portEn t n = portEn s n := by
  unfold Machine.portEn
  rw [h.words _ (inBlock_aNi n (by decide)) (noteWord_aNi hn (by decide) (by decide))]

theorem Spares.isEpNi {n : Nat} {s t : State} (h : Spares n s t) : isEpNi t n = isEpNi s n := by
  unfold Machine.isEpNi nEpNis
  rw [h.gen]

theorem Spares.isSvcNi {n : Nat} {s t : State} (h : Spares n s t) : isSvcNi t n = isSvcNi s n := by
  unfold Machine.isSvcNi nRinks
  rw [h.gen]

theorem Spares.isNi {n : Nat} {s t : State} (h : Spares n s t) : isNi t n = isNi s n := by
  unfold Machine.isNi
  rw [h.isEpNi, h.isSvcNi]

theorem Spares.frame {n : Nat} {s t : State} (h : Spares n s t) : frameOf t = frameOf s := by
  unfold frameOf nowNs
  rw [h.time]

theorem Spares.rst {n : Nat} {s t : State} (h : Spares n s t) : rstOf (getNi t n) = rstOf (getNi s n) := h.ni.rst

section
variable {f : State → Nat → State} (hf : ∀ s n, NiBlock n s (f s n))
include hf

theorem spares_foldl {n : Nat} {l : List Nat} (h : n ∉ l) (s : State) : Spares n s (l.foldl f s) := by
  induction l generalizing s with
  | nil => exact .refl n s
  | cons m l ih =>
    rw [List.mem_cons, not_or] at h
    exact ((hf s m).spares h.1).trans (ih h.2 _)

/-- In a run over NIs, each once, NI n is as its own step left it. -/
theorem spares_foldl_step {n : Nat} {l : List Nat} (hl : l.Nodup) (h : n ∈ l) (s : State) :
    ∃ u, Spares n s u ∧ Spares n (f u n) (l.foldl f s) := by
  induction l generalizing s with
  | nil => cases h
  | cons m l ih =>
    rw [List.nodup_cons] at hl
    obtain ⟨hm, hl⟩ := hl
    by_cases hn : n = m
    · subst hn
      exact ⟨s, .refl n s, spares_foldl hf hm _⟩
    · obtain ⟨u, hu, ht⟩ := ih hl ((List.mem_cons.mp h).resolve_left hn) (f s m)
      exact ⟨u, ((hf s m).spares hn).trans hu, ht⟩

end

end Sys2Proof.Machine
end

section
/-! PROOF. NI resets begin at the NIs named or without a clock, and a service NI's ends with its rink's flag (17 R376, R378, R381, R383; for
O45). -/

namespace Sys2Proof.Machine

theorem not_isSvcNi_of_isEpNi {s : State} {n : Nat} (h : isEpNi s n = true) : isSvcNi s n = false := by
  have hle : nEpNis s ≤ 120 := by unfold nEpNis; split <;> decide
  rw [isEpNi, decide_eq_true_eq] at h
  unfold isSvcNi
  simp only [Bool.and_eq_false_iff, decide_eq_false_iff_not]
  omega

theorem isNi_of_isEpNi {s : State} {n : Nat} (h : isEpNi s n = true) : isNi s n = true := by rw [isNi, h, Bool.true_or]

theorem isNi_of_isSvcNi {s : State} {n : Nat} (h : isSvcNi s n = true) : isNi s n = true := by rw [isNi, h, Bool.or_true]

theorem rstMarked_spec (s : State) (n cause : Nat) : getNi (rstMarked s n cause) n = { getNi s n with
    inRst := true, rstCause := cause, rstFrame := frameOf s, rstSlices := (List.range 16).filter fun k => (getSlice (getNi s n) k).rst } :=
  getNi_updNi_same ..

/-- The reset of an endpoint NI that is ON begins: it is in reset and its port goes down; an endpoint not in reset is waited for. -/
theorem niResetBegin_ep {s : State} {n cause : Nat} (hep : isEpNi s n = true) (hen : portEn s n = true) (hrst : (getNi s n).inRst = false)
    (hon : (getNi s n).region = 0) : (getNi (niResetBegin s n cause) n).inRst = true ∧ (getNi (niResetBegin s n cause) n).port.up = false ∧
      ((getNi s n).port.inEp = false → (getNi (niResetBegin s n cause) n).rstCause = cause ∧
        (getNi (niResetBegin s n cause) n).rstFrame = frameOf s) := by
  have hmark := rstMarked_spec s n cause
  have hasked := (portAsked_spec (rstMarked s n cause) n).2
  rw [hmark] at hasked
  simp only [rstOf, Prod.mk.injEq] at hasked
  obtain ⟨hin, hcause, hframe, -, -, hup, -⟩ := hasked
  rw [niResetBegin_on cause (isNi_of_isEpNi hep) hrst hon, if_neg (by rw [not_isSvcNi_of_isEpNi hep]; decide), if_pos hen]
  cases hwait : (getNi s n).port.inEp with
  | false =>
    rw [if_neg (by decide)]
    exact ⟨hin, hup, fun _ => ⟨hcause, hframe⟩⟩
  | true =>
    rw [if_pos rfl]
    obtain ⟨-, -, -, hview⟩ := niDataReset_spec (portAsked (rstMarked s n cause) n) n
    simp only [rstOf, Prod.mk.injEq] at hview
    obtain ⟨hin', -, -, -, -, hup', -⟩ := hview
    exact ⟨hin'.trans hin, hup'.trans hup, nofun⟩

theorem niResetBegin_svc {s : State} {n : Nat} (cause : Nat) (hsvc : isSvcNi s n = true) (hrst : (getNi s n).inRst = false)
    (hon : (getNi s n).region = 0) : niResetBegin s n cause = rstMarked s n cause := by
  rw [niResetBegin_on cause (isNi_of_isSvcNi hsvc) hrst hon, if_pos hsvc]

/-! GLB_RST_NI. -/

/-- The NIs that a word of GLB_RST_NI names. -/
def namedNis (w mask : Nat) : List Nat := (onesOf 64 mask).map (64 * w + ·)

theorem niResetMask_eq (s : State) (w mask : Nat) : niResetMask s w mask = (namedNis w mask).foldl (fun t n => niResetBegin t n 1) s := by
  rw [namedNis, List.foldl_map]
  rfl

theorem namedNis_nodup (w mask : Nat) : (namedNis w mask).Nodup :=
  (List.nodup_range.filter _).map fun _ _ h => Nat.add_left_cancel h

theorem mem_namedNis {w mask n : Nat} : n ∈ namedNis w mask ↔ n / 64 = w ∧ mask.testBit (n % 64) = true := by
  simp only [namedNis, onesOf, List.mem_map, List.mem_filter, List.mem_range]
  constructor
  · rintro ⟨j, ⟨hj, hbit⟩, rfl⟩
    rw [Nat.mul_add_div (by decide), Nat.mul_add_mod, Nat.mod_eq_of_lt hj, Nat.div_eq_of_lt hj]
    exact ⟨rfl, hbit⟩
  · rintro ⟨rfl, hbit⟩
    exact ⟨n % 64, ⟨Nat.mod_lt _ (by decide), hbit⟩, Nat.div_add_mod n 64⟩

theorem niResetMask_block (s : State) (w mask : Nat) : niResetMask s w mask = { s with
    regs := (niResetMask s w mask).regs, pendT := (niResetMask s w mask).pendT, nis := (niResetMask s w mask).nis
    ntf := (niResetMask s w mask).ntf, flt := { s.flt with log := (niResetMask s w mask).flt.log }, free := (niResetMask s w mask).free } := by
  rw [niResetMask_eq]
  generalize namedNis w mask = l
  induction l generalizing s with
  | nil => rfl
  | cons n l ih =>
    rw [List.foldl_cons, ih, (niResetBegin_block s n 1).whole]

section
variable {s : State} {w : BitVec 1} {mask : Word} {j n : Nat} (hj : j < 64) (hbit : bitOf mask j = true) (hn : n = 64 * w.toNat + j)
  (hrst : (getNi s n).inRst = false) (hon : (getNi s n).region = 0)
include hj hbit hn hrst hon

theorem exists_reset_step : ∃ u, Spares n s u ∧ Spares n (niResetBegin u n 1) (niResetMask s w.toNat mask.toNat) ∧ n < 128 ∧
    (getNi u n).inRst = false ∧ (getNi u n).region = 0 := by
  have hmem : n ∈ namedNis w.toNat mask.toNat := by
    rw [mem_namedNis, hn, Nat.mul_add_div (by decide), Nat.mul_add_mod, Nat.mod_eq_of_lt hj, Nat.div_eq_of_lt hj]
    exact ⟨rfl, hbit⟩
  obtain ⟨u, hu, ht⟩ := spares_foldl_step (fun t n => niResetBegin_block t n 1) (namedNis_nodup w.toNat mask.toNat) hmem s
  rw [← niResetMask_eq] at ht
  have hview := hu.rst
  simp only [rstOf, Prod.mk.injEq] at hview
  obtain ⟨hin, -, -, -, hregion, -, -⟩ := hview
  have hw := w.isLt
  exact ⟨u, hu, ht, by omega, hin.trans hrst, hregion.trans hon⟩

theorem named_port_down (hep : isEpNi s n = true) (hen : portEn s n = true) :
    (getNi (niResetMask s w.toNat mask.toNat) n).port.up = false := by
  obtain ⟨u, hu, ht, hlt, hrst', hon'⟩ := exists_reset_step hj hbit hn hrst hon
  obtain ⟨-, hup, -⟩ := niResetBegin_ep (cause := 1) (hu.isEpNi.trans hep) ((hu.portEn hlt).trans hen) hrst' hon'
  have hview := ht.rst
  simp only [rstOf, Prod.mk.injEq] at hview
  exact hview.2.2.2.2.2.1.trans hup

theorem named_in_reset (hkind : (isEpNi s n = true ∧ portEn s n = true ∧ (getNi s n).port.inEp = false) ∨ isSvcNi s n = true) :
    (getNi (niResetMask s w.toNat mask.toNat) n).inRst = true ∧ (getNi (niResetMask s w.toNat mask.toNat) n).rstCause = 1 ∧
      (getNi (niResetMask s w.toNat mask.toNat) n).rstFrame = frameOf s := by
  obtain ⟨u, hu, ht, hlt, hrst', hon'⟩ := exists_reset_step hj hbit hn hrst hon
  have hbegun : (getNi (niResetBegin u n 1) n).inRst = true ∧ (getNi (niResetBegin u n 1) n).rstCause = 1 ∧
      (getNi (niResetBegin u n 1) n).rstFrame = frameOf s := by
    obtain ⟨hep, hen, hwait⟩ | hsvc := hkind
    · obtain ⟨hin, -, hnamed⟩ := niResetBegin_ep (cause := 1) (hu.isEpNi.trans hep) ((hu.portEn hlt).trans hen) hrst' hon'
      have hwait' : (getNi u n).port.inEp = (getNi s n).port.inEp := congrArg (fun v => v.2.2.2.2.2.2) hu.rst
      obtain ⟨hcause, hframe⟩ := hnamed (hwait'.trans hwait)
      exact ⟨hin, hcause, hframe.trans hu.frame⟩
    · rw [niResetBegin_svc 1 (hu.isSvcNi.trans hsvc) hrst' hon', rstMarked_spec]
      exact ⟨rfl, rfl, hu.frame⟩
  have hview := ht.rst
  simp only [rstOf, Prod.mk.injEq] at hview
  obtain ⟨hin, hcause, hframe, -⟩ := hview
  obtain ⟨hin', hcause', hframe'⟩ := hbegun
  exact ⟨hin.trans hin', hcause.trans hcause', hframe.trans hframe'⟩

end

theorem unnamed_kept {s : State} {w mask n : Nat} (h : n / 64 ≠ w ∨ mask.testBit (n % 64) = false) :
    (getNi (niResetMask s w mask) n).inRst = (getNi s n).inRst ∧ (getNi (niResetMask s w mask) n).reqs = (getNi s n).reqs := by
  have hmiss : n ∉ namedNis w mask := by
    rw [mem_namedNis]
    rintro ⟨hw, hbit⟩
    obtain h | h := h
    · exact h hw
    · rw [h] at hbit
      exact Bool.false_ne_true hbit
  have hspared := spares_foldl (fun t n => niResetBegin_block t n 1) hmiss s
  rw [← niResetMask_eq] at hspared
  obtain ⟨q, hq⟩ := hspared.ni.exists_ntfQ
  rw [hq]
  exact ⟨rfl, rfl⟩

/-! A lost clock (17 R381). -/

/-- A lost ep_clk is flagged and notified. -/
def clockFlagged (s : State) (n : Nat) : State :=
  raiseG (setFlag s (0x428 + 8 * (n / 64)) (n % 64)) n 0x170 2 (frameOf s % 2 ^ 38)

theorem exec_epClkLoss {s : State} {n : NiId} (hep : isEpNi s n.toNat = true) (hup : (getNi s n.toNat).port.up = true) :
    exec (.epClkLoss n) s = answer s (niResetBegin (clockFlagged s n.toNat) n.toNat 3) :=
  congrArg (answer s) (if_pos (by rw [hep, hup]; rfl))

theorem noteWord_clockBit {k : Nat} (h : k < 128) : noteWord (0x428 + 8 * (k / 64)) = false := by
  unfold noteWord
  simp only [Bool.or_eq_false_iff, Bool.and_eq_false_iff, beq_eq_false_iff_ne, decide_eq_false_iff_not]
  omega

theorem clock_lost {s : State} {n : NiId} {k : Nat} (hk : k = n.toNat) (hep : isEpNi s k = true) (hup : (getNi s k).port.up = true)
    (hen : portEn s k = true) (hrst : (getNi s k).inRst = false) (hon : (getNi s k).region = 0) : Completes (.epClkLoss n) s fun t =>
      bitOf (rd t (0x428 + 8 * (k / 64))) (k % 64) = true ∧ (getNi t k).inRst = true ∧ (getNi t k).port.up = false ∧
      ((getNi s k).port.inEp = false → (getNi t k).rstCause = 3 ∧ (getNi t k).rstFrame = frameOf s) := by
  subst hk
  have hlt : n.toNat < 128 := n.isLt
  have hexec := exec_epClkLoss hep hup
  have hnoted : Noted (setFlag s (0x428 + 8 * (n.toNat / 64)) (n.toNat % 64)) (clockFlagged s n.toNat) := noted_raiseG ..
  have hflag : bitOf (rd (clockFlagged s n.toNat) (0x428 + 8 * (n.toNat / 64))) (n.toNat % 64) = true := by
    rw [hnoted.words _ (noteWord_clockBit hlt)]
    exact bitOf_setFlag_same _ _ (Nat.mod_lt _ (by decide))
  have hspares : Spares n.toNat s (clockFlagged s n.toNat) := by
    have hwhole := hnoted.whole
    refine ⟨by rw [hwhole, setFlag_gen], by rw [hwhole, setFlag_time], fun a ha hfree => (hnoted.words a hfree).trans (rd_wr_ne _ _ _ _ ?_), hnoted.nis _⟩
    unfold InBlock aNi at ha
    omega
  have hview := hspares.rst
  simp only [rstOf, Prod.mk.injEq] at hview
  obtain ⟨hin', -, -, -, hon', -, hwait'⟩ := hview
  have hwhole : (clockFlagged s n.toNat).gen = s.gen ∧ (clockFlagged s n.toNat).pending = s.pending ∧ (clockFlagged s n.toNat).lcs = s.lcs := by
    rw [hnoted.whole]
    exact ⟨rfl, rfl, rfl⟩
  generalize clockFlagged s n.toNat = u at hexec hflag hspares hin' hon' hwait' hwhole
  obtain ⟨hgen, hpending, hlcs⟩ := hwhole
  have hblock := niResetBegin_block u n.toNat 3
  obtain ⟨hin, hdown, hcause⟩ := niResetBegin_ep (cause := 3) (hspares.isEpNi.trans hep) ((hspares.portEn hlt).trans hen)
    (hin'.trans hrst) (hon'.trans hon)
  have hall := hblock.whole
  refine completes_of_answer hexec (by rw [hall, hgen]) (by rw [hall, hpending]) (by rw [hall, hlcs])
    ⟨?_, hin, hdown, fun hwait => ?_⟩
  · rw [hblock.words _ (by unfold InBlock aNi; omega) (noteWord_clockBit hlt)]
    exact hflag
  · obtain ⟨hc, hf⟩ := hcause (hwait'.trans hwait)
    exact ⟨hc, hf.trans hspares.frame⟩

/-! The reset of a service NI ends (17 R378). -/

/-- Rink k resumes after its service NI's data path was reset. -/
def rinkResumed (s : State) (k : Nat) (s1 : State) : State :=
  { s1 with eng := { s1.eng with
    inbox := s1.eng.inbox.filter (fun a => !ofRink (nRinks s) k a.1)
    rings := mmap s1.eng.rings (fun q r => if q % nRinks s = k then { r with fetching := false } else r)
    slots := mmap s1.eng.slots (fun j e => if j / 8 = k then { e with running := e.running.map rinkJob } else e) } }

/-- What the control and journal units do again behind NI 120. -/
def journalResumed (s : State) : State :=
  if (rewriteRecs (restartCtl s)).ntf.fwdBusy then forwardEnd (rewriteRecs (restartCtl s)) 3 else rewriteRecs (restartCtl s)

theorem exec_rinkInResetRaise {s : State} {b : BitVec 3} (hsvc : isSvcNi s (svcNi b.toNat) = true)
    (hrst : (getNi s (svcNi b.toNat)).inRst = true) (hwarm : s.rst.warm = 0) : exec (.rinkInResetRaise b) s = answer s
      (updNi (if b.toNat = 0 then journalResumed (if b.toNat = 1 then restartAdmit (rinkResumed s b.toNat (niDataReset s (svcNi b.toNat)))
          else rinkResumed s b.toNat (niDataReset s (svcNi b.toNat)))
        else if b.toNat = 1 then restartAdmit (rinkResumed s b.toNat (niDataReset s (svcNi b.toNat)))
          else rinkResumed s b.toNat (niDataReset s (svcNi b.toNat))) (svcNi b.toNat) fun i => { i with inRst := false }) :=
  congrArg (answer s) (if_neg (by simp [hsvc, hrst, hwarm]))

theorem restartAdmit_eng (s : State) : restartAdmit s = { s with eng := (restartAdmit s).eng } := by
  unfold restartAdmit
  split <;> rfl

/-- A property of the answered state: the answer gives back the profile, the queue and the fuses. -/
theorem completes_of_answered {c : Instr} {s t : State} {P : State → Prop} (hexec : exec c s = answer s t)
    (hP : P { t with gen := s.gen, pending := s.pending, lcs := { t.lcs with fuse := s.lcs.fuse } }) : Completes c s P := ⟨_, hexec, hP⟩

theorem rink_reset_ends {s : State} {b : BitVec 3} {n : Nat} (hn : n = 120 + b.toNat) (hsvc : isSvcNi s n = true)
    (hrst : (getNi s n).inRst = true) (hwarm : s.rst.warm = 0) : Completes (.rinkInResetRaise b) s fun t =>
      (getNi t n).inRst = false ∧ (b ≠ 0 → (getNi t n).reqs = [] ∧ (getNi t n).trk = []) := by
  subst hn
  have hexec := exec_rinkInResetRaise hsvc hrst hwarm
  obtain ⟨-, hreqs, htrk, -⟩ := niDataReset_spec s (svcNi b.toNat)
  generalize niDataReset s (svcNi b.toNat) = u at hexec hreqs htrk
  have hkept : ∀ w, w = (if b.toNat = 1 then restartAdmit (rinkResumed s b.toNat u) else rinkResumed s b.toNat u) →
      getNi w (svcNi b.toNat) = getNi u (svcNi b.toNat) := by
    rintro w rfl
    split
    · rw [restartAdmit_eng]
      rfl
    · rfl
  generalize hv : ite (b.toNat = 0) _ _ = v at hexec
  have hlast : getNi (updNi v (svcNi b.toNat) fun i => { i with inRst := false }) (svcNi b.toNat) =
    { getNi v (svcNi b.toNat) with inRst := false } := getNi_updNi_same ..
  generalize updNi v (svcNi b.toNat) (fun i => { i with inRst := false }) = t at hexec hlast
  refine completes_of_answered hexec ⟨congrArg Ni.inRst hlast, fun hb => ?_⟩
  have hrink : b.toNat ≠ 0 := fun h => hb (BitVec.eq_of_toNat_eq h)
  rw [hkept v (hv.symm.trans (if_neg hrink))] at hlast
  exact ⟨(congrArg Ni.reqs hlast).trans hreqs, (congrArg Ni.trk hlast).trans htrk⟩

/-- Settles O45: in a run over the NIs that GLB_RST_NI names, each NI is as its own reset leaves it. -/
theorem niResetsBeginAndEnd : Obligations.NiResetsBeginAndEnd := by
  unfold Obligations.NiResetsBeginAndEnd
  refine ⟨fun s w mask => ?_, fun s n k hk => clock_lost hk, fun s b n hn => rink_reset_ends hn⟩
  have hwhole := niResetMask_block s w.toNat mask.toNat
  exact completes_of_answer (t := niResetMask s w.toNat mask.toNat) rfl (by rw [hwhole]) (by rw [hwhole]) (by rw [hwhole])
    ⟨fun j n hj hbit hn hrst hon hkind => named_in_reset hj hbit hn hrst hon hkind,
      fun j n hj hbit hn hep hen hrst hon => named_port_down hj hbit hn hrst hon hep hen, fun n hother => unnamed_kept hother⟩

end Sys2Proof.Machine
end

section
/-! SUPPORT. How a power request ends, and what it leaves unchanged (16 R352, R362). -/

namespace Sys2Proof.Machine

/-- t differs from s only in the listed words, and in what notifications, event counts and free values write. -/
structure NotedIn (l : List Nat) (s t : State) : Prop where
  whole : t = { s with regs := t.regs, nis := t.nis, ntf := t.ntf, flt := { s.flt with log := t.flt.log }, free := t.free }
  words : ∀ a, a ∉ l → noteWord a = false → rd t a = rd s a
  nis : ∀ m, SameNi s t m

theorem NotedIn.refl (l : List Nat) (s : State) : NotedIn l s s := ⟨rfl, fun _ _ _ => rfl, fun m => .refl s m⟩

theorem NotedIn.trans {l : List Nat} {s t u : State} (h : NotedIn l s t) (k : NotedIn l t u) : NotedIn l s u where
  whole := by
    rw [k.whole]
    conv_lhs => rw [h.whole]
  words a ha hfree := (k.words a ha hfree).trans (h.words a ha hfree)
  nis m := (h.nis m).trans (k.nis m)

theorem Noted.notedIn {s t : State} (h : Noted s t) (l : List Nat) : NotedIn l s t := ⟨h.whole, fun a _ => h.words a, h.nis⟩

theorem NotedIn.wr {l : List Nat} {a : Nat} (s : State) (v : Word) (h : a ∈ l) : NotedIn l s (wr s a v) :=
  ⟨rfl, fun b hb _ => rd_wr_ne _ _ _ _ fun e => hb (e ▸ h), fun m => .refl s m⟩

theorem NotedIn.setFlag {l : List Nat} {a : Nat} (s : State) (i : Nat) (h : a ∈ l) : NotedIn l s (setFlag s a i) := .wr s _ h

theorem NotedIn.ite {l : List Nat} {c : Prop} [Decidable c] {s t u : State} (ht : NotedIn l s t) (hu : NotedIn l s u) :
    NotedIn l s (if c then t else u) := by split <;> assumption

theorem NotedIn.pwr {l : List Nat} {s t : State} (h : NotedIn l s t) : t.pwr = s.pwr := by rw [h.whole]

theorem noteWord_aPwr {off : Nat} (h : off < 0x1000) : noteWord (aPwr off) = false := by
  unfold noteWord aPwr
  simp only [Bool.or_eq_false_iff, Bool.and_eq_false_iff, beq_eq_false_iff_ne, decide_eq_false_iff_not]
  omega

theorem SameNi.region {s t : State} {m : Nat} (h : SameNi s t m) : (getNi t m).region = (getNi s m).region :=
  congrArg (fun v => v.2.2.2.2.1) h.rst

/-! PWR_RESULT. -/

theorem rdF_pwrResult (s : State) (r : BitVec 24) (code : Nat) :
    rdF (pwrResult s r code) (aPwr 0x10) 63 56 = code % 256 ∧ rdF (pwrResult s r code) (aPwr 0x10) 55 32 = r.toNat := by
  have hr := r.isLt
  have hlow : r.toNat <<< 32 ||| frameOf s % 2 ^ 32 = r.toNat * 2 ^ 32 + frameOf s % 2 ^ 32 := by
    rw [Nat.shiftLeft_eq, Nat.mul_comm]
    exact (Nat.two_pow_add_eq_or_of_lt (Nat.mod_lt _ (by decide)) _).symm
  have hword : (code % 256) <<< 56 ||| r.toNat <<< 32 ||| frameOf s % 2 ^ 32 =
      (code % 256) * 2 ^ 56 + (r.toNat * 2 ^ 32 + frameOf s % 2 ^ 32) := by
    rw [Nat.or_assoc, hlow, Nat.shiftLeft_eq, Nat.mul_comm (code % 256)]
    exact (Nat.two_pow_add_eq_or_of_lt (by omega) _).symm
  unfold rdF pwrResult
  rw [rd_wr_same, hword]
  unfold fld
  rw [BitVec.toNat_ofNat, Nat.shiftRight_eq_div_pow, Nat.shiftRight_eq_div_pow]
  omega

theorem pwrResult_notedIn (s : State) (r : BitVec 24) (code : Nat) : NotedIn [aPwr 0x10, aPwr 0x18] s (pwrResult s r code) :=
  .wr s _ (by simp)

theorem pwrOutcome_notedIn (s : State) (r : BitVec 24) (code : Nat) : NotedIn [aPwr 0x10, aPwr 0x18] s (pwrOutcome s r code) := by
  have hend : ∀ (t : State) (i c sev info : Nat), NotedIn [aPwr 0x10, aPwr 0x18] t (raiseG (setFlag t (aPwr 0x18) i) 241 c sev info) :=
    fun t i c sev info => (NotedIn.setFlag t i (by simp)).trans ((noted_raiseG ..).notedIn _)
  exact (pwrResult_notedIn s r code).trans (.ite (hend ..) (.ite (.refl ..) (hend ..)))

theorem rd_pwrOutcome_result (s : State) (r : BitVec 24) (code : Nat) : rd (pwrOutcome s r code) (aPwr 0x10) = rd (pwrResult s r code) (aPwr 0x10) := by
  have hend : ∀ (t : State) (i c sev info : Nat), rd (raiseG (setFlag t (aPwr 0x18) i) 241 c sev info) (aPwr 0x10) = rd t (aPwr 0x10) :=
    fun t i c sev info => (rd_raiseG _ _ _ _ _ (noteWord_aPwr (by decide))).trans (rd_wr_ne _ _ _ _ (by decide))
  unfold pwrOutcome
  dsimp only
  split
  · exact hend ..
  · split
    · rfl
    · exact hend ..

/-- PWR_EVT of a request that ends: OK with code 0, ERR with another but SUPERSEDED. -/
theorem bitOf_pwrOutcome (s : State) (r : BitVec 24) {code i : Nat} (h : (code = 0 ∧ i = 0) ∨ (2 ≤ code ∧ i = 1)) :
    bitOf (rd (pwrOutcome s r code) (aPwr 0x18)) i = true := by
  have hend : ∀ (t : State) (j c sev info : Nat), j < 64 → bitOf (rd (raiseG (setFlag t (aPwr 0x18) j) 241 c sev info) (aPwr 0x18)) j = true :=
    fun t j c sev info hj => by
      rw [rd_raiseG _ _ _ _ _ (noteWord_aPwr (by decide))]
      exact bitOf_setFlag_same _ _ hj
  unfold pwrOutcome
  dsimp only
  obtain ⟨rfl, rfl⟩ | ⟨hcode, rfl⟩ := h
  · rw [if_pos rfl]
    exact hend _ _ _ _ _ (by decide)
  · rw [if_neg (by omega), if_neg (by omega)]
    exact hend _ _ _ _ _ (by decide)

/-- Flags of PWR_EVT stay set. -/
theorem bitOf_pwrOutcome_kept {s : State} {i : Nat} (r : BitVec 24) (code : Nat) (h : bitOf (rd s (aPwr 0x18)) i = true) :
    bitOf (rd (pwrOutcome s r code) (aPwr 0x18)) i = true := by
  have hresult : bitOf (rd (pwrResult s r code) (aPwr 0x18)) i = true := by
    rw [pwrResult, rd_wr_ne _ _ _ _ (by decide)]
    exact h
  have hend : ∀ (j c sev info : Nat), bitOf (rd (raiseG (setFlag (pwrResult s r code) (aPwr 0x18) j) 241 c sev info) (aPwr 0x18)) i = true :=
    fun j c sev info => by
      rw [rd_raiseG _ _ _ _ _ (noteWord_aPwr (by decide))]
      exact bitOf_setFlag _ _ hresult
  unfold pwrOutcome
  dsimp only
  split
  · exact hend ..
  · split
    · exact hresult
    · exact hend ..

/-! The set point. -/

theorem driveVid_spec (s : State) (code : Nat) (wait : Bool) : driveVid s code wait = { s with pwr := { s.pwr with
    vid := (driveVid s code wait).pwr.vid, vchg := (driveVid s code wait).pwr.vchg, pgood := (driveVid s code wait).pwr.pgood
    vwait := (driveVid s code wait).pwr.vwait } } := by
  unfold driveVid
  split <;> rfl

theorem vid_driveVid {s : State} {code : Nat} (wait : Bool) (h : code < 256) :
    (driveVid s code wait).pwr.vid = BitVec.ofNat 8 code ∧ (driveVid s code wait).pwr.vid.toNat = code := by
  have hcode : (BitVec.ofNat 8 code).toNat = code := by rw [BitVec.toNat_ofNat, Nat.mod_eq_of_lt h]
  unfold driveVid
  split
  · next heq => exact ⟨BitVec.eq_of_toNat_eq (heq.trans hcode.symm), heq⟩
  · exact ⟨rfl, hcode⟩

theorem driveVid_changes {s : State} {code : Nat} (wait : Bool) (h : s.pwr.vid.toNat ≠ code) : driveVid s code wait =
    { s with pwr := { s.pwr with vid := BitVec.ofNat 8 code, vchg := true, pgood := false, vwait := wait } } := if_neg h

theorem nth_vid_le (l : Nat) : nth [0x50, 0x40, 0x30, 0x24] l ≤ 0x50 := by
  match l with
  | 0 | 1 | 2 | 3 => decide
  | _ + 4 => exact Nat.zero_le _

theorem vidCode_lt (s : State) (l : Nat) : vidCode s l < 256 := by
  have hbase := nth_vid_le l
  have hmargin : rdF s (aPwr 0x30) (4 * l + 2) (4 * l) < 2 ^ (4 * l + 2 - 4 * l + 1) := fld_lt ..
  rw [show 4 * l + 2 - 4 * l + 1 = 3 by omega] at hmargin
  unfold vidCode
  omega

theorem vidCode_congr {s t : State} (h : rd t (aPwr 0x30) = rd s (aPwr 0x30)) (l : Nat) : vidCode t l = vidCode s l := by
  unfold vidCode rdF
  rw [h]

/-! The end of a request. -/

/-- How t stands to s after a request r has ended with a code: no change is in progress, the words of the outcome are written, and the
set point may follow a margin that waited. -/
structure PwrEnded (s t : State) (r : BitVec 24) (code : Nat) : Prop where
  whole : t = { s with
    regs := t.regs, nis := t.nis, ntf := t.ntf, flt := { s.flt with log := t.flt.log }, free := t.free
    pwr := { s.pwr with cur := none, vid := t.pwr.vid, vchg := t.pwr.vchg, pgood := t.pwr.pgood, vwait := t.pwr.vwait } }
  result : rdF t (aPwr 0x10) 63 56 = code % 256 ∧ rdF t (aPwr 0x10) 55 32 = r.toNat
  nis : ∀ m, SameNi s t m
  words : ∀ a, a ∉ [aPwr 0x10, aPwr 0x18] → noteWord a = false → rd t a = rd s a
  flags : ∀ i, bitOf (rd s (aPwr 0x18)) i = true → bitOf (rd t (aPwr 0x18)) i = true
  flag : ∀ i, (code = 0 ∧ i = 0) ∨ (2 ≤ code ∧ i = 1) → bitOf (rd t (aPwr 0x18)) i = true

/-- The outcome of a request that is no longer the change in progress. -/
def pwrOver (s : State) (r : BitVec 24) (code : Nat) (agedown : Bool) : State :=
  let s1 := pwrOutcome { s with pwr := { s.pwr with cur := none } } r code
  if agedown && code == 2 then raiseG s1 241 0x189 3 s1.pwr.lvl.toNat else s1

theorem pwrFinish_eq (s : State) (r : BitVec 24) (code : Nat) (agedown : Bool) : pwrFinish s r code agedown =
    if (pwrOver s r code agedown).pwr.vid.toNat = vidCode (pwrOver s r code agedown) (pwrOver s r code agedown).pwr.lvl.toNat
    then pwrOver s r code agedown
    else driveVid (pwrOver s r code agedown) (vidCode (pwrOver s r code agedown) (pwrOver s r code agedown).pwr.lvl.toNat) true := rfl

theorem pwrOver_ended (s : State) (r : BitVec 24) (code : Nat) (agedown : Bool) : PwrEnded s (pwrOver s r code agedown) r code ∧
    (pwrOver s r code agedown).pwr = { s.pwr with cur := none } := by
  have hnote := pwrOutcome_notedIn { s with pwr := { s.pwr with cur := none } } r code
  have hword := rd_pwrOutcome_result { s with pwr := { s.pwr with cur := none } } r code
  have hflag := fun i => bitOf_pwrOutcome { s with pwr := { s.pwr with cur := none } } r (code := code) (i := i)
  have hflags := fun i => bitOf_pwrOutcome_kept (s := { s with pwr := { s.pwr with cur := none } }) (i := i) r code
  have hresult := rdF_pwrResult { s with pwr := { s.pwr with cur := none } } r code
  have hover : ∃ v, pwrOver s r code agedown = v ∧ Noted (pwrOutcome { s with pwr := { s.pwr with cur := none } } r code) v := by
    refine ⟨_, rfl, ?_⟩
    unfold pwrOver
    dsimp only
    split
    · exact noted_raiseG ..
    · exact .refl _
  obtain ⟨v, hv, hnoted⟩ := hover
  rw [hv]
  generalize pwrOutcome { s with pwr := { s.pwr with cur := none } } r code = u at hnote hword hflag hflags hnoted
  have hall := hnote.trans (hnoted.notedIn _)
  have hwhole := hall.whole
  have h10 : rd v (aPwr 0x10) = rd (pwrResult { s with pwr := { s.pwr with cur := none } } r code) (aPwr 0x10) :=
    (hnoted.words _ (noteWord_aPwr (by decide))).trans hword
  have h18 : rd v (aPwr 0x18) = rd u (aPwr 0x18) := hnoted.words _ (noteWord_aPwr (by decide))
  refine ⟨⟨?_, ?_, hall.nis, hall.words, fun i h => ?_, fun i h => ?_⟩, hall.pwr⟩
  · rw [hwhole]
  · rw [rdF, rdF, h10]
    exact hresult
  · rw [h18]
    exact hflags i h
  · rw [h18]
    exact hflag i h

theorem PwrEnded.driveVid {s t : State} {r : BitVec 24} {code : Nat} (h : PwrEnded s t r code) (c : Nat) (wait : Bool) :
    PwrEnded s (driveVid t c wait) r code := by
  have hdrive := driveVid_spec t c wait
  have hregs : ∀ a, rd (Machine.driveVid t c wait) a = rd t a := fun a => by rw [hdrive]; rfl
  have hnis : ∀ m, getNi (Machine.driveVid t c wait) m = getNi t m := fun m => by rw [hdrive]; rfl
  obtain ⟨hwhole, hresult, hni, hwords, hflags, hflag⟩ := h
  refine ⟨?_, ?_, fun m => (hni m).trans (.of_eq (hnis m)), fun a ha hfree => (hregs a).trans (hwords a ha hfree), fun i h => ?_, fun i h => ?_⟩
  · rw [hdrive, hwhole]
  · rw [rdF, rdF, hregs]
    exact hresult
  · rw [hregs]
    exact hflags i h
  · rw [hregs]
    exact hflag i h

theorem pwrFinish_ended (s : State) (r : BitVec 24) (code : Nat) (agedown : Bool) : PwrEnded s (pwrFinish s r code agedown) r code := by
  obtain ⟨hended, -⟩ := pwrOver_ended s r code agedown
  rw [pwrFinish_eq]
  generalize pwrOver s r code agedown = u at hended
  split
  · exact hended
  · exact hended.driveVid ..

/-- Where pwr_vid stands at the code of the level in force, the end of a request leaves it. -/
theorem pwrFinish_vid {s : State} (r : BitVec 24) (code : Nat) (agedown : Bool) (h : s.pwr.vid.toNat = vidCode s s.pwr.lvl.toNat) :
    (pwrFinish s r code agedown).pwr.vid = s.pwr.vid := by
  obtain ⟨hended, hpwr⟩ := pwrOver_ended s r code agedown
  rw [pwrFinish_eq]
  generalize pwrOver s r code agedown = u at hended hpwr
  have hcode : vidCode u s.pwr.lvl.toNat = vidCode s s.pwr.lvl.toNat :=
    vidCode_congr (hended.words _ (by decide) (noteWord_aPwr (by decide))) _
  rw [hpwr]
  dsimp only
  rw [hcode, if_pos h, hpwr]

/-- With nothing that waits, nothing starts. -/
theorem pwrNext_idle {s : State} (f : Nat) (hpend : s.pwr.pend = none) (hforced : s.pwr.forced = none) : pwrNext s f = s := by
  cases f with
  | zero => rfl
  | succ f =>
    unfold pwrNext
    split
    · rfl
    · rw [hforced]
      dsimp only
      rw [hpend]

theorem PwrEnded.next {s t : State} {r : BitVec 24} {code : Nat} (h : PwrEnded s t r code) (f : Nat) (hpend : s.pwr.pend = none)
    (hforced : s.pwr.forced = none) : pwrNext t f = t := by
  have hwhole := h.whole
  exact pwrNext_idle f (by rw [hwhole, hpend]) (by rw [hwhole, hforced])

theorem PwrEnded.cur {s t : State} {r : BitVec 24} {code : Nat} (h : PwrEnded s t r code) : t.pwr.cur = none := by rw [h.whole]

theorem PwrEnded.regionOf {s t : State} {r : BitVec 24} {code : Nat} (h : PwrEnded s t r code) (k i : Nat) : regionOf t k i = regionOf s k i := by
  have hpwr : t.pwr.cols = s.pwr.cols ∧ t.pwr.rinks = s.pwr.rinks := by rw [h.whole]; exact ⟨rfl, rfl⟩
  unfold Machine.regionOf
  rw [hpwr.1, hpwr.2, (h.nis i).region]

theorem completes_of_pwrEnded {c : Instr} {s t : State} {r : BitVec 24} {code : Nat} {P : State → Prop} (hexec : exec c s = answer s t)
    (h : PwrEnded s t r code) (hP : P t) : Completes c s P := by
  have hwhole := h.whole
  exact completes_of_answer hexec (by rw [hwhole]) (by rw [hwhole]) (by rw [hwhole]) hP

end Sys2Proof.Machine
end

section
/-! PROOF. A power request starts its change, waits, or ends with its code (16 R348 to R362; for O41). -/

namespace Sys2Proof.Machine

/-! What a request becomes at once (16 R351, R353, R355, R360). -/

/-- q is the change in progress. -/
def inProgress (s : State) (q : PwrReq) : State := { s with pwr := { s.pwr with cur := some q } }

theorem notAct {r : BitVec 24} (hk : reqKind r ≠ 3) (ha : reqAction r ≤ 4) : ¬ (5 ≤ reqAction r ∨ reqKind r = 3) := by omega

section
variable {s : State} {r : BitVec 24} (hk : reqKind r ≠ 3)
include hk

theorem pwrTry_barred (ha : reqAction r = 0)
    (hbar : bitOf (rd s (aPwr 0x20)) (16 + reqLevel r) = false ∨ bitOf (rd s (aPwr 0x108)) (reqLevel r) = true) :
    pwrTry s { req := r } = .error 0x0C := by
  have hbarred : ((!bitOf (rd s (aPwr 0x20)) (16 + reqLevel r) && !false) || bitOf (rd s (aPwr 0x108)) (reqLevel r)) = true := by
    obtain h | h := hbar <;> simp [h]
  exact (if_neg (notAct hk (by omega))).trans ((if_pos ha).trans (if_pos hbarred))

theorem pwrTry_level (ha : reqAction r = 0) (hallowed : bitOf (rd s (aPwr 0x20)) (16 + reqLevel r) = true)
    (hfree : bitOf (rd s (aPwr 0x108)) (reqLevel r) = false) (hne : reqLevel r ≠ s.pwr.lvl.toNat) : pwrTry s { req := r } =
      if s.pwr.lvl.toNat < reqLevel r then .ok (inProgress s { req := r, phase := 1, readyNs := nowNs s })
      else .ok (if (driveVid (inProgress s { req := r, phase := 5, deadline := nowNs s + 1000 * max 1 (rdF s (aPwr 0x20) 31 24), readyNs := nowNs s })
          (vidCode s (reqLevel r)) true).pwr.vwait
        then driveVid (inProgress s { req := r, phase := 5, deadline := nowNs s + 1000 * max 1 (rdF s (aPwr 0x20) 31 24), readyNs := nowNs s })
          (vidCode s (reqLevel r)) true
        else setPhase (driveVid (inProgress s
          { req := r, phase := 5, deadline := nowNs s + 1000 * max 1 (rdF s (aPwr 0x20) 31 24), readyNs := nowNs s }) (vidCode s (reqLevel r)) true) 1) := by
  have hgo : ¬ (((!bitOf (rd s (aPwr 0x20)) (16 + reqLevel r) && !false) || bitOf (rd s (aPwr 0x108)) (reqLevel r)) = true) := by
    simp [hallowed, hfree]
  exact (if_neg (notAct hk (by omega))).trans ((if_pos ha).trans ((if_neg hgo).trans (if_neg hne)))

theorem pwrTry_slower (ha : reqAction r = 0) (hallowed : bitOf (rd s (aPwr 0x20)) (16 + reqLevel r) = true)
    (hfree : bitOf (rd s (aPwr 0x108)) (reqLevel r) = false) (hlt : s.pwr.lvl.toNat < reqLevel r) :
    pwrTry s { req := r } = .ok (inProgress s { req := r, phase := 1, readyNs := nowNs s }) :=
  (pwrTry_level hk ha hallowed hfree (by omega)).trans (if_pos hlt)

theorem pwrTry_faster (ha : reqAction r = 0) (hallowed : bitOf (rd s (aPwr 0x20)) (16 + reqLevel r) = true)
    (hfree : bitOf (rd s (aPwr 0x108)) (reqLevel r) = false) (hlt : reqLevel r < s.pwr.lvl.toNat)
    (hvid : s.pwr.vid.toNat ≠ vidCode s (reqLevel r)) : pwrTry s { req := r } = .ok { s with pwr := { s.pwr with
      cur := some { req := r, phase := 5, deadline := nowNs s + 1000 * max 1 (rdF s (aPwr 0x20) 31 24), readyNs := nowNs s }
      vid := BitVec.ofNat 8 (vidCode s (reqLevel r)), vchg := true, pgood := false, vwait := true } } := by
  refine (pwrTry_level hk ha hallowed hfree (by omega)).trans ((if_neg (by omega)).trans (congrArg Except.ok ?_))
  rw [driveVid_changes true (s := inProgress s _) hvid]
  exact if_pos rfl

section
variable (hlo : 1 ≤ reqAction r) (hhi : reqAction r ≤ 3) (hex : regionExists s (reqKind r) (reqIndex r) = true)
  (hon : regionOf s (reqKind r) (reqIndex r) = 0)
include hlo hhi hex hon

theorem pwrTry_sleep : pwrTry s { req := r } = match sleepRefusal s (reqKind r) (reqIndex r) with
    | some c => .error c
    | none => if reqKind r = 0 then .ok (inProgress s { req := r, phase := 2, readyNs := nowNs s }) else .ok (drainBegin s { req := r }) := by
  have h0 : ¬ reqAction r = 0 := by omega
  have h4 : ¬ reqAction r = 4 := by omega
  have hwant : ¬ (regionOf s (reqKind r) (reqIndex r) = if reqAction r = 4 then 0 else reqAction r) := by
    rw [hon, if_neg h4]
    omega
  refine (if_neg (notAct hk (by omega))).trans ((if_neg h0).trans ((if_neg (by simp [hex])).trans ((if_neg hwant).trans
    ((if_neg h4).trans ?_))))
  dsimp only
  rw [if_pos (.inr hon)]
  cases sleepRefusal s (reqKind r) (reqIndex r) with
  | some c => rfl
  | none => exact if_pos hon

theorem pwrTry_refused {e : Nat} (h : sleepRefusal s (reqKind r) (reqIndex r) = some e) : pwrTry s { req := r } = .error e := by
  rw [pwrTry_sleep hk hlo hhi hex hon, h]

theorem pwrTry_column (h0 : reqKind r = 0) (h : sleepRefusal s (reqKind r) (reqIndex r) = none) :
    pwrTry s { req := r } = .ok (inProgress s { req := r, phase := 2, readyNs := nowNs s }) := by
  rw [pwrTry_sleep hk hlo hhi hex hon, h]
  exact if_pos h0

theorem pwrTry_drain (h0 : reqKind r ≠ 0) (h : sleepRefusal s (reqKind r) (reqIndex r) = none) :
    pwrTry s { req := r } = .ok (drainBegin s { req := r }) := by
  rw [pwrTry_sleep hk hlo hhi hex hon, h]
  exact if_neg h0

end

theorem pwrTry_wake (ha : reqAction r = 4) (hex : regionExists s (reqKind r) (reqIndex r) = true)
    (hwest : reqKind r = 0 → ∀ c, c < reqIndex r → regionOf s 0 c = 0) (hst : regionOf s (reqKind r) (reqIndex r) ≠ 0) :
    pwrTry s { req := r } =
      if regionOf s (reqKind r) (reqIndex r) = 1 then .ok (inProgress s { req := r, phase := 7, readyNs := nowNs s })
      else if regionOf s (reqKind r) (reqIndex r) = 2 then .ok (inProgress s { req := r, phase := 5, readyNs := nowNs s + 8000 })
      else .ok (inProgress s { req := r, phase := 6, readyNs := nowNs s + 20000 }) := by
  have h0 : ¬ reqAction r = 0 := by omega
  have hwant : ¬ (regionOf s (reqKind r) (reqIndex r) = if reqAction r = 4 then 0 else reqAction r) := by rwa [if_pos ha]
  have horder : ¬ (reqKind r = 0 ∧ ((List.range (reqIndex r)).any fun c => regionOf s 0 c != 0) = true) := by
    rintro ⟨h0, hany⟩
    obtain ⟨c, hc, hne⟩ := List.any_eq_true.mp hany
    exact bne_iff_ne.mp hne (hwest h0 c (List.mem_range.mp hc))
  exact (if_neg (notAct hk (by omega))).trans ((if_neg h0).trans ((if_neg (by simp [hex])).trans ((if_neg hwant).trans
    ((if_pos ha).trans (if_neg horder)))))

end

/-! A write of PWR_REQ (16 R352). -/

section
variable {s : State} {m : Master} {req : BitVec 32} {r : BitVec 24} {c : Instr} (hr : r = req.extractLsb' 0 24) (hmay : pwrMay s m = true)
  (hc : (c = .pwrSetLevel m req ∧ reqAction r = 0) ∨ (c = .pwrCg m req ∧ reqAction r = 1) ∨ (c = .pwrRet m req ∧ reqAction r = 2) ∨
    (c = .pwrOff m req ∧ reqAction r = 3) ∨ (c = .pwrWake m req ∧ reqAction r = 4))
include hr hmay hc

theorem exec_pwrReq : exec c s = answer s (pwrWrite s r) := by
  have hcmd : ∀ a, reqAction r = a → pwrCmd s m req a = pwrWrite s r := fun a ha => by
    subst hr
    exact if_pos (by rw [hmay, ha]; exact (Bool.true_and _).trans (beq_self_eq_true _))
  obtain ⟨rfl, ha⟩ | ⟨rfl, ha⟩ | ⟨rfl, ha⟩ | ⟨rfl, ha⟩ | ⟨rfl, ha⟩ := hc <;> exact congrArg (answer s) (hcmd _ ha)

theorem exec_pwrReq_waits (hcur : s.pwr.cur.isSome = true) (hpend : s.pwr.pend = none) :
    exec c s = answer s { s with pwr := { s.pwr with pend := some r } } := by
  refine (exec_pwrReq hr hmay hc).trans (congrArg (answer s) ?_)
  unfold pwrWrite
  rw [hpend]
  exact if_pos hcur

theorem exec_pwrReq_supersedes {o : BitVec 24} (hcur : s.pwr.cur.isSome = true) (hpend : s.pwr.pend = some o) :
    exec c s = answer s { pwrResult s o 1 with pwr := { s.pwr with pend := some r } } := by
  refine (exec_pwrReq hr hmay hc).trans (congrArg (answer s) ?_)
  unfold pwrWrite
  rw [hpend]
  exact if_pos hcur

end

/-- With no change in progress a request that starts is the change in progress, and one that ends does so at once. -/
theorem pwrWrite_fresh {s : State} {r : BitVec 24} (hcur : s.pwr.cur = none) (hpend : s.pwr.pend = none) (hforced : s.pwr.forced = none) :
    (∀ t, pwrTry s { req := r } = .ok t → pwrWrite s r = t) ∧
    (∀ e, pwrTry s { req := r } = .error e → pwrWrite s r = pwrFinish s r e false) := by
  have hback : { s with pwr := { s.pwr with pend := none } } = s := by rw [← hpend]
  have hwrite : pwrWrite s r = match pwrTry { s with pwr := { s.pwr with pend := none } } { req := r } with
      | .ok t => t
      | .error e => pwrNext (pwrFinish { s with pwr := { s.pwr with pend := none } } r e false) 2 := by
    unfold pwrWrite
    rw [hpend]
    dsimp only
    rw [pwrNext]
    dsimp only
    rw [hcur, hforced]
    exact if_neg (by decide)
  rw [hback] at hwrite
  refine ⟨fun t ht => ?_, fun e he => ?_⟩
  · rw [hwrite, ht]
  · rw [hwrite, he]
    exact (pwrFinish_ended s r e false).next 2 hpend hforced

/-! The drain of a region begins (16 R355, R356). -/

/-- The request waits for its region's drain. -/
def drainAwaited (s : State) (q : PwrReq) : State := inProgress s { q with phase := 3, deadline := nowNs s + 65536 }

theorem moveJobs_eng (s : State) (b : Nat) : moveJobs s b = { s with eng := (moveJobs s b).eng } := by
  have hslot : ∀ (t : State) (k : Nat) (f : EngSlot → EngSlot), Keeps (fun u : State => { u with eng := s.eng }) t (updSlot t k f) := fun _ _ _ => rfl
  have hpush : ∀ (t : State) (k : Nat) (l : List Job), Keeps (fun u : State => { u with eng := s.eng }) t (pushOn t k l).2 := fun t k l => by
    unfold pushOn
    exact .ite (.refl _ t) rfl
  have hkeep : Keeps (fun t : State => { t with eng := s.eng }) s (moveJobs s b) := by
    refine Keeps.foldl (fun t j _ => Keeps.foldl (fun u job _ => ?_) t) s
    split
    · exact .ite ((hslot u _ _).trans (hpush ..)) (.refl _ u)
    · rfl
  generalize moveJobs s b = t at hkeep ⊢
  exact congrArg (fun u : State => { u with eng := t.eng }) hkeep

theorem drain_memberDrain (s : State) (n : Nat) : (getNi (memberDrain s n) n).drain = (getNi s n).drain := by
  refine Keeps.foldl (g := fun t : State => (getNi t n).drain) (fun t p _ => ?_) s
  split
  · refine .ite rfl ?_
    unfold Keeps sendMemberAnswer
    simp only [getNi_updNi_same]
  · rfl

theorem drain_portAsked (s : State) (n : Nat) : (getNi (portAsked s n) n).drain = (getNi s n).drain := by
  unfold portAsked portResetBegin answerMembers updPort
  simp only [getNi_updNi_same, drain_memberDrain]

/-- An NI's drain, seen past its resets. -/
theorem drainBegin_ni {s : State} {n : Nat} (discard : Bool) : NiBlock n s (drainHandshake (startDrain s n discard) n) ∧
    (getNi (drainHandshake (startDrain s n discard) n) n).drain.active = true := by
  have hblock : NiBlock n s (startDrain s n discard) := (NiBlock.updNi n s _).trans (.wr _ _ (inBlock_aNi n (by decide)))
  have hactive : (getNi (startDrain s n discard) n).drain.active = true := by
    unfold startDrain drainReg
    simp only [getNi_wr, getNi_updNi_same]
  generalize startDrain s n discard = u at hblock hactive
  unfold drainHandshake
  dsimp only
  split
  · exact ⟨hblock.trans (portAsked_spec u n).1, (congrArg Drain.active (drain_portAsked u n)).trans hactive⟩
  · exact ⟨hblock, hactive⟩

/-- The drain of a rink or of an NI begins with its request in progress; a drained NI takes no header from here. -/
theorem drainBegin_spec (s : State) (r : BitVec 24) : (drainBegin s { req := r }).gen = s.gen ∧ (drainBegin s { req := r }).pending = s.pending ∧
    (drainBegin s { req := r }).lcs.fuse = s.lcs.fuse ∧     (drainBegin s { req := r }).pwr.cur = some { req := r, phase := 3, deadline := nowNs s + 65536 } ∧
    (reqKind r = 2 → (getNi (drainBegin s { req := r }) (reqIndex r)).drain.active = true) := by
  have hbegin : drainBegin s { req := r } = match reqKind r with
      | 1 => moveJobs (drainAwaited s { req := r }) (reqIndex r)
      | 2 => drainHandshake (startDrain (drainAwaited s { req := r }) (reqIndex r) (reqDiscard r)) (reqIndex r)
      | _ => drainAwaited s { req := r } := rfl
  have hwait : (drainAwaited s { req := r }).gen = s.gen ∧ (drainAwaited s { req := r }).pending = s.pending ∧
      (drainAwaited s { req := r }).lcs.fuse = s.lcs.fuse ∧ (drainAwaited s { req := r }).pwr.cur = some { req := r, phase := 3, deadline := nowNs s + 65536 } := ⟨rfl, rfl, rfl, rfl⟩
  obtain ⟨hgen, hpending, hfuse, hcur⟩ := hwait
  generalize drainAwaited s { req := r } = u at hbegin hgen hpending hfuse hcur
  rw [hbegin]
  split
  case h_1 h =>
    rw [moveJobs_eng]
    exact ⟨hgen, hpending, hfuse, hcur, fun h2 => absurd (h.symm.trans h2) (by decide)⟩
  case h_2 h =>
    obtain ⟨hblock, hactive⟩ := drainBegin_ni (s := u) (n := reqIndex r) (reqDiscard r)
    have hwhole := hblock.whole
    exact ⟨by rw [hwhole, hgen], by rw [hwhole, hpending], by rw [hwhole, hfuse], by rw [hwhole, hcur], fun _ => hactive⟩
  case h_3 hne => exact ⟨hgen, hpending, hfuse, hcur, fun h2 => absurd h2 hne⟩

/-- Settles O41: each request's start is the branch of the model that its action, its region and the set of conditions select, and a request that
ends at once leaves the words of its outcome. -/
theorem powerRequestsStartOrWait : Obligations.PowerRequestsStartOrWait := by
  unfold Obligations.PowerRequestsStartOrWait
  rintro s m req r c k i l hr hmay hc rfl rfl rfl
  have hexec := exec_pwrReq hr hmay hc
  refine ⟨fun hcur hpend => ?waits, fun o hcur hpend => ?superseded, fun hcur hpend hforced hk => ?fresh⟩
  case waits => exact completes_of_answer (exec_pwrReq_waits hr hmay hc hcur hpend) rfl rfl rfl rfl
  case superseded =>
    obtain ⟨hcode, hreq⟩ := rdF_pwrResult s o 1
    exact completes_of_answer (exec_pwrReq_supersedes hr hmay hc hcur hpend) rfl rfl rfl ⟨hcode, hreq, wordsBut_wr s _ _, rfl⟩
  case fresh =>
    obtain ⟨hstart, hend⟩ := pwrWrite_fresh (r := r) hcur hpend hforced
    have hok : ∀ {t : State} {P : State → Prop}, pwrTry s { req := r } = .ok t → t.gen = s.gen → t.pending = s.pending →
        t.lcs.fuse = s.lcs.fuse → P t → Completes c s P := fun htry => completes_of_answer (hexec.trans (congrArg (answer s) (hstart _ htry)))
    have hover : ∀ {e : Nat} {P : State → Prop}, pwrTry s { req := r } = .error e → P (pwrFinish s r e false) → Completes c s P :=
      fun {e P} htry hP => completes_of_pwrEnded (hexec.trans (congrArg (answer s) (hend e htry))) (pwrFinish_ended s r e false) hP
    refine ⟨fun ha hallowed hfree => ⟨fun hlt => ?slower, fun hlt hvid => ?faster⟩, fun ha hbar => ?barred,
      fun hlo hhi hex hon => ⟨fun h0 hnone => ?column, fun h0 hnone => ?drains, fun e he => ?refused⟩, fun ha hex hwest => ⟨fun h => ?fromCg, fun h => ?fromRet, fun h => ?fromOff⟩⟩
    case slower => exact hok (pwrTry_slower hk ha hallowed hfree hlt) rfl rfl rfl rfl
    case faster => exact hok (pwrTry_faster hk ha hallowed hfree hlt hvid) rfl rfl rfl rfl
    case barred =>
      refine hover (pwrTry_barred hk ha hbar) ?_
      obtain ⟨hcode, hreq⟩ := (pwrFinish_ended s r 0x0C false).result
      exact ⟨hcode, hreq, (pwrFinish_ended s r 0x0C false).flag 1 (.inr ⟨by decide, rfl⟩), (pwrFinish_ended s r 0x0C false).cur⟩
    case column => exact hok (pwrTry_column hk hlo hhi hex hon h0 hnone) rfl rfl rfl rfl
    case drains =>
      obtain ⟨hgen, hpending, hfuse, hwait, hactive⟩ := drainBegin_spec s r
      exact hok (pwrTry_drain hk hlo hhi hex hon h0 hnone) hgen hpending hfuse ⟨hwait, hactive⟩
    case refused =>
      have hended := pwrFinish_ended s r e false
      exact hover (pwrTry_refused hk hlo hhi hex hon he) ⟨hended.result.1, hended.result.2, hended.cur, (hended.regionOf _ _).trans hon⟩
    case fromCg => exact hok ((pwrTry_wake hk ha hex hwest (by omega)).trans (if_pos h)) rfl rfl rfl rfl
    case fromRet => exact hok ((pwrTry_wake hk ha hex hwest (by omega)).trans ((if_neg (by omega)).trans (if_pos h))) rfl rfl rfl rfl
    case fromOff => exact hok ((pwrTry_wake hk ha hex hwest (by omega)).trans ((if_neg (by omega)).trans (if_neg (by omega)))) rfl rfl rfl rfl

end Sys2Proof.Machine
end

section
/-! PROOF. A change in progress advances with pwr_pgood, the drain and the time, and ends with its code (16 R347 to R360; for O42). -/

namespace Sys2Proof.Machine

/-! What the power manager holds, past the clamps. -/

/-- The part of the state that neither a clamp nor a lost region enters. -/
def powerView (s : State) : Gen × Pwr × List Instr × Lcs := (s.gen, s.pwr, s.pending, s.lcs)

/-- What is outside the NIs, the routers, the engines and the words stands. -/
abbrev KeepsPower (s t : State) : Prop := Keeps powerView s t

theorem setHome_keepsPower (s : State) (n : Nat) : KeepsPower s (setHome s n) := Keeps.foldl (fun _ _ _ => by rfl) s

theorem setLinks_keepsPower (s : State) (x : Nat) (up : Bool) : KeepsPower s (setLinks s x up) :=
  Keeps.foldl (fun t port _ => by dsimp only; split <;> rfl) s

theorem freshLinks_keepsPower (s : State) (x : Nat) : KeepsPower s (freshLinks s x) :=
  Keeps.foldl (fun t port _ => by split <;> rfl) s

theorem attReset_keepsPower (s : State) (n : Nat) (alt : Bool) : KeepsPower s (attReset s n alt) := rfl

theorem clampCol_keepsPower (s : State) (c : Nat) : KeepsPower s (clampCol s c) := by
  have hcol : ∀ t n, KeepsPower t (attResetCol t c n) := fun t n => by
    have hgo : ∀ (u : State) (alt : Bool), KeepsPower u (if rtrCol u (attRtr (homeAt u 0 n) alt) == c then attReset u n alt else u) :=
      fun u alt => .ite rfl (.refl _ u)
    exact (hgo t false).trans (hgo _ true)
  exact (Keeps.foldl (fun t x _ => (setLinks_keepsPower t x false).trans (freshLinks_keepsPower _ x)) s).trans
    (Keeps.foldl (fun t n _ => hcol t n) _)

theorem clampNi_keepsPower (s : State) (n : Nat) : KeepsPower s (clampNi s n) :=
  (Keeps.trans (t := updPort s n clampPort) rfl (setHome_keepsPower _ n)).trans ((attReset_keepsPower _ n false).trans (attReset_keepsPower _ n true))

theorem wordsReset_keepsPower (s : State) (base size : Nat) (p : Nat → Bool) : KeepsPower s (wordsReset s base size p) :=
  Keeps.foldl (fun _ _ _ => by rfl) s

theorem loseRegion_keepsPower (s : State) (kind i : Nat) : KeepsPower s (loseRegion s kind i) := by
  unfold loseRegion
  split
  · exact Keeps.foldl (fun t x _ => Keeps.trans (by rfl : KeepsPower t (updRtr t x _)) (wordsReset_keepsPower ..)) s
  · exact Keeps.foldl (fun _ _ _ => by rfl) s
  · exact Keeps.trans (t := updNi s i _) rfl (wordsReset_keepsPower ..)

theorem self_mem_insertNat (l : List Nat) (k : Nat) : k ∈ insertNat l k := by
  induction l with
  | nil => exact List.mem_singleton.mpr rfl
  | cons a l ih =>
    rw [insertNat]
    split
    · next h => exact h ▸ List.mem_cons_self ..
    · split
      · exact List.mem_cons_self ..
      · exact List.mem_cons_of_mem a ih

/-- A drained region whose conditions hold waits for the end of its entry, and one that is unpowered keeps its save list. -/
theorem entryClamp_spec {s : State} {q : PwrReq} (h : sleepRefusal s (reqKind q.req) (reqIndex q.req) = none) :
    (entryClamp s q).gen = s.gen ∧ (entryClamp s q).pending = s.pending ∧ (entryClamp s q).lcs = s.lcs ∧
    (entryClamp s q).pwr.cur = some { q with phase := 5, readyNs := nowNs s + entryNs s 0 (reqAction q.req) } ∧
    (reqAction q.req = 3 → regionKey (reqKind q.req) (reqIndex q.req) ∈ (entryClamp s q).pwr.saved) := by
  obtain ⟨u, hu, hkeep⟩ : ∃ u : State, entryClamp s q = (if reqAction q.req = 3 then loseRegion { u with pwr := { u.pwr with
        saved := insertNat u.pwr.saved (regionKey (reqKind q.req) (reqIndex q.req)) } } (reqKind q.req) (reqIndex q.req) else u) ∧
      KeepsPower (inProgress s { q with phase := 5, readyNs := nowNs s + entryNs s 0 (reqAction q.req) }) u := by
    unfold entryClamp
    dsimp only
    rw [h]
    refine ⟨_, rfl, ?_⟩
    split
    · exact clampCol_keepsPower ..
    · exact clampNi_keepsPower ..
    · rfl
  rw [hu]
  simp only [Keeps, powerView, Prod.mk.injEq] at hkeep
  obtain ⟨hgen, hpwr, hpending, hlcs⟩ := hkeep
  split
  · have hlose := loseRegion_keepsPower { u with pwr := { u.pwr with
        saved := insertNat u.pwr.saved (regionKey (reqKind q.req) (reqIndex q.req)) } } (reqKind q.req) (reqIndex q.req)
    simp only [Keeps, powerView, Prod.mk.injEq] at hlose
    obtain ⟨hgen', hpwr', hpending', hlcs'⟩ := hlose
    refine ⟨hgen'.trans hgen, hpending'.trans hpending, hlcs'.trans hlcs, ?_, fun _ => ?_⟩
    · rw [hpwr', hpwr]
      rfl
    · rw [hpwr']
      exact self_mem_insertNat ..
  · next hne => exact ⟨hgen, hpending, hlcs, by rw [hpwr]; rfl, fun h3 => absurd h3 hne⟩

/-! The change in progress ends. -/

/-- t has the power manager of s but for the route set that comes back, its regions and its flags. -/
structure SamePower (s t : State) : Prop where
  gen : t.gen = s.gen
  pending : t.pending = s.pending
  fuse : t.lcs.fuse = s.lcs.fuse
  pwr : t.pwr = { s.pwr with back := t.pwr.back }
  evt : rd t (aPwr 0x18) = rd s (aPwr 0x18)
  region : ∀ m, (getNi t m).region = (getNi s m).region

theorem SamePower.refl (s : State) : SamePower s s := ⟨rfl, rfl, rfl, rfl, rfl, fun _ => rfl⟩

theorem not_inBlock_aPwr (n : Nat) {off : Nat} (h : off < 0x1000) : ¬ InBlock n (aPwr off) := by
  unfold InBlock aNi aPwr
  omega

theorem NiWork.samePower {n : Nat} {s t : State} (h : NiWork n s t) : SamePower s t := by
  have hwhole := h.whole
  refine ⟨by rw [hwhole], by rw [hwhole], by rw [hwhole], by rw [hwhole], h.words _ (not_inBlock_aPwr n (by decide)) (noteWord_aPwr (by decide)), fun m => ?_⟩
  by_cases hm : m = n
  · subst hm
    exact congrArg (fun v => v.2.2.2.2.1) h.kept
  · exact (h.nis m hm).region

theorem SamePower.regionOf {s t : State} (h : SamePower s t) (k i : Nat) : regionOf t k i = regionOf s k i := by
  unfold Machine.regionOf
  rw [h.pwr, h.region]

theorem pwrEnd_eq {s : State} {q : PwrReq} (code : Nat) (hcur : s.pwr.cur = some q) (hpend : s.pwr.pend = none) (hforced : s.pwr.forced = none) :
    pwrEnd s code = pwrFinish s q.req code q.agedown := by
  unfold pwrEnd
  rw [hcur]
  exact (pwrFinish_ended ..).next 3 hpend hforced

theorem drainReg_niWork (s : State) (n : Nat) : NiWork n s (drainReg s n) := .wr s _ (inBlock_aNi n (by decide))

theorem drainExpire_niWork (s : State) (n : Nat) : NiWork n s (drainExpire s n) := by
  have hflag : NiWork n s (setFlag s (aNi n 0x100) 3) := .setFlag s 3 (inBlock_aNi n (by decide))
  have hend : ∀ (t : State) (f : Drain → Drain), NiWork n t (drainReg (updNi t n fun i => { i with drain := f i.drain }) n) :=
    fun t f => (NiWork.updNi n t fun _ => by rfl).trans (drainReg_niWork ..)
  have hnote : ∀ (t : State) (v : Nat), NiWork n t (if v = 0 then t else raiseNi t n 0x102 1 v 15) :=
    fun t v => .ite (.refl n t) ((noted_raiseNi ..).niWork n)
  unfold drainExpire
  dsimp only
  split
  · refine hflag.trans ((discardWrites_niWork _ n none).trans ?_)
    refine (hnote _ (discardWrites (setFlag s (aNi n 0x100) 3) n none).1).trans ?_
    exact (NiWork.incSat _ _ (inBlock_aNi n (by decide))).trans (hend _ fun d => { d with active := false })
  · exact hflag.trans (hend _ fun d => { d with active := false, timedOut := true })

/-- The attachments come back at routers, which have no word of the power manager. -/
theorem colBack_samePower (s : State) (c : Nat) {q : PwrReq} (h : s.pwr.cur = some q) :
    SamePower s { (colBack s c) with pwr := { (colBack s c).pwr with cur := some q } } := by
  have hhome : ∀ (l : List Nat) (t : State), KeepsPower t (l.foldl setHome t) := fun l => Keeps.foldl fun t n _ => setHome_keepsPower t n
  have hword : ∀ (l : List Nat) (t : State), Keeps (fun u => (rd u (aPwr 0x18), u.nis)) t (l.foldl setHome t) := fun l =>
    Keeps.foldl fun t n _ => Keeps.foldl (fun u x _ => by
      unfold Keeps setHomeAt
      dsimp only
      rw [wrF, rd_wr_ne _ _ _ _ (by unfold aPwr aRtr; omega), wrF, rd_wr_ne _ _ _ _ (by unfold aPwr aRtr; omega)]
      rfl) t
  have hback : colBack s c = (colNis s c).foldl setHome { s with pwr := { s.pwr with back := some (nCols s - c - 1), cur := none } } := rfl
  have hkeep := hhome (colNis s c) { s with pwr := { s.pwr with back := some (nCols s - c - 1), cur := none } }
  have hrest := hword (colNis s c) { s with pwr := { s.pwr with back := some (nCols s - c - 1), cur := none } }
  rw [← hback] at hkeep hrest
  generalize colBack s c = u at hkeep hrest
  simp only [Keeps, powerView, Prod.mk.injEq] at hkeep hrest
  obtain ⟨hgen, hpwr, hpending, hlcs⟩ := hkeep
  obtain ⟨hevt, hnis⟩ := hrest
  refine ⟨hgen, hpending, congrArg Lcs.fuse hlcs, ?_, hevt, fun m => congrArg (fun l => (mgetD l m {}).region) hnis⟩
  dsimp only
  rw [hpwr, ← h]

/-- An entry that fails: the request ends with the code and its region stays as it is. -/
theorem entryFails_spec {s : State} {q : PwrReq} (code : Nat) (hcur : s.pwr.cur = some q) (hpend : s.pwr.pend = none) (hforced : s.pwr.forced = none) :
    ∃ t, SamePower s t ∧ entryFails s q code = pwrFinish t q.req code q.agedown := by
  have hdrain : SamePower s (drainReg (updNi s (reqIndex q.req) fun n => { n with drain := { n.drain with active := false } }) (reqIndex q.req)) :=
    ((NiWork.updNi _ s fun _ => by rfl).trans (drainReg_niWork ..)).samePower
  have hend : ∀ {t : State}, SamePower s t → pwrEnd t code = pwrFinish t q.req code q.agedown := fun {t} h => by
    have hpwr := h.pwr
    exact pwrEnd_eq code (by rw [hpwr, hcur]) (by rw [hpwr, hpend]) (by rw [hpwr, hforced])
  unfold entryFails
  dsimp only
  split
  · split
    · exact ⟨_, colBack_samePower s _ hcur, hend (colBack_samePower s _ hcur)⟩
    · exact ⟨s, .refl s, hend (.refl s)⟩
  · exact ⟨_, hdrain, hend hdrain⟩
  · exact ⟨s, .refl s, hend (.refl s)⟩

/-- A region takes a state of two bits. -/
theorem regionOf_setRegion (s : State) (k i : Nat) {st : Nat} (h : st < 4) : regionOf (setRegion s k i st) k i = st := by
  have hst : (BitVec.ofNat 2 st).toNat = st := by rw [BitVec.toNat_ofNat, Nat.mod_eq_of_lt h]
  unfold setRegion regionOf
  split
  · simp only [mgetD, mget_mset_same, Option.getD_some, hst]
  · simp only [mgetD, mget_mset_same, Option.getD_some, hst]
  · simp only [getNi_updNi_same, hst]

/-! The commands. -/

section
variable {s : State}

theorem exec_pwrPgood_idle (hups : s.pwr.marginUps = []) (hcur : s.pwr.cur = none) : exec .pwrPgood s = answer s { s with
    pwr := { s.pwr with pgood := true, vwait := false }
    rst := { s.rst with pgSeen := true, clearing := s.rst.clearing || (s.rst.inCold && s.rst.rstN && s.rst.porN) } } := by
  refine congrArg (answer s) ?_
  unfold marginDone
  rw [hcur]
  dsimp only
  rw [hups]
  rfl

theorem exec_pwrPgood_waits {q : PwrReq} (hups : s.pwr.marginUps = []) (hcur : s.pwr.cur = some q) (ha : reqAction q.req = 0) (hp : q.phase = 5)
    (hne : s.pwr.lvl.toNat ≠ reqLevel q.req) : exec .pwrPgood s = answer s { s with
      pwr := { s.pwr with pgood := true, vwait := false, cur := some { q with phase := 1 } }
      rst := { s.rst with pgSeen := true, clearing := s.rst.clearing || (s.rst.inCold && s.rst.rstN && s.rst.porN) } } := by
  refine congrArg (answer s) ?_
  unfold marginDone
  rw [hcur]
  dsimp only
  rw [if_pos ⟨ha, hp⟩, if_neg hne, hups]
  unfold setPhase
  dsimp only [List.foldl_nil]
  rw [hcur]
  rfl

variable {q : PwrReq} (hcur : s.pwr.cur = some q)
include hcur

theorem exec_vrTimeout (ha : reqAction q.req = 0) (hp : q.phase = 5) (hwait : s.pwr.vwait = true) (hlt : reqLevel q.req < s.pwr.lvl.toNat)
    (hover : q.deadline ≤ nowNs s) : exec .vrTimeout s =
      answer s (pwrEnd (driveVid (setFlag s (aPwr 0x18) 3) (vidCode s s.pwr.lvl.toNat) false) 0x0B) := by
  refine congrArg (answer s) ?_
  rw [hcur]
  exact if_pos ⟨ha, hp, hwait, hlt, hover⟩

theorem exec_regionDrainDone (hp : q.phase = 3) (hbefore : nowNs s < q.deadline) (hdrained : regionDrained s (reqKind q.req) (reqIndex q.req) = true)
    (hclosed : accessOpen s (reqKind q.req) (reqIndex q.req) = false) : exec .regionDrainDone s = answer s (entryClamp s q) := by
  refine congrArg (answer s) ?_
  rw [hcur]
  exact if_pos ⟨hp, hbefore, hdrained, hclosed⟩

theorem exec_regionDrainDeadline (hp : q.phase = 3) (hover : q.deadline ≤ nowNs s) (hkeep : reqKind q.req = 0 ∨ reqDiscard q.req = false) :
    ∃ t, SamePower (setFlag s (aPwr 0x18) 2) t ∧ exec .regionDrainDeadline s = answer s (entryFails t q 0x0A) := by
  have hcond : ¬ (q.phase ≠ 3 ∨ nowNs s < q.deadline ∨
      (reqKind q.req ≠ 0 ∧ reqDiscard q.req = true ∧ accessOpen s (reqKind q.req) (reqIndex q.req) = true)) := by
    rintro (h | h | ⟨hk, hd, -⟩)
    · exact h hp
    · omega
    · obtain h | h := hkeep
      · exact hk h
      · rw [h] at hd
        exact Bool.noConfusion hd
  have hexec : exec .regionDrainDeadline s = answer s (match reqKind q.req with
      | 0 => entryFails (setFlag s (aPwr 0x18) 2) q 0x0A
      | 1 => if reqDiscard q.req then entryClamp ((List.range 8).foldl (fun t j => execRegionDrainDeadline.closeRun t (8 * reqIndex q.req + j)) s) q
          else entryFails (setFlag s (aPwr 0x18) 2) q 0x0A
      | _ => if reqDiscard q.req then entryClamp (niDiscardAll s (reqIndex q.req)) q
          else entryFails (if (getNi (setFlag s (aPwr 0x18) 2) (reqIndex q.req)).drain.active then
            drainExpire (setFlag s (aPwr 0x18) 2) (reqIndex q.req) else setFlag s (aPwr 0x18) 2) q 0x0A) := by
    refine congrArg (answer s) ?_
    rw [hcur]
    exact if_neg hcond
  rw [hexec]
  split
  case h_1 => exact ⟨_, .refl _, rfl⟩
  case h_2 h =>
    have hno : ¬ reqDiscard q.req = true := by
      rw [hkeep.resolve_left (by omega)]
      exact Bool.false_ne_true
    exact ⟨_, .refl _, congrArg (answer s) (if_neg hno)⟩
  case h_3 hne _ =>
    have hno : ¬ reqDiscard q.req = true := by
      rw [hkeep.resolve_left hne]
      exact Bool.false_ne_true
    exact ⟨_, (NiWork.ite (drainExpire_niWork _ _) (.refl (reqIndex q.req) _)).samePower, congrArg (answer s) (if_neg hno)⟩

theorem exec_regionEntryDone (hp : q.phase = 5) (hlo : 1 ≤ reqAction q.req) (hhi : reqAction q.req ≤ 3) (hover : q.readyNs ≤ nowNs s) :
    exec .regionEntryDone s = answer s (pwrEnd (setRegion s (reqKind q.req) (reqIndex q.req) (reqAction q.req)) 0) := by
  refine congrArg (answer s) ?_
  rw [hcur]
  exact if_pos ⟨hp, by omega, by omega, hover⟩

theorem exec_regionWakeReady (ha : reqAction q.req = 4) (hp : q.phase = 5 ∨ q.phase = 6) (hover : q.readyNs ≤ nowNs s) :
    exec .regionWakeReady s = answer s { s with pwr := { s.pwr with cur := some { q with phase := 7 } } } := by
  refine congrArg (answer s) ?_
  rw [hcur]
  dsimp only
  rw [if_pos ⟨ha, hp, hover⟩, setPhase, hcur]
  rfl

end

theorem setRegion_spec (s : State) (k i st : Nat) : (setRegion s k i st).gen = s.gen ∧ (setRegion s k i st).pending = s.pending ∧
    (setRegion s k i st).lcs = s.lcs ∧ (setRegion s k i st).pwr.cur = s.pwr.cur ∧ (setRegion s k i st).pwr.pend = s.pwr.pend ∧
    (setRegion s k i st).pwr.forced = s.pwr.forced := by
  unfold setRegion
  split <;> exact ⟨rfl, rfl, rfl, rfl, rfl, rfl⟩

/-- A change to a faster level without a regulator: the old set point is driven again, and the request ends with 0x0B. -/
theorem completes_vrTimeout {s : State} {q : PwrReq} (hcur : s.pwr.cur = some q) (hpend : s.pwr.pend = none) (hforced : s.pwr.forced = none)
    (ha : reqAction q.req = 0) (hp : q.phase = 5) (hwait : s.pwr.vwait = true) (hlt : reqLevel q.req < s.pwr.lvl.toNat) (hover : q.deadline ≤ nowNs s) :
    Completes .vrTimeout s fun t => rdF t (aPwr 0x10) 63 56 = 0x0B ∧ rdF t (aPwr 0x10) 55 32 = q.req.toNat ∧
      bitOf (rd t (aPwr 0x18)) 3 = true ∧ bitOf (rd t (aPwr 0x18)) 1 = true ∧ t.pwr.cur = none ∧
      t.pwr.vid = BitVec.ofNat 8 (vidCode s s.pwr.lvl.toNat) ∧ t.pwr.lvl = s.pwr.lvl := by
  have hexec := exec_vrTimeout hcur ha hp hwait hlt hover
  have hdrive := driveVid_spec (setFlag s (aPwr 0x18) 3) (vidCode s s.pwr.lvl.toNat) false
  obtain ⟨hvid, hvidNat⟩ := vid_driveVid (s := setFlag s (aPwr 0x18) 3) false (vidCode_lt s s.pwr.lvl.toNat)
  generalize driveVid (setFlag s (aPwr 0x18) 3) (vidCode s s.pwr.lvl.toNat) false = u at hexec hdrive hvid hvidNat
  have hrd : ∀ a, rd u a = rd (setFlag s (aPwr 0x18) 3) a := fun a => by rw [hdrive]; rfl
  have hlvl : u.pwr.lvl = s.pwr.lvl := by rw [hdrive]; rfl
  rw [pwrEnd_eq (q := q) 0x0B (by rw [hdrive]; exact hcur) (by rw [hdrive]; exact hpend) (by rw [hdrive]; exact hforced)] at hexec
  have hended := pwrFinish_ended u q.req 0x0B q.agedown
  have hback : (pwrFinish u q.req 0x0B q.agedown).pwr.vid = u.pwr.vid := by
    refine pwrFinish_vid _ _ _ ?_
    rw [hvidNat, hlvl]
    exact (vidCode_congr ((hrd _).trans (rd_wr_ne _ _ _ _ (by decide))) _).symm
  generalize pwrFinish u q.req 0x0B q.agedown = t at hexec hended hback
  have hwhole := hended.whole
  refine completes_of_answer hexec ?_ ?_ ?_ ⟨hended.result.1, hended.result.2, hended.flags 3 ?_, hended.flag 1 (.inr ⟨by decide, rfl⟩), hended.cur, ?_, ?_⟩
  · rw [hwhole, hdrive]
    rfl
  · rw [hwhole, hdrive]
    rfl
  · rw [hwhole, hdrive]
    rfl
  · rw [hrd]
    exact bitOf_setFlag_same _ _ (by decide)
  · rw [hback, hvid]
  · rw [hwhole, ← hlvl]

/-- Settles O42: each event moves the change in progress to its next phase, or ends it with its code. -/
theorem powerChangesProgressAndEnd : Obligations.PowerChangesProgressAndEnd := by
  unfold Obligations.PowerChangesProgressAndEnd
  refine ⟨fun s hups => ⟨fun hcur => ?idle, fun q hcur ha hp hne => ?waits⟩, fun s q hcur hpend hforced =>
    ⟨fun ha hp hwait hlt hover => completes_vrTimeout hcur hpend hforced ha hp hwait hlt hover, fun hp hbefore hdrained hclosed hnone => ?drained,
      fun hp hover hkeep => ?deadline, fun hp hlo hhi hover => ?entered, fun ha hp hover => ?woken⟩⟩
  case idle => exact completes_of_answer (exec_pwrPgood_idle hups hcur) rfl rfl rfl rfl
  case waits => exact completes_of_answer (exec_pwrPgood_waits hups hcur ha hp hne) rfl rfl rfl ⟨rfl, rfl, rfl⟩
  case drained =>
    obtain ⟨hgen, hpending, hlcs, hnext, hsaved⟩ := entryClamp_spec hnone
    exact completes_of_answer (exec_regionDrainDone hcur hp hbefore hdrained hclosed) hgen hpending (congrArg Lcs.fuse hlcs) ⟨hnext, hsaved⟩
  case deadline =>
    obtain ⟨u, hu, hexec⟩ := exec_regionDrainDeadline hcur hp hover hkeep
    have hpwr := hu.pwr
    obtain ⟨v, hv, hfails⟩ := entryFails_spec (q := q) 0x0A (by rw [hpwr]; exact hcur) (by rw [hpwr]; exact hpend) (by rw [hpwr]; exact hforced)
    rw [hfails] at hexec
    have hended := pwrFinish_ended v q.req 0x0A q.agedown
    generalize pwrFinish v q.req 0x0A q.agedown = t at hexec hended
    have hwhole := hended.whole
    refine completes_of_answer hexec ?_ ?_ ?_ ⟨hended.flags 2 ?_, hended.result.1, hended.result.2, hended.cur, ?_⟩
    · rw [hwhole]
      exact hv.gen.trans hu.gen
    · rw [hwhole]
      exact hv.pending.trans hu.pending
    · rw [hwhole]
      exact hv.fuse.trans hu.fuse
    · rw [hv.evt, hu.evt]
      exact bitOf_setFlag_same _ _ (by decide)
    · rw [hended.regionOf, hv.regionOf, hu.regionOf]
      rfl
  case entered =>
    obtain ⟨hgen, hpending, hlcs, hcur', hpend', hforced'⟩ := setRegion_spec s (reqKind q.req) (reqIndex q.req) (reqAction q.req)
    have hexec := exec_regionEntryDone hcur hp hlo hhi hover
    have hregion := regionOf_setRegion s (reqKind q.req) (reqIndex q.req) (st := reqAction q.req) (by omega)
    generalize setRegion s (reqKind q.req) (reqIndex q.req) (reqAction q.req) = u at hexec hgen hpending hlcs hcur' hpend' hforced' hregion
    rw [pwrEnd_eq 0 (hcur'.trans hcur) (hpend'.trans hpend) (hforced'.trans hforced)] at hexec
    have hended := pwrFinish_ended u q.req 0 q.agedown
    generalize pwrFinish u q.req 0 q.agedown = t at hexec hended
    have hwhole := hended.whole
    refine completes_of_answer hexec (by rw [hwhole, hgen]) (by rw [hwhole, hpending]) (by rw [hwhole, hlcs])
      ⟨(hended.regionOf _ _).trans hregion, hended.result.1, hended.result.2, hended.flag 0 (.inl ⟨rfl, rfl⟩), hended.cur⟩
  case woken => exact completes_of_answer (exec_regionWakeReady hcur ha hp hover) rfl rfl rfl rfl

end Sys2Proof.Machine
end

section
/-! SUPPORT. What the end of a span link leaves unchanged (12 R271 to R275). -/

namespace Sys2Proof.Machine

/-- A word of the source entry of a flow. -/
def FlowWord (f : Flow) (a : Nat) : Prop :=
  ∃ j < 4, a = if nodeLoc f.srcNode < 128 then aNi (nodeLoc f.srcNode) (0x400 + 0x20 * f.srcIdx + 8 * j)
    else aSpn (nodeLoc f.srcNode - 128) (0x400 + 0x20 * f.srcIdx + 8 * j)

/-- The register bits of B are none of a flow's source entry, nor the flag of a suspended flow. -/
structure Clear (B : Nat → Nat → Prop) (s : State) : Prop where
  entries : ∀ id f, mget s.eng.flows id = some f → ∀ a i, FlowWord f a → ¬ B a i
  flag : ∀ n, ¬ B (aNi n 0x80) 3

/-- t differs from s in what the disposal of held messages and the suspension of flows write: routers, span ports, flows, notifications, and
register bits that B does not name. -/
structure SpanWork (B : Nat → Nat → Prop) (s t : State) : Prop where
  whole : t = { s with
    regs := t.regs, nis := t.nis, rtrs := t.rtrs, spans := t.spans, eng := { s.eng with flows := t.eng.flows }, ntf := t.ntf
    flt := { s.flt with log := t.flt.log }, free := t.free }
  bits : ∀ a i, B a i → noteWord a = false → bitOf (rd t a) i = bitOf (rd s a) i
  nis : ∀ m, SameNi s t m
  clear : Clear B s → Clear B t

section
variable {B : Nat → Nat → Prop}

theorem SpanWork.refl (s : State) : SpanWork B s s := ⟨rfl, fun _ _ _ _ => rfl, fun m => .refl s m, id⟩

theorem SpanWork.trans {s t u : State} (h : SpanWork B s t) (k : SpanWork B t u) : SpanWork B s u where
  whole := by
    rw [k.whole]
    conv_lhs => rw [h.whole]
  bits a i ha hfree := (k.bits a i ha hfree).trans (h.bits a i ha hfree)
  nis m := (h.nis m).trans (k.nis m)
  clear hs := k.clear (h.clear hs)

theorem SpanWork.ite {c : Prop} [Decidable c] {s t u : State} (ht : SpanWork B s t) (hu : SpanWork B s u) : SpanWork B s (if c then t else u) := by
  split <;> assumption

/-- Work that a state with clear bits does step by step. -/
theorem SpanWork.foldl {α : Type} {f : State → α → State} {l : List α} (h : ∀ s, Clear B s → ∀ a ∈ l, SpanWork B s (f s a)) {s : State}
    (hs : Clear B s) : SpanWork B s (l.foldl f s) := by
  induction l generalizing s with
  | nil => exact .refl s
  | cons a l ih =>
    have hhead := h s hs a (List.mem_cons_self ..)
    exact hhead.trans (ih (fun t ht b hb => h t ht b (List.mem_cons_of_mem a hb)) (hhead.clear hs))

theorem Noted.spanWork {s t : State} (h : Noted s t) : SpanWork B s t := by
  obtain ⟨hwhole, hwords, hnis⟩ := h
  have heng : t.eng = s.eng := by rw [hwhole]
  exact ⟨by rw [hwhole], fun a i _ hfree => by rw [hwords a hfree], hnis, fun ⟨hent, hflag⟩ => ⟨by rw [heng]; exact hent, hflag⟩⟩

theorem SpanWork.wr {a : Nat} (s : State) (v : Word) (h : ∀ i, ¬ B a i) : SpanWork B s (wr s a v) :=
  ⟨rfl, fun b i hb _ => by rw [rd_wr_ne s a b v (by rintro rfl; exact h i hb)], fun m => .refl s m, fun ⟨hent, hflag⟩ => ⟨hent, hflag⟩⟩

theorem SpanWork.setFlag {a i : Nat} (s : State) (h : ¬ B a i) : SpanWork B s (setFlag s a i) := by
  refine ⟨rfl, fun b j hb _ => ?_, fun m => .refl s m, fun ⟨hent, hflag⟩ => ⟨hent, hflag⟩⟩
  by_cases hab : b = a
  · subst hab
    exact bitOf_setFlag_ne s b b fun e => h (e ▸ hb)
  · rw [Machine.setFlag, rd_wr_ne _ _ _ _ hab]

theorem SpanWork.updSpan (s : State) (p : Nat) (f : Span → Span) : SpanWork B s (updSpan s p f) :=
  ⟨rfl, fun _ _ _ _ => rfl, fun m => .refl s m, fun ⟨hent, hflag⟩ => ⟨hent, hflag⟩⟩

theorem SpanWork.updPlane (s : State) (pl : Plane) (x : Nat) (f : RtrPlane → RtrPlane) : SpanWork B s (updPlane s pl x f) :=
  ⟨rfl, fun _ _ _ _ => rfl, fun m => .refl s m, fun ⟨hent, hflag⟩ => ⟨hent, hflag⟩⟩

/-! Messages that a port flushes (12 R275). -/

theorem spanOwn_spanWork (s : State) (p : Nat) (pl : Plane) (m : Msg) : SpanWork B s (spanOwn s p pl m) := by
  have hinject : ∀ t m, SpanWork B t (spanInject t p pl m) := fun t m => .ite (.refl t) (.updPlane ..)
  exact (SpanWork.ite (.updSpan ..) (.refl s)).trans (hinject _ _)

variable {p : Nat} (hp : p < 8) (hcount : ∀ i, ¬ B (aSpn p 0x58) i) (hflush : ¬ B (aSpn p 0x18) 3)
include hp hcount hflush

theorem flushMsg_spanWork (s : State) (m : Msg) : SpanWork B s (flushMsg s p m) := by
  have hev : ∀ t : State, SpanWork B t (evSpn t p 18 1) := fun t => ((bump_noteOnly t _ 1 (by omega)).noted).spanWork
  have hcounted : SpanWork B s (evSpn (setFlag (incSat s (aSpn p 0x58) 1) (aSpn p 0x18) 3) p 18 1) :=
    (SpanWork.wr s _ hcount).trans ((SpanWork.setFlag _ hflush).trans (hev _))
  exact .ite hcounted (.ite (hcounted.trans (spanOwn_spanWork ..)) (.ite hcounted (hcounted.trans (spanOwn_spanWork ..))))

theorem dropPiste_spanWork {s : State} (hs : Clear B s) : SpanWork B s (dropPiste s p) :=
  (SpanWork.foldl (fun t _ m _ => .ite (.refl t) (flushMsg_spanWork hp hcount hflush t m)) hs).trans (.updSpan ..)

end

section
variable {B : Nat → Nat → Prop}

theorem spanSeq_spanWork (s : State) (p : Nat) (m : Msg) : SpanWork B s (spanSeq s p m).2 := .updSpan ..

theorem handOver_spanWork {s : State} (p q : Nat) (hs : Clear B s) : SpanWork B s (handOver s p q) := by
  have hseq : ∀ (l : List Msg) (a : List Msg × State), Clear B a.2 → SpanWork B a.2 (l.foldl (fun (a : List Msg × State) m =>
      if m.cls = 2 then ((a.1 ++ [(spanSeq a.2 p m).1], (spanSeq a.2 p m).2)) else (a.1 ++ [m], a.2)) a).2 := by
    intro l
    induction l with
    | nil => exact fun a _ => .refl a.2
    | cons m l ih =>
      intro a ha
      have hhead : SpanWork B a.2 (if m.cls = 2 then ((a.1 ++ [(spanSeq a.2 p m).1], (spanSeq a.2 p m).2)) else (a.1 ++ [m], a.2)).2 := by
        split
        · exact spanSeq_spanWork a.2 p m
        · exact .refl a.2
      exact hhead.trans (ih _ (hhead.clear ha))
  unfold handOver
  dsimp only
  split
  · exact (hseq _ (_, s) hs).trans (.updSpan ..)
  · exact ((hseq _ (_, s) hs).trans (.updSpan ..)).trans (.updSpan ..)

/-! Flows that a link carries are suspended (06 R145, R146). -/

theorem wrFlowEnt_spanWork (s : State) {f : Flow} (v : BitVec 256) (h : ∀ a i, FlowWord f a → ¬ B a i) : SpanWork B s (wrFlowEnt s f v) := by
  have hword : ∀ (t : State) (j : Nat) (w : Word) {a : Nat}, j < 4 → a = (if nodeLoc f.srcNode < 128 then
        aNi (nodeLoc f.srcNode) (0x400 + 0x20 * f.srcIdx + 8 * j) else aSpn (nodeLoc f.srcNode - 128) (0x400 + 0x20 * f.srcIdx + 8 * j)) →
      SpanWork B t (wr t a w) := fun t j w a hj ha => .wr t w fun i => h a i ⟨j, hj, ha⟩
  unfold wrFlowEnt
  split
  case isTrue hn =>
    simp only [if_pos hn] at hword
    exact (((hword s 0 _ (by decide) rfl).trans (hword _ 1 _ (by decide) (by unfold aNi; omega))).trans
      (hword _ 2 _ (by decide) (by unfold aNi; omega))).trans (hword _ 3 _ (by decide) (by unfold aNi; omega))
  case isFalse hn =>
    simp only [if_neg hn] at hword
    exact (((hword s 0 _ (by decide) rfl).trans (hword _ 1 _ (by decide) (by unfold aSpn; omega))).trans
      (hword _ 2 _ (by decide) (by unfold aSpn; omega))).trans (hword _ 3 _ (by decide) (by unfold aSpn; omega))

/-- A flow that is marked suspended has its source entry where it was. -/
theorem flowSuspended_spanWork {s : State} {id : Nat} {f : Flow} (h : mget s.eng.flows id = some f) :
    SpanWork B s { s with eng := { s.eng with flows := mset s.eng.flows id { f with susp := true } } } := by
  refine ⟨rfl, fun _ _ _ _ => rfl, fun m => .refl s m, fun ⟨hent, hflag⟩ => ⟨fun j g hg a i ha => ?_, hflag⟩⟩
  by_cases hj : j = id
  · subst hj
    obtain rfl : { f with susp := true } = g := by
      have := (mget_mset_same s.eng.flows j { f with susp := true }).symm.trans hg
      exact Option.some.inj this
    exact hent j f h a i ha
  · exact hent j g ((mget_mset_ne _ _ _ _ hj).symm.trans hg) a i ha

theorem suspendFlow_spanWork {s : State} (id : Nat) (hs : Clear B s) : SpanWork B s (suspendFlow s id) := by
  unfold suspendFlow
  split
  · exact .refl s
  · next f hf =>
    have hent := wrFlowEnt_spanWork s (setFld (flowEnt s f) 0 0 1) (hs.entries id f hf)
    have hmark : SpanWork B (wrFlowEnt s f (setFld (flowEnt s f) 0 0 1)) { wrFlowEnt s f (setFld (flowEnt s f) 0 0 1) with eng :=
        { (wrFlowEnt s f (setFld (flowEnt s f) 0 0 1)).eng with
          flows := mset (wrFlowEnt s f (setFld (flowEnt s f) 0 0 1)).eng.flows id { f with susp := true } } } :=
      flowSuspended_spanWork (by rw [wrFlowEnt_eng]; exact hf)
    have hboth := hent.trans hmark
    refine .ite (.refl s) (.ite ?_ ?_)
    · exact (hboth.trans (.setFlag _ (hs.flag _))).trans (noted_raiseNi ..).spanWork
    · exact hboth.trans (noted_raiseG ..).spanWork

theorem suspendSpan_spanWork {s : State} (p : Nat) (hs : Clear B s) : SpanWork B s (suspendSpan s p) :=
  .foldl (fun _ ht id _ => suspendFlow_spanWork id ht) hs

end

end Sys2Proof.Machine
end

section
/-! PROOF. A warm reset quiesces the ports, resets the data path and is released at its tick (17 R375, R382; for O44). -/

namespace Sys2Proof.Machine

/-! The end of a span link, without its count. -/

/-- What follows the count of a link that goes down: its flows are suspended, its piste messages disposed of, and the port hands over or waits. -/
def spanLeft (s : State) (p ns : Nat) : State :=
  let t := dropPiste (suspendSpan s p) p
  match parallelOf t p with
  | some r => handOver t p r
  | none => updSpan t p fun x => { x with lstate := 4, graceEnd := ns + 12000 }

/-- The port's link has gone down, counted, with a cause. -/
def spanLost (s : State) (p cause : Nat) : State :=
  raiseGFree (evSpn (incSat (setFlag (updSpan s p fun x => { x with
    up := false, upAt := none, resumeAt := none, rtReq := false, resumeSent := false, propSent := false
    cause := BitVec.ofNat 3 cause, rob := [], naks := [], nakSent := [], pools := []
    ctlDue := if x.phyUp then [ctlWord 6 cause] else [] }) (aSpn p 0x18) 2) (aSpn p 0x48) 1) p 9 1) (128 + p) 0x121 2

section
variable {B : Nat → Nat → Prop} {p : Nat} (hp : p < 8)
include hp

theorem spanLost_spanWork (s : State) (cause : Nat) (hdown : ¬ B (aSpn p 0x18) 2) (hcount : ∀ i, ¬ B (aSpn p 0x48) i) :
    SpanWork B s (spanLost s p cause) :=
  ((SpanWork.updSpan s p _).trans ((SpanWork.setFlag _ hdown).trans ((SpanWork.wr _ _ hcount).trans
    ((bump_noteOnly _ _ 1 (by omega)).noted.spanWork)))).trans (noted_raiseGFree ..).spanWork

theorem spanLeft_spanWork {s : State} (ns : Nat) (hs : Clear B s) (hcount : ∀ i, ¬ B (aSpn p 0x58) i) (hflush : ¬ B (aSpn p 0x18) 3) :
    SpanWork B s (spanLeft s p ns) := by
  have hsuspend := suspendSpan_spanWork p hs
  have hdrop := hsuspend.trans (dropPiste_spanWork hp hcount hflush (hsuspend.clear hs))
  unfold spanLeft
  dsimp only
  split
  · exact hdrop.trans (handOver_spanWork _ _ (hdrop.clear hs))
  · exact hdrop.trans (.updSpan ..)

end

theorem spanDown_eq (s : State) (p cause : Nat) : spanDown s p cause = spanLeft (spanLost s p cause) p (nowNs s) := by
  unfold spanDown spanLeft spanLost
  dsimp only <;> (generalize raiseGFree _ (128 + p) 0x121 2 = u; cases parallelOf (dropPiste (suspendSpan u p) p) p <;> rfl)

/-- The bits of the words below the units' blocks. -/
def lowBits (a _ : Nat) : Prop := a < 0x10000

theorem clear_lowBits (s : State) : Clear lowBits s := by
  refine ⟨fun id f _ a i ⟨j, _, ha⟩ => ?_, fun n => ?_⟩
  · rw [ha]
    unfold lowBits aNi aSpn
    split <;> omega
  · unfold lowBits aNi
    omega

theorem not_lowBits_aSpn (p off i : Nat) : ¬ lowBits (aSpn p off) i := by
  unfold lowBits aSpn
  omega

theorem spanDown_spanWork (s : State) {p : Nat} (hp : p < 8) (cause : Nat) : SpanWork lowBits s (spanDown s p cause) := by
  rw [spanDown_eq]
  exact (spanLost_spanWork hp s cause (not_lowBits_aSpn _ _ _) fun i => not_lowBits_aSpn _ _ i).trans
    (spanLeft_spanWork hp _ (clear_lowBits _) (fun i => not_lowBits_aSpn _ _ i) (not_lowBits_aSpn _ _ _))

theorem SpanWork.low {s t : State} (h : SpanWork lowBits s t) {a : Nat} (ha : a < 0x10000) (hfree : noteWord a = false) : rd t a = rd s a :=
  BitVec.eq_of_getLsbD_eq fun i _ => h.bits a i ha hfree

/-! A warm reset begins. -/

/-- What the start of a warm reset leaves: its own state, the time, GLB_RST_CTL, and what the image and the power controller are. -/
def warmView (s : State) : Gen × List Instr × Lcs × Time × Rst × Img × Pwr × Word := (s.gen, s.pending, s.lcs, s.time, s.rst, s.img, s.pwr, rd s 0x438)

theorem NiBlock.warmView {n : Nat} {s t : State} (h : NiBlock n s t) : Keeps warmView s t := by
  have hword := h.words 0x438 (by unfold InBlock aNi; omega) (by decide)
  have hwhole := h.whole
  unfold Keeps Machine.warmView
  rw [hword, hwhole]

theorem SpanWork.warmView {s t : State} (h : SpanWork lowBits s t) : Keeps warmView s t := by
  have hword := h.low (a := 0x438) (by decide) (by decide)
  have hwhole := h.whole
  unfold Keeps Machine.warmView
  rw [hword, hwhole]

/-- An NI that is not in reset enters it, asking its port for the handshake. -/
theorem warmPort_spec (s : State) (n : Nat) : NiBlock n s (warmPort s n) ∧
    (portEn s n = true → (getNi s n).region = 0 → (getNi (warmPort s n) n).inRst = true) := by
  have hjoin : NiBlock n s (updNi s n fun i => { i with rstCause := if i.rstCause = 0 then 0 else 2 }) := .updNi ..
  have hmark : NiBlock n s (updNi s n fun i => { i with inRst := true, rstCause := 2, rstFrame := frameOf s }) := .updNi ..
  obtain ⟨hasked, hview⟩ := portAsked_spec (updNi s n fun i => { i with inRst := true, rstCause := 2, rstFrame := frameOf s }) n
  have hport : warmPort s n = if !portEn s n || (getNi s n).region != 0 then s
      else if (getNi s n).inRst then updNi s n fun i => { i with rstCause := if i.rstCause = 0 then 0 else 2 }
      else portAsked (updNi s n fun i => { i with inRst := true, rstCause := 2, rstFrame := frameOf s }) n := rfl
  rw [hport]
  refine ⟨.ite (.refl n s) (.ite hjoin (hmark.trans hasked)), fun hen hon => ?_⟩
  rw [if_neg (by simp [hen, hon])]
  split
  · next hrst => rw [getNi_updNi_same]; exact hrst
  · have hin := congrArg (fun v => v.1) hview
    rw [getNi_updNi_same] at hin
    exact hin

/-- The ports, then the spans. -/
def warmQuiesced (s : State) : State := (List.range (nSpans s)).foldl warmSpan ((List.range (nEpNis s)).foldl warmPort s)

theorem nSpans_le (s : State) : nSpans s ≤ 8 := by
  unfold nSpans
  split <;> decide

theorem warmSpans_spanWork {l : List Nat} (h : ∀ p ∈ l, p < 8) (s : State) : SpanWork lowBits s (l.foldl warmSpan s) :=
  .foldl (fun _ _ p hp => .ite (spanDown_spanWork _ (h p hp) 5) (.refl _)) (clear_lowBits s)

theorem warmQuiesced_spec (s : State) : Keeps warmView s (warmQuiesced s) ∧
    ∀ n, isEpNi s n = true → portEn s n = true → (getNi s n).region = 0 → n < 128 → (getNi (warmQuiesced s) n).inRst = true := by
  have hspans := warmSpans_spanWork (l := List.range (nSpans s)) (fun p hp => lt_of_lt_of_le (List.mem_range.mp hp) (nSpans_le s))
    ((List.range (nEpNis s)).foldl warmPort s)
  refine ⟨(Keeps.foldl (fun t n _ => (warmPort_spec t n).1.warmView) s).trans hspans.warmView, fun n hep hen hon hn => ?_⟩
  obtain ⟨u, hu, ht⟩ := spares_foldl_step (fun s n => (warmPort_spec s n).1) (List.nodup_range (n := nEpNis s)) (List.mem_range.mpr (by simpa [isEpNi] using hep)) s
  have hin := (warmPort_spec u n).2 ((hu.portEn hn).trans hen) (hu.ni.region.trans hon)
  have hafter : (getNi (warmQuiesced s) n).inRst = (getNi (warmPort u n) n).inRst :=
    (congrArg (fun v => v.1) (hspans.nis n).rst).trans (congrArg (fun v => v.1) ht.rst)
  exact hafter.trans hin

theorem imgAborted_spec (s : State) : (imgAborted s).img.st = 0 ∧
    imgAborted s = { s with regs := (imgAborted s).regs, img := (imgAborted s).img } ∧ rd (imgAborted s) 0x438 = rd s 0x438 := by
  refine ⟨rfl, rfl, ?_⟩
  unfold imgAborted imgCode imgIdle imgState setFlag wrF
  simp only [rd_wr_ne _ _ _ _ (show (0x438 : Nat) ≠ aImg 8 by decide), rd_wr_ne _ _ _ _ (show (0x438 : Nat) ≠ aImg 0x28 by decide)]
  rfl

theorem warmPower_spec (s : State) : (warmPower s).pwr.pend = none ∧ warmPower s = { s with pwr := (warmPower s).pwr } := by
  unfold warmPower
  dsimp only
  have hdrive := driveVid_spec { s with pwr := { s.pwr with pend := none } }
    (vidCode { s with pwr := { s.pwr with pend := none } } s.pwr.lvl.toNat) false
  split
  · split
    · rw [hdrive]
      exact ⟨rfl, rfl⟩
    · exact ⟨rfl, rfl⟩
  · exact ⟨rfl, rfl⟩

/-- A warm reset stands with its cause and its time. -/
def warmMarked (s : State) (cause : Nat) : State := wrF { s with rst := { s.rst with warm := 1, warmNs := nowNs s } } 0x438 4 2 cause

theorem warmStart_eq {s : State} (cause : Nat) (hwarm : s.rst.warm = 0) (hcold : s.rst.inCold = false) : warmStart s cause =
    warmPower (if s.img.st = 3 then imgAborted (warmQuiesced (warmMarked s cause)) else warmQuiesced (warmMarked s cause)) := by
  unfold warmStart
  rw [if_neg (by simp [hwarm, hcold])]
  unfold warmQuiesced warmMarked
  rfl

theorem warmStart_spec {s : State} {cause : Nat} (hcause : cause < 8) (hwarm : s.rst.warm = 0) (hcold : s.rst.inCold = false) :
    (warmStart s cause).gen = s.gen ∧ (warmStart s cause).pending = s.pending ∧ (warmStart s cause).lcs = s.lcs ∧
    (warmStart s cause).rst = { s.rst with warm := 1, warmNs := nowNs s } ∧ rdF (warmStart s cause) 0x438 4 2 = cause ∧
    (warmStart s cause).time = s.time ∧ (warmStart s cause).pwr.pend = none ∧ (s.img.st = 3 → (warmStart s cause).img.st = 0) ∧
    ∀ n, isEpNi s n = true → portEn s n = true → (getNi s n).region = 0 → (getNi (warmStart s cause) n).inRst = true := by
  obtain ⟨hkeep, hports⟩ := warmQuiesced_spec (warmMarked s cause)
  have hcauseRd : rdF (warmMarked s cause) 0x438 4 2 = cause := (rdF_wrF_same _ _ _ (by decide) (by decide)).trans (Nat.mod_eq_of_lt hcause)
  have hen : ∀ n, portEn (warmMarked s cause) n = portEn s n := fun n => by
    unfold portEn
    rw [warmMarked, wrF, rd_wr_ne _ _ _ _ (by unfold aNi; omega)]
    rfl
  rw [warmStart_eq cause hwarm hcold]
  generalize warmQuiesced (warmMarked s cause) = u at hkeep hports
  simp only [Keeps, warmView, Prod.mk.injEq] at hkeep
  obtain ⟨hgen, hpending, hlcs, htime, hrst, himg, -, hword⟩ := hkeep
  obtain ⟨hst, hwhole, hrd⟩ := imgAborted_spec u
  have hboth : ∃ v, (if s.img.st = 3 then imgAborted u else u) = v ∧ v = { u with regs := v.regs, img := v.img } ∧ rd v 0x438 = rd u 0x438 ∧
      (s.img.st = 3 → v.img.st = 0) := by
    by_cases h : s.img.st = 3
    · exact ⟨_, if_pos h, hwhole, hrd, fun _ => hst⟩
    · exact ⟨_, if_neg h, rfl, rfl, fun h3 => absurd h3 h⟩
  obtain ⟨v, hv, hvwhole, hvrd, hvst⟩ := hboth
  rw [hv]
  obtain ⟨hpend, hpower⟩ := warmPower_spec v
  have hpwrd : rd (warmPower v) 0x438 = rd v 0x438 := by rw [hpower]; rfl
  refine ⟨(congrArg State.gen hpower).trans ((congrArg State.gen hvwhole).trans hgen), (congrArg State.pending hpower).trans
    ((congrArg State.pending hvwhole).trans hpending), (congrArg State.lcs hpower).trans ((congrArg State.lcs hvwhole).trans hlcs),
    (congrArg State.rst hpower).trans ((congrArg State.rst hvwhole).trans hrst), ?_, (congrArg State.time hpower).trans
    ((congrArg State.time hvwhole).trans htime), hpend, fun h3 => (congrArg (fun x => x.img.st) hpower).trans (hvst h3), fun n hep he hon => ?_⟩
  · rw [rdF, hpwrd, hvrd, hword]
    exact hcauseRd
  · have hlt : n < 128 := by
      have := of_decide_eq_true hep
      unfold nEpNis at this
      split at this <;> omega
    have hin := hports n hep ((hen n).trans he) hon hlt
    have hvnis : v.nis = u.nis := by rw [hvwhole]
    have hnis : (warmPower v).nis = u.nis := (congrArg State.nis hpower).trans hvnis
    unfold getNi at hin ⊢
    rw [hnis]
    exact hin

/-! The data path is reset. -/

/-- The state of resets, and whether NI n is in reset. -/
def rstAt (n : Nat) (s : State) : Gen × Rst × Bool := (s.gen, s.rst, (getNi s n).inRst)

abbrev KeepsRst (n : Nat) (s t : State) : Prop := Keeps (rstAt n) s t

theorem niList_nodup (s : State) : (niList s).Nodup := by
  have hep : nEpNis s ≤ 120 := by
    unfold nEpNis
    split <;> decide
  refine List.nodup_append'.mpr ⟨List.nodup_range, List.nodup_range.map fun a b h => Nat.add_left_cancel h, fun n hn hm => ?_⟩
  obtain ⟨b, -, rfl⟩ := List.mem_map.mp hm
  have := List.mem_range.mp hn
  omega

theorem mem_niList {s : State} {n : Nat} (h : isNi s n = true) : n ∈ niList s := by
  unfold isNi at h
  obtain h | h := Bool.or_eq_true_iff.mp h
  · exact List.mem_append_left _ (List.mem_range.mpr (of_decide_eq_true h))
  · refine List.mem_append_right _ (List.mem_map.mpr ⟨n - 120, ?_⟩)
    unfold isSvcNi at h
    simp at h ⊢
    omega

theorem NiBlock.keepsRst {n m : Nat} {s t : State} (h : NiBlock m s t) (hin : (getNi t m).inRst = (getNi s m).inRst) : KeepsRst n s t := by
  have hni : (getNi t n).inRst = (getNi s n).inRst := by
    by_cases hne : n = m
    · exact hne ▸ hin
    · exact congrArg (fun v => v.1) (h.nis n hne).rst
  have hwhole := h.whole
  unfold KeepsRst Keeps rstAt
  rw [hni, hwhole]

theorem NiWork.keepsRst {n m : Nat} {s t : State} (h : NiWork m s t) : KeepsRst n s t := h.toNiBlock.keepsRst (congrArg (fun v => v.1) h.kept)

theorem NotedIn.keepsRst {l : List Nat} {n : Nat} {s t : State} (h : NotedIn l s t) : KeepsRst n s t := by
  have hin := congrArg (fun v => v.1) (h.nis n).rst
  have hwhole := h.whole
  unfold KeepsRst Keeps rstAt
  rw [show (getNi t n).inRst = (getNi s n).inRst from hin, hwhole]

section
variable {n : Nat}

theorem setHome_keepsRst (s : State) (m : Nat) : KeepsRst n s (setHome s m) := Keeps.foldl (fun _ _ _ => by rfl) s

theorem setLinks_keepsRst (s : State) (x : Nat) (up : Bool) : KeepsRst n s (setLinks s x up) :=
  Keeps.foldl (fun t port _ => by dsimp only; split <;> rfl) s

theorem wordsReset_keepsRst (s : State) (base size : Nat) (p : Nat → Bool) : KeepsRst n s (wordsReset s base size p) :=
  Keeps.foldl (fun _ _ _ => by rfl) s

theorem updNi_keepsRst (s : State) (m : Nat) {f : Ni → Ni} (h : ∀ i, (f i).inRst = i.inRst) : KeepsRst n s (updNi s m f) :=
  (NiBlock.updNi m s f).keepsRst (by rw [getNi_updNi_same, h])

theorem setRegion_keepsRst (s : State) (k i st : Nat) : KeepsRst n s (setRegion s k i st) := by
  unfold setRegion
  split
  · rfl
  · rfl
  · exact updNi_keepsRst s i fun _ => by rfl

theorem niReturns_keepsRst (s : State) (m : Nat) (lost : Bool) : KeepsRst n s (niReturns s m lost) :=
  ((Keeps.ite (updNi_keepsRst s m fun _ => by rfl) (.refl _ s)).trans (setHome_keepsRst _ m)).trans (updNi_keepsRst _ m fun _ => by rfl)

theorem warmRegion_keepsRst (s : State) (k i : Nat) : KeepsRst n s (warmRegion s k i) := by
  have hset := setRegion_keepsRst (n := n) { s with pwr := { s.pwr with saved := s.pwr.saved.filter (· != regionKey k i) } } k i 0
  unfold warmRegion
  dsimp only
  split
  · rfl
  · split
    · exact Keeps.trans hset (Keeps.foldl (fun t x _ => setLinks_keepsRst t x true) _)
    · refine Keeps.trans hset (Keeps.trans (.ite ?_ (.refl _ _)) (niReturns_keepsRst ..))
      exact (wordsReset_keepsRst ..).trans (updNi_keepsRst _ i fun _ => by rfl)
    · exact hset

theorem warmRegions_keepsRst (s : State) : KeepsRst n s (warmRegions s) :=
  ((Keeps.foldl (fun t c _ => warmRegion_keepsRst t 0 c) s).trans (Keeps.foldl (fun t b _ => warmRegion_keepsRst t 1 b) _)).trans
    (Keeps.foldl (fun t m _ => (warmRegion_keepsRst t 2 m).trans (setHome_keepsRst _ m)) _)

theorem warmPwrReq_keepsRst (s : State) : KeepsRst n s (warmPwrReq s) := by
  have hpwr : ∀ p : Pwr, KeepsRst n s { s with pwr := p } := fun _ => by rfl
  unfold warmPwrReq
  split
  · exact .ite (.refl _ s) (.ite ((hpwr _).trans (pwrOutcome_notedIn ..).keepsRst) (hpwr _))
  · exact hpwr _

end

/-- The data path of an NI is reset once, and the NI is in reset. -/
theorem warmNi_spec (s : State) (n : Nat) : NiBlock n s (warmNi s n) ∧ (getNi (warmNi s n) n).inRst = true := by
  have hmark : NiBlock n s (updNi s n fun i => { i with
    inRst := true, rstCause := 2, rstFrame := if i.inRst then i.rstFrame else s.rst.warmNs / 1024 }) := .updNi ..
  have hin : (getNi (updNi s n fun i => { i with
    inRst := true, rstCause := 2, rstFrame := if i.inRst then i.rstFrame else s.rst.warmNs / 1024 }) n).inRst = true := by rw [getNi_updNi_same]
  obtain ⟨hreset, -, -, hview⟩ := niDataReset_spec (updNi s n fun i => { i with
    inRst := true, rstCause := 2, rstFrame := if i.inRst then i.rstFrame else s.rst.warmNs / 1024 }) n
  have hafter := (congrArg (fun v => v.1) hview).trans hin
  unfold warmNi
  dsimp only
  generalize niDataReset (updNi s n _) n = u at hreset hafter
  split
  · next h =>
    refine ⟨.updNi .., ?_⟩
    rw [getNi_updNi_same]
    exact (Bool.and_eq_true_iff.mp h).1
  · refine ⟨(hmark.trans hreset).trans (.updNi ..), ?_⟩
    rw [getNi_updNi_same]
    exact hafter

/-! The words of the rings, and what follows their reset. -/

/-- The indices of ring q are 0. -/
def ringEmpty (q : Nat) (s : State) : Prop := rd s (aEng (0x118 + 0x40 * q)) = 0 ∧ rd s (aEng (0x128 + 0x40 * q)) = 0

/-- What the steps behind the rings' reset leave. -/
def ringsView (q : Nat) (s : State) : Gen × Rst × Map Ni × Word × Word :=
  (s.gen, s.rst, s.nis, rd s (aEng (0x118 + 0x40 * q)), rd s (aEng (0x128 + 0x40 * q)))

theorem wr_keepsRings (q : Nat) (s : State) {a : Nat} (v : Word) (h : a < 0x800000) : Keeps (ringsView q) s (wr s a v) := by
  unfold Keeps ringsView
  rw [rd_wr_ne _ _ _ _ (by unfold aEng; omega), rd_wr_ne _ _ _ _ (by unfold aEng; omega)]
  rfl

theorem warmRings_spec (s : State) {q : Nat} (hq : q < 16) : ringEmpty q (warmRings s) ∧
    (warmRings s).rst = s.rst ∧ (warmRings s).nis = s.nis ∧ (warmRings s).gen = s.gen := by
  have hall : ∀ (l : List Nat) (t : State), q ∈ l ∨ ringEmpty q t → ringEmpty q (l.foldl (fun t q =>
      wr (wr (wr t (aEng (0x118 + 0x40 * q)) 0) (aEng (0x128 + 0x40 * q)) 0) (aEng (0x120 + 0x40 * q)) (BitVec.ofNat 64 (2 ^ 48))) t) := by
    intro l
    induction l with
    | nil => exact fun t h => h.resolve_left (List.not_mem_nil)
    | cons a l ih =>
      intro t h
      refine ih _ ?_
      by_cases ha : q = a
      · subst ha
        refine .inr ⟨?_, ?_⟩
        · rw [rd_wr_ne _ _ _ _ (by unfold aEng; omega), rd_wr_ne _ _ _ _ (by unfold aEng; omega), rd_wr_same]
        · rw [rd_wr_ne _ _ _ _ (by unfold aEng; omega), rd_wr_same]
      · obtain h | ⟨h0, h1⟩ := h
        · exact .inl ((List.mem_cons.mp h).resolve_left ha)
        · refine .inr ⟨?_, ?_⟩
          · rw [rd_wr_ne _ _ _ _ (by unfold aEng; omega), rd_wr_ne _ _ _ _ (by unfold aEng; omega), rd_wr_ne _ _ _ _ (by unfold aEng; omega)]
            exact h0
          · rw [rd_wr_ne _ _ _ _ (by unfold aEng; omega), rd_wr_ne _ _ _ _ (by unfold aEng; omega), rd_wr_ne _ _ _ _ (by unfold aEng; omega)]
            exact h1
  have hrest : Keeps (fun t : State => (t.rst, t.nis, t.gen)) s (warmRings s) := Keeps.foldl (fun _ _ _ => by rfl) s
  simp only [Keeps, Prod.mk.injEq] at hrest
  obtain ⟨hrst, hnis, hgen⟩ := hrest
  exact ⟨hall _ s (.inl (List.mem_range.mpr hq)), hrst, hnis, hgen⟩

theorem nRtrs_le (s : State) : nRtrs s ≤ 64 := by
  unfold nRtrs nCols nRows
  cases s.gen.profile <;> decide

theorem slotAddr_lt {e a : Nat} (he : e ≤ 1) (hx : a % 0x10000 / 0x400 < 64) : slotAddr e a < 0x800000 := by
  unfold slotAddr aRtr
  dsimp only
  generalize a % 0x10000 / 0x400 = x at hx
  split <;> omega

theorem loadSlot_keepsRings (q : Nat) (s : State) (rs : Nat) {e : Nat} (he : e ≤ 1) : Keeps (ringsView q) s (loadSlot s rs e) := by
  have hrtr : ∀ {x : Nat}, x < nRtrs s → x < 64 := fun h => lt_of_lt_of_le h (nRtrs_le s)
  have hfilter : Keeps (ringsView q) s { s with regs := s.regs.filter fun p => !inSlot e p.1 } := by
    have hout : ∀ off, inSlot e (aEng off) = false := fun off => by
      unfold inSlot aEng
      simp
      omega
    have hrd : ∀ off, rd { s with regs := s.regs.filter fun p => !inSlot e p.1 } (aEng off) = rd s (aEng off) := fun off => by
      have hget := mget_filter (fun a => !inSlot e a) s.regs (aEng off)
      unfold rd mgetD
      dsimp only
      rw [hget, hout]
      rfl
    unfold Keeps ringsView
    rw [hrd, hrd]
  refine (hfilter.trans (Keeps.foldl (fun t p hp => wr_keepsRings q t _ (slotAddr_lt he (hrtr ?_))) _)).trans
    (Keeps.foldl (fun t x hx => wr_keepsRings q t _ ?_) _)
  · exact of_decide_eq_true (Bool.and_eq_true_iff.mp (List.mem_filter.mp hp).2).2
  · have := hrtr (List.mem_range.mp hx)
    unfold aRtr
    omega

theorem warmRoutes_keepsRings (q : Nat) (s : State) : Keeps (ringsView q) s (warmRoutes s) := by
  have hload := loadSlot_keepsRings q s (match s.flt.caseR with | some x => 8 + x | none => 0) (e := 0) (by decide)
  have hclear : ∀ t : State, Keeps (ringsView q) t ((List.range (nRtrs s)).foldl (fun t x => wrF t (aRtr x 0x18) 17 16 0) t) := fun t =>
    Keeps.foldl (fun t x hx => wr_keepsRings q t _ (by
      have := List.mem_range.mp hx
      have := nRtrs_le s
      unfold aRtr
      omega)) t
  have hend : ∀ t : State, Keeps (ringsView q) t (wr { t with img := { t.img with release := none } } (aImg 0x40) 0) := fun t =>
    wr_keepsRings q { t with img := { t.img with release := none } } _ (by decide)
  exact (hload.trans (hclear _)).trans (hend _)

theorem warmJrn_keepsRings (q : Nat) (s : State) : Keeps (ringsView q) s (warmJrn s) := by
  have hdrop : Keeps (ringsView q) s (dropCkpt s) := by
    unfold dropCkpt
    exact wr_keepsRings q { s with jrn := _ } _ (by decide)
  have hjrn : ∀ (t : State) (j : Jrn), Keeps (ringsView q) t { t with jrn := j } := fun _ _ => by rfl
  exact hdrop.trans (hjrn _ _)

/-- A forward that was under way has failed. -/
def forwardOff (s : State) : State := if s.ntf.fwdBusy then forwardEnd s 3 else s

theorem forwardOff_keepsRings (q : Nat) (s : State) : Keeps (ringsView q) s (forwardOff s) := by
  have hend : Keeps (ringsView q) s (forwardEnd s 3) := by
    unfold forwardEnd
    exact wr_keepsRings q { s with ntf := _ } _ (by decide)
  exact .ite hend (.refl _ s)

/-- The steps of the reset behind the NIs. -/
def warmRest (s : State) : State := forwardOff (warmRoutes (warmJrn (warmRings { s with eng := warmEng s.eng })))

theorem warmRest_spec (s : State) {q : Nat} (hq : q < 16) :
    ringEmpty q (warmRest s) ∧ (warmRest s).rst = s.rst ∧ ∀ n, getNi (warmRest s) n = getNi s n := by
  obtain ⟨⟨h0, h1⟩, hrst, hnis, -⟩ := warmRings_spec { s with eng := warmEng s.eng } hq
  unfold warmRest
  generalize warmRings { s with eng := warmEng s.eng } = u at h0 h1 hrst hnis
  have hkeep := ((warmJrn_keepsRings q u).trans (warmRoutes_keepsRings q _)).trans (forwardOff_keepsRings q _)
  generalize forwardOff (warmRoutes (warmJrn u)) = t at hkeep
  simp only [Keeps, ringsView, Prod.mk.injEq] at hkeep
  obtain ⟨-, hrst', hnis', h0', h1'⟩ := hkeep
  refine ⟨⟨h0'.trans h0, h1'.trans h1⟩, hrst'.trans hrst, fun n => ?_⟩
  unfold getNi
  rw [hnis', hnis]

/-- The state whose NIs are reset: the regions are back, and routers and span ports are empty. -/
def warmFabric (s : State) : State :=
  let s1 := warmRegions (warmPwrReq s)
  { s1 with
    rtrs := mmap s1.rtrs fun _ r => warmRtr r
    spans := mmap s1.spans fun _ q => { phyUp := q.phyUp, widthCap := q.widthCap } }

theorem warmReset_eq (s : State) : warmReset s = warmRest ((niList (warmFabric s)).foldl warmNi (warmFabric s)) := rfl

theorem warmReset_spec (s : State) : (warmReset s).rst = s.rst ∧ (∀ n, isNi s n = true → (getNi (warmReset s) n).inRst = true) ∧
    ∀ q, q < 16 → ringEmpty q (warmReset s) := by
  have hfabric : KeepsRst 0 s (warmFabric s) := (warmPwrReq_keepsRst s).trans (warmRegions_keepsRst _)
  simp only [KeepsRst, Keeps, rstAt, Prod.mk.injEq] at hfabric
  obtain ⟨hgen, hrst, -⟩ := hfabric
  rw [warmReset_eq]
  generalize warmFabric s = u at hgen hrst
  have hnis : Keeps State.rst u ((niList u).foldl warmNi u) := Keeps.foldl (fun t n _ => by
    have hwhole := (warmNi_spec t n).1.whole
    unfold Keeps
    rw [hwhole]) u
  refine ⟨((warmRest_spec _ (q := 0) (by decide)).2.1.trans hnis).trans hrst, fun n hn => ?_, fun q hq => (warmRest_spec _ hq).1⟩
  have hnu : isNi u n = true := by
    rw [← hn]
    unfold isNi isEpNi isSvcNi nEpNis nRinks
    rw [hgen]
  obtain ⟨v, -, hv⟩ := spares_foldl_step (fun s n => (warmNi_spec s n).1) (niList_nodup u) (mem_niList hnu) u
  rw [(warmRest_spec _ (q := 0) (by decide)).2.2 n]
  exact (congrArg (fun v => v.1) hv.rst).trans (warmNi_spec v n).2

/-! The work that starts again at the release. -/

theorem injectOwn_niWork (s : State) (n : Nat) (p : Plane) (m : Msg) (att : Option Bool) : NiWork n s (injectOwn s n p m att) := by
  obtain ⟨c, q, hni⟩ := getNi_injectOwn s n p m att
  exact { (injectOwn_niOnly s n p m att).niBlock with kept := by rw [hni]; rfl }

theorem etcNeed_niWork (s : State) {n : Nat} (inst : BitVec 4) (x : BitVec 19) (hn : n < 128) : NiWork n s (etcNeed s n inst x) := by
  have hfill : ∀ (t : State) (tag : Tag), NiWork n t (sendFill t n inst x tag) := fun t tag =>
    (injectOwn_niWork t n .req (fillMsg t n inst x tag) none).trans ((evNi_noteOnly _ n 12 1 hn (by decide)).noted.niWork n)
  exact .ite (.refl n s) ((NiWork.updNi n s fun _ => by rfl).trans (hfill ..))

theorem allocTrk_niWork (s : State) (n : Nat) (e : Trk) : NiWork n s (allocTrk s n e).2 := by
  unfold allocTrk
  split <;> dsimp only
  · exact ((noted_takeFree s).niWork n).trans (.updNi n _ fun _ => by rfl)
  · exact .refl n s

theorem rstOf_etcTouch (i : Ni) (inst : BitVec 4) (x : BitVec 19) : rstOf (etcTouch i inst x) = rstOf i := by
  unfold etcTouch
  split <;> rfl

/-- A request of the engines with a destination joins its service NI. -/
theorem engSend_niWork (s : State) {n : Nat} (q code opc fa : Nat) (d : BitVec 12) (nbytes : Nat) (data : List Line) (hn : n < 128) :
    NiWork n s (engSend s n q code opc fa (some d) nbytes data) := by
  have htrk : ∀ (c : Bool) (e : Trk), NiWork n s (if c then (none, s) else allocTrk s n e).2 := fun c e => by
    split
    · exact .refl n s
    · exact allocTrk_niWork s n e
  unfold engSend
  rw [if_neg (by simp)]
  dsimp only
  split
  · exact ((htrk _ _).trans (.updNi n _ fun _ => by rfl)).trans ((etcNeed_niWork _ _ _ hn).trans (.updNi n _ fun _ => rstOf_etcTouch ..))
  · exact (htrk _ _).trans (.updNi n _ fun _ => by rfl)

section
variable {n : Nat}

theorem pumpHome_keepsRst (s : State) (h fuel : Nat) : KeepsRst n s (pumpHome s h fuel) := by
  have hout : ∀ (t : State) (l : List HomeWrite), KeepsRst n t (setHomeOut t h l) := fun _ _ => by rfl
  induction fuel generalizing s with
  | zero => rfl
  | succ fuel ih =>
    unfold pumpHome
    split
    · rfl
    · exact .ite (((hout s _).trans (engSend_niWork _ _ _ _ _ _ _ _ (by decide)).keepsRst).trans (ih _)) (.refl _ s)

theorem rewriteRecs_keepsRst (s : State) : KeepsRst n s (rewriteRecs s) := by
  have hjrn : ∀ (t : State) (j : Jrn), KeepsRst n t { t with jrn := j } := fun _ _ => by rfl
  exact ((hjrn s _).trans (Keeps.foldl (fun _ _ _ => by rfl) _)).trans ((pumpHome_keepsRst _ 0 4).trans (pumpHome_keepsRst _ 1 4))

theorem spanImg_keepsRst (s : State) (p : Nat) : KeepsRst n s (spanImg s p) := by
  have hspan : ∀ f : Span → Span, KeepsRst n s (updSpan s p f) := fun _ => by rfl
  exact .ite (.refl _ s) (.ite (.ite (.refl _ s) (hspan _)) (.ite (hspan _) (.refl _ s)))

theorem pushJobs_keepsRst (s : State) (key : Nat) : KeepsRst n s (pushJobs s key) := by
  have hpush : ∀ (k : Nat) (l : List Job), KeepsRst n s (pushOn s k l).2 := fun k l => by
    unfold pushOn
    exact .ite (.refl _ s) (by rfl)
  have hcmd : ∀ (t : State) (f : Cmd → Cmd), KeepsRst n t (updCmd t key f) := fun _ _ => by rfl
  unfold pushJobs
  split
  · split
    · exact (hpush ..).trans (hcmd ..)
    · rfl
  · rfl

theorem submitGroom_keepsRst (s : State) : KeepsRst n s (submitGroom s) := by
  have hcmd : ∀ c, KeepsRst n s (addCmd s c) := fun _ => by rfl
  have hgroom : ∀ (t : State) (key : Nat), KeepsRst n t (groomStart t key) := fun t key => by
    have hwr : ∀ (u : State) (a : Nat) (v : Word), KeepsRst n u (wr u a v) := fun _ _ _ => by rfl
    have hupd : ∀ (u : State) (f : Cmd → Cmd), KeepsRst n u (updCmd u key f) := fun _ _ => by rfl
    have hjrn : ∀ (u : State) (j : Jrn), KeepsRst n u { u with jrn := j } := fun _ _ => by rfl
    have hreserve : ∀ (u : State) (h : Nat), KeepsRst n u (reserve u h) := fun u h => by
      unfold reserve setLp
      exact hwr ..
    unfold groomStart setFlag
    exact ((hjrn t _).trans ((hreserve _ 0).trans (hreserve _ 1))).trans ((hwr ..).trans ((hupd ..).trans (pushJobs_keepsRst _ key)))
  exact .ite (.refl _ s) ((hcmd _).trans (hgroom _ _))

/-! What waits at the power controller starts. -/

theorem driveVid_keepsRst (s : State) (code : Nat) (wait : Bool) : KeepsRst n s (driveVid s code wait) := by
  rw [driveVid_spec]
  rfl

theorem loseRegion_keepsRst (s : State) (kind i : Nat) : KeepsRst n s (loseRegion s kind i) := by
  unfold loseRegion
  split
  · exact Keeps.foldl (fun t x _ => Keeps.trans (by rfl : KeepsRst n t (updRtr t x _)) (wordsReset_keepsRst ..)) s
  · exact Keeps.foldl (fun _ _ _ => by rfl) s
  · exact (updNi_keepsRst s i fun _ => by rfl).trans (wordsReset_keepsRst ..)

theorem drainBegin_keepsRst (s : State) (q : PwrReq) : KeepsRst n s (drainBegin s q) := by
  have hpwr : ∀ p : Pwr, KeepsRst n s { s with pwr := p } := fun _ => by rfl
  have hjobs : ∀ (t : State) (b : Nat), KeepsRst n t (moveJobs t b) := fun t b => by
    have heng := moveJobs_eng t b
    generalize moveJobs t b = u at heng
    rw [heng]
    rfl
  have hdrain : ∀ (t : State) (m : Nat) (d : Bool), KeepsRst n t (drainHandshake (startDrain t m d) m) := fun t m d => by
    have hstart : KeepsRst n t (startDrain t m d) := (updNi_keepsRst t m fun _ => by rfl).trans (drainReg_niWork ..).keepsRst
    generalize startDrain t m d = u at hstart
    obtain ⟨hblock, hview⟩ := portAsked_spec u m
    have hasked : KeepsRst n u (portAsked u m) := hblock.keepsRst (congrArg (fun v => v.1) hview)
    unfold drainHandshake
    exact hstart.trans (.ite hasked (.refl _ u))
  unfold drainBegin
  dsimp only
  split
  · exact (hpwr _).trans (hjobs ..)
  · exact (hpwr _).trans (hdrain ..)
  · exact hpwr _

theorem pwrTry_keepsRst (s : State) (q : PwrReq) : OkKeeps (rstAt n) s (pwrTry s q) := by
  have hpwr : ∀ (t : State) (p : Pwr), KeepsRst n t { t with pwr := p } := fun _ _ => by rfl
  have hlevel : ∀ p code, KeepsRst n s (driveVid { s with pwr := p } code true) := fun p code => (hpwr s p).trans (driveVid_keepsRst ..)
  have hphase : ∀ (t : State) (ph : Nat), KeepsRst n t (setPhase t ph) := fun _ _ => by rfl
  refine .ite (.error _) (.ite ?level (.ite (.error _) (.ite (.error _) (.ite ?wake ?sleep))))
  case level => exact .ite (.error _) (.ite (.error _) (.ite (.ok (hpwr ..)) (.ok (.ite (hlevel _ _) ((hlevel _ _).trans (hphase _ 1))))))
  case wake => exact .ite (.error _) (.ite (.ok (hpwr ..)) (.ite (.ok (hpwr ..)) (.ok (hpwr ..))))
  case sleep =>
    split
    · exact .error _
    · refine .ite (.ite (.ok (hpwr ..)) (.ok (drainBegin_keepsRst ..))) (.ok (Keeps.trans (.ite ?_ (.refl _ s)) (hpwr ..)))
      exact (hpwr s _).trans (loseRegion_keepsRst ..)

theorem pwrFinish_keepsRst (s : State) (r : BitVec 24) (code : Nat) (agedown : Bool) : KeepsRst n s (pwrFinish s r code agedown) := by
  have hended := pwrFinish_ended s r code agedown
  have hin := congrArg (fun v => v.1) (hended.nis n).rst
  have hwhole := hended.whole
  unfold KeepsRst Keeps rstAt
  rw [show (getNi (pwrFinish s r code agedown) n).inRst = (getNi s n).inRst from hin, hwhole]

theorem pwrNext_keepsRst (s : State) (fuel : Nat) : KeepsRst n s (pwrNext s fuel) := by
  induction fuel generalizing s with
  | zero => rfl
  | succ fuel ih =>
    have hpwr : ∀ p : Pwr, KeepsRst n s { s with pwr := p } := fun _ => by rfl
    unfold pwrNext
    split
    · rfl
    · split
      · dsimp only
        split
        · next hok => exact (hpwr _).trans (pwrTry_keepsRst _ _ _ hok)
        · exact ((hpwr _).trans (pwrFinish_keepsRst ..)).trans (ih _)
      · split
        · dsimp only
          split
          · next hok => exact (hpwr _).trans (pwrTry_keepsRst _ _ _ hok)
          · exact ((hpwr _).trans (pwrFinish_keepsRst ..)).trans (ih _)
        · rfl

end

/-! The commands. -/

/-- At its release an NI that no port's handshake holds leaves reset. -/
def niReleased (s t : State) (n : Nat) : State := if isEpNi s n && portEn s n then t else updNi t n fun i => { i with inRst := false }

theorem niReleased_block (s t : State) (n : Nat) : NiBlock n t (niReleased s t n) := .ite (.refl n t) (.updNi ..)

/-- The NIs are released. -/
def warmReleased (s : State) : State :=
  (niList s).foldl (niReleased s) { s with rst := { s.rst with warm := 0, warmAt := none, wrstN := true } }

theorem warmReleased_spec (s : State) : (warmReleased s).rst = { s.rst with warm := 0, warmAt := none, wrstN := true } ∧
    ∀ n, isNi s n = true → (isEpNi s n = false ∨ portEn s n = false) → (getNi (warmReleased s) n).inRst = false := by
  have hrst : Keeps State.rst { s with rst := { s.rst with warm := 0, warmAt := none, wrstN := true } } (warmReleased s) :=
    Keeps.foldl (fun t n _ => by
      have hwhole := (niReleased_block s t n).whole
      unfold Keeps
      rw [hwhole]) _
  refine ⟨hrst, fun n hn hoff => ?_⟩
  obtain ⟨u, -, hu⟩ := spares_foldl_step (niReleased_block s) (niList_nodup s) (mem_niList hn)
    { s with rst := { s.rst with warm := 0, warmAt := none, wrstN := true } }
  have hfree : (getNi (niReleased s u n) n).inRst = false := by
    unfold niReleased
    rw [if_neg (by obtain h | h := hoff <;> simp [h]), getNi_updNi_same]
  exact (congrArg (fun v => v.1) hu.rst).trans hfree

/-- What starts again behind the release. -/
def warmResumed (s : State) (t : State) : State :=
  let s3 := rewriteRecs ((List.range (nSpans s)).foldl spanImg t)
  pwrNext (raiseGFree (if s3.jrn.replaceHome.isEmpty then s3 else submitGroom s3) 248 0x172 0) 3

theorem warmResumed_keepsRst {n : Nat} (s t : State) : KeepsRst n t (warmResumed s t) := by
  have hnote : ∀ u : State, KeepsRst n u (raiseGFree u 248 0x172 0) := fun u => ((noted_raiseGFree u 248 0x172 0).niWork 0).keepsRst
  have hgroom : ∀ u : State, KeepsRst n u (if u.jrn.replaceHome.isEmpty then u else submitGroom u) := fun u =>
    .ite (.refl _ u) (submitGroom_keepsRst u)
  exact ((Keeps.foldl (fun u p _ => spanImg_keepsRst u p) t).trans (rewriteRecs_keepsRst _)).trans
    (((hgroom _).trans (hnote _)).trans (pwrNext_keepsRst _ 3))

section
variable {s : State}

theorem exec_warm_start {c : Instr} {cause : Nat} (hc : (c = .glbRstWarm .cp ∧ cause = 4) ∨ (c = .warmResetAssert ∧ cause = 3)) :
    exec c s = answer s (warmStart { s with rst := { s.rst with wrstN := s.rst.wrstN && cause == 4 } } cause) := by
  obtain ⟨rfl, rfl⟩ | ⟨rfl, rfl⟩ := hc
  · have hback : { s with rst := { s.rst with wrstN := s.rst.wrstN && (4 : Nat) == 4 } } = s := by
      rw [show ((4 : Nat) == 4) = true from rfl, Bool.and_true]
    rw [hback]
    exact congrArg (answer s) (if_pos rfl)
  · rw [show ((3 : Nat) == 4) = false from rfl, Bool.and_false]
    rfl

theorem exec_glbRstWarm_again (h : s.rst.warm ≠ 0) : exec (.glbRstWarm .cp) s = answer s s :=
  congrArg (answer s) ((if_pos rfl).trans (if_pos (.inl h)))

/-- Every enabled port has answered, or the time is over. -/
theorem warmQuiet_of (h : (∀ n, isEpNi s n = true → portEn s n = true → (getNi s n).region = 0 → (getNi s n).port.inEp = true) ∨
    s.rst.warmNs + 1000000 ≤ nowNs s) : warmQuiet s = true := by
  unfold warmQuiet
  obtain hports | hover := h
  · refine Bool.or_eq_true_iff.mpr (.inl (List.all_eq_true.mpr fun n hn => ?_))
    have hep : isEpNi s n = true := decide_eq_true (List.mem_range.mp hn)
    by_cases hen : portEn s n = true
    · by_cases hon : (getNi s n).region = 0
      · simp [hports n hep hen hon]
      · exact Bool.or_eq_true_iff.mpr (.inl (Bool.or_eq_true_iff.mpr (.inr (bne_iff_ne.mpr hon))))
    · simp [hen]
  · exact Bool.or_eq_true_iff.mpr (.inr (decide_eq_true hover))

theorem exec_warmQuiesceDone (hwarm : s.rst.warm = 1) (hquiet : warmQuiet s = true) : exec .warmQuiesceDone s = answer s
    { (warmReset s) with rst := { (warmReset s).rst with warm := 2, warmAt := some ((frameOf s + 1) % 2 ^ 48) } } :=
  congrArg (answer s) (if_pos ⟨hwarm, hquiet⟩)

theorem exec_warmResetRelease {f : Nat} (hwarm : s.rst.warm = 2) (hat : s.rst.warmAt = some f) (hf : frameGe (frameOf s) f = true) :
    exec .warmResetRelease s = answer s (warmResumed s (warmReleased s)) := by
  change execWarmResetRelease s = _
  unfold execWarmResetRelease warmResumed warmReleased niReleased
  simp only [hwarm, hat, hf, Bool.not_true, Bool.false_eq_true, if_false]

end

/-- Settles O44: the start marks every NI whose port is enabled and ON, the reset every NI and ring, and the release frees the NIs that no
port's handshake holds; what else a step does leaves these as they are. -/
theorem warmResetRunsItsSteps : Obligations.WarmResetRunsItsSteps := by
  unfold Obligations.WarmResetRunsItsSteps
  refine ⟨fun s c cause hwarm hcold hc => ?start, fun s hwarm => ?again, fun s hwarm hquiet => ?reset, fun s f hwarm hat hf => ?release⟩
  case start =>
    have hcause : cause < 8 := by omega
    obtain ⟨hgen, hpending, hlcs, hrst, hfield, htime, hpend, himg, hports⟩ := warmStart_spec
      (s := { s with rst := { s.rst with wrstN := s.rst.wrstN && cause == 4 } }) hcause hwarm hcold
    exact completes_of_answer (exec_warm_start hc) hgen hpending (congrArg Lcs.fuse hlcs) ⟨hrst, hfield, htime, hpend, himg, hports⟩
  case again => exact completes_of_answer (exec_glbRstWarm_again hwarm) rfl rfl rfl rfl
  case reset =>
    obtain ⟨hrst, hnis, hrings⟩ := warmReset_spec s
    refine completes_of_answered (exec_warmQuiesceDone hwarm (warmQuiet_of hquiet)) ⟨?_, hnis, hrings⟩
    dsimp only
    rw [hrst]
  case release =>
    obtain ⟨hrst, hnis⟩ := warmReleased_spec s
    have hkeep := fun n => warmResumed_keepsRst (n := n) s (warmReleased s)
    have hexec := exec_warmResetRelease hwarm hat hf
    generalize warmReleased s = u at hrst hnis hkeep hexec
    generalize warmResumed s u = t at hkeep hexec
    simp only [KeepsRst, Keeps, rstAt, Prod.mk.injEq] at hkeep
    exact completes_of_answered hexec ⟨(hkeep 0).2.1.trans hrst, fun n hn hoff => (hkeep n).2.2.trans (hnis n hn hoff)⟩

end Sys2Proof.Machine
end

section
/-! PROOF. A slice reset removes what its own slice has and leaves the other slices (11 R239 to R245; for O25). -/

namespace Sys2Proof.Machine

/-! The slices of an NI. -/

theorem getSlice_updSlice (i : Ni) (k j : Nat) (f : Slice → Slice) : getSlice (updSlice i k f) j = if j = k then f (getSlice i k) else getSlice i j := by
  unfold getSlice updSlice mupd
  by_cases h : j = k
  · subst h
    simp
  · rw [if_neg h]
    exact mgetD_mset_ne _ _ _ _ _ h

/-- The words that resets of slices write. -/
def sliceWords (n : Nat) : List Nat := aNi n 0x100 :: aNi n 0x110 :: (List.range 16).map fun j => aNi n (0x210 + 0x20 * j)

theorem mem_sliceWords {n off : Nat} (h : aNi n off ∈ sliceWords n) : off = 0x100 ∨ off = 0x110 ∨ ∃ j < 16, off = 0x210 + 0x20 * j := by
  unfold sliceWords aNi at h
  simp only [List.mem_cons, List.mem_map, List.mem_range] at h
  obtain h | h | ⟨j, hj, h⟩ := h
  · exact .inl (by omega)
  · exact .inr (.inl (by omega))
  · exact .inr (.inr ⟨j, hj, by omega⟩)

theorem aNi_mem_sliceWords (n : Nat) {j : Nat} (h : j < 16) : aNi n (0x210 + 0x20 * j) ∈ sliceWords n :=
  List.mem_cons_of_mem _ (List.mem_cons_of_mem _ (List.mem_map.mpr ⟨j, List.mem_range.mpr h, rfl⟩))

/-! What one reset does to its NI. -/

/-- The unissued posted writes of a slice. -/
def sliceWrites (i : Ni) (k : Nat) : List Req := i.reqs.filter fun r => r.posted && !r.issued && !r.piste && r.slice.toNat == k

theorem discardWrites_slice (s : State) (n k : Nat) : (discardWrites s n (some k)).2 =
    if (sliceWrites (getNi s n) k).isEmpty then incSat (dropReqs s n (sliceWrites (getNi s n) k)) (aNi n 0x110) (sliceWrites (getNi s n) k).length
    else setFlag (incSat (dropReqs s n (sliceWrites (getNi s n) k)) (aNi n 0x110) (sliceWrites (getNi s n) k).length) (aNi n 0x100) 1 := rfl

/-- The unissued posted writes of a slice leave; no other request does. -/
theorem discardWrites_slice_spec (s : State) (n k : Nat) : NiNote n (sliceWords n) s (discardWrites s n (some k)).2 ∧
    ∃ rs qs xs, getNi (discardWrites s n (some k)).2 n = { getNi s n with
        reqs := rs, sched := { (getNi s n).sched with queues := qs }, port := { (getNi s n).port with rqRx := xs } } ∧
      ∀ r, r ∈ rs ↔ r ∈ (getNi s n).reqs ∧ ∀ w ∈ sliceWrites (getNi s n) k, w.id ≠ r.id := by
  have hcount : NiNote n (sliceWords n) s
      (incSat (dropReqs s n (sliceWrites (getNi s n) k)) (aNi n 0x110) (sliceWrites (getNi s n) k).length) :=
    ((dropReqs_niOnly s n _).niNote _).trans (.incSat _ _ (by simp [sliceWords]))
  have hleft := foldl_dropReq (sliceWrites (getNi s n) k) (getNi s n)
  rw [← getNi_dropReqs] at hleft
  rw [discardWrites_slice]
  refine ⟨.ite hcount (hcount.trans (.setFlag _ 1 (by simp [sliceWords]))), ?_⟩
  split <;> exact hleft

/-- A slice whose reset begins: its end and its new generation. -/
def sliceMark (e : Nat) (c : Slice) : Slice := { c with rst := true, rstEnd := e, gen := c.gen + 1 }

/-- A slice whose reset has begun: no share credit, and the count of its ended requests. -/
def sliceDone (ns ended : Nat) (c : Slice) : Slice := { c with sc := 0, scUpd := ns, ended := ended }

/-- The slice's reset is marked at its NI. -/
def sliceMarked (s : State) (n k : Nat) : State := updNi s n fun i => updSlice i k (sliceMark (sliceEndAt s n k))

/-- The discarded writes are notified. -/
def sliceDiscarded (s : State) (n k : Nat) : State :=
  if (discardWrites s n (some k)).1 = 0 then (discardWrites s n (some k)).2
  else raiseNi (discardWrites s n (some k)).2 n 0x101 1 (discardWrites s n (some k)).1 k

theorem sliceDiscarded_spec (s : State) (n k : Nat) : NiNote n (sliceWords n) s (sliceDiscarded s n k) ∧
    ∃ rs qs xs ns, getNi (sliceDiscarded s n k) n = { getNi s n with
        reqs := rs, sched := { (getNi s n).sched with queues := qs }, port := { (getNi s n).port with rqRx := xs, ntfQ := ns } } ∧
      ∀ r, r ∈ rs ↔ r ∈ (getNi s n).reqs ∧ ∀ w ∈ sliceWrites (getNi s n) k, w.id ≠ r.id := by
  obtain ⟨hnote, rs, qs, xs, hni, hmem⟩ := discardWrites_slice_spec s n k
  unfold sliceDiscarded
  generalize discardWrites s n (some k) = d at hnote hni
  have hraised : Noted d.2 (if d.1 = 0 then d.2 else raiseNi d.2 n 0x101 1 d.1 k) := by
    split
    · exact .refl _
    · exact noted_raiseNi ..
  obtain ⟨ns, hns⟩ := (hraised.nis n).exists_ntfQ
  refine ⟨hnote.trans (hraised.niNote n _), rs, qs, xs, ns, ?_, hmem⟩
  rw [hns, hni]

theorem sliceResetStart_eq {s : State} {n k : Nat} (h : slcRst s n k = false) : sliceResetStart s n k =
    updNi (dropSliceErs (updNi (sliceDiscarded (sliceMarked s n k) n k) n fun i => endSliceReqs i k) n k) n fun i => updSlice i k
      (sliceDone (nowNs s) ((getNi s n).reqs.filter fun r => r.slice.toNat == k && !r.posted).length) :=
  if_neg (by rw [h]; decide)

/-- How t stands to s after a reset of slice k of NI n has begun: its requests, entries and waiting responses are gone, and no other slice's. -/
structure SliceBegun (n k : Nat) (s t : State) : Prop where
  note : NiNote n (sliceWords n) s t
  slices : ∀ j, getSlice (getNi t n) j = if j = k then
      sliceDone (nowNs s) ((getNi s n).reqs.filter fun r => r.slice.toNat == k && !r.posted).length
        (sliceMark (sliceEndAt s n k) (getSlice (getNi s n) k))
    else getSlice (getNi s n) j
  gone : ∀ r ∈ (getNi t n).reqs, r ∈ (getNi s n).reqs ∧ r.slice.toNat ≠ k
  left : ∀ r ∈ (getNi s n).reqs, r.slice.toNat ≠ k → (∀ w ∈ (getNi s n).reqs, w.slice.toNat = k → w.id ≠ r.id) → r ∈ (getNi t n).reqs
  trk : (getNi t n).trk = (getNi s n).trk.filter fun p => p.2.slice.toNat != k
  ersB : (getNi t n).port.ersB = (getNi s n).port.ersB.filter fun e => !egrOf k e
  ersG : (getNi t n).port.ersG = (getNi s n).port.ersG.filter fun e => !egrOf k e

/-- The requests of a slice end: the NI keeps those of the other slices. -/
theorem endSliceReqs_spec (i : Ni) (k : Nat) : ∃ rs qs xs fs, endSliceReqs i k = { i with
      reqs := rs, sched := { i.sched with queues := qs }, port := { i.port with rqRx := xs }, trk := i.trk.filter fun p => p.2.slice.toNat != k
      fences := fs } ∧
    (∀ r ∈ rs, r ∈ i.reqs ∧ r.slice.toNat ≠ k) ∧
    ∀ r ∈ i.reqs, r.slice.toNat ≠ k → (∀ w ∈ i.reqs, w.slice.toNat = k → w.id ≠ r.id) → r ∈ rs := by
  obtain ⟨rs, qs, xs, hend, hmem⟩ := foldl_dropReq ((i.reqs.filter fun r => r.slice.toNat == k).filter fun r => !r.piste) i
  refine ⟨rs.filter fun r => r.slice.toNat != k, qs, xs, i.fences.filter fun f => f.slice.toNat != k || f.strobe.isSome, ?_, fun r hr => ?_, fun r hr hne hids => ?_⟩
  · unfold endSliceReqs
    dsimp only
    rw [hend]
  · obtain ⟨hin, hslice⟩ := List.mem_filter.mp hr
    exact ⟨((hmem r).mp hin).1, bne_iff_ne.mp hslice⟩
  · refine List.mem_filter.mpr ⟨(hmem r).mpr ⟨hr, fun w hw => ?_⟩, bne_iff_ne.mpr hne⟩
    obtain ⟨hslice, -⟩ := List.mem_filter.mp hw
    obtain ⟨hin, hslice⟩ := List.mem_filter.mp hslice
    exact hids w hin (beq_iff_eq.mp hslice)

theorem sliceResetStart_begun {s : State} {n k : Nat} (hk : k < 16) (h : slcRst s n k = false) : SliceBegun n k s (sliceResetStart s n k) := by
  have hmark : NiNote n (sliceWords n) s (sliceMarked s n k) := .updNi ..
  have hmarked : getNi (sliceMarked s n k) n = updSlice (getNi s n) k (sliceMark (sliceEndAt s n k)) :=
    getNi_updNi_same ..
  obtain ⟨hnote, rs, qs, xs, ns, hni, hmem⟩ := sliceDiscarded_spec (sliceMarked s n k) n k
  rw [sliceResetStart_eq h]
  generalize sliceDiscarded (sliceMarked s n k) n k = u at hnote hni
  have hdrop : ∀ v : State, NiNote n (sliceWords n) v (dropSliceErs v n k) := fun v =>
    (NiNote.updPort ..).trans (.incSat _ _ (aNi_mem_sliceWords n hk))
  have hlast : ∀ f : Slice → Slice, NiNote n (sliceWords n) u (updNi (dropSliceErs (updNi u n fun i => endSliceReqs i k) n k) n fun i => updSlice i k f) ∧
      getNi (updNi (dropSliceErs (updNi u n fun i => endSliceReqs i k) n k) n fun i => updSlice i k f) n =
        updSlice { endSliceReqs (getNi u n) k with port := { (endSliceReqs (getNi u n) k).port with
          ersG := (endSliceReqs (getNi u n) k).port.ersG.filter fun e => !egrOf k e
          ersB := (endSliceReqs (getNi u n) k).port.ersB.filter fun e => !egrOf k e } } k f := fun f => by
    refine ⟨((NiNote.updNi ..).trans (hdrop _)).trans (.updNi ..), ?_⟩
    rw [getNi_updNi_same, dropSliceErs, getNi_incSat, getNi_updPort_same, getNi_updNi_same]
  obtain ⟨hrest, hfinal⟩ := hlast
    (sliceDone (nowNs s) ((getNi s n).reqs.filter fun r => r.slice.toNat == k && !r.posted).length)
  generalize updNi (dropSliceErs (updNi u n fun i => endSliceReqs i k) n k) n _ = v at hrest hfinal
  obtain ⟨rs', qs', xs', fs, hend, hgone, hleft⟩ := endSliceReqs_spec (getNi u n) k
  rw [hmarked] at hni hmem
  rw [hni] at hgone hleft
  rw [hend, hni] at hfinal
  refine ⟨(hmark.trans hnote).trans hrest, fun j => ?_, fun r hr => ?_, fun r hr hne hids => ?_, ?_, ?_, ?_⟩
  · have hslices : (getNi v n).slices = (updSlice (updSlice (getNi s n) k (sliceMark (sliceEndAt s n k))) k
        (sliceDone (nowNs s) ((getNi s n).reqs.filter fun r => r.slice.toNat == k && !r.posted).length)).slices := by rw [hfinal]; rfl
    rw [getSlice, hslices]
    refine (getSlice_updSlice ..).trans ?_
    by_cases hj : j = k
    · rw [if_pos hj, if_pos hj, getSlice_updSlice, if_pos rfl]
    · rw [if_neg hj, if_neg hj, getSlice_updSlice, if_neg hj]
  · rw [hfinal] at hr
    obtain ⟨hin, hne⟩ := hgone r hr
    exact ⟨((hmem r).mp hin).1, hne⟩
  · rw [hfinal]
    refine hleft r ((hmem r).mpr ⟨hr, fun w hw => ?_⟩) hne fun w hw => hids w ((hmem w).mp hw).1
    obtain ⟨hin, hcond⟩ := List.mem_filter.mp hw
    exact hids w hin (beq_iff_eq.mp (Bool.and_eq_true_iff.mp hcond).2)
  · rw [hfinal]
    rfl
  · rw [hfinal]
    rfl
  · rw [hfinal]
    rfl

/-! What a run of resets leaves of a slice. -/

/-- What the resets of other slices than j leave: slice j, its tracker entries, and its requests whose ids no other slice's has. -/
structure SliceApart (n j : Nat) (s t : State) : Prop where
  note : NiNote n (sliceWords n) s t
  slice : getSlice (getNi t n) j = getSlice (getNi s n) j
  reqs : ∀ r ∈ (getNi t n).reqs, r ∈ (getNi s n).reqs
  left : ∀ r ∈ (getNi s n).reqs, r.slice.toNat = j → (∀ w ∈ (getNi s n).reqs, w.slice.toNat ≠ j → w.id ≠ r.id) → r ∈ (getNi t n).reqs
  trk : ∀ p ∈ (getNi t n).trk, p ∈ (getNi s n).trk
  own : ((getNi t n).trk.filter fun p => p.2.slice.toNat == j) = (getNi s n).trk.filter fun p => p.2.slice.toNat == j
  ersB : ∀ e ∈ (getNi t n).port.ersB, e ∈ (getNi s n).port.ersB
  ersG : ∀ e ∈ (getNi t n).port.ersG, e ∈ (getNi s n).port.ersG

theorem SliceApart.refl (n j : Nat) (s : State) : SliceApart n j s s :=
  ⟨.refl .., rfl, fun _ h => h, fun _ h _ _ => h, fun _ h => h, rfl, fun _ h => h, fun _ h => h⟩

theorem SliceApart.trans {n j : Nat} {s t u : State} (h : SliceApart n j s t) (k : SliceApart n j t u) : SliceApart n j s u where
  note := h.note.trans k.note
  slice := k.slice.trans h.slice
  reqs r hr := h.reqs r (k.reqs r hr)
  left r hr hslice hids := k.left r (h.left r hr hslice hids) hslice fun w hw => hids w (h.reqs w hw)
  trk p hp := h.trk p (k.trk p hp)
  own := k.own.trans h.own
  ersB e he := h.ersB e (k.ersB e he)
  ersG e he := h.ersG e (k.ersG e he)

theorem SliceBegun.apart {n k j : Nat} {s t : State} (h : SliceBegun n k s t) (hne : j ≠ k) : SliceApart n j s t where
  note := h.note
  slice := (h.slices j).trans (if_neg hne)
  reqs r hr := (h.gone r hr).1
  left r hr hslice hids := h.left r hr (by omega) fun w hw hwk => hids w hw (by omega)
  trk p hp := by
    rw [h.trk] at hp
    exact List.mem_of_mem_filter hp
  own := by
    rw [h.trk, List.filter_filter]
    refine List.filter_congr fun p _ => ?_
    by_cases hp : p.2.slice.toNat = j
    · simp [hp, hne]
    · simp [hp]
  ersB e he := by
    rw [h.ersB] at he
    exact List.mem_of_mem_filter he
  ersG e he := by
    rw [h.ersG] at he
    exact List.mem_of_mem_filter he

/-- A request for a slice begins its reset, or does nothing. -/
theorem sliceResetReq_apart {s : State} {n k j : Nat} (hk : k < 16) (hne : j ≠ k) : SliceApart n j s (sliceResetReq s n k) := by
  unfold sliceResetReq
  split
  · by_cases hrst : slcRst s n k = true
    · rw [sliceResetStart, if_pos hrst]
      exact .refl ..
    · exact (sliceResetStart_begun hk (Bool.eq_false_iff.mpr hrst)).apart hne
  · exact .refl ..

theorem sliceResets_apart {n j : Nat} {l : List Nat} (hl : ∀ k ∈ l, k < 16) (hj : j ∉ l) (s : State) :
    SliceApart n j s (l.foldl (fun t k => sliceResetReq t n k) s) := by
  induction l generalizing s with
  | nil => exact .refl ..
  | cons k l ih =>
    rw [List.mem_cons, not_or] at hj
    exact (sliceResetReq_apart (hl k (List.mem_cons_self ..)) hj.1).trans (ih (fun m hm => hl m (List.mem_cons_of_mem k hm)) hj.2 _)

/-- In a run of requests, each slice once, slice j is as its own request left it. -/
theorem sliceResets_step {n j : Nat} {l : List Nat} (hl : ∀ k ∈ l, k < 16) (hnodup : l.Nodup) (hj : j ∈ l) (s : State) :
    ∃ u, SliceApart n j s u ∧ SliceApart n j (sliceResetReq u n j) (l.foldl (fun t k => sliceResetReq t n k) s) := by
  induction l generalizing s with
  | nil => cases hj
  | cons k l ih =>
    have hrest := fun m hm => hl m (List.mem_cons_of_mem k hm)
    rw [List.nodup_cons] at hnodup
    by_cases hk : j = k
    · subst hk
      exact ⟨s, .refl .., sliceResets_apart hrest hnodup.1 _⟩
    · obtain ⟨u, hu, ht⟩ := ih hrest hnodup.2 ((List.mem_cons.mp hj).resolve_left hk) (sliceResetReq s n k)
      exact ⟨u, (sliceResetReq_apart (hl k (List.mem_cons_self ..)) hk).trans hu, ht⟩

theorem NiNote.rd_of_not_mem {n off : Nat} {l : List Nat} {s t : State} (h : NiNote n l s t) (hn : n < 128) (hl : aNi n off ∉ l)
    (ho : off < 0x2000) (hlost : off ≠ 0x20) : rd t (aNi n off) = rd s (aNi n off) := h.2.1 _ hl (noteWord_aNi hn ho hlost)

theorem SliceApart.sliceEndAt {n j : Nat} {s t : State} (h : SliceApart n j s t) (hn : n < 128) : sliceEndAt t n j = sliceEndAt s n j := by
  have hgap : rd t (aNi n 0x158) = rd s (aNi n 0x158) :=
    h.note.rd_of_not_mem hn (fun hmem => by have := mem_sliceWords hmem; omega) (by decide) (by decide)
  have hslice := h.slice
  have hwhole := h.note.1
  unfold Machine.sliceEndAt minGap rdF nowNs
  rw [hgap, hslice, hwhole]

theorem SliceApart.slcAct {n j : Nat} {s t : State} (h : SliceApart n j s t) (hn : n < 128) (hj : j < 16) : slcAct t n j = slcAct s n j := by
  unfold Machine.slcAct slcCfg
  rw [h.note.rd_of_not_mem hn (fun hmem => by have := mem_sliceWords hmem; omega) (by omega) (by omega)]

theorem mem_onesOf {m : Nat} {mask : BitVec 16} (h : m < 16) : m ∈ onesOf 16 mask.toNat ↔ mask.getLsbD m = true := by
  unfold onesOf
  rw [List.mem_filter, List.mem_range, BitVec.getLsbD]
  exact and_iff_right h

theorem egrOf_eq_false {j : Nat} {e : Egr} (h : (!egrOf j e) = true) : e.slice ≠ some (BitVec.ofNat 4 j) := by
  unfold egrOf at h
  simpa using h

/-- The state after a request of resets. -/
def slicesReset (s : State) (n : Nat) (mask : BitVec 16) : State := (onesOf 16 mask.toNat).foldl (fun t k => sliceResetReq t n k) s

theorem onesOf_spec (mask : BitVec 16) : (∀ k ∈ onesOf 16 mask.toNat, k < 16) ∧ (onesOf 16 mask.toNat).Nodup :=
  ⟨fun _ hk => List.mem_range.mp (List.mem_of_mem_filter hk), List.nodup_range.filter _⟩

/-- Each active slice that the mask names is reset, unless its reset runs. -/
theorem slicesReset_asked {s : State} {n j : Nat} {mask : BitVec 16} (hn : n < 128) (hj : j < 16) (hmask : mask.getLsbD j = true)
    (hact : slcAct s n j = true) (hrst : slcRst s n j = false) : ∃ u v, SliceApart n j s u ∧ SliceBegun n j u v ∧ SliceApart n j v (slicesReset s n mask) := by
  obtain ⟨hl, hnodup⟩ := onesOf_spec mask
  obtain ⟨u, hu, ht⟩ := sliceResets_step (n := n) hl hnodup ((mem_onesOf hj).mpr hmask) s
  have hrstu : slcRst u n j = false := by rw [slcRst, hu.slice]; exact hrst
  have hreq : sliceResetReq u n j = sliceResetStart u n j := if_pos ((hu.slcAct hn hj).trans hact)
  rw [hreq] at ht
  exact ⟨u, _, hu, sliceResetStart_begun hj hrstu, ht⟩

theorem slicesReset_spared {s : State} {n j : Nat} {mask : BitVec 16} (hn : n < 128) (hj : j < 16)
    (h : mask.getLsbD j = false ∨ slcAct s n j = false ∨ slcRst s n j = true) : SliceApart n j s (slicesReset s n mask) := by
  obtain ⟨hl, hnodup⟩ := onesOf_spec mask
  by_cases hmask : mask.getLsbD j = true
  · obtain ⟨u, hu, ht⟩ := sliceResets_step (n := n) hl hnodup ((mem_onesOf hj).mpr hmask) s
    have hidle : sliceResetReq u n j = u := by
      obtain h | h | h := h
      · rw [hmask] at h
        exact Bool.noConfusion h
      · exact if_neg (by rw [hu.slcAct hn hj, h]; decide)
      · have hrstu : slcRst u n j = true := by rw [slcRst, hu.slice]; exact h
        unfold sliceResetReq
        rw [sliceResetStart, if_pos hrstu, ite_self]
    rw [hidle] at ht
    exact hu.trans ht
  · exact sliceResets_apart hl (fun hmem => hmask ((mem_onesOf hj).mp hmem)) s

theorem slicesReset_note (s : State) (n : Nat) (mask : BitVec 16) : NiNote n (sliceWords n) s (slicesReset s n mask) := by
  have hl := (onesOf_spec mask).1
  have hj : (16 : Nat) ∉ onesOf 16 mask.toNat := fun h => absurd (hl 16 h) (by decide)
  exact (sliceResets_apart (j := 16) hl hj s).note

/-! The end of a slice reset. -/

/-- The slice's reset is over, and its fences have pulsed. -/
def sliceEnded (s : State) (n k : Nat) : State :=
  updNi s n fun i => updSlice (pulseFences i fun f => f.slice.toNat == k) k fun c => { c with rst := false, lastEnd := some (nowNs s) }

section
variable {s : State} {n : NiId}

theorem exec_niSlcRst (mask : BitVec 16) (hni : isNi s n.toNat = true) : exec (.niSlcRst n mask) s = answer s (slicesReset s n.toNat mask) :=
  congrArg (answer s) (if_pos hni)

theorem exec_sliceResetEnd {sl : BitVec 4} (hrst : (getSlice (getNi s n.toNat) sl.toNat).rst = true)
    (hover : (getSlice (getNi s n.toNat) sl.toNat).rstEnd ≤ nowNs s) : ∃ info, exec (.sliceResetEnd n sl) s =
      answer s (raiseNi (sliceEnded s n.toNat sl.toNat) n.toNat 0x110 0 info sl.toNat) :=
  ⟨_, congrArg (answer s) (if_neg (by rw [hrst]; simp; omega))⟩

end

/-- Settles O25: a request resets each named slice at its turn, which no other slice's reset undoes; the end frees the slice and its fences. -/
theorem sliceResetRemovesOneSlice : Obligations.SliceResetRemovesOneSlice := by
  unfold Obligations.SliceResetRemovesOneSlice
  rintro s n k rfl hni
  have hn : n.toNat < 128 := n.isLt
  refine ⟨fun mask => completes_of_niNote (exec_niSlcRst mask hni) (slicesReset_note ..) fun j hj =>
    ⟨fun hmask hact hrst => ?asked, fun hoff => ?spared, slicesReset_note ..⟩, fun sl c hc hrst hover => ?ended⟩
  case asked =>
    obtain ⟨u, v, hu, hv, ht⟩ := slicesReset_asked hn hj hmask hact hrst
    have hslice := ht.slice.trans ((hv.slices j).trans (if_pos rfl))
    rw [hu.slice, hu.sliceEndAt hn] at hslice
    refine ⟨congrArg Slice.rst hslice, congrArg Slice.gen hslice, fun r hr => (hv.gone r (ht.reqs r hr)).2, fun p hp => ?_, fun e he => ?_,
      fun e he => ?_, congrArg Slice.sc hslice, congrArg Slice.rstEnd hslice⟩
    · have hp := ht.trk p hp
      rw [hv.trk] at hp
      exact bne_iff_ne.mp (List.mem_filter.mp hp).2
    · have he := ht.ersB e he
      rw [hv.ersB] at he
      exact egrOf_eq_false (List.mem_filter.mp he).2
    · have he := ht.ersG e he
      rw [hv.ersG] at he
      exact egrOf_eq_false (List.mem_filter.mp he).2
  case spared =>
    have hspared := slicesReset_spared hn hj hoff
    exact ⟨hspared.slice, hspared.own, hspared.left⟩
  case ended =>
    subst hc
    obtain ⟨info, hexec⟩ := exec_sliceResetEnd hrst hover
    have hnoted := noted_raiseNi (sliceEnded s n.toNat sl.toNat) n.toNat 0x110 0 info sl.toNat
    have hni : getNi (sliceEnded s n.toNat sl.toNat) n.toNat = updSlice (pulseFences (getNi s n.toNat) fun f => f.slice.toNat == sl.toNat) sl.toNat
        fun c => { c with rst := false, lastEnd := some (nowNs s) } := getNi_updNi_same ..
    have hnote : NiNote n.toNat [] s (sliceEnded s n.toNat sl.toNat) := .updNi ..
    generalize sliceEnded s n.toNat sl.toNat = u at hexec hnoted hni hnote
    generalize raiseNi u n.toNat 0x110 0 info sl.toNat = t at hexec hnoted
    obtain ⟨ns, hns⟩ := (hnoted.nis n.toNat).exists_ntfQ
    rw [hni] at hns
    have hall := hnote.trans (hnoted.niNote n.toNat [])
    have hsame : ∀ f : Fence, (f.slice.toNat == sl.toNat) = (f.slice == sl) := fun f => by
      rw [Bool.eq_iff_iff, beq_iff_eq, beq_iff_eq]
      exact ⟨BitVec.eq_of_toNat_eq, congrArg _⟩
    refine completes_of_niNote hexec hall ⟨?_, fun f hf => ?_, ?_, fun ids hids => ?_, hall⟩
    · have hslices : (getNi t n.toNat).slices = (updSlice (getNi s n.toNat) sl.toNat fun c => { c with rst := false, lastEnd := some (nowNs s) }).slices := by
        rw [hns]
        rfl
      rw [getSlice, hslices]
      exact (getSlice_updSlice ..).trans (if_pos rfl)
    · rw [hns] at hf
      have hcond : (!(f.slice.toNat == sl.toNat)) = true := (List.mem_filter.mp hf).2
      rw [hsame] at hcond
      simpa using hcond
    · rw [hns]
      rfl
    · have hfences : ((getNi s n.toNat).fences.filter fun f => f.slice.toNat == sl.toNat) = (getNi s n.toNat).fences.filter fun f => f.slice == sl :=
        List.filter_congr fun f _ => hsame f
      rw [hns]
      unfold updSlice pulseFences
      dsimp only
      rw [hfences, ← hids]
      split <;> rfl

end Sys2Proof.Machine
end

section
/-! SUPPORT. What a notification without a port leaves at the NIs, and what the end of a link leaves at the span ports (12 R271 to R275; 23 R478). -/

namespace Sys2Proof.Machine

/-! Notifications without a port, and counts, leave the NIs as they are. -/

theorem routeNote_nis {s : State} {e : Note} (h : e.port = none) : (routeNote s e).nis = s.nis := by
  have hlog : ∀ t : State, (logNote t e).nis = t.nis := fun t => by
    unfold logNote
    split <;> rfl
  have hfwd : ∀ t : State, (fwdNote t e).nis = t.nis := fun t => by
    unfold fwdNote
    dsimp only
    split
    · rfl
    · split <;> rfl
  have hflag : ∀ (t : State) (c : Prop) [Decidable c] (i : Nat), (if c then setFlag t 0x100 i else t).nis = t.nis := fun t c _ i => by split <;> rfl
  unfold routeNote
  rw [h]
  exact (hfwd _).trans ((hlog _).trans (hflag ..))

theorem fireThr_nis (i old new : Nat) (s : State) (j : Nat) : (fireThr i old new s j).nis = s.nis := by
  unfold fireThr
  dsimp only
  split
  · exact routeNote_nis rfl
  · rfl

theorem bump_nis (s : State) (i d : Nat) : (bump s i d).nis = s.nis := by
  have hfire : ∀ (l : List Nat) (old new : Nat) (t : State), (l.foldl (fireThr i old new) t).nis = t.nis := fun l old new =>
    Keeps.foldl (g := State.nis) fun t j _ => fireThr_nis i old new t j
  unfold bump
  split
  · rfl
  · refine (hfire ..).trans ?_
    split <;> rfl

theorem raiseG_nis (s : State) (unit code sev info : Nat) : (raiseG s unit code sev info).nis = s.nis := by
  refine (routeNote_nis rfl).trans ?_
  split
  · exact bump_nis ..
  · rfl

theorem raiseGFree_nis (s : State) (unit code sev : Nat) : (raiseGFree s unit code sev).nis = s.nis := raiseG_nis (takeFree s).2 ..

theorem SpanWork.gen {B : Nat → Nat → Prop} {s t : State} (h : SpanWork B s t) : t.gen = s.gen := by rw [h.whole]
theorem SpanWork.pending {B : Nat → Nat → Prop} {s t : State} (h : SpanWork B s t) : t.pending = s.pending := by rw [h.whole]
theorem SpanWork.lcs {B : Nat → Nat → Prop} {s t : State} (h : SpanWork B s t) : t.lcs = s.lcs := by rw [h.whole]

/-! Span ports: what a flush, a hand-over and a suspension leave of each. -/

/-- A span port but for what it holds for sending. -/
def unheld (x : Span) : Span := { x with seqs := [], waiting := [], replay := [], mig := [], migDone := false }

/-- What the equality of two ports but for what they hold says of their links. -/
theorem link_of_unheld {x y : Span} (h : unheld x = unheld y) : x.up = y.up ∧ x.width = y.width ∧ x.lstate = y.lstate ∧ x.cause = y.cause ∧
    x.ctlDue = y.ctlDue ∧ x.phyUp = y.phyUp ∧ x.rtReq = y.rtReq ∧ x.resumeAt = y.resumeAt := by
  simp only [unheld, Span.mk.injEq] at h
  simp only [h, and_self]

/-- A span port but for its sequence numbers. -/
def unnumbered (x : Span) : Span := { x with seqs := [] }

/-- Every span port seen through a view. -/
def spansBy (v : Span → Span) (s : State) : Nat → Span := fun j => v (getSpan s j)

theorem spansBy_updSpan {v : Span → Span} (s : State) (p : Nat) {f : Span → Span} (h : v (f (getSpan s p)) = v (getSpan s p)) :
    Keeps (spansBy v) s (updSpan s p f) := by
  funext j
  unfold spansBy
  rw [getSpan_updSpan]
  split
  · next e => subst e; exact h
  · rfl

theorem spansBy_of_eq {v : Span → Span} {s t : State} (h : t.spans = s.spans) : Keeps (spansBy v) s t := by
  funext j
  unfold spansBy getSpan
  rw [h]

theorem Noted.spans {s t : State} (h : Noted s t) : t.spans = s.spans := by rw [h.whole]

theorem spanOwn_numbers (s : State) (p : Nat) (pl : Plane) (m : Msg) : Keeps (spansBy unnumbered) s (spanOwn s p pl m) := by
  have hinject : ∀ t m, Keeps (spansBy unnumbered) t (spanInject t p pl m) := fun t m => by
    refine spansBy_of_eq ?_
    unfold spanInject
    dsimp only
    split <;> rfl
  exact (Keeps.ite (spansBy_updSpan s p rfl) (.refl _ s)).trans (hinject _ _)

theorem flushMsg_numbers (s : State) {p : Nat} (hp : p < 8) (m : Msg) : Keeps (spansBy unnumbered) s (flushMsg s p m) := by
  have hcount : Keeps (spansBy unnumbered) s (evSpn (setFlag (incSat s (aSpn p 0x58) 1) (aSpn p 0x18) 3) p 18 1) :=
    spansBy_of_eq (bump_noteOnly (setFlag (incSat s (aSpn p 0x58) 1) (aSpn p 0x18) 3) (8192 + 24 * p + 18) 1 (by omega)).noted.spans
  exact .ite hcount (.ite (hcount.trans (spanOwn_numbers ..)) (.ite hcount (hcount.trans (spanOwn_numbers ..))))

theorem Keeps.unheld {s t : State} (h : Keeps (spansBy unnumbered) s t) : Keeps (spansBy Machine.unheld) s t :=
  funext fun j => by
    have hj : unnumbered (getSpan t j) = unnumbered (getSpan s j) := congrFun h j
    exact (congrArg Machine.unheld hj : Machine.unheld (unnumbered (getSpan t j)) = Machine.unheld (unnumbered (getSpan s j)))

theorem dropPiste_unheld (s : State) {p : Nat} (hp : p < 8) : Keeps (spansBy Machine.unheld) s (dropPiste s p) :=
  (Keeps.foldl (fun t m _ => .ite (.refl _ t) (flushMsg_numbers t hp m).unheld) s).trans (spansBy_updSpan _ p rfl)

theorem suspendFlow_spans (s : State) (id : Nat) : (suspendFlow s id).spans = s.spans := by
  have hent : ∀ (f : Flow) (v : BitVec 256), (wrFlowEnt s f v).spans = s.spans := fun f v => by
    unfold wrFlowEnt
    split <;> rfl
  unfold suspendFlow
  split
  · rfl
  · split
    · rfl
    · dsimp only
      split
      · exact (noted_raiseNi ..).spans.trans (hent ..)
      · exact (noted_raiseG ..).spans.trans (hent ..)

theorem suspendSpan_spans (s : State) (p : Nat) : (suspendSpan s p).spans = s.spans :=
  Keeps.foldl (g := State.spans) (fun t id _ => suspendFlow_spans t id) s

/-- A hand-over leaves every port's link as it is, but that the port that hands over is down. -/
theorem handOver_unheld (s : State) (p q : Nat) (hne : q ≠ p) :
    spansBy Machine.unheld (handOver s p q) = fun j => if j = p then Machine.unheld { getSpan s p with lstate := 5 } else Machine.unheld (getSpan s j) := by
  have hseq : ∀ (l : List Msg) (a : List Msg × State), Keeps (spansBy Machine.unheld) a.2 (l.foldl (fun (a : List Msg × State) m =>
      if m.cls = 2 then ((a.1 ++ [(spanSeq a.2 p m).1], (spanSeq a.2 p m).2)) else (a.1 ++ [m], a.2)) a).2 := fun l =>
    Keeps.foldl_snd fun a m _ => by
      split
      · exact spansBy_updSpan _ p rfl
      · rfl
  unfold handOver
  dsimp only
  have hkeep := hseq (((getSpan s p).waiting.map (·.msg)).filter fun m => !(replayMsgs (getSpan s p)).contains m)
    (replayMsgs (getSpan s p) ++ ((getSpan s p).mig.map (·.msg)).filter fun m => !(replayMsgs (getSpan s p)).contains m, s)
  generalize List.foldl _ _ _ = r at hkeep ⊢
  have hdown : ∀ j, Machine.unheld (getSpan (updSpan r.2 p fun x => { x with replay := [], waiting := [], mig := [], lstate := 5 }) j) =
      if j = p then Machine.unheld { getSpan s p with lstate := 5 } else Machine.unheld (getSpan s j) := fun j => by
    have hj := congrFun hkeep j
    unfold spansBy at hj
    rw [getSpan_updSpan]
    split
    · next e =>
      subst e
      exact congrArg (fun x : Span => { x with lstate := 5 }) hj
    · exact hj
  split
  · exact funext hdown
  · funext j
    refine Eq.trans ?_ (hdown j)
    unfold spansBy
    rw [getSpan_updSpan _ q]
    split
    · next e => subst e; rfl
    · rfl

end Sys2Proof.Machine
end

section
/-! PROOF. A span link retrains on request, resumes, goes down when it cannot, and flushes after its grace period (12 R268 to R275; for O27). -/

namespace Sys2Proof.Machine

/-! The link goes down. -/

/-- What the disposal behind a link's end leaves: its count, its flag, and the ports' configuration. -/
def downBits (k a i : Nat) : Prop := a = aSpn k 0x48 ∨ (a = aSpn k 0x18 ∧ i = 2) ∨ ∃ j < 8, a = aSpn j 8

theorem clear_downBits {s : State} (k : Nat) (h : flowIdx s = true) : Clear (downBits k) s := by
  refine ⟨fun id f hf a i ⟨j, hj, ha⟩ => ?_, fun n => ?_⟩
  · have hidx := List.all_eq_true.mp h _ (mem_of_mget hf)
    have hlt := of_decide_eq_true hidx
    dsimp only at hlt
    unfold downBits
    rintro (h | ⟨h, -⟩ | ⟨m, hm, h⟩)
    all_goals
      rw [h] at ha
      unfold aSpn aNi at ha
      split at ha <;> split at hlt <;> omega
  · unfold downBits aNi aSpn
    rintro (h | ⟨h, -⟩ | ⟨m, hm, h⟩) <;> omega

theorem isSpan_lt {s : State} {p : Nat} (h : isSpan s p = true) : p < 8 := by
  have := of_decide_eq_true (Bool.and_eq_true_iff.mp h).2
  have := nSpans_le s
  omega

/-- The parallel link depends on the other ports' links and on the ports' configuration. -/
theorem parallelOf_congr {s t : State} {p : Nat} (hgen : t.gen = s.gen) (hcfg : ∀ j < 8, rd t (aSpn j 8) = rd s (aSpn j 8)) (hp : p < 8)
    (hspans : ∀ j, j ≠ p → (getSpan t j).up = (getSpan s j).up ∧ (getSpan t j).width = (getSpan s j).width) : parallelOf t p = parallelOf s p := by
  have hspan : ∀ j, isSpan t j = isSpan s j := fun j => by
    unfold isSpan nSpans
    rw [hgen]
  unfold parallelOf
  refine List.find?_congr fun q hq => ?_
  have hq8 : q < 8 := List.mem_range.mp hq
  unfold spnPeer spnMinw spnCfg
  rw [hspan, hcfg q hq8, hcfg p hp]
  by_cases hqp : q = p
  · simp [hqp]
  · obtain ⟨hup, hwidth⟩ := hspans q hqp
    rw [hup, hwidth]

theorem parallelOf_ne {s : State} {p r : Nat} (h : parallelOf s p = some r) : r ≠ p := by
  have hcond := List.find?_some h
  simp only [Bool.and_eq_true, bne_iff_ne] at hcond
  exact hcond.1.1.1.1.2

theorem noteWord_aSpn {j off : Nat} (hj : j < 8) (ho : off < 0x2000) : noteWord (aSpn j off) = false := by
  unfold noteWord aSpn
  simp only [Bool.or_eq_false_iff, Bool.and_eq_false_iff, beq_eq_false_iff_ne, decide_eq_false_iff_not]
  omega

section
variable {s : State} {k : Nat} (cause : Nat) (hk : k < 8)
include hk

/-- The port as its link goes down, with the count, the flag and the words of the other ports. -/
theorem spanLost_spec : (getSpan (spanLost s k cause) k).up = false ∧ (getSpan (spanLost s k cause) k).cause = BitVec.ofNat 3 cause ∧
    (∀ j, j ≠ k → getSpan (spanLost s k cause) j = getSpan s j) ∧
    (rd (spanLost s k cause) (aSpn k 0x48)).toNat = min 0xFFFFFFFF ((rd s (aSpn k 0x48)).toNat + 1) ∧
    bitOf (rd (spanLost s k cause) (aSpn k 0x18)) 2 = true ∧ (∀ j < 8, rd (spanLost s k cause) (aSpn j 8) = rd s (aSpn j 8)) ∧
    (spanLost s k cause).eng = s.eng := by
  unfold spanLost
  generalize hd : updSpan s k (fun x => { x with
    up := false, upAt := none, resumeAt := none, rtReq := false, resumeSent := false, propSent := false
    cause := BitVec.ofNat 3 cause, rob := [], naks := [], nakSent := [], pools := []
    ctlDue := if x.phyUp then [ctlWord 6 cause] else [] }) = d
  have hdown : (getSpan d k).up = false ∧ (getSpan d k).cause = BitVec.ofNat 3 cause ∧ (∀ j, j ≠ k → getSpan d j = getSpan s j) ∧
      (∀ a, rd d a = rd s a) ∧ d.eng = s.eng := by
    subst hd
    refine ⟨by rw [getSpan_updSpan_same], by rw [getSpan_updSpan_same], fun j hj => ?_, fun _ => rfl, rfl⟩
    rw [getSpan_updSpan, if_neg hj]
  obtain ⟨hup, hcause, hother, hwords, heng⟩ := hdown
  have hnoted : Noted (incSat (setFlag d (aSpn k 0x18) 2) (aSpn k 0x48) 1)
      (raiseGFree (evSpn (incSat (setFlag d (aSpn k 0x18) 2) (aSpn k 0x48) 1) k 9 1) (128 + k) 0x121 2) :=
    (bump_noteOnly _ (8192 + 24 * k + 9) 1 (by omega)).noted.trans (noted_raiseGFree ..)
  generalize raiseGFree _ (128 + k) 0x121 2 = t at hnoted
  have hspan : ∀ j, getSpan t j = getSpan d j := fun j => congrArg (fun m : Map Span => mgetD m j {}) hnoted.spans
  have htEng : t.eng = s.eng := by
    rw [hnoted.whole]
    exact heng
  refine ⟨by rw [hspan, hup], by rw [hspan, hcause], fun j hj => (hspan j).trans (hother j hj), ?_, ?_, fun j hj => ?_, htEng⟩
  · rw [hnoted.words _ (noteWord_aSpn hk (by decide)), toNat_incSat, Machine.setFlag, rd_wr_ne _ _ _ _ (by unfold aSpn; omega), hwords]
  · rw [hnoted.words _ (noteWord_aSpn hk (by decide)), rd_incSat, if_neg (by unfold aSpn; omega)]
    exact bitOf_setFlag_same _ _ (by decide)
  · rw [hnoted.words _ (noteWord_aSpn hj (by decide)), rd_incSat, if_neg (by unfold aSpn; omega), Machine.setFlag, rd_wr_ne _ _ _ _ (by unfold aSpn; omega), hwords]

theorem spanDown_spec (hidx : flowIdx s = true) : (spanDown s k cause).gen = s.gen ∧ (spanDown s k cause).pending = s.pending ∧
    (spanDown s k cause).lcs.fuse = s.lcs.fuse ∧ (getSpan (spanDown s k cause) k).up = false ∧
    (getSpan (spanDown s k cause) k).lstate = (if (parallelOf s k).isSome then 5 else 4) ∧
    (getSpan (spanDown s k cause) k).cause = BitVec.ofNat 3 cause ∧
    (rd (spanDown s k cause) (aSpn k 0x48)).toNat = min 0xFFFFFFFF ((rd s (aSpn k 0x48)).toNat + 1) ∧
    bitOf (rd (spanDown s k cause) (aSpn k 0x18)) 2 = true ∧
    (parallelOf s k = none → (getSpan (spanDown s k cause) k).graceEnd = nowNs s + 12000) := by
  have hlost := spanLost_spanWork (B := fun _ _ => False) hk s cause id fun _ => id
  obtain ⟨hup, hcause, hother, hcount, hflag, hcfg, heng⟩ := spanLost_spec (s := s) cause hk
  have hclear : Clear (downBits k) (spanLost s k cause) := clear_downBits k (by unfold flowIdx; rw [heng]; exact hidx)
  rw [spanDown_eq]
  generalize spanLost s k cause = u at hlost hup hcause hother hcount hflag hcfg heng hclear
  have hno58 : ∀ i, ¬ downBits k (aSpn k 0x58) i := fun i => by unfold downBits aSpn; omega
  have hno3 : ¬ downBits k (aSpn k 0x18) 3 := by unfold downBits aSpn; omega
  have hsuspend := suspendSpan_spanWork k hclear
  have hdrop := hsuspend.trans (dropPiste_spanWork hk hno58 hno3 (hsuspend.clear hclear))
  have hview : Keeps (spansBy unheld) u (dropPiste (suspendSpan u k) k) :=
    Keeps.trans (spansBy_of_eq (suspendSpan_spans u k)) (dropPiste_unheld _ hk)
  have hleft := spanLeft_spanWork hk (nowNs s) hclear hno58 hno3
  have hword : ∀ {t : State}, SpanWork (downBits k) u t → ∀ {j off : Nat}, j < 8 → off < 0x2000 → (∀ i, downBits k (aSpn j off) i) →
      rd t (aSpn j off) = rd u (aSpn j off) := @fun _ h j off hj ho hB =>
    BitVec.eq_of_getLsbD_eq fun i _ => h.bits _ i (hB i) (noteWord_aSpn hj ho)
  have hparallel : parallelOf (dropPiste (suspendSpan u k) k) k = parallelOf s k := by
    refine parallelOf_congr (hdrop.gen.trans hlost.gen) (fun j hj => (hword hdrop hj (by decide) fun i => .inr (.inr ⟨j, hj, rfl⟩)).trans (hcfg j hj)) hk
      fun j hj => ?_
    have hsame : unheld (getSpan (dropPiste (suspendSpan u k) k) j) = unheld (getSpan s j) := (congrFun hview j).trans (congrArg unheld (hother j hj))
    obtain ⟨hup, hwidth, -⟩ := link_of_unheld hsame
    exact ⟨hup, hwidth⟩
  refine ⟨hleft.gen.trans hlost.gen, hleft.pending.trans hlost.pending, congrArg Lcs.fuse (hleft.lcs.trans hlost.lcs), ?_⟩
  have hend : (rd (spanLeft u k (nowNs s)) (aSpn k 0x48)).toNat = min 0xFFFFFFFF ((rd s (aSpn k 0x48)).toNat + 1) := by
    rw [hword hleft hk (by decide) fun i => .inl rfl, hcount]
  have hset : bitOf (rd (spanLeft u k (nowNs s)) (aSpn k 0x18)) 2 = true :=
    (hleft.bits _ 2 (.inr (.inl ⟨rfl, rfl⟩)) (noteWord_aSpn hk (by decide))).trans hflag
  obtain ⟨hupd, -, -, hcaused, -⟩ := link_of_unheld (congrFun hview k)
  unfold spanLeft at hend hset ⊢
  dsimp only at hend hset ⊢
  rw [hparallel] at hend hset ⊢
  generalize dropPiste (suspendSpan u k) k = v at hend hset hupd hcaused ⊢
  cases hp : parallelOf s k with
  | some r =>
    rw [hp] at hend hset
    obtain ⟨hup', -, hstate, hcause', -⟩ := link_of_unheld ((congrFun (handOver_unheld v k r (parallelOf_ne hp)) k).trans (if_pos rfl))
    exact ⟨hup'.trans (hupd.trans hup), hstate, hcause'.trans (hcaused.trans hcause), hend, hset, fun h => by cases h⟩
  | none =>
    rw [hp] at hend hset
    refine ⟨?_, ?_, ?_, hend, hset, fun _ => ?_⟩
    · rw [getSpan_updSpan_same]
      exact hupd.trans hup
    · rw [getSpan_updSpan_same]
      rfl
    · rw [getSpan_updSpan_same]
      exact hcaused.trans hcause
    · rw [getSpan_updSpan_same]

end

/-! A retrain begins. -/

/-- A port whose retrain begins, at a width. -/
def retraining (s : State) (k : Nat) (w : BitVec 2) (x : Span) : Span :=
  { x with lstate := 3, rtReq := true, resumeSent := false, rtStart := nowNs s, trainWidth := w, t1 := none, lead := decide (instNo s < spnPeer s k) }

/-- t differs from s in port k, the listed words, and what notifications without a port write. -/
structure SpanNote (k : Nat) (l : List Nat) (s t : State) : Prop where
  whole : t = { s with regs := t.regs, spans := t.spans, ntf := t.ntf, flt := { s.flt with log := t.flt.log }, free := t.free }
  words : NotedBut l s t
  others : ∀ j, j ≠ k → getSpan t j = getSpan s j

theorem SpanNote.refl (k : Nat) (l : List Nat) (s : State) : SpanNote k l s s := ⟨rfl, fun _ _ _ => rfl, fun _ _ => rfl⟩

theorem SpanNote.trans {k : Nat} {l : List Nat} {s t u : State} (h : SpanNote k l s t) (g : SpanNote k l t u) : SpanNote k l s u where
  whole := by
    rw [g.whole]
    conv_lhs => rw [h.whole]
  words a ha hfree := (g.words a ha hfree).trans (h.words a ha hfree)
  others j hj := (g.others j hj).trans (h.others j hj)

theorem SpanNote.mono {k : Nat} {l m : List Nat} {s t : State} (h : SpanNote k l s t) (hl : l ⊆ m) : SpanNote k m s t :=
  ⟨h.whole, fun a ha => h.words a fun hmem => ha (hl hmem), h.others⟩

theorem SpanNote.updSpan (k : Nat) (l : List Nat) (s : State) (f : Span → Span) : SpanNote k l s (updSpan s k f) :=
  ⟨rfl, fun _ _ _ => rfl, fun j hj => by rw [getSpan_updSpan, if_neg hj]⟩

theorem SpanNote.wr {k a : Nat} {l : List Nat} (s : State) (v : Word) (h : a ∈ l) : SpanNote k l s (wr s a v) :=
  ⟨rfl, fun b hb _ => rd_wr_ne s a b v fun e => hb (e ▸ h), fun _ _ => rfl⟩

theorem Noted.spanNote {s t : State} (h : Noted s t) (hnis : t.nis = s.nis) (k : Nat) (l : List Nat) : SpanNote k l s t := by
  have hwhole := h.whole
  rw [hnis] at hwhole
  exact ⟨hwhole.trans (by rw [h.spans]), fun a _ => h.words a, fun j _ => congrArg (fun m : Map Span => mgetD m j {}) h.spans⟩

theorem evSpn_noted (s : State) {p e : Nat} (d : Nat) (hp : p < 8) (he : e < 24) : Noted s (evSpn s p e d) :=
  (bump_noteOnly s (8192 + 24 * p + e) d (by omega)).noted

theorem evSpn_spanNote (s : State) {p e : Nat} (d k : Nat) (l : List Nat) (hp : p < 8) (he : e < 24) : SpanNote k l s (evSpn s p e d) :=
  (evSpn_noted s d hp he).spanNote (bump_nis ..) k l

theorem raiseGFree_spanNote (s : State) (unit code sev k : Nat) (l : List Nat) : SpanNote k l s (raiseGFree s unit code sev) :=
  (noted_raiseGFree ..).spanNote (raiseGFree_nis ..) k l

theorem Noted.getSpan {s t : State} (h : Noted s t) (j : Nat) : getSpan t j = getSpan s j := congrArg (fun m : Map Span => mgetD m j {}) h.spans

theorem completes_of_spanNote {c : Instr} {k : Nat} {l : List Nat} {s t : State} {P : State → Prop} (hexec : exec c s = answer s t)
    (h : SpanNote k l s t) (hP : P t) : Completes c s P := by
  have hwhole := h.whole
  exact completes_of_answer hexec (by rw [hwhole]) (by rw [hwhole]) (by rw [hwhole]) hP

theorem retrainStart_spec {s : State} {k : Nat} (w : BitVec 2) (hk : k < 8) (h : (getSpan s k).lstate = 2) :
    SpanNote k [aSpn k 0x40, aSpn k 0x18] s (retrainStart s k w) ∧ getSpan (retrainStart s k w) k = retraining s k w (getSpan s k) ∧
    (rd (retrainStart s k w) (aSpn k 0x40)).toNat = min 0xFFFFFFFF ((rd s (aSpn k 0x40)).toNat + 1) ∧
    rd (retrainStart s k w) (aSpn k 0x18) = rd s (aSpn k 0x18) ||| 2#64 := by
  have hstart : retrainStart s k w = raiseGFree (evSpn (incSat (setFlag (updSpan s k (retraining s k w)) (aSpn k 0x18) 1) (aSpn k 0x40) 1) k 8 1)
      (128 + k) 0x120 1 := if_neg (by rw [h]; decide)
  have hnoted := (evSpn_noted (incSat (setFlag (updSpan s k (retraining s k w)) (aSpn k 0x18) 1) (aSpn k 0x40) 1) 1 hk (e := 8) (by decide)).trans
    (noted_raiseGFree (evSpn (incSat (setFlag (updSpan s k (retraining s k w)) (aSpn k 0x18) 1) (aSpn k 0x40) 1) k 8 1) (128 + k) 0x120 1)
  have hnote : SpanNote k [aSpn k 0x40, aSpn k 0x18] s (retrainStart s k w) := by
    rw [hstart]
    exact ((SpanNote.updSpan ..).trans ((SpanNote.wr _ _ (by simp)).trans (SpanNote.wr _ _ (by simp)))).trans
      ((evSpn_spanNote _ 1 k _ hk (by decide)).trans (raiseGFree_spanNote ..))
  rw [← hstart] at hnoted
  generalize retrainStart s k w = t at hnoted hnote
  refine ⟨hnote, ?_, ?_, ?_⟩
  · rw [hnoted.getSpan]
    exact getSpan_updSpan_same ..
  · rw [hnoted.words _ (noteWord_aSpn hk (by decide)), toNat_incSat, Machine.setFlag, rd_wr_ne _ _ _ _ (by unfold aSpn; omega)]
    rfl
  · rw [hnoted.words _ (noteWord_aSpn hk (by decide)), rd_incSat, if_neg (by unfold aSpn; omega), rd_setFlag, if_pos rfl]
    rfl

/-! The link resumes. -/

/-- A port that is not in its grace period keeps its link while others fail over. -/
theorem graceFailover_link {s : State} {k : Nat} (h : (getSpan s k).lstate ≠ 4) : unheld (getSpan (graceFailover s) k) = unheld (getSpan s k) := by
  have hstep : ∀ (l : List Nat) (t : State), (∀ p ∈ l, p < 8) → (getSpan t k).lstate ≠ 4 → unheld (getSpan (l.foldl (fun t p =>
      if isSpan t p && (getSpan t p).lstate == 4 && decide (nowNs s < (getSpan t p).graceEnd) then
        match parallelOf t p with
        | some r => handOver (dropPiste t p) p r
        | none => t
      else t) t) k) = unheld (getSpan t k) := by
    intro l
    induction l with
    | nil => exact fun _ _ _ => rfl
    | cons p l ih =>
      intro t hl ht
      have hp := hl p (List.mem_cons_self ..)
      have hhead : ∀ u, u = (if isSpan t p && (getSpan t p).lstate == 4 && decide (nowNs s < (getSpan t p).graceEnd) then
          match parallelOf t p with
          | some r => handOver (dropPiste t p) p r
          | none => t
        else t) → unheld (getSpan u k) = unheld (getSpan t k) := fun u hu => by
        rw [hu]
        split
        · next hcond =>
          have hne : k ≠ p := fun e => by
            rw [Bool.and_eq_true, Bool.and_eq_true] at hcond
            exact ht (e ▸ beq_iff_eq.mp hcond.1.2)
          split
          · next r hr =>
            exact ((congrFun (handOver_unheld _ p r (parallelOf_ne hr)) k).trans (if_neg hne)).trans (congrFun (dropPiste_unheld t hp) k)
          · rfl
        · rfl
      have hsame := hhead _ rfl
      rw [List.foldl_cons]
      refine (ih _ (fun q hq => hl q (List.mem_cons_of_mem p hq)) ?_).trans hsame
      rw [(link_of_unheld hsame).2.2.1]
      exact ht
  exact hstep (List.range 8) s (fun p hp => List.mem_range.mp hp) h

theorem graceFailover_idle {s : State} (h : ∀ j, isSpan s j = true → (getSpan s j).lstate ≠ 4) : graceFailover s = s := by
  have hstep : ∀ l : List Nat, l.foldl (fun t p =>
      if isSpan t p && (getSpan t p).lstate == 4 && decide (nowNs s < (getSpan t p).graceEnd) then
        match parallelOf t p with
        | some r => handOver (dropPiste t p) p r
        | none => t
      else t) s = s := by
    intro l
    induction l with
    | nil => rfl
    | cons p l ih =>
      rw [List.foldl_cons, if_neg]
      · exact ih
      · rw [Bool.and_eq_true, Bool.and_eq_true]
        rintro ⟨⟨hspan, hstate⟩, -⟩
        exact h p hspan (beq_iff_eq.mp hstate)
  exact hstep (List.range 8)

/-- The link runs at the width it was trained for, and its chains resume at the second tick. -/
theorem widthInUse_eq {s : State} {k : Nat} {w : BitVec 2} (hk : k < 8) (h : w.toNat ≤ rdF s (aSpn k 8) 18 17) :
    ∃ u, widthInUse s k w = graceFailover u ∧ SpanNote k [] s u ∧ u.rtrs = s.rtrs ∧
      getSpan u k = { getSpan s k with width := w, trainWidth := w, propSent := false, resumeAt := some (frameIn u 2) } ∧ u.time = s.time := by
  have hcount := evSpn_spanNote (updSpan s k fun q => { q with width := w, trainWidth := w, propSent := false })
    (if (getSpan s k).width = w then 0 else 1) k [] hk (e := 23) (by decide)
  have hspan : getSpan (evSpn (updSpan s k fun q => { q with width := w, trainWidth := w, propSent := false }) k 23
      (if (getSpan s k).width = w then 0 else 1)) k = { getSpan s k with width := w, trainWidth := w, propSent := false } :=
    ((evSpn_noted _ _ hk (by decide)).getSpan k).trans (getSpan_updSpan_same ..)
  refine ⟨updSpan (evSpn (updSpan s k fun q => { q with width := w, trainWidth := w, propSent := false }) k 23
    (if (getSpan s k).width = w then 0 else 1)) k fun q => { q with resumeAt := some (frameIn s 2) }, if_neg (not_lt.mpr h), ?_, ?_, ?_, ?_⟩
  · exact (SpanNote.updSpan ..).trans (hcount.trans (.updSpan ..))
  all_goals generalize evSpn _ k 23 _ = v at hcount hspan
  all_goals have hrtrs : v.rtrs = s.rtrs := by rw [hcount.whole]; rfl
  all_goals have htime : v.time = s.time := by rw [hcount.whole]; rfl
  · exact hrtrs
  · rw [getSpan_updSpan_same, hspan]
    unfold frameIn frameOf nowNs
    rw [show (updSpan v k _).time = s.time from htime]
  · exact htime

/-! Messages that a port holds are flushed. -/

theorem rd_spanOwn (s : State) (p : Nat) (pl : Plane) (m : Msg) (a : Nat) : rd (spanOwn s p pl m) a = rd s a := by
  have hinject : ∀ t m, rd (spanInject t p pl m) a = rd t a := fun t m => by
    unfold spanInject
    dsimp only
    split <;> rfl
  refine (hinject _ _).trans ?_
  split <;> rfl

theorem rd_flushMsg_count (s : State) {k : Nat} (hk : k < 8) (m : Msg) :
    (rd (flushMsg s k m) (aSpn k 0x58)).toNat = min 0xFFFFFFFF ((rd s (aSpn k 0x58)).toNat + 1) := by
  have hcount : (rd (evSpn (setFlag (incSat s (aSpn k 0x58) 1) (aSpn k 0x18) 3) k 18 1) (aSpn k 0x58)).toNat =
      min 0xFFFFFFFF ((rd s (aSpn k 0x58)).toNat + 1) := by
    rw [(evSpn_noted _ 1 hk (by decide)).words _ (noteWord_aSpn hk (by decide)), rd_setFlag, if_neg (by unfold aSpn; omega), toNat_incSat]
  unfold flushMsg
  dsimp only
  generalize evSpn (setFlag (incSat s (aSpn k 0x58) 1) (aSpn k 0x18) 3) k 18 1 = u at hcount ⊢
  split
  · exact hcount
  · split
    · rw [rd_spanOwn, hcount]
    · split
      · exact hcount
      · rw [rd_spanOwn, hcount]

theorem rd_flushMsgs_count {k : Nat} (hk : k < 8) {l : List Msg} (hl : l ≠ []) (s : State) :
    (rd (l.foldl (fun t m => flushMsg t k m) s) (aSpn k 0x58)).toNat = min 0xFFFFFFFF ((rd s (aSpn k 0x58)).toNat + l.length) := by
  induction l generalizing s with
  | nil => exact absurd rfl hl
  | cons m l ih =>
    rw [List.foldl_cons]
    have hhead := rd_flushMsg_count s hk m
    by_cases hnil : l = []
    · subst hnil
      exact hhead
    · rw [ih hnil, hhead, List.length_cons]
      omega

/-! The commands. -/

section
variable {s : State} {p : SpId}

theorem exec_retrain {c : Instr} {w : BitVec 2} (hspan : isSpan s p.toNat = true) (hstate : (getSpan s p.toNat).lstate = 2)
    (hc : (c = .spnRetrain p ∧ w = narrower (getSpan s p.toNat).widthCap (getSpan s p.toNat).peerCap) ∨
      (c = .phyDown p ∧ w = (getSpan s p.toNat).width) ∨
      (c = .peerRetrainRequest p true ∧ w = narrower (getSpan s p.toNat).widthCap (getSpan s p.toNat).peerCap) ∨
      (c = .peerRetrainRequest p false ∧ w = narrower (getSpan s p.toNat).width (getSpan s p.toNat).trainWidth)) :
    ∃ u, exec c s = answer s (retrainStart u p.toNat w) ∧ SpanNote p.toNat [] s u ∧ u.regs = s.regs ∧ u.time = s.time ∧
      ∃ peer, getSpan u p.toNat = { getSpan s p.toNat with phyUp := (getSpan s p.toNat).phyUp && decide (c ≠ .phyDown p), rtPeer := peer } := by
  have hgo : ¬ ((!isSpan s p.toNat) = true) := by rw [hspan]; decide
  obtain ⟨rfl, rfl⟩ | ⟨rfl, rfl⟩ | ⟨rfl, rfl⟩ | ⟨rfl, rfl⟩ := hc
  · refine ⟨s, congrArg (answer s) (if_pos hspan), .refl .., rfl, rfl, (getSpan s p.toNat).rtPeer, ?_⟩
    simp
  · refine ⟨updSpan s p.toNat fun q => { q with phyUp := false, lstate := if q.lstate = 1 then 0 else q.lstate },
      congrArg (answer s) (if_neg hgo), .updSpan .., rfl, rfl, (getSpan s p.toNat).rtPeer, ?_⟩
    rw [getSpan_updSpan_same, if_neg (by rw [hstate]; decide)]
    simp
  · refine ⟨updSpan s p.toNat fun q => { q with rtPeer := true }, congrArg (answer s) (if_neg hgo), .updSpan .., rfl, rfl, true, ?_⟩
    rw [getSpan_updSpan_same]
    simp
  · refine ⟨updSpan s p.toNat fun q => { q with rtPeer := true }, congrArg (answer s) (if_neg hgo), .updSpan .., rfl, rfl, true, ?_⟩
    rw [getSpan_updSpan_same]
    simp

/-- The port whose training has ended queues RESUME. -/
def resumeQueued (s : State) (k : Nat) : State :=
  updSpan (updSpan s k fun x => { x with phyUp := true, rtReq := false, rtPeer := false }) k fun x => { x with ctlDue := [resumeWord x] }

theorem exec_retrainDone_up (hspan : isSpan s p.toNat = true) (hstate : (getSpan s p.toNat).lstate = 3) :
    exec (.retrainDone p true) s = answer s (widthInUse (resumeQueued s p.toNat) p.toNat (getSpan s p.toNat).trainWidth) := by
  refine congrArg (answer s) ?_
  dsimp only
  rw [if_neg (by rw [hspan]; decide), if_neg (by rw [hstate]; simp), if_neg (by rw [hstate]; decide), if_neg (by decide), if_pos hstate]
  rfl

theorem exec_linkDown {c : Instr} {cause : Nat} (hspan : isSpan s p.toNat = true)
    (hc : (c = .retrainDone p false ∧ (getSpan s p.toNat).lstate = 3 ∧ cause = 2) ∨
      (c = .retrainTimeout p ∧ (getSpan s p.toNat).lstate = 3 ∧ (getSpan s p.toNat).rtStart + 4000 ≤ nowNs s ∧ cause = 2) ∨
      (c = .spnForceDown p ∧ ((getSpan s p.toNat).lstate = 1 ∨ (getSpan s p.toNat).lstate = 2 ∨ (getSpan s p.toNat).lstate = 3) ∧ cause = 5)) :
    ∃ u, exec c s = answer s (spanDown u p.toNat cause) ∧ u = { s with spans := u.spans } ∧ ∀ j, j ≠ p.toNat → getSpan u j = getSpan s j := by
  obtain ⟨rfl, hstate, rfl⟩ | ⟨rfl, hstate, hover, rfl⟩ | ⟨rfl, hstate, rfl⟩ := hc
  · refine ⟨updSpan s p.toNat fun x => { x with phyUp := false, rtReq := false, rtPeer := false }, congrArg (answer s) ?_, rfl,
      fun j hj => by rw [getSpan_updSpan, if_neg hj]⟩
    dsimp only
    rw [if_neg (by rw [hspan]; decide), if_neg (by simp), if_neg (by rw [hstate]; decide), if_pos (by decide), if_pos hstate]
  · exact ⟨s, congrArg (answer s) (if_pos (by rw [hspan, hstate, decide_eq_true hover]; rfl)), rfl, fun _ _ => rfl⟩
  · refine ⟨s, congrArg (answer s) (if_pos ?_), rfl, fun _ _ => rfl⟩
    rw [hspan]
    obtain h | h | h := hstate <;> rw [h] <;> rfl

/-- The port's grace period is over: it holds nothing and flushes. -/
def graceOver (s : State) (k : Nat) : State :=
  (heldMsgs (getSpan s k)).foldl (fun t m => flushMsg t k m)
    (updSpan s k fun x => { x with lstate := 5, flushing := true, replay := [], waiting := [], mig := [] })

theorem exec_graceExpire (hspan : isSpan s p.toNat = true) (hstate : (getSpan s p.toNat).lstate = 4) (hover : (getSpan s p.toNat).graceEnd ≤ nowNs s) :
    exec (.graceExpire p) s = answer s (raiseGFree (graceOver s p.toNat) (128 + p.toNat) 0x123 2) :=
  congrArg (answer s) (if_neg (by rw [hspan, hstate]; simp; omega))

end

/-- Settles O27: a retrain changes its port alone, RESUME waits at the width trained for, and a link that goes down or a grace period that ends
disposes of what its port holds. -/
theorem spanRetrainsOrGoesDown : Obligations.SpanRetrainsOrGoesDown := by
  unfold Obligations.SpanRetrainsOrGoesDown
  rintro s p k q rfl rfl hspan
  have hk := isSpan_lt hspan
  refine ⟨fun c w hc hstate => ?retrain, fun hstate hwidth => ?resume, fun c cause hc hidx => ?down, fun hstate hover => ?flush⟩
  case retrain =>
    obtain ⟨u, hexec, hnote, hregs, htime, peer, hu⟩ := exec_retrain hspan hstate hc
    obtain ⟨hstart, hport, hcount, hflag⟩ := retrainStart_spec (s := u) w hk (by rw [hu]; exact hstate)
    have hrd : ∀ a, rd u a = rd s a := fun a => by rw [rd, rd, hregs]
    have hall := (hnote.mono (by simp)).trans hstart
    rw [hrd] at hcount hflag
    rw [hu] at hport
    generalize retrainStart u p.toNat w = t at hexec hstart hport hcount hflag hall
    have hnow : nowNs u = nowNs s := by rw [nowNs, nowNs, htime]
    refine completes_of_spanNote hexec hall ⟨by rw [hport]; rfl, by rw [hport]; rfl, by rw [hport]; rfl, ?_, by rw [hport]; rfl, hcount, hflag,
      by rw [hport]; rfl, hall.others, hall.words, hall.whole⟩
    rw [hport]
    exact hnow
  case resume =>
    have hexec := exec_retrainDone_up hspan hstate
    have hqueued : SpanNote p.toNat [] s (resumeQueued s p.toNat) := (SpanNote.updSpan ..).trans (.updSpan ..)
    obtain ⟨u, hu, hnote, hrtrs, hport, htime⟩ := widthInUse_eq (s := resumeQueued s p.toNat) (w := (getSpan s p.toNat).trainWidth) hk hwidth
    have hall := hqueued.trans hnote
    have hfirst : getSpan (resumeQueued s p.toNat) p.toNat = { getSpan s p.toNat with
        phyUp := true, rtReq := false, rtPeer := false, ctlDue := [resumeWord (getSpan s p.toNat)] } := by
      unfold resumeQueued
      rw [getSpan_updSpan_same, getSpan_updSpan_same]
      rfl
    rw [hfirst] at hport
    have hframe : frameIn u 2 = (frameOf s + 2) % 2 ^ 48 := by
      unfold frameIn frameOf nowNs
      rw [htime]
      rfl
    rw [hu] at hexec
    have hne : (getSpan u p.toNat).lstate ≠ 4 := by
      rw [hport]
      exact fun h => absurd (hstate.symm.trans h) (by decide)
    obtain ⟨-, hwidth', -, -, hctl, hphy, hreq, hresume⟩ := link_of_unheld (graceFailover_link hne)
    rw [hport] at hwidth' hctl hphy hreq hresume
    refine completes_of_answered hexec ⟨hctl, hwidth', hphy, hreq, hresume.trans (congrArg some hframe), fun hgrace => ?_⟩
    have hidle : graceFailover u = u := graceFailover_idle fun j hj => by
      have hspanj : isSpan s j = true := by
        rw [← hj]
        unfold isSpan nSpans
        rw [hall.whole]
      by_cases hjk : j = p.toNat
      · exact hjk ▸ hne
      · rw [hall.others j hjk]
        exact hgrace j hspanj
    rw [hidle]
    exact ⟨hall.others, hrtrs, hall.words⟩
  case down =>
    obtain ⟨u, hexec, hwhole, hothers⟩ := exec_linkDown hspan hc
    have hsame : u.gen = s.gen ∧ u.pending = s.pending ∧ u.lcs = s.lcs ∧ u.regs = s.regs ∧ u.time = s.time ∧ u.eng = s.eng := by
      rw [hwhole]
      exact ⟨rfl, rfl, rfl, rfl, rfl, rfl⟩
    obtain ⟨hgen, hpending, hlcs, hregs, htime, heng⟩ := hsame
    have hrd : ∀ a, rd u a = rd s a := fun a => by rw [rd, rd, hregs]
    have hparallel : parallelOf u p.toNat = parallelOf s p.toNat :=
      parallelOf_congr hgen (fun j _ => hrd _) hk fun j hj => by rw [hothers j hj]; exact ⟨rfl, rfl⟩
    obtain ⟨hgen', hpending', hfuse', hup, hstate, hcause, hcount, hflag, hgrace⟩ :=
      spanDown_spec (s := u) cause hk (by unfold flowIdx; rw [heng]; exact hidx)
    rw [hparallel] at hstate hgrace
    rw [hrd] at hcount
    rw [show nowNs u = nowNs s by rw [nowNs, nowNs, htime]] at hgrace
    exact completes_of_answer hexec (hgen'.trans hgen) (hpending'.trans hpending) (hfuse'.trans (by rw [hlcs])) ⟨hup, hstate, hcause, hcount, hflag, hgrace⟩
  case flush =>
    have hexec := exec_graceExpire hspan hstate hover
    have hnoted := noted_raiseGFree (graceOver s p.toNat) (128 + p.toNat) 0x123 2
    generalize raiseGFree (graceOver s p.toNat) (128 + p.toNat) 0x123 2 = t at hexec hnoted
    have hkeep : Keeps (spansBy unnumbered) (updSpan s p.toNat fun x => { x with lstate := 5, flushing := true, replay := [], waiting := [], mig := [] })
        (graceOver s p.toNat) := Keeps.foldl (fun t m _ => flushMsg_numbers t hk m) _
    have hport : unnumbered (getSpan t p.toNat) = unnumbered { getSpan s p.toNat with
        lstate := 5, flushing := true, replay := [], waiting := [], mig := [] } := by
      rw [hnoted.getSpan]
      refine (congrFun hkeep p.toNat).trans ?_
      unfold spansBy
      rw [getSpan_updSpan_same]
    simp only [unnumbered, Span.mk.injEq] at hport
    have hcount : heldMsgs (getSpan s p.toNat) ≠ [] → (rd t (aSpn p.toNat 0x58)).toNat =
        min 0xFFFFFFFF ((rd s (aSpn p.toNat 0x58)).toNat + (heldMsgs (getSpan s p.toNat)).length) := fun hheld => by
      rw [hnoted.words _ (noteWord_aSpn hk (by decide))]
      exact rd_flushMsgs_count hk hheld _
    refine completes_of_answered hexec ⟨?_, ?_, ?_, ?_, ?_, hcount⟩
    all_goals simp only [getSpan] at hport ⊢
    all_goals simp only [hport]

end Sys2Proof.Machine
end

section
/-! PROOF. A span port proposes widths, expires keys, starts links, stages piste messages, and asks for the time (12 R264 to R278; for O28). -/

namespace Sys2Proof.Machine

/-- A command that changes span port k alone. -/
theorem completes_of_updSpan {c : Instr} {s : State} {k : Nat} {f : Span → Span} {P : State → Prop} (hexec : exec c s = answer s (updSpan s k f))
    (hP : P (updSpan s k f)) : Completes c s P := completes_of_answer hexec rfl rfl rfl hP

section
variable {s : State} {p : SpId} (hspan : isSpan s p.toNat = true)
include hspan

/-! A lower cap and a PHY that comes up. -/

/-- A port under a new width cap: one that trains trains to it, one that runs wider proposes it. -/
def capped (cap : BitVec 2) (q : Span) : Span :=
  if q.lstate = 3 then { q with widthCap := cap, trainWidth := narrower q.trainWidth cap }
  else if q.lstate = 2 ∧ q.width.toNat < cap.toNat then { q with widthCap := cap, ctlDue := q.ctlDue ++ [propWord cap], propSent := true }
  else { q with widthCap := cap }

theorem exec_widthCapDrop (cap : BitVec 2) : exec (.widthCapDrop p cap) s = answer s (updSpan s p.toNat (capped cap)) :=
  congrArg (answer s) (if_neg (by rw [hspan]; decide))

theorem exec_phyUp (hen : bitOf (rd s (aSpn p.toNat 8)) 0 = true) : exec (.phyUp p) s = answer s (updSpan s p.toNat fun q =>
    let q1 := { q with phyUp := true }
    match q.lstate.toNat with
    | 0 => { q1 with lstate := 1, ctlDue := [initWord s p.toNat q] }
    | 5 => { q1 with lstate := 1, ctlDue := [initWord s p.toNat q] }
    | 4 => { q1 with ctlDue := [resumeWord q] }
    | _ => q1) := by
  refine congrArg (answer s) ((if_neg (by rw [hspan]; decide)).trans (if_neg ?_))
  unfold spnCfg
  rw [hen]
  decide

end

/-! Keys and the time exchange. -/

theorem exec_spanKeyExpire (s : State) (p : SpId) : exec (.spanKeyExpire p) s =
    answer s (updSpan s p.toNat fun q => { q with keys := q.keys.filter fun k => subMod 48 (frameOf s) k.2.2 < 16 }) := rfl

theorem exec_tsyncSend {s : State} {p : SpId} (hport : timePort s = some p.toNat) (hframe : frameOf s % 16 = 0) (htick : atTick s = true)
    (hstate : (getSpan s p.toNat).lstate = 2) : exec (.tsyncSend p) s =
      answer s (updSpan s p.toNat fun q => { q with ctlDue := q.ctlDue ++ [ctlWord 3 0], t1 := none }) :=
  congrArg (answer s) (if_pos ⟨hport, hframe, htick, hstate⟩)

theorem exec_tsyncLost {s : State} {p : SpId} (hspan : isSpan s p.toNat = true) (hchild : bitOf (rd s (aSpn p.toNat 8)) 8 = true)
    (hsrc : rdF s 0x10060 8 8 = 0) (hlate : ∀ j, j < 8 → isSpan s j = true → spnPeer s j = spnPeer s p.toNat →
      1024 ≤ subMod 48 (frameOf s) (getSpan s j).lastTsync) (hfirst : bitOf (rd s (aSpn p.toNat 0x18)) 8 = false) :
    exec (.tsyncLost p) s = answer s (raiseGFree (setFlag s (aSpn p.toNat 0x18) 8) (128 + p.toNat) 0x124 1) := by
  refine congrArg (answer s) (if_pos ?_)
  have hall : ((List.range 8).all fun j => !isSpan s j || spnPeer s j != spnPeer s p.toNat ||
      1024 ≤ subMod 48 (frameOf s) (getSpan s j).lastTsync) = true := by
    refine List.all_eq_true.mpr fun j hj => ?_
    by_cases hs : isSpan s j = true
    · by_cases hpeer : spnPeer s j = spnPeer s p.toNat
      · exact Bool.or_eq_true_iff.mpr (.inr (decide_eq_true (hlate j (List.mem_range.mp hj) hs hpeer)))
      · exact Bool.or_eq_true_iff.mpr (.inl (Bool.or_eq_true_iff.mpr (.inr (bne_iff_ne.mpr hpeer))))
    · simp [hs]
  unfold spnCfg
  rw [hspan, hchild, hsrc, hfirst, hall]
  rfl

/-! A piste message is charged and laid. -/

/-- The message of a port's staging laid on entry e. -/
def pisteLaid (s : State) (k e f cur : Nat) (m : Msg) (slot : Option Nat) (g : Charge) : State := updSpan s k fun x => { x with
  pst := { setCharge x.pst e g with
    staged := x.pst.staged ++ [{ ent := e, frame := f, slot := slot, laidIn := cur, msg := { m with charged := some f } }] } }

/-- The charge of a frame with the message's added. -/
def chargedWith (c : Charge) (m : Msg) : Charge := { c with lines := c.lines + m.data.length, hdrs := c.hdrs + 1 }

theorem frameOf_lt (s : State) : frameOf s < 2 ^ 48 := Nat.mod_lt _ (by decide)

section
variable {s : State} {k e : Nat} {m : Msg} {fp : Bool} (hsrc : findSpnSrc s k m.flow.toNat = some e)
include hsrc

/-- A message of the current frame is charged to the next. -/
theorem spanStage_next (h : frameOf s % 2 = fp.toNat) : spanStage s k m fp = pisteLaid s k e ((frameOf s + 1) % 2 ^ 48) (frameOf s) m none
    (chargedWith (chargeOf (getSpan s k).pst e ((frameOf s + 1) % 2 ^ 48)) m) := by
  have hlt := frameOf_lt s
  have hne : ¬ ((frameOf s + 1) % 2 ^ 48 = frameOf s) := by omega
  unfold spanStage
  dsimp only
  rw [if_pos h, hsrc]
  exact if_neg hne

/-- A message of the frame before is charged to the current one, and laid in what is left of it or late. -/
theorem spanStage_current (h : frameOf s % 2 ≠ fp.toNat) : ∃ slot g, spanStage s k m fp = pisteLaid (if slot.isSome then s else
    evSpn (incSat (setFlag s (aSpn k 0x18) 5) (aSpn k 0x68) 1) k 15 1) k e (frameOf s) (frameOf s) m slot g := by
  have hlt := frameOf_lt s
  have hframe : (frameOf s + 2 ^ 48 - 1 + 1) % 2 ^ 48 = frameOf s := by omega
  unfold spanStage
  dsimp only
  rw [if_neg h, hsrc]
  dsimp only
  rw [hframe, if_pos rfl]
  cases hlay : layAt (seLaunch (spnEnt s k e)) (slotsNow s) (chargeOf (getSpan s k).pst e (frameOf s)).next (posOf s * 1000) (1 + m.data.length) with
  | some b => exact ⟨some b, { chargedWith (chargeOf (getSpan s k).pst e (frameOf s)) m with next := b + (1 + m.data.length) }, rfl⟩
  | none => exact ⟨none, chargedWith (chargeOf (getSpan s k).pst e (frameOf s)) m, rfl⟩

end

theorem exec_spanPisteStage {s : State} {p : SpId} {m : Msg} {fp : Bool} {rest : List (Msg × Bool)} (hspan : isSpan s p.toNat = true)
    (hstaging : (getSpan s p.toNat).staging = (m, fp) :: rest) :
    exec (.spanPisteStage p) s = answer s (spanStage (updSpan s p.toNat fun x => { x with staging := rest }) p.toNat m fp) := by
  refine congrArg (answer s) ((if_neg (by rw [hspan]; decide)).trans ?_)
  rw [hstaging]

/-- Settles O28: each command changes its port as the branch that its hypotheses select says, and a late message leaves its flag and its count. -/
theorem spanWidthKeysStagingAndTime : Obligations.SpanWidthKeysStagingAndTime := by
  unfold Obligations.SpanWidthKeysStagingAndTime
  rintro s p k q rfl rfl hspan
  have hk := isSpan_lt hspan
  have hone : ∀ {c : Instr} {f : Span → Span} {x : Span}, exec c s = answer s (updSpan s p.toNat f) → f (getSpan s p.toNat) = x →
      Completes c s fun t => getSpan t p.toNat = x ∧ t = { s with spans := t.spans } := fun hexec hx =>
    completes_of_updSpan hexec ⟨(getSpan_updSpan_same ..).trans hx, rfl⟩
  refine ⟨fun cap hstate hlt => ?proposed, fun cap hstate => ?trained, fun cap hne hno => ?kept, ?keys, fun hen hstate => ?init, fun hen hstate => ?again,
    fun m fp rest e hstaging hsrc => ⟨fun f c hcur hf hc => ?next, fun hprev => ?current⟩, fun hport hframe htick hstate => ?asked,
    fun hchild hsrc hlate hfirst => ?lost⟩
  case proposed => exact hone (exec_widthCapDrop hspan cap) ((if_neg (by rw [hstate]; decide)).trans (if_pos ⟨hstate, hlt⟩))
  case trained => exact hone (exec_widthCapDrop hspan cap) (if_pos hstate)
  case kept => exact hone (exec_widthCapDrop hspan cap) ((if_neg hne).trans (if_neg hno))
  case keys =>
    refine completes_of_updSpan (exec_spanKeyExpire s p) ⟨?_, rfl, fun e => ?_⟩
    · rw [getSpan_updSpan_same]
    · rw [getSpan_updSpan_same]
      simp
  case init =>
    refine hone (exec_phyUp hspan hen) ?_
    obtain h | h := hstate <;> rw [h] <;> rfl
  case again =>
    refine hone (exec_phyUp hspan hen) ?_
    rw [hstate]
    rfl
  case next =>
    subst hf hc
    have hexec := exec_spanPisteStage hspan hstaging
    rw [spanStage_next (s := updSpan s p.toNat fun x => { x with staging := rest }) hsrc hcur, getSpan_updSpan_same] at hexec
    refine completes_of_answer hexec rfl rfl rfl ⟨?_, fun j hj => ?_, rfl⟩
    · unfold pisteLaid
      rw [getSpan_updSpan_same, getSpan_updSpan_same]
      rfl
    · unfold pisteLaid
      rw [getSpan_updSpan, if_neg hj, getSpan_updSpan, if_neg hj]
  case current =>
    have hexec := exec_spanPisteStage hspan hstaging
    have htaken : SpanNote p.toNat [aSpn p.toNat 0x18, aSpn p.toNat 0x68] s (updSpan s p.toNat fun x => { x with staging := rest }) := .updSpan ..
    have hport : getSpan (updSpan s p.toNat fun x => { x with staging := rest }) p.toNat = { getSpan s p.toNat with staging := rest } := getSpan_updSpan_same ..
    have hrd : ∀ a, rd (updSpan s p.toNat fun x => { x with staging := rest }) a = rd s a := fun _ => rfl
    obtain ⟨slot, g, hstage⟩ := spanStage_current (s := updSpan s p.toNat fun x => { x with staging := rest }) hsrc hprev
    rw [hstage] at hexec
    have hframe : frameOf (updSpan s p.toNat fun x => { x with staging := rest }) = frameOf s := rfl
    rw [hframe] at hexec
    generalize updSpan s p.toNat (fun x => { x with staging := rest }) = u at hexec htaken hport hrd
    have hlate := evSpn_noted (incSat (setFlag u (aSpn p.toNat 0x18) 5) (aSpn p.toNat 0x68) 1) 1 hk (e := 15) (by decide)
    have hlateNote : SpanNote p.toNat [aSpn p.toNat 0x18, aSpn p.toNat 0x68] u
        (evSpn (incSat (setFlag u (aSpn p.toNat 0x18) 5) (aSpn p.toNat 0x68) 1) p.toNat 15 1) :=
      ((SpanNote.wr _ _ (by simp)).trans (SpanNote.wr _ _ (by simp))).trans (evSpn_spanNote _ 1 _ _ hk (by decide))
    generalize evSpn (incSat (setFlag u (aSpn p.toNat 0x18) 5) (aSpn p.toNat 0x68) 1) p.toNat 15 1 = w at hexec hlate hlateNote
    obtain ⟨v, hv, hnote, hportv, hcounted⟩ : ∃ v, v = (if slot.isSome then u else w) ∧ SpanNote p.toNat [aSpn p.toNat 0x18, aSpn p.toNat 0x68] u v ∧
        getSpan v p.toNat = getSpan u p.toNat ∧ (slot = none → rd v (aSpn p.toNat 0x18) = rd s (aSpn p.toNat 0x18) ||| 0x20#64 ∧
          (rd v (aSpn p.toNat 0x68)).toNat = min 0xFFFFFFFF ((rd s (aSpn p.toNat 0x68)).toNat + 1)) := by
      cases slot with
      | some b => exact ⟨u, rfl, .refl .., rfl, fun h => by cases h⟩
      | none =>
        refine ⟨w, rfl, hlateNote, hlate.getSpan _, fun _ => ⟨?_, ?_⟩⟩
        · rw [hlate.words _ (noteWord_aSpn hk (by decide)), rd_incSat, if_neg (by unfold aSpn; omega), rd_setFlag, if_pos rfl, hrd]
          rfl
        · rw [hlate.words _ (noteWord_aSpn hk (by decide)), toNat_incSat, rd_setFlag, if_neg (by unfold aSpn; omega), hrd]
    rw [← hv] at hexec
    have hall := (htaken.trans hnote).trans (SpanNote.updSpan p.toNat _ v fun x => { x with
      pst := { setCharge x.pst e g with
        staged := x.pst.staged ++ [{ ent := e, frame := frameOf s, slot := slot, laidIn := frameOf s, msg := { m with charged := some (frameOf s) } }] } })
    refine completes_of_spanNote hexec hall ⟨slot, ?_, ?_, hcounted, hall.others, hall.words⟩
    · unfold pisteLaid
      rw [getSpan_updSpan_same, hportv, hport]
    · unfold pisteLaid
      rw [getSpan_updSpan_same, hportv, hport]
  case asked => exact hone (exec_tsyncSend hport hframe htick hstate) rfl
  case lost =>
    have hexec := exec_tsyncLost hspan hchild hsrc hlate hfirst
    have hnoted := noted_raiseGFree (setFlag s (aSpn p.toNat 0x18) 8) (128 + p.toNat) 0x124 1
    have hnote : SpanNote p.toNat [aSpn p.toNat 0x18] s (raiseGFree (setFlag s (aSpn p.toNat 0x18) 8) (128 + p.toNat) 0x124 1) :=
      (SpanNote.wr _ _ (by simp)).trans (raiseGFree_spanNote ..)
    generalize raiseGFree (setFlag s (aSpn p.toNat 0x18) 8) (128 + p.toNat) 0x124 1 = t at hexec hnoted hnote
    refine completes_of_spanNote hexec hnote ⟨?_, hnoted.spans, by rw [hnote.whole], hnote.words⟩
    rw [hnoted.words _ (noteWord_aSpn hk (by decide)), rd_setFlag, if_pos rfl]
    rfl

end Sys2Proof.Machine
end

section
/-! PROOF. A span link sends and replays link flits, drops bad ones, and delivers the expected one (12 R252 to R267; for O26). -/

namespace Sys2Proof.Machine

theorem updSpan_congr {s : State} {k : Nat} {f g : Span → Span} (h : f (getSpan s k) = g (getSpan s k)) : updSpan s k f = updSpan s k g :=
  congrArg (fun x => { s with spans := mset s.spans k x }) h

theorem getSpan_updSpan_ne (s : State) {j k : Nat} {f : Span → Span} (h : j ≠ k) : getSpan (updSpan s k f) j = getSpan s j :=
  (getSpan_updSpan ..).trans (if_neg h)

/-! A link flit leaves. -/

theorem stampLink_congr {x y : Span} (hnext : x.rxNext = y.rxNext) (hnaks : x.naks = y.naks) (raw : BitVec 2048) : stampLink x raw = stampLink y raw := by
  unfold stampLink
  rw [hnext, hnaks]

/-- The port behind a link flit that left at a time. -/
def emitted (ns : Nat) (raw : BitVec 2048) (q x : Span) : Span := { x with
  txFlit := some (stampLink q raw)
  nakSent := match q.naks with | k :: _ => mset x.nakSent k.toNat ns | [] => x.nakSent
  naks := x.naks.tail }

theorem emitLink_eq (s : State) (k : Nat) (raw : BitVec 2048) (ev : Nat) : emitLink s k raw ev =
    evSpn (evSpn (updSpan s k (emitted (nowNs s) raw (getSpan s k))) k ev 1) k 5 (if (getSpan s k).naks.isEmpty then 0 else 1) := rfl

/-- A link flit that leaves changes its port and counts. -/
theorem emitLink_spec (s : State) {k ev : Nat} (raw : BitVec 2048) (hk : k < 8) (hev : ev < 24) :
    SpanNote k [] s (emitLink s k raw ev) ∧ getSpan (emitLink s k raw ev) k = emitted (nowNs s) raw (getSpan s k) (getSpan s k) := by
  have hsent : SpanNote k [] s (updSpan s k (emitted (nowNs s) raw (getSpan s k))) := .updSpan ..
  have hport : getSpan (updSpan s k (emitted (nowNs s) raw (getSpan s k))) k = emitted (nowNs s) raw (getSpan s k) (getSpan s k) := getSpan_updSpan_same ..
  rw [emitLink_eq]
  generalize updSpan s k (emitted (nowNs s) raw (getSpan s k)) = u at hsent hport
  exact ⟨hsent.trans ((evSpn_spanNote u 1 k [] hk hev).trans (evSpn_spanNote _ _ k [] hk (by decide))),
    ((evSpn_noted _ _ hk (by decide)).getSpan k).trans (((evSpn_noted u 1 hk hev).getSpan k).trans hport)⟩

theorem SpanNote.rtrs {k : Nat} {l : List Nat} {s t : State} (h : SpanNote k l s t) : t.rtrs = s.rtrs := by rw [h.whole]
theorem SpanNote.time {k : Nat} {l : List Nat} {s t : State} (h : SpanNote k l s t) : t.time = s.time := by rw [h.whole]

/-! The slots of a new link flit. -/

/-- What filling a link flit leaves of its port. -/
def sendOf (x : Span) : List Held × BitVec 16 × BitVec 16 × List (BitVec 16) := (x.replay, x.txNext, x.rxNext, x.naks)

/-- t is s behind work of port k that leaves its replay buffer and its sequence numbers. -/
structure SpanFill (k : Nat) (s t : State) : Prop where
  note : SpanNote k [] s t
  kept : sendOf (getSpan t k) = sendOf (getSpan s k)

theorem SpanFill.refl (k : Nat) (s : State) : SpanFill k s s := ⟨.refl .., rfl⟩

theorem SpanFill.trans {k : Nat} {s t u : State} (h : SpanFill k s t) (g : SpanFill k t u) : SpanFill k s u :=
  ⟨h.note.trans g.note, g.kept.trans h.kept⟩

theorem SpanFill.ite {k : Nat} {c : Prop} [Decidable c] {s t u : State} (ht : SpanFill k s t) (hu : SpanFill k s u) : SpanFill k s (if c then t else u) := by
  split <;> assumption

theorem SpanFill.updSpan {k : Nat} (s : State) {f : Span → Span} (h : ∀ x, sendOf (f x) = sendOf x) : SpanFill k s (updSpan s k f) :=
  ⟨.updSpan .., by rw [getSpan_updSpan_same, h]⟩

theorem SpanFill.evSpn {k e : Nat} (s : State) (d : Nat) (hk : k < 8) (he : e < 24) : SpanFill k s (evSpn s k e d) :=
  ⟨evSpn_spanNote s d k [] hk he, congrArg sendOf ((evSpn_noted s d hk he).getSpan k)⟩

theorem txStart_fill (k : Nat) (s : State) (t : SpanTx) : SpanFill k s (txStart s k t).2 := by
  have hcredit : ∀ f : Map Nat → Map Nat, SpanFill k s (Machine.updSpan s k fun q => { q with credits := f q.credits }) := fun f => .updSpan s fun _ => by rfl
  have hfirst : SpanFill k s (if t.pool = 0 then s else Machine.updSpan s k fun q => { q with
      credits := mupd q.credits (pairOf t) 0 fun c => c - t.flits.length }) := .ite (.refl k s) (hcredit fun m => mupd m (pairOf t) 0 fun c => c - t.flits.length)
  unfold txStart
  split
  · exact .refl k s
  · dsimp only
    split
    · exact hfirst.trans (.updSpan _ fun _ => by rfl)
    · exact hfirst

section
variable {k : Nat} (hk : k < 8)
include hk

theorem fillMig_fill (o : BitVec 3) (fuel : Nat) (s : State) : SpanFill k s (fillMig s k o fuel).2 := by
  induction fuel generalizing s with
  | zero => exact .refl k s
  | succ fuel ih =>
    unfold fillMig
    dsimp only
    split
    · split
      · exact (((txStart_fill k s _).trans (.updSpan _ fun _ => by rfl)).trans (.ite (.evSpn _ 1 hk (by decide)) (.refl k _))).trans (ih _)
      · exact .refl k s
    · exact .refl k s

theorem fillOwn_fill (fuel : Nat) (s : State) : SpanFill k s (fillOwn s k fuel).2 := by
  induction fuel generalizing s with
  | zero => exact .refl k s
  | succ fuel ih =>
    unfold fillOwn
    dsimp only
    split
    · split
      · next t _ =>
        have hrsp := Bool.toNat_le t.rsp
        have hcounts : ∀ (u : State) (d : Nat), SpanFill k u (Machine.evSpn (Machine.evSpn u k (10 + t.rsp.toNat) 1) k 14 d) := fun u d =>
          (SpanFill.evSpn u 1 hk (by omega)).trans (.evSpn _ d hk (by decide))
        refine SpanFill.trans ?_ (ih _)
        refine (txStart_fill k s t).trans (SpanFill.trans ?_ (hcounts ..))
        exact .updSpan _ fun _ => by rfl
      · exact .refl k s
    · exact .refl k s

theorem fillSlots_fill (s : State) : SpanFill k s (fillSlots s k).2 := by
  unfold fillSlots
  split
  · exact fillMig_fill hk _ 3 s
  · exact fillOwn_fill hk 3 s

end

/-- With an empty replay buffer and something to send, a new link flit leaves with the next SEQ and is held. -/
theorem sendData_some {s : State} {k : Nat} (hreplay : (getSpan s k).replay = []) (hslots : (fillSlots s k).1 ≠ []) :
    ∃ (h : Held) (f : Span → Span), sendData s k = some (emitLink (updSpan (fillSlots s k).2 k f) k h.raw 0) ∧
      h.seq = (getSpan s k).txNext ∧ h.due = false ∧ h.sentNs = nowNs s ∧
      ∀ x, (f x).replay = x.replay ++ [h] ∧ (f x).txNext = (getSpan s k).txNext + 1 ∧ (f x).rxNext = x.rxNext ∧ (f x).naks = x.naks := by
  unfold sendData
  dsimp only
  rw [hreplay]
  dsimp only
  rw [if_neg (by decide), if_neg (by rintro ⟨hempty, -⟩; exact hslots (List.isEmpty_iff.mp hempty))]
  generalize withTrl _ _ = raw
  exact ⟨{ seq := (getSpan s k).txNext, raw := raw, msgs := _, sentNs := nowNs s }, _, rfl, rfl, rfl, rfl, fun x => ⟨rfl, rfl, rfl, rfl⟩⟩

/-! A link flit is received. -/

/-- The span ports, of port k the reorder buffer and NEXT alone. -/
def recvOf (k : Nat) (s : State) : Nat → Span := fun j =>
  if j = k then { rob := (getSpan s k).rob, rxNext := (getSpan s k).rxNext } else getSpan s j

theorem recvOf_of_spans {k : Nat} {s t : State} (h : t.spans = s.spans) : Keeps (recvOf k) s t := by
  unfold Keeps recvOf getSpan
  rw [h]

theorem recvOf_updSpan {k : Nat} (s : State) {f : Span → Span} (h : ∀ x, (f x).rob = x.rob ∧ (f x).rxNext = x.rxNext) : Keeps (recvOf k) s (updSpan s k f) := by
  funext j
  unfold recvOf
  by_cases hj : j = k
  · rw [if_pos hj, if_pos hj, getSpan_updSpan_same, (h _).1, (h _).2]
  · rw [if_neg hj, if_neg hj, getSpan_updSpan, if_neg hj]

theorem of_recvOf {k : Nat} {s t : State} (h : Keeps (recvOf k) s t) : (getSpan t k).rob = (getSpan s k).rob ∧ (getSpan t k).rxNext = (getSpan s k).rxNext ∧
    ∀ j, j ≠ k → getSpan t j = getSpan s j := by
  have hk := congrFun h k
  unfold recvOf at hk
  rw [if_pos rfl, if_pos rfl] at hk
  simp only [Span.mk.injEq] at hk
  refine ⟨by simp only [hk], by simp only [hk], fun j hj => ?_⟩
  have hj' := congrFun h j
  unfold recvOf at hj'
  rwa [if_neg hj, if_neg hj] at hj'

theorem recordKey_keepsRecv {k : Nat} (s : State) (m : Msg) : Keeps (recvOf k) s (recordKey s k m) := by
  unfold recordKey
  exact recvOf_updSpan s fun _ => by exact ⟨rfl, rfl⟩

theorem retCredits_keepsRecv {k : Nat} (s : State) (pl : Plane) (m : Msg) (n : Nat) : Keeps (recvOf k) s (retCredits s k pl m n) := by
  unfold retCredits
  split
  · exact recvOf_updSpan s fun _ => by exact ⟨rfl, rfl⟩
  · rfl

/-- Without NEXT in the reorder buffer nothing is delivered. -/
theorem drainRob_empty {k : Nat} {s : State} (h : (getSpan s k).rob = []) (fuel : Nat) : drainRob s k fuel = s := by
  cases fuel with
  | zero => rfl
  | succ fuel =>
    unfold drainRob
    dsimp only
    rw [h]
    rfl

/-- The port x behind the delivery of the link flit that port q expected: NEXT advances, and what waited for it goes. -/
def delivered (q x : Span) : Span := { x with
  rob := mdel x.rob q.rxNext.toNat
  rxNext := q.rxNext + 1
  naks := x.naks.filter fun k => k != q.rxNext
  nakSent := mdel x.nakSent q.rxNext.toNat }

theorem drainRob_next {s : State} {k : Nat} {raw : BitVec 2048} (h : mget (getSpan s k).rob (getSpan s k).rxNext.toNat = some raw) (fuel : Nat) :
    drainRob s k (fuel + 1) = drainRob (deliverLink (updSpan s k (delivered (getSpan s k))) k raw) k fuel := by
  conv_lhs => unfold drainRob
  dsimp only
  rw [h]
  rfl

theorem ackIn_keepsRecv {k : Nat} (s : State) (ak : BitVec 16) : Keeps (recvOf k) s (ackIn s k ak) := by
  have hraise : ∀ t : State, Keeps (recvOf k) t (raiseGFree t (128 + k) 0x122 1) := fun t => recvOf_of_spans (noted_raiseGFree ..).spans
  unfold ackIn
  dsimp only
  split
  · split
    · refine Keeps.trans ?_ (hraise _)
      refine Keeps.trans ?_ (recvOf_updSpan _ fun _ => by exact ⟨rfl, rfl⟩)
      exact recvOf_updSpan s fun _ => by exact ⟨rfl, rfl⟩
    · exact recvOf_updSpan s fun _ => by exact ⟨rfl, rfl⟩
  · exact recvOf_updSpan s fun _ => by exact ⟨rfl, rfl⟩

section
variable {k : Nat} (hk : k < 8)
include hk

theorem spanMsgIn_keepsRecv (s : State) (pl : Plane) (m : Msg) (fp mig : Bool) (oport : Nat) : Keeps (recvOf k) s (spanMsgIn s k pl m fp mig oport) := by
  have hinject : ∀ t : State, Keeps (recvOf k) t (spanInject t k pl { m with hops := m.hops + 1 }) := fun t => by
    refine recvOf_of_spans ?_
    unfold spanInject
    dsimp only
    split <;> rfl
  have hcount : Keeps (recvOf k) s (evSpn (incSat s (aSpn k 0x50) 1) k 17 1) :=
    recvOf_of_spans (evSpn_noted (incSat s (aSpn k 0x50) 1) 1 hk (by decide)).spans
  refine .ite (hcount.trans (retCredits_keepsRecv ..)) (.ite ?_ ((recordKey_keepsRecv s m).trans (hinject _)))
  exact recvOf_updSpan s fun _ => by exact ⟨rfl, rfl⟩

theorem slotIn_keepsRecv (s : State) (v : BitVec 640) (sd : Nat) (mig : Bool) (oport : Nat) : Keeps (recvOf k) s (slotIn s k v sd mig oport) := by
  have hcount : Keeps (recvOf k) s (evSpn s k (12 + sd / 16 % 2) 1) := recvOf_of_spans (evSpn_noted s 1 hk (by omega)).spans
  unfold slotIn
  dsimp only
  split
  · rfl
  · split
    · refine (hcount.trans ?_).trans (Keeps.foldl (fun t g _ => spanMsgIn_keepsRecv hk t ..) _)
      exact recvOf_updSpan _ fun _ => by exact ⟨rfl, rfl⟩
    · refine hcount.trans ?_
      exact recvOf_updSpan _ fun _ => by exact ⟨rfl, rfl⟩

theorem deliverLink_keepsRecv (s : State) (raw : BitVec 2048) : Keeps (recvOf k) s (deliverLink s k raw) := by
  have hslots : Keeps (recvOf k) s ([0, 1, 2].foldl (fun u i => slotIn u k (linkSlot raw i) (linkSd (linkTrl raw) i) (bitOf (linkTrl raw) 13)
      (fld (linkTrl raw) 12 10)) s) := Keeps.foldl (fun t i _ => slotIn_keepsRecv hk t ..) s
  have hcredit : ∀ (t : State) (i n : Nat), Keeps (recvOf k) t (updSpan t k fun q => { q with credits := mupd q.credits i 0 (· + n) }) :=
    fun t _ _ => recvOf_updSpan t fun _ => ⟨rfl, rfl⟩
  have hcount : ∀ t : State, Keeps (recvOf k) t (evSpn t k 3 1) := fun t => recvOf_of_spans (evSpn_noted t 1 hk (by decide)).spans
  exact (hslots.trans (.ite (hcredit ..) (.refl _ _))).trans (hcount _)

/-- A reorder buffer that holds NEXT alone is drained by its delivery. -/
theorem drainRob_single {s : State} {raw : BitVec 2048} (hrob : (getSpan s k).rob = [((getSpan s k).rxNext.toNat, raw)]) :
    (getSpan (drainRob s k 1024) k).rxNext = (getSpan s k).rxNext + 1 ∧ (getSpan (drainRob s k 1024) k).rob = [] ∧
    ∀ j, j ≠ k → getSpan (drainRob s k 1024) j = getSpan s j := by
  have hnext : mget (getSpan s k).rob (getSpan s k).rxNext.toNat = some raw := by
    rw [hrob]
    exact if_pos rfl
  obtain ⟨hrob', hrx, hothers⟩ := of_recvOf (deliverLink_keepsRecv hk (updSpan s k (delivered (getSpan s k))) raw)
  rw [getSpan_updSpan_same] at hrob' hrx
  have hempty : (getSpan (deliverLink (updSpan s k (delivered (getSpan s k))) k raw) k).rob = [] := by
    rw [hrob']
    unfold delivered
    dsimp only
    rw [hrob]
    unfold mdel
    simp
  rw [drainRob_next hnext, drainRob_empty hempty]
  exact ⟨hrx, hempty, fun j hj => (hothers j hj).trans (getSpan_updSpan_ne s hj)⟩

/-- The expected link flit is delivered: NEXT advances, and the reorder buffer is empty again. -/
theorem dataIn_expected {s : State} {raw : BitVec 2048} (hseq : fld (linkTrl raw) 95 80 = (getSpan s k).rxNext.toNat) (hrob : (getSpan s k).rob = []) :
    (getSpan (dataIn s k raw) k).rxNext = (getSpan s k).rxNext + 1 ∧ (getSpan (dataIn s k raw) k).rob = [] ∧
    ∀ j, j ≠ k → getSpan (dataIn s k raw) j = getSpan s j := by
  have hseq' : (BitVec.ofNat 16 (fld (linkTrl raw) 95 80)).toNat = (getSpan s k).rxNext.toNat := by rw [hseq, BitVec.ofNat_toNat, BitVec.setWidth_eq]
  have hdist : subMod 16 (getSpan s k).rxNext.toNat (getSpan s k).rxNext.toNat = 0 := by
    unfold subMod
    omega
  unfold dataIn
  dsimp only
  rw [hseq', hdist, hrob, if_neg (by simp [mget]), if_neg (by decide)]
  have hdrain := fun u => drainRob_single hk (s := u) (raw := raw)
  refine ⟨((hdrain _ ?_).1.trans (by rw [getSpan_updSpan_same])), (hdrain _ ?_).2.1, fun j hj => ((hdrain _ ?_).2.2 j hj).trans (getSpan_updSpan_ne s hj)⟩
  all_goals
    rw [getSpan_updSpan_same]
    dsimp only
    rw [hrob]
    rfl

end

/-! The commands. -/

section
variable {s : State} {p : SpId} (hspan : isSpan s p.toNat = true)
include hspan

section
variable (hphy : (getSpan s p.toNat).phyUp = true)
include hphy

theorem exec_linkFlitSend_replay {h : Held} (hstate : (getSpan s p.toNat).lstate = 2) (hdue : (getSpan s p.toNat).replay.find? (·.due) = some h) :
    exec (.linkFlitSend p) s = answer s (emitLink (updSpan s p.toNat fun x => { x with
      replay := updFirst x.replay (fun g => g.seq == h.seq) fun g => { g with due := false, sentNs := nowNs s } }) p.toNat h.raw 0) := by
  refine congrArg (answer s) ((if_neg (by rw [hspan, hphy]; decide)).trans ?_)
  rw [hstate, hdue]
  rfl

theorem exec_linkFlitSend_data {t : State} (hstate : (getSpan s p.toNat).lstate = 2) (hnone : (getSpan s p.toNat).replay.find? (·.due) = none)
    (hdata : sendData s p.toNat = some t) : exec (.linkFlitSend p) s = answer s t := by
  refine congrArg (answer s) ((if_neg (by rw [hspan, hphy]; decide)).trans ?_)
  rw [hstate, hnone, hdata]
  rfl

theorem exec_linkFlitSend_init (hstate : (getSpan s p.toNat).lstate = 1) : exec (.linkFlitSend p) s = answer s (sendCtl s p.toNat true) := by
  refine congrArg (answer s) ((if_neg (by rw [hspan, hphy]; decide)).trans ?_)
  rw [hstate]
  rfl

end

theorem exec_linkFlitReceive_bad {raw : BitVec 2048} {bad : Bool} (hstate : (getSpan s p.toNat).lstate ≠ 0)
    (hbad : bad = true ∨ fld (linkTrl raw) 127 96 ≠ (linkCrc raw).toNat) : exec (.linkFlitReceive p raw bad) s =
      answer s (evSpn (incSat (setFlag s (aSpn p.toNat 0x18) 0) (aSpn p.toNat 0x30) 1) p.toNat 4 1) :=
  congrArg (answer s) ((if_neg (by rw [hspan, beq_eq_false_iff_ne.mpr hstate]; decide)).trans (if_pos (by simpa using hbad)))

theorem exec_linkFlitReceive_data {raw : BitVec 2048} (hstate : (getSpan s p.toNat).lstate = 2) (hcrc : fld (linkTrl raw) 127 96 = (linkCrc raw).toNat)
    (hnak : bitOf (linkTrl raw) 47 = false) (htype : fld (linkTrl raw) 46 45 = 0) : exec (.linkFlitReceive p raw false) s =
      answer s (dataIn (ackIn s p.toNat (BitVec.ofNat 16 (fld (linkTrl raw) 79 64))) p.toNat raw) := by
  refine congrArg (answer s) ((if_neg (by rw [hspan, hstate]; decide)).trans ((if_neg (by simp [hcrc])).trans ?_))
  rw [htype, hnak, hstate]
  rfl

end

section
variable {s : State} {p : SpId} {h : Held} {rest : List Held} (hreplay : (getSpan s p.toNat).replay = h :: rest)
include hreplay

/-- The replay rule acts on the oldest held link flit. -/
theorem exec_replayTimerExpire (hstate : (getSpan s p.toNat).lstate = 2)
    (hlate : max h.sentNs (getSpan s p.toNat).lastNakNs + 4 * rdF s (aSpn p.toNat 8) 36 29 ≤ nowNs s)
    (hpassed : ∀ u, h.passed = some u → u < max h.sentNs (getSpan s p.toNat).lastNakNs) :
    exec (.replayTimerExpire p) s = answer s (replayAct s p.toNat h.seq) := by
  refine congrArg (answer s) ?_
  dsimp only
  rw [hreplay]
  refine if_pos ⟨hstate, hlate, ?_⟩
  cases hp : h.passed with
  | none => rfl
  | some u => exact decide_eq_true (hpassed u hp)

/-- Port x with the oldest held link flit changed to g. -/
def oldestNow (g : Held) (rest : List Held) (x : Span) : Span := { x with replay := g :: rest }

theorem put_oldest (g : Held) : (updSpan s p.toNat fun x => { x with replay := updFirst x.replay (fun f => f.seq == h.seq) fun _ => g }) =
    updSpan s p.toNat (oldestNow g rest) := by
  have hfirst : updFirst (getSpan s p.toNat).replay (fun f => f.seq == h.seq) (fun _ => g) = g :: rest := by
    rw [hreplay]
    exact if_pos (beq_self_eq_true _)
  exact updSpan_congr (congrArg (fun l => ({ getSpan s p.toNat with replay := l } : Span)) hfirst)

variable (hlast : h.lastAct ≠ some (nowNs s))
include hlast

theorem replayAct_again (hrpl : h.rpl < 4) : replayAct s p.toNat h.seq =
    evSpn (incSat (updSpan s p.toNat (oldestNow { h with due := true, rpl := h.rpl + 1, lastAct := some (nowNs s) } rest)) (aSpn p.toNat 0x38) 1) p.toNat 7 1 := by
  have hfound : (h :: rest).find? (fun g => g.seq == h.seq) = some h := List.find?_cons_of_pos (beq_self_eq_true _)
  rw [← put_oldest hreplay]
  unfold replayAct
  rw [hreplay, hfound]
  exact (if_neg hlast).trans (if_neg (by omega))

theorem replayAct_retrain (hrpl : h.rpl = 4) (hfirst : h.afterRt = false) : replayAct s p.toNat h.seq =
    retrainStart (updSpan s p.toNat (oldestNow { h with afterRt := true, rpl := 0, lastAct := some (nowNs s) } rest)) p.toNat (getSpan s p.toNat).width := by
  have hfound : (h :: rest).find? (fun g => g.seq == h.seq) = some h := List.find?_cons_of_pos (beq_self_eq_true _)
  rw [← put_oldest hreplay]
  unfold replayAct
  rw [hreplay, hfound]
  exact (if_neg hlast).trans ((if_pos hrpl).trans (if_neg (by rw [hfirst]; decide)))

end

theorem exec_nakTimerExpire {s : State} {p : SpId} {seq : BitVec 16} {u : Nat} (hsent : mget (getSpan s p.toNat).nakSent seq.toNat = some u)
    (hlate : u + 4 * rdF s (aSpn p.toNat 8) 36 29 ≤ nowNs s) (hrob : mget (getSpan s p.toNat).rob seq.toNat = none)
    (hbefore : seqBefore seq (getSpan s p.toNat).rxNext = false) (hnak : seq ∉ (getSpan s p.toNat).naks)
    (hlater : ∃ r ∈ (getSpan s p.toNat).rob, seqBefore seq (BitVec.ofNat 16 r.1) = true) :
    exec (.nakTimerExpire p seq) s = answer s (updSpan s p.toNat fun x => { x with naks := x.naks ++ [seq] }) := by
  refine congrArg (answer s) ?_
  dsimp only
  rw [hsent]
  refine if_pos ⟨hlate, by rw [hrob]; rfl, by rw [hbefore]; rfl, by simpa using hnak, ?_⟩
  simpa using hlater

/-- Settles O26: each clause by the step of its command; a new link flit through what filling its slots leaves of the port, the expected one
through the reorder buffer that holds it alone. -/
theorem spanLinkCarriesInOrderAndReplays : Obligations.SpanLinkCarriesInOrderAndReplays := by
  unfold Obligations.SpanLinkCarriesInOrderAndReplays
  rintro s p k q rfl rfl hspan
  have hk := isSpan_lt hspan
  refine ⟨fun h hphy hstate hdue => ?again, fun hphy hstate hreplay hslots => ?new, fun w rest hphy hstate hctl => ?control, fun raw bad hstate hbad => ?bad,
    fun raw hstate hcrc hnak htype hseq hrob => ?expected,
    fun h rest hstate hreplay hlate hpassed hlast => ⟨fun hrpl => ?replayed, fun hrpl hfirst => ?retrained⟩,
    fun seq u hsent hlate hrob hbefore hnak hlater => ?missing⟩
  case again =>
    have hexec := exec_linkFlitSend_replay hspan hphy hstate hdue
    generalize hredue : (fun x : Span => { x with
      replay := updFirst x.replay (fun g => g.seq == h.seq) fun g => { g with due := false, sentNs := nowNs s } }) = f at hexec
    obtain ⟨hnote, hport⟩ := emitLink_spec (updSpan s p.toNat f) h.raw hk (ev := 0) (by decide)
    have hall := (SpanNote.updSpan p.toNat [] s f).trans hnote
    refine completes_of_spanNote hexec hall ⟨?_, hall.others, hall.rtrs, hall.words⟩
    rw [hport, getSpan_updSpan_same, ← hredue]
    rfl
  case new =>
    obtain ⟨h, f, hdata, hseq, hdue, hsent, hf⟩ := sendData_some hreplay hslots
    obtain ⟨hfreplay, hfnext, hfrx, hfnaks⟩ := hf (getSpan (fillSlots s p.toNat).2 p.toNat)
    have hfill := fillSlots_fill hk s
    have hkept := hfill.kept
    simp only [sendOf, Prod.mk.injEq] at hkept
    obtain ⟨hkreplay, -, hkrx, hknaks⟩ := hkept
    obtain ⟨hnote, hport⟩ := emitLink_spec (updSpan (fillSlots s p.toNat).2 p.toNat f) h.raw hk (ev := 0) (by decide)
    have hall := (hfill.note.trans (SpanNote.updSpan p.toNat [] _ f)).trans hnote
    refine completes_of_spanNote (exec_linkFlitSend_data hspan hphy hstate (by rw [hreplay]; rfl) hdata)
      hall ⟨h, ?_, hseq, hdue, hsent, ?_, ?_, hall.others, hall.rtrs, hall.words⟩
    · rw [hport, getSpan_updSpan_same]
      exact hfreplay.trans (by rw [hkreplay, hreplay]; rfl)
    · rw [hport, getSpan_updSpan_same]
      exact hfnext
    · rw [hport, getSpan_updSpan_same]
      exact congrArg some (stampLink_congr (hfrx.trans hkrx) (hfnaks.trans hknaks) h.raw)
  case control =>
    have hexec := exec_linkFlitSend_init hspan hphy hstate
    unfold sendCtl at hexec
    rw [hctl] at hexec
    dsimp only at hexec
    generalize hdone : (fun x : Span => { x with
      ctlDue := rest, t1 := if fld w 7 0 = 3 then some (nowNs s) else x.t1, resumeSent := x.resumeSent || fld w 7 0 == 2 }) = f at hexec
    obtain ⟨hnote, hport⟩ := emitLink_spec (updSpan s p.toNat f) (plainLink 2 (stampCtl s w)) hk (ev := 2) (by decide)
    have hall := (SpanNote.updSpan p.toNat [] s f).trans hnote
    refine completes_of_spanNote hexec hall ⟨?_, ?_, ?_, ?_, hall.others, hall.words⟩
    all_goals
      rw [hport, getSpan_updSpan_same, ← hdone]
      rfl
  case bad =>
    have hexec := exec_linkFlitReceive_bad hspan hstate hbad
    have hnoted := evSpn_noted (incSat (setFlag s (aSpn p.toNat 0x18) 0) (aSpn p.toNat 0x30) 1) 1 hk (e := 4) (by decide)
    have hall : SpanNote p.toNat [aSpn p.toNat 0x30, aSpn p.toNat 0x18] s
        (evSpn (incSat (setFlag s (aSpn p.toNat 0x18) 0) (aSpn p.toNat 0x30) 1) p.toNat 4 1) :=
      ((SpanNote.wr _ _ (by simp)).trans (SpanNote.wr _ _ (by simp))).trans (evSpn_spanNote _ 1 _ _ hk (by decide))
    generalize evSpn (incSat (setFlag s (aSpn p.toNat 0x18) 0) (aSpn p.toNat 0x30) 1) p.toNat 4 1 = t at hexec hnoted hall
    refine completes_of_spanNote hexec hall ⟨?_, ?_, hnoted.spans, hall.rtrs, hall.words⟩
    · rw [hnoted.words _ (noteWord_aSpn hk (by decide)), toNat_incSat, rd_setFlag, if_neg (by unfold aSpn; omega)]
    · rw [hnoted.words _ (noteWord_aSpn hk (by decide)), rd_incSat, if_neg (by unfold aSpn; omega), rd_setFlag, if_pos rfl]
      rfl
  case expected =>
    have hexec := exec_linkFlitReceive_data hspan hstate hcrc hnak htype
    obtain ⟨harob, harx, haothers⟩ := of_recvOf (ackIn_keepsRecv (k := p.toNat) s (BitVec.ofNat 16 (fld (linkTrl raw) 79 64)))
    generalize ackIn s p.toNat (BitVec.ofNat 16 (fld (linkTrl raw) 79 64)) = u at hexec harob harx haothers
    obtain ⟨hrx, hempty, hothers⟩ := dataIn_expected hk (s := u) (raw := raw) (by rw [harx]; exact hseq) (harob.trans hrob)
    generalize dataIn u p.toNat raw = t at hexec hrx hempty hothers
    exact completes_of_answered hexec ⟨hrx.trans (congrArg (· + 1) harx), hempty, fun j hj => (hothers j hj).trans (haothers j hj)⟩
  case replayed =>
    have hexec := exec_replayTimerExpire hreplay hstate hlate hpassed
    rw [replayAct_again hreplay hlast hrpl] at hexec
    generalize hput : updSpan s p.toNat (oldestNow { h with due := true, rpl := h.rpl + 1, lastAct := some (nowNs s) } rest) = u at hexec
    have hnoted := evSpn_noted (incSat u (aSpn p.toNat 0x38) 1) 1 hk (e := 7) (by decide)
    have hall : SpanNote p.toNat [aSpn p.toNat 0x38] s (evSpn (incSat u (aSpn p.toNat 0x38) 1) p.toNat 7 1) := by
      rw [← hput]
      exact ((SpanNote.updSpan ..).trans (SpanNote.wr _ _ (by simp))).trans (evSpn_spanNote _ 1 _ _ hk (by decide))
    refine completes_of_spanNote hexec hall ⟨?_, ?_, hall.words, hall.others, hall.rtrs⟩
    · rw [hnoted.getSpan]
      subst hput
      exact getSpan_updSpan_same ..
    · rw [hnoted.words _ (noteWord_aSpn hk (by decide)), toNat_incSat, ← hput]
      rfl
  case retrained =>
    have hexec := exec_replayTimerExpire hreplay hstate hlate hpassed
    rw [replayAct_retrain hreplay hlast hrpl hfirst] at hexec
    have hput : SpanNote p.toNat [aSpn p.toNat 0x40, aSpn p.toNat 0x18] s
      (updSpan s p.toNat (oldestNow { h with afterRt := true, rpl := 0, lastAct := some (nowNs s) } rest)) := .updSpan ..
    have hport : getSpan (updSpan s p.toNat (oldestNow { h with afterRt := true, rpl := 0, lastAct := some (nowNs s) } rest)) p.toNat = _ := getSpan_updSpan_same ..
    generalize updSpan s p.toNat (oldestNow { h with afterRt := true, rpl := 0, lastAct := some (nowNs s) } rest) = u at hexec hput hport
    obtain ⟨hnote, hport', -, -⟩ := retrainStart_spec (getSpan s p.toNat).width hk (s := u) (by rw [hport]; exact hstate)
    have hall := hput.trans hnote
    rw [hport] at hport'
    refine completes_of_spanNote hexec hall ⟨?_, ?_, ?_, hall.others, ?_⟩
    · rw [hport']
      rfl
    · rw [hport']
      rfl
    · rw [hport']
      rfl
    · intro a ha
      exact hall.words a (by simpa [or_comm] using ha)
  case missing =>
    exact completes_of_updSpan (exec_nakTimerExpire hsent hlate hrob hbefore hnak hlater) ⟨getSpan_updSpan_same .., rfl⟩

end Sys2Proof.Machine
end

section
/-! PROOF. A response at its requester (11 R240, 07 R167, 03 R496; for O17). -/

namespace Sys2Proof.Machine

/-- u is s with the response taken out of the queue of NI k; a twin record may be newer. -/
structure ResponseTaken (s u : State) (k : Nat) (rest : List (Msg × Bool)) : Prop where
  only : NiOnly k s u
  ni : getNi u k = { getNi s k with inRsp := rest, pst := (getNi u k).pst }

section
variable {s u : State} {k : Nat} {rest : List (Msg × Bool)} (h : ResponseTaken s u k rest)
include h

theorem ResponseTaken.niDown : niDown u k = niDown s k := by
  have hep : isEpNi u k = isEpNi s k := by
    rw [h.only.1]
    rfl
  unfold Machine.niDown
  rw [hep, h.ni]

theorem ResponseTaken.slcGen (j : Nat) : slcGen u k j = slcGen s k j := by
  unfold Machine.slcGen getSlice
  rw [h.ni]

theorem ResponseTaken.trk : (getNi u k).trk = (getNi s k).trk := by rw [h.ni]

end

/-- A copy that the twin drop lets pass leaves at most its record. -/
theorem twinJudge_passes {s : State} {k : Nat} {m : Msg}
    (htwin : ∀ j, m.cls = 1 → twinKey s m = some j → twinPasses (mget (getNi s k).pst.twins j) m = true) :
    (twinJudge s k m).1 = true ∧ NiOnly k s (twinJudge s k m).2 ∧
      getNi (twinJudge s k m).2 k = { getNi s k with pst := (getNi (twinJudge s k m).2 k).pst } := by
  unfold twinJudge
  split
  · exact ⟨rfl, .refl .., rfl⟩
  · next hcls =>
    split
    · exact ⟨rfl, .refl .., rfl⟩
    · next j hj =>
      rw [if_pos (htwin j (by simpa using hcls) hj)]
      dsimp only
      refine ⟨rfl, .updNi .., ?_⟩
      rw [getNi_updNi_same]

/-- A response without a failed check reaches the requester's table behind its removal from the queue. -/
theorem exec_responseArriveAtRequester {s : State} {n : NiId} {m : Msg} {alt : Bool} {rest : List (Msg × Bool)}
    (htake : takeFirst (getNi s n.toNat).inRsp (fun q => q.1.opc != 0x7A) = (some (m, alt), rest))
    (hcls : clsOk m = true) (htaint : m.taint = false) (hcrc : msgCrc m = m.crc)
    (htwin : ∀ j, m.cls = 1 → twinKey s m = some j → twinPasses (mget (getNi s n.toNat).pst.twins j) m = true) :
    ∃ u, ResponseTaken s u n.toNat rest ∧ exec (.responseArriveAtRequester n) s = answer s (atRequester u n.toNat m) := by
  have hremoved : NiOnly n.toNat s (updNi s n.toNat fun i => { i with inRsp := rest }) := .updNi ..
  have hni : getNi (updNi s n.toNat fun i => { i with inRsp := rest }) n.toNat = { getNi s n.toNat with inRsp := rest } := getNi_updNi_same ..
  have hkey : twinKey (updNi s n.toNat fun i => { i with inRsp := rest }) m = twinKey s m := rfl
  have hexec : exec (.responseArriveAtRequester n) s = answer s (
      let j := twinJudge (updNi s n.toNat fun i => { i with inRsp := rest }) n.toNat m
      if j.1 then atRequester j.2 n.toNat m else j.2) := by
    have hpass : ∀ t, rxCheck t n.toNat m = .pass m t := fun t => (if_neg (by rw [hcls]; decide)).trans (if_pos ⟨htaint, hcrc⟩)
    refine congrArg (answer s) ?_
    dsimp only
    rw [htake]
    dsimp only
    rw [hpass]
  generalize updNi s n.toNat (fun i => { i with inRsp := rest }) = v at hexec hremoved hni hkey
  obtain ⟨hpasses, honly, hkept⟩ := twinJudge_passes (s := v) (k := n.toNat) (m := m) (fun j h1 hj => by rw [hni]; exact htwin j h1 (hkey ▸ hj))
  refine ⟨(twinJudge v n.toNat m).2, ⟨hremoved.trans honly, ?_⟩, hexec.trans ?_⟩
  · rw [hkept, hni]
  · dsimp only
    rw [if_pos hpasses]

section
variable {s : State} {k : Nat} {m : Msg} (hdown : niDown s k = false) (hopc : m.opc ≠ 0x69)
include hdown hopc

theorem atRequester_stale (h : m.gen ≠ slcGen s k m.slice.toNat ∨ mget (getNi s k).trk m.tag.toNat = none) :
    atRequester s k m = countStale s k m.slice.toNat := by
  refine (if_neg (by rw [hdown]; decide)).trans ((if_neg hopc).trans ?_)
  by_cases hgen : m.gen = slcGen s k m.slice.toNat
  · rw [if_neg (not_not.mpr hgen), h.resolve_left (not_not.mpr hgen)]
  · exact if_pos hgen

theorem atRequester_completes {e : Trk} (hgen : m.gen = slcGen s k m.slice.toNat) (htrk : mget (getNi s k).trk m.tag.toNat = some e)
    (hslice : e.slice = m.slice) (hlive : e.hold = .live) (hfwd : e.fwd = false) (hposted : e.posted = false) (hgroup : e.group = none) :
    atRequester s k m = completeReq s k m.tag e m := by
  refine (if_neg (by rw [hdown]; decide)).trans ((if_neg hopc).trans ((if_neg (not_not.mpr hgen)).trans ?_))
  rw [htrk]
  dsimp only
  rw [if_neg (by rw [hslice]; exact not_not.mpr rfl), hlive, hfwd, hposted, hgroup]
  rfl

end

/-- The endpoint's response to the request of entry e. -/
def endResponse (e : Trk) (m : Msg) : Egr :=
  if statKeeps (msgStat m) then
    { opc := m.opc.toNat, piste := m.cls == 1
      hdr := egrRspHdr m.opc.toNat (m.cls == 1) e.epTag.toNat m.nbytes.toNat (msgStat m) (msgGcnt m) m.poison
      data := m.data, slice := some e.slice, charged := m.charged }
  else
    { opc := rspOpOf e.opc.toNat, piste := m.cls == 1, slice := some e.slice, charged := m.charged
      hdr := egrRspHdr (rspOpOf e.opc.toNat) (m.cls == 1) e.epTag.toNat 0 (msgStat m) (msgGcnt m) m.poison }

theorem endResponse_piste (e : Trk) (m : Msg) : (endResponse e m).piste = (m.cls == 1) := by
  unfold endResponse
  split <;> rfl

/-- A completed request of the endpoint: its entry is free, it is out of the NI's requests, and its response joins the pool of its class. -/
theorem completeReq_spec {s : State} {k : Nat} {tag : Tag} {e : Trk} {m : Msg} (hslot : e.slot = none) :
    ∃ v, completeReq s k tag e m = pushErs v k (endResponse e m) ∧ NiOnly k s v ∧ (getNi v k).inRsp = (getNi s k).inRsp ∧
      (getNi v k).trk = mdel (getNi s k).trk tag.toNat ∧ (getNi v k).reqs = (getNi s k).reqs.filter (fun r => r.id != e.reqId) ∧
      (getNi v k).port.ersB = (getNi s k).port.ersB ∧ (getNi v k).port.ersG = (getNi s k).port.ersG := by
  have hfreed : NiOnly k s (updNi (freeTrk s k tag) k fun i => dropReq i e.reqId) := (NiOnly.updNi ..).trans (.updNi ..)
  have hni : getNi (updNi (freeTrk s k tag) k fun i => dropReq i e.reqId) k = dropReq { getNi s k with trk := mdel (getNi s k).trk tag.toNat } e.reqId := by
    unfold freeTrk
    rw [getNi_updNi_same, getNi_updNi_same]
  unfold completeReq deliverEnd
  rw [hslot]
  generalize updNi (freeTrk s k tag) k (fun i => dropReq i e.reqId) = v at hfreed hni
  refine ⟨_, rfl, ?_⟩
  split
  · rw [getNi_updNi_same, hni]
    exact ⟨hfreed.trans (.updNi ..), rfl, rfl, rfl, rfl, rfl⟩
  · rw [hni]
    exact ⟨hfreed, rfl, rfl, rfl, rfl, rfl⟩

/-- Settles O17: a response that its generation and entry name completes it; any other is counted. -/
theorem responseCompletesItsRequest : Obligations.ResponseCompletesItsRequest := by
  unfold Obligations.ResponseCompletesItsRequest
  rintro s n k m alt rest rfl htake hcls htaint hcrc hdown hopc htwin
  obtain ⟨u, htaken, hexec⟩ := exec_responseArriveAtRequester htake hcls htaint hcrc htwin
  have hdown' := htaken.niDown.trans hdown
  refine ⟨fun e hgen htrk hslice hlive hfwd hposted hgroup hslot => ?completed, fun hstale => ?stale⟩
  case completed =>
    rw [atRequester_completes hdown' hopc (hgen.trans (htaken.slcGen _).symm) (htaken.trk ▸ htrk) hslice hlive hfwd hposted hgroup] at hexec
    obtain ⟨v, hdone, honly, hin, htrk', hreqs, hB, hG⟩ := completeReq_spec (s := u) (k := n.toNat) (tag := m.tag) (m := m) hslot
    rw [hdone] at hexec
    have hall := (htaken.only.trans honly).trans (pushErs_niOnly v n.toNat (endResponse e m))
    have hni := getNi_pushErs v n.toNat (endResponse e m)
    generalize pushErs v n.toNat (endResponse e m) = t at hexec hall hni
    refine completes_of_niOnly hexec hall ⟨endResponse e m, ?_, ?_, ?_, ?_, endResponse_piste e m, fun hkeep => ?_, fun hlost => ?_, hall⟩
    · rw [hni, hin, htaken.ni]
    · rw [hni, htrk']
      exact mget_mdel_same ..
    · rw [hni, hreqs]
      intro r hr
      simpa using (List.mem_filter.mp hr).2
    · rw [hni, hB, hG, htaken.ni]
      cases (endResponse e m).piste <;> exact ⟨rfl, rfl⟩
    · unfold endResponse
      rw [if_pos hkeep]
      exact ⟨rfl, rfl⟩
    · unfold endResponse
      rw [if_neg (by rw [hlost]; decide)]
      exact ⟨rfl, rfl⟩
  case stale =>
    rw [atRequester_stale hdown' hopc (by rwa [htaken.slcGen, htaken.trk])] at hexec
    have hall := (htaken.only.niNote [aNi n.toNat (0x210 + 0x20 * m.slice.toNat)]).trans
      (.incSat (a := aNi n.toNat (0x210 + 0x20 * m.slice.toNat)) _ 1 (List.mem_singleton_self _))
    refine completes_of_niNote hexec hall ⟨htaken.ni, ?_, hall⟩
    unfold countStale
    rw [toNat_incSat, htaken.only.1]
    rfl

end Sys2Proof.Machine
end

section
/-! PROOF. Jobs end, idle slots steal, park and wake, and the slot of a failed engine moves to the spare (13 R291, R292, R299; for O33). -/

namespace Sys2Proof.Machine

/-! The slots. -/

theorem getSlot_updSlot (s : State) (k j : Nat) (f : EngSlot → EngSlot) : getSlot (updSlot s k f) j = if j = k then f (getSlot s k) else getSlot s j := by
  split
  · next e => exact e ▸ mgetD_mset_same ..
  · next e => exact mgetD_mset_ne _ _ _ _ _ e

theorem getSlot_updSlot_same (s : State) (k : Nat) (f : EngSlot → EngSlot) : getSlot (updSlot s k f) k = f (getSlot s k) := mgetD_mset_same ..

theorem Noted.eng {s t : State} (h : Noted s t) : t.eng = s.eng := by rw [h.whole]

theorem slotEng_lt {s : State} {k g : Nat} (hk : k < 64) (h : slotEng s k = some g) : g < 78 := by
  obtain ⟨v, hv, rfl⟩ := Option.map_eq_some_iff.mp h
  have hlt := fld_lt (rd s (aEng (8 + 8 * (k / 8)))) (4 * (k % 8) + 3) (4 * (k % 8))
  rw [Nat.add_sub_cancel_left] at hlt
  have hv' := (Option.ite_none_left_eq_some.mp hv)
  obtain ⟨hne, hval⟩ := hv'
  rw [Option.some.injEq] at hval
  unfold rdF at hval hne
  omega

/-- A count writes its own counter and what a comparator's notification writes, for any index of the counters' own range of addresses. -/
theorem bump_noted (s : State) {i : Nat} (d : Nat) (hi : i < 0xE000) : Noted s (bump s i d) := by
  refine NoteOnly.noted ?_
  unfold bump
  split
  · exact .refl s
  · dsimp only
    have hword : ∀ w, NoteOnly s (wr s (0x410000 + 8 * i) w) := fun w => .wr s _ w (noteWord_cnt _ (by omega) (by omega))
    refine NoteOnly.trans ?_ (foldl_noteOnly _ _ (fun s x hx => fireThr_noteOnly _ _ _ s x (listedThr_lt _ _ hx)) _)
    split
    · exact (hword _).trans (NoteOnly.setFlag _ _ _ rfl)
    · exact hword _

theorem evSlot_noted (s : State) {k e : Nat} (d : Nat) (hk : k < 64) (he : e < 16) : Noted s (evSlot s k e d) := by
  unfold evSlot
  split
  · next g hg =>
    have hlt := slotEng_lt hk hg
    exact bump_noted s d (i := 8384 + 16 * g + e) (by omega)
  · exact .refl s

theorem evSlot_eng (s : State) (k e d : Nat) : (evSlot s k e d).eng = s.eng := by
  unfold evSlot
  split
  · exact bump_eng ..
  · rfl

theorem stealCount_eng (s : State) (k : Nat) (theft : Bool) : (stealCount s k theft).eng = s.eng := by
  unfold stealCount
  split
  · dsimp only
    split <;> rfl
  · rfl

/-- Without waiting jobs a push leaves the slots. -/
theorem pushJobs_slots {s : State} (h : ∀ c ∈ s.eng.cmds, c.waitingJobs = []) (key : Nat) : (pushJobs s key).eng.slots = s.eng.slots := by
  unfold pushJobs
  split
  · next c hc =>
    split
    · next k _ =>
      have hnone : pushOn s k [] = ([], s) := by
        unfold pushOn
        simp
      rw [h c (List.mem_of_find?_eq_some hc), hnone]
      rfl
    · rfl
  · rfl

theorem nextVictim_ne {s : State} {b p me v : Nat} (h : nextVictim s b p me = some v) : v ≠ me := by
  have hv := List.find?_some h
  simp only [Bool.and_eq_true, bne_iff_ne] at hv
  exact hv.1

theorem stealTarget_ne {s : State} {k v : Nat} {e : EngSlot} (h : stealTarget s k = (some v, e)) : v ≠ k := by
  unfold stealTarget at h
  dsimp only at h
  split at h
  · exact nextVictim_ne (congrArg Prod.fst h)
  · exact nextVictim_ne (congrArg Prod.fst h)

/-! A job ends. -/

/-- The running job of slot k, and the count of jobs of engine g. -/
def runOf (k g : Nat) (s : State) : Option Job × Word := ((getSlot s k).running, rd s (aEng (0x1010 + 0x20 * g)))

section
variable {k g : Nat}

theorem runOf_wr (s : State) {a : Nat} (v : Word) (h : a < 0x801010 ∨ 0x810000 ≤ a) (hg : g < 78) : Keeps (runOf k g) s (wr s a v) :=
  Prod.ext rfl (rd_wr_ne s a _ v (by unfold aEng; omega))

theorem runOf_updSlot (s : State) (j : Nat) {f : EngSlot → EngSlot} (h : ∀ e, (f e).running = e.running) : Keeps (runOf k g) s (updSlot s j f) := by
  refine Prod.ext ?_ rfl
  change (getSlot (updSlot s j f) k).running = _
  rw [getSlot_updSlot]
  split
  · next e => exact e ▸ h _
  · rfl

theorem pushOn_keepsRun (s : State) (j : Nat) (l : List Job) : Keeps (runOf k g) s (pushOn s j l).2 := by
  have hwake : ∀ t : State, Keeps (runOf k g) t (wakeAll t) := fun _ => by rfl
  unfold pushOn
  dsimp only
  refine .ite (.refl _ s) (Keeps.trans ?_ (hwake _))
  exact runOf_updSlot s j fun _ => by rfl

theorem pushJobs_keepsRun (s : State) (key : Nat) : Keeps (runOf k g) s (pushJobs s key) := by
  have hcmd : ∀ (t : State) (f : Cmd → Cmd), Keeps (runOf k g) t (updCmd t key f) := fun _ _ => by rfl
  unfold pushJobs
  split
  · split
    · exact (pushOn_keepsRun ..).trans (hcmd ..)
    · rfl
  · rfl

theorem endCmd_keepsRun (s : State) (key st : Nat) : Keeps (runOf k g) s (endCmd s key st) := by rfl

theorem finishData_keepsRun (s : State) (key : Nat) : Keeps (runOf k g) s (finishData s key) := by
  have hcmd : ∀ (t : State) (f : Cmd → Cmd), Keeps (runOf k g) t (updCmd t key f) := fun _ _ => by rfl
  unfold finishData
  split
  · rfl
  · refine .ite (endCmd_keepsRun ..) (.ite (endCmd_keepsRun ..) (.ite ?_ ?_))
    · exact Keeps.trans (.ite (hcmd ..) (.refl _ s)) (endCmd_keepsRun ..)
    · exact .ite (endCmd_keepsRun ..) ((hcmd ..).trans (Keeps.foldl (fun _ _ _ => by rfl) _))

section
variable (hg : g < 78)
include hg

theorem submitGroom_keepsRun (s : State) : Keeps (runOf k g) s (submitGroom s) := by
  have hcmd : ∀ c, Keeps (runOf k g) s (addCmd s c) := fun _ => by rfl
  have hgroom : ∀ (t : State) (key : Nat), Keeps (runOf k g) t (groomStart t key) := fun t key => by
    have hupd : ∀ (u : State) (f : Cmd → Cmd), Keeps (runOf k g) u (updCmd u key f) := fun _ _ => by rfl
    have hjrn : ∀ (u : State) (j : Jrn), Keeps (runOf k g) u { u with jrn := j } := fun _ _ => by rfl
    have hreserve : ∀ (u : State) (h : Nat), h < 2 → Keeps (runOf k g) u (reserve u h) := fun u h hh => by
      unfold reserve setLp
      exact runOf_wr u _ (.inl (by unfold aJrn; omega)) hg
    unfold groomStart setFlag
    exact ((hjrn t _).trans ((hreserve _ 0 (by decide)).trans (hreserve _ 1 (by decide)))).trans
      ((runOf_wr _ _ (.inl (by decide)) hg).trans ((hupd ..).trans (pushJobs_keepsRun _ key)))
  exact .ite (.refl _ s) ((hcmd _).trans (hgroom _ _))

theorem NiBlock.keepsRun {n : Nat} {s t : State} (h : NiBlock n s t) (hn : n < 128) : Keeps (runOf k g) s t := by
  refine Prod.ext ?_ (h.words _ (by unfold InBlock aNi aEng; omega) (noteWord_aEng (by omega)))
  have hwhole := h.whole
  change (getSlot t k).running = (getSlot s k).running
  rw [hwhole]
  rfl

theorem pumpHome_keepsRun (s : State) (h fuel : Nat) : Keeps (runOf k g) s (pumpHome s h fuel) := by
  have hout : ∀ (t : State) (l : List HomeWrite), Keeps (runOf k g) t (setHomeOut t h l) := fun _ _ => by rfl
  induction fuel generalizing s with
  | zero => rfl
  | succ fuel ih =>
    unfold pumpHome
    split
    · rfl
    · exact .ite (((hout s _).trans ((engSend_niWork _ _ _ _ _ _ _ _ (by decide)).keepsRun hg (by decide))).trans (ih _)) (.refl _ s)

theorem commitRec_keepsRun (s : State) (r : Rec) : Keeps (runOf k g) s (commitRec s r) := by
  unfold commitRec
  refine Keeps.trans (.ite ?_ ?_) (runOf_wr _ _ (.inl (by decide)) hg)
  · exact (runOf_wr _ _ (.inr (by unfold aEbt; omega)) hg).trans (runOf_wr _ _ (.inr (by unfold aEbt; omega)) hg)
  · exact (runOf_wr _ _ (.inr (by omega)) hg).trans (runOf_wr _ _ (.inr (by omega)) hg)

theorem commitLoop_keepsRun (s : State) (fuel : Nat) : Keeps (runOf k g) s (commitLoop s fuel) := by
  have hjrn : ∀ (u : State) (j : Jrn), Keeps (runOf k g) u { u with jrn := j } := fun _ _ => by rfl
  induction fuel generalizing s with
  | zero => rfl
  | succ fuel ih =>
    unfold commitLoop
    split
    · rfl
    · exact .ite (((commitRec_keepsRun hg s _).trans (hjrn _ _)).trans (ih _)) (.refl _ s)

omit hg in
theorem ckptTail_keepsRun (s : State) (c : Ckpt) : Keeps (runOf k g) s (ckptTail s c) := by
  have hput : ∀ (t : State) (h : Nat) (l : List Nat) (w : Nat → HomeWrite), Keeps (runOf k g) t (l.foldl (fun u b => addHome u h (w b)) t) :=
    fun t h l w => Keeps.foldl (fun _ _ _ => by rfl) t
  have hadd : ∀ (t : State) (h : Nat) (w : HomeWrite), Keeps (runOf k g) t (addHome t h w) := fun _ _ _ => by rfl
  have hjrn : ∀ (u : State) (j : Jrn), Keeps (runOf k g) u { u with jrn := j } := fun _ _ => by rfl
  exact (((hput ..).trans (hadd ..)).trans ((hput ..).trans (hadd ..))).trans (hjrn ..)

theorem ckptCommit_keepsRun (s : State) (c : Ckpt) : Keeps (runOf k g) s (ckptCommit s c) := by
  have hwr : ∀ (u : State) (off : Nat) (v : Word), off < 0x1000 → Keeps (runOf k g) u (wr u (aJrn off) v) := fun u off v h =>
    runOf_wr u v (.inl (by unfold aJrn; omega)) hg
  have hjrn : ∀ (u : State) (j : Jrn), Keeps (runOf k g) u { u with jrn := j } := fun _ _ => by rfl
  exact (((hwr _ _ _ (by decide)).trans (hwr _ _ _ (by decide))).trans ((hwr _ _ _ (by decide)).trans (hwr _ _ _ (by decide)))).trans (hjrn ..)

theorem jrnAdvance_keepsRun (s : State) : Keeps (runOf k g) s (jrnAdvance s) := by
  have hckpt : Keeps (runOf k g) s (match s.jrn.ckpt with
      | some c =>
        if c.stage = 0 then
          if c.chunks = 4 && !((s.jrn.outH0 ++ s.jrn.outH1).any fun w => w.ckpt) then ckptTail s c else s
        else if c.hdr0 && c.hdr1 then ckptCommit s c else s
      | none => s) := by
    split
    · exact .ite (.ite (ckptTail_keepsRun ..) (.refl _ s)) (.ite (ckptCommit_keepsRun hg ..) (.refl _ s))
    · rfl
  have hsettle : ∀ t : State, Keeps (runOf k g) t (settleData t) := fun t => Keeps.foldl (fun _ _ _ => by rfl) t
  have heng : ∀ (u : State) (b : Bool), Keeps (runOf k g) u { u with eng := { u.eng with groomWanted := b } } := fun _ _ => by rfl
  have hgroom : ∀ t : State, Keeps (runOf k g) t (if t.eng.groomWanted && t.jrn.ckpt.isNone then
      submitGroom { t with eng := { t.eng with groomWanted := false } } else t) := fun t =>
    .ite ((heng t false).trans (submitGroom_keepsRun hg _)) (.refl _ t)
  exact ((hckpt.trans (commitLoop_keepsRun hg ..)).trans (hsettle _)).trans
    ((hgroom _).trans ((pumpHome_keepsRun hg _ 0 4).trans (pumpHome_keepsRun hg _ 1 4)))

/-- What the end of a job does for its command leaves the slots' running jobs and the counts. -/
theorem jobEnded_keepsRun (s : State) (j : Job) : Keeps (runOf k g) s (jobEnded s j) := by
  have hmerge : Keeps (runOf k g) s (mergeDiffs s j) := Keeps.foldl (fun _ _ _ => by rfl) s
  have hcmd : ∀ (t : State) (f : Cmd → Cmd), Keeps (runOf k g) t (updCmd t j.cmd f) := fun _ _ => by rfl
  have hjrn : ∀ (u : State) (j : Jrn), Keeps (runOf k g) u { u with jrn := j } := fun _ _ => by rfl
  have hckpt : ∀ u : State, Keeps (runOf k g) u (match u.jrn.ckpt with
      | some c => if c.key = j.cmd then jrnAdvance { u with jrn := { u.jrn with ckpt := some { c with chunks := c.chunks + 1 } } } else u
      | none => u) := fun u => by
    split
    · exact .ite ((hjrn u _).trans (jrnAdvance_keepsRun hg _)) (.refl _ u)
    · rfl
  have hfinish : ∀ u : State, Keeps (runOf k g) u (match getCmd u j.cmd with | some c => if c.jobsLeft = 0 then finishData u j.cmd else u | none => u) := fun u => by
    split
    · exact .ite (finishData_keepsRun ..) (.refl _ u)
    · rfl
  exact ((hmerge.trans (hcmd _ fun c => { c with jobsLeft := c.jobsLeft - 1 })).trans (pushJobs_keepsRun _ j.cmd)).trans ((hckpt _).trans (hfinish _))

end
end

/-! The commands. -/

theorem exec_jobComplete {s : State} {slot : BitVec 6} {g : Nat} {j : Job} {c : Cmd} (hrun : (getSlot s slot.toNat).running = some j)
    (hcmd : getCmd s j.cmd = some c) (hdone : jobFinished c j = true) (heng : slotEng s slot.toNat = some g) :
    exec (.jobComplete slot) s =
      answer s (jobEnded (incSat (evSlot (setRunning s slot.toNat none) slot.toNat 2 1) (aEng (0x1010 + 0x20 * g)) 1) j) := by
  refine congrArg (answer s) ?_
  dsimp only
  rw [hrun]
  dsimp only
  rw [hcmd, heng]
  exact if_pos hdone

section
variable {s : State} {slot : BitVec 6} (hidle : slotIdle s slot.toNat = true) (hparked : (getSlot s slot.toNat).parked = false)
  (hwait : (getSlot s slot.toNat).waitTo ≤ nowNs s)
include hidle hparked hwait

theorem exec_workSteal_parks (hfails : 11 ≤ (getSlot s slot.toNat).fails) :
    exec (.workSteal slot) s = answer s (updSlot s slot.toNat fun e => { e with parked := true }) :=
  congrArg (answer s) ((if_neg (by rw [hidle, hparked, decide_eq_false (by omega)]; decide)).trans (if_pos hfails))

/-- The theft: the oldest half of the deque of slot v is on that of slot k, whose record is e otherwise. -/
def stolen (s : State) (k v n : Nat) (e : EngSlot) : State :=
  updSlot (updSlot s v fun u => { u with deque := (getSlot s v).deque.take (n - ceilDiv n 2), takenNs := some (nowNs s) }) k fun _ =>
    { e with fails := 0, deque := (getSlot s v).deque.drop (n - ceilDiv n 2), pushAt := nowNs s + (if (getSlot s k).fails < 4 then 8 else 32) }

theorem exec_workSteal_takes {v n : Nat} {e : EngSlot} (hfails : (getSlot s slot.toNat).fails < 11)
    (htarget : stealTarget s slot.toNat = (some v, e)) (hfirst : (getSlot s v).takenNs ≠ some (nowNs s))
    (hn : n = (getSlot s v).deque.length) (hpos : 0 < n) : ∃ (ev : Nat) (l : List Job) (j : Job), ev < 16 ∧
      exec (.workSteal slot) s = answer s (pushJobs (stealCount (evSlot (evSlot (wakeAll (stolen s slot.toNat v n e)) slot.toNat ev 1) v 6 l.length)
        slot.toNat true) j.cmd) := by
  subst hn
  obtain ⟨j, rest, htake⟩ : ∃ j rest, (getSlot s v).deque.drop ((getSlot s v).deque.length - ceilDiv (getSlot s v).deque.length 2) = j :: rest := List.exists_cons_of_ne_nil (by
    rw [ne_eq, List.drop_eq_nil_iff]
    unfold ceilDiv
    omega)
  refine ⟨if v / 8 = slot.toNat / 8 then 3 else 4, (getSlot s v).deque.drop ((getSlot s v).deque.length - ceilDiv (getSlot s v).deque.length 2), j, by split <;> decide, ?_⟩
  refine congrArg (answer s) ((if_neg (by rw [hidle, hparked, decide_eq_false (by omega)]; decide)).trans ((if_neg (by omega)).trans ?_))
  dsimp only
  rw [htarget]
  dsimp only
  rw [if_neg (by simpa using hfirst), if_neg (by omega)]
  unfold stolen
  rw [Option.getD_some, htake]
  rfl

end

theorem exec_parkWake {s : State} {slot : BitVec 6} (hparked : (getSlot s slot.toNat).parked = true) (hwake : slot.toNat ∈ s.eng.wakes) :
    exec (.parkWake slot) s = answer s (updSlot { s with eng := { s.eng with wakes := s.eng.wakes.filter fun j => j != slot.toNat } } slot.toNat
      fun e => { e with parked := false, fails := 0 }) :=
  congrArg (answer s) (if_pos (by rw [hparked]; simpa using hwake))

/-- The replay of a running job writes no word of the engines, and leaves the list of failed ones. -/
theorem replayJob_keeps (s : State) {k : Nat} (hk : k < 64) : (∀ a, noteWord a = false → rd (replayJob s k) a = rd s a) ∧
    (replayJob s k).eng.failedE = s.eng.failedE := by
  unfold replayJob
  split
  · split
    · exact ⟨fun _ _ => rfl, rfl⟩
    · have hnoted := fun t => evSlot_noted t (e := 15) 1 hk (by decide)
      exact ⟨fun a ha => ((hnoted _).words a ha).trans rfl, (congrArg Eng.failedE (hnoted _).eng).trans rfl⟩
  · exact ⟨fun _ _ => rfl, rfl⟩

/-- The slot of a failed engine is served by the rink's spare, and its job is replayed. -/
theorem exec_engineFail_spare {s : State} {e : BitVec 7} {k : Nat} (hon : rinkOn s (e.toNat / 9) = true) (hnew : e.toNat ∉ s.eng.failedE)
    (hslot : ((List.range 8).map (8 * (e.toNat / 9) + ·)).find? (fun k => slotPos s k == some (e.toNat % 9)) = some k)
    (hunused : bitOf (rd s (aEng (8 + 8 * (e.toNat / 9)))) 32 = false) (hspare : 9 * (e.toNat / 9) + 8 ∉ s.eng.failedE) :
    ∃ u : State, u.eng.failedE = insertNat s.eng.failedE e.toNat ∧ exec (.engineFail e) s = answer s (replayJob (raiseRinkFree (setFlag
      (wrF (wrF u (aEng (8 + 8 * (e.toNat / 9))) (4 * (k % 8) + 3) (4 * (k % 8)) 8) (aEng (8 + 8 * (e.toNat / 9))) 32 32 1) (aEng 0) 1)
        (e.toNat / 9) 0x132 1) k) := by
  refine ⟨if dutySlot s admRink == some k then restartAdmit { s with eng := { s.eng with failedE := insertNat s.eng.failedE e.toNat } }
    else { s with eng := { s.eng with failedE := insertNat s.eng.failedE e.toNat } }, ?_, ?_⟩
  · split
    · unfold restartAdmit
      split <;> rfl
    · rfl
  · refine congrArg (answer s) ((if_neg (by simp [hon, hnew])).trans ?_)
    dsimp only
    rw [hslot]
    exact if_pos (by simp [hunused, hspare])

/-- Settles O33: each clause by the step of its command; the end of a job through what its command's end leaves of the slots. -/
theorem slotsStealParkAndFailOver : Obligations.SlotsStealParkAndFailOver := by
  unfold Obligations.SlotsStealParkAndFailOver
  refine ⟨?ended, ?stolen, ?parked, ?woken, ?failed⟩
  case ended =>
    rintro s slot k g j c rfl hrun hcmd hdone heng
    have hexec := exec_jobComplete hrun hcmd hdone heng
    have hk : slot.toNat < 64 := slot.isLt
    have hg := slotEng_lt hk heng
    have hnoted := evSlot_noted (setRunning s slot.toNat none) (e := 2) 1 hk (by decide)
    have hstopped : (getSlot (setRunning s slot.toNat none) slot.toNat).running = none := by
      unfold setRunning
      rw [getSlot_updSlot_same]
    have hword : ∀ a, rd (setRunning s slot.toNat none) a = rd s a := fun _ => rfl
    generalize setRunning s slot.toNat none = u at hexec hnoted hstopped hword
    generalize evSlot u slot.toNat 2 1 = v at hexec hnoted
    have hkeep : Keeps (runOf slot.toNat g) _ _ := jobEnded_keepsRun hg (incSat v (aEng (0x1010 + 0x20 * g)) 1) j
    generalize jobEnded (incSat v (aEng (0x1010 + 0x20 * g)) 1) j = t at hexec hkeep
    simp only [Keeps, runOf, Prod.mk.injEq] at hkeep
    obtain ⟨hkrun, hkcount⟩ := hkeep
    refine completes_of_answered hexec ⟨?_, ?_⟩
    · refine hkrun.trans (Eq.trans ?_ hstopped)
      exact congrArg (fun e : Eng => (mgetD e.slots slot.toNat {}).running) hnoted.eng
    · refine (congrArg BitVec.toNat hkcount).trans ?_
      rw [toNat_incSat, hnoted.words _ (noteWord_aEng (by omega)), hword]
  case stolen =>
    rintro s slot k v n e rfl hidle hparked hfails hwait htarget hfirst hn hpos hwaiting
    obtain ⟨ev, l, j, hev, hexec⟩ := exec_workSteal_takes hidle hparked hwait hfails htarget hfirst hn hpos
    have hne := stealTarget_ne htarget
    have heng : (stealCount (evSlot (evSlot (wakeAll (stolen s slot.toNat v n e)) slot.toNat ev 1) v 6 l.length) slot.toNat true).eng =
        (wakeAll (stolen s slot.toNat v n e)).eng := (stealCount_eng ..).trans ((evSlot_eng ..).trans (evSlot_eng ..))
    generalize stealCount (evSlot (evSlot (wakeAll (stolen s slot.toNat v n e)) slot.toNat ev 1) v 6 l.length) slot.toNat true = u at hexec heng
    have hslots : (pushJobs u j.cmd).eng.slots = (stolen s slot.toNat v n e).eng.slots :=
      (pushJobs_slots (by rw [heng]; exact hwaiting) j.cmd).trans ((congrArg Eng.slots heng).trans rfl)
    generalize pushJobs u j.cmd = t at hexec hslots
    have hget : ∀ m, mgetD t.eng.slots m {} = getSlot (stolen s slot.toNat v n e) m := fun m => congrArg (fun l : Map EngSlot => mgetD l m {}) hslots
    refine completes_of_answered hexec ⟨?_, ?_, ?_, fun m hmv hmk => ?_⟩
    · refine (congrArg EngSlot.deque (hget v)).trans ?_
      unfold stolen
      rw [getSlot_updSlot, if_neg hne, getSlot_updSlot_same]
      rfl
    · refine (congrArg EngSlot.deque (hget slot.toNat)).trans ?_
      unfold stolen
      rw [getSlot_updSlot_same]
      rfl
    · refine (congrArg EngSlot.fails (hget slot.toNat)).trans ?_
      unfold stolen
      rw [getSlot_updSlot_same]
    · refine (hget m).trans ?_
      unfold stolen
      rw [getSlot_updSlot, if_neg hmk, getSlot_updSlot, if_neg hmv]
  case parked =>
    rintro s slot k rfl hidle hparked hfails hwait
    exact completes_of_answer (exec_workSteal_parks hidle hparked hwait hfails) rfl rfl rfl ⟨getSlot_updSlot_same .., rfl⟩
  case woken =>
    rintro s slot k rfl hparked hwake
    refine completes_of_answer (exec_parkWake hparked hwake) rfl rfl rfl ⟨getSlot_updSlot_same .., ?_, rfl⟩
    simp [updSlot]
  case failed =>
    rintro s e b k rfl hon hnew hslot hunused - hspare
    obtain ⟨u, hfailed, hexec⟩ := exec_engineFail_spare hon hnew hslot hunused hspare
    obtain ⟨j, hj, hk⟩ := List.mem_map.mp (List.mem_of_find?_eq_some hslot)
    have hb : e.toNat / 9 < 8 := by
      have hle := nRinks_le s
      unfold rinkOn at hon
      simp only [Bool.and_eq_true, decide_eq_true_eq] at hon
      omega
    have hj8 := List.mem_range.mp hj
    have hrink : k / 8 = e.toNat / 9 := by omega
    generalize e.toNat / 9 = b at hexec hb hrink hk
    have hset : rdF (wrF (wrF u (aEng (8 + 8 * b)) (4 * (k % 8) + 3) (4 * (k % 8)) 8) (aEng (8 + 8 * b)) 32 32 1) (aEng (8 + 8 * b)) (4 * (k % 8) + 3)
        (4 * (k % 8)) = 8 := by
      rw [rdF_wrF_of_lt _ _ _ (by omega) (by omega), rdF_wrF_same _ _ _ (by omega) (by omega), Nat.add_sub_cancel_left]
      rfl
    have hused : bitOf (rd (wrF (wrF u (aEng (8 + 8 * b)) (4 * (k % 8) + 3) (4 * (k % 8)) 8) (aEng (8 + 8 * b)) 32 32 1) (aEng (8 + 8 * b))) 32 = true := by
      rw [rd_wrF, if_pos rfl, bitOf, getLsbD_setFld, if_pos (by omega)]
      rfl
    have hfailed' : (wrF (wrF u (aEng (8 + 8 * b)) (4 * (k % 8) + 3) (4 * (k % 8)) 8) (aEng (8 + 8 * b)) 32 32 1).eng.failedE =
      insertNat s.eng.failedE e.toNat := hfailed
    generalize wrF (wrF u (aEng (8 + 8 * b)) (4 * (k % 8) + 3) (4 * (k % 8)) 8) (aEng (8 + 8 * b)) 32 32 1 = v at hexec hset hused hfailed'
    have hnoted := noted_raiseRinkFree (setFlag v (aEng 0) 1) b 0x132 1
    generalize raiseRinkFree (setFlag v (aEng 0) 1) b 0x132 1 = w at hexec hnoted
    obtain ⟨hwords, hlist⟩ := replayJob_keeps w (k := k) (by omega)
    generalize replayJob w k = t at hexec hwords hlist
    have hrd : ∀ off, off < 0x10000 → rd t (aEng off) = rd (setFlag v (aEng 0) 1) (aEng off) := fun off hoff =>
      (hwords _ (noteWord_aEng hoff)).trans (hnoted.words _ (noteWord_aEng hoff))
    have hpos : rd t (aEng (8 + 8 * b)) = rd v (aEng (8 + 8 * b)) := by
      rw [hrd _ (by omega), rd_setFlag, if_neg (by unfold aEng; omega)]
    refine completes_of_answered hexec ⟨?_, ?_, ?_, ?_⟩
    · change slotEng t k = _
      unfold slotEng slotPos rdF
      unfold rdF at hset
      rw [hrink, hpos, hset]
      rfl
    · exact (congrArg (fun w : Word => bitOf w 32) hpos).trans hused
    · exact (congrArg (fun w : Word => bitOf w 1) (hrd 0 (by decide))).trans (bitOf_setFlag_same _ _ (by decide))
    · change e.toNat ∈ t.eng.failedE
      rw [hlist, hnoted.eng]
      exact hfailed' ▸ self_mem_insertNat _ _

end Sys2Proof.Machine
end

section
/-! PROOF. A turn of a slot's job makes its service's next request (13 R289, R292; for O32). -/

namespace Sys2Proof.Machine

theorem takeFirst_none_of_forall {α : Type} {l : List α} {p : α → Bool} (h : ∀ a ∈ l, p a = false) : (takeFirst l p).1 = none := by
  induction l with
  | nil => rfl
  | cons a l ih =>
    unfold takeFirst
    rw [if_neg (by rw [h a (by simp)]; decide)]
    exact ih fun b hb => h b (by simp [hb])

/-- Without an answer for the slot none is handled. -/
theorem drainAnswers_idle {f : AnsFn} {bad : State → Job → Bool → Nat → Job × State} {s : State} {k : Nat}
    (h : ∀ a ∈ s.eng.inbox, a.1 ≠ k ∧ a.1 ≠ 64 + k) (fuel : Nat) : drainAnswers f bad s k fuel = s := by
  cases fuel with
  | zero => rfl
  | succ fuel =>
    have hnone : (takeFirst s.eng.inbox fun a => a.1 == k || a.1 == 64 + k).1 = none := takeFirst_none_of_forall fun a ha => by
      obtain ⟨h1, h2⟩ := h a ha
      simp [h1, h2]
    unfold drainAnswers
    split
    · rfl
    · next e =>
      rw [e] at hnone
      cases hnone

/-- A turn of a slot whose job runs, without an answer to handle, is the service's next request. -/
theorem serveJob_issues {op need k : Nat} {f : AnsFn} {bad : State → Job → Bool → Nat → Job × State} {issue : IssueFn} {s u : State} {j j' : Job} {c : Cmd}
    (hon : rinkOn s (k / 8) = true) (hrun : (getSlot s k).running = some j) (hinbox : ∀ a ∈ s.eng.inbox, a.1 ≠ k ∧ a.1 ≠ 64 + k)
    (hcmd : getCmd s j.cmd = some c) (habort : c.abort = false) (hroom : j.outstanding + need ≤ 96) (hop : j.op.toNat = op)
    (hissue : issue s k j = some (j', u)) :
    serveJob op need f bad issue s k = setRunning u k (some { j' with outstanding := j'.outstanding + need }) := by
  have htake : takeJob s k op = s := by
    unfold takeJob
    dsimp only
    rw [hrun]
  refine (if_neg (by rw [hon]; decide)).trans ?_
  rw [htake]
  dsimp only
  rw [hrun]
  dsimp only
  rw [if_neg (not_not.mpr hop), drainAnswers_idle hinbox, hrun]
  dsimp only
  refine (if_neg (by rw [hcmd]; dsimp only; rw [habort]; decide)).trans ((if_neg (by omega)).trans ?_)
  rw [hissue]

/-- What every service's next request leaves: one place further, and the count of outstanding requests as it was. -/
def OneFurther (j j' : Job) : Prop := j'.outstanding = j.outstanding ∧ j'.cursor + j'.check = j.cursor + j.check + 1

theorem OneFurther.cursor (j : Job) : OneFurther j { j with cursor := j.cursor + 1 } := ⟨rfl, Nat.add_right_comm ..⟩

theorem OneFurther.check (j : Job) : OneFurther j { j with check := j.check + 1 } := ⟨rfl, rfl⟩

section
variable {s u : State} {k : Nat} {j j' : Job}

theorem saniIssue_further (h : saniIssue s k j = some (j', u)) : OneFurther j j' := by
  unfold saniIssue at h
  dsimp only at h
  split at h
  · obtain ⟨-, h⟩ := Option.ite_none_right_eq_some.mp h
    cases h
    exact .cursor j
  · obtain ⟨-, h⟩ := Option.ite_none_right_eq_some.mp h
    cases h
    exact .check j

theorem copyIssue_further (h : copyIssue s k j = some (j', u)) : OneFurther j j' := by
  obtain ⟨-, h⟩ := Option.ite_none_right_eq_some.mp h
  cases h
  exact .cursor j

theorem verIssue_further {two : Bool} (h : verIssue two s k j = some (j', u)) : OneFurther j j' := by
  obtain ⟨-, h⟩ := Option.ite_none_right_eq_some.mp h
  split at h
  · obtain ⟨-, h⟩ := Option.ite_none_right_eq_some.mp h
    cases h
    exact .cursor j
  · cases h
    exact .cursor j

theorem teleIssue_further (h : teleIssue s k j = some (j', u)) : OneFurther j j' := by
  obtain ⟨-, h⟩ := Option.ite_none_right_eq_some.mp h
  cases h
  exact .cursor j

theorem groomIssue_further (h : groomIssue s k j = some (j', u)) : OneFurther j j' := by
  unfold groomIssue at h
  split at h
  · cases h
  · obtain ⟨-, h⟩ := Option.ite_none_left_eq_some.mp h
    split at h
    · cases h
      exact .check j
    · obtain ⟨-, h⟩ := Option.ite_none_left_eq_some.mp h
      cases h
      exact .cursor j

end

/-- A slot's request joins the requests of its rink's service NI. -/
theorem slotSend_reqs {s : State} {k code opc fa nbytes : Nat} {dst : Option (BitVec 12)} {data : List Line} (hk : k < 64)
    (hto : fa / 2 ^ 50 = 0 ∨ dst.isSome = true) (hcan : engCan s (svcNi (k / 8)) (k % 8) opc 64 = true) :
    ∃ r, IsEngReq s (120 + k / 8) (k % 8) code opc fa dst nbytes data r ∧
      (getNi (slotSend s k code opc fa dst nbytes data) (120 + k / 8)).reqs = (getNi s (120 + k / 8)).reqs ++ [r] := by
  obtain ⟨r, trk, hr, hview, -⟩ := engSend_spec (s := s) (n := 120 + k / 8) (q := k % 8) (code := code) (data := data) (nbytes := nbytes) (by omega) hto
    (engCan_trk hcan) rfl
  refine ⟨r, hr, ?_⟩
  have hnoted := evSlot_noted (engSend s (120 + k / 8) (k % 8) code opc fa dst nbytes data) (e := 9) 1 hk (by decide)
  exact (congrArg Ni.reqs (hnoted.nis (120 + k / 8))).trans (of_takenView hview).1

/-- Settles O32: a turn is the service's next request, which each service makes one place further. -/
theorem dataServicesRequestNextBlock : Obligations.DataServicesRequestNextBlock := by
  unfold Obligations.DataServicesRequestNextBlock
  rintro s u slot k need j j' c ins issue rfl hon hrun hinbox hcmd habort hroom hservice hissue
  have hk : slot.toNat < 64 := slot.isLt
  have hturn : ∀ {f bad}, serveJob j.op.toNat need f bad issue s slot.toNat = _ := serveJob_issues hon hrun hinbox hcmd habort hroom rfl hissue
  obtain ⟨hexec, hout, hplace⟩ : exec ins s = answer s (setRunning u slot.toNat (some { j' with outstanding := j'.outstanding + need })) ∧ OneFurther j j' := by
    obtain ⟨rfl, hop, rfl, rfl⟩ | ⟨rfl, hop, rfl, rfl⟩ | ⟨rfl, hop, rfl, rfl⟩ | ⟨rfl, hop, rfl, rfl⟩ | ⟨rfl, hop, rfl, rfl⟩ := hservice <;>
      rw [hop] at hturn
    · exact ⟨congrArg (answer s) hturn, saniIssue_further hissue⟩
    · exact ⟨congrArg (answer s) hturn, copyIssue_further hissue⟩
    · have htwo : verTwo s slot.toNat = !verPattern c.entry := by
        unfold verTwo
        dsimp only
        rw [hrun]
        dsimp only [Option.orElse]
        rw [hcmd]
        rfl
      refine ⟨congrArg (answer s) (Eq.trans ?_ (hturn (f := verAnswer) (bad := verBad))), verIssue_further hissue⟩
      dsimp only
      rw [htwo]
      cases verPattern c.entry <;> rfl
    · exact ⟨congrArg (answer s) hturn, teleIssue_further hissue⟩
    · exact ⟨congrArg (answer s) hturn, groomIssue_further hissue⟩
  refine completes_of_answered hexec ⟨?_, hout, hplace, rfl, rfl, ?_, ?_⟩
  · exact congrArg EngSlot.running (getSlot_updSlot_same ..)
  · rintro rfl hcursor hto hlt
    obtain ⟨-, hop, -, rfl⟩ : Instr.sanitise slot = .sanitise slot ∧ j.op = 1 ∧ need = 1 ∧ issue = saniIssue := by simpa using hservice
    unfold saniIssue at hissue
    rw [hcmd] at hissue
    dsimp only at hissue
    rw [if_pos hcursor] at hissue
    obtain ⟨hcan, hissue⟩ := Option.ite_none_right_eq_some.mp hissue
    rw [Option.some.injEq, Prod.mk.injEq] at hissue
    obtain ⟨-, rfl⟩ := hissue
    obtain ⟨r, hr, hreqs⟩ := slotSend_reqs (code := slot.toNat) (nbytes := 4096) (data := List.replicate 64 (patLine (cmdW c.entry 3))) hk
      (hto.imp_left Nat.div_eq_of_lt) hcan
    have hnoted := evSlot_noted (slotSend s slot.toNat slot.toNat opMwr (j.fa + 4096 * j.cursor) j.direct 4096 (List.replicate 64 (patLine (cmdW c.entry 3))))
      (e := 8) 64 hk (by decide)
    refine ⟨r, (congrArg Ni.reqs (hnoted.nis (120 + slot.toNat / 8))).trans hreqs, hr.opc, ?_, hr.data, hr.queue⟩
    rw [hr.addr, BitVec.toNat_ofNat]
    exact Nat.mod_eq_of_lt hlt
  · rintro rfl hlt
    obtain ⟨-, hop, -, rfl⟩ : Instr.copy slot = .copy slot ∧ j.op = 2 ∧ need = 1 ∧ issue = copyIssue := by simpa using hservice
    obtain ⟨⟨-, hcan⟩, hissue⟩ := Option.ite_none_right_eq_some.mp hissue
    rw [Option.some.injEq, Prod.mk.injEq] at hissue
    obtain ⟨-, rfl⟩ := hissue
    obtain ⟨r, hr, hreqs⟩ := slotSend_reqs (code := slot.toNat) (dst := none) (nbytes := 4096) (data := []) hk (.inl (Nat.div_eq_of_lt hlt)) hcan
    refine ⟨r, hreqs, hr.opc, ?_, hr.nbytes, hr.queue⟩
    rw [hr.addr, BitVec.toNat_ofNat]
    exact Nat.mod_eq_of_lt (Nat.lt_trans hlt (by decide))

end Sys2Proof.Machine
end

section
/-! PROOF. An FM API command prepares its response or begins with its first extent (13 R295; for O36). -/

namespace Sys2Proof.Machine

theorem getCmd_of_ctlHead {s : State} {c : Cmd} (h : ctlHead s = some c) : getCmd s c.key = some c := by
  unfold ctlHead at h
  obtain ⟨-, h⟩ := Option.ite_none_right_eq_some.mp h
  obtain ⟨key, -, hkey⟩ := Option.bind_eq_some_iff.mp h
  have hc := List.find?_some hkey
  rw [beq_iff_eq] at hc
  exact hc ▸ hkey

/-- A step that a control command stays at leaves its record with the step's number. -/
theorem getCmd_stays {t : State} {c d : Cmd} (k : Nat) (h : getCmd t c.key = some d) :
    getCmd (updCmd t c.key fun d => { d with step := k }) c.key = some { d with step := k } := getCmd_updCmd (fun _ => by rfl) h

theorem runCtl_stays {s t : State} {c : Cmd} {op k : Nat} {f : State → Cmd → Sub × State} (hhead : ctlHead s = some c) (hop : c.op.toNat = op)
    (hf : f s c = (.stay k, t)) : runCtl op f s = updCmd t c.key fun d => { d with step := k } := by
  unfold runCtl
  rw [hhead]
  dsimp only
  rw [if_pos hop, hf]

section
variable {s : State} {c : Cmd} (hhead : ctlHead s = some c) (hop : c.op = 0x30) (hstep : c.step = 2)
include hhead hop hstep

/-- The execution of an FM API command that changes its record alone. -/
theorem runFm_executes {ok : Nat → Bool} {f : State → Cmd → Sub × State} {k : Nat} {g : Cmd → Cmd} (hok : ok (fmOpcode c) = true)
    (hf : f s c = (.stay k, updCmd s c.key g)) (hg : ∀ d, (g d).key = d.key) :
    getCmd (runFm ok f s) c.key = some { g c with step := k } ∧ runFm ok f s = { s with eng := (runFm ok f s).eng } := by
  have hfm : fmStep f s c = (.stay k, updCmd s c.key g) := by
    unfold fmStep
    rw [hstep]
    exact hf
  have hrun : runFm ok f s = updCmd (updCmd s c.key g) c.key fun d => { d with step := k } := by
    unfold runFm
    rw [hhead]
    dsimp only
    rw [if_pos (by rw [hop, hok]; rfl)]
    exact runCtl_stays hhead (by rw [hop]; rfl) hfm
  rw [hrun]
  exact ⟨getCmd_stays k (getCmd_updCmd hg (getCmd_of_ctlHead hhead)), rfl⟩

/-- A command whose execution is a response with a return code prepares it. -/
theorem fmResponds {ins : Instr} {ok : Nat → Bool} {f : State → Cmd → Sub × State} {code : Nat} {vals : List Nat}
    (hexec : exec ins s = answer s (runFm ok f s)) (hok : ok (fmOpcode c) = true) (hf : f s c = fmRespond s c code vals) :
    Completes ins s fun t => ∃ bytes : List (BitVec 8), bytes.length ≤ fld (cmdW c.entry 4) 11 0 ∧
      getCmd t c.key = some { c with step := 20, result := BitVec.ofNat 64 code, got := linesOfBytes bytes 64, host := bytes.length } ∧
      t = { s with eng := t.eng } := by
  obtain ⟨hcmd, hwhole⟩ := runFm_executes hhead hop hstep hok hf fun _ => by rfl
  generalize runFm ok f s = t at hexec hcmd hwhole
  exact completes_of_answer hexec (by rw [hwhole]) (by rw [hwhole]) (by rw [hwhole]) ⟨_, List.length_take_le _ _, hcmd, hwhole⟩

end

/-- Settles O36: each command by what its execution answers. -/
theorem fmApiPreparesItsResponse : Obligations.FmApiPreparesItsResponse := by
  unfold Obligations.FmApiPreparesItsResponse
  rintro s c hhead hop hstep
  refine ⟨?responds, ?begins⟩
  case responds =>
    rintro ins code (⟨rfl, hcode, rfl⟩ | ⟨rfl, hcode, rfl⟩ | ⟨rfl, hcode, rfl⟩ | ⟨rfl, hcode, rfl⟩ | ⟨rfl, hcode, hnode, rfl⟩ | ⟨rfl, hcode, hlist, rfl⟩ |
      ⟨rfl, hcode, rfl⟩)
    · exact fmResponds hhead hop hstep rfl (beq_iff_eq.mpr hcode) rfl
    · cases hdata : s.eng.cmds.find? fun d => d.ring == c.ring && !d.done && !isCtlOp d.op.toNat && !isAdmOp d.op.toNat with
      | none => exact fmResponds (vals := []) hhead hop hstep rfl (beq_iff_eq.mpr hcode) (by rw [hdata])
      | some d => exact fmResponds (vals := [d.op.toNat, d.cid.toNat, d.jobsLeft]) hhead hop hstep rfl (beq_iff_eq.mpr hcode) (by rw [hdata])
    · exact fmResponds hhead hop hstep rfl (beq_iff_eq.mpr hcode) rfl
    · cases hnode : fmNode s (fmRequest c) with
      | none => exact fmResponds (code := 2) (vals := []) hhead hop hstep rfl (beq_iff_eq.mpr hcode) (by rw [hnode])
      | some d =>
        exact fmResponds (code := 0) (vals := (ebtListed s).filter (hostHolds s d)) hhead hop hstep rfl (beq_iff_eq.mpr hcode) (by rw [hnode])
    · refine fmResponds (vals := []) hhead hop hstep rfl (beq_iff_eq.mpr hcode) ((if_pos hstep).trans ?_)
      rw [hnode]
      split
      · next h => cases h
      · rfl
    · refine fmResponds (vals := []) hhead hop hstep rfl (beq_iff_eq.mpr hcode) ((if_pos hstep).trans ?_)
      rw [hlist]
    · exact fmResponds hhead hop hstep rfl (by rw [hcode]; rfl) rfl
  case begins =>
    intro ins x rest hlist hins
    have hnext : fmNext s c (x :: rest) = (.stay 100, updCmd s c.key fun d => { d with extents := x :: rest }) := rfl
    have hbegins : ∀ {ok : Nat → Bool} {f : State → Cmd → Sub × State}, exec ins s = answer s (runFm ok f s) → ok (fmOpcode c) = true →
        f s c = fmNext s c (x :: rest) → Completes ins s fun t =>
          getCmd t c.key = some { c with step := 100, extents := x :: rest } ∧ t = { s with eng := t.eng } := fun {ok f} hexec hok hf => by
      obtain ⟨hcmd, hwhole⟩ := runFm_executes hhead hop hstep hok (hf.trans hnext) fun _ => by rfl
      generalize runFm ok f s = t at hexec hcmd hwhole
      exact completes_of_answer hexec (by rw [hwhole]) (by rw [hwhole]) (by rw [hwhole]) ⟨hcmd, hwhole⟩
    obtain ⟨rfl, hcode, hnode⟩ | ⟨rfl, hcode⟩ := hins
    · obtain ⟨node, hnode⟩ := Option.isSome_iff_exists.mp hnode
      refine hbegins rfl (beq_iff_eq.mpr hcode) ((if_pos hstep).trans ?_)
      rw [hlist, hnode]
    · refine hbegins rfl (beq_iff_eq.mpr hcode) ((if_pos hstep).trans ?_)
      rw [hlist]

end Sys2Proof.Machine
end

section
/-! PROOF. Entries are repaired, recoveries begin and end, and the homes are waited for (14 R308, R318, R319, 24 R491; for O38). -/

namespace Sys2Proof.Machine

/-! The groomer starts. -/

/-- Pushing jobs changes the engines alone. -/
theorem pushJobs_eng (s : State) (key : Nat) : pushJobs s key = { s with eng := (pushJobs s key).eng } := by
  have hpush : ∀ (k : Nat) (l : List Job), Keeps (fun u : State => { u with eng := s.eng }) s (pushOn s k l).2 := fun k l => by
    unfold pushOn
    exact .ite (.refl _ s) (by rfl)
  have hcmd : ∀ (t : State) (f : Cmd → Cmd), Keeps (fun u : State => { u with eng := s.eng }) t (updCmd t key f) := fun _ _ => by rfl
  have hkeep : Keeps (fun u : State => { u with eng := s.eng }) s (pushJobs s key) := by
    unfold pushJobs
    split
    · split
      · exact (hpush ..).trans (hcmd ..)
      · rfl
    · rfl
  generalize pushJobs s key = t at hkeep ⊢
  exact congrArg (fun u : State => { u with eng := t.eng }) hkeep

/-- The checkpoint that a GROOM starts with. -/
def startedCkpt (s : State) (key : Nat) : Ckpt :=
  { key := key, startSeq := rdF s (aJrn 0x20) 47 0, off0 := regionAt (homeLp s 0), off1 := regionAt (homeLp s 1) }

theorem groomStart_spec (s : State) (key : Nat) : (groomStart s key).jrn = { s.jrn with ckpt := some (startedCkpt s key) } ∧
    (groomStart s key).regs = (setFlag (reserve (reserve s 0) 1) (aJrn 8) 1).regs := by
  unfold groomStart
  dsimp only
  rw [pushJobs_eng]
  exact ⟨rfl, rfl⟩

theorem submitGroom_starts {s : State} (hjrn : s.gen.jrn = true) (heng : s.gen.eng = true) (hnone : s.jrn.ckpt = none) :
    (submitGroom s).jrn = { s.jrn with ckpt := some (startedCkpt s s.eng.nextKey) } ∧
      (submitGroom s).regs = (setFlag (reserve (reserve s 0) 1) (aJrn 8) 1).regs := by
  have hsubmit : submitGroom s = groomStart (addCmd s { key := s.eng.nextKey, ring := 16, op := 0x41 }) s.eng.nextKey :=
    if_neg (by rw [hnone, hjrn, heng]; decide)
  rw [hsubmit]
  exact groomStart_spec ..

/-- What a submitted GROOM leaves: the journal but for its checkpoint, and the words but for its own. -/
theorem submitGroom_leaves (s : State) : (∃ c, (submitGroom s).jrn = { s.jrn with ckpt := c }) ∧
    (∀ a, a ∉ [aJrn 8, aJrn 0x48, aJrn 0x50] → rd (submitGroom s) a = rd s a) ∧
    ∀ i, i ≠ 1 → bitOf (rd (submitGroom s) (aJrn 8)) i = bitOf (rd s (aJrn 8)) i := by
  have hlp : ∀ (t : State) (h off a : Nat) (w : Bool), a ≠ aJrn (0x48 + 8 * h) → rd (setLp t h off w) a = rd t a := fun t h off a w ha => rd_wr_ne t _ a _ ha
  have hreserve : ∀ (t : State) (h a : Nat), a ≠ aJrn (0x48 + 8 * h) → rd (reserve t h) a = rd t a := fun t h a ha => hlp t h _ a _ ha
  by_cases hgroom : (s.jrn.ckpt.isSome || !s.gen.jrn || !s.gen.eng) = true
  · have hsubmit : submitGroom s = s := if_pos hgroom
    rw [hsubmit]
    exact ⟨⟨_, rfl⟩, fun _ _ => rfl, fun _ _ => rfl⟩
  · simp only [Bool.or_eq_true, Bool.not_eq_true', not_or, Bool.not_eq_false] at hgroom
    obtain ⟨⟨hnone, hjrn⟩, heng⟩ := hgroom
    obtain ⟨hj, hregs⟩ := submitGroom_starts hjrn heng (by simpa using hnone)
    have hrd : ∀ a, rd (submitGroom s) a = rd (setFlag (reserve (reserve s 0) 1) (aJrn 8) 1) a := fun a => by
      unfold rd
      rw [hregs]
    refine ⟨⟨_, hj⟩, fun a ha => ?_, fun i hi => ?_⟩
    · simp only [List.mem_cons, List.not_mem_nil, or_false, not_or] at ha
      obtain ⟨h8, h48, h50⟩ := ha
      rw [hrd, rd_setFlag, if_neg h8, hreserve _ 1 _ h50, hreserve _ 0 _ h48]
    · rw [hrd, bitOf_setFlag_ne _ _ _ hi, hreserve _ 1 _ (by decide), hreserve _ 0 _ (by decide)]

/-! EBT entries. -/

theorem ebtRaw_wrEbt (s : State) (x data : Nat) : ebtRaw (wrEbt s x data) x = ebtSeal data := by
  unfold ebtRaw rd128 wrEbt wr128
  rw [rd_wr_same, rd_wr_ne _ _ _ _ (by omega), rd_wr_same]
  exact BitVec.extractLsb'_append_extractLsb'_eq_extractLsb' (by decide) |>.trans (BitVec.extractLsb'_eq_self)

theorem wrEbt_words (s : State) (x data : Nat) : WordsBut [aEbt x, aEbt x + 8] s (wrEbt s x data) := by
  intro a ha
  simp only [List.mem_cons, List.not_mem_nil, or_false, not_or] at ha
  obtain ⟨hlo, hhi⟩ := ha
  exact (rd_wr_ne _ _ _ _ hhi).trans (rd_wr_ne _ _ _ _ hlo)

/-! Recovery. -/

/-- The result of a recovery, in the word it is recorded in. -/
theorem fld_recoveryWord {result src : Nat} (count : Nat) (hresult : result < 16) (hsrc : src < 4) :
    fld (BitVec.ofNat 64 (result <<< 60 ||| src <<< 58 ||| count % 2 ^ 32)) 63 60 = result := by
  have hlow : src <<< 58 ||| count % 2 ^ 32 < 2 ^ 60 := Nat.or_lt_two_pow (by omega) (by omega)
  have hword : result <<< 60 ||| (src <<< 58 ||| count % 2 ^ 32) < 2 ^ 64 := Nat.or_lt_two_pow (by omega) (by omega)
  unfold fld
  rw [Nat.or_assoc, BitVec.toNat_ofNat, Nat.mod_eq_of_lt hword, Nat.shiftRight_or_distrib, Nat.shiftLeft_shiftRight,
    Nat.shiftRight_eq_div_pow, Nat.div_eq_of_lt hlow, Nat.or_zero]
  exact Nat.mod_eq_of_lt hresult

/-- What the end of a recovery leaves: no ring, the fills open, its result, and the words but for the journal's own. -/
theorem recEnd_spec (s : State) {result src : Nat} (count : Nat) (hresult : result < 16) (hsrc : src < 4) :
    (recEnd s result src count).jrn.recovering = false ∧ (recEnd s result src count).jrn.fillsOpen = true ∧ (recEnd s result src count).jrn.ring = [] ∧
    bitOf (rd (recEnd s result src count) (aJrn 8)) 5 = true ∧
    bitOf (rd (recEnd s result src count) (aJrn 8)) 6 = bitOf (rd s (aJrn 8)) 6 ∧
    rdF (recEnd s result src count) (aJrn 0x68) 63 60 = result ∧
    ∀ a, a ∉ [aJrn 8, aJrn 0x48, aJrn 0x50, aJrn 0x68] → noteWord a = false → rd (recEnd s result src count) a = rd s a := by
  obtain ⟨j, hj⟩ : ∃ j, j = { s.jrn with
      ring := [], outH0 := [], outH1 := [], episode0 := false, episode1 := false, ckpt := none, recovering := false,
      imageNs := none, fillsOpen := true, repairs := [], unread := [] } := ⟨_, rfl⟩
  have hend : recEnd s result src count = submitGroom (raiseGFree (setFlag (wr (wrF { s with jrn := j } (aJrn 8) 1 1 0) (aJrn 0x68)
      (BitVec.ofNat 64 (result <<< 60 ||| src <<< 58 ||| count % 2 ^ 32))) (aJrn 8) 5) 245 0x144 0) := by
    rw [hj]
    rfl
  rw [hend]
  have hbase : ∀ a, rd { s with jrn := j } a = rd s a := fun _ => rfl
  have hujrn : { s with jrn := j }.jrn = j := rfl
  generalize { s with jrn := j } = x at hbase hujrn
  have h5 := bitOf_setFlag_same (wr (wrF x (aJrn 8) 1 1 0) (aJrn 0x68) (BitVec.ofNat 64 (result <<< 60 ||| src <<< 58 ||| count % 2 ^ 32)))
    (aJrn 8) (i := 5) (by decide)
  have h6 : bitOf (rd (setFlag (wr (wrF x (aJrn 8) 1 1 0) (aJrn 0x68) (BitVec.ofNat 64 (result <<< 60 ||| src <<< 58 ||| count % 2 ^ 32))) (aJrn 8) 5)
      (aJrn 8)) 6 = bitOf (rd s (aJrn 8)) 6 := by
    rw [bitOf_setFlag_ne _ _ _ (by decide), rd_wr_ne _ _ _ _ (by decide), bitOf_wrF_out _ _ _ (.inr (by decide)) (by decide), hbase]
  have h68 : rd (setFlag (wr (wrF x (aJrn 8) 1 1 0) (aJrn 0x68) (BitVec.ofNat 64 (result <<< 60 ||| src <<< 58 ||| count % 2 ^ 32))) (aJrn 8) 5)
      (aJrn 0x68) = BitVec.ofNat 64 (result <<< 60 ||| src <<< 58 ||| count % 2 ^ 32) := by
    rw [rd_setFlag, if_neg (by decide), rd_wr_same]
  have hwords : ∀ a, a ∉ [aJrn 8, aJrn 0x48, aJrn 0x50, aJrn 0x68] → rd (setFlag (wr (wrF x (aJrn 8) 1 1 0) (aJrn 0x68)
      (BitVec.ofNat 64 (result <<< 60 ||| src <<< 58 ||| count % 2 ^ 32))) (aJrn 8) 5) a = rd s a := fun a ha => by
    simp only [List.mem_cons, List.not_mem_nil, or_false, not_or] at ha
    obtain ⟨h8, -, -, h68⟩ := ha
    rw [rd_setFlag, if_neg h8, rd_wr_ne _ _ _ _ h68, rd_wrF, if_neg h8, hbase]
  have hujrn' : (setFlag (wr (wrF x (aJrn 8) 1 1 0) (aJrn 0x68) (BitVec.ofNat 64 (result <<< 60 ||| src <<< 58 ||| count % 2 ^ 32))) (aJrn 8) 5).jrn = j := hujrn
  generalize setFlag (wr (wrF x (aJrn 8) 1 1 0) (aJrn 0x68) (BitVec.ofNat 64 (result <<< 60 ||| src <<< 58 ||| count % 2 ^ 32))) (aJrn 8) 5 = u
    at h5 h6 h68 hwords hujrn'
  have hnoted := noted_raiseGFree u 245 0x144 0
  have hvjrn : (raiseGFree u 245 0x144 0).jrn = j := by rw [hnoted.whole, hujrn']
  generalize raiseGFree u 245 0x144 0 = v at hnoted hvjrn
  obtain ⟨⟨c, hgroom⟩, hgwords, hgbits⟩ := submitGroom_leaves v
  rw [hgroom, hvjrn, hj]
  refine ⟨rfl, rfl, rfl, ?_, ?_, ?_, fun a ha hnote => ?_⟩
  · rw [hgbits 5 (by decide), hnoted.words _ rfl, h5]
  · rw [hgbits 6 (by decide), hnoted.words _ rfl, h6]
  · rw [rdF, hgwords _ (by decide), hnoted.words _ rfl, h68, fld_recoveryWord count hresult hsrc]
  · rw [hgwords a (fun h => ha (by simp only [List.mem_cons, List.not_mem_nil, or_false] at h ⊢; tauto)), hnoted.words a hnote, hwords a ha]

/-! Without a checkpoint the table is empty. -/

theorem ebtClear_words (s : State) {a : Nat} (h : 0x1000000 ≤ a) (h' : a < 0x1800000) : rd (ebtClear s) a = 0 := by
  have hnone : mget (ebtClear s).regs a = none := by
    refine (mget_filter (fun k => !((0x1000000 ≤ k && k < 0x1800000) || (0x1E01000 ≤ k && k < 0x1E11000))) s.regs a).trans (if_neg ?_)
    simp [h, h']
  have hreset : resetWord a = 0 := by
    unfold resetWord
    simp only [show ¬ (0x200000 ≤ a ∧ a < 0x300000) by omega, show ¬ (0x100000 ≤ a ∧ a < 0x140000) by omega, show ¬ a < 0x10000 by omega,
      show a ≠ 0x10030 by omega, show a ≠ 0x11020 by omega, show a ≠ 0x11080 by omega, show ¬ (0x14000 ≤ a ∧ a < 0x15000) by omega,
      show ¬ (0x800008 ≤ a ∧ a < 0x800048) by omega, show ¬ (0x800120 ≤ a ∧ a < 0x800500 ∧ (a - 0x800120) % 0x40 = 0) by omega, if_false]
    rfl
  unfold rd mgetD
  rw [hnone, hreset]
  rfl

theorem ebtListed_ebtClear (s : State) : ebtListed (ebtClear s) = [] := by
  have hempty : ((ebtClear s).regs.filter fun p => 0x1000000 ≤ p.1 && p.1 < 0x1800000) = [] := by
    unfold ebtClear
    simp only [List.filter_filter, List.filter_eq_nil_iff]
    intro p _
    simp only [Bool.and_eq_true, Bool.not_eq_true', decide_eq_true_eq, Bool.or_eq_false_iff, Bool.and_eq_false_iff, decide_eq_false_iff_not]
    omega
  unfold ebtListed
  rw [hempty]
  rfl

/-- With an empty table the rebuilding writes no word. -/
theorem rebuild_regs {s : State} (h : ebtListed s = []) : (rebuild s).regs = s.regs := by
  have hrows : ∀ (l : List Nat) (t : State), Keeps State.regs t (l.foldl (fun t k => rowPut t (k / 4096) (k % 4096)) t) := fun l t =>
    Keeps.foldl (fun _ _ _ => by rfl) t
  unfold rebuild
  rw [h]
  refine Keeps.trans (g := State.regs) ?_ (hrows _ _)
  exact Keeps.foldl (fun t n _ => Keeps.foldl (fun u p _ => Keeps.ite (.refl _ u) (by rfl)) t) s

theorem exec_recoveryDone_none {s : State} {h0 h1 : HomeRead} (hrec : s.jrn.recovering = true) (hnone : bestCkpt (ckptsOk s h0 ++ ckptsOk s h1) = none) :
    exec (.recoveryDone h0 h1) s = answer s (recEnd (raiseGFree (setFlag (rebuild (ebtClear s)) (aJrn 8) 6) 245 0x142 2) 2 0 0) := by
  refine congrArg (answer s) ((if_neg (by rw [hrec]; decide)).trans ?_)
  dsimp only
  rw [hnone]

theorem exec_recoveryDone_some {s : State} {h0 h1 : HomeRead} {c : CkptRead} (hrec : s.jrn.recovering = true)
    (hbest : bestCkpt (ckptsOk s h0 ++ ckptsOk s h1) = some c) : ∃ (u : State) (v : Word) (src count : Nat), src < 4 ∧
    exec (.recoveryDone h0 h1) s = answer s (recEnd (wr (wr u (aJrn 0x38) (c.cknum.zeroExtend 64)) (aJrn 0x40) v)
      (if h0.readable && h1.readable then 1 else 3) src count) := by
  have hexec : exec (.recoveryDone h0 h1) s = execRecoveryDone h0 h1 s := rfl
  unfold execRecoveryDone at hexec
  rw [if_neg (by rw [hrec]; decide)] at hexec
  dsimp only at hexec
  rw [hbest] at hexec
  refine ⟨_, _, _, _, ?_, hexec⟩
  split <;> decide

/-! The other commands. -/

section
variable {s : State} {x : BitVec 19} {h0 h1 : Option (BitVec 128)} (hrepair : x.toNat ∈ s.jrn.repairs)
include hrepair

theorem exec_ebtRepairDone_found {v : BitVec 128} (hv : h0 = some v ∨ (h0 = none ∧ h1 = some v)) (hring : ∀ r ∈ s.jrn.ring, r.typ ≠ 1 ∨ r.index ≠ x.toNat) :
    exec (.ebtRepairDone x h0 h1) s =
      answer s (wrEbt { s with jrn := { s.jrn with repairs := s.jrn.repairs.filter fun j => j != x.toNat } } x.toNat v.toNat) := by
  have hfound : (h0.orElse fun _ => h1) = some v := by
    obtain rfl | ⟨rfl, rfl⟩ := hv <;> rfl
  have hnone : (s.jrn.ring.filter fun r => r.typ == 1 && r.index == x.toNat && r.committed) = [] := by
    rw [List.filter_eq_nil_iff]
    intro r hr
    simp only [Bool.and_eq_true, beq_iff_eq]
    rintro ⟨⟨htyp, hindex⟩, -⟩
    exact (hring r hr).elim (· htyp) (· hindex)
  refine congrArg (answer s) ((if_neg (by simpa using hrepair)).trans ?_)
  rw [hfound]
  dsimp only
  rw [hnone]
  rfl

theorem exec_ebtRepairDone_lost (h0none : h0 = none) (h1none : h1 = none) : exec (.ebtRepairDone x h0 h1) s =
    answer s (setFlag { s with jrn := { s.jrn with
      repairs := s.jrn.repairs.filter fun j => j != x.toNat, unread := insertNat s.jrn.unread x.toNat } } 0x1E00000 1) := by
  subst h0none h1none
  exact congrArg (answer s) (if_neg (by simpa using hrepair))

end

theorem exec_recoveryStart {s : State} (hrec : s.jrn.recovering = false) (hqueue : s.eng.ctlQ = []) (hwanted : s.jrn.recWanted = true)
    (himage : s.jrn.imageNs = none) : exec .recoveryStart s = answer s { s with jrn := { s.jrn with recovering := true, recWanted := false } } :=
  congrArg (answer s) (if_pos (by simp [hrec, hqueue, hwanted, himage]))

theorem exec_homeWaitTimeout {s : State} {u : Nat} (himage : s.jrn.imageNs = some u) (hlate : u + 2000000000 ≤ nowNs s) (hraised : s.jrn.waitRaised = false)
    (hup0 : homeUp s 0 = false) (hup1 : homeUp s 1 = false) (hrec : s.jrn.recovering = false) :
    exec .homeWaitTimeout s = answer s (raiseGFree { s with jrn := { s.jrn with waitRaised := true } } 245 0x145 1) :=
  congrArg (answer s) (if_pos (by simp [homeWaited, himage, hlate, hraised, hup0, hup1, hrec]))

/-- Settles O38: each clause by the step of its command, the end of a recovery through what it leaves of the words. -/
theorem repairAndRecoveryEnd : Obligations.RepairAndRecoveryEnd := by
  unfold Obligations.RepairAndRecoveryEnd
  refine ⟨fun s x h0 h1 hrepair => ⟨fun v hv hring => ?found, fun hnone0 hnone1 => ?lost⟩, fun s hjrn => ?asked, fun s hrec hqueue hwanted himage => ?begun,
    fun s h0 h1 hrec => ?ended, fun s u himage hlate hraised hup0 hup1 hrec => ?waited⟩
  case found =>
    refine completes_of_answer (exec_ebtRepairDone_found hrepair hv hring) rfl rfl rfl ⟨ebtRaw_wrEbt .., ?_, wrEbt_words _ _ _⟩
    simp [wrEbt, wr128, wr]
  case lost =>
    refine completes_of_answer (exec_ebtRepairDone_lost hrepair hnone0 hnone1) rfl rfl rfl ⟨?_, self_mem_insertNat .., ?_, fun a ha => ?_⟩
    · rw [rd_setFlag, if_pos rfl]
      rfl
    · simp [setFlag, wr]
    · rw [rd_setFlag, if_neg (by simpa using ha)]
      rfl
  case asked =>
    exact completes_of_answer (congrArg (answer s) (if_pos hjrn)) rfl rfl rfl rfl
  case begun =>
    exact completes_of_answer (exec_recoveryStart hrec hqueue hwanted himage) rfl rfl rfl rfl
  case ended =>
    cases hbest : bestCkpt (ckptsOk s h0 ++ ckptsOk s h1) with
    | none =>
      have hexec := exec_recoveryDone_none hrec hbest
      have hnoted := noted_raiseGFree (setFlag (rebuild (ebtClear s)) (aJrn 8) 6) 245 0x142 2
      have h6 := bitOf_setFlag_same (rebuild (ebtClear s)) (aJrn 8) (i := 6) (by decide)
      have hempty : ∀ a, 0x1000000 ≤ a → a < 0x1800000 → rd (setFlag (rebuild (ebtClear s)) (aJrn 8) 6) a = 0 := fun a h h' => by
        rw [rd_setFlag, if_neg (by unfold aJrn; omega)]
        exact (congrArg (fun m => mgetD m a (resetWord a)) (rebuild_regs (ebtListed_ebtClear s))).trans (ebtClear_words s h h')
      generalize setFlag (rebuild (ebtClear s)) (aJrn 8) 6 = u at hexec hnoted h6 hempty
      generalize raiseGFree u 245 0x142 2 = v at hexec hnoted
      obtain ⟨hdone, hfills, hring, h5, h6', hresult, hwords⟩ := recEnd_spec v (result := 2) (src := 0) 0 (by decide) (by decide)
      generalize recEnd v 2 0 0 = t at hexec hdone hfills hring h5 h6' hresult hwords
      refine completes_of_answered hexec ⟨hdone, hfills, hring, h5, fun c hc => (by cases hc), fun _ => ⟨hresult, ?_, fun x hx => ?_⟩⟩
      · exact h6'.trans ((congrArg (fun w : Word => bitOf w 6) (hnoted.words _ rfl)).trans h6)
      · have hword : ∀ a, 0x1000000 ≤ a → a < 0x1800000 → rd t a = 0 := fun a h h' => by
          have hfree : noteWord a = false := by
            unfold noteWord
            simp only [Bool.or_eq_false_iff, Bool.and_eq_false_iff, beq_eq_false_iff_ne, decide_eq_false_iff_not]
            omega
          have hout : a ∉ [aJrn 8, aJrn 0x48, aJrn 0x50, aJrn 0x68] := by
            simp only [List.mem_cons, List.not_mem_nil, or_false, not_or, aJrn]
            omega
          rw [hwords a hout hfree, hnoted.words a hfree, hempty a h h']
        change ebtRaw t x = 0
        unfold ebtRaw rd128
        rw [hword _ (by unfold aEbt; omega) (by unfold aEbt; omega), hword _ (by unfold aEbt; omega) (by unfold aEbt; omega)]
        rfl
    | some c =>
      obtain ⟨u, w, src, count, hsrc, hexec⟩ := exec_recoveryDone_some hrec hbest
      have hnum : rd (wr (wr u (aJrn 0x38) (c.cknum.zeroExtend 64)) (aJrn 0x40) w) (aJrn 0x38) = c.cknum.zeroExtend 64 := by
        rw [rd_wr_ne _ _ _ _ (by decide), rd_wr_same]
      generalize wr (wr u (aJrn 0x38) (c.cknum.zeroExtend 64)) (aJrn 0x40) w = v at hexec hnum
      obtain ⟨hdone, hfills, hring, h5, -, hresult, hwords⟩ := recEnd_spec v (result := if h0.readable && h1.readable then 1 else 3) (src := src) count
        (by split <;> decide) hsrc
      generalize recEnd v (if h0.readable && h1.readable then 1 else 3) src count = t at hexec hdone hfills hring h5 hresult hwords
      refine completes_of_answered hexec ⟨hdone, hfills, hring, h5, fun d hd => ?_, fun h => by cases h⟩
      cases hd
      exact ⟨(hwords _ (by decide) rfl).trans hnum, hresult⟩
  case waited =>
    have hexec := exec_homeWaitTimeout himage hlate hraised hup0 hup1 hrec
    have hnoted := noted_raiseGFree { s with jrn := { s.jrn with waitRaised := true } } 245 0x145 1
    have hnis := raiseGFree_nis { s with jrn := { s.jrn with waitRaised := true } } 245 0x145 1
    generalize raiseGFree { s with jrn := { s.jrn with waitRaised := true } } 245 0x145 1 = t at hexec hnoted hnis
    have hwhole := hnoted.whole
    exact completes_of_answer hexec (by rw [hwhole]) (by rw [hwhole]) (by rw [hwhole]) ⟨by rw [hwhole], hnis, fun a _ ha => hnoted.words a ha⟩

end Sys2Proof.Machine
end

section
/-! PROOF. The journal appends, commits, writes again and starts a checkpoint (14 R311, R313, R314, R316; for O37). -/

namespace Sys2Proof.Machine

theorem length_updFirst {α : Type} (l : List α) (p : α → Bool) (f : α → α) : (updFirst l p f).length = l.length := by
  induction l with
  | nil => rfl
  | cons a l ih =>
    unfold updFirst
    split
    · rfl
    · exact congrArg (· + 1) ih

theorem evDuty_noted (s : State) (b : Nat) {e : Nat} (he : e < 16) (hb : b < 8) : Noted s (evDuty s b e) := by
  unfold evDuty
  split
  · next k hk =>
    obtain ⟨j, hj, hjk⟩ := List.mem_map.mp (List.mem_of_find?_eq_some hk)
    have hj8 := List.mem_range.mp hj
    exact evSlot_noted s 1 (by omega) he
  · exact .refl s

/-! What the waiting writes of the homes leave as they go. -/

/-- The journal but for the writes themselves, the number of them, and the word at a. -/
def homeView (a : Nat) (s : State) : Jrn × Nat × Nat × Word := ({ s.jrn with outH0 := [], outH1 := [] }, s.jrn.outH0.length, s.jrn.outH1.length, rd s a)

section
variable {a : Nat} (hblock : ¬ InBlock 120 a) (hfree : noteWord a = false)
include hblock hfree

theorem NiBlock.keepsHome {s t : State} (h : NiBlock 120 s t) : Keeps (homeView a) s t := by
  have hjrn : t.jrn = s.jrn := by rw [h.whole]
  unfold Keeps homeView
  rw [hjrn, h.words a hblock hfree]

omit hblock hfree in
theorem setHomeOut_keepsHome (s : State) (h : Nat) {l : List HomeWrite} (hlen : l.length = (homeOut s h).length) :
    Keeps (homeView a) s (setHomeOut s h l) := by
  unfold Keeps homeView setHomeOut
  unfold homeOut at hlen
  by_cases hh : h = 0
  · simp only [hh, if_true] at hlen ⊢
    rw [hlen]
    rfl
  · simp only [hh, if_false] at hlen ⊢
    rw [hlen]
    rfl

theorem pumpHome_keepsHome (s : State) (h fuel : Nat) : Keeps (homeView a) s (pumpHome s h fuel) := by
  induction fuel generalizing s with
  | zero => rfl
  | succ fuel ih =>
    unfold pumpHome
    split
    · rfl
    · exact .ite (((setHomeOut_keepsHome s h (length_updFirst ..)).trans
        ((engSend_niWork _ _ _ _ _ _ _ _ (by decide)).keepsHome hblock hfree)).trans (ih _)) (.refl _ s)

theorem pumpHomes_keepsHome (s : State) : Keeps (homeView a) s (pumpHomes s) :=
  (pumpHome_keepsHome hblock hfree s 0 4).trans (pumpHome_keepsHome hblock hfree _ 1 4)

end

/-! An append. -/

/-- The record that an append makes of a change. -/
def appended (s : State) (r : Rec) : Rec := { r with seq := rdF s (aJrn 0x20) 47 0, off0 := homeLp s 0, off1 := homeLp s 1 }

theorem appendRec_spec (s : State) (r : Rec) :
    (appendRec s r).jrn.ring = s.jrn.ring ++ [appended s r] ∧ (appendRec s r).jrn.todo = (takeFirst s.jrn.todo fun q => q == r).2 ∧
    (appendRec s r).jrn.outH0.length = s.jrn.outH0.length + 1 ∧ (appendRec s r).jrn.outH1.length = s.jrn.outH1.length + 1 ∧
    rd (appendRec s r) (aJrn 0x20) = BitVec.ofNat 64 ((rdF s (aJrn 0x20) 47 0 + 1) % 2 ^ 48) := by
  have hnoted := fun t => evDuty_noted t 0 (e := 13) (by decide) (by decide)
  have hjrn : ∀ t, (evDuty t 0 13).jrn = t.jrn := fun t => by rw [(hnoted t).whole]
  unfold appendRec
  refine ⟨?_, ?_, ?_, ?_, ?_⟩
  · rw [hjrn]
    rfl
  · rw [hjrn]
    rfl
  · rw [hjrn]
    exact List.length_append
  · rw [hjrn]
    exact List.length_append
  · rw [(hnoted _).words _ (by decide)]
    exact rd_wr_same ..

theorem exec_journalAppend {s : State} {r : Rec} (hnext : nextAppend s.jrn.todo = some r) (hrec : s.jrn.recovering = false) (hjrn : s.gen.jrn = true)
    (hroom : s.jrn.ring.length + 1 < 12288) (hfirst : s.jrn.appendFc ≠ some (frameOf s, fcNow s)) :
    exec .journalAppend s = answer s (pumpHomes (appendRec s r)) := by
  have hlen : (appendRec s r).jrn.ring.length = s.jrn.ring.length + 1 := by
    rw [(appendRec_spec s r).1]
    exact List.length_append
  refine congrArg (answer s) ?_
  rw [hnext]
  dsimp only
  rw [if_neg (by simp [hrec, hjrn, hfirst]), if_neg (by omega), if_neg (by omega)]

/-! An acknowledgement. -/

theorem exec_homeWriteAck {s u : State} {h : BitVec 1} {fa stat : Nat} {data : List Line} {w : HomeWrite}
    (htake : takeAnswer s (200 + h.toNat) = (some (fa, data, stat), u))
    (hfind : (homeOut u h.toNat).find? (fun w => w.sent && w.failedAt.isNone && w.off == fa % 2 ^ 30) = some w) :
    exec (.homeWriteAck h) s = answer s (jrnAdvance (homeAcked u h.toNat w)) := by
  refine congrArg (answer s) ?_
  rw [htake]
  dsimp only
  rw [hfind]

/-- The record that home h has acknowledged. -/
def ackedRec (h : Nat) (r : Rec) : Rec := if h = 0 then { r with ack0 := true } else { r with ack1 := true }

theorem ackedRec_content (h : Nat) (r : Rec) : (ackedRec h r).typ = r.typ ∧ (ackedRec h r).index = r.index ∧ (ackedRec h r).body = r.body ∧
    (ackedRec h r).seq = r.seq := by
  unfold ackedRec
  split <;> exact ⟨rfl, rfl, rfl, rfl⟩

/-- The acknowledgement of a record's write leaves its ring with the record acknowledged. -/
theorem homeAcked_record {s : State} {h : Nat} {w : HomeWrite} {r : Rec} (hseq : w.seq = some r.seq) (hhdr : w.hdr = false) (hring : s.jrn.ring = [r]) :
    homeAcked s h w = { s with jrn := (homeAcked s h w).jrn } ∧ (homeAcked s h w).jrn.ring = [ackedRec h r] ∧
      (homeAcked s h w).jrn.ckpt = s.jrn.ckpt ∧ (homeAcked s h w).jrn.replaceHome = s.jrn.replaceHome := by
  have hout : ∀ l, (setHomeOut s h l).jrn.ring = [r] ∧ (setHomeOut s h l).jrn.ckpt = s.jrn.ckpt ∧
      (setHomeOut s h l).jrn.replaceHome = s.jrn.replaceHome := fun l => by
    unfold setHomeOut
    rw [← hring]
    split <;> exact ⟨rfl, rfl, rfl⟩
  have hwhole : ∀ l, setHomeOut s h l = { s with jrn := (setHomeOut s h l).jrn } := fun _ => rfl
  unfold homeAcked
  rw [hseq, hhdr]
  dsimp only
  obtain ⟨hring', hckpt, hreplace⟩ := hout (takeFirst (homeOut s h) fun v => v == w).2
  have hs := hwhole (takeFirst (homeOut s h) fun v => v == w).2
  generalize setHomeOut s h (takeFirst (homeOut s h) fun v => v == w).2 = u at hring' hckpt hreplace hs
  have hacked : updFirst u.jrn.ring (fun q => q.seq == r.seq) (fun q => if h = 0 then { q with ack0 := true } else { q with ack1 := true }) = [ackedRec h r] := by
    rw [hring']
    exact if_pos (beq_self_eq_true _)
  rw [if_neg Bool.false_ne_true, hacked, hs]
  split
  · exact ⟨rfl, rfl, hckpt, hreplace⟩
  · refine ⟨rfl, ?_, ?_, ?_⟩ <;> dsimp only
    · split <;> rfl
    · split <;> exact hckpt
    · split <;> exact hreplace

/-- The state behind the commit of the only record of the ring. -/
def committedAlone (s : State) (r : Rec) : State :=
  { commitRec s r with jrn := { (commitRec s r).jrn with ring := [{ r with committed := true }] } }

/-- The journal's advance commits the only record of the ring, once both homes have acknowledged it. -/
theorem jrnAdvance_commits {s : State} {r : Rec} (hckpt : s.jrn.ckpt = none) (hring : s.jrn.ring = [r]) (hnew : r.committed = false)
    (hack0 : r.ack0 = true) (hack1 : r.ack1 = true) (hhomes : s.jrn.replaceHome = []) (hgroom : s.eng.groomWanted = false) :
    jrnAdvance s = pumpHomes (settleData (committedAlone s r)) := by
  have hcommit : commitLoop s s.jrn.ring.length = committedAlone s r := by
    have hfind : ([r] : List Rec).find? (fun r => !r.committed) = some r := List.find?_cons_of_pos (by rw [hnew]; rfl)
    have hupd : updFirst [r] (fun q => q.seq == r.seq) (fun q => { q with committed := true }) = [{ r with committed := true }] :=
      if_pos (beq_self_eq_true _)
    have hkept : (commitRec s r).jrn.ring = [r] := by
      rw [← hring]
      unfold commitRec
      split <;> rfl
    rw [hring]
    change commitLoop s (0 + 1) = _
    unfold commitLoop
    rw [hring, hfind]
    dsimp only
    rw [if_pos (by rw [hack0, hack1, hhomes]; rfl), hkept, hupd]
    rfl
  have hsettle : ∀ t : State, (settleData t).eng.groomWanted = t.eng.groomWanted := fun t =>
    Keeps.foldl (g := fun u : State => u.eng.groomWanted) (fun _ _ _ => by rfl) t
  have hwanted : (settleData (committedAlone s r)).eng.groomWanted = false := by
    rw [hsettle, ← hgroom]
    unfold committedAlone commitRec
    split <;> rfl
  unfold jrnAdvance
  rw [hckpt]
  dsimp only
  rw [hcommit, hwanted]
  rfl

/-! A failed write is sent again. -/

theorem exec_homeWriteRetry {s : State} {h : BitVec 1} {w : HomeWrite}
    (hfind : (homeOut s h.toNat).find? (fun w => match w.failedAt with | some f => frameGe (frameOf s) ((f + 16) % 2 ^ 48) | none => false) = some w)
    (hcan : engCan s 120 9 0x10 (linesOf w.off w.bytes.length) = true) : exec (.homeWriteRetry h) s =
      answer s (sendHome (setHomeOut s h.toNat (updFirst (homeOut s h.toNat) (fun v => v == w) fun v => { v with failedAt := none })) h.toNat w) := by
  refine congrArg (answer s) ?_
  dsimp only
  split
  · next h0 => cases h0.symm.trans hfind
  · next v h0 =>
    cases h0.symm.trans hfind
    exact if_pos hcan

/-- A home write that leaves is a request of NI 120 to the home's node; the journal stays. -/
theorem sendHome_spec (s : State) (h : Nat) (w : HomeWrite) : ∃ q : Req, q.hostAddr = BitVec.ofNat 52 (homeBase s h + w.off) ∧ q.msg.dst = homeNode s h ∧
    q.slot = some (200 + h) ∧ (getNi (sendHome s h w) 120).reqs = (getNi s 120).reqs ++ [q] ∧ NiNote 120 [] s (sendHome s h w) := by
  have hposted : isPosted (if w.ckpt then opMwr else opMwrPtl) = true := by split <;> rfl
  obtain ⟨q, trk, hq, hview, hnote⟩ := engSend_spec (s := s) (n := 120) (q := 9) (code := 200 + h) (opc := if w.ckpt then opMwr else opMwrPtl)
    (fa := homeBase s h + w.off) (nbytes := w.bytes.length) (dst := some (homeNode s h)) (data := linesAt w.off w.bytes)
    (by decide) (.inr rfl) (fun hnot => by rw [hposted] at hnot; cases hnot) rfl
  exact ⟨q, hq.addr, hq.dst, hq.slot, (of_takenView hview).1, hnote⟩

/-- Settles O37: each clause by the step of its command; an append and a commit through what the waiting writes of the homes leave. -/
theorem journalAppendsCommitsAndGrooms : Obligations.JournalAppendsCommitsAndGrooms := by
  unfold Obligations.JournalAppendsCommitsAndGrooms
  refine ⟨fun s r hnext hrec hjrn hroom hfirst => ?appended, ?committed, ?retried, fun s hnone hjrn heng => ?groomed⟩
  case appended =>
    have hexec := exec_journalAppend hnext hrec hjrn hroom hfirst
    obtain ⟨hring, htodo, hout0, hout1, hseq⟩ := appendRec_spec s r
    generalize appendRec s r = u at hexec hring htodo hout0 hout1 hseq
    have hkeep := pumpHomes_keepsHome (a := aJrn 0x20) (by unfold InBlock aNi aJrn; omega) rfl u
    generalize pumpHomes u = t at hexec hkeep
    simp only [Keeps, homeView, Prod.mk.injEq, Jrn.mk.injEq] at hkeep
    obtain ⟨⟨hktodo, hkring, -⟩, hkout0, hkout1, hkword⟩ := hkeep
    refine completes_of_answered hexec ⟨appended s r, hkring.trans hring, rfl, rfl, rfl, rfl, rfl, rfl, ?_, hktodo.trans htodo, hkout0.trans hout0, hkout1.trans hout1⟩
    refine (congrArg BitVec.toNat (hkword.trans hseq)).trans ?_
    rw [BitVec.toNat_ofNat]
    omega
  case committed =>
    rintro s u h k fa stat data w r rfl htake hfind hseq hhdr hring hindex hnew hother htyp hckpt hhomes hgroom
    obtain ⟨l, rfl⟩ := takeAnswer_inbox htake
    have hexec := exec_homeWriteAck htake hfind
    obtain ⟨hwhole, hring', hckpt', hhomes'⟩ := homeAcked_record (s := { s with eng := { s.eng with inbox := l } }) (h := h.toNat) hseq hhdr hring
    have hgroom' : (homeAcked { s with eng := { s.eng with inbox := l } } h.toNat w).eng.groomWanted = false := by
      rw [hwhole]
      exact hgroom
    generalize homeAcked { s with eng := { s.eng with inbox := l } } h.toNat w = v at hexec hring' hckpt' hhomes' hgroom'
    obtain ⟨hctyp, hcindex, hcbody, hcseq⟩ := ackedRec_content h.toNat r
    obtain ⟨hnew', hack0, hack1, hacked⟩ : (ackedRec h.toNat r).committed = false ∧ (ackedRec h.toNat r).ack0 = true ∧ (ackedRec h.toNat r).ack1 = true ∧
        { ackedRec h.toNat r with committed := true } = { r with ack0 := true, ack1 := true, committed := true } := by
      unfold ackedRec
      split at hother
      · next e =>
        rw [if_pos e]
        exact ⟨hnew, rfl, hother, by simp only [hother]⟩
      · next e =>
        rw [if_neg e]
        exact ⟨hnew, hother, rfl, by simp only [hother]⟩
    rw [jrnAdvance_commits (hckpt'.trans hckpt) hring' hnew' hack0 hack1 (hhomes'.trans hhomes) hgroom'] at hexec
    have hregs : (settleData (committedAlone v (ackedRec h.toNat r))).regs =
        (wr (wrEbt v r.index (r.body.toNat % 2 ^ 120)) (aJrn 0x28) (BitVec.ofNat 64 r.seq)).regs := by
      refine Keeps.trans (g := State.regs) ?_ (Keeps.foldl (fun _ _ _ => by rfl) _)
      change (commitRec v (ackedRec h.toNat r)).regs = _
      unfold commitRec
      rw [if_pos (hctyp.trans htyp), hcindex, hcbody, hcseq]
    have hsring : (settleData (committedAlone v (ackedRec h.toNat r))).jrn.ring = [{ ackedRec h.toNat r with committed := true }] :=
      Keeps.foldl (g := fun u : State => u.jrn.ring) (fun _ _ _ => by rfl) _
    generalize settleData (committedAlone v (ackedRec h.toNat r)) = x at hexec hregs hsring
    have hrd : ∀ a, rd x a = rd (wr (wrEbt v r.index (r.body.toNat % 2 ^ 120)) (aJrn 0x28) (BitVec.ofNat 64 r.seq)) a := fun a => by
      unfold rd
      rw [hregs]
    have hkeep : ∀ a, (a = aJrn 0x28 ∨ 0x1000000 ≤ a) → Keeps (homeView a) x (pumpHomes x) := fun a ha => by
      have hfree : noteWord a = false := by
        unfold aJrn at ha
        unfold noteWord
        simp only [Bool.or_eq_false_iff, Bool.and_eq_false_iff, beq_eq_false_iff_ne, decide_eq_false_iff_not]
        omega
      exact pumpHomes_keepsHome (by unfold aJrn at ha; unfold InBlock aNi; omega) hfree x
    generalize pumpHomes x = t at hexec hkeep
    have hword : ∀ a, (a = aJrn 0x28 ∨ 0x1000000 ≤ a) → rd t a = rd x a := fun a ha => congrArg (fun p => p.2.2.2) (hkeep a ha)
    have htring : t.jrn.ring = x.jrn.ring := congrArg (fun p => p.1.ring) (hkeep (aJrn 0x28) (.inl rfl))
    have hentry : ∀ a, 0x1000000 ≤ a → rd t a = rd (wrEbt v r.index (r.body.toNat % 2 ^ 120)) a := fun a ha => by
      rw [hword a (.inr ha), hrd, rd_wr_ne _ _ _ _ (by unfold aJrn; omega)]
    refine completes_of_answered hexec ⟨?_, ?_, htring.trans (hsring.trans (congrArg (fun q => [q]) hacked))⟩
    · refine Eq.trans ?_ (ebtRaw_wrEbt v r.index (r.body.toNat % 2 ^ 120))
      change ebtRaw t r.index = _
      unfold ebtRaw rd128
      rw [hentry _ (by unfold aEbt; omega), hentry _ (by unfold aEbt; omega)]
    · exact (hword _ (.inl rfl)).trans ((hrd _).trans (rd_wr_same ..))
  case retried =>
    rintro s h k f w rfl hfind hfailed hcan
    have hexec := exec_homeWriteRetry hfind hcan
    have hbase : ∀ l, homeBase (setHomeOut s h.toNat l) h.toNat = homeBase s h.toNat ∧ homeNode (setHomeOut s h.toNat l) h.toNat = homeNode s h.toNat ∧
        getNi (setHomeOut s h.toNat l) 120 = getNi s 120 ∧ setHomeOut s h.toNat l = { s with jrn := (setHomeOut s h.toNat l).jrn } := fun l => by
      have hrd : ∀ a, rd (setHomeOut s h.toNat l) a = rd s a := fun _ => rfl
      unfold homeBase homeNode rdF
      rw [hrd]
      exact ⟨rfl, rfl, rfl, rfl⟩
    have hout : ∀ l, homeOut (setHomeOut s h.toNat l) h.toNat = l := fun l => by
      unfold homeOut setHomeOut
      split <;> rfl
    obtain ⟨hb, hn, hni, hwhole⟩ := hbase (updFirst (homeOut s h.toNat) (fun v => v == w) fun v => { v with failedAt := none })
    have hout := hout (updFirst (homeOut s h.toNat) (fun v => v == w) fun v => { v with failedAt := none })
    generalize setHomeOut s h.toNat (updFirst (homeOut s h.toNat) (fun v => v == w) fun v => { v with failedAt := none }) = u at hexec hb hn hni hwhole hout
    obtain ⟨q, haddr, hdst, hslot, hreqs, hnote⟩ := sendHome_spec u h.toNat w
    generalize sendHome u h.toNat w = t at hexec hreqs hnote
    have hjrn : t.jrn = u.jrn := by rw [hnote.1]
    refine completes_of_answer hexec (by rw [hnote.1, hwhole]) (by rw [hnote.1, hwhole]) (by rw [hnote.1, hwhole])
      ⟨q, hreqs.trans (by rw [hni]), haddr.trans (by rw [hb]), hdst.trans hn, hslot, ?_⟩
    unfold homeOut at hout ⊢
    rw [hjrn, hout]
  case groomed =>
    obtain ⟨hj, hregs⟩ := submitGroom_starts hjrn heng hnone
    have hexec : exec .groomNow s = answer s (submitGroom s) := rfl
    generalize submitGroom s = t at hexec hj hregs
    refine completes_of_answered hexec ⟨startedCkpt s s.eng.nextKey, congrArg Jrn.ckpt hj, rfl, rfl, rfl, ?_⟩
    change bitOf (rd t (aJrn 8)) 1 = true
    unfold rd
    rw [hregs]
    exact bitOf_setFlag_same _ _ (by decide)

end Sys2Proof.Machine
end

section
/-! PROOF. The control commands take their steps (13 R290, R293, R294, 14 R306, R309; for O34). -/

namespace Sys2Proof.Machine

/-! The command at the head of the control queue. -/

/-- The control command has ended: its record has its status, and its queue holds it no more. -/
theorem runCtl_fins {s t : State} {c : Cmd} {op st : Nat} {f : State → Cmd → Sub × State} (hhead : ctlHead s = some c) (hop : c.op.toNat = op)
    (hf : f s c = (.fin st, t)) : runCtl op f s = endQueued t 0 c.key st := by
  unfold runCtl
  rw [hhead]
  dsimp only
  rw [if_pos hop, hf]

/-- A control command that ends without a further effect. -/
theorem completes_of_fin {ins : Instr} {s : State} {c : Cmd} {st : Nat} {P : State → Prop} (hexec : exec ins s = answer s (endQueued s 0 c.key st))
    (hP : ∀ t, getCmd t c.key = getCmd (endQueued s 0 c.key st) c.key → c.key ∉ t.eng.ctlQ → t.nis = s.nis → t.jrn = s.jrn → P t) : Completes ins s P := by
  have hnoted := evDuty_noted s 0 (e := 11) (by decide) (by decide)
  have hnis : (evDuty s 0 11).nis = s.nis := by
    unfold evDuty evSlot
    split
    · split
      · exact bump_nis ..
      · rfl
    · rfl
  refine completes_of_answered hexec (hP _ rfl ?_ hnis ?_)
  · simp [endQueued, endCmd]
  · exact (congrArg State.jrn hnoted.whole).trans rfl

/-! Slice resets. -/

theorem noteWord_niBlock {n off : Nat} (hn : n < 256) (ho : off < 0x2000) (hlost : off ≠ 0x20) : noteWord (aNi n off) = false := by
  unfold noteWord aNi
  simp only [Bool.or_eq_false_iff, Bool.and_eq_false_iff, beq_eq_false_iff_ne, decide_eq_false_iff_not]
  omega

/-- Every active slice that a run of requests names is in its reset. -/
theorem sliceResets_run {s : State} {n j : Nat} {l : List Nat} (hn : n < 256) (hj : j < 16) (hl : ∀ k ∈ l, k < 16) (hnodup : l.Nodup) (hmem : j ∈ l)
    (hact : slcAct s n j = true) : slcRst (l.foldl (fun t k => sliceResetReq t n k) s) n j = true := by
  obtain ⟨u, hu, ht⟩ := sliceResets_step (n := n) hl hnodup hmem s
  have hcfg : slcAct u n j = slcAct s n j := by
    unfold slcAct slcCfg
    rw [hu.note.2.1 _ (fun hin => by have := mem_sliceWords hin; omega) (noteWord_niBlock hn (by omega) (by omega))]
  have hreq : sliceResetReq u n j = sliceResetStart u n j := if_pos (hcfg.trans hact)
  rw [slcRst, ht.slice, hreq]
  by_cases hrst : slcRst u n j = true
  · rw [sliceResetStart, if_pos hrst]
    exact hrst
  · rw [(sliceResetStart_begun hj (Bool.eq_false_iff.mpr hrst)).slices, if_pos rfl]
    rfl

theorem mem_onesOf_fld {w : Word} {j : Nat} (hj : j < 16) (h : bitOf w j = true) : j ∈ onesOf 16 (fld w 15 0) := by
  unfold onesOf fld
  rw [List.mem_filter, List.mem_range, Nat.testBit_mod_two_pow]
  refine ⟨hj, ?_⟩
  rw [decide_eq_true (by omega), Nat.shiftRight_zero]
  exact h

/-! The steps. -/

theorem tbtDue_tbtPut (s : State) (n x : Nat) (r : Option TbtRow) : (getNi (tbtPut s n x r) n).dec.tbtDue = (getNi s n).dec.tbtDue ++ [(x, r)] := by
  unfold tbtPut
  rw [getNi_updNi_same]

theorem tbtPut_ne (s : State) {n m : Nat} (x : Nat) (r : Option TbtRow) (h : m ≠ n) : getNi (tbtPut s n x r) m = getNi s m := by
  unfold tbtPut
  rw [getNi_updNi, if_neg h]

section
variable {s : State} {x : Nat} (hrepair : repairing s x = false)
include hrepair

/-- The first step of a BIND of a FREE entry puts the row at its target. -/
theorem bindStep_first {key ni dpa tag : Nat} (hfree : (ebtGet s x).st = 0) (hroom : tbtFull s ni x = false) :
    bindStep s key 0 x ni dpa tag false = (.stay 2, tbtPut s ni x (some (rowOf (bindEntry (ebtGet s x) ni dpa tag false)))) := by
  unfold bindStep
  dsimp only
  rw [if_neg (by rw [hrepair]; decide), if_neg (by rw [hfree]; decide)]
  exact (if_neg (by rw [show (bindEntry (ebtGet s x) ni dpa tag false).tni = ni from rfl, hroom]; decide)).trans (if_neg Bool.false_ne_true)

theorem bindStep_badState {key ni dpa tag : Nat} (hst : (ebtGet s x).st ≠ 0) : bindStep s key 0 x ni dpa tag false = (.fin 4, s) := by
  unfold bindStep
  dsimp only
  rw [if_neg (by rw [hrepair]; decide)]
  exact if_pos hst

/-- The first step of an UNBIND of a live entry makes its RELEASED record. -/
theorem unbindStep_first {key : Nat} (hlive : ebtLive (ebtGet s x) = true) :
    unbindStep s key 0 x = (.stay 2, jrnAdd s (entryRec key 0 x { ebtGet s x with st := 3, bv := false })) := by
  unfold unbindStep
  dsimp only
  rw [if_neg (by rw [hrepair]; decide)]
  exact if_pos hlive

/-- The first step of a SHARE with a grant and without a group writes the lift-pass row. -/
theorem shareStep_first {key row : Nat} {a : ShareArg} (ha : a.x = x) (hlive : ebtLive (ebtGet s x) = true) (hrevoke : a.revoke = false) (hgv : a.gv = none)
    (hgrants : (grantsValid s).length < 4096) (hrow : masterRow s a.node a.slice = some row) :
    shareStep s key 0 a = (.stay 2, shareRow s a (ebtGet s x).tni row (ebtGet s x).tag) := by
  subst ha
  unfold shareStep
  dsimp only
  rw [if_neg (by rw [hrepair]; decide), if_neg (by rw [hlive]; decide), hrow, hgv, hrevoke]
  refine (if_neg ?_).trans rfl
  rw [Bool.or_eq_true, not_or]
  refine ⟨?_, by simp⟩
  split
  · rw [decide_eq_true_eq]
    omega
  · decide

omit hrepair in
/-- A SHARE that grants sets the tag's bit of the row and adds its permissions to the row's. -/
theorem shareRow_spec (s : State) (a : ShareArg) (n row : Nat) {tag : Nat} (htag : tag < 64) (hperm : a.perm < 32) (hrevoke : a.revoke = false) :
    bitOf (pendRd (shareRow s a n row tag) (lptAddr n row)) tag = true ∧
    fld (pendRd (shareRow s a n row tag) (lptAddr n row + 8)) 4 0 = (fld (pendRd s (lptAddr n row + 8)) 4 0 ||| a.perm) := by
  have hor : fld (pendRd s (lptAddr n row + 8)) 4 0 ||| a.perm < 2 ^ 5 := Nat.or_lt_two_pow (fld_lt _ 4 0) hperm
  unfold shareRow
  rw [hrevoke]
  refine ⟨?_, ?_⟩
  · unfold pendWord pendRd
    dsimp only
    rw [mgetD_mset_ne _ _ _ _ _ (by omega), mgetD_mset_same, setBit, bitOf, getLsbD_setFld, if_pos (by omega), Nat.sub_self]
    simp [htag]
  · rw [if_neg Bool.false_ne_true]
    unfold pendWord pendRd at *
    dsimp only
    rw [mgetD_mset_same]
    generalize fld (mgetD s.pendT (lptAddr n row + 8) (rd s (lptAddr n row + 8))) 4 0 ||| a.perm = v at hor ⊢
    unfold fld
    rw [BitVec.toNat_ofNat, Nat.shiftRight_zero]
    omega

/-- The rows that the first step of a MOVE puts. -/
def moveRowB (e : Ebt) (dpa : Nat) : TbtRow := { rowOf { e with gen := (e.gen + 1) % 256, dpa := dpa } with hidden := true }

def moveRowA (e : Ebt) (b dpa : Nat) : TbtRow := { rowOf e with mirror := some (BitVec.ofNat 8 b, BitVec.ofNat 25 dpa) }

/-- The first step of a MOVE puts both rows and marks the entry. -/
theorem moveStep_first {c : Cmd} {b : Nat} (hstep : c.step = 0) (hx : x = fld (cmdW c.entry 1) 18 0) (hb : b = fld (cmdW c.entry 2) 7 0)
    (hlive : ebtLive (ebtGet s x) = true) (hne : (ebtGet s x).tni ≠ b) (hmirrors : ((tbtAll s (ebtGet s x).tni).filter fun p => p.2.mirror.isSome).length < 4)
    (hroom : tbtFull s b x = false) (hbv : (ebtGet s x).bv = false) : moveStep s c =
      (.stay 2, wrEbt (tbtPut (tbtPut s b x (some (moveRowB (ebtGet s x) (fld (cmdW c.entry 2) 32 8)))) (ebtGet s x).tni x
        (some (moveRowA (ebtGet s x) b (fld (cmdW c.entry 2) 32 8)))) x (ebtData { ebtGet s x with mv := true })) := by
  subst hx hb
  unfold moveStep
  rw [hstep]
  dsimp only
  rw [if_neg (by rw [hrepair]; decide), if_neg (by rw [hlive]; decide), if_neg hne, if_neg (by omega), if_neg (by rw [hroom]; decide),
    if_neg (by rw [hbv, Bool.false_and]; decide)]
  rfl

end

/-- The first step of a removal makes a record for each extent bound at the NI. -/
theorem orphanStep_first {s : State} {c : Cmd} (hstep : c.step = 0) (hrec : s.jrn.recovering = false) (hrepairs : s.jrn.repairs = []) :
    ∃ t, orphanStep s c = (.stay 2, t) ∧ t.eng = (updCmd s c.key fun d => { d with extents := boundAt s c.host }).eng ∧
      t.jrn.todo.length = s.jrn.todo.length + (boundAt s c.host).length := by
  have hfold : ∀ (l : List Nat) (g : Nat → Rec) (u : State), (l.foldl (fun t x => jrnAdd t (g x)) u).eng = u.eng ∧
      (l.foldl (fun t x => jrnAdd t (g x)) u).jrn.todo.length = u.jrn.todo.length + l.length := fun l g => by
    induction l with
    | nil => exact fun u => ⟨rfl, rfl⟩
    | cons x l ih =>
      intro u
      obtain ⟨heng, hlen⟩ := ih (jrnAdd u (g x))
      refine ⟨heng, hlen.trans ?_⟩
      rw [List.length_cons, jrnAdd, List.length_append, List.length_singleton]
      omega
  have hstart : orphanStep s c = (.stay 2, (boundAt s c.host).foldl (fun t x => jrnAdd t (entryRec c.key 20 x
      { ebtGet s x with st := 4, sh := (ebtGet s x).st == 2 })) (updCmd s c.key fun d => { d with extents := boundAt s c.host })) := by
    unfold orphanStep
    rw [hstep]
    exact if_neg (by rw [hrec, hrepairs]; decide)
  obtain ⟨heng, hlen⟩ := hfold (boundAt s c.host) (fun x => entryRec c.key 20 x { ebtGet s x with st := 4, sh := (ebtGet s x).st == 2 })
    (updCmd s c.key fun d => { d with extents := boundAt s c.host })
  exact ⟨_, hstart, heng, hlen⟩

/-- The first step of an UNBIND is no end, so no SANITISE follows it. -/
theorem exec_unbind_first {s : State} {c : Cmd} (hhead : ctlHead s = some c) (hopen : c.done = false) (hop : c.op = 0x11) (hstep : c.step = 0)
    (hrepair : repairing s (fld (cmdW c.entry 1) 18 0) = false) (hlive : ebtLive (ebtGet s (fld (cmdW c.entry 1) 18 0)) = true) :
    exec .unbind s = answer s (updCmd (jrnAdd s (entryRec c.key 0 (fld (cmdW c.entry 1) 18 0)
      { ebtGet s (fld (cmdW c.entry 1) 18 0) with st := 3, bv := false })) c.key fun d => { d with step := 2 }) := by
  have hrun := runCtl_stays (op := 0x11) (f := fun s c => unbindStep s c.key c.step (fld (cmdW c.entry 1) 18 0)) hhead (by rw [hop]; rfl) (by
    rw [hstep]
    exact unbindStep_first hrepair hlive)
  have hstays : getCmd (updCmd (jrnAdd s (entryRec c.key 0 (fld (cmdW c.entry 1) 18 0) { ebtGet s (fld (cmdW c.entry 1) 18 0) with st := 3, bv := false }))
    c.key fun d => { d with step := 2 }) c.key = some { c with step := 2 } := getCmd_stays 2 (getCmd_of_ctlHead hhead)
  refine congrArg (answer s) ?_
  rw [hrun, hhead]
  exact if_neg (by rw [hstays]; simp [hopen])

/-- The state without the row of an extent at NI n. -/
def mirrorGone (s : State) (n x : Nat) : State := updNi s n fun i => { i with dec := { i.dec with tbt := mdel i.dec.tbt x } }

/-- The command that zero-fills the old location of a moved extent. -/
def zeroFill (s : State) (n dpa : Nat) : Cmd :=
  { key := s.eng.nextKey, ring := 16, op := 1, jobsLeft := 64, waitingJobs := zeroJobs s s.eng.nextKey n dpa }

theorem exec_moveMirrorExpire {s : State} {n : NiId} {x : BitVec 19} {r : TbtRow} {u : Nat} (hrow : mget (getNi s n.toNat).dec.tbt x.toNat = some r)
    (huntil : r.untilNs = some u) (hlate : u ≤ nowNs s) : exec (.moveMirrorExpire n x) s =
      answer s (pushJobs (addCmd (mirrorGone s n.toNat x.toNat) (zeroFill s n.toNat r.dpa.toNat)) s.eng.nextKey) := by
  refine congrArg (answer s) ?_
  dsimp only
  rw [hrow]
  dsimp only
  rw [huntil]
  exact if_pos hlate

/-- Pushing jobs makes and ends no command. -/
theorem pushJobs_cmds (s : State) (key : Nat) : (pushJobs s key).eng.nextKey = s.eng.nextKey ∧ (pushJobs s key).eng.cmds.length = s.eng.cmds.length := by
  have hpush : ∀ (k : Nat) (l : List Job), (pushOn s k l).2.eng.nextKey = s.eng.nextKey ∧ (pushOn s k l).2.eng.cmds = s.eng.cmds := fun k l => by
    unfold pushOn
    dsimp only
    split <;> exact ⟨rfl, rfl⟩
  unfold pushJobs
  split
  · split
    · obtain ⟨hkey, hcmds⟩ := hpush _ _
      exact ⟨hkey, (length_updFirst ..).trans (congrArg List.length hcmds)⟩
    · exact ⟨rfl, rfl⟩
  · exact ⟨rfl, rfl⟩

/-- Settles O34: each clause by its command's step. -/
theorem controlCommandsStep : Obligations.ControlCommandsStep := by
  unfold Obligations.ControlCommandsStep
  refine ⟨fun s c x e hhead hopen hx he => ?first, fun s n x r u hrow huntil hlate => ?expired⟩
  case first =>
    subst he
    have hcmd := getCmd_of_ctlHead hhead
    refine ⟨fun ni hop hstep hnew hrepair hfree hni hroom => ?bound, fun hop hstep hnew hrepair hst hring => ?refused, fun hop hstep hrecs hring => ?ended,
      fun hop hstep hrepair hst => ?unbound, fun row hop hstep hrepair hst hrevoke hgroup hgrants hrow => ?shared, fun n hop hstep hn => ?sliced,
      fun b hop hstep hrepair hst hb hne hmirrors hroom hbv => ?moved, fun n hop hhost hstep hrec hrepairs => ?orphaned⟩
    case bound =>
      subst hni hx
      have hexec : exec .bind s = answer s _ := congrArg (answer s) (runCtl_stays hhead (by rw [hop]; rfl) (by
        rw [hstep, hnew]
        exact bindStep_first hrepair hfree hroom))
      refine completes_of_answer hexec rfl rfl rfl ⟨_, tbtDue_tbtPut .., ?_, ?_, ?_, rfl, getCmd_stays 2 hcmd, rfl, rfl⟩
      · exact (BitVec.toNat_ofNat ..).trans (Nat.mod_eq_of_lt (fld_lt ..))
      · exact (BitVec.toNat_ofNat ..).trans (Nat.mod_eq_of_lt (fld_lt ..))
      · exact (BitVec.toNat_ofNat ..).trans (Nat.mod_eq_of_lt (Nat.mod_lt _ (by decide)))
    case refused =>
      subst hx
      have hexec : exec .bind s = answer s _ := congrArg (answer s) (runCtl_fins (st := 4) hhead (by rw [hop]; rfl) (by
        rw [hstep, hnew]
        exact bindStep_badState hrepair hst))
      exact completes_of_fin hexec fun t ht hqueue hnis hjrn => ⟨ht.trans (getCmd_endQueued hcmd hring), hqueue, hnis, hjrn⟩
    case ended =>
      have hexec : exec .bind s = answer s _ := congrArg (answer s) (runCtl_fins (st := 0) hhead (by rw [hop]; rfl) (by
        rw [hstep]
        exact if_neg (by rw [hrecs]; decide)))
      exact completes_of_fin hexec fun t ht hqueue hnis hjrn => ⟨ht.trans (getCmd_endQueued hcmd hring), hqueue⟩
    case unbound =>
      subst hx
      have hlive : ebtLive (ebtGet s (fld (cmdW c.entry 1) 18 0)) = true := by
        unfold ebtLive
        obtain hst | hst := hst <;> rw [hst] <;> rfl
      exact completes_of_answer (exec_unbind_first hhead hopen hop hstep hrepair hlive) rfl rfl rfl ⟨_, rfl, rfl, rfl, rfl, rfl, getCmd_stays 2 hcmd⟩
    case shared =>
      subst hx
      have hlive : ebtLive (ebtGet s (fld (cmdW c.entry 1) 18 0)) = true := by
        unfold ebtLive
        obtain hst | hst := hst <;> rw [hst] <;> rfl
      have hexec : exec .share s = answer s _ := congrArg (answer s) (runCtl_stays hhead (by rw [hop]; rfl) (by
        rw [hstep]
        exact shareStep_first hrepair (a := shareArg c.entry) rfl hlive hrevoke (if_neg (by rw [hgroup]; decide)) hgrants hrow))
      obtain ⟨htag, hperm⟩ := shareRow_spec s (shareArg c.entry) (ebtGet s (fld (cmdW c.entry 1) 18 0)).tni row
        (tag := (ebtGet s (fld (cmdW c.entry 1) 18 0)).tag) (fld_lt _ 92 87) (fld_lt _ 20 16) hrevoke
      exact completes_of_answer hexec rfl rfl rfl ⟨htag, hperm, getCmd_stays 2 hcmd, rfl⟩
    case sliced =>
      subst hn
      have hl : ∀ k ∈ onesOf 16 (fld (cmdW c.entry 2) 15 0), k < 16 := fun k hk => List.mem_range.mp (List.mem_of_mem_filter hk)
      have hnodup : (onesOf 16 (fld (cmdW c.entry 2) 15 0)).Nodup := List.nodup_range.filter _
      have hexec : exec .sliceReset s = answer s _ := congrArg (answer s) (runCtl_stays hhead (by rw [hop]; rfl) (if_pos hstep))
      have hnote := (sliceResets_apart (n := fld (cmdW c.entry 1) 7 0) (j := 16) hl (fun h => absurd (hl 16 h) (by decide)) s).note
      have hruns := fun k hk hmask hact => sliceResets_run (n := fld (cmdW c.entry 1) 7 0) (j := k) (s := s) (fld_lt _ 7 0) hk hl hnodup
        (mem_onesOf_fld hk hmask) hact
      generalize (onesOf 16 (fld (cmdW c.entry 2) 15 0)).foldl (fun t k => sliceResetReq t (fld (cmdW c.entry 1) 7 0) k) s = u at hexec hnote hruns
      have hucmd : getCmd u c.key = some c := by
        unfold getCmd
        rw [hnote.eng]
        exact hcmd
      exact completes_of_answered hexec ⟨getCmd_stays 2 hucmd, hruns⟩
    case moved =>
      subst hx hb
      have hlive : ebtLive (ebtGet s (fld (cmdW c.entry 1) 18 0)) = true := by
        unfold ebtLive
        obtain hst | hst := hst <;> rw [hst] <;> rfl
      have hnoted : getCmd (updCmd s c.key fun d => { d with host := (ebtGet s (fld (cmdW c.entry 1) 18 0)).tni }) c.key =
        some { c with host := (ebtGet s (fld (cmdW c.entry 1) 18 0)).tni } := getCmd_updCmd (fun _ => by rfl) hcmd
      have hexec : exec .move s = answer s _ := congrArg (answer s) (runCtl_stays hhead (by rw [hop]; rfl) ((if_pos hstep).trans
        (moveStep_first (s := updCmd s c.key fun d => { d with host := (ebtGet s (fld (cmdW c.entry 1) 18 0)).tni })
          (c := { c with host := (ebtGet s (fld (cmdW c.entry 1) 18 0)).tni }) hrepair hstep rfl rfl hlive hne hmirrors hroom hbv)))
      have hrows : ∀ (u : State) (x b n : Nat) (rb ra : Option TbtRow), n ≠ b →
          (getNi (tbtPut (tbtPut u b x rb) n x ra) b).dec.tbtDue = (getNi u b).dec.tbtDue ++ [(x, rb)] ∧
          (getNi (tbtPut (tbtPut u b x rb) n x ra) n).dec.tbtDue = (getNi u n).dec.tbtDue ++ [(x, ra)] := fun u x b n rb ra hne => by
        rw [tbtDue_tbtPut, tbtPut_ne _ _ _ hne, tbtPut_ne _ _ _ (Ne.symm hne), tbtDue_tbtPut]
        exact ⟨rfl, rfl⟩
      obtain ⟨hb, ha⟩ := hrows s (fld (cmdW c.entry 1) 18 0) _ _ (some (moveRowB (ebtGet s (fld (cmdW c.entry 1) 18 0)) (fld (cmdW c.entry 2) 32 8)))
        (some (moveRowA (ebtGet s (fld (cmdW c.entry 1) 18 0)) (fld (cmdW c.entry 2) 7 0) (fld (cmdW c.entry 2) 32 8))) hne
      refine completes_of_answer hexec rfl rfl rfl ⟨_, _, hb, rfl, ?_, ha, rfl, ebtRaw_wrEbt .., getCmd_stays 2 hnoted⟩
      exact (BitVec.toNat_ofNat ..).trans (Nat.mod_eq_of_lt (fld_lt ..))
    case orphaned =>
      obtain ⟨t, horphan, heng, htodo⟩ := orphanStep_first hstep hrec hrepairs
      rw [hhost] at heng htodo
      have hexec : exec (.extentOrphan n) s = answer s (updCmd t c.key fun d => { d with step := 2 }) := by
        refine congrArg (answer s) ?_
        rw [hhead]
        exact (if_pos hhost).trans (runCtl_stays hhead (by rw [hop]; rfl) horphan)
      have hnoted : getCmd t c.key = some { c with extents := boundAt s n.toNat } := by
        unfold getCmd
        rw [heng]
        exact getCmd_updCmd (fun _ => by rfl) hcmd
      exact completes_of_answered hexec ⟨htodo, getCmd_stays 2 hnoted⟩
  case expired =>
    have hexec := exec_moveMirrorExpire hrow huntil hlate
    have hni : getNi (mirrorGone s n.toNat x.toNat) n.toNat = { getNi s n.toNat with
      dec := { (getNi s n.toNat).dec with tbt := mdel (getNi s n.toNat).dec.tbt x.toNat } } := getNi_updNi_same ..
    have hgone : NiOnly n.toNat s (mirrorGone s n.toNat x.toNat) := .updNi ..
    generalize mirrorGone s n.toNat x.toNat = v at hexec hni hgone
    have hveng : v.eng = s.eng := by rw [hgone.1]
    obtain ⟨hkey, hcmds⟩ := pushJobs_cmds (addCmd v (zeroFill s n.toNat r.dpa.toNat)) s.eng.nextKey
    have hwhole := pushJobs_eng (addCmd v (zeroFill s n.toNat r.dpa.toNat)) s.eng.nextKey
    have hnext : (addCmd v (zeroFill s n.toNat r.dpa.toNat)).eng.nextKey = s.eng.nextKey + 1 := congrArg (fun e : Eng => e.nextKey + 1) hveng
    have hlen : (addCmd v (zeroFill s n.toNat r.dpa.toNat)).eng.cmds.length = s.eng.cmds.length + 1 :=
      (List.length_append).trans (congrArg (fun e : Eng => e.cmds.length + 1) hveng)
    have hwhole' : pushJobs (addCmd v (zeroFill s n.toNat r.dpa.toNat)) s.eng.nextKey =
      { v with eng := (pushJobs (addCmd v (zeroFill s n.toNat r.dpa.toNat)) s.eng.nextKey).eng } := hwhole
    generalize pushJobs (addCmd v (zeroFill s n.toNat r.dpa.toNat)) s.eng.nextKey = t at hexec hkey hcmds hwhole'
    have hnis : t.nis = v.nis := by rw [hwhole']
    have hget : ∀ m, getNi t m = getNi v m := fun m => congrArg (fun l : Map Ni => mgetD l m {}) hnis
    have hmine : (getNi t n.toNat).dec.tbt = mdel (getNi s n.toNat).dec.tbt x.toNat := by rw [hget, hni]
    refine completes_of_answer hexec (by rw [hwhole', hgone.1]) (by rw [hwhole', hgone.1]) (by rw [hwhole', hgone.1])
      ⟨?_, fun y hy => ?_, hkey.trans hnext, hcmds.trans hlen, ?_, fun m hm => (hget m).trans (hgone.2 m hm)⟩
    · rw [hmine]
      exact mget_mdel_same ..
    · rw [hmine]
      exact mget_mdel_ne _ _ _ hy
    · rw [hwhole', hgone.1]

end Sys2Proof.Machine
end

section
/-! PROOF. An image is received, judged, staged, refused or aborted, and the old epoch is released (15 R327 to R342; for O40). -/

namespace Sys2Proof.Machine

/-! Words of the loader. -/

/-- What an outcome's code leaves of the status word, with its flag set. -/
theorem imgCode_flag_fields (s : State) (code sub : Nat) :
    rdF (setFlag (imgCode s code sub) (aImg 8) 1) (aImg 8) 23 16 = code % 256 ∧
    rdF (setFlag (imgCode s code sub) (aImg 8) 1) (aImg 8) 31 29 = rdF s (aImg 8) 31 29 ∧
    bitOf (rd (setFlag (imgCode s code sub) (aImg 8) 1) (aImg 8)) 1 = true := by
  unfold imgCode
  refine ⟨?_, ?_, bitOf_setFlag_same _ _ (by decide)⟩
  · exact (rdF_setFlag_of_out _ _ _ (by decide) (by decide)).trans ((rdF_wrF_of_gt _ _ _ (by decide) (by decide)).trans (rdF_wrF_same _ _ _ (by decide) (by decide)))
  · rw [rdF_setFlag_of_out _ _ _ (by decide) (by decide), rdF_wrF_of_gt _ _ _ (by decide) (by decide), rdF_wrF_of_gt _ _ _ (by decide) (by decide)]

theorem imgCode_flag_words (s : State) (code sub : Nat) : WordsBut [aImg 8] s (setFlag (imgCode s code sub) (aImg 8) 1) := by
  intro a ha
  have ha' : a ≠ aImg 8 := by simpa using ha
  unfold imgCode
  rw [rd_setFlag, if_neg ha', rd_wrF, if_neg ha', rd_wrF, if_neg ha']

/-- The image held is gone: the loader is idle, its state and its sequence number are 0. -/
theorem imgIdle_spec (s : State) : (imgIdle s).img = { s.img with st := 0, bytes := [], prechecked := false } ∧
    imgIdle s = { s with regs := (imgIdle s).regs, img := (imgIdle s).img } ∧
    rdF (imgIdle s) (aImg 8) 31 29 = 0 ∧ rd (imgIdle s) (aImg 0x28) = 0 ∧ WordsBut [aImg 8, aImg 0x28] s (imgIdle s) := by
  have hbase : ∀ (j : Img) (a : Nat), rd { s with img := j } a = rd s a := fun _ _ => rfl
  unfold imgIdle imgState
  refine ⟨rfl, rfl, ?_, rd_wr_same .., fun a ha => ?_⟩
  · rw [rdF, rd_wr_ne _ _ _ _ (by decide)]
    exact rdF_wrF_same _ _ _ (by decide) (by decide)
  · simp only [List.mem_cons, List.not_mem_nil, or_false, not_or] at ha
    obtain ⟨h8, h28⟩ := ha
    rw [rd_wr_ne _ _ _ _ h28, rd_wrF, if_neg h8]
    rfl

/-- A refusal's outcome: its code and flag, and what a notification writes. -/
theorem imgRefusal_spec (s : State) (code sub : Nat) : (imgRefusal s code sub).img = s.img ∧
    (imgRefusal s code sub).gen = s.gen ∧ (imgRefusal s code sub).pending = s.pending ∧ (imgRefusal s code sub).lcs = s.lcs ∧
    rdF (imgRefusal s code sub) (aImg 8) 23 16 = code % 256 ∧ rdF (imgRefusal s code sub) (aImg 8) 31 29 = rdF s (aImg 8) 31 29 ∧
    bitOf (rd (imgRefusal s code sub) (aImg 8)) 1 = true ∧ NotedBut [aImg 8] s (imgRefusal s code sub) := by
  obtain ⟨hcode, hstate, hflag⟩ := imgCode_flag_fields s code sub
  have hwords := imgCode_flag_words s code sub
  have hwhole : setFlag (imgCode s code sub) (aImg 8) 1 = { s with regs := (setFlag (imgCode s code sub) (aImg 8) 1).regs } := rfl
  have hnoted := noted_raiseG (setFlag (imgCode s code sub) (aImg 8) 1) 242 0x151 2 code
  unfold imgRefusal
  generalize setFlag (imgCode s code sub) (aImg 8) 1 = u at hcode hstate hflag hwords hwhole hnoted ⊢
  generalize raiseG u 242 0x151 2 code = t at hnoted ⊢
  have ht := hnoted.whole
  have hstat : rd t (aImg 8) = rd u (aImg 8) := hnoted.words _ rfl
  rw [rdF, rdF, hstat]
  refine ⟨by rw [ht, hwhole], by rw [ht, hwhole], by rw [ht, hwhole], by rw [ht, hwhole], hcode, hstate, hflag, fun a ha hfree => ?_⟩
  rw [hnoted.words a hfree, hwords a ha]

/-- An image that is refused as a whole. -/
theorem imgRefuse_spec (s : State) (code sub : Nat) : (imgRefuse s code sub).img = { s.img with st := 0, bytes := [], prechecked := false } ∧
    (imgRefuse s code sub).gen = s.gen ∧ (imgRefuse s code sub).pending = s.pending ∧ (imgRefuse s code sub).lcs = s.lcs ∧
    rdF (imgRefuse s code sub) (aImg 8) 23 16 = code % 256 ∧ rdF (imgRefuse s code sub) (aImg 8) 31 29 = 0 ∧
    bitOf (rd (imgRefuse s code sub) (aImg 8)) 1 = true ∧ rd (imgRefuse s code sub) (aImg 0x28) = 0 ∧
    NotedBut [aImg 8, aImg 0x28] s (imgRefuse s code sub) := by
  obtain ⟨himg, hwhole, hstate, hseq, hwords⟩ := imgIdle_spec s
  unfold imgRefuse
  generalize imgIdle s = u at himg hwhole hstate hseq hwords
  obtain ⟨hrimg, hgen, hpending, hlcs, hcode, hrstate, hflag, hrwords⟩ := imgRefusal_spec u code sub
  refine ⟨hrimg.trans himg, hgen.trans (by rw [hwhole]), hpending.trans (by rw [hwhole]), hlcs.trans (by rw [hwhole]), hcode, hrstate.trans hstate, hflag, ?_,
    fun a ha hfree => ?_⟩
  · rw [hrwords _ (by decide) rfl, hseq]
  · rw [hrwords a (fun h => ha (by simp only [List.mem_singleton] at h; simp [h])) hfree, hwords a ha]

/-- A command that ends in a refusal of the image held. -/
theorem completes_of_imgRefuse {c : Instr} {s u : State} {code sub : Nat} {P : State → Prop} (hexec : exec c s = answer s (imgRefuse u code sub))
    (hgen : u.gen = s.gen) (hpending : u.pending = s.pending) (hlcs : u.lcs = s.lcs) (hP : P (imgRefuse u code sub)) : Completes c s P := by
  obtain ⟨-, hg, hp, hl, -⟩ := imgRefuse_spec u code sub
  exact completes_of_answer hexec (hg.trans hgen) (hp.trans hpending) (by rw [hl, hlcs]) hP

/-! START (15 R330, R333). -/

/-- CODE and SUB cleared are one field of zeros. -/
theorem imgCode_cleared (s : State) : rdF (imgCode s 0 0) (aImg 8) 23 8 = 0 := by
  unfold imgCode
  refine Nat.eq_of_testBit_eq fun j => ?_
  rw [rdF, testBit_fld, rd_wrF, if_pos rfl, rd_wrF, if_pos rfl, getLsbD_setFld, getLsbD_setFld]
  by_cases hj : j < 16
  · by_cases hsub : j < 8
    · rw [if_pos (by omega), Nat.zero_testBit, Nat.zero_testBit, Bool.and_false, Bool.and_false]
    · rw [if_neg (by omega), if_pos (by omega), Nat.zero_testBit, Nat.zero_testBit, Bool.and_false, Bool.and_false]
  · rw [decide_eq_false (by omega), Bool.false_and, Nat.zero_testBit]

theorem completes_of_imgRefusal {c : Instr} {s : State} {code sub : Nat} (hexec : exec c s = answer s (imgRefusal s code sub))
    (hcode : code < 256) : Completes c s fun t => t.img = s.img ∧ rdF t (aImg 8) 23 16 = code ∧ bitOf (rd t (aImg 8)) 1 = true ∧
      NotedBut [aImg 8] s t := by
  obtain ⟨himg, hgen, hpending, hlcs, hc, -, hflag, hwords⟩ := imgRefusal_spec s code sub
  exact completes_of_answer hexec hgen hpending (by rw [hlcs]) ⟨himg, hc.trans (Nat.mod_eq_of_lt hcode), hflag, hwords⟩

/-- The loader that begins to receive. -/
def imgReceives (s : State) : State := imgCode (imgState { s with img := { s.img with bytes := [] } } 1) 0 0

theorem imgReceives_spec (s : State) : rdF (imgReceives s) (aImg 8) 31 29 = 1 ∧ rdF (imgReceives s) (aImg 8) 23 8 = 0 ∧
    WordsBut [aImg 8] s (imgReceives s) ∧
    imgReceives s = { s with regs := (imgReceives s).regs, img := { s.img with st := 1, bytes := [] } } := by
  refine ⟨?_, imgCode_cleared _, fun a ha => ?_, rfl⟩
  · unfold imgReceives imgCode imgState
    rw [rdF_wrF_of_gt _ _ _ (by decide) (by decide), rdF_wrF_of_gt _ _ _ (by decide) (by decide)]
    exact rdF_wrF_same _ _ _ (by decide) (by decide)
  · have ha' : a ≠ aImg 8 := by simpa using ha
    unfold imgReceives imgCode imgState
    rw [rd_wrF, if_neg ha', rd_wrF, if_neg ha', rd_wrF, if_neg ha']
    rfl

theorem exec_imgStart {s : State} (hdone : s.rst.initDone = true) : exec (.imgStart .cp) s = answer s (imgStartWrite s) :=
  congrArg (answer s) (if_pos ⟨rfl, hdone⟩)

theorem imgStart_busy {s : State} (hdone : s.rst.initDone = true) (hst : s.img.st ≠ 0) :
    exec (.imgStart .cp) s = answer s (imgRefusal s 0x17 0) := (exec_imgStart hdone).trans (congrArg (answer s) (if_pos hst))

theorem imgStart_barred {s : State} (hdone : s.rst.initDone = true) (hst : s.img.st = 0) (hbar : timLocked s = false ∨ lcState s = 4) :
    exec (.imgStart .cp) s = answer s (imgRefusal s 0x18 0) := by
  have hbarred : (!timLocked s || lcState s == 4) = true := by
    rcases hbar with h | h <;> simp [h]
  exact (exec_imgStart hdone).trans (congrArg (answer s) ((if_neg (fun h => h hst)).trans (if_pos hbarred)))

theorem imgStart_receives {s : State} (hdone : s.rst.initDone = true) (hst : s.img.st = 0) (hlock : timLocked s = true)
    (hlc : lcState s ≠ 4) : exec (.imgStart .cp) s = answer s (imgReceives s) := by
  have hfree : ¬(!timLocked s || lcState s == 4) = true := by simp [hlock, hlc]
  exact (exec_imgStart hdone).trans (congrArg (answer s) ((if_neg (fun h => h hst)).trans (if_neg hfree)))

/-! IMG_DATA (15 R330, R333). -/

theorem length_bytesOf (n v : Nat) : (bytesOf n v).length = n := by simp [bytesOf]

/-- The loader with bytes received. -/
def withBytes (s : State) (b : List (BitVec 8)) : State := { s with img := { s.img with bytes := b } }

/-- No check is due below the header's last byte. -/
theorem receiptCode_before_header {s : State} {old : Nat} (h : s.img.bytes.length < 256) : receiptCode s old = none := by
  unfold receiptCode
  rw [if_neg (by simp; omega), if_neg (by simp; omega), if_pos (by omega)]

/-- At the header's last byte its check is the one due. -/
theorem receiptCode_at_header {s : State} {old : Nat} (hold : old < 256) (h : s.img.bytes.length = 256) :
    receiptCode s old = if hdrCode s s.img.bytes = 0 then none else some (hdrCode s s.img.bytes, 0) := by
  unfold receiptCode
  rw [if_pos (by simp; omega)]

/-- A header that passes announces more than itself. -/
theorem hdrLen_of_hdrCode {s : State} {b : List (BitVec 8)} (h : hdrCode s b = 0) : 256 < hdrLen b := by
  have hok : hdrOk b = true := by
    unfold hdrCode at h
    split at h
    · cases h
    · split at h
      · cases h
      · split at h
        · cases h
        next hok => simpa using hok
  have hlen : hdrLenOk b = true := by
    simp only [hdrOk, Bool.and_eq_true] at hok
    exact hok.1.1.2
  simp only [hdrLenOk, Bool.and_eq_true, decide_eq_true_eq] at hlen
  omega

theorem hdrCode_lt (s : State) (b : List (BitVec 8)) : hdrCode s b < 256 := by
  unfold hdrCode
  split
  · decide
  split
  · decide
  split
  · decide
  split
  · decide
  split <;> decide

/-- What eight bytes do once their check has come to a result. -/
def imgTake (s : State) (old : Nat) : State :=
  match receiptCode s old with
  | some c => imgRefuse s c.1 c.2
  | none =>
    let s2 := if s.img.bytes.length = 256 then wr s (aImg 0x28) (BitVec.ofNat 64 (hdrSeq s.img.bytes)) else s
    if 256 ≤ s.img.bytes.length ∧ s.img.bytes.length = hdrLen s.img.bytes then imgState s2 2 else s2

theorem imgTake_of_some {s : State} {old : Nat} {c : Nat × Nat} (h : receiptCode s old = some c) :
    imgTake s old = imgRefuse s c.1 c.2 := by
  unfold imgTake
  rw [h]

theorem imgTake_before_header {s : State} {old : Nat} (h : s.img.bytes.length < 256) : imgTake s old = s := by
  unfold imgTake
  rw [receiptCode_before_header h]
  exact (if_neg (by omega)).trans (if_neg (by omega))

theorem imgTake_at_header {s : State} {old : Nat} (hold : old < 256) (h : s.img.bytes.length = 256) (hcode : hdrCode s s.img.bytes = 0) :
    imgTake s old = wr s (aImg 0x28) (BitVec.ofNat 64 (hdrSeq s.img.bytes)) := by
  have hlen := hdrLen_of_hdrCode hcode
  unfold imgTake
  rw [receiptCode_at_header hold h, if_pos hcode]
  exact (if_neg (by omega)).trans (if_pos h)

theorem exec_imgData_receive {s : State} (v : Word) (hst : s.img.st = 1) :
    exec (.imgData .cp v) s = answer s (imgTake (withBytes s (s.img.bytes ++ bytesOf 8 v.toNat)) s.img.bytes.length) :=
  congrArg (answer s) ((if_pos rfl).trans (if_neg fun h => h hst))

theorem imgData_idle {s : State} (v : Word) (hst : s.img.st ≠ 1) : exec (.imgData .cp v) s = answer s (setFlag s (aImg 8) 3) :=
  congrArg (answer s) ((if_pos rfl).trans (if_pos hst))

/-- An image refused at receipt or at verification. -/
theorem completes_of_imgRefuse_held {c : Instr} {s : State} {b : List (BitVec 8)} {code sub : Nat}
    (hexec : exec c s = answer s (imgRefuse (withBytes s b) code sub)) : Completes c s fun t =>
      t.img = { s.img with st := 0, bytes := [], prechecked := false } ∧ rdF t (aImg 8) 31 29 = 0 ∧ rdF t (aImg 8) 23 16 = code % 256 ∧
      bitOf (rd t (aImg 8)) 1 = true ∧ rd t (aImg 0x28) = 0 ∧ NotedBut [aImg 8, aImg 0x28] s t := by
  obtain ⟨himg, -, -, -, hcode, hstate, hflag, hseq, hwords⟩ := imgRefuse_spec (withBytes s b) code sub
  exact completes_of_imgRefuse hexec rfl rfl rfl ⟨himg, hstate, hcode, hflag, hseq, hwords⟩

theorem imgData_completes (s : State) (v : Word) (b : List (BitVec 8)) (hb : b = s.img.bytes ++ bytesOf 8 v.toNat) :
    (s.img.st ≠ 1 → Completes (.imgData .cp v) s fun t =>
      rd t (aImg 8) = rd s (aImg 8) ||| 8#64 ∧ WordsBut [aImg 8] s t ∧ t = { s with regs := t.regs }) ∧
    (s.img.st = 1 → b.length < 256 → Completes (.imgData .cp v) s fun t => t = { s with img := { s.img with bytes := b } }) ∧
    (s.img.st = 1 → b.length = 256 → hdrCode s b = 0 → Completes (.imgData .cp v) s fun t =>
      rd t (aImg 0x28) = BitVec.ofNat 64 (hdrSeq b) ∧ WordsBut [aImg 0x28] s t ∧
      t = { s with regs := t.regs, img := { s.img with bytes := b } }) ∧
    (s.img.st = 1 → b.length = 256 → hdrCode s b ≠ 0 → Completes (.imgData .cp v) s fun t =>
      t.img = { s.img with st := 0, bytes := [], prechecked := false } ∧ rdF t (aImg 8) 31 29 = 0 ∧ rdF t (aImg 8) 23 16 = hdrCode s b ∧
      bitOf (rd t (aImg 8)) 1 = true ∧ rd t (aImg 0x28) = 0 ∧ NotedBut [aImg 8, aImg 0x28] s t) := by
  have hlen : b.length = s.img.bytes.length + 8 := by rw [hb, List.length_append, length_bytesOf]
  have hexec : s.img.st = 1 → exec (.imgData .cp v) s = answer s (imgTake (withBytes s b) s.img.bytes.length) := fun hst => by
    rw [hb]
    exact exec_imgData_receive v hst
  refine ⟨fun hst => completes_setFlag (imgData_idle v hst), fun hst hshort => ?_, fun hst hhdr hcode => ?_, fun hst hhdr hcode => ?_⟩
  · exact completes_of_answer ((hexec hst).trans (congrArg (answer s) (imgTake_before_header hshort))) rfl rfl rfl rfl
  · refine completes_of_answer ((hexec hst).trans (congrArg (answer s) (imgTake_at_header (by omega) hhdr hcode))) rfl rfl rfl
      ⟨rd_wr_same .., ?_, rfl⟩
    exact .wr (withBytes s b) _ List.mem_cons_self
  · have hdue : receiptCode (withBytes s b) s.img.bytes.length = some (hdrCode s b, 0) :=
      (receiptCode_at_header (by omega) hhdr).trans (if_neg hcode)
    have hdone := completes_of_imgRefuse_held ((hexec hst).trans (congrArg (answer s) (imgTake_of_some hdue)))
    rwa [Nat.mod_eq_of_lt (hdrCode_lt s b)] at hdone

/-! ABORT (15 R341). -/

theorem imgAborted_outcome (s : State) : rdF (imgAborted s) (aImg 8) 31 29 = 0 ∧ rdF (imgAborted s) (aImg 8) 23 16 = 0x16 ∧
    bitOf (rd (imgAborted s) (aImg 8)) 1 = true ∧ rd (imgAborted s) (aImg 0x28) = 0 ∧ WordsBut [aImg 8, aImg 0x28] s (imgAborted s) ∧
    imgAborted s = { s with regs := (imgAborted s).regs, img := { s.img with st := 0, bytes := [], prechecked := false } } := by
  obtain ⟨-, -, hstate, hseq, hwords⟩ := imgIdle_spec s
  obtain ⟨hcode, hkeep, hflag⟩ := imgCode_flag_fields (imgIdle s) 0x16 0
  have hleft := imgCode_flag_words (imgIdle s) 0x16 0
  refine ⟨hkeep.trans hstate, hcode, hflag, (hleft _ (by decide)).trans hseq, hwords.trans (hleft.mono ?_), rfl⟩
  exact List.cons_subset_cons _ (List.nil_subset _)

theorem imgAbort_aborts {s : State} (hst : s.img.st ≠ 0) (hfar : s.img.st ≠ 3 ∨ frameGe (frameOf s + 1) s.img.switchT = false) :
    exec (.imgAbort .cp) s = answer s (imgAborted s) := by
  have hable : imgAbortable s = true := by
    rw [imgAbortable, bne_iff_ne.mpr hst, Bool.true_and, Bool.not_eq_true', Bool.and_eq_false_iff]
    exact hfar.imp beq_eq_false_iff_ne.mpr id
  exact congrArg (answer s) ((if_pos rfl).trans (if_pos hable))

theorem imgAbort_ignored {s : State} (h : s.img.st = 0 ∨ s.img.st = 3 ∧ frameGe (frameOf s + 1) s.img.switchT = true) :
    exec (.imgAbort .cp) s = answer s s := by
  have hable : ¬imgAbortable s = true := by
    unfold imgAbortable
    rcases h with h | ⟨h, hnear⟩
    · simp [h]
    · simp [hnear, h]
  exact congrArg (answer s) ((if_pos rfl).trans (if_neg hable))

theorem imgAbort_completes (s : State) :
    (s.img.st ≠ 0 → (s.img.st ≠ 3 ∨ frameGe (frameOf s + 1) s.img.switchT = false) → Completes (.imgAbort .cp) s fun t =>
      rdF t (aImg 8) 31 29 = 0 ∧ rdF t (aImg 8) 23 16 = 0x16 ∧ bitOf (rd t (aImg 8)) 1 = true ∧ rd t (aImg 0x28) = 0 ∧
      WordsBut [aImg 8, aImg 0x28] s t ∧ t = { s with regs := t.regs, img := { s.img with st := 0, bytes := [], prechecked := false } }) ∧
    ((s.img.st = 0 ∨ s.img.st = 3 ∧ frameGe (frameOf s + 1) s.img.switchT = true) → Completes (.imgAbort .cp) s fun t => t = s) :=
  ⟨fun hst hfar => completes_of_answer (imgAbort_aborts hst hfar) rfl rfl rfl (imgAborted_outcome s),
    fun h => completes_of_eq_self (imgAbort_ignored h)⟩

/-! Verification (15 R327, R335). -/

theorem sigCode_lt (s : State) (b : List (BitVec 8)) : sigCode s b < 256 := by
  unfold sigCode
  dsimp only
  split
  · decide
  split
  · decide
  split
  · decide
  split
  · decide
  split <;> decide

/-- The image staged for a tick. -/
def imgStaged (s : State) (f : Nat) : State :=
  wr (imgState { s with img := { s.img with switchT := f, verifiedF := frameOf s, prechecked := false } } 3) (aImg 0x38) (BitVec.ofNat 64 f)

theorem imgStaged_spec (s : State) (f : Nat) : rdF (imgStaged s f) (aImg 8) 31 29 = 3 ∧
    rd (imgStaged s f) (aImg 0x38) = BitVec.ofNat 64 f ∧ WordsBut [aImg 8, aImg 0x38] s (imgStaged s f) ∧
    imgStaged s f = { s with regs := (imgStaged s f).regs, img := { s.img with
      st := 3, switchT := f, verifiedF := frameOf s, prechecked := false } } := by
  unfold imgStaged imgState
  refine ⟨?_, rd_wr_same .., fun a ha => ?_, rfl⟩
  · rw [rdF, rd_wr_ne _ _ _ _ (by decide)]
    exact rdF_wrF_same _ _ _ (by decide) (by decide)
  · simp only [List.mem_cons, List.not_mem_nil, or_false, not_or] at ha
    obtain ⟨h8, h38⟩ := ha
    rw [rd_wr_ne _ _ _ _ h38, rd_wrF, if_neg h8]
    rfl

theorem verifyCode_of_sigCode {s : State} (h : sigCode s s.img.bytes ≠ 0) : verifyCode s = some (sigCode s s.img.bytes, 0) := if_pos h

/-- What verification does with its outcome. -/
def imgVerdict (s : State) (o : Option (Nat × Nat)) : State :=
  match o with
  | some c => imgRefuse s c.1 c.2
  | none => imgStaged s (chooseTick s s.img.bytes)

theorem exec_imageVerifyDone {s : State} (hst : s.img.st = 2) : exec .imageVerifyDone s = answer s (imgVerdict s (verifyCode s)) :=
  congrArg (answer s) (if_neg fun h => h hst)

theorem imgVerify_completes (s : State) (hst : s.img.st = 2) :
    (sigCode s s.img.bytes ≠ 0 → Completes .imageVerifyDone s fun t =>
      t.img = { s.img with st := 0, bytes := [], prechecked := false } ∧ rdF t (aImg 8) 23 16 = sigCode s s.img.bytes ∧
      bitOf (rd t (aImg 8)) 1 = true ∧ NotedBut [aImg 8, aImg 0x28] s t) ∧
    (verifyCode s = none → Completes .imageVerifyDone s fun t =>
      rdF t (aImg 8) 31 29 = 3 ∧ rd t (aImg 0x38) = BitVec.ofNat 64 (chooseTick s s.img.bytes) ∧ WordsBut [aImg 8, aImg 0x38] s t ∧
      t = { s with regs := t.regs, img := { s.img with
        st := 3, switchT := chooseTick s s.img.bytes, verifiedF := frameOf s, prechecked := false } }) := by
  refine ⟨fun hsig => ?_, fun hnone => ?_⟩
  · obtain ⟨t, ht, himg, -, hcode, hflag, -, hwords⟩ := completes_of_imgRefuse_held (b := s.img.bytes)
      ((exec_imageVerifyDone hst).trans (congrArg (fun o => answer s (imgVerdict s o)) (verifyCode_of_sigCode hsig)))
    exact ⟨t, ht, himg, hcode.trans (Nat.mod_eq_of_lt (sigCode_lt ..)), hflag, hwords⟩
  · exact completes_of_answer ((exec_imageVerifyDone hst).trans (congrArg (fun o => answer s (imgVerdict s o)) hnone)) rfl rfl rfl
      (imgStaged_spec s _)

/-! The frame before the switch (15 R335, R338, R340). -/

theorem exec_imagePrecheck {s : State} (hst : s.img.st = 3) (hpre : s.img.prechecked = false)
    (hdue : (frameOf s + 1) % 2 ^ 48 = s.img.switchT) : exec .imagePrecheck s = answer s (imgJudge s) :=
  congrArg (answer s) (if_pos ⟨hst, by rw [hpre]; rfl, hdue⟩)

theorem imgJudge_passes {s : State} (hwait : imgWaits s s.img.switchT = none) (hconf : imgConflict s = none) :
    imgJudge s = { s with img := { s.img with prechecked := true } } := by
  unfold imgJudge
  rw [hwait, hconf]

theorem imgJudge_refuses {s : State} {c sub : Nat} (hwait : imgWaits s s.img.switchT = none) (hconf : imgConflict s = some (c, sub)) :
    imgJudge s = imgRefuse s c sub := by
  unfold imgJudge
  rw [hwait, hconf]

theorem imgJudge_delays {s : State} {r : Nat} (hwait : imgWaits s s.img.switchT = some r) (hfab : hdrFabric s.img.bytes = false) :
    imgJudge s = wr { s with img := { s.img with switchT := r } } (aImg 0x38) (BitVec.ofNat 64 r) := by
  unfold imgJudge
  rw [hwait]
  exact if_neg (by rw [hfab]; decide)

theorem imgPrecheck_completes (s : State) (hst : s.img.st = 3) (hpre : s.img.prechecked = false)
    (hdue : (frameOf s + 1) % 2 ^ 48 = s.img.switchT) :
    (imgWaits s s.img.switchT = none → imgConflict s = none → Completes .imagePrecheck s fun t =>
      t = { s with img := { s.img with prechecked := true } }) ∧
    (∀ c sub, imgWaits s s.img.switchT = none → imgConflict s = some (c, sub) → Completes .imagePrecheck s fun t =>
      t.img = { s.img with st := 0, bytes := [], prechecked := false } ∧ rdF t (aImg 8) 23 16 = c % 256 ∧
      bitOf (rd t (aImg 8)) 1 = true ∧ NotedBut [aImg 8, aImg 0x28] s t) ∧
    (∀ r, imgWaits s s.img.switchT = some r → hdrFabric s.img.bytes = false → Completes .imagePrecheck s fun t =>
      rd t (aImg 0x38) = BitVec.ofNat 64 r ∧ WordsBut [aImg 0x38] s t ∧
      t = { s with regs := t.regs, img := { s.img with switchT := r } }) := by
  have hexec := exec_imagePrecheck hst hpre hdue
  refine ⟨fun hwait hconf => ?_, fun c sub hwait hconf => ?_, fun r hwait hfab => ?_⟩
  · exact completes_of_answer (hexec.trans (congrArg (answer s) (imgJudge_passes hwait hconf))) rfl rfl rfl rfl
  · obtain ⟨t, ht, himg, -, hcode, hflag, -, hwords⟩ := completes_of_imgRefuse_held (b := s.img.bytes)
      (hexec.trans (congrArg (answer s) (imgJudge_refuses hwait hconf)))
    exact ⟨t, ht, himg, hcode, hflag, hwords⟩
  · exact completes_of_answer (hexec.trans (congrArg (answer s) (imgJudge_delays hwait hfab))) rfl rfl rfl
      ⟨rd_wr_same .., .wr { s with img := { s.img with switchT := r } } _ List.mem_cons_self, rfl⟩

/-! The old epoch's slot (15 R337). -/

/-- What every step of a fold keeps, among states with an invariant, holds at the fold's end. -/
theorem foldl_keeps {α β : Type} {f : α → β → α} {I P : α → Prop} {l : List β} (hinv : ∀ t, ∀ c ∈ l, I t → I (f t c))
    (hkeep : ∀ t, ∀ c ∈ l, I t → P t → P (f t c)) {s : α} (hs : I s) (h : P s) : P (l.foldl f s) := by
  induction l generalizing s with
  | nil => exact h
  | cons c l ih =>
    have hc := List.mem_cons_self (a := c) (l := l)
    exact ih (fun t d hd => hinv t d (List.mem_cons_of_mem c hd)) (fun t d hd => hkeep t d (List.mem_cons_of_mem c hd)) (hinv s c hc hs) (hkeep s c hc hs h)

/-- So does what one of the steps brings about. -/
theorem foldl_establishes {α β : Type} {f : α → β → α} {I P : α → Prop} {l : List β} {b : β} (hinv : ∀ t, ∀ c ∈ l, I t → I (f t c))
    (hkeep : ∀ t, ∀ c ∈ l, I t → P t → P (f t c)) (hset : ∀ t, I t → P (f t b)) (hb : b ∈ l) {s : α} (hs : I s) : P (l.foldl f s) := by
  induction l generalizing s with
  | nil => cases hb
  | cons c l ih =>
    have hinv' : ∀ t, ∀ d ∈ l, I t → I (f t d) := fun t d hd => hinv t d (List.mem_cons_of_mem c hd)
    have hkeep' : ∀ t, ∀ d ∈ l, I t → P t → P (f t d) := fun t d hd => hkeep t d (List.mem_cons_of_mem c hd)
    have hnext := hinv s c List.mem_cons_self hs
    rcases List.mem_cons.mp hb with rfl | hmem
    · exact foldl_keeps hinv' hkeep' hnext (hset s hs)
    · exact ih hinv' hkeep' hmem hnext

/-- A listed router's OLD_LIVE clears. -/
theorem oldLive_cleared {l : List Nat} {x : Nat} (hx : x ∈ l) (s : State) :
    bitOf (rd (l.foldl (fun t y => wrF t (aRtr y 0x18) 17 17 0) s) (aRtr x 0x18)) 17 = false := by
  have hclear : ∀ t : State, bitOf (setFld (rd t (aRtr x 0x18)) 17 17 0) 17 = false := fun t => by
    rw [bitOf, getLsbD_setFld, if_pos (by decide), Nat.zero_testBit, Bool.and_false]
  refine foldl_establishes (f := fun t y => wrF t (aRtr y 0x18) 17 17 0) (I := fun _ => True) (P := fun t => bitOf (rd t (aRtr x 0x18)) 17 = false)
    (fun _ _ _ _ => trivial) (fun t y _ _ h => ?_) (fun t _ => ?_) hx (s := s) trivial
  · rw [rd_wrF]
    split
    next heq => rw [← heq]; exact hclear t
    · exact h
  · rw [rd_wrF, if_pos rfl]
    exact hclear t

/-- The flags' writes change register words alone. -/
theorem oldLive_whole (l : List Nat) (s : State) : l.foldl (fun t y => wrF t (aRtr y 0x18) 17 17 0) s =
    { s with regs := (l.foldl (fun t y => wrF t (aRtr y 0x18) 17 17 0) s).regs } := by
  induction l generalizing s with
  | nil => rfl
  | cons y ys ih => exact ih (wrF s (aRtr y 0x18) 17 17 0)

/-- The routers' flags and the loader's, before the notification. -/
def oldReleased (s : State) : State :=
  let s1 := (List.range (nRtrs s)).foldl (fun t x => wrF t (aRtr x 0x18) 17 17 0) s
  setFlag (wr { s1 with img := { s1.img with release := none } } (aImg 0x40) 0) (aImg 8) 2

theorem releaseOld_eq (s : State) : releaseOld s = raiseGFree (oldReleased s) 242 0x152 0 := rfl

theorem oldReleased_whole (s : State) :
    oldReleased s = { s with regs := (oldReleased s).regs, img := { s.img with release := none } } := by
  have hfold := oldLive_whole (List.range (nRtrs s)) s
  unfold oldReleased
  generalize (List.range (nRtrs s)).foldl (fun t x => wrF t (aRtr x 0x18) 17 17 0) s = u at hfold ⊢
  rw [hfold]
  rfl

theorem oldReleased_words (s : State) : (∀ x, isRtr s x = true → bitOf (rd (oldReleased s) (aRtr x 0x18)) 17 = false) ∧
    rd (oldReleased s) (aImg 0x40) = 0 ∧ bitOf (rd (oldReleased s) (aImg 8)) 2 = true := by
  unfold oldReleased
  refine ⟨fun x hx => ?_, ?_, bitOf_setFlag_same _ _ (by decide)⟩
  · have hlt : x < nRtrs s := by simpa [isRtr] using hx
    rw [rd_setFlag, if_neg (by unfold aRtr aImg; omega), rd_wr_ne _ _ _ _ (by unfold aRtr aImg; omega)]
    exact oldLive_cleared (List.mem_range.mpr hlt) s
  · rw [rd_setFlag, if_neg (by decide)]
    exact rd_wr_same ..

theorem exec_epochRelease {s : State} {f : Nat} (hrel : s.img.release = some f) (hdue : frameGe (frameOf s) f = true) :
    exec .epochRelease s = answer s (releaseOld s) := by
  refine congrArg (answer s) ?_
  rw [hrel]
  exact if_pos hdue

theorem epochRelease_completes (s : State) (f : Nat) (hrel : s.img.release = some f) (hdue : frameGe (frameOf s) f = true) :
    Completes .epochRelease s fun t =>
    (∀ x, isRtr s x = true → bitOf (rd t (aRtr x 0x18)) 17 = false) ∧ rd t (aImg 0x40) = 0 ∧ bitOf (rd t (aImg 8)) 2 = true ∧
    t.img = { s.img with release := none } := by
  have hold := oldReleased_whole s
  obtain ⟨hrtr, hword, hflag⟩ := oldReleased_words s
  have hexec := (exec_epochRelease hrel hdue).trans (congrArg (answer s) (releaseOld_eq s))
  generalize oldReleased s = u at *
  have hnoted := noted_raiseGFree u 242 0x152 0
  generalize raiseGFree u 242 0x152 0 = t at *
  have hwhole := hnoted.whole
  refine completes_of_answer hexec (by rw [hwhole, hold]) (by rw [hwhole, hold]) (by rw [hwhole, hold])
    ⟨fun x hx => ?_, ?_, ?_, by rw [hwhole, hold]⟩
  · have hlt : x < nRtrs s := by simpa [isRtr] using hx
    rw [hnoted.words _ (noteWord_aRtr (by have := nRtrs_le s; omega) (by decide))]
    exact hrtr x hx
  · rw [hnoted.words _ rfl, hword]
  · rw [hnoted.words _ rfl, hflag]

/-- Settles O40: each command of the loader does what the branch that its state selects does; a header that passes announces more bytes
than its own, so the header's last byte never ends the receipt. -/
theorem imageIsReceivedJudgedAndReleased : Obligations.ImageIsReceivedJudgedAndReleased := by
  unfold Obligations.ImageIsReceivedJudgedAndReleased
  refine ⟨fun s hdone => ⟨fun hst => completes_of_imgRefusal (imgStart_busy hdone hst) (by decide),
    fun hst hbar => completes_of_imgRefusal (imgStart_barred hdone hst hbar) (by decide),
    fun hst hlock hlc => completes_of_answer (imgStart_receives hdone hst hlock hlc) rfl rfl rfl (imgReceives_spec s)⟩,
    imgData_completes, imgAbort_completes, imgVerify_completes, imgPrecheck_completes, epochRelease_completes⟩

end Sys2Proof.Machine
end

section
/-! PROOF. Wires are steered, routers declared, re-homed and tested, and rows are moved to spares (18 R389 to R402; for O46). -/

namespace Sys2Proof.Machine

/-! Which routers have failed, as the end of a span link leaves them. -/

/-- The routers that have failed. -/
def failedRtrs (s : State) : Nat → Bool := fun y => (getRtr s y).failed

theorem failedRtrs_of_rtrs {s t : State} (h : t.rtrs = s.rtrs) : Keeps failedRtrs s t := by
  unfold Keeps failedRtrs getRtr
  rw [h]

theorem Noted.rtrs {s t : State} (h : Noted s t) : t.rtrs = s.rtrs := by rw [h.whole]

theorem failedRtrs_updRtr (s : State) (y : Nat) {f : Rtr → Rtr} (h : (f (getRtr s y)).failed = (getRtr s y).failed) :
    Keeps failedRtrs s (updRtr s y f) := by
  funext z
  unfold failedRtrs
  rw [getRtr_updRtr]
  split
  · next e => rw [h, e]
  · rfl

theorem spanOwn_failedRtrs (s : State) (p : Nat) (pl : Plane) (m : Msg) : Keeps failedRtrs s (spanOwn s p pl m) := by
  have hspan : ∀ f, Keeps failedRtrs s (updSpan s p f) := fun f => failedRtrs_of_rtrs rfl
  have hplane : ∀ (t : State) (x : Nat) (f : RtrPlane → RtrPlane), Keeps failedRtrs t (updPlane t pl x f) := fun t x f =>
    funext fun y => failed_updPlane t pl x y f
  have hinject : ∀ t m, Keeps failedRtrs t (spanInject t p pl m) := fun t m => .ite (.refl _ t) (hplane ..)
  exact (Keeps.ite (hspan _) (.refl _ s)).trans (hinject _ _)

theorem flushMsg_failedRtrs (s : State) {p : Nat} (hp : p < 8) (m : Msg) : Keeps failedRtrs s (flushMsg s p m) := by
  have hcount : Keeps failedRtrs s (evSpn (setFlag (incSat s (aSpn p 0x58) 1) (aSpn p 0x18) 3) p 18 1) :=
    failedRtrs_of_rtrs (bump_noteOnly (setFlag (incSat s (aSpn p 0x58) 1) (aSpn p 0x18) 3) (8192 + 24 * p + 18) 1 (by omega)).noted.rtrs
  exact .ite hcount (.ite (hcount.trans (spanOwn_failedRtrs ..)) (.ite hcount (hcount.trans (spanOwn_failedRtrs ..))))

theorem dropPiste_failedRtrs (s : State) {p : Nat} (hp : p < 8) : Keeps failedRtrs s (dropPiste s p) :=
  (Keeps.foldl (fun t m _ => .ite (.refl _ t) (flushMsg_failedRtrs t hp m)) s).trans (failedRtrs_of_rtrs rfl)

theorem suspendFlow_rtrs (s : State) (id : Nat) : (suspendFlow s id).rtrs = s.rtrs := by
  have hent : ∀ (f : Flow) (v : BitVec 256), (wrFlowEnt s f v).rtrs = s.rtrs := fun f v => by
    unfold wrFlowEnt
    split <;> rfl
  unfold suspendFlow
  split
  · rfl
  · split
    · rfl
    · dsimp only
      split
      · exact (noted_raiseNi ..).rtrs.trans (hent ..)
      · exact (noted_raiseG ..).rtrs.trans (hent ..)

theorem handOver_rtrs (s : State) (p q : Nat) : (handOver s p q).rtrs = s.rtrs := by
  have hseq : ∀ (l : List Msg) (a : List Msg × State), Keeps State.rtrs a.2 (l.foldl (fun (a : List Msg × State) m =>
      if m.cls = 2 then ((a.1 ++ [(spanSeq a.2 p m).1], (spanSeq a.2 p m).2)) else (a.1 ++ [m], a.2)) a).2 := fun l =>
    Keeps.foldl_snd fun a m _ => by
      split
      · rfl
      · rfl
  unfold handOver
  dsimp only
  split
  · exact hseq _ (_, s)
  · exact hseq _ (_, s)

theorem spanLost_rtrs (s : State) {p : Nat} (hp : p < 8) (cause : Nat) : (spanLost s p cause).rtrs = s.rtrs := by
  unfold spanLost
  generalize hd : updSpan s p _ = d
  have hdown : d.rtrs = s.rtrs := by rw [← hd]; rfl
  have hnoted := (bump_noteOnly (incSat (setFlag d (aSpn p 0x18) 2) (aSpn p 0x48) 1) (8192 + 24 * p + 9) 1 (by omega)).noted.trans
    (noted_raiseGFree _ (128 + p) 0x121 2)
  exact hnoted.rtrs.trans hdown

theorem spanDown_failedRtrs (s : State) {p : Nat} (hp : p < 8) (cause : Nat) : Keeps failedRtrs s (spanDown s p cause) := by
  have hleft : ∀ t ns, Keeps failedRtrs t (spanLeft t p ns) := fun t ns => by
    have hsusp : Keeps failedRtrs t (suspendSpan t p) :=
      failedRtrs_of_rtrs (Keeps.foldl (g := State.rtrs) (fun u id _ => suspendFlow_rtrs u id) t)
    have hdrop := hsusp.trans (dropPiste_failedRtrs _ hp)
    unfold spanLeft
    dsimp only
    split
    · exact hdrop.trans (failedRtrs_of_rtrs (handOver_rtrs ..))
    · exact hdrop.trans (failedRtrs_of_rtrs rfl)
  rw [spanDown_eq]
  exact (failedRtrs_of_rtrs (spanLost_rtrs s hp cause)).trans (hleft ..)

/-! A router is declared failed (18 R393, R394). -/

/-- The declared routers, the switch due, and the routers that have failed. -/
def faultView (s : State) : List (Nat × Nat) × Option (Nat × Nat) × (Nat → Bool) := (s.flt.declared, s.flt.switchAt, failedRtrs s)

theorem faultView_of_parts {s t : State} (hflt : t.flt = { s.flt with log := t.flt.log }) (hfailed : Keeps failedRtrs s t) : Keeps faultView s t := by
  unfold Keeps faultView
  rw [hflt, hfailed]

theorem cutNeighbour_faultView (s : State) (x port : Nat) : Keeps faultView s (cutNeighbour s x port) := by
  unfold cutNeighbour
  split
  next y inp _ =>
    have hup : Keeps faultView s (setPortUp (setPortUp s y .req inp false) y .rsp inp false) := rfl
    dsimp only
    generalize setPortUp (setPortUp s y .req inp false) y .rsp inp false = t at hup ⊢
    generalize hu : updRtr t y _ = u
    have hcut : Keeps faultView t u := by
      rw [← hu]
      exact faultView_of_parts rfl (failedRtrs_updRtr t y rfl)
    exact (hup.trans hcut).trans (faultView_of_parts rfl (failedRtrs_updRtr u y rfl))
  · exact .refl _ s

/-- The NI attached to one local port of a failed router. -/
def rtrLosesNi (x : Nat) (s : State) (k : Nat) : State :=
  match niAtPort s x (6 + k) with
  | some (n, alt) => dropAtt s n alt
  | none => s

/-- A span link at a failed router goes down, when s listed it there. -/
def rtrLosesSpan (s : State) (x : Nat) (t : State) (p : Nat) : State :=
  if isSpan s p && (spanAtt s p).1 == x && ((getSpan t p).lstate == 1 || (getSpan t p).lstate == 2 || (getSpan t p).lstate == 3) then spanDown t p 5 else t

/-- The router, failed, with its links out of use. -/
def rtrCut (s : State) (x : Nat) : State :=
  (List.range 8).foldl (rtrLosesSpan s x) ((List.range 4).foldl (rtrLosesNi x) ((List.range 6).foldl (fun t port => cutNeighbour t x port)
    (updRtr s x fun r => { r with failed := true, req := {}, rsp := {}, gather := [], self := [] })))

theorem rtrLosesNi_faultView (x : Nat) (s : State) (k : Nat) : Keeps faultView s (rtrLosesNi x s k) := by
  unfold rtrLosesNi
  split <;> rfl

theorem rtrLosesSpan_faultView (s : State) (x : Nat) (t : State) {p : Nat} (hp : p < 8) : Keeps faultView t (rtrLosesSpan s x t p) := by
  have hwhole := (spanDown_spanWork t hp 5).whole
  exact .ite (faultView_of_parts (by rw [hwhole]) (spanDown_failedRtrs t hp 5)) (.refl _ t)

theorem rtrCut_spec (s : State) (x : Nat) : (rtrCut s x).flt.declared = s.flt.declared ∧
    (rtrCut s x).flt.switchAt = s.flt.switchAt ∧ (getRtr (rtrCut s x) x).failed = true := by
  unfold rtrCut
  generalize hd : updRtr s x _ = d
  have hfailed : (getRtr d x).failed = true := by
    rw [← hd, getRtr_updRtr, if_pos rfl]
  have hflt : d.flt = s.flt := by rw [← hd]; rfl
  have hcut : Keeps faultView d _ := Keeps.foldl (l := List.range 6) (fun t port _ => cutNeighbour_faultView t x port) d
  have hni := hcut.trans (Keeps.foldl (l := List.range 4) (fun t k _ => rtrLosesNi_faultView x t k) _)
  have hspan := hni.trans (Keeps.foldl (l := List.range 8) (fun t p hp => rtrLosesSpan_faultView s x t (List.mem_range.mp hp)) _)
  unfold Keeps faultView at hspan
  obtain ⟨hdecl, hview⟩ := Prod.mk.inj hspan
  obtain ⟨hswitch, hrtrs⟩ := Prod.mk.inj hview
  exact ⟨hdecl.trans (by rw [hflt]), hswitch.trans (by rw [hflt]), (congrFun hrtrs x).trans hfailed⟩

/-- The declaration is recorded. -/
def rtrDeclared (s : State) (x cause ns : Nat) : State :=
  let t := raiseG (setFlag s 0x500 0) 246 0x183 2 (x ||| cause <<< 8)
  { t with flt := { t.flt with declared := t.flt.declared ++ [(x, ns)] } }

theorem rtrDeclared_spec (s : State) (x cause ns : Nat) : (rtrDeclared s x cause ns).flt.declared = s.flt.declared ++ [(x, ns)] ∧
    (rtrDeclared s x cause ns).flt.switchAt = s.flt.switchAt ∧ (rtrDeclared s x cause ns).rtrs = s.rtrs ∧
    bitOf (rd (rtrDeclared s x cause ns) 0x500) 0 = true := by
  have hnoted := noted_raiseG (setFlag s 0x500 0) 246 0x183 2 (x ||| cause <<< 8)
  unfold rtrDeclared
  generalize raiseG (setFlag s 0x500 0) 246 0x183 2 (x ||| cause <<< 8) = t at hnoted ⊢
  have hflt : t.flt = { s.flt with log := t.flt.log } := by rw [hnoted.whole]; rfl
  have hword : rd t 0x500 = rd (setFlag s 0x500 0) 0x500 := hnoted.words _ (by decide)
  refine ⟨?_, ?_, hnoted.rtrs, ?_⟩
  · dsimp only
    rw [hflt]
  · dsimp only
    rw [hflt]
  · exact (congrArg (fun w => bitOf w 0) hword).trans (bitOf_setFlag_same _ _ (by decide))

theorem declareRouter_eq {s : State} {x : Nat} (cause : Nat) (hx : isRtr s x = true) (hf : (getRtr s x).failed = false) : declareRouter s x cause =
    if s.flt.caseR.isSome || s.flt.switchAt.isSome then raiseG (setFlag (rtrDeclared (rtrCut s x) x cause (nowNs s)) 0x500 3) 246 0x18B 3 0x183
    else wrF { rtrDeclared (rtrCut s x) x cause (nowNs s) with
      flt := { (rtrDeclared (rtrCut s x) x cause (nowNs s)).flt with switchAt := some (x, frameIn s 2) } } 0x508 11 8 cause := by
  unfold declareRouter
  rw [if_neg (by rw [hx, hf]; decide)]
  rfl

/-- What a declaration brings about. -/
theorem declareRouter_spec {s : State} {x cause : Nat} (hcause : cause < 16) (hx : isRtr s x = true) (hf : (getRtr s x).failed = false) :
    (getRtr (declareRouter s x cause) x).failed = true ∧ bitOf (rd (declareRouter s x cause) 0x500) 0 = true ∧
    (declareRouter s x cause).flt.declared = s.flt.declared ++ [(x, nowNs s)] ∧
    (s.flt.caseR = none → s.flt.switchAt = none → (declareRouter s x cause).flt.switchAt = some (x, (frameOf s + 2) % 2 ^ 48) ∧
      rdF (declareRouter s x cause) 0x508 11 8 = cause) ∧
    ((s.flt.caseR ≠ none ∨ s.flt.switchAt ≠ none) → bitOf (rd (declareRouter s x cause) 0x500) 3 = true ∧
      (declareRouter s x cause).flt.switchAt = s.flt.switchAt) := by
  obtain ⟨hcdecl, hcswitch, hcfailed⟩ := rtrCut_spec s x
  obtain ⟨hdecl, hswitch, hrtrs, hflag⟩ := rtrDeclared_spec (rtrCut s x) x cause (nowNs s)
  have heq := declareRouter_eq cause hx hf
  generalize rtrDeclared (rtrCut s x) x cause (nowNs s) = u at hdecl hswitch hrtrs hflag heq
  have hfailed : (getRtr u x).failed = true := (congrArg (fun m : Map Rtr => (mgetD m x {}).failed) hrtrs).trans hcfailed
  rw [hcdecl] at hdecl
  rw [hcswitch] at hswitch
  by_cases hfree : s.flt.caseR = none ∧ s.flt.switchAt = none
  · obtain ⟨hcase, hat⟩ := hfree
    rw [if_neg (by rw [hcase, hat]; decide)] at heq
    rw [heq]
    refine ⟨hfailed, ?_, hdecl, fun _ _ => ⟨rfl, ?_⟩, fun h => ?_⟩
    · rw [rd_wrF, if_neg (by decide)]
      exact hflag
    · rw [rdF_wrF_same _ _ _ (by decide) (by decide)]
      exact Nat.mod_eq_of_lt hcause
    · exact absurd ⟨hcase, hat⟩ (not_and_or.mpr h)
  · have hsecond : (s.flt.caseR.isSome || s.flt.switchAt.isSome) = true := by
      rcases not_and_or.mp hfree with h | h
      · rw [Option.isSome_iff_ne_none.mpr h, Bool.true_or]
      · rw [Option.isSome_iff_ne_none.mpr h, Bool.or_true]
    rw [if_pos hsecond] at heq
    have hnoted := noted_raiseG (setFlag u 0x500 3) 246 0x18B 3 0x183
    rw [heq]
    generalize raiseG (setFlag u 0x500 3) 246 0x18B 3 0x183 = t at hnoted ⊢
    have hflt : t.flt = { u.flt with log := t.flt.log } := by rw [hnoted.whole]; rfl
    have hword : rd t 0x500 = rd (setFlag u 0x500 3) 0x500 := hnoted.words _ (by decide)
    refine ⟨?_, ?_, by rw [hflt]; exact hdecl, fun hcase hat => absurd ⟨hcase, hat⟩ hfree, fun _ => ⟨?_, by rw [hflt]; exact hswitch⟩⟩
    · exact (congrArg (fun m : Map Rtr => (mgetD m x {}).failed) hnoted.rtrs).trans hfailed
    · rw [hword, bitOf_setFlag_ne _ _ _ (by decide)]
      exact hflag
    · rw [hword]
      exact bitOf_setFlag_same _ _ (by decide)

theorem exec_declares {s : State} {c : Instr} {x : RtrId} {cause : Nat}
    (h : (c = .routerHeartbeatLoss x ∧ colClocked s (rtrCol s x.toNat) = true ∧ cause = 1) ∨
      (c = .glbFltDecl .cp (256#32 ||| x.zeroExtend 32) ∧ cause = 4)) : exec c s = answer s (declareRouter s x.toNat cause) := by
  rcases h with ⟨rfl, hon, rfl⟩ | ⟨rfl, rfl⟩
  · exact congrArg (answer s) (if_pos hon)
  · have hword : ∀ y : RtrId, (256#32 ||| y.zeroExtend 32).toNat.testBit 8 = true ∧ (256#32 ||| y.zeroExtend 32).toNat % 64 = y.toNat := by decide
    obtain ⟨hbit, hrtr⟩ := hword x
    refine congrArg (answer s) ((if_pos rfl).trans ((if_pos hbit).trans ?_))
    rw [hrtr]

theorem routerDeclared_completes (s : State) (c : Instr) (x : RtrId) (cause : Nat) (hx : isRtr s x.toNat = true)
    (hf : (getRtr s x.toNat).failed = false) (h : (c = .routerHeartbeatLoss x ∧ colClocked s (rtrCol s x.toNat) = true ∧ cause = 1) ∨
      (c = .glbFltDecl .cp (256#32 ||| x.zeroExtend 32) ∧ cause = 4)) : Completes c s fun t =>
      (getRtr t x.toNat).failed = true ∧ bitOf (rd t 0x500) 0 = true ∧ t.flt.declared = s.flt.declared ++ [(x.toNat, nowNs s)] ∧
      (s.flt.caseR = none → s.flt.switchAt = none → t.flt.switchAt = some (x.toNat, (frameOf s + 2) % 2 ^ 48) ∧ rdF t 0x508 11 8 = cause) ∧
      ((s.flt.caseR ≠ none ∨ s.flt.switchAt ≠ none) → bitOf (rd t 0x500) 3 = true ∧ t.flt.switchAt = s.flt.switchAt) := by
  have hcause : cause < 16 := by rcases h with ⟨-, -, rfl⟩ | ⟨-, rfl⟩ <;> decide
  have hspec := declareRouter_spec hcause hx hf
  have hexec := exec_declares h
  generalize declareRouter s x.toNat cause = t at hspec hexec
  exact completes_of_answered hexec hspec

/-! Wires (18 R388, R389). -/

/-- A write of a far end's wires leaves the routers. -/
theorem updRx_far_rtrs (s : State) (x port : Nat) (f : LinkRx → LinkRx) : (updRx s x port true f).rtrs = s.rtrs := by
  unfold updRx
  rw [if_pos rfl]
  split
  · rfl
  · split <;> rfl

theorem updRx_near (s : State) (x port : Nat) (f : LinkRx → LinkRx) :
    updRx s x port false f = updRtr s x fun r => { r with rx := f r.rx } := if_neg (by decide)

theorem updRx_far_ni {s : State} {x port n : Nat} {alt : Bool} (f : LinkRx → LinkRx) (h : niAtPort s x port = some (n, alt)) :
    updRx s x port true f = updNi s n fun i => { i with rx := f i.rx } := by
  unfold updRx
  rw [if_pos rfl, h]

theorem rxOf_far_ni {s : State} {x port n : Nat} {alt : Bool} (h : niAtPort s x port = some (n, alt)) : rxOf s x port true = (getNi s n).rx := by
  unfold rxOf
  rw [if_pos rfl, h]

theorem rxPort_far_ni {s : State} {x port n : Nat} {alt : Bool} (h : niAtPort s x port = some (n, alt)) : rxPort s x port true = alt.toNat := by
  unfold rxPort
  rw [if_pos rfl, h]

/-- One end of a link with the wire state of a group replaced. -/
def withWire (s : State) (pl : Plane) (x port g : Nat) (far : Bool) (v : Wire) : State :=
  updRx s x port far fun l => { l with wires := mset l.wires (wireKey pl (rxPort s x port far) g) v }

theorem withWire_only (s : State) (pl : Plane) (x port g : Nat) (far : Bool) (v : Wire) : withWire s pl x port g far v =
    { s with nis := (withWire s pl x port g far v).nis, rtrs := (withWire s pl x port g far v).rtrs, spans := (withWire s pl x port g far v).spans } :=
  updRx_only ..

/-- The router's own end: the wire state is there, and the other routers, the NIs and the spans are as before. -/
theorem withWire_near (s : State) (pl : Plane) (x port g : Nat) (v : Wire) :
    mget (getRtr (withWire s pl x port g false v) x).rx.wires (wireKey pl port g) = some v ∧
    (∀ y, y ≠ x → getRtr (withWire s pl x port g false v) y = getRtr s y) ∧
    (getRtr (withWire s pl x port g false v) x).failed = (getRtr s x).failed ∧
    withWire s pl x port g false v = { s with rtrs := (withWire s pl x port g false v).rtrs } := by
  unfold withWire
  rw [updRx_near]
  refine ⟨?_, fun y hy => by rw [getRtr_updRtr, if_neg hy], ?_, rfl⟩
  · rw [getRtr_updRtr, if_pos rfl]
    exact mget_mset_same ..
  · rw [getRtr_updRtr, if_pos rfl]

theorem withWire_far_ni {s : State} {x port n : Nat} {alt : Bool} (pl : Plane) (g : Nat) (v : Wire) (h : niAtPort s x port = some (n, alt)) :
    mget (getNi (withWire s pl x port g true v) n).rx.wires (wireKey pl alt.toNat g) = some v := by
  unfold withWire
  rw [updRx_far_ni _ h, rxPort_far_ni h, getNi_updNi_same]
  exact mget_mset_same ..

/-- The flag and the notification of a wire steered out. -/
def wireNoted (s : State) (pl : Plane) (x port g : Nat) (far : Bool) (wire : Nat) : State :=
  raiseG (setFlag (if far then s else evRtr s x 31 1) (aRtr x 0xC8) 1) (136 + x) 0x180 1 (wireInfo pl port g wire)

theorem wireNoted_spec (s : State) (pl : Plane) {x : Nat} (hx : x < 64) (port g : Nat) (far : Bool) (wire : Nat) :
    (wireNoted s pl x port g far wire).gen = s.gen ∧ (wireNoted s pl x port g far wire).time = s.time ∧
    (wireNoted s pl x port g far wire).rtrs = s.rtrs ∧
    (∀ m, SameNi s (wireNoted s pl x port g far wire) m) ∧
    rd (wireNoted s pl x port g far wire) (aRtr x 0xC8) = rd s (aRtr x 0xC8) ||| 2#64 ∧
    NotedBut [aRtr x 0xC8] s (wireNoted s pl x port g far wire) := by
  have hfree : noteWord (aRtr x 0xC8) = false := noteWord_aRtr hx (by decide)
  have hev : Noted s (if far then s else evRtr s x 31 1) := by
    split
    · exact .refl s
    · exact bump_noted s 1 (by omega)
  unfold wireNoted
  generalize (if far then s else evRtr s x 31 1) = u at hev ⊢
  have hnoted := noted_raiseG (setFlag u (aRtr x 0xC8) 1) (136 + x) 0x180 1 (wireInfo pl port g wire)
  generalize raiseG _ (136 + x) 0x180 1 _ = t at hnoted ⊢
  have hu := hev.whole
  have ht := hnoted.whole
  have hgen : t.gen = u.gen := by rw [ht]; rfl
  have htime : t.time = u.time := by rw [ht]; rfl
  refine ⟨hgen.trans (by rw [hu]), htime.trans (by rw [hu]), hnoted.rtrs.trans hev.rtrs, fun m => ?_, ?_, fun a ha hn => ?_⟩
  · exact SameNi.trans (hev.nis m) (hnoted.nis m)
  · rw [hnoted.words _ hfree, rd_setFlag, if_pos rfl, hev.words _ hfree]
    rfl
  · rw [hnoted.words _ hn, rd_setFlag, if_neg (by simpa using ha), hev.words _ hn]

theorem wireSteerAt_due {s : State} {pl : Plane} {x port g : Nat} {far : Bool} {w : Wire} {f wire : Nat} (hfailed : (getRtr s x).failed = false)
    (hw : w = mgetD (rxOf s x port far).wires (wireKey pl (rxPort s x port far) g) {}) (hdue : w.due = some (f, wire))
    (hge : frameGe (frameOf s) f = true) : wireSteerAt s pl x port g far =
      wireNoted (withWire s pl x port g far { w with due := none, steered := some wire, count := 0 }) pl x port g far wire := by
  subst hw
  unfold wireSteerAt
  dsimp only
  rw [hdue]
  exact (if_neg (by rw [hge]; decide)).trans (if_neg (by rw [hfailed]; decide))

/-- Without a failure, an end either stays as it is or has a wire steered out. -/
theorem wireSteerAt_cases {s : State} (pl : Plane) {x : Nat} (port g : Nat) (far : Bool) (hfailed : (getRtr s x).failed = false) :
    wireSteerAt s pl x port g far = s ∨
    ∃ v wire, wireSteerAt s pl x port g far = wireNoted (withWire s pl x port g far v) pl x port g far wire := by
  rcases hdue : (mgetD (rxOf s x port far).wires (wireKey pl (rxPort s x port far) g) {}).due with _ | ⟨f, wire⟩
  · refine .inl ?_
    unfold wireSteerAt
    dsimp only
    rw [hdue]
  · by_cases hge : frameGe (frameOf s) f = true
    · exact .inr ⟨_, wire, wireSteerAt_due hfailed rfl hdue hge⟩
    · refine .inl ?_
      unfold wireSteerAt
      dsimp only
      rw [hdue]
      exact if_pos (by simp [hge])

/-- The frame depends on the time alone. -/
theorem frameOf_congr {s t : State} (h : t.time = s.time) : frameOf t = frameOf s := by
  unfold frameOf nowNs
  rw [h]

/-- The words of a router that hold the placement are neither its flags nor any that notifications write (05 Table 05.13). -/
theorem homeAt_steered {s t : State} {x n : Nat} (hx : x < 64) (hn : n < 128) (h : NotedBut [aRtr x 0xC8] s t) : homeAt t x n = homeAt s x n := by
  have haddr : aRtr x (0x200 + 4 * n) - aRtr x (0x200 + 4 * n) % 8 = aRtr x (0x200 + 4 * n - 4 * n % 8) := by unfold aRtr; omega
  have hword : rd t (aRtr x (0x200 + 4 * n - 4 * n % 8)) = rd s (aRtr x (0x200 + 4 * n - 4 * n % 8)) :=
    h _ (by rw [List.mem_singleton, aRtr_inj]; omega) (noteWord_aRtr hx (by omega))
  simp only [homeAt, rdBytes, haddr, hword]

theorem lt_of_mem_niList {s : State} {n : Nat} (h : n ∈ niList s) : n < 128 := by
  have hep : nEpNis s ≤ 120 := by
    unfold nEpNis
    split <;> decide
  have hrinks := nRinks_le s
  rcases List.mem_append.mp h with h | h
  · have := List.mem_range.mp h
    omega
  · obtain ⟨b, hb, rfl⟩ := List.mem_map.mp h
    have := List.mem_range.mp hb
    omega

theorem findSome?_eq {α β : Type} {f g : α → Option β} {l : List α} (h : ∀ a ∈ l, f a = g a) : l.findSome? f = l.findSome? g := by
  induction l with
  | nil => rfl
  | cons a l ih => rw [List.findSome?_cons, List.findSome?_cons, h a List.mem_cons_self, ih fun b hb => h b (List.mem_cons_of_mem a hb)]

theorem niAtPort_steered {s t : State} {x : Nat} (hx : x < 64) (hgen : t.gen = s.gen) (h : NotedBut [aRtr x 0xC8] s t) (port : Nat) :
    niAtPort t x port = niAtPort s x port := by
  have hlist : niList t = niList s := by unfold niList nEpNis nRinks; rw [hgen]
  unfold niAtPort
  rw [hlist]
  refine findSome?_eq fun n hn => ?_
  rw [homeAt_steered hx (lt_of_mem_niList hn) h]

/-- What an end of a link that steers a wire out leaves: the time, what was generated, the router's failure, and the NIs when it is the router's own. -/
theorem wireSteerAt_near {s : State} (pl : Plane) {x : Nat} (hx : x < 64) (port g : Nat) (hfailed : (getRtr s x).failed = false) :
    (wireSteerAt s pl x port g false).gen = s.gen ∧ (wireSteerAt s pl x port g false).time = s.time ∧
    (getRtr (wireSteerAt s pl x port g false) x).failed = false ∧ (∀ m, SameNi s (wireSteerAt s pl x port g false) m) ∧
    NotedBut [aRtr x 0xC8] s (wireSteerAt s pl x port g false) := by
  rcases wireSteerAt_cases pl port g false hfailed with h | ⟨v, wire, h⟩
  · rw [h]
    exact ⟨rfl, rfl, hfailed, fun m => .refl s m, fun _ _ _ => rfl⟩
  · rw [h]
    obtain ⟨-, -, hkept, hwhole⟩ := withWire_near s pl x port g v
    generalize withWire s pl x port g false v = u at hkept hwhole
    obtain ⟨hgen, htime, hrtrs, hnis, -, hwords⟩ := wireNoted_spec u pl hx port g false wire
    generalize wireNoted u pl x port g false wire = t at hgen htime hrtrs hnis hwords
    have hregs : ∀ a, rd u a = rd s a := fun a => by rw [hwhole]; rfl
    refine ⟨hgen.trans (by rw [hwhole]), htime.trans (by rw [hwhole]), ?_, fun m => ?_, fun a ha hn => (hwords a ha hn).trans (hregs a)⟩
    · exact (congrArg Rtr.failed (getRtr_congr hrtrs x)).trans (hkept.trans hfailed)
    · have hsame : SameNi s u m := by rw [hwhole]; exact .refl s m
      exact hsame.trans (hnis m)

/-- The far end leaves the routers, and of their words the flag that it sets itself. -/
theorem wireSteerAt_far {s : State} (pl : Plane) {x : Nat} (hx : x < 64) (port g : Nat) (hfailed : (getRtr s x).failed = false) :
    (wireSteerAt s pl x port g true).rtrs = s.rtrs ∧
    rd (wireSteerAt s pl x port g true) (aRtr x 0xC8) ||| 2#64 = rd s (aRtr x 0xC8) ||| 2#64 ∧
    (rd s (aRtr x 0xC8) ||| 2#64 = rd s (aRtr x 0xC8) → rd (wireSteerAt s pl x port g true) (aRtr x 0xC8) = rd s (aRtr x 0xC8)) ∧
    NotedBut [aRtr x 0xC8] s (wireSteerAt s pl x port g true) := by
  rcases wireSteerAt_cases pl port g true hfailed with h | ⟨v, wire, h⟩
  · rw [h]
    exact ⟨rfl, rfl, fun _ => rfl, fun _ _ _ => rfl⟩
  · rw [h]
    have hrtrs : (withWire s pl x port g true v).rtrs = s.rtrs := updRx_far_rtrs ..
    have hwhole := withWire_only s pl x port g true v
    generalize withWire s pl x port g true v = u at hrtrs hwhole
    obtain ⟨-, -, hnoted, -, hflag, hwords⟩ := wireNoted_spec u pl hx port g true wire
    generalize wireNoted u pl x port g true wire = t at hnoted hflag hwords
    have hregs : ∀ a, rd u a = rd s a := fun a => by rw [hwhole]; rfl
    rw [hregs] at hflag
    refine ⟨hnoted.trans hrtrs, ?_, fun heq => hflag.trans heq, fun a ha hn => (hwords a ha hn).trans (hregs a)⟩
    rw [hflag, BitVec.or_assoc, BitVec.or_self]

/-- Both ends of a link have had their turn to steer a wire out. -/
def linkSteered (s : State) (pl : Plane) (x port g : Nat) : State :=
  if farEnd s x port then wireSteerAt (wireSteerAt s pl x port g false) pl x port g true else wireSteerAt s pl x port g false

/-- Both ends of a link have had their turn to restart a count. -/
def linkRestarted (s : State) (pl : Plane) (x port g : Nat) : State :=
  if farEnd s x port then wireCountEnd (wireCountEnd s pl x port g false) pl x port g true else wireCountEnd s pl x port g false

theorem exec_wireSteer {s : State} {pl : Plane} {x : RtrId} {port : BitVec 4} {g : BitVec 3} (h : wireExists s x.toNat port.toNat = true) :
    exec (.wireSteer pl x port g) s =
      answer s (linkSteered s pl x.toNat port.toNat g.toNat) :=
  congrArg (answer s) (if_pos h)

theorem exec_wireCountExpire {s : State} {pl : Plane} {x : RtrId} {port : BitVec 4} {g : BitVec 3} (h : wireExists s x.toNat port.toNat = true) :
    exec (.wireCountExpire pl x port g) s =
      answer s (linkRestarted s pl x.toNat port.toNat g.toNat) :=
  congrArg (answer s) (if_pos h)

/-- The router's own wire is steered out, whatever the far end does. -/
theorem linkSteered_own {s : State} {pl : Plane} {x port g f wire : Nat} {w : Wire} (hx : x < 64) (hfailed : (getRtr s x).failed = false)
    (hw : w = mgetD (getRtr s x).rx.wires (wireKey pl port g) {}) (hdue : w.due = some (f, wire)) (hge : frameGe (frameOf s) f = true) :
    mget (getRtr (linkSteered s pl x port g) x).rx.wires (wireKey pl port g) =
      some { w with due := none, steered := some wire, count := 0 } ∧
    rd (linkSteered s pl x port g) (aRtr x 0xC8) = rd s (aRtr x 0xC8) ||| 2#64 ∧
    NotedBut [aRtr x 0xC8] s (linkSteered s pl x port g) ∧
    ∀ y, y ≠ x → getRtr (linkSteered s pl x port g) y = getRtr s y := by
  have hnear := wireSteerAt_due (pl := pl) (port := port) (g := g) (far := false) hfailed hw hdue hge
  obtain ⟨hwire, hother, hkept, hwhole⟩ := withWire_near s pl x port g { w with due := none, steered := some wire, count := 0 }
  generalize withWire s pl x port g false { w with due := none, steered := some wire, count := 0 } = u at *
  obtain ⟨-, -, hrtrs, -, hflag, hwords⟩ := wireNoted_spec u pl hx port g false wire
  rw [← hnear] at hrtrs hflag hwords
  have hregs : ∀ a, rd u a = rd s a := fun a => by rw [hwhole]; rfl
  have hfail : (getRtr (wireSteerAt s pl x port g false) x).failed = false :=
    (congrArg Rtr.failed (getRtr_congr hrtrs x)).trans (hkept.trans hfailed)
  unfold linkSteered
  generalize wireSteerAt s pl x port g false = t at *
  rw [hregs] at hflag
  have hdone : mget (getRtr t x).rx.wires (wireKey pl port g) = some { w with due := none, steered := some wire, count := 0 } ∧
      rd t (aRtr x 0xC8) = rd s (aRtr x 0xC8) ||| 2#64 ∧ NotedBut [aRtr x 0xC8] s t ∧ ∀ y, y ≠ x → getRtr t y = getRtr s y :=
    ⟨by rw [getRtr_congr hrtrs]; exact hwire, hflag, fun a ha hn => (hwords a ha hn).trans (hregs a),
      fun y hy => (getRtr_congr hrtrs y).trans (hother y hy)⟩
  split
  · obtain ⟨hfrtrs, -, hfflag, hfwords⟩ := wireSteerAt_far pl hx port g hfail
    obtain ⟨hd, hdflag, hdwords, hdother⟩ := hdone
    refine ⟨by rw [getRtr_congr hfrtrs]; exact hd, ?_, fun a ha hn => (hfwords a ha hn).trans (hdwords a ha hn),
      fun y hy => (getRtr_congr hfrtrs y).trans (hdother y hy)⟩
    rw [hfflag (by rw [hdflag, BitVec.or_assoc, BitVec.or_self]), hdflag]
  · exact hdone

/-- The wire of the NI at the far end is steered out, whatever the router's own end does. -/
theorem linkSteered_ni {s : State} {pl : Plane} {x port g f wire n : Nat} {alt : Bool} {w : Wire} (hx : x < 64)
    (hfailed : (getRtr s x).failed = false) (hni : niAtPort s x port = some (n, alt))
    (hw : w = mgetD (getNi s n).rx.wires (wireKey pl alt.toNat g) {}) (hdue : w.due = some (f, wire)) (hge : frameGe (frameOf s) f = true) :
    mget (getNi (linkSteered s pl x port g) n).rx.wires (wireKey pl alt.toNat g) =
      some { w with due := none, steered := some wire, count := 0 } := by
  obtain ⟨hgen, htime, hfail, hnis, hwords⟩ := wireSteerAt_near pl hx port g hfailed
  have hfar : farEnd s x port = true := by
    unfold farEnd
    rw [hni]
    rfl
  unfold linkSteered
  rw [if_pos hfar]
  generalize wireSteerAt s pl x port g false = u at hgen htime hfail hnis hwords
  have hniU : niAtPort u x port = some (n, alt) := (niAtPort_steered hx hgen hwords port).trans hni
  have hrx : (getNi u n).rx = (getNi s n).rx := by rw [hnis n]
  have hwU : w = mgetD (rxOf u x port true).wires (wireKey pl (rxPort u x port true) g) {} := by
    rw [rxOf_far_ni hniU, rxPort_far_ni hniU, hrx]
    exact hw
  rw [wireSteerAt_due hfail hwU hdue (by rw [frameOf_congr htime]; exact hge)]
  have hput := withWire_far_ni (s := u) pl g { w with due := none, steered := some wire, count := 0 } hniU
  generalize withWire u pl x port g true { w with due := none, steered := some wire, count := 0 } = v at hput ⊢
  obtain ⟨-, -, -, hsame, -⟩ := wireNoted_spec v pl hx port g true wire
  rw [hsame n]
  exact hput

/-- A count at one end restarts, or that end stays as it is. -/
theorem wireCountEnd_cases (s : State) (pl : Plane) (x port g : Nat) (far : Bool) : wireCountEnd s pl x port g far = s ∨
    ∃ v, wireCountEnd s pl x port g far = withWire s pl x port g far v := by
  by_cases h : (mgetD (rxOf s x port far).wires (wireKey pl (rxPort s x port far) g) {}).count ≠ 0 ∧
      (mgetD (rxOf s x port far).wires (wireKey pl (rxPort s x port far) g) {}).due.isNone ∧
      wsWin s ≤ subMod 48 (frameOf s) (mgetD (rxOf s x port far).wires (wireKey pl (rxPort s x port far) g) {}).since
  · exact .inr ⟨_, if_pos h⟩
  · exact .inl (if_neg h)

theorem linkRestarted_own {s : State} {pl : Plane} {x port g : Nat} {w : Wire} (hw : w = mgetD (getRtr s x).rx.wires (wireKey pl port g) {})
    (hcount : w.count ≠ 0) (hdue : w.due = none) (hwin : wsWin s ≤ subMod 48 (frameOf s) w.since) :
    mget (getRtr (linkRestarted s pl x port g) x).rx.wires (wireKey pl port g) = some { w with count := 0 } ∧
    (∀ y, y ≠ x → getRtr (linkRestarted s pl x port g) y = getRtr s y) ∧
    (linkRestarted s pl x port g = { s with
      rtrs := (linkRestarted s pl x port g).rtrs
      nis := (linkRestarted s pl x port g).nis
      spans := (linkRestarted s pl x port g).spans }) ∧
    (farEnd s x port = false → linkRestarted s pl x port g = { s with
      rtrs := (linkRestarted s pl x port g).rtrs }) := by
  have hnear : wireCountEnd s pl x port g false = withWire s pl x port g false { w with count := 0 } := by
    subst hw
    exact if_pos ⟨hcount, by rw [Option.isNone_iff_eq_none]; exact hdue, hwin⟩
  obtain ⟨hwire, hother, -, hwhole⟩ := withWire_near s pl x port g { w with count := 0 }
  rw [← hnear] at hwire hother hwhole
  unfold linkRestarted
  generalize wireCountEnd s pl x port g false = u at *
  by_cases hfar : farEnd s x port = true
  · rw [if_pos hfar]
    rcases wireCountEnd_cases u pl x port g true with h | ⟨v, h⟩
    · rw [h]
      exact ⟨hwire, hother, by rw [hwhole], fun hno => absurd (hno.symm.trans hfar) (by decide)⟩
    · rw [h]
      have hrtrs : (withWire u pl x port g true v).rtrs = u.rtrs := updRx_far_rtrs ..
      have honly := withWire_only u pl x port g true v
      generalize withWire u pl x port g true v = t at hrtrs honly
      refine ⟨by rw [getRtr_congr hrtrs]; exact hwire, fun y hy => (getRtr_congr hrtrs y).trans (hother y hy), ?_,
        fun hno => absurd (hno.symm.trans hfar) (by decide)⟩
      rw [honly, hwhole]
  · rw [if_neg hfar]
    exact ⟨hwire, hother, by rw [hwhole], fun _ => by rw [← hwhole]⟩

theorem wires_complete (s : State) (pl : Plane) (x : RtrId) (port : BitVec 4) (g : BitVec 3) (k f wire : Nat) (w : Wire)
    (hk : k = wireKey pl port.toNat g.toNat) (hw : w = mgetD (getRtr s x.toNat).rx.wires k {}) (hexists : wireExists s x.toNat port.toNat = true) :
    (w.due = some (f, wire) → frameGe (frameOf s) f = true → (getRtr s x.toNat).failed = false → Completes (.wireSteer pl x port g) s fun t =>
      mget (getRtr t x.toNat).rx.wires k = some { w with due := none, steered := some wire, count := 0 } ∧
      rd t (aRtr x.toNat 0xC8) = rd s (aRtr x.toNat 0xC8) ||| 2#64 ∧ NotedBut [aRtr x.toNat 0xC8] s t ∧
      ∀ y, y ≠ x.toNat → getRtr t y = getRtr s y) ∧
    (w.count ≠ 0 → w.due = none → wsWin s ≤ subMod 48 (frameOf s) w.since → Completes (.wireCountExpire pl x port g) s fun t =>
      mget (getRtr t x.toNat).rx.wires k = some { w with count := 0 } ∧ (∀ y, y ≠ x.toNat → getRtr t y = getRtr s y) ∧
      t = { s with rtrs := t.rtrs, nis := t.nis, spans := t.spans } ∧ (farEnd s x.toNat port.toNat = false → t = { s with rtrs := t.rtrs })) ∧
    (∀ n alt u, niAtPort s x.toNat port.toNat = some (n, alt) → u = mgetD (getNi s n).rx.wires (wireKey pl alt.toNat g.toNat) {} →
      u.due = some (f, wire) → frameGe (frameOf s) f = true → (getRtr s x.toNat).failed = false → Completes (.wireSteer pl x port g) s fun t =>
        mget (getNi t n).rx.wires (wireKey pl alt.toNat g.toNat) = some { u with due := none, steered := some wire, count := 0 }) := by
  subst hk
  refine ⟨fun hdue hge hfailed => ?_, fun hcount hdue hwin => ?_, fun n alt u hni hu hdue hge hfailed => ?_⟩
  · exact completes_of_answered (exec_wireSteer hexists) (linkSteered_own x.isLt hfailed hw hdue hge)
  · have hspec := linkRestarted_own hw hcount hdue hwin
    have hexec := exec_wireCountExpire (pl := pl) (g := g) hexists
    generalize linkRestarted s pl x.toNat port.toNat g.toNat = t at hspec hexec
    obtain ⟨hwire, hother, hwhole, hnear⟩ := hspec
    exact completes_of_answer hexec (by rw [hwhole]) (by rw [hwhole]) (by rw [hwhole]) ⟨hwire, hother, hwhole, hnear⟩
  · exact completes_of_answered (exec_wireSteer hexists) (linkSteered_ni x.isLt hfailed hni hu hdue hge)

/-! RTE_HOME follows (18 R395). -/

/-- RTE_HOME's entry of NI n at router y holds the up bits of what s finds present. -/
def HomeSet (s : State) (n y : Nat) (t : State) : Prop :=
  bitOf (rd t (aRtr y (0x200 + 4 * n) / 8 * 8)) (32 * (n % 2) + 31) = attPresent s y n false ∧
  bitOf (rd t (aRtr y (0x200 + 4 * n) / 8 * 8)) (32 * (n % 2) + 30) = attPresent s y n true

theorem bitOf_wrF_one (s : State) (a b i j : Nat) (v : Bool) (hi : i < 64) : bitOf (rd (wrF s a i i v.toNat) b) j =
    if b = a ∧ j = i then v else bitOf (rd s b) j := by
  rw [rd_wrF]
  by_cases hb : b = a
  · rw [if_pos hb, bitOf, getLsbD_setFld]
    by_cases hj : j = i
    · rw [if_pos (by omega), if_pos ⟨hb, hj⟩, hj, decide_eq_true hi, Nat.sub_self]
      cases v <;> rfl
    · rw [if_neg (by omega), if_neg fun h => hj h.2, hb]
      rfl
  · rw [if_neg hb, if_neg fun h => hb h.1]

/-- The entry's two bits after a write of the entry of NI m at router z. -/
theorem bitOf_setHomeAt (t : State) (m z b j : Nat) : bitOf (rd (setHomeAt t m z) b) j =
    if b = aRtr z (0x200 + 4 * m) / 8 * 8 ∧ j = 32 * (m % 2) + 30 then attPresent t z m true
    else if b = aRtr z (0x200 + 4 * m) / 8 * 8 ∧ j = 32 * (m % 2) + 31 then attPresent t z m false
    else bitOf (rd t b) j := by
  unfold setHomeAt
  rw [bitOf_wrF_one _ _ _ _ _ _ (by omega), bitOf_wrF_one _ _ _ _ _ _ (by omega)]

theorem setHomeAt_whole (t : State) (m z : Nat) : setHomeAt t m z = { t with regs := (setHomeAt t m z).regs } := rfl

/-- What is present does not depend on the register words. -/
theorem attPresent_congr {s t : State} (h : t = { s with regs := t.regs }) (y n : Nat) (alt : Bool) : attPresent t y n alt = attPresent s y n alt := by
  rw [h]
  rfl

theorem homeSet_setHomeAt {s t : State} (h : t = { s with regs := t.regs }) (n y : Nat) : HomeSet s n y (setHomeAt t n y) := by
  refine ⟨?_, ?_⟩
  · rw [bitOf_setHomeAt, if_neg (by omega), if_pos ⟨rfl, rfl⟩, attPresent_congr h]
  · rw [bitOf_setHomeAt, if_pos ⟨rfl, rfl⟩, attPresent_congr h]

/-- The entries of other NIs and routers are other bits. -/
theorem homeSet_kept {s t : State} (h : t = { s with regs := t.regs }) {n m y z : Nat} (hn : n < 128) (hm : m < 128) (hset : HomeSet s n y t) :
    HomeSet s n y (setHomeAt t m z) := by
  have hsame : ∀ i, i ≤ 1 → aRtr y (0x200 + 4 * n) / 8 * 8 = aRtr z (0x200 + 4 * m) / 8 * 8 → 32 * (n % 2) + 30 + i = 32 * (m % 2) + 30 + i →
      z = y ∧ m = n := fun i hi haddr hbit => by
    unfold aRtr at haddr
    omega
  by_cases hsame : z = y ∧ m = n
  · obtain ⟨rfl, rfl⟩ := hsame
    exact homeSet_setHomeAt h m z
  · obtain ⟨hprim, halt⟩ := hset
    have hother : ∀ i, i ≤ 1 → ¬(aRtr y (0x200 + 4 * n) / 8 * 8 = aRtr z (0x200 + 4 * m) / 8 * 8 ∧ 32 * (n % 2) + 30 + i = 32 * (m % 2) + 30 + i) :=
      fun i hi ⟨haddr, hbit⟩ => hsame (by unfold aRtr at haddr; omega)
    refine ⟨?_, ?_⟩
    · rw [bitOf_setHomeAt, if_neg (by omega), if_neg (hother 1 (by decide)), hprim]
    · rw [bitOf_setHomeAt, if_neg (hother 0 (by decide)), if_neg (by omega), halt]

theorem regs_trans {s t u : State} (h : t = { s with regs := t.regs }) (k : u = { t with regs := u.regs }) : u = { s with regs := u.regs } := by
  rw [k, h]

theorem setHome_whole (s : State) (m : Nat) : setHome s m = { s with regs := (setHome s m).regs } :=
  foldl_keeps (f := fun t z => setHomeAt t m z) (I := fun _ => True) (P := fun t => t = { s with regs := t.regs }) (fun _ _ _ _ => trivial)
    (fun t z _ _ h => regs_trans h (setHomeAt_whole t m z)) trivial rfl

theorem setHome_keeps {s t : State} {n m y : Nat} (hn : n < 128) (hm : m < 128) (h : t = { s with regs := t.regs }) (hset : HomeSet s n y t) :
    HomeSet s n y (setHome t m) :=
  foldl_keeps (f := fun u z => setHomeAt u m z) (I := fun u => u = { s with regs := u.regs }) (P := HomeSet s n y)
    (fun u z _ hu => regs_trans hu (setHomeAt_whole u m z)) (fun _ _ _ hu hset => homeSet_kept hu hn hm hset) h hset

theorem setHome_sets {s t : State} {n y : Nat} (hn : n < 128) (h : t = { s with regs := t.regs }) (hy : isRtr s y = true)
    (hcol : leavingCol s (rtrCol s y) = false) : HomeSet s n y (setHome t n) := by
  have hmem : y ∈ (List.range (nRtrs t)).filter fun z => !leavingCol t (rtrCol t z) := by
    rw [h]
    exact List.mem_filter.mpr ⟨List.mem_range.mpr (of_decide_eq_true hy), by rw [Bool.not_eq_true']; exact hcol⟩
  exact foldl_establishes (f := fun u z => setHomeAt u n z) (I := fun u => u = { s with regs := u.regs }) (P := HomeSet s n y)
    (fun u z _ hu => regs_trans hu (setHomeAt_whole u n z)) (fun _ _ _ hu hset => homeSet_kept hu hn hn hset)
    (fun _ hu => homeSet_setHomeAt hu n y) hmem h

/-- Every NI of a router has its entries set, at every router that is not being left. -/
theorem rtrHomes_set (s : State) {x n y : Nat} (hn : n ∈ rtrNis s x) (hy : isRtr s y = true) (hcol : leavingCol s (rtrCol s y) = false) :
    HomeSet s n y ((rtrNis s x).foldl setHome s) := by
  have hlt : ∀ m ∈ rtrNis s x, m < 128 := fun m hm => lt_of_mem_niList (List.mem_of_mem_filter hm)
  exact foldl_establishes (I := fun u => u = { s with regs := u.regs }) (P := HomeSet s n y) (fun u m _ hu => regs_trans hu (setHome_whole u m))
    (fun _ m hm hu hset => setHome_keeps (hlt n hn) (hlt m hm) hu hset) (fun _ hu => setHome_sets (hlt n hn) hu hy hcol) hn rfl

theorem rtrHomes_whole (s : State) (l : List Nat) : l.foldl setHome s = { s with regs := (l.foldl setHome s).regs } :=
  foldl_keeps (I := fun _ => True) (P := fun t => t = { s with regs := t.regs }) (fun _ _ _ _ => trivial)
    (fun t m _ _ h => regs_trans h (setHome_whole t m)) trivial rfl

theorem rehome_completes (s : State) (x u : Nat) (h : s.flt.declared = [(x, u)]) : Completes .rehomeDone s fun t => t.flt.declared = [] ∧
    ∀ n y, n ∈ rtrNis s x → isRtr s y = true → leavingCol s (rtrCol s y) = false →
      bitOf (rd t (aRtr y (0x200 + 4 * n) / 8 * 8)) (32 * (n % 2) + 31) = attPresent s y n false ∧
      bitOf (rd t (aRtr y (0x200 + 4 * n) / 8 * 8)) (32 * (n % 2) + 30) = attPresent s y n true := by
  have hexec : exec .rehomeDone s = answer s (rehome { s with flt := { s.flt with declared := [] } } x) := by
    have harm : exec .rehomeDone s = execRehomeDone s := rfl
    rw [harm, execRehomeDone, h, List.foldl_cons, List.foldl_nil]
  have hlist : rtrNis { s with flt := { s.flt with declared := [] } } x = rtrNis s x := rfl
  have hpresent : ∀ y n alt, attPresent { s with flt := { s.flt with declared := [] } } y n alt = attPresent s y n alt := fun _ _ _ => rfl
  have hleft : ∀ y, isRtr s y = true → leavingCol s (rtrCol s y) = false → isRtr { s with flt := { s.flt with declared := [] } } y = true ∧
      leavingCol { s with flt := { s.flt with declared := [] } } (rtrCol { s with flt := { s.flt with declared := [] } } y) = false :=
    fun _ hy hcol => ⟨hy, hcol⟩
  have hgen : ({ s with flt := { s.flt with declared := [] } } : State).gen = s.gen ∧
      ({ s with flt := { s.flt with declared := [] } } : State).pending = s.pending ∧
      ({ s with flt := { s.flt with declared := [] } } : State).lcs = s.lcs ∧
      ({ s with flt := { s.flt with declared := [] } } : State).flt.declared = [] := ⟨rfl, rfl, rfl, rfl⟩
  generalize ({ s with flt := { s.flt with declared := [] } } : State) = r at *
  have hset : ∀ n y, n ∈ rtrNis s x → isRtr s y = true → leavingCol s (rtrCol s y) = false → HomeSet r n y ((rtrNis r x).foldl setHome r) :=
    fun n y hn hy hcol => rtrHomes_set r (hlist ▸ hn) (hleft y hy hcol).1 (hleft y hy hcol).2
  have hwhole := rtrHomes_whole r (rtrNis r x)
  unfold rehome at hexec
  generalize (rtrNis r x).foldl setHome r = t at hset hwhole hexec
  have hnoted := noted_raiseG t 246 0x184 0 x
  generalize raiseG t 246 0x184 0 x = v at hnoted hexec
  obtain ⟨hgen, hpending, hlcs, hdecl⟩ := hgen
  have hv := hnoted.whole
  refine completes_of_answer hexec (by rw [hv, hwhole, hgen]) (by rw [hv, hwhole, hpending]) (by rw [hv, hwhole, hlcs]) ⟨?_, fun n y hn hy hcol => ?_⟩
  · rw [hv, hwhole]
    exact hdecl
  · obtain ⟨hprim, halt⟩ := hset n y hn hy hcol
    rw [hpresent] at hprim halt
    have hlt := lt_of_mem_niList (List.mem_of_mem_filter hn)
    have hy64 : y < 64 := by
      have := of_decide_eq_true hy
      have := nRtrs_le s
      omega
    have hword : rd v (aRtr y (0x200 + 4 * n) / 8 * 8) = rd t (aRtr y (0x200 + 4 * n) / 8 * 8) := by
      have haddr : aRtr y (0x200 + 4 * n) / 8 * 8 = aRtr y ((0x200 + 4 * n) / 8 * 8) := by unfold aRtr; omega
      refine hnoted.words _ ?_
      rw [haddr]
      exact noteWord_aRtr hy64 (by omega)
    exact ⟨(congrArg (fun w => bitOf w (32 * (n % 2) + 31)) hword).trans hprim, (congrArg (fun w => bitOf w (32 * (n % 2) + 30)) hword).trans halt⟩

/-! A restore and its self-test (18 R398). -/

theorem fltRestore_flt (s : State) (c : Nat) : ((colRtrs s c).foldl freshLinks (rtrFlags (loseRegion s 0 c) c)).flt = s.flt := by
  have hwords : ∀ (t : State) (base size : Nat) (p : Nat → Bool), (wordsReset t base size p).flt = t.flt := fun t base size p =>
    Keeps.foldl (g := State.flt) (f := fun u a => wr u a (imgWord u a)) (fun _ _ _ => rfl) t
  have hlose : (loseRegion s 0 c).flt = s.flt :=
    Keeps.foldl (g := State.flt) (l := colRtrs s c) (fun t x _ => hwords (updRtr t x _) (aRtr x 0) 0x1000 rtrLosesWord) s
  have hflags : (rtrFlags (loseRegion s 0 c) c).flt = (loseRegion s 0 c).flt :=
    Keeps.foldl (g := State.flt) (fun t x _ => hwords t (aRtr x 0) 0x1000 fun off => off == 0x10 || off == 0xC8) _
  have hlinks : ∀ t x, (freshLinks t x).flt = t.flt := fun t x => Keeps.foldl (g := State.flt) (fun u port _ => by
    unfold Keeps
    split <;> rfl) t
  have hfold := Keeps.foldl (g := State.flt) (l := colRtrs s c) (fun t x _ => hlinks t x) (rtrFlags (loseRegion s 0 c) c)
  exact Eq.trans hfold (hflags.trans hlose)

theorem restore_completes (s : State) :
    (∀ x, s.flt.caseR = some x → s.flt.bist = none → s.flt.restoreAt = none → Completes (.glbFltRestore .cp 1) s fun t =>
      t.flt.bist = some x ∧ t.flt.caseR = some x) ∧
    (s.flt.caseR = none → Completes (.glbFltRestore .cp 1) s fun t => t = s) ∧
    (∀ x pass, s.flt.bist = some x → Completes (.routerBistDone pass) s fun t => t = { s with flt := { s.flt with
      bist := none, restoreAt := if pass then some ((frameOf s + 2) % 2 ^ 48) else none } }) := by
  have hexec : exec (.glbFltRestore .cp 1) s = answer s (fltRestore s 1) := congrArg (answer s) (if_pos rfl)
  refine ⟨fun x hcase hbist hat => ?_, fun hcase => ?_, fun x pass hbist => ?_⟩
  · have hflt := fltRestore_flt s (rtrCol s x)
    have hres : fltRestore s 1 = { (colRtrs s (rtrCol s x)).foldl freshLinks (rtrFlags (loseRegion s 0 (rtrCol s x)) (rtrCol s x)) with
        flt := { ((colRtrs s (rtrCol s x)).foldl freshLinks (rtrFlags (loseRegion s 0 (rtrCol s x)) (rtrCol s x))).flt with bist := some x } } := by
      unfold fltRestore
      rw [hcase]
      exact if_pos ⟨by decide, by rw [hbist]; rfl, by rw [hat]; rfl⟩
    rw [hres] at hexec
    generalize (colRtrs s (rtrCol s x)).foldl freshLinks (rtrFlags (loseRegion s 0 (rtrCol s x)) (rtrCol s x)) = t at hflt hexec
    exact completes_of_answered hexec ⟨rfl, (congrArg Flt.caseR hflt).trans hcase⟩
  · have hres : fltRestore s 1 = s := by
      unfold fltRestore
      rw [hcase]
    exact completes_of_eq_self (hexec.trans (congrArg (answer s) hres))
  · exact completes_of_answer (congrArg (answer s) (if_neg (by rw [hbist]; exact Bool.false_ne_true))) rfl rfl rfl rfl

/-! Rows (18 R401, R402). -/

theorem noted_rowNote (s : State) (kind unit row code sev : Nat) : Noted s (rowNote s kind unit row code sev) := by
  unfold rowNote
  dsimp only
  split
  · exact (routeNote_noteOnly ..).noted
  · exact noted_raiseG ..

/-- The key of a row's count. -/
def rowKey (kind unit row : Nat) : Nat := (kind * 256 + unit) * 2 ^ 24 + row

/-- The row has its spare row, and its count is gone. -/
def rowSpared (s : State) (kind unit row : Nat) : State :=
  { s with flt := { s.flt with rowMap := s.flt.rowMap ++ [(kind, unit, row)], rowErrs := mdel s.flt.rowErrs (rowKey kind unit row) } }

/-- A spared row of the extent table is copied to its spare row. -/
def rowCopied (s : State) (kind unit row used : Nat) : State :=
  if kind = 0 then
    wrF (wr128 s (0x1800000 + 16 * (1280 * unit + used)) (ebtRaw s (row * nRinks s + unit))) 0x1E00018 13 0 (s.flt.rowMap.filter fun r => r.1 == 0).length
  else s

theorem rowCopied_whole (s : State) (kind unit row used : Nat) :
    rowCopied s kind unit row used = { s with regs := (rowCopied s kind unit row used).regs } := by
  unfold rowCopied
  split <;> rfl

theorem rowSpare_spares {s : State} {kind unit row : Nat} (h : sparesUsed s kind unit < sparesOf kind) : rowSpare s kind unit row =
    rowNote (rowspWrite (rowCopied (rowSpared s kind unit row) kind unit row (sparesUsed s kind unit)) kind) kind unit row 0x185 1 :=
  if_neg (Nat.not_le.mpr h)

theorem rowSpare_full {s : State} {kind unit row : Nat} (h : sparesOf kind ≤ sparesUsed s kind unit) : rowSpare s kind unit row =
    rowNote (setFlag s 0x500 2) kind unit row 0x186 2 := if_pos h

theorem sparesOf_le : ∀ kind < 8, sparesOf kind ≤ 1280 := by decide

/-- Two 16-bit counts packed in a word: the upper one. -/
theorem fld_packed {a b : Nat} (ha : a < 2 ^ 16) (hb : b < 2 ^ 16) : fld (BitVec.ofNat 64 (a <<< 16 ||| b)) 31 16 = a := by
  have hpack : a <<< 16 ||| b = a * 2 ^ 16 + b := by rw [← Nat.shiftLeft_add_eq_or_of_lt hb, Nat.shiftLeft_eq]
  rw [fld, BitVec.toNat_ofNat, hpack, Nat.shiftRight_eq_div_pow]
  omega

/-- GLB_ROWSP's count of the spare rows in use. -/
theorem rowspWrite_used (s : State) {kind : Nat} (hk : kind < 8) :
    rdF (rowspWrite s kind) (0x548 + 8 * kind) 31 16 = (s.flt.rowMap.filter fun r => r.1 == kind).length % 2 ^ 16 := by
  have hspares := sparesOf_le kind hk
  unfold rowspWrite
  dsimp only
  rw [rdF, rd_wr_same]
  exact fld_packed (Nat.mod_lt _ (by decide)) (by omega)

theorem rowSpare_spec {s : State} {kind unit row : Nat} (hk : kind < 8) (h : sparesUsed s kind unit < sparesOf kind) :
    (rowSpare s kind unit row).flt.rowMap = s.flt.rowMap ++ [(kind, unit, row)] ∧
    mget (rowSpare s kind unit row).flt.rowErrs (rowKey kind unit row) = none ∧
    rdF (rowSpare s kind unit row) (0x548 + 8 * kind) 31 16 = ((s.flt.rowMap.filter fun q => q.1 == kind).length + 1) % 2 ^ 16 := by
  rw [rowSpare_spares h]
  have hcopied := rowCopied_whole (rowSpared s kind unit row) kind unit row (sparesUsed s kind unit)
  generalize rowCopied (rowSpared s kind unit row) kind unit row (sparesUsed s kind unit) = u at hcopied ⊢
  have hused := rowspWrite_used u hk
  have hwrite : (rowspWrite u kind).flt = u.flt := rfl
  have hflt : u.flt = (rowSpared s kind unit row).flt := by rw [hcopied]
  generalize rowspWrite u kind = v at hused hwrite ⊢
  have hnoted := noted_rowNote v kind unit row 0x185 1
  generalize rowNote v kind unit row 0x185 1 = t at hnoted ⊢
  have ht := hnoted.whole
  have hword : rd t (0x548 + 8 * kind) = rd v (0x548 + 8 * kind) := hnoted.words _ (by
    unfold noteWord
    simp only [Bool.or_eq_false_iff, Bool.and_eq_false_iff, beq_eq_false_iff_ne, decide_eq_false_iff_not]
    omega)
  have hmap : t.flt.rowMap = s.flt.rowMap ++ [(kind, unit, row)] := by
    rw [ht, hwrite, hflt]
    rfl
  refine ⟨hmap, ?_, ?_⟩
  · rw [ht, hwrite, hflt]
    exact mget_mdel_same ..
  · rw [rdF, hword]
    refine hused.trans ?_
    rw [hflt]
    unfold rowSpared
    simp

/-- The count of a row's corrected errors, and what follows. -/
def rowCounted (s : State) (kind unit row : Nat) : State :=
  { s with flt := { s.flt with rowErrs := mset s.flt.rowErrs (rowKey kind unit row) (mgetD s.flt.rowErrs (rowKey kind unit row) 0 + 1) } }

section
variable {s : State} {kind : BitVec 3} {unit : BitVec 8} {row : BitVec 24} (both : Bool)
  (hunit : rowUnit s kind.toNat unit.toNat = true) (hrow : row.toNat < rowsOf kind.toNat)
include hunit hrow

theorem exec_rowRemap_single : exec (.rowRemap kind unit row .single both) s = answer s (rowCorrected s kind.toNat unit.toNat row.toNat) :=
  congrArg (answer s) (if_neg (by simpa using ⟨hunit, hrow⟩))

theorem exec_rowRemap_router (hk : kind.toNat = 5) :
    exec (.rowRemap kind unit row .uncorrectable true) s = answer s (declareRouter s unit.toNat 2) := by
  refine congrArg (answer s) ((if_neg (by simpa using ⟨hunit, hrow⟩)).trans ?_)
  exact (if_neg (by simp)).trans (if_pos hk)

theorem exec_rowRemap_extent (hk : kind.toNat = 0) : exec (.rowRemap kind unit row .uncorrectable both) s =
    answer s (rowSpare (rowLost s 0 unit.toNat row.toNat) 0 unit.toNat row.toNat) := by
  refine congrArg (answer s) ((if_neg (by simpa using ⟨hunit, hrow⟩)).trans ?_)
  dsimp only
  rw [hk]
  rfl

end

theorem rowCorrected_counts {s : State} {k u r : Nat} (h : mgetD s.flt.rowErrs (rowKey k u r) 0 + 1 ≠ max 1 (rdF s 0x520 23 16)) :
    rowCorrected s k u r = rowCounted s k u r := if_neg h

theorem rowCorrected_spares {s : State} {k u r : Nat} (h : mgetD s.flt.rowErrs (rowKey k u r) 0 + 1 = max 1 (rdF s 0x520 23 16)) :
    rowCorrected s k u r = rowSpare (rowCounted s k u r) k u r := if_pos h

theorem rowSpare_noted_full {s : State} {k u r : Nat} (h : sparesOf k ≤ sparesUsed s k u) :
    (rowSpare s k u r).flt.rowMap = s.flt.rowMap ∧ bitOf (rd (rowSpare s k u r) 0x500) 2 = true := by
  rw [rowSpare_full h]
  have hnoted := noted_rowNote (setFlag s 0x500 2) k u r 0x186 2
  generalize rowNote (setFlag s 0x500 2) k u r 0x186 2 = t at hnoted ⊢
  have hword : rd t 0x500 = rd (setFlag s 0x500 2) 0x500 := hnoted.words _ (by decide)
  refine ⟨by rw [hnoted.whole]; rfl, ?_⟩
  rw [hword]
  exact bitOf_setFlag_same _ _ (by decide)

theorem rowSpare_jrn (s : State) (k u r : Nat) : (rowSpare s k u r).jrn = s.jrn := by
  have hnote : ∀ (t : State) (code sev : Nat), (rowNote t k u r code sev).jrn = t.jrn := fun t code sev => by
    rw [(noted_rowNote t k u r code sev).whole]
  by_cases h : sparesUsed s k u < sparesOf k
  · rw [rowSpare_spares h]
    refine (hnote _ _ _).trans ?_
    have hcopied := rowCopied_whole (rowSpared s k u r) k u r (sparesUsed s k u)
    generalize rowCopied (rowSpared s k u r) k u r (sparesUsed s k u) = v at hcopied ⊢
    have hwrite : (rowspWrite v k).jrn = v.jrn := rfl
    rw [hwrite, hcopied]
    rfl
  · rw [rowSpare_full (Nat.not_lt.mp h)]
    exact hnote ..

theorem ebtRepairStart_repairs {s : State} {x : Nat} (h : ebtLost s x = false) : x ∈ (ebtRepairStart s x).jrn.repairs := by
  have hjrn : (ebtRepairStart s x).jrn = { s.jrn with repairs := insertNat s.jrn.repairs x } := by
    unfold ebtRepairStart
    rw [if_neg (by rw [h]; decide)]
    dsimp only
    rw [(noted_raiseRinkFree ..).whole]
    rfl
  rw [hjrn]
  exact self_mem_insertNat ..

theorem rows_complete (s : State) (kind : BitVec 3) (unit : BitVec 8) (row : BitVec 24) (both : Bool) (k u r key : Nat) (hk : k = kind.toNat)
    (hu : u = unit.toNat) (hr : r = row.toNat) (hkey : key = (k * 256 + u) * 2 ^ 24 + r) (hunit : rowUnit s k u = true) (hrow : r < rowsOf k) :
    (mgetD s.flt.rowErrs key 0 + 1 ≠ max 1 (rdF s 0x520 23 16) → Completes (.rowRemap kind unit row .single both) s fun t =>
      t = { s with flt := { s.flt with rowErrs := mset s.flt.rowErrs key (mgetD s.flt.rowErrs key 0 + 1) } }) ∧
    (mgetD s.flt.rowErrs key 0 + 1 = max 1 (rdF s 0x520 23 16) → sparesUsed s k u < sparesOf k →
      Completes (.rowRemap kind unit row .single both) s fun t => t.flt.rowMap = s.flt.rowMap ++ [(k, u, r)] ∧
        mget t.flt.rowErrs key = none ∧ rdF t (0x548 + 8 * k) 31 16 = ((s.flt.rowMap.filter fun q => q.1 == k).length + 1) % 2 ^ 16) ∧
    (mgetD s.flt.rowErrs key 0 + 1 = max 1 (rdF s 0x520 23 16) → sparesOf k ≤ sparesUsed s k u →
      Completes (.rowRemap kind unit row .single both) s fun t => t.flt.rowMap = s.flt.rowMap ∧ bitOf (rd t 0x500) 2 = true) ∧
    (k = 5 → (getRtr s u).failed = false → Completes (.rowRemap kind unit row .uncorrectable true) s fun t => (getRtr t u).failed = true) ∧
    (k = 0 → ebtLost s (r * nRinks s + u) = false → Completes (.rowRemap kind unit row .uncorrectable both) s fun t =>
      r * nRinks s + u ∈ t.jrn.repairs) := by
  have hk8 : k < 8 := hk ▸ kind.isLt
  subst hk hu hr
  obtain rfl : key = rowKey kind.toNat unit.toNat row.toNat := hkey
  have hsingle := exec_rowRemap_single both hunit hrow
  refine ⟨fun hcount => ?_, fun hcount hspare => ?_, fun hcount hfull => ?_, fun hrtr hfailed => ?_, fun hebt hlost => ?_⟩
  · rw [rowCorrected_counts hcount] at hsingle
    exact completes_of_answer hsingle rfl rfl rfl rfl
  · rw [rowCorrected_spares hcount] at hsingle
    have hspec := rowSpare_spec (s := rowCounted s kind.toNat unit.toNat row.toNat) (unit := unit.toNat) (row := row.toNat) hk8 hspare
    generalize rowSpare (rowCounted s kind.toNat unit.toNat row.toNat) kind.toNat unit.toNat row.toNat = t at hspec hsingle
    exact completes_of_answered hsingle hspec
  · rw [rowCorrected_spares hcount] at hsingle
    have hspec := rowSpare_noted_full (s := rowCounted s kind.toNat unit.toNat row.toNat) (r := row.toNat) hfull
    generalize rowSpare (rowCounted s kind.toNat unit.toNat row.toNat) kind.toNat unit.toNat row.toNat = t at hspec hsingle
    exact completes_of_answered hsingle hspec
  · have hexec := exec_rowRemap_router hunit hrow hrtr
    have hx : isRtr s unit.toNat = true := by rw [hrtr] at hunit; exact hunit
    obtain ⟨hdone, -⟩ := declareRouter_spec (cause := 2) (by decide) hx hfailed
    generalize declareRouter s unit.toNat 2 = t at hdone hexec
    exact completes_of_answered hexec hdone
  · have hexec := exec_rowRemap_extent both hunit hrow hebt
    have hlostEq : rowLost s 0 unit.toNat row.toNat = ebtRepairStart s (row.toNat * nRinks s + unit.toNat) := rfl
    have hmem := ebtRepairStart_repairs hlost
    rw [hlostEq] at hexec
    generalize ebtRepairStart s (row.toNat * nRinks s + unit.toNat) = v at hmem hexec
    have hjrn := rowSpare_jrn v 0 unit.toNat row.toNat
    generalize rowSpare v 0 unit.toNat row.toNat = t at hjrn hexec
    rw [← hjrn] at hmem
    exact completes_of_answered hexec hmem

/-- Settles O46: each end of a link steers its own wire; a router declared failed keeps that mark through the end of its links; every entry
of RTE_HOME has bits of its own, which the re-homing sets; and a row is counted or spared as its threshold and its array's spares say. -/
theorem faultsAreSteeredDeclaredAndSpared : Obligations.FaultsAreSteeredDeclaredAndSpared := by
  unfold Obligations.FaultsAreSteeredDeclaredAndSpared
  exact ⟨wires_complete, routerDeclared_completes, rehome_completes, restore_completes, rows_complete⟩

end Sys2Proof.Machine
end

section
/-! PROOF. The management matrix's responses, judgements, grants and locks (19 R410 to R419; for O47). -/

namespace Sys2Proof.Machine

/-! A single access. -/

/-- The matrix holds the accesses l, and has returned the beats o. -/
def withAccs (s : State) (l : List MmAcc) (o : List (Nat × BitVec 2 × Word × Bool)) : State := { s with mmx := { s.mmx with accs := l, out := o } }

/-- The beats of a response with their master. -/
def beatsOf (a : MmAcc) : List (Nat × BitVec 2 × Word × Bool) := a.resp.map fun b => (masterNo a.m, b)

theorem updAcc_single {s : State} {a : MmAcc} (h : s.mmx.accs = [a]) (f : MmAcc → MmAcc) :
    updAcc s a.id f = withAccs s [f a] s.mmx.out := by
  unfold updAcc withAccs
  rw [h, updFirst, if_pos (beq_self_eq_true _)]

theorem releaseResp_open {a : MmAcc} (h : a.ended = false) : releaseResp [a] [] = ([{ a with resp := [] }], beatsOf a) := by
  simp [releaseResp, h, beatsOf]

theorem releaseResp_ended {a : MmAcc} (h : a.ended = true) : releaseResp [a] [] = ([], beatsOf a) := by
  simp [releaseResp, h, beatsOf]

theorem mmFlush_open {s : State} {a : MmAcc} (h : s.mmx.accs = [a]) (he : a.ended = false) :
    mmFlush s = withAccs s [{ a with resp := [] }] (beatsOf a) := by
  unfold mmFlush
  rw [h, releaseResp_open he]
  rfl

theorem mmFlush_ended {s : State} {a : MmAcc} (h : s.mmx.accs = [a]) (he : a.ended = true) : mmFlush s = withAccs s [] (beatsOf a) := by
  unfold mmFlush
  rw [h, releaseResp_ended he]
  rfl

/-- An access without beats to return stays as it is. -/
theorem mmFlush_quiet {s : State} {a : MmAcc} (h : s.mmx.accs = [a]) (he : a.ended = false) (hr : a.resp = []) : mmFlush s = withAccs s [a] [] := by
  rw [mmFlush_open h he]
  cases a
  dsimp only at hr
  subst hr
  rfl

/-! Answers without data (19 R411 to R413). -/

/-- One beat of an answer without data. -/
def emptyBeat (count : Nat) (code : BitVec 2) (r : List (BitVec 2 × Word × Bool) × State) (i : Nat) : List (BitVec 2 × Word × Bool) × State :=
  (r.1 ++ [(code, (takeFree r.2).1, i + 1 == count)], (takeFree r.2).2)

theorem emptyBeats_eq (s : State) (count : Nat) (code : BitVec 2) :
    emptyBeats s count code = (List.range count).foldl (emptyBeat count code) ([], s) := rfl

theorem emptyBeat_fold (count : Nat) (code : BitVec 2) (l : List Nat) (r : List (BitVec 2 × Word × Bool) × State) :
    ((l.foldl (emptyBeat count code) r).1.map (·.1)) = r.1.map (·.1) ++ List.replicate l.length code ∧
    (l.foldl (emptyBeat count code) r).2 = { r.2 with free := (l.foldl (emptyBeat count code) r).2.free } := by
  induction l generalizing r with
  | nil => exact ⟨by simp, rfl⟩
  | cons i l ih =>
    obtain ⟨hcodes, hstate⟩ := ih (emptyBeat count code r i)
    refine ⟨?_, ?_⟩
    · rw [List.foldl_cons, hcodes]
      simp [emptyBeat, List.replicate_succ]
    · rw [List.foldl_cons, hstate]
      rfl

theorem emptyBeats_spec (s : State) (count : Nat) (code : BitVec 2) : (emptyBeats s count code).1.map (·.1) = List.replicate count code ∧
    (emptyBeats s count code).2 = { s with free := (emptyBeats s count code).2.free } := by
  rw [emptyBeats_eq]
  obtain ⟨hcodes, hstate⟩ := emptyBeat_fold count code (List.range count) ([], s)
  exact ⟨by simpa using hcodes, hstate⟩

/-- The access that ends without a target's answer, its beats returned. -/
theorem mmEnd_flushed {s : State} {a b : MmAcc} {code : BitVec 2} (h : s.mmx.accs = [b]) (hid : a.id = b.id) :
    (mmFlush (mmEnd s a code)).mmx.accs = [] ∧
    (mmFlush (mmEnd s a code)).mmx.out.map (fun b => (b.1, b.2.1)) = List.replicate (if a.wr then 1 else a.len + 1) (masterNo a.m, code) ∧
    (mmFlush (mmEnd s a code)).mmx.tgts = s.mmx.tgts ∧
    (∀ x, x ≠ aMmx 8 → rd (mmFlush (mmEnd s a code)) x = rd s x) ∧
    (code ≠ 0 → rd (mmFlush (mmEnd s a code)) (aMmx 8) =
      packW [(62, code.toNat), (61, a.wr.toNat), (58, masterNo a.m), (0, a.addr.toNat % 2 ^ 32)]) := by
  obtain ⟨hcodes, hstate⟩ := emptyBeats_spec s (if a.wr then 1 else a.len + 1) code
  unfold mmEnd
  dsimp only
  generalize emptyBeats s (if a.wr then 1 else a.len + 1) code = r at hcodes hstate ⊢
  obtain ⟨beats, u⟩ := r
  dsimp only at hcodes hstate ⊢
  have hu : u.mmx.accs = [b] := by rw [hstate]; exact h
  have hupd : updAcc u a.id (fun _ => { a with resp := beats, ended := true }) = withAccs u [{ a with resp := beats, ended := true }] u.mmx.out := by
    rw [hid]
    exact updAcc_single hu _
  have hout : (beatsOf { a with resp := beats, ended := true }).map (fun b => (b.1, b.2.1)) =
      List.replicate (if a.wr then 1 else a.len + 1) (masterNo a.m, code) := by
    unfold beatsOf
    rw [List.map_map, ← List.map_replicate (f := fun c => (masterNo a.m, c)), ← hcodes, List.map_map]
    rfl
  rw [hupd]
  have htgts : u.mmx.tgts = s.mmx.tgts := by rw [hstate]
  have hwords : ∀ x, rd u x = rd s x := fun x => by rw [hstate]; rfl
  by_cases hc : code = 0
  · rw [if_pos hc, mmFlush_ended rfl rfl]
    exact ⟨rfl, hout, htgts, fun x _ => hwords x, fun hne => absurd hc hne⟩
  · rw [if_neg hc]
    have hflush : mmFlush (errLog (withAccs u [{ a with resp := beats, ended := true }] u.mmx.out) a.m code a.wr a.addr.toNat) =
        withAccs (errLog (withAccs u [{ a with resp := beats, ended := true }] u.mmx.out) a.m code a.wr a.addr.toNat) []
          (beatsOf { a with resp := beats, ended := true }) := mmFlush_ended rfl rfl
    rw [hflush]
    refine ⟨rfl, hout, htgts, fun x hx => ?_, fun _ => ?_⟩
    · refine (rd_wr_ne _ _ _ _ hx).trans (hwords x)
    · exact rd_wr_same ..

/-! Requests (19 R410 to R413). -/

/-- The access as the matrix receives it. -/
def received (s : State) (a : MmAcc) : State := { s with mmx := { s.mmx with accs := [a], nextId := s.mmx.nextId + 1 } }

/-- What follows the judgement. -/
def mmJudged (a : MmAcc) (j : Option (BitVec 2) × State) : State :=
  mmFlush (match j.1 with | some c => mmRefuse j.2 a c | none => j.2)

section
variable {s : State} {m : Master} {addr : BitVec 32} {wr data : Bool} {len : BitVec 8} {a : MmAcc}
  (hidle : s.mmx.accs = [])
  (ha : a = { m := m, addr := addr, wr := wr, data := data, len := len.toNat, target := reqTarget addr.toNat len.toNat, id := s.mmx.nextId })
include hidle ha

theorem exec_mmRequest : exec (.mmRequest m addr wr data false len) s = answer s (mmJudged a (mmJudge (received s a) a)) := by
  subst ha
  have hready : mmReady s m = true := by
    unfold mmReady
    rw [hidle]
    rfl
  have harm : exec (.mmRequest m addr wr data false len) s = execMmRequest m addr wr data false len s := rfl
  rw [harm, execMmRequest, hready, hidle]
  rfl

end

section
variable {s : State} {a : MmAcc} (hsingle : a.data = true ∨ a.len = 0) (hlock : a.lock = false)

theorem judged_self {t : Nat} (h : t ≠ 14) (x len : Nat) : judged s t x len = [t] := if_neg fun hc => h hc.1

/-- The pair's own bar, by Table 19.2, by the life cycle, or by MMX_PRI (19 R410, R412). -/
def pairBarred (s : State) (m : Master) (t : Nat) : Bool := barred s m t || (t != 15 && priOf s m t == 0)

theorem mmJudge_barred (ht : a.target ≠ 14) (hbar : pairBarred s a.m a.target = true) :
    mmJudge s a = (some 1, barNote s a.m a.target) := by
  unfold mmJudge
  dsimp only
  rw [judged_self ht, List.find?_cons_of_pos (p := fun j => barred s a.m j || (j != 15 && priOf s a.m j == 0)) hbar]

include hsingle hlock

theorem mmJudge_open (ht : a.target ≠ 14) (hbar : pairBarred s a.m a.target = false) (hbroken : 16 * masterNo a.m + a.target ∉ s.mmx.broken) :
    mmJudge s a = if a.target = 15 then (some 2, setFlag (incSat s (aMmx 0x10) 1) (aMmx 0) 1) else (none, s) := by
  have hlegal : ((!a.data && a.len != 0) || (a.data && a.lock)) = false := by
    rw [hlock, Bool.and_false, Bool.or_false]
    rcases hsingle with h | h <;> simp [h]
  have hwhole : s.mmx.broken.contains (16 * masterNo a.m + a.target) = false := by simpa using hbroken
  unfold mmJudge
  dsimp only
  rw [judged_self ht, List.find?_cons_of_neg (by rw [show (barred s a.m a.target || (a.target != 15 && priOf s a.m a.target == 0)) = false from hbar]; decide),
    List.find?_nil]
  dsimp only
  rw [hlegal, hwhole, hlock]
  simp

end

/-- The state after a refused pair. -/
theorem barNote_spec (s : State) (m : Master) (t : Nat) : (barNote s m t).mmx = s.mmx ∧ bitOf (rd (barNote s m t) (aMmx 0)) 0 = true := by
  have hnoted := noted_raiseG (setFlag s (aMmx 0) 0) 243 0x191 1 (masterNo m <<< 8 ||| t)
  unfold barNote
  generalize raiseG _ 243 0x191 1 _ = u at hnoted ⊢
  have hword : rd u (aMmx 0) = rd (setFlag s (aMmx 0) 0) (aMmx 0) := hnoted.words _ (by decide)
  refine ⟨by rw [hnoted.whole]; rfl, ?_⟩
  rw [hword]
  exact bitOf_setFlag_same _ _ (by decide)

/-- A write that no target performs waits for its beats. -/
theorem mmRefuse_write {s : State} {a : MmAcc} {c : BitVec 2} (h : s.mmx.accs = [a]) (hw : a.wr = true) (hr : a.resp = []) (he : a.ended = false) :
    mmFlush (mmRefuse s a c) = withAccs s [{ a with refused := some c }] [] := by
  have hrefuse : mmRefuse s a c = withAccs s [{ a with refused := some c }] s.mmx.out := (if_pos hw).trans (updAcc_single h _)
  rw [hrefuse, mmFlush_open (a := { a with refused := some c }) rfl he]
  unfold withAccs beatsOf
  dsimp only
  rw [hr]
  rfl

/-- An access that no target performs: a write waits for its beats, a read is answered (19 R411). -/
theorem mmRefuse_flushed {s : State} {a : MmAcc} {c : BitVec 2} (h : s.mmx.accs = [a]) (hc : c ≠ 0) :
    (∀ x, x ≠ aMmx 8 → rd (mmFlush (mmRefuse s a c)) x = rd s x) ∧ (mmFlush (mmRefuse s a c)).mmx.tgts = s.mmx.tgts ∧
    (a.wr = true → a.resp = [] → a.ended = false →
      (mmFlush (mmRefuse s a c)).mmx.accs = [{ a with refused := some c }] ∧ (mmFlush (mmRefuse s a c)).mmx.out = []) ∧
    (a.wr = false → (mmFlush (mmRefuse s a c)).mmx.accs = [] ∧
      (mmFlush (mmRefuse s a c)).mmx.out.map (fun b => (b.1, b.2.1)) = List.replicate (a.len + 1) (masterNo a.m, c) ∧
      rd (mmFlush (mmRefuse s a c)) (aMmx 8) = packW [(62, c.toNat), (61, 0), (58, masterNo a.m), (0, a.addr.toNat % 2 ^ 32)]) := by
  by_cases hw : a.wr = true
  · have hrefuse : mmRefuse s a c = withAccs s [{ a with refused := some c }] s.mmx.out := (if_pos hw).trans (updAcc_single h _)
    refine ⟨fun x _ => by rw [hrefuse]; rfl, by rw [hrefuse]; rfl, fun _ hr he => ?_, fun hno => absurd (hno.symm.trans hw) (by decide)⟩
    rw [mmRefuse_write h hw hr he]
    exact ⟨rfl, rfl⟩
  · have hrefuse : mmRefuse s a c = mmEnd s { a with refused := some c } c := if_neg hw
    obtain ⟨haccs, hout, htgts, hwords, hlog⟩ := mmEnd_flushed (s := s) (a := { a with refused := some c }) (b := a) (code := c) h rfl
    rw [hrefuse]
    generalize mmFlush (mmEnd s { a with refused := some c } c) = t at haccs hout htgts hwords hlog ⊢
    have hcount : (if a.wr = true then 1 else a.len + 1) = a.len + 1 := if_neg hw
    refine ⟨hwords, htgts, fun hyes => absurd hyes hw, fun hread => ⟨haccs, ?_, ?_⟩⟩
    · refine hout.trans ?_
      dsimp only
      rw [hcount]
    · refine (hlog hc).trans ?_
      dsimp only
      rw [hread]
      rfl

/-- A field of zeros adds nothing to a word. -/
theorem packW_zero_field (a b x : Nat) (l : List (Nat × Nat)) : packW ((a, x) :: (b, 0) :: l) = packW ((a, x) :: l) := by
  unfold packW
  simp

theorem mmRequests_complete (s : State) (m : Master) (addr : BitVec 32) (wr data : Bool) (len : BitVec 8) (g : Nat) (a : MmAcc)
    (hidle : s.mmx.accs = []) (hsingle : data = true ∨ len = 0) (hg : g = reqTarget addr.toNat len.toNat)
    (hbroken : 16 * masterNo m + g ∉ s.mmx.broken)
    (ha : a = { m := m, addr := addr, wr := wr, data := data, len := len.toNat, target := g, id := s.mmx.nextId }) :
    (g < 14 → barred s m g = false → priOf s m g ≠ 0 → Completes (.mmRequest m addr wr data false len) s fun t =>
      t = { s with mmx := { s.mmx with accs := [a], nextId := s.mmx.nextId + 1, out := [] } }) ∧
    (g < 14 → (barred s m g = true ∨ priOf s m g = 0) → Completes (.mmRequest m addr wr data false len) s fun t =>
      bitOf (rd t (aMmx 0)) 0 = true ∧ (wr = true → t.mmx.accs = [{ a with refused := some 1 }] ∧ t.mmx.out = []) ∧
      (wr = false → t.mmx.accs = [] ∧ t.mmx.out.map (fun b => (b.1, b.2.1)) = List.replicate (len.toNat + 1) (masterNo m, 1#2) ∧
        rd t (aMmx 8) = packW [(62, 1), (58, masterNo m), (0, addr.toNat)])) ∧
    (g = 15 → Completes (.mmRequest m addr wr data false len) s fun t =>
      bitOf (rd t (aMmx 0)) 1 = true ∧ (rd t (aMmx 0x10)).toNat = min 0xFFFFFFFF ((rd s (aMmx 0x10)).toNat + 1) ∧
      (wr = true → t.mmx.accs = [{ a with refused := some 2 }]) ∧
      (wr = false → t.mmx.accs = [] ∧ t.mmx.out.map (fun b => (b.1, b.2.1)) = List.replicate (len.toNat + 1) (masterNo m, 2#2))) := by
  have hexec := exec_mmRequest (addr := addr) (data := data) hidle (ha.trans (by rw [hg]))
  have hlone : a.data = true ∨ a.len = 0 := by
    rw [ha]
    exact hsingle.imp id fun h => by rw [h]; rfl
  have hlock : a.lock = false := by rw [ha]
  have hresp : a.resp = [] := by rw [ha]
  have hended : a.ended = false := by rw [ha]
  have haddr : a.addr.toNat % 2 ^ 32 = addr.toNat := by rw [ha]; exact Nat.mod_eq_of_lt addr.isLt
  have hm : a.m = m := by rw [ha]
  have ht : a.target = g := by rw [ha]
  have hwr : a.wr = wr := by rw [ha]
  have hlen : a.len = len.toNat := by rw [ha]
  have hkeep : pairBarred (received s a) m g = pairBarred s m g := rfl
  have hbroken' : 16 * masterNo a.m + a.target ∉ (received s a).mmx.broken := by rw [hm, ht]; exact hbroken
  have haccs : (received s a).mmx.accs = [a] := rfl
  clear ha
  refine ⟨fun hlt hbar hpri => ?_, fun hlt hbar => ?_, fun h15 => ?_⟩
  · have hopen : pairBarred s m g = false := by simp [pairBarred, hbar, hpri]
    have hjudge : mmJudge (received s a) a = (none, received s a) := by
      rw [mmJudge_open hlone hlock (by omega) (by rw [hm, ht, hkeep, hopen]) hbroken', if_neg (by omega)]
    rw [hjudge] at hexec
    have hdone : mmJudged a (none, received s a) = withAccs (received s a) [a] [] := mmFlush_quiet haccs hended hresp
    exact completes_of_answer (hexec.trans (congrArg (answer s) hdone)) rfl rfl rfl rfl
  · have hshut : pairBarred s m g = true := by
      have hne : (g != 15) = true := by simp; omega
      rcases hbar with h | h <;> simp [pairBarred, h, hne]
    have hjudge := mmJudge_barred (s := received s a) (a := a) (by omega) (by rw [hm, ht, hkeep, hshut])
    rw [hjudge] at hexec
    obtain ⟨hmmx, hflag⟩ := barNote_spec (received s a) a.m a.target
    generalize barNote (received s a) a.m a.target = u at hmmx hflag hexec
    have hu : u.mmx.accs = [a] := by rw [hmmx]; rfl
    obtain ⟨hwords, -, hwrite, hread⟩ := mmRefuse_flushed (c := 1) hu (by decide)
    have hdone : mmJudged a (some 1, u) = mmFlush (mmRefuse u a 1) := rfl
    rw [hdone] at hexec
    generalize mmFlush (mmRefuse u a 1) = t at hwords hwrite hread hexec
    refine completes_of_answered hexec ⟨?_, fun hw => hwrite (hwr.trans hw) hresp hended, fun hw => ?_⟩
    · exact (congrArg (fun w => bitOf w 0) (hwords (aMmx 0) (by decide))).trans hflag
    · obtain ⟨hnone, hout, hlog⟩ := hread (hwr.trans hw)
      rw [hlen, hm] at hout
      rw [haddr, hm] at hlog
      exact ⟨hnone, hout, hlog.trans (packW_zero_field ..)⟩
  · have hopen : pairBarred s m g = false := by simp [pairBarred, barred, h15]
    have hjudge : mmJudge (received s a) a = (some 2, setFlag (incSat (received s a) (aMmx 0x10) 1) (aMmx 0) 1) := by
      rw [mmJudge_open hlone hlock (by omega) (by rw [hm, ht, hkeep, hopen]) hbroken', if_pos (by omega)]
    rw [hjudge] at hexec
    have hflag : bitOf (rd (setFlag (incSat (received s a) (aMmx 0x10) 1) (aMmx 0) 1) (aMmx 0)) 1 = true := bitOf_setFlag_same _ _ (by decide)
    have hcount : (rd (setFlag (incSat (received s a) (aMmx 0x10) 1) (aMmx 0) 1) (aMmx 0x10)).toNat = min 0xFFFFFFFF ((rd s (aMmx 0x10)).toNat + 1) := by
      rw [rd_setFlag, if_neg (by decide)]
      exact toNat_incSat ..
    have hu : (setFlag (incSat (received s a) (aMmx 0x10) 1) (aMmx 0) 1).mmx.accs = [a] := rfl
    generalize setFlag (incSat (received s a) (aMmx 0x10) 1) (aMmx 0) 1 = u at hflag hcount hu hexec
    obtain ⟨hwords, -, hwrite, hread⟩ := mmRefuse_flushed (c := 2) hu (by decide)
    have hdone : mmJudged a (some 2, u) = mmFlush (mmRefuse u a 2) := rfl
    rw [hdone] at hexec
    generalize mmFlush (mmRefuse u a 2) = t at hwords hwrite hread hexec
    refine completes_of_answered hexec ⟨?_, ?_, fun hw => (hwrite (hwr.trans hw) hresp hended).1, fun hw => ?_⟩
    · exact (congrArg (fun w => bitOf w 1) (hwords (aMmx 0) (by decide))).trans hflag
    · exact (congrArg BitVec.toNat (hwords (aMmx 0x10) (by decide))).trans hcount
    · obtain ⟨hnone, hout, -⟩ := hread (hwr.trans hw)
      rw [hlen, hm] at hout
      exact ⟨hnone, hout⟩

/-! Grants (19 R414, R415, R417, R418). -/

/-- A target that no lock holds is parked on the winner, and locked for the first access of a locked sequence. -/
def grantedTgt (s : State) (a : MmAcc) : State :=
  updTgt s a.target fun _ => { park := some (BitVec.ofNat 3 (masterNo a.m)), locked := if a.lock then some (BitVec.ofNat 3 (masterNo a.m)) else none }

theorem getTgt_updTgt (s : State) (k : Nat) (f : MmTgt → MmTgt) : getTgt (updTgt s k f) k = f (getTgt s k) := mgetD_mset_same ..

section
variable {s : State} {a : MmAcc} (hone : s.mmx.accs = [a]) (hrefused : a.refused = none) (hended : a.ended = false)
  (hfree : (getTgt s a.target).locked = none)

theorem masterNo_lt (m : Master) : masterNo m < 8 := by cases m <;> decide

/-- The round robin reaches every master. -/
theorem mem_mmOrder (s : State) (t : Nat) {k : Nat} (hk : k < 8) : k ∈ mmOrder s t := by
  unfold mmOrder
  dsimp only
  generalize ((getTgt s t).park.map (·.toNat)).getD 7 = last
  refine List.mem_map.mpr ⟨(k + 8 * (last + 1) - (last + 1)) % 8, List.mem_range.mpr (Nat.mod_lt _ (by decide)), ?_⟩
  omega

/-- The lone request that a target could begin wins its arbitration. -/
theorem mmWinner_lone (hcont : contenders s a.target = [a]) : mmWinner s a.target = some a := by
  have hpick : ∀ k, (contenders s a.target).find? (fun b => masterNo b.m == k &&
      priOf s b.m a.target == ((contenders s a.target).map fun b => priOf s b.m a.target).foldl max 0) = if masterNo a.m = k then some a else none := fun k => by
    rw [hcont]
    by_cases h : masterNo a.m = k
    · rw [if_pos h, List.find?_cons_of_pos (by simp [h])]
    · rw [if_neg h, List.find?_cons_of_neg (by simp [h]), List.find?_nil]
  have hfirst : ∀ l : List Nat, masterNo a.m ∈ l → l.findSome? (fun k => if masterNo a.m = k then some a else none) = some a := fun l => by
    induction l with
    | nil => exact fun h => nomatch h
    | cons k l ih =>
      intro h
      rw [List.findSome?_cons]
      by_cases hk : masterNo a.m = k
      · rw [if_pos hk]
      · rw [if_neg hk]
        exact ih ((List.mem_cons.mp h).resolve_left hk)
  have hwin : mmWinner s a.target = (mmOrder s a.target).findSome? fun k => (contenders s a.target).find? fun b => masterNo b.m == k &&
      priOf s b.m a.target == ((contenders s a.target).map fun b => priOf s b.m a.target).foldl max 0 := rfl
  rw [hwin]
  simp only [hpick]
  exact hfirst _ (mem_mmOrder s a.target (masterNo_lt a.m))

include hone hrefused hended hfree

theorem contenders_lone (hwait : a.granted = false ∨ a.piece = true) : contenders s a.target = [a] := by
  have hpass : (!a.granted || a.piece) = true := by rcases hwait with h | h <;> simp [h]
  unfold contenders
  rw [hone, hfree]
  simp [hrefused, hended, hpass]

/-- A lone request is granted at its target. -/
theorem mmArbitrate_lone (hwait : a.granted = false ∧ priOf s a.m a.target ≠ 0 ∨ a.granted = true ∧ a.piece = true) :
    mmArbitrate s a.target = mmFlush (if a.wr then withAccs (grantedTgt s a) [{ a with granted := true, piece := false }] s.mmx.out
      else readPiece (grantedTgt s a) a) := by
  have hzero : refuseZero s a.target = s := by
    unfold refuseZero
    rw [hone, List.filter_cons_of_neg (by rcases hwait with ⟨hg, hp⟩ | ⟨hg, -⟩ <;> simp [*]), List.filter_nil, List.foldl_nil]
  have hbusy : tgtBusy s a.target = false := by
    unfold tgtBusy
    rw [hone]
    rcases hwait with ⟨hg, -⟩ | ⟨-, hp⟩ <;> simp [*]
  have hwin := mmWinner_lone (contenders_lone hone hrefused hended hfree (hwait.imp And.left And.right))
  have htgt : updTgt s a.target (fun g =>
      { park := some (BitVec.ofNat 3 (masterNo a.m)), locked := if a.lock then some (BitVec.ofNat 3 (masterNo a.m)) else g.locked }) = grantedTgt s a := by
    unfold grantedTgt updTgt
    dsimp only
    rw [hfree]
  have hgrant : mmGrantTo s a.target a = if a.wr then withAccs (grantedTgt s a) [{ a with granted := true, piece := false }] s.mmx.out
      else readPiece (grantedTgt s a) a := by
    unfold mmGrantTo
    dsimp only
    rw [htgt, updAcc_single (s := grantedTgt s a) hone]
    rfl
  unfold mmArbitrate
  rw [hzero]
  dsimp only
  rw [hbusy, hwin, ← hgrant]
  rfl

end

/-! Read pieces (19 R415, R417). -/

theorem readBeat_mmx (s : State) (a : Nat) : (readBeat s a).2.mmx = s.mmx := by
  have hrepair : ∀ x, (ebtRepairStart s x).mmx = s.mmx := fun x => by
    unfold ebtRepairStart
    split
    · rfl
    · dsimp only
      rw [(noted_raiseRinkFree ..).whole]
      rfl
  have hebt : ∀ x, (ebtRead s x).2.mmx = s.mmx := fun x => by
    unfold ebtRead
    dsimp only
    split
    · rfl
    · split
      · exact hrepair x
      · rfl
      · rfl
  unfold readBeat
  split
  · rfl
  · split
    · exact hebt _
    · rfl

theorem mmRead_mmx (s : State) (addr : Nat) : (mmRead s addr).2.2.mmx = s.mmx := by
  unfold mmRead
  split
  · rfl
  · split
    · rfl
    · split
      · rfl
      · split
        · rfl
        · exact readBeat_mmx ..

/-- One beat of a read piece. -/
def readStep (a : MmAcc) (r : List (BitVec 2 × Word × Bool) × State) (i : Nat) : List (BitVec 2 × Word × Bool) × State :=
  (r.1 ++ [(if (mmRead r.2 (a.addr.toNat + 8 * (a.done + i))).1 then 1 else 0, (mmRead r.2 (a.addr.toNat + 8 * (a.done + i))).2.1,
    a.done + i == a.len)], (mmRead r.2 (a.addr.toNat + 8 * (a.done + i))).2.2)

/-- The beats of a piece: as many as asked for, each marked last only at the access's length. -/
theorem readStep_fold (a : MmAcc) (l : List Nat) (r : List (BitVec 2 × Word × Bool) × State) :
    (l.foldl (readStep a) r).1.map (fun b => b.2.2) = r.1.map (fun b => b.2.2) ++ l.map (fun i => a.done + i == a.len) ∧
    (l.foldl (readStep a) r).2.mmx = r.2.mmx := by
  induction l generalizing r with
  | nil => exact ⟨by simp, rfl⟩
  | cons i l ih =>
    obtain ⟨hlast, hmmx⟩ := ih (readStep a r i)
    refine ⟨?_, hmmx.trans (mmRead_mmx ..)⟩
    rw [List.foldl_cons, hlast]
    simp [readStep]

/-- The beats of the next piece, and the state that they leave. -/
def pieceRead (s : State) (a : MmAcc) : List (BitVec 2 × Word × Bool) × State := (List.range (pieceBeats a)).foldl (readStep a) ([], s)

/-- The access after a piece. -/
def pieceAcc (s : State) (a : MmAcc) : MmAcc :=
  { a with
    granted := true
    piece := !(a.done + pieceBeats a == a.len + 1)
    done := a.done + pieceBeats a
    resp := a.resp ++ (pieceRead s a).1
    ended := a.done + pieceBeats a == a.len + 1 }

/-- A piece of a lone read: its access, with what stands of the matrix; a lock that no access holds stays. -/
theorem readPiece_mmx {s : State} {a : MmAcc} (hone : s.mmx.accs = [a]) (hfree : (getTgt s a.target).locked = none) :
    (readPiece s a).mmx = { s.mmx with accs := [pieceAcc s a] } := by
  have hfold := (readStep_fold a (List.range (pieceBeats a)) ([], s)).2
  have hpiece : readPiece s a = (if (a.done + pieceBeats a == a.len + 1) = true then
      mmUnlock (if (pieceRead s a).1.any (fun b => b.1 != 0) then errLog (updAcc (pieceRead s a).2 a.id fun _ => pieceAcc s a) a.m 1 false a.addr.toNat
        else updAcc (pieceRead s a).2 a.id fun _ => pieceAcc s a) a
      else (if (pieceRead s a).1.any (fun b => b.1 != 0) then errLog (updAcc (pieceRead s a).2 a.id fun _ => pieceAcc s a) a.m 1 false a.addr.toNat
        else updAcc (pieceRead s a).2 a.id fun _ => pieceAcc s a)) := rfl
  have hmmx : (pieceRead s a).2.mmx = s.mmx := hfold
  rw [hpiece]
  generalize (pieceRead s a).2 = u at hmmx ⊢
  have hupd : updAcc u a.id (fun _ => pieceAcc s a) = withAccs u [pieceAcc s a] u.mmx.out := updAcc_single (by rw [hmmx]; exact hone) _
  rw [hupd]
  have hlogged : ∀ c : Bool, (if c then errLog (withAccs u [pieceAcc s a] u.mmx.out) a.m 1 false a.addr.toNat
      else withAccs u [pieceAcc s a] u.mmx.out).mmx = { s.mmx with accs := [pieceAcc s a] } := fun c => by
    have hacc : (withAccs u [pieceAcc s a] u.mmx.out).mmx = { s.mmx with accs := [pieceAcc s a] } := by
      unfold withAccs
      rw [hmmx]
    cases c
    · exact hacc
    · exact hacc
  generalize hv : (if (pieceRead s a).1.any (fun b => b.1 != 0) then errLog (withAccs u [pieceAcc s a] u.mmx.out) a.m 1 false a.addr.toNat
      else withAccs u [pieceAcc s a] u.mmx.out) = v
  have hvm : v.mmx = { s.mmx with accs := [pieceAcc s a] } := by rw [← hv]; exact hlogged _
  have htgt : (getTgt v a.target).locked = none := by
    unfold getTgt
    rw [hvm]
    exact hfree
  have hunlock : mmUnlock v a = v := by
    unfold mmUnlock
    rw [htgt]
    simp
  rw [hunlock]
  split <;> exact hvm

/-! The commands of a target. -/

theorem exec_mmGrant {s : State} {g : BitVec 4} {k : Nat} (hk : k = g.toNat) (hlt : k < 15) :
    exec (.mmGrant g) s = answer s (mmArbitrate s k) := by
  subst hk
  exact congrArg (answer s) (if_neg (by omega))

theorem exec_mmBurstPiece {s : State} {g : BitVec 4} {k : Nat} (hk : k = g.toNat) (hlt : k < 15) (hany : (contenders s k).any (·.piece) = true) :
    exec (.mmBurstPiece g) s = answer s (mmArbitrate s k) := by
  subst hk
  exact congrArg (answer s) (if_pos ⟨by omega, hany⟩)

/-- A write's piece is taken once granted: its beats are still to come. -/
theorem grantedWrite {s : State} {a : MmAcc} (hone : s.mmx.accs = [a]) (hrefused : a.refused = none) (hended : a.ended = false) (hresp : a.resp = [])
    (hfree : (getTgt s a.target).locked = none) (hw : a.wr = true)
    (hwait : a.granted = false ∧ priOf s a.m a.target ≠ 0 ∨ a.granted = true ∧ a.piece = true) :
    mmArbitrate s a.target = withAccs (grantedTgt s a) [{ a with granted := true, piece := false }] [] := by
  rw [mmArbitrate_lone hone hrefused hended hfree hwait, if_pos hw, mmFlush_quiet (a := { a with granted := true, piece := false }) rfl hended hresp]
  rfl

/-- A read's piece is answered once granted. -/
theorem grantedRead {s : State} {a : MmAcc} (hone : s.mmx.accs = [a]) (hrefused : a.refused = none) (hended : a.ended = false)
    (hfree : (getTgt s a.target).locked = none) (hlock : a.lock = false) (hw : a.wr = false)
    (hwait : a.granted = false ∧ priOf s a.m a.target ≠ 0 ∨ a.granted = true ∧ a.piece = true) :
    mmArbitrate s a.target = mmFlush (readPiece (grantedTgt s a) a) ∧
    (readPiece (grantedTgt s a) a).mmx = { (grantedTgt s a).mmx with accs := [pieceAcc (grantedTgt s a) a] } := by
  refine ⟨?_, readPiece_mmx hone ?_⟩
  · rw [mmArbitrate_lone hone hrefused hended hfree hwait, if_neg (by rw [hw]; decide)]
  · unfold grantedTgt
    rw [getTgt_updTgt, hlock]
    rfl

/-- A piece of sixteen beats before an access's last. -/
theorem longPiece_beats (s : State) {a : MmAcc} (hresp : a.resp = []) (hlong : a.done + 16 ≤ a.len) :
    (beatsOf (pieceAcc s a)).length = 16 ∧ ∀ b ∈ beatsOf (pieceAcc s a), b.1 = masterNo a.m ∧ b.2.2.2 = false := by
  have hpiece : pieceBeats a = 16 := by
    unfold pieceBeats
    omega
  have hlasts := (readStep_fold a (List.range (pieceBeats a)) ([], s)).1
  have hread : (pieceAcc s a).resp = (pieceRead s a).1 := by
    unfold pieceAcc
    dsimp only
    rw [hresp, List.nil_append]
  have hmap : (pieceRead s a).1.map (fun b => b.2.2) = (List.range 16).map fun i => a.done + i == a.len := by
    unfold pieceRead
    rw [hlasts, List.map_nil, List.nil_append, hpiece]
  have hmaster : (pieceAcc s a).m = a.m := rfl
  unfold beatsOf
  rw [hread, hmaster]
  generalize (pieceRead s a).1 = l at hmap
  refine ⟨?_, fun b hb => ?_⟩
  · have hcount := congrArg List.length hmap
    rw [List.length_map, List.length_map, List.length_range] at hcount
    rw [List.length_map, hcount]
  · obtain ⟨c, hc, rfl⟩ := List.mem_map.mp hb
    have hmem := List.mem_map_of_mem (f := fun b : BitVec 2 × Word × Bool => b.2.2) hc
    rw [hmap] at hmem
    obtain ⟨i, hi, heq⟩ := List.mem_map.mp hmem
    have := List.mem_range.mp hi
    refine ⟨rfl, ?_⟩
    show c.2.2 = false
    rw [← heq, beq_eq_false_iff_ne]
    omega

theorem longPiece {s v : State} {a : MmAcc} (hg : a.granted = true) (hp : a.piece = true) (hended : a.ended = false) (hresp : a.resp = [])
    (hlong : a.done + 16 ≤ a.len) (hmmx : v.mmx = { s.mmx with accs := [pieceAcc s a] }) :
    mmFlush v = withAccs v [{ a with done := a.done + 16 }] (beatsOf (pieceAcc s a)) := by
  have hpiece : pieceBeats a = 16 := by
    unfold pieceBeats
    omega
  have hopen : (a.done + pieceBeats a == a.len + 1) = false := by
    rw [hpiece, beq_eq_false_iff_ne]
    omega
  have hacc : { pieceAcc s a with resp := [] } = { a with done := a.done + 16 } := by
    unfold pieceAcc
    rw [hopen, hpiece, Bool.not_false]
    cases a
    dsimp only at hg hp hended hresp
    rw [hg, hp, hended, hresp]
  rw [mmFlush_open (a := pieceAcc s a) (by rw [hmmx]) hopen, hacc]

theorem mmGrants_complete (s u : State) (g : BitVec 4) (a : MmAcc) (k : Nat) (hk : k = g.toNat) (hlt : k < 15) (hone : s.mmx.accs = [a])
    (htarget : a.target = k) (hrefused : a.refused = none) (hended : a.ended = false) (hresp : a.resp = []) (hfree : (getTgt s k).locked = none)
    (hu : u = updTgt s k (fun _ =>
      { park := some (BitVec.ofNat 3 (masterNo a.m)), locked := if a.lock then some (BitVec.ofNat 3 (masterNo a.m)) else none })) :
    (a.granted = false → a.wr = true → priOf s a.m k ≠ 0 → Completes (.mmGrant g) s fun t =>
      t = { u with mmx := { u.mmx with accs := [{ a with granted := true, piece := false }], out := [] } }) ∧
    (a.granted = false → a.wr = false → a.len = 0 → a.done = 0 → a.lock = false → priOf s a.m k ≠ 0 →
      Completes (.mmGrant g) s fun t => t.mmx.accs = [] ∧ (getTgt t k).park = some (BitVec.ofNat 3 (masterNo a.m)) ∧
        t.mmx.out = [(masterNo a.m, (if (mmRead u a.addr.toNat).1 then 1#2 else 0#2), (mmRead u a.addr.toNat).2.1, true)]) ∧
    (a.granted = true → a.piece = true → a.wr = true → a.lock = false → Completes (.mmBurstPiece g) s fun t =>
      t = { u with mmx := { u.mmx with accs := [{ a with piece := false }], out := [] } }) ∧
    (a.granted = true → a.piece = true → a.wr = false → a.lock = false → a.done + 16 ≤ a.len → Completes (.mmBurstPiece g) s fun t =>
      t.mmx.accs = [{ a with done := a.done + 16 }] ∧ t.mmx.out.length = 16 ∧ ∀ b ∈ t.mmx.out, b.1 = masterNo a.m ∧ b.2.2.2 = false) := by
  subst htarget
  obtain rfl : u = grantedTgt s a := hu
  have hburst : a.granted = true → a.piece = true → exec (.mmBurstPiece g) s = answer s (mmArbitrate s a.target) := fun _ hp =>
    exec_mmBurstPiece hk hlt (by rw [contenders_lone hone hrefused hended hfree (.inr hp)]; simp [hp])
  have hgrant := exec_mmGrant (s := s) hk hlt
  refine ⟨fun hg hw hpri => ?_, fun hg hw hlen hdone hlock hpri => ?_, fun hg hp hw hlock => ?_, fun hg hp hw hlock hlong => ?_⟩
  · rw [grantedWrite hone hrefused hended hresp hfree hw (.inl ⟨hg, hpri⟩)] at hgrant
    exact completes_of_answer hgrant rfl rfl rfl rfl
  · obtain ⟨harb, hmmx⟩ := grantedRead hone hrefused hended hfree hlock hw (.inl ⟨hg, hpri⟩)
    rw [harb] at hgrant
    have hpiece : pieceBeats a = 1 := by
      unfold pieceBeats
      omega
    have hbeats : (pieceRead (grantedTgt s a) a).1 =
        [(if (mmRead (grantedTgt s a) a.addr.toNat).1 then 1#2 else 0#2, (mmRead (grantedTgt s a) a.addr.toNat).2.1, true)] := by
      unfold pieceRead
      rw [hpiece]
      simp [List.range_succ, readStep, hdone, hlen]
    have hlast : (pieceAcc (grantedTgt s a) a).ended = true := by
      unfold pieceAcc
      simp [hpiece, hdone, hlen]
    have hout : beatsOf (pieceAcc (grantedTgt s a) a) =
        [(masterNo a.m, (if (mmRead (grantedTgt s a) a.addr.toNat).1 then 1#2 else 0#2), (mmRead (grantedTgt s a) a.addr.toNat).2.1, true)] := by
      unfold beatsOf pieceAcc
      dsimp only
      rw [hbeats, hresp]
      rfl
    have hpark : (getTgt (grantedTgt s a) a.target).park = some (BitVec.ofNat 3 (masterNo a.m)) := by
      unfold grantedTgt
      rw [getTgt_updTgt]
    generalize readPiece (grantedTgt s a) a = v at hmmx hgrant
    rw [mmFlush_ended (by rw [hmmx]) hlast, hout] at hgrant
    refine completes_of_answered hgrant ⟨rfl, ?_, rfl⟩
    refine Eq.trans ?_ hpark
    unfold getTgt withAccs
    rw [hmmx]
  · have hexec := hburst hg hp
    rw [grantedWrite hone hrefused hended hresp hfree hw (.inr ⟨hg, hp⟩)] at hexec
    have hacc : { a with granted := true, piece := false } = { a with piece := false } := by rw [← hg]
    rw [hacc] at hexec
    exact completes_of_answer hexec rfl rfl rfl rfl
  · obtain ⟨harb, hmmx⟩ := grantedRead hone hrefused hended hfree hlock hw (.inr ⟨hg, hp⟩)
    have hexec := hburst hg hp
    rw [harb, longPiece hg hp hended hresp hlong hmmx] at hexec
    obtain ⟨hlength, hbeats⟩ := longPiece_beats (grantedTgt s a) hresp hlong
    generalize pieceAcc (grantedTgt s a) a = b at hexec hlength hbeats
    generalize readPiece (grantedTgt s a) a = v at hexec
    exact completes_of_answered hexec ⟨rfl, hlength, hbeats⟩

/-! Locks (19 R419). -/

/-- The lock of a target is broken, counted and notified. -/
def lockBroken (s : State) (k h : Nat) : State :=
  raiseG (setFlag (incSat (updTgt s k fun g => { g with locked := none }) (aMmx 0x18) 1) (aMmx 0) 2) 243 0x190 1 (h <<< 8 ||| k)

theorem lockBroken_spec (s : State) (k h : Nat) : (lockBroken s k h).mmx = (updTgt s k fun g => { g with locked := none }).mmx ∧
    bitOf (rd (lockBroken s k h) (aMmx 0)) 2 = true ∧
    (rd (lockBroken s k h) (aMmx 0x18)).toNat = min 0xFFFFFFFF ((rd s (aMmx 0x18)).toNat + 1) := by
  have hcount : (rd (setFlag (incSat (updTgt s k fun g => { g with locked := none }) (aMmx 0x18) 1) (aMmx 0) 2) (aMmx 0x18)).toNat =
      min 0xFFFFFFFF ((rd s (aMmx 0x18)).toNat + 1) := by
    rw [rd_setFlag, if_neg (by decide)]
    exact toNat_incSat ..
  have hflag : bitOf (rd (setFlag (incSat (updTgt s k fun g => { g with locked := none }) (aMmx 0x18) 1) (aMmx 0) 2) (aMmx 0)) 2 = true :=
    bitOf_setFlag_same _ _ (by decide)
  have hmmx : (setFlag (incSat (updTgt s k fun g => { g with locked := none }) (aMmx 0x18) 1) (aMmx 0) 2).mmx =
      (updTgt s k fun g => { g with locked := none }).mmx := rfl
  unfold lockBroken
  generalize setFlag (incSat (updTgt s k fun g => { g with locked := none }) (aMmx 0x18) 1) (aMmx 0) 2 = u at hcount hflag hmmx ⊢
  have hnoted := noted_raiseG u 243 0x190 1 (h <<< 8 ||| k)
  generalize raiseG u 243 0x190 1 (h <<< 8 ||| k) = t at hnoted ⊢
  refine ⟨?_, ?_, ?_⟩
  · rw [hnoted.whole]
    exact hmmx
  · exact (congrArg (fun w => bitOf w 2) (hnoted.words (aMmx 0) (by decide))).trans hflag
  · exact (congrArg BitVec.toNat (hnoted.words (aMmx 0x18) (by decide))).trans hcount

/-- The holder's last access, granted before. -/
def lastGranted (s : State) (k h : Nat) : Bool :=
  s.mmx.accs.any fun a => masterNo a.m == h && a.target == k && a.granted && !a.ended && !a.lock && !a.data

/-- The holder's next access, not yet granted. -/
def nextWaiting (s : State) (k h : Nat) : Option MmAcc :=
  s.mmx.accs.find? fun a => masterNo a.m == h && a.target == k && !a.granted && a.refused.isNone

section
variable {s : State} {g : BitVec 4} {h : BitVec 3} (hheld : (getTgt s g.toNat).locked = some h)
include hheld

theorem exec_lockBreak_spared (hlast : lastGranted s g.toNat h.toNat = true) : exec (.lockBreak g) s = answer s s := by
  have harm : exec (.lockBreak g) s = execLockBreak g s := rfl
  rw [harm, execLockBreak]
  dsimp only
  rw [hheld]
  exact congrArg (answer s) (if_pos hlast)

theorem exec_lockBreak_none (hlast : lastGranted s g.toNat h.toNat = false) (hnext : nextWaiting s g.toNat h.toNat = none) :
    exec (.lockBreak g) s = answer s { lockBroken s g.toNat h.toNat with mmx := { (lockBroken s g.toNat h.toNat).mmx with
      broken := insertNat (lockBroken s g.toNat h.toNat).mmx.broken (16 * h.toNat + g.toNat) } } := by
  have harm : exec (.lockBreak g) s = execLockBreak g s := rfl
  have hnext' : nextWaiting (lockBroken s g.toNat h.toNat) g.toNat h.toNat = none := by
    unfold nextWaiting
    rw [(lockBroken_spec s g.toNat h.toNat).1]
    exact hnext
  rw [harm, execLockBreak]
  dsimp only
  rw [hheld]
  refine congrArg (answer s) ((if_neg (Bool.eq_false_iff.mp hlast)).trans ?_)
  unfold nextWaiting lockBroken at hnext'
  rw [hnext']
  rfl

theorem exec_lockBreak_next {a : MmAcc} (hlast : lastGranted s g.toNat h.toNat = false) (hnext : nextWaiting s g.toNat h.toNat = some a) :
    exec (.lockBreak g) s = answer s (mmFlush (mmRefuse (lockBroken s g.toNat h.toNat) a 3)) := by
  have harm : exec (.lockBreak g) s = execLockBreak g s := rfl
  have hnext' : nextWaiting (lockBroken s g.toNat h.toNat) g.toNat h.toNat = some a := by
    unfold nextWaiting
    rw [(lockBroken_spec s g.toNat h.toNat).1]
    exact hnext
  rw [harm, execLockBreak]
  dsimp only
  rw [hheld]
  refine congrArg (answer s) ((if_neg (Bool.eq_false_iff.mp hlast)).trans ?_)
  unfold nextWaiting lockBroken at hnext'
  rw [hnext']
  rfl

end

theorem locks_complete (s : State) (g : BitVec 4) (h : BitVec 3) (hheld : (getTgt s g.toNat).locked = some h) :
    ((∀ a ∈ s.mmx.accs, masterNo a.m ≠ h.toNat ∨ a.target ≠ g.toNat) → Completes (.lockBreak g) s fun t =>
      (getTgt t g.toNat).locked = none ∧ 16 * h.toNat + g.toNat ∈ t.mmx.broken ∧ bitOf (rd t (aMmx 0)) 2 = true ∧
      (rd t (aMmx 0x18)).toNat = min 0xFFFFFFFF ((rd s (aMmx 0x18)).toNat + 1)) ∧
    (∀ a ∈ s.mmx.accs, masterNo a.m = h.toNat → a.target = g.toNat → a.granted = true → a.ended = false → a.lock = false → a.data = false →
      Completes (.lockBreak g) s fun t => t = s) ∧
    (∀ a, s.mmx.accs = [a] → masterNo a.m = h.toNat → a.target = g.toNat → a.granted = false → a.refused = none → a.wr = false →
      Completes (.lockBreak g) s fun t => (getTgt t g.toNat).locked = none ∧ t.mmx.accs = [] ∧
        t.mmx.out.map (fun b => (b.1, b.2.1)) = List.replicate (a.len + 1) (masterNo a.m, 3#2)) := by
  obtain ⟨hmmx, hflag, hcount⟩ := lockBroken_spec s g.toNat h.toNat
  have hopen : (getTgt (lockBroken s g.toNat h.toNat) g.toNat).locked = none := by
    unfold getTgt
    rw [hmmx]
    exact congrArg MmTgt.locked (getTgt_updTgt s g.toNat _)
  refine ⟨fun hnone => ?_, fun a ha hm ht hg he hl hd => ?_, fun a hone hm ht hg hr hw => ?_⟩
  · have hother : ∀ a ∈ s.mmx.accs, (masterNo a.m == h.toNat && a.target == g.toNat) = false := fun a ha => by
      rcases hnone a ha with hne | hne <;> simp [hne]
    have hlast : lastGranted s g.toNat h.toNat = false := by
      unfold lastGranted
      rw [List.any_eq_false]
      exact fun a ha => by rw [hother a ha]; simp
    have hnext : nextWaiting s g.toNat h.toNat = none := by
      unfold nextWaiting
      rw [List.find?_eq_none]
      exact fun a ha => by rw [hother a ha]; simp
    have hexec := exec_lockBreak_none hheld hlast hnext
    generalize lockBroken s g.toNat h.toNat = u at hopen hflag hcount hexec
    exact completes_of_answered hexec ⟨hopen, self_mem_insertNat .., hflag, hcount⟩
  · have hlast : lastGranted s g.toNat h.toNat = true := by
      unfold lastGranted
      rw [List.any_eq_true]
      exact ⟨a, ha, by simp [hm, ht, hg, he, hl, hd]⟩
    exact completes_of_eq_self (exec_lockBreak_spared hheld hlast)
  · have hlast : lastGranted s g.toNat h.toNat = false := by
      unfold lastGranted
      rw [hone]
      simp [hg]
    have hnext : nextWaiting s g.toNat h.toNat = some a := by
      unfold nextWaiting
      rw [hone, List.find?_cons_of_pos (by simp [hm, ht, hg, hr])]
    have hexec := exec_lockBreak_next hheld hlast hnext
    have hu : (lockBroken s g.toNat h.toNat).mmx.accs = [a] := by rw [hmmx]; exact hone
    generalize lockBroken s g.toNat h.toNat = u at hopen hu hexec
    obtain ⟨-, htgts, -, hread⟩ := mmRefuse_flushed (c := 3) hu (by decide)
    obtain ⟨hnone, hout, -⟩ := hread hw
    generalize mmFlush (mmRefuse u a 3) = t at htgts hnone hout hexec
    refine completes_of_answered hexec ⟨?_, hnone, hout⟩
    refine Eq.trans ?_ hopen
    unfold getTgt
    rw [htgts]

end Sys2Proof.Machine
end

section
/-! PROOF. A register write never changes what a command's outcome holds fixed, and the matrix's write beats (00 R2, R7; 19 R411, R416, R417; 22
R464; for O47). -/

namespace Sys2Proof.Machine

/-! What the outcome of a command holds fixed. -/

/-- What was generated, the queue of events and the life-cycle fuses. -/
def rootOf (s : State) : Gen × List Instr × Fuses := (s.gen, s.pending, s.lcs.fuse)

theorem answer_of_root {s t : State} (h : Keeps rootOf s t) : answer s t = .next t := by
  simp only [Keeps, rootOf, Prod.mk.injEq] at h
  obtain ⟨hgen, hpending, hfuse⟩ := h
  exact answer_eq_of_fuse hgen hpending hfuse

theorem nextOf_answer_root (s t : State) : Keeps rootOf s (nextOf (answer s t) s) := rfl

theorem Noted.root {s t : State} (h : Noted s t) : Keeps rootOf s t := by
  have hwhole := h.whole
  unfold Keeps
  rw [hwhole]
  rfl

theorem SlotOnly.root {n : Nat} {s t : State} (h : SlotOnly n s t) : Keeps rootOf s t := by
  have hwhole := h.whole
  unfold Keeps
  rw [hwhole]
  rfl

theorem NiBlock.root {n : Nat} {s t : State} (h : NiBlock n s t) : Keeps rootOf s t := by
  have hwhole := h.whole
  unfold Keeps
  rw [hwhole]
  rfl

theorem SpanWork.root {B : Nat → Nat → Prop} {s t : State} (h : SpanWork B s t) : Keeps rootOf s t := by
  have hwhole := h.whole
  unfold Keeps
  rw [hwhole]
  rfl

theorem withPwr_root (s : State) (p : Pwr) : Keeps rootOf s { s with pwr := p } := rfl

/-! Slots, resets and faults. -/

theorem slotCtl_root (s : State) (n v : Nat) : Keeps rootOf s (slotCtl s n v) := by
  have hresult : ∀ t r, Keeps rootOf t (slotResult t n r) := fun t r => (slotResult_niOnly ..).slotOnly.root
  have hpreq : Keeps rootOf s (updSlt s n fun q => { q with preq := false }) := rfl
  have hoff : Keeps rootOf s (slotOff s n (v.testBit 2)) := by
    refine .ite (hresult s 3) (.ite (hresult s 4) ?_)
    exact Keeps.trans (.ite (hpreq.trans (slotLeave_slotOnly ..).root) hpreq) (hresult _ 0)
  exact .ite (slotMclr_niOnly ..).slotOnly.root (.ite (slotClear_niOnly ..).slotOnly.root (.ite (slotPlock_spec ..).1.root
    (.ite hoff (.ite (slotPowerOn_niOnly ..).slotOnly.root (.refl _ s)))))

theorem niResetMask_root (s : State) (w mask : Nat) : Keeps rootOf s (niResetMask s w mask) :=
  Keeps.foldl (fun t _ _ => (niResetBegin_block t _ 1).root) s

theorem warmStart_root (s : State) (cause : Nat) : Keeps rootOf s (warmStart s cause) := by
  by_cases h : s.rst.warm ≠ 0 ∨ s.rst.inCold
  · rw [warmStart, if_pos h]
    exact .refl _ s
  · rw [not_or, not_not, Bool.not_eq_true] at h
    rw [warmStart_eq cause h.1 h.2]
    have hview := (warmQuiesced_spec (warmMarked s cause)).1
    have hmarked : Keeps rootOf s (warmMarked s cause) := rfl
    have hquiet : Keeps rootOf (warmMarked s cause) (warmQuiesced (warmMarked s cause)) := by
      simp only [Keeps, warmView, Prod.mk.injEq] at hview
      obtain ⟨hgen, hpending, hlcs, -⟩ := hview
      unfold Keeps rootOf
      rw [hgen, hpending, hlcs]
    have hpower : ∀ t, Keeps rootOf t (warmPower t) := fun t => by
      rw [(warmPower_spec t).2]
      rfl
    exact ((hmarked.trans hquiet).trans (.ite (by rfl) (.refl _ _))).trans (hpower _)

theorem declareRouter_root (s : State) (x cause : Nat) : Keeps rootOf s (declareRouter s x cause) := by
  by_cases h : isRtr s x = true ∧ (getRtr s x).failed = false
  · have hcut : Keeps rootOf s (rtrCut s x) := by
      have hneighbour : ∀ t port, Keeps rootOf t (cutNeighbour t x port) := fun t port => by
        unfold cutNeighbour
        split <;> rfl
      have hni : ∀ t k, Keeps rootOf t (rtrLosesNi x t k) := fun t k => by
        unfold rtrLosesNi
        split <;> rfl
      have hspan : ∀ t, ∀ p ∈ List.range 8, Keeps rootOf t (rtrLosesSpan s x t p) := fun t p hp =>
        .ite (spanDown_spanWork t (List.mem_range.mp hp) 5).root (.refl _ t)
      have hmark : Keeps rootOf s (updRtr s x fun r => { r with failed := true, req := {}, rsp := {}, gather := [], self := [] }) := rfl
      exact ((hmark.trans (Keeps.foldl (fun t port _ => hneighbour t port) _)).trans (Keeps.foldl (fun t k _ => hni t k) _)).trans
        (Keeps.foldl hspan _)
    have hdecl : ∀ t, Keeps rootOf t (rtrDeclared t x cause (nowNs s)) := fun t => by
      have hflag : Keeps rootOf t (setFlag t 0x500 0) := rfl
      exact hflag.trans (noted_raiseG (setFlag t 0x500 0) 246 0x183 2 (x ||| cause <<< 8)).root
    rw [declareRouter_eq cause h.1 h.2]
    have hboth := hcut.trans (hdecl (rtrCut s x))
    generalize rtrDeclared (rtrCut s x) x cause (nowNs s) = u at hboth
    split
    · have hflag : Keeps rootOf u (setFlag u 0x500 3) := rfl
      exact (hboth.trans hflag).trans (noted_raiseG ..).root
    · exact hboth
  · have hno : (!isRtr s x || (getRtr s x).failed) = true := by
      rw [Bool.or_eq_true, Bool.not_eq_true']
      rw [not_and_or, Bool.not_eq_true, Bool.not_eq_false] at h
      exact h
    unfold declareRouter
    rw [if_pos hno]
    exact .refl _ s

theorem KeepsPower.root {s t : State} (h : KeepsPower s t) : Keeps rootOf s t := by
  simp only [KeepsPower, Keeps, powerView, Prod.mk.injEq] at h
  obtain ⟨hgen, -, hpending, hlcs⟩ := h
  unfold Keeps rootOf
  rw [hgen, hpending, hlcs]

theorem fltRestore_root (s : State) (v : Nat) : Keeps rootOf s (fltRestore s v) := by
  have hflags : ∀ t c, KeepsPower t (rtrFlags t c) := fun t c => Keeps.foldl (fun t x _ => wordsReset_keepsPower t _ _ _) t
  have hlinks : ∀ t (l : List Nat), KeepsPower t (l.foldl freshLinks t) := fun t l => Keeps.foldl (fun t x _ => freshLinks_keepsPower t x) t
  unfold fltRestore
  split
  · next x _ =>
    split
    · have hkeep := ((loseRegion_keepsPower s 0 (rtrCol s x)).trans (hflags _ (rtrCol s x))).trans (hlinks _ (colRtrs s (rtrCol s x)))
      have hroot := KeepsPower.root hkeep
      dsimp only
      generalize (colRtrs s (rtrCol s x)).foldl freshLinks (rtrFlags (loseRegion s 0 (rtrCol s x)) (rtrCol s x)) = u at hroot ⊢
      exact hroot
    · exact .refl _ s
  · exact .refl _ s

/-! Power requests (16 R352). -/

theorem pwrFinish_root (s : State) (r : BitVec 24) (code : Nat) (agedown : Bool) : Keeps rootOf s (pwrFinish s r code agedown) := by
  have hwhole := (pwrFinish_ended s r code agedown).whole
  unfold Keeps
  rw [hwhole]
  rfl

theorem driveVid_root (s : State) (code : Nat) (wait : Bool) : Keeps rootOf s (driveVid s code wait) := by
  rw [driveVid_spec]
  rfl

theorem drainBegin_root (s : State) (q : PwrReq) : Keeps rootOf s (drainBegin s q) := by
  have hjobs : ∀ t b, Keeps rootOf t (moveJobs t b) := fun t b => by
    have hwhole := moveJobs_eng t b
    generalize moveJobs t b = u at hwhole ⊢
    unfold Keeps
    rw [hwhole]
    rfl
  have hdrain : ∀ t m d, Keeps rootOf t (drainHandshake (startDrain t m d) m) := fun t m d => by
    have hstart : Keeps rootOf t (startDrain t m d) := rfl
    exact hstart.trans (.ite (portAsked_spec (startDrain t m d) m).1.root (.refl _ _))
  unfold drainBegin
  dsimp only
  split
  · exact (withPwr_root s _).trans (hjobs ..)
  · exact (withPwr_root s _).trans (hdrain ..)
  · rfl

theorem loseRegion_root (s : State) (kind i : Nat) : Keeps rootOf s (loseRegion s kind i) := KeepsPower.root (loseRegion_keepsPower s kind i)

theorem pwrTry_root (s : State) (q : PwrReq) : OkKeeps rootOf s (pwrTry s q) := by
  have hlevel : ∀ p code, Keeps rootOf s (driveVid { s with pwr := p } code true) := fun p code => (withPwr_root s p).trans (driveVid_root ..)
  have hphase : ∀ (t : State) (ph : Nat), Keeps rootOf t (setPhase t ph) := fun _ _ => rfl
  refine .ite (.error _) (.ite ?level (.ite (.error _) (.ite (.error _) (.ite ?wake ?sleep))))
  case level => exact .ite (.error _) (.ite (.error _) (.ite (.ok rfl) (.ok (.ite (hlevel _ _) ((hlevel _ _).trans (hphase _ 1))))))
  case wake => exact .ite (.error _) (.ite (.ok rfl) (.ite (.ok rfl) (.ok rfl)))
  case sleep =>
    split
    · exact .error _
    · refine .ite (.ite (.ok rfl) (.ok (drainBegin_root s q))) (.ok (Keeps.trans (.ite ?_ (.refl _ s)) (withPwr_root _ _)))
      exact (withPwr_root s _).trans (loseRegion_root ..)

theorem pwrNext_root (s : State) (fuel : Nat) : Keeps rootOf s (pwrNext s fuel) := by
  induction fuel generalizing s with
  | zero => rfl
  | succ f ih =>
    have htry : ∀ (s1 : State) (q : PwrReq) (r : BitVec 24) (agedown : Bool), Keeps rootOf s s1 → Keeps rootOf s
        (match pwrTry s1 q with | .ok t => t | .error c => pwrNext (pwrFinish s1 r c agedown) f) := by
      intro s1 q r agedown h
      split
      next t ht => exact h.trans (pwrTry_root s1 q t ht)
      · exact (h.trans (pwrFinish_root ..)).trans (ih _)
    unfold pwrNext
    refine .ite (.refl _ s) ?_
    split
    · exact htry _ _ _ _ (withPwr_root s _)
    · split
      · exact htry _ _ _ _ (withPwr_root s _)
      · rfl

theorem pwrWrite_root (s : State) (r : BitVec 24) : Keeps rootOf s (pwrWrite s r) := by
  have hended : ∀ old, Keeps rootOf s (pwrOutcome s old 1) := fun old => by
    have hwhole := (pwrOutcome_notedIn s old 1).whole
    unfold Keeps
    rw [hwhole]
    rfl
  have hpend : Keeps rootOf s (match s.pwr.pend with | some old => pwrOutcome s old 1 | none => s) := by
    split
    · exact hended _
    · rfl
  exact (hpend.trans (withPwr_root _ _)).trans (pwrNext_root _ 3)

/-! Tokens, images, the journal and the counters. -/

theorem tokenStat_root (s : State) (code : Nat) : Keeps rootOf s (tokenStat s code) := by
  have hword : Keeps rootOf s (setFlag (wrF s (aLcs 0x28) 15 8 code) (aLcs 0x28) 1) := rfl
  exact .ite rfl (hword.trans (noted_raiseG ..).root)

theorem tokenAbortWrite_root (s : State) : Keeps rootOf s (tokenAbortWrite s) := by
  have hgone : Keeps rootOf s (tokenLeft s) := rfl
  have hend : Keeps rootOf s (tokenEnd s 0x0B) := hgone.trans (tokenStat_root (tokenLeft s) 0x0B)
  exact .ite hend (.refl _ s)

theorem tokenStartWrite_root (s : State) : Keeps rootOf s (tokenStartWrite s) := .ite (tokenStat_root s _) rfl

theorem tokenDataWrite_root (s : State) (v : Word) : Keeps rootOf s (tokenDataWrite s v) := .ite rfl rfl

theorem sessionEnd_root (s : State) : Keeps rootOf s (sessionEnd s) := by
  have hwhole := (sessionEnd_coldSame s).whole
  have hlcs := sessionEnd_lcs s
  generalize sessionEnd s = t at hwhole hlcs ⊢
  unfold Keeps rootOf
  rw [hlcs, hwhole]

theorem keyWrite_root (s : State) (m : Master) (v : Nat) (fuseOk : Bool) : Keeps rootOf s (keyWrite s m v fuseOk) := by
  have hkey : ∀ ml i (k : BitVec 384), Keeps rootOf s (setKey s ml i k) := fun ml i k => by
    cases ml <;> rfl
  have hflag : ∀ ml i (k : BitVec 384), Keeps rootOf s (setFlag (setKey s ml i k) (aLcs 0x50) 33) := fun ml i k => by
    cases ml <;> rfl
  exact .ite (.refl _ s) (.ite rfl (.ite (hkey ..) (hflag ..)))

theorem imgRefusal_root (s : State) (code sub : Nat) : Keeps rootOf s (imgRefusal s code sub) := by
  obtain ⟨-, hgen, hpending, hlcs, -⟩ := imgRefusal_spec s code sub
  unfold Keeps rootOf
  rw [hgen, hpending, hlcs]

theorem imgRefuse_root (s : State) (code sub : Nat) : Keeps rootOf s (imgRefuse s code sub) := by
  obtain ⟨-, hgen, hpending, hlcs, -⟩ := imgRefuse_spec s code sub
  unfold Keeps rootOf
  rw [hgen, hpending, hlcs]

theorem imgStartWrite_root (s : State) : Keeps rootOf s (imgStartWrite s) :=
  .ite (imgRefusal_root s _ _) (.ite (imgRefusal_root s _ _) rfl)

theorem imgAbortWrite_root (s : State) : Keeps rootOf s (imgAbortWrite s) := .ite rfl (.refl _ s)

theorem imgDataWrite_root (s : State) (v : Word) : Keeps rootOf s (imgDataWrite s v) := by
  have htake : ∀ (t : State) (old : Nat), Keeps rootOf t (imgTake t old) := fun t old => by
    unfold imgTake
    split
    · exact imgRefuse_root ..
    · have hhdr : Keeps rootOf t (if t.img.bytes.length = 256 then wr t (aImg 0x28) (BitVec.ofNat 64 (hdrSeq t.img.bytes)) else t) :=
        .ite rfl (.refl _ t)
      exact .ite (hhdr.trans rfl) hhdr
  have hbytes : Keeps rootOf s (withBytes s (s.img.bytes ++ bytesOf 8 v.toNat)) := rfl
  exact .ite rfl (hbytes.trans (htake (withBytes s (s.img.bytes ++ bytesOf 8 v.toNat)) s.img.bytes.length))

theorem groomStart_root (s : State) (key : Nat) : Keeps rootOf s (groomStart s key) := by
  have hreserve : ∀ (t : State) (h : Nat), Keeps rootOf t (reserve t h) := fun t h => by
    have hlp : ∀ off w, Keeps rootOf t (setLp t h off w) := fun _ _ => rfl
    exact hlp ..
  have hpush : ∀ t k, Keeps rootOf t (pushJobs t k) := fun t k => by
    have hwhole := pushJobs_eng t k
    generalize pushJobs t k = u at hwhole ⊢
    unfold Keeps
    rw [hwhole]
    rfl
  have hupd : ∀ (t : State) (f : Cmd → Cmd), Keeps rootOf t (updCmd (setFlag t (aJrn 8) 1) key f) := fun _ _ => rfl
  have hjrn : ∀ j : Jrn, Keeps rootOf s { s with jrn := j } := fun _ => rfl
  unfold groomStart
  dsimp only
  generalize hu : reserve _ 1 = u
  have hreserved : Keeps rootOf s u := by
    rw [← hu]
    exact ((hjrn _).trans (hreserve _ 0)).trans (hreserve _ 1)
  generalize hv : updCmd _ key _ = v
  have hstarted : Keeps rootOf u v := by
    rw [← hv]
    exact hupd u _
  exact (hreserved.trans hstarted).trans (hpush v key)

theorem submitGroom_root (s : State) : Keeps rootOf s (submitGroom s) := by
  have hadd : ∀ c, Keeps rootOf s (addCmd s c) := fun _ => rfl
  exact .ite (.refl _ s) ((hadd _).trans (groomStart_root _ _))

theorem snapWrite_root (s : State) (v : Word) : Keeps rootOf s (snapWrite s v) := .ite rfl (.ite rfl rfl)

/-! The write of a word. -/

theorem plainWrite_root (s : State) (a : Nat) (v mask : Word) : Keeps rootOf s (plainWrite s a v mask) := by
  have hpend : ∀ (t : State) (b : Nat) (w : Word), Keeps rootOf t (pendWord t b w) := fun _ _ _ => rfl
  have hword : ∀ w, Keeps rootOf s (wr s a w) := fun _ => rfl
  unfold plainWrite
  exact .ite (hword _) ((hword _).trans (hpend ..))

theorem ringWrite_root (s : State) (q k : Nat) (v mask : Word) : Keeps rootOf s (ringWrite s q k v mask) := by
  have hreset : ∀ t b, Keeps rootOf t (nextOf (execRingReset b t) t) := fun t b => nextOf_answer_root t _
  have hresume : ∀ t b, Keeps rootOf t (nextOf (execRingResume b t) t) := fun t b => nextOf_answer_root t _
  have hpi : ∀ b w, Keeps rootOf s (nextOf (execRingPiWrite b w s) s) := fun b w => nextOf_answer_root s _
  have hrci : ∀ b w, Keeps rootOf s (nextOf (execRingRciWrite b w s) s) := fun b w => nextOf_answer_root s _
  have hfirst : ∀ b, Keeps rootOf s (if bitOf v 1 then nextOf (execRingReset b s) s else s) := fun b => .ite (hreset ..) (.refl _ s)
  unfold ringWrite
  dsimp only
  split
  · exact hpi ..
  · exact hrci ..
  · exact .ite ((hfirst _).trans (hresume ..)) (hfirst _)
  · exact plainWrite_root ..

theorem niWrite_root (s : State) (n off : Nat) (v mask : Word) : Keeps rootOf s (niWrite s n off v mask) := by
  have hslice : ∀ b w, Keeps rootOf s (nextOf (execNiSlcRst b w s) s) := fun b w => nextOf_answer_root s _
  have hflush : Keeps rootOf s (etcFlush s n) := rfl
  unfold niWrite
  split
  · exact hslice ..
  · exact .ite hflush (.refl _ s)
  · exact .ite (slotCtl_root ..) (.refl _ s)
  · exact plainWrite_root ..

theorem spanWrite_root (s : State) (p : SpId) (v : Word) : Keeps rootOf s
    (if bitOf v 1 then nextOf (execSpnForceDown p (if bitOf v 0 then nextOf (execSpnRetrain p s) s else s)) (if bitOf v 0 then nextOf (execSpnRetrain p s) s else s)
      else if bitOf v 0 then nextOf (execSpnRetrain p s) s else s) := by
  have hretrain : Keeps rootOf s (if bitOf v 0 then nextOf (execSpnRetrain p s) s else s) := .ite (nextOf_answer_root s _) (.refl _ s)
  have hdown : ∀ t, Keeps rootOf t (nextOf (execSpnForceDown p t) t) := fun t => nextOf_answer_root t _
  exact .ite (hretrain.trans (hdown _)) hretrain

theorem timStep_root (s : State) (v : Word) : Keeps rootOf s (timStep s v) := by
  have hflag : Keeps rootOf s (setFlag s (aTim 0x40) 4) := rfl
  have htime : ∀ u : Time, Keeps rootOf s { s with time := u } := fun _ => rfl
  exact .ite hflag (htime _)

theorem timSlew_root (s : State) (v : BitVec 32) : Keeps rootOf s (timSlew s v) := by
  have hflag : Keeps rootOf s (setFlag s (aTim 0x40) 5) := rfl
  have htime : ∀ u : Time, Keeps rootOf s { s with time := u } := fun _ => rfl
  exact .ite hflag (htime _)

theorem ppsRestart_root (old s : State) : Keeps rootOf s (ppsRestart old s) := by
  have htime : ∀ u : Time, Keeps rootOf s { s with time := u } := fun _ => rfl
  exact .ite (htime _) (.refl _ s)

theorem wordWrite_root (s : State) (m : Master) (a : Nat) (v mask : Word) : Keeps rootOf s (wordWrite s m a v mask).2 := by
  have hplain : ∀ w, Keeps rootOf s (plainWrite s a w mask) := fun w => plainWrite_root ..
  have hrecover : Keeps rootOf s (nextOf (execJrnRecover s) s) := nextOf_answer_root s _
  have hthr : ∀ j, Keeps rootOf s (thrWrite s j v) := fun _ => rfl
  have hkbuf : ∀ j, Keeps rootOf s (kbufWrite s j v) := fun _ => rfl
  have hlock : Keeps rootOf s (timLock s) := rfl
  have hcold : Keeps rootOf s (coldReset s 2) := rfl
  have hfree : Keeps rootOf s (takeFree s).2 := rfl
  have hdecl : ∀ w, Keeps rootOf s (fltDecl s w) := fun w => .ite (declareRouter_root ..) (.refl _ s)
  unfold wordWrite
  split
  · exact .refl _ s
  split
  · dsimp only
    exact niWrite_root ..
  split
  · dsimp only
    exact ringWrite_root ..
  split
  · dsimp only
    exact spanWrite_root ..
  split
  · dsimp only
    exact hthr _
  split
  · dsimp only
    exact hkbuf _
  split <;> dsimp only
  · exact .ite hcold (.ite (warmStart_root s 4) (.refl _ s))
  · exact niResetMask_root ..
  · exact niResetMask_root ..
  · exact hdecl _
  · exact fltRestore_root ..
  · exact (plainWrite_root ..).trans (ppsRestart_root ..)
  · exact plainWrite_root ..
  · exact timStep_root ..
  · exact .ite (plainWrite_root ..) ((plainWrite_root ..).trans (timSlew_root ..))
  · exact .ite hlock (.refl _ s)
  · exact pwrWrite_root ..
  · have habort : Keeps rootOf s (if bitOf v 1 then tokenAbortWrite s else s) := .ite (tokenAbortWrite_root s) (.refl _ s)
    exact .ite (habort.trans (tokenStartWrite_root _)) habort
  · exact tokenDataWrite_root ..
  · exact .ite (sessionEnd_root s) (.refl _ s)
  · exact hfree.trans (keyWrite_root ..)
  · have habort : Keeps rootOf s (if bitOf v 1 then imgAbortWrite s else s) := .ite (imgAbortWrite_root s) (.refl _ s)
    exact .ite (habort.trans (imgStartWrite_root _)) habort
  · exact imgDataWrite_root ..
  · have hasked : Keeps rootOf s (if bitOf v 0 then nextOf (execJrnRecover s) s else s) := .ite hrecover (.refl _ s)
    exact .ite (hasked.trans (submitGroom_root _)) hasked
  · exact snapWrite_root ..
  · exact hplain _

theorem regWrite_root (s : State) (m : Master) (addr : Nat) (v : Word) (strb : BitVec 8) : Keeps rootOf s (regWrite s m addr v strb).2 := by
  unfold regWrite
  split
  · exact .refl _ s
  split
  · exact .refl _ s
  split
  · exact .refl _ s
  split
  · exact .refl _ s
  dsimp only
  split
  · exact .refl _ s
  split
  · exact .refl _ s
  · exact wordWrite_root ..

/-! Write beats (19 R411, R416, R417). -/

section
variable {s : State} {a : MmAcc} (hone : s.mmx.accs = [a]) (hw : a.wr = true) (hended : a.ended = false) (v : Word) (strb : BitVec 8)
include hone hw hended

/-- The beat goes to the lone write. -/
theorem writeBeat_taken : (s.mmx.accs.find? fun b => b.m == a.m && b.wr && !b.ended) = some a := by
  rw [hone, List.find?_cons_of_pos (by simp [hw, hended])]

theorem exec_mmWriteBeat_refused {c : BitVec 2} (hrefused : a.refused = some c) (hlast : a.done = a.len) :
    exec (.mmWriteBeat a.m v strb) s = answer s (mmFlush (mmEnd s { a with done := a.done + 1 } c)) := by
  have harm : exec (.mmWriteBeat a.m v strb) s = execMmWriteBeat a.m v strb s := rfl
  rw [harm, execMmWriteBeat, writeBeat_taken hone hw hended]
  dsimp only
  rw [hrefused]
  dsimp only
  rw [if_pos (by rw [hlast])]

theorem exec_mmWriteBeat_performed (hrefused : a.refused = none) (hgranted : a.granted = true) (hpiece : a.piece = false) :
    exec (.mmWriteBeat a.m v strb) s = answer s (mmFlush (writeBeat s a v strb)) := by
  have harm : exec (.mmWriteBeat a.m v strb) s = execMmWriteBeat a.m v strb s := rfl
  rw [harm, execMmWriteBeat, writeBeat_taken hone hw hended]
  dsimp only
  rw [hrefused]
  dsimp only
  rw [if_pos (by rw [hgranted, hpiece]; rfl)]

end

/-- The access after a beat. -/
def beatAcc (a : MmAcc) (err : Bool) : MmAcc := { a with done := a.done + 1, err := a.err || err }

theorem writeBeat_last {s : State} {a : MmAcc} {v : Word} {strb : BitVec 8} {r : Bool × State}
    (hr : r = regWrite s a.m (a.addr.toNat + 8 * a.done) v strb) (hlast : a.done = a.len) : writeBeat s a v strb =
      mmUnlock (mmEnd r.2 (beatAcc a r.1) (if a.err || r.1 then 1 else 0)) (beatAcc a r.1) := by
  subst hr
  exact if_pos (by rw [hlast])

theorem writeBeat_next {s : State} {a : MmAcc} {v : Word} {strb : BitVec 8} {r : Bool × State}
    (hr : r = regWrite s a.m (a.addr.toNat + 8 * a.done) v strb) (hmore : a.done < a.len) : writeBeat s a v strb =
      updAcc r.2 a.id fun _ => { beatAcc a r.1 with piece := (a.done + 1) % 16 == 0 } := by
  subst hr
  exact if_neg (by dsimp only; omega)

/-- The end of a lock changes targets alone, which a return of responses does not read. -/
theorem mmFlush_mmUnlock (s : State) (a : MmAcc) : (mmFlush (mmUnlock s a)).mmx.accs = (mmFlush s).mmx.accs ∧
    (mmFlush (mmUnlock s a)).mmx.out = (mmFlush s).mmx.out ∧ (mmFlush (mmUnlock s a)).regs = (mmFlush s).regs := by
  unfold mmUnlock
  split
  · exact ⟨rfl, rfl, rfl⟩
  · exact ⟨rfl, rfl, rfl⟩

theorem writeBeats_complete (s : State) (a : MmAcc) (v : Word) (strb : BitVec 8) (r : Bool × State) (hone : s.mmx.accs = [a]) (hw : a.wr = true)
    (hended : a.ended = false) (hresp : a.resp = []) :
    (∀ c, a.refused = some c → a.done = a.len → Completes (.mmWriteBeat a.m v strb) s fun t =>
      t.mmx.accs = [] ∧ t.mmx.out.map (fun b => (b.1, b.2.1)) = [(masterNo a.m, c)]) ∧
    (a.refused = none → a.granted = true → a.piece = false → r = regWrite s a.m (a.addr.toNat + 8 * a.done) v strb → r.2.mmx = s.mmx →
      (a.done = a.len → Completes (.mmWriteBeat a.m v strb) s fun t =>
        t.mmx.accs = [] ∧ t.mmx.out.map (fun b => (b.1, b.2.1)) = [(masterNo a.m, if a.err || r.1 then 1#2 else 0#2)] ∧
        ∀ b, b ≠ aMmx 8 → rd t b = rd r.2 b) ∧
      (a.done < a.len → Completes (.mmWriteBeat a.m v strb) s fun t =>
        t.mmx.accs = [{ a with done := a.done + 1, err := a.err || r.1, piece := (a.done + 1) % 16 == 0 }] ∧ t.mmx.out = [] ∧
        t = { r.2 with mmx := t.mmx })) := by
  have hbeats : ∀ (b : MmAcc) (c : BitVec 2), b.wr = true → b.m = a.m →
      List.replicate (if b.wr then 1 else b.len + 1) (masterNo b.m, c) = [(masterNo a.m, c)] := fun b c hbw hbm => by
    rw [if_pos hbw, hbm]
    rfl
  refine ⟨fun c hrefused hlast => ?_, fun hrefused hgranted hpiece hr hmmx => ⟨fun hlast => ?_, fun hmore => ?_⟩⟩
  · have hexec := exec_mmWriteBeat_refused hone hw hended v strb hrefused hlast
    obtain ⟨hnone, hout, -⟩ := mmEnd_flushed (s := s) (a := { a with done := a.done + 1 }) (b := a) (code := c) hone rfl
    rw [hbeats { a with done := a.done + 1 } c hw rfl] at hout
    generalize mmFlush (mmEnd s { a with done := a.done + 1 } c) = t at hnone hout hexec
    exact completes_of_answered hexec ⟨hnone, hout⟩
  · have hexec := exec_mmWriteBeat_performed hone hw hended v strb hrefused hgranted hpiece
    rw [writeBeat_last hr hlast] at hexec
    have hafter : r.2.mmx.accs = [a] := by rw [hmmx]; exact hone
    obtain ⟨hnone, hout, -, hwords, -⟩ := mmEnd_flushed (s := r.2) (a := beatAcc a r.1) (b := a) (code := if a.err || r.1 then 1 else 0) hafter rfl
    rw [hbeats (beatAcc a r.1) _ hw rfl] at hout
    obtain ⟨haccs, houts, hregs⟩ := mmFlush_mmUnlock (mmEnd r.2 (beatAcc a r.1) (if a.err || r.1 then 1 else 0)) (beatAcc a r.1)
    generalize mmFlush (mmEnd r.2 (beatAcc a r.1) (if a.err || r.1 then 1 else 0)) = u at hnone hout hwords haccs houts hregs
    generalize mmFlush (mmUnlock _ (beatAcc a r.1)) = t at haccs houts hregs hexec
    refine completes_of_answered hexec ⟨haccs.trans hnone, (congrArg _ houts).trans hout, fun b hb => Eq.trans ?_ (hwords b hb)⟩
    exact congrArg (fun l : Map Word => mgetD l b (resetWord b)) hregs
  · have hexec := exec_mmWriteBeat_performed hone hw hended v strb hrefused hgranted hpiece
    have hafter : r.2.mmx.accs = [a] := by rw [hmmx]; exact hone
    have hroot : Keeps rootOf s r.2 := by rw [hr]; exact regWrite_root ..
    rw [writeBeat_next hr hmore, updAcc_single hafter,
      mmFlush_quiet (a := { beatAcc a r.1 with piece := (a.done + 1) % 16 == 0 }) rfl hended hresp] at hexec
    have hkept : Keeps rootOf s (withAccs (withAccs r.2 [{ beatAcc a r.1 with piece := (a.done + 1) % 16 == 0 }] r.2.mmx.out)
        [{ beatAcc a r.1 with piece := (a.done + 1) % 16 == 0 }] []) := hroot
    exact ⟨_, hexec.trans (answer_of_root hkept), rfl, rfl, rfl⟩

/-- Settles O47: a lone access is judged, granted or answered as the rule for it says, its write beats too; a register write changes nothing
that the outcome of a command holds fixed. -/
theorem matrixServesAccesses : Obligations.MatrixServesAccesses := by
  unfold Obligations.MatrixServesAccesses
  exact ⟨mmRequests_complete, mmGrants_complete, writeBeats_complete, locks_complete⟩

end Sys2Proof.Machine
end
